-- ==== Sys2Proof/Syntax.lean ====
section
/-!
DEFINITION. The commands of the block: one constructor of `Instr` for each row of spec/opcode_table.json, in the table's
order, with the quantities that the row's event or access carries as operands.
-/

namespace Sys2Proof

/-- The three access ports (R12, R17): PCIe, the SPI host port and firmware. -/
inductive Port where
  | pcie | spi | fw
deriving DecidableEq, Repr

/-- Width of one register access (R12, R13). -/
inductive AccSize where
  | b8 | b16 | b32 | b64
deriving DecidableEq, Repr

/-- The Bell dies: North is die 0, South is die 1 (R24). -/
abbrev Die := Fin 2

/-- The phase-locked loops (R74, R81, R84). -/
inductive Pll where
  | sys | north | south | slide
deriving DecidableEq, Repr

/-- The stores of the harvester (R49). -/
inductive Store where
  | vq | vb
deriving DecidableEq, Repr

/-- Why the loader abandons a running command (R110). -/
inductive FingAbort where
  | left | source | link
deriving DecidableEq, Repr

/-- What a measured self-calibration finds for one converter (R153): offset in 1/16 LSB, gain in 2⁻²², sixteen weights in
1/32 LSB, each before the field's range is applied. -/
structure CalMeas where
  ofs : Int
  gain : Int
  w : List Int
deriving DecidableEq, Repr

/-- What converter inputs carry at a sampling instant, in volts, exactly: the differential voltages of pairs A and B, the
external reference, VDDA and VGT; and the die temperature in kelvin (R136–R138). -/
structure ConvIn where
  a : Rat := 0
  b : Rat := 0
  ext : Rat := 0
  vdda : Rat := 0
  vgt : Rat := 0
  temp : Rat := 0
deriving DecidableEq, Repr

/-- The payload of a HELLO frame (R404): wanted role, unpair flag, `SYS_REV`, the first 32 bytes of `FING_HASH` and the random
value (byte 0 lowest), and the mirror load. -/
structure HelloMsg where
  want : BitVec 8
  unpair : Bool
  rev : Word
  hash : BitVec 256
  load : BitVec 16
  rnd : BitVec 256
deriving DecidableEq, Repr

/-- The payload of a HEART frame (R404). -/
structure HeartMsg where
  time : BitVec 64
  role : BitVec 2
  mode : BitVec 3
  origin : BitVec 3
  recovered : Bool
  causes : BitVec 12
deriving DecidableEq, Repr

/-- How a HELLO is protected (R404): a pairing frame carries its tag, a session frame, whose tag verified, bits 39:0 of the
sender's counter. -/
inductive HelloAuth where
  | pairing (tag : BitVec 128)
  | session (ctr : BitVec 40)
deriving DecidableEq, Repr

/-- A CAN frame (R411): identifier of 29 bits, or of 11 bits in bits 10:0, and its data bytes. -/
structure CanMsg where
  ide : Bool
  id : BitVec 29
  rtr : Bool
  fdf : Bool
  brs : Bool
  esi : Bool
  dlc : BitVec 4
  data : List Byte
deriving DecidableEq, Repr

/-- Errors on a CAN bus (R432), and a recessive res bit (R411). -/
inductive CanFault where
  | stuff | form | ack | bitRec | bitDom | crc | res
deriving DecidableEq, Repr

/-- What wakes a sleeping controller (R422): a dominant level that has been held for `us` µs, a frame (`good`: its CRC passed), or
a `CAN[k]_CTL` word with `sleep` 0. -/
inductive CanWakeBy where
  | level (us : BitVec 16)
  | frame (m : CanMsg) (good : Bool)
  | write (p : Port) (v : Word)
deriving DecidableEq, Repr


/-- The commands (spec/opcode_table.json). -/
inductive Instr where
  /-- R19: a port writes `v` at byte offset `a`. -/
  | registerWrite (p : Port) (a : BitVec 26) (sz : AccSize) (v : BitVec 64)
  /-- R17. -/
  | pu36LowWordWrite (p : Port) (a : BitVec 26) (v : Word)
  /-- R17. -/
  | pu36HighWordWrite (p : Port) (a : BitVec 26) (v : Word)
  /-- R18: a port reads the SNAP register at `a`. -/
  | snapRead (p : Port) (a : BitVec 26)
  /-- R29. -/
  | seamPacketCrcError (d : Die)
  /-- R30. -/
  | seamLinkLost (d : Die)
  /-- R30, R83: `skew` is the aligned copy's remaining difference, at most one tick. -/
  | seamLinkTrained (d : Die) (skew : Int)
  /-- R50. -/
  | hinColdStart
  /-- R45. -/
  | vsupPresent
  /-- R45: the voltage of VB, mV. -/
  | vsupAbsent (vb : BitVec 16)
  /-- R48: the open-circuit voltage measured, mV. -/
  | vocSample (mv : BitVec 16)
  /-- R49: the voltage of the store, mV. -/
  | storeFull (st : Store) (mv : BitVec 16)
  /-- R51: the voltages of VSUP and VB at the power-up, mV. -/
  | aonStart (vsup vb : BitVec 16)
  /-- R51. -/
  | harvestEntryDelayExpiry
  /-- R51. -/
  | harvestHoldEnter
  /-- R51. -/
  | harvestHoldLeave
  /-- R51. -/
  | aonStop
  /-- R52. -/
  | pgoodAssert
  /-- R52. -/
  | pgoodDeassert
  /-- R57: the pin has been low for at least 1 µs, or a shorter low was taken; `dumpOk` is R66's condition. -/
  | nrstLow (dumpOk : Bool)
  /-- R57. -/
  | nrstRise
  /-- R70. -/
  | pwrCmdOff (p : Port)
  /-- R57: `dumpOk` is R66's condition on V5 and the stores. -/
  | pwrCmdHarvest (p : Port) (dumpOk : Bool)
  /-- R57. -/
  | pwrCmdLean (p : Port)
  /-- R57. -/
  | pwrCmdFull (p : Port)
  /-- R57. -/
  | leanEntryComplete
  /-- R57, R446: whether training succeeded, and the size code found. -/
  | fullEntryComplete (trained : Bool) (size : BitVec 2)
  /-- R59. -/
  | fullToLeanComplete
  /-- R63, R51: the higher of VQ and VB at the departure, mV. -/
  | harvestEntryComplete (storeMv : BitVec 16)
  /-- R60. -/
  | islandEnWrite (p : Port) (v : Word)
  /-- R61. -/
  | islandChangeDone
  /-- R64: the word written to `HARV_AUX_CMD`. -/
  | auxenBurstStart (p : Port) (v : Word)
  /-- R64. -/
  | auxenBurstVsupEnd
  /-- R64. -/
  | auxenBurstTimeout
  /-- R63. -/
  | storeAbort (dumpOk : Bool)
  /-- R65. -/
  | vsupFailWarning (dumpOk : Bool)
  /-- R71: the voltages measured, mV; Voc is that of the last VOC_SAMPLE. -/
  | harvMeasureUpdate (vb vsup hin vq v5 : BitVec 16)
  /-- R71: the word written to `HARV_REG_CFG`. -/
  | vddqSelWrite (p : Port) (v : Word)
  /-- R73. -/
  | refLost
  /-- R73. -/
  | refBack
  /-- R75. -/
  | pllLock (l : Pll)
  /-- R77. -/
  | pllCoastStart (l : Pll)
  /-- R79. -/
  | pllRelock (l : Pll)
  /-- R78. -/
  | coastLimit (l : Pll)
  /-- R76: the word written to `CLK_SYS_COMMIT`. -/
  | clkSysCommit (p : Port) (v : Word)
  /-- R76. -/
  | dividerApply
  /-- R80: the count of the divided North clock over 64 µs. -/
  | droneClockCheck (count : Nat)
  /-- R81. -/
  | bellStatusRefresh (d : Die)
  /-- R82. -/
  | deviceTimeWrap
  /-- R83: the differences the marker measures, ticks. -/
  | skewMarker (north south : BitVec 8)
  /-- R83. -/
  | skewCorrection (d : Die)
  /-- R89: the word written to `CLK_SLIDE_CFG`. -/
  | slideEnable (p : Port) (v : Word)
  /-- R89. -/
  | slideDisable (p : Port) (v : Word)
  /-- R89: the word written to `CLK_SLIDE_COMMIT`. -/
  | slideCommit (p : Port) (v : Word)
  /-- R86. -/
  | slideRampUpdate
  /-- R90. -/
  | slideStrobe (j : Fin 4)
  /-- R92. -/
  | clkoutSelect
  /-- R106: op 1. -/
  | fingLoad (p : Port)
  /-- R106, R113: the pass over the image taken at LOAD ends. -/
  | fingLoadComplete
  /-- R106: op 2. -/
  | fingApply (p : Port)
  /-- R106. -/
  | fingApplyComplete
  /-- R106: op 3. -/
  | fingCommit (p : Port)
  /-- R106, R385. -/
  | fingCommitComplete
  /-- R106: op 4. -/
  | fingDiscard (p : Port)
  /-- R116: an op that is none of 1 to 4. -/
  | fingCmdInvalid (p : Port) (op : BitVec 3)
  /-- R110: why the running command is abandoned. -/
  | fingAbandon (why : FingAbort)
  /-- R121. -/
  | modeReqDormant (p : Port)
  /-- R121. -/
  | modeReqConfigure (p : Port)
  /-- R122. -/
  | modeReqStandby (p : Port)
  /-- R122. -/
  | modeReqFollow (p : Port)
  /-- R122. -/
  | modeReqForm (p : Port)
  /-- R120. -/
  | modeReqRide (p : Port)
  /-- R128. -/
  | modeReqHalt (p : Port)
  /-- R122. -/
  | modeReqService (p : Port)
  /-- R133: on entry to CONFIGURE, whether each lost link trained again (R122). -/
  | modeTransitionComplete (northOk southOk : Bool)
  /-- R128. -/
  | haltCauseActive (c : Fin 12)
  /-- R130: the word written to `SYS_HALT_CAUSE`. -/
  | haltCauseClear (p : Port) (v : Word)
  /-- R141. -/
  | convRoutedTrigger (c : Fin 16)
  /-- R140: the word written to `CONV_C[c]_CTL`. -/
  | convSoftwareTrigger (p : Port) (c : Fin 16) (v : Word)
  /-- R143: the inputs at the sampling instant; `full` says that a destination's boundary FIFO is full (R33). -/
  | conversionEnd (c : Fin 16) (x : ConvIn) (full : Bool)
  /-- R161: the word written to `CONV_C[c]_CTL`. -/
  | convDisable (p : Port) (c : Fin 16) (v : Word)
  /-- R151. -/
  | convRefCfgWrite (p : Port) (d : Die) (v : Word)
  /-- R150. -/
  | refSettled (d : Die)
  /-- R152. -/
  | refFault (d : Die)
  /-- R154: the word written to `CONV_CAL_CMD`. -/
  | convCalMeasure (p : Port) (d : Die) (v : Word)
  /-- R154. -/
  | convCalRestore (p : Port) (d : Die) (v : Word)
  /-- R163. -/
  | convCalInvalid (p : Port) (d : Die) (v : Word)
  /-- R155: the factors measured, one row for each masked converter, lowest first. -/
  | convCalComplete (d : Die) (meas : List CalMeas)
  /-- R156, R157: the input, the external reference and VDDA, in volts, as the filter gives them for this sample. -/
  | fineSample (f : Fin 12) (vd ext vdda : Rat)
  /-- R166, R171: the input voltage of monitor `m` at its last WIN samples, oldest first, the last one now, in the second half of
  the tick where `sub` says so (R172); the external reference and VDDA. All in volts. -/
  | monitorFilteredEdge (m : Fin 32) (vd : List Rat) (ext vdda : Rat) (sub : Bool)
  /-- R172. -/
  | capInfoRead (p : Port) (m : Fin 32)
  /-- R184: the word written to `WIN_M[m]_CFG`. -/
  | monitorDisable (p : Port) (m : Fin 32) (v : Word)
  /-- R177: source `i` as seen by die `d`. -/
  | tripSourceChange (d : Die) (i : Fin 144)
  /-- R179: the word written to `TRIP_LATCH[w]`. -/
  | tripLatchClear (p : Port) (d : Die) (w : Fin 5) (v : Word)
  /-- R175: the word written to `TRIP_FW`. -/
  | tripFwSet (p : Port) (d : Die) (v : Word)
  /-- R175. -/
  | tripFwClear (p : Port) (d : Die) (v : Word)
  /-- R185: the level of the die's TRIPIN pin at its last samples, oldest first. -/
  | tripinChange (d : Die) (high : List Bool)
  /-- R181: a state packet for die `d`; `good` says that a copy passed its CRC. -/
  | tripStatePacket (d : Die) (i : Fin 144) (good : Bool)
  /-- R181: die `d` repeats its state packets. -/
  | tripStateRepeat (d : Die)
  /-- R187. -/
  | carrierZero (n : Fin 48)
  /-- R187. -/
  | carrierPeak (n : Fin 48)
  /-- R196: the word written to `EDGE_COMMIT`. -/
  | edgeCommitWrite (p : Port) (d : Die) (v : Word)
  /-- R191: the rising or the falling compare of unit `n`; `len` is the length after dead time of the on-pulse that a rising
  edge starts, in 1/64 tick (R204). -/
  | compareMatch (n : Fin 48) (rise : Bool) (len : Nat)
  /-- R203: `len` as above, of the pulse that rises now. -/
  | deadTimeExpiry (n : Fin 48) (len : Nat)
  /-- R201. -/
  | refreshIntervalEnd (n : Fin 48)
  /-- R193: the trim measured for tap `i`, and the total delay that a sweep's last tap gives, 0.1 ps. -/
  | edgeCalTap (n : Fin 48) (i : Fin 64) (trim : BitVec 4) (total : BitVec 16)
  /-- R207: a filtered edge at SYNCI. -/
  | synciEdge (rise : Bool)
  /-- R208. -/
  | debugUnfreeze
  /-- R210: the word written to `EDGE_CH[n]_CFG`. -/
  | edgeDisable (p : Port) (n : Fin 48) (v : Word)
  /-- R219: the slots of a fault vector and the CRC that it carried. -/
  | faultVectorRx (k : Fin 4) (slots : BitVec 12) (crc : BitVec 8)
  /-- R220. -/
  | podFaultVectorStart (k : Fin 4)
  /-- R222. -/
  | faultVectorPoll (k : Fin 4)
  /-- R223. -/
  | ligNextFrame (k : Fin 4)
  /-- R229: the report of the pod of channel `n`. -/
  | telem (n : Fin 48) (vds temp supply status : BitVec 12) (crc : BitVec 8)
  /-- R218: register address and data of an ACK from the pod of channel `n`. -/
  | ack (n : Fin 48) (addr : BitVec 8) (data : BitVec 16) (crc : BitVec 8)
  /-- R223: no answer, or one with a bad CRC, to the frame in progress on bus `k`. -/
  | podAnswerTimeout (k : Fin 4)
  /-- R226. -/
  | autoClearTimer (n : Fin 48)
  /-- R226. -/
  | triesResetTimer (n : Fin 48)
  /-- R226: the word written to `GATE_CH[n]_FAULT`. -/
  | faultClr (p : Port) (n : Fin 48) (v : Word)
  /-- R227: the word written to `GATE_CH[n]_PROF[x]`, x = 12d + 3v + g. -/
  | profileWrite (p : Port) (n : Fin 48) (x : Fin 24) (v : Word)
  /-- R233: the word written to `GATE_LIG[k]_CFG`. -/
  | ligDisable (p : Port) (k : Fin 4) (v : Word)
  /-- R249: the oldest trigger on its way to engine `e` arrives. -/
  | boreTrigger (e : Fin 8)
  /-- R249: the word written to `BORE[e]_CTL`, `go` set. -/
  | boreGo (p : Port) (e : Fin 8) (v : Word)
  /-- R250. -/
  | boreStepEnd (e : Fin 8)
  /-- R255: the oldest packet of engine `e` on its way to die `d`. -/
  | enginePacketArrival (e : Fin 8) (d : Die)
  /-- R254: of the first of engine `e`'s packets that wait on die `d`. -/
  | fixedReleaseTick (e : Fin 8) (d : Die)
  /-- R257: a pu36 value written to coefficient `k` of stage `s`, or to set-point `k` where `s` is none. -/
  | boreCoefWrite (p : Port) (e : Fin 8) (s : Option (Fin 48)) (k : Fin 16) (v : BitVec 36)
  /-- R259: the word written to `BORE[e]_CTL`. -/
  | boreHoldWrite (p : Port) (e : Fin 8) (v : Word)
  /-- R259: the oldest trigger on its way to engine `e` arrives, and ends a hold at its limit. -/
  | boreHoldExpiry (e : Fin 8)
  /-- R247: the word written to `BORE[e]_CTL`, `breath_init` set. -/
  | breathInit (p : Port) (e : Fin 8) (v : Word)
  /-- R262: the word written to `BORE[e]_CTL`, `clr_state` set. -/
  | clrState (p : Port) (e : Fin 8) (v : Word)
  /-- R260: a pu48 value written to state `i` of stage `s`. -/
  | boreStateWrite (p : Port) (e : Fin 8) (s : Fin 48) (i : Fin 4) (v : BitVec 48)
  /-- R267: the oldest trigger on its way to the grid block arrives. -/
  | gridTrigger
  /-- R267: the word written to `GRID_CTL`, `go` set. -/
  | gridGo (p : Port) (v : Word)
  /-- R268. -/
  | gridPublish
  /-- R270: the word written to `GRID_CTL`, `init` set. -/
  | gridInit (p : Port) (v : Word)
  /-- R295: `GRID_VBASE`, `GRID_IBASE`, `GRID_SBASE` or `GRID_FNOM`. -/
  | gridBaseWrite (p : Port) (i : Fin 4) (v : Word)
  /-- R307: the word written to `MPPT_CTL`, `sweep_now` set. -/
  | sweepNow (p : Port) (v : Word)
  /-- R307. -/
  | sweepDue
  /-- R307. -/
  | sweepDwellEnd
  /-- R323: the data of a frame delivered to the Whistle. -/
  | probeCodeFrame (d : List Byte)
  /-- R324: the data of a frame delivered to the Whistle. -/
  | probePhaseFrame (d : List Byte)
  /-- R323: the data of a frame delivered to the Whistle. -/
  | probeBadFrame (d : List Byte)
  /-- R324: the word written to `PROBE_PHASE_CMD`, `go` set. -/
  | probePhaseCmd (p : Port) (v : Word)
  /-- R326: the word written to `PROBE_CTL`, `relearn` set. -/
  | probeRelearn (p : Port) (v : Word)
  /-- R330: the word written to `PROBE_CTL`, `clr_island` set. -/
  | clrIsland (p : Port) (v : Word)
  /-- R339: point `i` forms its metered sample of Slide-cycle index `idx`. -/
  | meterFineSample (i : Fin 2) (idx : BitVec 12)
  /-- R340: the interval of point `i` from device time `t0` to `t1`. -/
  | meterIntervalClose (i : Fin 2) (t0 t1 : BitVec 64)
  /-- R354. -/
  | meterStop (i : Fin 2)
  /-- R355: `METER_PT[i]_ACC[k]`, or `METER_PT[i]_WRAP` for k = 8. -/
  | meterAccWrite (p : Port) (i : Fin 2) (k : Fin 9) (v : BitVec 64)
  /-- R356. -/
  | compatStatusRead (p : Port)
  /-- R362: the comparator segment (R361) that differs. -/
  | lockstepMismatch (seg : Fin 8)
  /-- R360: the firmware address; `double` says that it cannot be corrected. -/
  | sramEccError (addr : BitVec 32) (double : Bool)
  /-- R360. -/
  | sramScrub
  /-- R364: the segments that passed. -/
  | chntSelftestEnd (pass : BitVec 8)
  /-- R365: the word written, and what the two cores' synchronisers hold of each group. -/
  | agreeReq (p : Port) (v : Word) (lead0 trail0 lead1 trail1 : BitVec 16)
  /-- R365. -/
  | agreeValRead (p : Port) (g : Fin 2)
  /-- R366: SVCKEY as the two cores' synchronisers hold it. -/
  | svckeyAgree (lead trail : Bool)
  /-- R367: the word written to `CHNT_SWEEP_CTL`. -/
  | sweepBegin (p : Port) (v : Word)
  /-- R367. -/
  | sweepData (p : Port) (v : Word)
  /-- R367. -/
  | sweepEnd (p : Port) (v : Word)
  /-- R368. -/
  | sweepOverdue
  /-- R369: the word written to `CHNT_CTL`. -/
  | chntRestart (p : Port) (v : Word)
  /-- R370. -/
  | debugHalt
  /-- R371, R384: the word written to `CHNT_WD_KICK`, and the Drone's count since the last kick, µs. -/
  | wdKick (p : Port) (v : Word) (us : Nat)
  /-- R372. -/
  | irqSourceRise (src : Fin 256)
  /-- R373. -/
  | irqClaim (p : Port)
  /-- R373: the word written to `CHNT_IRQ_DONE`. -/
  | irqDone (p : Port) (v : Word)
  /-- R359. -/
  | machineTimer
  /-- R378. -/
  | droneDemand
  /-- R377. -/
  | droneModePacket
  /-- R377. -/
  | modePacketStale
  /-- R381: the new filtered level of channel B (else A) of input `j`. -/
  | safetyInputFiltered (j : Fin 4) (b high : Bool)
  /-- R382. -/
  | discrepancyTimeout (j : Fin 4)
  /-- R383: an off-pulse of TPO1 (else TPO0) ends; the inputs whose channel went low during it. -/
  | tpoPulse (t1 : Bool) (low : BitVec 4)
  /-- R384. -/
  | wdTimeout
  /-- R385. -/
  | paramRecheck
  /-- R386. -/
  | forcedOffReadback
  /-- R380: of SOLk (else SOHk). -/
  | stuckOutput (k : Fin 4) (sol : Bool)
  /-- R387. -/
  | testRoundStart
  /-- R387, R388: whether the node read off and on again, and whether a demand for the output came during the pulse. -/
  | testPulse (off on demanded : Bool)
  /-- R389. -/
  | svckeyPresent
  /-- R389. -/
  | svckeyAbsent
  /-- R379: the word written to `SYS_SOL`. -/
  | sysSolWrite (p : Port) (v : Word)
  /-- R390: the word written to `SYS_DRONE_RST`, and the inputs whose channels have both been at demand for 100 ms. -/
  | droneRst (p : Port) (v : Word) (held : BitVec 4)
  /-- R399: the word written to `PAIR_CMD`, `op` = 1. -/
  | pairCmdPair (p : Port) (v : Word)
  /-- R400. -/
  | pairCmdUnpair (p : Port) (v : Word)
  /-- R401. -/
  | pairCmdHandover (p : Port) (v : Word)
  /-- R399: a HELLO of the peer; `peer` is the filtered level of PEERROLE at its receipt. -/
  | hello (m : HelloMsg) (a : HelloAuth) (peer : Bool)
  /-- R399. -/
  | helloSend
  /-- R399. -/
  | helloTimeout
  /-- R404. -/
  | heartSend
  /-- R404: a HEART whose tag verified, with bits 39:0 of its counter; `peer` as above. -/
  | heart (m : HeartMsg) (ctr : BitVec 40) (peer : Bool)
  /-- R407: `peer` as above. -/
  | heartbeatMiss (peer : Bool)
  /-- R406: a MIRROR whose tag verified: kind 1 to 5, index, the producer's step count, the values of the record. -/
  | mirror (ctr : BitVec 40) (kind : Fin 6) (ix : Fin 8) (step : BitVec 48) (data : List Rat)
  /-- R405: the producer's step has ended. -/
  | mirrorSend (kind : Fin 6) (ix : Fin 8)
  /-- R404: `hello` says that it was a pairing HELLO of the peer whose tag failed. -/
  | pairFrameDiscard (hello : Bool)
  /-- R404. -/
  | relinquish (ctr : BitVec 40) (t : BitVec 64)
  /-- R408. -/
  | peerroleFall
  /-- R402. -/
  | roleConflict
  /-- R403: which lanes are up. -/
  | fjoskLaneChange (lane0 lane1 : Bool)
  /-- R412: the word written to `CAN[k]_CTL`, `en` set. -/
  | canEnable (p : Port) (k : Fin 4) (v : Word)
  /-- R429: the word written to `CAN[k]_CTL`, `en` clear. -/
  | canDisable (p : Port) (k : Fin 4) (v : Word)
  /-- R414: a frame received whole, with the device time of its start of frame. -/
  | canFrameRx (k : Fin 4) (m : CanMsg) (sof : BitVec 64)
  /-- R416: the word written to `CAN[k]_TXRQ_HI` (else `_LO`). -/
  | canTxrq (p : Port) (k : Fin 4) (hi : Bool) (v : Word)
  /-- R416: a start of frame, now. -/
  | canTxStart (k : Fin 4)
  /-- R417: the frame begun last succeeds; the transmitter delay measured in it, cycles (R412). -/
  | canTxDone (k : Fin 4) (delay : BitVec 8)
  /-- R417: the word written to `CAN[k]_CANCEL_HI` (else `_LO`). -/
  | canCancel (p : Port) (k : Fin 4) (hi : Bool) (v : Word)
  /-- R420: an error, with TEC and REC as ISO 11898-1 leaves them; `data` says that it was a bit error in the data or CRC field
  after arbitration was won (R419). -/
  | canError (k : Fin 4) (e : CanFault) (tec : BitVec 9) (rec : BitVec 8) (data : Bool)
  /-- R420: the word written to `CAN[k]_CTL`, `recover` set. -/
  | busOffRecover (p : Port) (k : Fin 4) (v : Word)
  /-- R420. -/
  | busOffRecoveryDone (k : Fin 4)
  /-- R414: the word written to `CAN[k]_MB[b]_CFG`, `new` set. -/
  | mbNewClear (p : Port) (k : Fin 4) (b : Fin 64) (v : Word)
  /-- R415: the word written to `CAN[k]_RXF_POP`. -/
  | rxfPop (p : Port) (k : Fin 4) (v : Word)
  /-- R422: the word written to `CAN[k]_CTL`, `sleep` set. -/
  | canSleep (p : Port) (k : Fin 4) (v : Word)
  /-- R423. -/
  | canWake (k : Fin 4) (by_ : CanWakeBy)
  /-- R425: the word written to `CAN_NT_CFG`. -/
  | ntCfgWrite (p : Port) (v : Word)
  /-- R426. -/
  | ntRefDue
  /-- R427: a reference frame received, with the device time of its start of frame. -/
  | ntRefRx (m : CanMsg) (sof : BitVec 64)
  /-- R427. -/
  | ntHoldover
  /-- R426: the value written to `CAN_NT_SET`. -/
  | ntSet (p : Port) (v : BitVec 64)
  /-- R424. -/
  | ntWrap
  /-- R436: a request at the 4-byte address `a`: words with their byte enables, written where `wr`. -/
  | bar0Request (a : BitVec 26) (wr : Bool) (ws : List (BitVec 4 × Word))
  /-- R437: a request at offset `x`: the bytes written (none where not enabled), or the number read. -/
  | bar2Request (x : BitVec 28) (w : List (Option Byte) ⊕ Nat)
  /-- R438. -/
  | perst
  /-- R440: address, data and CRC byte; `whole` says that SPICSN did not end the frame early. -/
  | spiWrite (a v : Word) (crc : Byte) (whole : Bool)
  /-- R440: `ready` says that the word came within 64 wait bytes. -/
  | spiRead (a : Word) (crc : Byte) (whole ready : Bool)
  /-- R439: `n` words are read; `late` says that a further one timed out. -/
  | spiRepeatedRead (a : Word) (crc : Byte) (n : Nat) (late : Bool)
  /-- R439. -/
  | spiStatus
  /-- R441. -/
  | hostVecAckRead (p : Port) (v : Fin 32)
  /-- R441. -/
  | hostVectorPending (src : Fin 80)
  /-- R443: the word written to `HOST_DB_F2H` (else `HOST_DB_H2F`). -/
  | doorbellWrite (p : Port) (f2h : Bool) (v : Word)
  /-- R445: the word written to `QSPI_CMD`, op 1. -/
  | qspiRead (p : Port) (v : Word)
  /-- R445: op 2. -/
  | qspiProgram (p : Port) (v : Word)
  /-- R445: op 3. -/
  | qspiEraseSector (p : Port) (v : Word)
  /-- R445: op 4. -/
  | qspiEraseBlock (p : Port) (v : Word)
  /-- R445: the pages programmed; `cut`: abandoned, `fail`: the flash reports a failure. -/
  | qspiOpDone (pages : Nat) (cut fail : Bool)
  /-- R446: MR4 as read. -/
  | mr4Read (v : Byte)
  /-- R448: `full` says that the slot's tap, or the capture FIFO, is full. -/
  | recSlotSample (s : Fin 64) (full : Bool)
  /-- R449: of one slot, or of all. -/
  | recGapMarker (s : Option (Fin 64))
  /-- R451: the triggers of one MEM cycle, bits as `REC_TRIG_MASK`. -/
  | recTrigger (m : BitVec 7)
  /-- R451. -/
  | recRegionFull
  /-- R451: the word written to `REC_REG[r]_STAT`. -/
  | recArm (p : Port) (r : Fin 8) (v : Word)
  /-- R453: the word written to `REC_CTL`. -/
  | recEnWrite (p : Port) (v : Word)
  /-- R452. -/
  | recRdDataRead (p : Port)
  /-- R461: BOOTSEL1:0 as read. -/
  | romBoot (bootsel : BitVec 2)
  /-- R461: `readOk` says that every flash read succeeded. -/
  | bootComplete (readOk : Bool)
  /-- R465: the word written to `BOOT_UPD_CMD`, op 1; `readOk` as above, for the directory. -/
  | updStart (p : Port) (v : Word) (readOk : Bool)
  /-- R466: op 2. -/
  | updBlock (p : Port) (v : Word)
  /-- R466: the sector was erased and `pages` pages programmed; a later burst was refused with an R69 code, or the flash
  failed. -/
  | updBlockDone (pages : Fin 17) (refused : Option (BitVec 4)) (fail : Bool)
  /-- R467: op 3. -/
  | updAbort (p : Port) (v : Word)
  /-- R469: the word written to `BOOT_CONFIRM`. -/
  | bootConfirm (p : Port) (v : Word)
  /-- R464: the word written to `SEC_OTP_CMD`, op 1. -/
  | otpProgram (p : Port) (v : Word)
  /-- R464: op 2. -/
  | otpRevoke (p : Port) (v : Word)
  /-- R470: the word written to `SEC_SEAL_CMD`, op 1; `rng` says that the random source passes its health test. -/
  | seal (p : Port) (v : Word) (rng : Bool)
  /-- R470: op 2. -/
  | unseal (p : Port) (v : Word)
  /-- R472: the word written to `SEC_ATT_CMD`; `rng` as above. -/
  | attest (p : Port) (v : Word) (rng : Bool)
  /-- R472: `rng` as above. -/
  | rngRead (p : Port) (rng : Bool)
  /-- R49: the voltage of the Voc sample, mV. -/
  | harvesterChargeResume (st : Store) (mv : BitVec 16)
  /-- R194. -/
  | edgeCalPeriodEnd (n : Fin 48)
  /-- R204. -/
  | minimumPulseStretchEnd (n : Fin 48)
  /-- R206. -/
  | syncoPulseEnd
  /-- R422. -/
  | busIntegrationComplete (k : Fin 4)
  /-- R438: the link is in L0, its speed code and its width. -/
  | pcieLinkStateChange (l0 : Bool) (speed : BitVec 3) (width : BitVec 2)
  /-- R472: `ok` says that an OTP write succeeded. -/
  | secOperationDone (ok : Bool)
  /-- R469: `otpOk` says that the OTP writes succeeded. -/
  | confirmDone (otpOk : Bool)
deriving DecidableEq, Repr

end Sys2Proof
end

