-- ==== Sys2Proof/Machine/Crc.lean ====
section
/-!
DEFINITION. The cyclic redundancy checks that the spec names: CRC-32C over bytes (R67, R102), as one bit-serial step folded
over the message.
-/

namespace Sys2Proof.Machine

/-- One bit of the reflected CRC-32C register (polynomial 0x82F63B78; PRESUMED, the Castagnoli CRC the spec names). -/
def crc32cBit (c : BitVec 32) : BitVec 32 :=
  if c &&& 1#32 = 1#32 then (c >>> 1) ^^^ 0x82F63B78#32 else c >>> 1

/-- `n` bits of the CRC register. -/
def crc32cBits : Nat → BitVec 32 → BitVec 32
  | 0, c => c
  | n + 1, c => crc32cBits n (crc32cBit c)

/-- The CRC register after a byte string. -/
def crc32cFold : List (BitVec 8) → BitVec 32 → BitVec 32
  | [], c => c
  | b :: bs, c => crc32cFold bs (crc32cBits 8 (c ^^^ b.zeroExtend 32))

/-- CRC-32C of a byte string.  PRESUMED, log entry 13. -/
def crc32c (bs : List (BitVec 8)) : BitVec 32 := ~~~ crc32cFold bs 0xFFFFFFFF#32

/-- The CRC-8 of the Ligature bus over a string of bits (R218): polynomial x⁸ + x² + x + 1, initial value 0. -/
def crc8OfBits (l : List Bool) : BitVec 8 :=
  l.foldl (fun c b => (c <<< 1) ^^^ (if c.getLsbD 7 != b then 7#8 else 0#8)) 0#8

/-- The `n` low bits of a number, most significant first. -/
def msbFirst (n x : Nat) : List Bool := (List.range n).map fun i => x.testBit (n - 1 - i)

/-- The little-endian number of a byte list. -/
def leNat : List (BitVec 8) → Nat
  | [] => 0
  | b :: bs => b.toNat + 256 * leNat bs

/-- The `n` little-endian bytes of a number. -/
def leBytes : Nat → Nat → List (BitVec 8)
  | 0, _ => []
  | n + 1, x => BitVec.ofNat 8 x :: leBytes n (x / 256)

end Sys2Proof.Machine
end

