-- ==== Sys2Proof/Config.lean ====
section
/-!
DEFINITION. The values that the spec leaves open: constants without a body, so that nothing can be proved of which value
they take.  Each is applied to the operands it depends on, or to the counter `State.fresh` where a new value comes each time.
-/

namespace Sys2Proof.Config

/-- R75: the VCO band that a search chooses.  DESIGN CHOICE, log entry 15. -/
opaque freeBand : Nat → BitVec 4

/-- R77, R88: the relative drift of a coasting Slide, held to ±50 ppm for its first 10 ms.  DESIGN CHOICE, log entry 74. -/
opaque freeDrift : Nat → Rat

/-- R84: how far a Bell die's copy of the Slide cycle counter stands from the Core's, held to one Slide clock.
DESIGN CHOICE, log entry 74. -/
opaque freeCopy : Nat → Int

/-- R153: the sixteen bit decisions of a converter, by its number and the exact signal of R137 in codes.
DESIGN CHOICE, log entry 82. -/
opaque freeBits : Nat → Rat → BitVec 16

/-- R240: the code, in 2⁻³⁰ pu, that the device forms for the sine and the cosine of an angle in gyres; held to the bound
where it is used.  DESIGN CHOICE, log entry 18. -/
opaque freeSin : BitVec 32 → Int
opaque freeCos : BitVec 32 → Int

/-- R241: the device's square root and reciprocal; held to the bound where they are used.  DESIGN CHOICE, log entry 18. -/
opaque freeSqrt : Rat → Rat
opaque freeRecip : Rat → Rat

/-- R245: the result of a clamp whose lower limit lies above its upper one.  DESIGN CHOICE, log entry 19. -/
opaque freeClamp : Rat → Rat → Rat → Rat

/-- R245: the add-in of a PR channel whose operand names no lane for it: the operand word and the channel.
DESIGN CHOICE, log entry 20. -/
opaque freeAddIn : Nat → Nat → BitVec 36

/-- R248: the duty of a written channel to which the leg positions give none, from the leg's duty code.
DESIGN CHOICE, log entry 21. -/
opaque freeDuty : Nat → Int → Rat

/-- R278: the crossing of a published set into an engine's island takes two BORE cycles and this number modulo 3 more.
DESIGN CHOICE, log entry 22. -/
opaque freeCrossing : Nat → Nat

/-- The spec gives no quotient by 0.  DESIGN CHOICE, log entry 23. -/
opaque freeQuot : Rat → Rat

/-- R379: what the node of a safety output reads where no switch of it sets it; the second argument is the node.
DESIGN CHOICE, log entry 88. -/
opaque freeNode : Nat → Nat → Bool

/-- R274: the device's atan2 (y, x) in gyres; held to the bound where it is used, but for (0, 0).
DESIGN CHOICE, log entry 18. -/
opaque freeAtan2 : Rat → Rat → BitVec 32

/-- R317: the point of `RIDE_TRIP_INFO` where the trip comes from a region whose curve has no point reached.
DESIGN CHOICE, log entry 24. -/
opaque freePoint : Nat → BitVec 4

/-- R411: REC after a good reception at a count above 127; ISO 11898-1 lets it be 119 to 127.
DESIGN CHOICE, log entry 25. -/
opaque freeRec : Nat → Nat

/-- R71: `HARV_E_STORE` where the spec states no store energy for it: in battery mode, and of an energy below 0 or beyond 32
bits.  DESIGN CHOICE, log entry 26. -/
opaque freeStoreEnergy : Nat → BitVec 32

/-- R444, R445: a byte of flash that an abandoned or failed erase or program leaves undefined: the counter and the address.
DESIGN CHOICE, log entry 27. -/
opaque freeFlash : Nat → Nat → BitVec 8

/-- A byte at an address of a recorder region that was written through BAR2 while it was captured (R454).
DESIGN CHOICE, log entry 28. -/
opaque freeRegion : Nat → Nat → BitVec 8

/-- The result code of an operation that ends in a way for which the spec names none.  DESIGN CHOICE, log entry 29. -/
opaque freeCode : Nat → BitVec 8

/-- R359: what firmware writes into an entry of the memory protection when it starts, its configuration above its address.
DESIGN CHOICE, log entry 133. -/
opaque freePmp : Nat → Nat → BitVec 40

/-- The true random source (R399, R470, R472): 256 fresh bits.  DESIGN CHOICE, log entry 30. -/
opaque freeRandom : Nat → BitVec 256

/-- R404, R405: the bytes of a mirror record of kinds 2 to 5, and of the part of a HEART behind the time, whose layouts the spec
does not give: a byte by its kind, the record's values and its place; the lengths of those records, held to what a frame takes;
and the load, bytes per µs, of kinds 4 and 5.
DESIGN CHOICE, log entry 31. -/
opaque freeMirByte : Nat → List Rat → Nat → BitVec 8
opaque freeHeartBytes : Nat → Nat → Nat → Bool → Nat → BitVec 64
opaque freeMirLen : Nat → Nat
opaque freeMirLoad : Rat

/-- R470: the device's settings key, which never leaves SEC.  DESIGN CHOICE, log entry 34. -/
opaque settingsKey : BitVec 256

/-- R463, R473: how far an OTP write, or a CONFIRM, got that a loss of supply cuts off.  DESIGN CHOICE, log entry 33. -/
opaque freeCut : Nat → Nat

/-- R471, R472: the private half of the identity key, its certificate, and the value drawn for a signature.
DESIGN CHOICE, log entry 34. -/
opaque idKey : Nat
opaque idCert : List (BitVec 8)
opaque freeScalar : Nat → Nat

/-- R66, R67: a word of the retention RAM that an unfinished dump leaves, or that the key-use counters give.
DESIGN CHOICE, log entry 35. -/
opaque freeRet : Nat → Nat → BitVec 32

/-- What the outside holds at a register access that carries no more than its word: the synchronisers of
the cores, the age of a kick, the energy left for a dump, the health of the random source, the success of a flash read.
DESIGN CHOICE, log entry 36. -/
opaque freeEnv : Nat → Nat

end Sys2Proof.Config
end

