-- ==== Sys2Proof/Machine/RegMap.lean ====
section
/-!
DEFINITION. The register map: every register of the spec's tables (R42), its offset as a function of its indices,
its reset value, the field types of R19 as bit masks, its island (R31) and the fields that the meanings name.
-/

namespace Sys2Proof.Machine

/-- What a register occupies: one word, a 64-bit pair (R12), a pu36 pair (R15) or a pu48 pair (R239). -/
inductive RegKind where
  | r32 | r64 | pu36 | pu48
deriving DecidableEq, Repr

/-- Who may write a register: any port, the host ports only, or firmware only. -/
inductive RegAcc where
  | any | host | fw
deriving DecidableEq, Repr

/-- One row of the register map.  `dims` lists (stride, count) for each index, outermost first; the masks say which bits
are of each type of R19 (`cnt`: a counter that any written 1 clears with its saturated flag); `isl` is the bit of
`SYS_ISLAND_EN` that enables the register's island (32 AON, 33 DRONE), plus `islStep` times the outermost index; `copy` marks a
snapshot copy (R18). -/
structure RegDesc where
  base : Nat
  dims : List (Nat × Nat)
  kind : RegKind
  reset : Nat
  rw : Nat
  rwl : Nat
  w1c : Nat
  w1s : Nat
  cnt : Nat
  ro : Nat
  isl : Nat
  islStep : Nat
  acc : RegAcc
  copy : Bool
deriving DecidableEq, Repr

/-- A field: the register word's offset and the field's bits `hi` to `lo`. -/
structure Fld where
  off : Nat
  hi : Nat
  lo : Nat
deriving DecidableEq, Repr

namespace R

/-- `SYS_ID` (R1). -/
def SYS_ID : Nat := 0x0
/-- `SYS_REV` (R1). -/
def SYS_REV : Nat := 0x4
/-- `SYS_SEAM_STAT` (R30), SYS_SEAMN_STAT d=0, SYS_SEAMS_STAT d=1. -/
def SYS_SEAM_STAT (d : Nat) : Nat := 0x100 + d * 0x10
/-- `SYS_SEAM_RETRY` (R29), SYS_SEAMN_RETRY d=0, SYS_SEAMS_RETRY d=1. -/
def SYS_SEAM_RETRY (d : Nat) : Nat := 0x104 + d * 0x10
/-- `SYS_PWR_CMD` (R70). -/
def SYS_PWR_CMD : Nat := 0x20
/-- `SYS_PWR_STAT` (R70). -/
def SYS_PWR_STAT : Nat := 0x24
/-- `SYS_ISLAND_EN` (R70). -/
def SYS_ISLAND_EN : Nat := 0x30
/-- `SYS_ISLAND_STAT` (R70). -/
def SYS_ISLAND_STAT : Nat := 0x34
/-- `HARV_STAT` (R71). -/
def HARV_STAT : Nat := 0x20000
/-- `HARV_V0` (R71). -/
def HARV_V0 : Nat := 0x20004
/-- `HARV_V1` (R71). -/
def HARV_V1 : Nat := 0x20008
/-- `HARV_V2` (R71). -/
def HARV_V2 : Nat := 0x2000C
/-- `HARV_CFG` (R71), chg_en resets to OTP chg_default. -/
def HARV_CFG : Nat := 0x20010
/-- `HARV_REG_CFG` (R71). -/
def HARV_REG_CFG : Nat := 0x20014
/-- `HARV_STORE_CFG` (R71). -/
def HARV_STORE_CFG : Nat := 0x20018
/-- `HARV_RESERVE` (R71). -/
def HARV_RESERVE : Nat := 0x2001C
/-- `HARV_E_FULL` (R71). -/
def HARV_E_FULL : Nat := 0x20020
/-- `HARV_E_AUX` (R71). -/
def HARV_E_AUX : Nat := 0x20024
/-- `HARV_E_FLASH` (R71). -/
def HARV_E_FLASH : Nat := 0x20028
/-- `HARV_E_STORE` (R71). -/
def HARV_E_STORE : Nat := 0x2002C
/-- `HARV_PGOOD_TH` (R71), from OTP. -/
def HARV_PGOOD_TH : Nat := 0x20030
/-- `HARV_AUX_CMD` (R71). -/
def HARV_AUX_CMD : Nat := 0x20034
/-- `HARV_BURST_STAT` (R71). -/
def HARV_BURST_STAT : Nat := 0x20038
/-- `HARV_ABORT_CNT` (R71). -/
def HARV_ABORT_CNT : Nat := 0x2003C
/-- `HARV_EVENT` (R71). -/
def HARV_EVENT : Nat := 0x20040
/-- `HARV_RET` (R67). -/
def HARV_RET (i : Nat) : Nat := 0x21000 + i * 0x4
/-- `CLK_STAT` (R93). -/
def CLK_STAT : Nat := 0x10000
/-- `CLK_CFG` (R93). -/
def CLK_CFG : Nat := 0x10004
/-- `CLK_EVENT` (R93). -/
def CLK_EVENT : Nat := 0x10008
/-- `CLK_SYS_DIV` (R76). -/
def CLK_SYS_DIV : Nat := 0x10010
/-- `CLK_SYS_DIV_ACT` (R76). -/
def CLK_SYS_DIV_ACT : Nat := 0x10014
/-- `CLK_SYS_COMMIT` (R76). -/
def CLK_SYS_COMMIT : Nat := 0x10018
/-- `CLK_SLIDE_COMMIT` (R89). -/
def CLK_SLIDE_COMMIT : Nat := 0x10208
/-- `CLK_BELL_STAT` (R81). -/
def CLK_BELL_STAT : Nat := 0x10020
/-- `CLK_TIME_SNAP` (R82). -/
def CLK_TIME_SNAP : Nat := 0x10100
/-- `CLK_TIME` (R82). -/
def CLK_TIME : Nat := 0x10108
/-- `CLK_TIME_S` (R82). -/
def CLK_TIME_S : Nat := 0x10110
/-- `CLK_SKEW` (R83). -/
def CLK_SKEW : Nat := 0x10120
/-- `CLK_SLIDE_CFG` (R89). -/
def CLK_SLIDE_CFG : Nat := 0x10200
/-- `CLK_SLIDE_STAT` (R89). -/
def CLK_SLIDE_STAT : Nat := 0x10204
/-- `CLK_SLIDE_FREQ` (R86). -/
def CLK_SLIDE_FREQ : Nat := 0x10210
/-- `CLK_SLIDE_TARGET` (R87). -/
def CLK_SLIDE_TARGET : Nat := 0x10218
/-- `CLK_SLIDE_FIX` (R85). -/
def CLK_SLIDE_FIX : Nat := 0x10228
/-- `CLK_SLIDE_PHERR` (R87). -/
def CLK_SLIDE_PHERR : Nat := 0x10220
/-- `CLK_SLIDE_SEG_TH` (R86). -/
def CLK_SLIDE_SEG_TH (i : Nat) : Nat := 0x10240 + i * 0x8
/-- `CLK_SLIDE_SEG_RATE` (R86). -/
def CLK_SLIDE_SEG_RATE (i : Nat) : Nat := 0x10244 + i * 0x8
/-- `CLK_SLIDE_STROBE` (R90). -/
def CLK_SLIDE_STROBE (j : Nat) : Nat := 0x10280 + j * 0x4
/-- `FING_CMD` (R116). -/
def FING_CMD : Nat := 0x40000
/-- `FING_STAT` (R116). -/
def FING_STAT : Nat := 0x40004
/-- `FING_REJECT` (R116). -/
def FING_REJECT : Nat := 0x40008
/-- `FING_EVENT` (R116). -/
def FING_EVENT : Nat := 0x4000C
/-- `FING_SRC_CFG` (R116). -/
def FING_SRC_CFG : Nat := 0x40010
/-- `FING_SRC_ADDR` (R116). -/
def FING_SRC_ADDR : Nat := 0x40018
/-- `FING_LEN` (R116). -/
def FING_LEN : Nat := 0x40020
/-- `FING_STAGED` (R116). -/
def FING_STAGED : Nat := 0x40024
/-- `FING_FEAT` (R116). -/
def FING_FEAT : Nat := 0x40028
/-- `FING_RWL_LAST` (R116). -/
def FING_RWL_LAST : Nat := 0x40030
/-- `FING_RWL_CNT` (R116). -/
def FING_RWL_CNT : Nat := 0x40034
/-- `FING_ROLLBACK` (R116). -/
def FING_ROLLBACK : Nat := 0x40038
/-- `FING_HASH` (R116). -/
def FING_HASH (i : Nat) : Nat := 0x40100 + i * 0x4
/-- `SYS_MODE_CMD` (R135). -/
def SYS_MODE_CMD : Nat := 0x40
/-- `SYS_MODE_STAT` (R135). -/
def SYS_MODE_STAT : Nat := 0x44
/-- `SYS_HALT_CAUSE` (R135). -/
def SYS_HALT_CAUSE : Nat := 0x48
/-- `SYS_HALT_LIVE` (R135). -/
def SYS_HALT_LIVE : Nat := 0x4C
/-- `SYS_MODE_EVENT` (R135). -/
def SYS_MODE_EVENT : Nat := 0x50
/-- `SYS_HALT_CNT` (R135). -/
def SYS_HALT_CNT : Nat := 0x54
/-- `CONV_REF_CFG` (R164). -/
def CONV_REF_CFG (d : Nat) : Nat := 0x80000 + d * 0x10000
/-- `CONV_REF_STAT` (R164). -/
def CONV_REF_STAT (d : Nat) : Nat := 0x80004 + d * 0x10000
/-- `CONV_CAL_CMD` (R164). -/
def CONV_CAL_CMD (d : Nat) : Nat := 0x80010 + d * 0x10000
/-- `CONV_CAL_STAT` (R164). -/
def CONV_CAL_STAT (d : Nat) : Nat := 0x80014 + d * 0x10000
/-- `CONV_EVENT` (R164). -/
def CONV_EVENT (d : Nat) : Nat := 0x80020 + d * 0x10000
/-- `CONV_C_CTL` (R165). -/
def CONV_C_CTL (c : Nat) : Nat := 0x81000 + c / 8 * 0x10000 + c % 8 * 0x800
/-- `CONV_C_STAT` (R165). -/
def CONV_C_STAT (c : Nat) : Nat := 0x81004 + c / 8 * 0x10000 + c % 8 * 0x800
/-- `CONV_C_EVENT` (R165). -/
def CONV_C_EVENT (c : Nat) : Nat := 0x81008 + c / 8 * 0x10000 + c % 8 * 0x800
/-- `CONV_C_IEN` (R165). -/
def CONV_C_IEN (c : Nat) : Nat := 0x8100C + c / 8 * 0x10000 + c % 8 * 0x800
/-- `CONV_C_OVR_CNT` (R165). -/
def CONV_C_OVR_CNT (c : Nat) : Nat := 0x81010 + c / 8 * 0x10000 + c % 8 * 0x800
/-- `CONV_C_LOST_CNT` (R165). -/
def CONV_C_LOST_CNT (c : Nat) : Nat := 0x81014 + c / 8 * 0x10000 + c % 8 * 0x800
/-- `CONV_C_SNAP` (R148). -/
def CONV_C_SNAP (c : Nat) : Nat := 0x81018 + c / 8 * 0x10000 + c % 8 * 0x800
/-- `CONV_C_TRIG` (R140). -/
def CONV_C_TRIG (c : Nat) : Nat := 0x8101C + c / 8 * 0x10000 + c % 8 * 0x800
/-- `CONV_C_ENT` (R139). -/
def CONV_C_ENT (c q : Nat) : Nat := 0x81080 + c / 8 * 0x10000 + c % 8 * 0x800 + q * 0x4
/-- `CONV_C_CAL_OFS` (R165). -/
def CONV_C_CAL_OFS (c : Nat) : Nat := 0x81100 + c / 8 * 0x10000 + c % 8 * 0x800
/-- `CONV_C_CAL_GAIN` (R165). -/
def CONV_C_CAL_GAIN (c : Nat) : Nat := 0x81104 + c / 8 * 0x10000 + c % 8 * 0x800
/-- `CONV_C_CAL_W` (R165). -/
def CONV_C_CAL_W (c i : Nat) : Nat := 0x81110 + c / 8 * 0x10000 + c % 8 * 0x800 + i * 0x4
/-- `CONV_C_ENT_SCALE` (R144). -/
def CONV_C_ENT_SCALE (c q : Nat) : Nat := 0x81200 + c / 8 * 0x10000 + c % 8 * 0x800 + q * 0x20
/-- `CONV_C_ENT_OFS` (R144). -/
def CONV_C_ENT_OFS (c q : Nat) : Nat := 0x81208 + c / 8 * 0x10000 + c % 8 * 0x800 + q * 0x20
/-- `CONV_C_ENT_DLY` (R145). -/
def CONV_C_ENT_DLY (c q : Nat) : Nat := 0x81210 + c / 8 * 0x10000 + c % 8 * 0x800 + q * 0x20
/-- `CONV_C_ENT_TRIM` (R145). -/
def CONV_C_ENT_TRIM (c q : Nat) : Nat := 0x81214 + c / 8 * 0x10000 + c % 8 * 0x800 + q * 0x20
/-- `CONV_C_RES_VAL` (R148). -/
def CONV_C_RES_VAL (c q : Nat) : Nat := 0x81400 + c / 8 * 0x10000 + c % 8 * 0x800 + q * 0x20
/-- `CONV_C_RES_RAW` (R148). -/
def CONV_C_RES_RAW (c q : Nat) : Nat := 0x81408 + c / 8 * 0x10000 + c % 8 * 0x800 + q * 0x20
/-- `CONV_C_RES_TS` (R148). -/
def CONV_C_RES_TS (c q : Nat) : Nat := 0x81410 + c / 8 * 0x10000 + c % 8 * 0x800 + q * 0x20
/-- `CONV_C_RES_VAL_S` (R148). -/
def CONV_C_RES_VAL_S (c q : Nat) : Nat := 0x81600 + c / 8 * 0x10000 + c % 8 * 0x800 + q * 0x20
/-- `CONV_C_RES_RAW_S` (R148). -/
def CONV_C_RES_RAW_S (c q : Nat) : Nat := 0x81608 + c / 8 * 0x10000 + c % 8 * 0x800 + q * 0x20
/-- `CONV_C_RES_TS_S` (R148). -/
def CONV_C_RES_TS_S (c q : Nat) : Nat := 0x81610 + c / 8 * 0x10000 + c % 8 * 0x800 + q * 0x20
/-- `CONV_F_CTL` (R165). -/
def CONV_F_CTL (f : Nat) : Nat := 0x86000 + f / 6 * 0x10000 + f % 6 * 0x100
/-- `CONV_F_STAT` (R165). -/
def CONV_F_STAT (f : Nat) : Nat := 0x86004 + f / 6 * 0x10000 + f % 6 * 0x100
/-- `CONV_F_EVENT` (R165). -/
def CONV_F_EVENT (f : Nat) : Nat := 0x86008 + f / 6 * 0x10000 + f % 6 * 0x100
/-- `CONV_F_IEN` (R165). -/
def CONV_F_IEN (f : Nat) : Nat := 0x8600C + f / 6 * 0x10000 + f % 6 * 0x100
/-- `CONV_F_SNAP` (R165). -/
def CONV_F_SNAP (f : Nat) : Nat := 0x86010 + f / 6 * 0x10000 + f % 6 * 0x100
/-- `CONV_F_ZERO` (R157). -/
def CONV_F_ZERO (f : Nat) : Nat := 0x86014 + f / 6 * 0x10000 + f % 6 * 0x100
/-- `CONV_F_SCALE` (R157). -/
def CONV_F_SCALE (f : Nat) : Nat := 0x86018 + f / 6 * 0x10000 + f % 6 * 0x100
/-- `CONV_F_OFS` (R157). -/
def CONV_F_OFS (f : Nat) : Nat := 0x86020 + f / 6 * 0x10000 + f % 6 * 0x100
/-- `CONV_F_DLY` (R145). -/
def CONV_F_DLY (f : Nat) : Nat := 0x86028 + f / 6 * 0x10000 + f % 6 * 0x100
/-- `CONV_F_TRIM` (R145). -/
def CONV_F_TRIM (f : Nat) : Nat := 0x8602C + f / 6 * 0x10000 + f % 6 * 0x100
/-- `CONV_F_VAL` (R157). -/
def CONV_F_VAL (f : Nat) : Nat := 0x86040 + f / 6 * 0x10000 + f % 6 * 0x100
/-- `CONV_F_RAW` (R165). -/
def CONV_F_RAW (f : Nat) : Nat := 0x86048 + f / 6 * 0x10000 + f % 6 * 0x100
/-- `CONV_F_IDX` (R158). -/
def CONV_F_IDX (f : Nat) : Nat := 0x8604C + f / 6 * 0x10000 + f % 6 * 0x100
/-- `CONV_F_TS` (R158). -/
def CONV_F_TS (f : Nat) : Nat := 0x86050 + f / 6 * 0x10000 + f % 6 * 0x100
/-- `CONV_F_VAL_S` (R157). -/
def CONV_F_VAL_S (f : Nat) : Nat := 0x86080 + f / 6 * 0x10000 + f % 6 * 0x100
/-- `CONV_F_RAW_S` (R165). -/
def CONV_F_RAW_S (f : Nat) : Nat := 0x86088 + f / 6 * 0x10000 + f % 6 * 0x100
/-- `CONV_F_IDX_S` (R158). -/
def CONV_F_IDX_S (f : Nat) : Nat := 0x8608C + f / 6 * 0x10000 + f % 6 * 0x100
/-- `CONV_F_TS_S` (R158). -/
def CONV_F_TS_S (f : Nat) : Nat := 0x86090 + f / 6 * 0x10000 + f % 6 * 0x100
/-- `HOST_CFG` (R439). -/
def HOST_CFG : Nat := 0x240000
/-- `HOST_STAT` (R438). -/
def HOST_STAT : Nat := 0x240004
/-- `HOST_ERR` (R436). -/
def HOST_ERR : Nat := 0x240008
/-- `HOST_ERR_INFO` (R436). -/
def HOST_ERR_INFO : Nat := 0x24000C
/-- `HOST_ERR_CNT` (R436). -/
def HOST_ERR_CNT : Nat := 0x240010
/-- `TRIPIN_CFG` (R186). -/
def TRIPIN_CFG (d : Nat) : Nat := 0xA0000 + d * 0x10000
/-- `WIN_M_CFG` (R186). -/
def WIN_M_CFG (m : Nat) : Nat := 0xA1000 + m / 16 * 0x10000 + m % 16 * 0x100
/-- `WIN_M_FILT` (R171). -/
def WIN_M_FILT (m : Nat) : Nat := 0xA1004 + m / 16 * 0x10000 + m % 16 * 0x100
/-- `WIN_M_TH` (R166). -/
def WIN_M_TH (m : Nat) : Nat := 0xA1008 + m / 16 * 0x10000 + m % 16 * 0x100
/-- `WIN_M_HYS` (R167). -/
def WIN_M_HYS (m : Nat) : Nat := 0xA100C + m / 16 * 0x10000 + m % 16 * 0x100
/-- `WIN_M_SLOPE` (R169). -/
def WIN_M_SLOPE (m : Nat) : Nat := 0xA1010 + m / 16 * 0x10000 + m % 16 * 0x100
/-- `WIN_M_STAT` (R186). -/
def WIN_M_STAT (m : Nat) : Nat := 0xA1014 + m / 16 * 0x10000 + m % 16 * 0x100
/-- `WIN_M_EVENT` (R173). -/
def WIN_M_EVENT (m : Nat) : Nat := 0xA1018 + m / 16 * 0x10000 + m % 16 * 0x100
/-- `WIN_M_IEN` (R173). -/
def WIN_M_IEN (m : Nat) : Nat := 0xA101C + m / 16 * 0x10000 + m % 16 * 0x100
/-- `WIN_M_CAP_TS` (R172). -/
def WIN_M_CAP_TS (m : Nat) : Nat := 0xA1020 + m / 16 * 0x10000 + m % 16 * 0x100
/-- `WIN_M_CAP_INFO` (R172). -/
def WIN_M_CAP_INFO (m : Nat) : Nat := 0xA1028 + m / 16 * 0x10000 + m % 16 * 0x100
/-- `WIN_M_CAP_OVR` (R172). -/
def WIN_M_CAP_OVR (m : Nat) : Nat := 0xA102C + m / 16 * 0x10000 + m % 16 * 0x100
/-- `TRIP_SRC_OFF` (R176). -/
def TRIP_SRC_OFF (d i : Nat) : Nat := 0xA4000 + d * 0x10000 + i * 0x10
/-- `TRIP_SRC_ON` (R176). -/
def TRIP_SRC_ON (d i : Nat) : Nat := 0xA4004 + d * 0x10000 + i * 0x10
/-- `TRIP_SRC_REP` (R176). -/
def TRIP_SRC_REP (d i : Nat) : Nat := 0xA4008 + d * 0x10000 + i * 0x10
/-- `TRIP_SRC_CFG` (R179). -/
def TRIP_SRC_CFG (d i : Nat) : Nat := 0xA400C + d * 0x10000 + i * 0x10
/-- `TRIP_SRC_ACT` (R186). -/
def TRIP_SRC_ACT (d w : Nat) : Nat := 0xA5000 + d * 0x10000 + w * 0x4
/-- `TRIP_LATCH` (R179). -/
def TRIP_LATCH (d w : Nat) : Nat := 0xA5020 + d * 0x10000 + w * 0x4
/-- `TRIP_GT_OFF` (R186). -/
def TRIP_GT_OFF (d : Nat) : Nat := 0xA5040 + d * 0x10000
/-- `TRIP_GT_ON` (R186). -/
def TRIP_GT_ON (d : Nat) : Nat := 0xA5044 + d * 0x10000
/-- `TRIP_GT_REP` (R178). -/
def TRIP_GT_REP (d : Nat) : Nat := 0xA5048 + d * 0x10000
/-- `TRIP_FW` (R175). -/
def TRIP_FW (d : Nat) : Nat := 0xA5050 + d * 0x10000
/-- `TRIP_EVENT` (R186). -/
def TRIP_EVENT (d : Nat) : Nat := 0xA5060 + d * 0x10000
/-- `TRIP_CONFLICT_CNT` (R177). -/
def TRIP_CONFLICT_CNT (d : Nat) : Nat := 0xA5064 + d * 0x10000
/-- `EDGE_COMMIT` (R196). -/
def EDGE_COMMIT (d : Nat) : Nat := 0xC0000 + d * 0x10000
/-- `EDGE_CAL_CFG` (R193). -/
def EDGE_CAL_CFG (d : Nat) : Nat := 0xC0004 + d * 0x10000
/-- `EDGE_CAL_STAT` (R194). -/
def EDGE_CAL_STAT (d : Nat) : Nat := 0xC0008 + d * 0x10000
/-- `EDGE_SYNC_CFG` (R206). -/
def EDGE_SYNC_CFG : Nat := 0xC0010
/-- `EDGE_SYNC_ADJ` (R207). -/
def EDGE_SYNC_ADJ : Nat := 0xC0014
/-- `EDGE_SYNC_STAT` (R207). -/
def EDGE_SYNC_STAT : Nat := 0xC0018
/-- `EDGE_SYNCI_TS` (R207). -/
def EDGE_SYNCI_TS : Nat := 0xC0020
/-- `EDGE_EVENT` (R212). -/
def EDGE_EVENT (d : Nat) : Nat := 0xC0028 + d * 0x10000
/-- `EDGE_CH_CFG` (R213). -/
def EDGE_CH_CFG (n : Nat) : Nat := 0xC1000 + n / 24 * 0x10000 + n % 24 * 0x100
/-- `EDGE_CH_CTL` (R195), shadow. -/
def EDGE_CH_CTL (n : Nat) : Nat := 0xC1004 + n / 24 * 0x10000 + n % 24 * 0x100
/-- `EDGE_CH_CTL_ACT` (R195), active copy. -/
def EDGE_CH_CTL_ACT (n : Nat) : Nat := 0xC1044 + n / 24 * 0x10000 + n % 24 * 0x100
/-- `EDGE_CH_PER` (R195), shadow. -/
def EDGE_CH_PER (n : Nat) : Nat := 0xC1008 + n / 24 * 0x10000 + n % 24 * 0x100
/-- `EDGE_CH_PER_ACT` (R195), active copy. -/
def EDGE_CH_PER_ACT (n : Nat) : Nat := 0xC1048 + n / 24 * 0x10000 + n % 24 * 0x100
/-- `EDGE_CH_CMP_A` (R195), shadow. -/
def EDGE_CH_CMP_A (n : Nat) : Nat := 0xC100C + n / 24 * 0x10000 + n % 24 * 0x100
/-- `EDGE_CH_CMP_A_ACT` (R195), active copy. -/
def EDGE_CH_CMP_A_ACT (n : Nat) : Nat := 0xC104C + n / 24 * 0x10000 + n % 24 * 0x100
/-- `EDGE_CH_CMP_B` (R195), shadow. -/
def EDGE_CH_CMP_B (n : Nat) : Nat := 0xC1010 + n / 24 * 0x10000 + n % 24 * 0x100
/-- `EDGE_CH_CMP_B_ACT` (R195), active copy. -/
def EDGE_CH_CMP_B_ACT (n : Nat) : Nat := 0xC1050 + n / 24 * 0x10000 + n % 24 * 0x100
/-- `EDGE_CH_DT` (R195), shadow. -/
def EDGE_CH_DT (n : Nat) : Nat := 0xC1014 + n / 24 * 0x10000 + n % 24 * 0x100
/-- `EDGE_CH_DT_ACT` (R195), active copy. -/
def EDGE_CH_DT_ACT (n : Nat) : Nat := 0xC1054 + n / 24 * 0x10000 + n % 24 * 0x100
/-- `EDGE_CH_MINP` (R195), shadow. -/
def EDGE_CH_MINP (n : Nat) : Nat := 0xC1018 + n / 24 * 0x10000 + n % 24 * 0x100
/-- `EDGE_CH_MINP_ACT` (R195), active copy. -/
def EDGE_CH_MINP_ACT (n : Nat) : Nat := 0xC1058 + n / 24 * 0x10000 + n % 24 * 0x100
/-- `EDGE_CH_PHASE` (R195), shadow. -/
def EDGE_CH_PHASE (n : Nat) : Nat := 0xC101C + n / 24 * 0x10000 + n % 24 * 0x100
/-- `EDGE_CH_PHASE_ACT` (R195), active copy. -/
def EDGE_CH_PHASE_ACT (n : Nat) : Nat := 0xC105C + n / 24 * 0x10000 + n % 24 * 0x100
/-- `EDGE_CH_SYNC_PH` (R207). -/
def EDGE_CH_SYNC_PH (n : Nat) : Nat := 0xC1020 + n / 24 * 0x10000 + n % 24 * 0x100
/-- `EDGE_CH_REFR` (R201). -/
def EDGE_CH_REFR (n : Nat) : Nat := 0xC1024 + n / 24 * 0x10000 + n % 24 * 0x100
/-- `EDGE_CH_STAT` (R213). -/
def EDGE_CH_STAT (n : Nat) : Nat := 0xC1028 + n / 24 * 0x10000 + n % 24 * 0x100
/-- `EDGE_CH_CNT` (R213). -/
def EDGE_CH_CNT (n : Nat) : Nat := 0xC102C + n / 24 * 0x10000 + n % 24 * 0x100
/-- `EDGE_CH_EVENT` (R213). -/
def EDGE_CH_EVENT (n : Nat) : Nat := 0xC1030 + n / 24 * 0x10000 + n % 24 * 0x100
/-- `EDGE_CH_IEN` (R213). -/
def EDGE_CH_IEN (n : Nat) : Nat := 0xC1034 + n / 24 * 0x10000 + n % 24 * 0x100
/-- `EDGE_CH_MINP_CNT` (R204). -/
def EDGE_CH_MINP_CNT (n : Nat) : Nat := 0xC1038 + n / 24 * 0x10000 + n % 24 * 0x100
/-- `EDGE_CH_REFR_CNT` (R202). -/
def EDGE_CH_REFR_CNT (n : Nat) : Nat := 0xC103C + n / 24 * 0x10000 + n % 24 * 0x100
/-- `EDGE_CH_CALW` (R193). -/
def EDGE_CH_CALW (n i : Nat) : Nat := 0xC1080 + n / 24 * 0x10000 + n % 24 * 0x100 + i * 0x4
/-- `EDGE_CH_CALT` (R193). -/
def EDGE_CH_CALT (n : Nat) : Nat := 0xC10A0 + n / 24 * 0x10000 + n % 24 * 0x100
/-- `GATE_EVENT` (R235). -/
def GATE_EVENT (d : Nat) : Nat := 0xE0000 + d * 0x10000
/-- `GATE_BOTHON` (R216). -/
def GATE_BOTHON (d : Nat) : Nat := 0xE0004 + d * 0x10000
/-- `GATE_BOTHON_TS` (R216). -/
def GATE_BOTHON_TS (d : Nat) : Nat := 0xE0008 + d * 0x10000
/-- `GATE_BOTHON_CNT` (R216). -/
def GATE_BOTHON_CNT (d : Nat) : Nat := 0xE0010 + d * 0x10000
/-- `GATE_LIG_CFG` (R235). -/
def GATE_LIG_CFG (k : Nat) : Nat := 0xE0100 + k / 2 * 0x10000 + k % 2 * 0x40
/-- `GATE_LIG_SEL` (R228). -/
def GATE_LIG_SEL (k : Nat) : Nat := 0xE0104 + k / 2 * 0x10000 + k % 2 * 0x40
/-- `GATE_LIG_STAT` (R235). -/
def GATE_LIG_STAT (k : Nat) : Nat := 0xE0108 + k / 2 * 0x10000 + k % 2 * 0x40
/-- `GATE_LIG_ERR` (R223). -/
def GATE_LIG_ERR (k : Nat) : Nat := 0xE010C + k / 2 * 0x10000 + k % 2 * 0x40
/-- `GATE_LIG_ABORT` (R220). -/
def GATE_LIG_ABORT (k : Nat) : Nat := 0xE0110 + k / 2 * 0x10000 + k % 2 * 0x40
/-- `GATE_CH_CFG` (R236). -/
def GATE_CH_CFG (n : Nat) : Nat := 0xE1000 + n / 24 * 0x10000 + n % 24 * 0x100
/-- `GATE_CH_FAULT` (R236). -/
def GATE_CH_FAULT (n : Nat) : Nat := 0xE1004 + n / 24 * 0x10000 + n % 24 * 0x100
/-- `GATE_CH_DESAT` (R224). -/
def GATE_CH_DESAT (n : Nat) : Nat := 0xE1008 + n / 24 * 0x10000 + n % 24 * 0x100
/-- `GATE_CH_SUPPLY` (R230). -/
def GATE_CH_SUPPLY (n : Nat) : Nat := 0xE100C + n / 24 * 0x10000 + n % 24 * 0x100
/-- `GATE_CH_TELEM0` (R229). -/
def GATE_CH_TELEM0 (n : Nat) : Nat := 0xE1010 + n / 24 * 0x10000 + n % 24 * 0x100
/-- `GATE_CH_TELEM1` (R229). -/
def GATE_CH_TELEM1 (n : Nat) : Nat := 0xE1014 + n / 24 * 0x10000 + n % 24 * 0x100
/-- `GATE_CH_TELEM_TS` (R229). -/
def GATE_CH_TELEM_TS (n : Nat) : Nat := 0xE1018 + n / 24 * 0x10000 + n % 24 * 0x100
/-- `GATE_CH_EVENT` (R236). -/
def GATE_CH_EVENT (n : Nat) : Nat := 0xE1020 + n / 24 * 0x10000 + n % 24 * 0x100
/-- `GATE_CH_IEN` (R236). -/
def GATE_CH_IEN (n : Nat) : Nat := 0xE1024 + n / 24 * 0x10000 + n % 24 * 0x100
/-- `GATE_CH_FCNT` (R225). -/
def GATE_CH_FCNT (n : Nat) : Nat := 0xE1028 + n / 24 * 0x10000 + n % 24 * 0x100
/-- `GATE_CH_STAT` (R236). -/
def GATE_CH_STAT (n : Nat) : Nat := 0xE102C + n / 24 * 0x10000 + n % 24 * 0x100
/-- `GATE_CH_PROF` (R227), x = 12d + 3v + g. -/
def GATE_CH_PROF (n x : Nat) : Nat := 0xE1040 + n / 24 * 0x10000 + n % 24 * 0x100 + x * 0x4
/-- `BORE_CTL` (R264). -/
def BORE_CTL (e : Nat) : Nat := 0x100000 + e * 0x4000
/-- `BORE_STAT` (R264). -/
def BORE_STAT (e : Nat) : Nat := 0x100004 + e * 0x4000
/-- `BORE_EVENT` (R264). -/
def BORE_EVENT (e : Nat) : Nat := 0x100008 + e * 0x4000
/-- `BORE_IEN` (R264). -/
def BORE_IEN (e : Nat) : Nat := 0x10000C + e * 0x4000
/-- `BORE_INFO` (R264). -/
def BORE_INFO (e : Nat) : Nat := 0x100010 + e * 0x4000
/-- `BORE_TRIG` (R264). -/
def BORE_TRIG (e : Nat) : Nat := 0x100014 + e * 0x4000
/-- `BORE_FIX_PH` (R264). -/
def BORE_FIX_PH (e : Nat) : Nat := 0x100018 + e * 0x4000
/-- `BORE_FIX_CFG` (R264). -/
def BORE_FIX_CFG (e : Nat) : Nat := 0x10001C + e * 0x4000
/-- `BORE_TAG` (R258). -/
def BORE_TAG (e : Nat) : Nat := 0x100020 + e * 0x4000
/-- `BORE_TAG_SEEN` (R258). -/
def BORE_TAG_SEEN (e : Nat) : Nat := 0x100024 + e * 0x4000
/-- `BORE_HOLD` (R259). -/
def BORE_HOLD (e : Nat) : Nat := 0x100028 + e * 0x4000
/-- `BORE_LIM_LO` (R264). -/
def BORE_LIM_LO (e : Nat) : Nat := 0x100030 + e * 0x4000
/-- `BORE_LIM_HI` (R264). -/
def BORE_LIM_HI (e : Nat) : Nat := 0x100034 + e * 0x4000
/-- `BORE_OVF_LO` (R264). -/
def BORE_OVF_LO (e : Nat) : Nat := 0x100038 + e * 0x4000
/-- `BORE_OVF_HI` (R264). -/
def BORE_OVF_HI (e : Nat) : Nat := 0x10003C + e * 0x4000
/-- `BORE_STEP_CNT` (R264). -/
def BORE_STEP_CNT (e : Nat) : Nat := 0x100040 + e * 0x4000
/-- `BORE_LOST_CNT` (R264). -/
def BORE_LOST_CNT (e : Nat) : Nat := 0x100048 + e * 0x4000
/-- `BORE_LATE_CNT` (R264). -/
def BORE_LATE_CNT (e : Nat) : Nat := 0x10004C + e * 0x4000
/-- `BORE_MOD_CFG` (R264). -/
def BORE_MOD_CFG (e : Nat) : Nat := 0x100050 + e * 0x4000
/-- `BORE_LAST_TS` (R264). -/
def BORE_LAST_TS (e : Nat) : Nat := 0x100058 + e * 0x4000
/-- `BORE_STALE_LO` (R264). -/
def BORE_STALE_LO (e : Nat) : Nat := 0x100060 + e * 0x4000
/-- `BORE_STALE_HI` (R264). -/
def BORE_STALE_HI (e : Nat) : Nat := 0x100064 + e * 0x4000
/-- `BORE_SNAP` (R264). -/
def BORE_SNAP (e : Nat) : Nat := 0x100070 + e * 0x4000
/-- `BORE_SP` (R242). -/
def BORE_SP (e i : Nat) : Nat := 0x100100 + e * 0x4000 + i * 0x8
/-- `BORE_IN` (R264). -/
def BORE_IN (e j : Nat) : Nat := 0x100200 + e * 0x4000 + j * 0x8
/-- `BORE_IN_S` (R264). -/
def BORE_IN_S (e j : Nat) : Nat := 0x100400 + e * 0x4000 + j * 0x8
/-- `BORE_STG_CFG` (R265). -/
def BORE_STG_CFG (e s : Nat) : Nat := 0x101000 + e * 0x4000 + s * 0x100
/-- `BORE_STG_OPA` (R265). -/
def BORE_STG_OPA (e s : Nat) : Nat := 0x101004 + e * 0x4000 + s * 0x100
/-- `BORE_STG_OPB` (R265). -/
def BORE_STG_OPB (e s : Nat) : Nat := 0x101008 + e * 0x4000 + s * 0x100
/-- `BORE_STG_K` (R265). -/
def BORE_STG_K (e s k : Nat) : Nat := 0x101040 + e * 0x4000 + s * 0x100 + k * 0x8
/-- `BORE_STG_X` (R265). -/
def BORE_STG_X (e s i : Nat) : Nat := 0x101080 + e * 0x4000 + s * 0x100 + i * 0x8
/-- `BORE_STG_Y` (R265). -/
def BORE_STG_Y (e s l : Nat) : Nat := 0x1010A0 + e * 0x4000 + s * 0x100 + l * 0x8
/-- `BORE_STG_X_S` (R265). -/
def BORE_STG_X_S (e s i : Nat) : Nat := 0x1010C0 + e * 0x4000 + s * 0x100 + i * 0x8
/-- `BORE_STG_Y_S` (R265). -/
def BORE_STG_Y_S (e s l : Nat) : Nat := 0x1010E0 + e * 0x4000 + s * 0x100 + l * 0x8
/-- `GRID_CTL` (R296). -/
def GRID_CTL : Nat := 0x140000
/-- `GRID_STAT` (R296). -/
def GRID_STAT : Nat := 0x140004
/-- `GRID_EVENT` (R296). -/
def GRID_EVENT : Nat := 0x140008
/-- `GRID_IEN` (R296). -/
def GRID_IEN : Nat := 0x14000C
/-- `GRID_TRIG` (R296). -/
def GRID_TRIG : Nat := 0x140010
/-- `GRID_CFG` (R296). -/
def GRID_CFG : Nat := 0x140014
/-- `GRID_LOST_CNT` (R296). -/
def GRID_LOST_CNT : Nat := 0x140018
/-- `GRID_SNAP` (R296). -/
def GRID_SNAP : Nat := 0x14001C
/-- `GRID_VBASE` (R296). -/
def GRID_VBASE : Nat := 0x140020
/-- `GRID_IBASE` (R296). -/
def GRID_IBASE : Nat := 0x140024
/-- `GRID_SBASE` (R296). -/
def GRID_SBASE : Nat := 0x140028
/-- `GRID_FNOM` (R296). -/
def GRID_FNOM : Nat := 0x14002C
/-- `GRID_KS` (R279). -/
def GRID_KS : Nat := 0x140030
/-- `GRID_LAST_TS` (R296). -/
def GRID_LAST_TS : Nat := 0x140038
/-- `GRID_TS` (R296). -/
def GRID_TS : Nat := 0x140040
/-- `GRID_STEP_CNT` (R296). -/
def GRID_STEP_CNT : Nat := 0x140148
/-- `GRID_TRK_CFG` (R296). -/
def GRID_TRK_CFG : Nat := 0x140048
/-- `GRID_TRK_TOL` (R296). -/
def GRID_TRK_TOL : Nat := 0x14004C
/-- `GRID_TRK_K` (R296). -/
def GRID_TRK_K : Nat := 0x140050
/-- `GRID_TRK_G` (R296). -/
def GRID_TRK_G : Nat := 0x140058
/-- `GRID_TRK_VMIN` (R296). -/
def GRID_TRK_VMIN : Nat := 0x140060
/-- `GRID_TRK_RTAU` (R296). -/
def GRID_TRK_RTAU : Nat := 0x140068
/-- `GRID_PQ_TAU` (R296). -/
def GRID_PQ_TAU : Nat := 0x140070
/-- `GRID_STALE` (R296). -/
def GRID_STALE : Nat := 0x140078
/-- `GRID_CS_CFG` (R297). -/
def GRID_CS_CFG : Nat := 0x140080
/-- `GRID_CS_ANG` (R297). -/
def GRID_CS_ANG : Nat := 0x140084
/-- `GRID_P_SP` (R297). -/
def GRID_P_SP : Nat := 0x140088
/-- `GRID_Q_SP` (R297). -/
def GRID_Q_SP : Nat := 0x140090
/-- `GRID_P_RATE` (R297). -/
def GRID_P_RATE : Nat := 0x140098
/-- `GRID_Q_RATE` (R297). -/
def GRID_Q_RATE : Nat := 0x1400A0
/-- `GRID_IDN_SP` (R297). -/
def GRID_IDN_SP : Nat := 0x1400A8
/-- `GRID_IQN_SP` (R297). -/
def GRID_IQN_SP : Nat := 0x1400B0
/-- `GRID_ILIM` (R297). -/
def GRID_ILIM : Nat := 0x1400B8
/-- `GRID_VFLOOR` (R297). -/
def GRID_VFLOOR : Nat := 0x1400C0
/-- `GRID_CS_PSRC` (R297). -/
def GRID_CS_PSRC : Nat := 0x1400C8
/-- `GRID_FM_CFG` (R297). -/
def GRID_FM_CFG : Nat := 0x140100
/-- `GRID_FM_H` (R297). -/
def GRID_FM_H : Nat := 0x140108
/-- `GRID_FM_D` (R297). -/
def GRID_FM_D : Nat := 0x140110
/-- `GRID_FM_MP` (R297). -/
def GRID_FM_MP : Nat := 0x140118
/-- `GRID_FM_F_SET` (R297). -/
def GRID_FM_F_SET : Nat := 0x140120
/-- `GRID_FM_E0` (R297). -/
def GRID_FM_E0 : Nat := 0x140128
/-- `GRID_FM_NQ` (R297). -/
def GRID_FM_NQ : Nat := 0x140130
/-- `GRID_FM_TV` (R297). -/
def GRID_FM_TV : Nat := 0x140138
/-- `GRID_FM_RV` (R297). -/
def GRID_FM_RV : Nat := 0x140140
/-- `GRID_FM_XV` (R297). -/
def GRID_FM_XV : Nat := 0x140150
/-- `GRID_FM_RET` (R297). -/
def GRID_FM_RET : Nat := 0x140158
/-- `GRID_Q` (R293). -/
def GRID_Q (q : Nat) : Nat := 0x140400 + q * 0x8
/-- `GRID_Q_S` (R297). -/
def GRID_Q_S (q : Nat) : Nat := 0x140600 + q * 0x8
/-- `GRID_IN` (R297). -/
def GRID_IN (j : Nat) : Nat := 0x140800 + j * 0x8
/-- `GRID_IN_S` (R297). -/
def GRID_IN_S (j : Nat) : Nat := 0x140880 + j * 0x8
/-- `MPPT_CTL` (R335). -/
def MPPT_CTL : Nat := 0x160000
/-- `MPPT_STAT` (R335). -/
def MPPT_STAT : Nat := 0x160004
/-- `MPPT_EVENT` (R335). -/
def MPPT_EVENT : Nat := 0x160008
/-- `MPPT_IEN` (R335). -/
def MPPT_IEN : Nat := 0x16000C
/-- `MPPT_SWEEP_CFG` (R335). -/
def MPPT_SWEEP_CFG : Nat := 0x160010
/-- `MPPT_SNAP` (R335). -/
def MPPT_SNAP : Nat := 0x160014
/-- `MPPT_SWEEP_GAIN` (R335). -/
def MPPT_SWEEP_GAIN : Nat := 0x160018
/-- `MPPT_VDC_SP` (R335). -/
def MPPT_VDC_SP : Nat := 0x160020
/-- `MPPT_KDC` (R335). -/
def MPPT_KDC : Nat := 0x160028
/-- `MPPT_PSUM` (R335). -/
def MPPT_PSUM : Nat := 0x160030
/-- `MPPT_P_CFG` (R335). -/
def MPPT_P_CFG (p : Nat) : Nat := 0x160100 + p * 0x100
/-- `MPPT_P_STAT` (R335). -/
def MPPT_P_STAT (p : Nat) : Nat := 0x160104 + p * 0x100
/-- `MPPT_P_THSCALE` (R335). -/
def MPPT_P_THSCALE (p : Nat) : Nat := 0x160108 + p * 0x100
/-- `MPPT_P_MOVES` (R335). -/
def MPPT_P_MOVES (p : Nat) : Nat := 0x16010C + p * 0x100
/-- `MPPT_P_VREF` (R335). -/
def MPPT_P_VREF (p : Nat) : Nat := 0x160110 + p * 0x100
/-- `MPPT_P_V` (R335). -/
def MPPT_P_V (p : Nat) : Nat := 0x160118 + p * 0x100
/-- `MPPT_P_I` (R335). -/
def MPPT_P_I (p : Nat) : Nat := 0x160120 + p * 0x100
/-- `MPPT_P_P` (R335). -/
def MPPT_P_P (p : Nat) : Nat := 0x160128 + p * 0x100
/-- `MPPT_P_IPK` (R335). -/
def MPPT_P_IPK (p : Nat) : Nat := 0x160130 + p * 0x100
/-- `MPPT_P_KP` (R335). -/
def MPPT_P_KP (p : Nat) : Nat := 0x160138 + p * 0x100
/-- `MPPT_P_KI` (R335). -/
def MPPT_P_KI (p : Nat) : Nat := 0x160140 + p * 0x100
/-- `MPPT_P_IPK_MAX` (R335). -/
def MPPT_P_IPK_MAX (p : Nat) : Nat := 0x160148 + p * 0x100
/-- `MPPT_P_VLO` (R335). -/
def MPPT_P_VLO (p : Nat) : Nat := 0x160150 + p * 0x100
/-- `MPPT_P_VHI` (R335). -/
def MPPT_P_VHI (p : Nat) : Nat := 0x160158 + p * 0x100
/-- `MPPT_P_VSTART` (R335). -/
def MPPT_P_VSTART (p : Nat) : Nat := 0x160160 + p * 0x100
/-- `MPPT_P_DMIN` (R335). -/
def MPPT_P_DMIN (p : Nat) : Nat := 0x160168 + p * 0x100
/-- `MPPT_P_DMAX` (R335). -/
def MPPT_P_DMAX (p : Nat) : Nat := 0x160170 + p * 0x100
/-- `MPPT_P_KA` (R335). -/
def MPPT_P_KA (p : Nat) : Nat := 0x160178 + p * 0x100
/-- `MPPT_P_PDB` (R335). -/
def MPPT_P_PDB (p : Nat) : Nat := 0x160180 + p * 0x100
/-- `MPPT_P_PLIM` (R335). -/
def MPPT_P_PLIM (p : Nat) : Nat := 0x160188 + p * 0x100
/-- `MPPT_P_BEST_V` (R335). -/
def MPPT_P_BEST_V (p : Nat) : Nat := 0x160190 + p * 0x100
/-- `MPPT_P_BEST_P` (R335). -/
def MPPT_P_BEST_P (p : Nat) : Nat := 0x160198 + p * 0x100
/-- `MPPT_P_V_S` (R335). -/
def MPPT_P_V_S (p : Nat) : Nat := 0x1601C0 + p * 0x100
/-- `MPPT_P_I_S` (R335). -/
def MPPT_P_I_S (p : Nat) : Nat := 0x1601C8 + p * 0x100
/-- `MPPT_P_P_S` (R335). -/
def MPPT_P_P_S (p : Nat) : Nat := 0x1601D0 + p * 0x100
/-- `MPPT_P_VREF_S` (R335). -/
def MPPT_P_VREF_S (p : Nat) : Nat := 0x1601D8 + p * 0x100
/-- `MPPT_P_IPK_S` (R335). -/
def MPPT_P_IPK_S (p : Nat) : Nat := 0x1601E0 + p * 0x100
/-- `RIDE_STAT` (R336). -/
def RIDE_STAT : Nat := 0x170000
/-- `RIDE_REGION` (R336). -/
def RIDE_REGION : Nat := 0x170004
/-- `RIDE_EVENT` (R336). -/
def RIDE_EVENT : Nat := 0x170008
/-- `RIDE_IEN` (R336). -/
def RIDE_IEN : Nat := 0x17000C
/-- `RIDE_CFG` (R336). -/
def RIDE_CFG : Nat := 0x170010
/-- `RIDE_TRIP_INFO` (R336). -/
def RIDE_TRIP_INFO : Nat := 0x170014
/-- `RIDE_EXC_CNT` (R336). -/
def RIDE_EXC_CNT : Nat := 0x170018
/-- `RIDE_KP` (R336). -/
def RIDE_KP : Nat := 0x170020
/-- `RIDE_KN` (R336). -/
def RIDE_KN : Nat := 0x170028
/-- `RIDE_DB` (R336). -/
def RIDE_DB : Nat := 0x170030
/-- `RIDE_P_RATE` (R336). -/
def RIDE_P_RATE : Nat := 0x170038
/-- `RIDE_VPRE` (R336). -/
def RIDE_VPRE : Nat := 0x170040
/-- `RIDE_ID_HOLD` (R336). -/
def RIDE_ID_HOLD : Nat := 0x170048
/-- `RIDE_CONT_LO` (R336), q 0 to 2. -/
def RIDE_CONT_LO (q : Nat) : Nat := 0x170100 + q * 0x20
/-- `RIDE_CONT_LO3` (R336), q 3. -/
def RIDE_CONT_LO3 : Nat := 0x170160
/-- `RIDE_CONT_HI` (R336), q 0 to 2. -/
def RIDE_CONT_HI (q : Nat) : Nat := 0x170108 + q * 0x20
/-- `RIDE_CONT_HI3` (R336), q 3. -/
def RIDE_CONT_HI3 : Nat := 0x170168
/-- `RIDE_HYS` (R336), q 0 to 2. -/
def RIDE_HYS (q : Nat) : Nat := 0x170110 + q * 0x20
/-- `RIDE_HYS3` (R336), q 3. -/
def RIDE_HYS3 : Nat := 0x170170
/-- `RIDE_CRV` (R336). -/
def RIDE_CRV (i : Nat) : Nat := 0x170200 + i * 0x4
/-- `RIDE_PT_TH` (R336). -/
def RIDE_PT_TH (i k : Nat) : Nat := 0x171000 + i * 0x100 + k * 0x10
/-- `RIDE_PT_US` (R336). -/
def RIDE_PT_US (i k : Nat) : Nat := 0x171008 + i * 0x100 + k * 0x10
/-- `PROBE_CFG` (R337). -/
def PROBE_CFG : Nat := 0x180000
/-- `PROBE_STAT` (R337). -/
def PROBE_STAT : Nat := 0x180004
/-- `PROBE_EVENT` (R337). -/
def PROBE_EVENT : Nat := 0x180008
/-- `PROBE_IEN` (R337). -/
def PROBE_IEN : Nat := 0x18000C
/-- `PROBE_CODE` (R337). -/
def PROBE_CODE : Nat := 0x180010
/-- `PROBE_CHIP` (R337). -/
def PROBE_CHIP : Nat := 0x180014
/-- `PROBE_ASSIGN` (R337). -/
def PROBE_ASSIGN : Nat := 0x180018
/-- `PROBE_ASSIGN_ID` (R337). -/
def PROBE_ASSIGN_ID : Nat := 0x18001C
/-- `PROBE_TAPPLY` (R337). -/
def PROBE_TAPPLY : Nat := 0x180020
/-- `PROBE_PHASE_CMD` (R337). -/
def PROBE_PHASE_CMD : Nat := 0x180028
/-- `PROBE_CTL` (R337). -/
def PROBE_CTL : Nat := 0x18002C
/-- `PROBE_ISL_CAUSE` (R337). -/
def PROBE_ISL_CAUSE : Nat := 0x180030
/-- `PROBE_SNAP` (R337). -/
def PROBE_SNAP : Nat := 0x180034
/-- `PROBE_ISL_NT` (R337). -/
def PROBE_ISL_NT : Nat := 0x180038
/-- `PROBE_ISL_TS` (R337). -/
def PROBE_ISL_TS : Nat := 0x180040
/-- `PROBE_REPHASE_CNT` (R337). -/
def PROBE_REPHASE_CNT : Nat := 0x180048
/-- `PROBE_BAD_CNT` (R337). -/
def PROBE_BAD_CNT : Nat := 0x18004C
/-- `PROBE_F_MS` (R337). -/
def PROBE_F_MS : Nat := 0x180050
/-- `PROBE_V_MS` (R337). -/
def PROBE_V_MS : Nat := 0x180054
/-- `PROBE_R_MS` (R337). -/
def PROBE_R_MS : Nat := 0x180058
/-- `PROBE_AMP` (R337). -/
def PROBE_AMP : Nat := 0x180080
/-- `PROBE_H1` (R337). -/
def PROBE_H1 : Nat := 0x180088
/-- `PROBE_H2` (R337). -/
def PROBE_H2 : Nat := 0x180090
/-- `PROBE_ZSTEP` (R337). -/
def PROBE_ZSTEP : Nat := 0x180098
/-- `PROBE_ZMAX` (R337). -/
def PROBE_ZMAX : Nat := 0x1800A0
/-- `PROBE_CLASH` (R337). -/
def PROBE_CLASH : Nat := 0x1800A8
/-- `PROBE_F_LO` (R337). -/
def PROBE_F_LO : Nat := 0x1800B0
/-- `PROBE_F_HI` (R337). -/
def PROBE_F_HI : Nat := 0x1800B8
/-- `PROBE_V_LO` (R337). -/
def PROBE_V_LO : Nat := 0x1800C0
/-- `PROBE_V_HI` (R337). -/
def PROBE_V_HI : Nat := 0x1800C8
/-- `PROBE_ROCOF` (R337). -/
def PROBE_ROCOF : Nat := 0x1800D0
/-- `PROBE_Z1_RE` (R337). -/
def PROBE_Z1_RE : Nat := 0x180100
/-- `PROBE_Z1_RE_S` (R337). -/
def PROBE_Z1_RE_S : Nat := 0x180180
/-- `PROBE_Z1_IM` (R337). -/
def PROBE_Z1_IM : Nat := 0x180108
/-- `PROBE_Z1_IM_S` (R337). -/
def PROBE_Z1_IM_S : Nat := 0x180188
/-- `PROBE_Z2_RE` (R337). -/
def PROBE_Z2_RE : Nat := 0x180110
/-- `PROBE_Z2_RE_S` (R337). -/
def PROBE_Z2_RE_S : Nat := 0x180190
/-- `PROBE_Z2_IM` (R337). -/
def PROBE_Z2_IM : Nat := 0x180118
/-- `PROBE_Z2_IM_S` (R337). -/
def PROBE_Z2_IM_S : Nat := 0x180198
/-- `PROBE_R` (R337). -/
def PROBE_R : Nat := 0x180120
/-- `PROBE_R_S` (R337). -/
def PROBE_R_S : Nat := 0x1801A0
/-- `PROBE_X` (R337). -/
def PROBE_X : Nat := 0x180128
/-- `PROBE_X_S` (R337). -/
def PROBE_X_S : Nat := 0x1801A8
/-- `PROBE_ZMAG` (R337). -/
def PROBE_ZMAG : Nat := 0x180130
/-- `PROBE_ZMAG_S` (R337). -/
def PROBE_ZMAG_S : Nat := 0x1801B0
/-- `PROBE_ZBASE` (R337). -/
def PROBE_ZBASE : Nat := 0x180138
/-- `PROBE_ZBASE_S` (R337). -/
def PROBE_ZBASE_S : Nat := 0x1801B8
/-- `PROBE_ICORR` (R337). -/
def PROBE_ICORR : Nat := 0x180140
/-- `PROBE_ICORR_S` (R337). -/
def PROBE_ICORR_S : Nat := 0x1801C0
/-- `PROBE_BASE` (R326), x: Z1 real, Z1 imaginary, Z2 real, Z2 imaginary. -/
def PROBE_BASE (n x : Nat) : Nat := 0x190000 + n * 0x20 + x * 0x8
/-- `METER_CTL` (R358). -/
def METER_CTL : Nat := 0x1A0000
/-- `METER_PT_CFG` (R358). -/
def METER_PT_CFG (i : Nat) : Nat := 0x1A1000 + i * 0x800
/-- `METER_PT_STAT` (R358). -/
def METER_PT_STAT (i : Nat) : Nat := 0x1A1004 + i * 0x800
/-- `METER_PT_EVENT` (R358). -/
def METER_PT_EVENT (i : Nat) : Nat := 0x1A1008 + i * 0x800
/-- `METER_PT_IEN` (R358). -/
def METER_PT_IEN (i : Nat) : Nat := 0x1A100C + i * 0x800
/-- `METER_PT_SNAP` (R358). -/
def METER_PT_SNAP (i : Nat) : Nat := 0x1A1010 + i * 0x800
/-- `METER_PT_GAP_CNT` (R358). -/
def METER_PT_GAP_CNT (i : Nat) : Nat := 0x1A1014 + i * 0x800
/-- `METER_PT_WRAP` (R358). -/
def METER_PT_WRAP (i : Nat) : Nat := 0x1A1018 + i * 0x800
/-- `METER_PT_ACC` (R358). -/
def METER_PT_ACC (i k : Nat) : Nat := 0x1A1020 + i * 0x800 + k * 0x8
/-- `METER_PT_NOLOAD` (R358). -/
def METER_PT_NOLOAD (i : Nat) : Nat := 0x1A1060 + i * 0x800
/-- `METER_PT_NEUT_TH` (R358). -/
def METER_PT_NEUT_TH (i : Nat) : Nat := 0x1A1068 + i * 0x800
/-- `METER_PT_BAL_TH` (R358). -/
def METER_PT_BAL_TH (i : Nat) : Nat := 0x1A1070 + i * 0x800
/-- `METER_PT_SEQ_VMIN` (R358). -/
def METER_PT_SEQ_VMIN (i : Nat) : Nat := 0x1A1078 + i * 0x800
/-- `METER_PT_VRMS` (R358), _VRMS. -/
def METER_PT_VRMS (i x : Nat) : Nat := 0x1A1100 + i * 0x800 + x * 0x8
/-- `METER_PT_IRMS` (R358), _IRMS. -/
def METER_PT_IRMS (i x : Nat) : Nat := 0x1A1118 + i * 0x800 + x * 0x8
/-- `METER_PT_P` (R358), _P. -/
def METER_PT_P (i x : Nat) : Nat := 0x1A1130 + i * 0x800 + x * 0x8
/-- `METER_PT_Q` (R358), _Q. -/
def METER_PT_Q (i x : Nat) : Nat := 0x1A1150 + i * 0x800 + x * 0x8
/-- `METER_PT_SA` (R358), _S. -/
def METER_PT_SA (i x : Nat) : Nat := 0x1A1170 + i * 0x800 + x * 0x8
/-- `METER_PT_PF` (R358), _PF. -/
def METER_PT_PF (i x : Nat) : Nat := 0x1A1190 + i * 0x800 + x * 0x8
/-- `METER_PT_FREQ` (R358). -/
def METER_PT_FREQ (i : Nat) : Nat := 0x1A11B0 + i * 0x800
/-- `METER_PT_V0` (R358). -/
def METER_PT_V0 (i : Nat) : Nat := 0x1A11B8 + i * 0x800
/-- `METER_PT_ANG_V` (R358). -/
def METER_PT_ANG_V (i x : Nat) : Nat := 0x1A11C0 + i * 0x800 + x * 0x4
/-- `METER_PT_ANG_VI` (R358). -/
def METER_PT_ANG_VI (i x : Nat) : Nat := 0x1A11C8 + i * 0x800 + x * 0x4
/-- `METER_PT_WIN_TS` (R358). -/
def METER_PT_WIN_TS (i : Nat) : Nat := 0x1A11D8 + i * 0x800
/-- `METER_PT_WIN_CNT` (R358). -/
def METER_PT_WIN_CNT (i : Nat) : Nat := 0x1A11E0 + i * 0x800
/-- `METER_PT_VRMS_S` (R358), _VRMS. -/
def METER_PT_VRMS_S (i x : Nat) : Nat := 0x1A1300 + i * 0x800 + x * 0x8
/-- `METER_PT_IRMS_S` (R358), _IRMS. -/
def METER_PT_IRMS_S (i x : Nat) : Nat := 0x1A1318 + i * 0x800 + x * 0x8
/-- `METER_PT_P_S` (R358), _P. -/
def METER_PT_P_S (i x : Nat) : Nat := 0x1A1330 + i * 0x800 + x * 0x8
/-- `METER_PT_Q_S` (R358), _Q. -/
def METER_PT_Q_S (i x : Nat) : Nat := 0x1A1350 + i * 0x800 + x * 0x8
/-- `METER_PT_SA_S` (R358), _S. -/
def METER_PT_SA_S (i x : Nat) : Nat := 0x1A1370 + i * 0x800 + x * 0x8
/-- `METER_PT_PF_S` (R358), _PF. -/
def METER_PT_PF_S (i x : Nat) : Nat := 0x1A1390 + i * 0x800 + x * 0x8
/-- `METER_PT_FREQ_S` (R358). -/
def METER_PT_FREQ_S (i : Nat) : Nat := 0x1A13B0 + i * 0x800
/-- `METER_PT_V0_S` (R358). -/
def METER_PT_V0_S (i : Nat) : Nat := 0x1A13B8 + i * 0x800
/-- `METER_PT_ANG_V_S` (R358). -/
def METER_PT_ANG_V_S (i x : Nat) : Nat := 0x1A13C0 + i * 0x800 + x * 0x4
/-- `METER_PT_ANG_VI_S` (R358). -/
def METER_PT_ANG_VI_S (i x : Nat) : Nat := 0x1A13C8 + i * 0x800 + x * 0x4
/-- `METER_PT_WIN_TS_S` (R358). -/
def METER_PT_WIN_TS_S (i : Nat) : Nat := 0x1A13D8 + i * 0x800
/-- `METER_PT_WIN_CNT_S` (R358). -/
def METER_PT_WIN_CNT_S (i : Nat) : Nat := 0x1A13E0 + i * 0x800
/-- `METER_PT_WRAP_S` (R358). -/
def METER_PT_WRAP_S (i : Nat) : Nat := 0x1A1418 + i * 0x800
/-- `METER_PT_ACC_S` (R358). -/
def METER_PT_ACC_S (i k : Nat) : Nat := 0x1A1420 + i * 0x800 + k * 0x8
/-- `COMPAT_ID` (R356), SKM-6100 image. -/
def COMPAT_ID : Nat := 0x1A8000
/-- `COMPAT_STATUS` (R356), SKM-6100 image. -/
def COMPAT_STATUS : Nat := 0x1A8004
/-- `COMPAT` (R356), SKM-6100 image, words from offset 0x008. -/
def COMPAT (w : Nat) : Nat := 0x1A8008 + w * 0x4
/-- `CHNT_CTL` (R369). -/
def CHNT_CTL : Nat := 0x1C0000
/-- `CHNT_STAT` (R375). -/
def CHNT_STAT : Nat := 0x1C0004
/-- `CHNT_EVENT` (R375). -/
def CHNT_EVENT : Nat := 0x1C0008
/-- `CHNT_IEN` (R375). -/
def CHNT_IEN : Nat := 0x1C000C
/-- `CHNT_LS_INFO` (R363). -/
def CHNT_LS_INFO : Nat := 0x1C0010
/-- `CHNT_LS_TS` (R363). -/
def CHNT_LS_TS : Nat := 0x1C0018
/-- `CHNT_ST_STAT` (R364). -/
def CHNT_ST_STAT : Nat := 0x1C0020
/-- `CHNT_AGREE_REQ` (R365). -/
def CHNT_AGREE_REQ : Nat := 0x1C0040
/-- `CHNT_AGREE_VAL` (R365). -/
def CHNT_AGREE_VAL (g : Nat) : Nat := 0x1C0044 + g * 0x4
/-- `CHNT_PIN_RAW` (R366). -/
def CHNT_PIN_RAW : Nat := 0x1C0050
/-- `CHNT_SWEEP_CTL` (R367). -/
def CHNT_SWEEP_CTL : Nat := 0x1C0060
/-- `CHNT_SWEEP_DATA` (R367). -/
def CHNT_SWEEP_DATA : Nat := 0x1C0064
/-- `CHNT_SWEEP_CFG` (R368). -/
def CHNT_SWEEP_CFG : Nat := 0x1C0068
/-- `CHNT_SWEEP_STAT` (R367). -/
def CHNT_SWEEP_STAT : Nat := 0x1C006C
/-- `CHNT_WD_KICK` (R371). -/
def CHNT_WD_KICK : Nat := 0x1C0070
/-- `CHNT_ECC_CNT` (R360). -/
def CHNT_ECC_CNT : Nat := 0x1C0080
/-- `CHNT_ECC_ADDR` (R360). -/
def CHNT_ECC_ADDR : Nat := 0x1C0084
/-- `CHNT_MTIMECMP` (R359). -/
def CHNT_MTIMECMP : Nat := 0x1C0090
/-- `CHNT_ENTRY` (R369). -/
def CHNT_ENTRY : Nat := 0x1C0098
/-- `CHNT_IRQ_CLAIM` (R373). -/
def CHNT_IRQ_CLAIM : Nat := 0x1C0100
/-- `CHNT_IRQ_THRESH` (R372). -/
def CHNT_IRQ_THRESH : Nat := 0x1C0104
/-- `CHNT_IRQ_DONE` (R373). -/
def CHNT_IRQ_DONE : Nat := 0x1C0108
/-- `CHNT_IRQ_CFG` (R372). -/
def CHNT_IRQ_CFG (i : Nat) : Nat := 0x1C1000 + i * 0x4
/-- `CHNT_IRQ_CNT` (R372). -/
def CHNT_IRQ_CNT (i : Nat) : Nat := 0x1C1400 + i * 0x4
/-- `DRONE_STAT` (R395). -/
def DRONE_STAT : Nat := 0x1D0000
/-- `DRONE_SRC` (R395). -/
def DRONE_SRC : Nat := 0x1D0004
/-- `DRONE_DEM_SRC` (R395). -/
def DRONE_DEM_SRC : Nat := 0x1D0030
/-- `DRONE_OUT` (R395). -/
def DRONE_OUT : Nat := 0x1D0008
/-- `DRONE_IN` (R395). -/
def DRONE_IN : Nat := 0x1D000C
/-- `DRONE_FAULT` (R395). -/
def DRONE_FAULT : Nat := 0x1D0010
/-- `DRONE_TP` (R395). -/
def DRONE_TP : Nat := 0x1D0014
/-- `DRONE_ROUND_CNT` (R395). -/
def DRONE_ROUND_CNT : Nat := 0x1D0018
/-- `DRONE_INC_CNT` (R395). -/
def DRONE_INC_CNT : Nat := 0x1D001C
/-- `DRONE_DEM_CNT` (R395). -/
def DRONE_DEM_CNT : Nat := 0x1D0020
/-- `DRONE_DEM_TS` (R378). -/
def DRONE_DEM_TS : Nat := 0x1D0028
/-- `DRONE_WD` (R395). -/
def DRONE_WD : Nat := 0x1D0034
/-- `DRONE_PARAM` (R395). -/
def DRONE_PARAM (i : Nat) : Nat := 0x1D0100 + i * 0x4
/-- `SYS_DRONE_RST` (R390). -/
def SYS_DRONE_RST : Nat := 0x60
/-- `SYS_DRONE_EVENT` (R396). -/
def SYS_DRONE_EVENT : Nat := 0x64
/-- `SYS_DRONE_IEN` (R396). -/
def SYS_DRONE_IEN : Nat := 0x68
/-- `SYS_SOL` (R379). -/
def SYS_SOL : Nat := 0x6C
/-- `SYS_DRONE_RSTAT` (R390). -/
def SYS_DRONE_RSTAT : Nat := 0x70
/-- `PAIR_CMD` (R410). -/
def PAIR_CMD : Nat := 0x1E0000
/-- `PAIR_STAT` (R410). -/
def PAIR_STAT : Nat := 0x1E0004
/-- `PAIR_CFG` (R410). -/
def PAIR_CFG : Nat := 0x1E0008
/-- `PAIR_EVENT` (R410). -/
def PAIR_EVENT : Nat := 0x1E000C
/-- `PAIR_IEN` (R410). -/
def PAIR_IEN : Nat := 0x1E0010
/-- `PAIR_HB_CNT` (R410). -/
def PAIR_HB_CNT : Nat := 0x1E0014
/-- `PAIR_AUTH_CNT` (R410). -/
def PAIR_AUTH_CNT : Nat := 0x1E0018
/-- `PAIR_MIR_LOAD` (R410). -/
def PAIR_MIR_LOAD : Nat := 0x1E001C
/-- `PAIR_TAKE_TS` (R410). -/
def PAIR_TAKE_TS : Nat := 0x1E0020
/-- `CAN_NT_CFG` (R434). -/
def CAN_NT_CFG : Nat := 0x20F000
/-- `CAN_NT_ID` (R434). -/
def CAN_NT_ID : Nat := 0x20F004
/-- `CAN_NT_PERIOD` (R434). -/
def CAN_NT_PERIOD : Nat := 0x20F008
/-- `CAN_NT_STAT` (R434). -/
def CAN_NT_STAT : Nat := 0x20F00C
/-- `CAN_NT_EVENT` (R434). -/
def CAN_NT_EVENT : Nat := 0x20F010
/-- `CAN_NT_IEN` (R434). -/
def CAN_NT_IEN : Nat := 0x20F014
/-- `CAN_NT_NOW` (R434). -/
def CAN_NT_NOW : Nat := 0x20F018
/-- `CAN_NT_SNAP` (R434). -/
def CAN_NT_SNAP : Nat := 0x20F020
/-- `CAN_NT_S` (R434). -/
def CAN_NT_S : Nat := 0x20F028
/-- `CAN_NT_DT_S` (R434). -/
def CAN_NT_DT_S : Nat := 0x20F030
/-- `CAN_NT_SET` (R434). -/
def CAN_NT_SET : Nat := 0x20F038
/-- `CAN_NT_OFS` (R434). -/
def CAN_NT_OFS : Nat := 0x20F040
/-- `CAN_NT_ADJ` (R434). -/
def CAN_NT_ADJ : Nat := 0x20F044
/-- `CAN_NT_COMP` (R434). -/
def CAN_NT_COMP : Nat := 0x20F048
/-- `CAN_NT_TOL` (R434). -/
def CAN_NT_TOL : Nat := 0x20F04C
/-- `CAN_CTL` (R432). -/
def CAN_CTL (k : Nat) : Nat := 0x200000 + k * 0x10000
/-- `CAN_STAT` (R432). -/
def CAN_STAT (k : Nat) : Nat := 0x200004 + k * 0x10000
/-- `CAN_EVENT` (R432). -/
def CAN_EVENT (k : Nat) : Nat := 0x200008 + k * 0x10000
/-- `CAN_IEN` (R432). -/
def CAN_IEN (k : Nat) : Nat := 0x20000C + k * 0x10000
/-- `CAN_NBT` (R432). -/
def CAN_NBT (k : Nat) : Nat := 0x200010 + k * 0x10000
/-- `CAN_DBT` (R432). -/
def CAN_DBT (k : Nat) : Nat := 0x200014 + k * 0x10000
/-- `CAN_TDC` (R432). -/
def CAN_TDC (k : Nat) : Nat := 0x200018 + k * 0x10000
/-- `CAN_ERR` (R432). -/
def CAN_ERR (k : Nat) : Nat := 0x20001C + k * 0x10000
/-- `CAN_WAKE_ID` (R432). -/
def CAN_WAKE_ID (k : Nat) : Nat := 0x200020 + k * 0x10000
/-- `CAN_WAKE_MASK` (R432). -/
def CAN_WAKE_MASK (k : Nat) : Nat := 0x200024 + k * 0x10000
/-- `CAN_WAKE_CFG` (R432). -/
def CAN_WAKE_CFG (k : Nat) : Nat := 0x200028 + k * 0x10000
/-- `CAN_WAKE_DATA` (R432). -/
def CAN_WAKE_DATA (k : Nat) : Nat := 0x200030 + k * 0x10000
/-- `CAN_WAKE_DMASK` (R432). -/
def CAN_WAKE_DMASK (k : Nat) : Nat := 0x200038 + k * 0x10000
/-- `CAN_TXRQ_LO` (R432). -/
def CAN_TXRQ_LO (k : Nat) : Nat := 0x200040 + k * 0x10000
/-- `CAN_TXRQ_HI` (R432). -/
def CAN_TXRQ_HI (k : Nat) : Nat := 0x200044 + k * 0x10000
/-- `CAN_CANCEL_LO` (R432). -/
def CAN_CANCEL_LO (k : Nat) : Nat := 0x200048 + k * 0x10000
/-- `CAN_CANCEL_HI` (R432). -/
def CAN_CANCEL_HI (k : Nat) : Nat := 0x20004C + k * 0x10000
/-- `CAN_RXF_ID` (R432). -/
def CAN_RXF_ID (k : Nat) : Nat := 0x200060 + k * 0x10000
/-- `CAN_RXF_MASK` (R432). -/
def CAN_RXF_MASK (k : Nat) : Nat := 0x200064 + k * 0x10000
/-- `CAN_RXF_CTL` (R432). -/
def CAN_RXF_CTL (k : Nat) : Nat := 0x200068 + k * 0x10000
/-- `CAN_RXF_POP` (R432). -/
def CAN_RXF_POP (k : Nat) : Nat := 0x20006C + k * 0x10000
/-- `CAN_RXF_OVR` (R432). -/
def CAN_RXF_OVR (k : Nat) : Nat := 0x200070 + k * 0x10000
/-- `CAN_RX_DROP` (R432). -/
def CAN_RX_DROP (k : Nat) : Nat := 0x200074 + k * 0x10000
/-- `CAN_DATA_BITERR` (R432). -/
def CAN_DATA_BITERR (k : Nat) : Nat := 0x200078 + k * 0x10000
/-- `CAN_WAKE_MISS` (R432). -/
def CAN_WAKE_MISS (k : Nat) : Nat := 0x20007C + k * 0x10000
/-- `CAN_MB_CFG` (R433). -/
def CAN_MB_CFG (k b : Nat) : Nat := 0x201000 + k * 0x10000 + b * 0x80
/-- `CAN_MB_ID` (R433). -/
def CAN_MB_ID (k b : Nat) : Nat := 0x201004 + k * 0x10000 + b * 0x80
/-- `CAN_MB_TS` (R433). -/
def CAN_MB_TS (k b : Nat) : Nat := 0x201008 + k * 0x10000 + b * 0x80
/-- `CAN_MB_MASK` (R433). -/
def CAN_MB_MASK (k b : Nat) : Nat := 0x201010 + k * 0x10000 + b * 0x80
/-- `CAN_MB_DATA` (R433). -/
def CAN_MB_DATA (k b w : Nat) : Nat := 0x201040 + k * 0x10000 + b * 0x80 + w * 0x4
/-- `CAN_HEAD_CFG` (R433). -/
def CAN_HEAD_CFG (k : Nat) : Nat := 0x204000 + k * 0x10000
/-- `CAN_HEAD_ID` (R433). -/
def CAN_HEAD_ID (k : Nat) : Nat := 0x204004 + k * 0x10000
/-- `CAN_HEAD_TS` (R433). -/
def CAN_HEAD_TS (k : Nat) : Nat := 0x204008 + k * 0x10000
/-- `CAN_HEAD_MASK` (R433). -/
def CAN_HEAD_MASK (k : Nat) : Nat := 0x204010 + k * 0x10000
/-- `CAN_HEAD_DATA` (R433). -/
def CAN_HEAD_DATA (k w : Nat) : Nat := 0x204040 + k * 0x10000 + w * 0x4
/-- `HOST_WIN_BASE` (R455). -/
def HOST_WIN_BASE : Nat := 0x240018
/-- `HOST_DB_H2F` (R455). -/
def HOST_DB_H2F : Nat := 0x240100
/-- `HOST_DB_F2H` (R455). -/
def HOST_DB_F2H : Nat := 0x240104
/-- `HOST_IRQ_ROUTE` (R455). -/
def HOST_IRQ_ROUTE (src : Nat) : Nat := 0x241000 + src * 0x4
/-- `HOST_VEC_ACK` (R455). -/
def HOST_VEC_ACK (v : Nat) : Nat := 0x241400 + v * 0x4
/-- `HOST_MSIX_ADDR` (R455), MSI-X table, message address (layout of the PCI Express specification). -/
def HOST_MSIX_ADDR (v : Nat) : Nat := 0x242000 + v * 0x10
/-- `HOST_MSIX_DATA` (R455), MSI-X table, message data. -/
def HOST_MSIX_DATA (v : Nat) : Nat := 0x242008 + v * 0x10
/-- `HOST_MSIX_CTRL` (R455), MSI-X table, vector control; mask resets to 1 (PRESUMED, the PCI Express specification). -/
def HOST_MSIX_CTRL (v : Nat) : Nat := 0x24200C + v * 0x10
/-- `HOST_MSIX_PBA` (R455), MSI-X pending-bit array. -/
def HOST_MSIX_PBA : Nat := 0x243000
/-- `HOST_MB_H2F` (R443). -/
def HOST_MB_H2F (i : Nat) : Nat := 0x244000 + i * 0x4
/-- `HOST_MB_F2H` (R443). -/
def HOST_MB_F2H (i : Nat) : Nat := 0x245000 + i * 0x4
/-- `MEMC_CFG` (R456). -/
def MEMC_CFG : Nat := 0x2A0000
/-- `MEMC_STAT` (R456). -/
def MEMC_STAT : Nat := 0x2A0004
/-- `QSPI_CFG` (R456). -/
def QSPI_CFG : Nat := 0x2B0000
/-- `QSPI_CMD` (R456). -/
def QSPI_CMD : Nat := 0x2B0004
/-- `QSPI_ADDR` (R456). -/
def QSPI_ADDR : Nat := 0x2B0008
/-- `QSPI_STAT` (R456). -/
def QSPI_STAT : Nat := 0x2B000C
/-- `QSPI_BUF` (R456). -/
def QSPI_BUF (i : Nat) : Nat := 0x2B4000 + i * 0x4
/-- `REC_CTL` (R457). -/
def REC_CTL : Nat := 0x280000
/-- `REC_STAT` (R457). -/
def REC_STAT : Nat := 0x280004
/-- `REC_TRIG` (R457). -/
def REC_TRIG : Nat := 0x280008
/-- `REC_TRIG_MASK` (R457). -/
def REC_TRIG_MASK : Nat := 0x28000C
/-- `REC_POST` (R457). -/
def REC_POST : Nat := 0x280010
/-- `REC_EVENT` (R457). -/
def REC_EVENT : Nat := 0x280014
/-- `REC_IEN` (R457). -/
def REC_IEN : Nat := 0x280018
/-- `REC_DROP_CNT` (R457). -/
def REC_DROP_CNT : Nat := 0x28001C
/-- `REC_TRIG_LOST` (R457). -/
def REC_TRIG_LOST : Nat := 0x280020
/-- `REC_TRIG_CNT` (R457). -/
def REC_TRIG_CNT : Nat := 0x280024
/-- `REC_REG_BASE` (R457). -/
def REC_REG_BASE (r : Nat) : Nat := 0x280100 + r * 0x20
/-- `REC_REG_SIZE` (R457). -/
def REC_REG_SIZE (r : Nat) : Nat := 0x280108 + r * 0x20
/-- `REC_REG_TRIG_PTR` (R457). -/
def REC_REG_TRIG_PTR (r : Nat) : Nat := 0x280110 + r * 0x20
/-- `REC_REG_STAT` (R457). -/
def REC_REG_STAT (r : Nat) : Nat := 0x280118 + r * 0x20
/-- `REC_RD_ADDR` (R457). -/
def REC_RD_ADDR : Nat := 0x280400
/-- `REC_RD_DATA` (R457). -/
def REC_RD_DATA : Nat := 0x280408
/-- `REC_SLOT_CFG` (R457). -/
def REC_SLOT_CFG (s : Nat) : Nat := 0x281000 + s * 0x4
/-- `BOOT_STAT` (R475). -/
def BOOT_STAT : Nat := 0x2C0000
/-- `BOOT_EVENT` (R475). -/
def BOOT_EVENT : Nat := 0x2C0004
/-- `BOOT_IEN` (R475). -/
def BOOT_IEN : Nat := 0x2C0008
/-- `BOOT_FW_ROLLBACK` (R475). -/
def BOOT_FW_ROLLBACK : Nat := 0x2C0010
/-- `BOOT_SET_STAT` (R475). -/
def BOOT_SET_STAT : Nat := 0x2C0018
/-- `BOOT_SET_FMT` (R475). -/
def BOOT_SET_FMT : Nat := 0x2C001C
/-- `BOOT_UPD_CMD` (R475). -/
def BOOT_UPD_CMD : Nat := 0x2C0020
/-- `BOOT_UPD_TOTAL` (R475). -/
def BOOT_UPD_TOTAL : Nat := 0x2C0024
/-- `BOOT_UPD_OFS` (R475). -/
def BOOT_UPD_OFS : Nat := 0x2C0028
/-- `BOOT_UPD_LEN` (R475). -/
def BOOT_UPD_LEN : Nat := 0x2C002C
/-- `BOOT_UPD_CRC` (R475). -/
def BOOT_UPD_CRC : Nat := 0x2C0030
/-- `BOOT_UPD_STAT` (R475). -/
def BOOT_UPD_STAT : Nat := 0x2C0034
/-- `BOOT_CONFIRM` (R475). -/
def BOOT_CONFIRM : Nat := 0x2C0040
/-- `BOOT_OTP_FW_CNT` (R475). -/
def BOOT_OTP_FW_CNT : Nat := 0x2C0048
/-- `BOOT_OTP_FG_CNT` (R475). -/
def BOOT_OTP_FG_CNT : Nat := 0x2C0050
/-- `BOOT_OTP_LEFT` (R475). -/
def BOOT_OTP_LEFT : Nat := 0x2C0058
/-- `BOOT_FW_HASH` (R475). -/
def BOOT_FW_HASH (i : Nat) : Nat := 0x2C0100 + i * 0x4
/-- `BOOT_UPD_BUF` (R475). -/
def BOOT_UPD_BUF (i : Nat) : Nat := 0x2C1000 + i * 0x4
/-- `SEC_STAT` (R476). -/
def SEC_STAT : Nat := 0x300000
/-- `SEC_EVENT` (R476). -/
def SEC_EVENT : Nat := 0x300004
/-- `SEC_IEN` (R476). -/
def SEC_IEN : Nat := 0x300008
/-- `SEC_SLOT` (R476). -/
def SEC_SLOT (i : Nat) : Nat := 0x300010 + i * 0x4
/-- `SEC_OTP_CMD` (R476). -/
def SEC_OTP_CMD : Nat := 0x300020
/-- `SEC_ATT_CMD` (R476). -/
def SEC_ATT_CMD : Nat := 0x300030
/-- `SEC_ID_CERT_LEN` (R476), from OTP. -/
def SEC_ID_CERT_LEN : Nat := 0x300034
/-- `SEC_RNG` (R476). -/
def SEC_RNG : Nat := 0x300038
/-- `SEC_SEAL_CMD` (R476). -/
def SEC_SEAL_CMD : Nat := 0x30003C
/-- `SEC_SEAL_ADDR` (R476). -/
def SEC_SEAL_ADDR : Nat := 0x300040
/-- `SEC_SEAL_LEN` (R476). -/
def SEC_SEAL_LEN : Nat := 0x300044
/-- `SEC_KEYHASH` (R476). -/
def SEC_KEYHASH (i : Nat) : Nat := 0x300100 + i * 0x4
/-- `SEC_PAIR_KEY` (R476). -/
def SEC_PAIR_KEY (i : Nat) : Nat := 0x300200 + i * 0x4
/-- `SEC_ATT_NONCE` (R476). -/
def SEC_ATT_NONCE (i : Nat) : Nat := 0x300300 + i * 0x4
/-- `SEC_ATT_BUF` (R476). -/
def SEC_ATT_BUF (i : Nat) : Nat := 0x300400 + i * 0x4
/-- `SEC_ID_PUB` (R476), from OTP. -/
def SEC_ID_PUB (i : Nat) : Nat := 0x300600 + i * 0x4
/-- `SEC_ID_CERT` (R476), from OTP. -/
def SEC_ID_CERT (i : Nat) : Nat := 0x300800 + i * 0x4

end R

namespace F

/-- `SYS_SEAM_STAT.credits_c1`, RO. -/
def SYS_SEAM_STAT_credits_c1 (d : Nat) : Fld := ⟨R.SYS_SEAM_STAT d, 15, 8⟩
/-- `SYS_SEAM_STAT.cnt_sat`, RO. -/
def SYS_SEAM_STAT_cnt_sat (d : Nat) : Fld := ⟨R.SYS_SEAM_STAT d, 3, 3⟩
/-- `SYS_SEAM_STAT.crc_err`, W1C. -/
def SYS_SEAM_STAT_crc_err (d : Nat) : Fld := ⟨R.SYS_SEAM_STAT d, 2, 2⟩
/-- `SYS_SEAM_STAT.lost`, W1C. -/
def SYS_SEAM_STAT_lost (d : Nat) : Fld := ⟨R.SYS_SEAM_STAT d, 1, 1⟩
/-- `SYS_SEAM_STAT.up`, RO. -/
def SYS_SEAM_STAT_up (d : Nat) : Fld := ⟨R.SYS_SEAM_STAT d, 0, 0⟩
/-- `SYS_PWR_STAT.result`, RO. -/
def SYS_PWR_STAT_result : Fld := ⟨R.SYS_PWR_STAT, 11, 8⟩
/-- `SYS_PWR_STAT.done`, W1C. -/
def SYS_PWR_STAT_done : Fld := ⟨R.SYS_PWR_STAT, 7, 7⟩
/-- `SYS_PWR_STAT.busy`, RO. -/
def SYS_PWR_STAT_busy : Fld := ⟨R.SYS_PWR_STAT, 2, 2⟩
/-- `SYS_PWR_STAT.state`, RO. -/
def SYS_PWR_STAT_state : Fld := ⟨R.SYS_PWR_STAT, 1, 0⟩
/-- `SYS_ISLAND_STAT.result`, RO. -/
def SYS_ISLAND_STAT_result : Fld := ⟨R.SYS_ISLAND_STAT, 4, 1⟩
/-- `SYS_ISLAND_STAT.busy`, RO. -/
def SYS_ISLAND_STAT_busy : Fld := ⟨R.SYS_ISLAND_STAT, 0, 0⟩
/-- `HARV_STAT.dump_cause`, RO. -/
def HARV_STAT_dump_cause : Fld := ⟨R.HARV_STAT, 9, 8⟩
/-- `HARV_STAT.dump_incomplete`, W1C. -/
def HARV_STAT_dump_incomplete : Fld := ⟨R.HARV_STAT, 7, 7⟩
/-- `HARV_STAT.ret_valid`, W1C. -/
def HARV_STAT_ret_valid : Fld := ⟨R.HARV_STAT, 6, 6⟩
/-- `HARV_STAT.hold_seen`, W1C. -/
def HARV_STAT_hold_seen : Fld := ⟨R.HARV_STAT, 5, 5⟩
/-- `HARV_STAT.vb_full`, RO. -/
def HARV_STAT_vb_full : Fld := ⟨R.HARV_STAT, 4, 4⟩
/-- `HARV_STAT.vq_full`, RO. -/
def HARV_STAT_vq_full : Fld := ⟨R.HARV_STAT, 3, 3⟩
/-- `HARV_STAT.harv_active`, RO. -/
def HARV_STAT_harv_active : Fld := ⟨R.HARV_STAT, 2, 2⟩
/-- `HARV_STAT.src_vb`, RO. -/
def HARV_STAT_src_vb : Fld := ⟨R.HARV_STAT, 1, 1⟩
/-- `HARV_STAT.pgood`, RO. -/
def HARV_STAT_pgood : Fld := ⟨R.HARV_STAT, 0, 0⟩
/-- `HARV_V0.vb_mv`, RO. -/
def HARV_V0_vb_mv : Fld := ⟨R.HARV_V0, 31, 16⟩
/-- `HARV_V2.voc_mv`, RO. -/
def HARV_V2_voc_mv : Fld := ⟨R.HARV_V2, 31, 16⟩
/-- `HARV_CFG.chg_en`, RW. -/
def HARV_CFG_chg_en : Fld := ⟨R.HARV_CFG, 8, 8⟩
/-- `HARV_CFG.vb_target_mv`, RW. -/
def HARV_CFG_vb_target_mv : Fld := ⟨R.HARV_CFG, 31, 16⟩
/-- `HARV_CFG.voc_period`, RW. -/
def HARV_CFG_voc_period : Fld := ⟨R.HARV_CFG, 15, 10⟩
/-- `HARV_CFG.k_code`, RW. -/
def HARV_CFG_k_code : Fld := ⟨R.HARV_CFG, 4, 0⟩
/-- `HARV_REG_CFG.vddq_sel`, RW. -/
def HARV_REG_CFG_vddq_sel : Fld := ⟨R.HARV_REG_CFG, 0, 0⟩
/-- `HARV_STORE_CFG.abort_mv`, RW. -/
def HARV_STORE_CFG_abort_mv : Fld := ⟨R.HARV_STORE_CFG, 31, 16⟩
/-- `HARV_STORE_CFG.cap_mf`, RW. -/
def HARV_STORE_CFG_cap_mf : Fld := ⟨R.HARV_STORE_CFG, 15, 1⟩
/-- `HARV_STORE_CFG.mode`, RW. -/
def HARV_STORE_CFG_mode : Fld := ⟨R.HARV_STORE_CFG, 0, 0⟩
/-- `HARV_AUX_CMD.dur_ms`, RW. -/
def HARV_AUX_CMD_dur_ms : Fld := ⟨R.HARV_AUX_CMD, 8, 0⟩
/-- `HARV_BURST_STAT.last_code`, RO. -/
def HARV_BURST_STAT_last_code : Fld := ⟨R.HARV_BURST_STAT, 11, 8⟩
/-- `HARV_BURST_STAT.type`, RO. -/
def HARV_BURST_STAT_type : Fld := ⟨R.HARV_BURST_STAT, 5, 4⟩
/-- `HARV_BURST_STAT.busy`, RO. -/
def HARV_BURST_STAT_busy : Fld := ⟨R.HARV_BURST_STAT, 0, 0⟩
/-- `HARV_EVENT.dump_done`, W1C. -/
def HARV_EVENT_dump_done : Fld := ⟨R.HARV_EVENT, 6, 6⟩
/-- `HARV_EVENT.vsup_warn`, W1C. -/
def HARV_EVENT_vsup_warn : Fld := ⟨R.HARV_EVENT, 5, 5⟩
/-- `HARV_EVENT.burst_abort`, W1C. -/
def HARV_EVENT_burst_abort : Fld := ⟨R.HARV_EVENT, 4, 4⟩
/-- `HARV_EVENT.burst_refused`, W1C. -/
def HARV_EVENT_burst_refused : Fld := ⟨R.HARV_EVENT, 3, 3⟩
/-- `HARV_EVENT.pgood_fall`, W1C. -/
def HARV_EVENT_pgood_fall : Fld := ⟨R.HARV_EVENT, 2, 2⟩
/-- `HARV_EVENT.pgood_rise`, W1C. -/
def HARV_EVENT_pgood_rise : Fld := ⟨R.HARV_EVENT, 1, 1⟩
/-- `HARV_EVENT.src_change`, W1C. -/
def HARV_EVENT_src_change : Fld := ⟨R.HARV_EVENT, 0, 0⟩
/-- `CLK_STAT.result`, RO. -/
def CLK_STAT_result : Fld := ⟨R.CLK_STAT, 11, 8⟩
/-- `CLK_STAT.sys_band`, RO. -/
def CLK_STAT_sys_band : Fld := ⟨R.CLK_STAT, 7, 4⟩
/-- `CLK_STAT.commit_pending`, RO. -/
def CLK_STAT_commit_pending : Fld := ⟨R.CLK_STAT, 3, 3⟩
/-- `CLK_STAT.ref_ok`, RO. -/
def CLK_STAT_ref_ok : Fld := ⟨R.CLK_STAT, 2, 2⟩
/-- `CLK_STAT.sys_coast`, RO. -/
def CLK_STAT_sys_coast : Fld := ⟨R.CLK_STAT, 1, 1⟩
/-- `CLK_STAT.sys_lock`, RO. -/
def CLK_STAT_sys_lock : Fld := ⟨R.CLK_STAT, 0, 0⟩
/-- `CLK_CFG.clkout_sel`, RW. -/
def CLK_CFG_clkout_sel : Fld := ⟨R.CLK_CFG, 9, 8⟩
/-- `CLK_EVENT.commit_done`, W1C. -/
def CLK_EVENT_commit_done : Fld := ⟨R.CLK_EVENT, 10, 10⟩
/-- `CLK_EVENT.time_wrap`, W1C. -/
def CLK_EVENT_time_wrap : Fld := ⟨R.CLK_EVENT, 9, 9⟩
/-- `CLK_EVENT.range_clip`, W1C. -/
def CLK_EVENT_range_clip : Fld := ⟨R.CLK_EVENT, 8, 8⟩
/-- `CLK_EVENT.slide_unlock`, W1C. -/
def CLK_EVENT_slide_unlock : Fld := ⟨R.CLK_EVENT, 7, 7⟩
/-- `CLK_EVENT.skew`, W1C. -/
def CLK_EVENT_skew : Fld := ⟨R.CLK_EVENT, 6, 6⟩
/-- `CLK_EVENT.bell_unlock`, W1C. -/
def CLK_EVENT_bell_unlock : Fld := ⟨R.CLK_EVENT, 5, 5⟩
/-- `CLK_EVENT.coast_limit`, W1C. -/
def CLK_EVENT_coast_limit : Fld := ⟨R.CLK_EVENT, 4, 4⟩
/-- `CLK_EVENT.sys_relock`, W1C. -/
def CLK_EVENT_sys_relock : Fld := ⟨R.CLK_EVENT, 3, 3⟩
/-- `CLK_EVENT.sys_unlock`, W1C. -/
def CLK_EVENT_sys_unlock : Fld := ⟨R.CLK_EVENT, 2, 2⟩
/-- `CLK_EVENT.ref_back`, W1C. -/
def CLK_EVENT_ref_back : Fld := ⟨R.CLK_EVENT, 1, 1⟩
/-- `CLK_EVENT.ref_lost`, W1C. -/
def CLK_EVENT_ref_lost : Fld := ⟨R.CLK_EVENT, 0, 0⟩
/-- `CLK_SYS_DIV.div_meter`, RW. -/
def CLK_SYS_DIV_div_meter : Fld := ⟨R.CLK_SYS_DIV, 3, 3⟩
/-- `CLK_SYS_DIV.div_grid`, RW. -/
def CLK_SYS_DIV_div_grid : Fld := ⟨R.CLK_SYS_DIV, 2, 2⟩
/-- `CLK_SYS_DIV.div_chnt`, RW. -/
def CLK_SYS_DIV_div_chnt : Fld := ⟨R.CLK_SYS_DIV, 1, 1⟩
/-- `CLK_SYS_DIV.div_bore`, RW. -/
def CLK_SYS_DIV_div_bore : Fld := ⟨R.CLK_SYS_DIV, 0, 0⟩
/-- `CLK_SYS_DIV_ACT.div_meter`, RO. -/
def CLK_SYS_DIV_ACT_div_meter : Fld := ⟨R.CLK_SYS_DIV_ACT, 3, 3⟩
/-- `CLK_SYS_DIV_ACT.div_grid`, RO. -/
def CLK_SYS_DIV_ACT_div_grid : Fld := ⟨R.CLK_SYS_DIV_ACT, 2, 2⟩
/-- `CLK_SYS_DIV_ACT.div_chnt`, RO. -/
def CLK_SYS_DIV_ACT_div_chnt : Fld := ⟨R.CLK_SYS_DIV_ACT, 1, 1⟩
/-- `CLK_SYS_DIV_ACT.div_bore`, RO. -/
def CLK_SYS_DIV_ACT_div_bore : Fld := ⟨R.CLK_SYS_DIV_ACT, 0, 0⟩
/-- `CLK_SYS_COMMIT.go`, W1S. -/
def CLK_SYS_COMMIT_go : Fld := ⟨R.CLK_SYS_COMMIT, 0, 0⟩
/-- `CLK_SLIDE_COMMIT.go`, W1S. -/
def CLK_SLIDE_COMMIT_go : Fld := ⟨R.CLK_SLIDE_COMMIT, 0, 0⟩
/-- `CLK_BELL_STAT.s_band`, RO. -/
def CLK_BELL_STAT_s_band : Fld := ⟨R.CLK_BELL_STAT, 22, 19⟩
/-- `CLK_BELL_STAT.s_coast`, RO. -/
def CLK_BELL_STAT_s_coast : Fld := ⟨R.CLK_BELL_STAT, 18, 18⟩
/-- `CLK_BELL_STAT.s_lock`, RO. -/
def CLK_BELL_STAT_s_lock : Fld := ⟨R.CLK_BELL_STAT, 17, 17⟩
/-- `CLK_BELL_STAT.s_valid`, RO. -/
def CLK_BELL_STAT_s_valid : Fld := ⟨R.CLK_BELL_STAT, 16, 16⟩
/-- `CLK_BELL_STAT.n_band`, RO. -/
def CLK_BELL_STAT_n_band : Fld := ⟨R.CLK_BELL_STAT, 6, 3⟩
/-- `CLK_BELL_STAT.n_coast`, RO. -/
def CLK_BELL_STAT_n_coast : Fld := ⟨R.CLK_BELL_STAT, 2, 2⟩
/-- `CLK_BELL_STAT.n_lock`, RO. -/
def CLK_BELL_STAT_n_lock : Fld := ⟨R.CLK_BELL_STAT, 1, 1⟩
/-- `CLK_BELL_STAT.n_valid`, RO. -/
def CLK_BELL_STAT_n_valid : Fld := ⟨R.CLK_BELL_STAT, 0, 0⟩
/-- `CLK_TIME_SNAP.wrap`, SNAP. -/
def CLK_TIME_SNAP_wrap : Fld := ⟨R.CLK_TIME_SNAP, 7, 0⟩
/-- `CLK_SKEW.south`, RO. -/
def CLK_SKEW_south : Fld := ⟨R.CLK_SKEW, 15, 8⟩
/-- `CLK_SKEW.north`, RO. -/
def CLK_SKEW_north : Fld := ⟨R.CLK_SKEW, 7, 0⟩
/-- `CLK_SLIDE_CFG.lock_tol`, RW. -/
def CLK_SLIDE_CFG_lock_tol : Fld := ⟨R.CLK_SLIDE_CFG, 31, 16⟩
/-- `CLK_SLIDE_CFG.kph`, RW. -/
def CLK_SLIDE_CFG_kph : Fld := ⟨R.CLK_SLIDE_CFG, 7, 4⟩
/-- `CLK_SLIDE_CFG.phase_lock`, RW. -/
def CLK_SLIDE_CFG_phase_lock : Fld := ⟨R.CLK_SLIDE_CFG, 3, 3⟩
/-- `CLK_SLIDE_CFG.src`, RW. -/
def CLK_SLIDE_CFG_src : Fld := ⟨R.CLK_SLIDE_CFG, 2, 1⟩
/-- `CLK_SLIDE_CFG.en`, RW. -/
def CLK_SLIDE_CFG_en : Fld := ⟨R.CLK_SLIDE_CFG, 0, 0⟩
/-- `CLK_SLIDE_STAT.result`, RO. -/
def CLK_SLIDE_STAT_result : Fld := ⟨R.CLK_SLIDE_STAT, 13, 10⟩
/-- `CLK_SLIDE_STAT.band`, RO. -/
def CLK_SLIDE_STAT_band : Fld := ⟨R.CLK_SLIDE_STAT, 9, 6⟩
/-- `CLK_SLIDE_STAT.hold`, RO. -/
def CLK_SLIDE_STAT_hold : Fld := ⟨R.CLK_SLIDE_STAT, 5, 5⟩
/-- `CLK_SLIDE_STAT.range_clip`, RO. -/
def CLK_SLIDE_STAT_range_clip : Fld := ⟨R.CLK_SLIDE_STAT, 4, 4⟩
/-- `CLK_SLIDE_STAT.grid_locked`, RO. -/
def CLK_SLIDE_STAT_grid_locked : Fld := ⟨R.CLK_SLIDE_STAT, 3, 3⟩
/-- `CLK_SLIDE_STAT.ramping`, RO. -/
def CLK_SLIDE_STAT_ramping : Fld := ⟨R.CLK_SLIDE_STAT, 2, 2⟩
/-- `CLK_SLIDE_STAT.coast`, RO. -/
def CLK_SLIDE_STAT_coast : Fld := ⟨R.CLK_SLIDE_STAT, 1, 1⟩
/-- `CLK_SLIDE_STAT.pll_lock`, RO. -/
def CLK_SLIDE_STAT_pll_lock : Fld := ⟨R.CLK_SLIDE_STAT, 0, 0⟩
/-- `CLK_SLIDE_SEG_RATE.mhz_s`, RW. -/
def CLK_SLIDE_SEG_RATE_mhz_s (i : Nat) : Fld := ⟨R.CLK_SLIDE_SEG_RATE i, 15, 0⟩
/-- `FING_STAT.result`, RO. -/
def FING_STAT_result : Fld := ⟨R.FING_STAT, 31, 24⟩
/-- `FING_STAT.loader`, RO. -/
def FING_STAT_loader : Fld := ⟨R.FING_STAT, 15, 12⟩
/-- `FING_STAT.force`, RO. -/
def FING_STAT_force : Fld := ⟨R.FING_STAT, 9, 8⟩
/-- `FING_STAT.busy`, RO. -/
def FING_STAT_busy : Fld := ⟨R.FING_STAT, 0, 0⟩
/-- `FING_REJECT.reason`, RO. -/
def FING_REJECT_reason : Fld := ⟨R.FING_REJECT, 31, 24⟩
/-- `FING_REJECT.index`, RO. -/
def FING_REJECT_index : Fld := ⟨R.FING_REJECT, 19, 0⟩
/-- `FING_EVENT.abandoned`, W1C. -/
def FING_EVENT_abandoned : Fld := ⟨R.FING_EVENT, 4, 4⟩
/-- `FING_EVENT.rwl_refused`, W1C. -/
def FING_EVENT_rwl_refused : Fld := ⟨R.FING_EVENT, 3, 3⟩
/-- `FING_EVENT.committed`, W1C. -/
def FING_EVENT_committed : Fld := ⟨R.FING_EVENT, 2, 2⟩
/-- `FING_EVENT.rejected`, W1C. -/
def FING_EVENT_rejected : Fld := ⟨R.FING_EVENT, 1, 1⟩
/-- `FING_EVENT.done`, W1C. -/
def FING_EVENT_done : Fld := ⟨R.FING_EVENT, 0, 0⟩
/-- `FING_SRC_CFG.src`, RW. -/
def FING_SRC_CFG_src : Fld := ⟨R.FING_SRC_CFG, 0, 0⟩
/-- `FING_FEAT.pair`, RO. -/
def FING_FEAT_pair : Fld := ⟨R.FING_FEAT, 23, 23⟩
/-- `FING_FEAT.whistle`, RO. -/
def FING_FEAT_whistle : Fld := ⟨R.FING_FEAT, 22, 22⟩
/-- `FING_FEAT.ride`, RO. -/
def FING_FEAT_ride : Fld := ⟨R.FING_FEAT, 21, 21⟩
/-- `FING_FEAT.form`, RO. -/
def FING_FEAT_form : Fld := ⟨R.FING_FEAT, 20, 20⟩
/-- `FING_FEAT.follow`, RO. -/
def FING_FEAT_follow : Fld := ⟨R.FING_FEAT, 19, 19⟩
/-- `FING_FEAT.fine`, RO. -/
def FING_FEAT_fine : Fld := ⟨R.FING_FEAT, 18, 18⟩
/-- `SYS_MODE_STAT.result`, RO. -/
def SYS_MODE_STAT_result : Fld := ⟨R.SYS_MODE_STAT, 31, 24⟩
/-- `SYS_MODE_STAT.ride_origin`, RO. -/
def SYS_MODE_STAT_ride_origin : Fld := ⟨R.SYS_MODE_STAT, 19, 17⟩
/-- `SYS_MODE_STAT.ride_recovered`, RO. -/
def SYS_MODE_STAT_ride_recovered : Fld := ⟨R.SYS_MODE_STAT, 16, 16⟩
/-- `SYS_MODE_STAT.svckey`, RO. -/
def SYS_MODE_STAT_svckey : Fld := ⟨R.SYS_MODE_STAT, 15, 15⟩
/-- `SYS_MODE_STAT.lockstep_broken`, RO. -/
def SYS_MODE_STAT_lockstep_broken : Fld := ⟨R.SYS_MODE_STAT, 14, 14⟩
/-- `SYS_MODE_STAT.role`, RO. -/
def SYS_MODE_STAT_role : Fld := ⟨R.SYS_MODE_STAT, 13, 12⟩
/-- `SYS_MODE_STAT.busy`, RO. -/
def SYS_MODE_STAT_busy : Fld := ⟨R.SYS_MODE_STAT, 11, 11⟩
/-- `SYS_MODE_STAT.prev`, RO. -/
def SYS_MODE_STAT_prev : Fld := ⟨R.SYS_MODE_STAT, 10, 8⟩
/-- `SYS_MODE_STAT.mode`, RO. -/
def SYS_MODE_STAT_mode : Fld := ⟨R.SYS_MODE_STAT, 2, 0⟩
/-- `SYS_HALT_CAUSE.cause`, W1C. -/
def SYS_HALT_CAUSE_cause : Fld := ⟨R.SYS_HALT_CAUSE, 11, 0⟩
/-- `SYS_HALT_LIVE.live`, RO. -/
def SYS_HALT_LIVE_live : Fld := ⟨R.SYS_HALT_LIVE, 11, 0⟩
/-- `SYS_MODE_EVENT.overtaken`, W1C. -/
def SYS_MODE_EVENT_overtaken : Fld := ⟨R.SYS_MODE_EVENT, 5, 5⟩
/-- `SYS_MODE_EVENT.ride_recovered`, W1C. -/
def SYS_MODE_EVENT_ride_recovered : Fld := ⟨R.SYS_MODE_EVENT, 4, 4⟩
/-- `SYS_MODE_EVENT.ride`, W1C. -/
def SYS_MODE_EVENT_ride : Fld := ⟨R.SYS_MODE_EVENT, 3, 3⟩
/-- `SYS_MODE_EVENT.halt`, W1C. -/
def SYS_MODE_EVENT_halt : Fld := ⟨R.SYS_MODE_EVENT, 2, 2⟩
/-- `SYS_MODE_EVENT.refused`, W1C. -/
def SYS_MODE_EVENT_refused : Fld := ⟨R.SYS_MODE_EVENT, 1, 1⟩
/-- `SYS_MODE_EVENT.changed`, W1C. -/
def SYS_MODE_EVENT_changed : Fld := ⟨R.SYS_MODE_EVENT, 0, 0⟩
/-- `CONV_REF_CFG.sel`, RW. -/
def CONV_REF_CFG_sel (d : Nat) : Fld := ⟨R.CONV_REF_CFG d, 1, 0⟩
/-- `CONV_REF_STAT.result`, RO. -/
def CONV_REF_STAT_result (d : Nat) : Fld := ⟨R.CONV_REF_STAT d, 11, 8⟩
/-- `CONV_REF_STAT.fault`, RO. -/
def CONV_REF_STAT_fault (d : Nat) : Fld := ⟨R.CONV_REF_STAT d, 3, 3⟩
/-- `CONV_REF_STAT.settling`, RO. -/
def CONV_REF_STAT_settling (d : Nat) : Fld := ⟨R.CONV_REF_STAT d, 2, 2⟩
/-- `CONV_REF_STAT.ref_is_supply`, RO. -/
def CONV_REF_STAT_ref_is_supply (d : Nat) : Fld := ⟨R.CONV_REF_STAT d, 1, 1⟩
/-- `CONV_REF_STAT.ref_ok`, RO. -/
def CONV_REF_STAT_ref_ok (d : Nat) : Fld := ⟨R.CONV_REF_STAT d, 0, 0⟩
/-- `CONV_CAL_STAT.result`, RO. -/
def CONV_CAL_STAT_result (d : Nat) : Fld := ⟨R.CONV_CAL_STAT d, 19, 16⟩
/-- `CONV_CAL_STAT.cal_ref`, RO. -/
def CONV_CAL_STAT_cal_ref (d : Nat) : Fld := ⟨R.CONV_CAL_STAT d, 13, 12⟩
/-- `CONV_CAL_STAT.busy`, RO. -/
def CONV_CAL_STAT_busy (d : Nat) : Fld := ⟨R.CONV_CAL_STAT d, 8, 8⟩
/-- `CONV_CAL_STAT.done`, RO. -/
def CONV_CAL_STAT_done (d : Nat) : Fld := ⟨R.CONV_CAL_STAT d, 7, 0⟩
/-- `CONV_EVENT.cal_fail`, W1C. -/
def CONV_EVENT_cal_fail (d : Nat) : Fld := ⟨R.CONV_EVENT d, 3, 3⟩
/-- `CONV_EVENT.cal_end`, W1C. -/
def CONV_EVENT_cal_end (d : Nat) : Fld := ⟨R.CONV_EVENT d, 2, 2⟩
/-- `CONV_EVENT.ref_fault`, W1C. -/
def CONV_EVENT_ref_fault (d : Nat) : Fld := ⟨R.CONV_EVENT d, 1, 1⟩
/-- `CONV_EVENT.ref_ok`, W1C. -/
def CONV_EVENT_ref_ok (d : Nat) : Fld := ⟨R.CONV_EVENT d, 0, 0⟩
/-- `CONV_C_CTL.last`, RW. -/
def CONV_C_CTL_last (c : Nat) : Fld := ⟨R.CONV_C_CTL c, 11, 8⟩
/-- `CONV_C_CTL.en`, RW. -/
def CONV_C_CTL_en (c : Nat) : Fld := ⟨R.CONV_C_CTL c, 0, 0⟩
/-- `CONV_C_STAT.seq_pos`, RO. -/
def CONV_C_STAT_seq_pos (c : Nat) : Fld := ⟨R.CONV_C_STAT c, 7, 4⟩
/-- `CONV_C_STAT.cal`, RO. -/
def CONV_C_STAT_cal (c : Nat) : Fld := ⟨R.CONV_C_STAT c, 1, 1⟩
/-- `CONV_C_STAT.busy`, RO. -/
def CONV_C_STAT_busy (c : Nat) : Fld := ⟨R.CONV_C_STAT c, 0, 0⟩
/-- `CONV_C_EVENT.uncal`, W1C. -/
def CONV_C_EVENT_uncal (c : Nat) : Fld := ⟨R.CONV_C_EVENT c, 7, 7⟩
/-- `CONV_C_EVENT.bad_entry`, W1C. -/
def CONV_C_EVENT_bad_entry (c : Nat) : Fld := ⟨R.CONV_C_EVENT c, 6, 6⟩
/-- `CONV_C_EVENT.ovf`, W1C. -/
def CONV_C_EVENT_ovf (c : Nat) : Fld := ⟨R.CONV_C_EVENT c, 5, 5⟩
/-- `CONV_C_EVENT.clip`, W1C. -/
def CONV_C_EVENT_clip (c : Nat) : Fld := ⟨R.CONV_C_EVENT c, 4, 4⟩
/-- `CONV_C_EVENT.unsettled`, W1C. -/
def CONV_C_EVENT_unsettled (c : Nat) : Fld := ⟨R.CONV_C_EVENT c, 3, 3⟩
/-- `CONV_C_EVENT.overrun`, W1C. -/
def CONV_C_EVENT_overrun (c : Nat) : Fld := ⟨R.CONV_C_EVENT c, 2, 2⟩
/-- `CONV_C_EVENT.trig_lost`, W1C. -/
def CONV_C_EVENT_trig_lost (c : Nat) : Fld := ⟨R.CONV_C_EVENT c, 1, 1⟩
/-- `CONV_C_EVENT.seq_end`, W1C. -/
def CONV_C_EVENT_seq_end (c : Nat) : Fld := ⟨R.CONV_C_EVENT c, 0, 0⟩
/-- `CONV_C_TRIG.repeat`, RWL. -/
def CONV_C_TRIG_repeat (c : Nat) : Fld := ⟨R.CONV_C_TRIG c, 20, 20⟩
/-- `CONV_C_TRIG.event`, RWL. -/
def CONV_C_TRIG_event (c : Nat) : Fld := ⟨R.CONV_C_TRIG c, 16, 16⟩
/-- `CONV_C_TRIG.index`, RWL. -/
def CONV_C_TRIG_index (c : Nat) : Fld := ⟨R.CONV_C_TRIG c, 13, 8⟩
/-- `CONV_C_TRIG.kind`, RWL. -/
def CONV_C_TRIG_kind (c : Nat) : Fld := ⟨R.CONV_C_TRIG c, 1, 0⟩
/-- `CONV_C_ENT.samp`, RW. -/
def CONV_C_ENT_samp (c q : Nat) : Fld := ⟨R.CONV_C_ENT c q, 14, 8⟩
/-- `CONV_C_CAL_OFS.ofs`, RW. -/
def CONV_C_CAL_OFS_ofs (c : Nat) : Fld := ⟨R.CONV_C_CAL_OFS c, 15, 0⟩
/-- `CONV_C_CAL_GAIN.g`, RW. -/
def CONV_C_CAL_GAIN_g (c : Nat) : Fld := ⟨R.CONV_C_CAL_GAIN c, 17, 0⟩
/-- `CONV_C_ENT_DLY.dly`, RW. -/
def CONV_C_ENT_DLY_dly (c q : Nat) : Fld := ⟨R.CONV_C_ENT_DLY c q, 18, 0⟩
/-- `CONV_C_ENT_TRIM.trim`, RW. -/
def CONV_C_ENT_TRIM_trim (c q : Nat) : Fld := ⟨R.CONV_C_ENT_TRIM c q, 21, 0⟩
/-- `CONV_F_CTL.gain`, RW. -/
def CONV_F_CTL_gain (f : Nat) : Fld := ⟨R.CONV_F_CTL f, 5, 4⟩
/-- `CONV_F_CTL.en`, RW. -/
def CONV_F_CTL_en (f : Nat) : Fld := ⟨R.CONV_F_CTL f, 0, 0⟩
/-- `CONV_F_STAT.coast`, RO. -/
def CONV_F_STAT_coast (f : Nat) : Fld := ⟨R.CONV_F_STAT f, 2, 2⟩
/-- `CONV_F_STAT.no_clock`, RO. -/
def CONV_F_STAT_no_clock (f : Nat) : Fld := ⟨R.CONV_F_STAT f, 1, 1⟩
/-- `CONV_F_STAT.running`, RO. -/
def CONV_F_STAT_running (f : Nat) : Fld := ⟨R.CONV_F_STAT f, 0, 0⟩
/-- `CONV_F_EVENT.no_clock`, W1C. -/
def CONV_F_EVENT_no_clock (f : Nat) : Fld := ⟨R.CONV_F_EVENT f, 4, 4⟩
/-- `CONV_F_EVENT.coast`, W1C. -/
def CONV_F_EVENT_coast (f : Nat) : Fld := ⟨R.CONV_F_EVENT f, 3, 3⟩
/-- `CONV_F_EVENT.unsettled`, W1C. -/
def CONV_F_EVENT_unsettled (f : Nat) : Fld := ⟨R.CONV_F_EVENT f, 2, 2⟩
/-- `CONV_F_EVENT.ovf`, W1C. -/
def CONV_F_EVENT_ovf (f : Nat) : Fld := ⟨R.CONV_F_EVENT f, 1, 1⟩
/-- `CONV_F_EVENT.clip`, W1C. -/
def CONV_F_EVENT_clip (f : Nat) : Fld := ⟨R.CONV_F_EVENT f, 0, 0⟩
/-- `CONV_F_ZERO.codes`, RW. -/
def CONV_F_ZERO_codes (f : Nat) : Fld := ⟨R.CONV_F_ZERO f, 15, 0⟩
/-- `CONV_F_DLY.dly`, RW. -/
def CONV_F_DLY_dly (f : Nat) : Fld := ⟨R.CONV_F_DLY f, 18, 0⟩
/-- `CONV_F_TRIM.trim`, RW. -/
def CONV_F_TRIM_trim (f : Nat) : Fld := ⟨R.CONV_F_TRIM f, 21, 0⟩
/-- `HOST_CFG.spi_crc`, RW. -/
def HOST_CFG_spi_crc : Fld := ⟨R.HOST_CFG, 1, 1⟩
/-- `HOST_CFG.irq_pins`, RW. -/
def HOST_CFG_irq_pins : Fld := ⟨R.HOST_CFG, 0, 0⟩
/-- `HOST_STAT.speed`, RO. -/
def HOST_STAT_speed : Fld := ⟨R.HOST_STAT, 6, 4⟩
/-- `HOST_STAT.width`, RO. -/
def HOST_STAT_width : Fld := ⟨R.HOST_STAT, 3, 2⟩
/-- `HOST_STAT.link_up`, RO. -/
def HOST_STAT_link_up : Fld := ⟨R.HOST_STAT, 0, 0⟩
/-- `HOST_ERR.err`, W1C. -/
def HOST_ERR_err : Fld := ⟨R.HOST_ERR, 0, 0⟩
/-- `HOST_ERR_INFO.kind`, RO. -/
def HOST_ERR_INFO_kind : Fld := ⟨R.HOST_ERR_INFO, 31, 29⟩
/-- `HOST_ERR_INFO.port`, RO. -/
def HOST_ERR_INFO_port : Fld := ⟨R.HOST_ERR_INFO, 27, 26⟩
/-- `HOST_ERR_INFO.offset`, RO. -/
def HOST_ERR_INFO_offset : Fld := ⟨R.HOST_ERR_INFO, 25, 0⟩
/-- `TRIPIN_CFG.pol`, RW. -/
def TRIPIN_CFG_pol (d : Nat) : Fld := ⟨R.TRIPIN_CFG d, 1, 1⟩
/-- `TRIPIN_CFG.m`, RW. -/
def TRIPIN_CFG_m (d : Nat) : Fld := ⟨R.TRIPIN_CFG d, 11, 8⟩
/-- `TRIPIN_CFG.n`, RW. -/
def TRIPIN_CFG_n (d : Nat) : Fld := ⟨R.TRIPIN_CFG d, 7, 4⟩
/-- `TRIPIN_CFG.en`, RW. -/
def TRIPIN_CFG_en (d : Nat) : Fld := ⟨R.TRIPIN_CFG d, 0, 0⟩
/-- `WIN_M_CFG.ramp_eu`, RWL. -/
def WIN_M_CFG_ramp_eu (m : Nat) : Fld := ⟨R.WIN_M_CFG m, 21, 16⟩
/-- `WIN_M_CFG.use`, RWL. -/
def WIN_M_CFG_use (m : Nat) : Fld := ⟨R.WIN_M_CFG m, 8, 8⟩
/-- `WIN_M_CFG.cap`, RW. -/
def WIN_M_CFG_cap (m : Nat) : Fld := ⟨R.WIN_M_CFG m, 5, 4⟩
/-- `WIN_M_CFG.wake`, RW. -/
def WIN_M_CFG_wake (m : Nat) : Fld := ⟨R.WIN_M_CFG m, 1, 1⟩
/-- `WIN_M_CFG.en`, RW. -/
def WIN_M_CFG_en (m : Nat) : Fld := ⟨R.WIN_M_CFG m, 0, 0⟩
/-- `WIN_M_FILT.m`, RWL. -/
def WIN_M_FILT_m (m : Nat) : Fld := ⟨R.WIN_M_FILT m, 11, 8⟩
/-- `WIN_M_FILT.n`, RWL. -/
def WIN_M_FILT_n (m : Nat) : Fld := ⟨R.WIN_M_FILT m, 3, 0⟩
/-- `WIN_M_TH.hi`, RW. -/
def WIN_M_TH_hi (m : Nat) : Fld := ⟨R.WIN_M_TH m, 27, 16⟩
/-- `WIN_M_TH.lo`, RW. -/
def WIN_M_TH_lo (m : Nat) : Fld := ⟨R.WIN_M_TH m, 11, 0⟩
/-- `WIN_M_HYS.hyst`, RW. -/
def WIN_M_HYS_hyst (m : Nat) : Fld := ⟨R.WIN_M_HYS m, 5, 0⟩
/-- `WIN_M_SLOPE.slope`, RW. -/
def WIN_M_SLOPE_slope (m : Nat) : Fld := ⟨R.WIN_M_SLOPE m, 9, 0⟩
/-- `WIN_M_STAT.lo`, RO. -/
def WIN_M_STAT_lo (m : Nat) : Fld := ⟨R.WIN_M_STAT m, 1, 1⟩
/-- `WIN_M_STAT.hi`, RO. -/
def WIN_M_STAT_hi (m : Nat) : Fld := ⟨R.WIN_M_STAT m, 0, 0⟩
/-- `WIN_M_EVENT.cap_ovr`, W1C. -/
def WIN_M_EVENT_cap_ovr (m : Nat) : Fld := ⟨R.WIN_M_EVENT m, 4, 4⟩
/-- `TRIP_SRC_OFF.mask`, RWL. -/
def TRIP_SRC_OFF_mask (d i : Nat) : Fld := ⟨R.TRIP_SRC_OFF d i, 23, 0⟩
/-- `TRIP_SRC_ON.mask`, RWL. -/
def TRIP_SRC_ON_mask (d i : Nat) : Fld := ⟨R.TRIP_SRC_ON d i, 23, 0⟩
/-- `TRIP_SRC_REP.mask`, RWL. -/
def TRIP_SRC_REP_mask (d i : Nat) : Fld := ⟨R.TRIP_SRC_REP d i, 23, 0⟩
/-- `TRIP_SRC_CFG.release`, RW. -/
def TRIP_SRC_CFG_release (d i : Nat) : Fld := ⟨R.TRIP_SRC_CFG d i, 1, 0⟩
/-- `TRIP_GT_OFF.ch`, RO. -/
def TRIP_GT_OFF_ch (d : Nat) : Fld := ⟨R.TRIP_GT_OFF d, 23, 0⟩
/-- `TRIP_GT_ON.ch`, RO. -/
def TRIP_GT_ON_ch (d : Nat) : Fld := ⟨R.TRIP_GT_ON d, 23, 0⟩
/-- `TRIP_GT_REP.ch`, W1C. -/
def TRIP_GT_REP_ch (d : Nat) : Fld := ⟨R.TRIP_GT_REP d, 23, 0⟩
/-- `TRIP_FW.set`, W1S. -/
def TRIP_FW_set (d : Nat) : Fld := ⟨R.TRIP_FW d, 15, 0⟩
/-- `TRIP_EVENT.seam_repeat`, W1C. -/
def TRIP_EVENT_seam_repeat (d : Nat) : Fld := ⟨R.TRIP_EVENT d, 3, 3⟩
/-- `TRIP_EVENT.conflict`, W1C. -/
def TRIP_EVENT_conflict (d : Nat) : Fld := ⟨R.TRIP_EVENT d, 2, 2⟩
/-- `TRIP_EVENT.report`, W1C. -/
def TRIP_EVENT_report (d : Nat) : Fld := ⟨R.TRIP_EVENT d, 1, 1⟩
/-- `TRIP_EVENT.force`, W1C. -/
def TRIP_EVENT_force (d : Nat) : Fld := ⟨R.TRIP_EVENT d, 0, 0⟩
/-- `EDGE_COMMIT.req`, W1S. -/
def EDGE_COMMIT_req (d : Nat) : Fld := ⟨R.EDGE_COMMIT d, 23, 0⟩
/-- `EDGE_CAL_CFG.en`, RW. -/
def EDGE_CAL_CFG_en (d : Nat) : Fld := ⟨R.EDGE_CAL_CFG d, 0, 0⟩
/-- `EDGE_CAL_CFG.period`, RW. -/
def EDGE_CAL_CFG_period (d : Nat) : Fld := ⟨R.EDGE_CAL_CFG d, 15, 8⟩
/-- `EDGE_SYNC_CFG.synci_pol`, RW. -/
def EDGE_SYNC_CFG_synci_pol : Fld := ⟨R.EDGE_SYNC_CFG, 25, 25⟩
/-- `EDGE_SYNC_CFG.synci_en`, RW. -/
def EDGE_SYNC_CFG_synci_en : Fld := ⟨R.EDGE_SYNC_CFG, 24, 24⟩
/-- `EDGE_SYNC_CFG.synco_eu`, RW. -/
def EDGE_SYNC_CFG_synco_eu : Fld := ⟨R.EDGE_SYNC_CFG, 13, 8⟩
/-- `EDGE_SYNC_CFG.synco_evt`, RW. -/
def EDGE_SYNC_CFG_synco_evt : Fld := ⟨R.EDGE_SYNC_CFG, 1, 1⟩
/-- `EDGE_SYNC_CFG.synco_en`, RW. -/
def EDGE_SYNC_CFG_synco_en : Fld := ⟨R.EDGE_SYNC_CFG, 0, 0⟩
/-- `EDGE_SYNC_ADJ.lat`, RW. -/
def EDGE_SYNC_ADJ_lat : Fld := ⟨R.EDGE_SYNC_ADJ, 31, 16⟩
/-- `EDGE_SYNC_ADJ.max_adj`, RW. -/
def EDGE_SYNC_ADJ_max_adj : Fld := ⟨R.EDGE_SYNC_ADJ, 7, 0⟩
/-- `EDGE_SYNC_STAT.sat`, RO. -/
def EDGE_SYNC_STAT_sat : Fld := ⟨R.EDGE_SYNC_STAT, 31, 31⟩
/-- `EDGE_SYNC_STAT.count`, CNT. -/
def EDGE_SYNC_STAT_count : Fld := ⟨R.EDGE_SYNC_STAT, 30, 16⟩
/-- `EDGE_EVENT.synci`, W1C. -/
def EDGE_EVENT_synci (d : Nat) : Fld := ⟨R.EDGE_EVENT d, 26, 26⟩
/-- `EDGE_EVENT.freeze`, W1C. -/
def EDGE_EVENT_freeze (d : Nat) : Fld := ⟨R.EDGE_EVENT d, 25, 25⟩
/-- `EDGE_EVENT.frozen`, RO. -/
def EDGE_EVENT_frozen (d : Nat) : Fld := ⟨R.EDGE_EVENT d, 24, 24⟩
/-- `EDGE_CH_CFG.partner`, RO. -/
def EDGE_CH_CFG_partner (n : Nat) : Fld := ⟨R.EDGE_CH_CFG n, 29, 24⟩
/-- `EDGE_CH_CFG.pair`, RO. -/
def EDGE_CH_CFG_pair (n : Nat) : Fld := ⟨R.EDGE_CH_CFG n, 17, 16⟩
/-- `EDGE_CH_CFG.ref_eu`, RWL. -/
def EDGE_CH_CFG_ref_eu (n : Nat) : Fld := ⟨R.EDGE_CH_CFG n, 13, 8⟩
/-- `EDGE_CH_CFG.commit_pt`, RWL. -/
def EDGE_CH_CFG_commit_pt (n : Nat) : Fld := ⟨R.EDGE_CH_CFG n, 5, 4⟩
/-- `EDGE_CH_CFG.refr_ok`, RWL. -/
def EDGE_CH_CFG_refr_ok (n : Nat) : Fld := ⟨R.EDGE_CH_CFG n, 3, 3⟩
/-- `EDGE_CH_CFG.minp_act`, RW. -/
def EDGE_CH_CFG_minp_act (n : Nat) : Fld := ⟨R.EDGE_CH_CFG n, 2, 2⟩
/-- `EDGE_CH_CFG.sync_in`, RW. -/
def EDGE_CH_CFG_sync_in (n : Nat) : Fld := ⟨R.EDGE_CH_CFG n, 1, 1⟩
/-- `EDGE_CH_CFG.en`, RW. -/
def EDGE_CH_CFG_en (n : Nat) : Fld := ⟨R.EDGE_CH_CFG n, 0, 0⟩
/-- `EDGE_CH_CTL.mode`, RW. -/
def EDGE_CH_CTL_mode (n : Nat) : Fld := ⟨R.EDGE_CH_CTL n, 1, 0⟩
/-- `EDGE_CH_CTL_ACT.mode`, RO. -/
def EDGE_CH_CTL_ACT_mode (n : Nat) : Fld := ⟨R.EDGE_CH_CTL_ACT n, 1, 0⟩
/-- `EDGE_CH_PER_ACT.per`, RO. -/
def EDGE_CH_PER_ACT_per (n : Nat) : Fld := ⟨R.EDGE_CH_PER_ACT n, 19, 0⟩
/-- `EDGE_CH_DT_ACT.dt`, RO. -/
def EDGE_CH_DT_ACT_dt (n : Nat) : Fld := ⟨R.EDGE_CH_DT_ACT n, 16, 0⟩
/-- `EDGE_CH_MINP_ACT.minp`, RO. -/
def EDGE_CH_MINP_ACT_minp (n : Nat) : Fld := ⟨R.EDGE_CH_MINP_ACT n, 16, 0⟩
/-- `EDGE_CH_REFR.len`, RW. -/
def EDGE_CH_REFR_len (n : Nat) : Fld := ⟨R.EDGE_CH_REFR n, 31, 16⟩
/-- `EDGE_CH_REFR.every`, RW. -/
def EDGE_CH_REFR_every (n : Nat) : Fld := ⟨R.EDGE_CH_REFR n, 15, 8⟩
/-- `EDGE_CH_REFR.en`, RW. -/
def EDGE_CH_REFR_en (n : Nat) : Fld := ⟨R.EDGE_CH_REFR n, 0, 0⟩
/-- `EDGE_CH_STAT.out`, RO. -/
def EDGE_CH_STAT_out (n : Nat) : Fld := ⟨R.EDGE_CH_STAT n, 5, 5⟩
/-- `EDGE_CH_EVENT.sync`, W1C. -/
def EDGE_CH_EVENT_sync (n : Nat) : Fld := ⟨R.EDGE_CH_EVENT n, 7, 7⟩
/-- `EDGE_CH_EVENT.cal_bad`, W1C. -/
def EDGE_CH_EVENT_cal_bad (n : Nat) : Fld := ⟨R.EDGE_CH_EVENT n, 6, 6⟩
/-- `EDGE_CH_EVENT.refresh`, W1C. -/
def EDGE_CH_EVENT_refresh (n : Nat) : Fld := ⟨R.EDGE_CH_EVENT n, 5, 5⟩
/-- `EDGE_CH_EVENT.minp_stretch`, W1C. -/
def EDGE_CH_EVENT_minp_stretch (n : Nat) : Fld := ⟨R.EDGE_CH_EVENT n, 4, 4⟩
/-- `EDGE_CH_EVENT.minp_drop`, W1C. -/
def EDGE_CH_EVENT_minp_drop (n : Nat) : Fld := ⟨R.EDGE_CH_EVENT n, 3, 3⟩
/-- `EDGE_CH_EVENT.per_clip`, W1C. -/
def EDGE_CH_EVENT_per_clip (n : Nat) : Fld := ⟨R.EDGE_CH_EVENT n, 2, 2⟩
/-- `EDGE_CH_EVENT.cmp_clip`, W1C. -/
def EDGE_CH_EVENT_cmp_clip (n : Nat) : Fld := ⟨R.EDGE_CH_EVENT n, 1, 1⟩
/-- `EDGE_CH_EVENT.mixed_commit`, W1C. -/
def EDGE_CH_EVENT_mixed_commit (n : Nat) : Fld := ⟨R.EDGE_CH_EVENT n, 0, 0⟩
/-- `EDGE_CH_CALT.sweeps`, RO. -/
def EDGE_CH_CALT_sweeps (n : Nat) : Fld := ⟨R.EDGE_CH_CALT n, 31, 16⟩
/-- `EDGE_CH_CALT.total`, RO. -/
def EDGE_CH_CALT_total (n : Nat) : Fld := ⟨R.EDGE_CH_CALT n, 15, 0⟩
/-- `GATE_EVENT.both_on`, W1C. -/
def GATE_EVENT_both_on (d : Nat) : Fld := ⟨R.GATE_EVENT d, 25, 25⟩
/-- `GATE_BOTHON.held`, RO. -/
def GATE_BOTHON_held (d : Nat) : Fld := ⟨R.GATE_BOTHON d, 29, 24⟩
/-- `GATE_BOTHON.first`, RO. -/
def GATE_BOTHON_first (d : Nat) : Fld := ⟨R.GATE_BOTHON d, 21, 16⟩
/-- `GATE_BOTHON.same_tick`, RO. -/
def GATE_BOTHON_same_tick (d : Nat) : Fld := ⟨R.GATE_BOTHON d, 0, 0⟩
/-- `GATE_LIG_CFG.sel_eu`, RW. -/
def GATE_LIG_CFG_sel_eu (k : Nat) : Fld := ⟨R.GATE_LIG_CFG k, 21, 16⟩
/-- `GATE_LIG_CFG.fv_poll`, RW. -/
def GATE_LIG_CFG_fv_poll (k : Nat) : Fld := ⟨R.GATE_LIG_CFG k, 15, 8⟩
/-- `GATE_LIG_CFG.en`, RW. -/
def GATE_LIG_CFG_en (k : Nat) : Fld := ⟨R.GATE_LIG_CFG k, 0, 0⟩
/-- `GATE_LIG_SEL.sel`, RW. -/
def GATE_LIG_SEL_sel (k : Nat) : Fld := ⟨R.GATE_LIG_SEL k, 23, 0⟩
/-- `GATE_LIG_STAT.fv`, RO. -/
def GATE_LIG_STAT_fv (k : Nat) : Fld := ⟨R.GATE_LIG_STAT k, 27, 16⟩
/-- `GATE_LIG_STAT.up`, RO. -/
def GATE_LIG_STAT_up (k : Nat) : Fld := ⟨R.GATE_LIG_STAT k, 12, 12⟩
/-- `GATE_CH_CFG.tries`, RW. -/
def GATE_CH_CFG_tries (n : Nat) : Fld := ⟨R.GATE_CH_CFG n, 29, 26⟩
/-- `GATE_CH_CFG.addr`, RO. -/
def GATE_CH_CFG_addr (n : Nat) : Fld := ⟨R.GATE_CH_CFG n, 11, 8⟩
/-- `GATE_CH_CFG.bus`, RO. -/
def GATE_CH_CFG_bus (n : Nat) : Fld := ⟨R.GATE_CH_CFG n, 7, 6⟩
/-- `GATE_CH_CFG.nprof`, RO. -/
def GATE_CH_CFG_nprof (n : Nat) : Fld := ⟨R.GATE_CH_CFG n, 5, 4⟩
/-- `GATE_CH_CFG.boot`, RO. -/
def GATE_CH_CFG_boot (n : Nat) : Fld := ⟨R.GATE_CH_CFG n, 2, 2⟩
/-- `GATE_CH_CFG.present`, RO. -/
def GATE_CH_CFG_present (n : Nat) : Fld := ⟨R.GATE_CH_CFG n, 1, 1⟩
/-- `GATE_CH_FAULT.tries_used`, RO. -/
def GATE_CH_FAULT_tries_used (n : Nat) : Fld := ⟨R.GATE_CH_FAULT n, 27, 24⟩
/-- `GATE_CH_FAULT.stuck`, RO. -/
def GATE_CH_FAULT_stuck (n : Nat) : Fld := ⟨R.GATE_CH_FAULT n, 16, 16⟩
/-- `GATE_CH_FAULT.lost`, RO. -/
def GATE_CH_FAULT_lost (n : Nat) : Fld := ⟨R.GATE_CH_FAULT n, 4, 4⟩
/-- `GATE_CH_FAULT.ot`, RO. -/
def GATE_CH_FAULT_ot (n : Nat) : Fld := ⟨R.GATE_CH_FAULT n, 3, 3⟩
/-- `GATE_CH_FAULT.uv`, RO. -/
def GATE_CH_FAULT_uv (n : Nat) : Fld := ⟨R.GATE_CH_FAULT n, 2, 2⟩
/-- `GATE_CH_FAULT.desat`, RO. -/
def GATE_CH_FAULT_desat (n : Nat) : Fld := ⟨R.GATE_CH_FAULT n, 1, 1⟩
/-- `GATE_CH_FAULT.latched`, RO. -/
def GATE_CH_FAULT_latched (n : Nat) : Fld := ⟨R.GATE_CH_FAULT n, 0, 0⟩
/-- `GATE_CH_DESAT.thr`, RW. -/
def GATE_CH_DESAT_thr (n : Nat) : Fld := ⟨R.GATE_CH_DESAT n, 22, 16⟩
/-- `GATE_CH_DESAT.blank`, RW. -/
def GATE_CH_DESAT_blank (n : Nat) : Fld := ⟨R.GATE_CH_DESAT n, 8, 0⟩
/-- `GATE_CH_SUPPLY.warn`, RW. -/
def GATE_CH_SUPPLY_warn (n : Nat) : Fld := ⟨R.GATE_CH_SUPPLY n, 27, 16⟩
/-- `GATE_CH_SUPPLY.uv`, RW. -/
def GATE_CH_SUPPLY_uv (n : Nat) : Fld := ⟨R.GATE_CH_SUPPLY n, 11, 0⟩
/-- `GATE_CH_TELEM0.supply`, RO. -/
def GATE_CH_TELEM0_supply (n : Nat) : Fld := ⟨R.GATE_CH_TELEM0 n, 27, 16⟩
/-- `GATE_CH_TELEM0.vds`, RO. -/
def GATE_CH_TELEM0_vds (n : Nat) : Fld := ⟨R.GATE_CH_TELEM0 n, 11, 0⟩
/-- `GATE_CH_TELEM1.status`, RO. -/
def GATE_CH_TELEM1_status (n : Nat) : Fld := ⟨R.GATE_CH_TELEM1 n, 27, 16⟩
/-- `GATE_CH_TELEM1.temp`, RO. -/
def GATE_CH_TELEM1_temp (n : Nat) : Fld := ⟨R.GATE_CH_TELEM1 n, 11, 0⟩
/-- `GATE_CH_EVENT.sel_clip`, W1C. -/
def GATE_CH_EVENT_sel_clip (n : Nat) : Fld := ⟨R.GATE_CH_EVENT n, 6, 6⟩
/-- `GATE_CH_EVENT.resync`, W1C. -/
def GATE_CH_EVENT_resync (n : Nat) : Fld := ⟨R.GATE_CH_EVENT n, 5, 5⟩
/-- `GATE_CH_EVENT.lost`, W1C. -/
def GATE_CH_EVENT_lost (n : Nat) : Fld := ⟨R.GATE_CH_EVENT n, 4, 4⟩
/-- `GATE_CH_EVENT.warn`, W1C. -/
def GATE_CH_EVENT_warn (n : Nat) : Fld := ⟨R.GATE_CH_EVENT n, 3, 3⟩
/-- `GATE_CH_EVENT.stuck`, W1C. -/
def GATE_CH_EVENT_stuck (n : Nat) : Fld := ⟨R.GATE_CH_EVENT n, 2, 2⟩
/-- `GATE_CH_EVENT.fault_clear`, W1C. -/
def GATE_CH_EVENT_fault_clear (n : Nat) : Fld := ⟨R.GATE_CH_EVENT n, 1, 1⟩
/-- `GATE_CH_EVENT.fault`, W1C. -/
def GATE_CH_EVENT_fault (n : Nat) : Fld := ⟨R.GATE_CH_EVENT n, 0, 0⟩
/-- `GATE_CH_STAT.warn`, RO. -/
def GATE_CH_STAT_warn (n : Nat) : Fld := ⟨R.GATE_CH_STAT n, 1, 1⟩
/-- `GATE_CH_STAT.in_sync`, RO. -/
def GATE_CH_STAT_in_sync (n : Nat) : Fld := ⟨R.GATE_CH_STAT n, 0, 0⟩
/-- `BORE_CTL.breath_init`, W1S. -/
def BORE_CTL_breath_init (e : Nat) : Fld := ⟨R.BORE_CTL e, 5, 5⟩
/-- `BORE_CTL.hold`, RW. -/
def BORE_CTL_hold (e : Nat) : Fld := ⟨R.BORE_CTL e, 4, 4⟩
/-- `BORE_STAT.timing`, RO. -/
def BORE_STAT_timing (e : Nat) : Fld := ⟨R.BORE_STAT e, 5, 4⟩
/-- `BORE_STAT.budget_ok`, RO. -/
def BORE_STAT_budget_ok (e : Nat) : Fld := ⟨R.BORE_STAT e, 3, 3⟩
/-- `BORE_STAT.limit`, RO. -/
def BORE_STAT_limit (e : Nat) : Fld := ⟨R.BORE_STAT e, 2, 2⟩
/-- `BORE_STAT.held`, RO. -/
def BORE_STAT_held (e : Nat) : Fld := ⟨R.BORE_STAT e, 1, 1⟩
/-- `BORE_STAT.busy`, RO. -/
def BORE_STAT_busy (e : Nat) : Fld := ⟨R.BORE_STAT e, 0, 0⟩
/-- `BORE_EVENT.tag`, W1C. -/
def BORE_EVENT_tag (e : Nat) : Fld := ⟨R.BORE_EVENT e, 6, 6⟩
/-- `BORE_EVENT.hold_exp`, W1C. -/
def BORE_EVENT_hold_exp (e : Nat) : Fld := ⟨R.BORE_EVENT e, 5, 5⟩
/-- `BORE_EVENT.stale`, W1C. -/
def BORE_EVENT_stale (e : Nat) : Fld := ⟨R.BORE_EVENT e, 4, 4⟩
/-- `BORE_EVENT.limit`, W1C. -/
def BORE_EVENT_limit (e : Nat) : Fld := ⟨R.BORE_EVENT e, 3, 3⟩
/-- `BORE_EVENT.ovf`, W1C. -/
def BORE_EVENT_ovf (e : Nat) : Fld := ⟨R.BORE_EVENT e, 2, 2⟩
/-- `BORE_EVENT.late`, W1C. -/
def BORE_EVENT_late (e : Nat) : Fld := ⟨R.BORE_EVENT e, 1, 1⟩
/-- `BORE_EVENT.step_lost`, W1C. -/
def BORE_EVENT_step_lost (e : Nat) : Fld := ⟨R.BORE_EVENT e, 0, 0⟩
/-- `BORE_INFO.timing`, RO. -/
def BORE_INFO_timing (e : Nat) : Fld := ⟨R.BORE_INFO e, 23, 22⟩
/-- `BORE_INFO.stages`, RO. -/
def BORE_INFO_stages (e : Nat) : Fld := ⟨R.BORE_INFO e, 21, 16⟩
/-- `BORE_INFO.cycles`, RO. -/
def BORE_INFO_cycles (e : Nat) : Fld := ⟨R.BORE_INFO e, 10, 0⟩
/-- `BORE_TRIG.evt`, RWL. -/
def BORE_TRIG_evt (e : Nat) : Fld := ⟨R.BORE_TRIG e, 17, 16⟩
/-- `BORE_TRIG.index`, RWL. -/
def BORE_TRIG_index (e : Nat) : Fld := ⟨R.BORE_TRIG e, 13, 8⟩
/-- `BORE_TRIG.kind`, RWL. -/
def BORE_TRIG_kind (e : Nat) : Fld := ⟨R.BORE_TRIG e, 1, 0⟩
/-- `BORE_FIX_CFG.lat`, RO. -/
def BORE_FIX_CFG_lat (e : Nat) : Fld := ⟨R.BORE_FIX_CFG e, 26, 16⟩
/-- `BORE_FIX_CFG.mode`, RW. -/
def BORE_FIX_CFG_mode (e : Nat) : Fld := ⟨R.BORE_FIX_CFG e, 0, 0⟩
/-- `BORE_HOLD.count`, RO. -/
def BORE_HOLD_count (e : Nat) : Fld := ⟨R.BORE_HOLD e, 15, 8⟩
/-- `BORE_HOLD.lim`, RW. -/
def BORE_HOLD_lim (e : Nat) : Fld := ⟨R.BORE_HOLD e, 7, 0⟩
/-- `BORE_MOD_CFG.idx_low`, RW. -/
def BORE_MOD_CFG_idx_low (e : Nat) : Fld := ⟨R.BORE_MOD_CFG e, 21, 20⟩
/-- `BORE_MOD_CFG.idx_neg`, RW. -/
def BORE_MOD_CFG_idx_neg (e : Nat) : Fld := ⟨R.BORE_MOD_CFG e, 19, 18⟩
/-- `BORE_MOD_CFG.idx_pos`, RW. -/
def BORE_MOD_CFG_idx_pos (e : Nat) : Fld := ⟨R.BORE_MOD_CFG e, 17, 16⟩
/-- `BORE_MOD_CFG.cur_stage`, RW. -/
def BORE_MOD_CFG_cur_stage (e : Nat) : Fld := ⟨R.BORE_MOD_CFG e, 13, 8⟩
/-- `BORE_MOD_CFG.prof_en`, RW. -/
def BORE_MOD_CFG_prof_en (e : Nat) : Fld := ⟨R.BORE_MOD_CFG e, 0, 0⟩
/-- `BORE_STG_CFG.ovf`, W1C. -/
def BORE_STG_CFG_ovf (e s : Nat) : Fld := ⟨R.BORE_STG_CFG e s, 25, 25⟩
/-- `BORE_STG_CFG.lim`, RO. -/
def BORE_STG_CFG_lim (e s : Nat) : Fld := ⟨R.BORE_STG_CFG e s, 24, 24⟩
/-- `BORE_STG_CFG.flag_en`, RW. -/
def BORE_STG_CFG_flag_en (e s : Nat) : Fld := ⟨R.BORE_STG_CFG e s, 16, 16⟩
/-- `BORE_STG_CFG.variant`, RO. -/
def BORE_STG_CFG_variant (e s : Nat) : Fld := ⟨R.BORE_STG_CFG e s, 15, 8⟩
/-- `BORE_STG_CFG.type`, RO. -/
def BORE_STG_CFG_type (e s : Nat) : Fld := ⟨R.BORE_STG_CFG e s, 7, 0⟩
/-- `GRID_CTL.init`, W1S. -/
def GRID_CTL_init : Fld := ⟨R.GRID_CTL, 1, 1⟩
/-- `GRID_STAT.ref_set`, RO. -/
def GRID_STAT_ref_set : Fld := ⟨R.GRID_STAT, 9, 8⟩
/-- `GRID_STAT.form_lim`, RO. -/
def GRID_STAT_form_lim : Fld := ⟨R.GRID_STAT, 6, 6⟩
/-- `GRID_STAT.cs_lim`, RO. -/
def GRID_STAT_cs_lim : Fld := ⟨R.GRID_STAT, 5, 5⟩
/-- `GRID_STAT.ts_clip`, RO. -/
def GRID_STAT_ts_clip : Fld := ⟨R.GRID_STAT, 4, 4⟩
/-- `GRID_STAT.f_clip`, RO. -/
def GRID_STAT_f_clip : Fld := ⟨R.GRID_STAT, 3, 3⟩
/-- `GRID_STAT.fll_frozen`, RO. -/
def GRID_STAT_fll_frozen : Fld := ⟨R.GRID_STAT, 2, 2⟩
/-- `GRID_STAT.locked`, RO. -/
def GRID_STAT_locked : Fld := ⟨R.GRID_STAT, 1, 1⟩
/-- `GRID_STAT.busy`, RO. -/
def GRID_STAT_busy : Fld := ⟨R.GRID_STAT, 0, 0⟩
/-- `GRID_EVENT.ks_range`, W1C. -/
def GRID_EVENT_ks_range : Fld := ⟨R.GRID_EVENT, 10, 10⟩
/-- `GRID_EVENT.ovf`, W1C. -/
def GRID_EVENT_ovf : Fld := ⟨R.GRID_EVENT, 9, 9⟩
/-- `GRID_EVENT.form_unlim`, W1C. -/
def GRID_EVENT_form_unlim : Fld := ⟨R.GRID_EVENT, 8, 8⟩
/-- `GRID_EVENT.form_lim`, W1C. -/
def GRID_EVENT_form_lim : Fld := ⟨R.GRID_EVENT, 7, 7⟩
/-- `GRID_EVENT.cs_lim`, W1C. -/
def GRID_EVENT_cs_lim : Fld := ⟨R.GRID_EVENT, 6, 6⟩
/-- `GRID_EVENT.ts_clip`, W1C. -/
def GRID_EVENT_ts_clip : Fld := ⟨R.GRID_EVENT, 5, 5⟩
/-- `GRID_EVENT.f_clip`, W1C. -/
def GRID_EVENT_f_clip : Fld := ⟨R.GRID_EVENT, 4, 4⟩
/-- `GRID_EVENT.unlock`, W1C. -/
def GRID_EVENT_unlock : Fld := ⟨R.GRID_EVENT, 3, 3⟩
/-- `GRID_EVENT.lock`, W1C. -/
def GRID_EVENT_lock : Fld := ⟨R.GRID_EVENT, 2, 2⟩
/-- `GRID_EVENT.stale`, W1C. -/
def GRID_EVENT_stale : Fld := ⟨R.GRID_EVENT, 1, 1⟩
/-- `GRID_EVENT.step_lost`, W1C. -/
def GRID_EVENT_step_lost : Fld := ⟨R.GRID_EVENT, 0, 0⟩
/-- `GRID_TRIG.evt`, RW. -/
def GRID_TRIG_evt : Fld := ⟨R.GRID_TRIG, 17, 16⟩
/-- `GRID_TRIG.index`, RW. -/
def GRID_TRIG_index : Fld := ⟨R.GRID_TRIG, 13, 8⟩
/-- `GRID_TRIG.kind`, RW. -/
def GRID_TRIG_kind : Fld := ⟨R.GRID_TRIG, 1, 0⟩
/-- `GRID_CFG.vwire`, RW. -/
def GRID_CFG_vwire : Fld := ⟨R.GRID_CFG, 0, 0⟩
/-- `GRID_TRK_CFG.unlock_n`, RW. -/
def GRID_TRK_CFG_unlock_n : Fld := ⟨R.GRID_TRK_CFG, 7, 0⟩
/-- `GRID_CS_CFG.xfer_n`, RW. -/
def GRID_CS_CFG_xfer_n : Fld := ⟨R.GRID_CS_CFG, 23, 16⟩
/-- `GRID_CS_CFG.unlock_zero`, RW. -/
def GRID_CS_CFG_unlock_zero : Fld := ⟨R.GRID_CS_CFG, 8, 8⟩
/-- `GRID_CS_CFG.prio`, RW. -/
def GRID_CS_CFG_prio : Fld := ⟨R.GRID_CS_CFG, 5, 4⟩
/-- `GRID_CS_CFG.p_src`, RW. -/
def GRID_CS_CFG_p_src : Fld := ⟨R.GRID_CS_CFG, 1, 0⟩
/-- `GRID_CS_PSRC.engine`, RW. -/
def GRID_CS_PSRC_engine : Fld := ⟨R.GRID_CS_PSRC, 18, 16⟩
/-- `GRID_CS_PSRC.stage`, RW. -/
def GRID_CS_PSRC_stage : Fld := ⟨R.GRID_CS_PSRC, 13, 8⟩
/-- `GRID_CS_PSRC.lane`, RW. -/
def GRID_CS_PSRC_lane : Fld := ⟨R.GRID_CS_PSRC, 1, 0⟩
/-- `GRID_FM_CFG.ret_n`, RW. -/
def GRID_FM_CFG_ret_n : Fld := ⟨R.GRID_FM_CFG, 15, 8⟩
/-- `GRID_FM_CFG.dref`, RW. -/
def GRID_FM_CFG_dref : Fld := ⟨R.GRID_FM_CFG, 0, 0⟩
/-- `MPPT_CTL.sweep_now`, W1S. -/
def MPPT_CTL_sweep_now : Fld := ⟨R.MPPT_CTL, 16, 16⟩
/-- `MPPT_CTL.en`, RW. -/
def MPPT_CTL_en : Fld := ⟨R.MPPT_CTL, 7, 0⟩
/-- `MPPT_STAT.sweep_due`, RO. -/
def MPPT_STAT_sweep_due : Fld := ⟨R.MPPT_STAT, 4, 4⟩
/-- `MPPT_STAT.sweeping`, RO. -/
def MPPT_STAT_sweeping : Fld := ⟨R.MPPT_STAT, 3, 3⟩
/-- `MPPT_STAT.sweep_port`, RO. -/
def MPPT_STAT_sweep_port : Fld := ⟨R.MPPT_STAT, 2, 0⟩
/-- `MPPT_EVENT.ovf`, W1C. -/
def MPPT_EVENT_ovf : Fld := ⟨R.MPPT_EVENT, 7, 7⟩
/-- `MPPT_EVENT.stale`, W1C. -/
def MPPT_EVENT_stale : Fld := ⟨R.MPPT_EVENT, 6, 6⟩
/-- `MPPT_EVENT.ipk_clip`, W1C. -/
def MPPT_EVENT_ipk_clip : Fld := ⟨R.MPPT_EVENT, 5, 5⟩
/-- `MPPT_EVENT.vref_clip`, W1C. -/
def MPPT_EVENT_vref_clip : Fld := ⟨R.MPPT_EVENT, 4, 4⟩
/-- `MPPT_EVENT.sweep_defer`, W1C. -/
def MPPT_EVENT_sweep_defer : Fld := ⟨R.MPPT_EVENT, 3, 3⟩
/-- `MPPT_EVENT.sweep_abort`, W1C. -/
def MPPT_EVENT_sweep_abort : Fld := ⟨R.MPPT_EVENT, 2, 2⟩
/-- `MPPT_EVENT.sweep_moved`, W1C. -/
def MPPT_EVENT_sweep_moved : Fld := ⟨R.MPPT_EVENT, 1, 1⟩
/-- `MPPT_EVENT.sweep_done`, W1C. -/
def MPPT_EVENT_sweep_done : Fld := ⟨R.MPPT_EVENT, 0, 0⟩
/-- `MPPT_SWEEP_CFG.dwell_ms`, RW. -/
def MPPT_SWEEP_CFG_dwell_ms : Fld := ⟨R.MPPT_SWEEP_CFG, 20, 16⟩
/-- `MPPT_SWEEP_CFG.pts`, RW. -/
def MPPT_SWEEP_CFG_pts : Fld := ⟨R.MPPT_SWEEP_CFG, 14, 8⟩
/-- `MPPT_SWEEP_CFG.min`, RW. -/
def MPPT_SWEEP_CFG_min : Fld := ⟨R.MPPT_SWEEP_CFG, 5, 0⟩
/-- `MPPT_P_CFG.sweep_en`, RW. -/
def MPPT_P_CFG_sweep_en (p : Nat) : Fld := ⟨R.MPPT_P_CFG p, 24, 24⟩
/-- `MPPT_P_CFG.leg`, RO. -/
def MPPT_P_CFG_leg (p : Nat) : Fld := ⟨R.MPPT_P_CFG p, 20, 16⟩
/-- `MPPT_P_CFG.mon`, RO. -/
def MPPT_P_CFG_mon (p : Nat) : Fld := ⟨R.MPPT_P_CFG p, 12, 8⟩
/-- `MPPT_P_CFG.n_obs`, RW. -/
def MPPT_P_CFG_n_obs (p : Nat) : Fld := ⟨R.MPPT_P_CFG p, 7, 0⟩
/-- `MPPT_P_STAT.stale`, RO. -/
def MPPT_P_STAT_stale (p : Nat) : Fld := ⟨R.MPPT_P_STAT p, 7, 7⟩
/-- `MPPT_P_STAT.plim`, RO. -/
def MPPT_P_STAT_plim (p : Nat) : Fld := ⟨R.MPPT_P_STAT p, 6, 6⟩
/-- `MPPT_P_STAT.vref_clip`, RO. -/
def MPPT_P_STAT_vref_clip (p : Nat) : Fld := ⟨R.MPPT_P_STAT p, 5, 5⟩
/-- `MPPT_P_STAT.ipk_clip`, RO. -/
def MPPT_P_STAT_ipk_clip (p : Nat) : Fld := ⟨R.MPPT_P_STAT p, 4, 4⟩
/-- `MPPT_P_STAT.dir`, RO. -/
def MPPT_P_STAT_dir (p : Nat) : Fld := ⟨R.MPPT_P_STAT p, 3, 3⟩
/-- `MPPT_P_STAT.state`, RO. -/
def MPPT_P_STAT_state (p : Nat) : Fld := ⟨R.MPPT_P_STAT p, 2, 0⟩
/-- `RIDE_STAT.recovering`, RO. -/
def RIDE_STAT_recovering : Fld := ⟨R.RIDE_STAT, 4, 4⟩
/-- `RIDE_STAT.excursion`, RO. -/
def RIDE_STAT_excursion : Fld := ⟨R.RIDE_STAT, 3, 3⟩
/-- `RIDE_STAT.behave`, RO. -/
def RIDE_STAT_behave : Fld := ⟨R.RIDE_STAT, 2, 0⟩
/-- `RIDE_REGION.region`, RO. -/
def RIDE_REGION_region : Fld := ⟨R.RIDE_REGION, 23, 0⟩
/-- `RIDE_EVENT.ovf`, W1C. -/
def RIDE_EVENT_ovf : Fld := ⟨R.RIDE_EVENT, 5, 5⟩
/-- `RIDE_EVENT.recovered`, W1C. -/
def RIDE_EVENT_recovered : Fld := ⟨R.RIDE_EVENT, 4, 4⟩
/-- `RIDE_EVENT.trip`, W1C. -/
def RIDE_EVENT_trip : Fld := ⟨R.RIDE_EVENT, 3, 3⟩
/-- `RIDE_EVENT.behave`, W1C. -/
def RIDE_EVENT_behave : Fld := ⟨R.RIDE_EVENT, 2, 2⟩
/-- `RIDE_EVENT.return`, W1C. -/
def RIDE_EVENT_return : Fld := ⟨R.RIDE_EVENT, 1, 1⟩
/-- `RIDE_EVENT.excursion`, W1C. -/
def RIDE_EVENT_excursion : Fld := ⟨R.RIDE_EVENT, 0, 0⟩
/-- `RIDE_CFG.rec_ms`, RW. -/
def RIDE_CFG_rec_ms : Fld := ⟨R.RIDE_CFG, 15, 0⟩
/-- `RIDE_CRV.exceeded`, RO. -/
def RIDE_CRV_exceeded (i : Nat) : Fld := ⟨R.RIDE_CRV i, 24, 24⟩
/-- `RIDE_CRV.behave`, RWL. -/
def RIDE_CRV_behave (i : Nat) : Fld := ⟨R.RIDE_CRV i, 17, 16⟩
/-- `RIDE_CRV.present`, RWL. -/
def RIDE_CRV_present (i : Nat) : Fld := ⟨R.RIDE_CRV i, 8, 8⟩
/-- `RIDE_CRV.points`, RWL. -/
def RIDE_CRV_points (i : Nat) : Fld := ⟨R.RIDE_CRV i, 4, 0⟩
/-- `PROBE_CFG.zlearn`, RW. -/
def PROBE_CFG_zlearn : Fld := ⟨R.PROBE_CFG, 23, 20⟩
/-- `PROBE_CFG.confirm`, RW. -/
def PROBE_CFG_confirm : Fld := ⟨R.PROBE_CFG, 19, 16⟩
/-- `PROBE_CFG.win`, RW. -/
def PROBE_CFG_win : Fld := ⟨R.PROBE_CFG, 15, 8⟩
/-- `PROBE_CFG.r_en`, RW. -/
def PROBE_CFG_r_en : Fld := ⟨R.PROBE_CFG, 6, 6⟩
/-- `PROBE_CFG.v_en`, RW. -/
def PROBE_CFG_v_en : Fld := ⟨R.PROBE_CFG, 5, 5⟩
/-- `PROBE_CFG.f_en`, RW. -/
def PROBE_CFG_f_en : Fld := ⟨R.PROBE_CFG, 4, 4⟩
/-- `PROBE_CFG.form_act`, RW. -/
def PROBE_CFG_form_act : Fld := ⟨R.PROBE_CFG, 1, 1⟩
/-- `PROBE_CFG.vsrc`, RW. -/
def PROBE_CFG_vsrc : Fld := ⟨R.PROBE_CFG, 0, 0⟩
/-- `PROBE_STAT.weak_inj`, RO. -/
def PROBE_STAT_weak_inj : Fld := ⟨R.PROBE_STAT, 5, 5⟩
/-- `PROBE_STAT.island`, RO. -/
def PROBE_STAT_island : Fld := ⟨R.PROBE_STAT, 4, 4⟩
/-- `PROBE_STAT.est_valid`, RO. -/
def PROBE_STAT_est_valid : Fld := ⟨R.PROBE_STAT, 3, 3⟩
/-- `PROBE_STAT.z_valid`, RO. -/
def PROBE_STAT_z_valid : Fld := ⟨R.PROBE_STAT, 2, 2⟩
/-- `PROBE_STAT.listen`, RO. -/
def PROBE_STAT_listen : Fld := ⟨R.PROBE_STAT, 1, 1⟩
/-- `PROBE_STAT.inject`, RO. -/
def PROBE_STAT_inject : Fld := ⟨R.PROBE_STAT, 0, 0⟩
/-- `PROBE_EVENT.ovf`, W1C. -/
def PROBE_EVENT_ovf : Fld := ⟨R.PROBE_EVENT, 7, 7⟩
/-- `PROBE_EVENT.z_valid`, W1C. -/
def PROBE_EVENT_z_valid : Fld := ⟨R.PROBE_EVENT, 6, 6⟩
/-- `PROBE_EVENT.assign_bad`, W1C. -/
def PROBE_EVENT_assign_bad : Fld := ⟨R.PROBE_EVENT, 5, 5⟩
/-- `PROBE_EVENT.weak_inj`, W1C. -/
def PROBE_EVENT_weak_inj : Fld := ⟨R.PROBE_EVENT, 4, 4⟩
/-- `PROBE_EVENT.clash`, W1C. -/
def PROBE_EVENT_clash : Fld := ⟨R.PROBE_EVENT, 3, 3⟩
/-- `PROBE_EVENT.code_change`, W1C. -/
def PROBE_EVENT_code_change : Fld := ⟨R.PROBE_EVENT, 2, 2⟩
/-- `PROBE_EVENT.rephase`, W1C. -/
def PROBE_EVENT_rephase : Fld := ⟨R.PROBE_EVENT, 1, 1⟩
/-- `PROBE_EVENT.island`, W1C. -/
def PROBE_EVENT_island : Fld := ⟨R.PROBE_EVENT, 0, 0⟩
/-- `PROBE_CODE.index`, RW. -/
def PROBE_CODE_index : Fld := ⟨R.PROBE_CODE, 10, 0⟩
/-- `PROBE_CHIP.neg`, RO. -/
def PROBE_CHIP_neg : Fld := ⟨R.PROBE_CHIP, 16, 16⟩
/-- `PROBE_CHIP.phase`, RO. -/
def PROBE_CHIP_phase : Fld := ⟨R.PROBE_CHIP, 9, 0⟩
/-- `PROBE_ASSIGN.node`, RW. -/
def PROBE_ASSIGN_node : Fld := ⟨R.PROBE_ASSIGN, 15, 8⟩
/-- `PROBE_ASSIGN.can`, RW. -/
def PROBE_ASSIGN_can : Fld := ⟨R.PROBE_ASSIGN, 2, 1⟩
/-- `PROBE_ASSIGN.en`, RW. -/
def PROBE_ASSIGN_en : Fld := ⟨R.PROBE_ASSIGN, 0, 0⟩
/-- `PROBE_ASSIGN_ID.ide`, RW. -/
def PROBE_ASSIGN_ID_ide : Fld := ⟨R.PROBE_ASSIGN_ID, 31, 31⟩
/-- `PROBE_ASSIGN_ID.id`, RW. -/
def PROBE_ASSIGN_ID_id : Fld := ⟨R.PROBE_ASSIGN_ID, 28, 0⟩
/-- `PROBE_PHASE_CMD.go`, W1S. -/
def PROBE_PHASE_CMD_go : Fld := ⟨R.PROBE_PHASE_CMD, 31, 31⟩
/-- `PROBE_PHASE_CMD.relearn`, RW. -/
def PROBE_PHASE_CMD_relearn : Fld := ⟨R.PROBE_PHASE_CMD, 16, 16⟩
/-- `PROBE_PHASE_CMD.phase`, RW. -/
def PROBE_PHASE_CMD_phase : Fld := ⟨R.PROBE_PHASE_CMD, 9, 0⟩
/-- `PROBE_ISL_CAUSE.cause`, RO. -/
def PROBE_ISL_CAUSE_cause : Fld := ⟨R.PROBE_ISL_CAUSE, 4, 0⟩
/-- `PROBE_F_MS.ms`, RW. -/
def PROBE_F_MS_ms : Fld := ⟨R.PROBE_F_MS, 15, 0⟩
/-- `PROBE_V_MS.ms`, RW. -/
def PROBE_V_MS_ms : Fld := ⟨R.PROBE_V_MS, 15, 0⟩
/-- `PROBE_R_MS.ms`, RW. -/
def PROBE_R_MS_ms : Fld := ⟨R.PROBE_R_MS, 15, 0⟩
/-- `METER_CTL.compat_pt`, RW. -/
def METER_CTL_compat_pt : Fld := ⟨R.METER_CTL, 8, 8⟩
/-- `METER_CTL.en`, RW. -/
def METER_CTL_en : Fld := ⟨R.METER_CTL, 1, 0⟩
/-- `METER_PT_CFG.neut_en`, RW. -/
def METER_PT_CFG_neut_en (i : Nat) : Fld := ⟨R.METER_PT_CFG i, 16, 16⟩
/-- `METER_PT_CFG.ncyc`, RW. -/
def METER_PT_CFG_ncyc (i : Nat) : Fld := ⟨R.METER_PT_CFG i, 13, 8⟩
/-- `METER_PT_CFG.wiring`, RO. -/
def METER_PT_CFG_wiring (i : Nat) : Fld := ⟨R.METER_PT_CFG i, 1, 1⟩
/-- `METER_PT_CFG.form`, RO. -/
def METER_PT_CFG_form (i : Nat) : Fld := ⟨R.METER_PT_CFG i, 0, 0⟩
/-- `METER_PT_STAT.creep_ph`, RO. -/
def METER_PT_STAT_creep_ph (i : Nat) : Fld := ⟨R.METER_PT_STAT i, 13, 11⟩
/-- `METER_PT_STAT.creep`, RO. -/
def METER_PT_STAT_creep (i : Nat) : Fld := ⟨R.METER_PT_STAT i, 10, 10⟩
/-- `METER_PT_STAT.no_freq`, RO. -/
def METER_PT_STAT_no_freq (i : Nat) : Fld := ⟨R.METER_PT_STAT i, 9, 9⟩
/-- `METER_PT_STAT.neutral_undet`, RO. -/
def METER_PT_STAT_neutral_undet (i : Nat) : Fld := ⟨R.METER_PT_STAT i, 8, 8⟩
/-- `METER_PT_STAT.neutral`, RO. -/
def METER_PT_STAT_neutral (i : Nat) : Fld := ⟨R.METER_PT_STAT i, 7, 7⟩
/-- `METER_PT_STAT.seq_wrong`, RO. -/
def METER_PT_STAT_seq_wrong (i : Nat) : Fld := ⟨R.METER_PT_STAT i, 6, 6⟩
/-- `METER_PT_STAT.suspect`, RO. -/
def METER_PT_STAT_suspect (i : Nat) : Fld := ⟨R.METER_PT_STAT i, 5, 5⟩
/-- `METER_PT_STAT.unlocked`, RO. -/
def METER_PT_STAT_unlocked (i : Nat) : Fld := ⟨R.METER_PT_STAT i, 4, 4⟩
/-- `METER_PT_STAT.coast`, RO. -/
def METER_PT_STAT_coast (i : Nat) : Fld := ⟨R.METER_PT_STAT i, 2, 2⟩
/-- `METER_PT_EVENT.ovf`, W1C. -/
def METER_PT_EVENT_ovf (i : Nat) : Fld := ⟨R.METER_PT_EVENT i, 9, 9⟩
/-- `METER_PT_EVENT.gap`, W1C. -/
def METER_PT_EVENT_gap (i : Nat) : Fld := ⟨R.METER_PT_EVENT i, 8, 8⟩
/-- `METER_PT_EVENT.suspect`, W1C. -/
def METER_PT_EVENT_suspect (i : Nat) : Fld := ⟨R.METER_PT_EVENT i, 7, 7⟩
/-- `METER_PT_EVENT.neutral`, W1C. -/
def METER_PT_EVENT_neutral (i : Nat) : Fld := ⟨R.METER_PT_EVENT i, 6, 6⟩
/-- `METER_PT_EVENT.seq_wrong`, W1C. -/
def METER_PT_EVENT_seq_wrong (i : Nat) : Fld := ⟨R.METER_PT_EVENT i, 5, 5⟩
/-- `METER_PT_EVENT.creep_off`, W1C. -/
def METER_PT_EVENT_creep_off (i : Nat) : Fld := ⟨R.METER_PT_EVENT i, 4, 4⟩
/-- `METER_PT_EVENT.creep_on`, W1C. -/
def METER_PT_EVENT_creep_on (i : Nat) : Fld := ⟨R.METER_PT_EVENT i, 3, 3⟩
/-- `METER_PT_EVENT.wrap`, W1C. -/
def METER_PT_EVENT_wrap (i : Nat) : Fld := ⟨R.METER_PT_EVENT i, 2, 2⟩
/-- `METER_PT_EVENT.window`, W1C. -/
def METER_PT_EVENT_window (i : Nat) : Fld := ⟨R.METER_PT_EVENT i, 0, 0⟩
/-- `CHNT_STAT.debug_halted`, RO. -/
def CHNT_STAT_debug_halted : Fld := ⟨R.CHNT_STAT, 4, 4⟩
/-- `CHNT_STAT.parked`, RO. -/
def CHNT_STAT_parked : Fld := ⟨R.CHNT_STAT, 3, 3⟩
/-- `CHNT_STAT.sweeping`, RO. -/
def CHNT_STAT_sweeping : Fld := ⟨R.CHNT_STAT, 2, 2⟩
/-- `CHNT_STAT.running`, RO. -/
def CHNT_STAT_running : Fld := ⟨R.CHNT_STAT, 1, 1⟩
/-- `CHNT_STAT.lockstep_broken`, RO. -/
def CHNT_STAT_lockstep_broken : Fld := ⟨R.CHNT_STAT, 0, 0⟩
/-- `CHNT_EVENT.sweep_short`, W1C. -/
def CHNT_EVENT_sweep_short : Fld := ⟨R.CHNT_EVENT, 3, 3⟩
/-- `CHNT_EVENT.ecc_fix`, W1C. -/
def CHNT_EVENT_ecc_fix : Fld := ⟨R.CHNT_EVENT, 2, 2⟩
/-- `CHNT_EVENT.selftest_end`, W1C. -/
def CHNT_EVENT_selftest_end : Fld := ⟨R.CHNT_EVENT, 1, 1⟩
/-- `CHNT_EVENT.broken`, W1C. -/
def CHNT_EVENT_broken : Fld := ⟨R.CHNT_EVENT, 0, 0⟩
/-- `CHNT_LS_INFO.segment`, RO. -/
def CHNT_LS_INFO_segment : Fld := ⟨R.CHNT_LS_INFO, 10, 8⟩
/-- `CHNT_LS_INFO.cause`, RO. -/
def CHNT_LS_INFO_cause : Fld := ⟨R.CHNT_LS_INFO, 2, 0⟩
/-- `CHNT_ST_STAT.st_fail`, RO. -/
def CHNT_ST_STAT_st_fail : Fld := ⟨R.CHNT_ST_STAT, 9, 9⟩
/-- `CHNT_ST_STAT.st_done`, RO. -/
def CHNT_ST_STAT_st_done : Fld := ⟨R.CHNT_ST_STAT, 8, 8⟩
/-- `CHNT_ST_STAT.seg_pass`, RO. -/
def CHNT_ST_STAT_seg_pass : Fld := ⟨R.CHNT_ST_STAT, 7, 0⟩
/-- `CHNT_SWEEP_STAT.words`, RO. -/
def CHNT_SWEEP_STAT_words : Fld := ⟨R.CHNT_SWEEP_STAT, 23, 16⟩
/-- `CHNT_SWEEP_CFG.limit_ms`, RW. -/
def CHNT_SWEEP_CFG_limit_ms : Fld := ⟨R.CHNT_SWEEP_CFG, 6, 0⟩
/-- `DRONE_STAT.energised`, RO. -/
def DRONE_STAT_energised : Fld := ⟨R.DRONE_STAT, 15, 12⟩
/-- `DRONE_STAT.mode_stale`, RO. -/
def DRONE_STAT_mode_stale : Fld := ⟨R.DRONE_STAT, 7, 7⟩
/-- `DRONE_STAT.mode`, RO. -/
def DRONE_STAT_mode : Fld := ⟨R.DRONE_STAT, 6, 4⟩
/-- `DRONE_STAT.relaxed`, RO. -/
def DRONE_STAT_relaxed : Fld := ⟨R.DRONE_STAT, 3, 3⟩
/-- `DRONE_STAT.svckey`, RO. -/
def DRONE_STAT_svckey : Fld := ⟨R.DRONE_STAT, 2, 2⟩
/-- `DRONE_STAT.forced_off`, RO. -/
def DRONE_STAT_forced_off : Fld := ⟨R.DRONE_STAT, 1, 1⟩
/-- `DRONE_STAT.accepted`, RO. -/
def DRONE_STAT_accepted : Fld := ⟨R.DRONE_STAT, 0, 0⟩
/-- `DRONE_FAULT.wd_kind`, RO. -/
def DRONE_FAULT_wd_kind : Fld := ⟨R.DRONE_FAULT, 17, 16⟩
/-- `DRONE_FAULT.stuck`, RO. -/
def DRONE_FAULT_stuck : Fld := ⟨R.DRONE_FAULT, 15, 12⟩
/-- `DRONE_FAULT.line`, RO. -/
def DRONE_FAULT_line : Fld := ⟨R.DRONE_FAULT, 3, 3⟩
/-- `DRONE_FAULT.param`, RO. -/
def DRONE_FAULT_param : Fld := ⟨R.DRONE_FAULT, 2, 2⟩
/-- `DRONE_FAULT.clock`, RO. -/
def DRONE_FAULT_clock : Fld := ⟨R.DRONE_FAULT, 1, 1⟩
/-- `DRONE_FAULT.wd`, RO. -/
def DRONE_FAULT_wd : Fld := ⟨R.DRONE_FAULT, 0, 0⟩
/-- `DRONE_TP.running`, RO. -/
def DRONE_TP_running : Fld := ⟨R.DRONE_TP, 8, 8⟩
/-- `DRONE_TP.next`, RO. -/
def DRONE_TP_next : Fld := ⟨R.DRONE_TP, 2, 0⟩
/-- `DRONE_WD.expect`, RO. -/
def DRONE_WD_expect : Fld := ⟨R.DRONE_WD, 17, 17⟩
/-- `DRONE_WD.armed`, RO. -/
def DRONE_WD_armed : Fld := ⟨R.DRONE_WD, 16, 16⟩
/-- `SYS_DRONE_EVENT.release`, W1C. -/
def SYS_DRONE_EVENT_release : Fld := ⟨R.SYS_DRONE_EVENT, 6, 6⟩
/-- `SYS_DRONE_EVENT.svckey`, W1C. -/
def SYS_DRONE_EVENT_svckey : Fld := ⟨R.SYS_DRONE_EVENT, 5, 5⟩
/-- `SYS_DRONE_EVENT.round_done`, W1C. -/
def SYS_DRONE_EVENT_round_done : Fld := ⟨R.SYS_DRONE_EVENT, 4, 4⟩
/-- `SYS_DRONE_EVENT.tp_inconc`, W1C. -/
def SYS_DRONE_EVENT_tp_inconc : Fld := ⟨R.SYS_DRONE_EVENT, 3, 3⟩
/-- `SYS_DRONE_EVENT.tp_fail`, W1C. -/
def SYS_DRONE_EVENT_tp_fail : Fld := ⟨R.SYS_DRONE_EVENT, 2, 2⟩
/-- `SYS_DRONE_EVENT.fault`, W1C. -/
def SYS_DRONE_EVENT_fault : Fld := ⟨R.SYS_DRONE_EVENT, 1, 1⟩
/-- `SYS_DRONE_EVENT.demand`, W1C. -/
def SYS_DRONE_EVENT_demand : Fld := ⟨R.SYS_DRONE_EVENT, 0, 0⟩
/-- `SYS_SOL.on`, RW. -/
def SYS_SOL_on : Fld := ⟨R.SYS_SOL, 3, 0⟩
/-- `SYS_DRONE_RSTAT.result`, RO. -/
def SYS_DRONE_RSTAT_result : Fld := ⟨R.SYS_DRONE_RSTAT, 3, 0⟩
/-- `PAIR_STAT.result`, RO. -/
def PAIR_STAT_result : Fld := ⟨R.PAIR_STAT, 31, 24⟩
/-- `PAIR_STAT.busy`, RO. -/
def PAIR_STAT_busy : Fld := ⟨R.PAIR_STAT, 7, 7⟩
/-- `PAIR_STAT.degraded`, RO. -/
def PAIR_STAT_degraded : Fld := ⟨R.PAIR_STAT, 6, 6⟩
/-- `PAIR_STAT.lanes`, RO. -/
def PAIR_STAT_lanes : Fld := ⟨R.PAIR_STAT, 5, 4⟩
/-- `PAIR_STAT.peer_ok`, RO. -/
def PAIR_STAT_peer_ok : Fld := ⟨R.PAIR_STAT, 3, 3⟩
/-- `PAIR_STAT.peerrole`, RO. -/
def PAIR_STAT_peerrole : Fld := ⟨R.PAIR_STAT, 2, 2⟩
/-- `PAIR_STAT.role`, RO. -/
def PAIR_STAT_role : Fld := ⟨R.PAIR_STAT, 1, 0⟩
/-- `PAIR_CFG.auto_sync`, RW. -/
def PAIR_CFG_auto_sync : Fld := ⟨R.PAIR_CFG, 0, 0⟩
/-- `PAIR_EVENT.slow`, W1C. -/
def PAIR_EVENT_slow : Fld := ⟨R.PAIR_EVENT, 4, 4⟩
/-- `PAIR_EVENT.link_lost`, W1C. -/
def PAIR_EVENT_link_lost : Fld := ⟨R.PAIR_EVENT, 3, 3⟩
/-- `PAIR_EVENT.peer_lost`, W1C. -/
def PAIR_EVENT_peer_lost : Fld := ⟨R.PAIR_EVENT, 2, 2⟩
/-- `PAIR_EVENT.takeover`, W1C. -/
def PAIR_EVENT_takeover : Fld := ⟨R.PAIR_EVENT, 1, 1⟩
/-- `PAIR_EVENT.done`, W1C. -/
def PAIR_EVENT_done : Fld := ⟨R.PAIR_EVENT, 0, 0⟩
/-- `PAIR_MIR_LOAD.bytes_us`, RO. -/
def PAIR_MIR_LOAD_bytes_us : Fld := ⟨R.PAIR_MIR_LOAD, 15, 0⟩
/-- `CAN_NT_CFG.brs`, RW. -/
def CAN_NT_CFG_brs : Fld := ⟨R.CAN_NT_CFG, 4, 4⟩
/-- `CAN_NT_CFG.ctrl`, RW. -/
def CAN_NT_CFG_ctrl : Fld := ⟨R.CAN_NT_CFG, 3, 2⟩
/-- `CAN_NT_CFG.role`, RW. -/
def CAN_NT_CFG_role : Fld := ⟨R.CAN_NT_CFG, 1, 0⟩
/-- `CAN_NT_ID.ide`, RW. -/
def CAN_NT_ID_ide : Fld := ⟨R.CAN_NT_ID, 31, 31⟩
/-- `CAN_NT_ID.id`, RW. -/
def CAN_NT_ID_id : Fld := ⟨R.CAN_NT_ID, 28, 0⟩
/-- `CAN_NT_PERIOD.ms`, RW. -/
def CAN_NT_PERIOD_ms : Fld := ⟨R.CAN_NT_PERIOD, 6, 0⟩
/-- `CAN_NT_STAT.result`, RO. -/
def CAN_NT_STAT_result : Fld := ⟨R.CAN_NT_STAT, 31, 28⟩
/-- `CAN_NT_STAT.seq`, RO. -/
def CAN_NT_STAT_seq : Fld := ⟨R.CAN_NT_STAT, 15, 8⟩
/-- `CAN_NT_STAT.nt_sync`, RO. -/
def CAN_NT_STAT_nt_sync : Fld := ⟨R.CAN_NT_STAT, 2, 2⟩
/-- `CAN_NT_STAT.state`, RO. -/
def CAN_NT_STAT_state : Fld := ⟨R.CAN_NT_STAT, 1, 0⟩
/-- `CAN_NT_EVENT.conflict`, W1C. -/
def CAN_NT_EVENT_conflict : Fld := ⟨R.CAN_NT_EVENT, 4, 4⟩
/-- `CAN_NT_EVENT.ref_late`, W1C. -/
def CAN_NT_EVENT_ref_late : Fld := ⟨R.CAN_NT_EVENT, 3, 3⟩
/-- `CAN_NT_EVENT.step`, W1C. -/
def CAN_NT_EVENT_step : Fld := ⟨R.CAN_NT_EVENT, 2, 2⟩
/-- `CAN_NT_EVENT.unlock`, W1C. -/
def CAN_NT_EVENT_unlock : Fld := ⟨R.CAN_NT_EVENT, 1, 1⟩
/-- `CAN_NT_EVENT.lock`, W1C. -/
def CAN_NT_EVENT_lock : Fld := ⟨R.CAN_NT_EVENT, 0, 0⟩
/-- `CAN_NT_SNAP.wrap`, SNAP. -/
def CAN_NT_SNAP_wrap : Fld := ⟨R.CAN_NT_SNAP, 7, 0⟩
/-- `CAN_NT_TOL.step_ns`, RW. -/
def CAN_NT_TOL_step_ns : Fld := ⟨R.CAN_NT_TOL, 31, 16⟩
/-- `CAN_NT_TOL.lock_ns`, RW. -/
def CAN_NT_TOL_lock_ns : Fld := ⟨R.CAN_NT_TOL, 15, 0⟩
/-- `CAN_CTL.recover`, W1S. -/
def CAN_CTL_recover (k : Nat) : Fld := ⟨R.CAN_CTL k, 10, 10⟩
/-- `CAN_CTL.boff_auto`, RW. -/
def CAN_CTL_boff_auto (k : Nat) : Fld := ⟨R.CAN_CTL k, 9, 9⟩
/-- `CAN_CTL.pex_dis`, RW. -/
def CAN_CTL_pex_dis (k : Nat) : Fld := ⟨R.CAN_CTL k, 8, 8⟩
/-- `CAN_CTL.wake_cpu`, RW. -/
def CAN_CTL_wake_cpu (k : Nat) : Fld := ⟨R.CAN_CTL k, 7, 7⟩
/-- `CAN_CTL.wake_mode`, RW. -/
def CAN_CTL_wake_mode (k : Nat) : Fld := ⟨R.CAN_CTL k, 6, 5⟩
/-- `CAN_CTL.stb_sleep`, RW. -/
def CAN_CTL_stb_sleep (k : Nat) : Fld := ⟨R.CAN_CTL k, 4, 4⟩
/-- `CAN_CTL.mode`, RW. -/
def CAN_CTL_mode (k : Nat) : Fld := ⟨R.CAN_CTL k, 2, 1⟩
/-- `CAN_CTL.en`, RW. -/
def CAN_CTL_en (k : Nat) : Fld := ⟨R.CAN_CTL k, 0, 0⟩
/-- `CAN_STAT.result`, RO. -/
def CAN_STAT_result (k : Nat) : Fld := ⟨R.CAN_STAT k, 31, 28⟩
/-- `CAN_STAT.fifo_lvl`, RO. -/
def CAN_STAT_fifo_lvl (k : Nat) : Fld := ⟨R.CAN_STAT k, 13, 8⟩
/-- `CAN_STAT.tx_busy`, RO. -/
def CAN_STAT_tx_busy (k : Nat) : Fld := ⟨R.CAN_STAT k, 4, 4⟩
/-- `CAN_STAT.state`, RO. -/
def CAN_STAT_state (k : Nat) : Fld := ⟨R.CAN_STAT k, 2, 0⟩
/-- `CAN_EVENT.pex`, W1C. -/
def CAN_EVENT_pex (k : Nat) : Fld := ⟨R.CAN_EVENT k, 11, 11⟩
/-- `CAN_EVENT.data_biterr`, W1C. -/
def CAN_EVENT_data_biterr (k : Nat) : Fld := ⟨R.CAN_EVENT k, 10, 10⟩
/-- `CAN_EVENT.wake`, W1C. -/
def CAN_EVENT_wake (k : Nat) : Fld := ⟨R.CAN_EVENT k, 9, 9⟩
/-- `CAN_EVENT.bus_on`, W1C. -/
def CAN_EVENT_bus_on (k : Nat) : Fld := ⟨R.CAN_EVENT k, 8, 8⟩
/-- `CAN_EVENT.bus_off`, W1C. -/
def CAN_EVENT_bus_off (k : Nat) : Fld := ⟨R.CAN_EVENT k, 7, 7⟩
/-- `CAN_EVENT.err_passive`, W1C. -/
def CAN_EVENT_err_passive (k : Nat) : Fld := ⟨R.CAN_EVENT k, 6, 6⟩
/-- `CAN_EVENT.err_warn`, W1C. -/
def CAN_EVENT_err_warn (k : Nat) : Fld := ⟨R.CAN_EVENT k, 5, 5⟩
/-- `CAN_EVENT.fifo_ovr`, W1C. -/
def CAN_EVENT_fifo_ovr (k : Nat) : Fld := ⟨R.CAN_EVENT k, 4, 4⟩
/-- `CAN_EVENT.fifo`, W1C. -/
def CAN_EVENT_fifo (k : Nat) : Fld := ⟨R.CAN_EVENT k, 3, 3⟩
/-- `CAN_EVENT.rx`, W1C. -/
def CAN_EVENT_rx (k : Nat) : Fld := ⟨R.CAN_EVENT k, 2, 2⟩
/-- `CAN_EVENT.tx_cancel`, W1C. -/
def CAN_EVENT_tx_cancel (k : Nat) : Fld := ⟨R.CAN_EVENT k, 1, 1⟩
/-- `CAN_EVENT.tx_done`, W1C. -/
def CAN_EVENT_tx_done (k : Nat) : Fld := ⟨R.CAN_EVENT k, 0, 0⟩
/-- `CAN_NBT.sjw`, RW. -/
def CAN_NBT_sjw (k : Nat) : Fld := ⟨R.CAN_NBT k, 31, 24⟩
/-- `CAN_NBT.tseg2`, RW. -/
def CAN_NBT_tseg2 (k : Nat) : Fld := ⟨R.CAN_NBT k, 23, 16⟩
/-- `CAN_NBT.tseg1`, RW. -/
def CAN_NBT_tseg1 (k : Nat) : Fld := ⟨R.CAN_NBT k, 15, 7⟩
/-- `CAN_NBT.brp`, RW. -/
def CAN_NBT_brp (k : Nat) : Fld := ⟨R.CAN_NBT k, 5, 0⟩
/-- `CAN_DBT.sjw`, RW. -/
def CAN_DBT_sjw (k : Nat) : Fld := ⟨R.CAN_DBT k, 28, 24⟩
/-- `CAN_DBT.tseg2`, RW. -/
def CAN_DBT_tseg2 (k : Nat) : Fld := ⟨R.CAN_DBT k, 20, 16⟩
/-- `CAN_DBT.tseg1`, RW. -/
def CAN_DBT_tseg1 (k : Nat) : Fld := ⟨R.CAN_DBT k, 13, 8⟩
/-- `CAN_DBT.brp`, RW. -/
def CAN_DBT_brp (k : Nat) : Fld := ⟨R.CAN_DBT k, 5, 0⟩
/-- `CAN_TDC.meas`, RO. -/
def CAN_TDC_meas (k : Nat) : Fld := ⟨R.CAN_TDC k, 23, 16⟩
/-- `CAN_TDC.en`, RW. -/
def CAN_TDC_en (k : Nat) : Fld := ⟨R.CAN_TDC k, 0, 0⟩
/-- `CAN_ERR.last`, RO. -/
def CAN_ERR_last (k : Nat) : Fld := ⟨R.CAN_ERR k, 18, 16⟩
/-- `CAN_ERR.rec`, RO. -/
def CAN_ERR_rec (k : Nat) : Fld := ⟨R.CAN_ERR k, 15, 8⟩
/-- `CAN_ERR.tec`, RO. -/
def CAN_ERR_tec (k : Nat) : Fld := ⟨R.CAN_ERR k, 7, 0⟩
/-- `CAN_WAKE_CFG.dlc`, RW. -/
def CAN_WAKE_CFG_dlc (k : Nat) : Fld := ⟨R.CAN_WAKE_CFG k, 3, 0⟩
/-- `CAN_WAKE_CFG.filt`, RW. -/
def CAN_WAKE_CFG_filt (k : Nat) : Fld := ⟨R.CAN_WAKE_CFG k, 13, 8⟩
/-- `CAN_RXF_CTL.en`, RW. -/
def CAN_RXF_CTL_en (k : Nat) : Fld := ⟨R.CAN_RXF_CTL k, 0, 0⟩
/-- `CAN_MB_CFG.done`, W1C. -/
def CAN_MB_CFG_done (k b : Nat) : Fld := ⟨R.CAN_MB_CFG k b, 19, 19⟩
/-- `CAN_MB_CFG.lost`, W1C. -/
def CAN_MB_CFG_lost (k b : Nat) : Fld := ⟨R.CAN_MB_CFG k b, 18, 18⟩
/-- `CAN_MB_CFG.new`, W1C. -/
def CAN_MB_CFG_new (k b : Nat) : Fld := ⟨R.CAN_MB_CFG k b, 17, 17⟩
/-- `CAN_MB_CFG.pend`, RO. -/
def CAN_MB_CFG_pend (k b : Nat) : Fld := ⟨R.CAN_MB_CFG k b, 16, 16⟩
/-- `CAN_MB_CFG.fdf`, RW. -/
def CAN_MB_CFG_fdf (k b : Nat) : Fld := ⟨R.CAN_MB_CFG k b, 4, 4⟩
/-- `CAN_MB_CFG.retry`, RW. -/
def CAN_MB_CFG_retry (k b : Nat) : Fld := ⟨R.CAN_MB_CFG k b, 3, 3⟩
/-- `CAN_MB_CFG.dir`, RW. -/
def CAN_MB_CFG_dir (k b : Nat) : Fld := ⟨R.CAN_MB_CFG k b, 1, 0⟩
/-- `CAN_MB_ID.ide`, RW. -/
def CAN_MB_ID_ide (k b : Nat) : Fld := ⟨R.CAN_MB_ID k b, 31, 31⟩
/-- `CAN_MB_ID.id`, RW. -/
def CAN_MB_ID_id (k b : Nat) : Fld := ⟨R.CAN_MB_ID k b, 28, 0⟩
/-- `HOST_IRQ_ROUTE.en`, RW. -/
def HOST_IRQ_ROUTE_en (src : Nat) : Fld := ⟨R.HOST_IRQ_ROUTE src, 8, 8⟩
/-- `HOST_IRQ_ROUTE.vec`, RW. -/
def HOST_IRQ_ROUTE_vec (src : Nat) : Fld := ⟨R.HOST_IRQ_ROUTE src, 4, 0⟩
/-- `HOST_VEC_ACK.pending`, RO. -/
def HOST_VEC_ACK_pending (v : Nat) : Fld := ⟨R.HOST_VEC_ACK v, 9, 9⟩
/-- `HOST_MSIX_CTRL.mask`, RW. -/
def HOST_MSIX_CTRL_mask (v : Nat) : Fld := ⟨R.HOST_MSIX_CTRL v, 0, 0⟩
/-- `MEMC_CFG.size`, RO. -/
def MEMC_CFG_size : Fld := ⟨R.MEMC_CFG, 9, 8⟩
/-- `MEMC_CFG.rate`, RW. -/
def MEMC_CFG_rate : Fld := ⟨R.MEMC_CFG, 1, 0⟩
/-- `MEMC_STAT.mem_fail`, W1C. -/
def MEMC_STAT_mem_fail : Fld := ⟨R.MEMC_STAT, 1, 1⟩
/-- `MEMC_STAT.ready`, RO. -/
def MEMC_STAT_ready : Fld := ⟨R.MEMC_STAT, 0, 0⟩
/-- `QSPI_CFG.size`, RW. -/
def QSPI_CFG_size : Fld := ⟨R.QSPI_CFG, 12, 8⟩
/-- `QSPI_CFG.mode`, RW. -/
def QSPI_CFG_mode : Fld := ⟨R.QSPI_CFG, 1, 0⟩
/-- `QSPI_ADDR.addr`, RW. -/
def QSPI_ADDR_addr : Fld := ⟨R.QSPI_ADDR, 27, 0⟩
/-- `QSPI_STAT.result`, RO. -/
def QSPI_STAT_result : Fld := ⟨R.QSPI_STAT, 31, 24⟩
/-- `QSPI_STAT.done_pages`, RO. -/
def QSPI_STAT_done_pages : Fld := ⟨R.QSPI_STAT, 14, 8⟩
/-- `QSPI_STAT.busy`, RO. -/
def QSPI_STAT_busy : Fld := ⟨R.QSPI_STAT, 0, 0⟩
/-- `REC_CTL.en`, RW. -/
def REC_CTL_en : Fld := ⟨R.REC_CTL, 0, 0⟩
/-- `REC_STAT.result`, RO. -/
def REC_STAT_result : Fld := ⟨R.REC_STAT, 11, 8⟩
/-- `REC_STAT.region`, RO. -/
def REC_STAT_region : Fld := ⟨R.REC_STAT, 6, 4⟩
/-- `REC_STAT.running`, RO. -/
def REC_STAT_running : Fld := ⟨R.REC_STAT, 0, 0⟩
/-- `REC_TRIG_MASK.mask`, RW. -/
def REC_TRIG_MASK_mask : Fld := ⟨R.REC_TRIG_MASK, 6, 0⟩
/-- `REC_EVENT.drop`, W1C. -/
def REC_EVENT_drop : Fld := ⟨R.REC_EVENT, 3, 3⟩
/-- `REC_EVENT.no_region`, W1C. -/
def REC_EVENT_no_region : Fld := ⟨R.REC_EVENT, 2, 2⟩
/-- `REC_EVENT.full`, W1C. -/
def REC_EVENT_full : Fld := ⟨R.REC_EVENT, 1, 1⟩
/-- `REC_EVENT.trig`, W1C. -/
def REC_EVENT_trig : Fld := ⟨R.REC_EVENT, 0, 0⟩
/-- `REC_REG_STAT.state`, RO. -/
def REC_REG_STAT_state (r : Nat) : Fld := ⟨R.REC_REG_STAT r, 1, 0⟩
/-- `REC_SLOT_CFG.used`, RO. -/
def REC_SLOT_CFG_used (s : Nat) : Fld := ⟨R.REC_SLOT_CFG s, 31, 31⟩
/-- `REC_SLOT_CFG.d`, RO. -/
def REC_SLOT_CFG_d (s : Nat) : Fld := ⟨R.REC_SLOT_CFG s, 25, 16⟩
/-- `REC_SLOT_CFG.kind`, RO. -/
def REC_SLOT_CFG_kind (s : Nat) : Fld := ⟨R.REC_SLOT_CFG s, 28, 26⟩
/-- `REC_SLOT_CFG.index`, RO. -/
def REC_SLOT_CFG_index (s : Nat) : Fld := ⟨R.REC_SLOT_CFG s, 15, 0⟩
/-- `BOOT_STAT.result`, RO. -/
def BOOT_STAT_result : Fld := ⟨R.BOOT_STAT, 31, 24⟩
/-- `BOOT_STAT.fing_result`, RO. -/
def BOOT_STAT_fing_result : Fld := ⟨R.BOOT_STAT, 23, 16⟩
/-- `BOOT_STAT.bootsel`, RO. -/
def BOOT_STAT_bootsel : Fld := ⟨R.BOOT_STAT, 9, 8⟩
/-- `BOOT_STAT.state`, RO. -/
def BOOT_STAT_state : Fld := ⟨R.BOOT_STAT, 2, 0⟩
/-- `BOOT_EVENT.confirm_done`, W1C. -/
def BOOT_EVENT_confirm_done : Fld := ⟨R.BOOT_EVENT, 5, 5⟩
/-- `BOOT_EVENT.upd_fail`, W1C. -/
def BOOT_EVENT_upd_fail : Fld := ⟨R.BOOT_EVENT, 4, 4⟩
/-- `BOOT_EVENT.upd_done`, W1C. -/
def BOOT_EVENT_upd_done : Fld := ⟨R.BOOT_EVENT, 3, 3⟩
/-- `BOOT_EVENT.block_done`, W1C. -/
def BOOT_EVENT_block_done : Fld := ⟨R.BOOT_EVENT, 2, 2⟩
/-- `BOOT_EVENT.boot_fail`, W1C. -/
def BOOT_EVENT_boot_fail : Fld := ⟨R.BOOT_EVENT, 1, 1⟩
/-- `BOOT_EVENT.fw_start`, W1C. -/
def BOOT_EVENT_fw_start : Fld := ⟨R.BOOT_EVENT, 0, 0⟩
/-- `BOOT_SET_STAT.fw_fmt`, RO. -/
def BOOT_SET_STAT_fw_fmt : Fld := ⟨R.BOOT_SET_STAT, 31, 16⟩
/-- `BOOT_SET_STAT.active_ok`, RO. -/
def BOOT_SET_STAT_active_ok : Fld := ⟨R.BOOT_SET_STAT, 3, 3⟩
/-- `BOOT_SET_STAT.active`, RO. -/
def BOOT_SET_STAT_active : Fld := ⟨R.BOOT_SET_STAT, 2, 2⟩
/-- `BOOT_SET_STAT.valid_b`, RO. -/
def BOOT_SET_STAT_valid_b : Fld := ⟨R.BOOT_SET_STAT, 1, 1⟩
/-- `BOOT_SET_STAT.valid_a`, RO. -/
def BOOT_SET_STAT_valid_a : Fld := ⟨R.BOOT_SET_STAT, 0, 0⟩
/-- `BOOT_SET_FMT.b`, RO. -/
def BOOT_SET_FMT_b : Fld := ⟨R.BOOT_SET_FMT, 31, 16⟩
/-- `BOOT_SET_FMT.a`, RO. -/
def BOOT_SET_FMT_a : Fld := ⟨R.BOOT_SET_FMT, 15, 0⟩
/-- `BOOT_UPD_STAT.result`, RO. -/
def BOOT_UPD_STAT_result : Fld := ⟨R.BOOT_UPD_STAT, 31, 24⟩
/-- `BOOT_UPD_STAT.detail`, RO. -/
def BOOT_UPD_STAT_detail : Fld := ⟨R.BOOT_UPD_STAT, 23, 16⟩
/-- `BOOT_UPD_STAT.recv`, RO. -/
def BOOT_UPD_STAT_recv : Fld := ⟨R.BOOT_UPD_STAT, 15, 4⟩
/-- `BOOT_UPD_STAT.busy`, RO. -/
def BOOT_UPD_STAT_busy : Fld := ⟨R.BOOT_UPD_STAT, 0, 0⟩
/-- `SEC_STAT.result`, RO. -/
def SEC_STAT_result : Fld := ⟨R.SEC_STAT, 31, 24⟩
/-- `SEC_STAT.busy`, RO. -/
def SEC_STAT_busy : Fld := ⟨R.SEC_STAT, 0, 0⟩
/-- `SEC_EVENT.seal_done`, W1C. -/
def SEC_EVENT_seal_done : Fld := ⟨R.SEC_EVENT, 3, 3⟩
/-- `SEC_EVENT.rng_fault`, W1C. -/
def SEC_EVENT_rng_fault : Fld := ⟨R.SEC_EVENT, 2, 2⟩
/-- `SEC_EVENT.otp_done`, W1C. -/
def SEC_EVENT_otp_done : Fld := ⟨R.SEC_EVENT, 1, 1⟩
/-- `SEC_EVENT.att_done`, W1C. -/
def SEC_EVENT_att_done : Fld := ⟨R.SEC_EVENT, 0, 0⟩
/-- `SEC_ATT_CMD.go`, W1S. -/
def SEC_ATT_CMD_go : Fld := ⟨R.SEC_ATT_CMD, 0, 0⟩

end F

/-- Rows of the SYS block. -/
def regsSYS : List RegDesc := [
  ⟨0x0, [], .r32, 0x840048A1, 0, 0, 0, 0, 0, 0xFFFFFFFF, 11, 0, .any, false⟩,
  ⟨0x4, [], .r32, 0xB1, 0, 0, 0, 0, 0, 0xFF, 11, 0, .any, false⟩,
  ⟨0x100, [(0x10, 2)], .r32, 0, 0, 0, 0x6, 0, 0, 0xFF09, 11, 0, .any, false⟩,
  ⟨0x104, [(0x10, 2)], .r32, 0, 0, 0, 0, 0, 0, 0xFFFFFFFF, 11, 0, .any, false⟩,
  ⟨0x20, [], .r32, 0, 0, 0, 0, 0, 0, 0, 11, 0, .any, false⟩,
  ⟨0x24, [], .r32, 0x2, 0, 0, 0x80, 0, 0, 0xF07, 11, 0, .any, false⟩,
  ⟨0x30, [], .r32, 0x13801, 0x7FFD7FF, 0, 0, 0, 0, 0x2800, 11, 0, .any, false⟩,
  ⟨0x34, [], .r32, 0, 0, 0, 0, 0, 0, 0x1F, 11, 0, .any, false⟩,
  ⟨0x40, [], .r32, 0, 0, 0, 0, 0, 0, 0, 11, 0, .any, false⟩,
  ⟨0x44, [], .r32, 0, 0, 0, 0, 0, 0, 0xFF0FFF07, 11, 0, .any, false⟩,
  ⟨0x48, [], .r32, 0, 0, 0, 0xFFF, 0, 0, 0, 11, 0, .any, false⟩,
  ⟨0x4C, [], .r32, 0, 0, 0, 0, 0, 0, 0xFFF, 11, 0, .any, false⟩,
  ⟨0x50, [], .r32, 0, 0, 0, 0x3F, 0, 0, 0, 11, 0, .any, false⟩,
  ⟨0x54, [], .r32, 0, 0, 0, 0, 0, 0x7FFFFFFF, 0x80000000, 11, 0, .any, false⟩,
  ⟨0x60, [], .r32, 0, 0, 0, 0, 0, 0, 0, 11, 0, .any, false⟩,
  ⟨0x64, [], .r32, 0, 0, 0, 0x7F, 0, 0, 0, 11, 0, .any, false⟩,
  ⟨0x68, [], .r32, 0, 0x7F, 0, 0, 0, 0, 0, 11, 0, .any, false⟩,
  ⟨0x6C, [], .r32, 0, 0xF, 0, 0, 0, 0, 0, 11, 0, .fw, false⟩,
  ⟨0x70, [], .r32, 0, 0, 0, 0, 0, 0, 0xF, 11, 0, .any, false⟩]
/-- Rows of the CLK block. -/
def regsCLK : List RegDesc := [
  ⟨0x10000, [], .r32, 0, 0, 0, 0, 0, 0, 0xFFF, 11, 0, .any, false⟩,
  ⟨0x10004, [], .r32, 0xA, 0x30F, 0, 0, 0, 0, 0, 11, 0, .any, false⟩,
  ⟨0x10008, [], .r32, 0, 0, 0, 0x7FF, 0, 0, 0, 11, 0, .any, false⟩,
  ⟨0x10010, [], .r32, 0, 0xF, 0, 0, 0, 0, 0, 11, 0, .any, false⟩,
  ⟨0x10014, [], .r32, 0, 0, 0, 0, 0, 0, 0xF, 11, 0, .any, false⟩,
  ⟨0x10018, [], .r32, 0, 0, 0, 0, 0x1, 0, 0, 11, 0, .any, false⟩,
  ⟨0x10208, [], .r32, 0, 0, 0, 0, 0x1, 0, 0, 11, 0, .any, false⟩,
  ⟨0x10020, [], .r32, 0, 0, 0, 0, 0, 0, 0x7F007F, 11, 0, .any, false⟩,
  ⟨0x10100, [], .r32, 0, 0, 0, 0, 0, 0, 0xFF, 11, 0, .any, false⟩,
  ⟨0x10108, [], .r64, 0, 0, 0, 0, 0, 0, 0xFFFFFFFFFFFFFFFF, 11, 0, .any, false⟩,
  ⟨0x10110, [], .r64, 0, 0, 0, 0, 0, 0, 0xFFFFFFFFFFFFFFFF, 11, 0, .any, true⟩,
  ⟨0x10120, [], .r32, 0, 0, 0, 0, 0, 0, 0xFFFF, 11, 0, .any, false⟩,
  ⟨0x10200, [], .r32, 0x40, 0xFFFF00FF, 0, 0, 0, 0, 0, 11, 0, .any, false⟩,
  ⟨0x10204, [], .r32, 0, 0, 0, 0, 0, 0, 0x3FFF, 11, 0, .any, false⟩,
  ⟨0x10210, [], .pu36, 0, 0, 0, 0, 0, 0, 0xFFFFFFFFFFFFFFFF, 11, 0, .any, false⟩,
  ⟨0x10218, [], .pu36, 0, 0, 0, 0, 0, 0, 0xFFFFFFFFFFFFFFFF, 11, 0, .any, false⟩,
  ⟨0x10228, [], .pu36, 0x40000000, 0xFFFFFFFFFFFFFFFF, 0, 0, 0, 0, 0, 11, 0, .any, false⟩,
  ⟨0x10220, [], .r32, 0, 0, 0, 0, 0, 0, 0xFFFFFFFF, 11, 0, .any, false⟩,
  ⟨0x10240, [(0x8, 8)], .r32, 0, 0xFFFFFFFF, 0, 0, 0, 0, 0, 11, 0, .any, false⟩,
  ⟨0x10244, [(0x8, 8)], .r32, 0, 0xFFFF, 0, 0, 0, 0, 0, 11, 0, .any, false⟩,
  ⟨0x10280, [(0x4, 4)], .r32, 0, 0xFFFFF01F, 0, 0, 0, 0, 0, 11, 0, .any, false⟩]
/-- Rows of the HARV block. -/
def regsHARV : List RegDesc := [
  ⟨0x20000, [], .r32, 0, 0, 0, 0xE0, 0, 0, 0x31F, 32, 0, .any, false⟩,
  ⟨0x20004, [], .r32, 0, 0, 0, 0, 0, 0, 0xFFFFFFFF, 32, 0, .any, false⟩,
  ⟨0x20008, [], .r32, 0, 0, 0, 0, 0, 0, 0xFFFFFFFF, 32, 0, .any, false⟩,
  ⟨0x2000C, [], .r32, 0, 0, 0, 0, 0, 0, 0xFFFFFFFF, 32, 0, .any, false⟩,
  ⟨0x20010, [], .r32, 0x5DC03D10, 0xFFFFFD1F, 0, 0, 0, 0, 0, 32, 0, .any, false⟩,
  ⟨0x20014, [], .r32, 0, 0x1, 0, 0, 0, 0, 0, 32, 0, .any, false⟩,
  ⟨0x20018, [], .r32, 0x32C80000, 0xFFFFFFFF, 0, 0, 0, 0, 0, 32, 0, .any, false⟩,
  ⟨0x2001C, [], .r32, 0, 0xFFFFFFFF, 0, 0, 0, 0, 0, 32, 0, .any, false⟩,
  ⟨0x20020, [], .r32, 0, 0xFFFFFFFF, 0, 0, 0, 0, 0, 32, 0, .any, false⟩,
  ⟨0x20024, [], .r32, 0, 0xFFFFFFFF, 0, 0, 0, 0, 0, 32, 0, .any, false⟩,
  ⟨0x20028, [], .r32, 0, 0xFFFFFFFF, 0, 0, 0, 0, 0, 32, 0, .any, false⟩,
  ⟨0x2002C, [], .r32, 0, 0, 0, 0, 0, 0, 0xFFFFFFFF, 32, 0, .any, false⟩,
  ⟨0x20030, [], .r32, 0x4E202EE0, 0, 0, 0, 0, 0, 0xFFFFFFFF, 32, 0, .any, false⟩,
  ⟨0x20034, [], .r32, 0, 0x1FF, 0, 0, 0, 0, 0, 32, 0, .any, false⟩,
  ⟨0x20038, [], .r32, 0, 0, 0, 0, 0, 0, 0xF31, 32, 0, .any, false⟩,
  ⟨0x2003C, [], .r32, 0, 0, 0, 0, 0, 0x7FFFFFFF, 0x80000000, 32, 0, .any, false⟩,
  ⟨0x20040, [], .r32, 0, 0, 0, 0x7F, 0, 0, 0, 32, 0, .any, false⟩,
  ⟨0x21000, [(0x4, 128)], .r32, 0, 0xFFFFFFFF, 0, 0, 0, 0, 0, 32, 0, .any, false⟩]
/-- Rows of the FING block. -/
def regsFING : List RegDesc := [
  ⟨0x40000, [], .r32, 0, 0, 0, 0, 0, 0, 0, 11, 0, .any, false⟩,
  ⟨0x40004, [], .r32, 0, 0, 0, 0, 0, 0, 0xFF00F301, 11, 0, .any, false⟩,
  ⟨0x40008, [], .r32, 0, 0, 0, 0, 0, 0, 0xFF0FFFFF, 11, 0, .any, false⟩,
  ⟨0x4000C, [], .r32, 0, 0, 0, 0x1F, 0, 0, 0, 11, 0, .any, false⟩,
  ⟨0x40010, [], .r32, 0, 0x1, 0, 0, 0, 0, 0, 11, 0, .any, false⟩,
  ⟨0x40018, [], .r64, 0, 0x3FFFFFFFF, 0, 0, 0, 0, 0, 11, 0, .any, false⟩,
  ⟨0x40020, [], .r32, 0, 0, 0, 0, 0, 0, 0xFFFFFFFF, 11, 0, .any, false⟩,
  ⟨0x40024, [], .r32, 0, 0, 0, 0, 0, 0, 0xFFFFFFFF, 11, 0, .any, false⟩,
  ⟨0x40028, [], .r32, 0, 0, 0, 0, 0, 0, 0x3FFFFFF, 11, 0, .any, false⟩,
  ⟨0x40030, [], .r32, 0, 0, 0, 0, 0, 0, 0xB3FFFFFF, 11, 0, .any, false⟩,
  ⟨0x40034, [], .r32, 0, 0, 0, 0, 0, 0x7FFFFFFF, 0x80000000, 11, 0, .any, false⟩,
  ⟨0x40038, [], .r32, 0, 0, 0, 0, 0, 0, 0xFFFFFFFF, 11, 0, .any, false⟩,
  ⟨0x40100, [(0x4, 16)], .r32, 0, 0, 0, 0, 0, 0, 0xFFFFFFFF, 11, 0, .any, false⟩]
/-- Rows of the CONV block. -/
def regsCONV0 : List RegDesc := [
  ⟨0x80000, [(0x10000, 2)], .r32, 0, 0x3, 0, 0, 0, 0, 0, 17, 5, .any, false⟩,
  ⟨0x80004, [(0x10000, 2)], .r32, 0, 0, 0, 0, 0, 0, 0xF0F, 17, 5, .any, false⟩,
  ⟨0x80010, [(0x10000, 2)], .r32, 0, 0, 0, 0, 0, 0, 0, 17, 5, .any, false⟩,
  ⟨0x80014, [(0x10000, 2)], .r32, 0, 0, 0, 0, 0, 0, 0xF31FF, 17, 5, .any, false⟩,
  ⟨0x80020, [(0x10000, 2)], .r32, 0, 0, 0, 0xF, 0, 0, 0x3FFF00, 17, 5, .any, false⟩,
  ⟨0x81000, [(0x10000, 2), (0x800, 8)], .r32, 0, 0xF01, 0, 0, 0, 0, 0, 17, 5, .any, false⟩,
  ⟨0x81004, [(0x10000, 2), (0x800, 8)], .r32, 0, 0, 0, 0, 0, 0, 0xF3, 17, 5, .any, false⟩,
  ⟨0x81008, [(0x10000, 2), (0x800, 8)], .r32, 0, 0, 0, 0xFF, 0, 0, 0, 17, 5, .any, false⟩,
  ⟨0x8100C, [(0x10000, 2), (0x800, 8)], .r32, 0, 0xFF, 0, 0, 0, 0, 0, 17, 5, .any, false⟩,
  ⟨0x81010, [(0x10000, 2), (0x800, 8)], .r32, 0, 0, 0, 0, 0, 0x7FFFFFFF, 0x80000000, 17, 5, .any, false⟩,
  ⟨0x81014, [(0x10000, 2), (0x800, 8)], .r32, 0, 0, 0, 0, 0, 0x7FFFFFFF, 0x80000000, 17, 5, .any, false⟩,
  ⟨0x81018, [(0x10000, 2), (0x800, 8)], .r32, 0, 0, 0, 0, 0, 0, 0xFFFFFFFF, 17, 5, .any, false⟩,
  ⟨0x8101C, [(0x10000, 2), (0x800, 8)], .r32, 0, 0, 0x113F03, 0, 0, 0, 0, 17, 5, .any, false⟩,
  ⟨0x81080, [(0x10000, 2), (0x800, 8), (0x4, 16)], .r32, 0x200, 0x7F7F, 0, 0, 0, 0, 0, 17, 5, .any, false⟩,
  ⟨0x81100, [(0x10000, 2), (0x800, 8)], .r32, 0, 0xFFFF, 0, 0, 0, 0, 0, 17, 5, .any, false⟩,
  ⟨0x81104, [(0x10000, 2), (0x800, 8)], .r32, 0, 0x3FFFF, 0, 0, 0, 0, 0, 17, 5, .any, false⟩,
  ⟨0x81110, [(0x10000, 2), (0x800, 8), (0x4, 4)], .r32, 0, 0xFFFFFFFF, 0, 0, 0, 0, 0, 17, 5, .any, false⟩,
  ⟨0x81200, [(0x10000, 2), (0x800, 8), (0x20, 16)], .pu36, 0x40000000, 0xFFFFFFFFFFFFFFFF, 0, 0, 0, 0, 0, 17, 5, .any, false⟩,
  ⟨0x81208, [(0x10000, 2), (0x800, 8), (0x20, 16)], .pu36, 0, 0xFFFFFFFFFFFFFFFF, 0, 0, 0, 0, 0, 17, 5, .any, false⟩,
  ⟨0x81210, [(0x10000, 2), (0x800, 8), (0x20, 16)], .r32, 0x40000, 0x7FFFF, 0, 0, 0, 0, 0, 17, 5, .any, false⟩,
  ⟨0x81214, [(0x10000, 2), (0x800, 8), (0x20, 16)], .r32, 0, 0x3FFFFF, 0, 0, 0, 0, 0, 17, 5, .any, false⟩,
  ⟨0x81400, [(0x10000, 2), (0x800, 8), (0x20, 16)], .pu36, 0, 0, 0, 0, 0, 0, 0xFFFFFFFFFFFFFFFF, 17, 5, .any, false⟩,
  ⟨0x81408, [(0x10000, 2), (0x800, 8), (0x20, 16)], .r32, 0, 0, 0, 0, 0, 0, 0x1FFFFFF, 17, 5, .any, false⟩,
  ⟨0x81410, [(0x10000, 2), (0x800, 8), (0x20, 16)], .r64, 0, 0, 0, 0, 0, 0, 0xFFFFFFFFFFFFFFFF, 17, 5, .any, false⟩]
/-- Rows of the CONV block. -/
def regsCONV1 : List RegDesc := [
  ⟨0x81600, [(0x10000, 2), (0x800, 8), (0x20, 16)], .pu36, 0, 0, 0, 0, 0, 0, 0xFFFFFFFFFFFFFFFF, 17, 5, .any, true⟩,
  ⟨0x81608, [(0x10000, 2), (0x800, 8), (0x20, 16)], .r32, 0, 0, 0, 0, 0, 0, 0x1FFFFFF, 17, 5, .any, true⟩,
  ⟨0x81610, [(0x10000, 2), (0x800, 8), (0x20, 16)], .r64, 0, 0, 0, 0, 0, 0, 0xFFFFFFFFFFFFFFFF, 17, 5, .any, true⟩,
  ⟨0x86000, [(0x10000, 2), (0x100, 6)], .r32, 0, 0x31, 0, 0, 0, 0, 0, 17, 5, .any, false⟩,
  ⟨0x86004, [(0x10000, 2), (0x100, 6)], .r32, 0, 0, 0, 0, 0, 0, 0x7, 17, 5, .any, false⟩,
  ⟨0x86008, [(0x10000, 2), (0x100, 6)], .r32, 0, 0, 0, 0x1F, 0, 0, 0, 17, 5, .any, false⟩,
  ⟨0x8600C, [(0x10000, 2), (0x100, 6)], .r32, 0, 0x1F, 0, 0, 0, 0, 0, 17, 5, .any, false⟩,
  ⟨0x86010, [(0x10000, 2), (0x100, 6)], .r32, 0, 0, 0, 0, 0, 0, 0xFFFFFFFF, 17, 5, .any, false⟩,
  ⟨0x86014, [(0x10000, 2), (0x100, 6)], .r32, 0, 0xFFFF, 0, 0, 0, 0, 0, 17, 5, .any, false⟩,
  ⟨0x86018, [(0x10000, 2), (0x100, 6)], .pu36, 0x40000000, 0xFFFFFFFFFFFFFFFF, 0, 0, 0, 0, 0, 17, 5, .any, false⟩,
  ⟨0x86020, [(0x10000, 2), (0x100, 6)], .pu36, 0, 0xFFFFFFFFFFFFFFFF, 0, 0, 0, 0, 0, 17, 5, .any, false⟩,
  ⟨0x86028, [(0x10000, 2), (0x100, 6)], .r32, 0x40000, 0x7FFFF, 0, 0, 0, 0, 0, 17, 5, .any, false⟩,
  ⟨0x8602C, [(0x10000, 2), (0x100, 6)], .r32, 0, 0x3FFFFF, 0, 0, 0, 0, 0, 17, 5, .any, false⟩,
  ⟨0x86040, [(0x10000, 2), (0x100, 6)], .pu36, 0, 0, 0, 0, 0, 0, 0xFFFFFFFFFFFFFFFF, 17, 5, .any, false⟩,
  ⟨0x86048, [(0x10000, 2), (0x100, 6)], .r32, 0, 0, 0, 0, 0, 0, 0x1FFFFFFF, 17, 5, .any, false⟩,
  ⟨0x8604C, [(0x10000, 2), (0x100, 6)], .r32, 0, 0, 0, 0, 0, 0, 0xFFF, 17, 5, .any, false⟩,
  ⟨0x86050, [(0x10000, 2), (0x100, 6)], .r64, 0, 0, 0, 0, 0, 0, 0xFFFFFFFFFFFFFFFF, 17, 5, .any, false⟩,
  ⟨0x86080, [(0x10000, 2), (0x100, 6)], .pu36, 0, 0, 0, 0, 0, 0, 0xFFFFFFFFFFFFFFFF, 17, 5, .any, true⟩,
  ⟨0x86088, [(0x10000, 2), (0x100, 6)], .r32, 0, 0, 0, 0, 0, 0, 0x1FFFFFFF, 17, 5, .any, true⟩,
  ⟨0x8608C, [(0x10000, 2), (0x100, 6)], .r32, 0, 0, 0, 0, 0, 0, 0xFFF, 17, 5, .any, true⟩,
  ⟨0x86090, [(0x10000, 2), (0x100, 6)], .r64, 0, 0, 0, 0, 0, 0, 0xFFFFFFFFFFFFFFFF, 17, 5, .any, true⟩]
/-- Rows of the CONV block. -/
def regsCONV : List RegDesc := regsCONV0 ++ regsCONV1
/-- Rows of the WIN block. -/
def regsWIN : List RegDesc := [
  ⟨0xA0000, [(0x10000, 2)], .r32, 0x320, 0xFF3, 0, 0, 0, 0, 0, 21, 5, .any, false⟩,
  ⟨0xA1000, [(0x10000, 2), (0x100, 16)], .r32, 0x3F0000, 0x33, 0x3F0100, 0, 0, 0, 0, 18, 5, .any, false⟩,
  ⟨0xA1004, [(0x10000, 2), (0x100, 16)], .r32, 0x302, 0, 0xF0F, 0, 0, 0, 0, 18, 5, .any, false⟩,
  ⟨0xA1008, [(0x10000, 2), (0x100, 16)], .r32, 0xFFF0000, 0xFFF0FFF, 0, 0, 0, 0, 0, 18, 5, .any, false⟩,
  ⟨0xA100C, [(0x10000, 2), (0x100, 16)], .r32, 0x4, 0x3F, 0, 0, 0, 0, 0, 18, 5, .any, false⟩,
  ⟨0xA1010, [(0x10000, 2), (0x100, 16)], .r32, 0, 0x3FF, 0, 0, 0, 0, 0, 18, 5, .any, false⟩,
  ⟨0xA1014, [(0x10000, 2), (0x100, 16)], .r32, 0, 0, 0, 0, 0, 0, 0xFFF001F, 18, 5, .any, false⟩,
  ⟨0xA1018, [(0x10000, 2), (0x100, 16)], .r32, 0, 0, 0, 0x1F, 0, 0, 0, 18, 5, .any, false⟩,
  ⟨0xA101C, [(0x10000, 2), (0x100, 16)], .r32, 0, 0x1F, 0, 0, 0, 0, 0, 18, 5, .any, false⟩,
  ⟨0xA1020, [(0x10000, 2), (0x100, 16)], .r64, 0, 0, 0, 0, 0, 0, 0xFFFFFFFFFFFFFFFF, 18, 5, .any, false⟩,
  ⟨0xA1028, [(0x10000, 2), (0x100, 16)], .r32, 0, 0, 0, 0, 0, 0, 0x8000000E, 18, 5, .any, false⟩,
  ⟨0xA102C, [(0x10000, 2), (0x100, 16)], .r32, 0, 0, 0, 0, 0, 0x7FFFFFFF, 0x80000000, 18, 5, .any, false⟩,
  ⟨0xA4000, [(0x10000, 2), (0x10, 144)], .r32, 0, 0, 0xFFFFFF, 0, 0, 0, 0, 21, 5, .any, false⟩,
  ⟨0xA4004, [(0x10000, 2), (0x10, 144)], .r32, 0, 0, 0xFFFFFF, 0, 0, 0, 0, 21, 5, .any, false⟩,
  ⟨0xA4008, [(0x10000, 2), (0x10, 144)], .r32, 0, 0, 0xFFFFFF, 0, 0, 0, 0, 21, 5, .any, false⟩,
  ⟨0xA400C, [(0x10000, 2), (0x10, 144)], .r32, 0, 0x3, 0, 0, 0, 0, 0, 21, 5, .any, false⟩,
  ⟨0xA5000, [(0x10000, 2), (0x4, 5)], .r32, 0, 0, 0, 0, 0, 0, 0xFFFFFFFF, 21, 5, .any, false⟩,
  ⟨0xA5020, [(0x10000, 2), (0x4, 5)], .r32, 0, 0, 0, 0xFFFFFFFF, 0, 0, 0, 21, 5, .any, false⟩,
  ⟨0xA5040, [(0x10000, 2)], .r32, 0, 0, 0, 0, 0, 0, 0xFFFFFF, 21, 5, .any, false⟩,
  ⟨0xA5044, [(0x10000, 2)], .r32, 0, 0, 0, 0, 0, 0, 0xFFFFFF, 21, 5, .any, false⟩,
  ⟨0xA5048, [(0x10000, 2)], .r32, 0, 0, 0, 0xFFFFFF, 0, 0, 0, 21, 5, .any, false⟩,
  ⟨0xA5050, [(0x10000, 2)], .r32, 0, 0, 0, 0, 0xFFFF, 0, 0, 21, 5, .any, false⟩,
  ⟨0xA5060, [(0x10000, 2)], .r32, 0, 0, 0, 0xF, 0, 0, 0, 21, 5, .any, false⟩,
  ⟨0xA5064, [(0x10000, 2)], .r32, 0, 0, 0, 0, 0, 0x7FFFFFFF, 0x80000000, 21, 5, .any, false⟩]
/-- Rows of the EDGE block. -/
def regsEDGE0 : List RegDesc := [
  ⟨0xC0000, [(0x10000, 2)], .r32, 0, 0, 0, 0, 0xFFFFFF, 0, 0, 19, 5, .any, false⟩,
  ⟨0xC0004, [(0x10000, 2)], .r32, 0xA01, 0xFF01, 0, 0, 0, 0, 0, 19, 5, .any, false⟩,
  ⟨0xC0008, [(0x10000, 2)], .r32, 0, 0, 0, 0, 0, 0, 0xFFFFFF, 19, 5, .any, false⟩,
  ⟨0xC0010, [], .r32, 0x200000, 0x3FF3F03, 0, 0, 0, 0, 0, 19, 0, .any, false⟩,
  ⟨0xC0014, [], .r32, 0, 0xFFFF00FF, 0, 0, 0, 0, 0, 19, 0, .any, false⟩,
  ⟨0xC0018, [], .r32, 0, 0, 0, 0, 0, 0x7FFF0000, 0x80000001, 19, 0, .any, false⟩,
  ⟨0xC0020, [], .r64, 0, 0, 0, 0, 0, 0, 0xFFFFFFFFFFFFFFFF, 19, 0, .any, false⟩,
  ⟨0xC0028, [(0x10000, 2)], .r32, 0, 0, 0, 0x6000000, 0, 0, 0x1FFFFFF, 19, 5, .any, false⟩,
  ⟨0xC1000, [(0x10000, 2), (0x100, 24)], .r32, 0x3F00, 0x7, 0x3F38, 0, 0, 0, 0x3F030000, 19, 5, .any, false⟩,
  ⟨0xC1004, [(0x10000, 2), (0x100, 24)], .r32, 0, 0x3, 0, 0, 0, 0, 0, 19, 5, .any, false⟩,
  ⟨0xC1044, [(0x10000, 2), (0x100, 24)], .r32, 0, 0, 0, 0, 0, 0, 0x3, 19, 5, .any, false⟩,
  ⟨0xC1008, [(0x10000, 2), (0x100, 24)], .r32, 0x1F40, 0xFFFFF, 0, 0, 0, 0, 0, 19, 5, .any, false⟩,
  ⟨0xC1048, [(0x10000, 2), (0x100, 24)], .r32, 0x1F40, 0, 0, 0, 0, 0, 0xFFFFF, 19, 5, .any, false⟩,
  ⟨0xC100C, [(0x10000, 2), (0x100, 24)], .r32, 0, 0x3FFFFFF, 0, 0, 0, 0, 0, 19, 5, .any, false⟩,
  ⟨0xC104C, [(0x10000, 2), (0x100, 24)], .r32, 0, 0, 0, 0, 0, 0, 0x3FFFFFF, 19, 5, .any, false⟩,
  ⟨0xC1010, [(0x10000, 2), (0x100, 24)], .r32, 0, 0x3FFFFFF, 0, 0, 0, 0, 0, 19, 5, .any, false⟩,
  ⟨0xC1050, [(0x10000, 2), (0x100, 24)], .r32, 0, 0, 0, 0, 0, 0, 0x3FFFFFF, 19, 5, .any, false⟩,
  ⟨0xC1014, [(0x10000, 2), (0x100, 24)], .r32, 0, 0x1FFFF, 0, 0, 0, 0, 0, 19, 5, .any, false⟩,
  ⟨0xC1054, [(0x10000, 2), (0x100, 24)], .r32, 0, 0, 0, 0, 0, 0, 0x1FFFF, 19, 5, .any, false⟩,
  ⟨0xC1018, [(0x10000, 2), (0x100, 24)], .r32, 0, 0x1FFFF, 0, 0, 0, 0, 0, 19, 5, .any, false⟩,
  ⟨0xC1058, [(0x10000, 2), (0x100, 24)], .r32, 0, 0, 0, 0, 0, 0, 0x1FFFF, 19, 5, .any, false⟩,
  ⟨0xC101C, [(0x10000, 2), (0x100, 24)], .r32, 0, 0xFFFFFFFF, 0, 0, 0, 0, 0, 19, 5, .any, false⟩,
  ⟨0xC105C, [(0x10000, 2), (0x100, 24)], .r32, 0, 0, 0, 0, 0, 0, 0xFFFFFFFF, 19, 5, .any, false⟩,
  ⟨0xC1020, [(0x10000, 2), (0x100, 24)], .r32, 0, 0xFFFFFFFF, 0, 0, 0, 0, 0, 19, 5, .any, false⟩]
/-- Rows of the EDGE block. -/
def regsEDGE1 : List RegDesc := [
  ⟨0xC1024, [(0x10000, 2), (0x100, 24)], .r32, 0x100, 0xFFFFFF01, 0, 0, 0, 0, 0, 19, 5, .any, false⟩,
  ⟨0xC1028, [(0x10000, 2), (0x100, 24)], .r32, 0, 0, 0, 0, 0, 0, 0x3F, 19, 5, .any, false⟩,
  ⟨0xC102C, [(0x10000, 2), (0x100, 24)], .r32, 0, 0, 0, 0, 0, 0, 0xFFFFFFFF, 19, 5, .any, false⟩,
  ⟨0xC1030, [(0x10000, 2), (0x100, 24)], .r32, 0, 0, 0, 0xFF, 0, 0, 0, 19, 5, .any, false⟩,
  ⟨0xC1034, [(0x10000, 2), (0x100, 24)], .r32, 0, 0xFF, 0, 0, 0, 0, 0, 19, 5, .any, false⟩,
  ⟨0xC1038, [(0x10000, 2), (0x100, 24)], .r32, 0, 0, 0, 0, 0, 0x7FFFFFFF, 0x80000000, 19, 5, .any, false⟩,
  ⟨0xC103C, [(0x10000, 2), (0x100, 24)], .r32, 0, 0, 0, 0, 0, 0x7FFFFFFF, 0x80000000, 19, 5, .any, false⟩,
  ⟨0xC1080, [(0x10000, 2), (0x100, 24), (0x4, 8)], .r32, 0, 0, 0, 0, 0, 0, 0xFFFFFFFF, 19, 5, .any, false⟩,
  ⟨0xC10A0, [(0x10000, 2), (0x100, 24)], .r32, 0, 0, 0, 0, 0, 0, 0xFFFFFFFF, 19, 5, .any, false⟩]
/-- Rows of the EDGE block. -/
def regsEDGE : List RegDesc := regsEDGE0 ++ regsEDGE1
/-- Rows of the GATE block. -/
def regsGATE : List RegDesc := [
  ⟨0xE0000, [(0x10000, 2)], .r32, 0, 0, 0, 0x2000000, 0, 0, 0xFFFFFF, 20, 5, .any, false⟩,
  ⟨0xE0004, [(0x10000, 2)], .r32, 0, 0, 0, 0, 0, 0, 0x3F3F0001, 19, 5, .any, false⟩,
  ⟨0xE0008, [(0x10000, 2)], .r64, 0, 0, 0, 0, 0, 0, 0xFFFFFFFFFFFFFFFF, 19, 5, .any, false⟩,
  ⟨0xE0010, [(0x10000, 2)], .r32, 0, 0, 0, 0, 0, 0x7FFFFFFF, 0x80000000, 19, 5, .any, false⟩,
  ⟨0xE0100, [(0x10000, 2), (0x40, 2)], .r32, 0x3F0A00, 0x3FFF01, 0, 0, 0, 0, 0, 20, 5, .any, false⟩,
  ⟨0xE0104, [(0x10000, 2), (0x40, 2)], .r32, 0, 0xFFFFFF, 0, 0, 0, 0, 0, 20, 5, .any, false⟩,
  ⟨0xE0108, [(0x10000, 2), (0x40, 2)], .r32, 0, 0, 0, 0, 0, 0, 0xFFF1FFF, 20, 5, .any, false⟩,
  ⟨0xE010C, [(0x10000, 2), (0x40, 2)], .r32, 0, 0, 0, 0, 0, 0x7FFFFFFF, 0x80000000, 20, 5, .any, false⟩,
  ⟨0xE0110, [(0x10000, 2), (0x40, 2)], .r32, 0, 0, 0, 0, 0, 0x7FFFFFFF, 0x80000000, 20, 5, .any, false⟩,
  ⟨0xE1000, [(0x10000, 2), (0x100, 24)], .r32, 0xA0000, 0x3FFF0000, 0, 0, 0, 0, 0xFF6, 20, 5, .any, false⟩,
  ⟨0xE1004, [(0x10000, 2), (0x100, 24)], .r32, 0, 0, 0, 0, 0, 0, 0xF01001F, 20, 5, .any, false⟩,
  ⟨0xE1008, [(0x10000, 2), (0x100, 24)], .r32, 0x460064, 0x7F01FF, 0, 0, 0, 0, 0, 20, 5, .any, false⟩,
  ⟨0xE100C, [(0x10000, 2), (0x100, 24)], .r32, 0x8700780, 0xFFF0FFF, 0, 0, 0, 0, 0, 20, 5, .any, false⟩,
  ⟨0xE1010, [(0x10000, 2), (0x100, 24)], .r32, 0, 0, 0, 0, 0, 0, 0xFFF0FFF, 20, 5, .any, false⟩,
  ⟨0xE1014, [(0x10000, 2), (0x100, 24)], .r32, 0, 0, 0, 0, 0, 0, 0xFFF0FFF, 20, 5, .any, false⟩,
  ⟨0xE1018, [(0x10000, 2), (0x100, 24)], .r64, 0, 0, 0, 0, 0, 0, 0xFFFFFFFFFFFFFFFF, 20, 5, .any, false⟩,
  ⟨0xE1020, [(0x10000, 2), (0x100, 24)], .r32, 0, 0, 0, 0x7F, 0, 0, 0, 20, 5, .any, false⟩,
  ⟨0xE1024, [(0x10000, 2), (0x100, 24)], .r32, 0, 0x7F, 0, 0, 0, 0, 0, 20, 5, .any, false⟩,
  ⟨0xE1028, [(0x10000, 2), (0x100, 24)], .r32, 0, 0, 0, 0, 0, 0x7FFFFFFF, 0x80000000, 20, 5, .any, false⟩,
  ⟨0xE102C, [(0x10000, 2), (0x100, 24)], .r32, 0, 0, 0, 0, 0, 0, 0x3, 20, 5, .any, false⟩,
  ⟨0xE1040, [(0x10000, 2), (0x100, 24), (0x4, 24)], .r32, 0, 0xFFFF, 0, 0, 0, 0, 0, 20, 5, .any, false⟩]
/-- Rows of the BORE block. -/
def regsBORE0 : List RegDesc := [
  ⟨0x100000, [(0x4000, 8)], .r32, 0, 0x10, 0, 0, 0x120, 0, 0, 1, 1, .any, false⟩,
  ⟨0x100004, [(0x4000, 8)], .r32, 0, 0, 0, 0, 0, 0, 0x7F, 1, 1, .any, false⟩,
  ⟨0x100008, [(0x4000, 8)], .r32, 0, 0, 0, 0x7F, 0, 0, 0, 1, 1, .any, false⟩,
  ⟨0x10000C, [(0x4000, 8)], .r32, 0, 0x7F, 0, 0, 0, 0, 0, 1, 1, .any, false⟩,
  ⟨0x100010, [(0x4000, 8)], .r32, 0, 0, 0, 0, 0, 0, 0xFF07FF, 1, 1, .any, false⟩,
  ⟨0x100014, [(0x4000, 8)], .r32, 0x3, 0, 0x33F03, 0, 0, 0, 0, 1, 1, .any, false⟩,
  ⟨0x100018, [(0x4000, 8)], .r32, 0, 0, 0xFFFFFFFF, 0, 0, 0, 0, 1, 1, .any, false⟩,
  ⟨0x10001C, [(0x4000, 8)], .r32, 0, 0x1, 0, 0, 0, 0, 0x7FF0000, 1, 1, .any, false⟩,
  ⟨0x100020, [(0x4000, 8)], .r32, 0, 0xFFFFFFFF, 0, 0, 0, 0, 0, 1, 1, .any, false⟩,
  ⟨0x100024, [(0x4000, 8)], .r32, 0, 0, 0, 0, 0, 0, 0xFFFFFFFF, 1, 1, .any, false⟩,
  ⟨0x100028, [(0x4000, 8)], .r32, 0x1, 0xFF, 0, 0, 0, 0, 0xFF00, 1, 1, .any, false⟩,
  ⟨0x100030, [(0x4000, 8)], .r32, 0, 0, 0, 0, 0, 0, 0xFFFFFFFF, 1, 1, .any, false⟩,
  ⟨0x100034, [(0x4000, 8)], .r32, 0, 0, 0, 0, 0, 0, 0xFFFF, 1, 1, .any, false⟩,
  ⟨0x100038, [(0x4000, 8)], .r32, 0, 0, 0, 0xFFFFFFFF, 0, 0, 0, 1, 1, .any, false⟩,
  ⟨0x10003C, [(0x4000, 8)], .r32, 0, 0, 0, 0xFFFF, 0, 0, 0, 1, 1, .any, false⟩,
  ⟨0x100040, [(0x4000, 8)], .r64, 0, 0, 0, 0, 0, 0, 0xFFFFFFFFFFFFFFFF, 1, 1, .any, false⟩,
  ⟨0x100048, [(0x4000, 8)], .r32, 0, 0, 0, 0, 0, 0x7FFFFFFF, 0x80000000, 1, 1, .any, false⟩,
  ⟨0x10004C, [(0x4000, 8)], .r32, 0, 0, 0, 0, 0, 0x7FFFFFFF, 0x80000000, 1, 1, .any, false⟩,
  ⟨0x100050, [(0x4000, 8)], .r32, 0, 0x3F3F01, 0, 0, 0, 0, 0, 1, 1, .any, false⟩,
  ⟨0x100058, [(0x4000, 8)], .r64, 0, 0, 0, 0, 0, 0, 0xFFFFFFFFFFFFFFFF, 1, 1, .any, false⟩,
  ⟨0x100060, [(0x4000, 8)], .r32, 0, 0, 0, 0xFFFFFFFF, 0, 0, 0, 1, 1, .any, false⟩,
  ⟨0x100064, [(0x4000, 8)], .r32, 0, 0, 0, 0xFFFFFFFF, 0, 0, 0, 1, 1, .any, false⟩,
  ⟨0x100070, [(0x4000, 8)], .r32, 0, 0, 0, 0, 0, 0, 0xFFFFFFFF, 1, 1, .any, false⟩,
  ⟨0x100100, [(0x4000, 8), (0x8, 16)], .pu36, 0, 0xFFFFFFFFFFFFFFFF, 0, 0, 0, 0, 0, 1, 1, .any, false⟩]
/-- Rows of the BORE block. -/
def regsBORE1 : List RegDesc := [
  ⟨0x100200, [(0x4000, 8), (0x8, 64)], .pu36, 0, 0, 0, 0, 0, 0, 0xFFFFFFFFFFFFFFFF, 1, 1, .any, false⟩,
  ⟨0x100400, [(0x4000, 8), (0x8, 64)], .pu36, 0, 0, 0, 0, 0, 0, 0xFFFFFFFFFFFFFFFF, 1, 1, .any, true⟩,
  ⟨0x101000, [(0x4000, 8), (0x100, 48)], .r32, 0, 0x10000, 0, 0x2000000, 0, 0, 0x100FFFF, 1, 1, .any, false⟩,
  ⟨0x101004, [(0x4000, 8), (0x100, 48)], .r32, 0, 0, 0, 0, 0, 0, 0xFFFFFFFF, 1, 1, .any, false⟩,
  ⟨0x101008, [(0x4000, 8), (0x100, 48)], .r32, 0, 0, 0, 0, 0, 0, 0xFFFFFFFF, 1, 1, .any, false⟩,
  ⟨0x101040, [(0x4000, 8), (0x100, 48), (0x8, 8)], .pu36, 0, 0xFFFFFFFFFFFFFFFF, 0, 0, 0, 0, 0, 1, 1, .any, false⟩,
  ⟨0x101080, [(0x4000, 8), (0x100, 48), (0x8, 4)], .pu48, 0, 0xFFFFFFFFFFFFFFFF, 0, 0, 0, 0, 0, 1, 1, .any, false⟩,
  ⟨0x1010A0, [(0x4000, 8), (0x100, 48), (0x8, 4)], .pu36, 0, 0, 0, 0, 0, 0, 0xFFFFFFFFFFFFFFFF, 1, 1, .any, false⟩,
  ⟨0x1010C0, [(0x4000, 8), (0x100, 48), (0x8, 4)], .pu48, 0, 0, 0, 0, 0, 0, 0xFFFFFFFFFFFFFFFF, 1, 1, .any, true⟩,
  ⟨0x1010E0, [(0x4000, 8), (0x100, 48), (0x8, 4)], .pu36, 0, 0, 0, 0, 0, 0, 0xFFFFFFFFFFFFFFFF, 1, 1, .any, true⟩]
/-- Rows of the BORE block. -/
def regsBORE : List RegDesc := regsBORE0 ++ regsBORE1
/-- Rows of the GRID block. -/
def regsGRID0 : List RegDesc := [
  ⟨0x140000, [], .r32, 0, 0, 0, 0, 0x2, 0, 0, 9, 0, .any, false⟩,
  ⟨0x140004, [], .r32, 0, 0, 0, 0, 0, 0, 0x3FF, 9, 0, .any, false⟩,
  ⟨0x140008, [], .r32, 0, 0, 0, 0x7FF, 0, 0, 0, 9, 0, .any, false⟩,
  ⟨0x14000C, [], .r32, 0, 0x7FF, 0, 0, 0, 0, 0, 9, 0, .any, false⟩,
  ⟨0x140010, [], .r32, 0x3, 0x33F03, 0, 0, 0, 0, 0, 9, 0, .any, false⟩,
  ⟨0x140014, [], .r32, 0, 0x1, 0, 0, 0, 0, 0, 9, 0, .any, false⟩,
  ⟨0x140018, [], .r32, 0, 0, 0, 0, 0, 0x7FFFFFFF, 0x80000000, 9, 0, .any, false⟩,
  ⟨0x14001C, [], .r32, 0, 0, 0, 0, 0, 0, 0xFFFFFFFF, 9, 0, .any, false⟩,
  ⟨0x140020, [], .r32, 0x3F800000, 0xFFFFFFFF, 0, 0, 0, 0, 0, 9, 0, .any, false⟩,
  ⟨0x140024, [], .r32, 0x3F800000, 0xFFFFFFFF, 0, 0, 0, 0, 0, 9, 0, .any, false⟩,
  ⟨0x140028, [], .r32, 0x3FC00000, 0xFFFFFFFF, 0, 0, 0, 0, 0, 9, 0, .any, false⟩,
  ⟨0x14002C, [], .r32, 0x42480000, 0xFFFFFFFF, 0, 0, 0, 0, 0, 9, 0, .any, false⟩,
  ⟨0x140030, [], .pu36, 0x40000000, 0, 0, 0, 0, 0, 0xFFFFFFFFFFFFFFFF, 9, 0, .any, false⟩,
  ⟨0x140038, [], .r64, 0, 0, 0, 0, 0, 0, 0xFFFFFFFFFFFFFFFF, 9, 0, .any, false⟩,
  ⟨0x140040, [], .r32, 0, 0, 0, 0, 0, 0, 0xFFFFFFFF, 9, 0, .any, false⟩,
  ⟨0x140148, [], .r64, 0, 0, 0, 0, 0, 0, 0xFFFFFFFFFFFFFFFF, 9, 0, .any, false⟩,
  ⟨0x140048, [], .r32, 0x8, 0xFF, 0, 0, 0, 0, 0, 9, 0, .any, false⟩,
  ⟨0x14004C, [], .r32, 0x16C16C1, 0xFFFFFFFF, 0, 0, 0, 0, 0, 9, 0, .any, false⟩,
  ⟨0x140050, [], .pu36, 0x5A82799A, 0xFFFFFFFFFFFFFFFF, 0, 0, 0, 0, 0, 9, 0, .any, false⟩,
  ⟨0x140058, [], .pu36, 0x20000000, 0xFFFFFFFFFFFFFFFF, 0, 0, 0, 0, 0, 9, 0, .any, false⟩,
  ⟨0x140060, [], .pu36, 0x6666666, 0xFFFFFFFFFFFFFFFF, 0, 0, 0, 0, 0, 9, 0, .any, false⟩,
  ⟨0x140068, [], .pu36, 0x3333333, 0xFFFFFFFFFFFFFFFF, 0, 0, 0, 0, 0, 9, 0, .any, false⟩,
  ⟨0x140070, [], .pu36, 0x20C49C, 0xFFFFFFFFFFFFFFFF, 0, 0, 0, 0, 0, 9, 0, .any, false⟩,
  ⟨0x140078, [], .r32, 0, 0, 0, 0xFFFF, 0, 0, 0, 9, 0, .any, false⟩]
/-- Rows of the GRID block. -/
def regsGRID1 : List RegDesc := [
  ⟨0x140080, [], .r32, 0x100000, 0xFF0133, 0, 0, 0, 0, 0, 9, 0, .any, false⟩,
  ⟨0x140084, [], .r32, 0, 0xFFFFFFFF, 0, 0, 0, 0, 0, 9, 0, .any, false⟩,
  ⟨0x140088, [], .pu36, 0, 0xFFFFFFFFFFFFFFFF, 0, 0, 0, 0, 0, 9, 0, .any, false⟩,
  ⟨0x140090, [], .pu36, 0, 0xFFFFFFFFFFFFFFFF, 0, 0, 0, 0, 0, 9, 0, .any, false⟩,
  ⟨0x140098, [], .pu36, 0, 0xFFFFFFFFFFFFFFFF, 0, 0, 0, 0, 0, 9, 0, .any, false⟩,
  ⟨0x1400A0, [], .pu36, 0, 0xFFFFFFFFFFFFFFFF, 0, 0, 0, 0, 0, 9, 0, .any, false⟩,
  ⟨0x1400A8, [], .pu36, 0, 0xFFFFFFFFFFFFFFFF, 0, 0, 0, 0, 0, 9, 0, .any, false⟩,
  ⟨0x1400B0, [], .pu36, 0, 0xFFFFFFFFFFFFFFFF, 0, 0, 0, 0, 0, 9, 0, .any, false⟩,
  ⟨0x1400B8, [], .pu36, 0x46666666, 0xFFFFFFFFFFFFFFFF, 0, 0, 0, 0, 0, 9, 0, .any, false⟩,
  ⟨0x1400C0, [], .pu36, 0x6666666, 0xFFFFFFFFFFFFFFFF, 0, 0, 0, 0, 0, 9, 0, .any, false⟩,
  ⟨0x1400C8, [], .r32, 0, 0x73F03, 0, 0, 0, 0, 0, 9, 0, .any, false⟩,
  ⟨0x140100, [], .r32, 0x800, 0xFF01, 0, 0, 0, 0, 0, 9, 0, .any, false⟩,
  ⟨0x140108, [], .pu36, 0x40000000, 0xFFFFFFFFFFFFFFFF, 0, 0, 0, 0, 0, 9, 0, .any, false⟩,
  ⟨0x140110, [], .pu36, 0, 0xFFFFFFFFFFFFFFFF, 0, 0, 0, 0, 0, 9, 0, .any, false⟩,
  ⟨0x140118, [], .pu36, 0, 0xFFFFFFFFFFFFFFFF, 0, 0, 0, 0, 0, 9, 0, .any, false⟩,
  ⟨0x140120, [], .pu36, 0x40000000, 0xFFFFFFFFFFFFFFFF, 0, 0, 0, 0, 0, 9, 0, .any, false⟩,
  ⟨0x140128, [], .pu36, 0x40000000, 0xFFFFFFFFFFFFFFFF, 0, 0, 0, 0, 0, 9, 0, .any, false⟩,
  ⟨0x140130, [], .pu36, 0, 0xFFFFFFFFFFFFFFFF, 0, 0, 0, 0, 0, 9, 0, .any, false⟩,
  ⟨0x140138, [], .pu36, 0x6666666, 0xFFFFFFFFFFFFFFFF, 0, 0, 0, 0, 0, 9, 0, .any, false⟩,
  ⟨0x140140, [], .pu36, 0, 0xFFFFFFFFFFFFFFFF, 0, 0, 0, 0, 0, 9, 0, .any, false⟩,
  ⟨0x140150, [], .pu36, 0, 0xFFFFFFFFFFFFFFFF, 0, 0, 0, 0, 0, 9, 0, .any, false⟩,
  ⟨0x140158, [], .pu36, 0x3999999A, 0xFFFFFFFFFFFFFFFF, 0, 0, 0, 0, 0, 9, 0, .any, false⟩,
  ⟨0x140400, [(0x8, 64)], .pu36, 0, 0, 0, 0, 0, 0, 0xFFFFFFFFFFFFFFFF, 9, 0, .any, false⟩,
  ⟨0x140600, [(0x8, 64)], .pu36, 0, 0, 0, 0, 0, 0, 0xFFFFFFFFFFFFFFFF, 9, 0, .any, true⟩]
/-- Rows of the GRID block. -/
def regsGRID2 : List RegDesc := [
  ⟨0x140800, [(0x8, 16)], .pu36, 0, 0, 0, 0, 0, 0, 0xFFFFFFFFFFFFFFFF, 9, 0, .any, false⟩,
  ⟨0x140880, [(0x8, 16)], .pu36, 0, 0, 0, 0, 0, 0, 0xFFFFFFFFFFFFFFFF, 9, 0, .any, true⟩]
/-- Rows of the GRID block. -/
def regsGRID : List RegDesc := regsGRID0 ++ regsGRID1 ++ regsGRID2
/-- Rows of the MPPT block. -/
def regsMPPT0 : List RegDesc := [
  ⟨0x160000, [], .r32, 0, 0xFF, 0, 0, 0x10000, 0, 0, 9, 0, .any, false⟩,
  ⟨0x160004, [], .r32, 0, 0, 0, 0, 0, 0, 0x1F, 9, 0, .any, false⟩,
  ⟨0x160008, [], .r32, 0, 0, 0, 0xFF, 0, 0, 0, 9, 0, .any, false⟩,
  ⟨0x16000C, [], .r32, 0, 0xFF, 0, 0, 0, 0, 0, 9, 0, .any, false⟩,
  ⟨0x160010, [], .r32, 0xA280F, 0x1F7F3F, 0, 0, 0, 0, 0, 9, 0, .any, false⟩,
  ⟨0x160014, [], .r32, 0, 0, 0, 0, 0, 0, 0xFFFFFFFF, 9, 0, .any, false⟩,
  ⟨0x160018, [], .pu36, 0x147AE14, 0xFFFFFFFFFFFFFFFF, 0, 0, 0, 0, 0, 9, 0, .any, false⟩,
  ⟨0x160020, [], .pu36, 0, 0xFFFFFFFFFFFFFFFF, 0, 0, 0, 0, 0, 9, 0, .any, false⟩,
  ⟨0x160028, [], .pu36, 0, 0xFFFFFFFFFFFFFFFF, 0, 0, 0, 0, 0, 9, 0, .any, false⟩,
  ⟨0x160030, [], .pu36, 0, 0, 0, 0, 0, 0, 0xFFFFFFFFFFFFFFFF, 9, 0, .any, false⟩,
  ⟨0x160100, [(0x100, 8)], .r32, 0x1000040, 0x10000FF, 0, 0, 0, 0, 0x1F1F00, 9, 0, .any, false⟩,
  ⟨0x160104, [(0x100, 8)], .r32, 0, 0, 0, 0, 0, 0, 0xFF, 9, 0, .any, false⟩,
  ⟨0x160108, [(0x100, 8)], .r32, 0, 0xFFFFFFFF, 0, 0, 0, 0, 0, 9, 0, .any, false⟩,
  ⟨0x16010C, [(0x100, 8)], .r32, 0, 0, 0, 0, 0, 0x7FFFFFFF, 0x80000000, 9, 0, .any, false⟩,
  ⟨0x160110, [(0x100, 8)], .pu36, 0, 0, 0, 0, 0, 0, 0xFFFFFFFFFFFFFFFF, 9, 0, .any, false⟩,
  ⟨0x160118, [(0x100, 8)], .pu36, 0, 0, 0, 0, 0, 0, 0xFFFFFFFFFFFFFFFF, 9, 0, .any, false⟩,
  ⟨0x160120, [(0x100, 8)], .pu36, 0, 0, 0, 0, 0, 0, 0xFFFFFFFFFFFFFFFF, 9, 0, .any, false⟩,
  ⟨0x160128, [(0x100, 8)], .pu36, 0, 0, 0, 0, 0, 0, 0xFFFFFFFFFFFFFFFF, 9, 0, .any, false⟩,
  ⟨0x160130, [(0x100, 8)], .pu36, 0, 0, 0, 0, 0, 0, 0xFFFFFFFFFFFFFFFF, 9, 0, .any, false⟩,
  ⟨0x160138, [(0x100, 8)], .pu36, 0, 0xFFFFFFFFFFFFFFFF, 0, 0, 0, 0, 0, 9, 0, .any, false⟩,
  ⟨0x160140, [(0x100, 8)], .pu36, 0, 0xFFFFFFFFFFFFFFFF, 0, 0, 0, 0, 0, 9, 0, .any, false⟩,
  ⟨0x160148, [(0x100, 8)], .pu36, 0, 0xFFFFFFFFFFFFFFFF, 0, 0, 0, 0, 0, 9, 0, .any, false⟩,
  ⟨0x160150, [(0x100, 8)], .pu36, 0, 0xFFFFFFFFFFFFFFFF, 0, 0, 0, 0, 0, 9, 0, .any, false⟩,
  ⟨0x160158, [(0x100, 8)], .pu36, 0, 0xFFFFFFFFFFFFFFFF, 0, 0, 0, 0, 0, 9, 0, .any, false⟩]
/-- Rows of the MPPT block. -/
def regsMPPT1 : List RegDesc := [
  ⟨0x160160, [(0x100, 8)], .pu36, 0x33333333, 0xFFFFFFFFFFFFFFFF, 0, 0, 0, 0, 0, 9, 0, .any, false⟩,
  ⟨0x160168, [(0x100, 8)], .pu36, 0x10624E, 0xFFFFFFFFFFFFFFFF, 0, 0, 0, 0, 0, 9, 0, .any, false⟩,
  ⟨0x160170, [(0x100, 8)], .pu36, 0xA3D70A, 0xFFFFFFFFFFFFFFFF, 0, 0, 0, 0, 0, 9, 0, .any, false⟩,
  ⟨0x160178, [(0x100, 8)], .pu36, 0x3333333, 0xFFFFFFFFFFFFFFFF, 0, 0, 0, 0, 0, 9, 0, .any, false⟩,
  ⟨0x160180, [(0x100, 8)], .pu36, 0x83127, 0xFFFFFFFFFFFFFFFF, 0, 0, 0, 0, 0, 9, 0, .any, false⟩,
  ⟨0x160188, [(0x100, 8)], .pu36, 0x7FFFFFFFF, 0xFFFFFFFFFFFFFFFF, 0, 0, 0, 0, 0, 9, 0, .any, false⟩,
  ⟨0x160190, [(0x100, 8)], .pu36, 0, 0, 0, 0, 0, 0, 0xFFFFFFFFFFFFFFFF, 9, 0, .any, false⟩,
  ⟨0x160198, [(0x100, 8)], .pu36, 0, 0, 0, 0, 0, 0, 0xFFFFFFFFFFFFFFFF, 9, 0, .any, false⟩,
  ⟨0x1601C0, [(0x100, 8)], .pu36, 0, 0, 0, 0, 0, 0, 0xFFFFFFFFFFFFFFFF, 9, 0, .any, true⟩,
  ⟨0x1601C8, [(0x100, 8)], .pu36, 0, 0, 0, 0, 0, 0, 0xFFFFFFFFFFFFFFFF, 9, 0, .any, true⟩,
  ⟨0x1601D0, [(0x100, 8)], .pu36, 0, 0, 0, 0, 0, 0, 0xFFFFFFFFFFFFFFFF, 9, 0, .any, true⟩,
  ⟨0x1601D8, [(0x100, 8)], .pu36, 0, 0, 0, 0, 0, 0, 0xFFFFFFFFFFFFFFFF, 9, 0, .any, true⟩,
  ⟨0x1601E0, [(0x100, 8)], .pu36, 0, 0, 0, 0, 0, 0, 0xFFFFFFFFFFFFFFFF, 9, 0, .any, true⟩]
/-- Rows of the MPPT block. -/
def regsMPPT : List RegDesc := regsMPPT0 ++ regsMPPT1
/-- Rows of the RIDE block. -/
def regsRIDE : List RegDesc := [
  ⟨0x170000, [], .r32, 0, 0, 0, 0, 0, 0, 0x1F, 9, 0, .any, false⟩,
  ⟨0x170004, [], .r32, 0, 0, 0, 0, 0, 0, 0xFFFFFF, 9, 0, .any, false⟩,
  ⟨0x170008, [], .r32, 0, 0, 0, 0x3F, 0, 0, 0, 9, 0, .any, false⟩,
  ⟨0x17000C, [], .r32, 0, 0x3F, 0, 0, 0, 0, 0, 9, 0, .any, false⟩,
  ⟨0x170010, [], .r32, 0x64, 0xFFFF, 0, 0, 0, 0, 0, 9, 0, .any, false⟩,
  ⟨0x170014, [], .r32, 0, 0, 0, 0, 0, 0, 0x80000F1F, 9, 0, .any, false⟩,
  ⟨0x170018, [], .r32, 0, 0, 0, 0, 0, 0x7FFFFFFF, 0x80000000, 9, 0, .any, false⟩,
  ⟨0x170020, [], .pu36, 0x80000000, 0xFFFFFFFFFFFFFFFF, 0, 0, 0, 0, 0, 9, 0, .any, false⟩,
  ⟨0x170028, [], .pu36, 0x80000000, 0xFFFFFFFFFFFFFFFF, 0, 0, 0, 0, 0, 9, 0, .any, false⟩,
  ⟨0x170030, [], .pu36, 0x6666666, 0xFFFFFFFFFFFFFFFF, 0, 0, 0, 0, 0, 9, 0, .any, false⟩,
  ⟨0x170038, [], .pu36, 0, 0xFFFFFFFFFFFFFFFF, 0, 0, 0, 0, 0, 9, 0, .any, false⟩,
  ⟨0x170040, [], .pu36, 0, 0, 0, 0, 0, 0, 0xFFFFFFFFFFFFFFFF, 9, 0, .any, false⟩,
  ⟨0x170048, [], .pu36, 0, 0, 0, 0, 0, 0, 0xFFFFFFFFFFFFFFFF, 9, 0, .any, false⟩,
  ⟨0x170100, [(0x20, 3)], .pu36, 0x3999999A, 0xFFFFFFFFFFFFFFFF, 0, 0, 0, 0, 0, 9, 0, .any, false⟩,
  ⟨0x170160, [], .pu36, 0x3F5C28F6, 0xFFFFFFFFFFFFFFFF, 0, 0, 0, 0, 0, 9, 0, .any, false⟩,
  ⟨0x170108, [(0x20, 3)], .pu36, 0x46666666, 0xFFFFFFFFFFFFFFFF, 0, 0, 0, 0, 0, 9, 0, .any, false⟩,
  ⟨0x170168, [], .pu36, 0x40A3D70A, 0xFFFFFFFFFFFFFFFF, 0, 0, 0, 0, 0, 9, 0, .any, false⟩,
  ⟨0x170110, [(0x20, 3)], .pu36, 0xA3D70A, 0xFFFFFFFFFFFFFFFF, 0, 0, 0, 0, 0, 9, 0, .any, false⟩,
  ⟨0x170170, [], .pu36, 0x10624E, 0xFFFFFFFFFFFFFFFF, 0, 0, 0, 0, 0, 9, 0, .any, false⟩,
  ⟨0x170200, [(0x4, 24)], .r32, 0, 0, 0x3011F, 0, 0, 0, 0x1000000, 9, 0, .any, false⟩,
  ⟨0x171000, [(0x100, 24), (0x10, 16)], .pu36, 0, 0, 0xFFFFFFFFFFFFFFFF, 0, 0, 0, 0, 9, 0, .any, false⟩,
  ⟨0x171008, [(0x100, 24), (0x10, 16)], .r32, 0, 0, 0xFFFFFFFF, 0, 0, 0, 0, 9, 0, .any, false⟩]
/-- Rows of the PROBE block. -/
def regsPROBE0 : List RegDesc := [
  ⟨0x180000, [], .r32, 0x342000, 0xFFFF73, 0, 0, 0, 0, 0, 9, 0, .any, false⟩,
  ⟨0x180004, [], .r32, 0, 0, 0, 0, 0, 0, 0x7F, 9, 0, .any, false⟩,
  ⟨0x180008, [], .r32, 0, 0, 0, 0xFF, 0, 0, 0, 9, 0, .any, false⟩,
  ⟨0x18000C, [], .r32, 0, 0xFF, 0, 0, 0, 0, 0, 9, 0, .any, false⟩,
  ⟨0x180010, [], .r32, 0, 0x7FF, 0, 0, 0, 0, 0, 9, 0, .any, false⟩,
  ⟨0x180014, [], .r32, 0, 0, 0, 0, 0, 0, 0x103FF, 9, 0, .any, false⟩,
  ⟨0x180018, [], .r32, 0, 0xFF07, 0, 0, 0, 0, 0, 9, 0, .any, false⟩,
  ⟨0x18001C, [], .r32, 0, 0x9FFFFFFF, 0, 0, 0, 0, 0, 9, 0, .any, false⟩,
  ⟨0x180020, [], .r64, 0, 0xFFFFFFFFFFFFFFFF, 0, 0, 0, 0, 0, 9, 0, .any, false⟩,
  ⟨0x180028, [], .r32, 0, 0x103FF, 0, 0, 0x80000000, 0, 0, 9, 0, .any, false⟩,
  ⟨0x18002C, [], .r32, 0, 0, 0, 0, 0x3, 0, 0, 9, 0, .any, false⟩,
  ⟨0x180030, [], .r32, 0, 0, 0, 0, 0, 0, 0x1F, 9, 0, .any, false⟩,
  ⟨0x180034, [], .r32, 0, 0, 0, 0, 0, 0, 0xFFFFFFFF, 9, 0, .any, false⟩,
  ⟨0x180038, [], .r64, 0, 0, 0, 0, 0, 0, 0xFFFFFFFFFFFFFFFF, 9, 0, .any, false⟩,
  ⟨0x180040, [], .r64, 0, 0, 0, 0, 0, 0, 0xFFFFFFFFFFFFFFFF, 9, 0, .any, false⟩,
  ⟨0x180048, [], .r32, 0, 0, 0, 0, 0, 0x7FFFFFFF, 0x80000000, 9, 0, .any, false⟩,
  ⟨0x18004C, [], .r32, 0, 0, 0, 0, 0, 0x7FFFFFFF, 0x80000000, 9, 0, .any, false⟩,
  ⟨0x180050, [], .r32, 0xC8, 0xFFFF, 0, 0, 0, 0, 0, 9, 0, .any, false⟩,
  ⟨0x180054, [], .r32, 0xC8, 0xFFFF, 0, 0, 0, 0, 0, 9, 0, .any, false⟩,
  ⟨0x180058, [], .r32, 0x12C, 0xFFFF, 0, 0, 0, 0, 0, 9, 0, .any, false⟩,
  ⟨0x180080, [], .pu36, 0x3126E9, 0xFFFFFFFFFFFFFFFF, 0, 0, 0, 0, 0, 9, 0, .any, false⟩,
  ⟨0x180088, [], .pu36, 0x20000000, 0xFFFFFFFFFFFFFFFF, 0, 0, 0, 0, 0, 9, 0, .any, false⟩,
  ⟨0x180090, [], .pu36, 0x60000000, 0xFFFFFFFFFFFFFFFF, 0, 0, 0, 0, 0, 9, 0, .any, false⟩,
  ⟨0x180098, [], .pu36, 0x20000000, 0xFFFFFFFFFFFFFFFF, 0, 0, 0, 0, 0, 9, 0, .any, false⟩]
/-- Rows of the PROBE block. -/
def regsPROBE1 : List RegDesc := [
  ⟨0x1800A0, [], .pu36, 0x40000000, 0xFFFFFFFFFFFFFFFF, 0, 0, 0, 0, 0, 9, 0, .any, false⟩,
  ⟨0x1800A8, [], .pu36, 0x83127, 0xFFFFFFFFFFFFFFFF, 0, 0, 0, 0, 0, 9, 0, .any, false⟩,
  ⟨0x1800B0, [], .pu36, 0x3EB851EC, 0xFFFFFFFFFFFFFFFF, 0, 0, 0, 0, 0, 9, 0, .any, false⟩,
  ⟨0x1800B8, [], .pu36, 0x4147AE14, 0xFFFFFFFFFFFFFFFF, 0, 0, 0, 0, 0, 9, 0, .any, false⟩,
  ⟨0x1800C0, [], .pu36, 0x36666666, 0xFFFFFFFFFFFFFFFF, 0, 0, 0, 0, 0, 9, 0, .any, false⟩,
  ⟨0x1800C8, [], .pu36, 0x4999999A, 0xFFFFFFFFFFFFFFFF, 0, 0, 0, 0, 0, 9, 0, .any, false⟩,
  ⟨0x1800D0, [], .pu36, 0x147AE14, 0xFFFFFFFFFFFFFFFF, 0, 0, 0, 0, 0, 9, 0, .any, false⟩,
  ⟨0x180100, [], .pu36, 0, 0, 0, 0, 0, 0, 0xFFFFFFFFFFFFFFFF, 9, 0, .any, false⟩,
  ⟨0x180180, [], .pu36, 0, 0, 0, 0, 0, 0, 0xFFFFFFFFFFFFFFFF, 9, 0, .any, true⟩,
  ⟨0x180108, [], .pu36, 0, 0, 0, 0, 0, 0, 0xFFFFFFFFFFFFFFFF, 9, 0, .any, false⟩,
  ⟨0x180188, [], .pu36, 0, 0, 0, 0, 0, 0, 0xFFFFFFFFFFFFFFFF, 9, 0, .any, true⟩,
  ⟨0x180110, [], .pu36, 0, 0, 0, 0, 0, 0, 0xFFFFFFFFFFFFFFFF, 9, 0, .any, false⟩,
  ⟨0x180190, [], .pu36, 0, 0, 0, 0, 0, 0, 0xFFFFFFFFFFFFFFFF, 9, 0, .any, true⟩,
  ⟨0x180118, [], .pu36, 0, 0, 0, 0, 0, 0, 0xFFFFFFFFFFFFFFFF, 9, 0, .any, false⟩,
  ⟨0x180198, [], .pu36, 0, 0, 0, 0, 0, 0, 0xFFFFFFFFFFFFFFFF, 9, 0, .any, true⟩,
  ⟨0x180120, [], .pu36, 0, 0, 0, 0, 0, 0, 0xFFFFFFFFFFFFFFFF, 9, 0, .any, false⟩,
  ⟨0x1801A0, [], .pu36, 0, 0, 0, 0, 0, 0, 0xFFFFFFFFFFFFFFFF, 9, 0, .any, true⟩,
  ⟨0x180128, [], .pu36, 0, 0, 0, 0, 0, 0, 0xFFFFFFFFFFFFFFFF, 9, 0, .any, false⟩,
  ⟨0x1801A8, [], .pu36, 0, 0, 0, 0, 0, 0, 0xFFFFFFFFFFFFFFFF, 9, 0, .any, true⟩,
  ⟨0x180130, [], .pu36, 0, 0, 0, 0, 0, 0, 0xFFFFFFFFFFFFFFFF, 9, 0, .any, false⟩,
  ⟨0x1801B0, [], .pu36, 0, 0, 0, 0, 0, 0, 0xFFFFFFFFFFFFFFFF, 9, 0, .any, true⟩,
  ⟨0x180138, [], .pu36, 0, 0, 0, 0, 0, 0, 0xFFFFFFFFFFFFFFFF, 9, 0, .any, false⟩,
  ⟨0x1801B8, [], .pu36, 0, 0, 0, 0, 0, 0, 0xFFFFFFFFFFFFFFFF, 9, 0, .any, true⟩,
  ⟨0x180140, [], .pu36, 0, 0, 0, 0, 0, 0, 0xFFFFFFFFFFFFFFFF, 9, 0, .any, false⟩]
/-- Rows of the PROBE block. -/
def regsPROBE2 : List RegDesc := [
  ⟨0x1801C0, [], .pu36, 0, 0, 0, 0, 0, 0, 0xFFFFFFFFFFFFFFFF, 9, 0, .any, true⟩,
  ⟨0x190000, [(0x20, 1023), (0x8, 4)], .pu36, 0, 0, 0, 0, 0, 0, 0xFFFFFFFFFFFFFFFF, 9, 0, .any, false⟩]
/-- Rows of the PROBE block. -/
def regsPROBE : List RegDesc := regsPROBE0 ++ regsPROBE1 ++ regsPROBE2
/-- Rows of the METER block. -/
def regsMETER0 : List RegDesc := [
  ⟨0x1A0000, [], .r32, 0, 0x103, 0, 0, 0, 0, 0, 10, 0, .any, false⟩,
  ⟨0x1A1000, [(0x800, 2)], .r32, 0xA00, 0x13F00, 0, 0, 0, 0, 0x3, 10, 0, .any, false⟩,
  ⟨0x1A1004, [(0x800, 2)], .r32, 0, 0, 0, 0, 0, 0, 0x3FFF, 10, 0, .any, false⟩,
  ⟨0x1A1008, [(0x800, 2)], .r32, 0, 0, 0, 0x3FD, 0, 0, 0, 10, 0, .any, false⟩,
  ⟨0x1A100C, [(0x800, 2)], .r32, 0, 0x3FD, 0, 0, 0, 0, 0, 10, 0, .any, false⟩,
  ⟨0x1A1010, [(0x800, 2)], .r32, 0, 0, 0, 0, 0, 0, 0xFFFFFFFF, 10, 0, .any, false⟩,
  ⟨0x1A1014, [(0x800, 2)], .r32, 0, 0, 0, 0, 0, 0x7FFFFFFF, 0x80000000, 10, 0, .any, false⟩,
  ⟨0x1A1018, [(0x800, 2)], .r64, 0, 0xFFFFFFFFFFFFFFFF, 0, 0, 0, 0, 0, 10, 0, .any, false⟩,
  ⟨0x1A1020, [(0x800, 2), (0x8, 8)], .r64, 0, 0xFFFFFFFFFFFFFFFF, 0, 0, 0, 0, 0, 10, 0, .any, false⟩,
  ⟨0x1A1060, [(0x800, 2)], .pu36, 0x10624E, 0xFFFFFFFFFFFFFFFF, 0, 0, 0, 0, 0, 10, 0, .any, false⟩,
  ⟨0x1A1068, [(0x800, 2)], .pu36, 0x6666666, 0xFFFFFFFFFFFFFFFF, 0, 0, 0, 0, 0, 10, 0, .any, false⟩,
  ⟨0x1A1070, [(0x800, 2)], .pu36, 0x3333333, 0xFFFFFFFFFFFFFFFF, 0, 0, 0, 0, 0, 10, 0, .any, false⟩,
  ⟨0x1A1078, [(0x800, 2)], .pu36, 0x20000000, 0xFFFFFFFFFFFFFFFF, 0, 0, 0, 0, 0, 10, 0, .any, false⟩,
  ⟨0x1A1100, [(0x800, 2), (0x8, 3)], .pu36, 0, 0, 0, 0, 0, 0, 0xFFFFFFFFFFFFFFFF, 10, 0, .any, false⟩,
  ⟨0x1A1118, [(0x800, 2), (0x8, 3)], .pu36, 0, 0, 0, 0, 0, 0, 0xFFFFFFFFFFFFFFFF, 10, 0, .any, false⟩,
  ⟨0x1A1130, [(0x800, 2), (0x8, 4)], .pu36, 0, 0, 0, 0, 0, 0, 0xFFFFFFFFFFFFFFFF, 10, 0, .any, false⟩,
  ⟨0x1A1150, [(0x800, 2), (0x8, 4)], .pu36, 0, 0, 0, 0, 0, 0, 0xFFFFFFFFFFFFFFFF, 10, 0, .any, false⟩,
  ⟨0x1A1170, [(0x800, 2), (0x8, 4)], .pu36, 0, 0, 0, 0, 0, 0, 0xFFFFFFFFFFFFFFFF, 10, 0, .any, false⟩,
  ⟨0x1A1190, [(0x800, 2), (0x8, 4)], .pu36, 0, 0, 0, 0, 0, 0, 0xFFFFFFFFFFFFFFFF, 10, 0, .any, false⟩,
  ⟨0x1A11B0, [(0x800, 2)], .pu36, 0, 0, 0, 0, 0, 0, 0xFFFFFFFFFFFFFFFF, 10, 0, .any, false⟩,
  ⟨0x1A11B8, [(0x800, 2)], .pu36, 0, 0, 0, 0, 0, 0, 0xFFFFFFFFFFFFFFFF, 10, 0, .any, false⟩,
  ⟨0x1A11C0, [(0x800, 2), (0x4, 2)], .r32, 0, 0, 0, 0, 0, 0, 0xFFFFFFFF, 10, 0, .any, false⟩,
  ⟨0x1A11C8, [(0x800, 2), (0x4, 3)], .r32, 0, 0, 0, 0, 0, 0, 0xFFFFFFFF, 10, 0, .any, false⟩,
  ⟨0x1A11D8, [(0x800, 2)], .r64, 0, 0, 0, 0, 0, 0, 0xFFFFFFFFFFFFFFFF, 10, 0, .any, false⟩]
/-- Rows of the METER block. -/
def regsMETER1 : List RegDesc := [
  ⟨0x1A11E0, [(0x800, 2)], .r64, 0, 0, 0, 0, 0, 0, 0xFFFFFFFFFFFFFFFF, 10, 0, .any, false⟩,
  ⟨0x1A1300, [(0x800, 2), (0x8, 3)], .pu36, 0, 0, 0, 0, 0, 0, 0xFFFFFFFFFFFFFFFF, 10, 0, .any, true⟩,
  ⟨0x1A1318, [(0x800, 2), (0x8, 3)], .pu36, 0, 0, 0, 0, 0, 0, 0xFFFFFFFFFFFFFFFF, 10, 0, .any, true⟩,
  ⟨0x1A1330, [(0x800, 2), (0x8, 4)], .pu36, 0, 0, 0, 0, 0, 0, 0xFFFFFFFFFFFFFFFF, 10, 0, .any, true⟩,
  ⟨0x1A1350, [(0x800, 2), (0x8, 4)], .pu36, 0, 0, 0, 0, 0, 0, 0xFFFFFFFFFFFFFFFF, 10, 0, .any, true⟩,
  ⟨0x1A1370, [(0x800, 2), (0x8, 4)], .pu36, 0, 0, 0, 0, 0, 0, 0xFFFFFFFFFFFFFFFF, 10, 0, .any, true⟩,
  ⟨0x1A1390, [(0x800, 2), (0x8, 4)], .pu36, 0, 0, 0, 0, 0, 0, 0xFFFFFFFFFFFFFFFF, 10, 0, .any, true⟩,
  ⟨0x1A13B0, [(0x800, 2)], .pu36, 0, 0, 0, 0, 0, 0, 0xFFFFFFFFFFFFFFFF, 10, 0, .any, true⟩,
  ⟨0x1A13B8, [(0x800, 2)], .pu36, 0, 0, 0, 0, 0, 0, 0xFFFFFFFFFFFFFFFF, 10, 0, .any, true⟩,
  ⟨0x1A13C0, [(0x800, 2), (0x4, 2)], .r32, 0, 0, 0, 0, 0, 0, 0xFFFFFFFF, 10, 0, .any, true⟩,
  ⟨0x1A13C8, [(0x800, 2), (0x4, 3)], .r32, 0, 0, 0, 0, 0, 0, 0xFFFFFFFF, 10, 0, .any, true⟩,
  ⟨0x1A13D8, [(0x800, 2)], .r64, 0, 0, 0, 0, 0, 0, 0xFFFFFFFFFFFFFFFF, 10, 0, .any, true⟩,
  ⟨0x1A13E0, [(0x800, 2)], .r64, 0, 0, 0, 0, 0, 0, 0xFFFFFFFFFFFFFFFF, 10, 0, .any, true⟩,
  ⟨0x1A1418, [(0x800, 2)], .r64, 0, 0, 0, 0, 0, 0, 0xFFFFFFFFFFFFFFFF, 10, 0, .any, true⟩,
  ⟨0x1A1420, [(0x800, 2), (0x8, 8)], .r64, 0, 0, 0, 0, 0, 0, 0xFFFFFFFFFFFFFFFF, 10, 0, .any, true⟩,
  ⟨0x1A8000, [], .r32, 0x61000002, 0, 0, 0, 0, 0, 0xFFFFFFFF, 10, 0, .any, false⟩,
  ⟨0x1A8004, [], .r32, 0, 0, 0, 0, 0, 0, 0xFFFFFFFF, 10, 0, .any, false⟩,
  ⟨0x1A8008, [(0x4, 62)], .r32, 0, 0, 0, 0, 0, 0, 0xFFFFFFFF, 10, 0, .any, false⟩]
/-- Rows of the METER block. -/
def regsMETER : List RegDesc := regsMETER0 ++ regsMETER1
/-- Rows of the CHNT block. -/
def regsCHNT : List RegDesc := [
  ⟨0x1C0000, [], .r32, 0, 0, 0, 0, 0, 0, 0, 0, 0, .any, false⟩,
  ⟨0x1C0004, [], .r32, 0, 0, 0, 0, 0, 0, 0x3F, 0, 0, .any, false⟩,
  ⟨0x1C0008, [], .r32, 0, 0, 0, 0xF, 0, 0, 0, 0, 0, .any, false⟩,
  ⟨0x1C000C, [], .r32, 0, 0xF, 0, 0, 0, 0, 0, 0, 0, .any, false⟩,
  ⟨0x1C0010, [], .r32, 0, 0, 0, 0, 0, 0, 0x707, 0, 0, .any, false⟩,
  ⟨0x1C0018, [], .r64, 0, 0, 0, 0, 0, 0, 0xFFFFFFFFFFFFFFFF, 0, 0, .any, false⟩,
  ⟨0x1C0020, [], .r32, 0, 0, 0, 0, 0, 0, 0x3FF, 0, 0, .any, false⟩,
  ⟨0x1C0040, [], .r32, 0, 0, 0, 0, 0, 0, 0, 0, 0, .any, false⟩,
  ⟨0x1C0044, [(0x4, 2)], .r32, 0, 0, 0, 0, 0, 0, 0x8000FFFF, 0, 0, .any, false⟩,
  ⟨0x1C0050, [], .r32, 0, 0, 0, 0, 0, 0, 0x7FFFF, 0, 0, .any, false⟩,
  ⟨0x1C0060, [], .r32, 0, 0, 0, 0, 0, 0, 0, 0, 0, .any, false⟩,
  ⟨0x1C0064, [], .r32, 0, 0, 0, 0, 0, 0, 0, 0, 0, .any, false⟩,
  ⟨0x1C0068, [], .r32, 0x64, 0x7F, 0, 0, 0, 0, 0, 0, 0, .any, false⟩,
  ⟨0x1C006C, [], .r32, 0, 0, 0, 0, 0, 0, 0xFFFFFF, 0, 0, .any, false⟩,
  ⟨0x1C0070, [], .r32, 0, 0, 0, 0, 0, 0, 0, 0, 0, .any, false⟩,
  ⟨0x1C0080, [], .r32, 0, 0, 0, 0, 0, 0x7FFFFFFF, 0x80000000, 0, 0, .any, false⟩,
  ⟨0x1C0084, [], .r32, 0, 0, 0, 0, 0, 0, 0xFFFFFFFF, 0, 0, .any, false⟩,
  ⟨0x1C0090, [], .r64, 0xFFFFFFFFFFFFFFFF, 0xFFFFFFFFFFFFFFFF, 0, 0, 0, 0, 0, 0, 0, .any, false⟩,
  ⟨0x1C0098, [], .r32, 0x10000000, 0xFFFFFFFF, 0, 0, 0, 0, 0, 0, 0, .fw, false⟩,
  ⟨0x1C0100, [], .r32, 0, 0, 0, 0, 0, 0, 0x1FF01FF, 0, 0, .any, false⟩,
  ⟨0x1C0104, [], .r32, 0, 0x7, 0, 0, 0, 0, 0, 0, 0, .any, false⟩,
  ⟨0x1C0108, [], .r32, 0, 0, 0, 0, 0, 0, 0, 0, 0, .any, false⟩,
  ⟨0x1C1000, [(0x4, 256)], .r32, 0, 0x107, 0, 0, 0, 0, 0, 0, 0, .any, false⟩,
  ⟨0x1C1400, [(0x4, 256)], .r32, 0, 0, 0, 0, 0, 0, 0x3FF, 0, 0, .any, false⟩]
/-- Rows of the DRONE block. -/
def regsDRONE : List RegDesc := [
  ⟨0x1D0000, [], .r32, 0, 0, 0, 0, 0, 0, 0xF1FF, 33, 0, .any, false⟩,
  ⟨0x1D0004, [], .r32, 0, 0, 0, 0, 0, 0, 0xFF3F, 33, 0, .any, false⟩,
  ⟨0x1D0030, [], .r32, 0, 0, 0, 0, 0, 0, 0xFF3F, 33, 0, .any, false⟩,
  ⟨0x1D0008, [], .r32, 0, 0, 0, 0, 0, 0, 0x3F3F3F3F, 33, 0, .any, false⟩,
  ⟨0x1D000C, [], .r32, 0, 0, 0, 0, 0, 0, 0xFFFFFFFF, 33, 0, .any, false⟩,
  ⟨0x1D0010, [], .r32, 0, 0, 0, 0, 0, 0, 0x3FFFF, 33, 0, .any, false⟩,
  ⟨0x1D0014, [], .r32, 0, 0, 0, 0, 0, 0, 0xFFFF0107, 33, 0, .any, false⟩,
  ⟨0x1D0018, [], .r32, 0, 0, 0, 0, 0, 0, 0xFFFFFFFF, 33, 0, .any, false⟩,
  ⟨0x1D001C, [], .r32, 0, 0, 0, 0, 0, 0, 0xFFFFFFFF, 33, 0, .any, false⟩,
  ⟨0x1D0020, [], .r32, 0, 0, 0, 0, 0, 0, 0xFFFFFFFF, 33, 0, .any, false⟩,
  ⟨0x1D0028, [], .r64, 0, 0, 0, 0, 0, 0, 0xFFFFFFFFFFFFFFFF, 33, 0, .any, false⟩,
  ⟨0x1D0034, [], .r32, 0, 0, 0, 0, 0, 0, 0x3FFFF, 33, 0, .any, false⟩,
  ⟨0x1D0100, [(0x4, 16)], .r32, 0, 0, 0, 0, 0, 0, 0xFFFFFFFF, 33, 0, .any, false⟩]
/-- Rows of the PAIR block. -/
def regsPAIR : List RegDesc := [
  ⟨0x1E0000, [], .r32, 0, 0, 0, 0, 0, 0, 0, 15, 0, .any, false⟩,
  ⟨0x1E0004, [], .r32, 0, 0, 0, 0, 0, 0, 0xFF0000FF, 15, 0, .any, false⟩,
  ⟨0x1E0008, [], .r32, 0x1, 0x1, 0, 0, 0, 0, 0, 15, 0, .any, false⟩,
  ⟨0x1E000C, [], .r32, 0, 0, 0, 0x1F, 0, 0, 0, 15, 0, .any, false⟩,
  ⟨0x1E0010, [], .r32, 0, 0x1F, 0, 0, 0, 0, 0, 15, 0, .any, false⟩,
  ⟨0x1E0014, [], .r32, 0, 0, 0, 0, 0, 0x7FFFFFFF, 0x80000000, 15, 0, .any, false⟩,
  ⟨0x1E0018, [], .r32, 0, 0, 0, 0, 0, 0x7FFFFFFF, 0x80000000, 15, 0, .any, false⟩,
  ⟨0x1E001C, [], .r32, 0, 0, 0, 0, 0, 0, 0xFFFF, 15, 0, .any, false⟩,
  ⟨0x1E0020, [], .r64, 0, 0, 0, 0, 0, 0, 0xFFFFFFFFFFFFFFFF, 15, 0, .any, false⟩]
/-- Rows of the CAN block. -/
def regsCAN0 : List RegDesc := [
  ⟨0x20F000, [], .r32, 0, 0x1F, 0, 0, 0, 0, 0, 14, 0, .any, false⟩,
  ⟨0x20F004, [], .r32, 0, 0x9FFFFFFF, 0, 0, 0, 0, 0, 14, 0, .any, false⟩,
  ⟨0x20F008, [], .r32, 0xA, 0x7F, 0, 0, 0, 0, 0, 14, 0, .any, false⟩,
  ⟨0x20F00C, [], .r32, 0, 0, 0, 0, 0, 0, 0xF000FF07, 14, 0, .any, false⟩,
  ⟨0x20F010, [], .r32, 0, 0, 0, 0x1F, 0, 0, 0, 14, 0, .any, false⟩,
  ⟨0x20F014, [], .r32, 0, 0x1F, 0, 0, 0, 0, 0, 14, 0, .any, false⟩,
  ⟨0x20F018, [], .r64, 0, 0, 0, 0, 0, 0, 0xFFFFFFFFFFFFFFFF, 14, 0, .any, false⟩,
  ⟨0x20F020, [], .r32, 0, 0, 0, 0, 0, 0, 0xFF, 14, 0, .any, false⟩,
  ⟨0x20F028, [], .r64, 0, 0, 0, 0, 0, 0, 0xFFFFFFFFFFFFFFFF, 14, 0, .any, true⟩,
  ⟨0x20F030, [], .r64, 0, 0, 0, 0, 0, 0, 0xFFFFFFFFFFFFFFFF, 14, 0, .any, true⟩,
  ⟨0x20F038, [], .r64, 0, 0, 0, 0, 0, 0, 0, 14, 0, .any, false⟩,
  ⟨0x20F040, [], .r32, 0, 0, 0, 0, 0, 0, 0xFFFFFFFF, 14, 0, .any, false⟩,
  ⟨0x20F044, [], .r32, 0, 0, 0, 0, 0, 0, 0xFFFFFFFF, 14, 0, .any, false⟩,
  ⟨0x20F048, [], .r32, 0, 0xFFFFFFFF, 0, 0, 0, 0, 0, 14, 0, .any, false⟩,
  ⟨0x20F04C, [], .r32, 0x3E80064, 0xFFFFFFFF, 0, 0, 0, 0, 0, 14, 0, .any, false⟩,
  ⟨0x200000, [(0x10000, 4)], .r32, 0, 0x3FF, 0, 0, 0x400, 0, 0, 14, 0, .any, false⟩,
  ⟨0x200004, [(0x10000, 4)], .r32, 0, 0, 0, 0, 0, 0, 0xF0003F17, 14, 0, .any, false⟩,
  ⟨0x200008, [(0x10000, 4)], .r32, 0, 0, 0, 0xFFF, 0, 0, 0, 14, 0, .any, false⟩,
  ⟨0x20000C, [(0x10000, 4)], .r32, 0, 0xFFF, 0, 0, 0, 0, 0, 14, 0, .any, false⟩,
  ⟨0x200010, [(0x10000, 4)], .r32, 0x10101F82, 0xFFFFFFBF, 0, 0, 0, 0, 0, 14, 0, .any, false⟩,
  ⟨0x200014, [(0x10000, 4)], .r32, 0x2020702, 0x1F1F3F3F, 0, 0, 0, 0, 0, 14, 0, .any, false⟩,
  ⟨0x200018, [(0x10000, 4)], .r32, 0, 0xFF01, 0, 0, 0, 0, 0xFF0000, 14, 0, .any, false⟩,
  ⟨0x20001C, [(0x10000, 4)], .r32, 0, 0, 0, 0, 0, 0, 0x7FFFF, 14, 0, .any, false⟩,
  ⟨0x200020, [(0x10000, 4)], .r32, 0, 0x9FFFFFFF, 0, 0, 0, 0, 0, 14, 0, .any, false⟩]
/-- Rows of the CAN block. -/
def regsCAN1 : List RegDesc := [
  ⟨0x200024, [(0x10000, 4)], .r32, 0, 0x9FFFFFFF, 0, 0, 0, 0, 0, 14, 0, .any, false⟩,
  ⟨0x200028, [(0x10000, 4)], .r32, 0, 0x3F0F, 0, 0, 0, 0, 0, 14, 0, .any, false⟩,
  ⟨0x200030, [(0x10000, 4)], .r64, 0, 0xFFFFFFFFFFFFFFFF, 0, 0, 0, 0, 0, 14, 0, .any, false⟩,
  ⟨0x200038, [(0x10000, 4)], .r64, 0, 0xFFFFFFFFFFFFFFFF, 0, 0, 0, 0, 0, 14, 0, .any, false⟩,
  ⟨0x200040, [(0x10000, 4)], .r32, 0, 0, 0, 0, 0xFFFFFFFF, 0, 0, 14, 0, .any, false⟩,
  ⟨0x200044, [(0x10000, 4)], .r32, 0, 0, 0, 0, 0xFFFFFFFF, 0, 0, 14, 0, .any, false⟩,
  ⟨0x200048, [(0x10000, 4)], .r32, 0, 0, 0, 0, 0xFFFFFFFF, 0, 0, 14, 0, .any, false⟩,
  ⟨0x20004C, [(0x10000, 4)], .r32, 0, 0, 0, 0, 0xFFFFFFFF, 0, 0, 14, 0, .any, false⟩,
  ⟨0x200060, [(0x10000, 4)], .r32, 0, 0x9FFFFFFF, 0, 0, 0, 0, 0, 14, 0, .any, false⟩,
  ⟨0x200064, [(0x10000, 4)], .r32, 0, 0x9FFFFFFF, 0, 0, 0, 0, 0, 14, 0, .any, false⟩,
  ⟨0x200068, [(0x10000, 4)], .r32, 0, 0x1, 0, 0, 0, 0, 0, 14, 0, .any, false⟩,
  ⟨0x20006C, [(0x10000, 4)], .r32, 0, 0, 0, 0, 0, 0, 0, 14, 0, .any, false⟩,
  ⟨0x200070, [(0x10000, 4)], .r32, 0, 0, 0, 0, 0, 0x7FFFFFFF, 0x80000000, 14, 0, .any, false⟩,
  ⟨0x200074, [(0x10000, 4)], .r32, 0, 0, 0, 0, 0, 0x7FFFFFFF, 0x80000000, 14, 0, .any, false⟩,
  ⟨0x200078, [(0x10000, 4)], .r32, 0, 0, 0, 0, 0, 0x7FFFFFFF, 0x80000000, 14, 0, .any, false⟩,
  ⟨0x20007C, [(0x10000, 4)], .r32, 0, 0, 0, 0, 0, 0x7FFFFFFF, 0x80000000, 14, 0, .any, false⟩,
  ⟨0x201000, [(0x10000, 4), (0x80, 64)], .r32, 0, 0xF7B, 0, 0xE0000, 0, 0, 0x10080, 14, 0, .any, false⟩,
  ⟨0x201004, [(0x10000, 4), (0x80, 64)], .r32, 0, 0x9FFFFFFF, 0, 0, 0, 0, 0, 14, 0, .any, false⟩,
  ⟨0x201008, [(0x10000, 4), (0x80, 64)], .r64, 0, 0, 0, 0, 0, 0, 0xFFFFFFFFFFFFFFFF, 14, 0, .any, false⟩,
  ⟨0x201010, [(0x10000, 4), (0x80, 64)], .r32, 0, 0x1FFFFFFF, 0, 0, 0, 0, 0, 14, 0, .any, false⟩,
  ⟨0x201040, [(0x10000, 4), (0x80, 64), (0x4, 16)], .r32, 0, 0xFFFFFFFF, 0, 0, 0, 0, 0, 14, 0, .any, false⟩,
  ⟨0x204000, [(0x10000, 4)], .r32, 0, 0, 0, 0, 0, 0, 0xF0FFB, 14, 0, .any, false⟩,
  ⟨0x204004, [(0x10000, 4)], .r32, 0, 0, 0, 0, 0, 0, 0x9FFFFFFF, 14, 0, .any, false⟩,
  ⟨0x204008, [(0x10000, 4)], .r64, 0, 0, 0, 0, 0, 0, 0xFFFFFFFFFFFFFFFF, 14, 0, .any, false⟩]
/-- Rows of the CAN block. -/
def regsCAN2 : List RegDesc := [
  ⟨0x204010, [(0x10000, 4)], .r32, 0, 0, 0, 0, 0, 0, 0x1FFFFFFF, 14, 0, .any, false⟩,
  ⟨0x204040, [(0x10000, 4), (0x4, 16)], .r32, 0, 0, 0, 0, 0, 0, 0xFFFFFFFF, 14, 0, .any, false⟩]
/-- Rows of the CAN block. -/
def regsCAN : List RegDesc := regsCAN0 ++ regsCAN1 ++ regsCAN2
/-- Rows of the HOST block. -/
def regsHOST : List RegDesc := [
  ⟨0x240000, [], .r32, 0, 0x3, 0, 0, 0, 0, 0, 13, 0, .any, false⟩,
  ⟨0x240004, [], .r32, 0, 0, 0, 0, 0, 0, 0xFD, 13, 0, .any, false⟩,
  ⟨0x240008, [], .r32, 0, 0, 0, 0x1, 0, 0, 0, 13, 0, .any, false⟩,
  ⟨0x24000C, [], .r32, 0, 0, 0, 0, 0, 0, 0xEFFFFFFF, 13, 0, .any, false⟩,
  ⟨0x240010, [], .r32, 0, 0, 0, 0, 0, 0x7FFFFFFF, 0x80000000, 13, 0, .any, false⟩,
  ⟨0x240018, [], .r64, 0, 0x1FF000000, 0, 0, 0, 0, 0, 13, 0, .any, false⟩,
  ⟨0x240100, [], .r32, 0, 0, 0, 0, 0xFFFF, 0, 0, 13, 0, .any, false⟩,
  ⟨0x240104, [], .r32, 0, 0, 0, 0, 0xFFFF, 0, 0, 13, 0, .any, false⟩,
  ⟨0x241000, [(0x4, 80)], .r32, 0, 0x11F, 0, 0, 0, 0, 0, 13, 0, .any, false⟩,
  ⟨0x241400, [(0x4, 32)], .r32, 0, 0, 0, 0, 0, 0, 0x3FF, 13, 0, .any, false⟩,
  ⟨0x242000, [(0x10, 32)], .r64, 0, 0xFFFFFFFFFFFFFFFC, 0, 0, 0, 0, 0, 13, 0, .any, false⟩,
  ⟨0x242008, [(0x10, 32)], .r32, 0, 0xFFFFFFFF, 0, 0, 0, 0, 0, 13, 0, .any, false⟩,
  ⟨0x24200C, [(0x10, 32)], .r32, 0x1, 0x1, 0, 0, 0, 0, 0, 13, 0, .any, false⟩,
  ⟨0x243000, [], .r64, 0, 0, 0, 0, 0, 0, 0xFFFFFFFFFFFFFFFF, 13, 0, .any, false⟩,
  ⟨0x244000, [(0x4, 1024)], .r32, 0, 0xFFFFFFFF, 0, 0, 0, 0, 0, 13, 0, .host, false⟩,
  ⟨0x245000, [(0x4, 1024)], .r32, 0, 0xFFFFFFFF, 0, 0, 0, 0, 0, 13, 0, .fw, false⟩]
/-- Rows of the REC block. -/
def regsREC : List RegDesc := [
  ⟨0x2A0000, [], .r32, 0x2, 0x3, 0, 0, 0, 0, 0x300, 12, 0, .any, false⟩,
  ⟨0x2A0004, [], .r32, 0, 0, 0, 0x2, 0, 0, 0x1, 12, 0, .any, false⟩,
  ⟨0x2B0000, [], .r32, 0x1C00, 0x1F03, 0, 0, 0, 0, 0, 12, 0, .any, false⟩,
  ⟨0x2B0004, [], .r32, 0, 0, 0, 0, 0, 0, 0, 12, 0, .any, false⟩,
  ⟨0x2B0008, [], .r32, 0, 0xFFFFFFF, 0, 0, 0, 0, 0, 12, 0, .any, false⟩,
  ⟨0x2B000C, [], .r32, 0, 0, 0, 0, 0, 0, 0xFF007F01, 12, 0, .any, false⟩,
  ⟨0x2B4000, [(0x4, 4096)], .r32, 0, 0xFFFFFFFF, 0, 0, 0, 0, 0, 12, 0, .any, false⟩,
  ⟨0x280000, [], .r32, 0, 0x1, 0, 0, 0, 0, 0, 12, 0, .any, false⟩,
  ⟨0x280004, [], .r32, 0, 0, 0, 0, 0, 0, 0xF71, 12, 0, .any, false⟩,
  ⟨0x280008, [], .r32, 0, 0, 0, 0, 0x3, 0, 0, 12, 0, .any, false⟩,
  ⟨0x28000C, [], .r32, 0x7F, 0x7F, 0, 0, 0, 0, 0, 12, 0, .any, false⟩,
  ⟨0x280010, [], .r32, 0, 0xFFFFFFFF, 0, 0, 0, 0, 0, 12, 0, .any, false⟩,
  ⟨0x280014, [], .r32, 0, 0, 0, 0xF, 0, 0, 0, 12, 0, .any, false⟩,
  ⟨0x280018, [], .r32, 0, 0xF, 0, 0, 0, 0, 0, 12, 0, .any, false⟩,
  ⟨0x28001C, [], .r32, 0, 0, 0, 0, 0, 0x7FFFFFFF, 0x80000000, 12, 0, .any, false⟩,
  ⟨0x280020, [], .r32, 0, 0, 0, 0, 0, 0x7FFFFFFF, 0x80000000, 12, 0, .any, false⟩,
  ⟨0x280024, [], .r32, 0, 0, 0, 0, 0, 0x7FFFFFFF, 0x80000000, 12, 0, .any, false⟩,
  ⟨0x280100, [(0x20, 8)], .r64, 0, 0x1FFFFFFC0, 0, 0, 0, 0, 0, 12, 0, .any, false⟩,
  ⟨0x280108, [(0x20, 8)], .r64, 0, 0x1FFFFFFC0, 0, 0, 0, 0, 0, 12, 0, .any, false⟩,
  ⟨0x280110, [(0x20, 8)], .r64, 0, 0, 0, 0, 0, 0, 0x1FFFFFFFF, 12, 0, .any, false⟩,
  ⟨0x280118, [(0x20, 8)], .r32, 0, 0, 0, 0, 0x10, 0, 0x3, 12, 0, .any, false⟩,
  ⟨0x280400, [], .r64, 0, 0x1FFFFFFFC, 0, 0, 0, 0, 0, 12, 0, .any, false⟩,
  ⟨0x280408, [], .r32, 0, 0, 0, 0, 0, 0, 0xFFFFFFFF, 12, 0, .any, false⟩,
  ⟨0x281000, [(0x4, 64)], .r32, 0, 0, 0, 0, 0, 0, 0x9FFFFFFF, 12, 0, .any, false⟩]
/-- Rows of the BOOT block. -/
def regsBOOT : List RegDesc := [
  ⟨0x2C0000, [], .r32, 0, 0, 0, 0, 0, 0, 0xFFFF0307, 11, 0, .any, false⟩,
  ⟨0x2C0004, [], .r32, 0, 0, 0, 0x3F, 0, 0, 0, 11, 0, .any, false⟩,
  ⟨0x2C0008, [], .r32, 0, 0x3F, 0, 0, 0, 0, 0, 11, 0, .any, false⟩,
  ⟨0x2C0010, [], .r64, 0, 0, 0, 0, 0, 0, 0xFFFFFFFFFFFFFFFF, 11, 0, .any, false⟩,
  ⟨0x2C0018, [], .r32, 0, 0, 0, 0, 0, 0, 0xFFFF000F, 11, 0, .any, false⟩,
  ⟨0x2C001C, [], .r32, 0, 0, 0, 0, 0, 0, 0xFFFFFFFF, 11, 0, .any, false⟩,
  ⟨0x2C0020, [], .r32, 0, 0, 0, 0, 0, 0, 0, 11, 0, .host, false⟩,
  ⟨0x2C0024, [], .r32, 0, 0xFFFFFFFF, 0, 0, 0, 0, 0, 11, 0, .host, false⟩,
  ⟨0x2C0028, [], .r32, 0, 0xFFFFFFFF, 0, 0, 0, 0, 0, 11, 0, .host, false⟩,
  ⟨0x2C002C, [], .r32, 0, 0xFFFFFFFF, 0, 0, 0, 0, 0, 11, 0, .host, false⟩,
  ⟨0x2C0030, [], .r32, 0, 0xFFFFFFFF, 0, 0, 0, 0, 0, 11, 0, .host, false⟩,
  ⟨0x2C0034, [], .r32, 0, 0, 0, 0, 0, 0, 0xFFFFFFF1, 11, 0, .any, false⟩,
  ⟨0x2C0040, [], .r32, 0, 0, 0, 0, 0, 0, 0, 11, 0, .host, false⟩,
  ⟨0x2C0048, [], .r64, 0, 0, 0, 0, 0, 0, 0xFFFFFFFFFFFFFFFF, 11, 0, .any, false⟩,
  ⟨0x2C0050, [], .r64, 0, 0, 0, 0, 0, 0, 0xFFFFFFFFFFFFFFFF, 11, 0, .any, false⟩,
  ⟨0x2C0058, [], .r32, 0, 0, 0, 0, 0, 0, 0xFFFF, 11, 0, .any, false⟩,
  ⟨0x2C0100, [(0x4, 16)], .r32, 0, 0, 0, 0, 0, 0, 0xFFFFFFFF, 11, 0, .any, false⟩,
  ⟨0x2C1000, [(0x4, 1024)], .r32, 0, 0xFFFFFFFF, 0, 0, 0, 0, 0, 11, 0, .host, false⟩]
/-- Rows of the SEC block. -/
def regsSEC : List RegDesc := [
  ⟨0x300000, [], .r32, 0, 0, 0, 0, 0, 0, 0xFF000001, 16, 0, .any, false⟩,
  ⟨0x300004, [], .r32, 0, 0, 0, 0xF, 0, 0, 0, 16, 0, .any, false⟩,
  ⟨0x300008, [], .r32, 0, 0xF, 0, 0, 0, 0, 0, 16, 0, .any, false⟩,
  ⟨0x300010, [(0x4, 4)], .r32, 0, 0, 0, 0, 0, 0, 0x7, 16, 0, .any, false⟩,
  ⟨0x300020, [], .r32, 0, 0, 0, 0, 0, 0, 0, 16, 0, .host, false⟩,
  ⟨0x300030, [], .r32, 0, 0, 0, 0, 0x1, 0, 0, 16, 0, .any, false⟩,
  ⟨0x300034, [], .r32, 0, 0, 0, 0, 0, 0, 0x7FF, 16, 0, .any, false⟩,
  ⟨0x300038, [], .r32, 0, 0, 0, 0, 0, 0, 0xFFFFFFFF, 16, 0, .any, false⟩,
  ⟨0x30003C, [], .r32, 0, 0, 0, 0, 0, 0, 0, 16, 0, .fw, false⟩,
  ⟨0x300040, [], .r32, 0, 0xFFFFFFFF, 0, 0, 0, 0, 0, 16, 0, .fw, false⟩,
  ⟨0x300044, [], .r32, 0, 0xFFFFFFFF, 0, 0, 0, 0, 0, 16, 0, .fw, false⟩,
  ⟨0x300100, [(0x4, 16)], .r32, 0, 0, 0, 0, 0, 0, 0, 16, 0, .any, false⟩,
  ⟨0x300200, [(0x4, 8)], .r32, 0, 0, 0, 0, 0, 0, 0, 16, 0, .any, false⟩,
  ⟨0x300300, [(0x4, 8)], .r32, 0, 0xFFFFFFFF, 0, 0, 0, 0, 0, 16, 0, .any, false⟩,
  ⟨0x300400, [(0x4, 101)], .r32, 0, 0, 0, 0, 0, 0, 0xFFFFFFFF, 16, 0, .any, false⟩,
  ⟨0x300600, [(0x4, 34)], .r32, 0, 0, 0, 0, 0, 0, 0xFFFFFFFF, 16, 0, .any, false⟩,
  ⟨0x300800, [(0x4, 256)], .r32, 0, 0, 0, 0, 0, 0, 0xFFFFFFFF, 16, 0, .any, false⟩]

/-- The rows of the block that offset `off` lies in (R42); none for an unmapped offset. -/
def blockRegs (off : Nat) : List RegDesc :=
  let b := off / 0x10000
  if 0 ≤ b ∧ b < 1 then regsSYS else
  if 1 ≤ b ∧ b < 2 then regsCLK else
  if 2 ≤ b ∧ b < 3 then regsHARV else
  if 4 ≤ b ∧ b < 5 then regsFING else
  if 8 ≤ b ∧ b < 10 then regsCONV else
  if 10 ≤ b ∧ b < 12 then regsWIN else
  if 12 ≤ b ∧ b < 14 then regsEDGE else
  if 14 ≤ b ∧ b < 16 then regsGATE else
  if 16 ≤ b ∧ b < 18 then regsBORE else
  if 20 ≤ b ∧ b < 22 then regsGRID else
  if 22 ≤ b ∧ b < 23 then regsMPPT else
  if 23 ≤ b ∧ b < 24 then regsRIDE else
  if 24 ≤ b ∧ b < 26 then regsPROBE else
  if 26 ≤ b ∧ b < 28 then regsMETER else
  if 28 ≤ b ∧ b < 29 then regsCHNT else
  if 29 ≤ b ∧ b < 30 then regsDRONE else
  if 30 ≤ b ∧ b < 32 then regsPAIR else
  if 32 ≤ b ∧ b < 36 then regsCAN else
  if 36 ≤ b ∧ b < 40 then regsHOST else
  if 40 ≤ b ∧ b < 44 then regsREC else
  if 44 ≤ b ∧ b < 48 then regsBOOT else
  if 48 ≤ b ∧ b < 52 then regsSEC else
  []

end Sys2Proof.Machine
end

