-- ==== Sys2Proof/Machine/Tab.lean ====
section
/-!
DEFINITION. A canonical table: key and value pairs with strictly rising keys, holding no entry equal to what an
unlisted key reads as.  The register file, the snapshot latches and the three addressed memories are tables, so equal
contents are equal data.
-/

namespace Sys2Proof.Machine

/-- Key and value pairs; `Tab.Wf` says when one is in canonical form.  DESIGN CHOICE, log entry 4. -/
abbrev Tab (α : Type) := List (Nat × α)

/-- The value at key `n`; `d` where the table lists none. -/
def Tab.get {α : Type} (d : α) : Tab α → Nat → α
  | [], _ => d
  | (k, v) :: t, n => if n = k then v else if n < k then d else Tab.get d t n

/-- The table without its leading entries whose key is at most `n`. -/
def Tab.above {α : Type} (n : Nat) : Tab α → Tab α
  | [] => []
  | (k, v) :: t => if k ≤ n then Tab.above n t else (k, v) :: t

/-- The table with value `v` at key `n`, where an unlisted `n` reads as `d`. -/
def Tab.put {α : Type} [DecidableEq α] (d : α) : Tab α → Nat → α → Tab α
  | [], n, v => if v = d then [] else [(n, v)]
  | (k, w) :: t, n, v =>
    if n < k then (if v = d then (k, w) :: t else (n, v) :: (k, w) :: t)
    else if n = k then (if v = d then Tab.above n t else (n, v) :: Tab.above n t)
    else (k, w) :: Tab.put d t n v

/-- The table with only the keys that `p` keeps. -/
def Tab.keep {α : Type} (p : Nat → Bool) : Tab α → Tab α
  | [] => []
  | (k, v) :: t => if p k then (k, v) :: Tab.keep p t else Tab.keep p t

/-- Keys strictly rising, no entry equal to what its key reads as when unlisted (`d`). -/
def Tab.wf {α : Type} [DecidableEq α] (d : Nat → α) : Tab α → Bool
  | [] => true
  | [(k, v)] => v ≠ d k
  | (k, v) :: (k', v') :: t => decide (k < k') && decide (v ≠ d k) && Tab.wf d ((k', v') :: t)

end Sys2Proof.Machine
end

