-- ==== Sys2Proof/Machine/State.lean ====
section
/-!
DEFINITION. The state of the block as plain data: the register file, the snapshot and holding latches, the addressed
memories, what each block holds that no register shows, and the queue of waiting commands; the reasons a step can stop;
and the state right after reset.
-/

namespace Sys2Proof.Machine

/-- Faults. The block has no exception entry and stops in no state that the spec describes, so no meaning raises one. -/
inductive Fault where
  /-- Raised by no command. Safe: a stop would only make claims unprovable. -/
  | none
deriving DecidableEq, Repr

/-- Refusals. -/
inductive Refusal where
  /-- An arm of `exec` whose meaning is not written. Safe: nothing is claimed of it. -/
  | notModelled (mnemonic : String)
deriving DecidableEq, Repr

/-! ### Chapter 2: supply and power states -/

/-- The power states of R55. -/
inductive PState where
  | off | harvest | lean | full
deriving DecidableEq, Repr

/-- The always-on domain of R51. -/
inductive Aon where
  | stopped | starting | running | hold
deriving DecidableEq, Repr

/-- The power transition in progress (R57). -/
inductive PTrans where
  | none | toLean | toFull | fullToLean | toHarvest
deriving DecidableEq, Repr

/-- What the power path draws from (R44): `off` where VSUP is absent and VB below 10.0 V. -/
inductive PPath where
  | vsup | vb | off
deriving DecidableEq, Repr

/-- What the supply front end holds beside its registers.  DEDUCED, log entry 6. DESIGN CHOICE, log entry 11. -/
structure PwrSt where
  st : PState := .lean
  aon : Aon := .running
  trans : PTrans := .toLean
  /-- Cause code of R67 of the last dump of the departure in progress. -/
  cause : Nat := 0
  /-- The departure in progress is one by NRST (R57), and a store abort fell within it (R63). -/
  byNrst : Bool := false
  aborted : Bool := false
  /-- What the power path draws from (R44). -/
  path : PPath := .vsup
  /-- The last open-circuit voltage measured, mV; the regulation point of HIN, mV; seconds to the next measurement (R48). -/
  voc : Nat := 0
  hinSet : Rat := 0
  vocWait : Nat := 0
  /-- The Core and South dies are held in reset until the external rails are up (R482). -/
  held : Bool := false
  /-- Level of NRST. -/
  nrst : Bool := true
  /-- VSUP is present (R45). -/
  vsup : Bool := true
  /-- AUXEN closed (R54). -/
  auxen : Bool := false
  /-- VDDQ on, and its level (R44). -/
  vddq : Bool := false
  vddqHigh : Bool := false
  /-- Which store the harvester charges (R49). -/
  charging : Option Store := Option.none
  /-- The cold-start path charges VQ (R50). -/
  coldStart : Bool := false
  /-- OTP bit of R71. -/
  chgDefault : Bool := true
  /-- A dump began and has not written its CRC (R68). -/
  dumpOpen : Bool := false
  /-- The seam links take class-2 and class-3 traffic from the dump alone (R65). -/
  dumpOnly : Bool := false
deriving DecidableEq, Repr

/-! ### Chapter 3: clocks -/

/-- One PLL (R75, R77). -/
structure PllSt where
  lock : Bool := false
  coast : Bool := false
  band : Nat := 0
  /-- The clock-fault line to the Drone, with which its coast timer runs (R78). -/
  line : Bool := false
deriving DecidableEq, Repr

/-- The seam links that were lost and have not trained again, as bits of the dies (R30). -/
structure SeamSt where
  lost : Nat := 0
deriving DecidableEq, Repr

/-- The Slide set in force (R89). -/
structure SlideSet where
  cfg : Word := 0x40#32
  fix : Int := 0x40000000
  th : List Nat := []
  rate : List Nat := []
  strobe : List Word := []
deriving DecidableEq, Repr

/-- What the clock block holds beside its registers. -/
structure ClkSt where
  /-- The PLLs of the Bell dies and the system PLL (R75). -/
  north : PllSt := {}
  south : PllSt := {}
  sys : PllSt := {}
  /-- Bell copies of device time less the Core counter (R83). -/
  skewN : Int := 0
  skewS : Int := 0
  /-- Device time at which a copy that is ahead began to hold its count for two ticks (R83). -/
  holdN : Option (BitVec 64) := none
  holdS : Option (BitVec 64) := none
  /-- The Slide set in force (R89). -/
  slide : SlideSet := {}
  /-- f_slide, pu, exactly. -/
  freq : Rat := 0
  /-- Nominal frequency read at the enable, Hz (R85). -/
  fnom : Rat := 50
  /-- Slide clocks counted, modulo 2²⁰ (R84), at device time `cycT`, from which the present rate holds; the counts, times and
  rates (clocks per tick) of the stretches before, newest first, as far back as R340 looks. -/
  cyc : Rat := 0
  cycT : BitVec 64 := 0#64
  was : List (Rat × BitVec 64 × Rat) := []
  /-- Device time at which the Slide began to coast, and the index of its free drift (R77, R88). -/
  coastT : Option (BitVec 64) := none
  drift : Nat := 0
  /-- The Bell dies' copies of the count less the Core's, Slide clocks (R84). -/
  copyN : Int := 0
  copyS : Int := 0
  /-- Device time of the last strobe of each generator (R90). -/
  strobeTs : List (BitVec 64) := []
  /-- Strobe generators whose period a disabled Slide is finishing (R89), as bits. -/
  ending : Nat := 0
  /-- Clock on CLKOUT (R92). -/
  clkout : Nat := 0
deriving DecidableEq, Repr

/-! ### Chapters 4 and 5: Fingering and modes -/

/-- One decoded record of an image (R97). -/
structure Rec where
  typ : Nat
  tgt : Nat
  pay : List (BitVec 8)
deriving DecidableEq, Repr

/-- What the Fingering loader holds beside its registers. -/
structure FingSt where
  /-- The image read by the running LOAD (R104). -/
  img : List (BitVec 8) := []
  /-- It reads from flash, else from LPDDR4X. -/
  flash : Bool := false
  /-- The staged structure with its digest and rollback counter. -/
  staged : List Rec := []
  stagedHash : BitVec 512 := 0#512
  stagedRb : Nat := 0
  /-- The structure in force. -/
  recs : List Rec := []
  /-- Islands that the structure in force needs, bits of `SYS_ISLAND_EN` (R111). -/
  need : Nat := 0
  /-- Why the running command is to be abandoned at its next record boundary (R110). -/
  quit : Option FingAbort := none
  /-- FAB cycle and port of the last write of `FING_CMD` (R109). -/
  last : Option (Nat × Port) := none
deriving DecidableEq, Repr

/-- What the mode block holds beside its registers. -/
structure ModeSt where
  /-- Target of the transition in progress (R120). -/
  target : Nat := 0
  /-- FAB cycle and port of the last write of `SYS_MODE_CMD` (R120); FAB cycle of the last autonomous entry to RIDE (R132). -/
  last : Option (Nat × Port) := none
  rideT : Option Nat := none
  /-- FAB cycle in which the transition in progress was accepted (R132). -/
  begun : Option Nat := none
deriving DecidableEq, Repr

/-! ### Chapter 6: converters -/

/-- What one SAR converter holds beside its registers. -/
structure ConvSt where
  /-- The last entry, as read at the sequence start (R149). -/
  last : Nat := 0
  /-- The entry word in force for the acquisition in progress (R149). -/
  ent : Word := 0#32
  /-- `ref_ok` has fallen during this conversion (R162). -/
  fell : Bool := false
  /-- The conversion in progress is the last one (R161): `en` was cleared, DORMANT entered or the island disabled. -/
  stop : Bool := false
  /-- Triggers on their way (R142). -/
  trigs : Nat := 0
  /-- The factor words that the last calibration measured (R153). -/
  meas : Option (List Word) := none
  /-- Code history of each entry, newest first (R144). -/
  hist : Tab (List Int) := []
  /-- Factor registers before the calibration: offset, gain, four weight words (R155). -/
  saved : List Word := []
deriving DecidableEq, Repr

/-- What one Fine channel holds beside its registers. -/
structure FineSt where
  /-- Output samples still discarded (R159). -/
  drop : Nat := 0
  hist : List Int := []
  /-- The output sample in progress is the last one (R159, R161); the Slide was disabled. -/
  stop : Bool := false
  noClk : Bool := false
  /-- Samples discarded at a disabled METER island, counted at the channel (R34). -/
  lost : Nat := 0
deriving DecidableEq, Repr

/-! ### Chapters 7 to 9: monitors, trip matrix, edge units, gate channels and Ligature buses -/

/-- One entry of a capture FIFO (R172). -/
structure Cap where
  ts : BitVec 64
  sub : Bool
  lo : Bool
  act : Bool
deriving DecidableEq, Repr

/-- What one window monitor holds beside its registers. -/
structure MonSt where
  /-- Capture FIFO, oldest first (R172). -/
  caps : List Cap := []
  /-- The comparators' outputs, high and low (R167), and their last samples, newest first (R171). -/
  hiC : Bool := false
  loC : Bool := false
  hist : List (Bool × Bool) := []
  /-- The ramp (R169): its height in 1/128 code at a device time, from which it rises at the present slope. -/
  ramp : Option (BitVec 64 × Nat) := none
  /-- Device time of the last MPPT write of the high threshold (R304). -/
  mpptT : Option (BitVec 64) := none
deriving DecidableEq, Repr

/-- What the trip matrix of one die holds beside its registers. -/
structure TripSt where
  /-- Channels that each source holds under release code 2 (R179). -/
  cyc : Tab Nat := []
  /-- Channels released that wait for their commit point (R179). -/
  wait : Nat := 0
  /-- Forced-on channels whose partner has been low for the dead time (R177); device time at which the Drone's forced-off line last
  fell, from which their dead time counts (R183). -/
  fon : Nat := 0
  offEnd : Option (BitVec 64) := none
  /-- State packets under way to this die, oldest first: source, and its state as it changed (R181). -/
  pkts : List (Nat × Bool) := []
  /-- A force of release code 0 holds a channel (R180). -/
  held0 : Bool := false
  /-- Levels of the die's TRIPIN pin at its last samples, newest first (R185); one not taken reads high. -/
  pins : List Bool := []
  /-- State packets of this die's sources discarded at a disabled island, counted here (R34). -/
  lost : Nat := 0
deriving DecidableEq, Repr

/-- A stretch of a carrier within one period (R187, R207): when it ended, the period's first tick and length as they stood in it, and
since when the counter stood still, where a freeze did that (R208). -/
structure CarrierSpan where
  till : BitVec 64
  ps : BitVec 64
  len : Nat
  stood : Option (BitVec 64) := none
deriving DecidableEq, Repr

/-- What one edge unit holds beside its registers. -/
structure EdgeSt where
  /-- The counter runs (R210), and a period has started since it began to. -/
  run : Bool := false
  live : Bool := false
  /-- Device time of the period's first tick, its `per`, mode and length (R187, R207). -/
  ps : BitVec 64 := 0#64
  per : Nat := 0
  mode : Nat := 0
  len : Nat := 0
  /-- The falling half of an up-down period (R187). -/
  falling : Bool := false
  /-- Earlier stretches of the carrier, newest first, as far back as R207 looks. -/
  past : List CarrierSpan := []
  /-- The unit's own on-interval (R191). -/
  w : Bool := false
  /-- A refresh interval is in progress; periods started since R201's condition became true. -/
  refr : Bool := false
  refrN : Nat := 0
  /-- Commanded output after refresh and complement (R199, R200). -/
  cmd : Bool := false
  /-- The delayed rising edges that wait, oldest first (R203): whether the pulse of each has ended meanwhile. -/
  pend : List Bool := []
  /-- A pulse of the filter's output is on; pulses being stretched (R204); device time of the output's last fall (R203). -/
  pulse : Bool := false
  stretch : Nat := 0
  fallT : Option (BitVec 64) := none
  /-- Output after the interlock, and the tick of the last rising edge (R215). -/
  il : Bool := false
  rise : Option (BitVec 64) := none
  /-- Device time at which the GT pin last went low (R177). -/
  lowT : BitVec 64 := 0#64
  /-- When the commit request arrived, and the last one that came after it (R196). -/
  armT : BitVec 64 := 0#64
  again : Option (BitVec 64) := none
  /-- Shadow writes of the last ticks, newest first: shadow, time, value before (R196). -/
  wr : List (Nat × BitVec 64 × Word) := []
  /-- Shadows written since the last commit, each with the time of its first write (R195). -/
  written : List (Nat × BitVec 64) := []
  /-- Device time of the last engine write of the compares (R211). -/
  engT : Option (BitVec 64) := none
  /-- A mode change is held to carrier zero (R197). -/
  held : Bool := false
  /-- Disabling: the on-pulse in progress is still to end (R210). -/
  stopping : Bool := false
  /-- Remainder of a SYNCI correction, and when it was set (R207). -/
  rem : Int := 0
  remT : Option (BitVec 64) := none
  /-- Device time of the last edge placed; a trim that waits to be copied, tap, value and the tick it was due (R193); device
  time of the end of the last sweep (R194). -/
  edgeT : Option (BitVec 64) := none
  trim : Option (Nat × Nat × BitVec 64) := none
  calT : BitVec 64 := 0#64
deriving DecidableEq, Repr

/-- What the edge units hold together. -/
structure EdgeAll where
  /-- Device time at which a freeze began (R208). -/
  frozen : Option (BitVec 64) := none
  /-- Units whose disable waits for the freeze to end (R211). -/
  deferred : List Nat := []
  /-- Level of SYNCO (R206). -/
  synco : Bool := false
  /-- Channels whose gating is not that of the mode in force: those that have followed a transition in progress (R133), or not
  yet a takeover (R408). -/
  gatePend : Nat := 0
deriving DecidableEq, Repr

/-- A frame that the device sends on a Ligature bus (R218). -/
inductive LigFrame where
  /-- A fault vector, started by a pod or polled. -/
  | vector
  | select (v : BitVec 24)
  | poll (pod : Nat)
  | write (pod addr data : Nat)
  | clear (pod : Nat)
deriving DecidableEq, Repr

/-- What one Ligature bus holds beside its registers.  DEDUCED, log entry 54. -/
structure LigSt where
  /-- The frame in progress, its answer awaited, and when it began. -/
  cur : Option LigFrame := none
  curT : BitVec 64 := 0#64
  /-- Frames waiting, by the classes of R223. -/
  again : Option LigFrame := none
  fvReq : Bool := false
  sel : Option (BitVec 24) := none
  clears : List Nat := []
  writes : List (Nat × Nat × Nat) := []
  fvPer : Bool := false
  /-- The pod polled last, whether its poll is being repeated, and failed polls in a row by pod. -/
  last : Nat := 11
  retry : Option Nat := none
  fails : Tab Nat := []
  /-- A pod answered in the present poll round, and in the last one. -/
  ans : Bool := false
  ansLast : Bool := false
  /-- Device time of the last engine write of `GATE_LIG[k]_SEL` (R228). -/
  engT : Option (BitVec 64) := none
deriving DecidableEq, Repr

/-- What one gate channel holds beside its registers. -/
structure PodSt where
  /-- Pod registers written and not acknowledged, as bits (R227). -/
  unack : Nat := 0
  /-- The causes of a latched fault are still to be copied (R225). -/
  needCause : Bool := false
  /-- Device time of the last `clr` (R234). -/
  clrT : Option (BitVec 64) := none
deriving DecidableEq, Repr

/-- What a wake acts on (R174, R438): the Chanter waits for an interrupt, and WAKEN is pulled low. -/
structure WakeSt where
  wfi : Bool := false
  waken : Bool := false
  /-- The host wake event of the interrupt summary. -/
  event : Bool := false
deriving DecidableEq, Repr
/-! ### Chapter 10: the Bore engines -/

/-- One packet of an engine to one Bell die (R252). -/
structure EngPkt where
  die : Nat
  /-- It has reached EDGE and waits for its release tick (R254). -/
  waiting : Bool := false
  /-- It holds a class-1 credit of its seam link (R28); without one it waits to be sent. -/
  credit : Bool := false
  /-- Timestamp of the step's trigger. -/
  trig : BitVec 64
  /-- Edge unit, `CMP_A` and `CMP_B`. -/
  cmp : List (Nat × Nat × Nat)
  /-- Channel whose pod takes a profile index, and the index (R248). -/
  prof : List (Nat × Nat)
deriving DecidableEq, Repr

/-- What one Bore engine holds beside its registers. -/
structure BoreSt where
  /-- Device time of cycle 0 of the running step, its trigger's timestamp and the tag latched (R250). -/
  t0 : BitVec 64 := 0#64
  trig : BitVec 64 := 0#64
  tag : Word := 0#32
  /-- Set-points and grid quantities latched at cycle 0 (R242). -/
  sp : Tab Int := []
  gq : Tab Int := []
  /-- The running step initialises the Breath stages; the first step after an entry from STANDBY is still to come (R247). -/
  init : Bool := false
  entry : Bool := false
  /-- Device time at which `hold` was written 1 (R263). -/
  holdT : Option (BitVec 64) := none
  /-- Values received in the input slots, and the slots that received one since the last step start (R242); the newest results at
  the island boundary, oldest first, at most four, each with its slot (R33). -/
  slots : Tab Int := []
  got : Nat := 0
  fifo : List (Nat × Int) := []
  /-- Coefficients that the running step reads with an older value (R257). -/
  old : Tab (Option Int) := []
  /-- Triggers on their way, oldest first: t_trig of each (R249). -/
  trigs : List (BitVec 64) := []
  /-- Packets under way, oldest first. -/
  pkts : List EngPkt := []
  /-- Packets discarded at a disabled island, counted at the engine that sent them (R34). -/
  lost : Nat := 0
  /-- Input slots, states and lanes as they stood at the end of the last completed step (R264). -/
  last : Tab Word := []
deriving DecidableEq, Repr

/-! ### Chapter 11: the grid block -/

/-- One published set of grid quantities (R268, R278). -/
structure GridSet where
  /-- t_trig of its step. -/
  ts : BitVec 64 := 0#64
  /-- Quantities that are not 0: gyres, or pu36 codes. -/
  q : Tab Int := []
  /-- Parts of quantities 20 and 21: positive and negative sequence, forming machine, probe (R283). -/
  pos : Int × Int := (0, 0)
  neg : Int × Int := (0, 0)
  form : Int × Int := (0, 0)
  probe : Int × Int := (0, 0)
deriving DecidableEq, Repr

/-- What the grid block holds beside its registers: states in pu48 unless stated. -/
structure GridSt where
  /-- Triggers on their way, oldest first: t_trig of each (R267). -/
  trigs : List (BitVec 64) := []
  /-- The block has started (R270). -/
  run : Bool := false
  /-- `GRID_CTL.init` was taken by the running step; the running step is the first after a start (R267, R270). -/
  init : Bool := false
  /-- t_trig of the running step and of the step before it, and the Slide cycle counter at the trigger (R321). -/
  trig : BitVec 64 := 0#64
  last : BitVec 64 := 0#64
  cyc : BitVec 20 := 0#20
  /-- Device time of cycle 0 of the running step, and the trigger selection in force in it (R296). -/
  t0 : BitVec 64 := 0#64
  sel : Word := 0#32
  /-- The registers as they stood at cycle 0 (R268). -/
  regs : Tab Word := []
  /-- Values received in the input slots (pu36), and the slots that received one since the last step start; the newest results at
  the island boundary, oldest first, at most four (R33): input slot j, and at 64 + 2 p + k the voltage or current of MPPT port p. -/
  slots : Tab Int := []
  got : Nat := 0
  fifo : List (Nat × Int) := []
  /-- v and i of each MPPT port, and whether each was renewed, as latched at cycle 0 (R298, R305). -/
  ports : List (Int × Int × Bool × Bool) := []
  /-- vα, vβ, vγ of the previous step. -/
  vin : List Rat := []
  /-- v1 and q1 of α, β and γ (R272). -/
  sogi : List Int := []
  f : Int := 0
  rocof : Int := 0
  pe : Int := 0
  qe : Int := 0
  /-- Ticks for which the lock test has held; consecutive steps out of tolerance (R276). -/
  good : Nat := 0
  bad : Nat := 0
  /-- P*, Q*, id−, iq− as they stand, and their return from 0 after an unlock (R280, R284). -/
  p : Int := 0
  qr : Int := 0
  idn : Int := 0
  iqn : Int := 0
  ret : Bool := false
  /-- The forming machine (R287–R291): angle, frequency, voltage, pm, limited, steps below the return level, pm returning. -/
  thv : BitVec 32 := 0#32
  w : Int := 0
  e : Int := 0
  pm : Int := 0
  lim : Bool := false
  retN : Nat := 0
  pmRet : Bool := false
  /-- The machine's current reference and the current-synthesis parts of the last step (R291), pu36. -/
  iu : Int × Int := (0, 0)
  csPos : Int × Int := (0, 0)
  csNeg : Int × Int := (0, 0)
  /-- Steps of a blend so far, while one runs, and the last forming reference (R291). -/
  blend : Option Nat := none
  fmLast : Int × Int := (0, 0)
  /-- The published set; by engine, the newest set that has surely reached it; the sets published since, oldest first, each with
  its time and the engines to whose islands it goes, as bits (R278). -/
  cur : GridSet := {}
  prev : Tab GridSet := []
  sent : List (BitVec 64 × Nat × GridSet) := []
  /-- Sets discarded at disabled islands, counted at the sender (R34). -/
  lost : Nat := 0
  /-- Device time of cycle 160 of the last step (R268). -/
  endT : BitVec 64 := 0#64
  /-- The input slots of the last completed step, which `GRID_SNAP` copies. -/
  inS : Tab Word := []
deriving DecidableEq, Repr

/-! ### Chapter 12: MPPT ports, ride-through, Whistle -/

/-- A sweep of one port (R307). -/
structure SweepSt where
  /-- Power and reference before the sweep (codes). -/
  pPre : Int
  vPre : Int
  /-- Point, ticks since it began, and the sum and number of pp in the second half of its dwell. -/
  n : Nat := 0
  t : Nat := 0
  sum : Rat := 0
  cnt : Nat := 0
  /-- The best point so far: power, voltage. -/
  best : Option (Rat × Rat) := none
deriving DecidableEq, Repr

/-- What one MPPT port holds beside its registers. -/
structure PortSt where
  /-- Values received for v and i, and whether each was renewed since the last step start (R305). -/
  v : Int := 0
  i : Int := 0
  vNew : Bool := false
  iNew : Bool := false
  /-- The port has been on since its start (R303). -/
  on : Bool := false
  /-- v_ref, ipk and the error of the last step, pu48. -/
  vref : Int := 0
  ipk : Int := 0
  ePrev : Int := 0
  /-- Steps of the interval, sums of pp and v, and whether v, and i, was stale at every step of it. -/
  n : Nat := 0
  sumP : Rat := 0
  sumV : Rat := 0
  staleV : Bool := true
  staleI : Bool := true
  pLast : Int := 0
  vLast : Int := 0
  sweep : Option SweepSt := none
deriving DecidableEq, Repr

/-- What the MPPT engine holds. -/
structure MpptSt where
  port : Tab PortSt := []
  /-- Ports start at their next step (R303). -/
  start : Bool := false
  /-- Ports still to be swept in the round, the one being swept first. -/
  round : List Nat := []
  /-- A round is due. -/
  due : Bool := false
  /-- Threshold codes that wait for a class-1 credit, oldest first, each with its monitor (R28, R304); codes discarded at a
  disabled island, counted at the sender (R34). -/
  codes : List (Nat × Nat) := []
  lost : Nat := 0
deriving DecidableEq, Repr

/-- What the ride-through sequencer holds. -/
structure RideSt where
  /-- Quantities and sides in excursion, bit 2q + s (R309). -/
  exc : Nat := 0
  /-- Timer of each curve point, ticks, at 16 i + k (R310). -/
  timer : Tab Nat := []
  /-- |V+| filtered (pu48), and id+, iq+ of the last step before the excursion (pu36). -/
  vpre : Int := 0
  idHold : Int := 0
  iqPre : Int := 0
  /-- Ticks for which every region has been 0 (R318). -/
  back : Nat := 0
  /-- An excursion waits for a FOLLOW–FORM transfer to complete (R132). -/
  wait : Bool := false
deriving DecidableEq, Repr

/-- One chip of the Whistle: its value, the tone voltages and currents (real, imaginary), and whether it was injected. -/
structure Chip where
  c : Int
  v1 : Rat × Rat
  i1 : Rat × Rat
  v2 : Rat × Rat
  i2 : Rat × Rat
  inj : Bool
deriving DecidableEq, Repr

/-- What the Whistle holds. -/
structure ProbeSt where
  /-- The Slide angle of the last step, and the tone angles. -/
  ang : Option (BitVec 32) := none
  th1 : BitVec 32 := 0#32
  th2 : BitVec 32 := 0#32
  /-- Sums and count of the chip in progress; it is to be discarded (R333). -/
  acc : Chip := ⟨0, (0, 0), (0, 0), (0, 0), (0, 0), false⟩
  cnt : Nat := 0
  drop : Bool := false
  /-- The last chips, newest first, at most 1023; those since injection last started. -/
  chips : List Chip := []
  injN : Nat := 0
  /-- Chip phases updated since the baseline was invalidated, as bits (R326). -/
  upd : Nat := 0
  /-- Consecutive closes at which the criterion held (R327). -/
  conf : Nat := 0
  /-- An assignment that waits for a chip boundary: code and amplitude (R323). -/
  assign : Option (Nat × Int) := none
  /-- Ticks for which each passive criterion has held (R328). -/
  fT : Nat := 0
  vT : Nat := 0
  rT : Nat := 0
  /-- The declaration has acted (R329). -/
  acted : Bool := false
  /-- Sums of c × Vh over the code period while listening (R331). -/
  cl1 : Rat × Rat := (0, 0)
  cl2 : Rat × Rat := (0, 0)
  clN : Nat := 0
  /-- Mode of the last step. -/
  mode : Nat := 0
deriving DecidableEq, Repr

/-! ### Chapter 13: metering -/

/-- One result that waits for its metered sample: index (Fine form), timestamp, value (pu36), doubtful (R347), taken while the
Slide coasts (R341). -/
structure MetIn where
  idx : Nat
  ts : BitVec 64
  v : Int
  bad : Bool
  coast : Bool
deriving DecidableEq, Repr

/-- One channel's metered sample: its value (pu36), doubtful (R347), formed of a result taken while the Slide coasts (R341). -/
structure MetVal where
  v : Int := 0
  bad : Bool := false
  coast : Bool := false
deriving DecidableEq, Repr

/-- What one metering point holds beside its registers. -/
structure MeterSt where
  /-- Results of the six channels, newest first, and each channel's last metered sample; the last index formed (Fine form). -/
  q : Tab (List MetIn) := []
  last : List MetVal := []
  ix : Option Nat := none
  /-- Samples taken in the cycle, cycles in the window; device times of the cycle's first sample, of the last two samples and
  of the end of the last interval (Lean form). -/
  k : Nat := 0
  cyc : Nat := 0
  t0 : BitVec 64 := 0#64
  tLast : BitVec 64 := 0#64
  tEnd : Option (BitVec 64) := none
  /-- Sums over the window: v², i², power and delayed power of each row. -/
  vv : List Rat := []
  ii : List Rat := []
  pp : List Rat := []
  qq : List Rat := []
  /-- Sums of power over the cycle, and its phasors: real and imaginary parts of six channels. -/
  pc : List Rat := []
  ph : List (Rat × Rat) := []
  /-- Voltages of the last quarter cycle, newest first. -/
  hist : List (List MetVal) := []
  /-- Zero crossings of L1 (R345): below the hysteresis, candidate, first and last of the window, their number. -/
  low : Bool := false
  cand : Option Rat := none
  first : Option Rat := none
  lastX : Rat := 0
  nX : Nat := 0
  /-- A sample of the window was doubtful, or taken while coasting, or formed of a fallback interval (R357). -/
  bad : Bool := false
  coast : Bool := false
  unl : Bool := false
  /-- Hidden fractions of the accumulators (R350). -/
  frac : Tab Nat := []
  /-- A window was published since the last STATUS read of the SKM-6100 image (R356). -/
  newWin : Bool := false
  /-- The point has stopped, and has not been enabled since (R354). -/
  stopped : Bool := false
deriving DecidableEq, Repr


/-! ### Chapters 14 and 15: the Chanter and the Drone -/

/-- What made both cores take an exception (R13, R359, R360): a misaligned store, or an access that the map or a locked entry
refuses or that an uncorrectable error met. -/
inductive TrapKind | storeMisaligned | accessFault
deriving DecidableEq, Repr

/-- One entry of the cores' physical memory protection (R359): its configuration byte and its address register. -/
structure PmpEntry where
  cfg : BitVec 8 := 0#8
  addr : Word := 0#32
deriving DecidableEq, Repr

/-- What the Chanter holds beside its registers. -/
structure ChntSt where
  /-- The lockstep-failure line to the Drone (R362, R363). -/
  line : Bool := false
  /-- The comparator self-test runs (R364), and a passing one is followed by the ROM boot (else by `CHNT_ENTRY`, R369). -/
  test : Bool := true
  boot : Bool := true
  /-- The latched samples of each input group, one of each core, and when they were requested (R365). -/
  agree0 : Option (BitVec 16 × BitVec 16 × BitVec 64) := none
  agree1 : Option (BitVec 16 × BitVec 16 × BitVec 64) := none
  /-- Device time from which the sweep timer measures, while it runs (R368); and of the last sweep that counted, which `age_ms`
  shows (R375). -/
  sweepT : Option (BitVec 64) := none
  sweepFrom : Option (BitVec 64) := none
  /-- The exception that both cores took last since their reset, with the firmware address of its access (R359). -/
  trap : Option (TrapKind × Word) := none
  /-- The 16 entries of the physical memory protection (R359). -/
  pmp : Vector PmpEntry 16 := Vector.replicate 16 {}
  /-- Sources masked between claim and done, as bits (R373). -/
  masked : Nat := 0
  /-- Agreed levels that the GPIO sources 64 to 79 follow (R372). -/
  gpio : Nat := 0
  /-- The machine timer interrupt is pending (R359). -/
  mtip : Bool := false
  /-- The counters of the cores (R359) as they stood at device time `cntT`; they count while the cores run. -/
  mcycle : BitVec 64 := 0#64
  minstret : BitVec 64 := 0#64
  cntT : BitVec 64 := 0#64
deriving DecidableEq, Repr

/-- What the Drone holds beside its registers. -/
structure DroneSt where
  /-- Source 5: the coast timers that have run out (R78), as bits: system PLL, North, South. -/
  coastOut : Nat := 0
  /-- Supply hold (R377). -/
  supply : Bool := false
  /-- Inputs in the initial demand of an acceptance (R381). -/
  initial : Nat := 0
  /-- The demands last seen: bits of sources (0 to 5), inputs (12 to 15) and latched causes (16 on); device time of the last one
  counted (R394). -/
  dem : Nat := 0
  demT : Option (BitVec 64) := none
  /-- HALT cause `drone` is live (R378), and HALT cause `lockstep` (R128). -/
  haltLive : Bool := false
  lockLive : Bool := false
  /-- A watchdog kick has come since arming (R384); device time of the last one, or of the arming. -/
  kicked : Bool := false
  kickT : BitVec 64 := 0#64
  /-- Clock-monitor windows within tolerance in a row, at most 3 (R390). -/
  monGood : Nat := 0
  /-- SOLk overridden by a test or a demand during one (R388), as bits. -/
  override : Nat := 0
  /-- SOLk as commanded last, as bits: what writes of `SYS_SOL` have brought over the North link (R379, R396). -/
  sol : Nat := 0
  /-- A round waits for the one in progress (R388). -/
  roundDue : Bool := false
  /-- An islanding demand (R329), and the pair-role line (R376). -/
  island : Bool := false
  pair : Bool := false
deriving DecidableEq, Repr

/-! ### Chapter 16: the pair -/

/-- A frame on the Fjosk link (R404), as the sender forms it.  DEDUCED, log entry 37. -/
inductive FjFrame where
  | hello (m : HelloMsg) (tag : BitVec 128)
  | unpair (m : HelloMsg)
  | heart (m : HeartMsg)
  | mirror (kind ix : Nat) (step : BitVec 48) (data : List Rat)
  | relinquish (t : BitVec 64)
deriving DecidableEq, Repr

/-- A 66-bit block of the link (R403, R404): a frame's first, with its bytes 1 to 7, a data block of 8 bytes, a frame's last, and
the block that fills the gaps between frames. -/
inductive FjBlock where
  | start (bytes : List (BitVec 8))
  | data (bytes : List (BitVec 8))
  | stop
  | idle
deriving DecidableEq, Repr

/-- A mirror record that waits to leave, or at the Shadow for its producer's next step (R405, R406). -/
structure MirRec where
  kind : Nat
  ix : Nat
  step : BitVec 48
  data : List Rat
deriving DecidableEq, Repr

/-- What the pair block holds beside its registers. -/
structure PairSt where
  /-- The role wanted and the random value of the pairing in progress (R399, R404). -/
  want : Nat := 0
  rnd : BitVec 256 := 0#256
  /-- The session key, whether this device was LEADER at the pairing, and the two frame counters (R404). -/
  key : BitVec 256 := 0#256
  first : Bool := false
  tx : BitVec 64 := 0#64
  rx : BitVec 64 := 0#64
  /-- The last frame sent, with its counter in a session; and its blocks, each with its lane, the idle blocks behind it last. -/
  sent : Option (Option (BitVec 64) × FjFrame) := none
  wire : List (Nat × FjBlock) := []
  /-- Heartbeats missed in a row (R407). -/
  misses : Nat := 0
  /-- Level of ROLE (R398). -/
  roleHigh : Bool := false
  /-- A handover is in progress: ROLE and the GT pins are low (R401); the time that the peer's RELINQUISH carried. -/
  handover : Bool := false
  relinq : Option (BitVec 64) := none
  /-- The first case of R402 holds; the second does, and the Shadow has stopped following. -/
  both : Bool := false
  unable : Bool := false
  /-- Step counts of the producers (R404), and the last one applied from the peer, at 256 kind + index. -/
  steps : Tab Nat := []
  done : Tab Nat := []
  /-- Records received and not yet applied; records of this device that have not left (R405), oldest first. -/
  recs : List MirRec := []
  queue : List MirRec := []
deriving DecidableEq, Repr


/-! ### Chapter 17: CAN and network time -/

/-- A pending transmission of a controller (R416): a mailbox, or a reference frame (R426). -/
inductive CanTx where
  | mb (b : Nat)
  | ref (m : CanMsg)
deriving DecidableEq, Repr

/-- What one CAN controller holds beside its registers. -/
structure CanSt where
  /-- Bit timing and listen-only taken at the enable (R412, R421). -/
  nbt : Word := 0#32
  dbt : Word := 0#32
  listen : Bool := false
  /-- The frame being sent, and device time of its start of frame. -/
  cur : Option (CanTx × BitVec 64) := none
  /-- The receive FIFO, oldest first, each frame with its timestamp (R415). -/
  fifo : List (CanMsg × BitVec 64) := []
  /-- Bus-off recovery runs (R420). -/
  recovering : Bool := false
  /-- A request to sleep waits for bus idle (R422); device time of the last bus wake (R430). -/
  sleepReq : Bool := false
  /-- A frame was being received when a disable or a request to sleep came (R422, R429). -/
  rx : Bool := false
  wakeT : Option (BitVec 64) := none
  /-- Level of CANSTBk (R422). -/
  stb : Bool := false
  /-- Frames for the Whistle discarded at a disabled GRID island, counted at the controller (R34). -/
  lost : Nat := 0
deriving DecidableEq, Repr

/-- A stretch of the network-time counter (R424), in units of 2⁻³² ns: its count at device time `at0`, and what each tick adds,
`incS` for the first `slewN` ticks, while the extra rate of R427 acts; a counter that stands still adds 0.  DEDUCED, log
entry 57. -/
structure NtLine where
  count : Int := 0
  at0 : BitVec 64 := 0#64
  inc : Int := 0
  incS : Int := 0
  slewN : Nat := 0
deriving DecidableEq, Repr

/-- The network-time counter (R424) and what its slave and master hold (R426, R427). -/
structure NtSt where
  /-- The counter as it runs, its earlier stretches, newest first, and the extra rate of R427, ns per tick. -/
  line : NtLine := {}
  was : List NtLine := []
  slew : Rat := 0
  /-- A master that yielded to another one (R426). -/
  yielded : Bool := false
  /-- Slave: the last reference frame's sequence, local time and device time; t_master of the frame before it, where that frame
  carried it and told no step of the master. -/
  last : Option (Nat × Rat × BitVec 64) := none
  tm : Option Rat := none
  /-- A pair has completed; device time of the last one, with the period its frame names, ms; pairs within `lock_ns` in a row. -/
  paired : Bool := false
  pairT : Option (BitVec 64 × Nat) := none
  good : Nat := 0
  /-- Master: the reference frame that is pending, and the sequence of the last one formed; network time of the start of
  frame of the last one that succeeded, with its sequence; the counter was stepped since. -/
  ref : Option CanMsg := none
  seq : Option Nat := none
  sof : Option (Nat × Rat) := none
  stepped : Bool := false
  /-- The wrap event of R21, which no register shows. -/
  wrapEv : Bool := false
deriving DecidableEq, Repr


/-! ### Chapter 18: host, external memory, recorder -/

/-- What PCIe configuration space holds (R435): bits 31:26 of BAR0, bits 63:28 of BAR2, D3hot, a payload size of 256 bytes, the
enable and the function mask of MSI-X, and the AER status, uncorrectable errors in the low word, correctable ones in the high. -/
structure CfgSpace where
  bar0 : BitVec 6 := 0#6
  bar2 : BitVec 36 := 0#36
  d3 : Bool := false
  large : Bool := false
  msixEn : Bool := false
  funcMask : Bool := false
  aer : BitVec 64 := 0#64
deriving DecidableEq, Repr

/-- What the host ports hold beside their registers. -/
structure HostSt where
  /-- The SPI status byte (R439). -/
  spi : BitVec 8 := 0#8
  /-- What the device sent in the last SPI frame, wait bytes left out (R439, R440). -/
  spiOut : List (BitVec 8) := []
  /-- PCIe configuration space (R435). -/
  cfg : CfgSpace := {}
  /-- Index of the free value that says whether REFCLK was present at the last entry to LEAN, once there was one (R438). -/
  refclk : Option Nat := none
  /-- The last MSI-X message sent: address and data. -/
  msix : Option (BitVec 64 × Word) := none
deriving DecidableEq, Repr

/-- A QSPI operation in progress (R445). -/
structure QspiOp where
  op : Nat
  addr : Nat
  len : Nat
deriving DecidableEq, Repr

/-- What external memory's controllers hold beside their registers. -/
structure MemSt where
  qspi : Option QspiOp := none
  /-- MR4 as last read (R446). -/
  mr4 : BitVec 8 := 0#8
deriving DecidableEq, Repr

/-- What the recorder holds beside its registers. -/
structure RecorderSt where
  /-- Offset of the next burst within the region in use, and the records of the burst being filled, oldest first. -/
  pos : Nat := 0
  burst : List (BitVec 64) := []
  /-- Device time of the last time record. -/
  time : Option (BitVec 64) := none
  /-- Records still to be written after a trigger (R451). -/
  post : Option Nat := none
  /-- The same two of armed regions that a lower one has taken capture from, by region (R451). -/
  kept : Tab (Nat × Option Nat) := []
  /-- Samples dropped since the last gap marker, by slot (R449); device time of each slot's last sample (R448). -/
  drops : Tab Nat := []
  last : Tab (Option (BitVec 64)) := []
  /-- Triggers that have occurred and wait for the recorder, bits as `REC_TRIG_MASK` (R451). -/
  trigs : Nat := 0
deriving DecidableEq, Repr


/-! ### Chapter 19: boot, update, security -/

/-- The OTP key store (R463).  DESIGN CHOICE, log entry 10. -/
structure OtpSt where
  /-- Hashes of the key slots; slots programmed, and revoked, as bits. -/
  hash : List (BitVec 512) := [0#512, 0#512, 0#512, 0#512]
  prog : Nat := 0
  rev : Nat := 0
  /-- The firmware and the Fingering counter, with the advances left of each. -/
  fw : Nat := 0
  fg : Nat := 0
  fwLeft : Nat := 255
  fgLeft : Nat := 255
deriving DecidableEq, Repr

/-- A SEC operation in progress (R472), with the operand that it was started on. -/
inductive SecOp where
  | program (slot : Nat) (hash : BitVec 512)
  | revoke (slot : Nat)
  | seal (addr len : Nat)
  | unseal (addr len : Nat)
  | attest (nonce : List Byte)
deriving DecidableEq, Repr

/-- What boot, update and security hold beside their registers. -/
structure BootSt where
  /-- Public keys held by SEC (R464). -/
  keys : List (Option (List Byte)) := [none, none, none, none]
  /-- The directory as last read (R458). -/
  dir : List Byte := []
  /-- An update: its target, total length, blocks received, and the block in work (R465, R466). -/
  upd : Bool := false
  target : Nat := 0
  total : Nat := 0
  blocks : List Nat := []
  work : Option (Nat × List Byte) := none
  /-- A CONFIRM in progress (R469). -/
  confirm : Bool := false
  sec : Option SecOp := none
  /-- The key slot that verified the running firmware (R476). -/
  fwSlot : Option Nat := none
deriving DecidableEq, Repr

/-- What the blocks hold beside the registers.  DESIGN CHOICE, log entry 11. -/
structure Hid where
  pwr : PwrSt := {}
  seam : SeamSt := {}
  clk : ClkSt := {}
  fing : FingSt := {}
  mode : ModeSt := {}
  conv : Tab ConvSt := []
  fine : Tab FineSt := []
  mon : Tab MonSt := []
  trip : Tab TripSt := []
  edge : Tab EdgeSt := []
  edges : EdgeAll := {}
  lig : Tab LigSt := []
  pod : Tab PodSt := []
  wake : WakeSt := {}
  bore : Tab BoreSt := []
  grid : GridSt := {}
  mppt : MpptSt := {}
  ride : RideSt := {}
  probe : ProbeSt := {}
  meter : Tab MeterSt := []
  chnt : ChntSt := {}
  drone : DroneSt := {}
  pair : PairSt := {}
  can : Tab CanSt := []
  nt : NtSt := {}
  host : HostSt := {}
  mem : MemSt := {}
  recorder : RecorderSt := {}
  otp : OtpSt := {}
  boot : BootSt := {}
deriving DecidableEq, Repr

/-- The last response that an access port received: the words (of a BAR2 read, the bytes), and whether an access error was
reported (R436).  DESIGN CHOICE, log entry 63. -/
structure PortResp where
  data : List (BitVec 32) := []
  err : Bool := false
deriving DecidableEq, Repr

/-- The state of the block. -/
structure State where
  /-- Commands waiting, first in first out. -/
  pending : List Instr
  /-- Device time (R9, R82). -/
  now : BitVec 64
  /-- Register words by byte offset that differ from their reset values. -/
  regs : Tab Word
  /-- Snapshot copies, by port and offset (R18). -/
  snap : Tab Word
  /-- pu36 holding latches, by port and block: the pair's offset and the low word (R17). -/
  latch : Tab (Nat × Word)
  /-- LPDDR4X (R446). -/
  lpddr : Tab Byte
  /-- QSPI flash (R444). -/
  flash : Tab Byte
  /-- Firmware SRAM (R25). -/
  sram : Tab Byte
  /-- Counter that free values are applied to; the model's own. -/
  fresh : Nat
  /-- Sources of interrupts whose summary was high when last looked at, as bits: those of the Chanter's controller (R372), and from
  bit 80 on those of the host's vectors (R441); each falls with its summary. -/
  seen : Nat
  /-- The last response on each port: PCIe, SPI, firmware. -/
  resp : Tab PortResp
  hid : Hid
deriving DecidableEq, Repr

/-- Index of a port in the tables that are kept per port. -/
def portIx : Port → Nat
  | .pcie => 0
  | .spi => 1
  | .fw => 2

/-- The machine right after reset: the instant at which the Core die leaves reset on entry to LEAN (R82, R118).
DEDUCED, log entry 6. -/
def State.reset : State :=
  { pending := [], now := 0#64, regs := [], snap := [], latch := [], lpddr := [], flash := [], sram := [], fresh := 0, seen := 0,
    resp := [], hid := {} }

end Sys2Proof.Machine
end

