-- ==== Sys2Proof/Machine/Ops.lean ====
section
/-!
DEFINITION. The named operations over the state: reading and writing registers and fields, the updates that every meaning
is made of, and the combinators that join them.  A meaning is an `Act`: from the state it reads, the list of updates it
makes.
-/

namespace Sys2Proof.Machine

/-- Of stretches of a counter, newest first, those that may cover a tick of the last `n`: the older ones are forgotten. -/
def recent {α : Type} (start : α → BitVec 64) (now : BitVec 64) (n : Nat) : List α → List α
  | [] => []
  | x :: l => if (now - start x).toNat < n then x :: recent start now n l else [x]

/-! ### The register map -/

/-- The index digits and the word number of offset `r` within a register group of dimensions `dims`. -/
def locate : List (Nat × Nat) → Nat → Option (List Nat × Nat)
  | [], r => if r = 0 then some ([], 0) else if r = 4 then some ([], 1) else none
  | (stride, count) :: ds, r =>
    if r / stride < count then
      match locate ds (r % stride) with
      | some (ix, w) => some (r / stride :: ix, w)
      | none => none
    else none

/-- Words of a register. -/
def RegKind.words : RegKind → Nat
  | .r32 => 1
  | .r64 => 2
  | .pu36 => 2
  | .pu48 => 2

/-- A register found at an offset: its row, its indices, outermost first, and which of its words. -/
structure RegAt where
  desc : RegDesc
  ixs : List Nat
  word : Nat
deriving DecidableEq, Repr

/-- The row of a list that holds offset `off`. -/
def findReg (off : Nat) : List RegDesc → Option RegAt
  | [] => none
  | d :: ds =>
    if d.base ≤ off then
      match locate d.dims (off - d.base) with
      | some (ix, w) => if w < d.kind.words then some ⟨d, ix, w⟩ else findReg off ds
      | none => findReg off ds
    else findReg off ds

/-- The register at offset `off`; none where the offset is unmapped (R13). -/
def regAt (off : Nat) : Option RegAt := findReg off (blockRegs off)

/-- Word `w` of a 64-bit mask or value. -/
def wordOf (w x : Nat) : Word := BitVec.ofNat 32 (x / 2 ^ (32 * w))

/-- The value of the register word at `off` after reset.  DESIGN CHOICE, log entry 8. PRESUMED, log entry 9. -/
def resetWord (off : Nat) : Word :=
  match regAt off with
  | some r => wordOf r.word r.desc.reset
  | none => 0#32

/-! ### Reading the state -/

/-- The value of a field within a register word. -/
def Fld.get (x : Fld) (w : Word) : Nat := w.toNat / 2 ^ x.lo % 2 ^ (x.hi + 1 - x.lo)

/-- A register word with the field holding the low bits of `v`. -/
def Fld.put (x : Fld) (v : Nat) (w : Word) : Word :=
  BitVec.ofNat 32 (w.toNat / 2 ^ (x.hi + 1) * 2 ^ (x.hi + 1) + v % 2 ^ (x.hi + 1 - x.lo) * 2 ^ x.lo + w.toNat % 2 ^ x.lo)

/-- The register word at `off`. -/
def State.rd (s : State) (off : Nat) : Word := s.regs.get (resetWord off) off

/-- A field's value. -/
def State.f (s : State) (x : Fld) : Nat := x.get (s.rd x.off)

/-- A one-bit field. -/
def State.on (s : State) (x : Fld) : Bool := s.f x = 1

/-- A 64-bit register. -/
def State.rd64 (s : State) (off : Nat) : BitVec 64 := s.rd (off + 4) ++ s.rd off

/-- The signed pu36 value of a pair (R3, R15). -/
def State.pu (s : State) (off : Nat) : Int := sext 36 (s.rd64 off).toNat

/-- The signed pu48 value of a pair (R239). -/
def State.pu48 (s : State) (off : Nat) : Int := sext 48 (s.rd64 off).toNat

/-- A pu36 pair as a per-unit value (R3). -/
def State.puQ (s : State) (off : Nat) : Rat := (s.pu off : Rat) / 2 ^ 30

/-! ### Updates -/

/-- One update of the state. -/
inductive Upd where
  /-- A register word. -/
  | reg (off : Nat) (v : Word)
  /-- The register words that `p` rejects return to reset. -/
  | regsKeep (p : Nat → Bool)
  | snap (key : Nat) (v : Word)
  | latch (key : Nat) (v : Nat × Word)
  | lpddr (a : Nat) (b : Byte)
  | flash (a : Nat) (b : Byte)
  | sram (a : Nat) (b : Byte)
  /-- Bytes `lo` to `hi - 1` of the flash become erased. -/
  | flashErase (lo hi : Nat)
  /-- The LPDDR4X, or the SRAM, loses its contents. -/
  | lpddrLost
  | sramLost
  /-- The latches of R17 and R18 empty. -/
  | latchesLost
  | now (t : BitVec 64)
  | fresh
  | seen (n : Nat)
  | resp (p : Nat) (r : PortResp)
  | hid (g : Hid → Hid)

/-- What a byte of erased or never written flash reads as (DESIGN CHOICE: the erased value).  DESIGN CHOICE, log entry 5. -/
def flashBlank : Byte := 0xFF#8

/-- What a byte of LPDDR4X or SRAM that nothing has written reads as (DESIGN CHOICE).  DESIGN CHOICE, log entry 4. -/
def ramBlank : Byte := 0#8

/-- The state after one update. -/
def Upd.apply (u : Upd) (s : State) : State :=
  match u with
  | .reg off v => { s with regs := s.regs.put (resetWord off) off v }
  | .regsKeep p => { s with regs := s.regs.keep p }
  | .snap k v => { s with snap := s.snap.put 0#32 k v }
  | .latch k v => { s with latch := s.latch.put (0, 0#32) k v }
  | .lpddr a b => { s with lpddr := s.lpddr.put ramBlank a b }
  | .flash a b => { s with flash := s.flash.put flashBlank a b }
  | .sram a b => { s with sram := s.sram.put ramBlank a b }
  | .flashErase lo hi => { s with flash := s.flash.keep (fun k => decide (k < lo) || decide (hi ≤ k)) }
  | .lpddrLost => { s with lpddr := [] }
  | .sramLost => { s with sram := [] }
  | .latchesLost => { s with snap := [], latch := [] }
  | .now t => { s with now := t }
  | .fresh => { s with fresh := s.fresh + 1 }
  | .seen n => { s with seen := n }
  | .resp p r => { s with resp := s.resp.put {} p r }
  | .hid g => { s with hid := g s.hid }

/-- The state after a list of updates, in order. -/
def applyAll : List Upd → State → State
  | [], s => s
  | u :: us, s => applyAll us (u.apply s)

/-! ### Actions -/

/-- What a meaning is: from the state it reads, the updates it makes. -/
abbrev Act := State → List Upd

/-- The state after an action. -/
def Act.run (a : Act) (s : State) : State := applyAll (a s) s

/-- No effect. -/
def nop : Act := fun _ => []

/-- Actions one after another, each reading the state that those before it leave. -/
def seq : List Act → Act
  | [] => nop
  | a :: as => fun s =>
    let us := a s
    us ++ seq as (applyAll us s)

/-- `a` where the state satisfies `c`, else `b`. -/
def cond (c : State → Bool) (a b : Act) : Act := fun s => if c s then a s else b s

/-- `a` where the state satisfies `c`. -/
def whenA (c : State → Bool) (a : Act) : Act := cond c a nop

/-- `a` where `c` holds. -/
def only (c : Bool) (a : Act) : Act := if c then a else nop

/-- An action that names the state it reads. -/
def withS (k : State → Act) : Act := fun s => k s s

/-- `a` for each member of a list, in order. -/
def forEach {α : Type} (l : List α) (a : α → Act) : Act := seq (l.map a)

/-- Writes the register word at `off`. -/
def setW (off : Nat) (v : Word) : Act := fun _ => [.reg off v]

/-- Writes a field. -/
def setF (x : Fld) (v : Nat) : Act := fun s => [.reg x.off (x.put v (s.rd x.off))]

/-- Sets, and clears, a one-bit field. -/
def setB (x : Fld) : Act := setF x 1
def clrB (x : Fld) : Act := setF x 0

/-- Writes a 64-bit register. -/
def set64 (off : Nat) (v : BitVec 64) : Act :=
  fun _ => [.reg off (v.extractLsb' 0 32), .reg (off + 4) (v.extractLsb' 32 32)]

/-- Writes a pu36 pair, bits 63:36 as copies of bit 35 (R15). -/
def setPu (off : Nat) (v : Int) : Act := set64 off (BitVec.ofInt 64 (sext 36 (BitVec.ofInt 36 v).toNat))

/-- Writes a pu48 pair, bits 63:48 as copies of bit 47. -/
def setPu48 (off : Nat) (v : Int) : Act := set64 off (BitVec.ofInt 64 (sext 48 (BitVec.ofInt 48 v).toNat))

/-- Sets the bits of `m` in the word at `off`. -/
def orW (off : Nat) (m : Word) : Act := fun s => [.reg off (s.rd off ||| m)]

/-- Clears the bits of `m` in the word at `off`. -/
def clearW (off : Nat) (m : Word) : Act := fun s => [.reg off (s.rd off &&& ~~~ m)]

/-- One bit of the word at `off`. -/
def bitFld (off i : Nat) : Fld := ⟨off, i, i⟩

/-- Counts one event in a counter of bits 30:0 with its saturated flag in bit 31 (R21): at the largest value the count
stays and the flag is set. -/
def bump (off : Nat) : Act := fun s =>
  let w := s.rd off
  if w.toNat % 2 ^ 31 = 2 ^ 31 - 1 then [.reg off (w ||| 0x80000000#32)] else [.reg off (w + 1#32)]

/-- Changes what the blocks hold beside the registers. -/
def hidA (g : Hid → Hid) : Act := fun _ => [.hid g]

/-- Takes the next value of the counter that free values are applied to.  DESIGN CHOICE, log entry 12. -/
def freshA : Act := fun _ => [.fresh]

/-! ### Narrowing (R5) -/

/-- The largest and the smallest pu36 integer (R3). -/
def puMax : Int := 2 ^ 35 - 1
def puMin : Int := -(2 ^ 35)

/-- An exact per-unit value narrowed to pu36: half to even, saturating (R5).  DEDUCED, log entry 44. -/
def narrow36 (y : Rat) : Int := clampInt puMin puMax (roundHalfEven (y * 2 ^ 30))

/-- Whether that narrowing saturates (R5). -/
def over36 (y : Rat) : Bool :=
  let v := roundHalfEven (y * 2 ^ 30)
  decide (v < puMin) || decide (puMax < v)

/-! ### Mode, power and the reports that every block uses -/

/-- The present mode (R117). -/
def State.mode (s : State) : Nat := s.f F.SYS_MODE_STAT_mode

/-- Mode codes of R117. -/
def DORMANT : Nat := 0
def CONFIGURE : Nat := 1
def STANDBY : Nat := 2
def FOLLOW : Nat := 3
def FORM : Nat := 4
def RIDE : Nat := 5
def HALT : Nat := 6
def SERVICE : Nat := 7

/-- The Core die is powered (R55) and out of reset (R482). -/
def State.up (s : State) : Bool := (s.hid.pwr.st = .lean ∨ s.hid.pwr.st = .full) ∧ !s.hid.pwr.held

/-- Bit `b` of `SYS_ISLAND_EN`; the AON and DRONE islands always run (R70, R31). -/
def State.island (s : State) (b : Nat) : Bool := 32 ≤ b ∨ (s.rd R.SYS_ISLAND_EN).toNat / 2 ^ b % 2 = 1

/-- The pair role (R135). -/
def State.role (s : State) : Nat := s.f F.SYS_MODE_STAT_role

/-- Force of the Fingering (R107). -/
def State.force (s : State) : Nat := s.f F.FING_STAT_force

/-- Number of a port in the reports of R112 and R436.  DEDUCED, log entry 49. -/
def portNo : Port → Nat
  | .pcie => 0
  | .spi => 1
  | .fw => 2

/-- An access error of kind `kind` (R436) at offset `off`; the SPI status reports one of its own port (R439).
DEDUCED, log entry 49. -/
def accErr (p : Port) (kind off : Nat) : Act :=
  seq [
    whenA (fun s => !s.on F.HOST_ERR_err) (seq [
      setF F.HOST_ERR_INFO_kind kind, setF F.HOST_ERR_INFO_port (portNo p), setF F.HOST_ERR_INFO_offset off]),
    setB F.HOST_ERR_err,
    bump R.HOST_ERR_CNT,
    only (p = .spi) (hidA fun h => { h with host := { h.host with spi := h.host.spi ||| 4#8 } })]

/-! ### HALT (R128–R130) -/

/-- HALT cause bits of R128. -/
def causeCmd : Nat := 0
def causeDrone : Nat := 1
def causeLockstep : Nat := 2
def causeCoast : Nat := 3
def causeSeamN : Nat := 4
def causeSeamS : Nat := 5
def causeRideTrip : Nat := 6
def causeIsland : Nat := 7
def causeIslandOff : Nat := 8
def causeSafety : Nat := 9
def causePair : Nat := 10
def causeSvckey : Nat := 11

/-- Causes that are live only until the entry completes (R128). -/
def causeMomentary (c : Nat) : Bool := c = 0 ∨ c = 6 ∨ c = 7 ∨ c = 9 ∨ c = 11

/-- The mode becomes `m` (R120): `prev` and `mode` change together; with HALT entered, cause `cmd` is live no longer (R128). -/
def changeMode (m : Nat) : Act := fun s =>
  seq [setF F.SYS_MODE_STAT_prev s.mode, setF F.SYS_MODE_STAT_mode m, clrB F.SYS_MODE_STAT_busy,
    only (m = HALT) (clrB (bitFld R.SYS_HALT_LIVE 0)),
    only (m != RIDE) (seq [setF F.SYS_MODE_STAT_ride_origin 0, clrB F.SYS_MODE_STAT_ride_recovered]),
    setB F.SYS_MODE_EVENT_changed] s

/-- Entry to HALT (R129, R132): a transition under way is abandoned with 0x16; one out of HALT leaves the device there. -/
def enterHalt : Act := fun s =>
  seq [
    only (s.on F.SYS_MODE_STAT_busy) (seq [setF F.SYS_MODE_STAT_result 0x16, setB F.SYS_MODE_EVENT_overtaken,
      clrB F.SYS_MODE_STAT_busy]),
    only (s.mode ≠ HALT) (seq [changeMode HALT, bump R.SYS_HALT_CNT])] s

/-- A HALT cause becomes active (R128): HALT is entered but from HALT, and from DORMANT with no transition under way (R132). -/
def haltCause (c : Nat) : Act := fun s =>
  if s.up then
    seq [setB (bitFld R.SYS_HALT_CAUSE c), setF (bitFld R.SYS_HALT_LIVE c) (b2n (!causeMomentary c)),
      setB F.SYS_MODE_EVENT_halt,
      only (s.mode ≠ DORMANT ∨ s.on F.SYS_MODE_STAT_busy) enterHalt] s
  else []

/-- A HALT cause is no longer live. -/
def causeEnds (c : Nat) : Act := clrB (bitFld R.SYS_HALT_LIVE c)

end Sys2Proof.Machine
end

