-- ==== Sys2Proof/Machine/Dies.lean ====
section
/-!
DEFINITION. What the Bell-die blocks share: their islands and clocks, masks of channels, and the partner of a channel.
-/

namespace Sys2Proof.Machine

/-- The action `k` with what the outside holds (`Config.freeEnv`).  DESIGN CHOICE, log entry 36. -/
def withEnv (k : Nat → Act) : Act := fun s => seq [freshA, k (Config.freeEnv s.fresh)] s

/-- Ticks of a hold of two, begun at device time `t`, that have not passed at device time `now` (R83). -/
def holdLeft (now : BitVec 64) : Option (BitVec 64) → Nat
  | none => 0
  | some t => 2 - (now - t).toNat

/-- Difference of die `d`'s copy of device time from the Core counter (R83); a copy that holds its count still has its way to go. -/
def dieSkew (s : State) (d : Nat) : Int :=
  let c := s.hid.clk
  if d = 0 then c.skewN + holdLeft s.now c.holdN else c.skewS + holdLeft s.now c.holdS

/-- Die `d`'s copy of device time (R83). -/
def dieTime (s : State) (d : Nat) : BitVec 64 := BitVec.ofInt 64 (s.now.toNat + dieSkew s d)

/-- Two device times fall in one cycle of an island of the Core die whose clock rises every `n` ticks (R492). -/
def sameCyc (n : Nat) (a b : BitVec 64) : Bool := a.toNat / n = b.toNat / n

/-- Cycles of `n` ticks from cycle 0 of a step, at device time `t0`, to the clock edge at which a write that is valid now lands (R257,
R492). -/
def landCyc (n : Nat) (t0 now : BitVec 64) : Nat := ((now - t0).toNat + n - 1 - (n - t0.toNat % n) % n) / n

/-- Device time `t` and now fall in one cycle of LIG, or of CONV, on die `d`: even ticks of the die's copy (R492). -/
def sameLig (s : State) (d : Nat) (t : BitVec 64) : Bool := (t.toNat + dieSkew s d) / 2 = (s.now.toNat + dieSkew s d) / 2

/-! ### The Slide cycle counter (R84) -/

def clkA (g : ClkSt → ClkSt) : Act := hidA fun h => { h with clk := g h.clk }

/-- The Slide's output runs: it is locked, or coasts (R88). -/
def slideRuns (s : State) : Bool := s.on F.CLK_SLIDE_STAT_pll_lock ∨ s.on F.CLK_SLIDE_STAT_coast

/-- Relative drift of the Slide at device time `t`: none but while it coasts (R77, R88).  DESIGN CHOICE, log entry 74. -/
def slideDrift (c : ClkSt) (t : BitVec 64) : Rat :=
  match c.coastT with
  | none => 0
  | some t0 =>
    let d := Config.freeDrift c.drift
    if (t - t0).toNat ≤ 8000000 then clampRat (-1 / 20000) (1 / 20000) d else d

/-- Slide clocks per tick: 2²⁰ f_slide against 800 MHz. -/
def slidePerTick (s : State) (t : BitVec 64) : Rat :=
  if slideRuns s then s.hid.clk.freq * s.hid.clk.fnom * 2 ^ 20 / 800000000 * (1 + slideDrift s.hid.clk t) else 0

/-- The count at device time `t` on the newest of earlier stretches that had begun by then; `x` where none has. -/
def slideBefore (t : BitVec 64) (x : Rat) : List (Rat × BitVec 64 × Rat) → Rat
  | [] => x
  | p :: rest => if 0 ≤ (t - p.2.1).toInt then p.1 + ((t - p.2.1).toInt : Rat) * p.2.2 else slideBefore t p.1 rest

/-- The Slide clocks counted at device time `t`, exactly; a time before the last change of rate counts at the rate of its stretch. -/
def slideAt (s : State) (t : BitVec 64) : Rat :=
  let c := s.hid.clk
  let d := (t - c.cycT).toInt
  if 0 ≤ d then c.cyc + (d : Rat) * slidePerTick s t else slideBefore t c.cyc c.was

/-- The Slide cycle counter of the Core die at device time `t`. -/
def slideCyc (s : State) (t : BitVec 64) : Nat := ((slideAt s t).floor % 2 ^ 20).toNat

/-- Die `d`'s copy of the counter, within one Slide clock of the Core's. -/
def slideCopy (s : State) (d : Nat) (t : BitVec 64) : Nat :=
  (((slideAt s t).floor + (if d = 0 then s.hid.clk.copyN else s.hid.clk.copyS)) % 2 ^ 20).toNat

/-- The Slide angle at device time `t`: one clock is 2¹² gyres. -/
def slideAngle (s : State) (t : BitVec 64) : BitVec 32 := BitVec.ofNat 32 (slideCyc s t * 2 ^ 12)

/-- The count is taken up at the present instant, before its rate changes; stretches that ended 2¹⁷ ticks ago are forgotten. -/
def slideRebase : Act := fun s =>
  let x := slideAt s s.now
  let w : Rat := 2 ^ 20 * ((x / 2 ^ 20).floor : Rat)
  clkA (fun c =>
    let old := recent (·.2.1) s.now (2 ^ 17) ((c.cyc, c.cycT, slidePerTick s s.now) :: c.was)
    { c with was := old.map fun p => (p.1 - w, p.2), cyc := x - w, cycT := s.now }) s

/-- The island at place `k` (CONV 0, WIN 1, EDGE 2, LIG 3, TRIP 4) of die `d` runs (R31, R70). -/
def dieOn (s : State) (k d : Nat) : Bool := s.up ∧ s.island (17 + 5 * d + k)

def winOn (s : State) (d : Nat) : Bool := dieOn s 1 d
def edgeOn (s : State) (d : Nat) : Bool := dieOn s 2 d
def ligOn (s : State) (d : Nat) : Bool := dieOn s 3 d
def tripOn (s : State) (d : Nat) : Bool := dieOn s 4 d

/-- Bit `i` of `x`. -/
def bit (x i : Nat) : Bool := x / 2 ^ i % 2 = 1

/-- `x` with bit `i` set to `b`. -/
def putBit (x i : Nat) (b : Bool) : Nat := if bit x i = b then x else if b then x + 2 ^ i else x - 2 ^ i

/-- The bits of `x` that are not in `y`. -/
def maskSub (x y : Nat) : Nat := x - (x &&& y)

/-- Triggers `m`, bits as `REC_TRIG_MASK`, occur: the recorder, where it runs, takes them at REC_TRIGGER (R451). -/
def recSend (m : Nat) : Act := whenA (fun s => s.on F.REC_STAT_running)
  (hidA fun h => { h with recorder := { h.recorder with trigs := h.recorder.trigs ||| m } })

/-- The mask of the members of a list. -/
def maskOf (l : List Nat) : Nat := l.foldl (fun a i => putBit a i true) 0

/-- The members of a mask of `n` bits. -/
def bitsOf (n x : Nat) : List Nat := (List.range n).filter (bit x)

/-- How channel `n` is paired (R200, R213): 0 unpaired, 1 complementary a, 2 complementary b, 3 interlock only. -/
def pairKind (s : State) (n : Nat) : Nat := s.f (F.EDGE_CH_CFG_pair n)

/-- The partner of channel `n`. -/
def partner (s : State) (n : Nat) : Option Nat := if pairKind s n = 0 then none else some (s.f (F.EDGE_CH_CFG_partner n))

/-- A boundary FIFO of R33 takes `x`: the entry that has been consumed by then, if any, and the newest four.  Where the FIFO is
full, its oldest entry is replaced and reaches nothing. -/
def fifoTake (full : Bool) (l : List (Nat × Int)) (x : Nat × Int) : Option (Nat × Int) × List (Nat × Int) :=
  if l.length < 4 then (none, l ++ [x]) else (if full then none else l.head?, l.tail ++ [x])

/-- PCIe is the host port: HOST runs from REFCLK, which was present at the last entry to LEAN (R31, R438). -/
def pcieHost (s : State) : Bool := s.hid.host.refclk.any fun i => decide (Config.freeEnv i % 2 = 1)

/-- What a wake does (R174, R423): a wait for interrupt ends, the host wake event is raised, WAKEN is pulled low where PCIe is
the host port. -/
def wakeAll : Act := fun s =>
  if s.up then [.hid fun h => { h with wake := { wfi := false, waken := h.wake.waken || pcieHost s, event := true } }] else []

/-- A quotient of voltages; the spec gives none by 0.  DESIGN CHOICE, log entry 23. -/
def voltQ (a b : Rat) : Rat := if b = 0 then Config.freeQuot a else a / b

/-- The effective reference of die `d` in volts (R137, R150), with the external reference and VDDA as they stand. -/
def vref (s : State) (d : Nat) (ext vdda : Rat) : Rat :=
  match s.f (F.CONV_REF_CFG_sel d) with
  | 0 => 2048 / 1000
  | 1 => ext
  | _ => vdda

/-- At least N of the last M samples are active (R171, R186): M of 0 acts as 1, N of 0 as 1, N above M as M; samples not taken
count as `blank`. -/
def majority (n m : Nat) (blank : Bool) (l : List Bool) : Bool :=
  let m := max 1 m
  decide (max 1 (min n m) ≤ ((List.range m).filter fun i => l.getD i blank).length)

end Sys2Proof.Machine
end

