-- ==== Sys2Proof/Machine/Fire.lean ====
section
/-!
DEFINITION. Triggers on their way to converters, engines and the grid block (R32, R140, R147, R249, R267): the event that a
trigger names sends it, and the command that stands for its arrival takes it.
-/

namespace Sys2Proof.Machine

/-- An event that may be a trigger. -/
inductive TrigSrc where
  /-- The sequence-end strobe of a converter (R147). -/
  | seqEnd (c : Nat)
  /-- Carrier zero, or peak, of an edge unit (R187). -/
  | carrier (n : Nat) (peak : Bool)
  /-- A strobe, as die `d` generates it from its own copy of the Slide counter, or the Core die (R90). -/
  | strobe (j : Nat) (d : Option Nat)
  /-- A monitor's high, or low, filtered output becomes active. -/
  | monitor (m : Nat) (lo : Bool)
deriving DecidableEq, Repr

/-- The die of the event; none: the Core die. -/
def TrigSrc.die : TrigSrc → Option Nat
  | .seqEnd c => some (c / 8)
  | .carrier n _ => some (n / 24)
  | .strobe _ d => d
  | .monitor m _ => some (m / 16)

/-- A trigger reaches die `d`, or the Core die: over the seam links on its way (R32); a strobe crosses none (R90). -/
def trigCrosses (s : State) (x : TrigSrc) (d : Option Nat) : Bool :=
  match x, x.die, d with
  | .strobe .., a, b => a = b
  | _, none, _ => true
  | _, some a, none => s.on (F.SYS_SEAM_STAT_up a)
  | _, some a, some b => a = b ∨ (s.on (F.SYS_SEAM_STAT_up a) ∧ s.on (F.SYS_SEAM_STAT_up b))

/-- Converter `c`'s trigger is the event (R140). -/
def convNames (s : State) (c : Nat) (x : TrigSrc) : Bool :=
  let k := s.f (F.CONV_C_TRIG_kind c)
  let i := s.f (F.CONV_C_TRIG_index c)
  let e := s.on (F.CONV_C_TRIG_event c)
  match x with
  | .seqEnd _ => false
  | .carrier n peak => k = 1 ∧ i = n ∧ e = peak
  | .strobe j _ => k = 2 ∧ i = j
  | .monitor m lo => k = 3 ∧ i = m ∧ e = lo

/-- A step trigger of kind `k`, index `i` and carrier event `evt` is the event (R249); `evt` 3 acts as 0. -/
def stepNames (k i evt : Nat) (x : TrigSrc) : Bool :=
  match x with
  | .seqEnd c => k = 0 ∧ i = c
  | .carrier n peak => k = 1 ∧ i = n ∧ (evt = 2 ∨ evt % 3 = b2n peak)
  | .strobe j _ => k = 2 ∧ i = j
  | .monitor _ _ => false

/-- Engine `e`, which has a program, is triggered by the event. -/
def engNames (s : State) (x : TrigSrc) (e : Nat) : Bool :=
  s.f (F.BORE_INFO_stages e) ≠ 0 ∧
    stepNames (s.f (F.BORE_TRIG_kind e)) (s.f (F.BORE_TRIG_index e)) (s.f (F.BORE_TRIG_evt e)) x

/-- Between cycles 152 and 160 of a step; a GRID cycle is 2 or 4 ticks (R268). -/
def gridEnding (s : State) : Bool :=
  let left := (s.hid.grid.endT - s.now).toNat
  0 < left ∧ left ≤ 32

/-- A step runs (R268). -/
def gridBusy (s : State) : Bool := s.on F.GRID_STAT_busy || gridEnding s

/-- The trigger selection of the grid block in force: a change of `GRID_TRIG` during a step takes effect at the next one's start
(R296).  DEDUCED, log entry 129. -/
def gridTrig (s : State) : Word := if gridBusy s then s.hid.grid.sel else s.rd R.GRID_TRIG

/-- The event sends its triggers, with t_trig = `ts` (R249). -/
def fire (x : TrigSrc) (ts : BitVec 64) : Act := fun s => seq [
  forEach ((List.range 16).filter fun c => convNames s c x ∧ trigCrosses s x (some (c / 8)))
    (fun c => hidA fun h => { h with conv := h.conv.put {} c { h.conv.get {} c with trigs := (h.conv.get {} c).trigs + 1 } }),
  only (trigCrosses s x none) (seq [
    forEach ((List.range 8).filter (engNames s x))
      (fun e => hidA fun h => { h with bore := h.bore.put {} e { h.bore.get {} e with trigs := (h.bore.get {} e).trigs ++ [ts] } }),
    only (stepNames (F.GRID_TRIG_kind.get (gridTrig s)) (F.GRID_TRIG_index.get (gridTrig s)) (F.GRID_TRIG_evt.get (gridTrig s)) x)
      (hidA fun h => { h with grid := { h.grid with trigs := h.grid.trigs ++ [ts] } })])] s

end Sys2Proof.Machine
end

