-- ==== Sys2Proof/Machine/Win.lean ====
section
/-!
DEFINITION. The window monitors and the trip matrix (spec/07).
-/

namespace Sys2Proof.Machine

/-! ### GT pins (R177, R214) -/

/-- What edge unit `n` holds. -/
def edgeSt (s : State) (n : Nat) : EdgeSt := s.hid.edge.get {} n

/-- Changes what edge unit `n` holds. -/
def edgeA (n : Nat) (g : EdgeSt → EdgeSt) : Act := hidA fun h => { h with edge := h.edge.put {} n (g (h.edge.get {} n)) }

/-- Changes what the edge units hold together. -/
def edgesA (g : EdgeAll → EdgeAll) : Act := hidA fun h => { h with edges := g h.edges }

/-- What the trip matrix of die `d` holds. -/
def tripSt (s : State) (d : Nat) : TripSt := s.hid.trip.get {} d

/-- Changes what the trip matrix of die `d` holds. -/
def tripA (d : Nat) (g : TripSt → TripSt) : Act := hidA fun h => { h with trip := h.trip.put {} d (g (h.trip.get {} d)) }

/-- The state of a GT pin (R214). -/
inductive PinLevel where
  | low | high | z
deriving DecidableEq, Repr

/-- The mode lets the pins follow the edge units (R126, R127). -/
def gateAllowed (s : State) : Bool :=
  s.mode = FOLLOW ∨ s.mode = FORM ∨ s.mode = RIDE ∨
  (s.mode = SERVICE ∧ s.on F.DRONE_STAT_svckey ∧ s.hid.pwr.st = .full ∧ 2 ≤ s.force)

/-- A transition whose gating acts at each unit's commit point (R133): between STANDBY and a switching mode. -/
def gateWaits (a b : Nat) : Bool :=
  (a = STANDBY ∧ (b = FOLLOW ∨ b = FORM)) ∨ ((a = FOLLOW ∨ a = FORM ∨ a = RIDE) ∧ b = STANDBY)

/-- Such a transition is in progress. -/
def gateMoving (s : State) : Bool := s.on F.SYS_MODE_STAT_busy ∧ gateWaits s.mode s.hid.mode.target

/-- EDGE runs for unit `n`: the island is enabled, or the unit's on-pulse is still to end (R22, R210). -/
def edgeClocked (s : State) (n : Nat) : Bool := edgeOn s (n / 24) ∨ (s.up ∧ (edgeSt s n).stopping)

/-- A hold of R177 item 1 keeps pin `n` low, its EDGE island is disabled (R214), or a handover does (R401). -/
def gtHeld (s : State) (n : Nat) : Bool :=
  s.hid.pwr.st ≠ .full ∨ s.hid.pwr.trans = .fullToLean ∨ s.hid.pwr.trans = .toHarvest ∨ !edgeClocked s n ∨
  !s.on (F.SYS_SEAM_STAT_up (n / 24)) ∨ s.on F.DRONE_STAT_forced_off ∨ s.hid.pair.handover ∨
  !s.on F.DRONE_STAT_accepted ∨ s.force < 2 ∨ gateAllowed s = bit s.hid.edges.gatePend n

/-- The level of GT pin `n`: the order of R177. -/
def gtPin (s : State) (n : Nat) : PinLevel :=
  let j := n % 24
  let t := tripSt s (n / 24)
  if !s.up ∨ s.role = 2 then .z
  else if gtHeld s n ∨ bit (s.f (F.TRIP_GT_OFF_ch (n / 24))) j then .low
  else if bit (s.f (F.TRIP_GT_ON_ch (n / 24))) j then (if bit t.fon j then .high else .low)
  else if bit t.wait j then .low
  else if (edgeSt s n).il then .high else .low

/-- Of pins `l`, those that were high in state `was` and are so no longer went low now.  DEDUCED, log entry 135: a hold that outlasts
every dead time is not noted. -/
def pinStamp (was : State) (l : List Nat) : Act := fun s =>
  forEach (l.filter fun n => gtPin was n = .high ∧ gtPin s n ≠ .high) (fun n => edgeA n fun x => { x with lowT := s.now }) s

/-! ### Force on (R177) -/

/-- The channel's dead time in 1/64 tick (R203). -/
def deadTime (s : State) (n : Nat) : Nat := min 102400 (s.f (F.EDGE_CH_DT_ACT_dt n))

/-- What fell at device time `t` has been low for channel `n`'s dead time; an edge falls within its tick (R191). -/
def deadPassed (s : State) (n : Nat) (t : BitVec 64) : Bool := deadTime s n < 64 * ((s.now - t).toNat + 1)

/-- A force-on of channel `n` may take effect (R177): the named channel's pin has been low for the dead time, which counts from the
end of the Drone's forced-off line where that is later (R183). -/
def forceOnMay (s : State) (n : Nat) : Bool :=
  bit (s.f (F.TRIP_GT_ON_ch (n / 24))) (n % 24) && !bit (s.f (F.TRIP_GT_OFF_ch (n / 24))) (n % 24) && !s.on F.DRONE_STAT_forced_off &&
  (tripSt s (n / 24)).offEnd.all (deadPassed s n) &&
  (match partner s n with
    | some p => gtPin s p != .high && deadPassed s n (edgeSt s p).lowT
    | none => false)

/-- The dead time of a force-on of channel `n` has ended. -/
def forceOnReady (n : Nat) : Act := whenA (fun s => forceOnMay s n)
  (tripA (n / 24) fun t => { t with fon := putBit t.fon (n % 24) true })

/-! ### The trip matrix -/

/-- Source `i` is active as seen by die `d`. -/
def srcActive (s : State) (d i : Nat) : Bool := bit (s.rd (R.TRIP_SRC_ACT d (i / 32))).toNat (i % 32)

/-- A latched force of source `i` holds on die `d`. -/
def srcLatched (s : State) (d i : Nat) : Bool := bit (s.rd (R.TRIP_LATCH d (i / 32))).toNat (i % 32)

/-- Release code of source `i` (R179); 3 acts as 0. -/
def srcRelease (s : State) (d i : Nat) : Nat := s.f (F.TRIP_SRC_CFG_release d i) % 3

/-- The result of one evaluation of R176 to R180. -/
structure TripEval where
  off : Nat := 0
  on : Nat := 0
  rep : Nat := 0
  /-- Latch bits of all sources. -/
  latch : Nat := 0
  cyc : Tab Nat := []
  held0 : Bool := false
deriving DecidableEq, Repr

/-- The partners on die `d` of the channels of a mask (R177 item 3). -/
def partnersOf (s : State) (d mask : Nat) : Nat :=
  maskOf (((bitsOf 24 mask).filterMap fun j => partner s (24 * d + j)).filterMap fun n => if n / 24 = d then some (n % 24) else none)

/-- Source `i`'s part of an evaluation on die `d`. -/
def tripSource (s : State) (d : Nat) (e : TripEval) (i : Nat) : TripEval :=
  let mo := s.f (F.TRIP_SRC_OFF_mask d i)
  let mn := s.f (F.TRIP_SRC_ON_mask d i)
  let mr := s.f (F.TRIP_SRC_REP_mask d i)
  let m := mo ||| mn
  let act := srcActive s d i
  let rel := srcRelease s d i
  let lat := srcLatched s d i || (act && rel = 0 && m ≠ 0)
  let cyc := if rel ≠ 2 then 0 else if act then m else (tripSt s d).cyc.get 0 i &&& m
  let held := if rel = 2 then cyc else if act || (rel = 0 && lat) then m else 0
  { off := e.off ||| held, on := e.on ||| partnersOf s d (held &&& mn), rep := e.rep ||| (if act then mr else 0),
    latch := putBit e.latch i lat, cyc := if cyc = 0 then e.cyc else e.cyc ++ [(i, cyc)],
    held0 := e.held0 || (rel = 0 && held ≠ 0) }

/-- The evaluation of die `d`; with TRIP disabled all masks are inactive (R184). -/
def tripEval (s : State) (d : Nat) : TripEval :=
  if tripOn s d then (List.range 144).foldl (tripSource s d) {}
  else { latch := (List.range 5).foldl (fun a w => a + (s.rd (R.TRIP_LATCH d w)).toNat * 2 ^ (32 * w)) 0 }

/-- The trip matrix of die `d` resolves (R177 to R180).  A channel released at a carrier zero by code 2 resumes at once; any
other waits for its commit point (R179).  A channel forced on whose partner's pin has been low for the dead time goes high at once
(R177).  With the TRIP island disabled nothing resolves (R184). -/
def tripResolve (d : Nat) (atZero : Bool) : Act := whenA (fun s => tripOn s d) fun s =>
  let e := tripEval s d
  let off0 := s.f (F.TRIP_GT_OFF_ch d)
  let on0 := s.f (F.TRIP_GT_ON_ch d)
  let all := e.off ||| e.on
  let freed := maskSub (off0 ||| on0) all
  let conf := maskSub (e.off &&& e.on) (off0 &&& on0)
  seq [
    forEach (List.range 5) fun w => setW (R.TRIP_LATCH d w) (BitVec.ofNat 32 (e.latch / 2 ^ (32 * w))),
    setF (F.TRIP_GT_OFF_ch d) e.off, setF (F.TRIP_GT_ON_ch d) e.on,
    setF (F.TRIP_GT_REP_ch d) (s.f (F.TRIP_GT_REP_ch d) ||| e.rep),
    only (maskSub all (off0 ||| on0) ≠ 0) (seq [setB (F.TRIP_EVENT_force d), recSend 1]),
    only (e.rep ≠ 0) (setB (F.TRIP_EVENT_report d)),
    only (conf ≠ 0) (seq [setB (F.TRIP_EVENT_conflict d), forEach (bitsOf 24 conf) fun _ => bump (R.TRIP_CONFLICT_CNT d)]),
    tripA d fun t =>
      { t with
        cyc := e.cyc, held0 := e.held0, fon := t.fon &&& maskSub e.on e.off,
        wait := maskSub (if atZero then t.wait else t.wait ||| freed) all },
    pinStamp s ((List.range 24).map (24 * d + ·)),
    forEach (bitsOf 24 e.on) fun j => forceOnReady (24 * d + j)] s

/-- The die that a source arises on (R175); none for the engine flags of the Core die and for firmware bits. -/
def sourceDie (i : Nat) : Option Nat :=
  if i < 64 then some (i % 32 / 16) else if i < 112 then some ((i - 64) / 24)
  else if i = 112 ∨ i = 113 then some 0 else if i = 114 then some 1 else none

/-- Source `i` has masks on die `d`, so its state travels there (R181). -/
def masksOn (s : State) (d i : Nat) : Bool :=
  s.f (F.TRIP_SRC_OFF_mask d i) ≠ 0 ∨ s.f (F.TRIP_SRC_ON_mask d i) ≠ 0 ∨ s.f (F.TRIP_SRC_REP_mask d i) ≠ 0

/-- Both seam links are up, so state passes from die to die (R181, R183). -/
def relayUp (s : State) : Bool := s.on (F.SYS_SEAM_STAT_up 0) ∧ s.on (F.SYS_SEAM_STAT_up 1)

/-- A state packet of source `i` reaches die `d` (R181): a source of the other die that has masks here. -/
def packetFor (s : State) (d i : Nat) : Bool := relayUp s ∧ sourceDie i = some (1 - d) ∧ masksOn s d i

/-- Source `i` becomes active or inactive as seen by die `d`; sources 115 to 119 are reserved (R175).  A change on
the source's own die sends a state packet where the other die has masks (R181).  DEDUCED, log entry 51. -/
def sourceSet (d i : Nat) (act : Bool) : Act := fun s =>
  if (115 ≤ i ∧ i ≤ 119) ∨ srcActive s d i = act then []
  else seq [setF (bitFld (R.TRIP_SRC_ACT d (i / 32)) (i % 32)) (b2n act), tripResolve d false,
    only (packetFor s (1 - d) i) (tripA (1 - d) fun t => { t with pkts := t.pkts ++ [(i, act)] })] s

/-- TRIP_LATCH_CLEAR (R179): a bit whose source is active stays set. -/
def tripLatchClear (d w : Nat) (v : Word) : Act := fun s =>
  seq [setW (R.TRIP_LATCH d w) (s.rd (R.TRIP_LATCH d w) &&& ~~~ (v &&& ~~~ s.rd (R.TRIP_SRC_ACT d w))),
    tripResolve d false] s

/-- A write of `TRIP_FW` (R175, R186): a bit named in both halves ends set (R20).  DEDUCED, log entry 50. -/
def tripFwWrite (d : Nat) (v : Word) : Act := fun s =>
  let set := v.toNat % 2 ^ 16
  let new := maskSub (s.f (F.TRIP_FW_set d)) (v.toNat / 2 ^ 16) ||| set
  seq [setF (F.TRIP_FW_set d) new, forEach (List.range 16) fun b => sourceSet d (128 + b) (bit new b)] s

/-- TRIP_FW_SET: the bits of `set`. -/
def tripFwSet (d : Nat) (v : Word) : Act := tripFwWrite d v

/-- TRIP_FW_CLEAR: the bits of `clr`. -/
def tripFwClear (d : Nat) (v : Word) : Act := tripFwWrite d v

/-- The TRIPIN of die `d` is enabled, and at its active level after its filter (R185). -/
def tripinActive (s : State) (d : Nat) : Bool :=
  let pol := s.on (F.TRIPIN_CFG_pol d)
  s.on (F.TRIPIN_CFG_en d) && majority (s.f (F.TRIPIN_CFG_n d)) (s.f (F.TRIPIN_CFG_m d)) pol ((tripSt s d).pins.map (· = pol))

/-- The TRIPIN source of die `d` follows its pin (R185). -/
def tripinEval (d : Nat) : Act := fun s => sourceSet d (113 + d) (tripinActive s d) s

/-- TRIPIN_CHANGE. -/
def tripinChange (d : Nat) (high : List Bool) : Act := forEach high fun h => seq [
  tripA d (fun t => { t with pins := (h :: t.pins).take 15 }), whenA (fun s => s.up) (tripinEval d)]

/-- `n` state packets of die `d`'s sources are discarded at a disabled island (R34). -/
def tripLost (d n : Nat) : Act := tripA d fun t => { t with lost := min (2 ^ 31 - 1) (t.lost + n) }

/-- A state packet of source `i` reaches die `d` whole: its TRIP acts on it; where TRIP is disabled it is discarded and counted at
the sender (R34). -/
def statePacketTake (d i : Nat) (act : Bool) : Act := cond (fun s => tripOn s d) (sourceSet d i act) (tripLost (1 - d) 1)

/-- TRIP_STATE_PACKET (R181): the oldest packet of the source arrives, or a repeat of its present state; with no good copy the sender
repeats it (R29), and only the event is set. -/
def tripStatePacket (d i : Nat) (good : Bool) : Act := whenA (fun s => packetFor s d i) fun s =>
  let p := (tripSt s d).pkts.find? fun x => x.1 = i
  if good then seq [
    match p with
    | some x => tripA d fun t => { t with pkts := t.pkts.erase x }
    | none => nop,
    statePacketTake d i ((p.map (·.2)).getD (srcActive s (1 - d) i))] s
  else only (tripOn s d) (setB (F.TRIP_EVENT_seam_repeat d)) s

/-- TRIP_STATE_REPEAT (R181): the other die takes the state of each source of die `d` that has masks there, after the packets sent
before. -/
def tripStateRepeat (d : Nat) : Act := whenA relayUp (withS fun s => seq [
  forEach (tripSt s (1 - d)).pkts (fun x => statePacketTake (1 - d) x.1 x.2), tripA (1 - d) fun t => { t with pkts := [] },
  forEach ((List.range 115).filter (packetFor s (1 - d))) fun i => statePacketTake (1 - d) i (srcActive s d i)])

/-- The trip-matrix summary of R180: a link loss counts until the link has trained again (R30), whatever the sticky bit shows. -/
def tripSummary (s : State) : Bool :=
  (tripSt s 0).held0 ∨ (tripSt s 1).held0 ∨
  s.hid.seam.lost ≠ 0

/-- The seam link of die `d` is lost (R183): state from across it is taken as inactive; latched forces stay latched. -/
def tripLinkLost (d : Nat) : Act :=
  seq [forEach [0, 1] (fun k => tripA k fun t => { t with pkts := [] }), forEach ((List.range 128).filter fun i => sourceDie i ≠ some d) fun i => sourceSet d i false,
    forEach ((List.range 128).filter fun i => sourceDie i = some d) fun i => sourceSet (1 - d) i false]

/-- At channel `n`'s carrier zero, code 2 holds whose source is inactive end (R179, R183). -/
def cycleRelease (n : Nat) : Act := fun s =>
  let d := n / 24
  let t := tripSt s d
  if t.cyc.all fun p => !bit p.2 (n % 24) then []
  else seq [tripA d fun t => { t with cyc := (t.cyc.map fun p =>
      (p.1, if srcActive s d p.1 then p.2 else putBit p.2 (n % 24) false)).filter fun p => p.2 ≠ 0 },
    tripResolve d true] s

/-- At channel `n`'s commit point a released channel resumes (R179). -/
def tripResume (n : Nat) : Act := fun s =>
  if bit (tripSt s (n / 24)).wait (n % 24) then tripA (n / 24) (fun t => { t with wait := putBit t.wait (n % 24) false }) s else []

/-! ### The monitors -/

/-- What monitor `m` holds. -/
def monSt (s : State) (m : Nat) : MonSt := s.hid.mon.get {} m

/-- Changes what monitor `m` holds. -/
def monA (m : Nat) (g : MonSt → MonSt) : Act := hidA fun h => { h with mon := h.mon.put {} m (g (h.mon.get {} m)) }

/-- Monitor `m` has a ramp (R170). -/
def rampUsed (s : State) (m : Nat) : Bool := s.on (F.WIN_M_CFG_use m) ∧ s.f (F.WIN_M_CFG_ramp_eu m) < 48

/-- The height of monitor `m`'s ramp at device time `t`, in 1/128 code: slope × 0.625 codes per µs is slope / 128 codes in each
update of 12.5 ns (R169). -/
def rampAt (s : State) (m : Nat) (t : BitVec 64) : Nat :=
  match (monSt s m).ramp with
  | some (t0, a) => a + s.f (F.WIN_M_SLOPE_slope m) * ((t - t0).toInt.toNat / 10)
  | none => 0

/-- The effective high threshold at device time `t`, and whether a ramp's stands at code 0 (R169). -/
def monThreshold (s : State) (m : Nat) (t : BitVec 64) : Nat × Bool :=
  let hi := s.f (F.WIN_M_TH_hi m)
  if rampUsed s m then
    let e := (roundHalfEven ((hi : Rat) - (rampAt s m t : Rat) / 128)).toNat
    (e, decide (e = 0))
  else (hi, false)

/-- A write of `WIN_M[m]_SLOPE`: the ramp goes on from where it stands. -/
def slopeWrite (m : Nat) (v : Word) : Act := fun s =>
  seq [monA m fun x => { x with ramp := x.ramp.map fun r =>
      (r.1 + BitVec.ofNat 64 (10 * ((s.now - r.1).toNat / 10)), rampAt s m s.now) },
    setF (F.WIN_M_SLOPE_slope m) v.toNat] s

/-- A captured change (R172, R33): with the FIFO full the newest entry replaces the oldest. -/
def monCapture (m : Nat) (c : Cap) : Act := fun s =>
  if (monSt s m).caps.length < 4 then monA m (fun x => { x with caps := x.caps ++ [c] }) s
  else seq [monA m (fun x => { x with caps := x.caps.drop 1 ++ [c] }), bump (R.WIN_M_CAP_OVR m), setB (F.WIN_M_EVENT_cap_ovr m)] s

/-- Monitor `m` runs. -/
def monOn (s : State) (m : Nat) : Bool := winOn s (m / 16) ∧ s.on (F.WIN_M_CFG_en m)

/-- A filtered output of monitor `m` takes a level, and its trip source with it. -/
def monLevel (m : Nat) (lo act : Bool) : Act :=
  seq [if lo then setF (F.WIN_M_STAT_lo m) (b2n act) else setF (F.WIN_M_STAT_hi m) (b2n act),
    sourceSet (m / 16) (if lo then 32 + m else m) act]

/-- A filtered output of monitor `m` changes (R173): its level, its source, its event. -/
def monTurn (m : Nat) (lo act : Bool) : Act :=
  seq [monLevel m lo act, setB (bitFld (R.WIN_M_EVENT m) ((if lo then 2 else 0) + (if act then 0 else 1)))]

/-- A filtered output of monitor `m`. -/
def monOut (s : State) (m : Nat) (lo : Bool) : Bool := if lo then s.on (F.WIN_M_STAT_lo m) else s.on (F.WIN_M_STAT_hi m)

/-- The filtered output that monitor `m`'s last samples give (R171). -/
def monFiltered (s : State) (m : Nat) (lo : Bool) : Bool :=
  majority (s.f (F.WIN_M_FILT_n m)) (s.f (F.WIN_M_FILT_m m)) false ((monSt s m).hist.map fun c => if lo then c.2 else c.1)

/-- A filtered output follows the samples, the last of which falls in half-tick `h` (R171 to R174): capture, wake, and the
triggers that an active edge sends (R140).  DEDUCED, log entry 83. -/
def monFollow (m : Nat) (lo : Bool) (h : Nat) : Act := fun s =>
  let act := monFiltered s m lo
  let cap := s.f (F.WIN_M_CFG_cap m)
  let ts := BitVec.ofInt 64 ((h / 2 : Nat) + dieSkew s (m / 16))
  if monOut s m lo = act then []
  else seq [monTurn m lo act,
    only (cap ≠ 0 ∧ (act ∨ cap ≠ 1)) (monCapture m { ts := ts, sub := decide (h % 2 = 1), lo := lo, act := act }),
    only (act ∧ s.on (F.WIN_M_CFG_wake m)) wakeAll, only act (fire (.monitor m lo) ts)] s

/-- The voltage of threshold code `c` at reference `r` (R166). -/
def codeVolts (r : Rat) (c : Int) : Rat := ((c : Rat) - 2048) * r / 2048

/-- A comparator (R167): active beyond its threshold, inactive once back beyond its hysteresis, else as it was. -/
def comparator (was on off : Bool) : Bool := if on then true else if off then false else was

/-- One WIN sample of monitor `m`, its input at `v` and the reference at `r` (R166 to R168). -/
def monSample (m : Nat) (v r : Rat) (h : Nat) : Act := whenA (fun s => monOn s m) fun s =>
  let x := monSt s m
  let hys : Int := s.f (F.WIN_M_HYS_hyst m)
  let hi : Int := (monThreshold s m (BitVec.ofNat 64 (h / 2))).1
  let lo : Int := s.f (F.WIN_M_TH_lo m)
  let a := comparator x.hiC (codeVolts r hi < v) (v < codeVolts r (hi - hys))
  let b := comparator x.loC (v < codeVolts r lo) (codeVolts r (lo + hys) < v)
  seq [monA m fun x => { x with hiC := a, loC := b, hist := ((a, b) :: x.hist).take 15 },
    monFollow m false h, monFollow m true h] s

/-- MONITOR_FILTERED_EDGE: WIN samples one after another, the last one now.  DESIGN CHOICE, log entry 83. -/
def monSamples (m : Nat) (vd : List Rat) (ext vdda : Rat) (sub : Bool) : Act := fun s =>
  let last := 2 * s.now.toNat + b2n sub
  forEach vd.zipIdx (fun x => monSample m x.1 (vref s (m / 16) ext vdda) (last - (vd.length - 1 - x.2))) s

/-- CAP_INFO_READ (R172): what the read returns. -/
def capWord (s : State) (m : Nat) : Word :=
  match (monSt s m).caps with
  | [] => 0#32
  | c :: _ => BitVec.ofNat 32 (2 ^ 31 + 8 * b2n c.sub + 4 * b2n c.lo + 2 * b2n c.act)

/-- CAP_INFO_READ: the head entry leaves the FIFO, its time in `CAP_TS`. -/
def capPop (m : Nat) : Act := fun s =>
  match (monSt s m).caps with
  | [] => []
  | c :: cs => seq [monA m (fun x => { x with caps := cs }), set64 (R.WIN_M_CAP_TS m) c.ts] s

/-- A monitor stops (R184): both filtered outputs drop, capture and ramp stop; it starts again from inactive comparators and
samples (R167, R171). -/
def monStop (m : Nat) : Act :=
  seq [whenA (fun s => monOut s m false) (monTurn m false false), whenA (fun s => monOut s m true) (monTurn m true false),
    monA m fun x => { x with ramp := none, hiC := false, loC := false, hist := [] }]

/-- A write of `WIN_M[m]_CFG` by its RW fields; clearing `en` stops the monitor (R184). -/
def monCfgWrite (m : Nat) (v : Word) : Act :=
  seq [setF (F.WIN_M_CFG_cap m) (v.toNat / 16), setF (F.WIN_M_CFG_wake m) (v.toNat / 2), setF (F.WIN_M_CFG_en m) v.toNat,
    only (!v.getLsbD 0) (monStop m)]

/-- The ramps that carrier zero of edge unit `n` restarts (R169). -/
def rampRestart (n : Nat) : Act := fun s =>
  forEach ((List.range 32).filter fun m => monOn s m ∧ s.on (F.WIN_M_CFG_use m) ∧ s.f (F.WIN_M_CFG_ramp_eu m) = n)
    (fun m => monA m fun x => { x with ramp := some (s.now, 0) }) s

end Sys2Proof.Machine
end

