-- ==== Sys2Proof/Machine/Gate.lean ====
section
/-!
DEFINITION. Gate channels, the interlock, the GT pins, and the Ligature buses with their pods (spec/09).
-/

namespace Sys2Proof.Machine

/-! ### Interlock (R215, R216) -/

/-- The record of a hold. -/
def bothOn (held first : Nat) (same : Bool) : Act := fun s =>
  let d := held / 24
  seq [setF (F.GATE_BOTHON_held d) held, setF (F.GATE_BOTHON_first d) first, setF (F.GATE_BOTHON_same_tick d) (b2n same),
    set64 (R.GATE_BOTHON_TS d) (dieTime s d), bump (R.GATE_BOTHON_CNT d), setB (F.GATE_EVENT_both_on d)] s

/-- The edge output of channel `n` rises. -/
def ilRise (n : Nat) : Act := fun s =>
  let up := edgeA n fun x => { x with il := true, rise := some s.now }
  let held := edgeA n fun x => { x with il := false, rise := some s.now }
  match partner s n with
  | none => up s
  | some p =>
    let q := edgeSt s p
    if q.il ∧ q.rise = some s.now then
      seq [held, edgeA p (fun x => { x with il := false }), pinStamp s [p], bothOn (max n p) (min n p) true] s
    else if q.il then seq [held, bothOn n p false] s
    else up s

/-- The edge output of channel `n` falls. -/
def ilFall (n : Nat) : Act := fun s => seq [edgeA n fun x => { x with il := false }, pinStamp s [n]] s

/-! ### The Ligature bus -/

/-- What bus `k` holds. -/
def ligSt (s : State) (k : Nat) : LigSt := s.hid.lig.get {} k

/-- Changes what bus `k` holds. -/
def ligA (k : Nat) (g : LigSt → LigSt) : Act := hidA fun h => { h with lig := h.lig.put {} k (g (h.lig.get {} k)) }

/-- Changes what gate channel `n` holds of its pod. -/
def podA (n : Nat) (g : PodSt → PodSt) : Act := hidA fun h => { h with pod := h.pod.put {} n (g (h.pod.get {} n)) }

/-- Bus `k` runs (R233). -/
def busOn (s : State) (k : Nat) : Bool := ligOn s (k / 2) ∧ s.on (F.GATE_LIG_CFG_en k)

/-- What a frame's CRC covers (R218): address, type and payload, each most significant bit first. -/
def ligBody (addr typ : Nat) (payload : List Bool) : List Bool := msbFirst 4 addr ++ msbFirst 4 typ ++ payload

/-- The payload of a fault vector: slot a for pod a, pod 0 first (R219). -/
def slotBits (slots : BitVec 12) : List Bool := (List.range 12).map slots.getLsbD

/-- Address, type and payload of a frame that the device sends; of a fault vector, the header that it polls with. -/
def LigFrame.body : LigFrame → List Bool
  | .vector => ligBody 15 0 []
  | .select v => ligBody 15 1 (msbFirst 24 v.toNat)
  | .poll a => ligBody a 2 []
  | .write a x v => ligBody a 4 (msbFirst 8 x ++ msbFirst 16 v)
  | .clear a => ligBody a 6 []

/-- The bits that the device sends for a frame (R218, R219): the pods drive a fault vector's slots and CRC. -/
def LigFrame.wire (f : LigFrame) : List Bool :=
  msbFirst 8 0xA7 ++ f.body ++ (if f = .vector then [] else msbFirst 8 (crc8OfBits f.body).toNat)

/-- The frame in progress on bus `k`: a SELECT, which draws no answer, lasts 240 ns (R218). -/
def ligCur (s : State) (k : Nat) : Option LigFrame :=
  match (ligSt s k).cur with
  | some (.select v) => if 192 ≤ (s.now - (ligSt s k).curT).toNat then none else some (.select v)
  | c => c

/-- A frame of bus `k` is received: the bus runs, or the frame in progress is still to end (R22, R233). -/
def busRx (s : State) (k : Nat) : Bool := busOn s k ∨ (s.up ∧ (ligCur s k).isSome)

/-- The pod of channel `n` is present. -/
def podPresent (s : State) (n : Nat) : Bool := s.on (F.GATE_CH_CFG_present n)

/-- The value that pod register `x` of channel `n` mirrors (R231, R224). -/
def podReg (s : State) (n x : Nat) : Nat :=
  if x < 24 then (s.rd (R.GATE_CH_PROF n x)).toNat % 2 ^ 16
  else if x = 0x18 then max 10 (min 500 (s.f (F.GATE_CH_DESAT_blank n)))
  else if x = 0x19 then max 10 (min 100 (s.f (F.GATE_CH_DESAT_thr n)))
  else if x = 0x1A then s.f (F.GATE_CH_SUPPLY_uv n)
  else 3

/-- Pod register `x` is sent to the pod of channel `n`: profile indices at or above its count are not (R227). -/
def podHas (s : State) (n x : Nat) : Bool := 24 ≤ x ∨ x / 3 % 4 ≤ s.f (F.GATE_CH_CFG_nprof n)

/-- A WRITE frame to the pod of channel `n` is queued (R227), in place of one that waits for the same register. -/
def podWrite (n x : Nat) : Act := fun s =>
  if podPresent s n ∧ podHas s n x then
    seq [clrB (F.GATE_CH_STAT_in_sync n), podA n (fun p => { p with unack := putBit p.unack x true }),
      ligA (n / 12) fun b => { b with writes := (b.writes.filter fun w => ¬ (w.1 = n % 12 ∧ w.2.1 = x)) ++ [(n % 12, x, podReg s n x)] }] s
  else []

/-- The pod of channel `n` is rewritten whole (R232). -/
def podResync (n : Nat) : Act :=
  seq [setB (F.GATE_CH_EVENT_resync n), clrB (F.GATE_CH_STAT_in_sync n), forEach (List.range 28) (podWrite n)]

/-- PROFILE_WRITE (R227). -/
def profileWrite (n x : Nat) (v : Word) : Act :=
  seq [setW (R.GATE_CH_PROF n x) (v &&& 0xFFFF#32), podWrite n x]

/-- Writes of `DESAT` and of `SUPPLY` are mirrored in the same way (R224, R230). -/
def desatWrite (n : Nat) (v : Word) : Act :=
  seq [setW (R.GATE_CH_DESAT n) (v &&& 0x007F01FF#32), podWrite n 0x18, podWrite n 0x19]
def supplyWrite (n : Nat) (v : Word) : Act :=
  seq [setW (R.GATE_CH_SUPPLY n) (v &&& 0x0FFF0FFF#32), podWrite n 0x1A]

/-- A good answer of the pod of channel `n` (R223): it is lost no longer; one to a POLL ends its run of failed polls. -/
def podAnswered (n : Nat) : Act :=
  seq [clrB (bitFld (R.GATE_LIG_STAT (n / 12)) (n % 12)), clrB (F.GATE_CH_FAULT_lost n),
    ligA (n / 12) fun b =>
      if b.cur = some (.poll (n % 12)) then { b with
        cur := none, retry := if b.retry = some (n % 12) then none else b.retry, fails := b.fails.put 0 (n % 12) 0, ans := true }
      else { b with cur := none }]

/-- POD_ANSWER_TIMEOUT (R223): a POLL without a good answer is repeated once; after three in a
row the pod is lost. -/
def answerTimeout (k : Nat) : Act := fun s =>
  let b := ligSt s k
  if !busRx s k then []
  else match b.cur with
  | some (.poll a) =>
    let f := b.fails.get 0 a + 1
    let n := 12 * k + a
    seq [bump (R.GATE_LIG_ERR k),
      ligA k (fun b => { b with cur := none, fails := b.fails.put 0 a (min 3 f), retry := if b.retry = some a then none else some a }),
      only (3 ≤ f) (seq [setB (bitFld (R.GATE_LIG_STAT k) a), setB (F.GATE_CH_FAULT_lost n),
        only (!s.on (F.GATE_CH_FAULT_lost n)) (setB (F.GATE_CH_EVENT_lost n))])] s
  | some (.select _) => []
  | none => []
  | some _ => seq [bump (R.GATE_LIG_ERR k), ligA k fun b => { b with cur := none }] s

/-- The causes of a latched fault are copied from `c`: desaturation, undervoltage, overtemperature (R225). -/
def copyCauses (n c : Nat) : Act := whenA (fun s => (s.hid.pod.get {} n).needCause)
  (seq [setF (F.GATE_CH_FAULT_desat n) c, setF (F.GATE_CH_FAULT_uv n) (c / 2), setF (F.GATE_CH_FAULT_ot n) (c / 4),
    podA n fun p => { p with needCause := false }])

/-- The condition of R201. -/
def refreshCond (s : State) (n : Nat) : Bool :=
  s.on (F.EDGE_CH_CFG_refr_ok n) ∧ s.on (F.EDGE_CH_REFR_en n) ∧ s.on (F.GATE_CH_CFG_boot n) ∧ s.on (F.GATE_CH_STAT_warn n)

/-- The count of periods starts anew once the condition has ended (R201). -/
def refreshEval (n : Nat) : Act := whenA (fun s => !refreshCond s n) (edgeA n fun x => { x with refrN := 0 })

/-- The payload of a TELEM frame. -/
def telemBits (vds temp supply status : BitVec 12) : List Bool :=
  msbFirst 12 vds.toNat ++ msbFirst 12 temp.toNat ++ msbFirst 12 supply.toNat ++ msbFirst 12 status.toNat

/-- TELEM, the answer to a POLL (R218, R229, R230, R232); one with a bad CRC counts as none (R223). -/
def telemRx (n : Nat) (vds temp supply status : BitVec 12) (crc : BitVec 8) : Act := fun s =>
  if !busRx s (n / 12) ∨ !podPresent s n ∨ (ligSt s (n / 12)).cur ≠ some (.poll (n % 12)) then []
  else if crc ≠ crc8OfBits (ligBody (n % 12) 3 (telemBits vds temp supply status)) then answerTimeout (n / 12) s
  else
    let warn := decide (supply.toNat < s.f (F.GATE_CH_SUPPLY_warn n))
    seq [podAnswered n,
      setF (F.GATE_CH_TELEM0_vds n) vds.toNat, setF (F.GATE_CH_TELEM0_supply n) supply.toNat,
      setF (F.GATE_CH_TELEM1_temp n) temp.toNat, setF (F.GATE_CH_TELEM1_status n) status.toNat,
      set64 (R.GATE_CH_TELEM_TS n) (dieTime s (n / 24)),
      only (warn ∧ !s.on (F.GATE_CH_STAT_warn n)) (setB (F.GATE_CH_EVENT_warn n)),
      setF (F.GATE_CH_STAT_warn n) (b2n warn), refreshEval n,
      copyCauses n status.toNat,
      only (status.getLsbD 4) (podResync n)] s

/-- Pod register `x` of channel `n` was acknowledged with value `v` (R227): it is in step unless it was written again. -/
def podAcked (n x v : Nat) : Act := whenA (fun s => podReg s n x = v) (seq [
  podA n (fun p => { p with unack := putBit p.unack x false }),
  whenA (fun t => (t.hid.pod.get {} n).unack = 0) (setB (F.GATE_CH_STAT_in_sync n))])

/-- ACK (R218, R225, R227): the echo of a WRITE; with address 0xFF, the answer to a CLEAR. -/
def ackRx (n : Nat) (addr : BitVec 8) (data : BitVec 16) (crc : BitVec 8) : Act := fun s =>
  let good := crc = crc8OfBits (ligBody (n % 12) 5 (msbFirst 8 addr.toNat ++ msbFirst 16 data.toNat))
  let take := fun a => if !good then answerTimeout (n / 12) else seq [podAnswered n, a]
  if !busRx s (n / 12) ∨ !podPresent s n then []
  else match (ligSt s (n / 12)).cur with
  | some (.write a x v) => if a ≠ n % 12 then [] else
      take (only (addr.toNat = x ∧ data.toNat = v) (podAcked n x v)) s
  | some (.clear a) => if a ≠ n % 12 then [] else take (only (addr = 0xFF#8) (copyCauses n data.toNat)) s
  | _ => []

/-- The pod of channel `n` stays latched, its tries used up (R226). -/
def podStuck (n : Nat) : Act :=
  whenA (fun s => s.f (F.GATE_CH_CFG_tries n) ≠ 0 ∧ s.f (F.GATE_CH_CFG_tries n) ≤ s.f (F.GATE_CH_FAULT_tries_used n))
    (seq [setB (F.GATE_CH_FAULT_stuck n), setB (F.GATE_CH_EVENT_stuck n)])

/-- A slot in a good vector, set only where the pod is present (R222, R225, R226); a latched fault clears with a slot at 0. -/
def slotTake (n : Nat) (was isSet : Bool) : Act :=
  seq [
    only (isSet ∧ !was) (seq [setB (F.GATE_CH_FAULT_latched n), podA n (fun p => { p with needCause := true }),
      bump (R.GATE_CH_FCNT n), setB (F.GATE_CH_EVENT_fault n), podStuck n]),
    whenA (fun s => s.on (F.GATE_CH_FAULT_latched n) ∧ !isSet) (seq [clrB (F.GATE_CH_FAULT_latched n), clrB (F.GATE_CH_FAULT_desat n), clrB (F.GATE_CH_FAULT_uv n),
      clrB (F.GATE_CH_FAULT_ot n), podA n (fun p => { p with needCause := false }), setB (F.GATE_CH_EVENT_fault_clear n)]),
    sourceSet (n / 24) (64 + n) isSet]

/-- FAULT_VECTOR_RX (R219, R222): a discarded vector, and each stray slot, is counted. -/
def vectorRx (k : Nat) (slots : BitVec 12) (crc : BitVec 8) : Act := fun s =>
  if !busRx s k then []
  else
    let done := ligA k fun b => { b with cur := if b.cur = some .vector then none else b.cur }
    if crc ≠ crc8OfBits (ligBody 15 0 (slotBits slots)) then
      seq [done, bump (R.GATE_LIG_ERR k), only (busOn s k) (ligA k fun b => { b with fvReq := true })] s
    else
      let old := s.f (F.GATE_LIG_STAT_fv k)
      seq [done, setF (F.GATE_LIG_STAT_fv k) slots.toNat,
        forEach (List.range 12) fun a =>
          if podPresent s (12 * k + a) ∨ !slots.getLsbD a then slotTake (12 * k + a) (bit old a) (slots.getLsbD a)
          else bump (R.GATE_LIG_ERR k)] s

/-- Frame `f` begins on bus `k`; a poll of the fault vector is to follow a CLEAR (R222). -/
def ligBegin (k : Nat) (f : LigFrame) : Act := fun s =>
  ligA k (fun b => { b with cur := some f, curT := s.now, fvReq := match f with | .clear _ => true | _ => b.fvReq }) s

/-- POD_FAULT_VECTOR_START (R220): a frame in progress other than a vector is broken, counted and repeated. -/
def vectorStart (k : Nat) : Act := fun s =>
  if !busOn s k then []
  else match ligCur s k with
  | some .vector => []
  | some f => seq [bump (R.GATE_LIG_ABORT k), ligBegin k .vector,
      ligA k fun b => { b with again := some f, fvReq := match f with | .clear _ => false | _ => b.fvReq }] s
  | none => ligBegin k .vector s

/-- FAULT_VECTOR_POLL (R222). -/
def vectorPoll (k : Nat) : Act := whenA (fun s => busOn s k) (ligA k fun b => { b with fvPer := true })

/-- The next present pod in turn after `a` (R223). -/
def nextPod (s : State) (k a : Nat) : Option Nat :=
  ((List.range 12).map fun i => (a + 1 + i) % 12).find? fun x => podPresent s (12 * k + x)

/-- LIG_NEXT_FRAME (R223): the bus is idle; the order of the schedule, a repeated frame straight after the vector.
DEDUCED, log entry 54. -/
def ligNext (k : Nat) : Act := fun s =>
  let b := ligSt s k
  let idle := match b.cur with | none => true | some .vector => true | some (.select _) => true | _ => false
  if !busOn s k ∨ !idle then []
  else if b.fvReq then seq [ligA k (fun b => { b with fvReq := false }), ligBegin k .vector] s
  else match b.again with
  | some f => seq [ligA k (fun b => { b with again := none }), ligBegin k f] s
  | none => match b.sel with
    | some v => seq [ligA k (fun b => { b with sel := none }), ligBegin k (.select v)] s
    | none => match b.clears with
      | a :: as => seq [ligA k (fun b => { b with clears := as }), ligBegin k (.clear a)] s
      | [] => match b.writes with
        | w :: ws => seq [ligA k (fun b => { b with writes := ws }), ligBegin k (.write w.1 w.2.1 w.2.2)] s
        | [] =>
          if b.fvPer then seq [ligA k (fun b => { b with fvPer := false }), ligBegin k .vector] s
          else match b.retry with
          | some a => ligBegin k (.poll a) s
          | none => match nextPod s k b.last with
            | none => ligA k (fun b => { b with cur := none }) s
            | some a =>
              if a ≤ b.last then
                seq [setF (F.GATE_LIG_STAT_up k) (b2n b.ans),
                  ligA k (fun b => { b with last := a, ansLast := b.ans, ans := false }), ligBegin k (.poll a)] s
              else seq [ligA k (fun b => { b with last := a }), ligBegin k (.poll a)] s

/-- A CLEAR to the pod of channel `n` is queued; one that waits already serves (R234). -/
def queueClear (n : Nat) : Act :=
  ligA (n / 12) fun b => { b with clears := if b.clears.contains (n % 12) then b.clears else b.clears ++ [n % 12] }

/-- AUTO_CLEAR_TIMER (R226); a `clr` of the same LIG cycle has sent the CLEAR, and `tries_used` stays zeroed (R234). -/
def autoClear (n : Nat) : Act := fun s =>
  let used := s.f (F.GATE_CH_FAULT_tries_used n)
  let tries := s.f (F.GATE_CH_CFG_tries n)
  if !busOn s (n / 12) ∨ !s.on (F.GATE_CH_FAULT_latched n) ∨ tries = 0 ∨ (s.hid.pod.get {} n).clrT.any (sameLig s (n / 24)) then []
  else if used < tries then seq [queueClear n, setF (F.GATE_CH_FAULT_tries_used n) (used + 1)] s
  else podStuck n s

/-- TRIES_RESET_TIMER (R226): the slot has stayed at 0. -/
def triesReset (n : Nat) : Act :=
  whenA (fun s => busOn s (n / 12) ∧ !bit (s.f (F.GATE_LIG_STAT_fv (n / 12))) (n % 12)) (setF (F.GATE_CH_FAULT_tries_used n) 0)

/-- FAULT_CLR (R226). -/
def faultClr (n : Nat) (v : Word) : Act := only (v.getLsbD 31)
  (seq [setF (F.GATE_CH_FAULT_tries_used n) 0, clrB (F.GATE_CH_FAULT_stuck n),
    withS fun s => podA n fun p => { p with clrT := some s.now },
    whenA (fun s => busOn s (n / 12)) (queueClear n)])

/-- Bus `k` sends nothing more (R233): the frame in progress still ends, with its answer; fault vector and telemetry stay
registered.  What the bus sends by itself is dropped, and queued WRITEs are kept.  DESIGN CHOICE, log entry 128. -/
def ligEnd (k : Nat) : Act :=
  seq [clrB (F.GATE_LIG_STAT_up k),
    ligA k fun b => { b with again := none, fvReq := false, sel := none, clears := [], fvPer := false, retry := none,
                             ans := false, ansLast := false }]

/-- Bus `k` has stopped. -/
def ligStop (k : Nat) : Act := seq [ligEnd k, ligA k fun b => { b with cur := none }]

/-- A write of `GATE_LIG[k]_CFG` (R222, R233): enabling the bus polls the fault vector. -/
def ligCfgWrite (k : Nat) (v : Word) : Act := fun s =>
  let was := s.on (F.GATE_LIG_CFG_en k)
  seq [setF (F.GATE_LIG_CFG_sel_eu k) (v.toNat / 2 ^ 16), setF (F.GATE_LIG_CFG_fv_poll k) (v.toNat / 2 ^ 8),
    setF (F.GATE_LIG_CFG_en k) v.toNat,
    if v.getLsbD 0 then only (!was) (ligA k fun b => { b with fvReq := true }) else ligEnd k] s

/-- A port's write of `GATE_LIG[k]_SEL`: the engine's of the same cycle is kept (R228). -/
def selWrite (k : Nat) (v : Word) : Act := fun s =>
  if (ligSt s k).engT.any (sameLig s (k / 2)) then [] else setW (R.GATE_LIG_SEL k) (v &&& 0xFFFFFF#32) s

/-- At the carrier zero of edge unit `n` the buses of its die that name it queue a SELECT (R228); an index beyond the pod's
count is sent as 0. -/
def selectAt (n : Nat) : Act := fun s =>
  forEach ([2 * (n / 24), 2 * (n / 24) + 1].filter fun k => busOn s k ∧ s.f (F.GATE_LIG_CFG_sel_eu k) = n) (fun k =>
    let ix := fun a => s.f (F.GATE_LIG_SEL_sel k) / 4 ^ a % 4
    let clip := fun a => decide (podPresent s (12 * k + a) ∧ s.f (F.GATE_CH_CFG_nprof (12 * k + a)) < ix a)
    let v := (List.range 12).foldl (fun t a => t + (if clip a then 0 else ix a) * 4 ^ a) 0
    seq [ligA k fun b => { b with sel := some (BitVec.ofNat 24 v) },
      forEach ((List.range 12).filter clip) fun a => setB (F.GATE_CH_EVENT_sel_clip (12 * k + a))]) s

end Sys2Proof.Machine
end

