-- ==== Sys2Proof/Machine/Drone.lean ====
section
/-!
DEFINITION. The Drone: sources, demands, forced-off line, safety inputs and outputs, watchdog, test pulses, fault reset
(spec/15).
-/

namespace Sys2Proof.Machine

/-- Changes what the Drone holds. -/
def droneA (g : DroneSt → DroneSt) : Act := hidA fun h => { h with drone := g h.drone }

/-- The Drone runs (R51). -/
def droneOn (s : State) : Bool := s.hid.pwr.aon = .running

/-! ### Parameters (R102, R385) -/

/-- Byte `i` of the SAFETY payload held. -/
def parByte (s : State) (i : Nat) : Nat := (s.rd (R.DRONE_PARAM (i / 4))).toNat / 2 ^ (8 * (i % 4)) % 256

/-- A SAFETY payload is held. -/
def accepted (s : State) : Bool := s.on F.DRONE_STAT_accepted

/-- The sources (bits 5:0), and the inputs (bits 3:0), that open output `k`. -/
def maskSrc (s : State) (k : Nat) : Nat := parByte s (20 + k) % 64
def maskIn (s : State) (k : Nat) : Nat := parByte s (24 + k) % 16

/-- Input `j` is enabled, and its sense is antivalent (R381). -/
def inputOn (s : State) (j : Nat) : Bool := accepted s ∧ bit (parByte s 0) j
def antivalent (s : State) (j : Nat) : Bool := bit (parByte s 1) j

/-- A field of byte `j` of `DRONE_IN`. -/
def inFld (j b : Nat) : Fld := bitFld R.DRONE_IN (8 * j + b)

/-- A field of byte `k` of `DRONE_OUT`. -/
def outFld (k b : Nat) : Fld := bitFld R.DRONE_OUT (8 * k + b)

/-! ### Sources and holds (R376, R377) -/

/-- The mode as the Drone takes it: a stale one counts as HALT. -/
def droneMode (s : State) : Nat := if s.on F.DRONE_STAT_mode_stale then HALT else s.f F.DRONE_STAT_mode

/-- SVCKEY relaxes the supervision (R389). -/
def relaxed (s : State) : Bool := droneMode s = SERVICE ∧ s.on F.DRONE_STAT_svckey

/-- The mode allows the outputs to be energised (R127). -/
def energisable (s : State) : Bool :=
  droneMode s = STANDBY ∨ droneMode s = FOLLOW ∨ droneMode s = FORM ∨ droneMode s = RIDE ∨ relaxed s

/-- The live sources 0 to 5. -/
def liveSrc (s : State) (i : Nat) : Bool :=
  if i = 0 then s.on F.DRONE_FAULT_wd else if i = 1 then s.hid.chnt.line else if i = 2 then tripSummary s
  else if i = 3 then s.hid.drone.island else if i = 4 then s.hid.drone.pair else if i = 5 then (s.hid.drone.coastOut ≠ 0) else false

/-- A source that the Drone does not ignore (R389). -/
def effSrc (s : State) (i : Nat) : Bool := liveSrc s i ∧ ¬ (relaxed s ∧ (i = 0 ∨ i = 1 ∨ i = 4))

/-- Source `i` is masked for some output. -/
def srcMasked (s : State) (i : Nat) : Bool := (List.range 4).any fun k => bit (maskSrc s k) i

/-- Input `j` is masked for some output. -/
def inMasked (s : State) (j : Nat) : Bool := (List.range 4).any fun k => bit (maskIn s k) j

/-- Input `j` is in demand. -/
def inDemand (s : State) (j : Nat) : Bool := s.on (inFld j 2)

/-- No payload is held, or force is 0 or 1 (R108). -/
def paramHold (s : State) : Bool := !accepted s ∨ s.force < 2

/-- The latched causes of R377 and R380 as bits: clock monitor, parameter, line, stuck outputs. -/
def latchedBits (s : State) : Nat :=
  b2n (s.on F.DRONE_FAULT_clock) + 2 * b2n (s.on F.DRONE_FAULT_param) + 4 * b2n (s.on F.DRONE_FAULT_line)
    + 8 * s.f F.DRONE_FAULT_stuck

/-- Any latched Drone fault. -/
def droneFaulted (s : State) : Bool := s.rd R.DRONE_FAULT ≠ 0#32

/-- A cause of R377 holds. -/
def causeHolds (s : State) : Bool := paramHold s ∨ !energisable s ∨ s.hid.drone.supply ∨ latchedBits s ≠ 0

/-- A demand for output `k` is active (R378, R395): a source or an input masked for it, or a latched cause, which acts on all. -/
def outDemand (s : State) (k : Nat) : Bool :=
  latchedBits s ≠ 0 || ((List.range 6).any fun i => effSrc s i && bit (maskSrc s k) i) || (List.range 4).any fun j => inDemand s j && bit (maskIn s k) j

/-- The forced-off line (R376, R377); a Leader that hands over forces the pins low through it too (R401). -/
def forcedOff (s : State) : Bool :=
  causeHolds s ∨ s.hid.pair.handover ∨ effSrc s 0 ∨ effSrc s 1 ∨ effSrc s 3 ∨ effSrc s 4 ∨ effSrc s 5 ∨
  (List.range 4).any fun j => inDemand s j && inMasked s j

/-- The demands active (R378): sources that act, inputs masked beyond their initial demand, latched causes. -/
def demands (s : State) : Nat :=
  (List.range 6).foldl (fun a i => a + b2n (effSrc s i && (i != 2 || srcMasked s i)) * 2 ^ i) 0
  + (List.range 4).foldl (fun a j => a + b2n (inDemand s j && inMasked s j && !bit s.hid.drone.initial j) * 2 ^ (12 + j)) 0
  + latchedBits s * 2 ^ 16

/-- `DRONE_SRC` (R395). -/
def droneSrcWord (s : State) : Word := BitVec.ofNat 32 (
  (List.range 6).foldl (fun a i => a + b2n (liveSrc s i) * 2 ^ i) 0
  + (List.range 4).foldl (fun a j => a + b2n (inDemand s j) * 2 ^ (12 + j)) 0
  + b2n (latchedBits s ≠ 0) * 2 ^ 11 + b2n (paramHold s) * 2 ^ 10 + b2n s.hid.drone.supply * 2 ^ 9
  + b2n (!energisable s) * 2 ^ 8)

/-- The sources of a demand as `DRONE_DEM_SRC` shows them. -/
def demandWord (d : Nat) : Word := BitVec.ofNat 32 (d % 2 ^ 16 + b2n (2 ^ 16 ≤ d) * 2 ^ 11)

/-- SOHk is commanded on (R379). -/
def sohOn (s : State) (k : Nat) : Bool := energisable s ∧ !causeHolds s ∧ !outDemand s k

/-- The Drone holds SOLk off: a stuck output, or a test that a demand overtook while that demand lasts (R380, R388). -/
def solHeld (s : State) (k : Nat) : Bool :=
  bit (s.f F.DRONE_FAULT_stuck) k ∨ (bit s.hid.drone.override k ∧ outDemand s k)

/-- SOLk is on. -/
def solOn (s : State) (k : Nat) : Bool := bit s.hid.drone.sol k ∧ !solHeld s k

/-- The command of `SYS_SOL` goes to the North die (R379, R396); over a lost link it does not arrive, and nothing sends it again.
DEDUCED, log entry 131. -/
def solSend : Act := whenA (fun s => s.on (F.SYS_SEAM_STAT_up 0))
  (withS fun s => droneA fun x => { x with sol := s.f F.SYS_SOL_on })

/-- Source 112: a demand holds a source masked for some output (R378). -/
def droneTrip (s : State) : Bool :=
  ((List.range 6).any fun i => effSrc s i && srcMasked s i) ||
  (List.range 4).any fun j => inDemand s j && inMasked s j && !bit s.hid.drone.initial j

/-- Source `i` is active, as it arises on die `d` (R175); a pod's as its slot stands in the last good fault vector (R222). -/
def sourceTrue (s : State) (d i : Nat) : Bool :=
  if i < 32 then monOut s i false else if i < 64 then monOut s (i - 32) true
  else if i < 112 then podPresent s (i - 64) && bit (s.f (F.GATE_LIG_STAT_fv ((i - 64) / 12))) ((i - 64) % 12)
  else if i = 112 then droneTrip s else if i < 115 then tripinActive s (i - 113) else if i < 120 then false
  else if i < 128 then s.on (F.BORE_STAT_limit (i - 120)) else bit (s.f (F.TRIP_FW_set d)) (i - 128)

/-- TRIP_SOURCE_CHANGE (R175, R177): the source takes its state on a die where it arises, or that its link reaches. -/
def tripSourceChange (d i : Nat) : Act := whenA (fun s => s.up && (match sourceDie i with
    | some x => decide (x = d) || packetFor s d i
    | none => decide (128 ≤ i) || s.on (F.SYS_SEAM_STAT_up d)))
  (withS fun s => sourceSet d i (sourceTrue s d i))

/-- The SOHk node and the SOLk node read on (R379).  A node is read back because it need not follow its command: what it reads
is outside the device, a free value.  DESIGN CHOICE, log entry 88. -/
def sohNode (s : State) (k : Nat) : Bool := Config.freeNode s.fresh (2 * k)
def solNode (s : State) (k : Nat) : Bool := Config.freeNode s.fresh (2 * k + 1)

/-- The registers that show the Drone's outputs; a force-on that the forced-off line holds waits for its dead time again, from the
line's fall (R183). -/
def droneShow : Act := fun s =>
  let was := s.on F.DRONE_STAT_forced_off
  seq [only (forcedOff s) (forEach [0, 1] fun d => tripA d fun t => { t with fon := 0 }),
    only (was ∧ !forcedOff s) (forEach [0, 1] fun d => tripA d fun t => { t with offEnd := some s.now }), setW R.DRONE_SRC (droneSrcWord s),
    setF F.DRONE_STAT_forced_off (b2n (forcedOff s)), setF F.DRONE_STAT_relaxed (b2n (relaxed s)),
    setF F.DRONE_STAT_energised ((List.range 4).foldl (fun a k => a + b2n (sohNode s k && solNode s k) * 2 ^ k) 0),
    setW R.DRONE_OUT (BitVec.ofNat 32 ((List.range 4).foldl (fun a k => a + 256 ^ k *
      (32 * b2n (bit (s.f F.DRONE_FAULT_stuck) k) + 16 * b2n (outDemand s k) + 8 * b2n (solHeld s k)
        + 4 * b2n (solNode s k) + 2 * b2n (sohNode s k) + b2n (sohOn s k))) 0)), freshA,
    only (!was ∧ forcedOff s) (pinStamp s (List.range 48))] s

/-! ### ROLE (R398, R402) -/

/-- The pair role reads `r` (R399). -/
def setRole (r : Nat) : Act := seq [setF F.PAIR_STAT_role r, setF F.SYS_MODE_STAT_role r]

/-- The device is SOLO (R400, R402): the pairing is forgotten, and HALT cause `pair` is live no longer. -/
def soloA : Act := seq [setRole 0, clrB F.PAIR_STAT_busy, clrB F.PAIR_STAT_peer_ok, hidA (fun h => { h with pair := {} }),
  droneA fun x => { x with pair := false }, causeEnds causePair]

/-- Nothing keeps a Leader's ROLE low (R398): watchdog, lockstep, clock, a latched Drone fault, a lost link, the supply hold. -/
def roleOk (s : State) : Bool :=
  !(liveSrc s 0 || liveSrc s 1 || liveSrc s 5 || latchedBits s ≠ 0 || s.hid.drone.supply ||
    !s.on (F.SYS_SEAM_STAT_up 0) || !s.on (F.SYS_SEAM_STAT_up 1))

/-- ROLE of a Leader follows R398; one whose ROLE falls for a failure ends SOLO (R408, R409). -/
def roleEval : Act := whenA (fun s => s.role = 1) fun s =>
  let ok := roleOk s
  if !ok ∧ (s.hid.pair.roleHigh ∨ s.hid.pair.handover) then soloA s
  else hidA (fun h => { h with pair := { h.pair with roleHigh := ok && !h.pair.handover } }) s

/-- A demand that arises now falls into the Drone cycle of the last one counted (R394).  A cycle of the 16 MHz oscillator is at
most 52 ticks long and not aligned with them: demands of one tick share it, demands less than 53 ticks apart may.
DESIGN CHOICE, log entry 106. -/
def sameDroneCycle (s : State) : Bool :=
  match s.hid.drone.demT with
  | some t => let d := (s.now - t).toNat; d = 0 || (decide (d < 53) && (Config.freeEnv s.fresh).testBit 0)
  | none => false

/-- New demands `d` are recorded (R378): within a Drone cycle they count as one, all their sources recorded (R394). -/
def demandRecord (d : Nat) : Act := fun s =>
  seq [if sameDroneCycle s then orW R.DRONE_DEM_SRC (demandWord d)
      else seq [setW R.DRONE_DEM_SRC (demandWord d), set64 R.DRONE_DEM_TS (dieTime s 0), bump R.DRONE_DEM_CNT,
        droneA fun x => { x with demT := some s.now }],
    freshA, setB F.SYS_DRONE_EVENT_demand, recSend 0x10] s

/-- The line and the outputs follow the sources; new demands are recorded; HALT causes and trip source 112 follow.  A watchdog
fault makes cause `drone` active as a source, so not while the Drone ignores it (R126, R378, R389); while the Core die has no power
or is in reset there is no cause to set, and one that holds becomes active with the release (R57); once live the cause is so
until the Drone releases and no fault is latched, and cause `lockstep` until the Chanter is restarted (R128). -/
def demandEval : Act := fun s =>
  let d := demands s
  let halt := s.up && (decide (maskSub d 4 ≠ 0) || decide (s.rd R.DRONE_FAULT &&& ~~~0x30001#32 ≠ 0#32) ||
    (s.hid.drone.haltLive && droneFaulted s))
  let lock := s.up && effSrc s 1
  seq [droneShow,
    only (maskSub d s.hid.drone.dem ≠ 0) (demandRecord d),
    only (d = 0 ∧ s.hid.drone.dem ≠ 0) (setB F.SYS_DRONE_EVENT_release),
    droneA fun x => { x with
      dem := d, haltLive := halt, lockLive := lock,
      override := maskOf ((List.range 4).filter fun k => bit x.override k && outDemand s k) },
    only (halt ∧ !s.hid.drone.haltLive) (haltCause causeDrone), only (!halt ∧ s.hid.drone.haltLive) (causeEnds causeDrone),
    only (lock ∧ !s.hid.drone.lockLive) (haltCause causeLockstep),
    only s.up (sourceSet 0 112 (droneTrip s))] s

/-- A Drone cycle (R376, R378).  DEDUCED, log entry 58. -/
def droneEval : Act := whenA droneOn (seq [roleEval, demandEval])

/-- A fault latches in the Drone. -/
def droneLatch (a : Act) : Act := seq [a, setB F.SYS_DRONE_EVENT_fault, droneEval]

/-! ### The steps -/

/-- DRONE_MODE_PACKET (R377). -/
def modePacket : Act := whenA (fun s => droneOn s ∧ s.up ∧ s.on (F.SYS_SEAM_STAT_up 0))
  (seq [withS fun s => setF F.DRONE_STAT_mode s.mode, clrB F.DRONE_STAT_mode_stale, droneEval])

/-- MODE_PACKET_STALE (R377). -/
def modeStale : Act := whenA droneOn (seq [setB F.DRONE_STAT_mode_stale, droneEval])

/-- Channel A, or B, of input `j` is at its demand level (R381). -/
def chanDemand (s : State) (j : Nat) (b : Bool) : Bool :=
  if b then s.on (inFld j 1) = antivalent s j else !s.on (inFld j 0)

/-- The demand and the discrepancy timer of input `j` follow its filtered levels (R381, R382). -/
def inputUpdate (j : Nat) : Act := whenA (fun s => inputOn s j) fun s =>
  let a := chanDemand s j false
  let b := chanDemand s j true
  let latched := s.on (inFld j 4) || s.on (inFld j 7)
  let dem := a || b || latched
  seq [setF (inFld j 2) (b2n dem),
    only (a = b) (clrB (inFld j 3)),
    only (a ≠ b ∧ !s.on (inFld j 4)) (setB (inFld j 3)),
    only (!dem) (droneA fun x => { x with initial := putBit x.initial j false })] s

/-- SAFETY_INPUT_FILTERED (R381). -/
def inputFiltered (j : Nat) (b high : Bool) : Act := whenA droneOn
  (seq [setF (inFld j (b2n b)) (b2n high), inputUpdate j, droneEval])

/-- DISCREPANCY_TIMEOUT (R382). -/
def discTimeout (j : Nat) : Act := whenA (fun s => droneOn s ∧ s.on (inFld j 3))
  (droneLatch (seq [clrB (inFld j 3), setB (inFld j 4), setB (bitFld R.DRONE_FAULT (4 + j))]))

/-- TPO_PULSE (R383): for the A channels with TPO0, the B channels with TPO1. -/
def tpoPulse (t1 : Bool) (low : BitVec 4) : Act := whenA droneOn
  (forEach (List.range 4) fun j => fun s =>
    let pulsed := inFld j (5 + b2n t1)
    if low.getLsbD j then setB pulsed s
    else if s.on pulsed ∧ inputOn s j ∧ s.on (inFld j (b2n t1)) ∧ !s.on (inFld j 7) then
      droneLatch (seq [setB (inFld j 7), setB (bitFld R.DRONE_FAULT (8 + j)), inputUpdate j]) s
    else [])

/-- A watchdog fault of kind `k` latches (R384). -/
def wdFault (k : Nat) : Act := fun s =>
  if s.on F.DRONE_FAULT_wd then []
  else droneLatch (seq [setB F.DRONE_FAULT_wd, setF F.DRONE_FAULT_wd_kind k]) s

/-- WD_TIMEOUT (R384). -/
def wdTimeout : Act := whenA (fun s => droneOn s ∧ s.on F.DRONE_WD_armed) (wdFault 2)

/-- A kick reaches the Drone `us` µs after the last one (R371, R384). -/
def wdKick (v : Word) (us : Nat) : Act := whenA (fun s => droneOn s ∧ s.on F.DRONE_WD_armed) fun s =>
  let closed := parByte s 16 + 256 * parByte s 17
  let opened := parByte s 18 + 256 * parByte s 19
  let good := decide (v = if s.on F.DRONE_WD_expect then 0xA53C#32 else 0x5AC3#32)
  seq [setF F.DRONE_WD_expect (b2n (v = 0x5AC3#32)),
    droneA fun x => { x with kicked := true, kickT := s.now },
    if !good ∨ (s.hid.drone.kicked ∧ us < closed) then wdFault 1
    else only (closed + opened ≤ us) (wdFault 2)] s

/-- The watchdog is armed (R384). -/
def wdArm : Act := fun s => seq [setB F.DRONE_WD_armed, clrB F.DRONE_WD_expect,
  droneA fun x => { x with kicked := false, kickT := s.now }] s

/-- A release of CHNT reset (R364, R384): the watchdog fault clears, and the watchdog is armed again. -/
def wdRelease : Act := whenA droneOn
  (seq [clrB F.DRONE_FAULT_wd, setF F.DRONE_FAULT_wd_kind 0, whenA accepted wdArm, droneEval])

/-- The SAFETY payload held, as bytes. -/
def parBytes (s : State) : List Byte := (List.range 64).map fun i => BitVec.ofNat 8 (parByte s i)

/-- The CRC-32C of a SAFETY payload passes (R102). -/
def safetyCrc (p : List Byte) : Bool := (crc32c (p.take 60)).toNat = leNat ((p.drop 60).take 4)

/-- The payload held passes its recheck (R385, R123). -/
def safetyCrcOk (s : State) : Bool := !accepted s ∨ safetyCrc (parBytes s)

/-- PARAM_RECHECK (R385). -/
def paramRecheck : Act := whenA (fun s => droneOn s ∧ !safetyCrcOk s ∧ !s.on F.DRONE_FAULT_param)
  (droneLatch (setB F.DRONE_FAULT_param))

/-- FORCED_OFF_READBACK (R386). -/
def lineFault : Act := whenA droneOn (droneLatch (setB F.DRONE_FAULT_line))

/-- The stuck fault of output `k` latches (R380). -/
def stuckLatch (k : Nat) : Act := droneLatch (setB (bitFld R.DRONE_FAULT (12 + k)))

/-- STUCK_OUTPUT (R380): SOHk while it is commanded off; SOLk while it is off and SOHk on. -/
def stuckOutput (k : Nat) (sol : Bool) : Act :=
  whenA (fun s => droneOn s ∧ (if sol then sohOn s k && !solOn s k else !sohOn s k)) (stuckLatch k)

/-! ### Test pulses (R387, R388) -/

/-- A round starts. -/
def roundBegin : Act := seq [setW R.DRONE_TP 0x100#32, droneA fun x => { x with roundDue := false }]

/-- TEST_ROUND_START: while a round runs, the next waits for its end. -/
def roundStart : Act := whenA (fun s => droneOn s ∧ accepted s) fun s =>
  if s.on F.DRONE_TP_running then droneA (fun x => { x with roundDue := true }) s else roundBegin s

/-- The turn of switch `i` has ended. -/
def roundNext (i : Nat) : Act := fun s =>
  if i < 7 then setF F.DRONE_TP_next (i + 1) s
  else seq [setF F.DRONE_TP_next 0, clrB F.DRONE_TP_running, bump R.DRONE_ROUND_CNT, setB F.SYS_DRONE_EVENT_round_done,
    only s.hid.drone.roundDue roundBegin] s

/-- TEST_PULSE: switch i is SOHk for even i = 2k, SOLk for odd. -/
def testPulse (off on demanded : Bool) : Act := whenA (fun s => droneOn s ∧ s.on F.DRONE_TP_running) fun s =>
  let i := s.f F.DRONE_TP_next
  let k := i / 2
  let skip := setB (bitFld R.DRONE_TP (24 + i))
  seq [
    if demanded then seq [skip, bump R.DRONE_INC_CNT, setB F.SYS_DRONE_EVENT_tp_inconc,
      only (i % 2 = 1) (droneA fun x => { x with override := putBit x.override k true }), droneEval]
    else if !(sohOn s k && solOn s k) then skip
    else if off ∧ on then setB (bitFld R.DRONE_TP (16 + i))
    else seq [setB F.SYS_DRONE_EVENT_tp_fail, stuckLatch k],
    roundNext i] s

/-! ### SVCKEY, SYS_SOL, reset -/

/-- SVCKEY_PRESENT (R389). -/
def svckeyPresent : Act := whenA (fun s => droneOn s ∧ !s.on F.DRONE_STAT_svckey)
  (seq [setB F.DRONE_STAT_svckey, setB F.SYS_DRONE_EVENT_svckey, droneEval])

/-- SVCKEY_ABSENT (R389, R126): a source that was being ignored and is active brings HALT. -/
def svckeyAbsent : Act := whenA (fun s => droneOn s ∧ s.on F.DRONE_STAT_svckey) fun s =>
  seq [clrB F.DRONE_STAT_svckey, setB F.SYS_DRONE_EVENT_svckey,
    only (relaxed s ∧ (liveSrc s 0 ∨ liveSrc s 1 ∨ liveSrc s 4)) (haltCause causeSvckey), droneEval] s

/-- SYS_SOL_WRITE (R379).  A write in the cycle of a lockstep failure is the command before the failure, which clears the
register (R394).  DEDUCED, log entry 62. -/
def solWrite (v : Word) : Act := seq [setF F.SYS_SOL_on v.toNat, solSend, droneEval]

/-- The faults that a `SYS_DRONE_RST` word names and that are latched, with their conditions and codes, in the table's
order (R390). -/
def rstItems (s : State) (v : Word) (held : BitVec 4) : List (Fld × Bool × Nat) :=
  let off := (List.range 4).all fun k => !sohOn s k && !bit s.hid.drone.sol k
  let inp := fun (j base : Nat) =>
    (bitFld R.DRONE_FAULT (base + j), held.getLsbD j && chanDemand s j false && chanDemand s j true, 2)
  (((List.range 4).filter fun j => v.getLsbD (4 + j)).map fun j => [inp j 4, inp j 8]).flatten
  ++ ((List.range 4).filter fun k => v.getLsbD (8 + k)).map (fun k =>
    (bitFld R.DRONE_FAULT (12 + k), !sohOn s k && !bit s.hid.drone.sol k && !energisable s, 3))
  ++ (if v.getLsbD 8 then [(F.DRONE_FAULT_line, off && !energisable s, 3)] else [])
  ++ (if v.getLsbD 2 then [(F.DRONE_FAULT_clock, decide (3 ≤ s.hid.drone.monGood), 4)] else [])

/-- An accepted `SYS_DRONE_RST` (R390); a clear of the counters alone counts as naming something.  DEDUCED, log entry 124. -/
def rstAct (v : Word) (held : BitVec 4) : Act := fun s =>
  let items := (rstItems s v held).filter fun x => s.on x.1
  let named := v.toNat / 4 % 1024
  seq [
    setF F.SYS_DRONE_RSTAT_result
      (if named = 0 then 5 else match items.find? fun x => !x.2.1 with | some x => x.2.2 | none => 0),
    forEach (items.filter fun x => x.2.1) fun x => clrB x.1,
    -- the input's own byte shows its faults too
    withS fun t => forEach (List.range 4) fun j => seq [setF (inFld j 4) (b2n (t.on (bitFld R.DRONE_FAULT (4 + j)))),
      setF (inFld j 7) (b2n (t.on (bitFld R.DRONE_FAULT (8 + j))))],
    only (v.getLsbD 3) (seq [setW R.DRONE_ROUND_CNT 0#32, setW R.DRONE_INC_CNT 0#32, setW R.DRONE_DEM_CNT 0#32]),
    forEach (List.range 4) inputUpdate, droneEval] s

/-- DRONE_RST: the key and the port are judged first; the write then goes to the Drone over the North link (R396). -/
def droneRst (p : Port) (v : Word) (held : BitVec 4) : Act := whenA (fun s => s.up) fun s =>
  if p = .fw ∨ v.toNat / 2 ^ 16 ≠ 0xD7E1 then seq [setF F.SYS_DRONE_RSTAT_result 1, accErr p 3 R.SYS_DRONE_RST] s
  else whenA (fun s => droneOn s ∧ s.on (F.SYS_SEAM_STAT_up 0)) (rstAct v held) s

/-! ### What other blocks bring about -/

/-- A window of the clock monitor (R80, R390). -/
def clockWindow (good : Bool) : Act := whenA droneOn
  (if good then droneA fun x => { x with monGood := min 3 (x.monGood + 1) }
   else seq [droneA fun x => { x with monGood := 0 }, whenA (fun s => !s.on F.DRONE_FAULT_clock) (droneLatch (setB F.DRONE_FAULT_clock))])

/-- The coast timer runs out, or its cause ends (R78). -/
def droneCoastOut (b : Nat) (on : Bool) : Act := seq [droneA fun x => { x with coastOut := putBit x.coastOut b on }, droneEval]

/-- The Drone discards its parameters (R385); no input is then in use (R381). -/
def droneDiscard : Act :=
  seq [forEach (List.range 16) fun i => setW (R.DRONE_PARAM i) 0#32, clrB F.DRONE_STAT_accepted, clrB F.DRONE_WD_armed,
    clrB F.DRONE_TP_running, droneA fun x => { x with initial := 0, roundDue := false },
    forEach (List.range 4) fun j => seq [clrB (inFld j 2), clrB (inFld j 3)], droneEval]

/-- 16-bit field of a payload. -/
def pay16 (p : List Byte) (i : Nat) : Nat := (p.getD i 0#8).toNat + 256 * (p.getD (i + 1) 0#8).toNat

/-- The ranges of R385. -/
def safetyRanges (p : List Byte) : Bool :=
  let b := fun i => (p.getD i 0#8).toNat
  decide (b 0 < 16) && decide (b 1 < 16) && decide (pay16 p 2 = 0)
  && (List.range 4).all (fun j => !bit (b 0) j || (decide (5 ≤ pay16 p (4 + 2 * j)) && decide (pay16 p (4 + 2 * j) ≤ 500)))
  && decide (200 ≤ pay16 p 12) && decide (pay16 p 12 ≤ 800) && decide (1 ≤ pay16 p 14) && decide (pay16 p 14 ≤ 60)
  && decide (pay16 p 16 ≤ 60000) && decide (100 ≤ pay16 p 18) && decide (pay16 p 18 ≤ 60000)
  && (List.range 4).all (fun k => decide (b (20 + k) < 64) && decide (b (24 + k) < 16) && decide (b (24 + k) &&& b 0 = b (24 + k)))
  && (List.range 32).all fun i => decide (b (28 + i) = 0)

/-- The Drone's judgement of a payload at COMMIT (R385): 0, or the first code that applies. -/
def safetyJudge (s : State) (p : List Byte) : Nat :=
  if maskSub (s.rd R.DRONE_FAULT).toNat 4 ≠ 0 then 0x52
  else if !safetyCrc p then 0x50
  else if !safetyRanges p then 0x51
  else 0

/-- The payload is accepted (R381, R384, R385): each enabled input starts in demand. -/
def safetyAccept (p : List Byte) : Act :=
  seq [forEach (List.range 16) fun i => setW (R.DRONE_PARAM i) (BitVec.ofNat 32 (leNat ((p.drop (4 * i)).take 4))),
    setB F.DRONE_STAT_accepted,
    withS fun s => forEach ((List.range 4).filter (inputOn s)) fun j => seq [
      clrB (inFld j 0), setF (inFld j 1) (b2n (antivalent s j)), setB (inFld j 2), clrB (inFld j 3),
      droneA fun x => { x with initial := putBit x.initial j true }],
    wdArm, droneEval]

/-- COMMIT at the Drone (R385): parameters and parameter fault go first; the code, and the acceptance where it is 0. -/
def safetyCommit (p : List Byte) (after : Nat → Act) : Act :=
  seq [droneDiscard, clrB F.DRONE_FAULT_param,
    withS fun s =>
      let c := safetyJudge s p
      seq [only (c = 0) (safetyAccept p), after c, droneEval]]

/-- The Drone stops (R51, R390): nothing that it latched is kept. -/
def droneUnpowered : Act := seq [fun _ => [.regsKeep fun k => decide (k < 0x1D0000) || decide (0x1E0000 ≤ k)], droneA fun _ => {}]

/-- Entry to HARVEST (R385, R377). -/
def droneHarvestEntry : Act := seq [droneA fun x => { x with supply := false }, droneDiscard]

end Sys2Proof.Machine
end

