-- ==== Sys2Proof/Machine/Edge.lean ====
section
/-!
DEFINITION. The edge units: carriers, shadows and commit, refresh, dead time, minimum pulse, sync chain, freeze (spec/08).
Times within a period are in 1/64 tick, the unit of the compares (R191).
-/

namespace Sys2Proof.Machine

/-! ### Carriers -/

/-- The unit whose carrier unit `n` follows (R190).  DEDUCED, log entry 52. -/
def edgeRef (s : State) (n : Nat) : Option Nat :=
  let r := s.f (F.EDGE_CH_CFG_ref_eu n)
  if r < 48 ∧ r / 24 = n / 24 ∧ r ≠ n then some r else none

/-- The running units that follow unit `n`. -/
def followers (s : State) (n : Nat) : List Nat :=
  ((List.range 24).map (24 * (n / 24) + ·)).filter fun f => edgeRef s f = some n ∧ (edgeSt s f).run

/-- The unit whose counter shapes the carrier of unit `n`: itself, or through the references the one that follows none (R190). -/
def rootFrom (s : State) : Nat → Nat → Nat
  | 0, n => n
  | k + 1, n => match edgeRef s n with
    | none => n
    | some r => rootFrom s k r
def edgeRoot (s : State) (n : Nat) : Nat := rootFrom s 24 n

/-- The followers of unit `n` with theirs, each after the unit that it follows. -/
def followersFrom (s : State) : Nat → Nat → List Nat
  | 0, _ => []
  | k + 1, n => (followers s n).flatMap fun f => f :: followersFrom s k f
def allFollowers (s : State) (n : Nat) : List Nat := followersFrom s 24 n

/-- Mode code 3 acts as 0 (R187). -/
def modeOf (m : Nat) : Nat := if m % 4 = 3 then 0 else m % 4

/-- The active mode and period of unit `n`'s carrier (R187, R190). -/
def carrier (s : State) (n : Nat) : Nat × Nat :=
  let r := edgeRoot s n
  (modeOf (s.f (F.EDGE_CH_CTL_ACT_mode r)), s.f (F.EDGE_CH_PER_ACT_per r))

/-- Length of a period in ticks (R187). -/
def periodOf (mode per : Nat) : Nat := if mode = 2 then 2 * per else per

/-- The on-interval of R191, compares clipped to the period (R192). -/
def onInterval (mode per a b : Nat) : Nat × Nat :=
  let p := 64 * per
  let a := min a p
  let b := min b p
  if mode = 1 then (p - b, p - a) else if mode = 2 then (a, 2 * p - b) else (a, b)

/-- The on-interval of unit `n` with its active compares. -/
def edgeInterval (s : State) (n mode per : Nat) : Nat × Nat :=
  onInterval mode per (s.rd (R.EDGE_CH_CMP_A_ACT n)).toNat (s.rd (R.EDGE_CH_CMP_B_ACT n)).toNat

/-- Displacement of a follower in ticks (R190).  DEDUCED, log entry 52. -/
def displacement (s : State) (n T : Nat) : Nat :=
  (roundHalfEven (((s.rd (R.EDGE_CH_PHASE_ACT n)).toNat * T : Nat) / (2 : Rat) ^ 32)).toNat % max 1 T

/-- Device time as the counters see it: it stands still in a freeze (R208). -/
def edgeNow (s : State) : BitVec 64 := s.hid.edges.frozen.getD s.now

/-- The carrier counter of unit `n` (R187). -/
def edgeCount (s : State) (n : Nat) : Nat :=
  let x := edgeSt s n
  let k := (edgeNow s - x.ps).toNat
  if !x.run ∨ !x.live then 0
  else if x.mode = 0 then min k (x.per - 1)
  else if x.mode = 1 then x.per - 1 - k
  else if k ≤ x.per then k else 2 * x.per - k

/-! ### From command to edge output (R199–R205) -/

/-- The edge output of channel `n`. -/
def edgeOut (s : State) (n : Nat) : Bool := s.on (F.EDGE_CH_STAT_out n)

/-- Where trim `i` of unit `n` reads (R193). -/
def trimFld (n i : Nat) : Fld := ⟨R.EDGE_CH_CALW n (i / 8), 4 * (i % 8) + 3, 4 * (i % 8)⟩

/-- A trim that waits is copied. -/
def trimLand (n : Nat) : Act := fun s =>
  match (edgeSt s n).trim with
  | some (j, v, _) => seq [setF (trimFld n j) v, edgeA n fun x => { x with trim := none }] s
  | none => []

/-- Unit `n` places an edge now: a trim that waits was copied before, where a tick without an edge lies between (R193, R211). -/
def edgePlace (n : Nat) : Act := seq [
  whenA (fun s => (edgeSt s n).edgeT.any fun t => decide (2 ≤ (s.now - t).toNat)) (trimLand n),
  withS fun s => edgeA n fun x => { x with edgeT := some s.now }]

/-- The edge output falls. -/
def outFall (n : Nat) : Act := whenA (fun s => edgeOut s n) (seq [clrB (F.EDGE_CH_STAT_out n), ilFall n,
  withS fun s => edgeA n fun x => { x with fallT := some s.now }, edgePlace n])

/-- The edge output rises. -/
def outRise (n : Nat) : Act := whenA (fun s => !edgeOut s n) (seq [setB (F.EDGE_CH_STAT_out n), ilRise n,
  edgePlace n])

/-- The channel's minimum pulse in 1/64 tick (R204). -/
def minPulse (s : State) (n : Nat) : Nat := min 102400 (s.f (F.EDGE_CH_MINP_ACT_minp n))

/-- The partner of a complementary pair has been off for channel `n`'s dead time, so its rising edge may pass (R203); an edge
falls within its tick (R191).  DEDUCED, log entry 53. -/
def partnerOff (s : State) (n : Nat) : Bool :=
  match partner s n with
  | some p => decide (pairKind s n = 3) || (!edgeOut s p && (match (edgeSt s p).fallT with
      | some t => deadPassed s n t
      | none => true))
  | none => true

/-- The delayed rising time of the oldest waiting pulse, of length `len` after dead time (R203, R204); one that has ended has
length 0. -/
def riseDelayed (n len : Nat) : Act := fun s =>
  match (edgeSt s n).pend with
  | [] => []
  | gone :: rest =>
    if !partnerOff s n then []
    else
      let l := if gone then 0 else len
      let lim := minPulse s n
      let clear := edgeA n fun x => { x with pend := rest }
      if lim ≠ 0 ∧ l < lim then
        seq [clear, bump (R.EDGE_CH_MINP_CNT n),
          if s.on (F.EDGE_CH_CFG_minp_act n) then
            seq [setB (F.EDGE_CH_EVENT_minp_stretch n), edgeA n fun x => { x with stretch := x.stretch + 1 }, outRise n]
          else setB (F.EDGE_CH_EVENT_minp_drop n)] s
      else seq [clear, only (!gone) (seq [edgeA n fun x => { x with pulse := true }, outRise n])] s

/-- The commanded output of channel `n` becomes `v`; a stopping unit starts no pulse (R210); without dead time a rise whose length is known passes at once. -/
def cmdSet (n : Nat) (v : Bool) (len : Option Nat) : Act := fun s =>
  let x := edgeSt s n
  if !x.run ∨ x.cmd = v ∨ (x.stopping ∧ v) then []
  else if v then
    seq [edgeA n fun x => { x with cmd := true, pend := x.pend ++ [false] },
      match len with
      | some l => only (deadTime s n = 0) (riseDelayed n l)
      | none => nop] s
  else if x.pend.getLastD true = false then edgeA n (fun x => { x with cmd := false, pend := x.pend.dropLast ++ [true] }) s
  else seq [edgeA n fun x => { x with cmd := false, pulse := false }, only (x.stretch = 0) (outFall n)] s

/-- The waveform of channel `n` or of its pair acts (R200, R201): falls first. -/
def waveUpdate (n : Nat) (len : Option Nat) : Act := fun s =>
  let k := pairKind s n
  if k = 1 ∨ k = 2 then
    let p := s.f (F.EDGE_CH_CFG_partner n)
    let a := if k = 1 then n else p
    let b := if k = 1 then p else n
    let w := if (edgeSt s a).refr then false else if (edgeSt s b).refr then true else (edgeSt s a).w
    if w then seq [cmdSet b false len, cmdSet a true len] s else seq [cmdSet a false len, cmdSet b true len] s
  else cmdSet n ((edgeSt s n).w && !(edgeSt s n).refr) len s

/-! ### Idle, start and stop (R210) -/

/-- Unit `n` drives its idle outputs. -/
def edgeHalt (n : Nat) (run : Bool) : Act :=
  seq [outFall n, setF (bitFld (R.EDGE_COMMIT (n / 24)) (n % 24)) 0,
    edgeA n (fun x => { x with run := run, live := false, again := none, past := [], w := false, refr := false, refrN := 0, cmd := false, pend := [],
                               pulse := false, stretch := 0, held := false, stopping := false, rem := 0, remT := none }),
    whenA (fun s => s.on F.EDGE_SYNC_CFG_synco_en ∧
        (if 48 ≤ s.f F.EDGE_SYNC_CFG_synco_eu then 0 else s.f F.EDGE_SYNC_CFG_synco_eu) = n)
      (edgesA fun e => { e with synco := false }),
    waveUpdate n none]

/-- Unit `n` goes idle, and its followers with it, and theirs; one that is itself being disabled does not wait for the reference. -/
def edgeIdle (n : Nat) : Act := fun s =>
  seq [edgeHalt n false,
    forEach ((allFollowers s n).filter (· ≠ n)) fun f => withS fun t => edgeHalt f (!(edgeSt t f).stopping)] s

/-- An on-pulse of unit `n` is in progress. -/
def edgeBusy (s : State) (n : Nat) : Bool := (edgeSt s n).cmd ∨ (edgeSt s n).pend ≠ [] ∨ edgeOut s n

/-- Channel b of the complementary pair whose channel a is `n` stops with an on-pulse in progress, which channel a's waveform ends
(R200, R210). -/
def shapesPulse (s : State) (n : Nat) : Bool :=
  pairKind s n = 1 ∧ (edgeSt s (s.f (F.EDGE_CH_CFG_partner n))).stopping ∧ edgeBusy s (s.f (F.EDGE_CH_CFG_partner n))

/-- A stopping unit whose on-pulse has ended goes idle; so does its partner, whose pulse the unit's waveform may end: b first. -/
def edgeSettle (n : Nat) : Act := withS fun s =>
  let ks := n :: (partner s n).toList
  forEach (ks.filter (pairKind s · ≠ 1) ++ ks.filter (pairKind s · = 1)) fun k =>
    whenA (fun s => (edgeSt s k).stopping ∧ !edgeBusy s k ∧ !shapesPulse s k) (edgeIdle k)

/-- Unit `n` is disabled: the on-pulse in progress ends first; in a freeze the request waits (R211). -/
def edgeStop (n : Nat) : Act := fun s =>
  if !(edgeSt s n).run then []
  else if s.hid.edges.frozen.isSome then
    edgesA (fun e => { e with deferred := if e.deferred.contains n then e.deferred else e.deferred ++ [n] }) s
  else if edgeBusy s n ∨ shapesPulse s n then edgeA n (fun x => { x with stopping := true }) s
  else edgeIdle n s

/-- Units are disabled together (R210): those that end a pulse before those whose waveform ends one. -/
def edgesStop (l : List Nat) : Act := withS fun s => forEach (l.filter (edgeBusy s) ++ l.filter fun n => !edgeBusy s n) edgeStop

/-! ### Periods -/

/-- The stretches of a carrier that R207 may look back to, with the one that ends now, in which it stood still since `stood`: `lat` is
at most 65 535 ticks. -/
def EdgeSt.pasts (x : EdgeSt) (now : BitVec 64) (stood : Option (BitVec 64)) : List CarrierSpan :=
  if x.live then ⟨now, x.ps, x.len, stood⟩ :: x.past.filter fun p => (now - p.till).toNat < 65536 else []

/-- A period of unit `n` starts now (R187, R191, R207). -/
def newPeriod (n : Nat) : Act := fun s =>
  let x := edgeSt s n
  let c := carrier s n
  let T := periodOf c.1 c.2
  let adj : Int := s.f F.EDGE_SYNC_ADJ_max_adj
  -- the carrier zero before a period of down mode is the tick before it (R187)
  let step : Int := if x.rem = 0 ∨ x.remT = some s.now ∨ (c.1 = 1 ∧ x.remT = some (s.now - 1#64)) then 0 else if adj = 0 then x.rem else clampInt (-adj) adj x.rem
  let iv := edgeInterval s n c.1 c.2
  edgeA n (fun x => { x with live := true, past := x.pasts s.now none, ps := s.now, mode := c.1, per := c.2, len := ((T : Int) - step).toNat, falling := false,
                             w := decide (iv.1 = 0 ∧ 0 < iv.2), refr := false, rem := x.rem - step,
                             refrN := if refreshCond s n then x.refrN + 1 else 0 }) s

/-- Unit `n` starts (R210): a follower waits for the displaced carrier's next period; in a freeze the start waits, and a disable
that waits is dropped (R208, R211).  DEDUCED, log entry 52. -/
def edgeStart (n : Nat) : Act := fun s =>
  if s.hid.edges.frozen.isSome then
    seq [edgesA fun e => { e with deferred := e.deferred.filter (· ≠ n) }, edgeA n fun x => { x with stopping := false }] s
  else if (edgeSt s n).run then edgeA n (fun x => { x with stopping := false }) s
  else seq [edgeA n fun x => { x with run := true, stopping := false },
    only (edgeRef s n = none) (newPeriod n), waveUpdate n none] s

/-! ### Shadows and commit (R195–R198) -/

/-- Bits of the seven shadows: `CTL`, `PER`, `CMP_A`, `CMP_B`, `DT`, `MINP`, `PHASE`. -/
def shadowMask (i : Nat) : Word :=
  if i = 0 then 3#32 else if i = 1 then 0xFFFFF#32 else if i ≤ 3 then 0x3FFFFFF#32 else if i ≤ 5 then 0x1FFFF#32 else 0xFFFFFFFF#32

/-- Offset of shadow `i` of unit `n`; its active copy lies 0x40 above (R195). -/
def shadowOff (n i : Nat) : Nat := R.EDGE_CH_CTL n + 4 * i

/-- A time lies at least 2 EDGE cycles before now (R196). -/
def twoBefore (s : State) (t : BitVec 64) : Bool := 2 ≤ (s.now - t).toNat

/-- A shadow takes a value (R195). -/
def shadowSet (n i : Nat) (v : Word) : Act := fun s =>
  seq [setW (shadowOff n i) (v &&& shadowMask i),
    edgeA n fun x => { x with
      wr := (i, s.now, s.rd (shadowOff n i)) :: x.wr.filter (fun e => !twoBefore s e.2.1),
      written := if x.written.any (fun e => e.1 = i) then x.written else (i, s.now) :: x.written }] s

/-- A port's write of a shadow: the engine's of the same EDGE cycle is kept (R211). -/
def shadowWrite (n i : Nat) (v : Word) : Act := fun s =>
  if (i = 2 ∨ i = 3) ∧ (edgeSt s n).engT = some s.now then [] else shadowSet n i v s

/-- A commit request arms unit `n` (R196); one to an armed unit may count for the commit point after the next. -/
def arm (n : Nat) : Act := fun s =>
  seq [if bit (s.f (F.EDGE_COMMIT_req (n / 24))) (n % 24) then edgeA n fun x => { x with again := some s.now }
      else edgeA n fun x => { x with armT := s.now, again := none },
    setB (bitFld (R.EDGE_COMMIT (n / 24)) (n % 24))] s

/-- EDGE_COMMIT_WRITE (R196). -/
def commitWrite (d : Nat) (v : Word) : Act := forEach (bitsOf 24 v.toNat) fun j => arm (24 * d + j)

/-- An engine's packet for one unit (R196, R211). -/
def engineEdge (n a b : Nat) : Act := fun s =>
  seq [shadowSet n 2 (BitVec.ofNat 32 a), shadowSet n 3 (BitVec.ofNat 32 b), arm n,
    edgeA n fun x => { x with engT := some s.now }] s

/-- The value of shadow `i` that counts towards a commit now (R196). -/
def shadowAt (s : State) (n i : Nat) : Word :=
  match ((edgeSt s n).wr.filter fun e => e.1 = i ∧ !twoBefore s e.2.1).getLast? with
  | some e => e.2.2
  | none => s.rd (shadowOff n i)

/-- A period within the limits of R188. -/
def perClamp (mode per : Nat) : Nat := if mode = 2 then max 400 (min 400000 per) else max 800 (min 800000 per)

/-- A running follower `f` of unit `n` stands at its displacement from it (R190). -/
def displace (n f : Nat) : Act := whenA (fun s => (edgeSt s f).live ∧ (edgeSt s n).live) fun s =>
  let x := edgeSt s n
  let T := periodOf x.mode x.per
  let p := ((s.now - x.ps).toNat + T - displacement s f T) % max 1 T
  let iv := edgeInterval s f x.mode x.per
  seq [edgeA f fun y => { y with
      ps := s.now - BitVec.ofNat 64 p, mode := x.mode, per := x.per, len := T,
      falling := decide (x.mode = 2 ∧ x.per ≤ p), w := decide (iv.1 ≤ 64 * p ∧ 64 * p < iv.2) },
    waveUpdate f none] s

/-- A compare of unit `n` lies above the period (R192). -/
def clipped (s : State) (n per : Nat) : Bool :=
  64 * per < (s.rd (R.EDGE_CH_CMP_A_ACT n)).toNat ∨ 64 * per < (s.rd (R.EDGE_CH_CMP_B_ACT n)).toNat

/-- The followers of unit `n`, and theirs, stand at their displacements on the same tick (R190). -/
def displaceAll (n : Nat) : Act := fun s => forEach (allFollowers s n) (fun f => displace ((edgeRef s f).getD n) f) s

/-- The followers of unit `n`, and theirs, take its new period on the same tick (R190); one whose compares it clips says so (R192). -/
def refollow (n : Nat) : Act := fun s =>
  let per := (carrier s n).2
  forEach (allFollowers s n) (fun f => seq [displace ((edgeRef s f).getD n) f,
    only (clipped s f per) (seq [setB (F.EDGE_CH_EVENT_cmp_clip f), setB (F.EDGE_CH_EVENT_mixed_commit f)])]) s

/-- An armed unit commits at its commit point (R195–R198); `peak`: at the peak of an up-down carrier. -/
def commit (n : Nat) (peak : Bool) : Act := fun s =>
  let x := edgeSt s n
  if !bit (s.f (F.EDGE_COMMIT_req (n / 24))) (n % 24) ∨ !twoBefore s x.armT then []
  else
    let v := shadowAt s n
    let fol := (edgeRef s n).isSome
    let mode := modeOf (v 0).toNat
    let old := s.f (F.EDGE_CH_PER_ACT_per n)
    let want := (v 1).toNat
    let per := perClamp mode want
    if peak ∧ !fol ∧ mode ≠ x.mode then edgeA n (fun x => { x with held := true }) s
    else
      let taken := x.written.filter fun e => twoBefore s e.2
      let has := fun i => taken.any fun e => e.1 = i
      -- R196, R211: a request that came too late for this point goes to the following one
      let late := x.again.any fun t => !twoBefore s t
      let perChg := !fol && per ≠ old
      let perF := if fol then (carrier s n).2 else per
      let a := (v 2).toNat
      let b := (v 3).toNat
      let cmpChg := a ≠ (s.rd (R.EDGE_CH_CMP_A_ACT n)).toNat || b ≠ (s.rd (R.EDGE_CH_CMP_B_ACT n)).toNat
      let clip := (decide (64 * perF < a) || decide (64 * perF < b)) && (perChg || cmpChg)
      seq [
        forEach (List.range 7) fun i =>
          setW (shadowOff n i + 0x40) (if i = 1 ∧ !fol then BitVec.ofNat 32 per else v i),
        only (!fol ∧ per ≠ want) (setB (F.EDGE_CH_EVENT_per_clip n)),
        -- R211: a period clip with a mixed commit sets all three
        only (clip ∨ (!fol ∧ per ≠ want ∧ perChg ∧ !(has 2 ∧ has 3))) (setB (F.EDGE_CH_EVENT_cmp_clip n)),
        only ((perChg ∧ !(has 2 ∧ has 3)) ∨ clip) (setB (F.EDGE_CH_EVENT_mixed_commit n)),
        setF (bitFld (R.EDGE_COMMIT (n / 24)) (n % 24)) (b2n late),
        edgeA n fun x => { x with
          held := false, armT := if late then x.again.getD x.armT else x.armT, again := none,
          written := ((List.range 7).filterMap fun i =>
            ((x.wr.filter fun e => e.1 = i ∧ !twoBefore s e.2.1).getLast?).map fun e => (i, e.2.1)) }] s

/-- At unit `n`'s commit point a released channel resumes (R179) and its gating follows the mode: the one that a transition in
progress goes to (R133), else the one in force (R408). -/
def commitPoint (n : Nat) : Act := fun s => seq [tripResume n,
  withS fun s => edgesA fun e => { e with gatePend := putBit e.gatePend n (gateMoving s) }, pinStamp s [n]] s

/-- Commit points by `commit_pt` (R196); 3 acts as 0. -/
def commitCode (s : State) (n : Nat) : Nat := s.f (F.EDGE_CH_CFG_commit_pt n) % 3

/-- After a commit of unit `n` whose state was `s` before it (R190): its followers take a new period; a follower takes its new
displacement. -/
def carrierFollow (s : State) (n : Nat) : Act :=
  match edgeRef s n with
  | none => whenA (fun t => carrier t n ≠ carrier s n) (refollow n)
  | some r => whenA (fun t => t.rd (R.EDGE_CH_PHASE_ACT n) ≠ s.rd (R.EDGE_CH_PHASE_ACT n)) (seq [displace r n, displaceAll n])

/-- The period boundary of unit `n`: `point` says that it is a commit point. -/
def boundary (n : Nat) (point : Bool) : Act := fun s =>
  if (edgeSt s n).stopping then edgeIdle n s
  else seq [only point (commit n false), newPeriod n, carrierFollow s n, only point (commitPoint n)] s

/-! ### Refresh insertion (R201, R202) -/

/-- Ticks of unit `n`'s period gone, and its length. -/
def edgePos (s : State) (n : Nat) : Nat × Nat := ((edgeNow s - (edgeSt s n).ps).toNat, (edgeSt s n).len)

/-- Unit `n`'s own waveform is on from tick `p` to tick `q` of its period. -/
def onThrough (s : State) (n p q : Nat) : Bool :=
  let iv := edgeInterval s n (edgeSt s n).mode (edgeSt s n).per
  q ≤ p ∨ (iv.1 ≤ 64 * p ∧ 64 * q ≤ iv.2)

/-- An interval of `len` ticks from now, which ends with the period, meets an on-pulse of channel `n` (R202): for channel b of a
pair, a tick at which channel a's waveform is not on. -/
def refreshCuts (s : State) (n len : Nat) : Bool :=
  let (p, T) := edgePos s n
  let l := min len (T - p)
  if pairKind s n = 2 then
    let a := s.f (F.EDGE_CH_CFG_partner n)
    let (pa, Ta) := edgePos s a
    !(edgeSt s a).live || !(onThrough s a pa (min (pa + l) Ta) && onThrough s a 0 (min (pa + l - Ta) Ta))
  else
    let iv := edgeInterval s n (edgeSt s n).mode (edgeSt s n).per
    decide (iv.1 < iv.2 ∧ iv.1 < 64 * (p + l) ∧ 64 * p < iv.2)

/-- At a carrier zero an interval is inserted in every `every`-th period since the condition became true. -/
def refreshStart (n : Nat) : Act := fun s =>
  let len := s.f (F.EDGE_CH_REFR_len n)
  let k := (edgeSt s n).refrN
  let on := refreshCond s n && k ≠ 0 && decide (k % max 1 (s.f (F.EDGE_CH_REFR_every n)) = 0) && len ≠ 0
  seq [edgeA n fun x => { x with refr := on },
    only (on && refreshCuts s n len) (seq [bump (R.EDGE_CH_REFR_CNT n), setB (F.EDGE_CH_EVENT_refresh n)])] s

/-! ### Carrier events -/

/-- Unit `n` has carrier events: it runs, and so does its reference; clocked and not frozen (R190, R208, R210). -/
def carrierOk (s : State) (n : Nat) : Bool :=
  edgeClocked s n ∧ (edgeSt s n).run ∧ s.hid.edges.frozen = none ∧ (edgeRef s n).all fun r => (edgeSt s r).live

/-- A SYNCO pulse starts at the event of its source unit (R206). -/
def syncoStart (n evt : Nat) : Act := whenA (fun s =>
    s.on F.EDGE_SYNC_CFG_synco_en ∧ s.f F.EDGE_SYNC_CFG_synco_evt = evt ∧
    (if 48 ≤ s.f F.EDGE_SYNC_CFG_synco_eu then 0 else s.f F.EDGE_SYNC_CFG_synco_eu) = n)
  (edgesA fun e => { e with synco := true })

/-- CARRIER_ZERO (R187, R189): in down mode the last tick of a period, else its first. -/
def carrierZero (n : Nat) : Act := whenA (fun s => carrierOk s n) fun s =>
  let m := (carrier s n).1
  seq [
    only (m ≠ 1) (boundary n (m = 0 ∨ commitCode s n ≠ 1 ∨ (edgeSt s n).held)),
    whenA (fun t => (edgeSt t n).live) (seq [refreshStart n, waveUpdate n none, cycleRelease n, rampRestart n, selectAt n,
      syncoStart n 0, withS fun t => fire (.carrier n false) (dieTime t (n / 24))]),
    edgeSettle n] s

/-- The peak of an up-down carrier: the falling half starts, with what a commit there changes (R197). -/
def peakHalf (n : Nat) : Act := fun s =>
  let point := decide (commitCode s n ≠ 0)
  seq [only point (commit n true),
    withS fun t =>
      let per := (carrier t n).2
      let fall := 2 * 64 * per - min (t.rd (R.EDGE_CH_CMP_B_ACT n)).toNat (64 * per)
      edgeA n fun x => { x with
        past := x.pasts t.now none, ps := t.now - BitVec.ofNat 64 per, per := per, len := x.len + 2 * per - 2 * x.per, falling := true,
        w := x.w && decide (64 * per < fall) },
    carrierFollow s n, only point (commitPoint n), waveUpdate n none] s

/-- CARRIER_PEAK (R187): in down mode the first tick of a period. -/
def carrierPeak (n : Nat) : Act := whenA (fun s => carrierOk s n) fun s =>
  let m := (carrier s n).1
  seq [
    only (m = 1) (seq [boundary n true, waveUpdate n none]),
    only (m = 2 ∧ (edgeSt s n).live) (peakHalf n),
    whenA (fun t => (edgeSt t n).live) (seq [syncoStart n 1, withS fun t => fire (.carrier n true) (dieTime t (n / 24))]),
    edgeSettle n] s

/-- COMPARE_MATCH (R191, R199).  DEDUCED, log entry 53. -/
def compareMatch (n : Nat) (rise : Bool) (len : Nat) : Act := whenA (fun s => carrierOk s n ∧ (edgeSt s n).live) fun s =>
  let x := edgeSt s n
  let iv := edgeInterval s n x.mode x.per
  if rise ∧ iv.2 ≤ iv.1 then []
  else seq [edgeA n fun x => { x with w := rise }, waveUpdate n (some len), edgeSettle n] s

/-- DEAD_TIME_EXPIRY (R203, R177): of the channel's delayed rising edge, and of a force-on.  DEDUCED, log entry 53. -/
def deadTimeEnd (n len : Nat) : Act :=
  seq [whenA (fun s => s.up) (forceOnReady n), whenA (fun s => carrierOk s n) (seq [riseDelayed n len, edgeSettle n])]

/-- REFRESH_INTERVAL_END (R201). -/
def refreshEnd (n : Nat) : Act := whenA (fun s => carrierOk s n ∧ (edgeSt s n).refr)
  (seq [edgeA n fun x => { x with refr := false }, waveUpdate n none, edgeSettle n])

/-- MINIMUM_PULSE_STRETCH_END (R204): a pulse that has begun meanwhile goes on. -/
def stretchEnd (n : Nat) : Act := whenA (fun s => carrierOk s n ∧ (edgeSt s n).stretch ≠ 0)
  (seq [edgeA n fun x => { x with stretch := x.stretch - 1 },
    whenA (fun s => (edgeSt s n).stretch = 0 ∧ !(edgeSt s n).pulse) (outFall n), edgeSettle n])

/-- SYNCO_PULSE_END (R206). -/
def syncoEnd : Act := edgesA fun e => { e with synco := false }

/-! ### Calibration (R193, R194) -/

/-- Unit `n` places an edge in the present tick. -/
def edgeHere (s : State) (n : Nat) : Bool := (edgeSt s n).edgeT = some s.now

/-- The trim measured of tap `i` of unit `n`, copied or not. -/
def tapTrim (s : State) (n i : Nat) : Nat :=
  match (edgeSt s n).trim with
  | some (j, v, _) => if j = i then v else s.f (trimFld n i)
  | none => s.f (trimFld n i)

/-- A trim that waits, and whose tick has gone by, is in the working line at the next tick without an edge (R193, R211). -/
def trimDue (s : State) (n : Nat) : Option (Nat × Nat) :=
  match (edgeSt s n).trim with
  | some (j, v, t) => if t = s.now ∨ edgeHere s n then none else some (j, v)
  | none => none

/-- Word `w` of the working line's trims of unit `n`. -/
def calWord (s : State) (n w : Nat) : Word :=
  match trimDue s n with
  | some (j, v) => if j / 8 = w then (trimFld n j).put v (s.rd (R.EDGE_CH_CALW n w)) else s.rd (R.EDGE_CH_CALW n w)
  | none => s.rd (R.EDGE_CH_CALW n w)

/-- The trim measured of tap `i` is copied at a tick without an edge of the unit. -/
def trimCopy (n i v : Nat) : Act := seq [trimLand n,
  cond (edgeHere · n) (withS fun s => edgeA n fun x => { x with trim := some (i, v, s.now) }) (setF (trimFld n i) v)]

/-- `cal_ok` of unit `n` falls. -/
def calFall (n : Nat) : Act := whenA (fun s => s.on (bitFld (R.EDGE_CAL_STAT (n / 24)) (n % 24)))
  (seq [clrB (bitFld (R.EDGE_CAL_STAT (n / 24)) (n % 24)), setB (F.EDGE_CH_EVENT_cal_bad n)])

/-- EDGE_CAL_TAP: the last tap ends a sweep; 1.25 ns ± 19.53 ps is 12 500 ± 195.3 in units of 0.1 ps. -/
def calTap (n i : Nat) (trim : BitVec 4) (total : BitVec 16) : Act :=
  whenA (fun s => edgeOn s (n / 24) ∧ s.on (F.EDGE_CAL_CFG_en (n / 24))) (seq [
    trimCopy n i trim.toNat,
    only (i = 63) (withS fun s =>
      let good := decide (12305 ≤ total.toNat) && decide (total.toNat ≤ 12695)
        && (List.range 64).all fun j => tapTrim s n j ≠ 0 && tapTrim s n j ≠ 15
      seq [setF (F.EDGE_CH_CALT_total n) total.toNat, setF (F.EDGE_CH_CALT_sweeps n) (s.f (F.EDGE_CH_CALT_sweeps n) + 1),
        edgeA n (fun x => { x with calT := s.now }),
        if good then setB (bitFld (R.EDGE_CAL_STAT (n / 24)) (n % 24)) else calFall n])])

/-- A calibration period in ticks (R193): 100 µs are 80 000. -/
def calPeriod (s : State) (d : Nat) : Nat := 80000 * max 1 (s.f (F.EDGE_CAL_CFG_period d))

/-- EDGE_CAL_PERIOD_END (R194): no sweep ended within the last four periods. -/
def calPeriodEnd (n : Nat) : Act := whenA (fun s => edgeOn s (n / 24) ∧ 4 * calPeriod s (n / 24) ≤ (s.now - (edgeSt s n).calT).toNat)
  (calFall n)

/-! ### SYNCI, freeze, registers -/

/-- Units that a SYNCI edge re-phases (R207). -/
def syncUnits (s : State) : List Nat := (List.range 48).filter fun n =>
  carrierOk s n ∧ (edgeSt s n).live ∧ edgeRef s n = none ∧ s.on (F.EDGE_CH_CFG_sync_in n)

/-- The stretch that a carrier was in at device time `t`, from the present one, `p`, and those before. -/
def spanAt (t : Int) (p : CarrierSpan) : List CarrierSpan → CarrierSpan
  | [] => p
  | q :: rest => if (q.till.toNat : Int) ≤ t then p else spanAt t q rest

/-- Ticks of its period that a stretch had gone at device time `t`: at most to the period's end, and no further than where the counter
stood; before the first stretch the carrier is taken as steady. -/
def CarrierSpan.pos (p : CarrierSpan) (t : Int) : Nat :=
  let u : Int := match p.stood with
    | some f => min t f.toNat
    | none => t
  let k : Int := u - p.ps.toNat
  if k < 0 then (k % (max 1 p.len : Nat)).toNat else min k.toNat (max 1 p.len)

/-- The carrier phase of unit `n` at device time `t`, in gyres (R207): 0 at the first tick of its period and 2³² at its end, also of
one that a correction shortens or lengthens (R187). -/
def phaseAt (s : State) (n : Nat) (t : Int) : Int :=
  let x := edgeSt s n
  let p := spanAt t ⟨s.now, x.ps, x.len, none⟩ x.past
  roundHalfEven ((p.pos t * 2 ^ 32 : Nat) / (max 1 p.len : Nat))

/-- The correction of R207 for unit `n`, in ticks. -/
def syncCorrection (s : State) (n : Nat) : Int :=
  let x := edgeSt s n
  let T := periodOf x.mode x.per
  let phi := phaseAt s n (s.now.toNat - s.f F.EDGE_SYNC_ADJ_lat)
  let e := ((s.rd (R.EDGE_CH_SYNC_PH n)) - BitVec.ofInt 32 phi).toInt
  roundHalfEven ((e * T : Int) / (2 : Rat) ^ 32)

/-- The 15-bit SYNCI count of R207, saturating (R21). -/
def synciCount : Act := fun s =>
  if s.f F.EDGE_SYNC_STAT_count = 2 ^ 15 - 1 then setB F.EDGE_SYNC_STAT_sat s
  else setF F.EDGE_SYNC_STAT_count (s.f F.EDGE_SYNC_STAT_count + 1) s

/-- SYNCI_EDGE (R207). -/
def synciEdge (rise : Bool) : Act := whenA (fun s => edgeOn s 0 ∧ s.on F.EDGE_SYNC_CFG_synci_en ∧
    rise = !s.on F.EDGE_SYNC_CFG_synci_pol) fun s =>
  seq [set64 R.EDGE_SYNCI_TS (dieTime s 0), synciCount, setB (F.EDGE_EVENT_synci 0),
    forEach (syncUnits s) fun n => seq [setB (F.EDGE_CH_EVENT_sync n),
      edgeA n fun x => { x with rem := syncCorrection s n, remT := some s.now }]] s

/-- A freeze begins (R208). -/
def edgeFreeze : Act := fun s =>
  if s.hid.edges.frozen.isSome then []
  else seq [edgesA fun e => { e with frozen := some s.now },
    forEach ([0, 1].filter (edgeOn s)) fun d => seq [setB (F.EDGE_EVENT_frozen d), setB (F.EDGE_EVENT_freeze d)]] s

/-- DEBUG_UNFREEZE (R208): the units continue from their frozen state, and deferred disables act (R211). -/
def edgeUnfreeze : Act := fun s =>
  match s.hid.edges.frozen with
  | none => []
  | some t => seq [clrB (F.EDGE_EVENT_frozen 0), clrB (F.EDGE_EVENT_frozen 1),
    hidA fun h => { h with edge := h.edge.map fun p => (p.1, { p.2 with
      past := p.2.pasts s.now (some t), ps := if p.2.live then p.2.ps + (s.now - t) else p.2.ps, fallT := p.2.fallT.map (· + (s.now - t)) }) },
    edgesA fun e => { e with frozen := none, deferred := [] },
    edgesStop s.hid.edges.deferred,
    forEach (List.range 48) fun n => whenA (fun s => s.on (F.EDGE_CH_CFG_en n) ∧ edgeOn s (n / 24) ∧ !(edgeSt s n).run) (edgeStart n)] s

/-- A write of `EDGE_CH[n]_CFG` by its RW fields (R210, R213). -/
def edgeCfgWrite (n : Nat) (v : Word) : Act :=
  seq [setF (F.EDGE_CH_CFG_minp_act n) (v.toNat / 4), setF (F.EDGE_CH_CFG_sync_in n) (v.toNat / 2),
    setF (F.EDGE_CH_CFG_en n) v.toNat,
    if v.getLsbD 0 then whenA (fun s => edgeOn s (n / 24)) (edgeStart n) else edgeStop n]

/-- A write of `EDGE_SYNC_CFG`: with `synco_en` clear SYNCO is held low (R206). -/
def syncCfgWrite (v : Word) : Act :=
  seq [setW R.EDGE_SYNC_CFG (v &&& 0x03FF3F03#32), only (!v.getLsbD 0) (edgesA fun e => { e with synco := false })]

/-- `EDGE_CH[n]_STAT` as a read finds it (R213). -/
def edgeStatWord (s : State) (n : Nat) : Word :=
  let x := edgeSt s n
  BitVec.ofNat 32 (32 * b2n (edgeOut s n) + 16 * b2n (refreshCond s n) + 8 * b2n x.held
    + 4 * b2n (bit (s.f (F.EDGE_COMMIT_req (n / 24))) (n % 24)) + 2 * b2n (x.live && x.falling) + b2n x.live)

end Sys2Proof.Machine
end

