-- ==== Sys2Proof/Machine/Port.lean ====
section
/-!
DEFINITION. Whether a port's access reaches a register: unmapped offsets, disabled islands, lost seam links (R13, R34, R43).
-/

namespace Sys2Proof.Machine

/-- Island of a register: a bit of `SYS_ISLAND_EN`, 32 AON, 33 DRONE (R31, R42). -/
def RegAt.isl (r : RegAt) : Nat := r.desc.isl + r.desc.islStep * r.ixs.headD 0

/-- The Bell die that holds an island (R31). -/
def islandDie (i : Nat) : Option Nat :=
  if 17 ≤ i ∧ i ≤ 21 then some 0 else if 22 ≤ i ∧ i ≤ 26 then some 1 else if i = 32 ∨ i = 33 then some 0 else none

/-- An access reaches the register: its island runs, and so does the seam link to its die. -/
def regLive (s : State) (r : RegAt) : Bool :=
  s.island r.isl && (match islandDie r.isl with
    | some d => s.on (F.SYS_SEAM_STAT_up d)
    | none => true)

/-- The access waits at a seam link that takes the dump's traffic alone (R65): it has no effect and is never answered.
DEDUCED, log entry 48. -/
def seamHeld (s : State) (r : RegAt) : Bool := s.hid.pwr.dumpOnly && (islandDie r.isl).isSome

/-- Kind of a write that its register's rule refuses (R436). -/
def errRefused : Nat := 3

/-! ### The firmware port (R359, R362, R374) -/

/-- Changes what the Chanter holds. -/
def chntA (g : ChntSt → ChntSt) : Act := hidA fun h => { h with chnt := g h.chnt }

/-- The CHNT island runs. -/
def chntOn (s : State) : Bool := s.up ∧ s.island 0

/-- The cores run (R375). -/
def coresRun (s : State) : Bool := chntOn s ∧ s.on F.CHNT_STAT_running

/-- CHNT cycles in `n` ticks (R359): at 640 MHz, or 320 MHz with `div_chnt`. -/
def chntCycles (s : State) (n : Nat) : Nat := n * (if s.on F.CLK_SYS_DIV_ACT_div_chnt then 2 else 4) / 5

/-- The cores' counters are taken up at the present instant (R359): `mcycle` counts the cycles in which they ran; how many
instructions ended in them is free.  DESIGN CHOICE, log entry 133. -/
def coreCount : Act := whenA (fun s => s.on F.CHNT_STAT_running) (withEnv fun n s =>
  let d := chntCycles s (s.now - s.hid.chnt.cntT).toNat
  chntA (fun c => { c with mcycle := c.mcycle + BitVec.ofNat 64 d, minstret := c.minstret + BitVec.ofNat 64 (n % (d + 1)),
                           cntT := s.now }) s)

/-- The cores start, and stop. -/
def coresStart : Act := fun s => seq [setB F.CHNT_STAT_running, chntA fun c => { c with cntT := s.now }] s
def coresStop : Act := seq [coreCount, clrB F.CHNT_STAT_running]

/-- Firmware address of a register (R359). -/
def fwAddr (off : Nat) : Nat := 0x40000000 + off

/-- The 4 KiB granule, in firmware addresses, that entry `i` covers: from, to; `none` for an entry that is off.  A granule of
4 KiB leaves out bits 9:0 of the address registers.  PRESUMED (the RISC-V privileged specification, which R359 names), log entry 103. -/
def pmpRange (es : Vector PmpEntry 16) (i : Fin 16) : Option (Nat × Nat) :=
  let e := es[i]
  let page (x : Word) : Nat := x.toNat / 2 ^ 10 * 2 ^ 12
  match e.cfg.toNat / 8 % 4 with
  | 1 => some (if h : 0 < i.val then page (es[i.val - 1]).addr else 0, page e.addr)
  | 3 =>
    let n := ((List.range 32).takeWhile fun k => k < 9 ∨ e.addr.getLsbD k).length
    let size := 2 ^ (n + 3)
    some (e.addr.toNat * 4 / size * size, e.addr.toNat * 4 / size * size + size)
  | _ => none

/-- The first entry that covers an address decides; a locked one refuses an access that it gives no permission for (R359).
PRESUMED, log entry 103. -/
def pmpRefuses (s : State) (a : Nat) (wr : Bool) : Bool :=
  let es := s.hid.chnt.pmp
  match (List.finRange 16).find? fun i => (pmpRange es i).any fun x => x.1 ≤ a ∧ a < x.2 with
  | some i => es[i].cfg.getLsbD 7 && !es[i].cfg.getLsbD (if wr then 1 else 0)
  | none => false

/-- Both cores take an exception. -/
def coreTrap (k : TrapKind) (a : Nat) : Act := chntA fun c => { c with trap := some (k, BitVec.ofNat 32 a) }

/-- Port `p` takes accesses: the Core die is powered and, for firmware, the cores run; cores that have stopped, and a stopped
CHNT island, drive no access (R362, R374).  DEDUCED, log entry 62. -/
def portUp (p : Port) (s : State) : Bool := s.up && (p ≠ .fw || coresRun s)

/-- `a` where port `p` makes an access at `off`. -/
def portAct (p : Port) (off : Nat) (wr : Bool) (a : Act) : Act := fun s =>
  if !portUp p s then []
  else if p = .fw ∧ pmpRefuses s (fwAddr off) wr then coreTrap .accessFault (fwAddr off) s
  else a s

/-- `a` where a write of port `p` reaches the register at `off`; one to a disabled island or a lost link is an access error.
DEDUCED, log entry 48. -/
def portGate (p : Port) (off : Nat) (a : Act) : Act := portAct p off true fun s =>
  match regAt off with
  | none => []
  | some r => if seamHeld s r then [] else if regLive s r then a s else accErr p 2 off s

/-- What a port's read of words answers.  DESIGN CHOICE, log entry 63. -/
def respond (p : Port) (ws : List Word) (err : Bool) : Act := fun _ => [.resp (portIx p) { data := ws, err := err }]

end Sys2Proof.Machine
end

