-- ==== Sys2Proof/Machine/Chnt.lean ====
section
/-!
DEFINITION. The Chanter's lockstep, self-test, agreed inputs, sweep, restart, debug halt and machine timer (spec/14).
-/

namespace Sys2Proof.Machine

/-- The copy of the status in `SYS_MODE_STAT` (R363). -/
def brokenSet (b : Bool) : Act := seq [setF F.CHNT_STAT_lockstep_broken (b2n b), setF F.SYS_MODE_STAT_lockstep_broken (b2n b)]

/-- A lockstep failure (R362, R363): only the first is recorded; the sweep timer stops; `stop`: both cores stop, and any
cause but 4 clears `SYS_SOL` (R379).  DEDUCED, log entry 62. -/
def lockstepFail (cause seg : Nat) (stop : Bool) : Act := fun s =>
  seq [
    only (!s.on F.CHNT_STAT_lockstep_broken) (seq [setF F.CHNT_LS_INFO_cause cause, setF F.CHNT_LS_INFO_segment seg,
      set64 R.CHNT_LS_TS s.now, setB F.CHNT_EVENT_broken, brokenSet true]),
    chntA fun c => { c with line := true, sweepT := none },
    only stop coresStop, only (cause ≠ 4) (seq [setF F.SYS_SOL_on 0, solSend]), droneEval] s

/-- LOCKSTEP_MISMATCH (R361, R362): a parked trailing core is no longer compared (R370). -/
def lockstepMismatch (seg : Nat) : Act := whenA (fun s => coresRun s ∧ !s.on F.CHNT_STAT_parked) (lockstepFail 1 seg true)

/-- SRAM_ECC_ERROR (R360); an uncorrectable error that a core's read meets, not the scrubber's, raises an access fault in both
cores: the row does not tell the two apart, so that whether they took it is free (log entry 104). -/
def sramEcc (addr : BitVec 32) (double : Bool) : Act := whenA chntOn
  (seq [setW R.CHNT_ECC_ADDR addr,
    if double then seq [withEnv fun n => whenA (fun s => coresRun s ∧ n.testBit 0) (coreTrap .accessFault addr.toNat),
      lockstepFail 2 0 false]
    else seq [bump R.CHNT_ECC_CNT, setB F.CHNT_EVENT_ecc_fix]])

/-- SRAM_SCRUB (R360): reads and rewrites every word; an error that it finds is its own event.
DESIGN CHOICE, log entry 60. -/
def sramScrub : Act := nop

/-- CHNT reset is released (R364): the self-test runs, the watchdog is armed again (R384); `boot`: a ROM boot follows.  What
the last self-test left in `CHNT_ST_STAT` stands until this one ends. -/
def chntRelease (boot : Bool) : Act :=
  seq [clrB F.CHNT_STAT_running, clrB F.CHNT_STAT_parked, clrB F.CHNT_STAT_debug_halted, clrB F.CHNT_STAT_sweeping,
    chntA fun c => { c with test := true, boot := boot, sweepT := none, trap := none, pmp := Vector.replicate 16 {},
                            mcycle := 0#64, minstret := 0#64 }, wdRelease]

/-- The sweep timer starts (R368), but not with lockstep broken. -/
def sweepTimerStart : Act := whenA (fun s => !s.on F.CHNT_STAT_lockstep_broken) fun s =>
  chntA (fun c => { c with sweepT := some s.now }) s

/-- What firmware writes into the memory protection, by CSR instructions that no command shows, it writes when it starts: free
values in the entries that are not locked (R359).  DESIGN CHOICE, log entry 133. -/
def pmpLoad : Act := fun s =>
  let entry (i : Fin 16) : PmpEntry :=
    let old := s.hid.chnt.pmp[i]
    let x := Config.freePmp s.fresh i
    if old.cfg.getLsbD 7 = true then old else ⟨x.extractLsb' 32 8, x.extractLsb' 0 32⟩
  seq [chntA (fun c => { c with pmp := Vector.ofFn entry }), freshA] s

/-- Control passes to firmware or to the resident loader (R368). -/
def firmwareStart : Act := seq [sweepTimerStart, pmpLoad]

/-- CHNT_SELFTEST_END (R364, R363, R369): a pass mends lockstep and starts the cores; after a restart they start at
`CHNT_ENTRY` and under an update in the resident loader, both with the sweep timer (R368), else in the boot ROM. -/
def selftestEnd (pass : BitVec 8) : Act := whenA (fun s => chntOn s ∧ s.hid.chnt.test) fun s =>
  let good := decide (pass = 0xFF#8)
  seq [setF F.CHNT_ST_STAT_seg_pass pass.toNat, setB F.CHNT_ST_STAT_st_done, setF F.CHNT_ST_STAT_st_fail (b2n (!good)),
    setB F.CHNT_EVENT_selftest_end, chntA fun c => { c with test := false },
    if good then
      seq [brokenSet false, coresStart,
        chntA (fun c => { c with line := false, sweepT := none }), only (!s.hid.chnt.boot ∨ s.hid.boot.upd) firmwareStart,
        causeEnds causeLockstep, edgeUnfreeze, droneEval]
    else lockstepFail 5 0 true] s

/-- CHNT_RESTART: what an accepted write meets (R369). -/
def restartOk (p : Port) (v : Word) (s : State) : Bool :=
  p ≠ .fw ∧ v.toNat / 2 ^ 16 = 0xC4A7 ∧ v.getLsbD 0 ∧ !s.hid.chnt.test ∧
  (s.mode = DORMANT ∨ s.mode = CONFIGURE ∨ s.mode = HALT ∨ s.mode = SERVICE)

/-- DEBUG_HALT (R370, R208). -/
def debugHalt : Act := whenA (fun s => coresRun s ∧ !s.on F.CHNT_STAT_debug_halted)
  (seq [setB F.CHNT_STAT_parked, setB F.CHNT_STAT_debug_halted, lockstepFail 4 0 false, edgeFreeze])

/-- The leading core resumes (R208); the trailing one stays parked (R370). -/
def debugUnfreeze : Act := seq [clrB F.CHNT_STAT_debug_halted, edgeUnfreeze]

/-! ### Agreed inputs (R365, R366) -/

/-- AGREE_REQ. -/
def agreeReq (v : Word) (a0 b0 a1 b1 : BitVec 16) : Act := fun s =>
  seq [only (v.getLsbD 0) (chntA fun c => { c with
      agree0 := some (a0, b0, s.now) }),
    only (v.getLsbD 1) (chntA fun c => { c with agree1 := some (a1 &&& 7#16, b1 &&& 7#16, s.now) })] s

/-- The latched samples of a group. -/
def agreeOf (s : State) (g : Nat) : Option (BitVec 16 × BitVec 16 × BitVec 64) :=
  if g = 0 then s.hid.chnt.agree0 else s.hid.chnt.agree1

/-- What a read of `CHNT_AGREE_VAL[g]` returns; four CHNT cycles are 5 ticks, or 10 with `div_chnt`. -/
def agreeWord (s : State) (g : Nat) : Word :=
  match agreeOf s g with
  | some (a, b, t) =>
    if a = b ∧ (if s.on F.CLK_SYS_DIV_ACT_div_chnt then 10 else 5) ≤ (s.now - t).toNat then a.zeroExtend 32 else 0x80000000#32
  | none => 0x80000000#32

/-- AGREE_VAL_READ consumes the samples. -/
def agreeRead (g : Nat) : Act := chntA fun c => if g = 0 then { c with agree0 := none } else { c with agree1 := none }

/-- SVCKEY_AGREE (R366): a disagreement keeps the value.  With each such sample the interrupt sources of the GPIO inputs follow
their agreed levels (R372): one whose pin both cores find low falls; what the pins are is free (log entry 105). -/
def svckeyAgree (a b : Bool) : Act := whenA chntOn (seq [only (a = b) (setF F.SYS_MODE_STAT_svckey (b2n a)),
  withEnv fun n => chntA fun c => { c with gpio := c.gpio &&& (n % 2 ^ 16 ||| n / 2 ^ 16 % 2 ^ 16) }])

/-- The two cores' samples of the pins that `CHNT_PIN_RAW` shows: free values (R366). -/
def pinRaw (s : State) (lead : Bool) : Nat := Config.freeEnv (s.fresh + b2n (!lead)) % 2 ^ 19

/-- PIN_RAW read by port `p`: in a firmware read with lockstep running the samples are compared, and a difference is a lockstep
failure in a segment that the spec does not name (R366, R362). -/
def pinRawRead (p : Port) : Act := fun s => seq [freshA, freshA,
  only (p = .fw ∧ !s.on F.CHNT_STAT_lockstep_broken ∧ !s.on F.CHNT_STAT_parked ∧ pinRaw s true ≠ pinRaw s false)
    (withEnv fun n => lockstepFail 1 (n % 8) true)] s

/-! ### Sweep (R367, R368) -/

/-- A word written to `CHNT_SWEEP_CTL`: end, then begin. -/
def sweepCtl (p : Port) (v : Word) : Act := whenA (fun s => p = .fw ∧ coresRun s) (seq [
  whenA (fun s => v.getLsbD 1 ∧ s.on F.CHNT_STAT_sweeping) fun s =>
    seq [clrB F.CHNT_STAT_sweeping,
      if 97 ≤ s.f F.CHNT_SWEEP_STAT_words then
        chntA fun c => { c with sweepT := c.sweepT.map fun _ => s.now, sweepFrom := some s.now }
      else setB F.CHNT_EVENT_sweep_short] s,
  only (v.getLsbD 0) (seq [setB F.CHNT_STAT_sweeping, setF F.CHNT_SWEEP_STAT_words 0])])

/-- SWEEP_BEGIN.  DEDUCED, log entry 61. -/
def sweepBegin (p : Port) (v : Word) : Act := sweepCtl p v

/-- SWEEP_END. -/
def sweepEnd (p : Port) (v : Word) : Act := sweepCtl p v

/-- SWEEP_DATA: the word is counted and otherwise discarded. -/
def sweepData (p : Port) : Act := whenA (fun s => p = .fw ∧ coresRun s ∧ s.on F.CHNT_STAT_sweeping)
  fun s => setF F.CHNT_SWEEP_STAT_words (min 255 (s.f F.CHNT_SWEEP_STAT_words + 1)) s

/-- The limit of the sweep timer in ticks (R368, R375). -/
def sweepLimit (s : State) : Nat := 800000 * max 10 (min 100 (s.f F.CHNT_SWEEP_CFG_limit_ms))

/-- SWEEP_OVERDUE (R368): the timer has reached its limit. -/
def sweepOverdue : Act := whenA (fun s => chntOn s ∧ (s.hid.chnt.sweepT.any fun t => decide (sweepLimit s ≤ (s.now - t).toNat)))
  (lockstepFail 3 0 true)

/-- Time since the last sweep that counted, ms (R375); before the first it reads 0.  DESIGN CHOICE, log entry 132. -/
def sweepAge (s : State) : Nat := match s.hid.chnt.sweepFrom with
  | some t => min 65535 ((s.now - t).toNat / 800000)
  | none => 0

/-- WD_KICK: a kick travels to the Drone (R371). -/
def kick (v : Word) (us : Nat) : Act := whenA (fun s => s.on (F.SYS_SEAM_STAT_up 0)) (wdKick v us)

/-- MACHINE_TIMER (R359): pending while `mtime` has reached the compare; it ends a wait for interrupt. -/
def machineTimer : Act := whenA (fun s => chntOn s ∧ s.rd64 R.CHNT_MTIMECMP ≤ s.now)
  (seq [chntA fun c => { c with mtip := true }, hidA fun h => { h with wake := { h.wake with wfi := false } }])

/-- `CHNT_STAT` as a read finds it. -/
def chntStatWord (s : State) : Word := s.rd R.CHNT_STAT ||| BitVec.ofNat 32 (32 * b2n s.hid.chnt.test)

/-- The CHNT island has stopped (R374): no traffic and no kicks; the lockstep-failure line stays. -/
def chntStopped : Act := seq [coresStop, clrB F.CHNT_STAT_sweeping, chntA fun c => { c with test := false, sweepT := none }]

end Sys2Proof.Machine
end

