-- ==== Sys2Proof/Machine/Cipher.lean ====
section
/-!
DEFINITION. The published algorithms that the spec names: SHA-512 (FIPS 180-4), HMAC, AES-256-GCM (FIPS 197, SP 800-38D) and
ECDSA on P-521 (FIPS 186-4), over byte strings (R103, R404, R464, R470, R472).  PRESUMED, log entries 16, 17, 32: the spec
names them and does not define them.
-/

namespace Sys2Proof.Machine

/-! ### SHA-512 -/

/-- The 80 round constants. -/
def shaK : List (BitVec 64) :=
  [0x428a2f98d728ae22#64, 0x7137449123ef65cd#64, 0xb5c0fbcfec4d3b2f#64, 0xe9b5dba58189dbbc#64]
  ++ [0x3956c25bf348b538#64, 0x59f111f1b605d019#64, 0x923f82a4af194f9b#64, 0xab1c5ed5da6d8118#64]
  ++ [0xd807aa98a3030242#64, 0x12835b0145706fbe#64, 0x243185be4ee4b28c#64, 0x550c7dc3d5ffb4e2#64]
  ++ [0x72be5d74f27b896f#64, 0x80deb1fe3b1696b1#64, 0x9bdc06a725c71235#64, 0xc19bf174cf692694#64]
  ++ [0xe49b69c19ef14ad2#64, 0xefbe4786384f25e3#64, 0x0fc19dc68b8cd5b5#64, 0x240ca1cc77ac9c65#64]
  ++ [0x2de92c6f592b0275#64, 0x4a7484aa6ea6e483#64, 0x5cb0a9dcbd41fbd4#64, 0x76f988da831153b5#64]
  ++ [0x983e5152ee66dfab#64, 0xa831c66d2db43210#64, 0xb00327c898fb213f#64, 0xbf597fc7beef0ee4#64]
  ++ [0xc6e00bf33da88fc2#64, 0xd5a79147930aa725#64, 0x06ca6351e003826f#64, 0x142929670a0e6e70#64]
  ++ [0x27b70a8546d22ffc#64, 0x2e1b21385c26c926#64, 0x4d2c6dfc5ac42aed#64, 0x53380d139d95b3df#64]
  ++ [0x650a73548baf63de#64, 0x766a0abb3c77b2a8#64, 0x81c2c92e47edaee6#64, 0x92722c851482353b#64]
  ++ [0xa2bfe8a14cf10364#64, 0xa81a664bbc423001#64, 0xc24b8b70d0f89791#64, 0xc76c51a30654be30#64]
  ++ [0xd192e819d6ef5218#64, 0xd69906245565a910#64, 0xf40e35855771202a#64, 0x106aa07032bbd1b8#64]
  ++ [0x19a4c116b8d2d0c8#64, 0x1e376c085141ab53#64, 0x2748774cdf8eeb99#64, 0x34b0bcb5e19b48a8#64]
  ++ [0x391c0cb3c5c95a63#64, 0x4ed8aa4ae3418acb#64, 0x5b9cca4f7763e373#64, 0x682e6ff3d6b2b8a3#64]
  ++ [0x748f82ee5defb2fc#64, 0x78a5636f43172f60#64, 0x84c87814a1f0ab72#64, 0x8cc702081a6439ec#64]
  ++ [0x90befffa23631e28#64, 0xa4506cebde82bde9#64, 0xbef9a3f7b2c67915#64, 0xc67178f2e372532b#64]
  ++ [0xca273eceea26619c#64, 0xd186b8c721c0c207#64, 0xeada7dd6cde0eb1e#64, 0xf57d4f7fee6ed178#64]
  ++ [0x06f067aa72176fba#64, 0x0a637dc5a2c898a6#64, 0x113f9804bef90dae#64, 0x1b710b35131c471b#64]
  ++ [0x28db77f523047d84#64, 0x32caab7b40c72493#64, 0x3c9ebe0a15c9bebc#64, 0x431d67c49c100d4c#64]
  ++ [0x4cc5d4becb3e42b6#64, 0x597f299cfc657e2a#64, 0x5fcb6fab3ad6faec#64, 0x6c44198c4a475817#64]

/-- The initial hash value. -/
def shaH : List (BitVec 64) :=
  [0x6a09e667f3bcc908#64, 0xbb67ae8584caa73b#64, 0x3c6ef372fe94f82b#64, 0xa54ff53a5f1d36f1#64,
   0x510e527fade682d1#64, 0x9b05688c2b3e6c1f#64, 0x1f83d9abfb41bd6b#64, 0x5be0cd19137e2179#64]

/-- A message with its padding, a multiple of 128 bytes. -/
def shaPad (m : List Byte) : List Byte :=
  m ++ [0x80#8] ++ List.replicate ((239 - m.length % 128) % 128) 0#8 ++ (leBytes 16 (8 * m.length)).reverse

/-- The words of a block, first byte in the high bits. -/
def shaWords : Nat → List Byte → List (BitVec 64)
  | 0, _ => []
  | n + 1, m => BitVec.ofNat 64 (leNat (m.take 8).reverse) :: shaWords n (m.drop 8)

/-- The message schedule: the words so far, newest first, and how many more to form. -/
def shaSchedule : Nat → List (BitVec 64) → List (BitVec 64)
  | 0, w => w.reverse
  | n + 1, w =>
    let a := w.getD 14 0#64
    let b := w.getD 1 0#64
    let s0 := a.rotateRight 1 ^^^ a.rotateRight 8 ^^^ (a >>> 7)
    let s1 := b.rotateRight 19 ^^^ b.rotateRight 61 ^^^ (b >>> 6)
    shaSchedule n ((s1 + w.getD 6 0#64 + s0 + w.getD 15 0#64) :: w)

/-- One round on the eight working variables; `kw` is the round constant and the schedule word. -/
def shaRound (v : List (BitVec 64)) (kw : BitVec 64 × BitVec 64) : List (BitVec 64) :=
  match v with
  | [a, b, c, d, e, f, g, h] =>
    let t1 := h + (e.rotateRight 14 ^^^ e.rotateRight 18 ^^^ e.rotateRight 41) + ((e &&& f) ^^^ (~~~ e &&& g)) + kw.1 + kw.2
    let t2 := (a.rotateRight 28 ^^^ a.rotateRight 34 ^^^ a.rotateRight 39) + ((a &&& b) ^^^ (a &&& c) ^^^ (b &&& c))
    [t1 + t2, a, b, c, d + t1, e, f, g]
  | _ => v

/-- The hash value after one more block. -/
def shaBlock (h : List (BitVec 64)) (m : List Byte) : List (BitVec 64) :=
  List.zipWith (· + ·) h ((shaK.zip (shaSchedule 64 (shaWords 16 m).reverse)).foldl shaRound h)

/-- The hash value after `n` blocks. -/
def shaBlocks : Nat → List (BitVec 64) → List Byte → List (BitVec 64)
  | 0, h, _ => h
  | n + 1, h, m => shaBlocks n (shaBlock h (m.take 128)) (m.drop 128)

/-- The SHA-512 digest of a byte string, 64 bytes as one number, byte 0 in bits 7:0. -/
@[irreducible] def sha512 (m : List Byte) : BitVec 512 :=
  let p := shaPad m
  let h := shaBlocks (p.length / 128) shaH p
  BitVec.ofNat 512 (leNat (h.map fun x => (leBytes 8 x.toNat).reverse).flatten)

/-- HMAC-SHA-512 under a key of 32 bytes (R404). -/
def hmac (key msg : List Byte) : BitVec 512 :=
  let pad := fun (x : Byte) => key.map (· ^^^ x) ++ List.replicate 96 x
  sha512 (pad 0x5C#8 ++ leBytes 64 (sha512 (pad 0x36#8 ++ msg)).toNat)

/-! ### AES-256 -/

/-- The substitution box, 16 bytes a row. -/
def sboxRows : List Nat :=
  [0x637c777bf26b6fc53001672bfed7ab76,
   0xca82c97dfa5947f0add4a2af9ca472c0,
   0xb7fd9326363ff7cc34a5e5f171d83115,
   0x04c723c31896059a071280e2eb27b275,
   0x09832c1a1b6e5aa0523bd6b329e32f84,
   0x53d100ed20fcb15b6acbbe394a4c58cf,
   0xd0efaafb434d338545f9027f503c9fa8,
   0x51a3408f929d38f5bcb6da2110fff3d2,
   0xcd0c13ec5f974417c4a77e3d645d1973,
   0x60814fdc222a908846eeb814de5e0bdb,
   0xe0323a0a4906245cc2d3ac629195e479,
   0xe7c8376d8dd54ea96c56f4ea657aae08,
   0xba78252e1ca6b4c6e8dd741f4bbd8b8a,
   0x703eb5664803f60e613557b986c11d9e,
   0xe1f8981169d98e949b1e87e9ce5528df,
   0x8ca1890dbfe6426841992d0fb054bb16]

def sbox (x : Byte) : Byte := BitVec.ofNat 8 (sboxRows.getD (x.toNat / 16) 0 / 256 ^ (15 - x.toNat % 16))

/-- A byte times 2 in the field of AES. -/
def xtime (x : Byte) : Byte := (x <<< 1) ^^^ (if x.getLsbD 7 then 0x1B#8 else 0#8)

def xorBytes (a b : List Byte) : List Byte := List.zipWith (· ^^^ ·) a b

/-- The key schedule: the words so far, newest first, of which `i` stand, and how many more to form. -/
def aesExpand : Nat → Nat → Byte → List (List Byte) → List (List Byte)
  | 0, _, _, w => w.reverse
  | n + 1, i, rc, w =>
    let t := w.headD []
    let u := if i % 8 = 0 then xorBytes ((t.drop 1 ++ t.take 1).map sbox) [rc, 0#8, 0#8, 0#8] else if i % 8 = 4 then t.map sbox else t
    aesExpand n (i + 1) (if i % 8 = 0 then xtime rc else rc) (xorBytes (w.getD 7 []) u :: w)

/-- A list cut into pieces of `k`. -/
def pieces {α : Type} (k : Nat) : Nat → List α → List (List α)
  | 0, _ => []
  | n + 1, l => l.take k :: pieces k n (l.drop k)

/-- The 15 round keys of a key of 32 bytes. -/
def aesKeys (key : List Byte) : List (List Byte) := pieces 16 15 (aesExpand 52 8 1#8 (pieces 4 8 key).reverse).flatten

/-- Bytes substituted, and rows shifted: row r of column c comes from column c + r. -/
def aesShift (s : List Byte) : List Byte := (List.range 16).map fun i => sbox (s.getD ((i + 4 * (i % 4)) % 16) 0#8)

/-- A column mixed. -/
def mixColumn : List Byte → List Byte
  | [a, b, c, d] =>
    let all := a ^^^ b ^^^ c ^^^ d
    [a ^^^ all ^^^ xtime (a ^^^ b), b ^^^ all ^^^ xtime (b ^^^ c), c ^^^ all ^^^ xtime (c ^^^ d), d ^^^ all ^^^ xtime (d ^^^ a)]
  | l => l

/-- The rounds after the first key addition. -/
def aesRounds : List (List Byte) → List Byte → List Byte
  | [], s => s
  | [k], s => xorBytes (aesShift s) k
  | k :: ks, s => aesRounds ks (xorBytes ((pieces 4 4 (aesShift s)).map mixColumn).flatten k)

/-- One block under expanded keys. -/
def aesBlock (ks : List (List Byte)) (s : List Byte) : List Byte := aesRounds ks.tail (xorBytes s (ks.headD []))

/-! ### GCM -/

/-- The number of a block, first byte in the high bits. -/
def blockNum (b : List Byte) : BitVec 128 := BitVec.ofNat 128 (leNat (b ++ List.replicate (16 - b.length) 0#8).reverse)

/-- The product in the field of GHASH, bit 127 first. -/
def ghashMul (x y : BitVec 128) : BitVec 128 :=
  ((List.range 128).foldl (fun (a : BitVec 128 × BitVec 128) i =>
    (if x.getLsbD (127 - i) then a.1 ^^^ a.2 else a.1,
     (a.2 >>> 1) ^^^ (if a.2.getLsbD 0 then 0xE1#128 <<< 120 else 0#128))) (0#128, y)).1

/-- GHASH over a byte string, its last block filled with zeros. -/
def ghash (h acc : BitVec 128) (m : List Byte) : BitVec 128 :=
  (pieces 16 ((m.length + 15) / 16) m).foldl (fun a b => ghashMul (a ^^^ blockNum b) h) acc

/-- The counter block `n` of a nonce of 12 bytes. -/
def gcmCtr (nonce : List Byte) (n : Nat) : List Byte := nonce ++ (leBytes 4 n).reverse

/-- A byte string enciphered, or deciphered, in counter mode. -/
def gcmStream (ks : List (List Byte)) (nonce m : List Byte) : List Byte :=
  (((pieces 16 ((m.length + 15) / 16) m).zipIdx).map fun x => xorBytes x.1 (aesBlock ks (gcmCtr nonce (x.2 + 2)))).flatten

/-- The tag of a ciphertext with its additional data. -/
def gcmTag (ks : List (List Byte)) (nonce aad c : List Byte) : List Byte :=
  let h := blockNum (aesBlock ks (List.replicate 16 0#8))
  let x := ghash h (ghash h 0#128 aad) c
  let y := ghashMul (x ^^^ BitVec.ofNat 128 (8 * aad.length * 2 ^ 64 + 8 * c.length)) h
  xorBytes (leBytes 16 y.toNat).reverse (aesBlock ks (gcmCtr nonce 1))

/-- AES-256-GCM: the ciphertext and the 16-byte tag of a body. -/
@[irreducible] def gcmSeal (key nonce aad body : List Byte) : List Byte × List Byte :=
  let ks := aesKeys key
  let c := gcmStream ks nonce body
  (c, gcmTag ks nonce aad c)

/-- The body back, where the tag is good. -/
@[irreducible] def gcmOpen (key nonce aad c tag : List Byte) : Option (List Byte) :=
  let ks := aesKeys key
  if tag = gcmTag ks nonce aad c then some (gcmStream ks nonce c) else none

/-! ### ECDSA on P-521 -/

/-- The field, the coefficient b, the order of the group, its generator. -/
def curveP : Nat := 2 ^ 521 - 1
def curveB : Nat :=
  0x51953EB9618E1C9A1F929A21A0B68540EEA2DA725B99B315F3B8B489918EF109E1 * 2 ^ 256
  + 0x56193951EC7E937B1652C0BD3BB1BF073573DF883D2C34F1EF451FD46B503F00
def curveN : Nat := 2 ^ 521 - 2 ^ 260 + 0xA51868783BF2F966B7FCC0148F709A5D03BB5C9B8899C47AEBB6FB71E91386409
def curveG : Nat × Nat :=
  (0xC6858E06B70404E9CD9E3ECB662395B4429C648139053FB521F828AF606B4D3DBA * 2 ^ 256
    + 0xA14B5E77EFE75928FE1DC127A2FFA8DE3348B3C1856A429BF97E7E31C2E5BD66,
   0x11839296A789A3BC0045C8A5FB42C7D1BD998F54449579B446817AFBD17273E662C * 2 ^ 256
    + 0x97EE72995EF42640C550B9013FAD0761353C7086A272C24088BE94769FD16650)

/-- `a` to the power `e` modulo `m`, for an exponent below 2⁵²¹. -/
def powMod (a e m : Nat) : Nat :=
  (List.range 521).foldl (fun r i => r * r % m * (if e.testBit (520 - i) then a else 1) % m) 1

/-- The inverse modulo a prime. -/
def invMod (a m : Nat) : Nat := powMod (a % m) (m - 2) m

/-- The sum of two points; `none` is the point at infinity. -/
def pointAdd : Option (Nat × Nat) → Option (Nat × Nat) → Option (Nat × Nat)
  | none, b => b
  | a, none => a
  | some (x1, y1), some (x2, y2) =>
    if x1 = x2 ∧ (y1 + y2) % curveP = 0 then none
    else
      let l := if x1 = x2 then (3 * x1 * x1 + (curveP - 3)) * invMod (2 * y1) curveP % curveP
        else (y2 + curveP - y1) * invMod (x2 + curveP - x1) curveP % curveP
      let x := (l * l + 2 * curveP - x1 - x2) % curveP
      some (x, (l * (x1 + curveP - x) + curveP - y1) % curveP)

/-- `k` times a point, for `k` below 2⁵²¹. -/
def pointMul (k : Nat) (q : Option (Nat × Nat)) : Option (Nat × Nat) :=
  (List.range 521).foldl (fun r i =>
    let d := pointAdd r r
    if k.testBit (520 - i) then pointAdd d q else d) none

/-- A number of 66 bytes, first byte in the high bits. -/
def num66 (l : List Byte) : Nat := leNat (l.take 66).reverse
def bytes66 (x : Nat) : List Byte := (leBytes 66 x).reverse

/-- The point of a public key in the layout of R458: 0x04, X, Y, 3 zero bytes. -/
def keyPoint (key : List Byte) : Option (Nat × Nat) :=
  let x := num66 (key.drop 1)
  let y := num66 (key.drop 67)
  if key.length = 136 ∧ key.headD 0#8 = 4#8 ∧ (key.drop 133).all (· = 0#8) ∧ x < curveP ∧ y < curveP ∧
      (y * y + 3 * x) % curveP = (x * x * x + curveB) % curveP then some (x, y) else none

/-- That layout of a point. -/
def keyBytes (q : Option (Nat × Nat)) : List Byte :=
  let q := q.getD (0, 0)
  [4#8] ++ bytes66 q.1 ++ bytes66 q.2 ++ [0#8, 0#8, 0#8]

/-- A digest as the number that is signed: its 512 bits, byte 0 first. -/
def digestNum (d : BitVec 512) : Nat := leNat (leBytes 64 d.toNat).reverse

/-- The signature (r, s), 132 bytes, verifies over a digest under a public key (R103). -/
@[irreducible] def ecdsaVerify (key : List Byte) (digest : BitVec 512) (sig : List Byte) : Bool :=
  let r := num66 sig
  let s := num66 (sig.drop 66)
  match keyPoint key with
  | none => false
  | some q =>
    if r = 0 ∨ curveN ≤ r ∨ s = 0 ∨ curveN ≤ s then false
    else
      let w := invMod s curveN
      match pointAdd (pointMul (digestNum digest * w % curveN) (some curveG)) (pointMul (r * w % curveN) (some q)) with
      | some p => p.1 % curveN = r
      | none => false

/-- The signature over a digest under the private key `d` with the per-signature value `k`. -/
@[irreducible] def ecdsaSign (d k : Nat) (digest : BitVec 512) : List Byte :=
  let r := match pointMul k (some curveG) with
    | some p => p.1 % curveN
    | none => 0
  bytes66 r ++ bytes66 ((digestNum digest + r * d) * invMod k curveN % curveN)

/-- A scalar of the group, 1 to n − 1, from any number. -/
def scalarOf (x : Nat) : Nat := 1 + x % (curveN - 1)

/-! ### The device's own keys (R470, R471) -/

/-- The identity key's public half. -/
@[irreducible] def idPub : List Byte := keyBytes (pointMul (scalarOf Config.idKey) (some curveG))

/-- A signature of the identity key; the per-signature value is drawn from the true random source. -/
def idSign (digest : BitVec 512) (draw : Nat) : List Byte := ecdsaSign (scalarOf Config.idKey) (scalarOf draw) digest

/-- The settings key. -/
def settingsKey : List Byte := leBytes 32 Config.settingsKey.toNat

end Sys2Proof.Machine
end

