-- ==== Sys2Proof/Machine/Struct.lean ====
section
/-!
DEFINITION. Reading a structure: the fields of its records (R99, R101), and the questions that the other blocks ask of the
structure in force: legs, partners, engines, routes.
-/

namespace Sys2Proof.Machine

/-- Record types of R99. -/
def tSystem : Nat := 0x0101
def tLeg : Nat := 0x0102
def tPartner : Nat := 0x0103
def tRouteConv : Nat := 0x0201
def tRouteTrig : Nat := 0x0202
def tRouteTrip : Nat := 0x0203
def tUnitEdge : Nat := 0x0301
def tUnitMon : Nat := 0x0302
def tUnitPod : Nat := 0x0303
def tUnitMppt : Nat := 0x0304
def tEngHead : Nat := 0x0401
def tEngStage : Nat := 0x0402
def tEngOut : Nat := 0x0403
def tCurve : Nat := 0x0501
def tBehave : Nat := 0x0502
def tMeter : Nat := 0x0601
def tRecSignal : Nat := 0x0701
def tSafety : Nat := 0x0801
def tSig : Nat := 0x0901
def tNote : Nat := 0x0F01

/-- Payload byte, 16-bit and 32-bit little-endian words, and the 64-bit word at byte `i`. -/
def Rec.b (r : Rec) (i : Nat) : Nat := (r.pay.getD i 0#8).toNat
def Rec.w16 (r : Rec) (i : Nat) : Nat := r.b i + 256 * r.b (i + 1)
def Rec.w32 (r : Rec) (i : Nat) : Nat := r.w16 i + 65536 * r.w16 (i + 2)
def Rec.w64 (r : Rec) (i : Nat) : Nat := r.w32 i + 2 ^ 32 * r.w32 (i + 4)

/-- The records of a type. -/
def recsOf (t : Nat) (rs : List Rec) : List Rec := rs.filter fun r => r.typ = t

/-- The record of a type whose first payload byte is `i`. -/
def recAt (t i : Nat) (rs : List Rec) : Option Rec := rs.find? fun r => r.typ = t ∧ r.b 0 = i

/-- Gate channels of a TOPO_LEG record, in leg-position order. -/
def legChannels (r : Rec) : List Nat := ((List.range (r.b 3)).map fun j => r.b (4 + j)).filter (· ≠ 0xFF)

/-- Destination channels of a ROUTE_TRIP record. -/
def tripMask (r : Rec) : Nat := r.w32 4 + 2 ^ 32 * r.w16 8

/-- How channel `n` is paired: its partner, whether it is channel a, and the record. -/
structure PairInfo where
  other : Nat
  isA : Bool
  /-- 0 complementary, 1 interlock only. -/
  mode : Nat
  /-- The force-partner-on action is permitted. -/
  forceOn : Bool
deriving DecidableEq, Repr

/-- The pair of channel `n`, from the first TOPO_PARTNER record that names it. -/
def pairOf (rs : List Rec) (n : Nat) : Option PairInfo :=
  (rs.find? fun r => r.typ = tPartner ∧ (r.b 0 = n ∨ r.b 1 = n)).map fun r =>
    { other := if r.b 0 = n then r.b 1 else r.b 0, isA := decide (r.b 0 = n), mode := r.b 2, forceOn := decide (r.b 3 % 2 = 1) }

/-- Legs that an ENG_OUT record names. -/
def outLegs (r : Rec) : List Nat := (List.range (r.b 2)).map fun j => r.b (3 + j)

/-- The modulator writes channel `n` (R248): channel a of a complementary pair, both of an interlock-only pair, an unpaired
one. -/
def modWrites (rs : List Rec) (n : Nat) : Bool :=
  match pairOf rs n with
  | none => true
  | some p => p.mode = 1 ∨ p.isA

/-- Channels that the legs of engine `e`'s ENG_OUT record hold and its modulator writes (R248). -/
def engWritten (rs : List Rec) (e : Nat) : List Nat :=
  match recAt tEngOut e rs with
  | none => []
  | some o => ((outLegs o).map fun l => match recAt tLeg l rs with
      | some r => (legChannels r).filter (modWrites rs)
      | none => []).flatten

/-- Converters that engine `e` reads: those that ROUTE_CONV records send to it. -/
def engReads (rs : List Rec) (e : Nat) : List Nat :=
  ((recsOf tRouteConv rs).filter fun r => r.b 2 = 0 ∧ r.b 3 = e).map fun r => r.b 0

/-- Input slots of engine `e` that a ROUTE_CONV record feeds. -/
def engFed (rs : List Rec) (e : Nat) : List Nat :=
  ((recsOf tRouteConv rs).filter fun r => r.b 2 = 0 ∧ r.b 3 = e).map fun r => r.w16 4

/-- All members of a list are equal. -/
def allSame (l : List Nat) : Bool := l.all fun x => x = l.headD 0

/-- The die rule of R39 for engine `e` with `count` stages. -/
def dieRule (rs : List Rec) (e count : Nat) : Bool :=
  allSame ((engReads rs e).map (· / 8) ++ (engWritten rs e).map (· / 24)) ∧ count ≤ 24

/-- Timing in force of an engine head (R253): 1 fixed, 2 prompt. -/
def timingOf (rs : List Rec) (h : Rec) : Nat :=
  if h.b 2 = 1 then 1 else if h.b 2 = 2 then 2 else if dieRule rs (h.b 0) (h.b 1) then 1 else 2

/-- Levels of the power stage (TOPO_SYSTEM byte 0). -/
def sysLevels (rs : List Rec) : Nat := match rs.find? (·.typ = tSystem) with | some r => r.b 0 | none => 2

/-- Functions declared (TOPO_SYSTEM byte 3). -/
def sysFunctions (rs : List Rec) : Nat := match rs.find? (·.typ = tSystem) with | some r => r.b 3 | none => 0

end Sys2Proof.Machine
end

