-- ==== Sys2Proof/Machine/FingCheck.lean ====
section
/-!
DEFINITION. Judging a Fingering image (R94–R104, R113–R115, R493, R494): the header, the signature, the record format and
the structural rules, each giving the code and the record index that the loader reports.
-/

namespace Sys2Proof.Machine

/-- A rejection: code and record index; 0xF_FFFF where R113 names none. -/
structure Reject where
  code : Nat
  ix : Nat
deriving DecidableEq, Repr

/-- The index that header and signature codes report (R113). -/
def noIx : Nat := 0xFFFFF

/-- Numbers in an image. -/
def at8 (l : List Byte) (i : Nat) : Nat := (l.getD i 0#8).toNat
def at16 (l : List Byte) (i : Nat) : Nat := at8 l i + 256 * at8 l (i + 1)
def at32 (l : List Byte) (i : Nat) : Nat := at16 l i + 65536 * at16 l (i + 2)

/-- The image length that the header gives (R95). -/
def imgLen (img : List Byte) : Nat := at32 img 8

/-- Section offset `i` (R95); the tenth is the image length. -/
def sectAt (img : List Byte) (i : Nat) : Nat := if i = 9 then imgLen img else at32 img (0x14 + 4 * i)

/-- Bytes `a` to `b - 1` of an image. -/
def slice (l : List Byte) (a b : Nat) : List Byte := (l.drop a).take (b - a)

/-- The header checks, 0x01 to 0x08 in increasing order (R113 step 1); `have` is how many bytes the source gives. -/
def headerCheck (img : List Byte) : Nat :=
  if slice img 0 4 ≠ [0x48#8, 0x5A#8, 0x46#8, 0x47#8] then 0x01
  else if at16 img 4 = 1 then 0x03
  else if at16 img 4 ≠ 2 then 0x02
  else if at16 img 6 ≠ 0x8400 then 0x04
  else if 0xB1 < at8 img 0x0C then 0x05
  else if imgLen img < 256 ∨ 4194304 < imgLen img ∨ imgLen img % 16 ≠ 0 ∨ img.length < imgLen img then 0x06
  else if !((List.range 9).all fun i => sectAt img i % 16 = 0 ∧ 0x40 ≤ sectAt img i ∧ sectAt img i < imgLen img ∧
      (i = 8 ∨ sectAt img i ≤ sectAt img (i + 1))) then 0x07
  else if (slice img 0x0D 0x10 ++ slice img 0x38 0x40).any (· ≠ 0#8) then 0x08
  else 0

/-- The digest that SIG signs (R103). -/
def imgDigest (img : List Byte) : BitVec 512 := sha512 (slice img 0 (sectAt img 8))

/-- What the loader finds in the key store for a slot (R103, R464): programmed, revoked, and the verified key held. -/
structure KeySlot where
  programmed : Bool := false
  revoked : Bool := false
  key : Option (List Byte) := none
deriving DecidableEq, Repr

/-- The signature check (R103, R113 step 2). -/
def sigCheck (img : List Byte) (keys : List KeySlot) : Nat :=
  let g := slice img (sectAt img 8) (imgLen img)
  if g.length ≠ 144 ∨ at16 g 0 ≠ tSig ∨ at16 g 2 ≠ 136 ∨ at32 g 4 ≠ 0x5FC0FFFF ∨ 3 < at8 g 8 ∨ at8 g 9 ≠ 0 ∨ at16 g 10 ≠ 0
  then 0x10
  else
    let k := keys.getD (at8 g 8) {}
    if !k.programmed then 0x11
    else if k.revoked then 0x12
    else match k.key with
    | none => 0x14
    | some key => if ecdsaVerify key (imgDigest img) (slice g 12 144) then 0 else 0x13

/-! ### Records (R97–R99) -/

/-- A record as it lies in the image: its section, index and header, and what its section holds after the header. -/
structure RawRec where
  sec : Nat
  ix : Nat
  typ : Nat
  len : Nat
  tgt : Nat
  body : List Byte
deriving DecidableEq, Repr

/-- Size of a record with its padding (R97). -/
def recSize (len : Nat) : Nat := (8 + len + 15) / 16 * 16

/-- The records of one section, numbered from `ix`. -/
def parseSec (sec : Nat) : Nat → Nat → List Byte → List RawRec
  | 0, _, _ => []
  | fuel + 1, ix, l =>
    if l.isEmpty then []
    else ⟨sec, ix, at16 l 0, at16 l 2, at32 l 4, l.drop 8⟩ :: parseSec sec fuel (ix + 1) (l.drop (recSize (at16 l 2)))

/-- The records of sections `sec` to 7, numbered from `ix` (R97). -/
def parseFrom (img : List Byte) : Nat → Nat → Nat → List RawRec
  | 0, _, _ => []
  | fuel + 1, sec, ix =>
    let l := slice img (sectAt img sec) (sectAt img (sec + 1))
    let rs := parseSec sec (l.length / 16 + 1) ix l
    rs ++ parseFrom img fuel (sec + 1) (ix + rs.length)

/-- The records of an image outside SIG. -/
def parseImg (img : List Byte) : List RawRec := parseFrom img 8 0 0

/-- The payload. -/
def RawRec.pay (r : RawRec) : List Byte := r.body.take r.len

/-- The record as staged. -/
def RawRec.toRec (r : RawRec) : Rec := ⟨r.typ, r.tgt, r.pay⟩

/-- Section and payload length of a type, with its reserved byte ranges (R99); a length of 0 stands for one that varies. -/
def typeRow (t : Nat) : Option (Nat × Nat × List (Nat × Nat)) :=
  if t = tSystem then some (0, 16, [(5, 16)])
  else if t = tLeg then some (0, 16, [(12, 16)])
  else if t = tPartner then some (0, 8, [(4, 8)])
  else if t = tRouteConv then some (1, 16, [(7, 16)])
  else if t = tRouteTrig then some (1, 8, [(5, 8)])
  else if t = tRouteTrip then some (1, 16, [(3, 4), (10, 16)])
  else if t = tUnitEdge then some (2, 8, [(6, 8)])
  else if t = tUnitMon then some (2, 8, [(5, 8)])
  else if t = tUnitPod then some (2, 8, [(5, 8)])
  else if t = tUnitMppt then some (2, 8, [(5, 8)])
  else if t = tEngHead then some (3, 16, [(6, 8), (12, 16)])
  else if t = tEngStage then some (3, 80, [(12, 16)])
  else if t = tEngOut then some (3, 16, [(9, 16)])
  else if t = tCurve then some (4, 0, [(4, 16)])
  else if t = tBehave then some (4, 8, [(4, 8)])
  else if t = tMeter then some (5, 16, [(3, 4), (10, 16)])
  else if t = tRecSignal then some (6, 8, [(6, 8)])
  else if t = tSafety then some (7, 64, [])
  else if t = tSig then some (8, 136, [])
  else none

/-- A target word's fields (R98). -/
structure Target where
  level : Nat
  die : Nat
  division : Nat
  rank : Nat
  kind : Nat
  index : Nat
deriving DecidableEq, Repr

def targetOf (t : Nat) : Target :=
  ⟨t / 2 ^ 28 % 16, t / 2 ^ 26 % 4, t / 2 ^ 24 % 4, t / 2 ^ 22 % 4, t / 2 ^ 16 % 64, t % 65536⟩

/-- The target's encoding is one that R98 allows: fields below the named level read "not applicable". -/
def Target.formed (t : Target) : Bool :=
  t.division ≠ 2 ∧ t.rank ≠ 2 ∧ t.kind ≤ 9 ∧
  (if t.level = 1 then t.kind ≠ 0 ∧ t.die ≠ 3
   else t.kind = 0 ∧ t.index = 0xFFFF ∧
    (if t.level = 2 then (t.die = 1 ∨ t.die = 2) ∧ t.division ≠ 3 ∧ t.rank ≠ 3
     else if t.level = 3 then (t.die = 1 ∨ t.die = 2) ∧ t.division ≠ 3 ∧ t.rank = 3
     else if t.level = 4 then t.die ≠ 3 ∧ t.division = 3 ∧ t.rank = 3
     else (t.level = 5 ∨ t.level = 6) ∧ t.die = 3 ∧ t.division = 3 ∧ t.rank = 3))

/-- The target that names rank `r`, 0–7 (R36, R98). -/
def rankTarget (r : Nat) : Target := ⟨2, 1 + r / 4, r / 2 % 2, r % 2, 0, 0xFFFF⟩

/-- The target that names a unit (R36, R37, R98): a Fine channel lies in a division, and in no rank. -/
def unitTarget (kind i : Nat) : Target :=
  if kind = 4 then ⟨1, 1 + i / 6, i / 3 % 2, 3, 4, i⟩
  else if kind = 1 then { rankTarget (i / 6) with level := 1, kind := 1, index := i }
  else if kind = 2 then { rankTarget (i / 2) with level := 1, kind := 2, index := i }
  else if kind = 3 then { rankTarget (i / 4) with level := 1, kind := 3, index := i }
  else ⟨1, 0, 3, 3, kind, i⟩

/-- How many units a kind has (R24, R98). -/
def unitCount (kind : Nat) : Nat :=
  if kind = 1 then 48 else if kind = 2 then 16 else if kind = 3 then 32 else if kind = 4 then 12 else if kind = 7 then 2
  else if kind = 8 then 64 else if kind = 9 then 24 else 8

/-- The unit kind of the primary unit, for the types whose target is a unit (R99). -/
def unitKindOf (t : Nat) : Option Nat :=
  if t = tRouteConv ∨ t = tRouteTrig then some 2
  else if t = tUnitEdge ∨ t = tUnitPod then some 1
  else if t = tUnitMon then some 3
  else if t = tUnitMppt then some 6
  else if t = tEngHead ∨ t = tEngStage ∨ t = tEngOut then some 5
  else if t = tMeter then some 7
  else none

/-- The lowest level at which a source at die, division and rank (each where it is fixed) meets all channels of a mask. -/
def meetTarget (die div rank : Option Nat) (chans : List Nat) : Target :=
  let dies := chans.map (· / 24) ++ die.toList
  let divs := chans.map (· / 12) ++ div.toList
  let ranks := chans.map (· / 6) ++ rank.toList
  if !allSame dies then ⟨5, 3, 3, 3, 0, 0xFFFF⟩
  else if !allSame divs ∨ div.isNone then ⟨4, 1 + dies.headD 0, 3, 3, 0, 0xFFFF⟩
  else if !allSame ranks ∨ rank.isNone then ⟨3, 1 + dies.headD 0, divs.headD 0 % 2, 3, 0, 0xFFFF⟩
  else rankTarget (ranks.headD 0)

/-- Channels of a mask. -/
def maskChannels (m : Nat) : List Nat := (List.range 48).filter fun n => m / 2 ^ n % 2 = 1

/-- The meeting level's target of a ROUTE_TRIP record (R99, R182), where its source and mask exist.  A firmware trip bit arises on
the die of the first destination, below no division or rank of it.  DESIGN CHOICE, log entry 120. -/
def tripTarget (r : Rec) : Option Target :=
  let ch := maskChannels (tripMask r)
  let i := r.b 1
  if ch.isEmpty then none
  else match r.b 0 with
  | 0 => if i < 32 then some (meetTarget (some (i / 16)) (some (i / 8)) (some (i / 4)) ch) else none
  | 1 => if i < 32 then some (meetTarget (some (i / 16)) (some (i / 8)) (some (i / 4)) ch) else none
  | 2 => if i < 48 then some (meetTarget (some (i / 24)) (some (i / 12)) none ch) else none
  | 3 => some (meetTarget (some 0) none none ch)
  | 4 => if i < 2 then some (meetTarget (some i) none none ch) else none
  | 5 => if i < 8 then some ⟨5, 3, 3, 3, 0, 0xFFFF⟩ else none
  | 6 => some (meetTarget (ch.head?.map (· / 24)) none none ch)
  | _ => none

/-- The level that R99 requires of a type's target, where one is fixed. -/
def levelOf (t : Nat) : Option Nat :=
  if t = tSystem ∨ t = tRecSignal then some 5
  else if t = tLeg ∨ t = tPartner then some 2
  else if t = tCurve ∨ t = tBehave ∨ t = tSafety then some 4
  else if (unitKindOf t).isSome then some 1
  else none

/-- The target that a record must carry, where its primary unit exists (R98, R99, R493). -/
def wantTarget (r : Rec) : Option Target :=
  if r.typ = tLeg then (if r.b 4 < 48 then some (rankTarget (r.b 4 / 6)) else none)
  else if r.typ = tPartner then (if r.b 0 < 48 then some (rankTarget (r.b 0 / 6)) else none)
  else if r.typ = tRouteTrip then tripTarget r
  else match unitKindOf r.typ with
  | some k => if r.b 0 < unitCount k then some (unitTarget k (r.b 0)) else none
  | none => none

/-- The targets of the types whose place is fixed (R99). -/
def fixedTarget (t : Nat) : Option Target :=
  if t = tSystem ∨ t = tRecSignal then some ⟨5, 3, 3, 3, 0, 0xFFFF⟩
  else if t = tCurve ∨ t = tBehave then some ⟨4, 0, 3, 3, 0, 0xFFFF⟩
  else if t = tSafety then some ⟨4, 1, 3, 3, 0, 0xFFFF⟩
  else none

/-- A unit target agrees with R36 and R37 for the unit that it names, which exists (R98). -/
def Target.placed (t : Target) : Bool := t.level ≠ 1 ∨ (t.index < unitCount t.kind ∧ t = unitTarget t.kind t.index)

/-- Codes 0x25 and 0x26 of a record.  Of a primary unit that does not exist the target must name kind and index, and the
structural step rejects it with 0x30.  DEDUCED, log entry 80.  A target at the right level that names another die than the one
the record's type is bound to is code 0x25 (DESIGN CHOICE, log entry 99). -/
def targetCheck (r : Rec) : Nat :=
  let t := targetOf r.tgt
  if !t.formed ∨ (levelOf r.typ).any (· ≠ t.level) ∨ (fixedTarget r.typ).any (· ≠ t) ∨ (r.typ = tNote ∧ !t.placed) then 0x25
  else match wantTarget r with
  | some w => if w.level ≠ t.level then 0x25 else if w ≠ t then 0x26 else 0
  | none => match unitKindOf r.typ with
    | some k => if t.kind = k ∧ t.index = r.b 0 then 0 else 0x26
    | none => 0

/-- A pu36 pair whose upper bits are copies of bit 35 (R15). -/
def puPairOk (x : Nat) : Bool := (x / 2 ^ 35 = 0) ∨ (x / 2 ^ 35 = 2 ^ 29 - 1)

/-- An operand word of R101 within the range of its kind (R493). -/
def operandOk (w : Nat) : Bool :=
  let k := w / 4096
  let i := w % 4096
  (k = 0 ∧ i = 0) ∨ (k = 1 ∧ i ≤ 191) ∨ (k = 2 ∧ i ≤ 63) ∨ (k = 3 ∧ i ≤ 63) ∨ (k = 4 ∧ i ≤ 15)

/-- The `n` bytes from byte `i`: the first `count` name a unit and the rest hold 0xFF. -/
def filled (r : Rec) (i n count : Nat) : Bool :=
  (List.range n).all fun j => if j < count then r.b (i + j) ≠ 0xFF else r.b (i + j) = 0xFF

/-- The field ranges of R99 and the payload constraints of R493 (code 0x2A).  A leg index above 23, a trigger index of ENG_HEAD with
a bit that R249 does not name, and an index beyond the sources of kinds 3, 4 and 6 of ROUTE_TRIP are judged here.  DESIGN CHOICE,
log entry 119. -/
def fieldsOk (r : Rec) : Bool :=
  let b := r.b
  if r.typ = tSystem then
    (b 0 = 2 ∨ b 0 = 3 ∨ b 0 = 5) ∧ (b 1 = 1 ∨ b 1 = 3) ∧ 1 ≤ b 2 ∧ b 2 ≤ 24 ∧ b 3 < 32 ∧ b 4 ≤ 1
  else if r.typ = tLeg then b 0 ≤ 23 ∧ b 1 ≤ 2 ∧ b 2 ≤ 3 ∧ 1 ≤ b 3 ∧ b 3 ≤ 8 ∧ filled r 4 8 (b 3)
  else if r.typ = tPartner then b 2 ≤ 1 ∧ b 3 ≤ 1 ∧ b 0 ≠ b 1
  else if r.typ = tRouteConv then
    b 1 ≤ 15 ∧ b 2 ≤ 2 ∧ b 6 ≤ 1 ∧ (b 2 = 0 ∨ b 3 = 0) ∧ r.w16 4 ≤ (if b 2 = 1 then 15 else 63)
  else if r.typ = tRouteTrig then b 1 ≤ 3 ∧ b 3 ≤ 1 ∧ b 4 ≤ 1
  else if r.typ = tRouteTrip then
    b 0 ≤ 6 ∧ b 2 ≤ 2 ∧ tripMask r ≠ 0 ∧ (b 0 ≠ 3 ∨ b 1 = 0) ∧ (b 0 ≠ 4 ∨ b 1 ≤ 1) ∧ (b 0 ≠ 6 ∨ b 1 ≤ 15)
  else if r.typ = tUnitEdge then b 1 ≤ 2 ∧ b 2 ≤ 2 ∧ b 4 ≤ 1 ∧ b 5 ≤ 1
  else if r.typ = tUnitMon then b 1 ≤ 1
  else if r.typ = tUnitPod then b 1 ≤ 3 ∧ b 2 ≤ 3 ∧ b 3 ≤ 11 ∧ 1 ≤ b 4 ∧ b 4 ≤ 4
  else if r.typ = tEngHead then
    1 ≤ b 1 ∧ b 1 ≤ 48 ∧ b 2 ≤ 2 ∧ b 3 ≤ 3 ∧ r.w16 4 % 256 < 64 ∧ r.w16 4 / 256 < 4
  else if r.typ = tEngStage then
    ((List.range 4).all fun j => operandOk (r.w16 (4 + 2 * j))) ∧ ((List.range 8).all fun k => puPairOk (r.w64 (16 + 8 * k)))
  else if r.typ = tEngOut then 1 ≤ b 2 ∧ b 2 ≤ 6 ∧ filled r 3 6 (b 2)
  else if r.typ = tCurve then
    b 0 ≤ 3 ∧ b 1 ≤ 2 ∧ b 2 ≤ 1 ∧ 1 ≤ b 3 ∧ b 3 ≤ 16 ∧ ((List.range (b 3)).all fun k => puPairOk (r.w64 (16 + 16 * k)))
  else if r.typ = tBehave then
    -- R313: must-ride permits 0 to 2, must-trip must name 3; R315 gives frequency no current injection
    b 0 ≤ 3 ∧ b 1 ≤ 2 ∧ b 2 ≤ 1 ∧ b 3 ≤ 3 ∧ (b 1 ≠ 2 ∨ b 3 ≤ 2) ∧ (b 1 ≠ 0 ∨ b 3 = 3) ∧ (b 0 ≠ 3 ∨ b 3 ≠ 2)
  else if r.typ = tMeter then b 0 ≤ 1 ∧ b 1 ≤ 1 ∧ b 2 ≤ 1
  else if r.typ = tRecSignal then b 0 ≤ 63 ∧ b 1 ≤ 4 ∧ r.w16 4 ≤ 1023
  else true

/-- How many leading payload bytes name the place of a type that R494 allows once. -/
def placeBytes (t : Nat) : Option Nat :=
  if t = tSystem ∨ t = tSafety then some 0
  else if t = tLeg ∨ t = tRouteTrig ∨ t = tUnitEdge ∨ t = tUnitMon ∨ t = tUnitPod ∨ t = tUnitMppt ∨ t = tEngHead ∨
    t = tEngOut ∨ t = tMeter ∨ t = tRecSignal then some 1
  else if t = tEngStage then some 2
  else if t = tCurve ∨ t = tBehave then some 3
  else none

/-- The payload length that a record must have (R99). -/
def lenOk (r : RawRec) : Bool :=
  match typeRow r.typ with
  | none => true
  | some (_, n, _) => if r.typ = tCurve then 16 ≤ r.len ∧ r.len = 16 + 16 * at8 r.body 3 else r.len = n

/-- Reserved bytes and padding are zero (code 0x24). -/
def resOk (r : RawRec) : Bool :=
  let rs := match typeRow r.typ with | some (_, _, l) => l | none => []
  let pts := if r.typ = tCurve then (List.range (at8 r.body 3)).map fun k => (28 + 16 * k, 32 + 16 * k) else []
  ((rs ++ pts).all fun p => (slice r.pay p.1 p.2).all (· = 0#8)) ∧
    (slice r.body r.len (recSize r.len - 8)).all (· = 0#8)

/-- The format code of one record, in increasing order (R113 step 4), after records `seen` with `staged` bytes. -/
def recFormat (seen : List Rec) (staged : Nat) (r : RawRec) : Nat :=
  let x := r.toRec
  if (typeRow r.typ).isNone ∧ r.typ ≠ tNote then 0x20
  else if (r.typ = tNote ∧ r.sec = 7) ∨ (typeRow r.typ).any (fun y => y.1 ≠ r.sec) then 0x21
  else if 65528 < r.len ∨ !lenOk r then 0x22
  else if r.body.length < r.len then 0x23
  else if !resOk r then 0x24
  else if targetCheck x ≠ 0 then targetCheck x
  else if (placeBytes r.typ).any (fun n => seen.any fun y => y.typ = r.typ ∧ y.pay.take n = x.pay.take n) then 0x27
  else if r.typ ≠ tNote ∧ 524288 < staged + recSize r.len then 0x28
  else if !fieldsOk x then 0x2A
  else 0

/-- What decoding gives so far: the staged records with their indices, newest first, and the staged size (R104). -/
structure Decoded where
  recs : List (Nat × Rec) := []
  size : Nat := 0
deriving DecidableEq, Repr

/-- Decodes records in image order until one is rejected; a record stages its header, payload and padding (DESIGN CHOICE, log
entry 96). -/
def decodeRecs : List RawRec → Decoded → Except Reject Decoded
  | [], d => .ok d
  | r :: rs, d =>
    let c := recFormat (d.recs.map (·.2)) d.size r
    if c ≠ 0 then .error ⟨c, r.ix⟩
    else if r.typ = tNote then decodeRecs rs d
    else decodeRecs rs ⟨(r.ix, r.toRec) :: d.recs, d.size + recSize r.len⟩

/-- Required records (code 0x29, R113 step 5). -/
def missingCheck (rs : List (Nat × Rec)) : Option Reject :=
  let has := fun t => rs.any fun p => p.2.typ = t
  if !has tSystem ∨ !has tSafety then some ⟨0x29, noIx⟩
  else
    ((List.range 256).filterMap fun e =>
      let head := rs.find? fun p => p.2.typ = tEngHead ∧ p.2.b 0 = e
      let stages := rs.filter fun p => p.2.typ = tEngStage ∧ p.2.b 0 = e
      match head, stages with
      | none, [] => none
      | none, p :: _ => some ⟨0x29, p.1⟩
      | some h, ss => if (List.range (h.2.b 1)).all fun s => ss.any fun p => p.2.b 1 = s then none else some ⟨0x29, h.1⟩).head?

/-! ### Structural rules (R115) -/

/-- A structural failure: level (0 unit to 4 package), record index, code. -/
structure SErr where
  level : Nat
  ix : Nat
  code : Nat
deriving DecidableEq, Repr

/-- The failure that is reported first (R113 step 6); of two at one level and record, the one with the lower code.  DESIGN CHOICE, log
entry 118. -/
def SErr.before (a b : SErr) : Bool :=
  a.level < b.level ∨ (a.level = b.level ∧ (a.ix < b.ix ∨ (a.ix = b.ix ∧ a.code < b.code)))

/-- The first failure of a list. -/
def firstErr : List SErr → Option SErr
  | [] => none
  | e :: es => match firstErr es with
    | none => some e
    | some f => if e.before f then some e else some f

/-- One failure where `bad` holds. -/
def fail (bad : Bool) (level ix code : Nat) : List SErr := if bad then [⟨level, ix, code⟩] else []

/-- Failures of every record of a type. -/
def perRec (rs : List (Nat × Rec)) (t : Nat) (k : Nat → Rec → List SErr) : List SErr :=
  ((rs.filter fun p => p.2.typ = t).map fun p => k p.1 p.2).flatten

/-- Valid variants of a stage type (R100, R244). -/
def variantOk (t v : Nat) : Bool :=
  if t = 0x0C then v ≤ 2
  else if t = 0x02 ∨ t = 0x03 ∨ t = 0x04 ∨ t = 0x08 ∨ t = 0x09 ∨ t = 0x0B then v ≤ 1
  else 1 ≤ t ∧ t ≤ 0x0D ∧ v = 0

/-- Highest trigger index by kind, of a converter and of an engine (R140, R249); a strobe beyond 3 is a unit that does not exist
(0x30).  DESIGN CHOICE, log entry 119. -/
def convTrigMax (k : Nat) : Nat := if k = 1 then 47 else if k = 2 then 3 else if k = 3 then 31 else 255
def engTrigMax (k : Nat) : Nat := if k = 0 then 15 else if k = 1 then 47 else if k = 2 then 3 else 63

/-- A recorder source exists (R147, R448), where an engine has `count` stages: a lane of a stage, or an input slot. -/
def recSourceOk (count : Nat → Nat) (k i : Nat) : Bool :=
  if k = 0 then i ≤ 0xFF ∨ (0x100 ≤ i ∧ i ≤ 0x10B)
  else if k = 1 then i ≤ 0x7FF ∧ (192 ≤ i % 256 ∨ i % 256 / 4 < count (i / 256))
  else if k = 2 then i ≤ 63
  else if k = 3 then i ≤ 31
  else i ≤ 47 ∨ (0x100 ≤ i ∧ i ≤ 0x12F)

/-- The four operand words of an ENG_STAGE record (R101). -/
def operands (r : Rec) : List Nat := (List.range 4).map fun j => r.w16 (4 + 2 * j)

/-- Unit level: codes 0x30 to 0x33.  A rule that the count of an ENG_HEAD decides involves that record (R113). -/
def unitErrs (rs : List (Nat × Rec)) : List SErr :=
  let st := rs.map (·.2)
  let headIx := fun e => match rs.find? fun p => p.2.typ = tEngHead ∧ p.2.b 0 = e with | some p => p.1 | none => 0
  let headCount := fun e => match recAt tEngHead e st with | some h => h.b 1 | none => 0
  let stageAt := fun e s => rs.find? fun p => p.2.typ = tEngStage ∧ p.2.b 0 = e ∧ p.2.b 1 = s
  perRec rs tPartner (fun ix r => fail (47 < r.b 0 ∨ 47 < r.b 1) 0 ix 0x30)
  ++ perRec rs tLeg (fun ix r => fail ((legChannels r).any (47 < ·)) 0 ix 0x30)
  ++ perRec rs tUnitEdge (fun ix r => fail (47 < r.b 0 ∨ (r.b 3 ≠ 0xFF ∧ 47 < r.b 3)) 0 ix 0x30)
  ++ perRec rs tUnitMon (fun ix r => fail (31 < r.b 0 ∨ (r.b 2 ≠ 0xFF ∧ 47 < r.b 2)) 0 ix 0x30
      ++ fail (!(1 ≤ r.b 3 ∧ r.b 3 ≤ r.b 4 ∧ r.b 4 ≤ 15)) 0 ix 0x33)
  ++ perRec rs tUnitPod (fun ix r => fail (47 < r.b 0) 0 ix 0x30)
  ++ perRec rs tUnitMppt (fun ix r => fail (7 < r.b 0 ∨ 31 < r.b 2 ∨ (recAt tLeg (r.b 1) st).isNone) 0 ix 0x30)
  ++ perRec rs tRouteConv (fun ix r => fail (15 < r.b 0 ∨ (r.b 2 = 0 ∧ 7 < r.b 3)) 0 ix 0x30)
  ++ perRec rs tRouteTrig (fun ix r => fail (15 < r.b 0 ∨ convTrigMax (r.b 1) < r.b 2) 0 ix 0x30)
  ++ perRec rs tRouteTrip (fun ix r => fail ((r.b 0 ≤ 1 ∧ 31 < r.b 1) ∨ (r.b 0 = 2 ∧ 47 < r.b 1) ∨ (r.b 0 = 5 ∧ 7 < r.b 1))
      0 ix 0x30)
  ++ perRec rs tMeter (fun ix r => fail (r.b 1 = 1 ∧ (List.range 6).any fun j => 11 < r.b (4 + j)) 0 ix 0x30)
  ++ perRec rs tRecSignal (fun ix r =>
      let e := r.w16 2 / 256
      fail (!recSourceOk headCount (r.b 1) (r.w16 2)) 0 (if r.b 1 = 1 ∧ e < 8 then max ix (headIx e) else ix) 0x30)
  ++ perRec rs tEngHead (fun ix r => fail (7 < r.b 0 ∨ engTrigMax (r.b 3) < r.w16 4 % 64) 0 ix 0x30)
  ++ perRec rs tEngStage (fun ix r =>
      let e := r.b 0
      let fed := engFed st e
      fail (7 < e) 0 ix 0x30
      ++ fail (headCount e ≤ r.b 1) 0 (max ix (headIx e)) 0x30
      ++ fail (!variantOk (r.b 2) (r.b 3)) 0 ix 0x31
      ++ fail ((operands r).any fun w => w / 4096 = 1 ∧ headCount e ≤ w % 4096 / 4) 0 (max ix (headIx e)) 0x32
      ++ fail ((operands r).any fun w => w / 4096 = 2 ∧ !fed.contains (w % 4096)) 0 ix 0x32)
  ++ perRec rs tEngOut (fun ix r =>
      let e := r.b 0
      fail (7 < e ∨ (outLegs r).any fun l => (recAt tLeg l st).isNone) 0 ix 0x30
      ++ fail (headCount e ≤ r.b 1) 0 (max ix (headIx e)) 0x30
      ++ match stageAt e (r.b 1) with
        | some p => fail (p.2.b 2 ≠ 0x0C ∧ r.b 1 < headCount e) 0 (max ix p.1) 0x31
        | none => [])

/-- Records of a list before index `ix`. -/
def earlier (rs : List (Nat × Rec)) (ix : Nat) : List Rec := (rs.filter fun p => p.1 < ix).map (·.2)

/-- No two members of a list are equal. -/
def distinct : List Nat → Bool
  | [] => true
  | x :: xs => !xs.contains x && distinct xs

/-- Rank level: codes 0x34 to 0x37. -/
def rankErrs (rs : List (Nat × Rec)) : List SErr :=
  let st := rs.map (·.2)
  perRec rs tPartner (fun ix r =>
      let used := ((recsOf tPartner (earlier rs ix)).map fun x => [x.b 0, x.b 1]).flatten
      fail (r.b 0 / 6 ≠ r.b 1 / 6) 1 ix 0x34 ++ fail (used.contains (r.b 0) ∨ used.contains (r.b 1)) 1 ix 0x35)
  ++ perRec rs tLeg (fun ix r =>
      let used := ((recsOf tLeg (earlier rs ix)).map legChannels).flatten
      fail (!distinct (legChannels r) ∨ (legChannels r).any used.contains) 1 ix 0x35)
  ++ perRec rs tUnitMon (fun ix r => fail (r.b 1 = 1 ∧ (r.b 2 = 0xFF ∨ r.b 2 / 6 ≠ r.b 0 / 4)) 1 ix 0x36)
  ++ perRec rs tUnitMppt (fun ix r => match recAt tLeg (r.b 1) st with
      | some l => fail (l.b 1 ≠ 1 ∨ (legChannels l).any fun n => n / 6 ≠ r.b 2 / 4) 1 ix 0x37
      | none => [])

/-- Division and die level: codes 0x38 to 0x3A. -/
def dieErrs (rs : List (Nat × Rec)) : List SErr :=
  let st := rs.map (·.2)
  perRec rs tUnitPod (fun ix r => fail (r.b 2 ≠ r.b 0 / 12 ∨ r.b 3 ≠ r.b 0 % 12) 2 ix 0x38)
  ++ perRec rs tUnitEdge (fun ix r => fail (r.b 3 ≠ 0xFF ∧ r.b 3 / 24 ≠ r.b 0 / 24) 3 ix 0x3A)
  ++ perRec rs tEngHead (fun ix r =>
      -- R113: the highest record by which the failure shows
      let parts := (rs.filter fun p => (p.2.typ = tRouteConv ∧ p.2.b 2 = 0 ∧ p.2.b 3 = r.b 0) ∨
        (p.2.typ = tEngOut ∧ p.2.b 0 = r.b 0)).map (·.1)
      let at' := (parts.filter fun i => !dieRule (earlier rs (i + 1)) (r.b 0) (r.b 1)).foldl min noIx
      fail (r.b 2 = 1 ∧ !dieRule st (r.b 0) (r.b 1)) 3 (if 24 < r.b 1 then ix else max ix (if at' = noIx then ix else at')) 0x39)

/-- Switch counts of a phase leg (R115, R248). -/
def switchesOk (levels n : Nat) : Bool :=
  (levels = 2 ∧ n = 2) ∨ (levels = 3 ∧ (n = 4 ∨ n = 6)) ∨ (levels = 5 ∧ n = 8)

/-- The pairs, channel a first, that a phase leg must declare (R248). -/
def legPairs (levels : Nat) (r : Rec) : List (Nat × Nat) :=
  ((List.range (levels - 1)).map fun j => (r.b (4 + j), r.b (4 + levels - 1 + j)))
    ++ (if r.b 3 = 6 then [(r.b 9, r.b 8)] else [])

/-- The points of a curve: threshold and duration. -/
def curvePoints (r : Rec) : List (Int × Nat) :=
  (List.range (r.b 3)).map fun k => (sext 36 (r.w64 (16 + 16 * k)), r.w32 (24 + 16 * k))

/-- Curve `i` nests in curve `o` (R312). -/
def nests (side : Nat) (i o : Rec) : Bool :=
  (curvePoints o).all fun po => (curvePoints i).any fun pi =>
    pi.2 ≤ po.2 ∧ (if side = 0 then po.1 ≤ pi.1 else pi.1 ≤ po.1)

/-- The durations of a list do not decrease. -/
def rising : List (Int × Nat) → Bool
  | a :: b :: t => a.2 ≤ b.2 && rising (b :: t)
  | _ => true

/-- Where a converter entry's results go (R115 0x3D): one item for each destination, with its record. -/
def entryDests (rs : List (Nat × Rec)) (x : Nat) : List Nat :=
  (rs.map fun p =>
    let r := p.2
    if r.typ = tRouteConv then (if r.b 0 * 16 + r.b 1 = x then [p.1] else [])
    else if r.typ = tUnitMppt then (([r.b 3, r.b 4].filter (· = x)).map fun _ => p.1)
    else if r.typ = tMeter ∧ r.b 1 = 0 then ((((List.range 6).map fun j => r.b (4 + j)).filter (· = x)).map fun _ => p.1)
    else []).flatten

/-- Package level: codes 0x3B to 0x43.  Leg counts agree with TOPO_SYSTEM where as many legs are declared and every leg index lies
below the count; phases agree where every phase leg's phase lies below theirs (DESIGN CHOICE, log entries 101 and 102). -/
def packageErrs (rs : List (Nat × Rec)) : List SErr :=
  let st := rs.map (·.2)
  let levels := sysLevels st
  let sys := rs.find? fun p => p.2.typ = tSystem
  let sysIx := match sys with | some p => p.1 | none => 0
  let sysR : Rec := match sys with | some p => p.2 | none => ⟨0, 0, []⟩
  let legs := rs.filter fun p => p.2.typ = tLeg
  let declared := (recsOf tPartner st).map fun r => (r.b 0, r.b 1)
  let fn := sysFunctions st
  let phaseOut := (recsOf tEngOut st).any fun o => (outLegs o).any fun l => (recAt tLeg l st).any fun r => r.b 1 = 0
  -- 0x3B
  fail (legs.length < sysR.b 2) 4 (max sysIx (legs.foldl (fun a p => max a p.1) 0)) 0x3B
  ++ (match (legs.map (·.1))[sysR.b 2]? with | some ix => [⟨4, max ix sysIx, 0x3B⟩] | none => [])
  ++ perRec rs tLeg (fun ix r =>
      fail (sysR.b 2 ≤ r.b 0) 4 (max ix sysIx) 0x3B
      ++ (if r.b 1 ≠ 0 then [] else
        if sysR.b 1 ≤ r.b 2 ∨ !switchesOk levels (r.b 3) then [⟨4, max ix sysIx, 0x3B⟩]
        else
          let miss := (legPairs levels r).filter fun p => !declared.contains p
          let named := (rs.filter fun p => p.2.typ = tPartner ∧ miss.any fun m =>
            p.2.b 0 = m.1 ∨ p.2.b 0 = m.2 ∨ p.2.b 1 = m.1 ∨ p.2.b 1 = m.2).map (·.1)
          fail (!miss.isEmpty) 4 (named.foldl max (max ix sysIx)) 0x3B))
  -- 0x3C
  ++ perRec rs tEngOut (fun ix r =>
      let before := ((recsOf tEngOut (earlier rs ix)).map fun o => engWritten st (o.b 0)).flatten
      fail ((engWritten st (r.b 0)).any before.contains) 4 ix 0x3C)
  -- 0x3D
  ++ perRec rs tRouteConv (fun ix r =>
      fail (r.b 2 ≤ 1 ∧ (recsOf tRouteConv (earlier rs ix)).any fun x => x.b 2 = r.b 2 ∧ x.b 3 = r.b 3 ∧ x.w16 4 = r.w16 4)
        4 ix 0x3D)
  ++ ((List.range 256).map fun x => match (entryDests rs x)[8]? with | some ix => [⟨4, ix, 0x3D⟩] | none => []).flatten
  -- 0x3E
  ++ perRec rs tEngStage (fun ix r => fail (r.b 2 = 0x0C ∧ r.b 3 = 2 ∧ levels = 2) 4 ix 0x3E)
  -- 0x3F
  ++ perRec rs tRouteTrip (fun ix r => fail (r.b 2 = 1 ∧ (maskChannels (tripMask r)).any fun n =>
      !((pairOf st n).any fun p => p.forceOn)) 4 ix 0x3F)
  -- 0x40
  ++ perRec rs tCurve (fun ix r =>
      fail (!rising (curvePoints r)) 4 ix 0x40
      ++ ((rs.filter fun p => p.2.typ = tCurve ∧ p.2.b 0 = r.b 0 ∧ p.2.b 2 = r.b 2 ∧ p.2.b 1 < r.b 1).map fun p =>
        fail (!nests (r.b 2) r p.2) 4 (max ix p.1) 0x40).flatten)
  -- 0x41
  ++ perRec rs tMeter (fun ix r =>
      let chans := (List.range 6).map fun j => r.b (4 + j)
      let used := ((recsOf tMeter (earlier rs ix)).filter fun x => x.b 1 = r.b 1 ∧ x.b 0 ≠ r.b 0).map
        (fun x => (List.range 6).map fun j => x.b (4 + j)) |>.flatten
      fail (chans.any used.contains ∨ (r.b 1 = 0 ∧ chans.any fun x => (recAt tRouteTrig (x / 16) st).isNone)) 4 ix 0x41)
  -- 0x42
  ++ perRec rs tRecSignal (fun ix r =>
      let sum := ((recsOf tRecSignal (earlier rs ix)) ++ [r]).foldl (fun (a : Rat) x => a + 2 / ((x.w16 4 : Rat) + 1)) 0
      fail (decide (64 < sum)) 4 ix 0x42)
  -- 0x43
  ++ fail ((fn % 4 ≠ 0 ∧ !phaseOut) ∨ (fn / 4 % 2 = 1 ∧ (recsOf tUnitMppt st).isEmpty) ∨
      (fn / 16 % 2 = 1 ∧ (recsOf tCurve st).isEmpty)) 4 sysIx 0x43
  ++ perRec rs tUnitMppt (fun ix _ => fail (fn / 4 % 2 = 0) 4 ix 0x43)
  ++ perRec rs tCurve (fun ix _ => fail (fn / 16 % 2 = 0) 4 ix 0x43)
  ++ perRec rs tBehave (fun ix _ => fail (fn / 16 % 2 = 0) 4 ix 0x43)

/-- The structural check: the first failure of R113 step 6. -/
def structCheck (rs : List (Nat × Rec)) : Option SErr :=
  firstErr (unitErrs rs ++ rankErrs rs ++ dieErrs rs ++ packageErrs rs)

/-! ### The whole judgement (R113) -/

/-- What judging an image gives: the staged records, or the rejection; and the staged size so far. -/
structure Judged where
  result : Except Reject (List Rec)
  staged : Nat

/-- Judges an image in the order of R113; of an image rejected before its records decode the staged size is 0 (DESIGN CHOICE, log
entry 97). -/
def judge (img : List Byte) (keys : List KeySlot) (otpRollback : Nat) : Judged :=
  let h := headerCheck img
  if h ≠ 0 then ⟨.error ⟨h, noIx⟩, 0⟩
  else if sigCheck img keys ≠ 0 then ⟨.error ⟨sigCheck img keys, noIx⟩, 0⟩
  else if at32 img 0x10 < otpRollback then ⟨.error ⟨0x09, noIx⟩, 0⟩
  else match decodeRecs (parseImg img) {} with
  | .error r => ⟨.error r, 0⟩
  | .ok d =>
    let rs := d.recs.reverse
    match missingCheck rs with
    | some r => ⟨.error r, d.size⟩
    | none => match structCheck rs with
      | some e => ⟨.error ⟨e.code, e.ix⟩, d.size⟩
      | none => ⟨.ok (rs.map (·.2)), d.size⟩

end Sys2Proof.Machine
end

