-- ==== Sys2Proof/Machine/Burst.lean ====
section
/-!
DEFINITION. Burst admission (R62–R64) and the energy it rests on.
-/

namespace Sys2Proof.Machine

def pwrA (g : PwrSt → PwrSt) : Act := hidA fun h => { h with pwr := g h.pwr }

/-- The abort level of R63: values outside 10 000 to 25 000 mV act as the nearer end (R71). -/
def abortMv (s : State) : Nat := max 10000 (min 25000 (s.f F.HARV_STORE_CFG_abort_mv))

/-- The store energy of R62 in µJ, exactly. -/
def storeEnergy (s : State) (vb : Nat) : Rat :=
  (s.f F.HARV_STORE_CFG_cap_mf : Rat) * ((vb : Rat) ^ 2 - (abortMv s : Rat) ^ 2) / 2000

/-- Admission of a burst whose declared energy is in the register `e`: the code of R62, steps 2 and 3; the source VSUP admits
every burst that step 2 has not refused; a battery has no capacitance, so `cap_mf` is read in capacitor mode alone.
DEDUCED, log entries 39 and 95.  A path that draws from neither source is judged by the one that it last had.  DESIGN CHOICE,
log entry 115. -/
def burstCode (e : Nat) (s : State) : Nat :=
    let uj := (s.rd e).toNat
    if uj = 0 ∨ 100000000 < uj then 6
    else if !s.on F.HARV_STAT_src_vb then 0
    else if s.on F.HARV_STORE_CFG_mode then
      (if abortMv s + 1000 ≤ s.f F.HARV_V0_vb_mv then 0 else 1)
    else if s.f F.HARV_STORE_CFG_cap_mf = 0 then 1
    else if (uj : Rat) + ((s.rd R.HARV_RESERVE).toNat : Rat) ≤ storeEnergy s (s.f F.HARV_V0_vb_mv) then 0 else 1

/-- Another transition, of power or of mode, a burst or an enable change is in progress (R62, step 1; R58). -/
def burstBlocked (s : State) : Bool :=
  s.hid.pwr.trans ≠ .none ∨ s.on F.SYS_MODE_STAT_busy ∨ s.on F.HARV_BURST_STAT_busy ∨ s.on F.SYS_ISLAND_STAT_busy

/-- A burst of type `ty` is refused with `code`; `type` names the refused request unless a burst is in progress, whose type it
keeps: DESIGN CHOICE, log entry 70. -/
def burstRefuse (ty code : Nat) : Act :=
  seq [whenA (fun s => !s.on F.HARV_BURST_STAT_busy) (setF F.HARV_BURST_STAT_type ty),
    setF F.HARV_BURST_STAT_last_code code, setB F.HARV_EVENT_burst_refused]

/-- A burst of type `ty` starts. -/
def burstStart (ty : Nat) : Act :=
  seq [setF F.HARV_BURST_STAT_type ty, setF F.HARV_BURST_STAT_last_code 0, setB F.HARV_BURST_STAT_busy]

/-- The burst in progress ends with `code`; AUXEN opens (R64). -/
def burstEnd (code : Nat) : Act := whenA (fun s => s.on F.HARV_BURST_STAT_busy)
  (seq [clrB F.HARV_BURST_STAT_busy, setF F.HARV_BURST_STAT_last_code code, pwrA fun p => { p with auxen := false }])

/-- The code of R62 for a flash burst. -/
def flashAdmit (s : State) : Nat := if burstBlocked s then 3 else burstCode R.HARV_E_FLASH s

/-- A flash burst is in progress (R64). -/
def flashRunning (s : State) : Bool := s.on F.HARV_BURST_STAT_busy ∧ s.f F.HARV_BURST_STAT_type = 3

/-- Code of loss of energy or of NRST, with which a departure in progress ends what it overtakes (R69). -/
def lossCode (s : State) : Nat := if s.hid.pwr.byNrst then 11 else 10

end Sys2Proof.Machine
end

