-- ==== Sys2Proof/Machine/Mem.lean ====
section
/-!
DEFINITION. External memory (spec/18): the LPDDR4X contents and the QSPI master.
-/

namespace Sys2Proof.Machine

def memA (g : MemSt → MemSt) : Act := hidA fun h => { h with mem := g h.mem }

/-! ### LPDDR4X (R446) -/

/-- The installed size in bytes (R456). -/
def memSize (s : State) : Nat := 2 ^ (30 + s.f F.MEMC_CFG_size)

/-- LPDDR4X can be used: FULL, and trained. -/
def memReady (s : State) : Bool := s.hid.pwr.st = .full ∧ s.on F.MEMC_STAT_ready

/-- A byte of LPDDR4X, of the flash, of the SRAM. -/
def State.lpByte (s : State) (a : Nat) : Byte := s.lpddr.get ramBlank a
def State.flByte (s : State) (a : Nat) : Byte := s.flash.get flashBlank a
def State.srByte (s : State) (a : Nat) : Byte := s.sram.get ramBlank a

/-- Bytes of LPDDR4X written from `a` on, those below the installed size. -/
def lpWrite (a : Nat) (bs : List Byte) : Act := fun s =>
  (bs.zipIdx.filter fun x => decide (a + x.2 < memSize s)).map fun x => .lpddr (a + x.2) x.1

/-- Training at LEAN to FULL (R446). -/
def trainA (ok : Bool) (size : BitVec 2) : Act := seq [
  fun _ => [.lpddrLost], setF F.MEMC_CFG_size size.toNat, setF F.MEMC_STAT_ready (b2n ok),
  only (!ok) (setB F.MEMC_STAT_mem_fail)]

/-- FULL is left (R59): contents are lost. -/
def trainOff : Act := seq [fun _ => [.lpddrLost], clrB F.MEMC_STAT_ready]

/-- MR4_READ (R446): the refresh interval derates by temperature. -/
def mr4Take (v : Byte) : Act := whenA (fun s => memReady s ∧ s.island 12) (memA fun m => { m with mr4 := v })

/-- A write of `MEMC_CFG`: in FULL discarded with an access error (R456). -/
def memcCfgWrite (p : Port) (v : Word) : Act := fun s =>
  if s.hid.pwr.st = .full then accErr p errRefused R.MEMC_CFG s else setF F.MEMC_CFG_rate v.toNat s

/-! ### QSPI flash (R444, R445) -/

/-- The size of the flash in bytes. -/
def flashSize (s : State) : Nat := 2 ^ s.f F.QSPI_CFG_size

/-- Bytes `a` to `a + n - 1` of the flash. -/
def flashBytes (s : State) (a n : Nat) : List Byte := (List.range n).map fun i => s.flByte (a + i)

/-- Programming clears bits and sets none (NOR flash).  PRESUMED, log entry 14. -/
def flashProgram (a : Nat) (bs : List Byte) : Act := fun s => bs.zipIdx.map fun x => .flash (a + x.2) (s.flByte (a + x.2) &&& x.1)

/-- Bytes `a` to `a + n - 1` of the flash become erased. -/
def flashErase (a n : Nat) : Act := fun _ => [.flashErase a (a + n)]

/-- Bytes `a` to `a + n - 1` of the flash take undefined contents.  DESIGN CHOICE, log entry 27. -/
def flashUndef (a n : Nat) : Act := fun s =>
  ((List.range n).map fun i => .flash (a + i) (Config.freeFlash s.fresh (a + i))) ++ [.fresh]

/-- A Fingering LOAD reads from flash (R445). -/
def loadFromFlash (s : State) : Bool := s.f F.FING_STAT_loader = 1 ∧ s.hid.fing.flash

/-- The range and alignment check of R445. -/
def qspiRange (s : State) (op a len : Nat) : Bool :=
  match op with
  | 1 => 1 ≤ len ∧ len ≤ 16384 ∧ a + len ≤ flashSize s
  | 2 => len % 256 = 0 ∧ 256 ≤ len ∧ len ≤ 16384 ∧ a % 256 = 0 ∧ a + len ≤ flashSize s
  | 3 => a % 4096 = 0 ∧ a + 4096 ≤ flashSize s
  | 4 => a % 65536 = 0 ∧ a + 65536 ≤ flashSize s
  | _ => false

/-- A write of `QSPI_CMD` (R445). -/
def qspiCmd (v : Word) : Act := fun s =>
  let op := v.toNat % 8
  let len := v.toNat / 2 ^ 16 % 2 ^ 15
  let a := s.f F.QSPI_ADDR_addr
  if s.on F.QSPI_STAT_busy ∨ loadFromFlash s then setF F.QSPI_STAT_result 0x20 s
  else if !qspiRange s op a len then setF F.QSPI_STAT_result 0x21 s
  else
    let code : Nat := if op = 1 then 0 else flashAdmit s
    if code ≠ 0 then seq [setF F.QSPI_STAT_result code, burstRefuse 3 code] s
    else seq [setF F.QSPI_STAT_result 0, setB F.QSPI_STAT_busy, setF F.QSPI_STAT_done_pages 0,
      only (op ≠ 1) (burstStart 3), memA fun m => { m with qspi := some ⟨op, a, len⟩ }] s

/-- The bytes of `QSPI_BUF`. -/
def qspiBuf (s : State) (n : Nat) : List Byte :=
  (((List.range ((n + 3) / 4)).map fun i => leBytes 4 (s.rd (R.QSPI_BUF i)).toNat).flatten).take n

/-- Bytes written to `QSPI_BUF` from its start on. -/
def bufFill (bs : List Byte) : Act := forEach bs.zipIdx fun x => fun s =>
  [.reg (R.QSPI_BUF (x.2 / 4)) ((Fld.mk (R.QSPI_BUF (x.2 / 4)) (8 * (x.2 % 4) + 7) (8 * (x.2 % 4))).put x.1.toNat
    (s.rd (R.QSPI_BUF (x.2 / 4))))]

/-- QSPI_OP_DONE (R445): `pages` pages programmed; `cut` before the end, or with a flash failure.  With MEM disabled a program ends
after the pages that the command names. -/
def qspiDone (pages : Nat) (cut bad : Bool) : Act := fun s =>
  match s.hid.mem.qspi with
  | none => []
  | some o =>
    let whole := !cut && !bad && !(decide (o.op = 2) && !s.island 12 && decide (pages < o.len / 256))
    let n : Nat := if whole then o.len / 256 else min pages (o.len / 256)
    let effect : Act :=
      if o.op = 1 then only whole (bufFill (flashBytes s o.addr o.len))
      else if o.op = 2 then seq [flashProgram o.addr (qspiBuf s (256 * n)), setF F.QSPI_STAT_done_pages n,
        only (bad ∧ 256 * n < o.len) (flashUndef (o.addr + 256 * n) 256)]
      else
        let size := if o.op = 3 then 4096 else 65536
        if whole then flashErase o.addr size else flashUndef o.addr size
    let code : Act :=
      if bad then setF F.QSPI_STAT_result 0x22
      else if whole then setF F.QSPI_STAT_result 0
      else if s.hid.pwr.trans = .toHarvest then setF F.QSPI_STAT_result (lossCode s)
      else fun t => setF F.QSPI_STAT_result (Config.freeCode t.fresh).toNat t ++ [.fresh]
    seq [effect, code, clrB F.QSPI_STAT_busy, whenA flashRunning (burstEnd 0), memA fun m => { m with qspi := none }] s

/-- An operation that no QSPI_OP_DONE ended before its island or its supply went (R445): the page in progress has completed and no
later one is programmed; which one it was is free.  DESIGN CHOICE, log entry 27. -/
def qspiCut : Act := withEnv fun n s =>
  match s.hid.mem.qspi with
  | none => []
  | some o => qspiDone (n % (o.len / 256) + 1) true false s

end Sys2Proof.Machine
end

