-- ==== Sys2Proof/Machine/Boot.lean ====
section
/-!
DEFINITION. Boot, field update, settings confirmation, the key store, sealing and attestation (spec/19).
-/

namespace Sys2Proof.Machine

def bootA (g : BootSt → BootSt) : Act := hidA fun h => { h with boot := g h.boot }
def otpA (g : OtpSt → OtpSt) : Act := hidA fun h => { h with otp := g h.otp }

/-- The register words from the offsets `off` on, little-endian from bytes. -/
def wordsPut (off : Nat → Nat) (n : Nat) (bs : List Byte) : Act := forEach (List.range n) fun i =>
  setW (off i) (BitVec.ofNat 32 (leNat ((bs.drop (4 * i)).take 4)))

/-- The bytes of `n` register words. -/
def wordsGet (s : State) (off : Nat → Nat) (n : Nat) : List Byte :=
  ((List.range n).map fun i => leBytes 4 (s.rd (off i)).toNat).flatten

/-- The bytes of a digest. -/
def digestBytes (d : BitVec 512) : List Byte := leBytes 64 d.toNat

/-- An update block is being written, or CONFIRM runs; an update command is refused 0x8B during either, and R466 says so of the
former alone.  DEDUCED, log entry 109. -/
def bootBusy (s : State) : Bool := s.on F.BOOT_UPD_STAT_busy ∨ s.hid.boot.confirm
def secBusy (s : State) : Bool := s.hid.boot.sec.isSome

/-! ### The directory (R458) -/

/-- Regions of a directory: offset and size. -/
def dirRegions (d : List Byte) : List (Nat × Nat) :=
  [(at32 d 0x08, at32 d 0x0C), (at32 d 0x10, at32 d 0x14), (at32 d 0x18, at32 d 0x20), (at32 d 0x1C, at32 d 0x20)]

def apart (a b : Nat × Nat) : Bool := a.2 = 0 ∨ b.2 = 0 ∨ a.1 + a.2 ≤ b.1 ∨ b.1 + b.2 ≤ a.1

def allApart : List (Nat × Nat) → Bool
  | [] => true
  | a :: l => l.all (apart a) && allApart l

/-- The checks of R461 step 1. -/
def dirCheck (d : List Byte) : Nat :=
  if slice d 0 4 ≠ [0x48#8, 0x5A#8, 0x42#8, 0x54#8] ∨ at16 d 4 ≠ 1 ∨ crc32c (d.take 0xFFC) ≠ BitVec.ofNat 32 (at32 d 0xFFC) then 0x70
  else
    let n := at8 d 7
    let rs := dirRegions d
    if n < 20 ∨ 28 < n ∨ 3 < at8 d 6 ∨ 1310720 < at32 d 0x0C ∨ 4194304 < at32 d 0x14 ∨ at32 d 0x20 < 65536 ∨
        1048576 < at32 d 0x20 ∨ !(rs.all fun r => r.2 = 0 ∨ (r.1 % 4096 = 0 ∧ r.1 + r.2 ≤ 2 ^ n)) ∨
        !allApart ((0, 4096) :: rs) then 0x71
    else 0

/-- Public key `i` of a directory. -/
def dirKey (d : List Byte) (i : Nat) : List Byte := slice d (0x40 + 136 * i) (0x40 + 136 * i + 136)

/-- The keys that SEC holds after the directory is read (R461 step 2, R464). -/
def keysOf (s : State) (d : List Byte) : List (Option (List Byte)) := (List.range 4).map fun i =>
  let k := dirKey d i
  if k.any (· ≠ 0#8) ∧ bit s.hid.otp.prog i ∧ sha512 k = s.hid.otp.hash.getD i 0#512 then some k else none

/-- The key store as a verifier sees it (R103, R464). -/
def keySlots (s : State) : List KeySlot := (List.range 4).map fun i =>
  { programmed := bit s.hid.otp.prog i, revoked := bit s.hid.otp.rev i, key := (s.hid.boot.keys.getD i none) }

/-- The directory takes effect (R461 steps 1 and 2). -/
def dirTake (d : List Byte) (slow : Bool) : Act := fun s => seq [
  setF F.QSPI_CFG_size (at8 d 7), setF F.QSPI_CFG_mode (if slow then 0 else at8 d 6),
  bootA fun b => { b with dir := d, keys := keysOf s d }] s

/-! ### Images (R459, R461) -/

/-- The firmware header, R461 step 3. -/
def fwHeader (s : State) (img : List Byte) (size : Nat) : Nat :=
  let len := at32 img 8
  let sig := at32 img 0x20
  if slice img 0 4 ≠ [0x48#8, 0x5A#8, 0x46#8, 0x57#8] ∨ at16 img 4 ≠ 1 ∨ at16 img 6 ≠ 0x8400 ∨ len % 16 ≠ 0 ∨ len < 256 ∨
      size < len ∨ 1310720 < len ∨ at32 img 0x18 % 2 ≠ 0 ∨ sig ≤ at32 img 0x18 ∨ sig % 16 ≠ 0 ∨ sig + 144 ≠ len ∨
      (slice img 0x0D 0x10 ++ slice img 0x1E 0x20 ++ slice img 0x24 0x40).any (· ≠ 0#8) then 0x72
  else if 0xB1 < at8 img 0x0C then 0x73
  else if leNat (slice img 0x10 0x18) < s.hid.otp.fw then 0x74
  else 0

/-- The firmware signature, R461 step 4. -/
def fwSig (img : List Byte) (keys : List KeySlot) : Nat :=
  let sig := at32 img 0x20
  let g := slice img sig (sig + 144)
  if at16 g 0 ≠ tSig ∨ at16 g 2 ≠ 136 ∨ at32 g 4 ≠ 0x5FC0FFFF ∨ 3 < at8 g 8 ∨ at8 g 9 ≠ 0 ∨ at16 g 10 ≠ 0 then 0x77
  else
    let k := keys.getD (at8 g 8) {}
    if !k.programmed then 0x75
    else if k.revoked then 0x76
    else match k.key with
    | none => 0x79
    | some key => if ecdsaVerify key (sha512 (img.take sig)) (slice g 12 144) then 0 else 0x77

/-- The firmware image in a region. -/
def fwImage (s : State) (d : List Byte) : List Byte :=
  flashBytes s (at32 d 0x08) (min (at32 d 0x0C) (max 64 (leNat (flashBytes s (at32 d 0x08 + 8) 4))))

/-- A Fingering image under R95, R96 and R103, in the order of R113 steps 1 to 3. -/
def fgCheck (s : State) (img : List Byte) : Nat :=
  if headerCheck img ≠ 0 then headerCheck img
  else if sigCheck img (keySlots s) ≠ 0 then sigCheck img (keySlots s)
  else if at32 img 0x10 < s.hid.otp.fg then 0x09
  else 0

/-! ### Settings halves (R468) -/

/-- A half: its bytes. -/
def halfBytes (s : State) (b : Nat) : List Byte :=
  flashBytes s (at32 s.hid.boot.dir (0x18 + 4 * b)) (at32 s.hid.boot.dir 0x20)

/-- A sealed body of `n` bytes, with its nonce and tag, opened (R470). -/
def openBody (bs : List Byte) (n : Nat) : Option (List Byte) :=
  gcmOpen settingsKey (slice bs n (n + 12)) [] (bs.take n) (slice bs (n + 12) (n + 28))

/-- A half that is valid. -/
def halfValid (h : List Byte) : Bool :=
  slice h 0 4 = [0x48#8, 0x5A#8, 0x53#8, 0x54#8] ∧ !(slice h 6 8 ++ slice h 16 32).any (· ≠ 0#8) ∧ 32 + at32 h 12 + 28 ≤ h.length ∧
  (openBody (h.drop 32) (at32 h 12)).isSome

/-- The settings registers for firmware of format `fmt` (R468). -/
def settingsTake (fmt : Nat) : Act := fun s =>
  let a := halfBytes s 0
  let b := halfBytes s 1
  let okA := halfValid a && decide (at16 a 4 = fmt)
  let okB := halfValid b && decide (at16 b 4 = fmt)
  let actB := okB && (!okA || decide (at32 a 8 < at32 b 8))
  seq [setW R.BOOT_SET_STAT 0#32, setF F.BOOT_SET_STAT_fw_fmt fmt,
    setF F.BOOT_SET_STAT_valid_a (b2n (halfValid a)), setF F.BOOT_SET_STAT_valid_b (b2n (halfValid b)),
    setF F.BOOT_SET_STAT_active (b2n actB), setF F.BOOT_SET_STAT_active_ok (b2n (okA || okB)),
    setF F.BOOT_SET_FMT_a (at16 a 4), setF F.BOOT_SET_FMT_b (at16 b 4)] s

/-! ### Boot (R460, R461) -/

/-- Boot stops in the resident loader (R461), which sweeps (R368). -/
def bootFail (code : Nat) : Act := seq [setF F.BOOT_STAT_result code, setB F.BOOT_EVENT_boot_fail, setF F.BOOT_STAT_state 2, firmwareStart]

/-- The ROM runs: the sweep timer does not (R368). -/
def romRuns : Act := chntA fun c => { c with sweepT := none }

/-- ROM_BOOT (R460): BOOTSEL is read; no key is held until the directory is (R464). -/
def romBoot (sel : BitVec 2) : Act := whenA (fun s => coresRun s ∧ !s.hid.boot.upd) (seq [
  setF F.BOOT_STAT_bootsel sel.toNat, setF F.BOOT_STAT_state 0,
  bootA (fun b => { b with keys := [none, none, none, none], dir := [], fwSlot := none }),
  romRuns, only (sel = 1#2) (seq [setF F.BOOT_STAT_result 0, setF F.BOOT_STAT_state 2, firmwareStart])])

/-- The check of the Fingering region (R461 step 5, R467): a read of the flash that fails is code 0x63 of R114.  Whether one
fails is free: DESIGN CHOICE, log entry 36. -/
def fgRegion (s : State) (readOk : Bool) : Nat :=
  let d := s.hid.boot.dir
  if !readOk then 0x63 else fgCheck s (flashBytes s (at32 d 0x10) (at32 d 0x14))

/-- Steps 4 to 7 of R461. -/
def bootRest (readOk : Bool) : Act := fun s =>
  let d := s.hid.boot.dir
  let img := fwImage s d
  let code := if !readOk then 0x78 else fwSig img (keySlots s)
  if fwHeader s img (at32 d 0x0C) ≠ 0 then bootFail (fwHeader s img (at32 d 0x0C)) s
  else
    let sig := at32 img 0x20
    let copy : Act := only readOk fun _ => img.zipIdx.map fun x => .sram x.2 x.1
    if code ≠ 0 then seq [copy, bootFail code] s
    else
      seq [copy,
        withEnv (fun n => setF F.BOOT_STAT_fing_result (if at32 d 0x14 = 0 then 0xFF else fgRegion s (n.testBit 0))),
        only (at32 d 0x14 ≠ 0) (seq [setF F.FING_SRC_CFG_src 0, set64 R.FING_SRC_ADDR (BitVec.ofNat 64 (at32 d 0x10))]),
        settingsTake (at16 img 0x1C),
        wordsPut R.BOOT_FW_HASH 16 (digestBytes (sha512 (img.take sig))),
        set64 R.BOOT_FW_ROLLBACK (BitVec.ofNat 64 (leNat (slice img 0x10 0x18))),
        setW R.CHNT_ENTRY (BitVec.ofNat 32 (0x20000000 + at32 img 0x18)),
        setF F.BOOT_STAT_result 0, setF F.BOOT_STAT_state 1, setB F.BOOT_EVENT_fw_start,
        bootA (fun b => { b with fwSlot := some (at8 img (sig + 8)) }), firmwareStart] s

/-- BOOT_COMPLETE (R461). -/
def bootComplete (readOk : Bool) : Act := whenA (fun s => coresRun s ∧ !s.hid.boot.upd ∧ s.f F.BOOT_STAT_state = 0) fun s =>
  let d := flashBytes s 0 4096
  if dirCheck d ≠ 0 then bootFail (dirCheck d) s
  else seq [dirTake d (s.f F.BOOT_STAT_bootsel = 2), bootRest readOk] s

/-! ### Field update (R465–R467) -/

/-- A refusal, in `BOOT_UPD_STAT`. -/
def updCode (code : Nat) : Act := setF F.BOOT_UPD_STAT_result code

/-- A result for which the spec names no code.  DESIGN CHOICE, log entry 29. -/
def updFree : Act := fun s => updCode (Config.freeCode s.fresh).toNat s ++ [.fresh]

/-- The target region's offset. -/
def updBase (s : State) : Nat := at32 s.hid.boot.dir (if s.hid.boot.target = 0 then 0x08 else 0x10)

/-- The sector of the block in work is left undefined (R445). -/
def workUndef : Act := fun s =>
  match s.hid.boot.work with
  | some (ofs, _) => seq [flashUndef (updBase s + ofs) 4096, setF F.BOOT_STAT_state 2] s
  | none => []

/-- The update is abandoned (R467). -/
def updAbandon : Act := whenA (fun s => s.hid.boot.upd) (seq [workUndef, updCode 0x8A, setB F.BOOT_EVENT_upd_fail,
  setF F.BOOT_UPD_STAT_recv 0, clrB F.BOOT_UPD_STAT_busy, whenA flashRunning (burstEnd 0),
  bootA fun b => { b with upd := false, blocks := [], work := none }])

/-- The update and its loader are gone: the CHNT island was disabled, or the Chanter restarted (R460, R369).
DESIGN CHOICE, log entry 107. -/
def updDrop : Act := whenA (fun s => s.hid.boot.upd) (seq [workUndef, clrB F.BOOT_UPD_STAT_busy, whenA flashRunning (burstEnd 0),
  bootA fun b => { b with upd := false, blocks := [], work := none }])

/-- CHNT_RESTART (R369). -/
def chntRestart (p : Port) (v : Word) : Act := fun s =>
  if restartOk p v s then seq [updDrop, chntRelease false] s else accErr p 3 R.CHNT_CTL s

/-- The code of R465 for a START of target `t`: a directory that cannot be read is no valid one.  The order of the codes is the
model's.  DESIGN CHOICE, log entry 125. -/
def startCheck (p : Port) (t : Nat) (readOk : Bool) (s : State) : Nat :=
  let d := flashBytes s 0 4096
  if p = .fw then 0x81
  else if s.mode ≠ DORMANT ∧ s.mode ≠ CONFIGURE then 0x80
  else if bootBusy s ∨ s.f F.FING_STAT_loader ≠ 0 then 0x8B
  else if !readOk ∨ dirCheck d ≠ 0 then 0x70
  else if at32 d (if t = 0 then 0x0C else 0x14) < (s.rd R.BOOT_UPD_TOTAL).toNat then 0x85
  else 0

/-- UPD_START (R465). -/
def startUpd (p : Port) (v : Word) (readOk : Bool) : Act := fun s =>
  let t := b2n (v.getLsbD 8)
  let code := startCheck p t readOk s
  if code ≠ 0 then updCode code s
  else seq [setW R.BOOT_UPD_STAT 0#32, dirTake (flashBytes s 0 4096) false,
    bootA (fun b => { b with upd := true, target := t, total := (s.rd R.BOOT_UPD_TOTAL).toNat, blocks := [], work := none }),
    setF F.BOOT_STAT_state 2, chntRelease true] s

/-- The code of R466 for a BLOCK, before its burst. -/
def blockCheck (s : State) : Nat :=
  let ofs := (s.rd R.BOOT_UPD_OFS).toNat
  let len := (s.rd R.BOOT_UPD_LEN).toNat
  if ofs % 4096 ≠ 0 ∨ s.hid.boot.total ≤ ofs then 0x82
  else if len ≠ min 4096 (s.hid.boot.total - ofs) then 0x83
  else if s.rd R.BOOT_UPD_CRC ≠ crc32c ((wordsGet s R.BOOT_UPD_BUF 1024).take len) then 0x84
  else 0

/-- UPD_BLOCK (R466). -/
def blockUpd (p : Port) : Act := fun s =>
  if p = .fw then updCode 0x81 s
  else if bootBusy s then updCode 0x8B s
  else if !s.hid.boot.upd then updFree s
  else if blockCheck s ≠ 0 then updCode (blockCheck s) s
  else if flashAdmit s ≠ 0 then
    seq [updCode 0x86, setF F.BOOT_UPD_STAT_detail (flashAdmit s), burstRefuse 3 (flashAdmit s), setB F.BOOT_EVENT_upd_fail] s
  else seq [updCode 0, setF F.BOOT_UPD_STAT_detail 0, setB F.BOOT_UPD_STAT_busy, setF F.BOOT_STAT_state 3, burstStart 3,
    bootA fun b => { b with work := some ((s.rd R.BOOT_UPD_OFS).toNat, wordsGet s R.BOOT_UPD_BUF 1024) }] s

/-- The check of a whole region (R467). -/
def regionCheck (s : State) (readOk : Bool) : Nat :=
  let d := s.hid.boot.dir
  if s.hid.boot.target = 0 then
    let img := fwImage s d
    if !readOk then 0x78
    else if fwHeader s img (at32 d 0x0C) ≠ 0 then fwHeader s img (at32 d 0x0C) else fwSig img (keySlots s)
  else fgRegion s readOk

/-- The last distinct block has landed (R467). -/
def updFinish : Act := withEnv fun n s =>
  let code := regionCheck s (n.testBit 0)
  if code = 0 then seq [updCode 0, setB F.BOOT_EVENT_upd_done, setF F.BOOT_STAT_state 0, romRuns,
    bootA fun b => { b with upd := false, blocks := [] }] s
  else seq [updCode 0x88, setF F.BOOT_UPD_STAT_detail code, setF F.BOOT_UPD_STAT_recv 0, setB F.BOOT_EVENT_upd_fail,
    bootA fun b => { b with blocks := [] }] s

/-- A page of a block is programmed in a burst of its own (R466). -/
def pageBurst (a : Nat) (bs : List Byte) : Act := seq [whenA flashRunning (burstEnd 0), burstStart 3, flashProgram a bs,
  whenA flashRunning (burstEnd 0)]

/-- The code of R62 with which the block's next burst is refused, where the command says that one was; 0 where the state admits
it. -/
def pageRefusal (refused : Bool) (s : State) : Nat :=
  if !refused then 0
  else if s.hid.pwr.trans ≠ .none ∨ s.on F.SYS_MODE_STAT_busy ∨ s.on F.SYS_ISLAND_STAT_busy then 3
  else burstCode R.HARV_E_FLASH s

/-- UPD_BLOCK_DONE (R466, R473): the sector was erased and `pages` pages were programmed, all of them unless a page's burst was
refused, the flash failed or the supply is lost.  With no page programmed an erase that failed, or that the loss of supply
abandoned, leaves the sector undefined (R445); the departure has ended the burst (R62). -/
def blockDone (pages : Nat) (refused bad : Bool) : Act := fun s =>
  match s.hid.boot.work with
  | none => []
  | some (ofs, bs) =>
    let a := updBase s + ofs
    let lost := decide (s.hid.pwr.trans = .toHarvest)
    let c := pageRefusal refused s
    let ok := !bad ∧ c = 0 ∧ !lost
    let n : Nat := if ok then 16 else min pages 16
    let blocks := if s.hid.boot.blocks.contains ofs then s.hid.boot.blocks else ofs :: s.hid.boot.blocks
    let page := fun (i : Nat) => (bs.drop (256 * i)).take 256
    seq [if n = 0 ∧ (bad ∨ lost) then flashUndef a 4096 else flashErase a 4096,
      if lost then forEach (List.range n) fun i => flashProgram (a + 256 * i) (page i)
      else seq [whenA flashRunning (burstEnd 0), forEach (List.range n) fun i => pageBurst (a + 256 * i) (page i)],
      only (bad ∧ 0 < n ∧ n < 16) (flashUndef (a + 256 * n) 256),
      clrB F.BOOT_UPD_STAT_busy, setF F.BOOT_STAT_state 2,
      bootA (fun b => { b with work := none }),
      if bad then seq [updCode 0x87, setB F.BOOT_EVENT_upd_fail]
      else if lost then seq [updCode 0x86, setF F.BOOT_UPD_STAT_detail (lossCode s), setB F.BOOT_EVENT_upd_fail]
      else if c ≠ 0 then seq [updCode 0x86, setF F.BOOT_UPD_STAT_detail c, burstRefuse 3 c, setB F.BOOT_EVENT_upd_fail]
      else seq [updCode 0, setB F.BOOT_EVENT_block_done, setF F.BOOT_UPD_STAT_recv blocks.length,
            bootA (fun b => { b with blocks := blocks }),
            only (s.hid.boot.total ≤ 4096 * blocks.length) updFinish]] s

/-- UPD_ABORT (R467). -/
def abortUpd (p : Port) : Act := fun s =>
  if p = .fw then updCode 0x81 s
  else if bootBusy s then updCode 0x8B s
  else seq [updCode 0, setF F.BOOT_UPD_STAT_recv 0, bootA fun b => { b with blocks := [] }] s

/-- A write of `BOOT_UPD_CMD` by its op. -/
def updCmd (p : Port) (v : Word) (readOk : Bool) : Act :=
  match v.toNat % 4 with
  | 1 => startUpd p v readOk
  | 2 => blockUpd p
  | 3 => abortUpd p
  | _ => only (p = .fw) (updCode 0x81)

/-! ### CONFIRM (R469) -/

/-- A write of `BOOT_CONFIRM`; the order of its codes is the model's.  DESIGN CHOICE, log entry 126. -/
def confirmCmd (p : Port) (v : Word) : Act := fun s =>
  if p = .fw then updCode 0x81 s
  else if !v.getLsbD 0 then []
  else if v.toNat / 2 ^ 16 ≠ 0xC0F1 then updCode 0x93 s
  else if s.mode ≠ DORMANT ∧ s.mode ≠ CONFIGURE ∧ s.mode ≠ STANDBY then updCode 0x80 s
  else if s.on F.HARV_STAT_src_vb then updCode 0x91 s
  else if !s.on F.BOOT_SET_STAT_active_ok then updCode 0x90 s
  else if bootBusy s ∨ secBusy s then updCode 0x8B s
  else seq [updCode 0, bootA fun b => { b with confirm := true }] s

/-- Whether CONFIRM advances the firmware, and the Fingering, counter. -/
def fwAdvance (s : State) : Bool := decide (s.hid.otp.fw < (s.rd64 R.BOOT_FW_ROLLBACK).toNat)
def fgAdvance (s : State) : Bool := (s.force = 2 ∨ s.force = 3) ∧ s.hid.otp.fg < (s.rd R.FING_ROLLBACK).toNat

/-- Those advances. -/
def otpAdvanceFw : Act := fun s => only (fwAdvance s ∧ s.hid.otp.fwLeft ≠ 0)
  (otpA fun o => { o with fw := (s.rd64 R.BOOT_FW_ROLLBACK).toNat, fwLeft := o.fwLeft - 1 }) s
def otpAdvanceFg : Act := fun s => only (fgAdvance s ∧ s.hid.otp.fgLeft ≠ 0)
  (otpA fun o => { o with fg := (s.rd R.FING_ROLLBACK).toNat, fgLeft := o.fgLeft - 1 }) s

/-- The half that CONFIRM erases: the other one, if valid with a different format (R469 step 3). -/
def staleHalf (s : State) : Option Nat :=
  let other := 1 - s.f F.BOOT_SET_STAT_active
  let valid := if other = 0 then s.on F.BOOT_SET_STAT_valid_a else s.on F.BOOT_SET_STAT_valid_b
  if valid ∧ s.f F.BOOT_SET_FMT_a ≠ s.f F.BOOT_SET_FMT_b then some other else none

/-- The half that CONFIRM erases is erased. -/
def staleErase : Act := fun s =>
  match staleHalf s with
  | some b => flashErase (at32 s.hid.boot.dir (0x18 + 4 * b)) (at32 s.hid.boot.dir 0x20) s
  | none => []

/-- CONFIRM_DONE (R469): an OTP failure, or an exhausted counter, skips the later steps.  Where both counters advance and an OTP
write fails, it is free which of the two did: DESIGN CHOICE, log entry 33. -/
def confirmDone (otpOk : Bool) : Act := whenA (fun s => s.hid.boot.confirm) <| withEnv fun n s =>
  let second := fwAdvance s ∧ fgAdvance s ∧ n.testBit 0
  let fwBad : Nat := if !fwAdvance s then 0 else if s.hid.otp.fwLeft = 0 then 0x95 else if !otpOk ∧ !second then 0x92 else 0
  let fgBad : Nat := if !fgAdvance s then 0 else if s.hid.otp.fgLeft = 0 then 0x95 else if !otpOk then 0x92 else 0
  seq [bootA (fun b => { b with confirm := false }),
    if fwBad ≠ 0 then updCode fwBad
    else seq [otpAdvanceFw,
      if fgBad ≠ 0 then updCode fgBad
      else seq [otpAdvanceFg, staleErase, updCode 0]],
    setB F.BOOT_EVENT_confirm_done] s

/-! ### SEC (R464, R470–R472) -/

def secCode (code : Nat) : Act := setF F.SEC_STAT_result code
def secFree : Act := fun s => secCode (Config.freeCode s.fresh).toNat s ++ [.fresh]

/-- A SEC operation starts. -/
def secStart (op : SecOp) : Act := seq [secCode 0, setB F.SEC_STAT_busy, bootA fun b => { b with sec := some op }]

/-- Another programmed, unrevoked slot remains beside `i`. -/
def otherSlot (s : State) (i : Nat) : Bool := (List.range 4).any fun j => j ≠ i && bit s.hid.otp.prog j && !bit s.hid.otp.rev j

/-- A write of `SEC_OTP_CMD` (R464); the order of its codes is the model's.  DESIGN CHOICE, log entry 126. -/
def otpCmd (p : Port) (v : Word) : Act := fun s =>
  let op := v.toNat % 4
  let i := v.toNat / 256 % 4
  if p = .fw then secCode 0x81 s
  else if op = 0 ∨ op = 3 then []
  else if v.toNat / 2 ^ 16 ≠ 0xA15E then secCode 0x93 s
  else if s.mode ≠ CONFIGURE ∨ s.on F.HARV_STAT_src_vb then secCode 0x80 s
  else if bootBusy s ∨ secBusy s then secCode 0x8B s
  else if op = 1 then
    if bit s.hid.otp.prog i then secCode 0x94 s
    else secStart (.program i (BitVec.ofNat 512 (leNat (wordsGet s R.SEC_KEYHASH 16)))) s
  else if !bit s.hid.otp.prog i ∨ !otherSlot s i then secCode 0x94 s
  else secStart (.revoke i) s

/-- Size of the SRAM (R359). -/
def sramSize : Nat := 0x180000

/-- A write of `SEC_SEAL_CMD` (R470): a buffer that the SRAM does not hold, or an odd length, gets no operation. -/
def sealCmd (p : Port) (v : Word) (rng : Bool) : Act := fun s =>
  let op := v.toNat % 4
  let a := (s.rd R.SEC_SEAL_ADDR).toNat
  let n := (s.rd R.SEC_SEAL_LEN).toNat
  if p ≠ .fw then secCode 0x81 s
  else if op = 0 ∨ op = 3 then []
  else if secBusy s then secCode 0x8B s
  else if op = 1 ∧ !rng then secCode 0x97 s
  else if n % 16 ≠ 0 ∨ 2 ^ 20 < n ∨ a < 0x20000000 ∨ 0x20000000 + sramSize < a + n + 28 then secFree s
  else secStart (if op = 1 then .seal (a - 0x20000000) n else .unseal (a - 0x20000000) n) s

/-- A write of `SEC_ATT_CMD` (R472): refused while a CONFIRM or a SEC operation runs (R473). -/
def attCmd (v : Word) (rng : Bool) : Act := only (v.getLsbD 0) fun s =>
  if s.hid.boot.confirm ∨ secBusy s then secCode 0x8B s
  else if !rng then secCode 0x97 s
  else seq [setB F.SEC_ATT_CMD_go, secStart (.attest (wordsGet s R.SEC_ATT_NONCE 8))] s

/-- The signed part of a report (R472). -/
def attBody (s : State) (nonce : List Byte) : List Byte :=
  let w := fun (n v : Nat) => leBytes n v
  let act := if s.on F.BOOT_SET_STAT_active_ok then digestBytes (sha512 (halfBytes s (s.f F.BOOT_SET_STAT_active)))
    else List.replicate 64 0#8
  [0x48#8, 0x5A#8, 0x41#8, 0x54#8] ++ w 4 1 ++ w 4 (s.rd R.SYS_ID).toNat ++ w 4 (s.rd R.SYS_REV).toNat ++
  w 8 s.hid.otp.fw ++ w 8 s.hid.otp.fg ++ wordsGet s R.BOOT_FW_HASH 16 ++ (if s.force = 0 then List.replicate 64 0#8 else wordsGet s R.FING_HASH 16) ++ act ++ nonce ++
  w 8 s.now.toNat ++
  w 4 (s.mode + 16 * s.f F.SYS_PWR_STAT_state + 256 * s.role + 4096 * s.force) ++ w 4 0

/-- The bytes of the SRAM from offset `a` on. -/
def sramBytes (s : State) (a n : Nat) : List Byte := (List.range n).map fun i => s.srByte (a + i)

/-- Bytes written to the SRAM. -/
def sramWrite (a : Nat) (bs : List Byte) : Act := fun _ => bs.zipIdx.map fun x => .sram (a + x.2) x.1

/-- SEC_OPERATION_DONE: what the operation does. -/
def secEffect (op : SecOp) (ok : Bool) : Act := fun s =>
  match op with
  | .program i h =>
    seq [setB F.SEC_EVENT_otp_done, if ok then otpA fun o => { o with hash := o.hash.set i h, prog := putBit o.prog i true }
      else secCode 0x92] s
  | .revoke i =>
    seq [setB F.SEC_EVENT_otp_done, if ok then otpA fun o => { o with rev := putBit o.rev i true } else secCode 0x92] s
  | .seal a n =>
    let nonce := leBytes 12 (Config.freeRandom s.fresh).toNat
    let g := gcmSeal settingsKey nonce [] (sramBytes s a n)
    seq [freshA, sramWrite a (g.1 ++ nonce ++ g.2), setB F.SEC_EVENT_seal_done] s
  | .unseal a n =>
    seq [setB F.SEC_EVENT_seal_done,
      match openBody (sramBytes s a (n + 28)) n with
      | some b => sramWrite a b
      | none => secCode 0x96] s
  | .attest nonce =>
    let body := attBody s nonce
    seq [freshA, wordsPut R.SEC_ATT_BUF 101 (body ++ idSign (sha512 body) (Config.freeScalar s.fresh)),
      clrB F.SEC_ATT_CMD_go, setB F.SEC_EVENT_att_done] s

/-- SEC_OPERATION_DONE. -/
def secDone (ok : Bool) : Act := fun s =>
  match s.hid.boot.sec with
  | none => []
  | some op => seq [bootA (fun b => { b with sec := none }), clrB F.SEC_STAT_busy, secEffect op ok] s

/-- RNG_READ (R472): the word a read returns, and what it does. -/
def rngWord (s : State) (rng : Bool) : Word := if rng then (Config.freeRandom s.fresh).setWidth 32 else 0#32
def rngAct (rng : Bool) : Act := if rng then freshA else setB F.SEC_EVENT_rng_fault

/-- A write of `SEC_PAIR_KEY` (R470, R476): taken in CONFIGURE. -/
def pairKeyWrite (p : Port) (off : Nat) (v : Word) : Act := fun s =>
  if s.mode = CONFIGURE then setW off v s else accErr p errRefused off s

/-! ### Loss of supply (R463, R473) -/

/-- A counter that CONFIRM would advance has no advance left (R463). -/
def otpExhausted (s : State) : Bool := (fwAdvance s && s.hid.otp.fwLeft = 0) || (fgAdvance s && s.hid.otp.fgLeft = 0)

/-- The half that CONFIRM was erasing is left partly erased: its contents are undefined but for its magic, which has gone, so that
it is invalid (R473).  DESIGN CHOICE, log entry 27. -/
def staleTorn : Act := fun s =>
  match staleHalf s with
  | some b =>
    let a := at32 s.hid.boot.dir (0x18 + 4 * b)
    seq [flashUndef a (at32 s.hid.boot.dir 0x20), flashErase a 4] s
  | none => []

/-- What a departure from LEAN or FULL leaves of the operations that it cuts off. -/
def bootPowerLoss : Act := fun s =>
  let k := Config.freeCut s.fresh
  seq [freshA,
    (match s.hid.boot.sec with
      | some (.program i h) => only (k % 2 = 1) (secEffect (.program i h) true)
      | some (.revoke i) => only (k % 2 = 1) (secEffect (.revoke i) true)
      | _ => nop),
    only s.hid.boot.confirm (seq [
      only (1 ≤ k % 4) otpAdvanceFw, only (2 ≤ k % 4 ∧ !(fwAdvance s && s.hid.otp.fwLeft = 0)) otpAdvanceFg,
      only (3 ≤ k % 4 ∧ !otpExhausted s) staleTorn]),
    workUndef, qspiCut] s

end Sys2Proof.Machine
end

