-- ==== Sys2Proof/Machine/Stage.lean ====
section
/-!
DEFINITION. The arithmetic of the Bore engines: sine, cosine, reciprocal and square root within their bounds (R240, R241),
and the stage types (R244, R245).  Values are exact per-unit numbers; a stage's lanes and states are narrowed under R239.
-/

namespace Sys2Proof.Machine

/-! ### Functions with a bound (R240, R241) -/

/-- π to 35 decimals. -/
def piQ : Rat := 314159265358979323846264338327950288 / 10 ^ 35

/-- sin 2πt for t from 0 to 1/4, by its series to x²⁹; the error is below 2⁻⁸⁰. -/
def sinSeries (t : Rat) : Rat :=
  let x := 2 * piQ * t
  ((List.range 15).foldl (fun (p : Rat × Rat) k => (p.1 + p.2, -p.2 * x * x / ((2 * k + 2) * (2 * k + 3)))) (0, x)).1

/-- sin of an angle in turns. -/
def sinTurn (t : Rat) : Rat :=
  let u := t - t.floor
  let h := if u < 1 / 2 then u else u - 1 / 2
  let y := sinSeries (if h ≤ 1 / 4 then h else 1 / 2 - h)
  if u < 1 / 2 then y else -y

/-- The device's value of a sine or cosine whose exact value is `x`: a pu36 value within 2⁻²⁹ (R240). -/
def trigCode (x : Rat) (free : Int) : Rat :=
  (clampInt (-(-(x - 1 / 2 ^ 29) * 2 ^ 30).floor) ((x + 1 / 2 ^ 29) * 2 ^ 30).floor free : Rat) / 2 ^ 30

/-- Sine and cosine of an angle in gyres (R240). -/
def sinG (g : BitVec 32) : Rat := trigCode (sinTurn ((g.toNat : Rat) / 2 ^ 32)) (Config.freeSin g)
def cosG (g : BitVec 32) : Rat := trigCode (sinTurn ((g.toNat : Rat) / 2 ^ 32 + 1 / 4)) (Config.freeCos g)

/-- The square root of a positive number, from below, with a relative error under 2⁻⁶⁴. -/
def sqrtFine (y : Rat) : Rat := (Nat.sqrt (y.num.toNat * y.den * 2 ^ 128) : Rat) / ((y.den : Rat) * 2 ^ 64)

/-- The device's square root: any value within a relative error of 2⁻²⁸ (R241), that is with its square within the squares of
the bounds. -/
def sqrtQ (y : Rat) : Rat :=
  if y ≤ 0 then 0
  else
    let v := Config.freeSqrt y
    let e : Rat := 1 / 2 ^ 28
    if 0 ≤ v ∧ (1 - e) * (1 - e) * y ≤ v * v ∧ v * v ≤ (1 + e) * (1 + e) * y then v else sqrtFine y

/-- A reciprocal within a relative error of 2⁻²⁸ (R241), of a positive divisor. -/
def recipQ (y : Rat) : Rat := clampRat (1 / y * (1 - 1 / 2 ^ 28)) (1 / y * (1 + 1 / 2 ^ 28)) (Config.freeRecip y)

/-- The fixed factors of R241, rounded half to even to 2⁻³⁰. -/
def third : Rat := 357913941 / 2 ^ 30
def invSqrt3 : Rat := 619925131 / 2 ^ 30
def halfSqrt3 : Rat := 929887697 / 2 ^ 30
def twoPi : Rat := 6746518852 / 2 ^ 30

/-- The least divisor that is inverted is above 2⁻⁸ pu (R241). -/
def divMin : Rat := 1 / 2 ^ 8

/-- Gyres of an angle in turns (R240). -/
def gyres (t : Rat) : BitVec 32 := BitVec.ofInt 32 (roundHalfEven (t * 2 ^ 32))

/-- Gyres of an angle in radians, as the constant 2π of R241 gives it. -/
def gyresRad (w : Rat) : BitVec 32 := gyres (w / (2 * piQ))

/-! ### Narrowing (R239) -/

/-- An exact per-unit value narrowed to pu48, and whether that saturates.  DEDUCED, log entry 44. -/
def narrow48 (y : Rat) : Int := clampInt (-(2 ^ 47)) (2 ^ 47 - 1) (roundHalfEven (y * 2 ^ 42))
def over48 (y : Rat) : Bool := roundHalfEven (y * 2 ^ 42) ≠ narrow48 y

/-- The value of a pu36 and of a pu48 code (R3, R238). -/
def ofPu (c : Int) : Rat := (c : Rat) / 2 ^ 30
def ofPu48 (c : Int) : Rat := (c : Rat) / 2 ^ 42

/-- The values that stand after narrowing. -/
def q36 (y : Rat) : Rat := ofPu (narrow36 y)
def q48 (y : Rat) : Rat := ofPu48 (narrow48 y)

/-- `x` between `lo` and `hi`; the spec states no result where the limits cross.  DESIGN CHOICE, log entry 19. -/
def clampS (x lo hi : Rat) : Rat := if hi < lo then Config.freeClamp x lo hi else clampRat lo hi x

/-! ### Stages (R245) -/

/-- What a stage reads. -/
structure StageIn where
  variant : Nat
  /-- Operands; one of kind 0 reads 0. -/
  u : List Rat
  /-- Operands of kind 0. -/
  none : List Bool
  /-- Operand 2 as an angle (R240). -/
  theta : BitVec 32
  k : List Rat
  x : List Rat
  /-- PR add-in of each channel. -/
  add : Rat × Rat
  /-- Breath stages take their measured operand (R247). -/
  init : Bool
deriving DecidableEq, Repr

/-- What a stage gives before narrowing: four lanes, its states and whether it limits (R246). -/
structure StageOut where
  y : List Rat
  x : List Rat
  lim : Bool := false
deriving DecidableEq, Repr

def StageIn.v (i : StageIn) (n : Nat) : Rat := i.u.getD n 0
def StageIn.isNone (i : StageIn) (n : Nat) : Bool := i.none.getD n true
def StageIn.c (i : StageIn) (n : Nat) : Rat := i.k.getD n 0
def StageIn.st (i : StageIn) (n : Nat) : Rat := i.x.getD n 0

/-- Operand c of a three-phase input: none stands for −a − b (R244). -/
def StageIn.third (i : StageIn) : Rat := if i.isNone 2 then -i.v 0 - i.v 1 else i.v 2

/-- 0x01. -/
def stClarke (i : StageIn) : StageOut :=
  let a := i.v 0
  let b := i.v 1
  let c := i.third
  { y := [(2 * a - b - c) * Machine.third, (b - c) * invSqrt3, (a + b + c) * Machine.third, 0], x := i.x }

/-- The angle of a Park stage or of its inverse. -/
def StageIn.phi (i : StageIn) : BitVec 32 := (if i.variant = 0 then i.theta else -i.theta) + gyres (i.c 0)

/-- 0x02. -/
def stPark (i : StageIn) : StageOut :=
  let c := cosG i.phi
  let s := sinG i.phi
  { y := [i.v 0 * c + i.v 1 * s, -i.v 0 * s + i.v 1 * c, c, s], x := i.x }

/-- 0x03. -/
def stInvPark (i : StageIn) : StageOut :=
  let phi := i.phi + gyres (i.c 1 * i.v 3)
  let c := cosG phi
  let s := sinG phi
  { y := [i.v 0 * c - i.v 1 * s, i.v 0 * s + i.v 1 * c, 0, 0], x := i.x }

/-- One channel of 0x04: output, integrator, limited.  DEDUCED, log entry 45. -/
def piChan (i : StageIn) (err x : Rat) : Rat × Rat × Bool :=
  if i.variant = 0 then
    let x' := q48 (clampS (x + i.c 1 * err) (i.c 3) (i.c 2))
    let v := i.c 0 * err + x'
    let out := clampS v (i.c 3) (i.c 2)
    (out, x', decide (out ≠ v))
  else
    let v := i.c 0 * err + x
    let out := clampS v (i.c 3) (i.c 2)
    (out, x + i.c 1 * err + i.c 4 * (q36 out - v), decide (out ≠ v))

/-- 0x04. -/
def stPi (two : Bool) (i : StageIn) : StageOut :=
  let p := piChan i (i.v 0 - i.v 1) (i.st 0)
  let q := if two then piChan i (i.v 2 - i.v 3) (i.st 1) else (0, i.st 1, false)
  { y := [p.1, q.1, q48 p.2.1, if two then q48 q.2.1 else 0], x := [p.2.1, q.2.1, i.st 2, i.st 3], lim := p.2.2 || q.2.2 }

/-- One channel of 0x05: output and the two states. -/
def prChan (i : StageIn) (c s e x1 x2 add : Rat) : Rat × Rat × Rat :=
  let y1 := (1 - i.c 2) * (c * x1 - s * x2) + i.c 0 * e
  let y2 := (1 - i.c 2) * (s * x1 + c * x2)
  (i.c 3 * q48 y1 - i.c 4 * q48 y2 + add, y1, y2)

/-- 0x05: `f` none reads 1.0.  DEDUCED, log entry 45. -/
def stPr (two : Bool) (i : StageIn) : StageOut :=
  let w := gyresRad (twoPi * (i.c 1 * (if i.isNone 2 then 1 else i.v 2)))
  let p := prChan i (cosG w) (sinG w) (i.v 0) (i.st 0) (i.st 1) i.add.1
  let q := if two then prChan i (cosG w) (sinG w) (i.v 1) (i.st 2) (i.st 3) i.add.2 else (0, i.st 2, i.st 3)
  { y := [p.1, q.1, q48 p.2.1, q48 p.2.2], x := [p.2.1, p.2.2, q.2.1, q.2.2] }

/-- One channel of 0x06. -/
def biquadChan (i : StageIn) (v s1 s2 : Rat) : Rat × Rat × Rat :=
  let out := q36 (i.c 0 * v + s1)
  (i.c 0 * v + s1, i.c 1 * v - i.c 3 * out + s2, i.c 2 * v - i.c 4 * out)

/-- 0x06. -/
def stBiquad (two : Bool) (i : StageIn) : StageOut :=
  let p := biquadChan i (i.v 0) (i.st 0) (i.st 1)
  let q := if two then biquadChan i (i.v 1) (i.st 2) (i.st 3) else (0, i.st 2, i.st 3)
  { y := [p.1, q.1, 0, 0], x := [p.2.1, p.2.2, q.2.1, q.2.2] }

/-- 0x07: states are the previous input and output of each channel. -/
def stLeadLag (two : Bool) (i : StageIn) : StageOut :=
  let ch := fun v vp op => i.c 0 * v + i.c 1 * vp - i.c 2 * op
  let p := ch (i.v 0) (i.st 0) (i.st 1)
  let q := ch (i.v 1) (i.st 2) (i.st 3)
  { y := [p, if two then q else 0, 0, 0],
    x := [i.v 0, q36 p, if two then i.v 1 else i.st 2, if two then q36 q else i.st 3] }

/-- 0x08. -/
def stAdd (i : StageIn) : StageOut :=
  if i.variant = 0 then
    { y := [i.c 0 * i.v 0 + i.c 1 * i.v 1 + i.c 2 * i.v 2 + i.c 3 * i.v 3 + i.c 4, 0, 0, 0], x := i.x }
  else
    { y := [i.c 0 * i.v 0 + i.c 1 * i.v 1 + i.c 4, i.c 2 * i.v 2 + i.c 3 * i.v 3 + i.c 5, 0, 0], x := i.x }

/-- 0x09. -/
def stLimiter (i : StageIn) : StageOut :=
  if i.variant = 0 then
    let mag := sqrtQ (i.v 0 * i.v 0 + i.v 1 * i.v 1)
    if mag ≤ i.c 0 then { y := [i.v 0, i.v 1, mag, 0], x := i.x }
    else if divMin < mag then
      { y := [i.v 0 * i.c 0 * recipQ mag, i.v 1 * i.c 0 * recipQ mag, mag, 0], x := i.x, lim := true }
    else { y := [0, 0, mag, 0], x := i.x, lim := true }
  else
    let x := clampS (i.v 0) (i.c 1) (i.c 0)
    let y := clampS (i.v 1) (i.c 3) (i.c 2)
    { y := [x, y, 0, 0], x := i.x, lim := decide (x ≠ i.v 0) || decide (y ≠ i.v 1) }

/-- One channel of 0x0A: the ramp and whether it limits. -/
def breathChan (i : StageIn) (target measured r : Rat) : Rat × Bool :=
  if i.init then (measured, false)
  else
    let d := clampS (target - r) (-i.c 1) (i.c 0)
    (r + d, decide (d ≠ target - r))

/-- 0x0A.  DEDUCED, log entry 46. -/
def stBreath (two : Bool) (i : StageIn) : StageOut :=
  let p := breathChan i (i.v 0) (i.v 1) (i.st 0)
  let q := if two then breathChan i (i.v 2) (i.v 3) (i.st 1) else (i.st 1, false)
  let ramping := q48 p.1 ≠ i.v 0 ∨ (two ∧ q48 q.1 ≠ i.v 2)
  { y := [q48 p.1, if two then q48 q.1 else 0, if ramping then 1 else 0, 0], x := [p.1, q.1, i.st 2, i.st 3], lim := p.2 || q.2 }

/-- 0x0B. -/
def stSelect (i : StageIn) : StageOut :=
  let sel := ((i.c 0).floor % 4).toNat
  if i.variant = 0 then { y := [i.v sel, 0, 0, 0], x := i.x }
  else if sel % 2 = 0 then { y := [i.v 0, i.v 1, 0, 0], x := i.x }
  else { y := [i.v 2, i.v 3, 0, 0], x := i.x }

/-- 0x0C: the duties of three phases. -/
def stModulator (i : StageIn) : StageOut :=
  let ph := if i.variant = 0 then
      [i.v 0, -i.v 0 / 2 + i.v 1 * halfSqrt3, -i.v 0 / 2 - i.v 1 * halfSqrt3]
    else [i.v 0, i.v 1, i.third]
  let vdc := i.v 3
  if vdc ≤ divMin then
    let d := clampS (1 / 2) (i.c 0) (i.c 1)
    { y := [d, d, d, 1], x := i.x, lim := true }
  else
    let zs := (ph.foldl max (ph.headD 0) + ph.foldl min (ph.headD 0)) / 2
    let raw := ph.map fun x => 1 / 2 + (x - zs) * recipQ vdc
    let d := raw.map fun x => clampS x (i.c 0) (i.c 1)
    let clip := decide (d ≠ raw)
    { y := d ++ [if clip then 1 else 0], x := i.x, lim := clip }

/-- 0x0D: the states are the previous inputs. -/
def stDamping (two : Bool) (i : StageIn) : StageOut :=
  let ch := fun v vp => -i.c 0 * (v + i.c 1 * (v - vp))
  { y := [ch (i.v 0) (i.st 0), if two then ch (i.v 1) (i.st 1) else 0, 0, 0],
    x := [i.v 0, if two then i.v 1 else i.st 1, i.st 2, i.st 3] }

/-- The operand whose presence makes a stage of type `t` run its second channel (R243, R244). -/
def chan1Op (t : Nat) : Option Nat :=
  match t with
  | 4 | 10 => some 2
  | 5 | 6 | 7 | 13 => some 1
  | _ => none

/-- A stage of type `t` (R245).  DEDUCED, log entry 44. -/
def stageEval (t : Nat) (two : Bool) (i : StageIn) : StageOut :=
  match t with
  | 1 => stClarke i
  | 2 => stPark i
  | 3 => stInvPark i
  | 4 => stPi two i
  | 5 => stPr two i
  | 6 => stBiquad two i
  | 7 => stLeadLag two i
  | 8 => stAdd i
  | 9 => stLimiter i
  | 10 => stBreath two i
  | 11 => stSelect i
  | 12 => stModulator i
  | 13 => stDamping two i
  | _ => { y := [0, 0, 0, 0], x := i.x }

/-- Engine cycles of a stage (R244): `legs` and `prof` concern the modulator that writes edge units. -/
def stageCycles (t variant : Nat) (two : Bool) (legs : Nat) (prof : Bool) : Nat :=
  match t with
  | 1 => 4
  | 2 | 3 => 8
  | 4 | 6 => if two then 8 else 6
  | 5 => if two then 12 else 8
  | 7 | 13 => if two then 5 else 4
  | 8 => if variant = 0 then 3 else 4
  | 9 => if variant = 0 then 14 else 4
  | 10 => if two then 4 else 3
  | 11 => 2
  | 12 => (if variant = 1 then 8 else 12) + 4 * legs + (if prof then 2 else 0)
  | _ => 0

end Sys2Proof.Machine
end

