-- ==== Sys2Proof/Machine/Bases.lean ====
section
/-!
DEFINITION. The bases of R4, and the grid quantities as other blocks read them: published (R293) and advanced to an engine's
own trigger (R278).
-/

namespace Sys2Proof.Machine

/-- The value of an IEEE-754 single that is a normal number; 0 otherwise (R295). -/
def ieeeQ (w : Word) : Rat :=
  let e : Nat := w.toNat / 2 ^ 23 % 256
  let m : Nat := w.toNat % 2 ^ 23
  if e = 0 ∨ e = 255 then 0
  else (if 2 ^ 31 ≤ w.toNat then -1 else 1) * ((2 ^ 23 + m : Nat) : Rat) * (2 : Rat) ^ ((e : Int) - 150)

/-- `GRID_FNOM` in Hz. -/
def fnomHz (s : State) : Rat := ieeeQ (s.rd R.GRID_FNOM)

/-- The quantities that are angles (R293, R300). -/
def isAngleQ (q : Nat) : Bool := q = 0 ∨ q = 1 ∨ q = 32 ∨ q = 50 ∨ q = 51

/-- The published quantities that the Slide follows (R85, R87): tracked and machine frequency, tracker angle. -/
def qFreq (s : State) : Rat := ofPu (s.hid.grid.cur.q.get 0 2)
def qFmFreq (s : State) : Rat := ofPu (s.hid.grid.cur.q.get 0 33)
def qTheta (s : State) : BitVec 32 := BitVec.ofInt 32 (s.hid.grid.cur.q.get 0 0)

/-- The angle that a frequency of `fq` pu turns through in `dt` ticks (R278). -/
def advance (fnom fq : Rat) (dt : Int) : BitVec 32 :=
  BitVec.ofInt 32 (roundHalfEven (fq * fnom * dt * (125 / 10 ^ 11) * 2 ^ 32))

/-- A vector of pu36 codes turned by an angle, exactly. -/
def rotate (v : Int × Int) (g : BitVec 32) : Rat × Rat :=
  let a : Rat := ofPu v.1
  let b : Rat := ofPu v.2
  if g = 0#32 then (a, b) else (a * cosG g - b * sinG g, a * sinG g + b * cosG g)

/-- The component that quantity `q` is of a vector turned by `a` at the tracked and by `b` at the machine frequency, exactly; none
where it is no component of one, or none is turned (R278, R293). -/
def gridVec (x : GridSet) (a b : BitVec 32) (q : Nat) : Option Rat :=
  let g := x.q.get 0
  let pick := fun (v : Rat × Rat) => some (if q % 2 = 0 then v.1 else v.2)
  if q = 8 ∨ q = 9 then pick (rotate (g 8, g 9) a)
  else if q = 10 ∨ q = 11 then pick (rotate (g 10, g 11) (-a))
  else if q = 35 then some (rotate (g 35, g 36) b).1
  else if q = 36 then some (rotate (g 35, g 36) b).2
  else if (q = 20 ∨ q = 21) ∧ (a ≠ 0#32 ∨ b ≠ 0#32) then
    let u := rotate x.pos a
    let v := rotate x.neg (-a)
    let w := rotate x.form b
    pick (u.1 + v.1 + w.1 + ofPu x.probe.1, u.2 + v.2 + w.2 + ofPu x.probe.2)
  else none

/-- Quantity `q` of a published set, turned by `a` at the tracked and by `b` at the machine frequency (R278, R293). -/
def gridQty (x : GridSet) (a b : BitVec 32) (q : Nat) : Int :=
  let g := x.q.get 0
  if q = 0 ∨ q = 1 then ((BitVec.ofInt 32 (g q) + a).toNat : Int)
  else if q = 32 then ((BitVec.ofInt 32 (g q) + b).toNat : Int)
  else match gridVec x a b q with
  | some v => narrow36 v
  | none => g q

/-- Ticks in which a published set crosses to the engines: `n` BORE cycles and 1.5 ns (R32, R278). -/
def crossTicks (s : State) (n : Nat) : Nat := n * (1 + s.f F.CLK_SYS_DIV_ACT_div_bore) + 2

/-- The newest set that has reached engine `e` when a crossing takes `n` BORE cycles. -/
def setArrived (s : State) (n e : Nat) : GridSet :=
  (((s.hid.grid.sent.filter fun x => bit x.2.1 e && decide (crossTicks s n ≤ (s.now - x.1).toNat)).getLast?).map (·.2.2)).getD
    (s.hid.grid.prev.get {} e)

/-- The set that engine `e`, whose cycle 0 is now, latches: a new one crosses in 2 to 4 BORE cycles and 1.5 ns (R32, R278). -/
def gridSetSeen (s : State) (e : Nat) : GridSet := setArrived s (2 + Config.freeCrossing s.fresh % 3) e

/-- |dt| is too long for the advance of R278. -/
def advTooLong (x : GridSet) (t : BitVec 64) : Bool := 2 ^ 20 < (t - x.ts).toInt.natAbs

/-- The angles of R278, at the tracked and at the machine frequency, by which an engine with trigger time `t` advances the set `x`;
none where |dt| is too long. -/
def advances (s : State) (x : GridSet) (t : BitVec 64) : BitVec 32 × BitVec 32 :=
  let dt := (t - x.ts).toInt
  if advTooLong x t then (0#32, 0#32)
  else (advance (fnomHz s) (ofPu (x.q.get 0 2)) dt, advance (fnomHz s) (ofPu (x.q.get 0 33)) dt)

/-- Quantity `q` of the set `x` as an engine with trigger time `t` latches it (R278).  DESIGN CHOICE, log entry 22. -/
def gridLatched (s : State) (x : GridSet) (t : BitVec 64) (q : Nat) : Int :=
  let r := advances s x t
  gridQty x r.1 r.2 q

/-- A quantity latched so is beyond the pu36 range (R5). -/
def gridLatchOver (s : State) (x : GridSet) (t : BitVec 64) (q : Nat) : Bool :=
  let r := advances s x t
  (gridVec x r.1 r.2 q).any over36

/-- The rotating quantities (R293). -/
def rotatingQ (q : Nat) : Bool :=
  q ≤ 1 ∨ (8 ≤ q ∧ q ≤ 11) ∨ q = 20 ∨ q = 21 ∨ q = 32 ∨ q = 35 ∨ q = 36

end Sys2Proof.Machine
end

