-- ==== Sys2Proof/Machine/Bore.lean ====
section
/-!
DEFINITION. The Bore engines: triggers and steps, operands, packets, fixed and prompt timing, coefficient landing, hold
(spec/10).
-/

namespace Sys2Proof.Machine

/-- What engine `e` holds. -/
def boreSt (s : State) (e : Nat) : BoreSt := s.hid.bore.get {} e

/-- Changes what engine `e` holds. -/
def boreA (e : Nat) (g : BoreSt → BoreSt) : Act := hidA fun h => { h with bore := h.bore.put {} e (g (h.bore.get {} e)) }

/-- Island BOREe runs (R31). -/
def boreOn (s : State) (e : Nat) : Bool := s.up ∧ s.island (1 + e)

/-- Stage count of the program; 0 without one. -/
def stageCount (s : State) (e : Nat) : Nat := s.f (F.BORE_INFO_stages e)

/-- The mode steps engines (R127). -/
def steppingMode (m : Nat) : Bool := m = STANDBY ∨ m = FOLLOW ∨ m = FORM ∨ m = RIDE ∨ m = SERVICE

/-- A result leaves the boundary FIFO for its input slot (R33, R242). -/
def BoreSt.land (b : BoreSt) (x : Nat × Int) : BoreSt := { b with slots := b.slots.put 0 x.1 x.2, got := putBit b.got x.1 true }

/-- Every result sent has reached its slot. -/
def BoreSt.drained (b : BoreSt) : BoreSt := { b.fifo.foldl BoreSt.land b with fifo := [] }

/-- Ticks of a BORE cycle (R74). -/
def boreCyc (s : State) : Nat := 1 + s.f F.CLK_SYS_DIV_ACT_div_bore

/-! ### The program -/

def stgType (s : State) (e g : Nat) : Nat := s.f (F.BORE_STG_CFG_type e g)
def stgVariant (s : State) (e g : Nat) : Nat := s.f (F.BORE_STG_CFG_variant e g)

/-- Operand word `i` of stage `g` (R101). -/
def opWord (s : State) (e g i : Nat) : Nat :=
  (s.rd (if i < 2 then R.BORE_STG_OPA e g else R.BORE_STG_OPB e g)).toNat / 65536 ^ (i % 2) % 65536

/-- The second channel of stage `g` runs (R243). -/
def stgTwo (s : State) (e g : Nat) : Bool :=
  match chan1Op (stgType s e g) with
  | some i => opWord s e g i / 4096 ≠ 0
  | none => false

/-- The modulator stage that writes edge units and its legs (R248). -/
def modStage (s : State) (e : Nat) : Option (Nat × List Nat) :=
  (recAt tEngOut e s.hid.fing.recs).map fun r => (r.b 1, outLegs r)

/-- Engine cycles of stage `g` (R244). -/
def stgCycles (s : State) (e g : Nat) : Nat :=
  let legs := match modStage s e with
    | some m => if m.1 = g then m.2.length else 0
    | none => 0
  stageCycles (stgType s e g) (stgVariant s e g) (stgTwo s e g) legs (legs ≠ 0 ∧ s.on (F.BORE_MOD_CFG_prof_en e))

/-- First cycle of stage `g` within a step (R250). -/
def stgFirst (s : State) (e g : Nat) : Nat := (List.range g).foldl (fun a j => a + stgCycles s e j) 6

/-- C_e (R244). -/
def engCycles (s : State) (e : Nat) : Nat := stgFirst s e (stageCount s e) + 4

/-- `BORE[e]_INFO.cycles` follows the structure and the profile choice (R244). -/
def infoUpdate (e : Nat) : Act := whenA (fun s => stageCount s e ≠ 0) fun s => setF (F.BORE_INFO_cycles e) (engCycles s e) s

/-- `lat` is set at APPLY and whenever `div_bore` changes (R254). -/
def latUpdate (e : Nat) : Act := whenA (fun s => stageCount s e ≠ 0) fun s =>
  setF (F.BORE_FIX_CFG_lat e) (boreCyc s * engCycles s e + 112) s

/-! ### The limit flag (R246, R262) -/

/-- The limit flag of engine `e` reaches die `d`, over its seam link (R183). -/
def limitShow (d e : Nat) : Act := whenA (fun s => s.up ∧ s.on (F.SYS_SEAM_STAT_up d))
  (withS fun s => sourceSet d (120 + e) (s.on (F.BORE_STAT_limit e)))

/-- The engine's limit flag, which is trip source 120 + e on both dies. -/
def limitSet (e : Nat) (v : Bool) : Act := fun s =>
  if s.on (F.BORE_STAT_limit e) = v then []
  else seq [setF (F.BORE_STAT_limit e) (b2n v), only v (setB (F.BORE_EVENT_limit e)),
    limitShow 0 e, limitShow 1 e] s

/-- The engine is idle (R262): not stepping, its limit flag clears. -/
def boreIdle (e : Nat) : Act := whenA (fun s => !s.on (F.BORE_STAT_busy e)) (limitSet e false)

/-! ### Step start (R249–R251, R259, R263) -/

/-- The grid quantities that the operands of engine `e` name. -/
def gridOperands (s : State) (e : Nat) : List Nat :=
  ((List.range (stageCount s e)).map fun g => ((List.range 4).map (opWord s e g)).filter (· / 4096 = 3)).flatten.map (· % 64)

/-- Cycle 0: slots, set-points, grid quantities and the tag are latched (R242, R250); a quantity that saturates as it is turned sets
the engine's flag (R5). -/
def boreStart (e : Nat) (ts : BitVec 64) : Act := fun s =>
  let b := (boreSt s e).drained
  let fed := engFed s.hid.fing.recs e
  let stale := maskOf (fed.filter fun j => !bit b.got j)
  let x := gridSetSeen s e
  let qs := gridOperands s e
  let far := if advTooLong x ts then maskOf (qs.filter rotatingQ) else 0
  let st := stale ||| far
  seq [
    forEach fed fun j => setPu (R.BORE_IN e j) (b.slots.get 0 j),
    only (st ≠ 0) (seq [orW (R.BORE_STALE_LO e) (BitVec.ofNat 32 st), orW (R.BORE_STALE_HI e) (BitVec.ofNat 32 (st / 2 ^ 32)),
      setB (F.BORE_EVENT_stale e)]),
    only (qs.any (gridLatchOver s x ts)) (setB (F.BORE_EVENT_ovf e)),
    boreA e fun b => { b.drained with
      t0 := s.now, trig := ts, tag := s.rd (R.BORE_TAG e), got := 0, old := [],
      sp := (List.range 16).foldl (fun t i => t.put 0 i (s.pu (R.BORE_SP e i))) [],
      gq := qs.foldl (fun t q => t.put 0 q (gridLatched s x ts q)) [],
      init := decide (s.mode = STANDBY) || b.entry || s.on (F.BORE_CTL_breath_init e), entry := false },
    freshA, clrB (F.BORE_CTL_breath_init e), setB (F.BORE_STAT_busy e)] s

/-- A trigger reaches engine `e`; `go`: by `BORE[e]_CTL.go`, which alone acts in SERVICE and under kind 3 (R249).  One that comes
while a step runs is lost and counted, whatever has changed meanwhile (R251); an idle engine ignores one (R262). -/
def boreTrigger (e : Nat) (ts : BitVec 64) (go : Bool) : Act := fun s =>
  if stageCount s e = 0 ∨ go ≠ (s.mode = SERVICE || s.f (F.BORE_TRIG_kind e) = 3) then []
  else if s.on (F.BORE_STAT_busy e) then seq [bump (R.BORE_LOST_CNT e), setB (F.BORE_EVENT_step_lost e)] s
  else if !boreOn s e ∨ !steppingMode s.mode then []
  else if s.on (F.BORE_CTL_hold e) ∧ !(boreSt s e).holdT.any (sameCyc (boreCyc s) s.now) then
    let n := s.f (F.BORE_HOLD_count e)
    if n < max 1 (s.f (F.BORE_HOLD_lim e)) then setF (F.BORE_HOLD_count e) (n + 1) s
    else seq [clrB (F.BORE_CTL_hold e), clrB (F.BORE_STAT_held e), setB (F.BORE_EVENT_hold_exp e), boreStart e ts] s
  else seq [clrB (F.BORE_STAT_held e), boreStart e ts] s

/-- BORE_TRIGGER (R249): the oldest trigger on its way arrives. -/
def boreRouted (e : Nat) : Act := fun s =>
  match (boreSt s e).trigs with
  | [] => []
  | t :: ts => seq [boreA e fun b => { b with trigs := ts }, boreTrigger e t false] s

/-- The hold of engine `e` has reached its limit (R259). -/
def holdSpent (s : State) (e : Nat) : Bool :=
  s.on (F.BORE_CTL_hold e) ∧ !s.on (F.BORE_STAT_busy e) ∧ max 1 (s.f (F.BORE_HOLD_lim e)) ≤ s.f (F.BORE_HOLD_count e)

/-- BORE_HOLD_EXPIRY (R259): the trigger that comes then; software alone triggers in SERVICE and under kind 3. -/
def holdExpiry (e : Nat) : Act := whenA (fun s => holdSpent s e) (boreRouted e)

/-! ### The stages (R242–R247) -/

/-- Lane `l` of stage `g'` as stage `g` reads it: written in this step where `g' < g`, else of the step before (R242). -/
def laneVal (s : State) (e : Nat) (ys : List (List Int)) (g g' l : Nat) : Int :=
  if g' < g then (ys.getD g' []).getD l 0 else s.pu (R.BORE_STG_Y e g' l)

/-- The value of an operand word, as a pu36 code or in gyres (R242). -/
def operandVal (s : State) (e : Nat) (ys : List (List Int)) (g w : Nat) : Int :=
  let i := w % 4096
  match w / 4096 with
  | 1 => laneVal s e ys g (i / 4) (i % 4)
  | 2 => s.pu (R.BORE_IN e i)
  | 3 => (boreSt s e).gq.get 0 i
  | 4 => (boreSt s e).sp.get 0 i
  | _ => 0

/-- An operand as an angle (R240). -/
def operandAngle (s : State) (e : Nat) (ys : List (List Int)) (g w : Nat) : BitVec 32 :=
  let v := operandVal s e ys g w
  if w / 4096 = 3 ∧ isAngleQ (w % 4096) then BitVec.ofInt 32 v else BitVec.ofInt 32 (4 * v)

/-- The add-in of channel `c` of a PR stage: lane L or L + 1 of the stage that operand 3 names (R245).
DESIGN CHOICE, log entry 20. -/
def addIn (s : State) (e : Nat) (ys : List (List Int)) (g c : Nat) : Rat :=
  let w := opWord s e g 3
  let i := w % 4096
  if w / 4096 = 0 then 0
  else if w / 4096 = 1 ∧ i % 4 + c ≤ 3 then ofPu (laneVal s e ys g (i / 4) (i % 4 + c))
  else if c = 0 then ofPu (operandVal s e ys g w)
  else ofPu (sext 36 (Config.freeAddIn w c).toNat)

/-- The coefficients that stage `g` reads (R257). -/
def stgCoefs (s : State) (e g : Nat) : List Rat :=
  (List.range 8).map fun k => ofPu (((boreSt s e).old.get none (8 * g + k)).getD (s.pu (R.BORE_STG_K e g k)))

/-- Stage `g`, given the lanes of the stages before it. -/
def stgRun (s : State) (e : Nat) (ys : List (List Int)) (g : Nat) : StageOut :=
  let w := (List.range 4).map (opWord s e g)
  stageEval (stgType s e g) (stgTwo s e g)
    { variant := stgVariant s e g, u := w.map fun x => ofPu (operandVal s e ys g x), none := w.map (· / 4096 = 0),
      theta := operandAngle s e ys g (w.getD 2 0), k := stgCoefs s e g,
      x := (List.range 4).map fun i => ofPu48 (s.pu48 (R.BORE_STG_X e g i)),
      add := (addIn s e ys g 0, addIn s e ys g 1), init := (boreSt s e).init }

/-- A step's results: the lanes, and of each stage its states before narrowing, whether it limits and whether it saturates. -/
structure StepRes where
  ys : List (List Int) := []
  xs : List (List Rat) := []
  lim : List Bool := []
  ovf : List Bool := []
deriving DecidableEq, Repr

/-- The chain, stage by stage (R237). -/
def chainRun (s : State) (e : Nat) : StepRes :=
  (List.range (stageCount s e)).foldl (fun r g =>
    let o := stgRun s e r.ys g
    { ys := r.ys ++ [o.y.map narrow36], xs := r.xs ++ [o.x], lim := r.lim ++ [o.lim],
      ovf := r.ovf ++ [o.y.any over36 || o.x.any over48] }) {}

/-! ### The modulator's outputs (R248) -/

/-- dc of leg position `p` in a phase leg of `levels` levels and `n` switches, from the leg's duty; none where the leg
positions give no duty of its own. -/
def legDuty (levels n p : Nat) (d : Rat) : Option Rat :=
  let up := fun (j : Nat) => clampRat 0 1 (((levels : Rat) - 1) * d - ((levels : Rat) - 2 - j))
  if p + 1 < levels then some (up p) else if n = 6 ∧ p = 5 then some (up 0) else none

/-- One written channel: its number, and its leg's phase and dc. -/
structure Written where
  ch : Nat
  phase : Nat
  dc : Rat
deriving DecidableEq, Repr

/-- The channels that engine `e` writes, with their duties from the modulator's lanes `y`.  DESIGN CHOICE, log entry 21. -/
def writtenDuties (s : State) (legs : List Nat) (y : List Int) : List Written :=
  let rs := s.hid.fing.recs
  (legs.filterMap fun l => recAt tLeg l rs).flatMap fun r =>
    let n := r.b 3
    let d := y.getD (r.b 2) 0
    ((List.range n).map fun p => (p, r.b (4 + p))).filterMap fun c =>
      if c.2 = 0xFF ∨ !modWrites rs c.2 then none
      else
        let duty := if r.b 1 = 0 ∧ r.b 2 ≤ 2 then legDuty (sysLevels rs) n c.1 (ofPu d) else none
        some ⟨c.2, r.b 2, duty.getD (clampRat 0 1 (Config.freeDuty c.2 d))⟩

/-- The compares of a duty with the active period and mode (R248). -/
def dutyCompares (mode per : Nat) (dc : Rat) : Nat × Nat :=
  let v := fun (x : Rat) => (roundHalfEven (x * per * 64)).toNat
  if mode = 2 then (v (1 - dc), v (1 - dc)) else (0, v dc)

/-- The profile index of a channel, from its phase's current (R248). -/
def profIndex (s : State) (e g : Nat) (ys : List (List Int)) (k2 : Rat) (phase : Nat) : Nat :=
  let i := ofPu (laneVal s e ys g (s.f (F.BORE_MOD_CFG_cur_stage e)) phase)
  if k2 < i then s.f (F.BORE_MOD_CFG_idx_pos e) else if i < -k2 then s.f (F.BORE_MOD_CFG_idx_neg e)
  else s.f (F.BORE_MOD_CFG_idx_low e)

/-- The packets of a step (R252): one for each Bell die on which the engine writes edge units. -/
def stepPackets (s : State) (e : Nat) (r : StepRes) : List EngPkt :=
  match modStage s e with
  | none => []
  | some m =>
    let ws := writtenDuties s m.2 (r.ys.getD m.1 [])
    let k2 := (stgCoefs s e m.1).getD 2 0
    [0, 1].filterMap fun d =>
      let own := ws.filter fun w => w.ch / 24 = d
      if own = [] ∨ !s.on (F.SYS_SEAM_STAT_up d) then none
      else some {
        die := d, trig := (boreSt s e).trig,
        cmp := own.map fun w =>
          let c := carrier s w.ch
          (w.ch, dutyCompares c.1 c.2 w.dc),
        prof := if s.on (F.BORE_MOD_CFG_prof_en e) then
            (own.filter fun w => podPresent s w.ch).map fun w => (w.ch, profIndex s e m.1 r.ys k2 w.phase)
          else [] }

/-! ### Step end (R250) -/

/-- The states, lanes and flags of stage `g` become final. -/
def stgFinal (e : Nat) (r : StepRes) (g : Nat) : Act :=
  seq [
    forEach (List.range 4) fun i => setPu48 (R.BORE_STG_X e g i) (narrow48 ((r.xs.getD g []).getD i 0)),
    forEach (List.range 4) fun i => setPu (R.BORE_STG_Y e g i) ((r.ys.getD g []).getD i 0),
    setF (F.BORE_STG_CFG_lim e g) (b2n (r.lim.getD g false)),
    only (r.ovf.getD g false) (setB (F.BORE_STG_CFG_ovf e g))]

/-- The mask of a list of flags. -/
def flagMask (l : List Bool) : Nat := maskOf ((List.range l.length).filter fun i => l.getD i false)

/-- Offsets of the registers that `BORE[e]_SNAP` copies (R264). -/
def boreSnapped (e off : Nat) : Bool :=
  let o := off - R.BORE_CTL e
  R.BORE_CTL e ≤ off ∧ o < 0x4000 ∧ ((0x200 ≤ o ∧ o < 0x400) ∨ (0x1000 ≤ o ∧ 0x80 ≤ o % 0x100 ∧ o % 0x100 < 0xC0))

/-! ### Credits of the seam links (R28) -/

/-- Class-1 packets of the engines that hold a credit of the link to die `d`. -/
def creditsUsed (s : State) (d : Nat) : Nat :=
  ((List.range 8).map fun e => ((boreSt s e).pkts.filter fun p => p.die = d ∧ p.credit).length).sum

/-- Class-1 credits that the Core-to-Bell sender of die `d` holds: 32 less those of packets under way; none while the link is
down. -/
def creditsHeld (s : State) (d : Nat) : Nat := if s.on (F.SYS_SEAM_STAT_up d) then 32 - creditsUsed s d else 0

/-- The list with the first packet to die `d` that waits for a credit holding one. -/
def grantFirst (d : Nat) : List EngPkt → List EngPkt
  | [] => []
  | p :: ps => if p.die = d ∧ !p.credit ∧ !p.waiting then { p with credit := true } :: ps else p :: grantFirst d ps

/-- A packet to die `d` waits for a credit. -/
def creditWaits (s : State) (d e : Nat) : Bool := (boreSt s e).pkts.any fun p => p.die = d ∧ !p.credit ∧ !p.waiting

/-- A threshold code of the MPPT engine reaches monitor `mon` (R304); a disabled island discards it, counted at the sender (R34). -/
def codeLand (mon code : Nat) : Act := cond (fun s => winOn s (mon / 16))
  (seq [setF (F.WIN_M_TH_hi mon) code,
    fun s => hidA (fun h => { h with mon := h.mon.put {} mon { h.mon.get {} mon with mpptT := some s.now } }) s])
  (hidA fun h => { h with mppt := { h.mppt with lost := min (2 ^ 31 - 1) (h.mppt.lost + 1) } })

/-- The MPPT engine sends a threshold code as class-1 traffic (R28, R304): without a credit it waits. -/
def codeSend (mon code : Nat) : Act := whenA (fun s => s.on (F.SYS_SEAM_STAT_up (mon / 16))) (cond (fun s => creditsHeld s (mon / 16) = 0)
  (hidA fun h => { h with mppt := { h.mppt with codes := h.mppt.codes ++ [(mon, code)] } }) (codeLand mon code))

/-- The codes that wait for a credit to die `d` are sent, which give theirs back on arrival. -/
def codesGo (d : Nat) : Act := fun s => seq [
  hidA fun h => { h with mppt := { h.mppt with codes := h.mppt.codes.filter fun c => c.1 / 16 ≠ d } },
  forEach (s.hid.mppt.codes.filter fun c => c.1 / 16 = d) fun c => codeLand c.1 c.2] s

/-- A credit of the link to die `d` that is free goes to what waits for one: to the threshold codes, then to an engine packet, of
the lowest engine its oldest.  DESIGN CHOICE, log entry 73. -/
def creditGrant (d : Nat) : Act := fun s =>
  if creditsHeld s d = 0 then []
  else seq [codesGo d, match (List.range 8).find? (creditWaits s d) with
    | some e => boreA e fun b => { b with pkts := grantFirst d b.pkts }
    | none => nop] s

/-- What the limit flag of the epilogue is (R246). -/
def stepLimit (s : State) (e : Nat) (r : StepRes) : Bool :=
  (List.range (stageCount s e)).any fun g => r.lim.getD g false && s.on (F.BORE_STG_CFG_flag_en e g)

/-- BORE_STEP_END: the epilogue, and the end of the step (R250, R252, R258). -/
def boreStepEnd (e : Nat) : Act := whenA (fun s => s.on (F.BORE_STAT_busy e)) fun s =>
  let r := chainRun s e
  let b := boreSt s e
  let ovf := flagMask r.ovf
  let lim := flagMask r.lim
  let steps := (s.rd64 (R.BORE_STEP_CNT e)).toNat
  let before := (s.mode = DORMANT || s.mode = CONFIGURE) && s.f F.SYS_MODE_STAT_prev = STANDBY
  let go := !(s.mode = STANDBY || before)
  seq [
    limitSet e (stepLimit s e r),
    only go (seq [boreA e fun b => { b with pkts := b.pkts ++ stepPackets s e r }, creditGrant 0, creditGrant 1]),
    forEach (List.range (stageCount s e)) (stgFinal e r),
    setW (R.BORE_LIM_LO e) (BitVec.ofNat 32 lim), setW (R.BORE_LIM_HI e) (BitVec.ofNat 32 (lim / 2 ^ 32)),
    only (ovf ≠ 0) (seq [orW (R.BORE_OVF_LO e) (BitVec.ofNat 32 ovf), orW (R.BORE_OVF_HI e) (BitVec.ofNat 32 (ovf / 2 ^ 32)),
      setB (F.BORE_EVENT_ovf e)]),
    set64 (R.BORE_STEP_CNT e) (BitVec.ofNat 64 (min (steps + 1) (2 ^ 64 - 1))),
    only (s.rd (R.BORE_TAG_SEEN e) ≠ b.tag ∧ b.tag = s.rd (R.BORE_TAG e)) (setB (F.BORE_EVENT_tag e)),
    setW (R.BORE_TAG_SEEN e) b.tag, set64 (R.BORE_LAST_TS e) b.trig,
    boreA e (fun b => { b with old := [], holdT := none }),
    withS fun t => boreA e fun b => { b with last := t.regs.keep (boreSnapped e) },
    clrB (F.BORE_STAT_busy e), setF (F.BORE_STAT_held e) (s.f (F.BORE_CTL_hold e)),
    whenA (fun t => t.on (F.BORE_CTL_hold e) ∨ !steppingMode t.mode ∨ !boreOn t e) (boreIdle e)] s

/-! ### Packets at EDGE (R254, R255) -/

/-- Counts a packet of engine `e` that a disabled island discards, up to the largest count of R21 (R34). -/
def packetLost (e : Nat) : Act := boreA e fun b => { b with lost := min (2 ^ 31 - 1) (b.lost + 1) }

/-- The edge units and pods of a packet of engine `e` take its values and arm (R196, R228); a disabled island takes none. -/
def packetTake (e : Nat) (p : EngPkt) : Act := seq [
  cond (fun s => edgeOn s p.die) (forEach p.cmp fun c => engineEdge c.1 c.2.1 c.2.2) (packetLost e),
  only (p.prof ≠ []) (cond (fun s => ligOn s p.die) (forEach p.prof fun c => seq [
    setF ⟨R.GATE_LIG_SEL (c.1 / 12), 2 * (c.1 % 12) + 1, 2 * (c.1 % 12)⟩ c.2,
    fun s => ligA (c.1 / 12) (fun b => { b with engT := some s.now }) s]) (packetLost e))]

/-- The reference unit of fixed timing: the first channel of the first leg (R254). -/
def refUnit (s : State) (e : Nat) : Option Nat :=
  match modStage s e with
  | some (_, l :: _) => (recAt tLeg l s.hid.fing.recs).bind fun r => (legChannels r).head?
  | _ => none

/-- The release tick of a packet whose step was triggered at `t` (R254); none while the carrier phase is never reached. -/
def releaseTick (s : State) (e : Nat) (t : BitVec 64) : Option Nat :=
  let t0 := t.toNat + s.f (F.BORE_FIX_CFG_lat e)
  if s.on (F.BORE_FIX_CFG_mode e) then some t0
  else match refUnit s e with
  | none => none
  | some n =>
    let x := edgeSt s n
    let T := periodOf x.mode x.per
    if !x.run ∨ !x.live ∨ T = 0 then none
    else
      let k : Nat := ((s.rd (R.BORE_FIX_PH e)).toNat * T + 2 ^ 32 - 1) / 2 ^ 32
      let d : Int := (x.ps.toNat : Int) + k - t0
      some (t0 + (d % (T : Int)).toNat)

/-- ENGINE_PACKET_ARRIVAL (R254, R255). -/
def packetArrival (e d : Nat) : Act := fun s =>
  let b := boreSt s e
  match b.pkts.find? fun p => p.die = d ∧ !p.waiting with
  | none => []
  | some p =>
    if !p.credit then []
    else if s.f (F.BORE_INFO_timing e) ≠ 1 then
      seq [boreA e fun b => { b with pkts := b.pkts.erase p }, creditGrant d, packetTake e p] s
    else
      let late := match releaseTick s e p.trig with
        | some r => decide (r < (dieTime s d).toNat + 2)
        | none => false
      if late then
        seq [boreA e fun b => { b with pkts := b.pkts.erase p }, creditGrant d, setB (F.BORE_EVENT_late e),
          bump (R.BORE_LATE_CNT e), packetTake e p] s
      else seq [boreA e fun b =>
        { b with pkts := b.pkts.map fun q => if q = p then { q with waiting := true, credit := false } else q }, creditGrant d] s

/-- FIXED_RELEASE_TICK (R254). -/
def fixedRelease (e d : Nat) : Act := fun s =>
  match (boreSt s e).pkts.find? fun p => p.die = d ∧ p.waiting with
  | none => []
  | some p => seq [boreA e fun b => { b with pkts := b.pkts.erase p }, packetTake e p] s

/-- The packets and threshold codes under way to die `d` are lost with its link (R30); packets that wait at EDGE stay.
DESIGN CHOICE, log entry 91. -/
def packetsLost (d : Nat) : Act :=
  hidA fun h => { h with
    bore := h.bore.map fun x => (x.1, { x.2 with pkts := x.2.pkts.filter fun p => p.die ≠ d ∨ p.waiting }),
    mppt := { h.mppt with codes := h.mppt.codes.filter fun c => c.1 / 16 ≠ d } }

/-! ### Register writes -/

/-- A write of a coefficient lands (R257): a step whose stage has read its coefficients keeps the old value. -/
def coefLand (e g k : Nat) (v : Int) : Act := whenA (fun s => g < stageCount s e) fun s =>
  let b := boreSt s e
  let passed := s.on (F.BORE_STAT_busy e) && decide (stgFirst s e g < landCyc (boreCyc s) b.t0 s.now)
  let was := s.pu (R.BORE_STG_K e g k)
  seq [only (passed && (b.old.get none (8 * g + k)).isNone) (boreA e fun b => { b with old := b.old.put none (8 * g + k) (some was) }),
    setPu (R.BORE_STG_K e g k) v] s

/-- A write of a set-point lands (R257): one at cycle 0 is seen by that step. -/
def setpointLand (e i : Nat) (v : Int) : Act := fun s =>
  seq [setPu (R.BORE_SP e i) v,
    only (s.on (F.BORE_STAT_busy e) ∧ landCyc (boreCyc s) (boreSt s e).t0 s.now = 0) (boreA e fun b => { b with sp := b.sp.put 0 i v })] s

/-- States and lanes may be written: Procedure C's conditions (R260, R262). -/
def stateWritable (s : State) (e : Nat) : Bool :=
  s.mode = DORMANT ∨ s.mode = CONFIGURE ∨ s.mode = HALT ∨ s.on (F.BORE_STAT_held e)

/-- A write of a state; discarded elsewhere (R260). -/
def stateLand (e g i : Nat) (v : Int) : Act := whenA (fun s => g < stageCount s e ∧ stateWritable s e) (setPu48 (R.BORE_STG_X e g i) v)

/-- Every state and lane of engine `e` becomes 0 (R262). -/
def boreZero (e : Nat) : Act := fun s =>
  forEach (List.range (stageCount s e)) (fun g => seq [
    forEach (List.range 4) fun i => setPu48 (R.BORE_STG_X e g i) 0,
    forEach (List.range 4) fun i => setPu (R.BORE_STG_Y e g i) 0]) s

/-- A write of `BORE[e]_CTL` (R247, R249, R259, R262). -/
def boreCtl (p : Port) (e : Nat) (v : Word) : Act := seq [
  only (v.getLsbD 8) (cond (fun s => stateWritable s e) (boreZero e) (accErr p 3 (R.BORE_CTL e))),
  only (v.getLsbD 5) (setB (F.BORE_CTL_breath_init e)),
  fun s =>
    let was := s.on (F.BORE_CTL_hold e)
    if v.getLsbD 4 && !was then
      seq [setB (F.BORE_CTL_hold e), setF (F.BORE_HOLD_count e) 0, boreA e fun b => { b with holdT := some s.now },
        only (!s.on (F.BORE_STAT_busy e)) (seq [setB (F.BORE_STAT_held e), boreIdle e])] s
    else if !v.getLsbD 4 && was then seq [clrB (F.BORE_CTL_hold e), boreA e fun b => { b with holdT := none }] s
    else [],
  only (v.getLsbD 0) fun s => boreTrigger e s.now true s]

/-- `BORE[e]_STAT` as a read finds it: packets are withheld in STANDBY (R252). -/
def boreStatWord (s : State) (e : Nat) : Word :=
  s.rd (R.BORE_STAT e) ||| BitVec.ofNat 32 (64 * b2n (s.mode = STANDBY && stageCount s e ≠ 0))

/-- A value for input slot `j` of engine `e` reaches the island boundary (R33, R242); a disabled island discards it (R34). -/
def slotDeliver (full : Bool) (e j : Nat) (v : Int) : Act := whenA (fun s => boreOn s e)
  (boreA e fun b =>
    let t := fifoTake full b.fifo (j, v)
    { t.1.elim b b.land with fifo := t.2 })

/-- Leaving a stepping mode, or disabling the island (R262): an engine between steps goes idle. -/
def boreLeave (e : Nat) : Act := boreIdle e

end Sys2Proof.Machine
end

