-- ==== Sys2Proof/Machine/Grid.lean ====
section
/-!
DEFINITION. The grid block's own program: transforms, tracker, power, current synthesis, forming machine (spec/11).  Values
are exact per-unit numbers, narrowed where a quantity or a state is written (R270).
-/

namespace Sys2Proof.Machine

/-! ### Functions with a bound -/

/-- 2π as the fixed factor of R241. -/
def twoPiQ : Rat := 6746518852 / 2 ^ 30

/-- A quotient: the dividend times a reciprocal of R241; the spec gives none by 0.  DESIGN CHOICE, log entry 23. -/
def divQ (a b : Rat) : Rat := if b = 0 then Config.freeQuot a else if b < 0 then -(a * recipQ (-b)) else a * recipQ b

/-- arctan of t from 0 to 1, in turns, by half-angle and series; the error is below 2⁻⁵⁰. -/
def atanUnit (t : Rat) : Rat :=
  let r : Rat := (Nat.sqrt ((1 + t * t) * 2 ^ 120).floor.toNat : Rat) / 2 ^ 60
  let u := ((t / (1 + r)) * 2 ^ 60).floor / (2 : Rat) ^ 60
  let ser := (List.range 24).foldl (fun (p : Rat × Rat) k => (p.1 + p.2 / (2 * k + 1), -p.2 * u * u)) (0, u)
  ser.1 / piQ

/-- The angle of (x, y) in turns; (0, 0) has none. -/
def atanTurn (y x : Rat) : Rat :=
  let ay := if y < 0 then -y else y
  let ax := if x < 0 then -x else x
  let t := if ay ≤ ax then atanUnit (ay / ax) else 1 / 4 - atanUnit (ax / ay)
  let h := if x < 0 then 1 / 2 - t else t
  if y < 0 then -h else h

/-- atan2 in gyres, within 2⁴ gyres of the exact angle (R274). -/
def atan2G (y x : Rat) : BitVec 32 :=
  if x = 0 ∧ y = 0 then Config.freeAtan2 y x
  else
    let g := atanTurn y x * 2 ^ 32
    let r := roundHalfEven g
    BitVec.ofInt 32 (clampInt (g - 16).ceil (g + 16).floor (r + (Config.freeAtan2 y x - BitVec.ofInt 32 r).toInt))

/-- Largest of a list that is not empty, and smallest. -/
def maxQ (l : List Rat) : Rat := l.foldl max (l.headD 0)
def minQ (l : List Rat) : Rat := l.foldl min (l.headD 0)

/-- |x|. -/
def absQ (x : Rat) : Rat := if x < 0 then -x else x

/-- Seconds of a number of ticks. -/
def secs (n : Nat) : Rat := (n : Rat) * (125 / 10 ^ 11)

/-! ### Inputs (R266, R269) -/

/-- Grid input slots that a ROUTE_CONV record feeds. -/
def gridFed (rs : List Rec) : List Nat := ((recsOf tRouteConv rs).filter fun r => r.b 2 = 1).map fun r => r.w16 4

/-- The value of slot `j` with its substitute, exactly (R266). -/
def gridSum (s : State) (j : Nat) : Int :=
  let g := s.hid.grid
  let fed := gridFed s.hid.fing.recs
  let v := fun i => if fed.contains i then g.slots.get 0 i else 0
  if fed.contains j then g.slots.get 0 j
  else if j = 2 ∨ j = 5 then -v (j - 2) - v (j - 1) else 0

/-- The value of slot `j` as it is latched (R266). -/
def gridSlot (s : State) (j : Nat) : Int := clampInt puMin puMax (gridSum s j)

/-- α, β, γ of a three-phase set (R271). -/
def clarke (vwire : Bool) (a b c : Rat) : List Rat :=
  if vwire then [(a - c) * third, b * invSqrt3, 0] else [(2 * a - b - c) * third, (b - c) * invSqrt3, (a + b + c) * third]

/-- Transform of the latched slots from `j`. -/
def slotClarke (s : State) (vwire : Bool) (j : Nat) : List Rat :=
  clarke vwire (s.puQ (R.GRID_IN j)) (s.puQ (R.GRID_IN (j + 1))) (s.puQ (R.GRID_IN (j + 2)))

/-! ### Tracker (R272–R276) -/

/-- Limits of the tracked frequency: 40 Hz and 70 Hz (R85). -/
def fLo (s : State) : Rat := 40 / fnomHz s
def fHi (s : State) : Rat := 70 / fnomHz s

/-- One step of Heun's method for a generalised integrator: input before and now, states v1 and q1 (R272). -/
def sogiStep (w k ts x0 x1 v q : Rat) : Rat × Rat :=
  let dv := w * (k * (x0 - v) - q)
  let dq := w * v
  let v' := v + ts * dv
  let q' := q + ts * dq
  (v + ts / 2 * (dv + w * (k * (x1 - v') - q')), q + ts / 2 * (dq + w * v'))

/-- What a tracker step gives. -/
structure Trk where
  /-- vα, vβ, vγ and iα, iβ, iγ. -/
  v : List Rat
  i : List Rat
  sogi : List Int
  f : Int
  rocof : Int
  fClip : Bool
  frozen : Bool
  vp : Rat × Rat
  vn : Rat × Rat
  thp : BitVec 32
  thn : BitVec 32
  /-- |V+|, |V−|, |V0| as pu36 codes. -/
  mag : List Int
  good : Nat
  bad : Nat
  locked : Bool
  pe : Int
  qe : Int
  ovf : Bool
deriving DecidableEq, Repr

/-- First-order filter with time constant `tau` (R275, R279). -/
def filt (y x ts tau : Rat) : Rat := y + divQ ts (tau + ts) * (x - y)

/-- The tracker and the power measurement over a step of `n` ticks; `c` is the state with the registers latched at cycle 0. -/
def trkStep (c : State) (n : Nat) : Trk :=
  let g := c.hid.grid
  let ts := secs n
  let vw := c.on F.GRID_CFG_vwire
  let v := slotClarke c vw 0
  let i := slotClarke c false 3
  let f0 := ofPu48 g.f
  let w := twoPiQ * fnomHz c * f0
  let k := c.puQ R.GRID_TRK_K
  let st := fun j => ofPu48 (g.sogi.getD j 0)
  let ax := (List.range 3).map fun j => sogiStep w k ts (g.vin.getD j 0) (v.getD j 0) (st (2 * j)) (st (2 * j + 1))
  let raw := ax.flatMap fun p => [p.1, p.2]
  let sogi := raw.map narrow48
  let x := fun j => ofPu48 (sogi.getD j 0)
  let vmin := c.puQ R.GRID_TRK_VMIN
  let vpMag := c.puQ (R.GRID_Q 4)
  let frozen := decide (vpMag < vmin)
  let num := (v.getD 0 0 - x 0) * x 1 + (v.getD 1 0 - x 2) * x 3
  let den := max (vpMag * vpMag) (vmin * vmin)
  let df := -(c.puQ R.GRID_TRK_G) * 100 * k * f0 * divQ num den
  let fr := f0 + df * ts
  let f := if frozen then g.f else narrow48 (clampRat (fLo c) (fHi c) fr)
  let vp := ((x 0 - x 3) / 2, (x 1 + x 2) / 2)
  let vn := ((x 0 + x 3) / 2, (x 2 - x 1) / 2)
  let thp := atan2G vp.2 vp.1
  let mags := [sqrtQ (vp.1 * vp.1 + vp.2 * vp.2), sqrtQ (vn.1 * vn.1 + vn.2 * vn.2),
    if vw then 0 else sqrtQ (x 4 * x 4 + x 5 * x 5)]
  let mag := mags.map narrow36
  let roc := filt (ofPu48 g.rocof) (divQ (ofPu48 f - f0) ts) ts (c.puQ R.GRID_TRK_RTAU)
  let pred := BitVec.ofInt 32 (c.pu (R.GRID_Q 0)) + BitVec.ofInt 32 (roundHalfEven (ofPu48 f * fnomHz c * ts * 2 ^ 32))
  let near := decide ((thp - pred).toInt.natAbs ≤ (c.rd R.GRID_TRK_TOL).toNat)
  let high := decide (vmin ≤ ofPu (mag.getD 0 0))
  let good := if near && high then g.good + n else 0
  let bad := if near then 0 else g.bad + 1
  let ks := c.puQ R.GRID_KS
  let vi := fun j => v.getD j 0
  let ii := fun j => i.getD j 0
  let pe := filt (ofPu48 g.pe) (divQ (vi 0 * ii 0 + vi 1 * ii 1) ks) ts (c.puQ R.GRID_PQ_TAU)
  let qe := filt (ofPu48 g.qe) (divQ (vi 1 * ii 0 - vi 0 * ii 1) ks) ts (c.puQ R.GRID_PQ_TAU)
  let was := c.on F.GRID_STAT_locked
  { v := v, i := i, sogi := sogi, f := f, rocof := narrow48 roc,
    fClip := !frozen && (decide (fr < fLo c) || decide (fHi c < fr)), frozen := frozen, vp := vp, vn := vn,
    thp := thp, thn := -atan2G vn.2 vn.1, mag := mag, good := good, bad := bad,
    locked := if was then !(decide (max 1 (c.f F.GRID_TRK_CFG_unlock_n) ≤ bad) || !high)
      else near && high && decide (1 ≤ secs good * 2 * fnomHz c * ofPu48 f),
    pe := narrow48 pe, qe := narrow48 qe,
    ovf := raw.any over48 || mags.any over36 || over48 roc || over48 pe || over48 qe }

/-- Phase voltage amplitudes (R301). -/
def phaseAmps (vwire : Bool) (sogi : List Int) : List Rat :=
  let x := fun j => ofPu48 (sogi.getD j 0)
  let ph := fun j => [x j + x (4 + j), -x j / 2 + x (2 + j) * halfSqrt3 + x (4 + j), -x j / 2 - x (2 + j) * halfSqrt3 + x (4 + j)]
  let amp := fun (a b : Rat) => sqrtQ (a * a + b * b)
  let at3 := fun (l : List Rat) j => l.getD j 0
  if vwire then
    [(0, 1), (1, 2), (2, 0)].map fun p =>
      amp (at3 (ph 0) p.1 - at3 (ph 0) p.2) (at3 (ph 1) p.1 - at3 (ph 1) p.2) * invSqrt3
  else (List.range 3).map fun j => amp (at3 (ph 0) j) (at3 (ph 1) j)

/-! ### Ramps (R280, R284) -/

/-- A value moved towards a target at a rate in pu/s; a rate of 0 applies it at once. -/
def rampTo (y target rate ts : Rat) : Rat :=
  if rate = 0 then target else y + clampS (target - y) (-(rate * ts)) (rate * ts)

/-! ### Current synthesis (R281–R283) -/

/-- id+, iq+, id−, iq−. -/
structure Refs where
  dp : Rat := 0
  qp : Rat := 0
  dn : Rat := 0
  qn : Rat := 0
deriving DecidableEq, Repr

/-- |(id+, iq+)| + |(id−, iq−)|. -/
def Refs.mag (r : Refs) : Rat := sqrtQ (r.dp * r.dp + r.qp * r.qp) + sqrtQ (r.dn * r.dn + r.qn * r.qn)

/-- d and q parts scaled. -/
def Refs.scale (r : Refs) (kd kq : Rat) : Refs := ⟨kd * r.dp, kq * r.qp, kd * r.dn, kq * r.qn⟩

/-- d and q exchanged. -/
def Refs.swap (r : Refs) : Refs := ⟨r.qp, r.dp, r.qn, r.dn⟩

/-- The largest factor of [0, 1], by bisection to 2⁻¹⁶, with which the d parts meet the limit. -/
def bisect (r : Refs) (lim : Rat) : Rat :=
  ((List.range 16).foldl (fun (p : Rat × Rat) _ =>
    let m := p.1 + p.2
    if (r.scale m 1).mag ≤ lim then (m, p.2 / 2) else (p.1, p.2 / 2)) ((0 : Rat), (1 / 2 : Rat))).1

/-- Rule 1 of R282: reactive first. -/
def limitQFirst (r : Refs) (lim : Rat) : Refs :=
  let q := absQ r.qp + absQ r.qn
  let r := if lim < q then r.scale 1 (divQ lim q) else r
  r.scale (bisect r lim) 1

/-- The limit of R282 under a rule; the second component says that a reduction acts. -/
def limitRefs (r : Refs) (lim : Rat) (prio : Nat) : Refs × Bool :=
  if r.mag ≤ lim then (r, false)
  else if prio = 1 then (limitQFirst r lim, true)
  else if prio = 2 then ((limitQFirst r.swap lim).swap, true)
  else
    let k := divQ lim r.mag
    (r.scale k k, true)

/-- The rotation of R283: positive- and negative-sequence parts. -/
def rotateRefs (r : Refs) (php phn : BitVec 32) : (Rat × Rat) × (Rat × Rat) :=
  let t := fun (d q : Rat) (g : BitVec 32) => (d * cosG g - q * sinG g, d * sinG g + q * cosG g)
  (t r.dp r.qp php, t r.dn r.qn phn)

/-! ### Forming machine (R286–R291) -/

/-- A forming parameter within its range (R286). -/
def fmPar (c : State) (off : Nat) (lo hi : Rat) : Rat := clampRat lo hi (c.puQ off)

/-- What a machine step gives. -/
structure Fm where
  thv : BitVec 32
  w : Int
  e : Int
  pm : Int
  lim : Bool
  retN : Nat
  pmRet : Bool
  ev : Rat × Rat
  /-- The unlimited and the published current reference. -/
  iu : Rat × Rat
  out : Rat × Rat
  ovf : Bool
deriving DecidableEq, Repr

/-- A tracking step (R291). -/
def fmTrack (c : State) (t : Trk) : Fm :=
  let g := c.hid.grid
  let rv := fmPar c R.GRID_FM_RV (1 / 100) 2
  let x := fmPar c R.GRID_FM_XV (5 / 100) 2 * ofPu48 t.f
  let v := fun j => t.v.getD j 0
  let i := fun j => t.i.getD j 0
  let ea := v 0 + rv * i 0 - x * i 1
  let eb := v 1 + rv * i 1 + x * i 0
  let e := sqrtQ (ea * ea + eb * eb)
  { thv := atan2G eb ea, w := t.f, e := narrow48 e, pm := g.pm, lim := false, retN := 0, pmRet := false, ev := (ea, eb),
    iu := (i 0, i 1), out := (i 0, i 1), ovf := over48 e || over36 ea || over36 eb || over36 (i 0) || over36 (i 1) }

/-- A running step (R287–R290) with the set-points `p` and `q`. -/
def fmRun (c : State) (t : Trk) (ts p q : Rat) : Fm :=
  let g := c.hid.grid
  let fset := fmPar c R.GRID_FM_F_SET (fLo c) (fHi c)
  let mp := fmPar c R.GRID_FM_MP 0 1
  let w0 := ofPu48 g.w
  let pe := ofPu48 t.pe
  let wd := if c.on F.GRID_FM_CFG_dref || !t.locked then fset else ofPu48 t.f
  let want := p - (if mp = 0 then 0 else divQ (w0 - fset) mp)
  let pm := if g.lim then pe else if g.pmRet then rampTo (ofPu48 g.pm) want (c.puQ R.GRID_P_RATE) ts else want
  let w := clampRat (fLo c) (fHi c)
    (w0 + divQ (ts * (pm - pe - fmPar c R.GRID_FM_D 0 31 * (w0 - wd))) (2 * fmPar c R.GRID_FM_H (1 / 10) 20))
  let wq := narrow48 w
  let thv := g.thv + BitVec.ofInt 32 (roundHalfEven (ofPu48 wq * fnomHz c * ts * 2 ^ 32))
  let e0 := ofPu48 g.e
  let e := if g.lim then e0 else
    e0 + divQ ts (fmPar c R.GRID_FM_TV (1 / 1000) 10 + ts) *
      (fmPar c R.GRID_FM_E0 (1 / 2) (3 / 2) + fmPar c R.GRID_FM_NQ 0 1 * (q - ofPu48 t.qe) - e0)
  let eq := ofPu48 (narrow48 e)
  let ea := eq * cosG thv
  let eb := eq * sinG thv
  let rv := fmPar c R.GRID_FM_RV (1 / 100) 2
  let x := fmPar c R.GRID_FM_XV (5 / 100) 2 * ofPu48 wq
  let da := ea - t.v.getD 0 0
  let db := eb - t.v.getD 1 0
  let den := rv * rv + x * x
  let iu := (divQ (rv * da + x * db) den, divQ (rv * db - x * da) den)
  let m := sqrtQ (iu.1 * iu.1 + iu.2 * iu.2)
  let lim := c.puQ R.GRID_ILIM
  let below := decide (m < fmPar c R.GRID_FM_RET (1 / 2) (99 / 100) * lim)
  let retN := if g.lim && below then g.retN + 1 else 0
  let leave := g.lim && decide (max 1 (c.f F.GRID_FM_CFG_ret_n) ≤ retN)
  let lim' := if g.lim then !leave else decide (lim < m)
  let k := divQ lim m
  { thv := thv, w := wq, e := narrow48 e, pm := narrow48 pm, lim := lim', retN := if lim' then retN else 0,
    pmRet := leave || (g.pmRet && decide (pm ≠ want)), ev := (ea, eb), iu := iu,
    out := if lim' then (k * iu.1, k * iu.2) else iu,
    ovf := over48 pm || over48 e || over36 iu.1 || over36 iu.2 || over36 ea || over36 eb }

/-- A pair narrowed to pu36 codes. -/
def narPair (v : Rat × Rat) : Int × Int := (narrow36 v.1, narrow36 v.2)

/-- Whether narrowing a pair saturates. -/
def overPair (v : Rat × Rat) : Bool := over36 v.1 || over36 v.2

/-! ### Bases (R279, R295) -/

/-- kS from the bases, held to its range, and whether that acts (R279). -/
def ksOf (s : State) : Rat × Bool :=
  let k := divQ (ieeeQ (s.rd R.GRID_SBASE)) (3 / 2 * ieeeQ (s.rd R.GRID_VBASE) * ieeeQ (s.rd R.GRID_IBASE))
  let lo : Rat := 1 / 2 ^ 20
  let hi : Rat := 32 - 1 / 2 ^ 30
  (clampRat lo hi k, decide (k < lo) || decide (hi < k))

/-- The base registers. -/
def baseRegs : List Nat := [R.GRID_VBASE, R.GRID_IBASE, R.GRID_SBASE, R.GRID_FNOM]

/-- A value that a base register takes (R295). -/
def baseOk (off : Nat) (v : Word) : Bool :=
  if off = R.GRID_FNOM then v = 0x42480000#32 ∨ v = 0x42700000#32
  else 0 < ieeeQ v ∧ ieeeQ v ≤ 1000000000

/-- GRID_BASE_WRITE (R279, R295). -/
def baseWrite (p : Port) (off : Nat) (v : Word) : Act := fun s =>
  if (s.mode = DORMANT ∨ s.mode = CONFIGURE) ∧ baseOk off v then
    seq [setW off v, withS fun t =>
      seq [setPu R.GRID_KS (narrow36 (ksOf t).1), only (ksOf t).2 (setB F.GRID_EVENT_ks_range)]] s
  else accErr p 3 off s

end Sys2Proof.Machine
end

