-- ==== Sys2Proof/Machine/Mppt.lean ====
section
/-!
DEFINITION. The MPPT ports: peak-current loop, perturb and observe, limits, global sweep (R302–R308).
-/

namespace Sys2Proof.Machine

/-- Changes what the MPPT engine holds, and what port `p` holds. -/
def mpptA (g : MpptSt → MpptSt) : Act := hidA fun h => { h with mppt := g h.mppt }
def portA (p : Nat) (g : PortSt → PortSt) : Act := mpptA fun m => { m with port := m.port.put {} p (g (m.port.get {} p)) }

/-- What port `p` holds. -/
def portSt (s : State) (p : Nat) : PortSt := s.hid.mppt.port.get {} p

/-- Port `p` is enabled. -/
def portEn (s : State) (p : Nat) : Bool := bit (s.f F.MPPT_CTL_en) p

/-- Voltage and current sources of port `p`: converter × 16 + entry (R302). -/
def portSrc (s : State) (p : Nat) : Option (Nat × Nat) := (recAt tUnitMppt p s.hid.fing.recs).map fun r => (r.b 3, r.b 4)

/-- What a step latches of port `p` at cycle 0 (R298): v, i, and whether each was renewed since the last step start. -/
def portLatch (s : State) (p : Nat) : Int × Int × Bool × Bool := let a := portSt s p; (a.v, a.i, a.vNew, a.iNew)

/-- An observation interval begins (R305). -/
def PortSt.restart (a : PortSt) : PortSt := { a with n := 0, sumP := 0, sumV := 0, staleV := true, staleI := true }

/-- A result leaves the boundary FIFO of the grid block for its input slot, or for its port (R33, R266, R302). -/
def gridLand (x : Nat × Int) : Act :=
  if x.1 < 64 then hidA fun h => { h with grid := { h.grid with slots := h.grid.slots.put 0 x.1 x.2, got := putBit h.grid.got x.1 true } }
  else portA ((x.1 - 64) / 2) fun a => if x.1 % 2 = 0 then { a with v := x.2, vNew := true } else { a with i := x.2, iNew := true }

/-- A result for destination `j` reaches the boundary of island GRID (R33). -/
def gridArrive (full : Bool) (j : Nat) (v : Int) : Act := fun s =>
  let t := fifoTake full s.hid.grid.fifo (j, v)
  seq [match t.1 with
    | some x => gridLand x
    | none => nop,
    hidA fun h => { h with grid := { h.grid with fifo := t.2 } }] s

/-- Every result sent has reached its slot or port. -/
def gridDrain : Act := fun s => seq [forEach s.hid.grid.fifo gridLand, hidA fun h => { h with grid := { h.grid with fifo := [] } }] s

/-- A converter result goes to the ports that use it. -/
def mpptDeliver (full : Bool) (c q : Nat) (v : Int) : Act := whenA (fun s => s.up ∧ s.island 9) fun s =>
  forEach (List.range 8) (fun p => match portSrc s p with
    | some x => seq [only (x.1 = 16 * c + q) (gridArrive full (64 + 2 * p) v), only (x.2 = 16 * c + q) (gridArrive full (65 + 2 * p) v)]
    | none => nop) s

/-- MPPT modes (R127, R303). -/
def mpptRuns (m : Nat) : Bool := m = FOLLOW ∨ m = FORM ∨ m = RIDE

/-! ### Sweep (R307, R308) -/

/-- Dwell per point, ms, and points of a sweep. -/
def sweepDwell (s : State) : Nat := max 1 (min 25 (s.f F.MPPT_SWEEP_CFG_dwell_ms))
def sweepPts (s : State) : Nat :=
  let n := max 16 (min 64 (s.f F.MPPT_SWEEP_CFG_pts))
  if 400 < n * sweepDwell s then 400 / sweepDwell s else n

/-- Voltage of point `n` of port `p`. -/
def sweepPoint (s : State) (p n : Nat) : Rat :=
  let hi := s.puQ (R.MPPT_P_VHI p)
  hi - n * (hi - s.puQ (R.MPPT_P_VLO p)) / ((sweepPts s : Rat) - 1)

/-- The sweep of port `p` begins. -/
def portSweep (p : Nat) : Act := fun s =>
  seq [setB F.MPPT_STAT_sweeping, setF F.MPPT_STAT_sweep_port p,
    portA p fun a => { a with
      sweep := some { pPre := s.pu (R.MPPT_P_P p), vPre := a.vref }, vref := narrow48 (sweepPoint s p 0) }] s

/-- The round goes on with the ports left. -/
def sweepNext (ports : List Nat) : Act :=
  seq [mpptA fun m => { m with round := ports },
    match ports with
    | [] => clrB F.MPPT_STAT_sweeping
    | p :: _ => portSweep p]

/-- The round ends early (R308): the port gets its reference back. -/
def sweepAbort : Act := fun s =>
  match s.hid.mppt.round with
  | [] => []
  | p :: _ => seq [
      portA p fun a => { a.restart with vref := (a.sweep.map (·.vPre)).getD a.vref, sweep := none },
      mpptA fun m => { m with round := [] }, clrB F.MPPT_STAT_sweeping, setB F.MPPT_EVENT_sweep_abort] s

/-- A due round waits for a step in FOLLOW (R308). -/
def sweepDefer : Act := seq [setB F.MPPT_EVENT_sweep_defer, setB F.MPPT_STAT_sweep_due]

/-- A round falls due (R307, R308). -/
def sweepFallsDue : Act := whenA (fun s => s.up ∧ s.island 9) fun s =>
  seq [mpptA fun m => { m with due := true }, only (s.mode ≠ FOLLOW) sweepDefer] s

/-- SWEEP_DUE: rounds fall due only while `min` is not 0 and the mode has grid steps (R307, R334). -/
def sweepDue : Act := whenA (fun s => s.f F.MPPT_SWEEP_CFG_min ≠ 0 ∧ s.mode ≠ DORMANT ∧ s.mode ≠ CONFIGURE) sweepFallsDue

/-- SWEEP_NOW: a write of `MPPT_CTL` (R307). -/
def mpptCtl (v : Word) : Act :=
  seq [setF F.MPPT_CTL_en v.toNat, only (v.getLsbD 16) (seq [setB F.MPPT_CTL_sweep_now, sweepFallsDue])]

/-- A due round starts at a step in FOLLOW. -/
def sweepStart : Act := whenA (fun s => s.mode = FOLLOW ∧ s.hid.mppt.due ∧ s.hid.mppt.round = []) fun s =>
  seq [mpptA fun m => { m with due := false }, clrB F.MPPT_CTL_sweep_now, clrB F.MPPT_STAT_sweep_due,
    sweepNext ((List.range 8).filter fun p => portEn s p ∧ s.on (F.MPPT_P_CFG_sweep_en p))] s

/-- SWEEP_DWELL_END (R307). -/
def dwellEnd : Act := fun s =>
  match s.hid.mppt.round with
  | [] => []
  | p :: rest =>
    match (portSt s p).sweep with
    | none => []
    | some w =>
      let avg := divQ w.sum w.cnt
      let here := (avg, sweepPoint s p w.n)
      let best := match w.best with
        | none => here
        | some b => if b.1 < avg then here else b
      if w.n + 1 < sweepPts s then
        portA p (fun a => { a with
          vref := narrow48 (sweepPoint s p (w.n + 1)),
          sweep := some { w with n := w.n + 1, t := 0, sum := 0, cnt := 0, best := some best } }) s
      else
        let bp := narrow36 best.1
        let moved := decide (ofPu w.pPre * (1 + s.puQ R.MPPT_SWEEP_GAIN) < ofPu bp)
        seq [
          setPu (R.MPPT_P_BEST_V p) (narrow36 best.2), setPu (R.MPPT_P_BEST_P p) bp,
          portA p fun a => { a.restart with
            vref := if moved then narrow48 best.2 else w.vPre, pLast := if moved then bp else w.pPre, sweep := none },
          only (over36 best.1 || over36 best.2) (setB F.MPPT_EVENT_ovf),
          only moved (seq [setB F.MPPT_EVENT_sweep_moved, bump (R.MPPT_P_MOVES p)]),
          setB F.MPPT_EVENT_sweep_done, sweepNext rest] s

/-! ### One step of a port (R303–R306) -/

/-- The port's power from the latched v and i. -/
def portPower (c : State) (v i : Rat) : Rat := divQ (v * i) (3 / 2 * c.puQ R.GRID_KS)

/-- The end of an interval (R305, R306): state, v_ref, direction, whether v_ref was clamped. -/
def observe (c : State) (p : Nat) (a : PortSt) (m : Nat) (vdc pw vm : Rat) (dir : Bool) : Nat × Rat × Bool × Bool :=
  let lo := c.puQ (R.MPPT_P_VLO p)
  let hi := c.puQ (R.MPPT_P_VHI p)
  let dmin := c.puQ (R.MPPT_P_DMIN p)
  let dmax := c.puQ (R.MPPT_P_DMAX p)
  let pdb := c.puQ (R.MPPT_P_PDB p)
  let vref := ofPu48 a.vref
  let dp := pw - ofPu a.pLast
  let dv := vm - ofPu a.vLast
  let sp := c.puQ R.MPPT_VDC_SP
  if m = FORM ∧ sp < vdc then
    let w := vref + c.puQ R.MPPT_KDC * (vdc - sp)
    (4, min w hi, dir, decide (hi < w))
  else if c.puQ (R.MPPT_P_PLIM p) < pw then (5, min (vref + dmax) hi, dir, decide (hi < vref + dmax))
  else
    let step := if absQ dp ≤ pdb then dmin
      else clampS (c.puQ (R.MPPT_P_KA p) * divQ (absQ dp) (max (absQ dv) (1 / 2 ^ 20))) dmin dmax
    let dir := if dp < -pdb then !dir else dir
    let w := if dir then vref + step else vref - step
    let r := clampS w lo hi
    (1, r, dir, decide (r ≠ w))

/-- The peak-current loop (R304): ipk and whether a clamp acted. -/
def peakLoop (c : State) (p : Nat) (ipk e ePrev ts : Rat) : Rat × Bool :=
  let w := ipk + c.puQ (R.MPPT_P_KP p) * (e - ePrev) + c.puQ (R.MPPT_P_KI p) * e * ts
  let r := clampS w 0 (c.puQ (R.MPPT_P_IPK_MAX p))
  (r, decide (r ≠ w))

/-- A port that starts: v_ref from VSTART, ipk 0, direction downwards (R303).  DESIGN CHOICE, log entry 84. -/
def portStart (c : State) (p : Nat) : Act := fun s =>
  let x := s.hid.grid.ports.getD p (0, 0, false, false)
  let w := c.puQ (R.MPPT_P_VSTART p) * ofPu x.1
  seq [portA p fun a => { a.restart with on := true, vref := narrow48 w, ipk := 0 }, clrB (F.MPPT_P_STAT_dir p),
    only (over48 w) (setB F.MPPT_EVENT_ovf)] s

/-- A port's sweep after a step of `n` ticks with power `pp`: the second half of the dwell is averaged (R307). -/
def SweepSt.step (w : SweepSt) (dwell n : Nat) (pp : Rat) : SweepSt :=
  if 800000 * dwell ≤ 2 * w.t then { w with t := w.t + n, sum := w.sum + pp, cnt := w.cnt + 1 } else { w with t := w.t + n }

/-- The state that a port shows (R303, R306): 4 and 5 stand until the next interval ends, 4 in FORM only. -/
def portState (m st0 : Nat) (sweeps upd : Bool) (o : Nat) : Nat :=
  if m = RIDE then 3 else if sweeps then 2 else if upd then o else if (st0 = 4 ∧ m = FORM) ∨ st0 = 5 then st0 else 1

/-- A step of a port that is not off, in mode `m` with DC-link voltage `vdc` and step time `n` ticks. -/
def portStep (c : State) (p m n : Nat) (vdc : Rat) : Act := fun s =>
  let a := portSt s p
  let x := s.hid.grid.ports.getD p (0, 0, false, false)
  let v := ofPu x.1
  let stV := !x.2.2.1
  let stI := !x.2.2.2
  let pp := portPower c v (ofPu x.2.1)
  let track := decide (m ≠ RIDE) && a.sweep.isNone
  let k := a.n + 1
  let close := track && decide (max 1 (c.f (F.MPPT_P_CFG_n_obs p)) ≤ k)
  let upd := close && !(a.staleV && stV) && !(a.staleI && stI)
  let pw := q36 ((a.sumP + pp) / k)
  let vm := q36 ((a.sumV + v) / k)
  let o := observe c p a m vdc pw vm (s.on (F.MPPT_P_STAT_dir p))
  let vref := if upd then narrow48 o.2.1 else a.vref
  let e := v - ofPu48 vref
  let l := peakLoop c p (ofPu48 a.ipk) e (ofPu48 a.ePrev) (secs n)
  let ipk := narrow48 l.1
  let code := clampInt 0 4095 (2048 + roundHalfEven (ofPu48 ipk * ((c.rd (R.MPPT_P_THSCALE p)).toNat : Rat) / 2 ^ 16))
  let mon := c.f (F.MPPT_P_CFG_mon p)
  let b := if close then a.restart
    else if track then { a with n := k, sumP := a.sumP + pp, sumV := a.sumV + v, staleV := a.staleV && stV, staleI := a.staleI && stI }
    else a
  seq [
    portA p fun _ => { b with
      vref := vref, ipk := ipk, ePrev := narrow48 e,
      pLast := if upd then narrow36 pw else a.pLast, vLast := if upd then narrow36 vm else a.vLast,
      sweep := a.sweep.map fun w => w.step (sweepDwell c) n pp },
    setPu (R.MPPT_P_V p) x.1, setPu (R.MPPT_P_I p) x.2.1, only upd (setPu (R.MPPT_P_P p) (narrow36 pw)),
    setPu (R.MPPT_P_VREF p) (narrow36 (ofPu48 vref)), setPu (R.MPPT_P_IPK p) (narrow36 (ofPu48 ipk)),
    setF (F.MPPT_P_STAT_state p) (portState m (s.f (F.MPPT_P_STAT_state p)) a.sweep.isSome upd o.1),
    setF (F.MPPT_P_STAT_stale p) (b2n (stV || stI)), only (stV || stI) (setB F.MPPT_EVENT_stale),
    only upd (setF (F.MPPT_P_STAT_dir p) (b2n o.2.2.1)),
    only upd (setF (F.MPPT_P_STAT_plim p) (b2n (c.puQ (R.MPPT_P_PLIM p) < pw))),
    only (upd && o.2.2.2) (setB F.MPPT_EVENT_vref_clip),
    setF (F.MPPT_P_STAT_vref_clip p) (b2n (ofPu48 vref ≤ c.puQ (R.MPPT_P_VLO p) ∨ c.puQ (R.MPPT_P_VHI p) ≤ ofPu48 vref)),
    only l.2 (setB F.MPPT_EVENT_ipk_clip),
    setF (F.MPPT_P_STAT_ipk_clip p) (b2n (ofPu48 ipk ≤ 0 ∨ c.puQ (R.MPPT_P_IPK_MAX p) ≤ ofPu48 ipk)),
    only ((upd && (over36 ((a.sumP + pp) / k) || over48 o.2.1)) || over48 l.1 || over48 e || over36 (ofPu48 vref) || over36 (ofPu48 ipk))
      (setB F.MPPT_EVENT_ovf),
    codeSend mon code.toNat] s

/-- A port is off (R303, R334). -/
def portOff (p : Nat) : Act := seq [setF (F.MPPT_P_STAT_state p) 0, portA p fun a => { a with on := false }]

/-- The power of the ports that are not off (R305). -/
def portSum (s : State) : Rat :=
  ((List.range 8).filter fun p => s.f (F.MPPT_P_STAT_state p) ≠ 0).foldl (fun t p => t + s.puQ (R.MPPT_P_P p)) 0

/-- The MPPT engine's part of a grid step in mode `m` (R298, R303); no round starts in a step that `rides`, that is one that enters
RIDE (R333); quantity 40 is the sum over the ports that are not off. -/
def mpptStep (c : State) (m n : Nat) (vdc : Rat) (rides : Bool) : Act :=
  seq [
    whenA (fun s => (s.hid.mppt.round.head?.map (portEn c)) = some false) sweepAbort,
    only (mpptRuns m) (forEach (List.range 8) fun p =>
      whenA (fun s => portEn c p && (s.hid.mppt.start || !(portSt s p).on)) (portStart c p)),
    only (m = FOLLOW && !rides) sweepStart,
    forEach (List.range 8) (fun p => if mpptRuns m && portEn c p then portStep c p m n vdc else portOff p),
    only (mpptRuns m) (mpptA fun x => { x with start := false }),
    fun s => seq [setPu R.MPPT_PSUM (narrow36 (portSum s)), only (over36 (portSum s)) (setB F.MPPT_EVENT_ovf)] s]

/-- Without grid steps the ports are off, and sweep timing stops (R334). -/
def mpptIdle : Act := seq [sweepAbort, forEach (List.range 8) portOff]

end Sys2Proof.Machine
end

