-- ==== Sys2Proof/Machine/NetTime.lean ====
section
/-!
DEFINITION. The network-time counter and the state of its block, as other blocks read them (R424, R426, R427).
-/

namespace Sys2Proof.Machine

/-! ### The CAN controllers as network time sees them -/

/-- What controller `k` holds. -/
def canSt (s : State) (k : Nat) : CanSt := s.hid.can.get {} k

/-- Island CAN runs. -/
def canOn (s : State) : Bool := s.up ∧ s.island 14

/-- `CAN[k]_STAT.state`, and the states in which a controller takes part in the bus: a disable of the island ends them when
its frame in progress has ended (R429). -/
def canState (s : State) (k : Nat) : Nat := s.f (F.CAN_STAT_state k)
def canActive (s : State) (k : Nat) : Bool := s.up ∧ (canState s k = 2 ∨ canState s k = 3)

/-! ### The counter (R424) -/

/-- The count of a stretch `n` ticks after its start. -/
def NtLine.after (l : NtLine) (n : Nat) : Int := l.count + (min n l.slewN : Nat) * l.incS + (n - l.slewN : Nat) * l.inc

/-- The count at device time `t` on the newest of the stretches that had begun by then; a tick before all reads the start of the
oldest. -/
def ntCountOn (t : BitVec 64) (l : NtLine) : List NtLine → Int
  | [] => if 0 ≤ (t - l.at0).toInt then l.after (t - l.at0).toNat else l.count
  | m :: rest => if 0 ≤ (t - l.at0).toInt then l.after (t - l.at0).toNat else ntCountOn t m rest

/-- The counter at device time `t`, in units of 2⁻³² ns.  DEDUCED, log entry 57. -/
def ntCount (s : State) (t : BitVec 64) : Int := ntCountOn t s.hid.nt.line s.hid.nt.was

/-- Network time at device time `t`, in ns (R424). -/
def ntAt (s : State) (t : BitVec 64) : Rat := (ntCount s t : Rat) / 2 ^ 32

/-- The same as the 64-bit count. -/
def ntWord (s : State) (t : BitVec 64) : BitVec 64 := BitVec.ofInt 64 (ntAt s t).floor

/-- What a tick adds to the counter, in units of 2⁻³² ns, with a rate correction `adj` and an extra rate of `slew` ns per tick
(R424, R427). -/
def ntInc (adj : Int) (slew : Rat) : Int := roundHalfEven ((5 / 4 * (1 + (adj : Rat) / 2 ^ 40) + slew) * 2 ^ 32)

/-! ### Role and state (R425, R426) -/

/-- The role acts as: 0 off, 1 slave, 2 master; a master that yielded acts as a slave. -/
def ntRole (s : State) : Nat :=
  match s.f F.CAN_NT_CFG_role with
  | 1 => 1
  | 2 => if s.hid.nt.yielded then 1 else 2
  | _ => 0

/-- A master sends while its controller takes part in the bus and may drive it. -/
def ntSends (s : State) : Bool :=
  let k := s.f F.CAN_NT_CFG_ctrl
  ntRole s = 2 ∧ canOn s ∧ canActive s k ∧ s.on (F.CAN_CTL_en k) ∧ !(canSt s k).listen

/-- `CAN_NT_STAT.state` and `nt_sync` as they read (R426, R427): a master reads 2 and 1 while it sends. -/
def ntStateRead (s : State) : Nat := if ntRole s = 2 then (if ntSends s then 2 else 0) else s.f F.CAN_NT_STAT_state
def ntSync (s : State) : Bool := if ntRole s = 2 then ntSends s else s.on F.CAN_NT_STAT_nt_sync

/-- `CAN_NT_STAT` as read. -/
def ntStatWord (s : State) : Word :=
  (s.rd R.CAN_NT_STAT &&& ~~~ 7#32) ||| BitVec.ofNat 32 (ntStateRead s % 4 + 4 * b2n (ntSync s))

end Sys2Proof.Machine
end

