-- ==== Sys2Proof/Machine/Can.lean ====
section
/-!
DEFINITION. The CAN FD controllers: enable and bit timing, mailboxes and FIFO, transmission, errors, sleep and wake
(spec/17, R411–R423, R429–R433).
-/

namespace Sys2Proof.Machine

/-- Changes what controller `k` holds. -/
def canA (k : Nat) (g : CanSt → CanSt) : Act := hidA fun h => { h with can := h.can.put {} k (g (h.can.get {} k)) }

/-- Data bytes that a DLC stands for (R411). -/
def dlcBytes (fdf : Bool) (dlc : Nat) : Nat :=
  if dlc ≤ 8 then dlc else if !fdf then 8
  else if dlc ≤ 12 then 4 * dlc - 24 else 16 * dlc - 176

/-! ### Frames that go on (R429, R422) -/

/-- A frame has ended: a disable and a request to sleep take effect. -/
def canFrameEnd (k : Nat) : Act := fun s =>
  if (canSt s k).cur.isSome ∨ (canSt s k).rx then []
  else if !s.on (F.CAN_CTL_en k) then setF (F.CAN_STAT_state k) 0 s
  else if (canSt s k).sleepReq ∧ (canState s k = 2 ∨ canState s k = 3) then
    seq [setF (F.CAN_STAT_state k) 5, canA k fun c => { c with sleepReq := false, stb := s.on (F.CAN_CTL_stb_sleep k) }] s
  else []

/-- The frame being sent or received ends. -/
def canTxEnd (k : Nat) : Act := seq [canA k (fun c => { c with cur := none, rx := false }), clrB (F.CAN_STAT_tx_busy k)]

/-- A disable or a request to sleep finds the bus: whether a frame is being received, or the bus is not idle yet, is free; no
command begins a reception.  DESIGN CHOICE, log entry 111. -/
def canBusy (k : Nat) : Act := whenA (fun s => canActive s k ∧ (canSt s k).cur.isNone)
  (withEnv fun n => canA k fun c => { c with rx := n.testBit 0 })

/-- The controller leaves sleep for bus integration (R422). -/
def canWakeUp (k : Nat) : Act := seq [setF (F.CAN_STAT_state k) 1, canA k fun c => { c with stb := false, sleepReq := false }]

/-! ### Control (R412, R421, R422, R429) -/

/-- Bit timing lies in its ranges and is not too short (R412). -/
def timingOk (s : State) (k : Nat) : Bool :=
  let n := fun x => s.f x
  let nb := n (F.CAN_NBT_brp k)
  let n1 := n (F.CAN_NBT_tseg1 k)
  let n2 := n (F.CAN_NBT_tseg2 k)
  let nj := n (F.CAN_NBT_sjw k)
  let db := n (F.CAN_DBT_brp k)
  let d1 := n (F.CAN_DBT_tseg1 k)
  let d2 := n (F.CAN_DBT_tseg2 k)
  let dj := n (F.CAN_DBT_sjw k)
  decide (1 ≤ nb ∧ nb ≤ 32 ∧ 2 ≤ n1 ∧ n1 ≤ 256 ∧ 1 ≤ n2 ∧ n2 ≤ 128 ∧ 1 ≤ nj ∧ nj ≤ 128 ∧ nj ≤ n2 ∧ 80 ≤ nb * (1 + n1 + n2)) &&
  decide (1 ≤ db ∧ db ≤ 32 ∧ 1 ≤ d1 ∧ d1 ≤ 32 ∧ 1 ≤ d2 ∧ d2 ≤ 16 ∧ 1 ≤ dj ∧ dj ≤ 16 ∧ dj ≤ d2 ∧ 10 ≤ db * (1 + d1 + d2))

/-- An accepted enable: timing and mode are taken, TEC and REC become 0, and integration begins (R412, R421, R429).
DESIGN CHOICE, log entry 89: CANSTBk goes low, as with every other start of integration (R422). -/
def canStart (k : Nat) : Act := fun s =>
  seq [canA k (fun c => { c with nbt := s.rd (R.CAN_NBT k), dbt := s.rd (R.CAN_DBT k), listen := k = 3 ∧ s.f (F.CAN_CTL_mode k) = 1,
                                 recovering := false, stb := false, rx := false }),
    clrB (F.CAN_CTL_recover k), setF (F.CAN_ERR_tec k) 0, setF (F.CAN_ERR_rec k) 0, setF (F.CAN_STAT_state k) 1] s

/-- A write of `CAN[k]_CTL`: each request in it is judged; the code is that of the enable and its mode, else that of the
sleep. Listen-only on CAN0 to CAN2 is refused, and `mode` keeps its value (R421). `recover` reads 1 from a write of 1 to the
end of a recovery or the next enable.  DESIGN CHOICE, log entry 110. -/
def canCtl (k : Nat) (v : Word) : Act := fun s =>
  let st := canSt s k
  let rise := v.getLsbD 0 && !s.on (F.CAN_CTL_en k)
  let mode := v.toNat / 2 % 4
  let wake := decide (st.wakeT.map (·.toNat / 10) = some (s.now.toNat / 10))
  let sleep := v.getLsbD 3 && !wake
  let keep := decide (k ≠ 3 ∧ mode = 1)
  let c1 : Nat := if keep then 1 else if rise ∧ !timingOk s k then 3 else 0
  let c2 : Nat := if !sleep ∨ canState s k = 5 then 0 else if k = 3 then 2 else if v.toNat / 32 % 4 = 2 ∧ v.getLsbD 4 then 4 else 0
  let en := v.getLsbD 0 && (decide (c1 = 0) || !rise)
  let m : Word := if keep then 0x3F0#32 else 0x3F6#32
  let slp := sleep && decide (c2 = 0)
  seq [
    setW (R.CAN_CTL k) ((s.rd (R.CAN_CTL k) &&& ~~~ (m ||| 9#32)) ||| (v &&& (m ||| 0x400#32)) ||| BitVec.ofNat 32 (b2n en + 8 * b2n slp)),
    setF (F.CAN_STAT_result k) (if c1 ≠ 0 then c1 else c2),
    only (rise && en) (canStart k),
    only (slp && decide (canState s k ≠ 5)) (canA k fun c => { c with sleepReq := true }),
    only (!v.getLsbD 3) (canA k fun c => { c with sleepReq := false }),
    only (!v.getLsbD 3 && decide (canState s k = 5)) (canWakeUp k),
    only (v.getLsbD 10 && decide (canState s k = 4)) (canA k fun c => { c with recovering := true }),
    only (slp || (!en && s.on (F.CAN_CTL_en k))) (canBusy k),
    canFrameEnd k] s

/-! ### Received frames (R414, R415) -/

/-- An identifier passes a filter: identifier and mask words laid out as `CAN[k]_WAKE_ID`. -/
def idPasses (m : CanMsg) (id mask : Word) : Bool :=
  ((m.id.zeroExtend 32 ||| BitVec.ofNat 32 (b2n m.ide * 2 ^ 31)) ^^^ id) &&& mask &&& 0x9FFFFFFF#32 = 0#32

/-- Receive mailbox `b` accepts the frame, but for its lock (R414). -/
def mbMatches (s : State) (k b : Nat) (m : CanMsg) : Bool :=
  s.f (F.CAN_MB_CFG_dir k b) = 2 ∧ s.on (F.CAN_MB_ID_ide k b) = m.ide ∧ s.on (F.CAN_MB_CFG_fdf k b) = m.fdf ∧
  (m.id.zeroExtend 32 ^^^ s.rd (R.CAN_MB_ID k b)) &&& s.rd (R.CAN_MB_MASK k b) &&& 0x1FFFFFFF#32 = 0#32

/-- The data words of a frame over those that stood. -/
def dataWord (old : Word) (d : List Byte) (w : Nat) : Word :=
  BitVec.ofNat 32 ((List.range 4).foldl (fun a i =>
    a + (d.getD (4 * w + i) (old.extractLsb' (8 * i) 8)).toNat * 2 ^ (8 * i)) 0)

/-- `_CFG` of a frame as a mailbox or the head window shows it, over the bits that stay. -/
def frameCfg (m : CanMsg) (keep : Word) : Word :=
  (keep &&& 0x000F000F#32) |||
    BitVec.ofNat 32 (m.dlc.toNat * 256 + b2n m.esi * 128 + b2n m.rtr * 64 + b2n m.brs * 32 + b2n m.fdf * 16)

/-- Identifier word of a frame. -/
def frameId (m : CanMsg) : Word := m.id.zeroExtend 32 ||| BitVec.ofNat 32 (b2n m.ide * 2 ^ 31)

/-- The data bytes that a frame carries. -/
def msgBytes (m : CanMsg) : List Byte := m.data.take (dlcBytes m.fdf m.dlc.toNat)

/-- A frame fills mailbox `b`. -/
def mbStore (k b : Nat) (m : CanMsg) (sof : BitVec 64) : Act := fun s =>
  seq [setW (R.CAN_MB_CFG k b) (frameCfg m (s.rd (R.CAN_MB_CFG k b)) ||| 0x20000#32),
    setW (R.CAN_MB_ID k b) (frameId m), set64 (R.CAN_MB_TS k b) sof,
    only (!m.rtr) (forEach (List.range 16) fun w => only (4 * w < (msgBytes m).length)
      (setW (R.CAN_MB_DATA k b w) (dataWord (s.rd (R.CAN_MB_DATA k b w)) (msgBytes m) w))),
    setB (F.CAN_EVENT_rx k)] s

/-- The head window and the level follow the FIFO (R415, R433). -/
def headShow (k : Nat) : Act := fun s =>
  let q := (canSt s k).fifo
  let x := q.head?
  seq [setF (F.CAN_STAT_fifo_lvl k) q.length,
    setW (R.CAN_HEAD_CFG k) (match x with | some f => frameCfg f.1 0#32 | none => 0#32),
    setW (R.CAN_HEAD_ID k) (match x with | some f => frameId f.1 | none => 0#32),
    set64 (R.CAN_HEAD_TS k) (match x with | some f => f.2 | none => 0#64),
    forEach (List.range 16) fun w => setW (R.CAN_HEAD_DATA k w) (match x with | some f => dataWord 0#32 (msgBytes f.1) w | none => 0#32)] s

/-- The FIFO's filter accepts the frame, under the rule of R414: `ide` agrees whatever the mask (R415). -/
def fifoPasses (s : State) (k : Nat) (m : CanMsg) : Bool :=
  s.on (F.CAN_RXF_CTL_en k) ∧ (s.rd (R.CAN_RXF_ID k)).getLsbD 31 = m.ide ∧
  (m.id.zeroExtend 32 ^^^ s.rd (R.CAN_RXF_ID k)) &&& s.rd (R.CAN_RXF_MASK k) &&& 0x1FFFFFFF#32 = 0#32

/-- A frame is offered to the FIFO (R415). -/
def fifoOffer (k : Nat) (m : CanMsg) (sof : BitVec 64) : Act := fun s =>
  let q := (canSt s k).fifo
  if !fifoPasses s k m then bump (R.CAN_RX_DROP k) s
  else if 32 ≤ q.length then seq [bump (R.CAN_RXF_OVR k), setB (F.CAN_EVENT_fifo_ovr k)] s
  else seq [canA k fun c => { c with fifo := c.fifo ++ [(m, sof)] }, only q.isEmpty (setB (F.CAN_EVENT_fifo k)), headShow k] s

/-- Error-active or error-passive, as the counters stand (R420). -/
def canErrState (k : Nat) : Act := fun s =>
  if canState s k = 2 ∨ canState s k = 3 then
    setF (F.CAN_STAT_state k) (if 128 ≤ s.f (F.CAN_ERR_tec k) ∨ 128 ≤ s.f (F.CAN_ERR_rec k) then 3 else 2) s
  else []

/-- CAN_FRAME_RX (R414, R415): a frame being sent has lost arbitration to it (R416).
DESIGN CHOICE, log entry 25. DEDUCED, log entry 55. -/
def canRx (k : Nat) (m : CanMsg) (sof : BitVec 64) : Act := whenA (fun s => canActive s k) fun s =>
  let hits := (List.range 64).filter fun b => mbMatches s k b m
  let r := s.f (F.CAN_ERR_rec k)
  seq [
    canTxEnd k,
    match hits.find? fun b => !s.on (F.CAN_MB_CFG_new k b) with
    | some b => mbStore k b m sof
    | none => seq [
        (match hits with
        | b :: _ => setB (F.CAN_MB_CFG_lost k b)
        | [] => nop),
        fifoOffer k m sof],
    only (!(canSt s k).listen) (setF (F.CAN_ERR_rec k) (if r ≤ 127 then r - 1 else max 119 (min 127 (Config.freeRec s.fresh)))),
    freshA, canErrState k, canFrameEnd k] s

/-- RXF_POP (R415). -/
def rxfPop (k : Nat) (v : Word) : Act :=
  only (v.getLsbD 0) (seq [canA k fun c => { c with fifo := c.fifo.tail }, headShow k])

/-! ### Mailbox writes (R414, R418) -/

/-- A write of a mailbox register: refused while its `pend` reads 1 (R418). -/
def mbGuard (p : Port) (k b off : Nat) (a : Act) : Act := fun s =>
  if s.on (F.CAN_MB_CFG_pend k b) then accErr p errRefused off s else a s

/-- A write of `_CFG`: `new`, `lost` and `done` clear where written 1; the DLC of a receive mailbox is the frame's (R433). -/
def mbCfg (p : Port) (k b : Nat) (v : Word) : Act := mbGuard p k b (R.CAN_MB_CFG k b) fun s =>
  let w := s.rd (R.CAN_MB_CFG k b)
  let rw : Word := if v.toNat % 4 = 2 then 0x07B#32 else 0xF7B#32
  setW (R.CAN_MB_CFG k b) ((w &&& ~~~ (rw ||| (v &&& 0xE0000#32))) ||| (v &&& rw)) s

/-! ### Transmission (R416, R417) -/

/-- A write of `CAN[k]_TXRQ`: bits of transmit mailboxes make them pending; another is refused with code 7 (R418). -/
def canTxrq (k : Nat) (hi : Bool) (v : Word) : Act := fun s =>
  let bs := (bitsOf 32 v.toNat).map (· + 32 * b2n hi)
  let ok := bs.filter fun b => s.f (F.CAN_MB_CFG_dir k b) = 1
  seq [forEach ok fun b => setB (F.CAN_MB_CFG_pend k b), setF (F.CAN_STAT_result k) (if ok.length < bs.length then 7 else 0)] s

/-- Rank of an identifier in arbitration: lower wins; base before extended for equal leading bits (R416). -/
def arbRank (ide : Bool) (id : Nat) : Nat :=
  if ide then (id / 2 ^ 18 * 2 + 1) * 2 ^ 18 + id % 2 ^ 18 else id % 2 ^ 11 * 2 * 2 ^ 18

/-- The pending transmissions of controller `k` with their ranks: its mailboxes, and the reference frame after them (R426). -/
def canPending (s : State) (k : Nat) : List (Nat × CanTx) :=
  ((List.range 64).filter fun b => s.on (F.CAN_MB_CFG_pend k b)).map
      (fun b => (arbRank (s.on (F.CAN_MB_ID_ide k b)) (s.f (F.CAN_MB_ID_id k b)), CanTx.mb b))
  ++ (match s.hid.nt.ref with
    | some m => if s.f F.CAN_NT_CFG_ctrl = k then [(arbRank m.ide m.id.toNat, CanTx.ref m)] else []
    | none => [])

/-- The one that wins: the first of lowest rank. -/
def arbWinner : List (Nat × CanTx) → Option (Nat × CanTx)
  | [] => none
  | x :: l => match arbWinner l with
    | some y => if y.1 < x.1 then some y else some x
    | none => some x

/-- CAN_TX_START (R416): the choice is made before every start of frame.  DEDUCED, log entry 55.  A request to sleep that waits
for bus idle has it here: the frame stays pending, and the controller sleeps (R422, R430). -/
def canTxStart (k : Nat) : Act := whenA (fun s => canOn s ∧ canActive s k ∧ s.on (F.CAN_CTL_en k) ∧ !(canSt s k).listen ∧ (canSt s k).cur.isNone)
  fun s => match arbWinner (canPending s k) with
    | some x =>
      if (canSt s k).sleepReq then seq [canTxEnd k, canFrameEnd k] s
      else seq [canA k fun c => { c with cur := some (x.2, s.now), rx := false }, setB (F.CAN_STAT_tx_busy k)] s
    | none => []

/-- Sequence of a reference frame (R425). -/
def refSeq (m : CanMsg) : Nat := (m.data.getD 1 0#8).toNat

/-- The reference frame `m` has been sent, with its start of frame at device time `t` (R426, R434). -/
def refSent (m : CanMsg) (t : BitVec 64) : Act := fun s =>
  seq [setF F.CAN_NT_STAT_seq (refSeq m),
    hidA fun h => { h with nt := { h.nt with
      sof := some (refSeq m, ntAt s t), ref := if h.nt.ref.map refSeq = some (refSeq m) then none else h.nt.ref } }] s

/-- A transmission is an FD frame. -/
def txFd (s : State) (k : Nat) : CanTx → Bool
  | .mb b => s.on (F.CAN_MB_CFG_fdf k b)
  | .ref _ => true

/-- The transmitter delay that was measured in the FD frame being sent (R412). -/
def tdcMeas (k : Nat) (x : CanTx) (delay : BitVec 8) : Act := fun s =>
  only (txFd s k x && s.on (F.CAN_TDC_en k)) (setF (F.CAN_TDC_meas k) delay.toNat) s

/-- CAN_TX_DONE (R417). -/
def canTxDone (k : Nat) (delay : BitVec 8) : Act := whenA (fun s => (canSt s k).cur.isSome) fun s =>
  match (canSt s k).cur with
  | none => []
  | some x =>
    seq [
      (match x.1 with
      | .mb b => seq [clrB (F.CAN_MB_CFG_pend k b), setB (F.CAN_MB_CFG_done k b), set64 (R.CAN_MB_TS k b) x.2,
          setB (F.CAN_EVENT_tx_done k)]
      | .ref m => refSent m x.2),
      tdcMeas k x.1 delay,
      setF (F.CAN_ERR_tec k) (s.f (F.CAN_ERR_tec k) - 1), canErrState k, canTxEnd k, canFrameEnd k] s

/-- The code of a request to cancel pending mailbox `b` (R417). -/
def cancelCode (s : State) (k b : Nat) : Nat :=
  if s.on (F.CAN_MB_CFG_retry k b) then (if canState s k = 4 ∨ !s.on (F.CAN_CTL_en k) then 0 else 6)
  else if (canSt s k).cur.map (·.1) = some (.mb b) then 5 else 0

/-- A write of `CAN[k]_CANCEL` (R417): the code is that of the lowest mailbox refused.  DESIGN CHOICE, log entry 127. -/
def canCancel (k : Nat) (hi : Bool) (v : Word) : Act := fun s =>
  let bs := ((bitsOf 32 v.toNat).map (· + 32 * b2n hi)).filter fun b => s.on (F.CAN_MB_CFG_pend k b)
  let ok := bs.filter fun b => cancelCode s k b = 0
  let bad := bs.find? fun b => cancelCode s k b ≠ 0
  seq [forEach ok fun b => clrB (F.CAN_MB_CFG_pend k b), only (ok ≠ []) (setB (F.CAN_EVENT_tx_cancel k)),
    setF (F.CAN_STAT_result k) (match bad with | some b => cancelCode s k b | none => 0)] s

/-! ### Errors (R419, R420) -/

/-- `CAN[k]_ERR.last` of an error. -/
def faultCode : CanFault → Nat
  | .stuff => 1
  | .form => 2
  | .ack => 3
  | .bitRec => 4
  | .bitDom => 5
  | .crc => 6
  | .res => 2

/-- TEC after an error in a frame that the controller sends (R411): each error flag adds 8, and each further 8 dominant bits
after it another 8, which `told` may say; an error-passive sender that misses the acknowledgement, and a stuff error in
arbitration, may leave it as it is; `data`: the error lies in the data or CRC field.  DEDUCED, log entry 55. -/
def tecNext (t : Nat) (passive : Bool) (e : CanFault) (data : Bool) (told : Nat) : Nat :=
  let keeps := decide (e = .ack) && passive || decide (e = .stuff) && !data
  if t ≤ told ∧ (told - t) % 8 = 0 ∧ (told ≠ t ∨ keeps) then told else t + 8

/-- REC after an error in a frame that the controller receives (R411): the error adds 1, and each dominant bit after its error
flag, each bit error in that flag and each further 8 dominant bits add 8, which `told` may say.  DEDUCED, log entry 55. -/
def recNext (r : Nat) (e : CanFault) (told : Nat) : Nat :=
  let inFlag := decide (e = .bitRec) || decide (e = .bitDom)
  if r < told ∧ ((told - r) % 8 = 1 ∨ inFlag ∧ (told - r) % 8 = 0) then told else min 255 (r + 1)

/-- CAN_ERROR (R420): the frame in progress ends and stays pending; a recessive res bit is a protocol exception unless
`pex_dis` makes it a form error, and the controller integrates again (R411). The delay that an FD frame measured before its error stands in `meas` (R412); no operand
carries it.  DESIGN CHOICE, log entry 112. -/
def canError (k : Nat) (e : CanFault) (tec : BitVec 9) (rec' : BitVec 8) (data : Bool) : Act :=
  whenA (fun s => canActive s k) <| withEnv fun n s =>
    let tx := (canSt s k).cur
    let measured := match tx with
      | some x => only (data || n.testBit 8) (tdcMeas k x.1 (BitVec.ofNat 8 n))
      | none => nop
    if e = .res ∧ !s.on (F.CAN_CTL_pex_dis k) then seq [setB (F.CAN_EVENT_pex k), setF (F.CAN_STAT_state k) 1, canTxEnd k, canFrameEnd k] s
    else
      let t1 := if tx.isSome then tecNext (s.f (F.CAN_ERR_tec k)) (canState s k = 3) e data tec.toNat else s.f (F.CAN_ERR_tec k)
      let r1 := if tx.isSome then s.f (F.CAN_ERR_rec k) else recNext (s.f (F.CAN_ERR_rec k)) e rec'.toNat
      let off := decide (255 < t1)
      let t := min 255 t1
      let crosses := fun n => decide (n ≤ t ∨ n ≤ r1) &&
        !decide (n ≤ s.f (F.CAN_ERR_tec k) ∨ n ≤ s.f (F.CAN_ERR_rec k))
      seq [
        setF (F.CAN_ERR_last k) (faultCode e),
        only (data && (canSt s k).cur.isSome && (e = .bitRec || e = .bitDom)) (seq [bump (R.CAN_DATA_BITERR k), setB (F.CAN_EVENT_data_biterr k)]),
        measured, canTxEnd k,
        only (!(canSt s k).listen) (seq [
          setF (F.CAN_ERR_tec k) t, setF (F.CAN_ERR_rec k) r1,
          only (crosses 96) (setB (F.CAN_EVENT_err_warn k)), only (crosses 128) (setB (F.CAN_EVENT_err_passive k)),
          if off then seq [setF (F.CAN_STAT_state k) 4, setB (F.CAN_EVENT_bus_off k),
            canA k fun c => { c with recovering := s.on (F.CAN_CTL_boff_auto k) }]
          else canErrState k]),
        canFrameEnd k] s

/-- BUS_OFF_RECOVERY_DONE (R420). -/
def busOffDone (k : Nat) : Act := whenA (fun s => canOn s ∧ canState s k = 4 ∧ (canSt s k).recovering)
  (seq [setF (F.CAN_ERR_tec k) 0, setF (F.CAN_ERR_rec k) 0, setF (F.CAN_STAT_state k) 2, setB (F.CAN_EVENT_bus_on k),
    clrB (F.CAN_CTL_recover k), canA k fun c => { c with recovering := false }, canFrameEnd k])

/-! ### Wake (R422, R423) -/

/-- A bus wake: the controller integrates; with `wake_cpu` it wakes the Chanter and the host. -/
def canBusWake (k : Nat) : Act := fun s =>
  seq [setB (F.CAN_EVENT_wake k), canWakeUp k, canA k fun c => { c with wakeT := some s.now },
    only (s.on (F.CAN_CTL_wake_cpu k)) wakeAll] s

/-- A frame is the wake frame of controller `k`. -/
def wakeFrame (s : State) (k : Nat) (m : CanMsg) : Bool :=
  let n := min 8 (s.f (F.CAN_WAKE_CFG_dlc k))
  let want := (s.rd64 (R.CAN_WAKE_DATA k))
  let mask := (s.rd64 (R.CAN_WAKE_DMASK k))
  idPasses m (s.rd (R.CAN_WAKE_ID k)) (s.rd (R.CAN_WAKE_MASK k)) && decide (m.dlc.toNat = n) &&
  (List.range n).all fun i =>
    ((m.data.getD i 0#8) ^^^ want.extractLsb' (8 * i) 8) &&& mask.extractLsb' (8 * i) 8 = 0#8

/-- CAN_WAKE (R422). -/
def canWake (k : Nat) (w : CanWakeBy) : Act :=
  match w with
  | .level us => whenA (fun s => canOn s ∧ canState s k = 5 ∧ s.f (F.CAN_CTL_wake_mode k) = 1 ∧
      max 1 (s.f (F.CAN_WAKE_CFG_filt k)) ≤ us.toNat) (canBusWake k)
  | .frame m good => whenA (fun s => canOn s ∧ canState s k = 5 ∧ s.f (F.CAN_CTL_wake_mode k) = 2) fun s =>
      if !good ∨ m.brs then bump (R.CAN_WAKE_MISS k) s
      else only (wakeFrame s k m) (canBusWake k) s
  | .write p v => portGate p (R.CAN_CTL k) (canCtl k (v &&& ~~~ 8#32))

/-- BUS_INTEGRATION_COMPLETE (R422): error-passive where the counters that a sleep kept say so (R420). -/
def canIntegrated (k : Nat) : Act := whenA (fun s => canOn s ∧ canState s k = 1)
  (seq [setF (F.CAN_STAT_state k) 2, canErrState k, canFrameEnd k])

/-- The CAN island stops (R429): every controller goes to state 0 when its frame has ended. -/
def canIslandStop : Act := forEach (List.range 4) fun k => seq [canTxEnd k, setF (F.CAN_STAT_state k) 0]

end Sys2Proof.Machine
end

