-- ==== Sys2Proof/Machine/Nt.lean ====
section
/-!
DEFINITION. Network time: master and slave on a CAN controller (spec/17, R424–R428).
-/

namespace Sys2Proof.Machine

/-- Changes what the network-time block holds. -/
def ntA (g : NtSt → NtSt) : Act := hidA fun h => { h with nt := g h.nt }

/-- The counter goes on from `count` now at the rate of `CAN_NT_ADJ`, and what is left of a slew goes on; stretches that ended
2²⁴ ticks ago are forgotten. -/
def ntRebase (count : Int) : Act := fun s =>
  let adj := (s.rd R.CAN_NT_ADJ).toInt
  ntA (fun x => { x with
    line := { count, at0 := s.now, inc := ntInc adj 0, incS := ntInc adj x.slew,
              slewN := x.line.slewN - (s.now - x.line.at0).toNat },
    was := recent (·.at0) s.now (2 ^ 24) (x.line :: x.was) }) s

/-- The count now moves by `e` ns. -/
def ntStep (e : Rat) : Act := fun s => ntRebase (ntCount s s.now + roundHalfEven (e * 2 ^ 32)) s

/-- The block's state becomes `n`; `nt_sync` reads 1 in state 2 alone (R427), with the events of entering and leaving it. -/
def ntState (n : Nat) : Act := fun s =>
  let was := s.f F.CAN_NT_STAT_state
  seq [setF F.CAN_NT_STAT_state n, setF F.CAN_NT_STAT_nt_sync (b2n (decide (n = 2))),
    only (n = 2 ∧ was ≠ 2) (setB F.CAN_NT_EVENT_lock), only (n ≠ 2 ∧ was = 2) (setB F.CAN_NT_EVENT_unlock)] s

/-! ### Configuration (R425) -/

/-- Controller `k` cannot carry a master (R425). -/
def masterRefused (s : State) (k : Nat) : Bool :=
  (canSt s k).listen ∨ !s.on (F.CAN_CTL_en k) ∨ canState s k = 5

/-- NT_CFG_WRITE (R425): a refused write changes only the code. -/
def ntCfg (v : Word) : Act := fun s =>
  let role := v.toNat % 4
  let k := v.toNat / 4 % 4
  if role = 2 ∧ masterRefused s k then setF F.CAN_NT_STAT_result 8 s
  else seq [setW R.CAN_NT_CFG (v &&& 0x1F#32), setF F.CAN_NT_STAT_result 0,
    ntA (fun x => { x with yielded := false, last := none, tm := none, paired := false, good := 0, ref := none, seq := none,
                           sof := none, stepped := false }),
    setF F.CAN_NT_STAT_state 0, clrB F.CAN_NT_STAT_nt_sync] s

/-! ### Master (R426) -/

/-- `CAN_NT_PERIOD`, ms. -/
def ntPeriod (s : State) : Nat := max 1 (min 100 (s.f F.CAN_NT_PERIOD_ms))

/-- The data of the reference frame of sequence `q` (R425). -/
def refData (q : Nat) (valid stepped : Bool) (ms : Nat) (t : Rat) : List Byte :=
  [1#8, BitVec.ofNat 8 q, BitVec.ofNat 8 (b2n valid + 2 * b2n stepped), BitVec.ofNat 8 ms]
    ++ leBytes 8 (t.floor % 2 ^ 64).toNat

/-- A reference frame with that data (R425). -/
def refMsg (s : State) (d : List Byte) : CanMsg :=
  { ide := s.on F.CAN_NT_ID_ide, id := BitVec.ofNat 29 (s.f F.CAN_NT_ID_id), rtr := false, fdf := true, brs := s.on F.CAN_NT_CFG_brs,
    esi := false, dlc := 9#4, data := d }

/-- A reference frame says that the master stepped. -/
def refStepped (m : CanMsg) : Bool := (m.data.getD 2 0#8).getLsbD 1

/-- NT_REF_DUE (R426): the time of the frame before this one, where that one has been sent; a step that a replaced frame was to
tell is told by the new one. -/
def ntRefDue : Act := whenA (fun s => canOn s ∧ ntRole s = 2) fun s =>
  let x := s.hid.nt
  let was := x.seq.getD (s.f F.CAN_NT_STAT_seq)
  let q := (was + 1) % 256
  let late := x.ref.isSome
  let t : Option Rat := if late then none else (x.sof.filter fun y => y.1 = was).map (·.2)
  let told := x.stepped || x.ref.any refStepped
  seq [only late (setB F.CAN_NT_EVENT_ref_late),
    ntA fun x => { x with ref := some (refMsg s (refData q t.isSome told (ntPeriod s) (t.getD 0))), seq := some q, stepped := false }] s

/-- NT_SET (R426, R430): on a device that is no master the write is an access error. -/
def ntSet (p : Port) (v : BitVec 64) : Act := fun s =>
  if ntRole s = 2 then seq [ntRebase (v.toNat * 2 ^ 32), ntA fun x => { x with stepped := true }] s
  else accErr p errRefused R.CAN_NT_SET s

/-! ### Slave (R427) -/

/-- A frame is a good reference frame (R425). -/
def refGood (s : State) (m : CanMsg) : Bool :=
  let b := fun i => (m.data.getD i 0#8).toNat
  m.fdf && !m.rtr && decide (m.ide = s.on F.CAN_NT_ID_ide) && decide (m.id.toNat = s.f F.CAN_NT_ID_id)
    && decide (m.dlc = 9#4) && decide (12 ≤ m.data.length) && decide (b 0 = 1) && decide (b 2 < 4) && decide (1 ≤ b 3)
    && decide (b 3 ≤ 100)

/-- An offset as `CAN_NT_OFS` shows it. -/
def ofsWord (e : Rat) : Word := BitVec.ofInt 32 (clampInt (-(2 ^ 31)) (2 ^ 31 - 1) (roundHalfEven e))

/-- |x|. -/
def magQ (x : Rat) : Rat := if x < 0 then -x else x

/-- The local time of the newer frame once the offset `e` of the older one, at local time `l`, is taken out: its `n` ticks of
interval count at the corrected rate, as the offsets of R428's example do.  DEDUCED, log entry 56. -/
def ntHeld (l e : Rat) (n : Nat) (adj : Int) : Rat := l + e + n * (5 / 4 * (1 + (adj : Rat) / 2 ^ 40))

/-- A pair with offset `e` completes; `bit1`: the master stepped; `tref`: its interval, ns; `old`: local time of its frame, and
the ticks from it to the frame that completes it. The extra rate takes out, over `tref`, what the counter stands apart from the
held local time: `e`, and what the correction of the rate takes out of the interval that has passed.  DEDUCED, log entry 56. -/
def ntPair (e : Rat) (bit1 : Bool) (tref : Rat) (old : Rat × Nat) : Act := fun s =>
  let x := s.hid.nt
  let st := s.f F.CAN_NT_STAT_state
  let inTol := decide (magQ e ≤ (s.f F.CAN_NT_TOL_lock_ns : Rat))
  let step := !x.paired || st = 0 || st = 3 || bit1 || decide ((s.f F.CAN_NT_TOL_step_ns : Rat) < magQ e)
  let good := if !inTol then 0 else if step then 1 else x.good + 1
  seq [
    setW R.CAN_NT_OFS (ofsWord e),
    if step then seq [ntStep e,
      ntA fun y => { y with last := y.last.map fun l => (l.1, l.2.1 + e, l.2.2) }, setB F.CAN_NT_EVENT_step, ntState 1]
    else seq [
      withS fun t => setW R.CAN_NT_ADJ (BitVec.ofInt 32 (clampInt (-219902326) 219902326
        (roundHalfEven (((t.rd R.CAN_NT_ADJ).toInt : Rat) + e * 2 ^ 40 / (4 * tref))))),
      withS fun t =>
        let held := ntHeld old.1 e old.2 (t.rd R.CAN_NT_ADJ).toInt
        let n := max 1 (tref * 4 / 5).floor.toNat
        seq [ntA fun y => { y with slew := (held - (y.last.map (·.2.1)).getD held) / n }, ntStep 0,
          ntA fun y => { y with line := { y.line with slewN := n }, last := y.last.map fun l => (l.1, held, l.2.2) }],
      if !inTol then ntState 1 else only (4 ≤ good) (ntState 2)],
    ntA fun y => { y with paired := true, good := good }] s

/-- What a slave does with a good reference frame received at device time `t`: the pair of the frame before it, where this one
follows it and carries its time.  DEDUCED, log entry 56. -/
def ntSlave (m : CanMsg) (t : BitVec 64) : Act := fun s =>
  let b := fun i => (m.data.getD i 0#8).toNat
  let q := b 1
  let x := s.hid.nt
  let local0 := ntAt s t
  let tm : Rat := ((leNat ((m.data.drop 4).take 8) : Nat) : Rat)
  let comp : Rat := ((s.rd R.CAN_NT_COMP).toInt : Rat)
  let pair := match x.last with
    | some l => if (l.1 + 1) % 256 = q ∧ b 2 % 2 = 1 then some (tm - (l.2.1 - comp), l.2.1, (t - l.2.2).toNat) else none
    | none => none
  let tref : Rat := match x.tm with
    | some t0 => if t0 < tm then tm - t0 else b 3 * 1000000
    | none => b 3 * 1000000
  seq [
    setF F.CAN_NT_STAT_seq q,
    ntA (fun y => { y with last := some (q, local0, t), tm := if b 2 = 1 then some tm else none }),
    (match pair with
    | some e => seq [ntPair e.1 (decide (b 2 / 2 % 2 = 1)) tref e.2, ntA fun y => { y with pairT := some (s.now, b 3) }]
    | none => nop)] s

/-- A good reference frame whose start of frame lay at device time `t` (R426, R427): a master yields to another one. -/
def ntRefRx (m : CanMsg) (t : BitVec 64) : Act := fun s =>
  match ntRole s with
  | 1 => ntSlave m t s
  | 2 => seq [setB F.CAN_NT_EVENT_conflict,
      ntA (fun x => { x with yielded := true, ref := none, last := none, tm := none, paired := false, good := 0 }),
      ntState 0, ntSlave m t] s
  | _ => []

/-- No pair has completed for three periods, as the master's last frame of a pair gives the period (R425, R427). -/
def pairsCeased (s : State) : Bool :=
  match s.hid.nt.pairT with
  | some p => decide (2400000 * p.2 ≤ (s.now - p.1).toNat)
  | none => true

/-- NT_HOLDOVER (R427). -/
def ntHoldover : Act := whenA (fun s => canOn s ∧ ntRole s = 1 ∧ (s.f F.CAN_NT_STAT_state = 1 ∨ s.f F.CAN_NT_STAT_state = 2) ∧
    pairsCeased s)
  (seq [ntState 3, ntA fun x => { x with good := 0 }])

/-- NT_WRAP (R424, R21). -/
def ntWrap : Act := whenA canOn (seq [ntA (fun x => { x with wrapEv := true }),
  fun s => ntRebase (if 2 ^ 96 ≤ ntCount s s.now then ntCount s s.now - 2 ^ 96 else ntCount s s.now) s,
  fun s => setF F.CAN_NT_SNAP_wrap (min 255 (s.f F.CAN_NT_SNAP_wrap + 1)) s])

/-- The counter starts at 0 when the CAN island is enabled (R424). -/
def ntStart : Act := fun s => seq [ntA (fun _ => { line := { at0 := s.now } }),
  fun s => ntRebase 0 s, ntA fun x => { x with was := [] }] s

/-- The CAN island stops (R429): the counter stands still at 0, and the block's state is as at its start. -/
def ntStop : Act := seq [ntA (fun _ => {}), setF F.CAN_NT_STAT_state 0, clrB F.CAN_NT_STAT_nt_sync]

end Sys2Proof.Machine
end

