-- ==== Sys2Proof/Machine/Probe.lean ====
section
/-!
DEFINITION. The Whistle: codes and chips, injection, fleet assignment, impedance estimate, baseline, islanding (R320–R331).
-/

namespace Sys2Proof.Machine

/-- Changes what the Whistle holds. -/
def probeA (g : ProbeSt → ProbeSt) : Act := hidA fun h => { h with probe := g h.probe }

/-! ### Codes (R320) -/

/-- The sequences a and b: `n` shifts of the register of the last ten bits, oldest first. -/
def goldShift (tap : List Nat) : Nat → List Bool → List Bool
  | 0, r => r
  | n + 1, r => goldShift tap n (r.tail ++ [tap.foldl (fun x i => xor x (r.getD i false)) false])

/-- Terms n of the two sequences. -/
def seqA (n : Nat) : Bool := (goldShift [3, 0] n (List.replicate 10 true)).headD true
def seqB (n : Nat) : Bool := (goldShift [9, 8, 6, 3, 2, 0] n (List.replicate 10 true)).headD true

/-- The chip of code `i` at phase `n`. -/
def goldChip (i n : Nat) : Int :=
  let g := if i = 0 then seqA n else if i = 1 then seqB n else xor (seqA n) (seqB ((n + i - 2) % 1023))
  if g then -1 else 1

/-! ### Complex numbers -/

def cAdd (a b : Rat × Rat) : Rat × Rat := (a.1 + b.1, a.2 + b.2)
def cScale (k : Rat) (a : Rat × Rat) : Rat × Rat := (k * a.1, k * a.2)
def cAbs (a : Rat × Rat) : Rat := sqrtQ (a.1 * a.1 + a.2 * a.2)
def cDiv (a b : Rat × Rat) : Rat × Rat :=
  let d := b.1 * b.1 + b.2 * b.2
  (divQ (a.1 * b.1 + a.2 * b.2) d, divQ (a.2 * b.1 - a.1 * b.2) d)

/-- (α + jβ) exp(−jθ). -/
def demod (a b : Rat) (th : BitVec 32) : Rat × Rat := (a * cosG th + b * sinG th, b * cosG th - a * sinG th)

/-! ### Parameters -/

/-- Tone ratios h1 and h2 (R321). -/
def tone1 (c : State) : Rat := clampRat (3 / 10) (7 / 10) (c.puQ R.PROBE_H1)
def tone2 (c : State) : Rat := clampRat (13 / 10) (17 / 10) (c.puQ R.PROBE_H2)

/-- The amplitude in force (R322); 0 for none. -/
def probeAmp (s : State) : Rat :=
  let a := s.puQ R.PROBE_AMP
  if a = 0 then 0 else clampRat (1 / 1000) (5 / 1000) a

/-- Chips of the window (R325), closes to confirm, learning exponent. -/
def probeWin (c : State) : Nat := max 16 (min 128 (c.f F.PROBE_CFG_win))
def probeConfirm (c : State) : Nat := max 1 (c.f F.PROBE_CFG_confirm)
def zLearn (c : State) : Nat := max 1 (min 8 (c.f F.PROBE_CFG_zlearn))

/-- The Whistle is part of the structure in force, and the Slide is locked or coasts (R127, R321). -/
def chipsCounted (s : State) : Bool :=
  s.on F.FING_FEAT_whistle ∧ (s.on F.CLK_SLIDE_STAT_pll_lock ∨ s.on F.CLK_SLIDE_STAT_coast)

/-- The Whistle injects in mode `m` (R322). -/
def probeInjects (s : State) (m : Nat) : Bool := chipsCounted s ∧ (m = FOLLOW ∨ m = FORM) ∧ probeAmp s ≠ 0

/-- The present chip value; 0 while chips are not counted. -/
def chipNow (s : State) : Int := if chipsCounted s then goldChip (s.f F.PROBE_CODE_index) (s.f F.PROBE_CHIP_phase) else 0

/-- The baseline is invalidated (R326). -/
def baseInvalid : Act := seq [clrB F.PROBE_STAT_z_valid, probeA fun x => { x with upd := 0 }]

/-- A new code or amplitude takes effect (R323). -/
def assignTake (code : Nat) (amp : Int) : Act :=
  seq [setF F.PROBE_CODE_index code, setPu R.PROBE_AMP amp, setB F.PROBE_EVENT_code_change, baseInvalid]

/-- An assignment, by frame or by port, waits for the next chip boundary (R323).  DEDUCED, log entry 85. -/
def assign (code : Nat) (amp : Int) : Act := probeA fun x => { x with assign := some (code, amp) }

/-- A port's write of `PROBE_CODE` (R323, R337); one above 1024 is refused. -/
def codeWrite (p : Port) (v : Word) : Act := fun s =>
  if 1024 < v.toNat % 2048 then accErr p 3 R.PROBE_CODE s
  else assign (v.toNat % 2048) ((s.hid.probe.assign.map (·.2)).getD (s.pu R.PROBE_AMP)) s

/-- A port's write of `PROBE_AMP`. -/
def ampWrite (v : Int) : Act := fun s => assign ((s.hid.probe.assign.map (·.1)).getD (s.f F.PROBE_CODE_index)) v s

/-! ### Estimate (R325) -/

/-- Sums over the window: c × V1, c × I1, c × V2, c × I2. -/
def winSums (l : List Chip) : (Rat × Rat) × (Rat × Rat) × (Rat × Rat) × (Rat × Rat) :=
  l.foldl (fun a x => (cAdd a.1 (cScale x.c x.v1), cAdd a.2.1 (cScale x.c x.i1), cAdd a.2.2.1 (cScale x.c x.v2),
    cAdd a.2.2.2 (cScale x.c x.i2))) ((0, 0), (0, 0), (0, 0), (0, 0))

/-- R, X and magnitude at the fundamental from the tone impedances. -/
def zFund (h1 h2 : Rat) (z1 z2 : Rat × Rat) : Rat × Rat × Rat :=
  let r := (z1.1 + z2.1) / 2
  let x := divQ (h1 * z1.2 + h2 * z2.2) (h1 * h1 + h2 * h2)
  (r, x, cAbs (r, x))

/-- The baseline entry of phase `n`. -/
def baseEntry (s : State) (n : Nat) : (Rat × Rat) × (Rat × Rat) :=
  ((s.puQ (R.PROBE_BASE n 0), s.puQ (R.PROBE_BASE n 1)), (s.puQ (R.PROBE_BASE n 2), s.puQ (R.PROBE_BASE n 3)))

/-- The magnitude of R325 of the baseline entry of phase `n` (R326). -/
def baseMag (c s : State) (n : Nat) : Rat := let b := baseEntry s n; (zFund (tone1 c) (tone2 c) b.1 b.2).2.2

/-- `PROBE_ZBASE` is that of the present phase (R326). -/
def zbaseShow (c : State) : Act := fun s =>
  let z := baseMag c s (s.f F.PROBE_CHIP_phase)
  seq [setPu R.PROBE_ZBASE (narrow36 z), only (over36 z) (setB F.PROBE_EVENT_ovf)] s

/-- Four values written to four pairs. -/
def setFour (off : Nat → Nat) (l : List Rat) : Act := forEach (List.range 4) fun i => setPu (off i) (narrow36 (l.getD i 0))

/-- An update of the baseline at phase `n` (R326). -/
def baseUpdate (c : State) (n : Nat) (z : List Rat) : Act := fun s =>
  let b := (List.range 4).map fun i => s.puQ (R.PROBE_BASE n i)
  let new := (List.range 4).map fun i =>
    if bit s.hid.probe.upd n then b.getD i 0 + (z.getD i 0 - b.getD i 0) / 2 ^ zLearn c else z.getD i 0
  seq [setFour (R.PROBE_BASE n) new, probeA fun x => { x with upd := putBit x.upd n true },
    whenA (fun t => t.hid.probe.upd = 2 ^ 1023 - 1 ∧ !t.on F.PROBE_STAT_z_valid)
      (seq [setB F.PROBE_STAT_z_valid, setB F.PROBE_EVENT_z_valid])] s

/-! ### Declaration (R327–R329) -/

/-- A declaration is held back in mode `m` (R329). -/
def heldBack (s : State) (m : Nat) : Bool :=
  s.on F.PROBE_CFG_form_act ∧ (m = FORM ∨ (m = RIDE ∧ s.f F.SYS_MODE_STAT_ride_origin = FORM))

/-- A declaration acts (R329). -/
def islandAct : Act := seq [probeA fun x => { x with acted := true }, haltCause causeIsland,
  hidA fun h => { h with drone := { h.drone with island := true } }, droneEval]

/-- Islanding is declared with cause bits `cause` in mode `m` (R329); a second criterion of the declaring step adds its bits. -/
def declare (cause m : Nat) : Act := fun s =>
  if s.on F.PROBE_STAT_island then
    only (s.rd64 R.PROBE_ISL_TS = s.hid.grid.trig) (setF F.PROBE_ISL_CAUSE_cause (s.f F.PROBE_ISL_CAUSE_cause ||| cause)) s
  else seq [setB F.PROBE_STAT_island, setB F.PROBE_EVENT_island, setF F.PROBE_ISL_CAUSE_cause cause,
    set64 R.PROBE_ISL_NT (ntWord s s.hid.grid.trig), set64 R.PROBE_ISL_TS s.hid.grid.trig,
    probeA fun x => { x with acted := false },
    only (!heldBack s m) islandAct] s

/-- A declaration held back acts at the first step at which R329 lets it. -/
def heldAct (m : Nat) : Act := whenA (fun s => s.on F.PROBE_STAT_island ∧ !s.hid.probe.acted ∧
    ((m = FOLLOW ∨ (m = RIDE ∧ s.f F.SYS_MODE_STAT_ride_origin = FOLLOW)) ∨ !s.on F.PROBE_CFG_form_act)) islandAct

/-- The conditions of the passive criteria, of f, |V+| and ROCOF (R328). -/
def passive (c : State) (f v r : Rat) : List Bool :=
  [c.on F.PROBE_CFG_f_en ∧ (f < c.puQ R.PROBE_F_LO ∨ c.puQ R.PROBE_F_HI < f),
   c.on F.PROBE_CFG_v_en ∧ (v < c.puQ R.PROBE_V_LO ∨ c.puQ R.PROBE_V_HI < v),
   c.on F.PROBE_CFG_r_en ∧ c.puQ R.PROBE_ROCOF < absQ r]

/-- The passive criteria in a step of `n` ticks (R328). -/
def passiveStep (c : State) (t : Trk) (m n : Nat) : Act := fun s =>
  let x := s.hid.probe
  let runs := m = FOLLOW ∨ m = FORM ∨ m = RIDE
  let l := passive c (ofPu48 t.f) (ofPu (t.mag.getD 0 0)) (ofPu48 t.rocof)
  let next := fun i (k : Nat) => if runs && l.getD i false then k + n else 0
  let f := next 0 x.fT
  let v := next 1 x.vT
  let r := next 2 x.rT
  let due := fun i (k : Nat) ms => runs && l.getD i false && decide (800000 * ms ≤ k)
  let cause := (if due 0 f (c.f F.PROBE_F_MS_ms) then 4 else 0) + (if due 1 v (c.f F.PROBE_V_MS_ms) then 8 else 0)
    + (if due 2 r (c.f F.PROBE_R_MS_ms) then 16 else 0)
  seq [probeA fun x => { x with fT := f, vT := v, rT := r }, only (cause ≠ 0) (declare cause m)] s

/-! ### Chips (R321–R326, R331) -/

/-- The chip just closed: estimate, criterion, baseline; `inj`: it was injected. -/
def chipClose (c : State) (m : Nat) (inj : Bool) : Act := fun s =>
  let x := s.hid.probe
  let n := s.f F.PROBE_CHIP_phase
  let k : Rat := x.cnt
  let q := fun (a : Rat × Rat) => (divQ a.1 k, divQ a.2 k)
  let chip : Chip := ⟨chipNow s, q x.acc.v1, q x.acc.i1, q x.acc.v2, q x.acc.i2, inj⟩
  let chips := (chip :: x.chips).take 128
  let w := probeWin c
  let injN := if inj then x.injN + 1 else 0
  let sums := winSums (chips.take w)
  let i1 := cAbs sums.2.1 / w
  let i2 := cAbs sums.2.2.2 / w
  let full := decide (w ≤ injN)
  let weak := full && (decide (i1 < probeAmp s / 4) || decide (i2 < probeAmp s / 4))
  let valid := full && !weak
  let z1 := cDiv sums.1 sums.2.1
  let z2 := cDiv sums.2.2.1 sums.2.2.2
  let z := zFund (tone1 c) (tone2 c) z1 z2
  let zb := baseMag c s n
  let act := valid && (m = FOLLOW || m = FORM)
  let zs := act && s.on F.PROBE_STAT_z_valid && decide (q36 zb * (1 + c.puQ R.PROBE_ZSTEP) < q36 z.2.2)
  let zm := act && decide (c.puQ R.PROBE_ZMAX < q36 z.2.2)
  let conf := if zs || zm then x.conf + 1 else 0
  let listen := decide (m = STANDBY)
  let cl1 := cAdd x.cl1 (cScale chip.c chip.v1)
  let cl2 := cAdd x.cl2 (cScale chip.c chip.v2)
  let clash := listen && n = 1022 && (decide (c.puQ R.PROBE_CLASH < cAbs cl1 / 1023) || decide (c.puQ R.PROBE_CLASH < cAbs cl2 / 1023))
  seq [
    probeA fun x => { x with
      chips := chips, injN := injN, conf := conf,
      cl1 := if listen && n ≠ 1022 then cl1 else (0, 0), cl2 := if listen && n ≠ 1022 then cl2 else (0, 0) },
    only clash (setB F.PROBE_EVENT_clash),
    only (weak && !s.on F.PROBE_STAT_weak_inj) (setB F.PROBE_EVENT_weak_inj), setF F.PROBE_STAT_weak_inj (b2n weak),
    setF F.PROBE_STAT_est_valid (b2n valid),
    only full (seq [
      setPu R.PROBE_Z1_RE (narrow36 z1.1), setPu R.PROBE_Z1_IM (narrow36 z1.2), setPu R.PROBE_Z2_RE (narrow36 z2.1),
      setPu R.PROBE_Z2_IM (narrow36 z2.2), setPu R.PROBE_R (narrow36 z.1), setPu R.PROBE_X (narrow36 z.2.1),
      setPu R.PROBE_ZMAG (narrow36 z.2.2), setPu R.PROBE_ICORR (narrow36 (min i1 i2)),
      only ([z1.1, z1.2, z2.1, z2.2, z.1, z.2.1, z.2.2, min i1 i2].any over36) (setB F.PROBE_EVENT_ovf)]),
    only (probeConfirm c ≤ conf) (declare (b2n zs + 2 * b2n zm) m),
    only (valid && !(zs || zm) && m ≠ RIDE) (baseUpdate c n [q36 z1.1, q36 z1.2, q36 z2.1, q36 z2.2])] s

/-- An armed phase check at a chip boundary (R324). -/
def phaseCheck (c : State) : Act := fun s =>
  if !s.on F.PROBE_PHASE_CMD_go ∨ ntAt s s.hid.grid.trig < (s.rd64 R.PROBE_TAPPLY).toNat then []
    else
      let phase := min 1022 (s.f F.PROBE_PHASE_CMD_phase)
      let th := fun (h : Rat) => BitVec.ofInt 32 (roundHalfEven (h * phase * 2 ^ 31))
      seq [clrB F.PROBE_PHASE_CMD_go,
        only (phase ≠ s.f F.PROBE_CHIP_phase) (seq [setF F.PROBE_CHIP_phase phase,
          probeA fun x => { x with th1 := th (tone1 c), th2 := th (tone2 c) },
          setB F.PROBE_EVENT_rephase, bump R.PROBE_REPHASE_CNT, baseInvalid]),
        only (s.on F.PROBE_PHASE_CMD_relearn) baseInvalid] s

/-- A chip boundary (R321): the chip closes, the phase advances, assignments and phase checks apply.  A step during which, or
since the last of which, the mode changed into or out of RIDE discards its chip; `ride`: the step leads into RIDE or ends in it
(R333). -/
def chipBoundary (c : State) (m : Nat) (inj ride : Bool) : Act := fun s =>
  let x := s.hid.probe
  let drop := x.drop || (decide (m = RIDE) != decide (x.mode = RIDE)) || (decide (m = RIDE) != ride) || x.cnt = 0
  seq [
    only (!drop) (chipClose c m inj),
    probeA fun x => { x with acc := ⟨0, (0, 0), (0, 0), (0, 0), (0, 0), false⟩, cnt := 0, drop := false, assign := none },
    setF F.PROBE_CHIP_phase ((s.f F.PROBE_CHIP_phase + 1) % 1023),
    (match x.assign with
      | some a => assignTake a.1 a.2
      | none => nop),
    phaseCheck c, zbaseShow c] s

/-- The Whistle's part of a grid step in mode `m` (R298). -/
def probeStep (c : State) (t : Trk) (m n : Nat) (ride : Bool) : Act := fun s =>
  let x := s.hid.probe
  let ang : BitVec 32 := BitVec.ofNat 32 (s.hid.grid.cyc.toNat * 4096)
  let counted := chipsCounted s
  let inj := probeInjects s m
  let d := (ang - x.ang.getD ang).toNat
  let adv := fun (th : BitVec 32) (h : Rat) => th + BitVec.ofInt 32 (roundHalfEven (h * d))
  let v := if c.on F.PROBE_CFG_vsrc then slotClarke c (c.on F.GRID_CFG_vwire) 8 else t.v
  let va := v.getD 0 0
  let vb := v.getD 1 0
  let ia := t.i.getD 0 0
  let ib := t.i.getD 1 0
  seq [
    setF F.PROBE_STAT_listen (b2n (counted && m = STANDBY)), setF F.PROBE_STAT_inject (b2n inj),
    if counted then seq [
      probeA fun x =>
        let t1 := adv x.th1 (tone1 c)
        let t2 := adv x.th2 (tone2 c)
        let a := x.acc
        { x with
          ang := some ang, th1 := t1, th2 := t2, cnt := x.cnt + 1,
          acc := { a with v1 := cAdd a.v1 (demod va vb t1), i1 := cAdd a.i1 (demod ia ib t1),
                          v2 := cAdd a.v2 (demod va vb t2), i2 := cAdd a.i2 (demod ia ib t2) } },
      only (x.ang.isSome && ang.getLsbD 31 ≠ (x.ang.getD ang).getLsbD 31) (chipBoundary c m inj ride)]
    else probeA fun x => { x with ang := none, injN := 0, conf := 0, drop := true },
    withS fun u => setF F.PROBE_CHIP_neg (b2n (chipNow u = -1)),
    only (!inj) (seq [clrB F.PROBE_STAT_est_valid, clrB F.PROBE_STAT_weak_inj, probeA fun x => { x with injN := 0, conf := 0 }]),
    passiveStep c t m n, heldAct m] s

/-- The probe current (R322). -/
def probeCurrent (s : State) (m : Nat) : Rat × Rat :=
  if !probeInjects s m then (0, 0)
  else
    let x := s.hid.probe
    let k := probeAmp s / 2 * chipNow s
    (k * (cosG x.th1 + cosG x.th2), k * (sinG x.th1 + sinG x.th2))

/-- Without grid steps the chips stop (R334). -/
def probeIdle : Act := seq [clrB F.PROBE_STAT_listen, clrB F.PROBE_STAT_inject, clrB F.PROBE_STAT_est_valid,
  probeA fun x => { x with ang := none, injN := 0, conf := 0, drop := true, fT := 0, vT := 0, rT := 0 }]

/-! ### Assignment frames and commands (R323, R324, R330) -/

/-- A malformed frame, or a PHASE frame without network time (R323). -/
def badFrame : Act := seq [bump R.PROBE_BAD_CNT, setB F.PROBE_EVENT_assign_bad]

/-- Byte `i` and little-endian words of a frame. -/
def fb (d : List Byte) (i : Nat) : Nat := (d.getD i 0#8).toNat
def fw (d : List Byte) (i n : Nat) : Nat := (List.range n).foldl (fun a j => a + fb d (i + j) * 256 ^ j) 0

/-- A CODE frame is well formed (R323). -/
def codeFrameOk (d : List Byte) : Bool :=
  d.length = 8 ∧ fb d 0 = 2 ∧ fb d 1 ≤ 254 ∧ fw d 2 2 ≤ 1024 ∧ (fw d 4 2 = 0 ∨ (10 ≤ fw d 4 2 ∧ fw d 4 2 ≤ 50)) ∧ fw d 6 2 = 0

/-- A PHASE frame is well formed. -/
def phaseFrameOk (d : List Byte) : Bool :=
  d.length = 16 ∧ fb d 0 = 1 ∧ fb d 1 ≤ 1 ∧ fw d 2 2 ≤ 1022 ∧ fw d 4 4 = 0

/-- A frame that reaches the Whistle: controller `PROBE_ASSIGN.can` received it with the assigned identifier (R323). -/
def probeFrame (d : List Byte) : Act := whenA (fun s => s.up ∧ s.island 9 ∧ s.on F.PROBE_ASSIGN_en) fun s =>
  if codeFrameOk d then
    only (fb d 1 = s.f F.PROBE_ASSIGN_node) (assign (fw d 2 2) (roundHalfEven ((fw d 4 2 : Rat) / 10000 * 2 ^ 30))) s
  else if phaseFrameOk d && ntSync s then
    seq [set64 R.PROBE_TAPPLY (BitVec.ofNat 64 (fw d 8 8)),
      setW R.PROBE_PHASE_CMD (BitVec.ofNat 32 (2 ^ 31 + fb d 1 * 2 ^ 16 + fw d 2 2))] s
  else badFrame s

/-- CAN_FRAME_RX: controller `k` takes the frame, and delivers it to the network-time block too where it is a reference frame
on its controller (R430), and to the Whistle where the assignment names it (R323); what it sends to a disabled GRID island is
counted here (R34). -/
def canFrame (k : Nat) (m : CanMsg) (sof : BitVec 64) : Act := fun s =>
  let ref := canActive s k ∧ s.f F.CAN_NT_CFG_ctrl = k ∧ refGood s m
  let mine := canActive s k ∧ s.f F.PROBE_ASSIGN_can = k ∧ s.on F.PROBE_ASSIGN_ID_ide = m.ide ∧
    s.f F.PROBE_ASSIGN_ID_id = m.id.toNat
  seq [canRx k m sof, only ref (ntRefRx m sof),
    only mine (only (s.up && !s.island 9 && s.on F.PROBE_ASSIGN_en) (canA k fun c => { c with lost := min (2 ^ 31 - 1) (c.lost + 1) })),
    only mine (probeFrame m.data)] s

/-- NT_REF_RX: the frame that controller `CAN_NT_CFG.ctrl` receives is a good reference frame (R427, R430). -/
def ntFrame (m : CanMsg) (t : BitVec 64) : Act :=
  whenA (fun s => canActive s (s.f F.CAN_NT_CFG_ctrl) ∧ refGood s m) fun s => canFrame (s.f F.CAN_NT_CFG_ctrl) m t s

/-- PROBE_PHASE_CMD (R324): the word written; `go` reads 1 until the check is applied. -/
def phaseCmd (v : Word) : Act := fun s =>
  setW R.PROBE_PHASE_CMD ((v &&& 0x800103FF#32) ||| (s.rd R.PROBE_PHASE_CMD &&& 0x80000000#32)) s

/-- A write of `PROBE_CTL` (R326, R330). -/
def probeCtl (p : Port) (v : Word) : Act := seq [
  only (v.getLsbD 1) baseInvalid,
  only (v.getLsbD 0) fun s =>
    let q := fun n => s.puQ (R.GRID_Q n)
    if s.mode = FOLLOW ∨ s.mode = FORM ∨ s.mode = RIDE ∨ (passive s (q 2) (q 4) (q 3)).any id then accErr p 3 R.PROBE_CTL s
    else seq [clrB F.PROBE_STAT_island, setF F.PROBE_ISL_CAUSE_cause 0, causeEnds causeIsland,
      probeA fun x => { x with acted := false },
      hidA fun h => { h with drone := { h.drone with island := false } }, droneEval] s]

end Sys2Proof.Machine
end

