-- ==== Sys2Proof/Machine/Ride.lean ====
section
/-!
DEFINITION. The ride-through sequencer: excursions, curve timers, regions, behaviours, trip and recovery (R309–R318).
-/

namespace Sys2Proof.Machine

/-- Changes what the sequencer holds. -/
def rideA (g : RideSt → RideSt) : Act := hidA fun h => { h with ride := g h.ride }

/-- The sequencer is active (R309). -/
def rideOn (s : State) : Bool := s.on F.FING_FEAT_ride

/-- The four quantities watched: |V+|, the lowest and the highest phase amplitude, f. -/
def rideQty (t : Trk) (amps : List Rat) (q : Nat) : Rat :=
  match q with
  | 0 => ofPu (t.mag.getD 0 0)
  | 1 => minQ amps
  | 2 => maxQ amps
  | _ => ofPu48 t.f

/-- Continuous range and hysteresis of quantity `q`. -/
def contLo (s : State) (q : Nat) : Rat := s.puQ (if q = 3 then R.RIDE_CONT_LO3 else R.RIDE_CONT_LO q)
def contHi (s : State) (q : Nat) : Rat := s.puQ (if q = 3 then R.RIDE_CONT_HI3 else R.RIDE_CONT_HI q)
def rideHys (s : State) (q : Nat) : Rat := s.puQ (if q = 3 then R.RIDE_HYS3 else R.RIDE_HYS q)

/-- `x` lies beyond `th` on a side: 0 under, 1 over. -/
def beyond (side : Nat) (x th : Rat) : Bool := if side = 0 then x < th else th < x

/-- `x` is back by the hysteresis inside `th`. -/
def backIn (side : Nat) (x th hys : Rat) : Bool := if side = 0 then th + hys ≤ x else x ≤ th - hys

/-- The excursions after a step, bit 2q + s (R309). -/
def excursions (c : State) (x : Nat → Rat) : Nat :=
  maskOf ((List.range 8).filter fun j =>
    let th := if j % 2 = 0 then contLo c (j / 2) else contHi c (j / 2)
    if bit c.hid.ride.exc j then !backIn (j % 2) (x (j / 2)) th (rideHys c (j / 2)) else beyond (j % 2) (x (j / 2)) th)

/-- The points of curve `i` that exist. -/
def crvPoints (c : State) (i : Nat) : List Nat :=
  if c.on (F.RIDE_CRV_present i) then List.range (min 16 (c.f (F.RIDE_CRV_points i))) else []

/-- The timer of point `k` of curve `i` after a step of `n` ticks (R310). -/
def pointTimer (c : State) (x : Nat → Rat) (n i k : Nat) : Nat :=
  let v := x (i / 6)
  let th := c.puQ (R.RIDE_PT_TH i k)
  let t := c.hid.ride.timer.get 0 (16 * i + k)
  if beyond (i % 2) v th then t + n else if backIn (i % 2) v th (rideHys c (i / 6)) then 0 else t

/-- The timers after a step. -/
def rideTimers (c : State) (x : Nat → Rat) (n : Nat) : Tab Nat :=
  (List.range 24).foldl (fun t i => (crvPoints c i).foldl (fun t k => t.put 0 (16 * i + k) (pointTimer c x n i k)) t) []

/-- The points of curve `i` that are reached; a microsecond is 800 ticks. -/
def reached (c : State) (timers : Tab Nat) (i : Nat) : List Nat :=
  (crvPoints c i).filter fun k =>
    let t := timers.get 0 (16 * i + k)
    0 < t ∧ 800 * (c.rd (R.RIDE_PT_US i k)).toNat ≤ t

/-- The region of quantity and side `j` = 2q + s (R311). -/
def rideRegion (c : State) (exc : Nat) (timers : Tab Nat) (j : Nat) : Nat :=
  let i := fun r => 6 * (j / 2) + 2 * r + j % 2
  let exd := fun r => decide (reached c timers (i r) ≠ [])
  if !bit exc j then 0
  else if exd 0 then 4
  else if c.on (F.RIDE_CRV_present (i 2)) && !exd 2 then 1
  else if c.on (F.RIDE_CRV_present (i 1)) && exd 1 then 3
  else 2

/-- The behaviour of a region (R313). -/
def regionBehave (c : State) (j region : Nat) : Nat :=
  match region with
  | 0 => 0
  | 1 => c.f (F.RIDE_CRV_behave (6 * (j / 2) + 4 + j % 2))
  | 2 => c.f (F.RIDE_CRV_behave (6 * (j / 2) + 2 + j % 2))
  | 3 => 1
  | _ => 3

/-- Rank of a behaviour (R314). -/
def behaveRank (b : Nat) : Nat := match b with | 3 => 3 | 1 => 2 | 2 => 1 | _ => 0

/-- The highest-ranking of a list of behaviours. -/
def topBehave (l : List Nat) : Nat := l.foldl (fun a b => if behaveRank a < behaveRank b then b else a) 0

/-- What an evaluation gives. -/
structure RideRes where
  exc : Nat
  timers : Tab Nat
  regions : List Nat
  behave : Nat
deriving DecidableEq, Repr

/-- The evaluation of a step. -/
def rideEval (c : State) (t : Trk) (n : Nat) : RideRes :=
  if !rideOn c then ⟨0, [], List.replicate 8 0, 0⟩
  else
    let amps := (phaseAmps (c.on F.GRID_CFG_vwire) t.sogi).map q36
    let x := rideQty t amps
    let exc := excursions c x
    let timers := rideTimers c x n
    let regions := (List.range 8).map (rideRegion c exc timers)
    ⟨exc, timers, regions, topBehave ((List.range 8).map fun j => regionBehave c j (regions.getD j 0))⟩

/-- The code of `RIDE_REGION`. -/
def regionWord (l : List Nat) : Word := BitVec.ofNat 32 ((List.range 8).foldl (fun a j => a + l.getD j 0 * 8 ^ j) 0)

/-- The modes in which the sequencer acts (R317). -/
def rideActs (m : Nat) : Bool := m = FOLLOW ∨ m = FORM ∨ m = RIDE

/-- The difference of the injection row of R315, less the dead band. -/
def injDelta (d db : Rat) : Rat := if absQ d ≤ db then 0 else if d < 0 then d + db else d - db

/-- What the sequencer publishes and reports in a step. -/
def rideReport (c : State) (t : Trk) (r : RideRes) (n : Nat) : Act :=
  let h := c.hid.ride
  let start := h.exc = 0 ∧ r.exc ≠ 0
  let free := r.exc = 0
  let vpre := if free then narrow48 (filt (ofPu48 h.vpre) (ofPu (t.mag.getD 0 0)) (secs n) 1) else h.vpre
  seq [
    forEach (List.range 24) fun i => setF (F.RIDE_CRV_exceeded i) (b2n (reached c r.timers i ≠ [])),
    setW R.RIDE_REGION (regionWord r.regions), setF F.RIDE_STAT_excursion (b2n (r.exc ≠ 0)),
    only (r.behave ≠ c.f F.RIDE_STAT_behave) (setB F.RIDE_EVENT_behave), setF F.RIDE_STAT_behave r.behave,
    only start (seq [setB F.RIDE_EVENT_excursion, bump R.RIDE_EXC_CNT,
      setPu R.RIDE_ID_HOLD (c.pu (R.GRID_Q 16)), setPu R.RIDE_VPRE (narrow36 (ofPu48 h.vpre)),
      rideA fun h => { h with idHold := c.pu (R.GRID_Q 16), iqPre := c.pu (R.GRID_Q 17) }]),
    only (h.exc ≠ 0 ∧ free) (setB F.RIDE_EVENT_return),
    only free (setPu R.RIDE_VPRE (narrow36 (ofPu48 vpre))),
    rideA fun h => { h with exc := r.exc, timer := r.timers, vpre := vpre, back := if r.exc = 0 then h.back + n else 0 }]

/-- The references of R315 for behaviours 1, 2 and 3; `hold` and `iqPre` are of the last step before the excursion.
The gains act as written, also outside their range.  DESIGN CHOICE, log entry 84. -/
def rideRefs (c : State) (t : Trk) (r : RideRes) : Refs :=
  if r.behave = 2 then
    let h := c.hid.ride
    let start := h.exc = 0
    let hold := if start then c.pu (R.GRID_Q 16) else h.idHold
    let iq := if start then c.pu (R.GRID_Q 17) else h.iqPre
    { dp := ofPu hold,
      qp := ofPu iq + c.puQ R.RIDE_KP * injDelta (ofPu (t.mag.getD 0 0) - ofPu48 h.vpre) (c.puQ R.RIDE_DB),
      dn := 0, qn := c.puQ R.RIDE_KN * ofPu (t.mag.getD 1 0) }
  else {}

/-- `RIDE_TRIP_INFO` of a trip (R317): the first quantity and side whose behaviour is trip; a may-ride region whose curve has
no point reached names none. -/
def tripInfo (c : State) (r : RideRes) : Word :=
  match (List.range 8).find? fun j => regionBehave c j (r.regions.getD j 0) = 3 with
  | none => 0#32
  | some j =>
    let reg := if r.regions.getD j 0 = 4 then 0 else 1
    let k := (reached c r.timers (6 * (j / 2) + 2 * reg + j % 2)).headD (Config.freePoint j).toNat
    BitVec.ofNat 32 (2 ^ 31 + k * 2 ^ 8 + j % 2 * 16 + reg * 4 + j / 2)

/-- RIDE is entered with the present mode as its origin (R131). -/
def enterRide : Act := fun s =>
  seq [changeMode RIDE, setF F.SYS_MODE_STAT_ride_origin s.mode, clrB F.SYS_MODE_STAT_ride_recovered,
    setB F.SYS_MODE_EVENT_ride, hidA fun h => { h with mode := { h.mode with rideT := some (s.now.toNat / 2) } }] s

/-- A request would enter RIDE now. -/
def rideEnters (s : State) : Bool := (s.mode = FOLLOW ∨ s.mode = FORM) ∧ s.role ≠ 2 ∧ !s.on F.SYS_MODE_STAT_busy

/-- A transition out of FOLLOW or FORM was accepted in this FAB cycle (R132). -/
def rideFirst (s : State) : Bool :=
  (s.mode = FOLLOW ∨ s.mode = FORM) ∧ s.role ≠ 2 ∧ s.on F.SYS_MODE_STAT_busy ∧
    s.hid.mode.begun = some (s.now.toNat / 2)

/-- A request now leads into RIDE. -/
def rideTaken (s : State) : Bool := rideEnters s || rideFirst s

/-- A RIDE request of the sequencer (R132, R317): a request checked in the same FAB cycle is refused with 0x16; a FOLLOW–FORM
transfer completes first; RIDE yields to any other accepted request; a Shadow's mode is the Leader's (R125). -/
def rideRequest : Act := fun s =>
  if rideEnters s then enterRide s
  else if rideFirst s then
    seq [setF F.SYS_MODE_STAT_result 0x16, setB F.SYS_MODE_EVENT_refused, setB F.SYS_MODE_EVENT_overtaken, enterRide] s
  else only ((s.mode = FOLLOW ∨ s.mode = FORM) ∧ s.role ≠ 2 ∧ (s.hid.mode.target = FOLLOW ∨ s.hid.mode.target = FORM))
    (rideA fun h => { h with wait := true }) s

/-- Entry, trip and recovery at cycle 152 (R317, R318); `m` is the mode of the step. -/
def rideAct (c : State) (r : RideRes) (m : Nat) : Act :=
  if !rideActs m then nop
  else seq [
    only (r.behave = 3) (seq [setW R.RIDE_TRIP_INFO (tripInfo c r), setB F.RIDE_EVENT_trip, haltCause causeRideTrip]),
    only (r.exc ≠ 0) (seq [clrB F.SYS_MODE_STAT_ride_recovered, only (m ≠ RIDE) rideRequest]),
    whenA (fun s => s.mode = RIDE ∧ r.exc = 0 ∧ !s.on F.RIDE_STAT_recovering ∧ !s.on F.SYS_MODE_STAT_ride_recovered ∧
        800000 * min 10000 (c.f F.RIDE_CFG_rec_ms) ≤ s.hid.ride.back)
      (seq [setB F.SYS_MODE_STAT_ride_recovered, setB F.SYS_MODE_EVENT_ride_recovered, setB F.RIDE_EVENT_recovered])]

/-- Without grid steps the timers and regions read 0 (R334). -/
def rideIdle : Act :=
  seq [setW R.RIDE_REGION 0#32, clrB F.RIDE_STAT_excursion, setF F.RIDE_STAT_behave 0,
    forEach (List.range 24) fun i => clrB (F.RIDE_CRV_exceeded i),
    rideA fun h => { h with exc := 0, timer := [], back := 0 }]

end Sys2Proof.Machine
end

