-- ==== Sys2Proof/Machine/GridStep.lean ====
section
/-!
DEFINITION. The grid step: trigger, the order of its parts, publication, reference sets, stopping (R267–R270, R280–R298).
-/

namespace Sys2Proof.Machine

/-- Changes what the grid block holds. -/
def gridA (g : GridSt → GridSt) : Act := hidA fun h => { h with grid := g h.grid }

/-- Island GRID runs. -/
def gridOn (s : State) : Bool := s.up ∧ s.island 9

/-- The block steps in mode `m` (R127, R270). -/
def gridSteps (m : Nat) : Bool := m ≠ DORMANT ∧ m ≠ CONFIGURE

/-- A value for grid input slot `j` (R266). -/
def gridDeliver (full : Bool) (j : Nat) (v : Int) : Act := whenA gridOn (gridArrive full j v)

/-! ### Trigger (R267–R269) -/

/-- Cycle 0: slots, the ports' values, set-points, t_trig and the Slide cycle counter at t_trig (R321) are latched. -/
def gridStart (ts : BitVec 64) : Act := seq [gridDrain, fun s =>
  let g := s.hid.grid
  let fed := (gridFed s.hid.fing.recs).filter (· < 16)
  let stale := maskOf (fed.filter fun j => !bit g.got j)
  seq [
    forEach (List.range 16) fun j => setPu (R.GRID_IN j) (gridSlot s j),
    only (stale ≠ 0) (seq [orW R.GRID_STALE (BitVec.ofNat 32 stale), setB F.GRID_EVENT_stale]),
    only ((List.range 16).any fun j => gridSlot s j ≠ gridSum s j) (setB F.GRID_EVENT_ovf),
    setB F.GRID_STAT_busy,
    withS fun t => gridA fun g => { g with
      t0 := s.now, sel := s.rd R.GRID_TRIG, trig := ts, cyc := BitVec.ofNat 20 (slideCyc s ts), got := 0, regs := t.regs, init := !g.run || t.on F.GRID_CTL_init, run := true,
      ports := (List.range 8).map (portLatch s) },
    forEach (List.range 8) fun p => portA p fun a => { a with vNew := false, iNew := false },
    clrB F.GRID_CTL_init] s]

/-- A trigger reaches the grid block; `go` alone acts in SERVICE and under kind 3 (R249, R267, R270); one that arrives while a step
runs is counted, also where the block is to stop with that step (R269). -/
def gridTrigger (ts : BitVec 64) (go : Bool) : Act := whenA (fun s => s.up) fun s =>
  if go ≠ (s.mode = SERVICE || F.GRID_TRIG_kind.get (gridTrig s) = 3) then []
  else if gridBusy s then seq [bump R.GRID_LOST_CNT, setB F.GRID_EVENT_step_lost] s
  else if !gridOn s ∨ !gridSteps s.mode then []
  else gridStart ts s

/-- A GRID cycle in ticks (R268). -/
def gridCyc (s : State) : Nat := 2 * (1 + s.f F.CLK_SYS_DIV_ACT_div_grid)

/-- A set-point pair lands (R257, R280): one that lands in cycle 0 of a running step is seen by that step (R294). -/
def gridSetLand (off : Nat) (v : Int) : Act := seq [setPu off v,
  whenA (fun s => s.on F.GRID_STAT_busy ∧ landCyc (gridCyc s) s.hid.grid.t0 s.now = 0)
    (withS fun s => gridA fun g => { g with
      regs := (g.regs.put (resetWord off) off (s.rd off)).put (resetWord (off + 4)) (off + 4) (s.rd (off + 4)) })]

/-- GRID_TRIGGER (R267): the oldest trigger on its way arrives. -/
def gridRouted : Act := fun s =>
  match s.hid.grid.trigs with
  | [] => []
  | t :: ts => seq [gridA fun g => { g with trigs := ts }, gridTrigger t false] s

/-- A write of `GRID_CTL` (R267, R270): `init` is taken only in STANDBY, HALT or SERVICE. -/
def gridCtl (v : Word) : Act := seq [
  only (v.getLsbD 1) (whenA (fun s => s.mode = STANDBY ∨ s.mode = HALT ∨ s.mode = SERVICE) (setB F.GRID_CTL_init)),
  only (v.getLsbD 0) fun s => gridTrigger s.now true s]

/-! ### Publication (R268, R293, R300) -/

/-- A set of quantities is published: `GRID_Q`, and the copy on its way to the engines (R278); a disabled island discards it, which
is counted here (R34). -/
def publishSet (x : GridSet) : Act := fun s =>
  let dst := maskOf ((List.range 8).filter fun e => s.up && s.island (1 + e))
  seq [
    forEach (List.range 64) fun q =>
      if isAngleQ q then set64 (R.GRID_Q q) (BitVec.ofInt 64 (x.q.get 0 q)) else setPu (R.GRID_Q q) (x.q.get 0 q),
    gridA fun g => { g with
      prev := (List.range 8).foldl (fun t e => t.put {} e (setArrived s 4 e)) g.prev, cur := x,
      sent := (g.sent.filter fun y => decide ((s.now - y.1).toNat < crossTicks s 4)) ++ [(s.now, dst, x)],
      lost := min (2 ^ 31 - 1) (g.lost + (8 - (bitsOf 8 dst).length)) }] s

/-- The first step after a start, or after `init`, only initialises (R267, R270). -/
def gridInit (c : State) : Act := fun s =>
  let vw := c.on F.GRID_CFG_vwire
  let f := narrow48 (fmPar c R.GRID_FM_F_SET (fLo c) (fHi c))
  let v := slotClarke c vw 0
  let i := slotClarke c false 3
  let t : Trk := ⟨v, i, [], f, 0, false, false, (0, 0), (0, 0), 0#32, 0#32, [0, 0, 0], 0, 0, false, 0, 0, false⟩
  let m := fmTrack c t
  let p := if c.f F.GRID_CS_CFG_p_src = 1 then
      c.puQ (R.BORE_STG_Y (c.f F.GRID_CS_PSRC_engine) (min 47 (c.f F.GRID_CS_PSRC_stage)) (c.f F.GRID_CS_PSRC_lane))
    else if c.f F.GRID_CS_CFG_p_src = 2 then c.puQ R.MPPT_PSUM else c.puQ R.GRID_P_SP
  seq [
    gridA fun g => { g with
      vin := v, sogi := [0, 0, 0, 0, 0, 0], f := f, good := 0, bad := 0, p := narrow48 p, qr := narrow48 (c.puQ R.GRID_Q_SP),
      idn := narrow48 (c.puQ R.GRID_IDN_SP), iqn := narrow48 (c.puQ R.GRID_IQN_SP), ret := false,
      thv := m.thv, w := m.w, e := m.e, lim := false, retN := 0, pmRet := false, iu := narPair m.iu },
    only (m.ovf || over48 (fmPar c R.GRID_FM_F_SET (fLo c) (fHi c))) (setB F.GRID_EVENT_ovf)] s

/-- The P* source of R280, and whether it is ramped. -/
def pSource (c s : State) : Rat × Bool :=
  match c.f F.GRID_CS_CFG_p_src with
  | 1 => (c.puQ (R.BORE_STG_Y (c.f F.GRID_CS_PSRC_engine) (min 47 (c.f F.GRID_CS_PSRC_stage)) (c.f F.GRID_CS_PSRC_lane)), false)
  | 2 => (s.puQ R.MPPT_PSUM, false)
  | _ => (c.puQ R.GRID_P_SP, true)

/-- P*, Q*, id− and iq− after a step (R280, R284, R318): `zero` while an unlock takes them to 0, `hold` while a behaviour other
than continue is in force, `back` at its end. -/
def setpoints (c s : State) (ts : Rat) (zero hold back : Bool) (pe : Rat) : Act :=
  let g := s.hid.grid
  let src := pSource c s
  let pr := c.puQ R.GRID_P_RATE
  let qrate := c.puQ R.GRID_Q_RATE
  let rec0 := (s.on F.RIDE_STAT_recovering && !hold) || back
  let tgt := fun (x : Rat) => if zero then 0 else x
  let p0 := if back then pe else ofPu48 g.p
  let p := if hold then p0
    else if rec0 then rampTo p0 (tgt src.1) (c.puQ R.RIDE_P_RATE) ts
    else if zero || g.ret || src.2 then rampTo p0 (tgt src.1) pr ts else src.1
  let q := rampTo (ofPu48 g.qr) (tgt (c.puQ R.GRID_Q_SP)) qrate ts
  let slow := zero || g.ret
  let dn := if slow then rampTo (ofPu48 g.idn) (tgt (c.puQ R.GRID_IDN_SP)) pr ts else c.puQ R.GRID_IDN_SP
  let qn := if slow then rampTo (ofPu48 g.iqn) (tgt (c.puQ R.GRID_IQN_SP)) qrate ts else c.puQ R.GRID_IQN_SP
  let there := decide (p = src.1) && decide (q = c.puQ R.GRID_Q_SP) && decide (dn = c.puQ R.GRID_IDN_SP)
    && decide (qn = c.puQ R.GRID_IQN_SP)
  seq [
    gridA fun g => { g with p := narrow48 p, qr := narrow48 q, idn := narrow48 dn, iqn := narrow48 qn,
                            ret := zero || (g.ret && !there) },
    setF F.RIDE_STAT_recovering (b2n (rec0 && decide (p ≠ src.1)))]

/-- Which set a mode publishes (R270): 0 none, 1 current synthesis, 2 forming machine. -/
def setOf (s : State) (m : Nat) : Nat :=
  if m = HALT ∨ m = DORMANT ∨ m = CONFIGURE then 0
  else if m = FORM ∨ (m = RIDE ∧ s.f F.SYS_MODE_STAT_ride_origin = FORM) then 2 else 1

/-- Exact value of a pair of pu36 codes. -/
def ofPair (a : Int × Int) : Rat × Rat := (ofPu a.1, ofPu a.2)

/-- A pair scaled. -/
def scalePair (k : Rat) (a : Int × Int) : Int × Int := narPair (k * ofPu a.1, k * ofPu a.2)

/-- The published set's parts (R283, R291): `which` of R270, `zero` under momentary cessation of the forming machine. -/
def setParts (which : Nat) (zero : Bool) (blend : Option Rat) (fmLast out pos neg probe : Int × Int) : GridSet :=
  if which = 0 then {}
  else if which = 2 then { form := if zero then (0, 0) else out }
  else match blend with
  | none => { pos := pos, neg := neg, probe := probe }
  | some k => { pos := scalePair k pos, neg := scalePair k neg, probe := scalePair k probe, form := scalePair (1 - k) fmLast }

/-- The sum of the parts: quantities 20 and 21, exactly. -/
def GridSet.total (x : GridSet) : Rat × Rat :=
  let a := ofPair x.pos
  let b := ofPair x.neg
  let c := ofPair x.form
  let d := ofPair x.probe
  (a.1 + b.1 + c.1 + d.1, a.2 + b.2 + c.2 + d.2)

/-- The behaviours act in a step of mode `m`: in RIDE, and in the step of FOLLOW or FORM that enters RIDE (R315, R316). -/
def rideRules (s : State) (m : Nat) (r : RideRes) : Bool :=
  m = RIDE ∨ ((m = FOLLOW ∨ m = FORM) ∧ s.mode = m ∧ r.exc ≠ 0 ∧ rideTaken s)

/-- The per-unit quantities of a step, exactly (R293, R300); the angles are 0, 1, 32, 50 and 51. -/
def stepQty (c s : State) (t : Trk) (fm : Fm) (lim : Refs) (limited : Bool) (tot probe : Rat × Rat) (amps : List Rat)
    (r : RideRes) : List (Nat × Rat) :=
  let mag := fun j => ofPu (t.mag.getD j 0)
  let flag := fun (b : Bool) => (b2n b : Rat)
  [(2, ofPu48 t.f), (3, ofPu48 t.rocof), (4, mag 0), (5, mag 1), (6, mag 2), (7, flag t.locked),
   (8, t.vp.1), (9, t.vp.2), (10, t.vn.1), (11, t.vn.2), (12, ofPu48 t.pe), (13, ofPu48 t.qe), (14, c.puQ (R.GRID_IN 6)),
   (16, lim.dp), (17, lim.qp), (18, lim.dn), (19, lim.qn), (20, tot.1), (21, tot.2), (22, probe.1), (23, probe.2),
   (24, flag limited), (33, ofPu48 fm.w), (34, ofPu48 fm.e), (35, fm.ev.1), (36, fm.ev.2), (37, flag fm.lim),
   (38, ofPu48 fm.pm)] ++
  [(40, s.puQ R.MPPT_PSUM), (41, minQ amps), (42, maxQ amps), (43, (r.regions.foldl max 0 : Nat)), (44, r.behave),
   (45, s.puQ R.PROBE_ZMAG), (46, s.puQ R.PROBE_R), (47, s.puQ R.PROBE_X), (48, flag (s.on F.PROBE_STAT_island)),
   (49, chipNow s)]

/-- The current synthesis, forming machine and publication of a step: `c` holds the registers latched at cycle 0, `m` is the
mode of the step, `n` its time in ticks. -/
def gridFinish (c : State) (t : Trk) (r : RideRes) (m n : Nat) : Act := fun s =>
  let g := s.hid.grid
  let ts := secs n
  let which := setOf c m
  let rules := rideRules s m r
  let follow := which = 1
  let ceased := rules && r.behave = 1
  let forming := which = 2 && !ceased
  let fm := if forming then fmRun c t ts (ofPu48 g.p) (ofPu48 g.qr) else fmTrack c t
  let ks := c.puQ R.GRID_KS
  let vm := max (ofPu (t.mag.getD 0 0)) (c.puQ R.GRID_VFLOOR)
  let own : Refs := { dp := divQ (ks * ofPu48 g.p) vm, qp := -divQ (ks * ofPu48 g.qr) vm, dn := ofPu48 g.idn, qn := ofPu48 g.iqn }
  let over3 := rules && follow && r.behave ≠ 0
  let refs := if over3 then rideRefs c t r else own
  let lr := limitRefs refs (c.puQ R.GRID_ILIM) (if over3 && r.behave = 2 then 1 else c.f F.GRID_CS_CFG_prio)
  let rot := rotateRefs lr.1 (t.thp + c.rd R.GRID_CS_ANG) (-t.thn)
  let pos := narPair rot.1
  let neg := narPair rot.2
  let pc := probeCurrent s m
  let xn := max 1 (c.f F.GRID_CS_CFG_xfer_n)
  let k := (g.blend.map (· + 1))
  let blend := match k with
    | some j => if follow && j < xn then some ((j : Rat) / xn) else none
    | none => none
  let parts := setParts which ceased blend g.fmLast (narPair fm.out) pos neg (narPair pc)
  let amps := phaseAmps (c.on F.GRID_CFG_vwire) t.sogi
  let ps := s.hid.probe
  let qs := stepQty c s t fm lr.1 (lr.2 || fm.lim) parts.total pc amps r
  let angles : Tab Int := [(0, t.thp.toNat), (1, t.thn.toNat), (32, fm.thv.toNat), (50, ps.th1.toNat), (51, ps.th2.toNat)]
  let tab : Tab Int := qs.foldl (fun a x => a.put 0 x.1 (narrow36 x.2)) (angles.foldl (fun a x => a.put 0 x.1 x.2) [])
  let set : GridSet := { parts with ts := g.trig, q := tab }
  let ovf := t.ovf || fm.ovf || overPair rot.1 || overPair rot.2 || overPair fm.out ||
    qs.any fun x => x.1 ≠ 41 && x.1 ≠ 42 && over36 x.2
  seq [
    publishSet set,
    gridA fun g => { g with
      sogi := t.sogi, f := t.f, rocof := t.rocof, pe := t.pe, qe := t.qe, good := t.good, bad := t.bad, vin := t.v,
      thv := fm.thv, w := fm.w, e := fm.e, pm := fm.pm, lim := fm.lim, retN := fm.retN, pmRet := fm.pmRet,
      iu := narPair fm.iu, csPos := pos, csNeg := neg, fmLast := if which = 2 then parts.form else g.fmLast,
      blend := if blend.isSome then k else none },
    setF F.GRID_STAT_ref_set (if blend.isSome then 3 else which),
    only (forming && fm.lim && !g.lim) (setB F.GRID_EVENT_form_lim),
    only (forming && !fm.lim && g.lim) (setB F.GRID_EVENT_form_unlim), setF F.GRID_STAT_form_lim (b2n fm.lim),
    only (lr.2 && !c.on F.GRID_STAT_cs_lim) (setB F.GRID_EVENT_cs_lim), setF F.GRID_STAT_cs_lim (b2n lr.2),
    only (t.fClip && !c.on F.GRID_STAT_f_clip) (setB F.GRID_EVENT_f_clip), setF F.GRID_STAT_f_clip (b2n t.fClip),
    setF F.GRID_STAT_fll_frozen (b2n t.frozen),
    only (t.locked && !c.on F.GRID_STAT_locked) (setB F.GRID_EVENT_lock),
    only (!t.locked && c.on F.GRID_STAT_locked) (setB F.GRID_EVENT_unlock), setF F.GRID_STAT_locked (b2n t.locked),
    only ovf (setB F.GRID_EVENT_ovf), only (amps.any over36) (setB F.RIDE_EVENT_ovf)] s

/-- Step time in ticks, clamped to 5 to 100 µs (R267). -/
def stepTicks (g : GridSt) : Nat := max 4000 (min 80000 (g.trig - g.last).toNat)

/-- The parts of a step in their order (R268, R298). -/
def gridWork (c : State) (m : Nat) : Act := fun s =>
  let n := stepTicks s.hid.grid
  let clip := decide ((s.hid.grid.trig - s.hid.grid.last).toNat ≠ n)
  let t := trkStep c n
  let r := rideEval c t n
  let hold := rideRules s m r && r.behave ≠ 0 && (setOf c m = 1 || r.behave = 1)
  let back := m = RIDE && r.behave = 0 && c.f F.RIDE_STAT_behave ≠ 0
  let rides := r.exc ≠ 0 && rideTaken s && s.mode = m
  let unlocked := !t.locked && setOf c m = 1 && (m = FOLLOW || m = RIDE)
  seq [
    setW R.GRID_TS (BitVec.ofNat 32 n), setF F.GRID_STAT_ts_clip (b2n clip), only clip (setB F.GRID_EVENT_ts_clip),
    mpptStep c m n (c.puQ (R.GRID_IN 6)) rides,
    probeStep c t m n (rides || s.mode = RIDE),
    withS fun u => setpoints c u (secs n) (unlocked && c.on F.GRID_CS_CFG_unlock_zero) hold back (ofPu48 t.pe),
    gridFinish c t r m n,
    rideReport c t r n,
    rideAct c r m,
    withS fun u => probeA fun x => { x with mode := u.mode }] s

/-- What a stopped block shows (R295). -/
def gridStop : Act := fun s =>
  let g := s.hid.grid
  let zeroed := [20, 21, 22, 23, 35, 36]
  seq [
    publishSet { g.cur with
      q := zeroed.foldl (fun t q => t.put 0 q 0) g.cur.q, pos := (0, 0), neg := (0, 0), form := (0, 0), probe := (0, 0) },
    clrB F.GRID_STAT_locked, setF F.GRID_STAT_ref_set 0, gridA fun g => { g with run := false, blend := none },
    mpptIdle, rideIdle, probeIdle] s

/-- The block stops: a step in progress finishes and publishes first (R295). -/
def gridLeave : Act := whenA (fun s => !s.on F.GRID_STAT_busy ∧ s.hid.grid.run) gridStop

/-! ### Reference sets at a change of mode (R291, R294) -/

/-- The published set changes without a step (R291). -/
def publishParts (x : GridSet) (ref : Nat) : Act := fun s =>
  let p := narPair x.total
  let q := [(20, p.1), (21, p.2)].foldl (fun (t : Tab Int) a => t.put 0 a.1 a.2) s.hid.grid.cur.q
  seq [publishSet { x with ts := s.hid.grid.cur.ts, q := q }, setF F.GRID_STAT_ref_set ref,
    only (overPair x.total) (setB F.GRID_EVENT_ovf)] s

/-- Mode `b` begins where set `wa` was published; a step in progress ends first (R270, R291, R294). -/
def refSwitch (wa b : Nat) : Act := whenA (fun s => s.hid.grid.run ∧ !s.on F.GRID_STAT_busy ∧ b ≠ RIDE) fun s =>
  let g := s.hid.grid
  let wb := setOf s b
  if wa = wb then []
  else if wb = 0 then publishParts {} 0 s
  else if wb = 2 then seq [gridA fun g => { g with blend := none, fmLast := g.iu }, publishParts { form := g.iu } 2] s
  else if wa = 2 ∧ b = FOLLOW then
    seq [gridA fun g => { g with blend := some 0 }, publishParts { form := g.fmLast } 3] s
  else publishParts { pos := g.csPos, neg := g.csNeg } 1 s

/-! ### Cycle 152 -/

/-- GRID_PUBLISH: cycle 152 (R268), under the registers and the mode of cycle 0 (R294). -/
def gridPublish : Act := whenA (fun s => s.on F.GRID_STAT_busy) fun s =>
  let g := s.hid.grid
  let c : State := { s with regs := g.regs }
  let steps := (s.rd64 R.GRID_STEP_CNT).toNat
  seq [
    if g.init then gridInit c else gridWork c c.mode,
    set64 R.GRID_LAST_TS g.trig, set64 R.GRID_STEP_CNT (BitVec.ofNat 64 (min (steps + 1) (2 ^ 64 - 1))),
    gridA fun g => { g with
      last := g.trig, regs := [], endT := s.now + BitVec.ofNat 64 (16 * (1 + s.f F.CLK_SYS_DIV_ACT_div_grid)),
      inS := s.regs.keep fun o => R.GRID_IN 0 ≤ o && decide (o < R.GRID_IN 16) },
    clrB F.GRID_STAT_busy,
    fun t => if !gridOn t ∨ !gridSteps t.mode then gridStop t else refSwitch (setOf c c.mode) t.mode t] s

/-- `GRID_STAT` as a read finds it: `running` says that the block steps in the present mode; `busy` reads 1 to cycle 160. -/
def gridStatWord (s : State) : Word :=
  s.rd R.GRID_STAT ||| BitVec.ofNat 32 (128 * b2n (gridOn s && gridSteps s.mode) + b2n (gridEnding s))

end Sys2Proof.Machine
end

