-- ==== Sys2Proof/Machine/Meter.lean ====
section
/-!
DEFINITION. The metering points: metered samples, windows, cycles, energy, the SKM-6100 image (spec/13).
-/

namespace Sys2Proof.Machine

/-- What point `i` holds, and a change of it. -/
def metSt (s : State) (i : Nat) : MeterSt := s.hid.meter.get {} i
def metA (i : Nat) (g : MeterSt → MeterSt) : Act := hidA fun h => { h with meter := h.meter.put {} i (g (h.meter.get {} i)) }

/-- Point `i` runs (R353, R354). -/
def metRuns (s : State) (i : Nat) : Bool := s.up ∧ s.island 10 ∧ bit (s.f F.METER_CTL_en) i ∧ !(metSt s i).stopped

/-- The mode accumulates (R353). -/
def metAccum (m : Nat) : Bool := m ≠ DORMANT ∧ m ≠ CONFIGURE

/-- Form and wiring. -/
def metFine (s : State) (i : Nat) : Bool := s.on (F.METER_PT_CFG_form i)
def metFour (s : State) (i : Nat) : Bool := s.on (F.METER_PT_CFG_wiring i)

/-- Metered samples per cycle (R342), and cycles per window. -/
def metN (s : State) (i : Nat) : Nat := if metFine s i then 4096 else 1024
def metCyc (s : State) (i : Nat) : Nat := max 1 (s.f (F.METER_PT_CFG_ncyc i))

/-- The channel bytes of point `i`: voltages L1–L3, then currents (R99). -/
def metChans (s : State) (i : Nat) : List Nat :=
  match recAt tMeter i s.hid.fing.recs with
  | some r => (List.range 6).map fun j => r.b (4 + j)
  | none => []

/-- A result of converter entry `c` × 16 + `q`, or of Fine channel `f`, reaches the points that name it. -/
def metDeliver (fine : Bool) (src : Nat) (x : MetIn) : Act := fun s =>
  forEach ([0, 1].filter fun i => metRuns s i ∧ metFine s i = fine) (fun i =>
    forEach ((List.range 6).filter fun j => (metChans s i).getD j 0xFFF = src) fun j =>
      metA i fun m => { m with q := m.q.put [] j (if fine then (x :: m.q.get [] j).take 4096 else x :: m.q.get [] j) }) s

/-! ### Arithmetic

The results of this block are exact values narrowed once (R5), with no tolerance of another block.  DEDUCED, log entry 87. -/

/-- A number cut below 2⁻²⁵⁶. -/
def cut (x : Rat) : Rat := ((x * 2 ^ 256).floor : Rat) / 2 ^ 256

/-- The square root: of the square of a rational exactly, else cut below 2⁻⁴⁰⁹⁶. -/
def sqrtX (y : Rat) : Rat :=
  let n := Nat.sqrt y.num.toNat
  let d := Nat.sqrt y.den
  if y ≤ 0 then 0
  else if n * n = y.num.toNat ∧ d * d = y.den then (n : Rat) / d
  else (Nat.sqrt (y.num.toNat * y.den * 2 ^ 8192) : Rat) / ((y.den : Rat) * 2 ^ 4096)

/-- tan (x / 2) of t = tan x. -/
def halfTan (t : Rat) : Rat := cut (t / (1 + (Nat.sqrt ((1 + t * t) * 2 ^ 512).floor.toNat : Rat) / 2 ^ 256))

/-- arctan of t from 0 to 1 in radians: four halvings, then the series. -/
def atanX (t : Rat) : Rat :=
  let u := halfTan (halfTan (halfTan (halfTan t)))
  16 * ((List.range 40).foldl (fun (p : Rat × Rat) k => (p.1 + p.2 / (2 * k + 1), cut (-p.2 * u * u))) (0, u)).1

/-- 2π. -/
def twoPiX : Rat := 8 * atanX 1

/-- sin 2πt for t from 0 to 1/4, by its series. -/
def sinX4 (t : Rat) : Rat :=
  let x := cut (twoPiX * t)
  ((List.range 40).foldl (fun (p : Rat × Rat) k => (p.1 + p.2, cut (-p.2 * x * x / ((2 * k + 2) * (2 * k + 3))))) (0, x)).1

/-- sin and cos of the angle of `k` of `n` parts of a turn, `n` a multiple of 4. -/
def sinX (k n : Nat) : Rat :=
  let j := k % (n / 2)
  let y := sinX4 (((if 4 * j ≤ n then j else n / 2 - j : Nat) : Rat) / n)
  if k % n < n / 2 then y else -y
def cosX (k n : Nat) : Rat := sinX (k + n / 4) n

/-- The angle of (x, y) in gyres; of (0, 0), here below 2⁻¹⁵⁰, there is none.  DESIGN CHOICE, log entry 18. -/
def atanXG (y x : Rat) : BitVec 32 :=
  let ay := absQ y
  let ax := absQ x
  if max ax ay < 1 / 2 ^ 150 then Config.freeAtan2 y x
  else
    let t := if ay ≤ ax then atanX (cut (ay / ax)) / twoPiX else 1 / 4 - atanX (cut (ax / ay)) / twoPiX
    let h := if x < 0 then 1 / 2 - t else t
    gyres (if y < 0 then -h else h)

/-- A quotient; the spec states none by 0.  DESIGN CHOICE, log entry 23. -/
def divX (a b : Rat) : Rat := if b = 0 then Config.freeQuot a else a / b

/-- kM (R343). -/
def metK (s : State) : Rat := ieeeQ (s.rd R.GRID_VBASE) * ieeeQ (s.rd R.GRID_IBASE) / ieeeQ (s.rd R.GRID_SBASE)

/-- Element-wise sum of lists that may still be empty. -/
def addL (n : Nat) (a b : List Rat) : List Rat := (List.range n).map fun j => a.getD j 0 + b.getD j 0

/-- The instantaneous powers of the rows of R343, or of the total of R344, from voltages and currents. -/
def rowPowers (four : Bool) (v i : List Rat) : List Rat :=
  if four then (List.range 3).map fun x => v.getD x 0 * i.getD x 0
  else [v.getD 0 0 * i.getD 0 0 - v.getD 1 0 * i.getD 2 0]

/-- pf (R343): 0 when the divisor is below 2⁻²⁰. -/
def powerFactor (p q : Rat) : Rat := if q < 1 / 2 ^ 20 then 0 else p / q

/-! ### Energy (R350–R352) -/

/-- An amount in units of 2⁻⁶⁴ pu·s is added to accumulator `k`. -/
def accAdd (i k amount : Nat) : Act := fun s =>
  let old := (s.rd64 (R.METER_PT_ACC i k)).toNat * 2 ^ 32 + (metSt s i).frac.get 0 k
  let new := old + amount
  let wraps := (s.rd64 (R.METER_PT_WRAP i)).toNat
  let w := wraps / 256 ^ k % 256
  let w' := min 255 (w + new / 2 ^ 96)
  seq [set64 (R.METER_PT_ACC i k) (BitVec.ofNat 64 (new / 2 ^ 32)),
    metA i fun m => { m with frac := m.frac.put 0 k (new % 2 ^ 32) },
    only (2 ^ 96 ≤ new) (seq [set64 (R.METER_PT_WRAP i) (BitVec.ofNat 64 (wraps + (w' - w) * 256 ^ k)),
      setB (F.METER_PT_EVENT_wrap i)])] s

/-- Power `p` over `tc` seconds goes to accumulator `x` of its direction; `x` = 3 is the total. -/
def energy (i x : Nat) (p tc : Rat) : Act :=
  let a := (roundHalfEven (absQ p * tc * 2 ^ 64)).toNat
  if 0 < p then accAdd i (4 + x) a else if p < 0 then accAdd i x a else nop

/-! ### Records of the Leader at a cycle close (R406) -/

/-- A record as it is read back, value by value. -/
abbrev MirVals := List Rat

/-- Value `i` of a record as a code, as a number, as a flag. -/
def mvI (l : MirVals) (i : Nat) : Int := (l.getD i 0).floor
def mvN (l : MirVals) (i : Nat) : Nat := (mvI l i).toNat
def mvB (l : MirVals) (i : Nat) : Bool := l.getD i 0 ≠ 0

/-- Key of a producer in the tables of step counts. -/
def mirKey (kind ix : Nat) : Nat := 256 * kind + ix

/-- The records waiting for a step that `mine` names are applied by `write`, each only where its step count is above the last one applied
(R406). -/
def mirTake (write : Nat → Nat → MirVals → Act) (mine : Nat → Nat → Bool) : Act := fun s =>
  let p := s.hid.pair
  if s.role ≠ 2 then [] else
  seq [
    forEach (p.recs.filter fun r => mine r.kind r.ix) fun r => fun t =>
      if t.hid.pair.done.get 0 (mirKey r.kind r.ix) < r.step.toNat then
        seq [hidA fun h => { h with pair := { h.pair with done := h.pair.done.put 0 (mirKey r.kind r.ix) r.step.toNat } },
          write r.kind r.ix r.data] t
      else [],
    hidA fun h => { h with pair := { h.pair with recs := h.pair.recs.filter fun r => !mine r.kind r.ix } }] s

/-- The application of a metering point's record (R405): accumulators, hidden fractions, wrap counts. -/
def putMeter (i : Nat) (l : MirVals) : Act :=
  seq [forEach (List.range 8) (fun k => set64 (R.METER_PT_ACC i k) (BitVec.ofInt 64 (mvI l k))),
    metA i (fun m => { m with frac := (List.range 8).foldl (fun t k => t.put 0 k (mvN l (8 + k))) [] }),
    set64 (R.METER_PT_WRAP i) (BitVec.ofInt 64 (mvI l 16))]

/-- A Shadow's point takes the record that waits for its cycle close. -/
def metMirror (i : Nat) : Act := mirTake (fun _ ix l => putMeter (ix % 2) l) fun k x => k = 5 ∧ x = i

/-- A cycle of `n` samples over `tc` ticks closes (R350, R351). -/
def cycleClose (i n tc : Nat) : Act := seq [only (n ≠ 0) (metMirror i), whenA (fun s => metAccum s.mode ∧ n ≠ 0) fun s =>
  let m := metSt s i
  let four := metFour s i
  let ps := (List.range 3).map fun x => metK s * m.pc.getD x 0 / n
  let pt := if four then ps.foldl (· + ·) 0 else metK s * m.pc.getD 0 0 / n
  let nl := s.puQ (R.METER_PT_NOLOAD i)
  let skip := fun x => four && decide (absQ (ps.getD x 0) < nl)
  let skipT := decide (absQ pt < (if four then 3 * nl else nl))
  let was := s.on (F.METER_PT_STAT_creep i)
  let t := secs tc
  seq [
    only four (forEach (List.range 3) fun x => only (!skip x) (energy i x (ps.getD x 0) t)),
    only (!skipT) (energy i 3 pt t),
    setF (F.METER_PT_STAT_creep_ph i) (maskOf ((List.range 3).filter skip)),
    setF (F.METER_PT_STAT_creep i) (b2n skipT),
    only (skipT && !was) (setB (F.METER_PT_EVENT_creep_on i)), only (!skipT && was) (setB (F.METER_PT_EVENT_creep_off i))] s]

/-! ### Window close (R342–R349) -/

/-- (−1/2 ± j √3/2) z. -/
def turn120 (up : Bool) (z : Rat × Rat) : Rat × Rat :=
  let h := if up then sqrtX 3 / 2 else -(sqrtX 3 / 2)
  (-z.1 / 2 - h * z.2, -z.2 / 2 + h * z.1)

/-- Magnitude of the mean of three phasors. -/
def meanAbs (a b c : Rat × Rat) : Rat :=
  let x := a.1 + b.1 + c.1
  let y := a.2 + b.2 + c.2
  sqrtX (x * x + y * y) / 3

/-- The missing-neutral check (R349). -/
def neutralCheck (i : Nat) (ph : List (Rat × Rat)) : Act := whenA (fun s => metFour s i ∧ s.on (F.METER_PT_CFG_neut_en i)) fun s =>
  let z := fun j => ph.getD j (0, 0)
  let v0 := meanAbs (z 0) (z 1) (z 2)
  let vp := meanAbs (z 0) (turn120 true (z 1)) (turn120 false (z 2))
  let i0 := meanAbs (z 3) (z 4) (z 5)
  let ip := meanAbs (z 3) (turn120 true (z 4)) (turn120 false (z 5))
  let im := meanAbs (z 3) (turn120 false (z 4)) (turn120 true (z 5))
  let n : Rat := metN s i
  let ratio := divX v0 vp
  let undet := decide (divX im ip < s.puQ (R.METER_PT_BAL_TH i)) || decide (2 * ip / n < s.puQ (R.METER_PT_NOLOAD i) / metK s)
  let miss := decide (s.puQ (R.METER_PT_NEUT_TH i) < ratio) && decide (divX i0 ip < 1 / 100)
  seq [
    setPu (R.METER_PT_V0 i) (narrow36 ratio), only (over36 ratio) (setB (F.METER_PT_EVENT_ovf i)), setF (F.METER_PT_STAT_neutral_undet i) (b2n undet),
    only (!undet) (seq [only (miss && !s.on (F.METER_PT_STAT_neutral i)) (setB (F.METER_PT_EVENT_neutral i)),
      setF (F.METER_PT_STAT_neutral i) (b2n miss)])] s

/-- A window closes: every quantity is published as one set (R342). -/
def windowClose (i : Nat) (t : BitVec 64) : Act := fun s =>
  let m := metSt s i
  let four := metFour s i
  let M : Rat := (metN s i * max 1 m.cyc : Nat)
  let k := metK s
  let rms := fun (l : List Rat) x => sqrtX (l.getD x 0 / M)
  let p := fun x => k * m.pp.getD x 0 / M
  let q := fun x => k * m.qq.getD x 0 / M
  let sa := fun x => k * rms m.vv x * rms m.ii x
  let pt := if four then p 0 + p 1 + p 2 else p 0
  let qt := if four then q 0 + q 1 + q 2 else q 0
  let st := if four then sa 0 + sa 1 + sa 2 else sqrtX (pt * pt + qt * qt)
  let row := fun (f : Nat → Rat) (tot : Rat) => (if four then [f 0, f 1, f 2] else [0, 0, 0]) ++ [tot]
  let ps := row p pt
  let qs := row q qt
  let ss := row sa st
  let fs := row (fun x => powerFactor (p x) (sa x)) (powerFactor pt st)
  let vs := (List.range 3).map (rms m.vv)
  let is := (List.range 3).map (rms m.ii)
  let dt := m.lastX - m.first.getD 0
  let okF := decide (2 ≤ m.nX) && dt ≠ 0
  let freq := if okF then ((m.nX - 1 : Nat) : Rat) / (dt * (125 / 10 ^ 11)) / fnomHz s else 0
  let ang := fun j => atanXG (m.ph.getD j (0, 0)).2 (m.ph.getD j (0, 0)).1
  let av0 := ang 1 - ang 0
  let vmin := s.puQ (R.METER_PT_SEQ_VMIN i)
  let high := vs.all fun v => decide (vmin < q36 v)
  let wrong := decide (0 < av0.toInt)
  let cntW := (s.rd64 (R.METER_PT_WIN_CNT i)).toNat
  let put := fun (off : Nat → Nat) (l : List Rat) => forEach (List.range l.length) fun j => setPu (off j) (narrow36 (l.getD j 0))
  let all := vs ++ is ++ ps ++ qs ++ ss ++ fs ++ [freq]
  seq [
    put (R.METER_PT_VRMS i) vs, put (R.METER_PT_IRMS i) is, put (R.METER_PT_P i) ps, put (R.METER_PT_Q i) qs,
    put (R.METER_PT_SA i) ss, put (R.METER_PT_PF i) fs,
    setPu (R.METER_PT_FREQ i) (narrow36 freq), setF (F.METER_PT_STAT_no_freq i) (b2n !okF),
    setW (R.METER_PT_ANG_V i 0) av0, setW (R.METER_PT_ANG_V i 1) (ang 2 - ang 0),
    forEach (List.range 3) fun x => setW (R.METER_PT_ANG_VI i x) (ang x - ang (3 + x)),
    setF (F.METER_PT_STAT_suspect i) (b2n m.bad), only m.bad (setB (F.METER_PT_EVENT_suspect i)),
    setF (F.METER_PT_STAT_coast i) (b2n m.coast), setF (F.METER_PT_STAT_unlocked i) (b2n m.unl),
    only high (seq [only (wrong && !s.on (F.METER_PT_STAT_seq_wrong i)) (setB (F.METER_PT_EVENT_seq_wrong i)),
      setF (F.METER_PT_STAT_seq_wrong i) (b2n wrong)]),
    neutralCheck i m.ph,
    only (all.any over36) (setB (F.METER_PT_EVENT_ovf i)),
    set64 (R.METER_PT_WIN_TS i) t, set64 (R.METER_PT_WIN_CNT i) (BitVec.ofNat 64 (min (cntW + 1) (2 ^ 64 - 1))),
    setB (F.METER_PT_EVENT_window i),
    metA i fun m => { m with
      cyc := 0, vv := [], ii := [], pp := [], qq := [], first := none, nX := 0, bad := false, coast := false, unl := false,
      newWin := true }] s

/-! ### Metered samples (R339–R342, R345) -/

/-- Zero crossings of voltage L1 with a sample `v` at time `t` (R345). -/
def crossings (t : BitVec 64) (v : Rat) (m : MeterSt) : MeterSt :=
  let p := ofPu (m.last.getD 0 {}).v
  let t0 : Rat := m.tLast.toNat
  let t1 : Rat := t.toNat
  let low := m.low || decide (v < -(5 / 100))
  let cand := if m.k = 0 ∧ m.cyc = 0 ∧ m.hist = [] then none
    else if low && decide (p < 0) && decide (0 ≤ v) then some (t0 + (t1 - t0) * (-p) / (v - p)) else m.cand
  match cand with
  | some c => if low && decide (5 / 100 < v) then
      { m with low := false, cand := none, first := some (m.first.getD c), lastX := c, nX := m.nX + 1 }
    else { m with low := low, cand := cand }
  | none => { m with low := low, cand := none }

/-- A metered sample: six channels' at time `t`, the interval's end, and whether it is a fallback's.  What is computed of it uses the
voltages of a quarter cycle before and the sample of L1 before too (R343, R345), whose `coast` the window carries (R341). -/
def metSample (i : Nat) (t : BitVec 64) (tEnd : Option (BitVec 64)) (x : List MetVal) (unl : Bool) : Act := seq [
  -- the first sample of the next cycle closes the one before (R342)
  whenA (fun s => metN s i ≤ (metSt s i).k) fun s =>
    let m := metSt s i
    seq [cycleClose i (metN s i) (t - m.t0).toNat,
      metA i fun m => { m with k := 0, cyc := m.cyc + 1, pc := [] },
      only (metCyc s i ≤ m.cyc + 1) (windowClose i t)] s,
  fun s =>
    let n := metN s i
    let four := metFour s i
    let vq := (x.take 3).map fun a => ofPu a.v
    let iq := (x.drop 3).map fun a => ofPu a.v
    metA i (fun m =>
      let old := m.hist.getD (n / 4 - 1) []
      let d := old.map fun a => ofPu a.v
      let coast := (m.last.take 1 ++ old ++ x).any (·.coast)
      let c := cosX m.k n
      let sn := sinX m.k n
      let m := crossings t (vq.getD 0 0) m
      let pw := rowPowers four vq iq
      { m with
        vv := addL 3 m.vv (vq.map fun y => y * y), ii := addL 3 m.ii (iq.map fun y => y * y),
        pp := addL 3 m.pp pw, qq := addL 3 m.qq (rowPowers four d iq), pc := addL 3 m.pc pw,
        ph := (List.range 6).map fun j =>
          let o := if m.k = 0 then (0, 0) else m.ph.getD j (0, 0)
          let y := ofPu (x.getD j {}).v
          (o.1 + y * c, o.2 - y * sn),
        hist := (x.take 3 :: m.hist).take (n / 4), last := x, t0 := if m.k = 0 then t else m.t0, tLast := t, tEnd := tEnd,
        k := m.k + 1, bad := m.bad || x.any (·.bad), coast := m.coast || coast, unl := m.unl || unl }) s]

/-- The gaps of a sample (R339). -/
def metGaps (i n : Nat) : Act := forEach (List.range n) fun _ => seq [bump (R.METER_PT_GAP_CNT i), setB (F.METER_PT_EVENT_gap i)]

/-- Index `a` comes after index `b` in the Slide cycle. -/
def ixAfter (a b : Nat) : Bool := let d := (a + 4096 - b) % 4096; 0 < d ∧ d < 2048

/-- The sample of channel place `j` with index `idx` that waits. -/
def fineHit (m : MeterSt) (idx j : Nat) : Option MetIn := (m.q.get [] j).find? fun a => a.idx = idx

/-- The six channels' samples of index `idx` that have arrived. -/
def fineHits (m : MeterSt) (idx : Nat) : List MetIn := (List.range 6).filterMap (fineHit m idx)

/-- The metered sample of index `idx`, whose time is `t` where no channel has delivered it (R339). -/
def fineOne (i idx : Nat) (t : BitVec 64) : Act := fun s =>
  let m := metSt s i
  let x := (List.range 6).map fun j => match fineHit m idx j with
    | some a => { v := a.v, bad := a.bad, coast := a.coast }
    | none => m.last.getD j {}
  seq [metGaps i (6 - (fineHits m idx).length),
    metA i fun m => { m with
      ix := some idx, q := (List.range 6).foldl (fun t j => t.put [] j ((m.q.get [] j).filter fun a => ixAfter a.idx idx)) [] },
    metSample i (((fineHits m idx).head?.map (·.ts)).getD t) none x false] s

/-- METER_FINE_SAMPLE (R339): each channel's sample of the index has arrived, or one of a later index; indices between the last one and
this one are metered first, each of them once.  One that no channel has delivered lies evenly between its neighbours in time: DESIGN
CHOICE, log entry 130.  With the Slide disabled the point receives no samples (R341). -/
def fineMetered (i : Nat) (idx : Nat) : Act := whenA (fun s => metRuns s i ∧ metFine s i ∧ s.on F.CLK_SLIDE_CFG_en) fun s =>
  let m := metSt s i
  let there := fun j => (m.q.get [] j).any fun a => a.idx = idx || ixAfter a.idx idx
  let t := ((fineHits m idx).head?.map (·.ts)).getD s.now
  let n := match m.ix with | some b => (idx + 4096 - b) % 4096 | none => 1
  let tk := fun k => if k + 1 = n then t else m.tLast + BitVec.ofNat 64 ((t - m.tLast).toNat * (k + 1) / n)
  if !m.ix.all (ixAfter idx) ∨ !(List.range 6).all there then []
  else forEach (List.range n) (fun k => fineOne i ((idx + 4096 + k + 1 - n) % 4096) (tk k)) s

/-- Ticks of an interval while the Slide is disabled (R341). -/
def fallbackTicks (s : State) : Nat := (roundHalfEven (10 ^ 11 / (125 * 1024 * fnomHz s))).toNat

/-- Multiples of 2²² gyres that the Core die's Slide angle has crossed at device time `t`, and whether it crosses one then (R340). -/
def slideIntervals (s : State) (t : BitVec 64) : Int := (slideAt s t).floor / 1024
def slideCrosses (s : State) (t : BitVec 64) : Bool := slideIntervals s (t - 1#64) < slideIntervals s t

/-- The closing boundary of the interval from `t0`: the Slide edge at `t1`, or the fallback's while the Slide is disabled. -/
def intervalEnd (s : State) (t0 t1 : BitVec 64) : BitVec 64 :=
  if s.on F.CLK_SLIDE_CFG_en then t1 else t0 + BitVec.ofNat 64 (fallbackTicks s)

/-- `t0` and `t1` bound an interval of point `i` (R340): it opens where the last one closed, the first one at a crossing; it closes at
the next crossing, or where the fallback's ends; 2 µs have passed since. -/
def intervalDue (s : State) (i : Nat) (t0 t1 : BitVec 64) : Bool :=
  let en := s.on F.CLK_SLIDE_CFG_en
  (match (metSt s i).tEnd with
    | some e => t0 = e
    | none => !en || slideCrosses s t0)
  && (!en || (slideCrosses s t1 && slideIntervals s t1 = slideIntervals s t0 + 1)) && decide (1600 ≤ (s.now - t1).toInt)

/-- METER_INTERVAL_CLOSE (R340, R341). -/
def leanMetered (i : Nat) (t0 t1' : BitVec 64) : Act :=
  whenA (fun s => metRuns s i ∧ !metFine s i ∧ intervalDue s i t0 (intervalEnd s t0 t1')) fun s =>
  let t1 := intervalEnd s t0 t1'
  let m := metSt s i
  let within := fun j => (m.q.get [] j).filter fun a => t0.toNat ≤ a.ts.toNat ∧ a.ts.toNat < t1.toNat
  let x := (List.range 6).map fun j =>
    let l := within j
    if l = [] then m.last.getD j {}
    else { v := roundHalfEven (((l.map (·.v)).foldl (· + ·) 0 : Int) / ((l.length : Nat) : Rat)), bad := l.any (·.bad), coast := l.any (·.coast) }
  seq [
    metGaps i (((List.range 6).filter fun j => within j = []).length),
    metA i fun m => { m with q := (List.range 6).foldl (fun t j => t.put [] j ((m.q.get [] j).filter fun a => t1.toNat ≤ a.ts.toNat)) [] },
    metSample i t0 (some t1) x (!s.on F.CLK_SLIDE_CFG_en)] s

/-! ### Start and stop (R353, R354) -/

/-- Time that the samples of an unfinished cycle cover, in ticks. -/
def covered (m : MeterSt) : Nat :=
  match m.tEnd with
  | some e => (e - m.t0).toNat
  | none => if m.k ≤ 1 then 0 else (m.tLast - m.t0).toNat * m.k / (m.k - 1)

/-- A point begins afresh: its first cycle starts at the next metered sample. -/
def metRestart (i : Nat) : Act := metA i fun m => { frac := m.frac, newWin := m.newWin }

/-- A point stops: the cycle in progress closes as a short cycle (R354). -/
def metStop (i : Nat) : Act := fun s =>
  let m := metSt s i
  seq [cycleClose i m.k (covered m), metRestart i, metA i fun m => { m with stopped := true }] s

/-- METER_STOP (R354). -/
def meterStop (i : Nat) : Act := whenA (fun s => metRuns s i) (metStop i)

/-- Every running point stops (R65, R354). -/
def meterStopAll : Act := seq [meterStop 0, meterStop 1]

/-- A write of `METER_CTL`: a point whose `en` is cleared stops, one whose `en` is set starts (R353, R354). -/
def meterCtl (v : Word) : Act := fun s =>
  let was := s.f F.METER_CTL_en
  seq [forEach ([0, 1].filter fun i => bit was i ∧ !bit v.toNat i) meterStop,
    forEach ([0, 1].filter fun i => !bit was i ∧ bit v.toNat i) metRestart,
    setW R.METER_CTL (v &&& 0x103#32)] s

/-- METER_ACC_WRITE (R355): k = 8 is `METER_PT[i]_WRAP`. -/
def accWrite (p : Port) (i k : Nat) (v : BitVec 64) : Act := fun s =>
  let off := if k = 8 then R.METER_PT_WRAP i else R.METER_PT_ACC i k
  if metAccum s.mode then accErr p 3 off s
  else seq [set64 off v, only (k ≠ 8) (metA i fun m => { m with frac := m.frac.put 0 k 0 })] s

/-- The Slide begins to coast: the window carries `coast` (R357). -/
def metCoast : Act := fun s => forEach ([0, 1].filter (metRuns s)) (fun i => metA i fun m => { m with coast := true }) s

/-- `METER_PT[i]_STAT` as a read finds it. -/
def metStatWord (s : State) (i : Nat) : Word :=
  let r := metRuns s i
  let off := !s.on F.CLK_SLIDE_CFG_en
  s.rd (R.METER_PT_STAT i) ||| BitVec.ofNat 32 (16 * b2n (r && !metFine s i && off) + 8 * b2n (r && metFine s i && off)
    + 2 * b2n (r && metAccum s.mode) + b2n r)

/-! ### The SKM-6100 image (R356) -/

/-- A pu36 code narrowed to a 32-bit field of `sh` bits less, unsigned or signed. -/
def compatU (sh : Nat) (c : Int) : Word := BitVec.ofInt 32 (clampInt 0 (2 ^ 32 - 1) (roundHalfEven ((c : Rat) / 2 ^ sh)))
def compatS (sh : Nat) (c : Int) : Word := BitVec.ofInt 32 (clampInt (-(2 ^ 31)) (2 ^ 31 - 1) (roundHalfEven ((c : Rat) / 2 ^ sh)))

/-- The image words from offset 0x008 of point `i`. -/
def compatWords (s : State) (i : Nat) : List Word :=
  let pus := fun (off : Nat → Nat) n => (List.range n).map fun x => s.pu (off x)
  let top := fun (off : Nat) => BitVec.ofNat 32 ((s.rd off).toNat / 65536)
  [0#32, 0#32]
  ++ ((pus (R.METER_PT_VRMS i) 3) ++ (pus (R.METER_PT_IRMS i) 3)).map (compatU 6)
  ++ ((pus (R.METER_PT_P i) 4) ++ (pus (R.METER_PT_Q i) 4)).map (compatS 6)
  ++ (pus (R.METER_PT_SA i) 4).map (compatU 6) ++ (pus (R.METER_PT_PF i) 4).map (compatS 0)
  ++ [BitVec.ofInt 32 (clampInt 0 (2 ^ 32 - 1) (roundHalfEven (ofPu (s.pu (R.METER_PT_FREQ i)) * fnomHz s * 1000)))]
  ++ [top (R.METER_PT_ANG_V i 0), top (R.METER_PT_ANG_V i 1), top (R.METER_PT_ANG_VI i 0), top (R.METER_PT_ANG_VI i 1),
      top (R.METER_PT_ANG_VI i 2)]
  ++ (List.range 16).map (fun w => s.rd (R.METER_PT_ACC i (w / 2) + 4 * (w % 2)))
  ++ [s.rd (R.METER_PT_WRAP i), s.rd (R.METER_PT_WRAP i + 4), 0#32, 0#32]

/-- The STATUS word. -/
def compatStatusWord (s : State) (i : Nat) : Word :=
  BitVec.ofNat 32 (b2n (metSt s i).newWin + 2 * s.f (F.METER_PT_STAT_creep i) + 4 * s.f (F.METER_PT_STAT_seq_wrong i)
    + 8 * s.f (F.METER_PT_STAT_neutral i) + 16 * s.f (F.METER_PT_STAT_suspect i) + 32 * s.f (F.METER_PT_STAT_coast i)
    + 64 * b2n !metFine s i)

/-- What a STATUS read does (R356). -/
def compatLatch : Act := fun s =>
  let i := s.f F.METER_CTL_compat_pt
  let l := compatWords s i
  seq [forEach (List.range l.length) fun w => setW (R.COMPAT w) (l.getD w 0#32), metA i fun m => { m with newWin := false }] s

end Sys2Proof.Machine
end

