-- ==== Sys2Proof/Machine/Deliver.lean ====
section
/-!
DEFINITION. Where the results of the converters go (R143, R147, R34).
-/

namespace Sys2Proof.Machine

def fineSt (s : State) (f : Nat) : FineSt := s.hid.fine.get {} f
def fineA (f : Nat) (g : FineSt → FineSt) : Act := hidA fun h => { h with fine := h.fine.put {} f (g (h.fine.get {} f)) }

/-- Routes of the structure in force from entry `q` of converter `c`. -/
def routesOf (s : State) (c q : Nat) : List Rec := (recsOf tRouteConv s.hid.fing.recs).filter fun r => r.b 0 = c ∧ r.b 1 = q

/-- One route delivers: the pu36 value, or the raw code; to a disabled island the result is discarded and counted (R34). -/
def routeDeliver (full : Bool) (c : Nat) (r : Rec) (v code : Int) : Act := fun s =>
  let x := if r.b 6 = 1 then code else v
  if r.b 2 = 0 then (if boreOn s (r.b 3) then slotDeliver full (r.b 3) (r.w16 4) x s else bump (R.CONV_C_OVR_CNT c) s)
  else if r.b 2 = 1 then (if gridOn s then gridDeliver full (r.w16 4) x s else bump (R.CONV_C_OVR_CNT c) s)
  else []

/-- Routes of entry `x` (converter × 16 + entry) to MPPT ports and to Lean metering points. -/
def mpptRoutes (s : State) (x : Nat) : Nat :=
  ((List.range 8).filterMap (portSrc s)).foldl (fun n y => n + b2n (y.1 = x) + b2n (y.2 = x)) 0
def meterRoutes (s : State) (x : Nat) : Nat :=
  (([0, 1].filter fun i => !metFine s i).flatMap (metChans s)).count x

/-- Channels of Fine metering points that Fine channel `f` is. -/
def fineRoutes (s : State) (f : Nat) : Nat := (([0, 1].filter fun i => metFine s i).flatMap (metChans s)).count f

/-- Results sent to a disabled GRID or METER are discarded and counted at the converter (R34). -/
def lostRoutes (s : State) (x : Nat) : Nat :=
  (if gridOn s then 0 else mpptRoutes s x) + (if s.island 10 then 0 else meterRoutes s x)

/-- A result of entry `q` of converter `c` goes to every destination: routes, MPPT ports and Lean metering points; none is
reached over a lost link (R30); `full`: the boundary FIFOs on the way are full (R33). -/
def deliverAll (full : Bool) (c q : Nat) (x : MetIn) (code : Int) : Act := whenA (fun s => s.on (F.SYS_SEAM_STAT_up (c / 8))) fun s =>
  seq [forEach (routesOf s c q) (fun r => routeDeliver full c r x.v code), mpptDeliver full c q x.v, metDeliver false (16 * c + q) x,
    forEach (List.range (lostRoutes s (16 * c + q))) fun _ => bump (R.CONV_C_OVR_CNT c)] s

end Sys2Proof.Machine
end

