-- ==== Sys2Proof/Machine/Conv.lean ====
section
/-!
DEFINITION. The SAR converters and the Fine channels (spec/06).
-/

namespace Sys2Proof.Machine

/-- Die of converter `c`, and its number on that die (R36). -/
def convDie (c : Nat) : Nat := c / 8
def convBit (c : Nat) : Nat := c % 8

/-- CONV of die `d` is enabled. -/
def convOn (s : State) (d : Nat) : Bool := dieOn s 0 d

/-- Changes what converter `c` holds. -/
def convA (c : Nat) (g : ConvSt → ConvSt) : Act := hidA fun h => { h with conv := h.conv.put {} c (g (h.conv.get {} c)) }

/-- What converter `c` holds. -/
def convSt (s : State) (c : Nat) : ConvSt := s.hid.conv.get {} c

/-! ### Corrections and scaling (R144, R145) -/

/-- The third-order Lagrange weight of node `p` among the nodes `ps` at position `x`. -/
def lagWeight (ps : List Nat) (x : Rat) (p : Nat) : Rat :=
  (ps.filter (· ≠ p)).foldl (fun a m => a * ((x - m) / ((p : Rat) - m))) 1

/-- Third-order interpolation at `dd` samples back in a history, newest first; an entry that the history does not reach
reads as its oldest one (R161: a first result is interpolated from that result alone).  Its four nodes surround `dd`, and below a
delay of 1 they are the newest four.  DESIGN CHOICE, log entry 123. -/
def lagrange3 (h : List Int) (dd : Rat) : Rat :=
  let j := (dd.floor - 1).toNat
  let ps := [j, j + 1, j + 2, j + 3]
  ps.foldl (fun a p => a + lagWeight ps dd p * (h.getD p (h.getLastD 0) : Rat)) 0

/-- The scaled value of R144: `full` is the code of full scale. -/
def scaled (h : List Int) (full : Rat) (dly trim : Nat) (scale ofs : Int) : Rat :=
  let dd : Rat := 4 + (sext 19 dly : Rat) / 2 ^ 16
  lagrange3 h dd / full * ((scale : Rat) / 2 ^ 30) * (1 + (sext 22 trim : Rat) / 2 ^ 24) + (ofs : Rat) / 2 ^ 30

/-- The sum over the sixteen bit decisions of d_b × (2^b + w_b / 32) (R153). -/
def bitSum (bits : Nat) (w : Nat → Int) : Rat :=
  (List.range 16).foldl (fun a b => if bits / 2 ^ b % 2 = 1 then a + (2 : Rat) ^ b + (w b : Rat) / 32 else a) 0

/-- The weight correction of bit `b` of converter `c` (R165). -/
def convW (s : State) (c b : Nat) : Int := sext 8 ((s.rd (R.CONV_C_CAL_W c (b / 4))).toNat / 2 ^ (8 * (b % 4)))

/-! ### Inputs (R136–R138) -/

/-- The entry's gain: codes 5 to 7 act as 0 (R165), and internal inputs convert at gain 1 (R138). -/
def convGain (e : Word) : Rat :=
  let g := e.toNat / 16 % 8
  if 8 ≤ e.toNat % 16 ∨ 4 < g then 1 else 2 ^ g

/-- The voltage that the entry's input selects (R136): reserved codes convert as 12, which is ground. -/
def convVolt (e : Word) (x : ConvIn) : Rat :=
  match e.toNat % 16 with
  | 0 => x.a
  | 1 => x.b
  | 8 => 1024 / 1000
  | 10 => x.vdda / 4
  | 11 => x.vgt / 2
  | _ => 0

/-- What a conversion gives before rounding, in codes (R137): 64 T for the die temperature (R138). -/
def convSignal (s : State) (d : Nat) (e : Word) (x : ConvIn) : Rat :=
  if e.toNat % 16 = 9 then 64 * x.temp else voltQ (32768 * convVolt e x * convGain e) (vref s d x.ext x.vdda)

/-- The calibrated code of R153, from offset-binary bit decisions. -/
def convCode (s : State) (c : Nat) (bits : Nat) : Int :=
  let y := bitSum bits (convW s c) - 32768 - (sext 16 (s.f (F.CONV_C_CAL_OFS_ofs c)) : Rat) / 16
  clampInt (-32768) 32767 (roundHalfEven (y * (1 + (sext 18 (s.f (F.CONV_C_CAL_GAIN_g c)) : Rat) / 2 ^ 22)))

/-- The factor words of a converter: offset, gain, weights. -/
def factorRegs (c : Nat) : List Nat :=
  [R.CONV_C_CAL_OFS c, R.CONV_C_CAL_GAIN c, R.CONV_C_CAL_W c 0, R.CONV_C_CAL_W c 1, R.CONV_C_CAL_W c 2, R.CONV_C_CAL_W c 3]

/-- The factors in force are the converter's own: those that it measured last, or restored ones of a converter that has measured
none (R153, R154).  DESIGN CHOICE, log entry 82. -/
def convOwn (s : State) (c : Nat) : Bool :=
  match (convSt s c).meas with
  | some ws => ws = (factorRegs c).map s.rd
  | none => s.on (bitFld (R.CONV_CAL_STAT (convDie c)) (convBit c))

/-- The calibrated code of a conversion: with the converter's own factors it is that of R137; with others, from the
bit decisions of R153, which the spec does not state.  DESIGN CHOICE, log entry 82. -/
def convResult (s : State) (c : Nat) (e : Word) (x : ConvIn) : Int :=
  let y := convSignal s (convDie c) e x
  if convOwn s c then clampInt (-32768) 32767 (roundHalfEven y)
  else convCode s c (Config.freeBits c y).toNat

/-! ### Sequences (R139–R142) -/

/-- A reserved input or gain code (R136, R165). -/
def badEntry (e : Word) : Bool :=
  let i := e.toNat % 16
  (2 ≤ i ∧ i ≤ 7) ∨ 13 ≤ i ∨ 5 ≤ e.toNat / 16 % 8

/-- The acquisition of entry `q` starts, with the entry word as it stands (R149). -/
def convAcquire (c q : Nat) : Act := fun s =>
  seq [setF (F.CONV_C_STAT_seq_pos c) q, convA c fun v => { v with ent := s.rd (R.CONV_C_ENT c q), fell := false }] s

/-- A sequence starts at entry 0, with `last` as it stands (R149). -/
def convStart (c : Nat) : Act := fun s =>
  seq [setB (F.CONV_C_STAT_busy c), convA c (fun v => { v with last := s.f (F.CONV_C_CTL_last c) }), convAcquire c 0] s

/-- A trigger that the converter loses (R141). -/
def trigLost (c : Nat) : Act := seq [setB (F.CONV_C_EVENT_trig_lost c), bump (R.CONV_C_LOST_CNT c)]

/-- A trigger at converter `c` (R140, R141, R155): while a sequence runs, or while it calibrates, it is lost; in a loop it is
ignored without count. -/
def convTrigger (c : Nat) : Act := fun s =>
  if !convOn s (convDie c) ∨ s.mode = DORMANT then []
  else if s.on (F.CONV_C_STAT_cal c) then trigLost c s
  else if !s.on (F.CONV_C_CTL_en c) then []
  else if !s.on (F.CONV_C_STAT_busy c) then convStart c s
  else if s.on (F.CONV_C_TRIG_repeat c) then []
  else trigLost c s

/-- CONV_ROUTED_TRIGGER (R140): a trigger on its way arrives; it is ignored without count in CONFIGURE and SERVICE. -/
def convRouted (c : Nat) : Act := whenA (fun s => (convSt s c).trigs ≠ 0) fun s => seq [
  convA c fun v => { v with trigs := v.trigs - 1 },
  only (s.f (F.CONV_C_TRIG_kind c) ≠ 0 ∧ s.mode ≠ CONFIGURE ∧ s.mode ≠ SERVICE) (convTrigger c)] s

/-- The converter stops (R161): the next start begins at entry 0, from an empty history. -/
def convStop (c : Nat) : Act :=
  seq [clrB (F.CONV_C_STAT_busy c), setF (F.CONV_C_STAT_seq_pos c) 0, convA c fun v => { v with hist := [], stop := false }]

/-- The converter is to stop (R161): an idle one does at once, one that converts with the conversion in progress, whatever is
enabled again meanwhile. -/
def convHalt (c : Nat) : Act := cond (fun s => s.on (F.CONV_C_STAT_busy c)) (convA c fun v => { v with stop := true }) (convStop c)

/-- CONVERSION_END (R143–R148). -/
def conversionEnd (c : Nat) (x : ConvIn) (full : Bool) : Act := fun s =>
  if !s.on (F.CONV_C_STAT_busy c) then []
  else
    let d := convDie c
    let v := convSt s c
    let q := s.f (F.CONV_C_STAT_seq_pos c)
    let code := convResult s c v.ent x
    let hist := (code :: v.hist.get [] q).take 10
    let y := scaled hist 32768 (s.f (F.CONV_C_ENT_DLY_dly c q)) (s.f (F.CONV_C_ENT_TRIM_trim c q))
      (s.pu (R.CONV_C_ENT_SCALE c q)) (s.pu (R.CONV_C_ENT_OFS c q))
    let val := narrow36 y
    let ovf := over36 y
    let clip := decide (code = -32768) || decide (code = 32767)
    let uncal := !(s.f (F.CONV_CAL_STAT_done d) / 2 ^ convBit c % 2 = 1)
    let uns := !s.on (F.CONV_REF_STAT_ref_ok d) || v.fell
    let sup := s.on (F.CONV_REF_STAT_ref_is_supply d)
    let ts := BitVec.ofInt 64 (s.now.toNat + dieSkew s d - 20) &&& ~~~ 1#64
    let raw := BitVec.ofNat 32 (b2n uncal * 2 ^ 24 + b2n ovf * 2 ^ 23 + b2n sup * 2 ^ 22 + b2n clip * 2 ^ 21
      + b2n uns * 2 ^ 20 + q * 2 ^ 16) ||| BitVec.ofInt 32 (code % 65536)
    let lastQ := decide (v.last ≤ q)
    seq [
      setPu (R.CONV_C_RES_VAL c q) val, setW (R.CONV_C_RES_RAW c q) raw, set64 (R.CONV_C_RES_TS c q) ts,
      convA c (fun v => { v with hist := v.hist.put [] q hist }),
      only uncal (setB (F.CONV_C_EVENT_uncal c)), only (badEntry v.ent) (setB (F.CONV_C_EVENT_bad_entry c)),
      only ovf (setB (F.CONV_C_EVENT_ovf c)), only clip (setB (F.CONV_C_EVENT_clip c)),
      only uns (setB (F.CONV_C_EVENT_unsettled c)),
      deliverAll full c q ⟨0, ts, val, uncal || uns || clip || ovf || sup, s.on F.CLK_SLIDE_STAT_coast⟩ code,
      only full (seq [setB (F.CONV_C_EVENT_overrun c), bump (R.CONV_C_OVR_CNT c)]),
      -- R161: a stopped converter sends no sequence-end strobe
      if v.stop then convStop c
      else if lastQ then seq [setB (F.CONV_C_EVENT_seq_end c), fire (.seqEnd c) ts,
        if s.on (F.CONV_C_TRIG_repeat c) then convStart c
        else seq [clrB (F.CONV_C_STAT_busy c), setF (F.CONV_C_STAT_seq_pos c) 0]]
      else convAcquire c (q + 1)] s

/-! ### Calibration (R153–R155) -/

/-- The converters of die `d` that calibrate. -/
def calMasked (s : State) (d : Nat) : List Nat := (List.range 8).map (8 * d + ·) |>.filter fun c => s.on (F.CONV_C_STAT_cal c)

/-- Writes the factor words of a converter. -/
def factorsPut (c : Nat) (ws : List Word) : Act := forEach ((factorRegs c).zip ws) fun p => setW p.1 p.2

/-- A calibration of die `d` ends with code 6 or 7 (R155): every masked converter gets its factors back, `done` stays 0. -/
def calAbandon (d code : Nat) : Act := fun s =>
  if !s.on (F.CONV_CAL_STAT_busy d) then []
  else seq [forEach (calMasked s d) fun c => seq [factorsPut c (convSt s c).saved, clrB (F.CONV_C_STAT_cal c)],
    clrB (F.CONV_CAL_STAT_busy d), setF (F.CONV_CAL_STAT_result d) code,
    setB (F.CONV_EVENT_cal_end d), setB (F.CONV_EVENT_cal_fail d)] s

/-- A measured factor set lies within the ranges of R155. -/
def calInRange (m : CalMeas) : Bool :=
  decide (-32768 ≤ m.ofs) && decide (m.ofs ≤ 32767) && decide (-131072 ≤ m.gain) && decide (m.gain ≤ 131071)
    && m.w.all fun x => decide (-128 ≤ x) && decide (x ≤ 127)

/-- The factor words that a measurement gives. -/
def calWords (m : CalMeas) : List Word :=
  let w := fun i => BitVec.ofNat 32 ((List.range 4).foldl (fun a j => a + ((m.w.getD (4 * i + j) 0) % 256).toNat * 2 ^ (8 * j)) 0)
  [BitVec.ofNat 32 (m.ofs % 65536).toNat, BitVec.ofNat 32 (m.gain % 262144).toNat, w 0, w 1, w 2, w 3]

/-- CONV_CAL_COMPLETE (R155). -/
def calComplete (d : Nat) (meas : List CalMeas) : Act := fun s =>
  if !s.on (F.CONV_CAL_STAT_busy d) then []
  else if meas.all calInRange then
    seq [forEach ((calMasked s d).zip meas) fun p => seq [factorsPut p.1 (calWords p.2), convA p.1 fun v => { v with meas := some (calWords p.2) }],
      forEach (calMasked s d) fun c => seq [clrB (F.CONV_C_STAT_cal c),
        setB (bitFld (R.CONV_CAL_STAT d) (convBit c))],
      clrB (F.CONV_CAL_STAT_busy d), setF (F.CONV_CAL_STAT_result d) 0, setB (F.CONV_EVENT_cal_end d)] s
  else calAbandon d 7 s

/-- Converter `c` is idle (R151). -/
def convIdle (s : State) (c : Nat) : Bool := !s.on (F.CONV_C_CTL_en c) ∧ !s.on (F.CONV_C_STAT_busy c)

/-- The converters of die `d` that a mask names. -/
def maskConvs (d mask : Nat) : List Nat := (List.range 8).filter (fun i => mask / 2 ^ i % 2 = 1) |>.map (8 * d + ·)

/-- The first code of R163, 1 to 5, that refuses a calibration command (R154). -/
def calCheck (d : Nat) (v : Word) (s : State) : Nat :=
  let mask := v.toNat % 256
  let op := v.toNat / 256 % 4
  if s.mode ≠ CONFIGURE ∧ s.mode ≠ STANDBY then 1
  else if (maskConvs d mask).any fun c => !convIdle s c then 2
  else if !s.on (F.CONV_REF_STAT_ref_ok d) then 3
  else if s.on (F.CONV_CAL_STAT_busy d) then 4
  else if mask = 0 ∨ op = 0 ∨ op = 3 then 5
  else 0

/-- A calibration command of die `d` with its check: `go` where it is accepted. -/
def calCmd (d : Nat) (v : Word) (go : Act) : Act := fun s =>
  let c := calCheck d v s
  seq [setF (F.CONV_CAL_STAT_result d) c,
    only (c = 0) (seq [setF (F.CONV_CAL_STAT_cal_ref d) (s.f (F.CONV_REF_CFG_sel d)), go])] s

/-- CONV_CAL_MEASURE (R154): the masked converters' `done` bits clear and they calibrate. -/
def calMeasure (d : Nat) (v : Word) : Act := calCmd d v fun s =>
  seq [setB (F.CONV_CAL_STAT_busy d),
    forEach (maskConvs d (v.toNat % 256)) fun c => seq [
      clrB (bitFld (R.CONV_CAL_STAT d) (convBit c)), setB (F.CONV_C_STAT_cal c),
      convA c fun x => { x with saved := (factorRegs c).map s.rd, hist := [] }]] s

/-- CONV_CAL_RESTORE (R154): sets `done` from the factors written. -/
def calRestore (d : Nat) (v : Word) : Act := calCmd d v
  (forEach (maskConvs d (v.toNat % 256)) fun c => setB (bitFld (R.CONV_CAL_STAT d) (convBit c)))

/-- CONV_CAL_INVALID (R163): no op to run. -/
def calInvalid (d : Nat) (v : Word) : Act :=
  only (v.toNat % 256 = 0 ∨ v.toNat / 256 % 4 = 0 ∨ v.toNat / 256 % 4 = 3) (calCmd d v nop)

/-- A write of a factor register (R165, R153): taken while the converter is idle; it clears `done`. -/
def factorWrite (p : Port) (c off : Nat) (v mask : Word) : Act := fun s =>
  if convIdle s c then
    seq [setW off (v &&& mask), clrB (bitFld (R.CONV_CAL_STAT (convDie c)) (convBit c))] s
  else accErr p errRefused off s

/-! ### References (R150–R152) -/

/-- The first code of R163 that refuses a reference write (R151). -/
def refCheck (d : Nat) (v : Word) (s : State) : Nat :=
  if s.mode ≠ CONFIGURE then 1
  else if (maskConvs d 255).any fun c => !convIdle s c then 2
  else if s.on (F.CONV_CAL_STAT_busy d) then 4
  else if v.toNat % 4 = 3 then 5
  else 0

/-- The reference of die `d` has settled: `ref_ok` rises. -/
def refRise (d : Nat) : Act :=
  seq [setB (F.CONV_REF_STAT_ref_ok d), clrB (F.CONV_REF_STAT_settling d), clrB (F.CONV_REF_STAT_fault d),
    setB (F.CONV_EVENT_ref_ok d)]

/-- `ref_ok` of die `d` falls; a conversion in progress is marked (R162). -/
def refFall (d : Nat) : Act :=
  seq [clrB (F.CONV_REF_STAT_ref_ok d), forEach (maskConvs d 255) fun c => convA c fun v => { v with fell := true }]

/-- CONV_REF_CFG_WRITE (R151): the supply reference settles at once (R150). -/
def refWrite (d : Nat) (v : Word) : Act := fun s =>
  let c := refCheck d v s
  if c ≠ 0 then setF (F.CONV_REF_STAT_result d) c s
  else
    let supply := decide (v.toNat % 4 = 2)
    seq [setF (F.CONV_REF_STAT_result d) 0, setF (F.CONV_REF_CFG_sel d) v.toNat, refFall d,
      setF (F.CONV_CAL_STAT_done d) 0, setF (F.CONV_REF_STAT_ref_is_supply d) (b2n supply),
      clrB (F.CONV_REF_STAT_fault d), setB (F.CONV_REF_STAT_settling d), only supply (refRise d)] s

/-- REF_SETTLED (R150, R152). -/
def refSettled (d : Nat) : Act := whenA (fun s => !s.on (F.CONV_REF_STAT_ref_ok d)) (refRise d)

/-- REF_FAULT (R152, R155): the monitor does not act on the supply reference. -/
def refFault (d : Nat) : Act := whenA (fun s => s.on (F.CONV_REF_STAT_ref_ok d) ∧ s.f (F.CONV_REF_CFG_sel d) ≠ 2)
  (seq [refFall d, setB (F.CONV_REF_STAT_fault d), setB (F.CONV_EVENT_ref_fault d), calAbandon d 7])

/-! ### Control writes and islands (R161) -/

/-- A write of `CONV_C[c]_CTL` (R140, R161, R155, R162). -/
def convCtl (c : Nat) (v : Word) : Act := fun s =>
  let en := v.toNat % 2
  seq [setF (F.CONV_C_CTL_last c) (v.toNat / 256), setF (F.CONV_C_CTL_en c) en,
    only (s.on (F.CONV_C_STAT_cal c) ∧ en = 1) (calAbandon (convDie c) 6),
    only (en = 0) (convHalt c),
    only (v.getLsbD 1) (convTrigger c)] s

/-- The CONV island of die `d` has stopped (R161): what was in flight is finished. -/
def convIslandStopped (d : Nat) : Act :=
  seq [forEach (maskConvs d 255) convStop,
    forEach ((List.range 6).map (6 * d + ·)) fun f => seq [clrB (F.CONV_F_STAT_running f), fineA f fun x => { lost := x.lost }]]

/-! ### Fine channels (R156–R159) -/

/-- The code of R157 before its clamp. -/
def fineCode (s : State) (f : Nat) (vd ext vdda : Rat) : Int :=
  roundHalfEven (voltQ (2 ^ 23 * vd * 2 ^ s.f (F.CONV_F_CTL_gain f)) (vref s (f / 6) ext vdda / 4))

/-- Index of the sample that ends now: bits 31:20 of the Slide angle, by the die's copy of the counter (R158, R84); where the Slide
has stopped, the interval in progress ends at the next index (R159). -/
def fineIx (s : State) (f : Nat) : Nat := (slideCopy s (f / 6) s.now / 256 + b2n (!slideRuns s)) % 4096

/-- A decimation interval ends in the tick that ends now (R156): 64 modulator clocks, 256 Slide clocks, by the die's copy. -/
def fineEnds (s : State) (f : Nat) : Bool :=
  let x := fun t => ((slideAt s t).floor + (if f / 6 = 0 then s.hid.clk.copyN else s.hid.clk.copyS)) / 256
  x (s.now - 1#64) < x s.now

/-- Results of a Fine channel sent to a disabled METER are counted at the channel, up to the largest count of R21 (R34). -/
def fineLost (f : Nat) (n : Nat) : Act := fineA f fun x => { x with lost := min (2 ^ 31 - 1) (x.lost + n) }

/-- One delivered output sample of Fine channel `f` (R157, R158). -/
def fineDeliver (f : Nat) (code0 : Int) : Act := fun s =>
  let d := f / 6
  let lim : Int := 2 ^ 23
  let cl := clampInt (-lim) (lim - 1) code0
  let clip := decide (cl = -lim) || decide (cl = lim - 1)
  let code := cl - sext 16 (s.f (F.CONV_F_ZERO_codes f))
  let hist := (code :: (s.hid.fine.get {} f).hist).take 10
  let y := scaled hist (2 ^ 23) (s.f (F.CONV_F_DLY_dly f)) (s.f (F.CONV_F_TRIM_trim f)) (s.pu (R.CONV_F_SCALE f))
    (s.pu (R.CONV_F_OFS f))
  let ovf := over36 y
  let uns := !s.on (F.CONV_REF_STAT_ref_ok d)
  let coast := s.on F.CLK_SLIDE_STAT_coast
  let ts := BitVec.ofInt 64 (s.now.toNat + dieSkew s d)
  let sup := s.on (F.CONV_REF_STAT_ref_is_supply d)
  let raw := BitVec.ofNat 32 (b2n coast * 2 ^ 28 + b2n ovf * 2 ^ 27 + b2n sup * 2 ^ 26
    + b2n clip * 2 ^ 25 + b2n uns * 2 ^ 24) ||| BitVec.ofNat 32 (code % 2 ^ 24).toNat
  seq [setPu (R.CONV_F_VAL f) (narrow36 y), setW (R.CONV_F_RAW f) raw,
    setW (R.CONV_F_IDX f) (BitVec.ofNat 32 (fineIx s f)), set64 (R.CONV_F_TS f) ts,
    only (s.on (F.SYS_SEAM_STAT_up d)) (cond (fun s => s.island 10)
      (metDeliver true f ⟨fineIx s f, ts, narrow36 y, uns || clip || ovf || sup, coast⟩) (fineLost f (fineRoutes s f))),
    fineA f (fun x => { x with hist := hist }),
    only coast (setB (F.CONV_F_EVENT_coast f)), only uns (setB (F.CONV_F_EVENT_unsettled f)),
    only ovf (setB (F.CONV_F_EVENT_ovf f)), only clip (setB (F.CONV_F_EVENT_clip f))] s

/-- Fine channel `f` may run (R159, R161). -/
def fineMay (s : State) (f : Nat) : Bool :=
  convOn s (f / 6) ∧ s.on (F.CONV_F_CTL_en f) ∧ s.mode ≠ DORMANT ∧ slideRuns s

/-- A channel that has started counts its first output sample. -/
def fineBegin (f : Nat) (drop : Nat) : Act :=
  seq [setB (F.CONV_F_STAT_running f), clrB (F.CONV_F_STAT_no_clock f), fineA f fun x => { drop := drop, lost := x.lost }]

/-- FINE_SAMPLE (R157–R159, R161): an output sample ends, or the last one of a channel that stops finishes; the first four
samples after a start are discarded. -/
def fineSample (f : Nat) (vd ext vdda : Rat) : Act := fun s =>
  let x := fineSt s f
  if !s.on (F.CONV_F_STAT_running f) then
    (if fineMay s f ∧ fineEnds s f then fineBegin f 3 s else [])
  else if (!x.stop ∨ slideRuns s) ∧ !fineEnds s f then []
  else seq [
    if x.drop = 0 then fineDeliver f (fineCode s f vd ext vdda) else fineA f (fun x => { x with drop := x.drop - 1 }),
    only x.stop (seq [clrB (F.CONV_F_STAT_running f), fineA f (fun x => { lost := x.lost }),
      only x.noClk (seq [setB (F.CONV_F_STAT_no_clock f), setB (F.CONV_F_EVENT_no_clock f)])])] s

/-- A running Fine channel is to stop with its output sample in progress (R159, R161), be it its first; `clk`: for want of the Slide. -/
def fineHalt (f : Nat) (clk : Bool) : Act := seq [
  whenA (fun s => !s.on (F.CONV_F_STAT_running f) ∧ fineMay s f) (fineBegin f 4),
  whenA (fun s => s.on (F.CONV_F_STAT_running f)) (fineA f fun x => { x with stop := true, noClk := x.noClk || clk })]

/-- `CONV_F[f]_STAT` as a read finds it: a channel that may run has started (R159). -/
def fineStatWord (s : State) (f : Nat) : Word :=
  (if fineMay s f ∧ !s.on (F.CONV_F_STAT_running f) then 1#32 else s.rd (R.CONV_F_STAT f))
    ||| BitVec.ofNat 32 (4 * s.f F.CLK_SLIDE_STAT_coast)

/-- A write of `CONV_F[f]_CTL` (R159, R161). -/
def fineCtl (f : Nat) (v : Word) : Act := seq [only (!v.getLsbD 0) (fineHalt f false),
  setF (F.CONV_F_CTL_gain f) (v.toNat / 16), setF (F.CONV_F_CTL_en f) v.toNat]

/-- CONV of die `d` is disabled (R155, R161): calibrations end, converters and Fine channels stop with what is in flight. -/
def convLeave (d : Nat) : Act := seq [calAbandon d 6, forEach (maskConvs d 255) convHalt,
  forEach ((List.range 6).map (6 * d + ·)) fun f => fineHalt f false]

end Sys2Proof.Machine
end

