-- ==== Sys2Proof/Machine/Recorder.lean ====
section
/-!
DEFINITION. The recorder (spec/18, R448–R454).
-/

namespace Sys2Proof.Machine

def recorderA (g : RecorderSt → RecorderSt) : Act := hidA fun h => { h with recorder := g h.recorder }

/-- What must hold beside `en` for the recorder to run (R453); it has stopped for a FULL to LEAN in progress (R59). -/
def recAble (s : State) : Bool := memReady s ∧ s.up ∧ s.island 12 ∧ s.hid.pwr.trans ≠ .fullToLean

/-- Samples of this kind come over a seam link (R448). -/
def recAcross (kind : Nat) : Bool := kind = 0 ∨ kind = 3 ∨ 4 ≤ kind

def recRunning (s : State) : Bool := s.on F.REC_STAT_running

/-- Base and size of a region in bytes. -/
def regionBase (s : State) (r : Nat) : Nat := (s.rd64 (R.REC_REG_BASE r)).toNat
def regionSize (s : State) (r : Nat) : Nat := (s.rd64 (R.REC_REG_SIZE r)).toNat

/-- The lowest armed region (R451). -/
def armedRegion (s : State) : Option Nat := (List.range 8).find? fun r => s.f (F.REC_REG_STAT_state r) = 1

/-! ### Records (R450) -/

def sampleRec (slot ofs v : Nat) : BitVec 64 := BitVec.ofNat 64 (2 ^ 62 + slot % 64 * 2 ^ 56 + ofs % 2 ^ 20 * 2 ^ 36 + v % 2 ^ 36)
def timeRec (trig : Bool) (t : BitVec 64) : BitVec 64 := BitVec.ofNat 64 (2 ^ 63 + b2n trig * 2 ^ 61 + t.toNat % 2 ^ 61)
def gapRec (slot : Option Nat) (n : Nat) : BitVec 64 :=
  BitVec.ofNat 64 (3 * 2 ^ 62 + min n (2 ^ 32 - 1) + match slot with | some i => i % 64 * 2 ^ 56 | none => 2 ^ 55)

/-- The burst being filled is written, and capture moves on within the region (R450, R451).  A region of size 0, or the part of
one beyond the memory, takes nothing. -/
def burstWrite (rs : List (BitVec 64)) : Act := fun s =>
  let r := s.f F.REC_STAT_region
  let size := regionSize s r
  seq [only (size ≠ 0) (lpWrite (regionBase s r + s.hid.recorder.pos) ((rs.map fun x => leBytes 8 x.toNat).flatten)),
    recorderA fun c => { c with burst := [], pos := if c.pos + 64 < size then c.pos + 64 else 0 }] s

/-- Pads and writes the burst in progress (R453). -/
def burstPad : Act := fun s =>
  let b := s.hid.recorder.burst
  only (b ≠ []) (burstWrite (b ++ List.replicate (8 - b.length) 0#64)) s

/-- One record is captured; after a trigger it counts (R451). -/
def recWrite (x : BitVec 64) : Act := fun s =>
  let b := s.hid.recorder.burst ++ [x]
  seq [recorderA fun c => { c with burst := b, post := c.post.map (· - 1) }, only (8 ≤ b.length) (burstWrite b)] s

/-- A time record. -/
def timeWrite (trig : Bool) (t : BitVec 64) : Act := seq [recWrite (timeRec trig t), recorderA fun c => { c with time := some t }]

/-! ### Regions (R451) -/

/-- Capture begins, or moves on, in the lowest armed region, where it was left; with none it stops.  DEDUCED, log entry 90. -/
def regionTake : Act := fun s =>
  let old := s.f F.REC_STAT_region
  match armedRegion s with
  | some r => seq [setF F.REC_STAT_region r, setB F.REC_STAT_running,
      only (r ≠ old) (recorderA fun c =>
        let x := c.kept.get (0, none) r
        { c with pos := x.1, post := x.2, kept := (c.kept.put (0, none) r (0, none)).put (0, none) old (c.pos, c.post) }),
      timeWrite false s.now] s
  | none => seq [clrB F.REC_STAT_running, setB F.REC_EVENT_no_region] s

/-- The post-trigger count of the region in use has completed. -/
def postDone (s : State) : Bool := s.hid.recorder.post = some 0

/-- REC_REGION_FULL (R451): the burst in progress is padded, the region is full. -/
def regionFull : Act := whenA (fun s => recRunning s ∧ postDone s) fun s =>
  seq [burstPad, setF (F.REC_REG_STAT_state (s.f F.REC_STAT_region)) 2, setB F.REC_EVENT_full,
    recorderA fun c => { c with pos := 0, post := none }, regionTake] s

/-- The recorder starts, where `en` is 1 and it may (R453); each slot's rate counts from its first sample. -/
def recStart : Act := whenA (fun s => s.on F.REC_CTL_en ∧ recAble s ∧ !recRunning s)
  (seq [recorderA fun c => { c with trigs := 0, last := [] }, regionTake])

/-- The recorder stops: it pads and writes the burst in progress, and keeps the region states (R453). -/
def recStop : Act := whenA recRunning (seq [burstPad, clrB F.REC_STAT_running])

/-- REC_EN_WRITE (R453). -/
def recEn (v : Word) : Act := fun s =>
  if v.toNat % 2 = 0 then seq [setF F.REC_STAT_result 0, clrB F.REC_CTL_en, recStop] s
  else if !recAble s then setF F.REC_STAT_result 1 s
  else seq [setF F.REC_STAT_result 0, setB F.REC_CTL_en, recStart] s

/-- REC_ARM (R451, R454): an arm write to the region in use is ignored; a lower region that is armed becomes the region in use.
DEDUCED, log entry 90. -/
def regionArm (r : Nat) (v : Word) : Act := only (v.getLsbD 4) fun s =>
  if (recRunning s ∧ s.f F.REC_STAT_region = r) ∨ s.f (F.REC_REG_STAT_state r) = 1 then []
  else seq [setF (F.REC_REG_STAT_state r) 1,
    only (s.f F.REC_STAT_region = r) (recorderA fun c => { c with pos := 0, post := none }),
    only (recRunning s ∧ r < s.f F.REC_STAT_region) (seq [burstPad, regionTake]), recStart] s

/-- REC_TRIGGER (R451, R454): of the triggers that wait, those of one cycle are taken; the selected ones are one trigger, and
each of them counts. -/
def recTrig (m : Nat) : Act := whenA recRunning fun s =>
  let now := m &&& s.hid.recorder.trigs
  let hit := now &&& s.f F.REC_TRIG_MASK_mask
  if hit = 0 then recorderA (fun c => { c with trigs := maskSub c.trigs now }) s
  else seq [recorderA fun c => { c with trigs := maskSub c.trigs now }, whenA postDone regionFull, whenA recRunning fun t =>
    if t.hid.recorder.post.isSome then bump R.REC_TRIG_LOST t
    else seq [
      set64 (R.REC_REG_TRIG_PTR (t.f F.REC_STAT_region))
        (BitVec.ofNat 64 (regionBase t (t.f F.REC_STAT_region) + t.hid.recorder.pos + 8 * t.hid.recorder.burst.length)),
      timeWrite true t.now,
      recorderA fun c => { c with post := some (t.rd R.REC_POST).toNat },
      forEach (bitsOf 7 hit) (fun _ => bump R.REC_TRIG_CNT), setB F.REC_EVENT_trig] t] s

/-! ### Sampling (R448, R449) -/

/-- A record is captured; a region whose post-trigger count has completed is full first. -/
def capture (a : Act) : Act := seq [whenA postDone regionFull, whenA recRunning a]

/-- Slot `n`'s next sample is due (R448).  DEDUCED, log entry 90. -/
def sampleDue (s : State) (n : Nat) : Bool :=
  match s.hid.recorder.last.get none n with
  | some t => decide (400 * (s.f (F.REC_SLOT_CFG_d n) + 1) ≤ (s.now - t).toNat)
  | none => true

/-- The drop covers every slot in use (R450). -/
def allDropped (s : State) : Bool :=
  ((List.range 64).filter fun n => s.on (F.REC_SLOT_CFG_used n)).all fun n => decide (s.hid.recorder.drops.get 0 n ≠ 0)

/-- REC_GAP_MARKER (R449, R450): the count of the samples dropped, then a time record; of every slot only where the drop covers
every slot. -/
def gapMark (slot : Option Nat) : Act := whenA recRunning fun s =>
  let d := s.hid.recorder.drops
  let n : Nat := match slot with
    | some i => d.get 0 i
    | none => if allDropped s then (d.map (·.2)).foldl (· + ·) 0 else 0
  if n = 0 then []
  else seq [capture (recWrite (gapRec slot n)), capture (withS fun t => timeWrite false t.now),
    recorderA fun c => { c with drops := match slot with | some i => c.drops.put 0 i 0 | none => [] }] s

/-- The seam tap that slot `n`'s samples pass: 0 North, 1 South, 2 none. -/
def recPath (s : State) (n : Nat) : Nat :=
  let i := s.f (F.REC_SLOT_CFG_index n)
  match s.f (F.REC_SLOT_CFG_kind n) with
  | 0 => if i < 0x100 then i / 128 else (i - 0x100) / 6
  | 1 | 2 => 2
  | 3 => i / 16
  | _ => i % 0x100 / 24

/-- Space has returned for slot `n`, in the capture FIFO and in its tap: the drops of the slots that need no other tap are marked
before its sample (R449).  DEDUCED, log entry 90. -/
def gapFirst (n : Nat) : Act := fun s =>
  if allDropped s then gapMark none s
  else forEach ((List.range 64).filter fun i => recPath s i = 2 ∨ recPath s i = recPath s n) (fun i => gapMark (some i)) s

/-- The newest value that a source has published, 36 bits: of an input slot, that of the last completed step (R250). -/
def recValue (s : State) (kind i : Nat) : Nat :=
  match kind with
  | 0 => (s.rd64 (if i < 0x100 then R.CONV_C_RES_VAL (i / 16) (i % 16) else R.CONV_F_VAL (i - 0x100))).toNat % 2 ^ 36
  | 1 =>
    let e := i / 256
    let x := i % 256
    if x < 192 then (s.rd64 (R.BORE_STG_Y e (x / 4) (x % 4))).toNat % 2 ^ 36
    else
      let o := R.BORE_IN e (x - 192)
      let t := (boreSt s e).last
      ((t.get 0#32 o).toNat + 2 ^ 32 * (t.get 0#32 (o + 4)).toNat) % 2 ^ 36
  | 2 =>
    let v := gridQty s.hid.grid.cur 0#32 0#32 i
    if isAngleQ i then (BitVec.ofInt 32 v).toNat else (BitVec.ofInt 36 v).toNat
  | 3 => s.f (F.WIN_M_STAT_hi i) + 2 * s.f (F.WIN_M_STAT_lo i)
  | _ => if i < 0x100 then (if gtPin s i = .high then 1 else 0) else (s.rd (R.GATE_CH_TELEM0 (i - 0x100))).toNat

/-- The sample of slot `n`, after a time record where its offset would exceed its field (R450). -/
def sampleTake (n : Nat) : Act := seq [
  capture (whenA (fun s => 2 ^ 20 ≤ (s.now - s.hid.recorder.time.getD 0#64).toNat) (withS fun s => timeWrite false s.now)),
  capture (withS fun u => recWrite (sampleRec n (u.now - u.hid.recorder.time.getD 0#64).toNat
    (recValue u (u.f (F.REC_SLOT_CFG_kind n)) (u.f (F.REC_SLOT_CFG_index n)))))]

/-- REC_SLOT_SAMPLE (R448, R449); from the start of a departure the seam links take the dump's traffic alone (R65). -/
def slotSample (n : Nat) (full : Bool) : Act := whenA (fun s => recRunning s ∧ s.on (F.REC_SLOT_CFG_used n) ∧ sampleDue s n ∧
    !(s.hid.pwr.dumpOnly && recAcross (s.f (F.REC_SLOT_CFG_kind n)))) (seq [
  fun s => recorderA (fun c => { c with last := c.last.put none n (some s.now) }) s,
  if full then seq [bump R.REC_DROP_CNT, setB F.REC_EVENT_drop,
    recorderA fun c => { c with drops := c.drops.put 0 n (c.drops.get 0 n + 1) }]
  else seq [gapFirst n, sampleTake n]])

/-! ### Readout (R452), and the memory's comings and goings -/

/-- A read of `REC_RD_DATA` (R452): the word, and whether it is an error. -/
def readoutWord (s : State) : Word × Bool :=
  let a := (s.rd64 R.REC_RD_ADDR).toNat
  if !memReady s ∨ memSize s ≤ a then (0#32, true)
  else (BitVec.ofNat 32 (leNat ((List.range 4).map fun i => s.lpByte (a + i))), false)

/-- What that read does: the address advances by 4; beyond the memory it is an error of kind 5, without a usable memory of
kind 4.  DEDUCED, log entry 90. -/
def readoutAct (p : Port) : Act := fun s =>
  let a := (s.rd64 R.REC_RD_ADDR).toNat
  seq [only (!memReady s) (accErr p 4 R.REC_RD_DATA), only (memReady s ∧ memSize s ≤ a) (accErr p 5 R.REC_RD_DATA),
    set64 R.REC_RD_ADDR (BitVec.ofNat 64 ((a + 4) % 2 ^ 33))] s

/-- LEAN to FULL (R446, R454): training, and the recorder where `en` is 1. -/
def memTrain (ok : Bool) (size : BitVec 2) : Act := seq [trainA ok size,
  whenA (fun s => s.on F.REC_CTL_en) (cond recAble recStart (setF F.REC_STAT_result 1))]

/-- FULL is left (R59): the recorder stops, then the contents are lost. -/
def memOff : Act := seq [recStop, trainOff]

end Sys2Proof.Machine
end

