-- ==== Sys2Proof/Machine/Summary.lean ====
section
/-!
DEFINITION. The interrupt summary of each block (R372, R441), and the levels in which it was last seen.
-/

namespace Sys2Proof.Machine

/-- A bit of event register `ev` is set whose bit of `ien` is 1. -/
def evOn (s : State) (ev ien : Nat) : Bool := s.rd ev &&& s.rd ien ≠ 0#32

/-- A bit of `m` is set in the word at `off`. -/
def anyOf (s : State) (off : Nat) (m : Word) : Bool := s.rd off &&& m ≠ 0#32

/-- The units of die `d`, `n` of them. -/
def dieUnits (d n : Nat) : List Nat := (List.range n).map (n * d + ·)

/-- Units of die `d` with an enabled event, as bits. -/
def convEvMask (s : State) (d : Nat) : Nat :=
  maskOf ((List.range 8).filter fun i => evOn s (R.CONV_C_EVENT (8 * d + i)) (R.CONV_C_IEN (8 * d + i)))
def fineEvMask (s : State) (d : Nat) : Nat :=
  maskOf ((List.range 6).filter fun i => evOn s (R.CONV_F_EVENT (6 * d + i)) (R.CONV_F_IEN (6 * d + i)))
def edgeEvMask (s : State) (d : Nat) : Nat :=
  maskOf ((List.range 24).filter fun i => evOn s (R.EDGE_CH_EVENT (24 * d + i)) (R.EDGE_CH_IEN (24 * d + i)))
def gateEvMask (s : State) (d : Nat) : Nat :=
  maskOf ((List.range 24).filter fun i => evOn s (R.GATE_CH_EVENT (24 * d + i)) (R.GATE_CH_IEN (24 * d + i)))

/-- The frozen bit of `EDGE_EVENT` (R208). -/
def edgeFrozen (s : State) : Bool := s.hid.edges.frozen.isSome

/-- The summary of source `i` (R372; `host`: sources 36 to 51 are the doorbells to the host, R441). -/
def irqSummary (s : State) (host : Bool) (i : Nat) : Bool :=
  if i = 0 then s.on F.SYS_PWR_STAT_done
  else if i = 1 then anyOf s R.SYS_MODE_EVENT 0x3F#32
  else if i = 2 then anyOf s R.CLK_EVENT 0x7FF#32
  else if i = 3 then anyOf s R.FING_EVENT 0x1F#32
  else if i = 4 then anyOf s R.HARV_EVENT 0x7F#32
  else if i = 5 then evOn s R.SYS_DRONE_EVENT R.SYS_DRONE_IEN
  else if i = 6 then evOn s R.PAIR_EVENT R.PAIR_IEN
  else if i = 7 then evOn s R.CHNT_EVENT R.CHNT_IEN
  else if i = 8 ∨ i = 9 then
    let d := i - 8
    anyOf s (R.CONV_EVENT d) 0xF#32 ∨ convEvMask s d ≠ 0 ∨ fineEvMask s d ≠ 0
  else if i = 10 ∨ i = 11 then
    let d := i - 10
    anyOf s (R.TRIP_EVENT d) 0xF#32 ∨ (dieUnits d 16).any fun m => evOn s (R.WIN_M_EVENT m) (R.WIN_M_IEN m)
  else if i = 12 ∨ i = 13 then
    let d := i - 12
    anyOf s (R.EDGE_EVENT d) 0x6000000#32 ∨ edgeFrozen s ∨ edgeEvMask s d ≠ 0
  else if i = 14 ∨ i = 15 then
    let d := i - 14
    anyOf s (R.GATE_EVENT d) 0x2000000#32 ∨ gateEvMask s d ≠ 0
  else if 16 ≤ i ∧ i < 24 then evOn s (R.BORE_EVENT (i - 16)) (R.BORE_IEN (i - 16))
  else if i = 24 then evOn s R.GRID_EVENT R.GRID_IEN
  else if i = 25 then evOn s R.MPPT_EVENT R.MPPT_IEN
  else if i = 26 then evOn s R.RIDE_EVENT R.RIDE_IEN
  else if i = 27 then evOn s R.PROBE_EVENT R.PROBE_IEN
  else if i = 28 ∨ i = 29 then evOn s (R.METER_PT_EVENT (i - 28)) (R.METER_PT_IEN (i - 28))
  else if 32 ≤ i ∧ i < 36 then
    evOn s (R.CAN_EVENT (i - 32)) (R.CAN_IEN (i - 32)) ∨
      (evOn s R.CAN_NT_EVENT R.CAN_NT_IEN ∧ s.f F.CAN_NT_CFG_ctrl = i - 32)
  else if 36 ≤ i ∧ i < 52 then (s.rd (if host then R.HOST_DB_F2H else R.HOST_DB_H2F)).getLsbD (i - 36)
  else if i = 52 then evOn s R.REC_EVENT R.REC_IEN
  else if i = 53 then evOn s R.BOOT_EVENT R.BOOT_IEN
  else if i = 54 then evOn s R.SEC_EVENT R.SEC_IEN
  else if 64 ≤ i ∧ i < 80 then bit s.hid.chnt.gpio (i - 64)
  else false

/-! ### Rising edges -/

/-- The place in `State.seen` of source `i`. -/
def seenIx (host : Bool) (i : Nat) : Nat := if host then i + 80 else i

/-- Source `i` rises: its summary is high, and was low when last seen.  DEDUCED, log entry 136. -/
def rises (host : Bool) (i : Nat) (s : State) : Bool := s.up && decide (i < 80) && irqSummary s host i && !bit s.seen (seenIx host i)

/-- It is seen high. -/
def riseSeen (host : Bool) (i : Nat) : Act := fun s => [.seen (putBit s.seen (seenIx host i) true)]

/-- The summary at place `n` of `State.seen`. -/
def summaryAt (s : State) (n : Nat) : Bool := irqSummary s (decide (80 ≤ n)) (n % 80)

/-- Summaries that have fallen are seen low. -/
def levelsFall : Act := fun s => if s.seen = 0 then [] else [.seen (maskOf ((bitsOf 160 s.seen).filter (summaryAt s)))]

end Sys2Proof.Machine
end

