-- ==== Sys2Proof/Machine/Trans.lean ====
section
/-!
DEFINITION. What the blocks do when the mode changes, when a seam link trains or is lost, and when islands are enabled or
disabled; and what a command's meaning answers.
-/

namespace Sys2Proof.Machine

def modeA (g : ModeSt → ModeSt) : Act := hidA fun h => { h with mode := g h.mode }

/-- The Core and South dies leave reset (R482), where device time starts at zero (R82), and CHNT reset is released (R364). -/
def coreRelease : Act := whenA (fun s => s.hid.pwr.held ∧ s.hid.pwr.trans = .toLean)
  (seq [pwrA (fun p => { p with held := false }), fun _ => [.now 0#64], chntRelease true])

def fingA (g : FingSt → FingSt) : Act := hidA fun h => { h with fing := g h.fing }

/-- The command that the loader runs is to be abandoned (R110); the first reason stands. -/
def fingQuit (why : FingAbort) : Act := whenA (fun s => s.on F.FING_STAT_busy)
  (fingA fun g => { g with quit := some (g.quit.getD why) })

/-- LPDDR4X becomes unavailable: a LOAD that reads from it is abandoned (R110). -/
def fingSourceOff : Act := whenA (fun s => s.f F.FING_STAT_loader = 1 ∧ !s.hid.fing.flash) (fingQuit .source)

/-! ### Changes of mode (R133) -/

/-- The Fingering on leaving CONFIGURE with force 3 (R107, R123): the registers lock where the SAFETY check passes; else the
parameter fault latches (R385) and the device ends in HALT with code 0x17, whoever asked for the transition. -/
def relock : Act := fun s =>
  if safetyCrcOk s then setF F.FING_STAT_force 2 s
  else seq [setF F.SYS_MODE_STAT_result 0x17, setB (bitFld R.SYS_HALT_CAUSE causeSafety), setB F.SYS_MODE_EVENT_halt,
    only (s.mode ≠ HALT) (seq [setF F.SYS_MODE_STAT_mode HALT, setF F.SYS_MODE_STAT_ride_origin 0,
      clrB F.SYS_MODE_STAT_ride_recovered, bump R.SYS_HALT_CNT]),
    whenA (fun s => droneOn s ∧ !s.on F.DRONE_FAULT_param) (droneLatch (setB F.DRONE_FAULT_param))] s

/-- The set published before a change of mode (R291). -/
def refSetWas (s : State) : Nat := if s.f F.GRID_STAT_ref_set = 3 then 1 else s.f F.GRID_STAT_ref_set

/-- The blocks follow a change of mode from `a` to `b`. -/
def modeFollow (a b : Nat) : Act := fun s => seq [
  only (¬ (rideActs a ∧ rideActs b)) (edgesA fun e => { e with gatePend := 0 }),
  only (!metAccum a ∧ metAccum b) (forEach [0, 1] metRestart),
  only (a = CONFIGURE) (fingQuit .left),
  only (a ≠ CONFIGURE ∧ b = CONFIGURE ∧ s.force = 2) (setF F.FING_STAT_force 3),
  only (b = DORMANT) (seq [calAbandon 0 6, calAbandon 1 6,
    forEach (List.range 16) convHalt, forEach (List.range 12) fun f => fineHalt f false]),
  only (steppingMode a ∧ !steppingMode b) (forEach (List.range 8) boreLeave),
  only (a = STANDBY ∧ (b = FOLLOW ∨ b = FORM)) (seq [
    forEach (List.range 8) (fun e => boreA e fun x => { x with entry := true }), mpptA fun m => { m with start := true }]),
  only (gridSteps a ∧ !gridSteps b) gridLeave,
  refSwitch (refSetWas s) b,
  recSend (2 + 4 * b2n (decide (b = HALT)) + 8 * b2n (decide (b = RIDE))),
  only (a = FOLLOW) (seq [sweepAbort, whenA (fun t => t.hid.mppt.due ∧ !t.on F.MPPT_STAT_sweep_due) sweepDefer]),
  only (b ≠ DORMANT ∧ b ≠ CONFIGURE) updAbandon] s

/-- What a change of mode from `a` brings, the check of R123 first. -/
def modeSwitch (a : Nat) : Act := fun s =>
  seq [only (a = CONFIGURE ∧ s.force = 3) relock, withS fun t => modeFollow a t.mode] s

/-- The mode becomes `m`; a point that stops accumulating stops first (R354), until it is enabled or the mode accumulates again
(R353).  DEDUCED, log entry 86. -/
def modeTo (m : Nat) : Act := seq [
  whenA (fun s => metAccum s.mode && !metAccum m) meterStopAll,
  changeMode m]

/-- What a meaning answers: the state after its action, with the blocks following a change of mode; none follows a reset of the
Core die.  Interrupt summaries that have fallen are seen low. -/
def finish (a : Act) (s : State) : Host.Outcome State Fault Refusal :=
  let t := a.run s
  if t.mode = s.mode ∨ !s.up ∨ !t.up then .next (levelsFall.run t)
  else .next ((seq [modeSwitch s.mode, pinStamp s (List.range 48), levelsFall]).run t)

/-! ### The seam (R29, R30) -/

/-- Islands that R122 row 6 requires: those of R111 for the structure in force, and CAN where the Whistle is declared. -/
def needIslands (s : State) : Nat := s.hid.fing.need ||| (if s.on F.FING_FEAT_whistle then 0x4000 else 0)

/-- A link trains (R30, R83): it is up, with its credits; its HALT cause is live no longer. -/
def seamTrain (d : Nat) (skew : Int) : Act := seq [
  setB (F.SYS_SEAM_STAT_up d), hidA (fun h => { h with seam := { lost := putBit h.seam.lost d false } }),
  clkA (fun c => if d = 0 then { c with skewN := skew, holdN := none } else { c with skewS := skew, holdS := none }),
  causeEnds (if d = 0 then causeSeamN else causeSeamS), forEach (List.range 8) (limitShow d), droneEval]

/-- SEAM_LINK_TRAINED: on entry to LEAN, and for a lost link on entry to CONFIGURE. -/
def seamTrained (d : Nat) (skew : Int) : Act := whenA (fun s => s.up ∧ !s.on (F.SYS_SEAM_STAT_up d) ∧
    (!s.on (bitFld R.SYS_HALT_LIVE (if d = 0 then causeSeamN else causeSeamS)) ∨ s.mode = CONFIGURE ∨
      (s.on F.SYS_MODE_STAT_busy ∧ s.hid.mode.target = CONFIGURE)))
  (seamTrain d (clampInt (-1) 1 skew))

/-- SEAM_LINK_LOST (R30, R81, R180, R398): the die's pins go low, the loss reaches the trip summary and the Drone, and HALT
follows. -/
def seamLost (d : Nat) : Act := whenA (fun s => s.up ∧ s.on (F.SYS_SEAM_STAT_up d)) (seq [
  clrB (F.SYS_SEAM_STAT_up d), setB (F.SYS_SEAM_STAT_lost d),
  hidA (fun h => { h with seam := { lost := putBit h.seam.lost d true } }),
  clrB (if d = 0 then F.CLK_BELL_STAT_n_valid else F.CLK_BELL_STAT_s_valid),
  packetsLost d, whenA (fun s => s.f F.FING_STAT_loader = 4) (fingQuit .link), tripLinkLost d, haltCause (if d = 0 then causeSeamN else causeSeamS), droneEval])

/-- SEAM_PACKET_CRC_ERROR (R29): the repeat is counted in 32 bits; `cnt_sat` is set by the repeat that finds the count at its
largest value.  DEDUCED, log entry 67. -/
def seamCrc (d : Nat) : Act := whenA (fun s => s.up ∧ s.on (F.SYS_SEAM_STAT_up d)) fun s =>
  let n := s.rd (R.SYS_SEAM_RETRY d)
  seq [setB (F.SYS_SEAM_STAT_crc_err d),
    if n = BitVec.allOnes 32 then setB (F.SYS_SEAM_STAT_cnt_sat d) else setW (R.SYS_SEAM_RETRY d) (n + 1#32)] s

/-! ### Islands (R34, R60, R61) -/

/-- Before an enable falls: a metering point closes its short cycle (R354). -/
def islandsLeave (m : Word) : Act := only (m.getLsbD 10) meterStopAll

/-- What disabling does at once; `m`: the bits of `SYS_ISLAND_EN` that fall. -/
def islandsDown (m : Word) : Act := seq [
  only (m.getLsbD 0) (seq [updDrop, chntStopped]),
  forEach ((List.range 8).filter fun e => m.getLsbD (1 + e)) boreLeave,
  only (m.getLsbD 9) gridLeave,
  only (m.getLsbD 12) recStop,
  forEach [0, 1] fun d => seq [
    only (m.getLsbD (17 + 5 * d)) (convLeave d),
    only (m.getLsbD (18 + 5 * d)) (forEach ((List.range 16).map (16 * d + ·)) monStop),
    only (m.getLsbD (19 + 5 * d)) (edgesStop ((List.range 24).map (24 * d + ·))),
    only (m.getLsbD (20 + 5 * d)) (forEach [2 * d, 2 * d + 1] ligEnd),
    only (m.getLsbD (21 + 5 * d)) (seq [setF (F.TRIP_GT_OFF_ch d) 0, setF (F.TRIP_GT_ON_ch d) 0,
      tripA d fun t => { t with cyc := [], wait := 0, fon := 0, held0 := false }])],
  whenA (fun s => (s.mode = STANDBY ∨ s.mode = FOLLOW ∨ s.mode = FORM ∨ s.mode = RIDE) ∧
      m.toNat &&& (needIslands s ||| 1) ≠ 0)
    (haltCause causeIslandOff),
  droneEval]

/-- What enabling does; `m`: the bits that rise. -/
def islandsUp (m : Word) : Act := seq [
  only (m.getLsbD 0) (chntRelease true),
  only (m.getLsbD 9) baseInvalid,
  only (m.getLsbD 10) (forEach [0, 1] metRestart),
  only (m.getLsbD 12) recStart,
  only (m.getLsbD 14) (seq [ntStart, forEach (List.range 4) fun k => whenA (fun s => s.on (F.CAN_CTL_en k)) (canStart k)]),
  forEach [0, 1] fun d => seq [
    only (m.getLsbD (19 + 5 * d))
      (forEach ((List.range 24).map (24 * d + ·)) fun n => whenA (fun s => s.on (F.EDGE_CH_CFG_en n)) (edgeStart n)),
    only (m.getLsbD (20 + 5 * d)) (forEach [2 * d, 2 * d + 1] fun k =>
      whenA (busOn · k) (ligA k fun b => { b with fvReq := true })),
    only (m.getLsbD (21 + 5 * d)) (tripResolve d false)],
  whenA (fun s => (s.rd R.SYS_ISLAND_EN).toNat &&& (needIslands s ||| 1) = needIslands s ||| 1) (causeEnds causeIslandOff),
  droneEval]

/-- The atomic units of the disabled islands have finished (R61, R22). -/
def islandsStopped : Act := fun s => seq [
  forEach ((List.range 8).filter fun e => !s.island (1 + e)) boreLeave,
  only (!s.island 9) gridLeave,
  only (!s.island 12) qspiCut,
  only (!s.island 14) (seq [canIslandStop, ntStop]),
  forEach [0, 1] fun d => seq [
    only (!s.island (17 + 5 * d)) (convIslandStopped d),
    only (!s.island (19 + 5 * d)) (forEach ((List.range 24).map (24 * d + ·)) fun n =>
      whenA (fun t => (edgeSt t n).run && t.hid.edges.frozen.isNone) (edgeIdle n)),
    only (!s.island (20 + 5 * d)) (forEach [2 * d, 2 * d + 1] ligStop)]] s

end Sys2Proof.Machine
end

