-- ==== Sys2Proof/Machine/Clock.lean ====
section
/-!
DEFINITION. The reference, the PLLs, device time and the Slide synthesiser (spec/03).
-/

namespace Sys2Proof.Machine

/-- The three PLLs that report to the Drone (R78), and the Slide's own status. -/
def pllGet (s : State) : Pll → PllSt
  | .sys => s.hid.clk.sys
  | .north => s.hid.clk.north
  | .south => s.hid.clk.south
  | .slide => { lock := s.on F.CLK_SLIDE_STAT_pll_lock, coast := s.on F.CLK_SLIDE_STAT_coast,
                band := s.f F.CLK_SLIDE_STAT_band }

/-- The status of a PLL changes; the system PLL and the Slide show it at once, a Bell PLL at its next refresh (R81). -/
def pllSet (l : Pll) (p : PllSt) : Act :=
  match l with
  | .sys => seq [clkA fun c => { c with sys := p },
      setF F.CLK_STAT_sys_lock (b2n p.lock), setF F.CLK_STAT_sys_coast (b2n p.coast), setF F.CLK_STAT_sys_band p.band]
  | .north => clkA fun c => { c with north := p }
  | .south => clkA fun c => { c with south := p }
  | .slide => seq [setF F.CLK_SLIDE_STAT_pll_lock (b2n p.lock), setF F.CLK_SLIDE_STAT_coast (b2n p.coast),
      setF F.CLK_SLIDE_STAT_band p.band]

/-- REF_LOST (R73). -/
def refLost : Act := whenA (fun s => s.on F.CLK_STAT_ref_ok) (seq [clrB F.CLK_STAT_ref_ok, setB F.CLK_EVENT_ref_lost])

/-- REF_BACK (R73). -/
def refBack : Act := whenA (fun s => !s.on F.CLK_STAT_ref_ok) (seq [setB F.CLK_STAT_ref_ok, setB F.CLK_EVENT_ref_back])

/-- A start from HARVEST has begun, or the device is in LEAN or FULL: the Bell PLLs are enabled with their dies (R57, R81). -/
def started (s : State) : Bool := s.hid.pwr.st = .lean ∨ s.hid.pwr.st = .full

/-- PLL_LOCK (R75, R88): the system PLL's search begins as the dies leave reset (R57), and so do those of the Bell PLLs, which may
lock first (R81); locked from cold, on a band that the spec does not state (DESIGN CHOICE, log entry 15).  The spec does
not say when `ref_ok` first reads 1 after an entry to LEAN: it does from the system PLL's first lock (DESIGN CHOICE, log entry
75).  The Slide locks at 1.0 pu, its counter running from the value that it holds (DESIGN CHOICE, log entry 74). -/
def pllLock (l : Pll) : Act := seq [only (l = .sys) coreRelease, whenA (fun s => s.up ∨ (started s ∧ (l = .north ∨ l = .south))) fun s =>
  let p := pllGet s l
  if p.lock ∨ p.coast ∨ (l = .slide ∧ !s.on F.CLK_SLIDE_CFG_en) then []
  else seq [only (l = .slide) slideRebase, pllSet l { p with lock := true, band := (Config.freeBand s.fresh).toNat }, freshA,
    only (l = .sys) (setB F.CLK_STAT_ref_ok),
    only (l = .slide) (withS fun t => seq [
      clkA (fun c => { c with freq := 1, coastT := none,
                              copyN := clampInt (-1) 1 (Config.freeCopy t.fresh),
                              copyS := clampInt (-1) 1 (Config.freeCopy (t.fresh + 1)) }),
      freshA, freshA, setPu R.CLK_SLIDE_FREQ 0x40000000])] s]

/-- The event of a PLL that begins to coast (R77, R81, R88). -/
def coastEvent : Pll → Act
  | .sys => setB F.CLK_EVENT_sys_unlock
  | .north => setB F.CLK_EVENT_bell_unlock
  | .south => setB F.CLK_EVENT_bell_unlock
  | .slide => setB F.CLK_EVENT_slide_unlock

/-- PLL_COAST_START (R77, R88): the clock-fault line rises, but not for the Slide. -/
def pllCoast (l : Pll) : Act := fun s =>
  let p := pllGet s l
  if !p.lock then []
  else seq [
    only (l = .slide) (seq [slideRebase, clkA (fun c => { c with coastT := some s.now, drift := s.fresh }), freshA]),
    pllSet l { p with lock := false, coast := true, line := l != .slide }, coastEvent l, only (l = .slide) metCoast] s

/-- The Drone's coast timer of a PLL, by its bit (R78). -/
def pllBit : Pll → Nat
  | .sys => 0
  | .north => 1
  | .south => 2
  | .slide => 3

/-- PLL_RELOCK (R79): with the reference valid, lock is regained, the clock-fault line falls and the PLL's own coast timer with
it (R78); with none run out the coast cause is live no longer. -/
def pllRelock (l : Pll) : Act := fun s =>
  let p := pllGet s l
  if !p.coast ∨ !s.on F.CLK_STAT_ref_ok then []
  else seq [
    only (l = .slide) (seq [slideRebase, clkA fun c => { c with coastT := none }]),
    pllSet l { p with lock := true, coast := false, line := false },
    only (l = .sys) (setB F.CLK_EVENT_sys_relock),
    only (l != .slide) (seq [droneCoastOut (pllBit l) false,
      whenA (fun t => t.hid.drone.coastOut = 0) (causeEnds causeCoast)])] s

/-- COAST_LIMIT (R78): the Drone's coast timer of a PLL whose line is high runs out. -/
def coastLimit (l : Pll) : Act := fun s =>
  if !(pllGet s l).line then []
  else seq [setB F.CLK_EVENT_coast_limit,
    whenA (fun t => t.on F.CLK_STAT_commit_pending)
      (seq [clrB F.CLK_STAT_commit_pending, clrB F.CLK_SYS_COMMIT_go, setF F.CLK_STAT_result 6]),
    droneCoastOut (pllBit l) true, haltCause causeCoast] s

/-- Islands whose clock a divider commit would change (R76, R74), bits of `SYS_ISLAND_EN`. -/
def commitIslands (s : State) : Nat :=
  let d := fun x y => s.f x ≠ s.f y
  (if d F.CLK_SYS_DIV_div_bore F.CLK_SYS_DIV_ACT_div_bore then 0x1FE else 0)
  + (if d F.CLK_SYS_DIV_div_chnt F.CLK_SYS_DIV_ACT_div_chnt then 0x1 else 0)
  + (if d F.CLK_SYS_DIV_div_grid F.CLK_SYS_DIV_ACT_div_grid then 0x200 else 0)
  + (if d F.CLK_SYS_DIV_div_meter F.CLK_SYS_DIV_ACT_div_meter then 0x400 else 0)

/-- The first code of R76 that applies to a divider commit. -/
def commitCheck (s : State) : Nat :=
  if s.mode ≠ CONFIGURE then 1
  else if (s.rd R.SYS_ISLAND_EN).toNat &&& commitIslands s ≠ 0 then 2
  else if !s.on F.CLK_STAT_sys_lock then 3
  else if s.on F.CLK_STAT_commit_pending then 4
  else 0

/-- CLK_SYS_COMMIT (R76). -/
def sysCommit (v : Word) : Act := whenA (fun s => s.up ∧ v.getLsbD 0) fun s =>
  let c := commitCheck s
  seq [setF F.CLK_STAT_result c,
    only (c = 0) (seq [setB F.CLK_STAT_commit_pending, setB F.CLK_SYS_COMMIT_go])] s

/-- DIVIDER_APPLY (R76): the shadow as it stands at the in-phase point; `lat` of each engine follows `div_bore` (R254). -/
def dividerApply : Act := whenA (fun s => s.on F.CLK_STAT_commit_pending) (seq [
  coreCount, withS fun s => setW R.CLK_SYS_DIV_ACT (s.rd R.CLK_SYS_DIV),
  clrB F.CLK_STAT_commit_pending, clrB F.CLK_SYS_COMMIT_go, setB F.CLK_EVENT_commit_done,
  forEach (List.range 8) latUpdate])

/-- DRONE_CLOCK_CHECK (R80): 1024 counts are nominal over 64 µs, and 8 % of them is 81.92.  It runs while the North PLL is
enabled, from the start to LEAN on (R57, R81). -/
def clockCheck (count : Nat) : Act := whenA started <| clockWindow (decide (943 ≤ count) && decide (count ≤ 1105))

/-- BELL_STATUS_REFRESH (R81): a read returns the last refresh to arrive. -/
def bellRefresh (d : Die) : Act := whenA (fun s => s.on (F.SYS_SEAM_STAT_up d)) fun s =>
  if d = 0 then
    let p := s.hid.clk.north
    seq [setB F.CLK_BELL_STAT_n_valid, setF F.CLK_BELL_STAT_n_lock (b2n p.lock),
      setF F.CLK_BELL_STAT_n_coast (b2n p.coast), setF F.CLK_BELL_STAT_n_band p.band] s
  else
    let p := s.hid.clk.south
    seq [setB F.CLK_BELL_STAT_s_valid, setF F.CLK_BELL_STAT_s_lock (b2n p.lock),
      setF F.CLK_BELL_STAT_s_coast (b2n p.coast), setF F.CLK_BELL_STAT_s_band p.band] s

/-- DEVICE_TIME_WRAP (R82, R9, R21): the count returns to zero; the wrap count stays at 255. -/
def timeWrap : Act := fun s =>
  seq [fun _ => [.now 0#64],
    setF F.CLK_TIME_SNAP_wrap (min 255 (s.f F.CLK_TIME_SNAP_wrap + 1)),
    setB F.CLK_EVENT_time_wrap] s

/-- The difference of a die's copy becomes `x` (R83); a hold under way ends.  DEDUCED, log entry 134. -/
def skewSet (d : Nat) (x : Int) : Act :=
  clkA fun c => if d = 0 then { c with skewN := x, holdN := none } else { c with skewS := x, holdS := none }

/-- One die's part of a marker (R83): over a link that is up, the measured difference is recorded; one beyond 2 ticks raises
the event. -/
def skewMeasure (d : Nat) (x : BitVec 8) : Act := whenA (fun s => s.on (F.SYS_SEAM_STAT_up d)) (seq [
  setF (if d = 0 then F.CLK_SKEW_north else F.CLK_SKEW_south) x.toNat,
  skewSet d x.toInt,
  only (2 < x.toInt.natAbs) (setB F.CLK_EVENT_skew)])

/-- SKEW_MARKER (R83). -/
def skewMarker (north south : BitVec 8) : Act := seq [skewMeasure 0 north, skewMeasure 1 south]

/-- A difference moved two ticks towards zero where it is beyond two. -/
def skewStep (x : Int) : Int := if 2 < x then x - 2 else if x < -2 then x + 2 else x

/-- SKEW_CORRECTION (R83): a copy behind adds two ticks together; one ahead holds its count for two ticks. -/
def skewCorrect (d : Die) : Act := fun s =>
  let x := dieSkew s d
  let hold := if 2 < x then some s.now else none
  only (2 < x.natAbs) (clkA fun c =>
    if d = 0 then { c with skewN := skewStep x, holdN := hold } else { c with skewS := skewStep x, holdS := hold }) s

/-! ### Slide -/

/-- A write of `CLK_SLIDE_CFG`: the shadowed fields take it, `en` only as `en` says (R89). -/
def slideCfgWrite (v : Word) (en : Nat) : Act :=
  seq [setF F.CLK_SLIDE_CFG_lock_tol (v.toNat / 2 ^ 16), setF F.CLK_SLIDE_CFG_kph (v.toNat / 2 ^ 4),
    setF F.CLK_SLIDE_CFG_phase_lock (v.toNat / 2 ^ 3), setF F.CLK_SLIDE_CFG_src (v.toNat / 2),
    setF F.CLK_SLIDE_CFG_en en]

/-- The Slide rests (R89): its output and its counter stop. -/
def slideRest : Act := seq [slideRebase, clrB F.CLK_SLIDE_STAT_pll_lock, clrB F.CLK_SLIDE_STAT_coast,
  clkA fun c => { c with coastT := none, ending := 0 }]

/-- Strobes per turn, as a power of two; 0 is off (R90). -/
def strobeLog (w : Word) : Nat :=
  let n := w.toNat % 32
  if n = 0 then 0 else if n < 4 then 4 else if 16 < n then 16 else n

/-- The generators of the set in force that issue strobes (R90), as bits. -/
def strobesOn (s : State) : Nat := maskOf ((List.range 4).filter fun j => strobeLog (s.hid.clk.slide.strobe.getD j 0#32) ≠ 0)

/-- SLIDE_ENABLE (R89, R85): refused with code 3 unless the system PLL is locked; the nominal frequency is read here.  A Slide that
is still finishing its strobe period rests first.  DEDUCED, log entry 76. -/
def slideEnable (v : Word) : Act := whenA (fun s => s.up) fun s =>
  if s.on F.CLK_SLIDE_CFG_en then slideCfgWrite v 1 s
  else if !s.on F.CLK_STAT_sys_lock then seq [slideCfgWrite v 0, setF F.CLK_SLIDE_STAT_result 3] s
  else seq [only (s.hid.clk.ending ≠ 0) slideRest,
    slideCfgWrite v 1, setF F.CLK_SLIDE_STAT_result 0, clkA fun c => { c with fnom := fnomHz s }] s

/-- SLIDE_DISABLE (R89): refused with code 1 outside DORMANT and CONFIGURE; the Fine channels stop (R159).  Each generator that is
on finishes its strobe period, at whose end it sends no strobe, and the Slide rests at the end of the last (DEDUCED, log entry 76);
what its status shows meanwhile, and while it is disabled, is the model's (DESIGN CHOICE, log entry 117). -/
def slideDisable (v : Word) : Act := whenA (fun s => s.up) fun s =>
  if !s.on F.CLK_SLIDE_CFG_en then slideCfgWrite v 0 s
  else if s.mode ≠ DORMANT ∧ s.mode ≠ CONFIGURE then seq [slideCfgWrite v 1, setF F.CLK_SLIDE_STAT_result 1] s
  else seq [forEach (List.range 12) fun f => fineHalt f true,
    slideCfgWrite v 0, setF F.CLK_SLIDE_STAT_result 0, clrB F.CLK_SLIDE_STAT_ramping, clrB F.CLK_SLIDE_STAT_grid_locked,
    if slideRuns s ∧ strobesOn s ≠ 0 then clkA fun c => { c with ending := strobesOn s } else slideRest] s

/-- The shadow set as the registers hold it (R89). -/
def slideShadow (s : State) : SlideSet :=
  { cfg := s.rd R.CLK_SLIDE_CFG, fix := s.pu R.CLK_SLIDE_FIX,
    th := (List.range 8).map fun i => (s.rd (R.CLK_SLIDE_SEG_TH i)).toNat,
    rate := (List.range 8).map fun i => s.f (F.CLK_SLIDE_SEG_RATE_mhz_s i),
    strobe := (List.range 4).map fun j => s.rd (R.CLK_SLIDE_STROBE j) }

/-- The segments in use, lowest first: threshold (segment 0 counts as zero) and rate held to 20 000 mHz/s (R86). -/
def slideSegs (x : SlideSet) : List (Nat × Nat) :=
  ((List.range 8).map fun i => (if i = 0 then 0 else x.th.getD i 0, min 20000 (x.rate.getD i 0))).filter fun p => p.2 ≠ 0

/-- The thresholds of a list of segments do not decrease. -/
def thRising : List (Nat × Nat) → Bool
  | a :: b :: t => a.1 ≤ b.1 && thRising (b :: t)
  | _ => true

/-- SLIDE_COMMIT (R89): 4 while pending, 5 where thresholds in use decrease. -/
def slideCommit (v : Word) : Act := whenA (fun s => s.up ∧ v.getLsbD 0) fun s =>
  if s.on F.CLK_SLIDE_COMMIT_go then setF F.CLK_SLIDE_STAT_result 4 s
  else if !thRising (slideSegs (slideShadow s)) then setF F.CLK_SLIDE_STAT_result 5 s
  else seq [setF F.CLK_SLIDE_STAT_result 0, setB F.CLK_SLIDE_COMMIT_go] s

/-- The rate of the segment that applies at an error of `e` pu (R86): the highest in use whose threshold is at most `e`,
else the lowest in use. -/
def slideRate (segs : List (Nat × Nat)) (e : Rat) : Option Nat :=
  match (segs.filter fun p => (p.1 : Rat) / 2 ^ 30 ≤ e).getLast? with
  | some p => some p.2
  | none => segs.head?.map (·.2)

/-- The target of R85, before its clamp, with the correction of R87. -/
def slideTarget (x : SlideSet) (s : State) (pherr : Int) : Rat :=
  let src := Fld.get F.CLK_SLIDE_CFG_src x.cfg
  let base : Rat :=
    if src = 1 then qFreq s else if src = 2 then qFmFreq s else (x.fix : Rat) / 2 ^ 30
  if Fld.get F.CLK_SLIDE_CFG_phase_lock x.cfg = 1 then
    base + (pherr : Rat) / 2 ^ (32 + Fld.get F.CLK_SLIDE_CFG_kph x.cfg)
  else base

/-- SLIDE_RAMP_UPDATE (R86, R87): a pending commit applies first; while the Slide coasts its ramp holds (R88).  The clamp of R85,
and `range_clip`, are of the target with its correction (DEDUCED, log entry 77); the tracker angle of `pherr` is that of the last
published set, not advanced (DESIGN CHOICE, log entry 78); a disabled Slide makes no updates, so a commit of its set then stays
pending (DESIGN CHOICE, log entry 79). -/
def slideRamp : Act := fun s0 =>
  seq [
    slideRebase,
    whenA (fun s => s.on F.CLK_SLIDE_COMMIT_go)
      (seq [withS fun s => clkA fun c => { c with slide := slideShadow s }, clrB F.CLK_SLIDE_COMMIT_go]),
    withS fun s =>
      let c := s.hid.clk
      let x := c.slide
      let pherr : Int := (qTheta s - slideAngle s s.now).toInt
      let raw := slideTarget x s pherr
      let tgt := clampRat (40 / c.fnom) (70 / c.fnom) raw
      let clip := decide (tgt ≠ raw)
      let err := tgt - c.freq
      let segs := slideSegs x
      let mag := if err < 0 then -err else err
      let step : Rat := match slideRate segs mag with
        | some r => min mag ((r : Rat) / 1000000000 / c.fnom)
        | none => 0
      let f' := if !s.on F.CLK_SLIDE_STAT_pll_lock then c.freq else if err < 0 then c.freq - step else c.freq + step
      let left := tgt - f'
      seq [clkA (fun c => { c with freq := f' }),
        setPu R.CLK_SLIDE_FREQ (narrow36 f'), setPu R.CLK_SLIDE_TARGET (narrow36 tgt),
        setW R.CLK_SLIDE_PHERR (BitVec.ofInt 32 pherr),
        setF F.CLK_SLIDE_STAT_hold (b2n segs.isEmpty),
        only (clip ∧ !s.on F.CLK_SLIDE_STAT_range_clip) (setB F.CLK_EVENT_range_clip),
        setF F.CLK_SLIDE_STAT_range_clip (b2n clip),
        setF F.CLK_SLIDE_STAT_ramping (b2n (left ≠ 0)),
        setF F.CLK_SLIDE_STAT_grid_locked
          (b2n (decide ((if left < 0 then -left else left) ≤ (Fld.get F.CLK_SLIDE_CFG_lock_tol x.cfg : Rat) / 2 ^ 20)))]]
  |> fun a => if s0.on F.CLK_SLIDE_CFG_en then a s0 else []

/-- The Slide counter value `cyc` is a strobe position of the generator whose word is `w` (R90). -/
def strobeAt (w : Word) (cyc : Nat) : Bool :=
  strobeLog w ≠ 0 ∧ (cyc + 2 ^ 20 - w.toNat / 2 ^ 12) % 2 ^ (20 - strobeLog w) = 0

/-- A Slide clock falls in the tick that ends now (R84). -/
def slideEdge (s : State) : Bool := (slideAt s (s.now - 1#64)).floor < (slideAt s s.now).floor

/-- A strobe position of generator `j` falls now on die `d`, or on the Core die: at a Slide edge, where the die's own count is at one of the
generator's positions (R90). -/
def strobePos (s : State) (j : Nat) (d : Option Nat) : Bool :=
  slideEdge s ∧ strobeAt (s.hid.clk.slide.strobe.getD j 0#32)
    (match d with | none => slideCyc s s.now | some d => slideCopy s d s.now)

/-- Generator `j` issues a strobe now on die `d`, or on the Core die (R90). -/
def strobeHere (s : State) (j : Nat) (d : Option Nat) : Bool := s.on F.CLK_SLIDE_CFG_en ∧ strobePos s j d

/-- The strobe period of generator `j` ends on a Slide that is disabled (R89); with the last such period the Slide rests. -/
def strobeLast (j : Nat) : Act := whenA (fun s => bit s.hid.clk.ending j ∧ strobePos s j none) (seq [
  clkA fun c => { c with ending := putBit c.ending j false },
  whenA (fun s => s.hid.clk.ending = 0) slideRest])

/-- SLIDE_STROBE (R90): the strobes of generator `j` that fall now, each with the device time of its Slide edge; a disabled Slide
ends its strobe period (R89). -/
def slideStrobe (j : Nat) : Act := fun s =>
  seq [only (strobeHere s j none) (seq [
      clkA (fun c => { c with strobeTs := (List.range 4).map fun i => if i = j then s.now else c.strobeTs.getD i 0#64 }),
      fire (.strobe j none) s.now]),
    forEach ([0, 1].filter fun d => strobeHere s j (some d)) fun d => fire (.strobe j (some d)) (dieTime s d),
    strobeLast j] s

/-- CLKOUT_SELECT (R92). -/
def clkoutSelect : Act := fun s => clkA (fun c => { c with clkout := s.f F.CLK_CFG_clkout_sel }) s

/-! ### The commands -/

def execRefLost (s : State) := finish refLost s
def execRefBack (s : State) := finish refBack s
def execPllLock (l : Pll) (s : State) := finish (pllLock l) s
def execPllCoastStart (l : Pll) (s : State) := finish (pllCoast l) s
def execPllRelock (l : Pll) (s : State) := finish (pllRelock l) s
def execCoastLimit (l : Pll) (s : State) := finish (coastLimit l) s
def execClkSysCommit (p : Port) (v : Word) (s : State) := finish (portGate p R.CLK_SYS_COMMIT (sysCommit v)) s
def execDividerApply (s : State) := finish dividerApply s
def execDroneClockCheck (count : Nat) (s : State) := finish (clockCheck count) s
def execBellStatusRefresh (d : Die) (s : State) := finish (bellRefresh d) s
def execDeviceTimeWrap (s : State) := finish timeWrap s
/-- One 1.25 ns tick of device time (R9), which from the largest value wraps.  DESIGN CHOICE, log entry 1. -/
def execTick (s : State) : Host.Outcome State Fault Refusal :=
  if s.now = BitVec.allOnes 64 then execDeviceTimeWrap s else .next { s with now := s.now + 1#64 }
def execSkewMarker (north south : BitVec 8) (s : State) := finish (skewMarker north south) s
def execSkewCorrection (d : Die) (s : State) := finish (skewCorrect d) s
def execSlideEnable (p : Port) (v : Word) (s : State) := finish (portGate p R.CLK_SLIDE_CFG (slideEnable v)) s
def execSlideDisable (p : Port) (v : Word) (s : State) := finish (portGate p R.CLK_SLIDE_CFG (slideDisable v)) s
def execSlideCommit (p : Port) (v : Word) (s : State) := finish (portGate p R.CLK_SLIDE_COMMIT (slideCommit v)) s
def execSlideRampUpdate (s : State) := finish slideRamp s
def execSlideStrobe (j : Fin 4) (s : State) := finish (slideStrobe j) s
def execClkoutSelect (s : State) := finish clkoutSelect s

end Sys2Proof.Machine
end

