-- ==== Sys2Proof/Machine/Budget.lean ====
section
/-!
DEFINITION. The step-budget check of the Bore engines (R256).
-/

namespace Sys2Proof.Machine

/-- Active carrier period of edge unit `n`, ticks (R187). -/
def unitPeriod (s : State) (n : Nat) : Rat :=
  let c := carrier s n
  (periodOf c.1 c.2 : Rat)

/-- Interval of strobe generator `j` at 70 Hz, ticks (R90); none while it is off. -/
def strobeTicks (s : State) (j : Nat) : Option Rat :=
  let n := (s.hid.clk.slide.strobe.getD j 0#32).toNat % 32
  if n = 0 then none else some ((800000000 : Rat) / 70 / 2 ^ (max 4 (min 16 n)))

/-- Length of one pass of converter `c`'s sequence, ticks (R139). -/
def passTicks (s : State) (c : Nat) : Rat :=
  ((List.range (s.f (F.CONV_C_CTL_last c) + 1)).foldl (fun a q => a + 10 * max 2 (s.f (F.CONV_C_ENT_samp c q)) + 20) 0 : Nat)

/-- T_min of converter `c`'s trigger. -/
def convTmin (s : State) (c : Nat) : Option Rat :=
  if s.on (F.CONV_C_TRIG_repeat c) then some (passTicks s c)
  else match s.f (F.CONV_C_TRIG_kind c) with
  | 1 => some (unitPeriod s (s.f (F.CONV_C_TRIG_index c)))
  | 2 => strobeTicks s (s.f (F.CONV_C_TRIG_index c))
  | _ => some 200

/-- T_min of engine `e`'s trigger, ticks; none where no trigger comes. -/
def engTmin (s : State) (e : Nat) : Option Rat :=
  let i := s.f (F.BORE_TRIG_index e)
  match s.f (F.BORE_TRIG_kind e) with
  | 0 => convTmin s i
  | 1 => some (if s.f (F.BORE_TRIG_evt e) = 2 then unitPeriod s i / 2 else unitPeriod s i)
  | 2 => strobeTicks s i
  | _ => some 200

/-- The conditions of R256 for engine `e`, in ticks: 1.9 µs, 50 ns and 250 ns are 1520, 40 and 200. -/
def budgetOk (s : State) (e : Nat) : Bool :=
  let len := engCycles s e * boreCyc s
  decide (len ≤ 1520) &&
  (match engTmin s e with
    | none => true
    | some t => decide ((len : Rat) ≤ t - 40) && decide (200 ≤ t)) &&
  (s.f (F.BORE_INFO_timing e) != 1 || (match refUnit s e with
    | none => true
    | some n => decide ((s.f (F.BORE_FIX_CFG_lat e) : Rat) < unitPeriod s n)))

/-- The engines with a program. -/
def programmed (s : State) : List Nat := (List.range 8).filter fun e => stageCount s e ≠ 0

/-- Every programmed engine passes. -/
def budgetsOk (s : State) : Bool := (programmed s).all (budgetOk s)

/-- The check's outcome reads in `budget_ok`. -/
def budgetNote : Act := fun s => seq ((programmed s).map fun e => setF (F.BORE_STAT_budget_ok e) (b2n (budgetOk s e))) s

end Sys2Proof.Machine
end

