-- ==== Sys2Proof/Machine/Mode.lean ====
section
/-!
DEFINITION. The operating modes: requests, transitions, HALT causes (spec/05).
-/

namespace Sys2Proof.Machine

/-! ### The checks of a request (R120–R123) -/

/-- The transition table of R121, SERVICE to DORMANT read from it row by row; the last three columns of RIDE depend on the
origin and are judged in row 14 of R122. -/
def transAllowed (a b : Nat) : Bool :=
  match a with
  | 0 => b = 1 ∨ b = 6 ∨ b = 7
  | 1 => b = 0 ∨ b = 2 ∨ b = 6 ∨ b = 7
  | 2 => b = 0 ∨ b = 1 ∨ b = 3 ∨ b = 4 ∨ b = 6 ∨ b = 7
  | 3 => b = 2 ∨ b = 4 ∨ b = 6
  | 4 => b = 2 ∨ b = 3 ∨ b = 6
  | 5 => b = 2 ∨ b = 3 ∨ b = 4 ∨ b = 6
  | 6 => b = 0 ∨ b = 1 ∨ b = 2 ∨ b = 7
  | 7 => b = 0 ∨ b = 1 ∨ b = 6
  | _ => false

/-- A mode, power-state or island-enable transition is in progress (R120, order 4). -/
def transBusy (s : State) : Bool :=
  s.on F.SYS_MODE_STAT_busy ∨ s.hid.pwr.trans ≠ .none ∨ s.on F.SYS_ISLAND_STAT_busy

/-- The power state allows mode `m` (R117). -/
def modeInPower (s : State) (m : Nat) : Bool :=
  if s.hid.pwr.st = .full then m ≠ DORMANT else m ≠ FOLLOW ∧ m ≠ FORM ∧ m ≠ RIDE

/-- Every island of the mask is enabled. -/
def islandsOn (s : State) (m : Nat) : Bool := (s.rd R.SYS_ISLAND_EN).toNat &&& m = m

/-- Every converter that a ROUTE_CONV record of the structure in force names is calibrated (R122 row 7, R153). -/
def routedCalibrated (s : State) : Bool :=
  (s.hid.fing.recs.filter fun r => r.typ = 0x0201).all fun r =>
    let c := (r.pay.getD 0 0#8).toNat
    s.f (F.CONV_CAL_STAT_done (c / 8)) / 2 ^ (c % 8) % 2 = 1

/-- The entry conditions of R122, in row order: the code of the first that refuses target `m`. -/
def entryCheck (m : Nat) (s : State) : Nat :=
  let run := m = STANDBY ∨ m = FOLLOW ∨ m = FORM
  let sw := m = FOLLOW ∨ m = FORM
  if (run ∨ m = SERVICE) ∧ !(s.on (F.SYS_SEAM_STAT_up 0) ∧ s.on (F.SYS_SEAM_STAT_up 1)) then 0x07
  else if (run ∨ m = CONFIGURE) ∧ s.on F.SYS_MODE_STAT_lockstep_broken then 0x08
  else if (m = DORMANT ∨ m = STANDBY ∨ m = SERVICE) ∧ s.on F.FING_STAT_busy then 0x09
  else if run ∧ s.force < 2 then 0x0A
  else if (m = FOLLOW ∧ !s.on F.FING_FEAT_follow) ∨ (m = FORM ∧ !s.on F.FING_FEAT_form) then 0x0B
  else if run ∧ !islandsOn s (needIslands s) then 0x0C
  else if run ∧ !routedCalibrated s then 0x0D
  else if run ∧ (s.on F.FING_FEAT_fine ∨ s.on F.FING_FEAT_whistle) ∧
    !(s.on F.CLK_SLIDE_CFG_en ∧ s.on F.CLK_SLIDE_STAT_pll_lock) then 0x0E
  else if run ∧ !budgetsOk s then 0x0F
  else if sw ∧ (s.on F.DRONE_STAT_forced_off ∨ droneFaulted s) then 0x10
  else if m = STANDBY ∧ s.mode = HALT ∧ s.rd R.SYS_HALT_CAUSE ≠ 0#32 then 0x11
  else if m = SERVICE ∧ s.role ≠ 0 then 0x12
  else if m = SERVICE ∧ !s.on F.SYS_MODE_STAT_svckey then 0x13
  else if sw ∧ s.mode = RIDE ∧
    (m ≠ s.f F.SYS_MODE_STAT_ride_origin ∨ !s.on F.SYS_MODE_STAT_ride_recovered) then 0x14
  else if m = FOLLOW ∧ !s.on F.GRID_STAT_locked then 0x15
  else 0

/-- The checks of R120 in their order, for target `m`.  DEDUCED, log entry 43. -/
def modeCheck (p : Port) (m : Nat) (s : State) : Nat :=
  if p = .fw ∧ m ≠ HALT then 0x01
  else if m = RIDE then 0x02
  else if s.role = 2 then 0x03
  else if transBusy s then 0x04
  else if m = s.mode then 0
  else if !transAllowed s.mode m then 0x05
  else if !modeInPower s m then 0x06
  else entryCheck m s

/-- The step budgets are judged where the checks of a request reach row 9 of R122. -/
def budgetJudged (m c : Nat) (s : State) : Bool := (m = STANDBY ∨ m = FOLLOW ∨ m = FORM) ∧ m ≠ s.mode ∧ (c = 0 ∨ 0x0F ≤ c)

/-- Another port wrote `SYS_MODE_CMD` in this FAB cycle (R120); a FAB cycle begins at every even tick (R492). -/
def modeRaced (p : Port) (s : State) : Bool :=
  match s.hid.mode.last with
  | some (t, q) => t = s.now.toNat / 2 ∧ q ≠ p
  | none => false

/-- RIDE was entered in this FAB cycle (R132). -/
def rideRaced (s : State) : Bool := s.mode = RIDE ∧ s.hid.mode.rideT = some (s.now.toNat / 2)

/-- The code of a request that names mode `m`: another port's write of the same FAB cycle won (R120); RIDE was entered in it
(R132); else the checks.  DEDUCED, log entry 43. -/
def modeCode (p : Port) (m : Nat) (s : State) : Nat :=
  if modeRaced p s then 0x04
  else
    let c := modeCheck p m s
    if rideRaced s ∧ m ≠ HALT ∧ (c = 0 ∨ 5 ≤ c) then 0x16 else c

/-- The write reaches the block. -/
def modeTaken (p : Port) : Act := whenA (fun s => !modeRaced p s)
  (withS fun s => modeA fun x => { x with last := some (s.now.toNat / 2, p) })

/-- A request refused with `c` (R120); one that ends with 0x16 was overtaken. -/
def modeRefuse (c : Nat) : Act := seq [setF F.SYS_MODE_STAT_result c, setB F.SYS_MODE_EVENT_refused,
  only (c = 0x16) (setB F.SYS_MODE_EVENT_overtaken)]

/-- An accepted transition to `m` begins (R120). -/
def modeBegin (m : Nat) : Act := seq [setF F.SYS_MODE_STAT_result 0, setB F.SYS_MODE_STAT_busy,
  withS fun s => modeA fun x => { x with target := m, begun := some (s.now.toNat / 2) }]

/-- A request that names mode `m` (R120): a refusal has no other effect; the present mode changes nothing. -/
def modeRequest (p : Port) (m : Nat) : Act := whenA (fun s => s.up) fun s =>
  let c := modeCode p m s
  seq [only (!modeRaced p s && budgetJudged m (modeCheck p m s) s) budgetNote, modeTaken p,
  if c ≠ 0 then modeRefuse c else if m = s.mode then setF F.SYS_MODE_STAT_result 0 else modeBegin m] s

/-- A request for HALT that is accepted (R128, R129): cause `cmd`; from CONFIGURE with force 3 `busy` stays until the SAFETY
check ends (R133).  DEDUCED, log entry 42. -/
def haltRequest (p : Port) : Act := whenA (fun s => s.up) fun s =>
  let c := modeCode p HALT s
  seq [modeTaken p,
  if c ≠ 0 then modeRefuse c
  else if s.mode = HALT then setF F.SYS_MODE_STAT_result 0
  else
    seq [modeBegin HALT, setB (bitFld R.SYS_HALT_CAUSE causeCmd), setB (bitFld R.SYS_HALT_LIVE causeCmd),
      setB F.SYS_MODE_EVENT_halt,
      only (¬ (s.mode = CONFIGURE ∧ s.force = 3)) (seq [modeTo HALT, bump R.SYS_HALT_CNT])]] s

/-! ### Completion (R133, R123, R30) -/

/-- On entry to CONFIGURE every lost link is retrained (R122, R30): where it trains, the link is up and its HALT cause is live
no longer. -/
def retrain (d : Nat) (ok : Bool) : Act := whenA (fun s => !s.on (F.SYS_SEAM_STAT_up d) ∧ ok) (seamTrain d 0)

/-- The transition to `m` completes.  One out of CONFIGURE with force 3 whose SAFETY check fails ends in HALT (R123).  An
excursion that came during a FOLLOW–FORM transfer enters RIDE from the new mode (R132).  DEDUCED, log entry 42. -/
def transDone (m : Nat) (northOk southOk : Bool) : Act := fun s =>
  let halt := m = HALT ∨ (s.mode = CONFIGURE ∧ s.force = 3 ∧ !safetyCrcOk s)
  seq [
    only (m = CONFIGURE) (seq [retrain 0 northOk, retrain 1 southOk]),
    if halt then seq [modeTo HALT, bump R.SYS_HALT_CNT] else modeTo m,
    only s.hid.ride.wait (seq [rideA fun h => { h with wait := false },
      only (m = FOLLOW ∨ m = FORM) (seq [modeSwitch s.mode, enterRide])])] s

/-- MODE_TRANSITION_COMPLETE (R133). -/
def modeDone (northOk southOk : Bool) : Act := whenA (fun s => s.on F.SYS_MODE_STAT_busy)
  (withS fun s => transDone s.hid.mode.target northOk southOk)

/-! ### HALT causes -/

/-- HALT_CAUSE_ACTIVE (R128). -/
def haltCauseActive (c : Nat) : Act := haltCause c

/-- HALT_CAUSE_CLEAR (R130): a cause that is live stays. -/
def haltCauseClear (v : Word) : Act := whenA (fun s => s.up) fun s =>
  clearW R.SYS_HALT_CAUSE (v &&& ~~~ s.rd R.SYS_HALT_LIVE &&& 0xFFF#32) s

/-! ### The commands -/

def execModeReqDormant (p : Port) (s : State) := finish (portGate p R.SYS_MODE_CMD (modeRequest p DORMANT)) s
def execModeReqConfigure (p : Port) (s : State) := finish (portGate p R.SYS_MODE_CMD (modeRequest p CONFIGURE)) s
def execModeReqStandby (p : Port) (s : State) := finish (portGate p R.SYS_MODE_CMD (modeRequest p STANDBY)) s
def execModeReqFollow (p : Port) (s : State) := finish (portGate p R.SYS_MODE_CMD (modeRequest p FOLLOW)) s
def execModeReqForm (p : Port) (s : State) := finish (portGate p R.SYS_MODE_CMD (modeRequest p FORM)) s
def execModeReqRide (p : Port) (s : State) := finish (portGate p R.SYS_MODE_CMD (modeRequest p RIDE)) s
def execModeReqHalt (p : Port) (s : State) := finish (portGate p R.SYS_MODE_CMD (haltRequest p)) s
def execModeReqService (p : Port) (s : State) := finish (portGate p R.SYS_MODE_CMD (modeRequest p SERVICE)) s
def execModeTransitionComplete (northOk southOk : Bool) (s : State) := finish (modeDone northOk southOk) s
def execHaltCauseActive (c : Fin 12) (s : State) := finish (haltCauseActive c) s
def execHaltCauseClear (p : Port) (v : Word) (s : State) := finish (portGate p R.SYS_HALT_CAUSE (haltCauseClear v)) s

end Sys2Proof.Machine
end

