-- ==== Sys2Proof/Machine/Depart.lean ====
section
/-!
DEFINITION. Leaving LEAN and FULL for HARVEST: the retention dump, the departure, and the resets around it (R56–R68).
-/

namespace Sys2Proof.Machine

/-- Offsets of the HARV registers, of the retention RAM and of the DRONE registers (R42). -/
def inHarv (k : Nat) : Bool := 0x20000 ≤ k ∧ k < 0x30000
def inRet (k : Nat) : Bool := 0x21000 ≤ k ∧ k < 0x21200
def inDrone (k : Nat) : Bool := 0x1D0000 ≤ k ∧ k < 0x1E0000

/-- The Core and South dies, and all of the North die but its always-on domain and Drone, go through reset (R55, R57, R82).
DEDUCED, log entry 59. -/
def coreReset : Act := seq [
  fun _ => [.regsKeep fun k => inHarv k || inDrone k, .latchesLost, .sramLost, .lpddrLost, .now 0#64, .seen 0],
  hidA fun h =>
    let x := h.drone
    { pwr := h.pwr, otp := h.otp,
      drone := { x with coastOut := 0, demT := none, haltLive := false, lockLive := false, sol := 0, island := false, pair := false } }]

/-- What a power transition and a burst in progress end with when they are overtaken (R56, R57, R69). -/
def overtake (code : Nat) : Act := seq [
  whenA (fun s => s.hid.pwr.trans = .toFull ∨ s.hid.pwr.trans = .fullToLean ∨ (s.hid.pwr.trans = .toHarvest ∧ s.hid.pwr.cause = 3))
    (setF F.SYS_PWR_STAT_result code),
  burstEnd code]

/-- The magic of a dump, "HZRT" (R67). -/
def retMagic : Word := 0x54525A48#32

/-- The words of a dump before its CRC (R67): the firmware area keeps what firmware wrote. -/
def dumpWords (s : State) (cause : Nat) : List (Nat × Word) :=
  let acc := fun (i : Nat) => ((List.range 8).map fun k => s.rd64 (R.METER_PT_ACC i k)) ++ [s.rd64 (R.METER_PT_WRAP i)]
  let two := fun (x : BitVec 64) => [x.extractLsb' 0 32, x.extractLsb' 32 32]
  let head := [retMagic, s.rd (R.HARV_RET 1) + 1#32] ++ two s.now ++ two (ntWord s s.now) ++
    [BitVec.ofNat 32 (s.f F.SYS_PWR_STAT_state + 16 * s.mode + 256 * cause), 0#32]
  let l := head ++ ((acc 0).map two).flatten ++ ((acc 1).map two).flatten ++ (List.range 16).map (Config.freeRet s.fresh)
  l.zipIdx.map (fun x => (x.2, x.1)) ++ [(124, 0#32), (125, 0#32), (126, 0#32)]

/-- The retention RAM's first `n` bytes (R67). -/
def retBytes (s : State) (n : Nat) : List Byte := wordsGet s R.HARV_RET (n / 4)

/-- The dump (R66, R67): with its CRC where it completes; cut off, it leaves what it was writing undefined.
DESIGN CHOICE, log entry 35. -/
def dump (cause : Nat) (ok : Bool) : Act := fun s =>
  if ok then
    seq [forEach (dumpWords s cause) fun x => setW (R.HARV_RET x.1) x.2, freshA,
      withS fun t => setW (R.HARV_RET 127) (crc32c (retBytes t 0x1FC)),
      setB F.HARV_EVENT_dump_done, pwrA fun p => { p with dumpOpen := false }] s
  else
    seq [forEach (dumpWords s cause) fun x => setW (R.HARV_RET x.1) (Config.freeRet s.fresh x.1), freshA,
      pwrA fun p => { p with dumpOpen := true }] s

/-- A departure from LEAN or FULL to HARVEST begins (R65): supply hold, short cycles closed, dump, GT pins low, AUXEN open. -/
def depart (cause : Nat) (dumpOk : Bool) : Act := seq [
  pwrA (fun p => { p with trans := .toHarvest, cause := cause, dumpOnly := true, auxen := false }),
  setB F.SYS_PWR_STAT_busy,
  droneA (fun x => { x with supply := true }), meterStopAll, calAbandon 0 6, calAbandon 1 6, dump cause dumpOk, droneEval]

/-- A departure is under way. -/
def departing (s : State) : Bool := s.hid.pwr.trans = .toHarvest

/-- A start from HARVEST that is not yet complete ends there at once (R56, R57): no dump, no departure course, no `burst_abort`
event and no count.  DESIGN CHOICE, log entry 116. -/
def cancelStart : Act := seq [coreReset, pwrA (fun p => { p with st := .harvest, trans := .none, held := false }), droneHarvestEntry]

end Sys2Proof.Machine
end

