-- ==== Sys2Proof/Machine/Power.lean ====
section
/-!
DEFINITION. Supply, harvester, power states, island enables, bursts and the retention RAM (spec/02).
-/

namespace Sys2Proof.Machine

/-! ### Supply and harvester -/

/-- The source that R44 names with VSUP present or not and VB at `vb` mV. -/
def pathOf (vsup : Bool) (vb : Nat) : PPath := if vsup then .vsup else if 10000 ≤ vb then .vb else .off

/-- The power path takes the source of R44 (R45): `src_vb` and the event where it changes source.  A path that draws from
neither shows the source that it last had.  DEDUCED, log entry 68. -/
def pathTake (p : PPath) : Act := fun s =>
  seq [pwrA (fun x => { x with path := p }),
    only (p ≠ .off ∧ s.on F.HARV_STAT_src_vb ≠ decide (p = .vb))
      (seq [setF F.HARV_STAT_src_vb (b2n (decide (p = .vb))), setB F.HARV_EVENT_src_change])] s

/-- HIN_COLD_START (R50): before the always-on domain runs, VQ charges from HIN. -/
def hinColdStart : Act := whenA (fun s => s.hid.pwr.aon = .stopped)
  (pwrA fun p => { p with coldStart := true, charging := some .vq })

/-- VSUP becomes present or absent with VB at `vb` mV (R44, R45); the path follows while the always-on domain has power. -/
def vsupChange (present : Bool) (vb : Nat) : Act :=
  seq [pwrA fun p => { p with vsup := present }, whenA (fun s => s.hid.pwr.aon ≠ .stopped) (pathTake (pathOf present vb))]

/-- VSUP_PRESENT (R45). -/
def vsupPresent : Act := vsupChange true 0

/-- VSUP_ABSENT (R45), with VB at `vb` mV. -/
def vsupAbsent (vb : BitVec 16) : Act := vsupChange false vb.toNat

/-- The regulation ratio k of R48: codes above 30 act as 30. -/
def harvK (s : State) : Rat := 7 / 10 + (min 30 (s.f F.HARV_CFG_k_code) : Nat) * (1 / 200)

/-- Seconds between two Voc samples (R48, R71): 0 acts as 1 and values above 60 act as 60. -/
def vocPeriod (s : State) : Nat := max 1 (min 60 (s.f F.HARV_CFG_voc_period))

/-- The VB target in mV (R49): values above 30 000 act as 30 000; one below 10 000 acts as written.  DESIGN CHOICE, log entry
114. -/
def vbTarget (s : State) : Nat := min 30000 (s.f F.HARV_CFG_vb_target_mv)

/-- The voltage in mV at which a store is full (R49). -/
def storeTarget (s : State) : Store → Nat
  | .vq => 12000
  | .vb => vbTarget s

/-- VOC_SAMPLE (R48): Voc is measured, HIN is regulated to k × Voc until the next sample, which falls a period later; the
harvester samples while it charges (R49).  `HARV_V2` shows Voc from its next update (R71). -/
def vocSample (mv : BitVec 16) : Act := whenA (fun s => s.hid.pwr.aon = .running ∧ s.hid.pwr.charging.isSome) fun s =>
  pwrA (fun p => { p with voc := mv.toNat, hinSet := harvK s * (mv.toNat : Rat), vocWait := vocPeriod s }) s

/-- The harvester charges `st`, or idles (R49). -/
def chargeA (st : Option Store) : Act :=
  seq [pwrA fun p => { p with charging := st }, setF F.HARV_STAT_harv_active (b2n st.isSome)]

/-- The store that R49 has the harvester charge: VQ until it is full, then VB where it may charge (R71); none with both full. -/
def chargeNext (s : State) : Option Store :=
  if !s.on F.HARV_STAT_vq_full then some .vq
  else if s.on F.HARV_CFG_chg_en ∧ !s.on F.HARV_STAT_vb_full then some .vb else none

/-- The field of `HARV_STAT` that says that a store is full. -/
def fullFld : Store → Fld
  | .vq => F.HARV_STAT_vq_full
  | .vb => F.HARV_STAT_vb_full

/-- STORE_FULL (R49): a store measured at `mv` has reached its target, and the harvester goes on in its order. -/
def storeFull (st : Store) (mv : BitVec 16) : Act :=
  whenA (fun s => s.hid.pwr.aon = .running ∧ storeTarget s st ≤ mv.toNat)
    (seq [setB (fullFld st), withS fun s => chargeA (chargeNext s)])

/-- HARVESTER_CHARGE_RESUME (R49): a store is below its target; VQ is topped up before VB, and charging resumes with a Voc
sample of `voc` mV. -/
def chargeResume (st : Store) (voc : BitVec 16) : Act := whenA (fun s => s.hid.pwr.aon = .running)
  (seq [clrB (fullFld st), withS fun s => chargeA (chargeNext s), vocSample voc])

/-- A write of `HARV_CFG` (R71): HIN is regulated with the new k (R48); where `chg_en` changes, the harvester takes up or gives
up VB. -/
def harvCfgWrite (v : Word) : Act := fun s =>
  let chg := v.getLsbD 8
  seq [setW R.HARV_CFG (v &&& 0xFFFFFD1F#32),
    withS (fun t => pwrA fun p => { p with hinSet := harvK t * (p.voc : Rat) }),
    only (s.on F.HARV_CFG_chg_en ≠ chg) (whenA (fun t => t.hid.pwr.aon = .running) (withS fun t => chargeA (chargeNext t)))] s

/-- AON_START (R51, R53, R71): the HARV registers start from reset, PGOOD deasserted, `chg_en` from OTP; VSUP is present where
it stands above its band at that power-up (R45, R23).  A path that draws from neither source reads as one on VB: DESIGN CHOICE,
log entry 92. -/
def aonStart (vsup vb : BitVec 16) : Act := whenA (fun s => s.hid.pwr.aon = .stopped) fun s =>
  let present := decide (9000 ≤ vsup.toNat)
  seq [fun _ => [.regsKeep (fun k => !inHarv k || inRet k)],
    pwrA (fun p => { p with aon := .starting, coldStart := false, vsup := present, path := pathOf present vb.toNat }),
    setF F.HARV_CFG_chg_en (b2n s.hid.pwr.chgDefault),
    setF F.HARV_STAT_src_vb (b2n (!present)), chargeA (some .vq)] s

/-- HARVEST_ENTRY_DELAY_EXPIRY (R51). -/
def harvestEntryDelay : Act := whenA (fun s => s.hid.pwr.aon = .starting)
  (pwrA fun p => { p with aon := .running, st := .harvest })

/-- HARVEST_HOLD_ENTER (R51, R52): in HARVEST the Drone and the harvester control stop, and PGOOD is held low. -/
def holdEnter : Act := whenA (fun s => s.hid.pwr.st = .harvest ∧ s.hid.pwr.aon = .running)
  (seq [pwrA (fun p => { p with aon := .hold, charging := none }),
    setB F.HARV_STAT_hold_seen, clrB F.HARV_STAT_harv_active, clrB F.HARV_STAT_pgood, droneUnpowered])

/-- HARVEST_HOLD_LEAVE (R51). -/
def holdLeave : Act := whenA (fun s => s.hid.pwr.st = .harvest ∧ s.hid.pwr.aon = .hold)
  (seq [pwrA (fun p => { p with aon := .running }), chargeA (some .vq)])

/-- The always-on domain stops (R51): OFF, with the retention RAM lost and nothing powered. -/
def goOff : Act :=
  seq [droneUnpowered, fun _ => [.regsKeep (fun _ => false)],
    pwrA (fun p => { p with st := .off, aon := .stopped, trans := .none, held := false, charging := none, dumpOpen := false,
                              voc := 0, hinSet := 0, vocWait := 0 })]

/-- AON_STOP (R51): applies in HARVEST. -/
def aonStop : Act := whenA (fun s => s.hid.pwr.st = .harvest ∨ s.hid.pwr.aon = .starting) goOff

/-- PGOOD_ASSERT (R52). -/
def pgoodAssert : Act := whenA (fun s => s.hid.pwr.aon = .running ∧ !s.on F.HARV_STAT_pgood)
  (seq [setB F.HARV_STAT_pgood, setB F.HARV_EVENT_pgood_rise])

/-- The PGOOD pin (R52): undriven with the always-on domain stopped, low while PGOOD is deasserted and in hold, released else. -/
def pgoodPin (s : State) : Option Bool :=
  if s.hid.pwr.aon = .stopped then none else some (s.hid.pwr.aon = .running && s.on F.HARV_STAT_pgood)

/-- The level of DDRRESETN (R485): low until V5 and VDDQ are in range, which they come to be during the transition to FULL. -/
def ddrResetPin (s : State) : Option Bool :=
  if s.hid.pwr.trans = .toFull then none else some (s.hid.pwr.st = .full && s.hid.pwr.vddq)

/-- PGOOD_DEASSERT (R52). -/
def pgoodDeassert : Act := whenA (fun s => s.on F.HARV_STAT_pgood)
  (seq [clrB F.HARV_STAT_pgood, setB F.HARV_EVENT_pgood_fall])

/-- The store energy of R62 as `HARV_E_STORE` takes it; none where the spec states no value: in battery mode, and where the
energy is negative or beyond 32 bits. -/
def storeEnergyWord (s : State) (vb : Nat) : Option Word :=
  let e := roundHalfEven (storeEnergy s vb)
  if s.on F.HARV_STORE_CFG_mode ∨ e < 0 ∨ 2 ^ 32 ≤ e then none else some (BitVec.ofInt 32 e)

/-- HARV_MEASURE_UPDATE (R71): the three registers, with the last Voc among them, and `HARV_E_STORE` change together; where the
spec states no store energy it takes a free value (DESIGN CHOICE, log entry 26).  With VSUP absent the power path follows VB
(R44; DEDUCED, log entry 68). -/
def measureUpdate (vb vsup hin vq v5 : BitVec 16) : Act := whenA (fun s => s.hid.pwr.aon = .running) (seq [
  setW R.HARV_V0 (vb ++ vsup), setW R.HARV_V1 (hin ++ vq), withS (fun s => setW R.HARV_V2 (BitVec.ofNat 16 s.hid.pwr.voc ++ v5)),
  withS fun s =>
    match storeEnergyWord s vb.toNat with
    | some e => setW R.HARV_E_STORE e
    | none => seq [setW R.HARV_E_STORE (Config.freeStoreEnergy s.fresh), freshA],
  withS fun s => only (!s.hid.pwr.vsup) (pathTake (pathOf false vb.toNat))])

/-! ### Bursts (R62–R64) -/

/-- AUXEN_BURST_START (R64): the whole word is written, then `start` is checked in the order of R62.  DESIGN CHOICE, log entry
93. -/
def auxBurst (v : Word) : Act :=
  seq [setF F.HARV_AUX_CMD_dur_ms (v.toNat % 512),
    only (v.toNat / 2 ^ 16 % 2 = 1) (withS fun s =>
      let dur := s.f F.HARV_AUX_CMD_dur_ms
      let code := if burstBlocked s then 3 else if dur = 0 ∨ 500 < dur then 6 else burstCode R.HARV_E_AUX s
      if code = 0 then seq [burstStart 2, pwrA fun p => { p with auxen := true }] else burstRefuse 2 code)]

/-- An AUXEN burst is in progress (R64). -/
def auxRunning (s : State) : Bool := s.on F.HARV_BURST_STAT_busy ∧ s.f F.HARV_BURST_STAT_type = 2

/-- AUXEN_BURST_VSUP_END (R64). -/
def auxVsupEnd : Act := whenA auxRunning (burstEnd 0)

/-- AUXEN_BURST_TIMEOUT (R64): at the end of `dur_ms`, with VSUP still absent. -/
def auxTimeout : Act := whenA (fun s => auxRunning s ∧ !s.hid.pwr.vsup) (burstEnd 12)

/-! ### Power commands (R57, R58) -/

/-- A mode that the power state allows (R117). -/
def modeAllowed (full : Bool) (m : Nat) : Bool :=
  if full then m ≠ DORMANT else m ≠ FOLLOW ∧ m ≠ FORM ∧ m ≠ RIDE

/-- R57: LEAN to FULL, FULL to LEAN and HARVEST may be commanded; FULL to HARVEST ends at the mode, which FULL never allows. -/
def pwrPath (now want : Nat) : Bool := (now = 2 ∧ want = 3) ∨ (now = 3 ∧ want = 2) ∨ ((now = 2 ∨ now = 3) ∧ want = 1)

/-- The checks of R58 in their order: the code, and whether the request goes on. -/
def pwrCheck (want : Nat) (s : State) : Nat × Bool :=
  let now := s.f F.SYS_PWR_STAT_state
  if s.hid.pwr.trans ≠ .none ∨ s.on F.SYS_MODE_STAT_busy ∨ s.on F.HARV_BURST_STAT_busy then (3, false)
  else if want = now then (0, false)
  else if !pwrPath now want then (4, false)
  else if (want = 1 ∧ (now = 3 ∨ s.mode ≠ DORMANT)) ∨ (1 < want ∧ !modeAllowed (want = 3) s.mode) then (5, false)
  else (0, true)

/-- A power command with its check: `go` where it goes on; a write of the firmware port acts as a host's.  DESIGN CHOICE, log
entry 93. -/
def pwrCmd (want : Nat) (go : Act) : Act := whenA (fun s => s.up) fun s =>
  let c := pwrCheck want s
  if c.2 then go s else setF F.SYS_PWR_STAT_result c.1 s

/-- PWR_CMD_OFF (R58, R70): never a transition. -/
def pwrCmdOff : Act := pwrCmd 0 nop

/-- PWR_CMD_HARVEST (R57, R65). -/
def pwrCmdHarvest (dumpOk : Bool) : Act := pwrCmd 1 (seq [setF F.SYS_PWR_STAT_result 0, depart 3 dumpOk])

/-- PWR_CMD_LEAN (R57, R59): the pins go low at once (R55), the recorder finishes its burst and stops; LPDDR4X stops when its
bursts end. -/
def pwrCmdLean : Act := pwrCmd 2 (seq [setF F.SYS_PWR_STAT_result 0, setB F.SYS_PWR_STAT_busy,
  pwrA (fun p => { p with trans := .fullToLean }), recStop])

/-- PWR_CMD_FULL (R57, R62): on the VSUP source no admission is asked (R57).  A refusal by R58 is none of a burst, so it leaves
`HARV_BURST_STAT` as it is: DEDUCED, log entry 71. -/
def pwrCmdFull : Act := pwrCmd 3 fun s =>
  let code := if s.on F.SYS_ISLAND_STAT_busy then 3 else if s.on F.HARV_STAT_src_vb then burstCode R.HARV_E_FULL s else 0
  if code = 0 then
    seq [setF F.SYS_PWR_STAT_result 0, setB F.SYS_PWR_STAT_busy, burstStart 1,
      pwrA fun p => { p with trans := .toFull, vddq := true, vddqHigh := s.on F.HARV_REG_CFG_vddq_sel }] s
  else seq [setF F.SYS_PWR_STAT_result code, burstRefuse 1 code] s

/-- A commanded transition ends in the power state of code `c` (R70). -/
def pwrArrive (st : PState) (c : Nat) : Act :=
  seq [pwrA (fun p => { p with trans := .none, st := st }), setF F.SYS_PWR_STAT_state c,
    clrB F.SYS_PWR_STAT_busy, setB F.SYS_PWR_STAT_done]

/-- FULL_ENTRY_COMPLETE (R57, R446). -/
def fullEntry (trained : Bool) (size : BitVec 2) : Act := whenA (fun s => s.hid.pwr.trans = .toFull)
  (seq [burstEnd 0, pwrArrive .full 3, memTrain trained size])

/-- FULL_TO_LEAN_COMPLETE (R59): the recorder stops, VDDQ turns off and LPDDR4X loses its contents; every entry to LEAN clears the
`done` bits of the calibrations (R153). -/
def fullToLean : Act := whenA (fun s => s.hid.pwr.trans = .fullToLean)
  (seq [memOff, fingSourceOff, setF (F.CONV_CAL_STAT_done 0) 0, setF (F.CONV_CAL_STAT_done 1) 0, pwrA (fun p => { p with vddq := false }), pwrArrive .lean 2])

/-! ### Entry to LEAN (R57, R68) -/

/-- The start from HARVEST (R57): the Core and South dies stay in reset until VDDA, VGT and VIO33 are up (R482). -/
def startLean : Act := seq [coreReset, pwrA fun p => { p with st := .lean, trans := .toLean, dumpOnly := false, held := true }]

/-- NRST_RISE (R57): accepted with VSUP present, or with PGOOD asserted; otherwise code 2.  In HARVEST hold, where the harvester
control has no power, an edge does nothing and records nothing: DESIGN CHOICE, log entry 69. -/
def nrstRise : Act := fun s =>
  seq [pwrA (fun p => { p with nrst := true }),
    only (s.hid.pwr.st = .harvest ∧ s.hid.pwr.aon = .running ∧ s.hid.pwr.trans = .none)
      (if !s.hid.pwr.vsup ∧ !s.on F.HARV_STAT_pgood then
        seq [setF F.HARV_BURST_STAT_last_code 2]
      else startLean)] s

/-- The retention check of R68; what an earlier check left stands.  DESIGN CHOICE, log entry 94. -/
def retentionCheck : Act := fun s =>
  if s.rd (R.HARV_RET 0) = retMagic ∧ s.rd (R.HARV_RET 127) = crc32c (retBytes s 0x1FC) then
    seq [setB F.HARV_STAT_ret_valid] s
  else seq [setB F.HARV_STAT_dump_incomplete,
    setF F.HARV_STAT_dump_cause (if s.hid.pwr.dumpOpen then 1 else 2)] s

/-- LEAN_ENTRY_COMPLETE (R57, R118): DORMANT, force 0, the reset island enables since the Core die left reset; HOST is clocked
from REFCLK where that is present (R438). -/
def leanEntry : Act := whenA (fun s => s.hid.pwr.trans = .toLean)
  (seq [coreRelease, pwrA (fun p => { p with trans := .none }), setF F.SYS_PWR_STAT_state 2, withS (fun s => hidA fun h => { h with host := { h.host with refclk := some s.fresh } }), freshA,
    retentionCheck, droneEval])

/-- HARVEST_ENTRY_COMPLETE (R63, R51, R118): in HARVEST, in hold, or OFF, as the stores stand at the departure. -/
def harvestEntry (mv : BitVec 16) : Act := fun s =>
  if !departing s then []
  else seq [
    only s.hid.pwr.aborted (seq [setB F.HARV_EVENT_burst_abort, bump R.HARV_ABORT_CNT]),
    bootPowerLoss, coreReset,
    pwrA (fun p => { p with trans := .none, st := .harvest, held := false, vddq := false, dumpOnly := false, byNrst := false, aborted := false }),
    droneHarvestEntry,
    if mv.toNat < 2700 then goOff
    else if mv.toNat < 4500 then holdEnter
    else only (s.hid.pwr.byNrst ∧ s.hid.pwr.nrst) nrstRise] s

/-! ### Islands (R60, R61) -/

/-- Island bits that may be written (R70): all but HOST and FAB. -/
def islandWritable : Word := 0x07FFD7FF#32

/-- The code of R60 for a write of `v`. -/
def islandCheck (p : Port) (v : Word) (s : State) : Nat :=
  let new := (v &&& islandWritable) ||| 0x2800#32
  let rise := new &&& ~~~ s.rd R.SYS_ISLAND_EN
  if p = .fw then 7
  else if s.on F.SYS_ISLAND_STAT_busy then 3
  else if (new.getLsbD 19 ∧ !new.getLsbD 21) ∨ (new.getLsbD 24 ∧ !new.getLsbD 26) then 8
  else if (rise &&& 0x3E0000#32 ≠ 0#32 ∧ !s.on (F.SYS_SEAM_STAT_up 0)) ∨
    (rise &&& 0x7C00000#32 ≠ 0#32 ∧ !s.on (F.SYS_SEAM_STAT_up 1)) then 9
  else 0

/-- ISLAND_EN_WRITE (R60, R34): applied whole or refused whole; what each disabled block does at once follows R22 and its
chapter. -/
def islandWrite (p : Port) (v : Word) : Act := whenA (fun s => s.up) fun s =>
  let c := islandCheck p v s
  let new := (v &&& islandWritable) ||| 0x2800#32
  let old := s.rd R.SYS_ISLAND_EN
  if c ≠ 0 then setF F.SYS_ISLAND_STAT_result c s
  else seq [setF F.SYS_ISLAND_STAT_result 0, setB F.SYS_ISLAND_STAT_busy,
    islandsLeave (old &&& ~~~ new), setW R.SYS_ISLAND_EN new, islandsDown (old &&& ~~~ new), islandsUp (new &&& ~~~ old)] s

/-- ISLAND_CHANGE_DONE (R61): the atomic units in flight have finished. -/
def islandDone : Act := whenA (fun s => s.on F.SYS_ISLAND_STAT_busy)
  (seq [clrB F.SYS_ISLAND_STAT_busy, islandsStopped])

/-! ### Loss of energy, and NRST (R56, R57, R63, R65) -/

/-- A loss of energy, or NRST low, takes the device to HARVEST (R56, R57): `code` ends what it overtakes, a departure that a
command began included, and the course of R63 and R65 is taken from its start.  DEDUCED, log entry 72.  A warning commits a start
from HARVEST to that course as well (R65); NRST low and a store abort cancel one.  An update is abandoned (R467); a block that a
store abort cuts off ends with its own code (R473). -/
def fall (code cause : Nat) (dumpOk : Bool) : Act := fun s =>
  if s.hid.pwr.trans = .toLean ∧ cause ≠ 1 then cancelStart s
  else if s.hid.pwr.trans ≠ .toLean ∧ !s.up then []
  else seq [overtake code, depart cause dumpOk,
    pwrA (fun p => { p with byNrst := p.byNrst || cause == 4, aborted := p.aborted || cause == 2 }),
    only (cause ≠ 2 ∨ s.hid.boot.work.isNone) updAbandon] s

/-- NRST_LOW (R57).  DEDUCED, log entry 38. -/
def nrstLow (dumpOk : Bool) : Act := seq [pwrA fun p => { p with nrst := false }, fall 11 4 dumpOk]

/-- STORE_ABORT (R63): on the VB source in LEAN or FULL; AUXEN opens with the pins. -/
def storeAbort (dumpOk : Bool) : Act := whenA (fun s => s.on F.HARV_STAT_src_vb) (fall 10 2 dumpOk)

/-- VSUP_FAIL_WARNING (R65): commits the device to HARVEST. -/
def vsupWarning (dumpOk : Bool) : Act := whenA (fun s => s.up ∨ s.hid.pwr.trans = .toLean) (seq [setB F.HARV_EVENT_vsup_warn, fall 10 1 dumpOk])

/-- VDDQ_SEL_WRITE (R71): taken in LEAN; in FULL discarded with an access error. -/
def vddqWrite (p : Port) (v : Word) : Act := fun s =>
  if s.up ∧ s.hid.pwr.st = .lean then setF F.HARV_REG_CFG_vddq_sel (v.toNat % 2) s
  else if s.up then accErr p errRefused R.HARV_REG_CFG s else []

/-! ### The commands -/

def execHinColdStart (s : State) := finish hinColdStart s
def execVsupPresent (s : State) := finish vsupPresent s
def execVsupAbsent (vb : BitVec 16) (s : State) := finish (vsupAbsent vb) s
def execVocSample (mv : BitVec 16) (s : State) := finish (vocSample mv) s
def execStoreFull (st : Store) (mv : BitVec 16) (s : State) := finish (storeFull st mv) s
def execHarvesterChargeResume (st : Store) (mv : BitVec 16) (s : State) := finish (chargeResume st mv) s
def execAonStart (vsup vb : BitVec 16) (s : State) := finish (aonStart vsup vb) s
def execHarvestEntryDelayExpiry (s : State) := finish harvestEntryDelay s
def execHarvestHoldEnter (s : State) := finish holdEnter s
def execHarvestHoldLeave (s : State) := finish holdLeave s
def execAonStop (s : State) := finish aonStop s
def execPgoodAssert (s : State) := finish pgoodAssert s
def execPgoodDeassert (s : State) := finish pgoodDeassert s
def execNrstLow (dumpOk : Bool) (s : State) := finish (nrstLow dumpOk) s
def execNrstRise (s : State) := finish nrstRise s
def execPwrCmdOff (p : Port) (s : State) := finish (portGate p R.SYS_PWR_CMD pwrCmdOff) s
def execPwrCmdHarvest (p : Port) (dumpOk : Bool) (s : State) := finish (portGate p R.SYS_PWR_CMD (pwrCmdHarvest dumpOk)) s
def execPwrCmdLean (p : Port) (s : State) := finish (portGate p R.SYS_PWR_CMD pwrCmdLean) s
def execPwrCmdFull (p : Port) (s : State) := finish (portGate p R.SYS_PWR_CMD pwrCmdFull) s
def execLeanEntryComplete (s : State) := finish leanEntry s
def execFullEntryComplete (trained : Bool) (size : BitVec 2) (s : State) := finish (fullEntry trained size) s
def execFullToLeanComplete (s : State) := finish fullToLean s
def execHarvestEntryComplete (mv : BitVec 16) (s : State) := finish (harvestEntry mv) s
def execIslandEnWrite (p : Port) (v : Word) (s : State) := finish (portGate p R.SYS_ISLAND_EN (islandWrite p v)) s
def execIslandChangeDone (s : State) := finish islandDone s
def execAuxenBurstStart (p : Port) (v : Word) (s : State) := finish (portGate p R.HARV_AUX_CMD (auxBurst v)) s
def execAuxenBurstVsupEnd (s : State) := finish auxVsupEnd s
def execAuxenBurstTimeout (s : State) := finish auxTimeout s
def execStoreAbort (dumpOk : Bool) (s : State) := finish (storeAbort dumpOk) s
def execVsupFailWarning (dumpOk : Bool) (s : State) := finish (vsupWarning dumpOk) s
def execHarvMeasureUpdate (vb vsup hin vq v5 : BitVec 16) (s : State) := finish (measureUpdate vb vsup hin vq v5) s
def execVddqSelWrite (p : Port) (v : Word) (s : State) := finish (portGate p R.HARV_REG_CFG (vddqWrite p v)) s

end Sys2Proof.Machine
end

