-- ==== Sys2Proof/Machine/Mirror.lean ====
section
/-!
DEFINITION. The records that a Leader mirrors to its Shadow: their contents and their application (R405, R406).  A record is
a list of values: codes of states, registers as numbers, flags as 0 and 1.
-/

namespace Sys2Proof.Machine

/-- A code, a number and a flag as a value. -/
def vI (x : Int) : Rat := x
def vN (x : Nat) : Rat := x
def vB (x : Bool) : Rat := if x then 1 else 0

/-- The length of a record's data of kinds 2 to 5: a frame has 1 to 255 payload blocks of 8 bytes, the header among them (R404).
DESIGN CHOICE, log entry 31. -/
def mirLen (kind : Nat) : Nat := Config.freeMirLen kind % 2033

/-- Those bytes. -/
def mirBytes (kind : Nat) (data : List Rat) : List Byte := (List.range (mirLen kind)).map (Config.freeMirByte kind data)

/-! ### Kind 1: an engine -/

/-- States that a stage uses (R245). -/
def stagePu48 (t : Nat) (two : Bool) : List Nat :=
  let n := match t with
    | 4 | 10 | 13 => 1
    | 5 | 6 | 7 => 2
    | _ => 0
  List.range (if two then 2 * n else n)

/-- The states in use of engine `e`, as stage and state. -/
def mirStates (s : State) (e : Nat) : List (Nat × Nat) :=
  (List.range (stageCount s e)).flatMap fun g => (stagePu48 (stgType s e g) (stgTwo s e g)).map fun i => (g, i)

/-- The lanes that an operand of the same or an earlier stage reads, from the step before (R242); the add-in of a PR stage of two
channels reads the lane above its operand's too (R245). -/
def mirLanes (s : State) (e : Nat) : List (Nat × Nat) :=
  let all := (List.range (stageCount s e)).flatMap fun g => (List.range 4).flatMap fun i =>
    let w := opWord s e g i
    let x := (w % 4096 / 4, w % 4)
    if w / 4096 ≠ 1 ∨ w % 4096 / 4 < g then []
    else if i = 3 ∧ stgType s e g = 5 ∧ stgTwo s e g ∧ w % 4 < 3 then [x, (x.1, x.2 + 1)] else [x]
  all.foldl (fun a x => if a.contains x then a else a ++ [x]) []

/-- Engine `e`'s record. -/
def mirEngine (s : State) (e : Nat) : MirVals :=
  (mirStates s e).map (fun x => vI (s.pu48 (R.BORE_STG_X e x.1 x.2)))
  ++ (mirLanes s e).map (fun x => vI (s.pu (R.BORE_STG_Y e x.1 x.2)))

/-- Its application. -/
def putEngine (e : Nat) (l : MirVals) : Act := fun s =>
  let xs := mirStates s e
  let ys := mirLanes s e
  seq [
    forEach ((List.range xs.length).zip xs) fun x => setPu48 (R.BORE_STG_X e x.2.1 x.2.2) (mvI l x.1),
    forEach ((List.range ys.length).zip ys) fun y => setPu (R.BORE_STG_Y e y.2.1 y.2.2) (mvI l (xs.length + y.1))] s

/-! ### Kind 2: the grid step -/

/-- The grid record: SOGI states, f, ROCOF filter, Pe and Qe, forming machine, set-point ramps, ride-through timers and
regions. -/
def mirGrid (s : State) : MirVals :=
  let g := s.hid.grid
  let r := s.hid.ride
  (List.range 6).map (fun i => vI (g.sogi.getD i 0))
  ++ [vI g.f, vI g.rocof, vI g.pe, vI g.qe, vN g.thv.toNat, vI g.w, vI g.e, vI g.pm, vB g.lim, vN g.retN, vB g.pmRet,
      vI g.iu.1, vI g.iu.2, vI g.fmLast.1, vI g.fmLast.2, vI g.p, vI g.qr, vI g.idn, vI g.iqn, vB g.ret,
      vN r.exc, vI r.vpre, vI r.idHold, vI r.iqPre, vN r.back, vN (s.rd R.RIDE_REGION).toNat]
  ++ r.timer.flatMap fun x => [vN x.1, vN x.2]

/-- The timers at the end of a grid record. -/
def timersOf : MirVals → Tab Nat
  | k :: v :: l => (timersOf l).put 0 k.floor.toNat v.floor.toNat
  | _ => []

/-- Its application. -/
def putGrid (l : MirVals) : Act :=
  let v := mvI l
  seq [
    hidA fun h => { h with
      grid := { h.grid with
        sogi := (List.range 6).map v, f := v 6, rocof := v 7, pe := v 8, qe := v 9, thv := BitVec.ofInt 32 (v 10), w := v 11,
        e := v 12, pm := v 13, lim := mvB l 14, retN := mvN l 15, pmRet := mvB l 16, iu := (v 17, v 18), fmLast := (v 19, v 20),
        p := v 21, qr := v 22, idn := v 23, iqn := v 24, ret := mvB l 25 },
      ride := { h.ride with
        exc := mvN l 26, vpre := v 27, idHold := v 28, iqPre := v 29, back := mvN l 30, timer := timersOf (l.drop 32) } },
    setF F.RIDE_REGION_region (mvN l 31)]

/-! ### Kind 3: the MPPT ports -/

/-- Values of one port in its record. -/
def mirPort (s : State) (p : Nat) : MirVals :=
  let x := portSt s p
  let w : SweepSt := x.sweep.getD { pPre := 0, vPre := 0 }
  let b := w.best.getD (0, 0)
  [vI x.vref, vI x.ipk, vN x.n, x.sumP, x.sumV, vI x.pLast, vI x.vLast, vN (s.f (F.MPPT_P_STAT_dir p)),
   vB x.sweep.isSome, vI w.pPre, vI w.vPre, vN w.n, vN w.t, w.sum, vN w.cnt, vB w.best.isSome, b.1, b.2]

/-- Number of values of a port. -/
def portVals : Nat := 18

/-- The record of the ports: each port's values, then the ports left in the sweep round. -/
def mirMppt (s : State) : MirVals :=
  ((List.range 8).flatMap (mirPort s)) ++ s.hid.mppt.round.map vN

/-- Its application to port `p`. -/
def putPort (p : Nat) (l : MirVals) : Act :=
  let v := mvI l
  seq [
    portA p fun x => { x with
      vref := v 0, ipk := v 1, n := mvN l 2, sumP := l.getD 3 0, sumV := l.getD 4 0, pLast := v 5, vLast := v 6,
      sweep := if mvB l 8 then some { pPre := v 9, vPre := v 10, n := mvN l 11, t := mvN l 12, sum := l.getD 13 0, cnt := mvN l 14,
                                      best := if mvB l 15 then some (l.getD 16 0, l.getD 17 0) else none } else none },
    setF (F.MPPT_P_STAT_dir p) (mvN l 7)]

/-- Its application. -/
def putMppt (l : MirVals) : Act :=
  seq [forEach (List.range 8) (fun p => putPort p ((l.drop (portVals * p)).take portVals)),
    mpptA fun m => { m with round := (l.drop (portVals * 8)).map fun x => x.floor.toNat }]

/-! ### Kind 4: the chip boundary -/

/-- Code index, chip phase and the tone angles. -/
def mirChip (s : State) : MirVals :=
  [vN (s.f F.PROBE_CODE_index), vN (s.f F.PROBE_CHIP_phase), vN s.hid.probe.th1.toNat, vN s.hid.probe.th2.toNat]

/-- Its application. -/
def putChip (l : MirVals) : Act :=
  seq [setF F.PROBE_CODE_index (mvN l 0), setF F.PROBE_CHIP_phase (mvN l 1),
    probeA fun x => { x with th1 := BitVec.ofInt 32 (mvI l 2), th2 := BitVec.ofInt 32 (mvI l 3) }, withS zbaseShow]

/-! ### Kind 5: a metering point (its application: `putMeter`) -/

/-- Accumulators, hidden fractions and wrap counts. -/
def mirMeter (s : State) (i : Nat) : MirVals :=
  (List.range 8).map (fun k => vN (s.rd64 (R.METER_PT_ACC i k)).toNat)
  ++ (List.range 8).map (fun k => vN ((metSt s i).frac.get 0 k)) ++ [vN (s.rd64 (R.METER_PT_WRAP i)).toNat]

/-! ### Records -/

/-- The record of a producer (R405). -/
def mirGet (kind ix : Nat) (s : State) : MirVals :=
  match kind with
  | 1 => mirEngine s ix
  | 2 => mirGrid s
  | 3 => mirMppt s
  | 4 => mirChip s
  | 5 => mirMeter s (ix % 2)
  | _ => []

/-- A record replaces the matching states. -/
def mirPut (kind ix : Nat) (l : MirVals) : Act :=
  match kind with
  | 1 => putEngine ix l
  | 2 => putGrid l
  | 3 => putMppt l
  | 4 => putChip l
  | 5 => putMeter (ix % 2) l
  | _ => nop

/-- The records waiting for a step that `mine` names are applied (R406). -/
def mirApply (mine : Nat → Nat → Bool) : Act := mirTake mirPut mine

end Sys2Proof.Machine
end

