-- ==== Sys2Proof/Machine/Fing.lean ====
section
/-!
DEFINITION. The Fingering loader: commands, applying and removing a structure, commit, abandonment (spec/04).
-/

namespace Sys2Proof.Machine

/-! ### What a structure needs and declares -/

/-- A stage operand names a grid quantity. -/
def usesGrid (r : Rec) : Bool := r.typ = tEngStage ∧ [4, 6, 8, 10].any fun i => r.w16 i / 4096 = 3

/-- Bell dies that a target names (R98): 0 North, 1 South. -/
def namesDie (d : Nat) (r : Rec) : Bool := r.tgt / 2 ^ 26 % 4 = d + 1

/-- The islands of R111 for a structure, as bits of `SYS_ISLAND_EN`. -/
def islandNeed (rs : List Rec) : Nat :=
  let any := fun (p : Rec → Bool) (m : Nat) => if rs.any p then m else 0
  maskOf ((recsOf tEngHead rs).map fun r => 1 + r.b 0)
  + any (fun r => r.typ = tCurve ∨ r.typ = tBehave ∨ usesGrid r) (2 ^ 9) + any (fun r => r.typ = tMeter) (2 ^ 10)
  + any (fun r => r.typ = tRecSignal) (2 ^ 12) + any (namesDie 0) (31 * 2 ^ 17) + any (namesDie 1) (31 * 2 ^ 22)

/-- `FING_FEAT` of a structure (R116). -/
def featWord (rs : List Rec) : Word :=
  let f := sysFunctions rs
  let heads := recsOf tEngHead rs
  let pts := recsOf tMeter rs
  let pair : Nat := match rs.find? (·.typ = tSystem) with | some r => r.b 4 | none => 0
  BitVec.ofNat 32 (maskOf (heads.map fun r => r.b 0) + 2 ^ 8 * maskOf ((recsOf tUnitMppt rs).map fun r => r.b 0)
    + 2 ^ 16 * maskOf (pts.map fun r => r.b 0) + 2 ^ 18 * b2n (pts.any fun r => r.b 1 = 1)
    + 2 ^ 19 * b2n (bit f 0) + 2 ^ 20 * b2n (bit f 1) + 2 ^ 21 * b2n (bit f 4) + 2 ^ 22 * b2n (bit f 3) + 2 ^ 23 * pair
    + 2 ^ 24 * b2n (heads.any fun h => timingOf rs h = 1) + 2 ^ 25 * b2n (heads.any fun h => timingOf rs h = 2))

/-- The mirror load, bytes per µs (R405): record bytes and 40 of each engine at its highest step rate and of the two records of
the grid step, whose lengths are free, at one in 5 µs; the part of kinds 4 and 5 is free.  DESIGN CHOICE, log entry 31. -/
def mirLoad (s : State) : Nat :=
  let eng := fun e => ((8 * (mirEngine s e).length + 40 : Nat) : Rat) * 800 / (engTmin s e).getD 0
  (clampInt 0 65535 (roundHalfEven (((programmed s).map eng).sum
    + ((mirLen 2 + mirLen 3 + 80 : Nat) : Rat) / 5 + max 0 Config.freeMirLoad))).toNat

/-! ### Removing a structure (R106) -/

/-- Offsets of the registers that hold structure alone; the spec does not list them.  DESIGN CHOICE, log entry 122. -/
def structBases : List Nat :=
  [R.FING_FEAT, R.FING_ROLLBACK, R.FING_HASH 0, R.TRIP_SRC_CFG 0 0, R.BORE_INFO 0, R.BORE_STG_CFG 0 0, R.BORE_STG_OPA 0 0,
   R.BORE_STG_OPB 0 0, R.BORE_STG_K 0 0 0, R.BORE_STG_X 0 0 0, R.BORE_STG_Y 0 0 0, R.REC_SLOT_CFG 0, R.PAIR_MIR_LOAD]

/-- The word at `off` belongs to a structural register, or to one that holds RWL fields. -/
def structWord (off : Nat) : Bool :=
  match regAt off with
  | some r => r.desc.rwl ≠ 0 ∨ structBases.contains r.desc.base
  | none => false

/-- Every structural and RWL register returns to reset (R106); what the removed structure ran stops, the enables that APPLY sets among
it.  DESIGN CHOICE, log entry 122. -/
def structReset : Act := seq [
  edgesStop (List.range 48),
  forEach (List.range 48) (fun n => seq [setF (F.GATE_CH_CFG_addr n) 0, setF (F.GATE_CH_CFG_bus n) 0, setF (F.GATE_CH_CFG_nprof n) 0, clrB (F.GATE_CH_CFG_boot n),
    clrB (F.GATE_CH_CFG_present n), setF (F.EDGE_CH_CTL_mode n) 0, setF (F.EDGE_CH_CTL_ACT_mode n) 0, podA n fun _ => {}]),
  forEach (List.range 32) (fun m => whenA (fun s => s.on (F.WIN_M_CFG_en m)) (monStop m)),
  forEach (List.range 16) (fun c => seq [clrB (F.CONV_C_CTL_en c), convHalt c, convA c fun v => { v with trigs := 0 }]),
  forEach (List.range 12) (fun f => seq [clrB (F.CONV_F_CTL_en f), fineHalt f false]),
  forEach (List.range 4) (fun k => seq [clrB (F.GATE_LIG_CFG_en k), ligStop k, ligA k fun b => { b with writes := [] }]),
  forEach (List.range 8) (fun e => seq [setF (F.BORE_FIX_CFG_lat e) 0, setF (F.BORE_STAT_timing e) 0,
    boreA e (fun b => { b with trigs := [], last := [] }), boreIdle e]),
  forEach (List.range 8) (fun p => seq [portOff p, setF (F.MPPT_P_CFG_leg p) 0, setF (F.MPPT_P_CFG_mon p) 0]),
  setF F.MPPT_CTL_en 0, meterStopAll, setF F.METER_CTL_en 0,
  forEach [0, 1] (fun i => seq [clrB (F.METER_PT_CFG_form i), clrB (F.METER_PT_CFG_wiring i), metRestart i,
    clrB (F.METER_PT_STAT_neutral i), clrB (F.METER_PT_STAT_neutral_undet i),
    clrB (F.TRIPIN_CFG_en i), tripinEval i]),
  fun _ => [.regsKeep fun k => !structWord k],
  forEach (List.range 48) refreshEval]

/-! ### Writing a structure (R99, R106) -/

/-- Trip source of a ROUTE_TRIP record (R175). -/
def tripSrcOf (r : Rec) : Nat :=
  (match r.b 0 with | 0 => 0 | 1 => 32 | 2 => 64 | 3 => 112 | 4 => 113 | 5 => 120 | _ => 128) + (if r.b 0 = 3 then 0 else r.b 1)

def putPartner (r : Rec) : Act :=
  let kind := fun (a : Nat) => if r.b 2 = 1 then 3 else a
  seq [setF (F.EDGE_CH_CFG_pair (r.b 0)) (kind 1), setF (F.EDGE_CH_CFG_partner (r.b 0)) (r.b 1),
    setF (F.EDGE_CH_CFG_pair (r.b 1)) (kind 2), setF (F.EDGE_CH_CFG_partner (r.b 1)) (r.b 0)]

def putRouteTrig (r : Rec) : Act := fun s =>
  let c := r.b 0
  seq [setF (F.CONV_C_TRIG_kind c) (r.b 1), setF (F.CONV_C_TRIG_index c) (r.b 2), setF (F.CONV_C_TRIG_event c) (r.b 3),
    setF (F.CONV_C_TRIG_repeat c) (r.b 4), setB (F.CONV_C_CTL_en c),
    only (s.on (F.CONV_C_STAT_cal c)) (calAbandon (convDie c) 6)] s

def putRouteTrip (rs : List Rec) (r : Rec) : Act :=
  let i := tripSrcOf r
  let off := fun d => if r.b 2 = 0 then R.TRIP_SRC_OFF d i else if r.b 2 = 1 then R.TRIP_SRC_ON d i else R.TRIP_SRC_REP d i
  seq [forEach [0, 1] (fun d => orW (off d) (BitVec.ofNat 32 (tripMask r / 2 ^ (24 * d) % 2 ^ 24))),
    only (r.b 0 ≤ 1) (setB (F.WIN_M_CFG_en (r.b 1))),
    only (r.b 0 = 4) (setB (F.TRIPIN_CFG_en (r.b 1))),
    only (r.b 0 = 5) (forEach ((recsOf tEngStage rs).filter fun g => g.b 0 = r.b 1 ∧ g.b 2 = 9)
      fun g => setB (F.BORE_STG_CFG_flag_en (g.b 0) (g.b 1)))]

def putUnitEdge (r : Rec) : Act :=
  let n := r.b 0
  seq [setF (F.EDGE_CH_CTL_mode n) (r.b 1), setF (F.EDGE_CH_CTL_ACT_mode n) (r.b 1), setF (F.EDGE_CH_CFG_commit_pt n) (r.b 2),
    setF (F.EDGE_CH_CFG_ref_eu n) (r.b 3), setF (F.EDGE_CH_CFG_minp_act n) (r.b 4), setF (F.EDGE_CH_CFG_refr_ok n) (r.b 5),
    setB (F.EDGE_CH_CFG_en n)]

def putUnitMon (r : Rec) : Act :=
  let m := r.b 0
  seq [setF (F.WIN_M_CFG_use m) (r.b 1), setF (F.WIN_M_CFG_ramp_eu m) (r.b 2), setF (F.WIN_M_FILT_n m) (r.b 3),
    setF (F.WIN_M_FILT_m m) (r.b 4), setB (F.WIN_M_CFG_en m),
    only (r.b 1 = 1) (forEach [0, 1] fun d => setF (F.TRIP_SRC_CFG_release d m) 2)]

def putUnitPod (r : Rec) : Act :=
  let n := r.b 0
  seq [setF (F.GATE_CH_CFG_present n) (r.b 1), setF (F.GATE_CH_CFG_boot n) (r.b 1 / 2), setF (F.GATE_CH_CFG_bus n) (r.b 2),
    setF (F.GATE_CH_CFG_addr n) (r.b 3), setF (F.GATE_CH_CFG_nprof n) (r.b 4 - 1)]

def putUnitMppt (r : Rec) : Act :=
  let p := r.b 0
  seq [setB (bitFld R.MPPT_CTL p), setF (F.MPPT_P_CFG_leg p) (r.b 1), setF (F.MPPT_P_CFG_mon p) (r.b 2)]

def putEngHead (rs : List Rec) (r : Rec) : Act :=
  let e := r.b 0
  seq [setF (F.BORE_INFO_stages e) (r.b 1), setF (F.BORE_INFO_timing e) (timingOf rs r), setF (F.BORE_STAT_timing e) (timingOf rs r),
    setF (F.BORE_TRIG_kind e) (r.b 3), setF (F.BORE_TRIG_index e) (r.b 4), setF (F.BORE_TRIG_evt e) (r.b 5),
    setW (R.BORE_FIX_PH e) (BitVec.ofNat 32 (r.w32 8))]

def putEngStage (r : Rec) : Act :=
  let e := r.b 0
  let g := r.b 1
  seq [setF (F.BORE_STG_CFG_type e g) (r.b 2), setF (F.BORE_STG_CFG_variant e g) (r.b 3),
    setW (R.BORE_STG_OPA e g) (BitVec.ofNat 32 (r.w32 4)), setW (R.BORE_STG_OPB e g) (BitVec.ofNat 32 (r.w32 8)),
    forEach (List.range 8) fun k => set64 (R.BORE_STG_K e g k) (BitVec.ofNat 64 (r.w64 (16 + 8 * k)))]

/-- Place of a grid-code record: i = 6q + 2r + s (R308). -/
def crvIx (r : Rec) : Nat := 6 * r.b 0 + 2 * r.b 1 + r.b 2

def putCurve (r : Rec) : Act :=
  let i := crvIx r
  seq [setB (F.RIDE_CRV_present i), setF (F.RIDE_CRV_points i) (r.b 3),
    forEach (List.range (r.b 3)) fun k => seq [set64 (R.RIDE_PT_TH i k) (BitVec.ofNat 64 (r.w64 (16 + 16 * k))),
      setW (R.RIDE_PT_US i k) (BitVec.ofNat 32 (r.w32 (24 + 16 * k)))]]

def putMeterPoint (r : Rec) : Act :=
  let i := r.b 0
  seq [setB (bitFld R.METER_CTL i), setF (F.METER_PT_CFG_form i) (r.b 1), setF (F.METER_PT_CFG_wiring i) (r.b 2),
    only (r.b 1 = 1) (forEach (List.range 6) fun j => setB (F.CONV_F_CTL_en (r.b (4 + j))))]

def putRecSignal (r : Rec) : Act :=
  setW (R.REC_SLOT_CFG (r.b 0)) (BitVec.ofNat 32 (2 ^ 31 + r.b 1 % 8 * 2 ^ 26 + r.w16 4 % 2 ^ 10 * 2 ^ 16 + r.w16 2))

/-- What a staged record writes. -/
def putRec (rs : List Rec) (r : Rec) : Act :=
  if r.typ = tPartner then putPartner r else if r.typ = tRouteTrig then putRouteTrig r
  else if r.typ = tRouteTrip then putRouteTrip rs r else if r.typ = tUnitEdge then putUnitEdge r
  else if r.typ = tUnitMon then putUnitMon r else if r.typ = tUnitPod then putUnitPod r
  else if r.typ = tUnitMppt then putUnitMppt r else if r.typ = tEngHead then putEngHead rs r
  else if r.typ = tEngStage then putEngStage r else if r.typ = tCurve then putCurve r
  else if r.typ = tBehave then setF (F.RIDE_CRV_behave (crvIx r)) (r.b 3) else if r.typ = tMeter then putMeterPoint r
  else if r.typ = tRecSignal then putRecSignal r else nop

/-- Default behaviours of R313: must-trip trips, may-ride ceases, must-ride continues. -/
def crvDefaults : Act := forEach (List.range 24) fun i =>
  setF (F.RIDE_CRV_behave i) (if i % 6 / 2 = 0 then 3 else if i % 6 / 2 = 1 then 1 else 0)

/-- What runs under the new structure starts: edge units, TRIPIN sources, buses and pods, the trip matrix. -/
def structStart : Act := seq [
  forEach (List.range 48) (fun n => whenA (fun s => s.on (F.EDGE_CH_CFG_en n) ∧ edgeOn s (n / 24)) (edgeStart n)),
  forEach (List.range 48) (fun n => whenA (fun s => podPresent s n) (seq [
    whenA (fun s => !s.on (F.GATE_LIG_CFG_en (n / 12))) (seq [setB (F.GATE_LIG_CFG_en (n / 12)),
      ligA (n / 12) fun b => { b with fvReq := true }]),
    podResync n])),
  forEach (List.range 8) (fun e => seq [infoUpdate e, latUpdate e]),
  forEach [0, 1] fun d => seq [tripinEval d, tripResolve d false]]

/-- The structure `rs` is written (R106, R385): the Drone discards its parameters. -/
def structPut (rs : List Rec) (hash : BitVec 512) (rb : Nat) : Act := seq [
  structReset, fingA (fun g => { g with recs := rs, need := islandNeed rs }),
  crvDefaults, forEach rs (putRec rs), structStart,
  setW R.FING_FEAT (featWord rs), setW R.FING_ROLLBACK (BitVec.ofNat 32 rb),
  forEach (List.range 16) (fun i => setW (R.FING_HASH i) (hash.extractLsb' (32 * i) 32)),
  withS fun s => setW R.PAIR_MIR_LOAD (BitVec.ofNat 32 (mirLoad s)),
  setF F.FING_STAT_force 1, droneDiscard]

/-- The structure in force is removed: force 0. -/
def structRemove : Act := seq [structReset, fingA (fun g => { g with recs := [], need := 0 }), setF F.FING_STAT_force 0,
  forEach [0, 1] (fun d => tripResolve d false), droneEval]

/-! ### Commands (R106, R109, R114) -/

/-- A command starts in loader state `st`. -/
def fingStart (st : Nat) : Act := seq [fingA fun g => { g with quit := none }, setB F.FING_STAT_busy, setF F.FING_STAT_loader st]

/-- A command ends with `code` in loader state `st`. -/
def fingEnd (st code : Nat) : Act := seq [clrB F.FING_STAT_busy, setF F.FING_STAT_loader st, setF F.FING_STAT_result code,
  if code = 0 then setB F.FING_EVENT_done else setB F.FING_EVENT_rejected]

/-- The checks of a command, in the order of their codes but for the state's: busy, op, mode, loader state and force.
DEDUCED, log entry 40. -/
def fingCheck (op : Nat) (s : State) : Nat :=
  let ld := s.f F.FING_STAT_loader
  if s.on F.FING_STAT_busy then 0x61
  else if op = 0 ∨ 4 < op then 0x64
  else if s.mode ≠ CONFIGURE then 0x60
  else if (op = 1 ∨ op = 4) ∧ ld ≠ 0 ∧ ld ≠ 3 then 0x64
  else if op = 2 ∧ ld ≠ 3 then 0x64
  else if op = 3 ∧ (ld ≠ 0 ∨ s.force ≠ 1) then 0x64
  else if op = 1 ∧ s.hid.boot.upd then 0x20
  else if op = 1 ∧ s.on F.FING_SRC_CFG_src ∧ !memReady s then 0x62
  else if op = 1 ∧ s.rd R.FING_SRC_ADDR &&& 15#32 ≠ 0#32 then 0x63
  else if op = 2 ∧ s.hid.fing.staged ≠ [] ∧ !((s.rd R.SYS_ISLAND_EN).toNat &&& islandNeed s.hid.fing.staged = islandNeed s.hid.fing.staged) then 0x67
  else 0

/-- Another port wrote `FING_CMD` in this FAB cycle (R109); a FAB cycle begins at every even tick (R492). -/
def fingRaced (p : Port) (s : State) : Bool :=
  match s.hid.fing.last with
  | some (t, q) => t = s.now.toNat / 2 ∧ q ≠ p
  | none => false

/-- A command with its check: a refusal has no other effect.  DEDUCED, log entry 40. -/
def fingCmd (p : Port) (op : Nat) (go : Act) : Act := whenA (fun s => s.up) fun s =>
  let c := if fingRaced p s then 0x61 else fingCheck op s
  seq [only (!fingRaced p s) (fingA fun g => { g with last := some (s.now.toNat / 2, p) }),
    if c = 0 then go else seq [setF F.FING_STAT_result c, setB F.FING_EVENT_rejected]] s

/-- The image as the source gives it (R104): as many bytes as its header says, or as the source has; from an address beyond its end
none, so that the header check rejects the image with 0x01.  DESIGN CHOICE, log entry 121. -/
def fingImage (s : State) : List Byte :=
  let a := (s.rd64 R.FING_SRC_ADDR).toNat
  let lp := s.on F.FING_SRC_CFG_src
  let size := if lp then memSize s else flashSize s
  let bytes := fun n => (List.range (min n (size - a))).map fun i => if lp then s.lpByte (a + i) else s.flByte (a + i)
  bytes (max 64 (min 4194304 (at32 (bytes 64) 8)))

/-- FING_LOAD: the source is read as it stands now (DESIGN CHOICE, log entry 98). -/
def fingLoad (p : Port) : Act := fingCmd p 1 fun s =>
  seq [fingStart 1, fingA fun g => { g with staged := [], img := fingImage s, flash := !s.on F.FING_SRC_CFG_src }] s

/-- Code of the first structural rule (R115): what the loader finds while it checks, the earlier ones while it loads. -/
def structCode : Nat := 0x30

/-- The running command goes on: it is not to be abandoned. -/
def fingGoes (ld : Nat) (s : State) : Bool :=
  s.on F.FING_STAT_busy ∧ s.f F.FING_STAT_loader = ld ∧ s.mode = CONFIGURE ∧ s.hid.fing.quit.isNone

/-- The end of a pass, or of the structural check, that found `j` (R113): staged, or rejected. -/
def loadEnd (img : List Byte) : Except Reject (List Rec) → Act
  | .ok rs => seq [fingA fun g => { g with img := [], staged := rs, stagedHash := imgDigest img, stagedRb := at32 img 0x10 },
      fingEnd 3 0]
  | .error r => seq [fingA fun g => { g with img := [] }, setF F.FING_REJECT_reason r.code, setF F.FING_REJECT_index r.ix,
      fingEnd 0 r.code]

/-- The image has passed all that the loader judges while it loads. -/
def passes : Except Reject (List Rec) → Bool
  | .ok _ => true
  | .error r => structCode ≤ r.code

/-- FING_LOAD_COMPLETE (R106, R113): the pass ends; an image that passes all that is judged with it is checked (`loader` 2)
against the structural rules; it is staged or rejected.  The row is one whole step, so that `loader` 2 stands within it alone.
DEDUCED, log entry 81. -/
def fingLoadDone : Act := whenA (fingGoes 1) fun s =>
  let img := s.hid.fing.img
  let j := judge img (keySlots s) s.hid.otp.fg
  seq [setW R.FING_LEN (BitVec.ofNat 32 (imgLen img)), setW R.FING_STAGED (BitVec.ofNat 32 j.staged),
    only (passes j.result) (setF F.FING_STAT_loader 2), loadEnd img j.result] s

/-- FING_APPLY. -/
def fingApply (p : Port) : Act := fingCmd p 2 (fingStart 4)

/-- FING_APPLY_COMPLETE; from the start of a departure the seam links take no apply traffic (R65). -/
def fingApplyDone : Act := whenA (fun s => fingGoes 4 s ∧ !s.hid.pwr.dumpOnly) fun s =>
  let g := s.hid.fing
  seq [structPut g.staged g.stagedHash g.stagedRb, fingA fun g => { g with staged := [] }, fingEnd 0 0] s

/-- FING_COMMIT. -/
def fingCommit (p : Port) : Act := fingCmd p 3 (fingStart 5)

/-- The SAFETY payload of the structure in force. -/
def safetyPay (s : State) : List Byte := ((s.hid.fing.recs.find? (·.typ = tSafety)).map (·.pay)).getD []

/-- FING_COMMIT_COMPLETE (R106, R385). -/
def fingCommitDone : Act := whenA (fingGoes 5) fun s =>
  safetyCommit (safetyPay s) (fun c => seq [
    only (c = 0) (seq [setF F.FING_STAT_force 2, setB F.FING_EVENT_committed]), fingEnd 0 c]) s

/-- FING_DISCARD: force ends as 'none', so that a structure with force 2 is removed too.  DEDUCED, log entry 41. -/
def fingDiscard (p : Port) : Act := fingCmd p 4 (seq [fingA fun g => { g with staged := [] },
  whenA (fun s => s.force ≠ 0) structRemove, fingEnd 0 0])

/-- FING_CMD_INVALID. -/
def fingInvalid (p : Port) (op : Nat) : Act := fingCmd p (if 1 ≤ op ∧ op ≤ 4 then 0 else op) nop

/-- The reason for abandoning the running command holds (R110): CONFIGURE was left, a link was lost, LPDDR4X became unavailable;
or the source read fails now. -/
def abandonHolds (why : FingAbort) (s : State) : Bool :=
  match s.hid.fing.quit with
  | some w => w = why
  | none => why = .source ∧ s.f F.FING_STAT_loader = 1

/-- FING_ABANDON (R110). -/
def fingAbandon (why : FingAbort) : Act := whenA (fun s => s.on F.FING_STAT_busy ∧ abandonHolds why s) fun s =>
  let ld := s.f F.FING_STAT_loader
  seq [
    only (ld = 1 ∨ ld = 2) (fingA fun g => { g with img := [], staged := [] }),
    only (ld = 4) (seq [fingA fun g => { g with staged := [] }, structRemove, droneDiscard]),
    fingA (fun g => { g with quit := none }), clrB F.FING_STAT_busy, setF F.FING_STAT_loader 0,
    setF F.FING_STAT_result (match why with | .left => 0x65 | .source => 0x63 | .link => 0x66),
    setB F.FING_EVENT_abandoned] s

/-! ### Locked registers (R112) -/

/-- RWL fields are locked: force 2, or APPLY runs. -/
def rwlLocked (s : State) : Bool := s.force = 2 ∨ (s.on F.FING_STAT_busy ∧ s.f F.FING_STAT_loader = 4)

/-- A discarded RWL write of port `p` at `off` is reported; with force 2 the cause is 0, also while APPLY runs (DESIGN CHOICE, log
entry 100). -/
def rwlReport (p : Port) (off : Nat) : Act := fun s => seq [
  setW R.FING_RWL_LAST (BitVec.ofNat 32 (2 ^ 31 * b2n (s.force ≠ 2) + 2 ^ 28 * portNo p + off % 2 ^ 26)),
  bump R.FING_RWL_CNT, setB F.FING_EVENT_rwl_refused] s

end Sys2Proof.Machine
end

