-- ==== Sys2Proof/Machine/Irq.lean ====
section
/-!
DEFINITION. The interrupt controller of the Chanter (R372, R373) and the vectors to the host (R441, R442).
-/

namespace Sys2Proof.Machine

/-! ### The Chanter's interrupt controller -/

/-- The count of a source or a vector in the word at `off` rises by one; at 255 it stays and `sat` (bit 8) is set (R21). -/
def countRise (off : Nat) : Act := fun s =>
  let w := s.rd off
  if w.toNat % 256 = 255 then [.reg off (w ||| 0x100#32)] else [.reg off (w + 1#32)]

/-- The source is enabled (R372). -/
def irqEn (s : State) (i : Nat) : Bool := (s.rd (R.CHNT_IRQ_CFG i)).getLsbD 8

/-- Its priority. -/
def irqPrio (s : State) (i : Nat) : Nat := (s.rd (R.CHNT_IRQ_CFG i)).toNat % 8

/-- Source `i` is pending (R372), and not masked by a claim (R373). -/
def irqPending (s : State) (i : Nat) : Bool := irqSummary s false i && irqEn s i && !bit s.hid.chnt.masked i

/-- The pending source of highest `prio`, the lowest number among equals (R373). -/
def irqTop (s : State) : Option Nat :=
  ((List.range 80).filter (irqPending s)).foldl (fun best i => match best with
    | some b => if irqPrio s b < irqPrio s i then some i else some b
    | none => some i) none

/-- The machine external interrupt is pending (R372). -/
def machineExternal (s : State) : Bool :=
  (List.range 80).any fun i => irqPending s i && decide ((s.rd R.CHNT_IRQ_THRESH).toNat % 8 < irqPrio s i)

/-- A pending machine external interrupt ends a wait for interrupt (R359). -/
def irqWake : Act := whenA (fun s => s.hid.wake.wfi ∧ chntOn s ∧ machineExternal s)
  (hidA fun h => { h with wake := { h.wake with wfi := false } })

/-- IRQ_SOURCE_RISE (R372): a rising edge of the summary of source `i` is counted; sources 64 to 79 follow the agreed level.  One
that was high already does not rise. -/
def irqRise (i : Nat) : Act := seq [
  only (64 ≤ i ∧ i < 80) (whenA chntOn (chntA fun c => { c with gpio := putBit c.gpio (i - 64) true })),
  whenA (rises false i) (seq [riseSeen false i, whenA chntOn (seq [countRise (R.CHNT_IRQ_CNT i), irqWake])])]

/-- What a read of `CHNT_IRQ_CLAIM` returns (R373). -/
def claimWord (s : State) : Word :=
  match irqTop s with
  | some i =>
    let w := (s.rd (R.CHNT_IRQ_CNT i)).toNat
    BitVec.ofNat 32 (i + 2 ^ 8 + w % 256 * 2 ^ 16 + w / 256 % 2 * 2 ^ 24)
  | none => 0#32

/-- The read clears the count and masks the source.  DEDUCED, log entry 61. -/
def irqClaim : Act := fun s =>
  match irqTop s with
  | some i => seq [setW (R.CHNT_IRQ_CNT i) 0#32, chntA fun c => { c with masked := putBit c.masked i true }] s
  | none => []

/-- A write of `CHNT_IRQ_DONE` (R373).  DEDUCED, log entry 61. -/
def irqDone (v : Word) : Act :=
  seq [chntA fun c => { c with masked := putBit c.masked (v.toNat % 256) false }, irqWake]

/-- `CHNT_IRQ_CNT[i]` as a read finds it. -/
def irqCntWord (s : State) (i : Nat) : Word := s.rd (R.CHNT_IRQ_CNT i) ||| BitVec.ofNat 32 (b2n (irqPending s i) * 2 ^ 9)

/-! ### Vectors to the host -/

def hostA (g : HostSt → HostSt) : Act := hidA fun h => { h with host := g h.host }

/-- The PCIe link is in L0. -/
def linkUp (s : State) : Bool := s.on F.HOST_STAT_link_up

/-- Vector `v` is pending. -/
def vecPending (s : State) (v : Nat) : Bool := s.on (F.HOST_VEC_ACK_pending v)

/-- The entry of vector `v`, or the function, is masked (R441); MSI-X that is not enabled, or a function in D3hot, sends nothing
either.  PRESUMED, log entry 113. -/
def vecMasked (s : State) (v : Nat) : Bool :=
  !s.hid.host.cfg.msixEn ∨ s.hid.host.cfg.d3 ∨ s.hid.host.cfg.funcMask ∨ s.on (F.HOST_MSIX_CTRL_mask v)

/-- The bit of vector `v` in the pending-bit array. -/
def pbaSet (v : Nat) (b : Bool) : Act := setF (bitFld R.HOST_MSIX_PBA v) (b2n b)

/-- The message of vector `v` goes out, or its pending bit stands: while masked, and while the link is not in L0. -/
def vecSend (v : Nat) : Act := fun s =>
  if vecMasked s v ∨ !linkUp s then pbaSet v true s
  else seq [pbaSet v false,
    hostA fun h => { h with msix := some (s.rd64 (R.HOST_MSIX_ADDR v), s.rd (R.HOST_MSIX_DATA v)) }] s

/-- The messages that wait and may go out, lowest vector first. -/
def vecFlush : Act := forEach (List.range 32) fun v =>
  whenA (fun s => s.on (bitFld R.HOST_MSIX_PBA v) && !vecMasked s v && linkUp s) (vecSend v)

/-- Vector `v` becomes pending (R441, R438). -/
def vecRaise (v : Nat) : Act := seq [
  setB (F.HOST_VEC_ACK_pending v), vecSend v,
  whenA (fun s => !linkUp s) (hidA fun h => { h with wake := { h.wake with waken := true } })]

/-- The route of source `i` (R441). -/
def routeEn (s : State) (i : Nat) : Bool := s.on (F.HOST_IRQ_ROUTE_en i)
def routeVec (s : State) (i : Nat) : Nat := s.f (F.HOST_IRQ_ROUTE_vec i)

/-- HOST_VECTOR_PENDING (R441): a rising edge of the summary of source `i`. -/
def vecRise (i : Nat) : Act := whenA (rises true i) (seq [riseSeen true i, whenA (fun s => s.island 13 ∧ routeEn s i) fun s =>
  let v := routeVec s i
  if vecPending s v then countRise (R.HOST_VEC_ACK v) s else vecRaise v s])

/-- What a read of `HOST_VEC_ACK[v]` does (R441). -/
def vecAck (v : Nat) : Act := fun s =>
  seq [setW (R.HOST_VEC_ACK v) 0#32, pbaSet v false,
    only ((List.range 80).any fun i => routeEn s i && routeVec s i = v && irqSummary s true i) (vecRaise v)] s

/-- IRQ0 (vectors 0 to 15) or IRQ1 (16 to 31) is pulled low (R442). -/
def irqPinLow (s : State) (one : Bool) : Bool :=
  s.on F.HOST_CFG_irq_pins && (List.range 16).any fun v => vecPending s (if one then v + 16 else v)

end Sys2Proof.Machine
end

