-- ==== Sys2Proof/Machine/Pair.lean ====
section
/-!
DEFINITION. Paired devices (spec/16): pairing, roles, heartbeats, mirroring, takeover.  A frame that is sent is formed down to its
blocks; one that is received is taken with its content, its tag being good.
-/

namespace Sys2Proof.Machine

def pairA (g : PairSt → PairSt) : Act := hidA fun h => { h with pair := g h.pair }

/-- Island PAIR runs (R31). -/
def pairOn (s : State) : Bool := s.up ∧ s.island 15

/-- A lane of the link is up (R403). -/
def pairLink (s : State) : Bool := pairOn s ∧ s.f F.PAIR_STAT_lanes ≠ 0

/-! ### Authentication (R404) -/

/-- The pair key. -/
def pairKey (s : State) : List Byte := wordsGet s R.SEC_PAIR_KEY 8

/-- The payload of a HELLO. -/
def helloBytes (m : HelloMsg) : List Byte :=
  leBytes 1 m.want.toNat ++ leBytes 1 (b2n m.unpair) ++ leBytes 4 m.rev.toNat ++ leBytes 32 m.hash.toNat
    ++ leBytes 2 m.load.toNat ++ leBytes 32 m.rnd.toNat

/-- The tag of a pairing HELLO: over bytes 1 to 7 of block 0 (type 1, 9 blocks, counter 0) and the payload. -/
def helloTag (s : State) (m : HelloMsg) : BitVec 128 :=
  (hmac (pairKey s) ([0x01#8, 0x09#8] ++ List.replicate 5 0#8 ++ helloBytes m)).setWidth 128

/-- The session key of a pairing, from the random values of the LEADER and of the SHADOW. -/
def sessionKey (s : State) (leader shadow : BitVec 256) : BitVec 256 :=
  (hmac (pairKey s) ([0x48#8, 0x5A#8, 0x46#8, 0x4A#8] ++ leBytes 32 leader.toNat ++ leBytes 32 shadow.toNat)).setWidth 256

/-- The counter that a received frame carries, formed from bits 39:0 and the last one accepted. -/
def fullCtr (last : BitVec 64) (ctr : BitVec 40) : Nat :=
  let hi := last.toNat / 2 ^ 40
  (if ctr.toNat < last.toNat % 2 ^ 40 then hi + 1 else hi) * 2 ^ 40 + ctr.toNat

/-- A session frame of a paired device: one whose counter is not above the last accepted is discarded and counted.
DEDUCED, log entry 37. -/
def sessionRx (ctr : BitVec 40) (a : Act) : Act := whenA (fun s => pairOn s ∧ s.role ≠ 0) fun s =>
  let n := fullCtr s.hid.pair.rx ctr
  if n ≤ s.hid.pair.rx.toNat then bump R.PAIR_AUTH_CNT s
  else seq [pairA fun p => { p with rx := BitVec.ofNat 64 n }, a] s

/-- The type and the payload of a frame.  The bytes that the spec does not lay out are free: log entry 31. -/
def framePayload : FjFrame → Nat × List Byte
  | .hello m _ => (1, helloBytes m)
  | .unpair m => (1, helloBytes m)
  | .heart m => (2, leBytes 8 m.time.toNat ++
      leBytes 8 (Config.freeHeartBytes m.role.toNat m.mode.toNat m.origin.toNat m.recovered m.causes.toNat).toNat)
  | .mirror kind ix step data => (3, [BitVec.ofNat 8 kind, BitVec.ofNat 8 ix] ++ leBytes 6 step.toNat ++
      (if kind = 1 then data.flatMap fun x => leBytes 8 (BitVec.ofInt 64 x.floor).toNat else mirBytes kind data))
  | .relinquish t => (4, leBytes 8 t.toNat)

/-- Bytes as data blocks. -/
def dataBlocks (bs : List Byte) : List FjBlock := (pieces 8 ((bs.length + 7) / 8) bs).map .data

/-- The blocks of a frame with counter `ctr`, or of a pairing frame: control, payload, tag, terminate (R404).  The byte order of
the nonce is not stated: log entry 37. -/
def frameBlocks (p : PairSt) (ctr : Option (BitVec 64)) (f : FjFrame) : List FjBlock :=
  let t := framePayload f
  let body := t.2 ++ List.replicate ((8 - t.2.length % 8) % 8) 0#8
  let head := [BitVec.ofNat 8 t.1, BitVec.ofNat 8 (body.length / 8)] ++ leBytes 5 (ctr.getD 0#64).toNat
  let x := match ctr with
    | some n => gcmSeal (leBytes 32 p.key.toNat) (leBytes 4 (if p.first then 1 else 2) ++ leBytes 8 n.toNat) head body
    | none => (body, match f with
      | .hello _ tag => leBytes 16 tag.toNat
      | _ => [])
  [.start head] ++ dataBlocks x.1 ++ dataBlocks x.2 ++ [.stop]

/-- Blocks on the lanes that are up, in turn from lane 0, or all on the one; idle blocks behind them (R403). -/
def onLanes (lanes : Nat) (bs : List FjBlock) : List (Nat × FjBlock) :=
  (bs.zipIdx.map fun x => (if lanes = 3 then x.2 % 2 else lanes / 2, x.1)) ++ ((bitsOf 2 lanes).map fun l => (l, .idle))

/-- A frame leaves. -/
def frameOut (ctr : Option (BitVec 64)) (f : FjFrame) : Act := fun s =>
  let p := s.hid.pair
  pairA (fun q => { q with sent := some (ctr, f), wire := onLanes (s.f F.PAIR_STAT_lanes) (frameBlocks p ctr f) }) s

/-- A session frame is sent, with the next counter.  DEDUCED, log entry 37. -/
def sessionTx (f : FjFrame) : Act := seq [withS fun s => frameOut (some s.hid.pair.tx) f, pairA fun p => { p with tx := p.tx + 1#64 }]

/-! ### Pairing (R399) -/

/-- The HELLO of the pairing in progress. -/
def helloMsg (s : State) : HelloMsg :=
  { want := BitVec.ofNat 8 s.hid.pair.want, unpair := false, rev := s.rd R.SYS_REV,
    hash := BitVec.ofNat 256 (leNat (wordsGet s R.FING_HASH 8)), load := BitVec.ofNat 16 (s.f F.PAIR_MIR_LOAD_bytes_us),
    rnd := s.hid.pair.rnd }

/-- The limit of R405 on the mirror load. -/
def mirLimit (s : State) : Nat := if s.f F.PAIR_STAT_lanes = 3 then 2000 else 1000

/-- A command of the pair ends with `code`. -/
def pairEnd (code : Nat) : Act := seq [clrB F.PAIR_STAT_busy, setF F.PAIR_STAT_result code, only (code = 0) (setB F.PAIR_EVENT_done)]

/-- A pairing in progress ends refused. -/
def pairRefuse (code : Nat) : Act := seq [pairEnd code, pairA fun p => { p with want := 0, rnd := 0#256 }]

/-- A refusal for which the spec names no code.  DESIGN CHOICE, log entry 29. -/
def pairFree : Act := fun s => seq [setF F.PAIR_STAT_result (Config.freeCode s.fresh).toNat, freshA] s

/-- A pairing exchange is in progress. -/
def pairing (s : State) : Bool := s.on F.PAIR_STAT_busy ∧ s.role = 0

/-- The checks of `op` = 1 that need no HELLO. -/
def pairCheck (want : Nat) (s : State) : Nat :=
  if s.mode ≠ CONFIGURE ∧ s.mode ≠ STANDBY then 0x01
  else if !s.on F.FING_FEAT_pair ∨ s.force < 2 then 0x02
  else if !pairLink s then 0x03
  else if s.role ≠ 0 then 0x04
  else if want ≠ 1 ∧ want ≠ 2 then 0x09
  else 0

/-- PAIR_CMD_PAIR: the checks come first; a pairing in progress has no code of its own. -/
def pairCmdPair (v : Word) : Act := fun s =>
  let want := v.toNat / 16 % 4
  if pairCheck want s ≠ 0 then setF F.PAIR_STAT_result (pairCheck want s) s
  else if s.on F.PAIR_STAT_busy then pairFree s
  else seq [setB F.PAIR_STAT_busy, pairA (fun p => { p with want := want, rnd := Config.freeRandom s.fresh }), freshA] s

/-- HELLO_SEND. -/
def helloSend : Act := whenA (fun s => pairLink s ∧ pairing s)
  (withS fun s => frameOut none (.hello (helloMsg s) (helloTag s (helloMsg s))))

/-- HELLO_TIMEOUT. -/
def helloTimeout : Act := whenA (fun s => pairOn s ∧ pairing s) (pairRefuse 0x05)

/-- `EDGE_SYNC_CFG` follows a new role (R406). -/
def autoSync : Act := whenA (fun s => s.on F.PAIR_CFG_auto_sync) fun s =>
  let w := s.rd R.EDGE_SYNC_CFG
  let lead := s.role = 1
  syncCfgWrite (F.EDGE_SYNC_CFG_synco_en.put (b2n lead) (F.EDGE_SYNC_CFG_synci_en.put (b2n !lead) w)) s

/-- The checks of R399 on a peer's HELLO whose tag is good. -/
def helloCheck (m : HelloMsg) (peer : Bool) (s : State) : Nat :=
  let own := helloMsg s
  if m.rev ≠ own.rev then 0x07
  else if m.hash ≠ own.hash then 0x08
  else if m.want = own.want then 0x09
  else if mirLimit s < (if s.hid.pair.want = 1 then own.load else m.load).toNat then 0x0A
  else if s.hid.pair.want = 1 ∧ peer then 0x0B
  else 0

/-- The pairing is accepted: role, session key, counters. -/
def pairAccept (m : HelloMsg) : Act := fun s =>
  let p := s.hid.pair
  let lead := decide (p.want = 1)
  seq [setRole p.want,
    pairA (fun q => { q with key := if lead then sessionKey s p.rnd m.rnd else sessionKey s m.rnd p.rnd, first := lead,
                             tx := 1#64, rx := 0#64, misses := 0, steps := [], done := [], recs := [], queue := [] }),
    pairEnd 0, autoSync, droneEval] s

/-- PAIR_UNPAIR of a device in a pair (R400): a LEADER keeps its mode, a SHADOW enters HALT. -/
def unpairA : Act := withS fun s => seq [soloA, only (s.role = 2) (haltCause causeCmd), droneEval]

/-- A takeover (R408): the mode is kept, and each pin waits for its unit's next commit point. -/
def takeover : Act := seq [setRole 1, withS (fun s => set64 R.PAIR_TAKE_TS s.now), setB F.PAIR_EVENT_takeover,
  pairA (fun p => { p with handover := false, recs := [], unable := false }),
  whenA gateAllowed (edgesA fun e => { e with gatePend := 2 ^ 48 - 1 }), autoSync, droneEval]

/-- PEERROLE_FALL (R407–R409). -/
def peerFall : Act := whenA pairOn (seq [clrB F.PAIR_STAT_peerrole,
  pairA (fun p => { p with both := false }), droneA (fun x => { x with pair := false }),
  withS fun s => if pairing s then pairRefuse 0x05 else if s.role = 2 then takeover else droneEval])

/-- The filtered level of PEERROLE: where it falls, what PEERROLE_FALL does (R398, R407). -/
def peerLevel (high : Bool) : Act := whenA pairOn fun s =>
  if s.on F.PAIR_STAT_peerrole ∧ !high then peerFall s else setF F.PAIR_STAT_peerrole (b2n high) s

/-- HELLO (R399, R400, R404). -/
def helloRx (m : HelloMsg) (a : HelloAuth) (peer : Bool) : Act := seq [
  peerLevel peer,
  match a with
  | .pairing tag => whenA pairOn fun s =>
      if s.role ≠ 0 then bump R.PAIR_AUTH_CNT s
      else if tag ≠ helloTag s m then seq [bump R.PAIR_AUTH_CNT, whenA pairing (pairRefuse 0x06)] s
      else if !pairing s then []
      else if helloCheck m peer s ≠ 0 then pairRefuse (helloCheck m peer s) s
      else pairAccept m s
  | .session ctr => sessionRx ctr (only m.unpair unpairA)]

/-- PAIR_CMD_UNPAIR (R400): the flag goes out under the key that is given up; a SOLO device gives up a pairing in progress, if any
(DESIGN CHOICE, log entry 108). -/
def pairCmdUnpair : Act := fun s =>
  if s.role = 2 ∨ s.mode = CONFIGURE ∨ s.mode = STANDBY ∨ s.mode = HALT ∨ s.mode = SERVICE then
    let out := frameBlocks s.hid.pair (some s.hid.pair.tx) (.unpair { helloMsg s with unpair := true })
    seq [only (s.role ≠ 0) unpairA,
      only (s.role = 1) (pairA fun p =>
        { p with sent := some (some s.hid.pair.tx, .unpair { helloMsg s with unpair := true }),
                 wire := onLanes (s.f F.PAIR_STAT_lanes) out }),
      only (s.role = 0) (pairA fun p => { p with want := 0, rnd := 0#256 }),
      pairEnd 0] s
  else pairFree s

/-- PAIR_CMD_HANDOVER (R401). -/
def pairCmdHandover : Act := fun s =>
  if s.role = 1 ∧ s.on F.PAIR_STAT_peer_ok ∧
      (s.mode = FOLLOW ∨ s.mode = FORM ∨ s.mode = RIDE ∨ s.mode = STANDBY) then
    seq [setB F.PAIR_STAT_busy, pairA (fun p => { p with handover := true, both := false }),
      droneA (fun x => { x with pair := false }), sessionTx (.relinquish s.now), droneEval] s
  else pairFree s

/-! ### Heartbeats (R404, R407, R125) -/

/-- The HEART of this device. -/
def heartMsg (s : State) : HeartMsg :=
  { time := s.now, role := BitVec.ofNat 2 s.role, mode := BitVec.ofNat 3 s.mode,
    origin := BitVec.ofNat 3 (s.f F.SYS_MODE_STAT_ride_origin), recovered := s.on F.SYS_MODE_STAT_ride_recovered,
    causes := BitVec.ofNat 12 (s.f F.SYS_HALT_CAUSE_cause) }

/-- HEART_SEND. -/
def heartSend : Act := whenA (fun s => pairLink s ∧ s.role ≠ 0) (withS fun s => sessionTx (.heart (heartMsg s)))

/-- A Shadow takes the Leader's mode (R125), with the events of R135; one whose power state does not allow it enters HALT and
follows no longer. -/
def followMode (m : HeartMsg) : Act := whenA (fun s => s.role = 2 ∧ m.role = 1#2 ∧ !s.hid.pair.unable) fun s =>
  if !modeAllowed (s.hid.pwr.st = .full) m.mode.toNat then
    seq [pairA fun p => { p with unable := true }, haltCause causePair] s
  else seq [
    only (m.mode.toNat ≠ s.mode) (seq [modeTo m.mode.toNat,
      only (m.mode.toNat = HALT) (seq [bump R.SYS_HALT_CNT, setB F.SYS_MODE_EVENT_halt]),
      only (m.mode.toNat = RIDE) (setB F.SYS_MODE_EVENT_ride)]),
    only (m.recovered ∧ !s.on F.SYS_MODE_STAT_ride_recovered) (setB F.SYS_MODE_EVENT_ride_recovered),
    setF F.SYS_MODE_STAT_ride_origin m.origin.toNat, setF F.SYS_MODE_STAT_ride_recovered (b2n m.recovered),
    only ((m.mode.toNat = HALT ∨ m.mode.toNat = DORMANT) ∧ maskSub m.causes.toNat (s.f F.SYS_HALT_CAUSE_cause) ≠ 0)
      (setB F.SYS_MODE_EVENT_halt),
    withS fun t => setF F.SYS_HALT_CAUSE_cause (m.causes.toNat ||| t.f F.SYS_HALT_LIVE_live)] s

/-- A Leader that handed over becomes SHADOW at the new Leader's first heartbeat (R401). -/
def handoverEnd (m : HeartMsg) : Act := whenA (fun s => s.role = 1 ∧ s.hid.pair.handover ∧ m.role = 1#2)
  (seq [setRole 2, pairA fun p => { p with handover := false, roleHigh := false, relinq := none }, pairEnd 0, autoSync])

/-- HEART. -/
def heartRx (m : HeartMsg) (ctr : BitVec 40) (peer : Bool) : Act := seq [
  peerLevel peer,
  sessionRx ctr (seq [setB F.PAIR_STAT_peer_ok, pairA fun p => { p with misses := 0 }, handoverEnd m, followMode m, droneEval])]

/-- HEARTBEAT_MISS (R407). -/
def heartMiss (peer : Bool) : Act := whenA (fun s => pairOn s ∧ s.role ≠ 0) (seq [
  peerLevel peer, bump R.PAIR_HB_CNT, pairA (fun p => { p with misses := min 4 (p.misses + 1) }),
  whenA (fun s => s.hid.pair.misses = 3) (seq [clrB F.PAIR_STAT_peer_ok,
    withS fun s => if s.role = 1 then seq [pairA (fun p => { p with queue := [] }), setB F.PAIR_EVENT_peer_lost] else if peer then setB F.PAIR_EVENT_link_lost else takeover])])

/-- ROLE_CONFLICT (R402). -/
def roleConflict : Act := whenA (fun s => pairOn s ∧ s.hid.pair.roleHigh) (seq [
  setB F.PAIR_STAT_peerrole, pairA (fun p => { p with both := true }), droneA (fun x => { x with pair := true }),
  haltCause causePair, droneEval])

/-! ### Mirroring (R405, R406) -/

/-- The step count of a producer. -/
def stepCount (s : State) (kind ix : Nat) : BitVec 48 :=
  if kind = 1 then (s.rd64 (R.BORE_STEP_CNT ix)).setWidth 48
  else if kind = 2 ∨ kind = 3 then (s.rd64 R.GRID_STEP_CNT).setWidth 48
  else BitVec.ofNat 48 (s.hid.pair.steps.get 0 (mirKey kind ix))

/-- A record takes its place among those that have not left: that of the older one of its producer, or the last (R405). -/
def mirQueue (r : MirRec) (q : List MirRec) : List MirRec :=
  if q.any fun x => x.kind = r.kind ∧ x.ix = r.ix then q.map fun x => if x.kind = r.kind ∧ x.ix = r.ix then r else x
  else q ++ [r]

/-- The oldest `n` records leave. -/
def mirLeave (n : Nat) : Act := withS fun s => seq [
  forEach (s.hid.pair.queue.take n) (fun r => sessionTx (.mirror r.kind r.ix r.step r.data)),
  pairA fun p => { p with queue := p.queue.drop n }]

/-- MIRROR_SEND: the record of a step that has ended is queued, and what waits leaves; with a load above the limit it is free how
much of it does (R405: log entry 31).  A Leader whose peer is lost mirrors nothing (R407). -/
def mirSend (kind ix : Nat) : Act := whenA (fun s => pairOn s ∧ kind ≠ 0) (seq [
  pairA (fun p => { p with steps := p.steps.put 0 (mirKey kind ix) (p.steps.get 0 (mirKey kind ix) + 1) }),
  whenA (fun s => s.role = 1 ∧ s.hid.pair.misses < 3) (seq [
    withS fun s => pairA fun p => { p with queue := mirQueue ⟨kind, ix, stepCount s kind ix, mirGet kind ix s⟩ p.queue },
    whenA pairLink fun s =>
      if mirLimit s < s.f F.PAIR_MIR_LOAD_bytes_us then
        seq [setB F.PAIR_EVENT_slow, withEnv fun n => mirLeave (n % (s.hid.pair.queue.length + 1))] s
      else mirLeave s.hid.pair.queue.length s])])

/-- MIRROR: the record waits for its producer's next step; a newer one replaces it. -/
def mirRx (ctr : BitVec 40) (kind ix : Nat) (step : BitVec 48) (data : List Rat) : Act :=
  sessionRx ctr (whenA (fun s => s.role = 2 ∧ !s.hid.pair.unable ∧ kind ≠ 0) (pairA fun p =>
    { p with recs := (p.recs.filter fun r => ¬ (r.kind = kind ∧ r.ix = ix)) ++ [⟨kind, ix, step, data⟩] }))

/-- PAIR_FRAME_DISCARD. -/
def frameDiscard (hello : Bool) : Act := whenA pairOn (seq [bump R.PAIR_AUTH_CNT, only hello (whenA pairing (pairRefuse 0x06))])

/-- RELINQUISH (R401, R404). -/
def relinquishRx (ctr : BitVec 40) (t : BitVec 64) : Act := sessionRx ctr (whenA (fun s => s.role = 2) (pairA fun p => { p with relinq := some t }))

/-- FJOSK_LANE_CHANGE (R403). -/
def laneChange (a b : Bool) : Act := whenA pairOn (seq [
  setF F.PAIR_STAT_lanes (b2n a + 2 * b2n b), setF F.PAIR_STAT_degraded (b2n (a != b))])

/-- `a`, before which the Shadow applies the records that `mine` names where `a` starts a step of their producer (R406). -/
def mirHook (starts : State → State → Bool) (mine : Nat → Nat → Bool) (a : Act) : Act := fun s =>
  if s.role = 2 ∧ starts s (a.run s) then seq [mirApply mine, a] s else a s

/-- An action that may start a step of engine `e`, or of the grid block. -/
def boreHook (e : Nat) (a : Act) : Act :=
  mirHook (fun s t => !s.on (F.BORE_STAT_busy e) && t.on (F.BORE_STAT_busy e)) (fun k i => k = 1 ∧ i = e) a
def gridHook (a : Act) : Act :=
  mirHook (fun s t => !s.on F.GRID_STAT_busy && t.on F.GRID_STAT_busy) (fun k _ => k = 2 ∨ k = 3 ∨ k = 4) a

end Sys2Proof.Machine
end

