-- ==== Sys2Proof/Machine/View.lean ====
section
/-!
DEFINITION. What a port's read of a register returns and does (R12 to R18): live fields, snapshot latches, reads with effects.
-/

namespace Sys2Proof.Machine

/-- Index `i` of a register found. -/
def RegAt.at (r : RegAt) (i : Nat) : Nat := r.ixs.getD i 0

/-- The number of a unit of which each die holds `n` (R24). -/
def RegAt.unit (r : RegAt) (n : Nat) : Nat := n * r.at 0 + r.at 1

/-- A register found is the one whose first instance lies at `b`. -/
def RegAt.is (r : RegAt) (b : Nat) : Bool := r.desc.base = b

/-! ### Live fields -/

/-- `WIN_M[m]_STAT` as a read finds it: a monitor that does not run shows no threshold. -/
def winStatWord (s : State) (m : Nat) : Word :=
  let th := monThreshold s m s.now
  s.rd (R.WIN_M_STAT m) ||| BitVec.ofNat 32 (4 * b2n ((monSt s m).caps ≠ []) + (if monOn s m then
    2 ^ 16 * th.1 + 16 * b2n th.2 + 8 * b2n (!s.on (F.CONV_REF_STAT_ref_ok (m / 16))) else 0))

/-- A SYNCI correction is under way (R207). -/
def syncAdjusting (s : State) : Bool := (List.range 48).any fun n => (edgeSt s n).rem ≠ 0

/-- Microseconds since the last kick, or since the arming (R395). -/
def wdAge (s : State) : Nat := if s.on F.DRONE_WD_armed then min 65535 ((s.now - s.hid.drone.kickT).toNat / 800) else 0

/-- The `pend` bits that `CAN[k]_TXRQ` reads (R432). -/
def txrqWord (s : State) (k : Nat) (hi : Bool) : Word :=
  BitVec.ofNat 32 (maskOf ((List.range 32).filter fun b => s.on (F.CAN_MB_CFG_pend k (b + 32 * b2n hi))))

/-- `SEC_SLOT[i]` (R476). -/
def slotWord (s : State) (i : Nat) : Word :=
  BitVec.ofNat 32 (4 * b2n (bit s.hid.otp.rev i) + 2 * b2n (bit s.hid.otp.prog i) + b2n (s.hid.boot.fwSlot = some i))

/-- Word `w` of a byte string. -/
def bytesWord (bs : List Byte) (w : Nat) : Word := BitVec.ofNat 32 (leNat ((bs.drop (4 * w)).take 4))

/-- The register word as a read finds it, before what the read does. -/
def viewWord (s : State) (off : Nat) (r : RegAt) : Word :=
  let raw := s.rd off
  let is := r.is
  let half (x : BitVec 64) : Word := x.extractLsb' (32 * r.word) 32
  if is R.CLK_TIME then half s.now
  else if is (R.SYS_SEAM_STAT 0) then Fld.put (F.SYS_SEAM_STAT_credits_c1 (r.at 0)) (creditsHeld s (r.at 0)) raw
  else if is (R.CONV_EVENT 0) then
    raw ||| BitVec.ofNat 32 (2 ^ 8 * convEvMask s (r.at 0) + 2 ^ 16 * fineEvMask s (r.at 0))
  else if is (R.CONV_F_STAT 0) then fineStatWord s (r.unit 6)
  else if is (R.WIN_M_STAT 0) then winStatWord s (r.unit 16)
  else if is (R.WIN_M_CAP_INFO 0) then capWord s (r.unit 16)
  else if is R.EDGE_SYNC_STAT then raw ||| BitVec.ofNat 32 (b2n (syncAdjusting s))
  else if is (R.EDGE_EVENT 0) then
    raw ||| BitVec.ofNat 32 (2 ^ 24 * b2n (edgeFrozen s) + edgeEvMask s (r.at 0))
  else if is (R.EDGE_CH_STAT 0) then edgeStatWord s (r.unit 24)
  else if is (R.EDGE_CH_CALW 0 0) then calWord s (r.unit 24) (r.at 2)
  else if is (R.EDGE_CH_CNT 0) then BitVec.ofNat 32 (edgeCount s (r.unit 24))
  else if is (R.GATE_EVENT 0) then raw ||| BitVec.ofNat 32 (gateEvMask s (r.at 0))
  else if is (R.BORE_STAT 0) then boreStatWord s (r.at 0)
  else if is R.GRID_STAT then gridStatWord s
  else if is R.PROBE_STAT then s.rd R.PROBE_STAT ||| BitVec.ofNat 32 (64 * b2n (ntSync s))
  else if is (R.METER_PT_STAT 0) then metStatWord s (r.at 0)
  else if is R.CHNT_STAT then chntStatWord s
  else if is (R.CHNT_AGREE_VAL 0) then agreeWord s (r.at 0)
  else if is R.CHNT_PIN_RAW then BitVec.ofNat 32 (pinRaw s true)
  else if is R.CHNT_SWEEP_STAT then raw ||| BitVec.ofNat 32 (sweepAge s)
  else if is R.CHNT_IRQ_CLAIM then claimWord s
  else if is (R.CHNT_IRQ_CNT 0) then irqCntWord s (r.at 0)
  else if is R.DRONE_WD then raw ||| BitVec.ofNat 32 (wdAge s)
  else if is R.CAN_NT_NOW then half (ntWord s s.now)
  else if is R.CAN_NT_STAT then ntStatWord s
  else if is (R.CAN_TXRQ_LO 0) then txrqWord s (r.at 0) false
  else if is (R.CAN_TXRQ_HI 0) then txrqWord s (r.at 0) true
  else if is R.HOST_STAT then raw ||| BitVec.ofNat 32 (2 ^ 7 * b2n (pcieHost s))
  else if is R.REC_RD_DATA then (readoutWord s).1
  else if is R.BOOT_OTP_FW_CNT then half (BitVec.ofNat 64 s.hid.otp.fw)
  else if is R.BOOT_OTP_FG_CNT then half (BitVec.ofNat 64 s.hid.otp.fg)
  else if is R.BOOT_OTP_LEFT then BitVec.ofNat 32 (s.hid.otp.fgLeft % 256 * 256 + s.hid.otp.fwLeft % 256)
  else if is (R.SEC_SLOT 0) then slotWord s (r.at 0)
  else if is R.SEC_ID_CERT_LEN then BitVec.ofNat 32 Config.idCert.length
  else if is R.SEC_RNG then rngWord s (!Nat.testBit (Config.freeEnv s.fresh) 0)
  else if is (R.SEC_ID_PUB 0) then bytesWord idPub (r.at 0)
  else if is (R.SEC_ID_CERT 0) then bytesWord Config.idCert (r.at 0)
  else if is R.COMPAT_STATUS then compatStatusWord s (s.f F.METER_CTL_compat_pt)
  else raw

/-- Bits of a register word that a read returns: write-only fields read zero (R19). -/
def readMask (r : RegAt) : Word :=
  wordOf r.word (r.desc.rw ||| r.desc.rwl ||| r.desc.w1c ||| r.desc.w1s ||| r.desc.cnt ||| r.desc.ro)

/-! ### Snapshots (R18) -/

/-- Key of a snapshot copy at `off` for port `p`. -/
def snapKey (p : Port) (off : Nat) : Nat := portIx p * 2 ^ 26 + off

/-- The words from `a` to `b`, with their copies `delta` above. -/
def copySpan (s : State) (a b delta : Nat) : List (Nat × Word) :=
  (List.range ((b - a) / 4)).map fun i => (a + 4 * i + delta, s.rd (a + 4 * i))

/-- The same words as a table of latched words holds them. -/
def copyTab (t : Tab Word) (a b delta : Nat) : List (Nat × Word) :=
  (List.range ((b - a) / 4)).map fun i => (a + 4 * i + delta, t.get 0#32 (a + 4 * i))

/-- A 64-bit value at `off`. -/
def copy64 (off : Nat) (x : BitVec 64) : List (Nat × Word) :=
  [(off, x.extractLsb' 0 32), (off + 4, x.extractLsb' 32 32)]

/-- The copies that a read of a SNAP register latches; none where the register is no SNAP register. -/
def snapGroup (s : State) (r : RegAt) : Option (List (Nat × Word)) :=
  let is := r.is
  if is R.CLK_TIME_SNAP then some (copy64 R.CLK_TIME_S s.now)
  else if is (R.CONV_C_SNAP 0) then
    let a := R.CONV_C_RES_VAL (r.unit 8) 0
    some (copySpan s a (a + 0x200) 0x200)
  else if is (R.CONV_F_SNAP 0) then
    let a := R.CONV_F_VAL (r.unit 6)
    some (copySpan s a (a + 0x18) 0x40)
  else if is (R.BORE_SNAP 0) then
    let e := r.at 0
    let t := (boreSt s e).last
    some (copyTab t (R.BORE_IN e 0) (R.BORE_IN e 64) 0x200 ++
      ((List.range 48).map fun g => copyTab t (R.BORE_STG_X e g 0) (R.BORE_STG_X e g 0 + 0x40) 0x40).flatten)
  else if is R.GRID_SNAP then
    some (copySpan s (R.GRID_Q 0) (R.GRID_Q 64) 0x200 ++ copyTab s.hid.grid.inS (R.GRID_IN 0) (R.GRID_IN 16) 0x80)
  else if is R.MPPT_SNAP then
    some ((List.range 8).map fun p =>
      copySpan s (R.MPPT_P_V p) (R.MPPT_P_V p + 0x18) 0xA8 ++ copySpan s (R.MPPT_P_VREF p) (R.MPPT_P_VREF p + 8) 0xC8
        ++ copySpan s (R.MPPT_P_IPK p) (R.MPPT_P_IPK p + 8) 0xB0).flatten
  else if is R.PROBE_SNAP then some (copySpan s R.PROBE_Z1_RE (R.PROBE_Z1_RE + 0x48) 0x80)
  else if is (R.METER_PT_SNAP 0) then
    let i := r.at 0
    some (copySpan s (R.METER_PT_VRMS i 0) (R.METER_PT_VRMS i 0 + 0xE8) 0x200
      ++ copySpan s (R.METER_PT_WRAP i) (R.METER_PT_WRAP i + 8) 0x400
      ++ copySpan s (R.METER_PT_ACC i 0) (R.METER_PT_ACC i 8) 0x400)
  else if is R.CAN_NT_SNAP then some (copy64 R.CAN_NT_S (ntWord s s.now) ++ copy64 R.CAN_NT_DT_S s.now)
  else none

/-- A SNAP read of port `p`. -/
def snapTake (p : Port) (r : RegAt) : Act := fun s =>
  match snapGroup s r with
  | some l => l.map fun x => .snap (snapKey p x.1) x.2
  | none => []

/-! ### Reads -/

/-- What a read of a register word does. -/
def readEffect (p : Port) (r : RegAt) : Act :=
  let is := r.is
  if is (R.WIN_M_CAP_INFO 0) then capPop (r.unit 16)
  else if is (R.CHNT_AGREE_VAL 0) then agreeRead (r.at 0)
  else if is R.CHNT_PIN_RAW then pinRawRead p
  else if is R.CHNT_IRQ_CLAIM then irqClaim
  else if is (R.HOST_VEC_ACK 0) then vecAck (r.at 0)
  else if is R.REC_RD_DATA then readoutAct p
  else if is R.SEC_RNG then fun s => seq [freshA, rngAct (!Nat.testBit (Config.freeEnv s.fresh) 0)] s
  else if is R.COMPAT_STATUS then compatLatch
  else snapTake p r

/-- A copy of a stage beyond the stage count, which reads zero (R265). -/
def copyGone (s : State) (r : RegAt) : Bool :=
  (r.is (R.BORE_STG_X_S 0 0 0) ∨ r.is (R.BORE_STG_Y_S 0 0 0)) ∧ stageCount s (r.at 0) ≤ r.at 1

/-- What a read of the aligned word at `off` by port `p` returns, and whether it is an access error (R13, R34, R43).
DEDUCED, log entry 47. -/
def readWord (p : Port) (off : Nat) (s : State) : Word × Bool :=
  match regAt off with
  | none => (0#32, false)
  | some r =>
    if !regLive s r then (0#32, true)
    else ((if copyGone s r then 0#32 else if r.desc.copy then s.snap.get 0#32 (snapKey p off) else viewWord s off r) &&& readMask r,
      r.is R.REC_RD_DATA && (readoutWord s).2)

/-- What that read does. -/
def readAct (p : Port) (off : Nat) : Act := fun s =>
  match regAt off with
  | none => []
  | some r => if regLive s r then readEffect p r s else accErr p 2 off s

/-- The read of the word at `off` waits at its seam link (R65). -/
def readHeld (off : Nat) (s : State) : Bool :=
  match regAt off with
  | some r => seamHeld s r
  | none => false

/-- Reads of words one after another: what they return is the port's response. -/
def readWords (p : Port) : List Nat → List Word → Bool → Act
  | [], ws, err => respond p ws err
  | o :: os, ws, err => fun s =>
    let x := readWord p o s
    if readHeld o s then []
    else seq [readAct p o, readWords p os (ws ++ [x.1]) (err || x.2)] s

/-- One register read with its response. -/
def readReg (p : Port) (off : Nat) : Act := portAct p off false (readWords p [off] [] false)

/-- A read with an operand of its own: `a` where it reaches the register at `off`. -/
def readGate (p : Port) (off : Nat) (a : Act) : Act := portAct p off false fun s =>
  if readHeld off s then [] else if (readWord p off s).2 then seq [accErr p 2 off, respond p [0#32] true] s else a s

end Sys2Proof.Machine
end

