-- ==== Sys2Proof/Machine/Router.lean ====
section
/-!
DEFINITION. What a port's write of a register does (R12 to R20): the field types, the pairs and their holding latches, and the
registers whose write is a command of its block.
-/

namespace Sys2Proof.Machine

/-! ### Plain registers (R19, R112) -/

/-- The RWL fields `m` of a word written at `off`: taken, or while they are locked discarded, and reported where the write would
change one (R112). -/
def rwlWrite (p : Port) (off : Nat) (m v : Word) : Act := fun s =>
  if rwlLocked s then only ((s.rd off ^^^ v) &&& m ≠ 0#32) (rwlReport p off) s
  else setW off ((s.rd off &&& ~~~ m) ||| (v &&& m)) s

/-- The other fields of a written word by their types (R19); a 1 written to a counter clears it with its saturated flag. -/
def typedWord (r : RegAt) (old v : Word) : Word :=
  let m (x : Nat) : Word := wordOf r.word x
  let a := (old &&& ~~~ m r.desc.rw) ||| (v &&& m r.desc.rw)
  let b := (a &&& ~~~ (v &&& m r.desc.w1c)) ||| (v &&& m r.desc.w1s)
  if v &&& m r.desc.cnt ≠ 0#32 then b &&& ~~~ (m r.desc.cnt ||| 0x80000000#32) else b

/-- A write of a plain register word. -/
def plainWrite (p : Port) (r : RegAt) (off : Nat) (v : Word) : Act :=
  seq [only (r.desc.rwl ≠ 0) (rwlWrite p off (wordOf r.word r.desc.rwl) v), fun s => setW off (typedWord r (s.rd off) v) s]

/-! ### Pairs (R15 to R17) -/

/-- Two words that change together: pu36 and pu48 pairs, the accumulators (R355), and the value of `CAN_NT_SET`. -/
def RegAt.pair (r : RegAt) : Bool :=
  r.desc.kind = .pu36 ∨ r.desc.kind = .pu48 ∨ r.is (R.METER_PT_WRAP 0) ∨ r.is (R.METER_PT_ACC 0 0) ∨ r.is R.CAN_NT_SET

/-- The block of an offset: the rows of R42, and each engine by itself (R264). -/
def blockOf (off : Nat) : Nat :=
  let b := off / 0x10000
  if 16 ≤ b ∧ b < 18 then 64 + (off - 0x100000) / 0x4000
  else if b = 13 ∨ b = 15 ∨ b = 21 ∨ b = 25 ∨ b = 27 ∨ b = 31 then b - 1
  else if 32 ≤ b ∧ b < 52 then b / 4 * 4
  else b

/-- Key of a port's holding latch of the block of `off` (R17). -/
def latchKey (p : Port) (off : Nat) : Nat := portIx p * 128 + blockOf off

/-- The value of a pair lands whole at `off`. -/
def pairLand (p : Port) (r : RegAt) (off : Nat) (v : BitVec 64) : Act :=
  let is := r.is
  if is (R.METER_PT_WRAP 0) then accWrite p (r.at 0) 8 v
  else if is (R.METER_PT_ACC 0 0) then accWrite p (r.at 0) (r.at 1) v
  else if is R.CAN_NT_SET then ntSet p v
  else if r.desc.rw = 0 ∧ r.desc.rwl = 0 then nop
  else if r.desc.kind = .pu48 then stateLand (r.at 0) (r.at 1) (r.at 2) (sext 48 v.toNat)
  else
    let x := sext 36 v.toNat
    if is (R.BORE_STG_K 0 0 0) then coefLand (r.at 0) (r.at 1) (r.at 2) x
    else if is (R.BORE_SP 0 0) then setpointLand (r.at 0) (r.at 1) x
    else if is R.GRID_P_SP ∨ is R.GRID_Q_SP ∨ is R.GRID_IDN_SP ∨ is R.GRID_IQN_SP then gridSetLand off x
    else if is R.PROBE_AMP then ampWrite x
    else fun s =>
      if r.desc.rwl ≠ 0 ∧ rwlLocked s then only (s.pu off ≠ x) (rwlReport p off) s else setPu off x s

/-- What a high word completes of a pair: the bits of the pair above bit 31. -/
def pairHigh (r : RegAt) : Word := if r.desc.kind = .pu36 then 0xF#32 else if r.desc.kind = .pu48 then 0xFFFF#32 else BitVec.allOnes 32

/-- The pair's present low word. -/
def pairLow (s : State) (r : RegAt) (off : Nat) : Word :=
  if r.is R.CAN_NT_SET then (ntWord s s.now).extractLsb' 0 32 else s.rd off

/-- The value that a high word completes: with the low word that the port's latch holds of that pair, else the present one. -/
def pairJoin (p : Port) (r : RegAt) (off : Nat) (v : Word) (s : State) : BitVec 64 :=
  let l := s.latch.get (0, 0#32) (latchKey p off)
  (v &&& pairHigh r) ++ (if l.1 = off then l.2 else pairLow s r off)

/-- A write of an accumulator is discarded in this mode (R355). -/
def accGated (s : State) (r : RegAt) : Bool := (r.is (R.METER_PT_WRAP 0) ∨ r.is (R.METER_PT_ACC 0 0)) ∧ metAccum s.mode

/-- A write of one word of a pair at `off`, of which it is word `r.word` (R17).  R17 latches any low word, so one written to a
read-only pair takes the latch too, and the pair itself discards the write (R19): DESIGN CHOICE, log entry 64. -/
def pairWord (p : Port) (r : RegAt) (off : Nat) (v : Word) : Act :=
  if r.word = 0 then
    cond (fun s => accGated s r) (accErr p errRefused off) fun _ => [.latch (latchKey p off) (off, v)]
  else fun s =>
    let l := s.latch.get (0, 0#32) (latchKey p (off - 4))
    seq [pairLand p r (off - 4) (pairJoin p r (off - 4) v s),
      only (l.1 = off - 4) fun _ => [.latch (latchKey p (off - 4)) (0, 0#32)]] s

/-! ### Doorbells, error register, MSI-X (R436, R441, R443) -/

/-- A write of `HOST_DB_F2H` (`f2h`) or `HOST_DB_H2F`: one side sets bits, the other clears them. -/
def doorbell (p : Port) (f2h : Bool) (v : Word) : Act :=
  let off := if f2h then R.HOST_DB_F2H else R.HOST_DB_H2F
  if decide (p = .fw) == f2h then orW off (v &&& 0xFFFF#32) else clearW off (v &&& 0xFFFF#32)

/-- A write of `HOST_ERR`: clearing `err` clears `HOST_ERR_INFO`. -/
def errClear (v : Word) : Act := only (v.getLsbD 0) (seq [clrB F.HOST_ERR_err, setW R.HOST_ERR_INFO 0#32])

/-! ### Registers whose write is a command -/

/-- A write of `SYS_SOL` (R396): one from a host port is discarded. -/
def solCmd (p : Port) (v : Word) : Act := if p = .fw then solWrite v else accErr p errRefused R.SYS_SOL

/-- A write of `SYS_PWR_CMD`. -/
def pwrWrite (v : Word) : Act :=
  match v.toNat % 4 with
  | 0 => pwrCmdOff
  | 1 => withEnv fun n => pwrCmdHarvest (n.testBit 0)
  | 2 => pwrCmdLean
  | _ => pwrCmdFull

/-- A write of `SYS_MODE_CMD`. -/
def modeWrite (p : Port) (v : Word) : Act := if v.toNat % 8 = HALT then haltRequest p else modeRequest p (v.toNat % 8)

/-- A write of `FING_CMD`. -/
def fingWrite (p : Port) (v : Word) : Act :=
  match v.toNat % 8 with
  | 1 => fingLoad p
  | 2 => fingApply p
  | 3 => fingCommit p
  | 4 => fingDiscard p
  | op => fingInvalid p op

/-- A write of `CONV_CAL_CMD`. -/
def calWrite (d : Nat) (v : Word) : Act :=
  match v.toNat / 256 % 4 with
  | 1 => calMeasure d v
  | 2 => calRestore d v
  | _ => calInvalid d v

/-- A write of `PAIR_CMD`; `op` 0 asks for nothing. -/
def pairCmd (v : Word) : Act :=
  match v.toNat % 4 with
  | 1 => pairCmdPair v
  | 2 => pairCmdUnpair
  | 3 => pairCmdHandover
  | _ => nop

/-- A write of `WIN_M[m]_CFG`, and of `EDGE_CH[n]_CFG`: RWL fields, then RW fields. -/
def monCfg (p : Port) (m : Nat) (v : Word) : Act := seq [rwlWrite p (R.WIN_M_CFG m) 0x3F0100#32 v, monCfgWrite m v]
def edgeCfg (p : Port) (n : Nat) (v : Word) : Act :=
  seq [rwlWrite p (R.EDGE_CH_CFG n) 0x3F38#32 v, refreshEval n, edgeCfgWrite n v]

/-- A write of `WIN_M[m]_TH`: the MPPT write of `hi` in the same WIN cycle is kept (R304). -/
def thWrite (m : Nat) (v : Word) : Act := fun s =>
  seq [setF (F.WIN_M_TH_lo m) v.toNat,
    only ((monSt s m).mpptT ≠ some s.now) (setF (F.WIN_M_TH_hi m) (v.toNat / 2 ^ 16))] s

/-- Bits of `BORE[e]_OVF` cleared clear the stages' own (R264, R265). -/
def ovfClear (e base : Nat) (v : Word) : Act :=
  forEach ((bitsOf 32 v.toNat).filter fun i => base + i < 48) fun i => clrB (F.BORE_STG_CFG_ovf e (base + i))

/-- A write of `BORE[e]_STG[s]_CFG`: a cleared `ovf` clears the engine's bit; a stage beyond the stage count takes nothing
(R265). -/
def stgCfgWrite (e g : Nat) (v : Word) : Act := whenA (fun s => g < stageCount s e) <| seq [
  setF (F.BORE_STG_CFG_flag_en e g) (v.toNat / 2 ^ 16),
  only (v.getLsbD 25) (seq [clrB (F.BORE_STG_CFG_ovf e g),
    clrB (bitFld (if g < 32 then R.BORE_OVF_LO e else R.BORE_OVF_HI e) (g % 32))])]

/-- A write of `SYS_SEAMN_STAT` or `SYS_SEAMS_STAT`: clearing `crc_err` clears the retry counter (R30). -/
def seamWrite (d : Nat) (v : Word) : Act := seq [
  only (v.getLsbD 1) (clrB (F.SYS_SEAM_STAT_lost d)),
  only (v.getLsbD 2) (seq [clrB (F.SYS_SEAM_STAT_crc_err d), clrB (F.SYS_SEAM_STAT_cnt_sat d), setW (R.SYS_SEAM_RETRY d) 0#32])]

/-- A write of `REC_TRIG`: each side has its own bit (R451). -/
def recTrigWrite (p : Port) (v : Word) : Act :=
  only (v.getLsbD (if p = .fw then 0 else 1)) (recSend (if p = .fw then 0x20 else 0x40))

/-- The machine timer after a write of its compare (R359). -/
def timerEval : Act := whenA (fun s => s.now < s.rd64 R.CHNT_MTIMECMP) (chntA fun c => { c with mtip := false })

/-- A write whose port the register does not take (R443, R475, R476, R396); the restart address is read-only from the host. -/
def wrongPort (p : Port) (off : Nat) : Act :=
  if 0x2C0000 ≤ off ∧ off < 0x300000 then updCode 0x81
  else if 0x300000 ≤ off then secCode 0x81
  else if off = R.CHNT_ENTRY then nop
  else accErr p errRefused off

/-- Whether the register takes writes of port `p`. -/
def portTakes (p : Port) (r : RegAt) : Bool :=
  match r.desc.acc with
  | .any => true
  | .host => p ≠ .fw
  | .fw => p = .fw

/-- A write of a register of the blocks SYS to GATE. -/
def lowWrite (p : Port) (r : RegAt) (off : Nat) (v : Word) : Act :=
  let is := r.is
  let plain := plainWrite p r off v
  if is R.SYS_PWR_CMD then pwrWrite v
  else if is R.SYS_ISLAND_EN then islandWrite p v
  else if is R.SYS_MODE_CMD then modeWrite p v
  else if is R.SYS_HALT_CAUSE then haltCauseClear v
  else if is R.SYS_DRONE_RST then withEnv fun n => droneRst p v (BitVec.ofNat 4 n)
  else if is R.SYS_SOL then solCmd p v
  else if is (R.SYS_SEAM_STAT 0) then seamWrite (r.at 0) v
  else if is R.HARV_AUX_CMD then auxBurst v
  else if is R.HARV_REG_CFG then vddqWrite p v
  else if is R.HARV_CFG then harvCfgWrite v
  else if is R.CLK_SYS_COMMIT then sysCommit v
  else if is R.CLK_SLIDE_CFG then (if v.getLsbD 0 then slideEnable v else slideDisable v)
  else if is R.CLK_SLIDE_COMMIT then slideCommit v
  else if is R.FING_CMD then fingWrite p v
  else if is (R.CONV_REF_CFG 0) then refWrite (r.at 0) v
  else if is (R.CONV_CAL_CMD 0) then calWrite (r.at 0) v
  else if is (R.CONV_C_CTL 0) then convCtl (r.unit 8) v
  else if is (R.CONV_F_CTL 0) then fineCtl (r.unit 6) v
  else if is (R.CONV_C_CAL_OFS 0) then factorWrite p (r.unit 8) off v 0xFFFF#32
  else if is (R.CONV_C_CAL_GAIN 0) then factorWrite p (r.unit 8) off v 0x3FFFF#32
  else if is (R.CONV_C_CAL_W 0 0) then factorWrite p (r.unit 8) off v (BitVec.allOnes 32)
  else if is (R.TRIPIN_CFG 0) then seq [plain, tripinEval (r.at 0)]
  else if is (R.WIN_M_CFG 0) then monCfg p (r.unit 16) v
  else if is (R.WIN_M_TH 0) then thWrite (r.unit 16) v
  else if is (R.WIN_M_SLOPE 0) then slopeWrite (r.unit 16) v
  else if is (R.TRIP_SRC_OFF 0 0) ∨ is (R.TRIP_SRC_ON 0 0) ∨ is (R.TRIP_SRC_REP 0 0) ∨ is (R.TRIP_SRC_CFG 0 0)
    ∨ is (R.TRIP_GT_REP 0) ∨ is (R.TRIP_EVENT 0) then seq [plain, tripResolve (r.at 0) false]
  else if is (R.TRIP_LATCH 0 0) then tripLatchClear (r.at 0) (r.at 1) v
  else if is (R.TRIP_FW 0) then tripFwWrite (r.at 0) v
  else if is (R.EDGE_COMMIT 0) then commitWrite (r.at 0) v
  else if is R.EDGE_SYNC_CFG then syncCfgWrite v
  else if is (R.EDGE_CH_CFG 0) then edgeCfg p (r.unit 24) v
  else if R.EDGE_CH_CTL 0 ≤ r.desc.base ∧ r.desc.base ≤ R.EDGE_CH_PHASE 0 then
    shadowWrite (r.unit 24) ((r.desc.base - R.EDGE_CH_CTL 0) / 4) v
  else if is (R.EDGE_CH_REFR 0) then seq [plain, refreshEval (r.unit 24)]
  else if is (R.GATE_LIG_CFG 0) then ligCfgWrite (r.unit 2) v
  else if is (R.GATE_LIG_SEL 0) then selWrite (r.unit 2) v
  else if is (R.GATE_CH_FAULT 0) then faultClr (r.unit 24) v
  else if is (R.GATE_CH_DESAT 0) then desatWrite (r.unit 24) v
  else if is (R.GATE_CH_SUPPLY 0) then supplyWrite (r.unit 24) v
  else if is (R.GATE_CH_PROF 0 0) then profileWrite (r.unit 24) (r.at 2) v
  else plain

/-- A write of a register of the blocks BORE to SEC. -/
def highWrite (p : Port) (r : RegAt) (off : Nat) (v : Word) : Act :=
  let is := r.is
  let plain := plainWrite p r off v
  if is (R.BORE_CTL 0) then boreHook (r.at 0) (boreCtl p (r.at 0) v)
  else if is (R.BORE_MOD_CFG 0) then seq [plain, infoUpdate (r.at 0), latUpdate (r.at 0)]
  else if is (R.BORE_OVF_LO 0) then seq [plain, ovfClear (r.at 0) 0 v]
  else if is (R.BORE_OVF_HI 0) then seq [plain, ovfClear (r.at 0) 32 v]
  else if is (R.BORE_STG_CFG 0 0) then stgCfgWrite (r.at 0) (r.at 1) v
  else if is R.GRID_CTL then gridHook (gridCtl v)
  else if is R.GRID_VBASE ∨ is R.GRID_IBASE ∨ is R.GRID_SBASE ∨ is R.GRID_FNOM then baseWrite p off v
  else if is R.MPPT_CTL then mpptCtl v
  else if is R.PROBE_CODE then codeWrite p v
  else if is R.PROBE_PHASE_CMD then phaseCmd v
  else if is R.PROBE_CTL then probeCtl p v
  else if is R.METER_CTL then meterCtl v
  else if is R.CHNT_CTL then chntRestart p v
  else if is R.CHNT_AGREE_REQ then withEnv fun n =>
    agreeReq v (BitVec.ofNat 16 n) (BitVec.ofNat 16 (n / 2 ^ 16)) (BitVec.ofNat 16 (n / 2 ^ 32)) (BitVec.ofNat 16 (n / 2 ^ 48))
  else if is R.CHNT_SWEEP_CTL then sweepCtl p v
  else if is R.CHNT_SWEEP_DATA then sweepData p
  else if is R.CHNT_WD_KICK then withEnv fun n => kick v n
  else if is R.CHNT_MTIMECMP then seq [plain, timerEval]
  else if is R.CHNT_IRQ_DONE then irqDone v
  else if is R.CHNT_IRQ_THRESH ∨ is (R.CHNT_IRQ_CFG 0) then seq [plain, irqWake]
  else if is R.PAIR_CMD then pairCmd v
  else if is (R.CAN_CTL 0) then canCtl (r.at 0) v
  else if is (R.CAN_TXRQ_LO 0) then canTxrq (r.at 0) false v
  else if is (R.CAN_TXRQ_HI 0) then canTxrq (r.at 0) true v
  else if is (R.CAN_CANCEL_LO 0) then canCancel (r.at 0) false v
  else if is (R.CAN_CANCEL_HI 0) then canCancel (r.at 0) true v
  else if is (R.CAN_RXF_POP 0) then rxfPop (r.at 0) v
  else if is (R.CAN_MB_CFG 0 0) then mbCfg p (r.at 0) (r.at 1) v
  else if is (R.CAN_MB_ID 0 0) ∨ is (R.CAN_MB_MASK 0 0) ∨ is (R.CAN_MB_DATA 0 0 0) then mbGuard p (r.at 0) (r.at 1) off plain
  else if is R.CAN_NT_CFG then ntCfg v
  else if is R.HOST_ERR then errClear v
  else if is R.HOST_DB_H2F then doorbell p false v
  else if is R.HOST_DB_F2H then doorbell p true v
  else if is (R.HOST_MSIX_CTRL 0) then seq [plain, vecFlush]
  else if is R.MEMC_CFG then memcCfgWrite p v
  else if is R.QSPI_CMD then qspiCmd v
  else if is R.REC_CTL then recEn v
  else if is R.REC_TRIG then recTrigWrite p v
  else if is (R.REC_REG_STAT 0) then regionArm (r.at 0) v
  else if is R.BOOT_UPD_CMD then withEnv fun n => updCmd p v (n.testBit 0)
  else if is R.BOOT_CONFIRM then confirmCmd p v
  else if is R.SEC_OTP_CMD then otpCmd p v
  else if is R.SEC_ATT_CMD then withEnv fun n => attCmd v (n.testBit 0)
  else if is R.SEC_SEAL_CMD then withEnv fun n => sealCmd p v (n.testBit 0)
  else if is (R.SEC_KEYHASH 0) then setW off v
  else if is (R.SEC_PAIR_KEY 0) then pairKeyWrite p off v
  else plain

/-- A write of the register word found at `off`. -/
def regWrite (p : Port) (r : RegAt) (off : Nat) (v : Word) : Act :=
  if r.desc.isl = 33 then accErr p errRefused off
  else if !portTakes p r then wrongPort p off
  else if r.pair then pairWord p r off v
  else if off < 0x100000 then lowWrite p r off v
  else highWrite p r off v

/-- The `EDGE_SYNC_*` offsets of the South die (R212). -/
def southSync (off : Nat) : Bool := 0xD0010 ≤ off ∧ off < 0xD0028 ∧ off ≠ 0xD001C

/-- A write of the aligned word at `off` by port `p` (R13, R34, R43). -/
def writeWord (p : Port) (off : Nat) (v : Word) : Act := fun s =>
  match regAt off with
  | none =>
    if southSync off then accErr p (if dieOn s 2 1 ∧ s.on (F.SYS_SEAM_STAT_up 1) then errRefused else 2) off s else []
  | some r => if seamHeld s r then [] else if regLive s r then regWrite p r off v s else accErr p 2 off s

/-- A 64-bit write at an 8-byte-aligned offset: one access where a register is 64 bits wide (R12, R16), which one error
refuses whole (R436), else two words in order (DESIGN CHOICE, log entry 66).  A pair written whole leaves the port's holding latch as it is (DESIGN CHOICE, log entry
65). -/
def writeDouble (p : Port) (off : Nat) (v : BitVec 64) : Act :=
  let two := seq [writeWord p off (v.extractLsb' 0 32), writeWord p (off + 4) (v.extractLsb' 32 32)]
  match regAt off with
  | some r =>
    if r.desc.kind ≠ .r32 ∧ r.word = 0 then
      whenA (fun s => !seamHeld s r) (cond (fun s => regLive s r)
        (if r.desc.isl = 33 ∨ !portTakes p r then writeWord p off (v.extractLsb' 0 32)
        else if r.pair then pairLand p r off v else if r.is R.CHNT_MTIMECMP then seq [set64 off v, timerEval] else two)
        (accErr p 2 off))
    else two
  | none => two

/-- Bytes of an access. -/
def accBytes : AccSize → Nat
  | .b8 => 1
  | .b16 => 2
  | .b32 => 4
  | .b64 => 8

/-- A register write of port `p` (R12, R13): a misaligned one from firmware reaches no register and raises an exception in both
cores.  DEDUCED, log entry 47. -/
def portWrite (p : Port) (a : Nat) (sz : AccSize) (v : BitVec 64) : Act := portAct p a true
  (if p = .fw ∧ a % min 4 (accBytes sz) ≠ 0 then coreTrap .storeMisaligned (fwAddr a)
  else if accBytes sz < 4 ∨ a % 4 ≠ 0 then accErr p 1 a
  else if sz = .b32 then writeWord p a (v.extractLsb' 0 32)
  else if a % 8 = 0 then writeDouble p a v
  else seq [writeWord p a (v.extractLsb' 0 32), writeWord p (a + 4) (v.extractLsb' 32 32)])

end Sys2Proof.Machine
end

