-- ==== Sys2Proof/Machine/HostPort.lean ====
section
/-!
DEFINITION. The host ports (R435 to R440): BAR0, BAR2, PERSTN and the link, SPI frames.
-/

namespace Sys2Proof.Machine

/-! ### BAR0 (R436) -/

/-- The bytes of a word that its byte enables name. -/
def enabled (be : BitVec 4) (w : Word) : Word :=
  w &&& ((List.range 4).foldl (fun m i => if be.getLsbD i then m ||| (0xFF#32 <<< (8 * i)) else m) 0#32)

/-- An aligned word at `off` begins a register of 64 bits. -/
def wideAt (off : Nat) : Bool :=
  off % 8 = 0 && match regAt off with
    | some r => r.desc.kind ≠ .r32 && r.word = 0
    | none => false

/-- The words of a write, in address order; one with a byte not enabled is narrower than 32 bits (R13). -/
def bar0Write (off : Nat) : List (BitVec 4 × Word) → Act
  | [] => nop
  | [x] => if x.1 = 15#4 then writeWord .pcie off x.2 else accErr .pcie 1 off
  | x :: y :: ws =>
    if x.1 = 15#4 ∧ y.1 = 15#4 ∧ wideAt off then seq [writeDouble .pcie off (y.2 ++ x.2), bar0Write (off + 8) ws]
    else seq [if x.1 = 15#4 then writeWord .pcie off x.2 else accErr .pcie 1 off, bar0Write (off + 4) (y :: ws)]

/-- The words of a read, in address order, with the port's response; an aligned pair of a register of 64 bits is one access,
which one error refuses whole. -/
def bar0Read : Nat → List (BitVec 4) → List Word → Bool → Act
  | _, [], ws, err => respond .pcie ws err
  | off, [be], ws, err => fun s =>
    let x := readWord .pcie off s
    if readHeld off s then []
    else seq [readAct .pcie off, respond .pcie (ws ++ [enabled be x.1]) (err || x.2)] s
  | off, be :: be2 :: bes, ws, err => fun s =>
    let x := readWord .pcie off s
    if readHeld off s then []
    else if x.2 ∧ wideAt off ∧ be ≠ 0#4 ∧ be2 ≠ 0#4 then
      seq [readAct .pcie off, bar0Read (off + 8) bes (ws ++ [0#32, 0#32]) true] s
    else seq [readAct .pcie off, bar0Read (off + 4) (be2 :: bes) (ws ++ [enabled be x.1]) (err || x.2)] s

/-- A function in D3hot takes no memory request (R435): it is an unsupported request, which AER records in bit 20 of its
uncorrectable status; a read gets no data.  PRESUMED, log entry 113. -/
def unsupported (wr : Bool) : Act := seq [hostA fun h => { h with cfg := { h.cfg with aer := h.cfg.aer ||| (1#64 <<< 20) } },
  only (!wr) (respond .pcie [] true)]

/-- A memory request, where the function takes it. -/
def pcieReq (wr : Bool) (a : Act) : Act := whenA (fun s => s.up) (cond (fun s => s.hid.host.cfg.d3) (unsupported wr) a)

/-- BAR0_REQUEST. -/
def bar0 (a : Nat) (wr : Bool) (ws : List (BitVec 4 × Word)) : Act :=
  pcieReq wr (if wr then bar0Write (a / 4 * 4) ws else bar0Read (a / 4 * 4) (ws.map (·.1)) [] false)

/-! ### BAR2 (R437) -/

/-- The error kind of a BAR2 access of `n` bytes from LPDDR4X byte `a`; 0 where there is none. -/
def bar2Kind (s : State) (a n : Nat) : Nat :=
  if !memReady s then 4 else if !s.island 12 then 2 else if memSize s < a + n then 5 else 0

/-- A BAR2 read of `n` bytes from byte `a`. -/
def bar2Read (a n off : Nat) : Act := fun s =>
  let k := bar2Kind s a n
  let bs := (List.range n).map fun i =>
    if (k = 0 ∨ k = 5) ∧ a + i < memSize s then (s.lpByte (a + i)).zeroExtend 32 else 0#32
  seq [only (k ≠ 0) (accErr .pcie k off), respond .pcie bs (k ≠ 0)] s

/-- Byte `a` lies in the region being captured. -/
def inCapture (s : State) (a : Nat) : Bool :=
  let r := s.f F.REC_STAT_region
  recRunning s ∧ regionBase s r ≤ a ∧ a < regionBase s r + regionSize s r ∧ a < memSize s

/-- The region being captured takes undefined contents (R454). -/
def captureUndef : Act := fun s =>
  let b := regionBase s (s.f F.REC_STAT_region)
  (((List.range (min (regionSize s (s.f F.REC_STAT_region)) (memSize s - b))).map (b + ·)).map fun a =>
    .lpddr a (Config.freeRegion s.fresh a)) ++ [.fresh]

/-- Some byte written from `a` on lies in the region being captured. -/
def hitsCapture (s : State) (a : Nat) (bs : List (Option Byte)) : Bool :=
  bs.zipIdx.any fun x => x.1.isSome && inCapture s (a + x.2)

/-- A BAR2 write from byte `a`; bytes beyond the installed size are not written. -/
def bar2Write (a : Nat) (bs : List (Option Byte)) (off : Nat) : Act := fun s =>
  let k := bar2Kind s a bs.length
  seq [only (k ≠ 0) (accErr .pcie k off),
    only (k = 0 ∨ k = 5) (seq [
      forEach bs.zipIdx fun x => match x.1 with
        | some b => lpWrite (a + x.2) [b]
        | none => nop,
      only (hitsCapture s a bs) captureUndef])] s

/-- BAR2_REQUEST. -/
def bar2 (x : Nat) (w : List (Option Byte) ⊕ Nat) : Act := pcieReq w.isLeft fun s =>
  let a := (s.rd64 R.HOST_WIN_BASE).toNat + x
  match w with
  | .inl bs => bar2Write a bs x s
  | .inr n => bar2Read a n x s

/-! ### Link and PERSTN (R438) -/

/-- PERST. -/
def perstLow : Act := whenA (fun s => s.up) (seq [
  clrB F.HOST_STAT_link_up, setF F.HOST_STAT_speed 0, setF F.HOST_STAT_width 0,
  forEach (List.range 32) fun v => seq [set64 (R.HOST_MSIX_ADDR v) 0#64, setW (R.HOST_MSIX_DATA v) 0#32, setW (R.HOST_MSIX_CTRL v) 1#32],
  set64 R.HOST_MSIX_PBA 0#64, hostA fun h => { h with cfg := {} }])

/-- What the root complex has written to configuration space by the time the link reaches L0, and what its errors left in AER:
no command carries a configuration request.  DESIGN CHOICE, log entry 113. -/
def cfgFree (n : Nat) : CfgSpace :=
  { bar0 := BitVec.ofNat 6 n, bar2 := BitVec.ofNat 36 (n / 2 ^ 6), d3 := n.testBit 42, large := n.testBit 43, msixEn := n.testBit 44,
    funcMask := n.testBit 45, aer := BitVec.ofNat 64 (n / 2 ^ 46) }

/-- The capabilities of R435: power management, PCI Express, MSI-X, advanced error reporting. -/
inductive PcieCap | power | express | msix | aer
deriving DecidableEq, Repr

/-- A word of the standard header of configuration space that R435 gives, with the layout of the PCI Express specification that R435
names.  PRESUMED, log entry 113. -/
def CfgSpace.header (c : CfgSpace) (off : Nat) : Option Word :=
  match off with
  | 0x00 => some 0x840048A1#32
  | 0x08 => some 0x118000B1#32
  | 0x10 => some (c.bar0 ++ 0#26)
  | 0x18 => some (c.bar2.extractLsb' 0 4 ++ 0xC#28)
  | 0x1C => some (c.bar2.extractLsb' 4 32)
  | 0x14 | 0x20 | 0x24 | 0x30 => some 0#32
  | _ => none

/-- Word `n` of capability `cap` of R435, with the structures of the PCI Express specification that R435 names: the bits that R435
settles, under their mask.  Where in configuration space a capability lies, R435 does not say.  PRESUMED, log entry 113. -/
def cfgCap (s : State) (cap : PcieCap) (n : Nat) : Option (Word × Word) :=
  let c := s.hid.host.cfg
  let w (mask : Word) (v : Nat) : Option (Word × Word) := some (mask, BitVec.ofNat 32 v)
  match cap, n with
  | .power, 0 => w 0x060000FF#32 0x01
  | .power, 1 => w 3#32 (3 * b2n c.d3)
  | .express, 0 => w 0x00F000FF#32 0x10
  | .express, 1 => w 7#32 1
  | .express, 2 => w 0xE0#32 (2 ^ 5 * b2n c.large)
  | .express, 3 => w 0xFFF#32 (3 + 2 * 2 ^ 4 + 2 * 2 ^ 10)
  | .express, 4 => w 0x03FF0000#32 ((s.f F.HOST_STAT_speed + 2 ^ 4 * s.f F.HOST_STAT_width) * 2 ^ 16)
  | .msix, 0 => w 0xC7FF00FF#32 (0x11 + 31 * 2 ^ 16 + 2 ^ 30 * b2n c.funcMask + 2 ^ 31 * b2n c.msixEn)
  | .msix, 1 => w (BitVec.allOnes 32) (R.HOST_MSIX_ADDR 0)
  | .msix, 2 => w (BitVec.allOnes 32) R.HOST_MSIX_PBA
  | .aer, 0 => w 0xFFFF#32 1
  | .aer, 1 => some (BitVec.allOnes 32, c.aer.extractLsb' 0 32)
  | .aer, 4 => some (BitVec.allOnes 32, c.aer.extractLsb' 32 32)
  | _, _ => none

/-- PCIE_LINK_STATE_CHANGE: at L0 WAKEN is released and the messages that waited go out. -/
def linkChange (l0 : Bool) (speed : BitVec 3) (width : BitVec 2) : Act := whenA (fun s => s.up) (seq [
  setF F.HOST_STAT_link_up (b2n l0), setF F.HOST_STAT_speed speed.toNat, setF F.HOST_STAT_width width.toNat,
  only l0 (seq [withEnv fun n => hostA fun h => { h with cfg := cfgFree n }, hidA fun h => { h with wake := { h.wake with waken := false } }, vecFlush])])

/-! ### SPI frames (R439, R440) -/

/-- One bit of the CRC-8 register of R439. -/
def crc8Bit (c : Byte) : Byte := if c.getLsbD 7 then (c <<< 1) ^^^ 7#8 else c <<< 1

/-- CRC-8 over a byte string. -/
def crc8 (bs : List Byte) : Byte :=
  bs.foldl (fun c b => (List.range 8).foldl (fun x _ => crc8Bit x) (c ^^^ b)) 0#8

/-- The four bytes of a word, MSB first. -/
def beBytes (w : Word) : List Byte := (leBytes 4 w.toNat).reverse

/-- The device's part of an SPI frame is `bs`. -/
def spiSends (bs : List Byte) : Act := hostA fun h => { h with spiOut := bs }

/-- What the device sends for a word read, after its wait bytes (R439). -/
def spiWord (crc : Bool) (w : Word) : List Byte :=
  let d := 0xA5#8 :: beBytes w
  if crc then d ++ [crc8 d] else d

/-- It sends the words of the port's response, and 0xE1 after them where a further one came too late (R440). -/
def spiAnswers (late : Bool) : Act := fun s =>
  spiSends ((s.resp.get {} (portIx .spi)).data.flatMap (spiWord (s.on F.HOST_CFG_spi_crc)) ++ if late then [0xE1#8] else []) s

/-- Bit `i` of the SPI status byte. -/
def spiBit (i : Nat) (b : Bool) : Act :=
  hostA fun h => { h with spi := if b then h.spi ||| (1#8 <<< i) else h.spi &&& ~~~ (1#8 <<< i) }

/-- A whole SPI frame at address `a`: with `spi_crc` a bad CRC byte discards it (R440). -/
def spiFrame (a : Word) (covered : List Byte) (crc : Byte) (bad good : Act) : Act := whenA (fun s => s.up) fun s =>
  if s.on F.HOST_CFG_spi_crc ∧ crc8 covered ≠ crc then seq [spiSends [], accErr .spi 6 a.toNat, spiBit 1 true, bad] s
  else seq [spiSends [], spiBit 1 false, good] s

/-- A write on the SPI port, with bit 0 of the status: applied unless it was an access error. -/
def spiApply (a v : Word) : Act := fun s =>
  let was := s.hid.host.spi.getLsbD 2
  seq [spiBit 2 false, portWrite .spi a.toNat .b32 (v.zeroExtend 64),
    withS fun t => seq [spiBit 0 (!t.hid.host.spi.getLsbD 2), only was (spiBit 2 true)]] s

/-- SPI_WRITE (R440). -/
def spiWr (a v : Word) (crc : Byte) (whole : Bool) : Act :=
  only whole (spiFrame a (2#8 :: (beBytes a ++ beBytes v)) crc (spiBit 0 false) (spiApply a v))

/-- The read timed out: 0xE1 goes out in place of 0xA5, and the read is dropped. -/
def spiLate (a : Word) : Act := seq [accErr .spi 7 a.toNat, spiBit 3 true]

/-- Words of an SPI read of one address; a misaligned one returns zero. -/
def spiWords (a : Word) (n : Nat) : Act :=
  if a.toNat % 4 ≠ 0 then seq [forEach (List.range n) fun _ => accErr .spi 1 a.toNat, respond .spi (List.replicate n 0#32) true]
  else readWords .spi (List.replicate n a.toNat) [] false

/-- SPI_READ (R439, R440). -/
def spiRd (a : Word) (crc : Byte) (whole ready : Bool) : Act :=
  only whole (spiFrame a (3#8 :: beBytes a) crc nop
    (cond (fun s => ready && !readHeld a.toNat s) (seq [spiWords a 1, spiAnswers false])
      (seq [spiLate a, respond .spi [] true, spiAnswers true])))

/-- SPI_REPEATED_READ. -/
def spiRepeat (a : Word) (crc : Byte) (n : Nat) (late : Bool) : Act :=
  spiFrame a (0x0B#8 :: beBytes a) crc nop
    (cond (readHeld a.toNat) (seq [spiLate a, respond .spi [] true, spiAnswers true])
      (seq [spiWords a n, only late (spiLate a), spiAnswers late]))

/-- SPI_STATUS: the byte, whose bits 2 and 3 clear. -/
def spiStat : Act := whenA (fun s => s.up) fun s =>
  seq [respond .spi [s.hid.host.spi.zeroExtend 32] false, hostA fun h => { h with spi := h.spi &&& 0xF3#8, spiOut := [h.spi] }] s

end Sys2Proof.Machine
end

