-- ==== Sys2Proof/Machine/Access.lean ====
section
/-!
DEFINITION. The commands of the access ports, the seam and the interrupt vectors (R12 to R30, R372, R373, R436 to R443).
-/

namespace Sys2Proof.Machine

def execRegisterWrite (p : Port) (a : BitVec 26) (sz : AccSize) (v : BitVec 64) (s : State) := finish (portWrite p a.toNat sz v) s
def execPu36LowWordWrite (p : Port) (a : BitVec 26) (v : Word) (s : State) :=
  finish (portWrite p a.toNat .b32 (v.zeroExtend 64)) s
def execPu36HighWordWrite (p : Port) (a : BitVec 26) (v : Word) (s : State) :=
  finish (portWrite p a.toNat .b32 (v.zeroExtend 64)) s

/-- The register at `off` is a SNAP register. -/
def isSnap (s : State) (off : Nat) : Bool :=
  match regAt off with
  | some r => (snapGroup s r).isSome
  | none => false

def execSnapRead (p : Port) (a : BitVec 26) (s : State) := finish (whenA (fun s => isSnap s a.toNat) (readReg p a.toNat)) s
def execSeamPacketCrcError (d : Die) (s : State) := finish (seamCrc d) s
def execSeamLinkLost (d : Die) (s : State) := finish (seamLost d) s
def execSeamLinkTrained (d : Die) (skew : Int) (s : State) := finish (seamTrained d skew) s
def execBar0Request (a : BitVec 26) (wr : Bool) (ws : List (BitVec 4 × Word)) (s : State) := finish (bar0 a.toNat wr ws) s
def execBar2Request (x : BitVec 28) (w : List (Option Byte) ⊕ Nat) (s : State) := finish (bar2 x.toNat w) s
def execPerst (s : State) := finish perstLow s
def execPcieLinkStateChange (l0 : Bool) (speed : BitVec 3) (width : BitVec 2) (s : State) := finish (linkChange l0 speed width) s
def execSpiWrite (a v : Word) (crc : Byte) (whole : Bool) (s : State) := finish (spiWr a v crc whole) s
def execSpiRead (a : Word) (crc : Byte) (whole ready : Bool) (s : State) := finish (spiRd a crc whole ready) s
def execSpiRepeatedRead (a : Word) (crc : Byte) (n : Nat) (late : Bool) (s : State) := finish (spiRepeat a crc n late) s
def execSpiStatus (s : State) := finish spiStat s
def execHostVecAckRead (p : Port) (v : Fin 32) (s : State) := finish (readReg p (R.HOST_VEC_ACK v)) s
def execHostVectorPending (src : Fin 80) (s : State) := finish (vecRise src) s
def execDoorbellWrite (p : Port) (f2h : Bool) (v : Word) (s : State) :=
  finish (portGate p (if f2h then R.HOST_DB_F2H else R.HOST_DB_H2F) (doorbell p f2h v)) s
def execIrqSourceRise (src : Fin 256) (s : State) := finish (irqRise src) s
def execIrqClaim (p : Port) (s : State) := finish (readReg p R.CHNT_IRQ_CLAIM) s
def execIrqDone (p : Port) (v : Word) (s : State) := finish (portGate p R.CHNT_IRQ_DONE (irqDone v)) s

end Sys2Proof.Machine
end

