-- ==== Sys2Proof/Machine/BootCmd.lean ====
section
/-!
DEFINITION. The commands of boot, update, OTP, sealing and attestation (R458 to R476).
-/

namespace Sys2Proof.Machine

/-- A word written to a command register with its `op` field, bits 1:0, as given. -/
def withOp2 (v : Word) (op : Nat) : Word := (v &&& ~~~ 3#32) ||| BitVec.ofNat 32 op

def execRomBoot (bootsel : BitVec 2) (s : State) := finish (romBoot bootsel) s
def execBootComplete (readOk : Bool) (s : State) := finish (bootComplete readOk) s
def execUpdStart (p : Port) (v : Word) (readOk : Bool) (s : State) :=
  finish (portGate p R.BOOT_UPD_CMD (updCmd p (withOp2 v 1) readOk)) s
def execUpdBlock (p : Port) (v : Word) (s : State) := finish (portGate p R.BOOT_UPD_CMD (updCmd p (withOp2 v 2) true)) s
def execUpdBlockDone (pages : Fin 17) (refused : Option (BitVec 4)) (fail : Bool) (s : State) :=
  finish (blockDone pages refused.isSome fail) s
def execUpdAbort (p : Port) (v : Word) (s : State) := finish (portGate p R.BOOT_UPD_CMD (updCmd p (withOp2 v 3) true)) s
def execBootConfirm (p : Port) (v : Word) (s : State) := finish (portGate p R.BOOT_CONFIRM (confirmCmd p v)) s
def execConfirmDone (otpOk : Bool) (s : State) := finish (confirmDone otpOk) s
def execOtpProgram (p : Port) (v : Word) (s : State) := finish (portGate p R.SEC_OTP_CMD (otpCmd p (withOp2 v 1))) s
def execOtpRevoke (p : Port) (v : Word) (s : State) := finish (portGate p R.SEC_OTP_CMD (otpCmd p (withOp2 v 2))) s
def execSeal (p : Port) (v : Word) (rng : Bool) (s : State) := finish (portGate p R.SEC_SEAL_CMD (sealCmd p (withOp2 v 1) rng)) s
def execUnseal (p : Port) (v : Word) (s : State) := finish (portGate p R.SEC_SEAL_CMD (sealCmd p (withOp2 v 2) true)) s
def execAttest (p : Port) (v : Word) (rng : Bool) (s : State) := finish (portGate p R.SEC_ATT_CMD (attCmd (v ||| 1#32) rng)) s

/-- A read of `SEC_RNG`; `rng` says that the source passes its health test (R472). -/
def rngReg (p : Port) (rng : Bool) : Act := readGate p R.SEC_RNG fun s =>
  seq [respond p [rngWord s rng] false, rngAct rng] s

def execRngRead (p : Port) (rng : Bool) (s : State) := finish (rngReg p rng) s
def execSecOperationDone (ok : Bool) (s : State) := finish (secDone ok) s

end Sys2Proof.Machine
end

