-- ==== Sys2Proof/Machine/BoreCmd.lean ====
section
/-!
DEFINITION. The commands of the Bore engines (R237 to R265).
-/

namespace Sys2Proof.Machine

def execBoreTrigger (e : Fin 8) (s : State) := finish (boreHook e (boreRouted e)) s
def execBoreGo (p : Port) (e : Fin 8) (v : Word) (s : State) :=
  finish (portGate p (R.BORE_CTL e) (boreHook e (boreCtl p e (v ||| 1#32)))) s
def execBoreStepEnd (e : Fin 8) (s : State) := finish (boreStepEnd e) s
def execEnginePacketArrival (e : Fin 8) (d : Die) (s : State) := finish (packetArrival e d) s
def execFixedReleaseTick (e : Fin 8) (d : Die) (s : State) := finish (fixedRelease e d) s

/-- A coefficient of stage `g` (there are eight), or a set-point. -/
def coefWrite (p : Port) (e : Nat) (g : Option (Fin 48)) (k : Nat) (v : Int) : Act :=
  match g with
  | some g => only (k < 8) (portGate p (R.BORE_STG_K e g k) (coefLand e g k v))
  | none => portGate p (R.BORE_SP e k) (setpointLand e k v)

def execBoreCoefWrite (p : Port) (e : Fin 8) (g : Option (Fin 48)) (k : Fin 16) (v : BitVec 36) (s : State) :=
  finish (coefWrite p e g k v.toInt) s
def execBoreHoldWrite (p : Port) (e : Fin 8) (v : Word) (s : State) :=
  finish (portGate p (R.BORE_CTL e) (boreHook e (boreCtl p e v))) s
def execBoreHoldExpiry (e : Fin 8) (s : State) := finish (boreHook e (holdExpiry e)) s
def execBreathInit (p : Port) (e : Fin 8) (v : Word) (s : State) :=
  finish (portGate p (R.BORE_CTL e) (boreHook e (boreCtl p e (v ||| 0x20#32)))) s
def execClrState (p : Port) (e : Fin 8) (v : Word) (s : State) :=
  finish (portGate p (R.BORE_CTL e) (boreHook e (boreCtl p e (v ||| 0x100#32)))) s
def execBoreStateWrite (p : Port) (e : Fin 8) (g : Fin 48) (i : Fin 4) (v : BitVec 48) (s : State) :=
  finish (portGate p (R.BORE_STG_X e g i) (stateLand e g i v.toInt)) s

end Sys2Proof.Machine
end

