-- ==== Sys2Proof/Machine/CanCmd.lean ====
section
/-!
DEFINITION. The commands of the CAN controllers and network time (R411 to R434).
-/

namespace Sys2Proof.Machine

def execCanEnable (p : Port) (k : Fin 4) (v : Word) (s : State) := finish (portGate p (R.CAN_CTL k) (canCtl k (v ||| 1#32))) s
def execCanDisable (p : Port) (k : Fin 4) (v : Word) (s : State) :=
  finish (portGate p (R.CAN_CTL k) (canCtl k (v &&& ~~~ 1#32))) s
def execCanFrameRx (k : Fin 4) (m : CanMsg) (sof : BitVec 64) (s : State) := finish (canFrame k m sof) s
def execCanTxrq (p : Port) (k : Fin 4) (hi : Bool) (v : Word) (s : State) :=
  finish (portGate p (if hi then R.CAN_TXRQ_HI k else R.CAN_TXRQ_LO k) (canTxrq k hi v)) s
def execCanTxStart (k : Fin 4) (s : State) := finish (canTxStart k) s
def execCanTxDone (k : Fin 4) (delay : BitVec 8) (s : State) := finish (canTxDone k delay) s
def execCanCancel (p : Port) (k : Fin 4) (hi : Bool) (v : Word) (s : State) :=
  finish (portGate p (if hi then R.CAN_CANCEL_HI k else R.CAN_CANCEL_LO k) (canCancel k hi v)) s
def execCanError (k : Fin 4) (e : CanFault) (tec : BitVec 9) (rec' : BitVec 8) (data : Bool) (s : State) :=
  finish (canError k e tec rec' data) s
def execBusOffRecover (p : Port) (k : Fin 4) (v : Word) (s : State) :=
  finish (portGate p (R.CAN_CTL k) (canCtl k (v ||| 0x400#32))) s
def execBusOffRecoveryDone (k : Fin 4) (s : State) := finish (busOffDone k) s
def execMbNewClear (p : Port) (k : Fin 4) (b : Fin 64) (v : Word) (s : State) :=
  finish (portGate p (R.CAN_MB_CFG k b) (mbCfg p k b (v ||| 0x20000#32))) s
def execRxfPop (p : Port) (k : Fin 4) (v : Word) (s : State) := finish (portGate p (R.CAN_RXF_POP k) (rxfPop k (v ||| 1#32))) s
def execCanSleep (p : Port) (k : Fin 4) (v : Word) (s : State) := finish (portGate p (R.CAN_CTL k) (canCtl k (v ||| 8#32))) s
def execCanWake (k : Fin 4) (w : CanWakeBy) (s : State) := finish (canWake k w) s
def execBusIntegrationComplete (k : Fin 4) (s : State) := finish (canIntegrated k) s
def execNtCfgWrite (p : Port) (v : Word) (s : State) := finish (portGate p R.CAN_NT_CFG (ntCfg v)) s
def execNtRefDue (s : State) := finish ntRefDue s
def execNtRefRx (m : CanMsg) (sof : BitVec 64) (s : State) := finish (ntFrame m sof) s
def execNtHoldover (s : State) := finish ntHoldover s
def execNtSet (p : Port) (v : BitVec 64) (s : State) := finish (portGate p R.CAN_NT_SET (ntSet p v)) s
def execNtWrap (s : State) := finish ntWrap s

end Sys2Proof.Machine
end

