-- ==== Sys2Proof/Machine/ChntCmd.lean ====
section
/-!
DEFINITION. The commands of the Chanter (R359 to R375).
-/

namespace Sys2Proof.Machine

def execLockstepMismatch (seg : Fin 8) (s : State) := finish (lockstepMismatch seg) s
def execSramEccError (addr : BitVec 32) (double : Bool) (s : State) := finish (sramEcc addr double) s
def execSramScrub (s : State) := finish sramScrub s
def execChntSelftestEnd (pass : BitVec 8) (s : State) := finish (selftestEnd pass) s
def execAgreeReq (p : Port) (v : Word) (lead0 trail0 lead1 trail1 : BitVec 16) (s : State) :=
  finish (portGate p R.CHNT_AGREE_REQ (agreeReq v lead0 trail0 lead1 trail1)) s
def execAgreeValRead (p : Port) (g : Fin 2) (s : State) := finish (readReg p (R.CHNT_AGREE_VAL g)) s
def execSvckeyAgree (lead trail : Bool) (s : State) := finish (svckeyAgree lead trail) s
def execSweepBegin (p : Port) (v : Word) (s : State) := finish (portGate p R.CHNT_SWEEP_CTL (sweepBegin p (v ||| 1#32))) s
def execSweepData (p : Port) (_v : Word) (s : State) := finish (portGate p R.CHNT_SWEEP_DATA (sweepData p)) s
def execSweepEnd (p : Port) (v : Word) (s : State) := finish (portGate p R.CHNT_SWEEP_CTL (sweepEnd p (v ||| 2#32))) s
def execSweepOverdue (s : State) := finish sweepOverdue s
def execChntRestart (p : Port) (v : Word) (s : State) := finish (portGate p R.CHNT_CTL (chntRestart p v)) s
def execDebugHalt (s : State) := finish debugHalt s
def execWdKick (p : Port) (v : Word) (us : Nat) (s : State) := finish (portGate p R.CHNT_WD_KICK (kick v us)) s
def execMachineTimer (s : State) := finish machineTimer s

end Sys2Proof.Machine
end

