-- ==== Sys2Proof/Machine/ConvCmd.lean ====
section
/-!
DEFINITION. The commands of the converters and Fine channels (R139 to R165).
-/

namespace Sys2Proof.Machine

def execConvRoutedTrigger (c : Fin 16) (s : State) := finish (convRouted c) s
def execConvSoftwareTrigger (p : Port) (c : Fin 16) (v : Word) (s : State) :=
  finish (portGate p (R.CONV_C_CTL c) (convCtl c (v ||| 2#32))) s
def execConversionEnd (c : Fin 16) (x : ConvIn) (full : Bool) (s : State) := finish (conversionEnd c x full) s
def execConvDisable (p : Port) (c : Fin 16) (v : Word) (s : State) :=
  finish (portGate p (R.CONV_C_CTL c) (convCtl c (v &&& ~~~ 3#32))) s
def execConvRefCfgWrite (p : Port) (d : Die) (v : Word) (s : State) := finish (portGate p (R.CONV_REF_CFG d) (refWrite d v)) s
def execRefSettled (d : Die) (s : State) := finish (refSettled d) s
def execRefFault (d : Die) (s : State) := finish (refFault d) s
def execConvCalMeasure (p : Port) (d : Die) (v : Word) (s : State) :=
  finish (portGate p (R.CONV_CAL_CMD d) (calMeasure d (v &&& 0xFF#32 ||| 0x100#32))) s
def execConvCalRestore (p : Port) (d : Die) (v : Word) (s : State) :=
  finish (portGate p (R.CONV_CAL_CMD d) (calRestore d (v &&& 0xFF#32 ||| 0x200#32))) s
def execConvCalInvalid (p : Port) (d : Die) (v : Word) (s : State) := finish (portGate p (R.CONV_CAL_CMD d) (calInvalid d v)) s
def execConvCalComplete (d : Die) (meas : List CalMeas) (s : State) := finish (calComplete d meas) s
def execFineSample (f : Fin 12) (vd ext vdda : Rat) (s : State) := finish (fineSample f vd ext vdda) s

end Sys2Proof.Machine
end

