-- ==== Sys2Proof/Machine/DroneCmd.lean ====
section
/-!
DEFINITION. The commands of the Drone and the safety inputs and outputs (R376 to R396).
-/

namespace Sys2Proof.Machine

def execDroneDemand (s : State) := finish droneEval s
def execDroneModePacket (s : State) := finish modePacket s
def execModePacketStale (s : State) := finish modeStale s
def execSafetyInputFiltered (j : Fin 4) (b high : Bool) (s : State) := finish (inputFiltered j b high) s
def execDiscrepancyTimeout (j : Fin 4) (s : State) := finish (discTimeout j) s
def execTpoPulse (t1 : Bool) (low : BitVec 4) (s : State) := finish (tpoPulse t1 low) s
def execWdTimeout (s : State) := finish wdTimeout s
def execParamRecheck (s : State) := finish paramRecheck s
def execForcedOffReadback (s : State) := finish lineFault s
def execStuckOutput (k : Fin 4) (sol : Bool) (s : State) := finish (stuckOutput k sol) s
def execTestRoundStart (s : State) := finish roundStart s
def execTestPulse (off on demanded : Bool) (s : State) := finish (testPulse off on demanded) s
def execSvckeyPresent (s : State) := finish svckeyPresent s
def execSvckeyAbsent (s : State) := finish svckeyAbsent s
def execSysSolWrite (p : Port) (v : Word) (s : State) := finish (portGate p R.SYS_SOL (solCmd p v)) s
def execDroneRst (p : Port) (v : Word) (held : BitVec 4) (s : State) :=
  finish (portGate p R.SYS_DRONE_RST (droneRst p v held)) s

end Sys2Proof.Machine
end

