-- ==== Sys2Proof/Machine/EdgeCmd.lean ====
section
/-!
DEFINITION. The commands of the edge units (R187 to R213).
-/

namespace Sys2Proof.Machine

def execCarrierZero (n : Fin 48) (s : State) := finish (carrierZero n) s
def execCarrierPeak (n : Fin 48) (s : State) := finish (carrierPeak n) s
def execEdgeCommitWrite (p : Port) (d : Die) (v : Word) (s : State) := finish (portGate p (R.EDGE_COMMIT d) (commitWrite d v)) s
def execCompareMatch (n : Fin 48) (rise : Bool) (len : Nat) (s : State) := finish (compareMatch n rise len) s
def execDeadTimeExpiry (n : Fin 48) (len : Nat) (s : State) := finish (deadTimeEnd n len) s
def execRefreshIntervalEnd (n : Fin 48) (s : State) := finish (refreshEnd n) s
def execEdgeCalTap (n : Fin 48) (i : Fin 64) (trim : BitVec 4) (total : BitVec 16) (s : State) := finish (calTap n i trim total) s
def execEdgeCalPeriodEnd (n : Fin 48) (s : State) := finish (calPeriodEnd n) s
def execSynciEdge (rise : Bool) (s : State) := finish (synciEdge rise) s
def execDebugUnfreeze (s : State) := finish debugUnfreeze s
def execEdgeDisable (p : Port) (n : Fin 48) (v : Word) (s : State) :=
  finish (portGate p (R.EDGE_CH_CFG n) (edgeCfg p n (v &&& ~~~ 1#32))) s
def execMinimumPulseStretchEnd (n : Fin 48) (s : State) := finish (stretchEnd n) s
def execSyncoPulseEnd (s : State) := finish syncoEnd s

end Sys2Proof.Machine
end

