-- ==== Sys2Proof/Machine/FingCmd.lean ====
section
/-!
DEFINITION. The commands of the Fingering loader (R106 to R116).
-/

namespace Sys2Proof.Machine

def execFingLoad (p : Port) (s : State) := finish (portGate p R.FING_CMD (fingLoad p)) s
def execFingLoadComplete (s : State) := finish fingLoadDone s
def execFingApply (p : Port) (s : State) := finish (portGate p R.FING_CMD (fingApply p)) s
def execFingApplyComplete (s : State) := finish fingApplyDone s
def execFingCommit (p : Port) (s : State) := finish (portGate p R.FING_CMD (fingCommit p)) s
def execFingCommitComplete (s : State) := finish fingCommitDone s
def execFingDiscard (p : Port) (s : State) := finish (portGate p R.FING_CMD (fingDiscard p)) s
def execFingCmdInvalid (p : Port) (op : BitVec 3) (s : State) := finish (portGate p R.FING_CMD (fingInvalid p op.toNat)) s
def execFingAbandon (why : FingAbort) (s : State) := finish (fingAbandon why) s

end Sys2Proof.Machine
end

