-- ==== Sys2Proof/Machine/GateCmd.lean ====
section
/-!
DEFINITION. The commands of the gate channels, pods and Ligature buses (R214 to R236).
-/

namespace Sys2Proof.Machine

def execFaultVectorRx (k : Fin 4) (slots : BitVec 12) (crc : BitVec 8) (s : State) := finish (vectorRx k slots crc) s
def execPodFaultVectorStart (k : Fin 4) (s : State) := finish (vectorStart k) s
def execFaultVectorPoll (k : Fin 4) (s : State) := finish (vectorPoll k) s
def execLigNextFrame (k : Fin 4) (s : State) := finish (ligNext k) s
def execTelem (n : Fin 48) (vds temp supply status : BitVec 12) (crc : BitVec 8) (s : State) :=
  finish (telemRx n vds temp supply status crc) s
def execAck (n : Fin 48) (addr : BitVec 8) (data : BitVec 16) (crc : BitVec 8) (s : State) := finish (ackRx n addr data crc) s
def execPodAnswerTimeout (k : Fin 4) (s : State) := finish (answerTimeout k) s
def execAutoClearTimer (n : Fin 48) (s : State) := finish (autoClear n) s
def execTriesResetTimer (n : Fin 48) (s : State) := finish (triesReset n) s
def execFaultClr (p : Port) (n : Fin 48) (v : Word) (s : State) := finish (portGate p (R.GATE_CH_FAULT n) (faultClr n v)) s
def execProfileWrite (p : Port) (n : Fin 48) (x : Fin 24) (v : Word) (s : State) :=
  finish (portGate p (R.GATE_CH_PROF n x) (profileWrite n x v)) s
def execLigDisable (p : Port) (k : Fin 4) (v : Word) (s : State) :=
  finish (portGate p (R.GATE_LIG_CFG k) (ligCfgWrite k (v &&& ~~~ 1#32))) s

end Sys2Proof.Machine
end

