-- ==== Sys2Proof/Machine/GridCmd.lean ====
section
/-!
DEFINITION. The commands of the grid block, the MPPT engine and the Whistle (R266 to R337).
-/

namespace Sys2Proof.Machine

def execGridTrigger (s : State) := finish (gridHook gridRouted) s
def execGridGo (p : Port) (v : Word) (s : State) :=
  finish (portGate p R.GRID_CTL (gridHook (gridCtl (v ||| 1#32)))) s
def execGridPublish (s : State) := finish gridPublish s
def execGridInit (p : Port) (v : Word) (s : State) :=
  finish (portGate p R.GRID_CTL (gridHook (gridCtl (v ||| 2#32)))) s
def execGridBaseWrite (p : Port) (i : Fin 4) (v : Word) (s : State) :=
  finish (portGate p (R.GRID_VBASE + 4 * i) (baseWrite p (R.GRID_VBASE + 4 * i) v)) s
def execSweepNow (p : Port) (v : Word) (s : State) := finish (portGate p R.MPPT_CTL (mpptCtl (v ||| 0x10000#32))) s
def execSweepDue (s : State) := finish sweepDue s
def execSweepDwellEnd (s : State) := finish dwellEnd s
def execProbeCodeFrame (d : List Byte) (s : State) := finish (probeFrame d) s
def execProbePhaseFrame (d : List Byte) (s : State) := finish (probeFrame d) s
def execProbeBadFrame (d : List Byte) (s : State) := finish (probeFrame d) s
def execProbePhaseCmd (p : Port) (v : Word) (s : State) := finish (portGate p R.PROBE_PHASE_CMD (phaseCmd (v ||| 0x80000000#32))) s
def execProbeRelearn (p : Port) (v : Word) (s : State) := finish (portGate p R.PROBE_CTL (probeCtl p (v ||| 2#32))) s
def execClrIsland (p : Port) (v : Word) (s : State) := finish (portGate p R.PROBE_CTL (probeCtl p (v ||| 1#32))) s

end Sys2Proof.Machine
end

