-- ==== Sys2Proof/Machine/MemCmd.lean ====
section
/-!
DEFINITION. The commands of the flash, the external memory and the recorder (R444 to R457).
-/

namespace Sys2Proof.Machine

/-- A word written to a command register with its `op` field, bits 2:0, as given. -/
def withOp (v : Word) (op : Nat) : Word := (v &&& ~~~ 7#32) ||| BitVec.ofNat 32 op

def execQspiRead (p : Port) (v : Word) (s : State) := finish (portGate p R.QSPI_CMD (qspiCmd (withOp v 1))) s
def execQspiProgram (p : Port) (v : Word) (s : State) := finish (portGate p R.QSPI_CMD (qspiCmd (withOp v 2))) s
def execQspiEraseSector (p : Port) (v : Word) (s : State) := finish (portGate p R.QSPI_CMD (qspiCmd (withOp v 3))) s
def execQspiEraseBlock (p : Port) (v : Word) (s : State) := finish (portGate p R.QSPI_CMD (qspiCmd (withOp v 4))) s
def execQspiOpDone (pages : Nat) (cut fail : Bool) (s : State) := finish (qspiDone pages cut fail) s
def execMr4Read (v : Byte) (s : State) := finish (mr4Take v) s
def execRecSlotSample (i : Fin 64) (full : Bool) (s : State) := finish (slotSample i full) s
def execRecGapMarker (i : Option (Fin 64)) (s : State) := finish (gapMark (i.map (·.val))) s
def execRecTrigger (m : BitVec 7) (s : State) := finish (recTrig m.toNat) s
def execRecRegionFull (s : State) := finish regionFull s
def execRecArm (p : Port) (r : Fin 8) (v : Word) (s : State) :=
  finish (portGate p (R.REC_REG_STAT r) (regionArm r (v ||| 0x10#32))) s
def execRecEnWrite (p : Port) (v : Word) (s : State) := finish (portGate p R.REC_CTL (recEn v)) s
def execRecRdDataRead (p : Port) (s : State) := finish (readReg p R.REC_RD_DATA) s

end Sys2Proof.Machine
end

