-- ==== Sys2Proof/Machine/MeterCmd.lean ====
section
/-!
DEFINITION. The commands of the metering block (R338 to R358).
-/

namespace Sys2Proof.Machine

def execMeterFineSample (i : Fin 2) (idx : BitVec 12) (s : State) := finish (fineMetered i idx.toNat) s
def execMeterIntervalClose (i : Fin 2) (t0 t1 : BitVec 64) (s : State) := finish (leanMetered i t0 t1) s
def execMeterStop (i : Fin 2) (s : State) := finish (meterStop i) s
def execMeterAccWrite (p : Port) (i : Fin 2) (k : Fin 9) (v : BitVec 64) (s : State) :=
  finish (portGate p (if k.val = 8 then R.METER_PT_WRAP i else R.METER_PT_ACC i k) (accWrite p i k v)) s
def execCompatStatusRead (p : Port) (s : State) := finish (readReg p R.COMPAT_STATUS) s

end Sys2Proof.Machine
end

