-- ==== Sys2Proof/Machine/PairCmd.lean ====
section
/-!
DEFINITION. The commands of the pair (R397 to R410).
-/

namespace Sys2Proof.Machine

def execPairCmdPair (p : Port) (v : Word) (s : State) := finish (portGate p R.PAIR_CMD (pairCmdPair v)) s
def execPairCmdUnpair (p : Port) (_v : Word) (s : State) := finish (portGate p R.PAIR_CMD pairCmdUnpair) s
def execPairCmdHandover (p : Port) (_v : Word) (s : State) := finish (portGate p R.PAIR_CMD pairCmdHandover) s
def execHello (m : HelloMsg) (a : HelloAuth) (peer : Bool) (s : State) := finish (helloRx m a peer) s
def execHelloSend (s : State) := finish helloSend s
def execHelloTimeout (s : State) := finish helloTimeout s
def execHeartSend (s : State) := finish heartSend s
def execHeart (m : HeartMsg) (ctr : BitVec 40) (peer : Bool) (s : State) := finish (heartRx m ctr peer) s
def execHeartbeatMiss (peer : Bool) (s : State) := finish (heartMiss peer) s
def execMirror (ctr : BitVec 40) (kind : Fin 6) (ix : Fin 8) (step : BitVec 48) (data : List Rat) (s : State) :=
  finish (mirRx ctr kind ix step data) s
def execMirrorSend (kind : Fin 6) (ix : Fin 8) (s : State) := finish (mirSend kind ix) s
def execPairFrameDiscard (hello : Bool) (s : State) := finish (frameDiscard hello) s
def execRelinquish (ctr : BitVec 40) (t : BitVec 64) (s : State) := finish (relinquishRx ctr t) s
def execPeerroleFall (s : State) := finish peerFall s
def execRoleConflict (s : State) := finish roleConflict s
def execFjoskLaneChange (lane0 lane1 : Bool) (s : State) := finish (laneChange lane0 lane1) s

end Sys2Proof.Machine
end

