-- ==== Sys2Proof/Machine/WinCmd.lean ====
section
/-!
DEFINITION. The commands of the window monitors and the trip matrix (R166 to R186).
-/

namespace Sys2Proof.Machine

def execMonitorFilteredEdge (m : Fin 32) (vd : List Rat) (ext vdda : Rat) (sub : Bool) (s : State) :=
  finish (monSamples m vd ext vdda sub) s
def execCapInfoRead (p : Port) (m : Fin 32) (s : State) := finish (readReg p (R.WIN_M_CAP_INFO m)) s
def execMonitorDisable (p : Port) (m : Fin 32) (v : Word) (s : State) :=
  finish (portGate p (R.WIN_M_CFG m) (monCfg p m (v &&& ~~~ 1#32))) s
def execTripSourceChange (d : Die) (i : Fin 144) (s : State) := finish (tripSourceChange d i) s
def execTripLatchClear (p : Port) (d : Die) (w : Fin 5) (v : Word) (s : State) :=
  finish (portGate p (R.TRIP_LATCH d w) (tripLatchClear d w v)) s
def execTripFwSet (p : Port) (d : Die) (v : Word) (s : State) := finish (portGate p (R.TRIP_FW d) (tripFwSet d v)) s
def execTripFwClear (p : Port) (d : Die) (v : Word) (s : State) := finish (portGate p (R.TRIP_FW d) (tripFwClear d v)) s
def execTripinChange (d : Die) (high : List Bool) (s : State) := finish (tripinChange d high) s
def execTripStatePacket (d : Die) (i : Fin 144) (good : Bool) (s : State) := finish (tripStatePacket d i good) s
def execTripStateRepeat (d : Die) (s : State) := finish (tripStateRepeat d) s

end Sys2Proof.Machine
end

