-- ==== Sys2Proof/Machine/Dispatch.lean ====
section
/-!
DEFINITION. One arm for each command.
-/

namespace Sys2Proof.Machine

def exec (i : Instr) (s : State) : Host.Outcome State Fault Refusal :=
  match i with
  | .registerWrite p a sz v => Sys2Proof.Machine.execRegisterWrite p a sz v s
  | .pu36LowWordWrite p a v => Sys2Proof.Machine.execPu36LowWordWrite p a v s
  | .pu36HighWordWrite p a v => Sys2Proof.Machine.execPu36HighWordWrite p a v s
  | .snapRead p a => Sys2Proof.Machine.execSnapRead p a s
  | .seamPacketCrcError d => Sys2Proof.Machine.execSeamPacketCrcError d s
  | .seamLinkLost d => Sys2Proof.Machine.execSeamLinkLost d s
  | .seamLinkTrained d skew => Sys2Proof.Machine.execSeamLinkTrained d skew s
  | .hinColdStart => Sys2Proof.Machine.execHinColdStart s
  | .vsupPresent => Sys2Proof.Machine.execVsupPresent s
  | .vsupAbsent vb => Sys2Proof.Machine.execVsupAbsent vb s
  | .vocSample mv => Sys2Proof.Machine.execVocSample mv s
  | .storeFull st mv => Sys2Proof.Machine.execStoreFull st mv s
  | .aonStart vsup vb => Sys2Proof.Machine.execAonStart vsup vb s
  | .harvestEntryDelayExpiry => Sys2Proof.Machine.execHarvestEntryDelayExpiry s
  | .harvestHoldEnter => Sys2Proof.Machine.execHarvestHoldEnter s
  | .harvestHoldLeave => Sys2Proof.Machine.execHarvestHoldLeave s
  | .aonStop => Sys2Proof.Machine.execAonStop s
  | .pgoodAssert => Sys2Proof.Machine.execPgoodAssert s
  | .pgoodDeassert => Sys2Proof.Machine.execPgoodDeassert s
  | .nrstLow dumpOk => Sys2Proof.Machine.execNrstLow dumpOk s
  | .nrstRise => Sys2Proof.Machine.execNrstRise s
  | .pwrCmdOff p => Sys2Proof.Machine.execPwrCmdOff p s
  | .pwrCmdHarvest p dumpOk => Sys2Proof.Machine.execPwrCmdHarvest p dumpOk s
  | .pwrCmdLean p => Sys2Proof.Machine.execPwrCmdLean p s
  | .pwrCmdFull p => Sys2Proof.Machine.execPwrCmdFull p s
  | .leanEntryComplete => Sys2Proof.Machine.execLeanEntryComplete s
  | .fullEntryComplete trained size => Sys2Proof.Machine.execFullEntryComplete trained size s
  | .fullToLeanComplete => Sys2Proof.Machine.execFullToLeanComplete s
  | .harvestEntryComplete storeMv => Sys2Proof.Machine.execHarvestEntryComplete storeMv s
  | .islandEnWrite p v => Sys2Proof.Machine.execIslandEnWrite p v s
  | .islandChangeDone => Sys2Proof.Machine.execIslandChangeDone s
  | .auxenBurstStart p v => Sys2Proof.Machine.execAuxenBurstStart p v s
  | .auxenBurstVsupEnd => Sys2Proof.Machine.execAuxenBurstVsupEnd s
  | .auxenBurstTimeout => Sys2Proof.Machine.execAuxenBurstTimeout s
  | .storeAbort dumpOk => Sys2Proof.Machine.execStoreAbort dumpOk s
  | .vsupFailWarning dumpOk => Sys2Proof.Machine.execVsupFailWarning dumpOk s
  | .harvMeasureUpdate vb vsup hin vq v5 => Sys2Proof.Machine.execHarvMeasureUpdate vb vsup hin vq v5 s
  | .vddqSelWrite p v => Sys2Proof.Machine.execVddqSelWrite p v s
  | .refLost => Sys2Proof.Machine.execRefLost s
  | .refBack => Sys2Proof.Machine.execRefBack s
  | .pllLock l => Sys2Proof.Machine.execPllLock l s
  | .pllCoastStart l => Sys2Proof.Machine.execPllCoastStart l s
  | .pllRelock l => Sys2Proof.Machine.execPllRelock l s
  | .coastLimit l => Sys2Proof.Machine.execCoastLimit l s
  | .clkSysCommit p v => Sys2Proof.Machine.execClkSysCommit p v s
  | .dividerApply => Sys2Proof.Machine.execDividerApply s
  | .droneClockCheck count => Sys2Proof.Machine.execDroneClockCheck count s
  | .bellStatusRefresh d => Sys2Proof.Machine.execBellStatusRefresh d s
  | .deviceTimeWrap => Sys2Proof.Machine.execDeviceTimeWrap s
  | .skewMarker north south => Sys2Proof.Machine.execSkewMarker north south s
  | .skewCorrection d => Sys2Proof.Machine.execSkewCorrection d s
  | .slideEnable p v => Sys2Proof.Machine.execSlideEnable p v s
  | .slideDisable p v => Sys2Proof.Machine.execSlideDisable p v s
  | .slideCommit p v => Sys2Proof.Machine.execSlideCommit p v s
  | .slideRampUpdate => Sys2Proof.Machine.execSlideRampUpdate s
  | .slideStrobe j => Sys2Proof.Machine.execSlideStrobe j s
  | .clkoutSelect => Sys2Proof.Machine.execClkoutSelect s
  | .fingLoad p => Sys2Proof.Machine.execFingLoad p s
  | .fingLoadComplete => Sys2Proof.Machine.execFingLoadComplete s
  | .fingApply p => Sys2Proof.Machine.execFingApply p s
  | .fingApplyComplete => Sys2Proof.Machine.execFingApplyComplete s
  | .fingCommit p => Sys2Proof.Machine.execFingCommit p s
  | .fingCommitComplete => Sys2Proof.Machine.execFingCommitComplete s
  | .fingDiscard p => Sys2Proof.Machine.execFingDiscard p s
  | .fingCmdInvalid p op => Sys2Proof.Machine.execFingCmdInvalid p op s
  | .fingAbandon why => Sys2Proof.Machine.execFingAbandon why s
  | .modeReqDormant p => Sys2Proof.Machine.execModeReqDormant p s
  | .modeReqConfigure p => Sys2Proof.Machine.execModeReqConfigure p s
  | .modeReqStandby p => Sys2Proof.Machine.execModeReqStandby p s
  | .modeReqFollow p => Sys2Proof.Machine.execModeReqFollow p s
  | .modeReqForm p => Sys2Proof.Machine.execModeReqForm p s
  | .modeReqRide p => Sys2Proof.Machine.execModeReqRide p s
  | .modeReqHalt p => Sys2Proof.Machine.execModeReqHalt p s
  | .modeReqService p => Sys2Proof.Machine.execModeReqService p s
  | .modeTransitionComplete northOk southOk => Sys2Proof.Machine.execModeTransitionComplete northOk southOk s
  | .haltCauseActive c => Sys2Proof.Machine.execHaltCauseActive c s
  | .haltCauseClear p v => Sys2Proof.Machine.execHaltCauseClear p v s
  | .convRoutedTrigger c => Sys2Proof.Machine.execConvRoutedTrigger c s
  | .convSoftwareTrigger p c v => Sys2Proof.Machine.execConvSoftwareTrigger p c v s
  | .conversionEnd c x full => Sys2Proof.Machine.execConversionEnd c x full s
  | .convDisable p c v => Sys2Proof.Machine.execConvDisable p c v s
  | .convRefCfgWrite p d v => Sys2Proof.Machine.execConvRefCfgWrite p d v s
  | .refSettled d => Sys2Proof.Machine.execRefSettled d s
  | .refFault d => Sys2Proof.Machine.execRefFault d s
  | .convCalMeasure p d v => Sys2Proof.Machine.execConvCalMeasure p d v s
  | .convCalRestore p d v => Sys2Proof.Machine.execConvCalRestore p d v s
  | .convCalInvalid p d v => Sys2Proof.Machine.execConvCalInvalid p d v s
  | .convCalComplete d meas => Sys2Proof.Machine.execConvCalComplete d meas s
  | .fineSample f vd ext vdda => Sys2Proof.Machine.execFineSample f vd ext vdda s
  | .monitorFilteredEdge m vd ext vdda sub => Sys2Proof.Machine.execMonitorFilteredEdge m vd ext vdda sub s
  | .capInfoRead p m => Sys2Proof.Machine.execCapInfoRead p m s
  | .monitorDisable p m v => Sys2Proof.Machine.execMonitorDisable p m v s
  | .tripSourceChange d ix => Sys2Proof.Machine.execTripSourceChange d ix s
  | .tripLatchClear p d w v => Sys2Proof.Machine.execTripLatchClear p d w v s
  | .tripFwSet p d v => Sys2Proof.Machine.execTripFwSet p d v s
  | .tripFwClear p d v => Sys2Proof.Machine.execTripFwClear p d v s
  | .tripinChange d high => Sys2Proof.Machine.execTripinChange d high s
  | .tripStatePacket d ix good => Sys2Proof.Machine.execTripStatePacket d ix good s
  | .tripStateRepeat d => Sys2Proof.Machine.execTripStateRepeat d s
  | .carrierZero n => Sys2Proof.Machine.execCarrierZero n s
  | .carrierPeak n => Sys2Proof.Machine.execCarrierPeak n s
  | .edgeCommitWrite p d v => Sys2Proof.Machine.execEdgeCommitWrite p d v s
  | .compareMatch n rise len => Sys2Proof.Machine.execCompareMatch n rise len s
  | .deadTimeExpiry n len => Sys2Proof.Machine.execDeadTimeExpiry n len s
  | .refreshIntervalEnd n => Sys2Proof.Machine.execRefreshIntervalEnd n s
  | .edgeCalTap n ix trim total => Sys2Proof.Machine.execEdgeCalTap n ix trim total s
  | .synciEdge rise => Sys2Proof.Machine.execSynciEdge rise s
  | .debugUnfreeze => Sys2Proof.Machine.execDebugUnfreeze s
  | .edgeDisable p n v => Sys2Proof.Machine.execEdgeDisable p n v s
  | .faultVectorRx k slots crc => Sys2Proof.Machine.execFaultVectorRx k slots crc s
  | .podFaultVectorStart k => Sys2Proof.Machine.execPodFaultVectorStart k s
  | .faultVectorPoll k => Sys2Proof.Machine.execFaultVectorPoll k s
  | .ligNextFrame k => Sys2Proof.Machine.execLigNextFrame k s
  | .telem n vds temp supply status crc => Sys2Proof.Machine.execTelem n vds temp supply status crc s
  | .ack n addr data crc => Sys2Proof.Machine.execAck n addr data crc s
  | .podAnswerTimeout k => Sys2Proof.Machine.execPodAnswerTimeout k s
  | .autoClearTimer n => Sys2Proof.Machine.execAutoClearTimer n s
  | .triesResetTimer n => Sys2Proof.Machine.execTriesResetTimer n s
  | .faultClr p n v => Sys2Proof.Machine.execFaultClr p n v s
  | .profileWrite p n x v => Sys2Proof.Machine.execProfileWrite p n x v s
  | .ligDisable p k v => Sys2Proof.Machine.execLigDisable p k v s
  | .boreTrigger e => Sys2Proof.Machine.execBoreTrigger e s
  | .boreGo p e v => Sys2Proof.Machine.execBoreGo p e v s
  | .boreStepEnd e => Sys2Proof.Machine.execBoreStepEnd e s
  | .enginePacketArrival e d => Sys2Proof.Machine.execEnginePacketArrival e d s
  | .fixedReleaseTick e d => Sys2Proof.Machine.execFixedReleaseTick e d s
  | .boreCoefWrite p e g k v => Sys2Proof.Machine.execBoreCoefWrite p e g k v s
  | .boreHoldWrite p e v => Sys2Proof.Machine.execBoreHoldWrite p e v s
  | .boreHoldExpiry e => Sys2Proof.Machine.execBoreHoldExpiry e s
  | .breathInit p e v => Sys2Proof.Machine.execBreathInit p e v s
  | .clrState p e v => Sys2Proof.Machine.execClrState p e v s
  | .boreStateWrite p e g ix v => Sys2Proof.Machine.execBoreStateWrite p e g ix v s
  | .gridTrigger => Sys2Proof.Machine.execGridTrigger s
  | .gridGo p v => Sys2Proof.Machine.execGridGo p v s
  | .gridPublish => Sys2Proof.Machine.execGridPublish s
  | .gridInit p v => Sys2Proof.Machine.execGridInit p v s
  | .gridBaseWrite p ix v => Sys2Proof.Machine.execGridBaseWrite p ix v s
  | .sweepNow p v => Sys2Proof.Machine.execSweepNow p v s
  | .sweepDue => Sys2Proof.Machine.execSweepDue s
  | .sweepDwellEnd => Sys2Proof.Machine.execSweepDwellEnd s
  | .probeCodeFrame d => Sys2Proof.Machine.execProbeCodeFrame d s
  | .probePhaseFrame d => Sys2Proof.Machine.execProbePhaseFrame d s
  | .probeBadFrame d => Sys2Proof.Machine.execProbeBadFrame d s
  | .probePhaseCmd p v => Sys2Proof.Machine.execProbePhaseCmd p v s
  | .probeRelearn p v => Sys2Proof.Machine.execProbeRelearn p v s
  | .clrIsland p v => Sys2Proof.Machine.execClrIsland p v s
  | .meterFineSample ix idx => Sys2Proof.Machine.execMeterFineSample ix idx s
  | .meterIntervalClose ix t0 t1 => Sys2Proof.Machine.execMeterIntervalClose ix t0 t1 s
  | .meterStop ix => Sys2Proof.Machine.execMeterStop ix s
  | .meterAccWrite p ix k v => Sys2Proof.Machine.execMeterAccWrite p ix k v s
  | .compatStatusRead p => Sys2Proof.Machine.execCompatStatusRead p s
  | .lockstepMismatch seg => Sys2Proof.Machine.execLockstepMismatch seg s
  | .sramEccError addr double => Sys2Proof.Machine.execSramEccError addr double s
  | .sramScrub => Sys2Proof.Machine.execSramScrub s
  | .chntSelftestEnd pass => Sys2Proof.Machine.execChntSelftestEnd pass s
  | .agreeReq p v lead0 trail0 lead1 trail1 => Sys2Proof.Machine.execAgreeReq p v lead0 trail0 lead1 trail1 s
  | .agreeValRead p g => Sys2Proof.Machine.execAgreeValRead p g s
  | .svckeyAgree lead trail => Sys2Proof.Machine.execSvckeyAgree lead trail s
  | .sweepBegin p v => Sys2Proof.Machine.execSweepBegin p v s
  | .sweepData p v => Sys2Proof.Machine.execSweepData p v s
  | .sweepEnd p v => Sys2Proof.Machine.execSweepEnd p v s
  | .sweepOverdue => Sys2Proof.Machine.execSweepOverdue s
  | .chntRestart p v => Sys2Proof.Machine.execChntRestart p v s
  | .debugHalt => Sys2Proof.Machine.execDebugHalt s
  | .wdKick p v us => Sys2Proof.Machine.execWdKick p v us s
  | .irqSourceRise src => Sys2Proof.Machine.execIrqSourceRise src s
  | .irqClaim p => Sys2Proof.Machine.execIrqClaim p s
  | .irqDone p v => Sys2Proof.Machine.execIrqDone p v s
  | .machineTimer => Sys2Proof.Machine.execMachineTimer s
  | .droneDemand => Sys2Proof.Machine.execDroneDemand s
  | .droneModePacket => Sys2Proof.Machine.execDroneModePacket s
  | .modePacketStale => Sys2Proof.Machine.execModePacketStale s
  | .safetyInputFiltered j b high => Sys2Proof.Machine.execSafetyInputFiltered j b high s
  | .discrepancyTimeout j => Sys2Proof.Machine.execDiscrepancyTimeout j s
  | .tpoPulse t1 low => Sys2Proof.Machine.execTpoPulse t1 low s
  | .wdTimeout => Sys2Proof.Machine.execWdTimeout s
  | .paramRecheck => Sys2Proof.Machine.execParamRecheck s
  | .forcedOffReadback => Sys2Proof.Machine.execForcedOffReadback s
  | .stuckOutput k sol => Sys2Proof.Machine.execStuckOutput k sol s
  | .testRoundStart => Sys2Proof.Machine.execTestRoundStart s
  | .testPulse off on demanded => Sys2Proof.Machine.execTestPulse off on demanded s
  | .svckeyPresent => Sys2Proof.Machine.execSvckeyPresent s
  | .svckeyAbsent => Sys2Proof.Machine.execSvckeyAbsent s
  | .sysSolWrite p v => Sys2Proof.Machine.execSysSolWrite p v s
  | .droneRst p v held => Sys2Proof.Machine.execDroneRst p v held s
  | .pairCmdPair p v => Sys2Proof.Machine.execPairCmdPair p v s
  | .pairCmdUnpair p v => Sys2Proof.Machine.execPairCmdUnpair p v s
  | .pairCmdHandover p v => Sys2Proof.Machine.execPairCmdHandover p v s
  | .hello m a peer => Sys2Proof.Machine.execHello m a peer s
  | .helloSend => Sys2Proof.Machine.execHelloSend s
  | .helloTimeout => Sys2Proof.Machine.execHelloTimeout s
  | .heartSend => Sys2Proof.Machine.execHeartSend s
  | .heart m ctr peer => Sys2Proof.Machine.execHeart m ctr peer s
  | .heartbeatMiss peer => Sys2Proof.Machine.execHeartbeatMiss peer s
  | .mirror ctr kind ix step data => Sys2Proof.Machine.execMirror ctr kind ix step data s
  | .mirrorSend kind ix => Sys2Proof.Machine.execMirrorSend kind ix s
  | .pairFrameDiscard hello => Sys2Proof.Machine.execPairFrameDiscard hello s
  | .relinquish ctr t => Sys2Proof.Machine.execRelinquish ctr t s
  | .peerroleFall => Sys2Proof.Machine.execPeerroleFall s
  | .roleConflict => Sys2Proof.Machine.execRoleConflict s
  | .fjoskLaneChange lane0 lane1 => Sys2Proof.Machine.execFjoskLaneChange lane0 lane1 s
  | .canEnable p k v => Sys2Proof.Machine.execCanEnable p k v s
  | .canDisable p k v => Sys2Proof.Machine.execCanDisable p k v s
  | .canFrameRx k m sof => Sys2Proof.Machine.execCanFrameRx k m sof s
  | .canTxrq p k hi v => Sys2Proof.Machine.execCanTxrq p k hi v s
  | .canTxStart k => Sys2Proof.Machine.execCanTxStart k s
  | .canTxDone k delay => Sys2Proof.Machine.execCanTxDone k delay s
  | .canCancel p k hi v => Sys2Proof.Machine.execCanCancel p k hi v s
  | .canError k e tec rec1 data => Sys2Proof.Machine.execCanError k e tec rec1 data s
  | .busOffRecover p k v => Sys2Proof.Machine.execBusOffRecover p k v s
  | .busOffRecoveryDone k => Sys2Proof.Machine.execBusOffRecoveryDone k s
  | .mbNewClear p k b v => Sys2Proof.Machine.execMbNewClear p k b v s
  | .rxfPop p k v => Sys2Proof.Machine.execRxfPop p k v s
  | .canSleep p k v => Sys2Proof.Machine.execCanSleep p k v s
  | .canWake k w => Sys2Proof.Machine.execCanWake k w s
  | .ntCfgWrite p v => Sys2Proof.Machine.execNtCfgWrite p v s
  | .ntRefDue => Sys2Proof.Machine.execNtRefDue s
  | .ntRefRx m sof => Sys2Proof.Machine.execNtRefRx m sof s
  | .ntHoldover => Sys2Proof.Machine.execNtHoldover s
  | .ntSet p v => Sys2Proof.Machine.execNtSet p v s
  | .ntWrap => Sys2Proof.Machine.execNtWrap s
  | .bar0Request a wr ws => Sys2Proof.Machine.execBar0Request a wr ws s
  | .bar2Request x w => Sys2Proof.Machine.execBar2Request x w s
  | .perst => Sys2Proof.Machine.execPerst s
  | .spiWrite a v crc whole => Sys2Proof.Machine.execSpiWrite a v crc whole s
  | .spiRead a crc whole ready => Sys2Proof.Machine.execSpiRead a crc whole ready s
  | .spiRepeatedRead a crc n late => Sys2Proof.Machine.execSpiRepeatedRead a crc n late s
  | .spiStatus => Sys2Proof.Machine.execSpiStatus s
  | .hostVecAckRead p v => Sys2Proof.Machine.execHostVecAckRead p v s
  | .hostVectorPending src => Sys2Proof.Machine.execHostVectorPending src s
  | .doorbellWrite p f2h v => Sys2Proof.Machine.execDoorbellWrite p f2h v s
  | .qspiRead p v => Sys2Proof.Machine.execQspiRead p v s
  | .qspiProgram p v => Sys2Proof.Machine.execQspiProgram p v s
  | .qspiEraseSector p v => Sys2Proof.Machine.execQspiEraseSector p v s
  | .qspiEraseBlock p v => Sys2Proof.Machine.execQspiEraseBlock p v s
  | .qspiOpDone pages cut fail => Sys2Proof.Machine.execQspiOpDone pages cut fail s
  | .mr4Read v => Sys2Proof.Machine.execMr4Read v s
  | .recSlotSample g full => Sys2Proof.Machine.execRecSlotSample g full s
  | .recGapMarker g => Sys2Proof.Machine.execRecGapMarker g s
  | .recTrigger m => Sys2Proof.Machine.execRecTrigger m s
  | .recRegionFull => Sys2Proof.Machine.execRecRegionFull s
  | .recArm p r v => Sys2Proof.Machine.execRecArm p r v s
  | .recEnWrite p v => Sys2Proof.Machine.execRecEnWrite p v s
  | .recRdDataRead p => Sys2Proof.Machine.execRecRdDataRead p s
  | .romBoot bootsel => Sys2Proof.Machine.execRomBoot bootsel s
  | .bootComplete readOk => Sys2Proof.Machine.execBootComplete readOk s
  | .updStart p v readOk => Sys2Proof.Machine.execUpdStart p v readOk s
  | .updBlock p v => Sys2Proof.Machine.execUpdBlock p v s
  | .updBlockDone pages refused fail => Sys2Proof.Machine.execUpdBlockDone pages refused fail s
  | .updAbort p v => Sys2Proof.Machine.execUpdAbort p v s
  | .bootConfirm p v => Sys2Proof.Machine.execBootConfirm p v s
  | .otpProgram p v => Sys2Proof.Machine.execOtpProgram p v s
  | .otpRevoke p v => Sys2Proof.Machine.execOtpRevoke p v s
  | .seal p v rng => Sys2Proof.Machine.execSeal p v rng s
  | .unseal p v => Sys2Proof.Machine.execUnseal p v s
  | .attest p v rng => Sys2Proof.Machine.execAttest p v rng s
  | .rngRead p rng => Sys2Proof.Machine.execRngRead p rng s
  | .harvesterChargeResume st mv => Sys2Proof.Machine.execHarvesterChargeResume st mv s
  | .edgeCalPeriodEnd n => Sys2Proof.Machine.execEdgeCalPeriodEnd n s
  | .minimumPulseStretchEnd n => Sys2Proof.Machine.execMinimumPulseStretchEnd n s
  | .syncoPulseEnd => Sys2Proof.Machine.execSyncoPulseEnd s
  | .busIntegrationComplete k => Sys2Proof.Machine.execBusIntegrationComplete k s
  | .pcieLinkStateChange l0 speed width => Sys2Proof.Machine.execPcieLinkStateChange l0 speed width s
  | .secOperationDone ok => Sys2Proof.Machine.execSecOperationDone ok s
  | .confirmDone otpOk => Sys2Proof.Machine.execConfirmDone otpOk s

end Sys2Proof.Machine
end

