-- ==== Sys2Proof/Safety.lean ====
section
/-!
DEFINITION. What the statements are made of: the canonical form of the memories and tables of a state, the outcome of a command,
and what a command leaves unchanged.
-/

namespace Sys2Proof.Machine

/-- A memory is in canonical form: addresses strictly rising, no entry equal to what an unlisted byte reads as.
DESIGN CHOICE, log entry 4. -/
def Memory.wf (blank : Byte) (t : Tab Byte) : Bool := t.wf fun _ => blank

/-- Every table of the state is in canonical form.  DESIGN CHOICE, log entry 4. -/
def State.wf (s : State) : Bool :=
  s.regs.wf resetWord && s.snap.wf (fun _ => 0#32) && s.latch.wf (fun _ => (0, 0#32)) &&
  Memory.wf ramBlank s.lpddr && Memory.wf flashBlank s.flash && Memory.wf ramBlank s.sram && s.resp.wf (fun _ => {})

/-- Port `p` may make an access at `off`: it takes accesses, and no locked PMP entry refuses firmware the address (R359). -/
def PortFree (p : Port) (s : State) (off : Nat) : Bool :=
  portUp p s && (p ≠ .fw || !pmpRefuses s (fwAddr off) true && !pmpRefuses s (fwAddr off) false)

/-- An access of port `p` reaches the register at `off` (R13, R34, R43): the port may make it, and the island and the seam link
of the register's block are up. -/
def Live (p : Port) (s : State) (off : Nat) : Bool :=
  PortFree p s off && (match regAt off with
    | some r => regLive s r && !seamHeld s r
    | none => false)

/-- Command `c` completes in state `s` with a state that `P` holds of. -/
def Completes (c : Instr) (s : State) (P : State → Prop) : Prop := ∃ t, exec c s = .next t ∧ P t

/-- A counter of bits 30:0 with its saturated flag in bit 31, after one event (R21). -/
def bumped (w : Word) : Word := if w.toNat % 2 ^ 31 = 2 ^ 31 - 1 then w ||| 0x80000000#32 else w + 1#32

/-- The three memories are unchanged. -/
def SameMem (s t : State) : Prop := t.lpddr = s.lpddr ∧ t.flash = s.flash ∧ t.sram = s.sram

/-- From `s` to `t` nothing differs but register words at offsets that `w` names, and what the blocks hold beside the registers,
which is `h`; the counter of free values and the levels in which interrupt summaries are seen may. -/
def Frame (w : Nat → Prop) (h : Hid) (s t : State) : Prop :=
  (∀ off, ¬ w off → t.rd off = s.rd off) ∧ SameMem s t ∧ t.now = s.now ∧ t.hid = h ∧ t.resp = s.resp ∧
    t.snap = s.snap ∧ t.latch = s.latch ∧ t.pending = s.pending

/-- From `s` to `t` the register words of `l` take the values beside their offsets, what the blocks hold beside the registers is
`h`, and nothing else differs. -/
def Writes (l : List (Nat × Word)) (h : Hid) (s t : State) : Prop :=
  (∀ x ∈ l, t.rd x.1 = x.2) ∧ Frame (fun off => ∃ x ∈ l, off = x.1) h s t

/-- Every register word keeps its value but those at offsets that `w` names. -/
def KeepRegs (w : Nat → Prop) (s t : State) : Prop := ∀ off, ¬ w off → t.rd off = s.rd off

/-- The word at `off` after the fields of `l` take the values beside them, in order. -/
def fieldWord (l : List (Fld × Nat)) (off : Nat) (w : Word) : Word :=
  l.foldl (fun w x => if x.1.off = off then x.1.put x.2 w else w) w

/-- A whole register word as a field. -/
def wordFld (off : Nat) : Fld := ⟨off, 31, 0⟩

/-- From `s` to `t` the register fields of `l` take the values beside them, what the blocks hold beside the registers becomes
`h`, and nothing else differs but the counter of free values and the levels in which interrupt summaries are seen. -/
def Sets (l : List (Fld × Nat)) (h : Hid) (s t : State) : Prop :=
  (∀ off, t.rd off = fieldWord l off (s.rd off)) ∧ SameMem s t ∧ t.now = s.now ∧ t.hid = h ∧ t.resp = s.resp ∧
    t.snap = s.snap ∧ t.latch = s.latch ∧ t.pending = s.pending

/-! ### What the statements of the chapters share -/

/-- The command of `SYS_PWR_CMD` that names power state `n` (R58). -/
def powerCommand (p : Port) (dumpOk : Bool) (n : Fin 4) : Instr :=
  if n = 0 then .pwrCmdOff p else if n = 1 then .pwrCmdHarvest p dumpOk else if n = 2 then .pwrCmdLean p else .pwrCmdFull p

/-- From `s` to `t` one access error of port `p` is reported (R436): the first one records its kind, port and offset, each is
counted, and one of the SPI port shows in its status byte. -/
def ReportsError (p : Port) (kind off : Nat) (s t : State) : Prop :=
  Sets ((if s.on F.HOST_ERR_err then [] else [(F.HOST_ERR_INFO_kind, kind), (F.HOST_ERR_INFO_port, portNo p),
      (F.HOST_ERR_INFO_offset, off)]) ++ [(F.HOST_ERR_err, 1), (wordFld R.HOST_ERR_CNT, (bumped (s.rd R.HOST_ERR_CNT)).toNat)])
    (if p = .spi then { s.hid with host := { s.hid.host with spi := s.hid.host.spi ||| 4#8 } } else s.hid) s t

/-- From `s` to `t` port `p` is answered `ws`, with an access error where `err`, and nothing else differs but the levels in which
interrupt summaries are seen. -/
def Answers (p : Port) (ws : List Word) (err : Bool) (s t : State) : Prop :=
  t = { s with resp := s.resp.put {} (portIx p) { data := ws, err := err }, seen := t.seen }

/-- The command of `FING_CMD` that names `op` (R106, R116). -/
def fingCommand (p : Port) (op : BitVec 3) : Instr :=
  if op = 1 then .fingLoad p else if op = 2 then .fingApply p else if op = 3 then .fingCommit p
  else if op = 4 then .fingDiscard p else .fingCmdInvalid p op

/-- The register fields that a command of the loader ends with: loader state, code, and the event of the code (R106). -/
def fingEnds (loader code : Nat) : List (Fld × Nat) :=
  [(F.FING_STAT_busy, 0), (F.FING_STAT_loader, loader), (F.FING_STAT_result, code),
    (if code = 0 then F.FING_EVENT_done else F.FING_EVENT_rejected, 1)]

/-- The blocks' state beside the registers with the loader's part replaced. -/
def withFing (s : State) (g : FingSt) : Hid := { s.hid with fing := g }

/-- The blocks' state beside the registers with the mode's part replaced. -/
def withMode (s : State) (m : ModeSt) : Hid := { s.hid with mode := m }

/-- The request of `SYS_MODE_CMD` that names mode `m` (R117, R120). -/
def modeCommand (p : Port) (m : Fin 8) : Instr :=
  match m with
  | 0 => .modeReqDormant p
  | 1 => .modeReqConfigure p
  | 2 => .modeReqStandby p
  | 3 => .modeReqFollow p
  | 4 => .modeReqForm p
  | 5 => .modeReqRide p
  | 6 => .modeReqHalt p
  | 7 => .modeReqService p

/-- The bit of `SYS_HALT_CAUSE`, and that of `SYS_HALT_LIVE`, of cause `c` (R128). -/
def causeBit (c : Nat) : Fld := bitFld R.SYS_HALT_CAUSE c
def liveBit (c : Nat) : Fld := bitFld R.SYS_HALT_LIVE c

/-- From `s` to `t` HALT is entered (R128, R129). -/
def EntersHalt (s t : State) : Prop :=
  t.mode = HALT ∧ t.f F.SYS_MODE_STAT_prev = s.mode ∧ t.on F.SYS_MODE_STAT_busy = false ∧ t.on F.SYS_MODE_EVENT_halt = true ∧
    t.on F.SYS_MODE_EVENT_changed = true ∧ t.rd R.SYS_HALT_CNT = bumped (s.rd R.SYS_HALT_CNT)

/-- The blocks' state beside the registers with that of converter `c`, of Fine channel `f`, replaced. -/
def withConv (s : State) (c : Nat) (x : ConvSt) : Hid := { s.hid with conv := s.hid.conv.put {} c x }
def withFine (s : State) (f : Nat) (x : FineSt) : Hid := { s.hid with fine := s.hid.fine.put {} f x }

/-- The register fields of `l` take the values beside them, the converters' state beside the registers changes as `P` says, and
nothing else differs. -/
def SetsConv (l : List (Fld × Nat)) (P : Nat → ConvSt → ConvSt → Prop) (s t : State) : Prop :=
  (∀ c, P c (convSt s c) (convSt t c)) ∧ Sets l { s.hid with conv := t.hid.conv } s t

/-- The registers that the trip matrix of die `d` writes (R176 to R180). -/
def tripReg (d off : Nat) : Prop :=
  off = R.TRIP_GT_OFF d ∨ off = R.TRIP_GT_ON d ∨ off = R.TRIP_GT_REP d ∨ off = R.TRIP_EVENT d ∨ off = R.TRIP_CONFLICT_CNT d ∨
    ∃ w : Fin 5, off = R.TRIP_SRC_ACT d w ∨ off = R.TRIP_LATCH d w

/-- The bit of source `i` among the active sources, and among the latched ones, of die `d`. -/
def actBit (d i : Nat) : Fld := bitFld (R.TRIP_SRC_ACT d (i / 32)) (i % 32)

/-- The blocks' state beside the registers with that of the trip matrix of die `d` replaced. -/
def withTrip (s : State) (d : Nat) (x : TripSt) : Hid := { s.hid with trip := s.hid.trip.put {} d x }

/-- The state packets that a change of source `i` on die `d` to `act` sends (R181). -/
def packetSent (s : State) (d i : Nat) (act : Bool) : List (Nat × Bool) := if packetFor s (1 - d) i then [(i, act)] else []

/-- From `s` to `t` the edge units differ in the times at most at which their pins last went low (R177). -/
def PinsStamped (s t : State) : Prop := ∀ n, edgeSt t n = { edgeSt s n with lowT := (edgeSt t n).lowT }

/-- From `s` to `t` only what the trip matrix of die `d` holds differs, with the registers that `w` names beside its own, the
state packets `sent` to the other die, the times at which pins went low, and the triggers sent to the recorder. -/
def TripFrame (d : Nat) (w : Nat → Prop) (sent : List (Nat × Bool)) (s t : State) : Prop :=
  Frame (fun off => tripReg d off ∨ w off) { s.hid with
    trip := t.hid.trip, edge := t.hid.edge, recorder := { s.hid.recorder with trigs := t.hid.recorder.trigs } } s t ∧
  PinsStamped s t ∧ tripSt t (1 - d) = { tripSt s (1 - d) with pkts := (tripSt s (1 - d)).pkts ++ sent }

/-- The blocks' state beside the registers with that of monitor `m` replaced. -/
def withMon (s : State) (m : Nat) (x : MonSt) : Hid := { s.hid with mon := s.hid.mon.put {} m x }

/-- From `s` to `t` only what monitor `m` and the trip matrix of its die hold differs, the times at which pins went low, the wake,
and triggers on their way. -/
def MonFrame (m : Nat) (s t : State) : Prop :=
  Frame (fun off => tripReg (m / 16) off ∨ off = R.WIN_M_STAT m ∨ off = R.WIN_M_EVENT m ∨ off = R.WIN_M_CAP_OVR m ∨
      off = R.WIN_M_CFG m) { s.hid with
    trip := t.hid.trip, edge := t.hid.edge, mon := t.hid.mon, wake := t.hid.wake, conv := t.hid.conv, bore := t.hid.bore, grid := t.hid.grid,
    recorder := { s.hid.recorder with trigs := t.hid.recorder.trigs } } s t ∧
  (∀ j, j ≠ m → monSt t j = monSt s j) ∧ PinsStamped s t ∧
  tripSt t (1 - m / 16) = { tripSt s (1 - m / 16) with pkts := (tripSt t (1 - m / 16)).pkts } ∧
  (∀ c, convSt t c = { convSt s c with trigs := (convSt t c).trigs }) ∧
  (∀ e, boreSt t e = { boreSt s e with trigs := (boreSt t e).trigs }) ∧ t.hid.grid = { s.hid.grid with trigs := t.hid.grid.trigs }

/-- Edge unit `n` and its channel are unpaired, and neither a delayed rise nor a stretched pulse is under way. -/
def edgePlain (s : State) (n : Nat) : Prop :=
  pairKind s n = 0 ∧ (edgeSt s n).pend = [] ∧ (edgeSt s n).stretch = 0 ∧ (edgeSt s n).stopping = false

/-- Channels `a` and `b` are a complementary pair (R200) whose units run, with no refresh interval, delayed rise or stretched
pulse under way. -/
def edgePair (s : State) (a b : Nat) : Prop :=
  a ≠ b ∧ pairKind s a = 1 ∧ partner s a = some b ∧ pairKind s b = 2 ∧ partner s b = some a ∧
  ∀ n ∈ [a, b], (edgeSt s n).run = true ∧ (edgeSt s n).stopping = false ∧ (edgeSt s n).refr = false ∧
    (edgeSt s n).pend = [] ∧ (edgeSt s n).stretch = 0

/-- The registers of edge unit `n` that its edges change: its status, events and count, and the trims of its working line, where one
that waits is copied before the edge (R193). -/
def edgeReg (n off : Nat) : Prop := off = R.EDGE_CH_STAT n ∨ off = R.EDGE_CH_EVENT n ∨ off = R.EDGE_CH_MINP_CNT n ∨
  ∃ w : Fin 8, off = R.EDGE_CH_CALW n w

/-- The record of an interlock hold on die `d` (R216). -/
def bothOnReg (d off : Nat) : Prop :=
  off = R.GATE_BOTHON d ∨ off = R.GATE_BOTHON_TS d ∨ off = R.GATE_BOTHON_TS d + 4 ∨ off = R.GATE_BOTHON_CNT d ∨ off = R.GATE_EVENT d

/-- From `s` to `t` only edge units differ, with the registers of units `a` and `b` that their edges change, and the record of
an interlock hold on their die. -/
def EdgeFrame (a b : Nat) (s t : State) : Prop :=
  Frame (fun off => edgeReg a off ∨ edgeReg b off ∨ bothOnReg (a / 24) off) { s.hid with edge := t.hid.edge } s t

/-- The blocks' state beside the registers with that of edge unit `n` replaced. -/
def withEdge (s : State) (n : Nat) (x : EdgeSt) : Hid := { s.hid with edge := s.hid.edge.put {} n x }

/-- The blocks' state beside the registers with that of Ligature bus `k` replaced. -/
def withLig (s : State) (k : Nat) (b : LigSt) : Hid := { s.hid with lig := s.hid.lig.put {} k b }

/-- The fields of a counter after one event (R21). -/
def countOne (s : State) (off : Nat) : Fld × Nat := (wordFld off, (bumped (s.rd off)).toNat)

/-- What a write of `v` by port `p` to the RWL bits `m` of a register word does (R19): they take it, or while they are locked it is
discarded, and reported where it would change them. -/
def rwlFields (p : Port) (off : Nat) (m v : Word) (s : State) : List (Fld × Nat) :=
  if rwlLocked s = false then [(wordFld off, ((s.rd off &&& ~~~m) ||| (v &&& m)).toNat)]
  else if (s.rd off ^^^ v) &&& m = 0#32 then []
  else [(wordFld R.FING_RWL_LAST, 2 ^ 31 * b2n (s.force ≠ 2) + 2 ^ 28 * portNo p + off), countOne s R.FING_RWL_CNT,
    (F.FING_EVENT_rwl_refused, 1)]

/-- Bit of pod `n` among those lost on its bus (R223). -/
def lostBit (k a : Nat) : Fld := bitFld (R.GATE_LIG_STAT k) a

/-- The state from which a step of engine `e`, one of the grid block, and a sample of metering point `i` that closes a cycle start: on
a Shadow with the records applied that wait for it (R406), else `s` itself. -/
def engineMirrored (s : State) (e : Nat) : State := (mirApply fun k i => k = 1 ∧ i = e).run s
def gridMirrored (s : State) : State := (mirApply fun k _ => k = 2 ∨ k = 3 ∨ k = 4).run s
def meterMirrored (s : State) (i : Nat) : State := if metN s i ≤ (metSt s i).k then (metMirror i).run s else s

/-- From `s` to `t` a step of engine `e` starts with trigger time `ts` (R249, R250). -/
def StepStarts (e : Nat) (ts : BitVec 64) (s t : State) : Prop :=
  t.on (F.BORE_STAT_busy e) = true ∧ t.on (F.BORE_STAT_held e) = false ∧ t.on (F.BORE_CTL_breath_init e) = false ∧
    (boreSt t e).t0 = s.now ∧ (boreSt t e).trig = ts ∧ (boreSt t e).tag = s.rd (R.BORE_TAG e) ∧ (boreSt t e).got = 0 ∧
    (∀ i : Fin 16, (boreSt t e).sp.get 0 i = s.pu (R.BORE_SP e i)) ∧
    (boreSt t e).init = (decide (s.mode = STANDBY) || (boreSt s e).entry || s.on (F.BORE_CTL_breath_init e)) ∧
    (∀ j, j ∈ engFed s.hid.fing.recs e → t.pu (R.BORE_IN e j) = sext 36 (BitVec.ofInt 36 ((boreSt s e).slots.get 0 j)).toNat) ∧
    (∀ j, j ∈ engFed s.hid.fing.recs e → bit (boreSt s e).got j = false → t.on (F.BORE_EVENT_stale e) = true) ∧
    t.hid = { s.hid with bore := t.hid.bore } ∧ SameMem s t ∧ t.now = s.now

/-- The blocks' state beside the registers with that of engine `e` replaced. -/
def withBore (s : State) (e : Nat) (b : BoreSt) : Hid := { s.hid with bore := s.hid.bore.put {} e b }

/-- The packet, whether it holds a credit or not. -/
def withoutCredit (p : EngPkt) : EngPkt := { p with credit := false }

/-- The compares of packet `p` stand in their shadows and their units are armed (R255). -/
def PacketLands (p : EngPkt) (t : State) : Prop :=
  ∀ c, c ∈ p.cmp → (t.rd (R.EDGE_CH_CMP_A c.1)).toNat = c.2.1 % 2 ^ 26 ∧ (t.rd (R.EDGE_CH_CMP_B c.1)).toNat = c.2.2 % 2 ^ 26 ∧
    bit (t.f (F.EDGE_COMMIT_req (c.1 / 24))) (c.1 % 24) = true ∧ (edgeSt t c.1).engT = some t.now

/-- The channels of packet `p` are different units of its die. -/
def packetProper (p : EngPkt) : Prop := (p.cmp.map (·.1)).Nodup ∧ ∀ c, c ∈ p.cmp → c.1 < 48 ∧ c.1 / 24 = p.die

/-- From `s` to `t` point `i` takes the metered sample `x` of time `ts` (R342): within a cycle, as the first of the next cycle of
a window, or as the first of a new window, with the window's results published. -/
def SampleEnters (i : Nat) (ts : BitVec 64) (x : List MetVal) (s t : State) : Prop :=
  let m := metSt s i
  let n := metSt t i
  let M := metN s i * (m.cyc + 1)
  n.last = x ∧ n.tLast = ts ∧
  (m.k < metN s i → n.k = m.k + 1 ∧ n.cyc = m.cyc ∧
    (∀ j : Fin 3, n.vv.getD j 0 = m.vv.getD j 0 + ofPu (x.getD j {}).v * ofPu (x.getD j {}).v) ∧
    (∀ j : Fin 3, n.ii.getD j 0 = m.ii.getD j 0 + ofPu (x.getD (3 + j) {}).v * ofPu (x.getD (3 + j) {}).v) ∧ ∀ off, t.rd off = s.rd off) ∧
  (metN s i ≤ m.k → m.cyc + 1 < metCyc s i → n.k = 1 ∧ n.cyc = m.cyc + 1 ∧ n.t0 = ts ∧
    t.rd64 (R.METER_PT_WIN_CNT i) = s.rd64 (R.METER_PT_WIN_CNT i)) ∧
  (metN s i ≤ m.k → metCyc s i ≤ m.cyc + 1 → n.k = 1 ∧ n.cyc = 0 ∧ n.newWin = true ∧
    t.on (F.METER_PT_EVENT_window i) = true ∧ t.rd64 (R.METER_PT_WIN_TS i) = ts ∧
    (t.rd64 (R.METER_PT_WIN_CNT i)).toNat = min ((s.rd64 (R.METER_PT_WIN_CNT i)).toNat + 1) (2 ^ 64 - 1) ∧
    (∀ j : Fin 3, t.pu (R.METER_PT_VRMS i j) = narrow36 (sqrtX (m.vv.getD j 0 / M))) ∧
    (∀ j : Fin 3, t.pu (R.METER_PT_IRMS i j) = narrow36 (sqrtX (m.ii.getD j 0 / M)))) ∧
  t.hid = { s.hid with meter := t.hid.meter } ∧ SameMem s t ∧ t.now = s.now

/-- Every part of the state but the registers and what the blocks hold beside them is the same in `t` as in `s`. -/
def SameAside (s t : State) : Prop :=
  SameMem s t ∧ t.now = s.now ∧ t.resp = s.resp ∧ t.snap = s.snap ∧ t.latch = s.latch ∧ t.pending = s.pending

/-- From `s` to `t` lockstep fails for cause `c` in segment `g` (R362, R363): the line to the Drone is asserted; the first failure
is recorded with its time, a further one is not. -/
def LockstepFails (c g : Nat) (s t : State) : Prop :=
  t.on F.CHNT_STAT_lockstep_broken = true ∧ t.hid.chnt.line = true ∧ t.hid.chnt.sweepT = none ∧
    (s.on F.CHNT_STAT_lockstep_broken = false → t.on F.SYS_MODE_STAT_lockstep_broken = true ∧ t.on F.CHNT_EVENT_broken = true ∧
      t.f F.CHNT_LS_INFO_cause = c ∧ t.f F.CHNT_LS_INFO_segment = g ∧ t.rd64 R.CHNT_LS_TS = s.now) ∧
    (s.on F.CHNT_STAT_lockstep_broken = true → t.rd R.CHNT_EVENT = s.rd R.CHNT_EVENT ∧ t.rd R.CHNT_LS_INFO = s.rd R.CHNT_LS_INFO ∧
      t.rd64 R.CHNT_LS_TS = s.rd64 R.CHNT_LS_TS) ∧ SameAside s t

/-- The blocks' state beside the registers with the host ports' part replaced. -/
def withHost (s : State) (h : HostSt) : Hid := { s.hid with host := h }

/-- The blocks' state beside the registers with the recorder's part replaced. -/
def withRec (s : State) (c : RecorderSt) : Hid := { s.hid with recorder := c }

/-- From `s` to `t` the records `rs`, padded to a burst with pad records, are written to LPDDR4X where the capture of the region in use
stands, and no other byte of it (R450, R453). -/
def BurstLands (rs : List (BitVec 64)) (s t : State) : Prop :=
  let a := regionBase s (s.f F.REC_STAT_region) + s.hid.recorder.pos
  (∀ i, i < 64 → t.lpByte (a + i) =
    ((rs ++ List.replicate (8 - rs.length) 0#64).flatMap fun x => leBytes 8 x.toNat).getD i 0#8) ∧
  ∀ k, (k < a ∨ a + 64 ≤ k) → t.lpByte k = s.lpByte k

/-- A burst fits where the capture of the region in use stands. -/
def burstFits (s : State) : Prop :=
  regionSize s (s.f F.REC_STAT_region) ≠ 0 ∧
    regionBase s (s.f F.REC_STAT_region) + s.hid.recorder.pos + 64 ≤ memSize s

/-- The blocks' state beside the registers with the Chanter's part replaced. -/
def withChnt (s : State) (c : ChntSt) : Hid := { s.hid with chnt := c }

/-- The registers in which the Drone shows what it does, with those of HALT, of its events and of the North die's trip matrix. -/
def droneReg (off : Nat) : Prop :=
  off = R.DRONE_STAT ∨ off = R.DRONE_SRC ∨ off = R.DRONE_OUT ∨ off = R.DRONE_DEM_SRC ∨ off = R.DRONE_DEM_TS ∨
    off = R.DRONE_DEM_TS + 4 ∨ off = R.DRONE_DEM_CNT ∨ off = R.SYS_DRONE_EVENT ∨ off = R.SYS_HALT_CAUSE ∨
    off = R.SYS_HALT_LIVE ∨ off = R.SYS_MODE_EVENT ∨ tripReg 0 off

/-- A Drone cycle (R376 to R379): the Drone finds the state as it stands in `u` and leaves it as in `t`.  The forced-off line and
the outputs follow the sources; a demand that was not active is recorded, within one Drone cycle (R394) with those before it; HALT cause `drone` follows the demands and faults. -/
def DroneEvaluates (u t : State) : Prop :=
  let d := demands u
  t.on F.DRONE_STAT_forced_off = forcedOff u ∧ t.on F.DRONE_STAT_relaxed = relaxed u ∧ t.rd R.DRONE_SRC = droneSrcWord u ∧
    (∀ k : Fin 4, t.on (bitFld R.DRONE_STAT (12 + k)) = (sohNode u k && solNode u k) ∧ t.on (outFld k 0) = sohOn u k ∧
      t.on (outFld k 1) = sohNode u k ∧ t.on (outFld k 2) = solNode u k ∧ t.on (outFld k 3) = solHeld u k ∧
      t.on (outFld k 4) = outDemand u k ∧ t.on (outFld k 5) = bit (u.f F.DRONE_FAULT_stuck) k) ∧
    (maskSub d u.hid.drone.dem ≠ 0 → t.on F.SYS_DRONE_EVENT_demand = true) ∧
    (maskSub d u.hid.drone.dem ≠ 0 → sameDroneCycle u = false → t.rd R.DRONE_DEM_SRC = demandWord d ∧
      t.rd64 R.DRONE_DEM_TS = dieTime u 0 ∧ t.rd R.DRONE_DEM_CNT = bumped (u.rd R.DRONE_DEM_CNT)) ∧
    (maskSub d u.hid.drone.dem ≠ 0 → sameDroneCycle u = true → t.rd R.DRONE_DEM_SRC = u.rd R.DRONE_DEM_SRC ||| demandWord d ∧
      t.rd64 R.DRONE_DEM_TS = u.rd64 R.DRONE_DEM_TS ∧ t.rd R.DRONE_DEM_CNT = u.rd R.DRONE_DEM_CNT) ∧
    (maskSub d u.hid.drone.dem = 0 → t.rd R.DRONE_DEM_SRC = u.rd R.DRONE_DEM_SRC ∧
      t.rd64 R.DRONE_DEM_TS = u.rd64 R.DRONE_DEM_TS ∧ t.rd R.DRONE_DEM_CNT = u.rd R.DRONE_DEM_CNT) ∧
    (d = 0 → u.hid.drone.dem ≠ 0 → t.on F.SYS_DRONE_EVENT_release = true) ∧ t.hid.drone.dem = d ∧
    (u.up = true → t.hid.drone.haltLive = true → u.hid.drone.haltLive = false →
      t.on (causeBit causeDrone) = true ∧ t.on (liveBit causeDrone) = true ∧ (u.mode ≠ DORMANT → t.mode = HALT)) ∧
    (t.hid.drone.haltLive = false → u.hid.drone.haltLive = true → t.on (liveBit causeDrone) = false) ∧
    SameAside u t ∧ (t.mode = u.mode → KeepRegs droneReg u t ∧ t.hid = { u.hid with
      drone := t.hid.drone, trip := t.hid.trip, edge := t.hid.edge,
      recorder := { u.hid.recorder with trigs := t.hid.recorder.trigs } } ∧ PinsStamped u t)

/-- From `u` to `v` a Leader's ROLE follows what keeps it low (R398); one whose ROLE falls, or may not rise again in a handover, ends
SOLO (R408, R409). -/
def RoleFollows (u v : State) : Prop :=
  if u.role ≠ 1 then Sets [] u.hid u v
  else if roleOk u = true ∨ u.hid.pair.roleHigh = false ∧ u.hid.pair.handover = false then
    Sets [] { u.hid with pair := { u.hid.pair with roleHigh := roleOk u && !u.hid.pair.handover } } u v
  else Sets [(F.PAIR_STAT_role, 0), (F.SYS_MODE_STAT_role, 0), (F.PAIR_STAT_busy, 0), (F.PAIR_STAT_peer_ok, 0), (liveBit causePair, 0)]
    { u.hid with pair := {}, drone := { u.hid.drone with pair := false } } u v

/-- From `v` to `t` CONFIGURE is left with force 3, and the repeated SAFETY check fails (R123). -/
def RecheckFails (v t : State) : Prop := v.mode = CONFIGURE ∧ v.force = 3 ∧ safetyCrcOk v = false ∧ t.mode ≠ CONFIGURE

/-- The register fields of `l` take the values beside them, what the blocks hold beside the registers becomes `h`, a Leader's ROLE
follows, and the Drone acts on that; where its demand leaves CONFIGURE and the check of R123 fails, that ends in HALT with its code and
the parameter fault. -/
def DroneActs (l : List (Fld × Nat)) (h : Hid) (s t : State) : Prop :=
  ∃ u, Sets l h s u ∧ ∃ v, RoleFollows u v ∧ (RecheckFails v t → t.mode = HALT ∧ t.f F.SYS_MODE_STAT_result = 0x17 ∧
    t.on (causeBit causeSafety) = true ∧ t.on F.DRONE_FAULT_param = true) ∧ (¬ RecheckFails v t → DroneEvaluates v t)

/-- The blocks' state beside the registers with the Drone's part replaced. -/
def withDrone (s : State) (x : DroneSt) : Hid := { s.hid with drone := x }

/-- The register fields with which the turn of test switch `i` ends (R387). -/
def turnEnds (s : State) (i : Nat) : List (Fld × Nat) :=
  if i < 7 then [(F.DRONE_TP_next, i + 1)]
  else [(F.DRONE_TP_next, 0), (F.DRONE_TP_running, 0), countOne s R.DRONE_ROUND_CNT, (F.SYS_DRONE_EVENT_round_done, 1)] ++
    (if s.hid.drone.roundDue then [(wordFld R.DRONE_TP, 0x100)] else [])

/-- The Drone's part when the turn of switch `i` has ended: a round that waited starts with the end of the one in progress. -/
def turnHid (s : State) (i : Nat) : Hid :=
  if i = 7 ∧ s.hid.drone.roundDue = true then withDrone s { s.hid.drone with roundDue := false } else s.hid

/-- The blocks' state beside the registers with the pair's part replaced. -/
def withPair (s : State) (p : PairSt) : Hid := { s.hid with pair := p }

/-- From `s` to `t` the device takes over (R408): it is LEADER, records the time and the event, keeps its mode unless a HALT cause
acts, and where its pins may switch each waits for its unit's commit point. -/
def TakesOver (s t : State) : Prop :=
  t.role = 1 ∧ t.f F.PAIR_STAT_role = 1 ∧ t.rd64 R.PAIR_TAKE_TS = s.now ∧ t.on F.PAIR_EVENT_takeover = true ∧
    t.hid.pair.recs = [] ∧ (t.mode = s.mode ∨ t.mode = HALT)

/-- The device reads SOLO and has forgotten its pairing (R400, R402). -/
def IsSolo (t : State) : Prop :=
  t.role = 0 ∧ t.f F.PAIR_STAT_role = 0 ∧ t.on F.PAIR_STAT_peer_ok = false ∧ t.hid.pair.roleHigh = false ∧
    t.hid.drone.pair = false ∧ t.on (liveBit causePair) = false

/-- No frame of controller `k` is under way; it is enabled and not asked to sleep. -/
def canFree (s : State) (k : Nat) : Prop :=
  (canSt s k).cur = none ∧ s.on (F.CAN_CTL_en k) = true ∧ (canSt s k).sleepReq = false

/-- From `s` to `t` only registers of controller `k` that `w` names differ, and what the controller holds. -/
def CanFrame (k : Nat) (w : Nat → Prop) (s t : State) : Prop :=
  KeepRegs w s t ∧ SameAside s t ∧ t.hid = { s.hid with can := t.hid.can } ∧ ∀ j, j ≠ k → canSt t j = canSt s j

/-- A word of mailbox `b`. -/
def mbWord (k b off : Nat) : Prop := R.CAN_MB_CFG k b ≤ off ∧ off < R.CAN_MB_CFG k b + 0x80

/-- A register of the head window (R433). -/
def headWord (k off : Nat) : Prop := R.CAN_HEAD_CFG k ≤ off ∧ off < R.CAN_HEAD_CFG k + 0x80

/-- Mailbox `b` takes the frame: it matches and is not locked (R414). -/
def mbTakes (s : State) (k b : Nat) (m : CanMsg) : Bool := mbMatches s k b m && !s.on (F.CAN_MB_CFG_new k b)

/-- The blocks' state beside the registers with the part of controller `k`, of the network-time block, replaced. -/
def withCan (s : State) (k : Nat) (c : CanSt) : Hid := { s.hid with can := s.hid.can.put {} k c }
def withNt (s : State) (n : NtSt) : Hid := { s.hid with nt := n }

/-- A register of the network-time block. -/
def ntReg (off : Nat) : Prop :=
  off = R.CAN_NT_STAT ∨ off = R.CAN_NT_EVENT ∨ off = R.CAN_NT_OFS ∨ off = R.CAN_NT_ADJ ∨ off = R.CAN_NT_SNAP

/-- From `s` to `t` the network-time block alone differs. -/
def NtFrame (s t : State) : Prop :=
  KeepRegs ntReg s t ∧ SameAside s t ∧ t.hid = withNt s t.hid.nt

/-- From `s` to `t` the network-time block differs, and what the reception of one frame changes in controller `k`. -/
def RefFrame (k : Nat) (s t : State) : Prop :=
  KeepRegs (fun off => ntReg off ∨ off = R.CAN_STAT k ∨ off = R.CAN_EVENT k ∨ off = R.CAN_ERR k ∨ off = R.CAN_RX_DROP k ∨
    off = R.CAN_RXF_OVR k ∨ headWord k off ∨ ∃ b : Fin 64, mbWord k b off) s t ∧
    SameAside s t ∧ t.hid = { withNt s t.hid.nt with can := t.hid.can } ∧ ∀ j, j ≠ k → canSt t j = canSt s j

/-- The frame carries the identifier that the Whistle is assigned on controller `k` (R323). -/
def probeMsg (s : State) (k : Nat) (m : CanMsg) : Prop :=
  s.f F.PROBE_ASSIGN_can = k ∧ s.on F.PROBE_ASSIGN_ID_ide = m.ide ∧ s.f F.PROBE_ASSIGN_ID_id = m.id.toNat

/-- Byte `i` of a frame as a number. -/
def msgByte (m : CanMsg) (i : Nat) : Nat := (m.data.getD i 0#8).toNat

/-- The blocks' state beside the registers with the part of boot and update, of OTP, replaced. -/
def withBoot (s : State) (b : BootSt) : Hid := { s.hid with boot := b }
def withOtp (s : State) (o : OtpSt) : Hid := { s.hid with otp := o }

/-- The key slots as steps 2 to 4 of R461 find them after directory `d` is read. -/
def slotsAfter (s : State) (d : List Byte) : List KeySlot := (List.range 4).map fun i =>
  { programmed := bit s.hid.otp.prog i, revoked := bit s.hid.otp.rev i, key := (keysOf s d).getD i none }

/-- Bytes `a` to `a + bs.length - 1` of the SRAM are `bs`. -/
def SramHolds (t : State) (a : Nat) (bs : List Byte) : Prop := ∀ i, i < bs.length → t.srByte (a + i) = bs.getD i 0#8

end Sys2Proof.Machine
end

