-- ==== Sys2Proof/Certificates/Slice0/Obligations.lean ====
section
/-!
DEFINITION. The statements for the provers: what the commands of each chapter of the spec do, the canonical form that every
step keeps, and what the state after reset holds.
-/

open Sys2Proof Sys2Proof.Machine

/-! ### The queue, the state after reset, the canonical form and register access -/

/-- A step takes the command at the front of the queue and runs it on the state with the rest of the queue; with no command
waiting, device time advances by one tick, and from the largest value does what DEVICE_TIME_WRAP does (the model's choice, log
entry 1). -/
def Obligations.StepRunsTheFrontCommand : Prop :=
  (∀ s c cs, s.pending = c :: cs → step s = exec c { s with pending := cs }) ∧
  (∀ s, s.pending = [] → s.now ≠ BitVec.allOnes 64 → step s = .next { s with now := s.now + 1#64 }) ∧
  (∀ s, s.pending = [] → s.now = BitVec.allOnes 64 → step s = exec .deviceTimeWrap s)

/-- Every command answers a next state, and leaves the queue as it stands (the model's choice, log entry 2: an event that
cannot happen in the present state leaves the state as it is, and none stops the block). -/
def Obligations.EveryCommandCompletesAndLeavesTheQueue : Prop :=
  ∀ c s, ∃ t, exec c s = .next t ∧ t.pending = s.pending

/-- The registers, the latches and the memories keep their canonical form in every step. -/
def Obligations.StepKeepsTheCanonicalForm : Prop :=
  ∀ s t, s.wf = true → step s = .next t → t.wf = true

/-- R1, R42, R70, R71, R118: after reset the tables are in canonical form, no command waits, the identity, power and harvester
registers read as specified, and the mode is DORMANT. That reset is the instant at which the Core die leaves reset is the
model's reading (log entry 6, DEDUCED), and `HARV_CFG` rests on its choice of the OTP bit `chg_default` = 1 (log entry 10,
DESIGN CHOICE). -/
def Obligations.ResetReadsAsTheSpecSays : Prop :=
  State.reset.wf = true ∧ State.reset.pending = [] ∧ State.reset.rd R.SYS_ID = 0x840048A1#32 ∧
  State.reset.rd R.SYS_REV = 0x000000B1#32 ∧ State.reset.rd R.SYS_ISLAND_EN = 0x00013801#32 ∧
  State.reset.rd R.SYS_PWR_STAT = 0x00000002#32 ∧ State.reset.rd R.HARV_CFG = 0x5DC03D10#32 ∧
  State.reset.rd R.HARV_STORE_CFG = 0x32C80000#32 ∧ State.reset.mode = DORMANT

/-- R12, R13, R43, R112, R436: a register write is refused with the kind of its access error where it is misaligned or narrow,
where the island or the link of its register is down, and where the register is the Drone's; one from firmware that is
misaligned reaches no register and raises an exception in both cores; one to an unmapped offset is discarded. A write that
would change RWL fields while they are locked is discarded and reported, and one that leaves them as they are is not (shown on
`RIDE_CRV`); the RW fields beside them take it (shown on `WIN_M_CFG`). A 64-bit write to a disabled island is one error. That
cause 0, locked, is recorded with force 2 also while APPLY runs is the model's choice (log entry 100, DESIGN CHOICE). R12, R14,
R19, R21: what a 32-bit write does to a field of each type, shown on a register of each: RW takes the written bits, W1C clears
where 1 is written, W1S sets there, a counter clears with its saturated flag, RO and reserved fields discard the write; a
write-only register reads 0. -/
def Obligations.RegisterWritesAreRefusedOrLandByType : Prop :=
  ((∀ s p a v, PortFree p s a.toNat = true → p ≠ .fw → a.toNat % 4 ≠ 0 →
     Completes (.registerWrite p a .b32 v) s (ReportsError p 1 a.toNat s)) ∧
   (∀ s a v, PortFree .fw s a.toNat = true → a.toNat % 4 ≠ 0 → Completes (.registerWrite .fw a .b32 v) s
     (Sets [] (withChnt s { s.hid.chnt with trap := some (.storeMisaligned, BitVec.ofNat 32 (fwAddr a.toNat)) }) s)) ∧
   (∀ s p a v, PortFree p s a.toNat = true → a.toNat % 4 = 0 → Completes (.registerWrite p a .b8 v) s (ReportsError p 1 a.toNat s)) ∧
   (∀ s p a v, PortFree p s a.toNat = true → a.toNat % 4 = 0 → Completes (.registerWrite p a .b16 v) s (ReportsError p 1 a.toNat s)) ∧
   (∀ s p a v, PortFree p s a.toNat = true → a.toNat % 4 = 0 → regAt a.toNat = none → southSync a.toNat = false →
     Completes (.registerWrite p a .b32 v) s (Sets [] s.hid s)) ∧
   (∀ s p a v r, PortFree p s a.toNat = true → a.toNat % 4 = 0 → regAt a.toNat = some r → s.hid.pwr.dumpOnly = false → regLive s r = false →
     Completes (.registerWrite p a .b32 v) s (ReportsError p 2 a.toNat s)) ∧
   (∀ s p v, PortFree p s (R.CAN_WAKE_DATA 0) = true → s.island 14 = false →
     Completes (.registerWrite p (BitVec.ofNat 26 (R.CAN_WAKE_DATA 0)) .b64 v) s (ReportsError p 2 (R.CAN_WAKE_DATA 0) s)) ∧
   (∀ s p a v, Live p s a.toNat = true → a.toNat % 4 = 0 → inDrone a.toNat = true →
     Completes (.registerWrite p a .b32 v) s (ReportsError p 3 a.toNat s)) ∧
   (∀ s p (i : Fin 24) v, Live p s (R.RIDE_CRV i) = true →
     let w := (v : BitVec 64).extractLsb' 0 32
     let changes := (s.rd (R.RIDE_CRV i) ^^^ w) &&& 0x3011F#32 ≠ 0#32
     (rwlLocked s = true → changes → Completes (.registerWrite p (BitVec.ofNat 26 (R.RIDE_CRV i)) .b32 v) s
       (Sets [(wordFld R.FING_RWL_LAST, 2 ^ 31 * b2n (s.force ≠ 2) + 2 ^ 28 * portNo p + R.RIDE_CRV i), countOne s R.FING_RWL_CNT,
         (F.FING_EVENT_rwl_refused, 1)] s.hid s)) ∧
     (rwlLocked s = true → ¬ changes → Completes (.registerWrite p (BitVec.ofNat 26 (R.RIDE_CRV i)) .b32 v) s (Sets [] s.hid s)) ∧
     (rwlLocked s = false → Completes (.registerWrite p (BitVec.ofNat 26 (R.RIDE_CRV i)) .b32 v) s
       (Sets [(wordFld (R.RIDE_CRV i), ((s.rd (R.RIDE_CRV i) &&& ~~~ 0x3011F#32) ||| (w &&& 0x3011F#32)).toNat)] s.hid s))) ∧
   (∀ s p (m : Fin 32) v, Live p s (R.WIN_M_CFG m) = true → rwlLocked s = true →
     Completes (.registerWrite p (BitVec.ofNat 26 (R.WIN_M_CFG m)) .b32 v) s fun t =>
       t.rd (R.WIN_M_CFG m) &&& 0x3F0100#32 = s.rd (R.WIN_M_CFG m) &&& 0x3F0100#32 ∧
       t.rd (R.WIN_M_CFG m) &&& 0x33#32 = (v : BitVec 64).extractLsb' 0 32 &&& 0x33#32)) ∧
  ((∀ s p v, Live p s R.HARV_RESERVE = true → Completes (.registerWrite p (BitVec.ofNat 26 R.HARV_RESERVE) .b32 v) s
     (Sets [(wordFld R.HARV_RESERVE, v.toNat % 2 ^ 32)] s.hid s)) ∧
   (∀ s p v, Live p s R.HARV_EVENT = true → Completes (.registerWrite p (BitVec.ofNat 26 R.HARV_EVENT) .b32 v) s
     (Sets [(wordFld R.HARV_EVENT, (s.rd R.HARV_EVENT &&& ~~~ (v.extractLsb' 0 32 &&& 0x7F#32)).toNat)] s.hid s)) ∧
   (∀ s p v, p ≠ .fw → Live p s R.HOST_DB_H2F = true → Completes (.registerWrite p (BitVec.ofNat 26 R.HOST_DB_H2F) .b32 v) s
     (Sets [(wordFld R.HOST_DB_H2F, (s.rd R.HOST_DB_H2F ||| (v.extractLsb' 0 32 &&& 0xFFFF#32)).toNat)] s.hid s)) ∧
   (∀ s p v, Live p s R.HARV_ABORT_CNT = true → v.toNat % 2 ^ 31 ≠ 0 →
     Completes (.registerWrite p (BitVec.ofNat 26 R.HARV_ABORT_CNT) .b32 v) s (Sets [(wordFld R.HARV_ABORT_CNT, 0)] s.hid s)) ∧
   (∀ s p v, Live p s R.HARV_STORE_CFG = true → Completes (.registerWrite p (BitVec.ofNat 26 R.HARV_STORE_CFG) .b32 v) s
     (Sets [(wordFld R.HARV_STORE_CFG, v.toNat % 2 ^ 32)] s.hid s)) ∧
   (∀ s p v off, off = R.SYS_ID ∨ off = R.SYS_REV → PortFree p s off = true →
     Completes (.registerWrite p (BitVec.ofNat 26 off) .b32 v) s (Sets [] s.hid s)) ∧
   (∀ s w, s.up = true → Completes (.bar0Request (BitVec.ofNat 26 R.SYS_PWR_CMD) false [(15#4, w)]) s (Answers .pcie [0#32] false s)))

/-- R16, R17: the low word of a pu36 pair goes into the port's latch; the high word completes the pair from the latch, which it
empties, or with the pair's present low word where the latch holds none of that pair; a 64-bit write takes bits 35:0 at once
and leaves the latch (the model's choice, log entry 65). Shown on `CLK_SLIDE_FIX`. R9, R18: a read of `CLK_TIME_SNAP` latches
device time for the reading port alone, and answers the wrap count. -/
def Obligations.PairAndSnapshotAccessesAreCoherent : Prop :=
  (∀ s p, Live p s R.CLK_SLIDE_FIX = true → Live p s (R.CLK_SLIDE_FIX + 4) = true →
     (∀ v, Completes (.pu36LowWordWrite p (BitVec.ofNat 26 R.CLK_SLIDE_FIX) v) s fun t =>
       t = { s with latch := s.latch.put (0, 0#32) (latchKey p R.CLK_SLIDE_FIX) (R.CLK_SLIDE_FIX, v) }) ∧
     (∀ v low, s.latch.get (0, 0#32) (latchKey p R.CLK_SLIDE_FIX) = (R.CLK_SLIDE_FIX, low) →
       Completes (.pu36HighWordWrite p (BitVec.ofNat 26 (R.CLK_SLIDE_FIX + 4)) v) s fun t =>
         t.pu R.CLK_SLIDE_FIX = sext 36 ((v &&& 15#32) ++ low).toNat ∧
         KeepRegs (fun off => off = R.CLK_SLIDE_FIX ∨ off = R.CLK_SLIDE_FIX + 4) s t ∧ t.hid = s.hid ∧ SameMem s t ∧
         t.latch.get (0, 0#32) (latchKey p R.CLK_SLIDE_FIX) = (0, 0#32)) ∧
     (∀ v x, s.latch.get (0, 0#32) (latchKey p R.CLK_SLIDE_FIX) = x → x.1 ≠ R.CLK_SLIDE_FIX →
       Completes (.pu36HighWordWrite p (BitVec.ofNat 26 (R.CLK_SLIDE_FIX + 4)) v) s fun t =>
         t.pu R.CLK_SLIDE_FIX = sext 36 ((v &&& 15#32) ++ s.rd R.CLK_SLIDE_FIX).toNat ∧
         KeepRegs (fun off => off = R.CLK_SLIDE_FIX ∨ off = R.CLK_SLIDE_FIX + 4) s t ∧ t.hid = s.hid ∧ SameMem s t ∧
         t.latch = s.latch) ∧
     (∀ v, Completes (.registerWrite p (BitVec.ofNat 26 R.CLK_SLIDE_FIX) .b64 v) s fun t =>
       t.pu R.CLK_SLIDE_FIX = sext 36 v.toNat ∧
       KeepRegs (fun off => off = R.CLK_SLIDE_FIX ∨ off = R.CLK_SLIDE_FIX + 4) s t ∧ t.hid = s.hid ∧ SameMem s t ∧
       t.latch = s.latch)) ∧
  (∀ s p, Live p s R.CLK_TIME_SNAP = true → Completes (.snapRead p (BitVec.ofNat 26 R.CLK_TIME_SNAP)) s fun t =>
     t.snap.get 0#32 (snapKey p R.CLK_TIME_S) = s.now.extractLsb' 0 32 ∧
     t.snap.get 0#32 (snapKey p (R.CLK_TIME_S + 4)) = s.now.extractLsb' 32 32 ∧
     (∀ k, k ≠ snapKey p R.CLK_TIME_S → k ≠ snapKey p (R.CLK_TIME_S + 4) → t.snap.get 0#32 k = s.snap.get 0#32 k) ∧
     t.resp = s.resp.put {} (portIx p) { data := [s.rd R.CLK_TIME_SNAP &&& 0xFF#32], err := false } ∧
     t.regs = s.regs ∧ t.hid = s.hid ∧ SameMem s t ∧ t.now = s.now ∧ t.latch = s.latch)

/-- R29, R30, R83: a packet that fails its CRC is counted, the count saturates with its flag, which is set by the repeat that
finds it at its largest value and not by the one that brings it there (the model's reading, log entry 67, DEDUCED); a link that
trains is up with its credits and its HALT cause no longer live; a lost link is down, with `lost` set and no credit, its die's
GT pins are low, and HALT is entered with its cause recorded. -/
def Obligations.SeamLinksCountTrainAndFail : Prop :=
  (∀ s (d : Die), s.up = true → s.on (F.SYS_SEAM_STAT_up d) = true → s.rd (R.SYS_SEAM_RETRY d) ≠ BitVec.allOnes 32 →
    Completes (.seamPacketCrcError d) s (Sets [(F.SYS_SEAM_STAT_crc_err d, 1),
      (wordFld (R.SYS_SEAM_RETRY d), (s.rd (R.SYS_SEAM_RETRY d) + 1#32).toNat)] s.hid s)) ∧
  (∀ s (d : Die), s.up = true → s.on (F.SYS_SEAM_STAT_up d) = true → s.rd (R.SYS_SEAM_RETRY d) = BitVec.allOnes 32 →
    Completes (.seamPacketCrcError d) s (Sets [(F.SYS_SEAM_STAT_crc_err d, 1), (F.SYS_SEAM_STAT_cnt_sat d, 1)] s.hid s)) ∧
  (∀ s (d : Die) skew, s.up = true → s.on (F.SYS_SEAM_STAT_up d) = false → s.mode = CONFIGURE → -1 ≤ skew → skew ≤ 1 →
    Completes (.seamLinkTrained d skew) s fun t =>
      t.on (F.SYS_SEAM_STAT_up d) = true ∧ creditsHeld t d = 32 - creditsUsed s d ∧ dieSkew t d = skew ∧
      bit t.hid.seam.lost d = false ∧ t.on (bitFld R.SYS_HALT_LIVE (4 + d.val)) = false ∧ SameMem s t ∧ t.now = s.now) ∧
  (∀ s (d : Die), s.up = true → s.on (F.SYS_SEAM_STAT_up d) = true → Completes (.seamLinkLost d) s fun t =>
      t.on (F.SYS_SEAM_STAT_up d) = false ∧ t.on (F.SYS_SEAM_STAT_lost d) = true ∧
      bit t.hid.seam.lost d = true ∧ creditsHeld t d = 0 ∧ (∀ n, n / 24 = d.val → t.up = true → t.role ≠ 2 → gtPin t n = .low) ∧
      t.on (bitFld R.SYS_HALT_CAUSE (4 + d.val)) = true ∧ t.on (bitFld R.SYS_HALT_LIVE (4 + d.val)) = true ∧
      (s.mode ≠ DORMANT → t.mode = HALT) ∧ SameMem s t ∧ t.now = s.now)

/-! ### Supply, harvester and power states (spec/02) -/

/-- R48, R49, R50: in the order VQ, VB, VQ before VB the harvester moves on when a store has reached its target and when
charging resumes, samples Voc while it charges and regulates HIN to k × Voc until the next sample, and idles with both stores
full; before the always-on domain runs, VQ charges from HIN. A target of VB below 10 000 mV is used as written (the model's
choice, log entry 114). R51: the always-on domain starts with its registers at reset and its retention RAM kept, the device is
in HARVEST after the delay, hold stops the Drone and deasserts PGOOD, leaving hold charges VQ again, and a stop leaves nothing
powered. With neither source `src_vb` reads 1 at the start (the model's choice, log entry 92). R44, R45, R52, R71: the power
path takes VSUP while it is present, VB from 10.0 V on without it, and neither below; a change of source and each crossing of
PGOOD set their status and their event, and the measured voltages are registered together with the store energy. While the path
draws from neither source `src_vb` keeps the last one (the model's reading, log entry 68, DEDUCED). -/
def Obligations.HarvesterChargesAndReportsItsSupplies : Prop :=
  (let sampled := fun (s : State) (mv : BitVec 16) (p : PwrSt) =>
     { p with voc := mv.toNat, hinSet := (7 / 10 + ((min 30 (s.f F.HARV_CFG_k_code) : Nat) : Rat) / 200) * (mv.toNat : Rat),
              vocWait := max 1 (min 60 (s.f F.HARV_CFG_voc_period)) }
   (∀ s, s.hid.pwr.aon = .stopped → Completes .hinColdStart s
     (Sets [] { s.hid with pwr := { s.hid.pwr with coldStart := true, charging := some .vq } } s)) ∧
   (∀ s mv, s.hid.pwr.aon = .running → s.hid.pwr.charging ≠ none → Completes (.vocSample mv) s
     (Sets [] { s.hid with pwr := sampled s mv s.hid.pwr } s)) ∧
   (∀ s mv go, s.hid.pwr.aon = .running → 12000 ≤ mv.toNat → go = (s.on F.HARV_CFG_chg_en && !s.on F.HARV_STAT_vb_full) →
     Completes (.storeFull .vq mv) s (Sets [(F.HARV_STAT_vq_full, 1), (F.HARV_STAT_harv_active, b2n go)]
       { s.hid with pwr := { s.hid.pwr with charging := if go then some .vb else none } } s)) ∧
   (∀ s mv go, s.hid.pwr.aon = .running → min 30000 (s.f F.HARV_CFG_vb_target_mv) ≤ mv.toNat → go = !s.on F.HARV_STAT_vq_full →
     Completes (.storeFull .vb mv) s (Sets [(F.HARV_STAT_vb_full, 1), (F.HARV_STAT_harv_active, b2n go)]
       { s.hid with pwr := { s.hid.pwr with charging := if go then some .vq else none } } s)) ∧
   (∀ s mv, mv.toNat < 12000 → Completes (.storeFull .vq mv) s (Sets [] s.hid s)) ∧
   (∀ s mv, mv.toNat < min 30000 (s.f F.HARV_CFG_vb_target_mv) → Completes (.storeFull .vb mv) s (Sets [] s.hid s)) ∧
   (∀ s mv, s.hid.pwr.aon = .running → Completes (.harvesterChargeResume .vq mv) s
     (Sets [(F.HARV_STAT_vq_full, 0), (F.HARV_STAT_harv_active, 1)]
       { s.hid with pwr := sampled s mv { s.hid.pwr with charging := some .vq } } s)) ∧
   (∀ s mv, s.hid.pwr.aon = .running → s.on F.HARV_STAT_vq_full = false → Completes (.harvesterChargeResume .vb mv) s
     (Sets [(F.HARV_STAT_vb_full, 0), (F.HARV_STAT_harv_active, 1)]
       { s.hid with pwr := sampled s mv { s.hid.pwr with charging := some .vq } } s)) ∧
   (∀ s mv, s.hid.pwr.aon = .running → s.on F.HARV_STAT_vq_full = true → s.on F.HARV_CFG_chg_en = true →
     Completes (.harvesterChargeResume .vb mv) s (Sets [(F.HARV_STAT_vb_full, 0), (F.HARV_STAT_harv_active, 1)]
       { s.hid with pwr := sampled s mv { s.hid.pwr with charging := some .vb } } s)) ∧
   (∀ s mv, s.hid.pwr.aon = .running → s.on F.HARV_STAT_vq_full = true → s.on F.HARV_CFG_chg_en = false →
     Completes (.harvesterChargeResume .vb mv) s (Sets [(F.HARV_STAT_vb_full, 0), (F.HARV_STAT_harv_active, 0)]
       { s.hid with pwr := { s.hid.pwr with charging := none } } s))) ∧
  ((∀ s (vsup vb : BitVec 16) present, s.wf = true → s.hid.pwr.aon = .stopped → present = decide (9000 ≤ vsup.toNat) →
     Completes (.aonStart vsup vb) s fun t =>
     t.hid = { s.hid with pwr := { s.hid.pwr with
       aon := .starting, coldStart := false, charging := some .vq, vsup := present,
       path := if present then .vsup else if 10000 ≤ vb.toNat then .vb else .off } } ∧
     t.on F.HARV_CFG_chg_en = s.hid.pwr.chgDefault ∧ t.on F.HARV_STAT_src_vb = !present ∧
     t.on F.HARV_STAT_pgood = false ∧ (∀ off, inHarv off = true → inRet off = false → off ≠ R.HARV_CFG → off ≠ R.HARV_STAT →
       t.rd off = resetWord off) ∧ (∀ off, (inHarv off = false ∨ inRet off = true) → t.rd off = s.rd off) ∧
     SameMem s t ∧ t.now = s.now) ∧
   (∀ s, s.hid.pwr.aon = .starting → Completes .harvestEntryDelayExpiry s
     (Sets [] { s.hid with pwr := { s.hid.pwr with aon := .running, st := .harvest } } s)) ∧
   (∀ s, s.wf = true → s.hid.pwr.st = .harvest → s.hid.pwr.aon = .running → Completes .harvestHoldEnter s fun t =>
     t.hid = { s.hid with pwr := { s.hid.pwr with aon := .hold, charging := none }, drone := {} } ∧
     t.on F.HARV_STAT_hold_seen = true ∧ t.on F.HARV_STAT_harv_active = false ∧ t.on F.HARV_STAT_pgood = false ∧
     (∀ off, inDrone off = true → t.rd off = resetWord off) ∧
     (∀ off, inDrone off = false → off ≠ R.HARV_STAT → t.rd off = s.rd off) ∧ SameMem s t ∧ t.now = s.now) ∧
   (∀ s, s.hid.pwr.st = .harvest → s.hid.pwr.aon = .hold → Completes .harvestHoldLeave s
     (Sets [(F.HARV_STAT_harv_active, 1)]
       { s.hid with pwr := { s.hid.pwr with aon := .running, charging := some .vq } } s)) ∧
   (∀ s, s.hid.pwr.st = .harvest → Completes .aonStop s fun t =>
     (∀ off, t.rd off = resetWord off) ∧ t.hid.drone = {} ∧
     t.hid.pwr = { s.hid.pwr with st := .off, aon := .stopped, trans := .none, charging := none, dumpOpen := false } ∧
     t.flash = s.flash)) ∧
  ((∀ s, s.hid.pwr.aon ≠ .stopped → Completes .vsupPresent s
     (Sets (if s.on F.HARV_STAT_src_vb then [(F.HARV_STAT_src_vb, 0), (F.HARV_EVENT_src_change, 1)] else [])
       { s.hid with pwr := { s.hid.pwr with vsup := true, path := .vsup } } s)) ∧
   (∀ s vb, s.hid.pwr.aon ≠ .stopped → 10000 ≤ vb.toNat → Completes (.vsupAbsent vb) s
     (Sets (if s.on F.HARV_STAT_src_vb then [] else [(F.HARV_STAT_src_vb, 1), (F.HARV_EVENT_src_change, 1)])
       { s.hid with pwr := { s.hid.pwr with vsup := false, path := .vb } } s)) ∧
   (∀ s vb, s.hid.pwr.aon ≠ .stopped → vb.toNat < 10000 → Completes (.vsupAbsent vb) s
     (Sets [] { s.hid with pwr := { s.hid.pwr with vsup := false, path := .off } } s)) ∧
   (∀ s, s.hid.pwr.aon = .stopped → Completes .vsupPresent s
     (Sets [] { s.hid with pwr := { s.hid.pwr with vsup := true } } s)) ∧
   (∀ s, s.hid.pwr.aon = .running → s.on F.HARV_STAT_pgood = false → Completes .pgoodAssert s
     (Sets [(F.HARV_STAT_pgood, 1), (F.HARV_EVENT_pgood_rise, 1)] s.hid s)) ∧
   (∀ s, s.on F.HARV_STAT_pgood = true → Completes .pgoodDeassert s
     (Sets [(F.HARV_STAT_pgood, 0), (F.HARV_EVENT_pgood_fall, 1)] s.hid s)) ∧
   (∀ s, (s.hid.pwr.aon = .running → pgoodPin s = some (s.on F.HARV_STAT_pgood)) ∧ (s.hid.pwr.aon = .hold → pgoodPin s = some false) ∧
     (s.hid.pwr.aon = .stopped → pgoodPin s = none)) ∧
   (∀ s vb vsup hin vq v5, s.hid.pwr.aon = .running → Completes (.harvMeasureUpdate vb vsup hin vq v5) s fun t =>
     t.rd R.HARV_V0 = vb ++ vsup ∧ t.rd R.HARV_V1 = hin ++ vq ∧ t.rd R.HARV_V2 = BitVec.ofNat 16 s.hid.pwr.voc ++ v5 ∧
     (∀ e, e = roundHalfEven ((s.f F.HARV_STORE_CFG_cap_mf : Rat) * ((vb.toNat : Rat) ^ 2 - (abortMv s : Rat) ^ 2) / 2000) →
       s.on F.HARV_STORE_CFG_mode = false → 0 ≤ e → e < 2 ^ 32 → t.rd R.HARV_E_STORE = BitVec.ofInt 32 e) ∧
     (s.hid.pwr.vsup = true → Frame (fun off => off ∈ [R.HARV_V0, R.HARV_V1, R.HARV_V2, R.HARV_E_STORE]) s.hid s t) ∧
     (s.hid.pwr.vsup = false →
       (10000 ≤ vb.toNat → t.on F.HARV_STAT_src_vb = true ∧ (s.on F.HARV_STAT_src_vb = false → t.on F.HARV_EVENT_src_change = true)) ∧
       Frame (fun off => off ∈ [R.HARV_V0, R.HARV_V1, R.HARV_V2, R.HARV_E_STORE, R.HARV_STAT, R.HARV_EVENT])
         { s.hid with pwr := { s.hid.pwr with path := if 10000 ≤ vb.toNat then .vb else .off } } s t)))

/-- R62: the codes of a burst request whose declared energy is in register `e`, in the order of the rule's steps 2 and 3. That
step 2 refuses on VSUP too (log entry 39, DEDUCED), that `cap_mf` is read in capacitor mode alone (log entry 95, DEDUCED) and
that a path that draws from neither source is judged by its last one (log entry 115) are the model's choices. R62, R64, R71: an
AUXEN burst starts, with AUXEN closed, where its request passes the checks of R62 in their order, and ends with code 0 or 12,
with AUXEN open; `vddq_sel` is taken in LEAN, and in FULL its write is an access error. That a refusal writes its type unless a
burst is in progress (log entry 70) and that firmware's write acts as a host's (log entry 93) are the model's choices. -/
def Obligations.BurstsAreAdmittedByEnergyAndEnd : Prop :=
  (∀ s e, e = R.HARV_E_FULL ∨ e = R.HARV_E_AUX ∨ e = R.HARV_E_FLASH →
     (((s.rd e).toNat = 0 ∨ 100000000 < (s.rd e).toNat) → burstCode e s = 6) ∧
     ((s.rd e).toNat ≠ 0 → (s.rd e).toNat ≤ 100000000 →
       (s.on F.HARV_STAT_src_vb = false → burstCode e s = 0) ∧
       (s.on F.HARV_STAT_src_vb = true → s.on F.HARV_STORE_CFG_mode = true →
         burstCode e s = if abortMv s + 1000 ≤ s.f F.HARV_V0_vb_mv then 0 else 1) ∧
       (s.on F.HARV_STAT_src_vb = true → s.on F.HARV_STORE_CFG_mode = false →
         (s.f F.HARV_STORE_CFG_cap_mf = 0 → burstCode e s = 1) ∧
         (s.f F.HARV_STORE_CFG_cap_mf ≠ 0 → (burstCode e s = 0 ↔
           ((s.rd e).toNat + (s.rd R.HARV_RESERVE).toNat : Rat) ≤
             (s.f F.HARV_STORE_CFG_cap_mf : Rat) * ((s.f F.HARV_V0_vb_mv : Rat) ^ 2 - (abortMv s : Rat) ^ 2) / 2000) ∧
           (burstCode e s = 0 ∨ burstCode e s = 1))))) ∧
  ((∀ s p v dur, Live p s R.HARV_AUX_CMD = true → dur = v.toNat % 512 → v.getLsbD 16 = false →
     Completes (.auxenBurstStart p v) s (Sets [(F.HARV_AUX_CMD_dur_ms, dur)] s.hid s)) ∧
   (∀ s p v dur, Live p s R.HARV_AUX_CMD = true → dur = v.toNat % 512 → v.getLsbD 16 = true → burstBlocked s = false →
     dur ≠ 0 → dur ≤ 500 → burstCode R.HARV_E_AUX s = 0 → Completes (.auxenBurstStart p v) s
       (Sets [(F.HARV_AUX_CMD_dur_ms, dur), (F.HARV_BURST_STAT_type, 2), (F.HARV_BURST_STAT_last_code, 0),
         (F.HARV_BURST_STAT_busy, 1)] { s.hid with pwr := { s.hid.pwr with auxen := true } } s)) ∧
   (∀ s p v dur code, Live p s R.HARV_AUX_CMD = true → dur = v.toNat % 512 → v.getLsbD 16 = true →
     s.on F.HARV_BURST_STAT_busy = false → code = (if burstBlocked s then 3 else if dur = 0 ∨ 500 < dur then 6
       else burstCode R.HARV_E_AUX s) → code ≠ 0 → Completes (.auxenBurstStart p v) s
       (Sets [(F.HARV_AUX_CMD_dur_ms, dur), (F.HARV_BURST_STAT_type, 2), (F.HARV_BURST_STAT_last_code, code),
         (F.HARV_EVENT_burst_refused, 1)] s.hid s)) ∧
   (∀ s p v dur, Live p s R.HARV_AUX_CMD = true → dur = v.toNat % 512 → v.getLsbD 16 = true → s.on F.HARV_BURST_STAT_busy = true →
     Completes (.auxenBurstStart p v) s (Sets [(F.HARV_AUX_CMD_dur_ms, dur), (F.HARV_BURST_STAT_last_code, 3),
       (F.HARV_EVENT_burst_refused, 1)] s.hid s)) ∧
   (∀ s, s.on F.HARV_BURST_STAT_busy = true → s.f F.HARV_BURST_STAT_type = 2 → Completes .auxenBurstVsupEnd s
     (Sets [(F.HARV_BURST_STAT_busy, 0), (F.HARV_BURST_STAT_last_code, 0)]
       { s.hid with pwr := { s.hid.pwr with auxen := false } } s)) ∧
   (∀ s, s.on F.HARV_BURST_STAT_busy = true → s.f F.HARV_BURST_STAT_type = 2 → s.hid.pwr.vsup = false →
     Completes .auxenBurstTimeout s (Sets [(F.HARV_BURST_STAT_busy, 0), (F.HARV_BURST_STAT_last_code, 12)]
       { s.hid with pwr := { s.hid.pwr with auxen := false } } s)) ∧
   (∀ s p v, Live p s R.HARV_REG_CFG = true → s.hid.pwr.st = .lean → Completes (.vddqSelWrite p v) s
     (Sets [(F.HARV_REG_CFG_vddq_sel, v.toNat % 2)] s.hid s)) ∧
   (∀ s p v, Live p s R.HARV_REG_CFG = true → s.hid.pwr.st = .full → Completes (.vddqSelWrite p v) s
     (ReportsError p 3 R.HARV_REG_CFG s)))

/-- R58: the code of a power command in the rule's order; a refusal, and a command that names the present state, change nothing
but the result. One that names OFF is never a transition: all it ever does is record its code. That a refusal leaves the burst
status as it is (log entry 71, DEDUCED) and that firmware's command acts as a host's (log entry 93, DESIGN CHOICE) are the
model's choices. -/
def Obligations.PowerCommandIsCheckedInOrder : Prop :=
  ∀ s p dumpOk (want : Fin 4), Live p s R.SYS_PWR_CMD = true →
    let now := s.f F.SYS_PWR_STAT_state
    let c := powerCommand p dumpOk want
    let busy := s.hid.pwr.trans ≠ .none ∨ s.on F.SYS_MODE_STAT_busy = true ∨ s.on F.HARV_BURST_STAT_busy = true
    let allowed := (now = 2 ∧ want = 3) ∨ (now = 3 ∧ want = 2) ∨ ((now = 2 ∨ now = 3) ∧ want = 1)
    let modeBad := (want = 1 ∧ (now = 3 ∨ s.mode ≠ DORMANT)) ∨ (want = 3 ∧ s.mode = DORMANT) ∨
      (want = 2 ∧ (s.mode = FOLLOW ∨ s.mode = FORM ∨ s.mode = RIDE))
    (busy → Completes c s (Sets [(F.SYS_PWR_STAT_result, 3)] s.hid s)) ∧
    (¬ busy → want.val = now → Completes c s (Sets [(F.SYS_PWR_STAT_result, 0)] s.hid s)) ∧
    (¬ busy → want.val ≠ now → ¬ allowed → Completes c s (Sets [(F.SYS_PWR_STAT_result, 4)] s.hid s)) ∧
    (¬ busy → allowed → modeBad → Completes c s (Sets [(F.SYS_PWR_STAT_result, 5)] s.hid s)) ∧
    (∀ code, (busy → code = 3) → (¬ busy → code = if now = 0 then 0 else 4) →
      Completes (.pwrCmdOff p) s (Sets [(F.SYS_PWR_STAT_result, code)] s.hid s))

/-- R57, R59, R62, R69: the three commanded transitions begin where R58 lets them: FULL to LEAN, LEAN to FULL as a burst (and
its refusal where a burst is not admitted), LEAN to HARVEST as a departure of cause 3 with the supply hold. The model's
choices: no range check of the energy on VSUP (log entry 39, DEDUCED), and type and burst status of a refusal (log entries 70,
71). R55, R57, R59, R68, R70: the transitions of power end in the state they name, with `done` where they were commanded; entry
to LEAN checks the retention RAM, and FULL to LEAN loses LPDDR4X. Lost LPDDR4X and SRAM read as blank (the model's choice, log
entry 4). R56, R57, R63, R65, R68: NRST low, a store abort and the VSUP-fail warning commit the device to HARVEST with their
cause of the dump and the Drone's supply hold, end a commanded transition of power with code 11, or 10; NRST low and a store
abort cancel a start from HARVEST, which a warning turns into a departure; a departure that is overtaken starts its course
again (the model's choices, log entries 72 and 116); the rising edge of NRST in HARVEST starts the device from reset, and
without PGOOD on the stores it is refused with code 2. -/
def Obligations.PowerTransitionsBeginAndArrive : Prop :=
  (∀ s p, Live p s R.SYS_PWR_CMD = true → s.hid.pwr.trans = .none → s.on F.SYS_MODE_STAT_busy = false →
     s.on F.HARV_BURST_STAT_busy = false →
     (s.f F.SYS_PWR_STAT_state = 3 → s.mode ≠ FOLLOW → s.mode ≠ FORM → s.mode ≠ RIDE →
       (s.on F.REC_STAT_running = false → Completes (.pwrCmdLean p) s
         (Sets [(F.SYS_PWR_STAT_result, 0), (F.SYS_PWR_STAT_busy, 1)]
           { s.hid with pwr := { s.hid.pwr with trans := .fullToLean } } s)) ∧
       (s.on F.REC_STAT_running = true → Completes (.pwrCmdLean p) s fun t =>
         t.f F.SYS_PWR_STAT_result = 0 ∧ t.on F.SYS_PWR_STAT_busy = true ∧ t.hid.pwr = { s.hid.pwr with trans := .fullToLean } ∧
         t.on F.REC_STAT_running = false ∧ t.hid.recorder.burst = [] ∧ t.flash = s.flash ∧ t.sram = s.sram ∧ t.now = s.now)) ∧
     (s.f F.SYS_PWR_STAT_state = 2 → s.mode ≠ DORMANT → s.on F.SYS_ISLAND_STAT_busy = false →
       (s.on F.HARV_STAT_src_vb = true → burstCode R.HARV_E_FULL s = 0) → Completes (.pwrCmdFull p) s
         (Sets [(F.SYS_PWR_STAT_result, 0), (F.SYS_PWR_STAT_busy, 1), (F.HARV_BURST_STAT_type, 1),
           (F.HARV_BURST_STAT_last_code, 0), (F.HARV_BURST_STAT_busy, 1)]
           { s.hid with pwr := { s.hid.pwr with trans := .toFull, vddq := true, vddqHigh := s.on F.HARV_REG_CFG_vddq_sel } } s)) ∧
     (∀ code, s.f F.SYS_PWR_STAT_state = 2 → s.mode ≠ DORMANT →
       code = (if s.on F.SYS_ISLAND_STAT_busy then 3 else if s.on F.HARV_STAT_src_vb then burstCode R.HARV_E_FULL s else 0) → code ≠ 0 →
       Completes (.pwrCmdFull p) s
         (Sets [(F.SYS_PWR_STAT_result, code), (F.HARV_BURST_STAT_type, 1), (F.HARV_BURST_STAT_last_code, code),
           (F.HARV_EVENT_burst_refused, 1)] s.hid s)) ∧
     (∀ dumpOk, s.f F.SYS_PWR_STAT_state = 2 → s.mode = DORMANT → Completes (.pwrCmdHarvest p dumpOk) s fun t =>
       t.hid.pwr = { s.hid.pwr with trans := .toHarvest, cause := 3, auxen := false, dumpOnly := true, dumpOpen := !dumpOk } ∧
       t.hid.drone.supply = true ∧ t.f F.SYS_PWR_STAT_result = 0 ∧ t.on F.SYS_PWR_STAT_busy = true ∧ SameMem s t ∧ t.now = s.now ∧
       (dumpOk = true → t.on F.HARV_EVENT_dump_done = true ∧ t.rd (R.HARV_RET 0) = 0x54525A48#32 ∧
         t.rd (R.HARV_RET 1) = s.rd (R.HARV_RET 1) + 1#32 ∧ t.rd (R.HARV_RET 127) = crc32c (retBytes t 0x1FC)))) ∧
  ((∀ s, s.hid.pwr.trans = .toLean → Completes .leanEntryComplete s fun t =>
     t.hid.pwr = { s.hid.pwr with trans := .none, held := false } ∧ t.f F.SYS_PWR_STAT_state = 2 ∧
     ((s.rd (R.HARV_RET 0) = 0x54525A48#32 ∧ s.rd (R.HARV_RET 127) = crc32c (retBytes s 0x1FC)) →
       t.on F.HARV_STAT_ret_valid = true) ∧
     (¬ (s.rd (R.HARV_RET 0) = 0x54525A48#32 ∧ s.rd (R.HARV_RET 127) = crc32c (retBytes s 0x1FC)) →
       t.on F.HARV_STAT_dump_incomplete = true ∧
         t.f F.HARV_STAT_dump_cause = if s.hid.pwr.dumpOpen then 1 else 2) ∧ SameMem s t ∧ t.now = s.now) ∧
   (∀ s trained size, s.hid.pwr.trans = .toFull → Completes (.fullEntryComplete trained size) s fun t =>
     t.hid.pwr.st = .full ∧ t.hid.pwr.trans = .none ∧ ddrResetPin t = some s.hid.pwr.vddq ∧ t.f F.SYS_PWR_STAT_state = 3 ∧ t.on F.SYS_PWR_STAT_busy = false ∧
     t.on F.SYS_PWR_STAT_done = true ∧ t.on F.HARV_BURST_STAT_busy = false ∧ t.on F.MEMC_STAT_ready = trained ∧
     t.f F.MEMC_CFG_size = size.toNat ∧ (trained = false → t.on F.MEMC_STAT_mem_fail = true)) ∧
   (∀ s, s.hid.pwr.trans = .fullToLean → Completes .fullToLeanComplete s fun t =>
     t.hid.pwr.st = .lean ∧ t.hid.pwr.trans = .none ∧ t.hid.pwr.vddq = false ∧ ddrResetPin t = some false ∧ t.f F.SYS_PWR_STAT_state = 2 ∧
     t.on F.SYS_PWR_STAT_busy = false ∧ t.on F.SYS_PWR_STAT_done = true ∧ t.on F.MEMC_STAT_ready = false ∧
     t.on F.REC_STAT_running = false ∧ (∀ d : Die, t.f (F.CONV_CAL_STAT_done d) = 0) ∧ t.lpddr = [] ∧ t.flash = s.flash) ∧
   (∀ s mv, s.hid.pwr.trans = .toHarvest → Completes (.harvestEntryComplete mv) s fun t =>
     (mv.toNat < 2700 → t.hid.pwr.st = .off ∧ t.hid.pwr.aon = .stopped ∧ ∀ off, t.rd off = resetWord off) ∧
     (2700 ≤ mv.toNat → mv.toNat < 4500 → s.hid.pwr.aon = .running →
       t.hid.pwr.st = .harvest ∧ t.hid.pwr.aon = .hold ∧ t.on F.HARV_STAT_hold_seen = true) ∧
     (4500 ≤ mv.toNat → s.hid.pwr.byNrst = false ∨ s.hid.pwr.nrst = false →
       t.hid.pwr.st = .harvest ∧ t.hid.pwr.trans = .none ∧ t.hid.pwr.vddq = false) ∧
     (4500 ≤ mv.toNat → s.hid.pwr.byNrst = true → s.hid.pwr.nrst = true → s.hid.pwr.aon = .running →
       s.hid.pwr.vsup = true ∨ s.on F.HARV_STAT_pgood = true → t.hid.pwr.st = .lean ∧ t.hid.pwr.trans = .toLean) ∧
     (2700 ≤ mv.toNat → s.hid.pwr.aborted = true → t.on F.HARV_EVENT_burst_abort = true ∧
       t.rd R.HARV_ABORT_CNT = bumped (s.rd R.HARV_ABORT_CNT)) ∧ t.lpddr = [] ∧ t.sram = [])) ∧
  (let overtakes := fun (s t : State) (code : Nat) =>
     (s.hid.pwr.trans = .toFull ∨ s.hid.pwr.trans = .fullToLean ∨ (s.hid.pwr.trans = .toHarvest ∧ s.hid.pwr.cause = 3)) →
       t.f F.SYS_PWR_STAT_result = code
   let departs := fun (s t : State) (cause : Nat) =>
     t.hid.pwr.trans = .toHarvest ∧ t.hid.pwr.cause = cause ∧ t.hid.pwr.dumpOnly = true ∧ t.hid.pwr.auxen = false ∧
       t.hid.drone.supply = true ∧ t.on F.SYS_PWR_STAT_busy = true ∧ t.on F.HARV_BURST_STAT_busy = false ∧ t.lpddr = s.lpddr ∧ t.sram = s.sram ∧
       (s.hid.boot.upd = false ∨ s.hid.boot.work = none → t.flash = s.flash) ∧ t.now = s.now
   (∀ s dumpOk, s.up = true → s.hid.pwr.trans ≠ .toLean → Completes (.nrstLow dumpOk) s fun t =>
     t.hid.pwr.nrst = false ∧ t.hid.pwr.byNrst = true ∧ departs s t 4 ∧ overtakes s t 11) ∧
   (∀ s dumpOk, s.hid.pwr.trans = .toLean → Completes (.nrstLow dumpOk) s fun t =>
     t.hid.pwr = { s.hid.pwr with nrst := false, st := .harvest, trans := .none, held := false }) ∧
   (∀ s dumpOk, s.up = false → s.hid.pwr.trans ≠ .toLean → Completes (.nrstLow dumpOk) s
     (Sets [] { s.hid with pwr := { s.hid.pwr with nrst := false } } s)) ∧
   (∀ s dumpOk, s.up = true → s.hid.pwr.trans ≠ .toLean → s.on F.HARV_STAT_src_vb = true → Completes (.storeAbort dumpOk) s fun t =>
     t.hid.pwr.aborted = true ∧ departs s t 2 ∧ overtakes s t 10) ∧
   (∀ s dumpOk, s.on F.HARV_STAT_src_vb = false → Completes (.storeAbort dumpOk) s (Sets [] s.hid s)) ∧
   (∀ s dumpOk, s.up = true → s.hid.pwr.trans ≠ .toLean → Completes (.vsupFailWarning dumpOk) s fun t =>
     t.on F.HARV_EVENT_vsup_warn = true ∧ departs s t 1 ∧ overtakes s t 10) ∧
   (∀ s dumpOk, s.hid.pwr.trans = .toLean → Completes (.vsupFailWarning dumpOk) s fun t =>
     t.on F.HARV_EVENT_vsup_warn = true ∧ departs s t 1 ∧ t.hid.pwr.dumpOpen = !dumpOk ∧
     (dumpOk = true → t.on F.HARV_EVENT_dump_done = true ∧ t.rd (R.HARV_RET 0) = 0x54525A48#32)) ∧
   (∀ s, s.hid.pwr.st = .harvest → s.hid.pwr.aon = .running → s.hid.pwr.trans = .none →
     (s.hid.pwr.vsup = true ∨ s.on F.HARV_STAT_pgood = true) → Completes .nrstRise s fun t =>
       t.hid.pwr = { s.hid.pwr with nrst := true, st := .lean, trans := .toLean, dumpOnly := false, held := true } ∧ t.up = false ∧ t.now = 0#64 ∧
       t.lpddr = [] ∧ t.sram = [] ∧ t.flash = s.flash ∧
       ∀ off, inHarv off = false → inDrone off = false → t.rd off = resetWord off) ∧
   (∀ s, s.hid.pwr.st = .harvest → s.hid.pwr.aon = .running → s.hid.pwr.trans = .none →
     s.hid.pwr.vsup = false → s.on F.HARV_STAT_pgood = false → Completes .nrstRise s
       (Sets [(F.HARV_BURST_STAT_last_code, 2)] { s.hid with pwr := { s.hid.pwr with nrst := true } } s)) ∧
   (∀ s, s.hid.pwr.st ≠ .harvest → Completes .nrstRise s (Sets [] { s.hid with pwr := { s.hid.pwr with nrst := true } } s)))

/-- R60, R61: a write of `SYS_ISLAND_EN` is refused whole by the first condition of the rule's table, with its code and no
other effect; else all of its writable bits are taken, HOST and FAB stay enabled, and `busy` reads 1 until the change has
finished. -/
def Obligations.IslandEnablesChangeWhole : Prop :=
  (∀ s p v, Live p s R.SYS_ISLAND_EN = true →
    let new := (v &&& 0x07FFD7FF#32) ||| 0x2800#32
    let rise := new &&& ~~~ s.rd R.SYS_ISLAND_EN
    let noTrip := (new.getLsbD 19 = true ∧ new.getLsbD 21 = false) ∨ (new.getLsbD 24 = true ∧ new.getLsbD 26 = false)
    let noLink := (rise &&& 0x3E0000#32 ≠ 0#32 ∧ s.on (F.SYS_SEAM_STAT_up 0) = false) ∨
      (rise &&& 0x7C00000#32 ≠ 0#32 ∧ s.on (F.SYS_SEAM_STAT_up 1) = false)
    let c := Instr.islandEnWrite p v
    let refusedWith := fun n : Nat => Completes c s (Sets [(F.SYS_ISLAND_STAT_result, n)] s.hid s)
    (p = .fw → refusedWith 7) ∧
    (p ≠ .fw → s.on F.SYS_ISLAND_STAT_busy = true → refusedWith 3) ∧
    (p ≠ .fw → s.on F.SYS_ISLAND_STAT_busy = false → noTrip → refusedWith 8) ∧
    (p ≠ .fw → s.on F.SYS_ISLAND_STAT_busy = false → ¬ noTrip → noLink → refusedWith 9) ∧
    (p ≠ .fw → s.on F.SYS_ISLAND_STAT_busy = false → ¬ noTrip → ¬ noLink →
      Completes c s fun t => t.rd R.SYS_ISLAND_EN = new ∧ t.on F.SYS_ISLAND_STAT_busy = true ∧
        t.f F.SYS_ISLAND_STAT_result = 0)) ∧
  (∀ s, s.on F.SYS_ISLAND_STAT_busy = true → Completes .islandChangeDone s fun t =>
    t.on F.SYS_ISLAND_STAT_busy = false ∧ t.rd R.SYS_ISLAND_EN = s.rd R.SYS_ISLAND_EN ∧ t.now = s.now)

/-! ### Clocks (spec/03) -/

/-- R73, R75, R77, R79, R81, R84, R88: the reference and the PLLs enter their status: lock on a band that the spec does not
state (log entry 15), the system PLL's with `ref_ok` (the model's choice, log entry 75), coasting with the clock-fault line and
its event, lock regained once the reference is valid; the Slide's counter goes on from the value it holds (log entry 74); a
Bell PLL's status is read as of its last refresh. R78, R80: the coast limit raises its event, the Drone's fault of that PLL's
timer and HALT cause `coast`, on which HALT is entered, and ends a pending commit with code 6; the Drone's clock monitor counts
windows within 8 % and latches its fault in one outside, while the North PLL is enabled. -/
def Obligations.PllsAndClockFaultsAreReported : Prop :=
  ((∀ s, s.on F.CLK_STAT_ref_ok = true → Completes .refLost s
     (Sets [(F.CLK_STAT_ref_ok, 0), (F.CLK_EVENT_ref_lost, 1)] s.hid s)) ∧
   (∀ s, s.on F.CLK_STAT_ref_ok = false → Completes .refBack s
     (Sets [(F.CLK_STAT_ref_ok, 1), (F.CLK_EVENT_ref_back, 1)] s.hid s)) ∧
   (∀ s, s.up = true → s.hid.clk.sys.lock = false → s.hid.clk.sys.coast = false → Completes (.pllLock .sys) s
     (Sets [(F.CLK_STAT_sys_lock, 1), (F.CLK_STAT_sys_coast, 0), (F.CLK_STAT_sys_band, (Config.freeBand s.fresh).toNat),
       (F.CLK_STAT_ref_ok, 1)] { s.hid with clk := { s.hid.clk with
         sys := { s.hid.clk.sys with lock := true, band := (Config.freeBand s.fresh).toNat } } } s)) ∧
   (∀ s, started s = true → s.hid.clk.north.lock = false → s.hid.clk.north.coast = false → Completes (.pllLock .north) s
     (Sets [] { s.hid with clk := { s.hid.clk with
         north := { s.hid.clk.north with lock := true, band := (Config.freeBand s.fresh).toNat } } } s)) ∧
   (∀ s, started s = true → s.hid.clk.south.lock = false → s.hid.clk.south.coast = false → Completes (.pllLock .south) s
     (Sets [] { s.hid with clk := { s.hid.clk with
         south := { s.hid.clk.south with lock := true, band := (Config.freeBand s.fresh).toNat } } } s)) ∧
   (∀ s, s.hid.pwr.st = .lean → s.hid.pwr.held = true → s.hid.clk.sys.lock = false → s.hid.clk.sys.coast = false →
     Completes (.pllLock .sys) s fun t => t.up = true ∧ t.hid.clk.sys.lock = true ∧ t.on F.CLK_STAT_sys_lock = true ∧
       t.on F.CLK_STAT_ref_ok = true ∧ t.hid.pwr = { s.hid.pwr with held := false }) ∧
   (∀ s l, s.up = false → (l = .slide ∨ l ≠ .sys ∧ started s = false) → Completes (.pllLock l) s (Sets [] s.hid s)) ∧
   (∀ s, s.up = true → s.on F.CLK_SLIDE_CFG_en = true → s.on F.CLK_SLIDE_STAT_pll_lock = false → s.on F.CLK_SLIDE_STAT_coast = false →
     Completes (.pllLock .slide) s fun t => t.on F.CLK_SLIDE_STAT_pll_lock = true ∧ t.on F.CLK_SLIDE_STAT_coast = false ∧
       t.f F.CLK_SLIDE_STAT_band = (Config.freeBand s.fresh).toNat ∧ t.pu R.CLK_SLIDE_FREQ = 0x40000000 ∧ t.hid.clk.freq = 1 ∧
       slideAt t s.now = s.hid.clk.cyc ∧ t.hid.clk.copyN.natAbs ≤ 1 ∧ t.hid.clk.copyS.natAbs ≤ 1 ∧
       KeepRegs (fun off => off = R.CLK_SLIDE_STAT ∨ off = R.CLK_SLIDE_FREQ ∨ off = R.CLK_SLIDE_FREQ + 4) s t ∧
       t.hid = { s.hid with clk := t.hid.clk } ∧ SameAside s t) ∧
   (∀ s, s.hid.clk.sys.lock = true → Completes (.pllCoastStart .sys) s
     (Sets [(F.CLK_STAT_sys_lock, 0), (F.CLK_STAT_sys_coast, 1), (F.CLK_STAT_sys_band, s.hid.clk.sys.band),
       (F.CLK_EVENT_sys_unlock, 1)] { s.hid with clk := { s.hid.clk with
         sys := { s.hid.clk.sys with lock := false, coast := true, line := true } } } s)) ∧
   (∀ s, s.hid.clk.north.lock = true → Completes (.pllCoastStart .north) s
     (Sets [(F.CLK_EVENT_bell_unlock, 1)] { s.hid with clk := { s.hid.clk with
         north := { s.hid.clk.north with lock := false, coast := true, line := true } } } s)) ∧
   (∀ s, s.hid.clk.south.lock = true → Completes (.pllCoastStart .south) s
     (Sets [(F.CLK_EVENT_bell_unlock, 1)] { s.hid with clk := { s.hid.clk with
         south := { s.hid.clk.south with lock := false, coast := true, line := true } } } s)) ∧
   (∀ s, s.on F.CLK_SLIDE_STAT_pll_lock = true → Completes (.pllCoastStart .slide) s fun t =>
     t.on F.CLK_SLIDE_STAT_pll_lock = false ∧ t.on F.CLK_SLIDE_STAT_coast = true ∧ t.on F.CLK_EVENT_slide_unlock = true ∧
     t.hid.clk.coastT = some s.now ∧ t.hid.clk.freq = s.hid.clk.freq ∧ slideCyc t s.now = slideCyc s s.now ∧
     KeepRegs (fun off => off = R.CLK_SLIDE_STAT ∨ off = R.CLK_EVENT) s t ∧
     t.hid = { s.hid with clk := t.hid.clk, meter := t.hid.meter } ∧ SameAside s t) ∧
   (∀ s, s.hid.clk.sys.coast = true → s.on F.CLK_STAT_ref_ok = true → Completes (.pllRelock .sys) s fun t =>
       t.hid.clk = { s.hid.clk with sys := { s.hid.clk.sys with lock := true, coast := false, line := false } } ∧
       t.on F.CLK_STAT_sys_lock = true ∧ t.on F.CLK_STAT_sys_coast = false ∧ t.on F.CLK_EVENT_sys_relock = true) ∧
   (∀ s l, l ≠ .slide → (pllGet s l).coast = true → s.on F.CLK_STAT_ref_ok = true → Completes (.pllRelock l) s fun t =>
     pllGet t l = { pllGet s l with lock := true, coast := false, line := false } ∧
     t.hid.drone.coastOut = putBit s.hid.drone.coastOut (pllBit l) false ∧
     (putBit s.hid.drone.coastOut (pllBit l) false = 0 → t.on (liveBit causeCoast) = false) ∧ SameMem s t ∧ t.now = s.now) ∧
   (∀ s l, s.on F.CLK_STAT_ref_ok = false → Completes (.pllRelock l) s (Sets [] s.hid s)) ∧
   (∀ s, s.on F.CLK_SLIDE_STAT_coast = true → s.on F.CLK_STAT_ref_ok = true → Completes (.pllRelock .slide) s fun t =>
     t.on F.CLK_SLIDE_STAT_pll_lock = true ∧ t.on F.CLK_SLIDE_STAT_coast = false ∧
     t.f F.CLK_SLIDE_STAT_band = s.f F.CLK_SLIDE_STAT_band ∧ t.hid.clk.coastT = none ∧ slideCyc t s.now = slideCyc s s.now ∧
     KeepRegs (fun off => off = R.CLK_SLIDE_STAT) s t ∧ t.hid = { s.hid with clk := t.hid.clk } ∧ SameAside s t) ∧
   (∀ s, s.on (F.SYS_SEAM_STAT_up 0) = true → Completes (.bellStatusRefresh 0) s
     (Sets [(F.CLK_BELL_STAT_n_valid, 1), (F.CLK_BELL_STAT_n_lock, b2n s.hid.clk.north.lock),
       (F.CLK_BELL_STAT_n_coast, b2n s.hid.clk.north.coast), (F.CLK_BELL_STAT_n_band, s.hid.clk.north.band)] s.hid s)) ∧
   (∀ s, s.on (F.SYS_SEAM_STAT_up 1) = true → Completes (.bellStatusRefresh 1) s
     (Sets [(F.CLK_BELL_STAT_s_valid, 1), (F.CLK_BELL_STAT_s_lock, b2n s.hid.clk.south.lock),
       (F.CLK_BELL_STAT_s_coast, b2n s.hid.clk.south.coast), (F.CLK_BELL_STAT_s_band, s.hid.clk.south.band)] s.hid s))) ∧
  ((∀ s l, s.up = true → (pllGet s l).line = true → Completes (.coastLimit l) s fun t =>
     t.on F.CLK_EVENT_coast_limit = true ∧ bit t.hid.drone.coastOut (pllBit l) = true ∧
     t.on (causeBit causeCoast) = true ∧ t.on (liveBit causeCoast) = true ∧ (s.mode ≠ DORMANT → t.mode = HALT) ∧
     t.on F.CLK_STAT_commit_pending = false ∧
     (s.on F.CLK_STAT_commit_pending = true → t.f F.CLK_STAT_result = 6 ∧ t.on F.CLK_SYS_COMMIT_go = false) ∧
     SameMem s t ∧ t.now = s.now) ∧
   (∀ s count, started s = true → s.hid.pwr.aon = .running → 943 ≤ count → count ≤ 1105 → Completes (.droneClockCheck count) s
     (Sets [] { s.hid with drone := { s.hid.drone with monGood := min 3 (s.hid.drone.monGood + 1) } } s)) ∧
   (∀ s count, started s = true → s.hid.pwr.aon = .running → count < 943 ∨ 1105 < count → Completes (.droneClockCheck count) s fun t =>
     t.on F.DRONE_FAULT_clock = true ∧ t.hid.drone.monGood = 0 ∧ SameMem s t ∧ t.now = s.now) ∧
   (∀ s count, started s = false → Completes (.droneClockCheck count) s (Sets [] s.hid s)))

/-- R74, R76, R254, R359: a divider commit records the first code that applies, in the rule's order, and with code 0 waits for
the in-phase point, at which the active dividers take the shadow and each engine's `lat` follows, and `mcycle` has counted
until then at the old divider (log entry 133). R9, R21, R82, R83: at its wrap device time returns to zero, the wrap count rises
and stays at 255, and the wrap event is raised; the skew marker records the difference of each die whose link is up, with the
event beyond two ticks; a copy more than two ticks behind adds two together, and one more than two ahead holds its count for
two ticks, unless a marker ends the hold (the model's reading, log entry 134). -/
def Obligations.DividersAndDeviceTimeFollowTheirRules : Prop :=
  ((∀ s p v, Live p s R.CLK_SYS_COMMIT = true → v.getLsbD 0 = true →
     let c := Instr.clkSysCommit p v
     let code := fun n : Nat => Completes c s (Sets [(F.CLK_STAT_result, n)] s.hid s)
     let moves := (s.rd R.SYS_ISLAND_EN).toNat &&& commitIslands s ≠ 0
     (s.mode ≠ CONFIGURE → code 1) ∧
     (s.mode = CONFIGURE → moves → code 2) ∧
     (s.mode = CONFIGURE → ¬ moves → s.on F.CLK_STAT_sys_lock = false → code 3) ∧
     (s.mode = CONFIGURE → ¬ moves → s.on F.CLK_STAT_sys_lock = true → s.on F.CLK_STAT_commit_pending = true → code 4) ∧
     (s.mode = CONFIGURE → ¬ moves → s.on F.CLK_STAT_sys_lock = true → s.on F.CLK_STAT_commit_pending = false →
       Completes c s (Sets [(F.CLK_STAT_result, 0), (F.CLK_STAT_commit_pending, 1), (F.CLK_SYS_COMMIT_go, 1)] s.hid s))) ∧
   (∀ s, s.on F.CLK_STAT_commit_pending = true → Completes .dividerApply s fun t =>
     t.rd R.CLK_SYS_DIV_ACT = s.rd R.CLK_SYS_DIV ∧ t.on F.CLK_STAT_commit_pending = false ∧ t.on F.CLK_SYS_COMMIT_go = false ∧
     t.on F.CLK_EVENT_commit_done = true ∧
     (∀ e : Fin 8, stageCount s e ≠ 0 → t.f (F.BORE_FIX_CFG_lat e) = (boreCyc t * engCycles t e + 112) % 2 ^ 16) ∧
     Frame (fun off => off = R.CLK_SYS_DIV_ACT ∨ off = R.CLK_STAT ∨ off = R.CLK_SYS_COMMIT ∨ off = R.CLK_EVENT ∨
       ∃ e : Fin 8, off = R.BORE_FIX_CFG e) (withChnt s { s.hid.chnt with
         mcycle := t.hid.chnt.mcycle, minstret := t.hid.chnt.minstret, cntT := t.hid.chnt.cntT }) s t ∧
     (s.on F.CHNT_STAT_running = true → t.hid.chnt.cntT = s.now ∧ t.hid.chnt.mcycle =
       s.hid.chnt.mcycle + BitVec.ofNat 64 (chntCycles s (s.now - s.hid.chnt.cntT).toNat)) ∧
     (s.on F.CHNT_STAT_running = false → t.hid = s.hid))) ∧
  ((∀ s, Completes .deviceTimeWrap s fun t => t.now = 0#64 ∧ t.on F.CLK_EVENT_time_wrap = true ∧
     t.f F.CLK_TIME_SNAP_wrap = min 255 (s.f F.CLK_TIME_SNAP_wrap + 1) ∧
     KeepRegs (fun off => off = R.CLK_TIME_SNAP ∨ off = R.CLK_EVENT) s t ∧ SameMem s t ∧ t.hid = s.hid) ∧
   (∀ s north south, s.on (F.SYS_SEAM_STAT_up 0) = true → s.on (F.SYS_SEAM_STAT_up 1) = true →
     Completes (.skewMarker north south) s
     (Sets ([(F.CLK_SKEW_north, north.toNat), (F.CLK_SKEW_south, south.toNat)] ++
         (if 2 < north.toInt.natAbs ∨ 2 < south.toInt.natAbs then [(F.CLK_EVENT_skew, 1)] else []))
       { s.hid with clk := { s.hid.clk with skewN := north.toInt, skewS := south.toInt, holdN := none, holdS := none } } s)) ∧
   (∀ s north south, s.on (F.SYS_SEAM_STAT_up 0) = false → s.on (F.SYS_SEAM_STAT_up 1) = true →
     Completes (.skewMarker north south) s
     (Sets ((F.CLK_SKEW_south, south.toNat) :: (if 2 < south.toInt.natAbs then [(F.CLK_EVENT_skew, 1)] else []))
       { s.hid with clk := { s.hid.clk with skewS := south.toInt, holdS := none } } s)) ∧
   (∀ s north south, s.on (F.SYS_SEAM_STAT_up 0) = true → s.on (F.SYS_SEAM_STAT_up 1) = false →
     Completes (.skewMarker north south) s
     (Sets ((F.CLK_SKEW_north, north.toNat) :: (if 2 < north.toInt.natAbs then [(F.CLK_EVENT_skew, 1)] else []))
       { s.hid with clk := { s.hid.clk with skewN := north.toInt, holdN := none } } s)) ∧
   (∀ s (d : Die), Completes (.skewCorrection d) s fun t =>
     (2 < dieSkew s d → dieTime t d = dieTime s d ∧ dieTime { t with now := s.now + 1#64 } d = dieTime s d ∧
       dieTime { t with now := s.now + 2#64 } d = dieTime s d ∧ dieTime { t with now := s.now + 3#64 } d = dieTime s d + 1#64) ∧ (dieSkew s d < -2 → dieSkew t d = dieSkew s d + 2) ∧
     ((dieSkew s d).natAbs ≤ 2 → dieSkew t d = dieSkew s d) ∧ dieSkew t (1 - d) = dieSkew s (1 - d) ∧
     (∀ off, t.rd off = s.rd off) ∧ SameMem s t ∧ t.now = s.now))

/-- R84–R90, R92: enabling, disabling and committing the Slide record the codes of R89; a ramp update moves the frequency
towards the clamped target by at most the rate of its segment, and not without lock, with the registers of R87 following
(`pherr` against the tracker's angle as published, log entry 78); a strobe records the device time of its Slide edge and goes
to the converters and engines that name it; a disabled Slide rests when each of its generators has finished its strobe period;
CLKOUT takes the selected clock. The model's readings: clamp and `range_clip` are of the target with its correction (log entry
77, DEDUCED), what ends a strobe period (log entry 76, DEDUCED) and what the status of a disabled Slide shows (log entry 117).
-/
def Obligations.SlideFollowsItsCommands : Prop :=
  (∀ s p v, Live p s R.CLK_SLIDE_CFG = true → s.on F.CLK_SLIDE_CFG_en = false → s.on F.CLK_STAT_sys_lock = true →
    Completes (.slideEnable p v) s fun t => t.on F.CLK_SLIDE_CFG_en = true ∧ t.f F.CLK_SLIDE_STAT_result = 0 ∧
      t.f F.CLK_SLIDE_CFG_src = v.toNat / 2 % 4 ∧
      (s.hid.clk.ending = 0 → t.hid = { s.hid with clk := { s.hid.clk with fnom := fnomHz s } }) ∧
      (s.hid.clk.ending ≠ 0 → t.on F.CLK_SLIDE_STAT_pll_lock = false ∧ t.on F.CLK_SLIDE_STAT_coast = false ∧
        slideCyc t s.now = slideCyc s s.now) ∧
      t.hid.clk.ending = 0 ∧ t.hid.clk.fnom = fnomHz s ∧ t.hid = { s.hid with clk := t.hid.clk } ∧
      KeepRegs (fun off => off = R.CLK_SLIDE_CFG ∨ off = R.CLK_SLIDE_STAT) s t ∧ SameMem s t) ∧
  (∀ s p v, Live p s R.CLK_SLIDE_CFG = true → s.on F.CLK_SLIDE_CFG_en = false → s.on F.CLK_STAT_sys_lock = false →
    Completes (.slideEnable p v) s fun t => t.on F.CLK_SLIDE_CFG_en = false ∧ t.f F.CLK_SLIDE_STAT_result = 3 ∧ t.hid = s.hid) ∧
  (∀ s p v, Live p s R.CLK_SLIDE_CFG = true → s.on F.CLK_SLIDE_CFG_en = true → (s.mode = DORMANT ∨ s.mode = CONFIGURE) →
    Completes (.slideDisable p v) s fun t => t.on F.CLK_SLIDE_CFG_en = false ∧ t.f F.CLK_SLIDE_STAT_result = 0 ∧
      t.on F.CLK_SLIDE_STAT_ramping = false ∧ t.on F.CLK_SLIDE_STAT_grid_locked = false ∧ slideCyc t s.now = slideCyc s s.now ∧
      ((slideRuns s = false ∨ strobesOn s = 0) → t.on F.CLK_SLIDE_STAT_pll_lock = false ∧ t.on F.CLK_SLIDE_STAT_coast = false) ∧
      (slideRuns s = true → strobesOn s ≠ 0 → t.hid.clk = { s.hid.clk with ending := strobesOn s } ∧
        t.on F.CLK_SLIDE_STAT_pll_lock = s.on F.CLK_SLIDE_STAT_pll_lock ∧ t.on F.CLK_SLIDE_STAT_coast = s.on F.CLK_SLIDE_STAT_coast) ∧
      (∀ f : Fin 12, s.on (F.CONV_F_STAT_running f) = true → (fineSt t f).stop = true) ∧
      t.hid = { s.hid with clk := t.hid.clk, fine := t.hid.fine } ∧
      KeepRegs (fun off => off = R.CLK_SLIDE_CFG ∨ off = R.CLK_SLIDE_STAT) s t ∧ SameMem s t) ∧
  (∀ s p v, Live p s R.CLK_SLIDE_CFG = true → s.on F.CLK_SLIDE_CFG_en = true → s.mode ≠ DORMANT → s.mode ≠ CONFIGURE →
    Completes (.slideDisable p v) s fun t => t.on F.CLK_SLIDE_CFG_en = true ∧ t.f F.CLK_SLIDE_STAT_result = 1 ∧ t.hid = s.hid) ∧
  (∀ s p v, Live p s R.CLK_SLIDE_COMMIT = true → v.getLsbD 0 = true → s.on F.CLK_SLIDE_COMMIT_go = true →
    Completes (.slideCommit p v) s (Sets [(F.CLK_SLIDE_STAT_result, 4)] s.hid s)) ∧
  (∀ s p v, Live p s R.CLK_SLIDE_COMMIT = true → v.getLsbD 0 = true → s.on F.CLK_SLIDE_COMMIT_go = false →
    Completes (.slideCommit p v) s (Sets (if thRising (slideSegs (slideShadow s))
      then [(F.CLK_SLIDE_STAT_result, 0), (F.CLK_SLIDE_COMMIT_go, 1)] else [(F.CLK_SLIDE_STAT_result, 5)]) s.hid s)) ∧
  (∀ s, s.on F.CLK_SLIDE_CFG_en = true → ∀ x, x = (if s.on F.CLK_SLIDE_COMMIT_go then slideShadow s else s.hid.clk.slide) →
    ∀ pherr, pherr = qTheta s - slideAngle s s.now →
    ∀ tgt, tgt = clampRat (40 / s.hid.clk.fnom) (70 / s.hid.clk.fnom) (slideTarget x s pherr.toInt) →
    ∀ err, err = tgt - s.hid.clk.freq → Completes .slideRampUpdate s fun t =>
      t.on F.CLK_SLIDE_COMMIT_go = false ∧ t.hid.clk.slide = x ∧ t.rd R.CLK_SLIDE_PHERR = pherr ∧
      t.pu R.CLK_SLIDE_TARGET = narrow36 tgt ∧ t.pu R.CLK_SLIDE_FREQ = narrow36 t.hid.clk.freq ∧
      (s.on F.CLK_SLIDE_STAT_pll_lock = false → t.hid.clk.freq = s.hid.clk.freq) ∧
      (s.on F.CLK_SLIDE_STAT_pll_lock = true → ∀ r, some r = slideRate (slideSegs x) (magQ err) →
        t.hid.clk.freq = s.hid.clk.freq + clampRat (-(r / 1000000000 / s.hid.clk.fnom)) (r / 1000000000 / s.hid.clk.fnom) err) ∧
      (slideSegs x = [] → t.hid.clk.freq = s.hid.clk.freq ∧ t.on F.CLK_SLIDE_STAT_hold = true) ∧
      t.on F.CLK_SLIDE_STAT_range_clip = decide (tgt ≠ slideTarget x s pherr.toInt) ∧
      t.on F.CLK_SLIDE_STAT_ramping = decide (t.hid.clk.freq ≠ tgt) ∧
      t.on F.CLK_SLIDE_STAT_grid_locked = decide (magQ (tgt - t.hid.clk.freq) ≤ (Fld.get F.CLK_SLIDE_CFG_lock_tol x.cfg : Rat) / 2 ^ 20) ∧
      slideCyc t s.now = slideCyc s s.now ∧ t.hid = { s.hid with clk := t.hid.clk } ∧ SameAside s t) ∧
  (∀ s (j : Fin 4), s.on F.CLK_SLIDE_CFG_en = true → slideEdge s = true →
    strobeAt (s.hid.clk.slide.strobe.getD j 0#32) (slideCyc s s.now) = true →
    Completes (.slideStrobe j) s fun t => t.hid.clk.strobeTs.getD j 0#64 = s.now ∧
      (∀ c : Fin 16, s.f (F.CONV_C_TRIG_kind c) = 2 → s.f (F.CONV_C_TRIG_index c) = j → (convSt t c).trigs = (convSt s c).trigs + 1) ∧
      (∀ e : Fin 8, s.f (F.BORE_INFO_stages e) ≠ 0 → s.f (F.BORE_TRIG_kind e) = 2 → s.f (F.BORE_TRIG_index e) = j →
        (boreSt t e).trigs = (boreSt s e).trigs ++ [s.now]) ∧ (bit s.hid.clk.ending j = false → ∀ off, t.rd off = s.rd off) ∧ SameAside s t) ∧
  (∀ s (j : Fin 4), s.on F.CLK_SLIDE_CFG_en = false → bit s.hid.clk.ending j = true → slideEdge s = true →
    strobeAt (s.hid.clk.slide.strobe.getD j 0#32) (slideCyc s s.now) = true →
    Completes (.slideStrobe j) s fun t => bit t.hid.clk.ending j = false ∧ t.hid.clk.strobeTs = s.hid.clk.strobeTs ∧
      (putBit s.hid.clk.ending j false = 0 → t.on F.CLK_SLIDE_STAT_pll_lock = false ∧ t.on F.CLK_SLIDE_STAT_coast = false ∧
        slideCyc t s.now = slideCyc s s.now) ∧
      (putBit s.hid.clk.ending j false ≠ 0 → t.hid.clk = { s.hid.clk with ending := putBit s.hid.clk.ending j false } ∧
        ∀ off, t.rd off = s.rd off) ∧
      KeepRegs (fun off => off = R.CLK_SLIDE_STAT) s t ∧ t.hid = { s.hid with clk := t.hid.clk } ∧ SameAside s t) ∧
  (∀ s, Completes .clkoutSelect s
    (Sets [] { s.hid with clk := { s.hid.clk with clkout := s.f F.CLK_CFG_clkout_sel } } s))

/-! ### The Fingering loader (spec/04) -/

/-- R106, R109, R111, R116: a command of the loader is refused with the first code that applies, in this order, and then
changes nothing but the result and its event; the write of a second port in one FAB cycle is refused with 0x61 (log entry 40);
an `op` that names no command is refused at all times. R106: LOAD, APPLY and COMMIT, where no code of the loader's rules
applies, run in their loader states, LOAD over the image its source holds as the command is taken (the model's choice, log
entry 98), none beyond its end (log entry 121); DISCARD drops what is staged and, where a structure is in force, committed or
not, removes it, and ends at once (log entry 41, DEDUCED). -/
def Obligations.FingCommandsAreCheckedAndBegin : Prop :=
  (∀ s p (op : BitVec 3), Live p s R.FING_CMD = true →
     let c := fingCommand p op
     let ld := s.f F.FING_STAT_loader
     let refusal := fun code : Nat => [(F.FING_STAT_result, code), (F.FING_EVENT_rejected, 1)]
     let taken := withFing s { s.hid.fing with last := some (s.now.toNat / 2, p) }
     let refused := fun code : Nat => Completes c s (Sets (refusal code) taken s)
     let first := fingRaced p s = false
     let idle := first ∧ s.on F.FING_STAT_busy = false
     let inPlace := idle ∧ s.mode = CONFIGURE
     let load := inPlace ∧ op = 1 ∧ (ld = 0 ∨ ld = 3)
     (fingRaced p s = true → Completes c s (Sets (refusal 0x61) s.hid s)) ∧
     (first → s.on F.FING_STAT_busy = true → refused 0x61) ∧
     (idle → (op = 0 ∨ 4 < op.toNat) → refused 0x64) ∧
     (idle → (op = 0 ∨ 4 < op.toNat) → Completes (.fingCmdInvalid p op) s (Sets (refusal 0x64) taken s)) ∧
     (idle → 1 ≤ op.toNat → op.toNat ≤ 4 → s.mode ≠ CONFIGURE → refused 0x60) ∧
     (inPlace → (op = 1 ∨ op = 4) → ld ≠ 0 → ld ≠ 3 → refused 0x64) ∧
     (inPlace → op = 2 → ld ≠ 3 → refused 0x64) ∧
     (inPlace → op = 3 → (ld ≠ 0 ∨ s.force ≠ 1) → refused 0x64) ∧
     (load → s.hid.boot.upd = true → refused 0x20) ∧
     (load → s.hid.boot.upd = false → s.on F.FING_SRC_CFG_src = true → memReady s = false → refused 0x62) ∧
     (load → s.hid.boot.upd = false → (s.on F.FING_SRC_CFG_src = true → memReady s = true) →
       (s.rd R.FING_SRC_ADDR).toNat % 16 ≠ 0 → refused 0x63) ∧
     (inPlace → op = 2 → ld = 3 → s.hid.fing.staged ≠ [] →
       (s.rd R.SYS_ISLAND_EN).toNat &&& islandNeed s.hid.fing.staged ≠ islandNeed s.hid.fing.staged → refused 0x67)) ∧
  (∀ s p, Live p s R.FING_CMD = true → fingRaced p s = false → s.on F.FING_STAT_busy = false → s.mode = CONFIGURE →
     let ld := s.f F.FING_STAT_loader
     let g := { s.hid.fing with last := some (s.now.toNat / 2, p) }
     ((ld = 0 ∨ ld = 3) → s.hid.boot.upd = false → (s.on F.FING_SRC_CFG_src = true → memReady s = true) →
       (s.rd R.FING_SRC_ADDR).toNat % 16 = 0 → Completes (.fingLoad p) s
       (Sets [(F.FING_STAT_busy, 1), (F.FING_STAT_loader, 1)]
         (withFing s { g with quit := none, staged := [], img := fingImage s, flash := !s.on F.FING_SRC_CFG_src }) s)) ∧
     (ld = 3 → (s.rd R.SYS_ISLAND_EN).toNat &&& islandNeed s.hid.fing.staged = islandNeed s.hid.fing.staged →
       Completes (.fingApply p) s
         (Sets [(F.FING_STAT_busy, 1), (F.FING_STAT_loader, 4)] (withFing s { g with quit := none }) s)) ∧
     (ld = 0 → s.force = 1 → Completes (.fingCommit p) s
       (Sets [(F.FING_STAT_busy, 1), (F.FING_STAT_loader, 5)] (withFing s { g with quit := none }) s)) ∧
     ((ld = 0 ∨ ld = 3) → s.force = 0 → Completes (.fingDiscard p) s
       (Sets (fingEnds 0 0) (withFing s { g with staged := [] }) s)) ∧
     ((ld = 0 ∨ ld = 3) → s.force ≠ 0 → Completes (.fingDiscard p) s fun t =>
       t.force = 0 ∧ t.hid.fing = { g with staged := [], recs := [], need := 0 } ∧ t.on F.FING_STAT_busy = false ∧
       t.f F.FING_STAT_loader = 0 ∧ t.f F.FING_STAT_result = 0 ∧ t.on F.FING_EVENT_done = true ∧ SameMem s t ∧ t.now = s.now))

/-- R106, R107, R113, R385: a command that is not to be abandoned completes: a LOAD stages the image where every check passes
and otherwise records the first failure with its record index; an APPLY puts the staged structure in force with force 1; a
COMMIT has the Drone judge the safety payload: accepted it stands in `DRONE_PARAM` and force is 2, and otherwise the Drone
holds none. R110: a command that CONFIGURE's end, a lost link or a lost source has marked is abandoned with the code of that
reason, a LOAD also when its source read fails; an abandoned APPLY leaves no structure in force, an abandoned LOAD nothing
staged. -/
def Obligations.FingCommandsEndWithTheirCode : Prop :=
  ((∀ s, s.on F.FING_STAT_busy = true → s.f F.FING_STAT_loader = 1 → s.mode = CONFIGURE → s.hid.fing.quit = none →
     Completes .fingLoadComplete s fun t =>
       let j := judge s.hid.fing.img (keySlots s) s.hid.otp.fg
       let seen := [(wordFld R.FING_LEN, imgLen s.hid.fing.img), (wordFld R.FING_STAGED, j.staged)]
       (∀ rs, j.result = .ok rs → Sets (seen ++ fingEnds 3 0) (withFing s
         { s.hid.fing with img := [], staged := rs, stagedHash := imgDigest s.hid.fing.img, stagedRb := at32 s.hid.fing.img 16 })
         s t) ∧
       (∀ r, j.result = .error r → r.code ≠ 0 → Sets (seen ++ [(F.FING_REJECT_reason, r.code), (F.FING_REJECT_index, r.ix)] ++
         fingEnds 0 r.code) (withFing s { s.hid.fing with img := [] }) s t)) ∧
   (∀ s, s.on F.FING_STAT_busy = true → s.f F.FING_STAT_loader = 4 → s.mode = CONFIGURE → s.hid.fing.quit = none →
     s.hid.pwr.dumpOnly = false → Completes .fingApplyComplete s fun t => t.force = 1 ∧ t.on F.FING_STAT_busy = false ∧ t.f F.FING_STAT_loader = 0 ∧ t.f F.FING_STAT_result = 0 ∧
       t.on F.FING_EVENT_done = true ∧
       t.hid.fing = { s.hid.fing with staged := [], recs := s.hid.fing.staged, need := islandNeed s.hid.fing.staged } ∧ t.rd R.FING_FEAT = featWord s.hid.fing.staged ∧
       (∀ i : Fin 16, t.rd (R.FING_HASH i) = s.hid.fing.stagedHash.extractLsb' (32 * i) 32) ∧
       t.on F.DRONE_STAT_accepted = false ∧ SameMem s t ∧ t.now = s.now) ∧
   (∀ s, s.on F.FING_STAT_busy = true → s.f F.FING_STAT_loader = 5 → s.mode = CONFIGURE → s.hid.fing.quit = none → s.force = 1 →
     let pay := safetyPay s
     let code := if maskSub (s.rd R.DRONE_FAULT).toNat 4 ≠ 0 then 0x52 else if safetyCrc pay = false then 0x50
       else if safetyRanges pay = false then 0x51 else 0
     Completes .fingCommitComplete s fun t => t.on F.FING_STAT_busy = false ∧ t.f F.FING_STAT_loader = 0 ∧ t.hid.fing = s.hid.fing ∧
       t.f F.FING_STAT_result = code ∧ t.on F.DRONE_FAULT_param = false ∧ SameMem s t ∧ t.now = s.now ∧
       (code = 0 → t.force = 2 ∧ t.on F.FING_EVENT_committed = true ∧ t.on F.FING_EVENT_done = true ∧ t.on F.DRONE_STAT_accepted = true ∧
         ∀ i : Fin 16, t.rd (R.DRONE_PARAM i) = BitVec.ofNat 32 (leNat ((pay.drop (4 * i)).take 4))) ∧
       (code ≠ 0 → t.force = 1 ∧ t.on F.FING_EVENT_rejected = true ∧ t.on F.DRONE_STAT_accepted = false ∧
         ∀ i : Fin 16, t.rd (R.DRONE_PARAM i) = 0#32))) ∧
  ((∀ s why, s.on F.FING_STAT_busy = true →
       (s.hid.fing.quit = some why ∨ (s.hid.fing.quit = none ∧ why = .source ∧ s.f F.FING_STAT_loader = 1)) →
     let code : Nat := match why with | .left => 0x65 | .source => 0x63 | .link => 0x66
     let g := { s.hid.fing with quit := none }
     (s.f F.FING_STAT_loader ≠ 4 → Completes (.fingAbandon why) s (Sets [(F.FING_STAT_busy, 0), (F.FING_STAT_loader, 0),
         (F.FING_STAT_result, code), (F.FING_EVENT_abandoned, 1)]
       (withFing s (if s.f F.FING_STAT_loader = 1 ∨ s.f F.FING_STAT_loader = 2 then { g with img := [], staged := [] } else g)) s)) ∧
     (s.f F.FING_STAT_loader = 4 → Completes (.fingAbandon why) s fun t => t.force = 0 ∧ t.on F.FING_STAT_busy = false ∧
       t.f F.FING_STAT_loader = 0 ∧ t.f F.FING_STAT_result = code ∧ t.on F.FING_EVENT_abandoned = true ∧
       t.hid.fing = { g with staged := [], recs := [], need := 0 } ∧
       t.on F.DRONE_STAT_accepted = false ∧ SameMem s t ∧ t.now = s.now)) ∧
   (∀ s why, s.on F.FING_STAT_busy = true → s.hid.fing.quit ≠ some why →
     (s.hid.fing.quit ≠ none ∨ why ≠ .source ∨ s.f F.FING_STAT_loader ≠ 1) →
     Completes (.fingAbandon why) s (Sets [] s.hid s)))

/-! ### Operating modes (spec/05) -/

/-- R120, R121, R125, R132, R134: a mode request is refused with the first code that applies and then changes nothing but the
result and its event; one overtaken by RIDE in its FAB cycle is refused with 0x16; one that names the present mode is accepted
and changes nothing but the result; the write of a second port in one FAB cycle is refused with 0x04 (log entry 43); RIDE is
entered by no request. R122: the fifteen entry conditions of STANDBY, FOLLOW, FORM, CONFIGURE, DORMANT and SERVICE, in row
order: the first that fails refuses the request with its code, and nothing else changes but the noted outcome of the
step-budget check once row 9 is reached. R120, R122: a request whose checks all pass has result 0 and begins its transition:
busy, with the mode unchanged until it completes; one for a running mode also notes the outcome of the step-budget check. -/
def Obligations.ModeRequestsAreCheckedAndBegin : Prop :=
  (∀ s p (m : Fin 8), Live p s R.SYS_MODE_CMD = true →
     let c := modeCommand p m
     let taken := withMode s { s.hid.mode with last := some (s.now.toNat / 2, p) }
     let refusal := fun code : Nat => [(F.SYS_MODE_STAT_result, code), (F.SYS_MODE_EVENT_refused, 1)]
     let refused := fun code : Nat => Completes c s (Sets (refusal code) taken s)
     let first := modeRaced p s = false
     let own := first ∧ (p ≠ .fw ∨ m.val = HALT)
     let free := own ∧ m.val ≠ RIDE ∧ s.role ≠ 2 ∧ transBusy s = false
     let clear := free ∧ (rideRaced s = false ∨ m.val = HALT)
     (modeRaced p s = true → Completes c s (Sets (refusal 4) s.hid s)) ∧
     (first → p = .fw → m.val ≠ HALT → refused 1) ∧
     (own → m.val = RIDE → refused 2) ∧
     (first → Completes (.modeReqRide p) s (Sets (refusal (if p = .fw then 1 else 2)) taken s)) ∧
     (own → m.val ≠ RIDE → s.role = 2 → refused 3) ∧
     (own → m.val ≠ RIDE → s.role ≠ 2 → transBusy s = true → refused 4) ∧
     (free → m.val = s.mode → Completes c s (Sets [(F.SYS_MODE_STAT_result, 0)] taken s)) ∧
     (free → rideRaced s = true → m.val ≠ HALT → transAllowed s.mode m = false ∨ modeInPower s m = false →
       Completes c s (Sets (refusal 0x16 ++ [(F.SYS_MODE_EVENT_overtaken, 1)]) taken s)) ∧
     (clear → m.val ≠ s.mode → transAllowed s.mode m = false → refused 5) ∧
     (clear → m.val ≠ s.mode → transAllowed s.mode m = true → m.val ≠ HALT → modeInPower s m = false → refused 6)) ∧
  (∀ s p (m : Fin 8), Live p s R.SYS_MODE_CMD = true → modeRaced p s = false → rideRaced s = false → p ≠ .fw → s.role ≠ 2 →
     transBusy s = false → m.val ≠ s.mode → transAllowed s.mode m = true → modeInPower s m = true → m.val ≠ HALT → m.val ≠ RIDE →
     let run := m.val = STANDBY ∨ m.val = FOLLOW ∨ m.val = FORM
     let switching := m.val = FOLLOW ∨ m.val = FORM
     let links := s.on (F.SYS_SEAM_STAT_up 0) = true ∧ s.on (F.SYS_SEAM_STAT_up 1) = true
     let fails : List Bool := [
       decide ((run ∨ m.val = SERVICE) ∧ ¬ links),
       decide ((run ∨ m.val = CONFIGURE) ∧ s.on F.SYS_MODE_STAT_lockstep_broken = true),
       decide ((m.val = DORMANT ∨ m.val = STANDBY ∨ m.val = SERVICE) ∧ s.on F.FING_STAT_busy = true),
       decide (run ∧ s.force < 2),
       decide ((m.val = FOLLOW ∧ s.on F.FING_FEAT_follow = false) ∨ (m.val = FORM ∧ s.on F.FING_FEAT_form = false)),
       decide (run ∧ (s.rd R.SYS_ISLAND_EN).toNat &&& needIslands s ≠ needIslands s),
       decide (run ∧ routedCalibrated s = false),
       decide (run ∧ (s.on F.FING_FEAT_fine = true ∨ s.on F.FING_FEAT_whistle = true) ∧ (s.on F.CLK_SLIDE_CFG_en = false ∨ s.on F.CLK_SLIDE_STAT_pll_lock = false)),
       decide (run ∧ budgetsOk s = false),
       decide (switching ∧ (s.on F.DRONE_STAT_forced_off = true ∨ droneFaulted s = true)),
       decide (m.val = STANDBY ∧ s.mode = HALT ∧ s.rd R.SYS_HALT_CAUSE ≠ 0#32),
       decide (m.val = SERVICE ∧ s.role ≠ 0),
       decide (m.val = SERVICE ∧ s.on F.SYS_MODE_STAT_svckey = false),
       decide (switching ∧ s.mode = RIDE ∧ (m.val ≠ s.f F.SYS_MODE_STAT_ride_origin ∨ s.on F.SYS_MODE_STAT_ride_recovered = false)),
       decide (m.val = FOLLOW ∧ s.on F.GRID_STAT_locked = false)]
     ∀ i : Fin 15, fails.getD i false = true → (∀ j : Fin 15, j < i → fails.getD j false = false) → Completes (modeCommand p m) s fun t =>
       t.f F.SYS_MODE_STAT_result = 7 + i ∧ t.on F.SYS_MODE_EVENT_refused = true ∧ t.mode = s.mode ∧
       t.hid = withMode s { s.hid.mode with last := some (s.now.toNat / 2, p) } ∧ SameAside s t ∧
       KeepRegs (fun off => off = R.SYS_MODE_STAT ∨ off = R.SYS_MODE_EVENT ∨ (8 ≤ i.val ∧ ∃ e : Fin 8, off = R.BORE_STAT e)) s t) ∧
  (∀ s p, Live p s R.SYS_MODE_CMD = true → modeRaced p s = false → rideRaced s = false →
     let begun := fun m : Nat => withMode s { s.hid.mode with last := some (s.now.toNat / 2, p), target := m,
                                                                 begun := some (s.now.toNat / 2) }
     let begins := fun (c : Instr) (m : Nat) => s.mode ≠ m → modeCheck p m s = 0 → Completes c s
       (Sets [(F.SYS_MODE_STAT_result, 0), (F.SYS_MODE_STAT_busy, 1)] (begun m) s)
     let runs := fun (c : Instr) (m : Nat) => s.mode ≠ m → modeCheck p m s = 0 → Completes c s fun t =>
       t.f F.SYS_MODE_STAT_result = 0 ∧ t.on F.SYS_MODE_STAT_busy = true ∧ t.mode = s.mode ∧ t.hid = begun m ∧
       (∀ e, e ∈ programmed s → t.on (F.BORE_STAT_budget_ok e) = true) ∧
       KeepRegs (fun off => off = R.SYS_MODE_STAT ∨ ∃ e : Fin 8, off = R.BORE_STAT e) s t ∧ SameMem s t ∧ t.now = s.now
     begins (.modeReqDormant p) DORMANT ∧ begins (.modeReqConfigure p) CONFIGURE ∧ begins (.modeReqService p) SERVICE ∧
     runs (.modeReqStandby p) STANDBY ∧ runs (.modeReqFollow p) FOLLOW ∧ runs (.modeReqForm p) FORM)

/-- R128, R129, R132: a request for HALT, and a cause, enter HALT at once, counted, with the cause recorded; a transition under
way ends with 0x16, one out of DORMANT in HALT; in DORMANT and in HALT at rest a cause adds its bit alone; from CONFIGURE with
force 3 a request for HALT is busy until the Fingering is checked. That the mode reads CONFIGURE until that check ends is the
model's reading: log entry 42. R130: a cause bit clears when written with 1, but only once its cause is no longer live. -/
def Obligations.HaltIsEnteredAndItsCausesClear : Prop :=
  ((∀ s p, Live p s R.SYS_MODE_CMD = true → modeRaced p s = false → modeCheck p 6 s = 0 → s.mode ≠ HALT →
     (s.mode ≠ CONFIGURE ∨ s.force ≠ 3) →
     Completes (.modeReqHalt p) s fun t => EntersHalt s t ∧ t.f F.SYS_MODE_STAT_result = 0 ∧
       t.on (causeBit 0) = true ∧ t.on (liveBit 0) = false ∧ t.now = s.now) ∧
   (∀ s p, Live p s R.SYS_MODE_CMD = true → modeRaced p s = false → modeCheck p 6 s = 0 → s.mode = CONFIGURE → s.force = 3 →
     Completes (.modeReqHalt p) s (Sets [(F.SYS_MODE_STAT_result, 0), (causeBit 0, 1), (F.SYS_MODE_EVENT_halt, 1),
       (F.SYS_MODE_STAT_busy, 1), (liveBit 0, 1)]
       (withMode s { s.hid.mode with last := some (s.now.toNat / 2, p), target := HALT, begun := some (s.now.toNat / 2) }) s)) ∧
   (∀ s (c : Fin 12), s.up = true → (s.mode = DORMANT ∨ s.mode = HALT) → s.on F.SYS_MODE_STAT_busy = false →
     Completes (.haltCauseActive c) s
       (Sets [(causeBit c, 1), (liveBit c, b2n (!causeMomentary c)), (F.SYS_MODE_EVENT_halt, 1)] s.hid s)) ∧
   (∀ s (c : Fin 12), s.up = true → s.mode = HALT → s.on F.SYS_MODE_STAT_busy = true → Completes (.haltCauseActive c) s
     (Sets [(causeBit c, 1), (liveBit c, b2n (!causeMomentary c)), (F.SYS_MODE_EVENT_halt, 1), (F.SYS_MODE_STAT_result, 0x16),
       (F.SYS_MODE_EVENT_overtaken, 1), (F.SYS_MODE_STAT_busy, 0)] s.hid s)) ∧
   (∀ s (c : Fin 12), s.up = true → s.mode ≠ HALT → (s.mode ≠ DORMANT ∨ s.on F.SYS_MODE_STAT_busy = true) →
     Completes (.haltCauseActive c) s fun t =>
     EntersHalt s t ∧ t.on (causeBit c) = true ∧ t.on (liveBit c) = !causeMomentary c ∧
     (s.on F.SYS_MODE_STAT_busy = true → (s.mode ≠ CONFIGURE ∨ s.force ≠ 3) →
       t.f F.SYS_MODE_STAT_result = 0x16 ∧ t.on F.SYS_MODE_EVENT_overtaken = true) ∧ t.now = s.now)) ∧
  (∀ s p v, Live p s R.SYS_HALT_CAUSE = true → Completes (.haltCauseClear p v) s fun t =>
     (∀ c : Fin 12, t.on (causeBit c) = (s.on (causeBit c) && !(v.getLsbD c && !s.on (liveBit c)))) ∧
     Frame (fun off => off = R.SYS_HALT_CAUSE) s.hid s t)

/-- R133, R107, R123, R132: a transition that completes changes `mode` and `prev` together and ends busy; CONFIGURE entered
with force 2 opens the structure; left with force 3 the registers lock where the Drone's SAFETY check passes, and HALT is
entered with 0x17 where it fails; an excursion that waited enters RIDE from the new mode. -/
def Obligations.ModeTransitionsComplete : Prop :=
  (∀ s n so m, s.up = true → s.on F.SYS_MODE_STAT_busy = true → m = s.hid.mode.target → m < 8 → m ≠ HALT → m ≠ s.mode →
    s.hid.ride.wait = false → s.on (F.SYS_SEAM_STAT_up 0) = true → s.on (F.SYS_SEAM_STAT_up 1) = true →
    (s.mode = CONFIGURE → s.force = 3 → safetyCrcOk s = true) → Completes (.modeTransitionComplete n so) s fun t =>
      t.mode = m ∧ t.f F.SYS_MODE_STAT_prev = s.mode ∧ t.on F.SYS_MODE_STAT_busy = false ∧ t.on F.SYS_MODE_EVENT_changed = true ∧
      t.f F.SYS_MODE_STAT_result = s.f F.SYS_MODE_STAT_result ∧
      t.force = (if m = CONFIGURE ∧ s.force = 2 then 3 else if s.mode = CONFIGURE ∧ s.force = 3 then 2 else s.force) ∧
      t.hid.mode = s.hid.mode ∧ t.now = s.now) ∧
  (∀ s n so, s.up = true → s.on F.SYS_MODE_STAT_busy = true → s.mode = CONFIGURE → s.hid.mode.target ≠ CONFIGURE →
    s.force = 3 → safetyCrcOk s = false → s.hid.ride.wait = false →
    Completes (.modeTransitionComplete n so) s fun t => EntersHalt s t ∧ t.f F.SYS_MODE_STAT_result = 0x17 ∧
      t.on (causeBit 9) = true ∧ t.force = 3 ∧ t.now = s.now) ∧
  (∀ s n so, s.up = true → s.on F.SYS_MODE_STAT_busy = true → s.mode = CONFIGURE → s.hid.mode.target = HALT →
    s.force = 3 → safetyCrcOk s = true → s.hid.ride.wait = false →
    Completes (.modeTransitionComplete n so) s fun t => EntersHalt s t ∧ t.on (liveBit 0) = false ∧
      t.f F.SYS_MODE_STAT_result = s.f F.SYS_MODE_STAT_result ∧ t.force = 2 ∧ t.now = s.now) ∧
  (∀ s n so m, s.up = true → s.on F.SYS_MODE_STAT_busy = true → m = s.hid.mode.target →
    (s.mode = FOLLOW ∧ m = FORM ∨ s.mode = FORM ∧ m = FOLLOW) → s.hid.ride.wait = true →
    Completes (.modeTransitionComplete n so) s fun t => t.mode = RIDE ∧ t.f F.SYS_MODE_STAT_ride_origin = m ∧
      t.on F.SYS_MODE_STAT_ride_recovered = false ∧ t.on F.SYS_MODE_EVENT_ride = true ∧ t.hid.ride.wait = false ∧
      t.on F.SYS_MODE_STAT_busy = false ∧ t.now = s.now)

/-! ### Converters and Fine channels (spec/06) -/

/-- R140, R141, R142, R149, R155, R161: a trigger on its way arrives and starts an idle enabled converter at entry 0 with the
last entry and the entry word as they stand; one that comes while the sequence runs is lost and counted, in a loop without
count; a routed one is ignored in CONFIGURE and SERVICE; `go` without the enable at a calibrating converter is lost; clearing
the enable stops an idle converter and lets a running one finish its conversion. R136, R137, R138, R143, R144, R153, R161: the
end of a conversion registers the code of the entry's input, with factors that a calibration measured the one of R137 (with
others that of R153 on bits that the spec leaves open, log entry 82), its corrected and scaled value (on nodes that are the
model's choice, log entry 123), its flags and the entry number; the acquisition goes on to the next entry, to the start of a
loop, or ends, at once where the converter is to stop. -/
def Obligations.ConvertersStartAndRegisterResults : Prop :=
  ((∀ s (c : Fin 16), (convSt s c).trigs = 0 → Completes (.convRoutedTrigger c) s (Sets [] s.hid s)) ∧
   (∀ s (c : Fin 16), (convSt s c).trigs ≠ 0 → (s.f (F.CONV_C_TRIG_kind c) = 0 ∨ s.mode = CONFIGURE ∨ s.mode = SERVICE) →
     Completes (.convRoutedTrigger c) s
       (Sets [] (withConv s c { convSt s c with trigs := (convSt s c).trigs - 1 }) s)) ∧
   (∀ s (c : Fin 16), (convSt s c).trigs ≠ 0 → s.f (F.CONV_C_TRIG_kind c) ≠ 0 → s.mode ≠ DORMANT → s.mode ≠ CONFIGURE →
     s.mode ≠ SERVICE → convOn s (convDie c) = true → s.on (F.CONV_C_STAT_cal c) = false → s.on (F.CONV_C_CTL_en c) = true →
     ∀ x, x = { convSt s c with trigs := (convSt s c).trigs - 1 } →
     (s.on (F.CONV_C_STAT_busy c) = false → Completes (.convRoutedTrigger c) s
       (Sets [(F.CONV_C_STAT_busy c, 1), (F.CONV_C_STAT_seq_pos c, 0)]
         (withConv s c { x with last := s.f (F.CONV_C_CTL_last c), ent := s.rd (R.CONV_C_ENT c 0), fell := false }) s)) ∧
     (s.on (F.CONV_C_STAT_busy c) = true → s.on (F.CONV_C_TRIG_repeat c) = true → Completes (.convRoutedTrigger c) s
       (Sets [] (withConv s c x) s)) ∧
     (s.on (F.CONV_C_STAT_busy c) = true → s.on (F.CONV_C_TRIG_repeat c) = false → Completes (.convRoutedTrigger c) s
       (Sets [(F.CONV_C_EVENT_trig_lost c, 1), (wordFld (R.CONV_C_LOST_CNT c), (bumped (s.rd (R.CONV_C_LOST_CNT c))).toNat)]
         (withConv s c x) s))) ∧
   (∀ s p (c : Fin 16) (v : Word), Live p s (R.CONV_C_CTL c) = true → v.getLsbD 0 = true → s.mode ≠ DORMANT →
     convOn s (convDie c) = true → s.on (F.CONV_C_STAT_cal c) = false →
     let ctl := [(F.CONV_C_CTL_last c, v.toNat / 256), (F.CONV_C_CTL_en c, 1)]
     (s.on (F.CONV_C_STAT_busy c) = false → Completes (.convSoftwareTrigger p c v) s
       (Sets (ctl ++ [(F.CONV_C_STAT_busy c, 1), (F.CONV_C_STAT_seq_pos c, 0)])
         (withConv s c { convSt s c with last := v.toNat / 256 % 16, ent := s.rd (R.CONV_C_ENT c 0), fell := false }) s)) ∧
     (s.on (F.CONV_C_STAT_busy c) = true → s.on (F.CONV_C_TRIG_repeat c) = false → Completes (.convSoftwareTrigger p c v) s
       (Sets (ctl ++ [(F.CONV_C_EVENT_trig_lost c, 1),
         (wordFld (R.CONV_C_LOST_CNT c), (bumped (s.rd (R.CONV_C_LOST_CNT c))).toNat)]) s.hid s))) ∧
   (∀ s p (c : Fin 16) (v : Word), Live p s (R.CONV_C_CTL c) = true → v.getLsbD 0 = false → s.mode ≠ DORMANT →
     convOn s (convDie c) = true → s.on (F.CONV_C_STAT_cal c) = true → s.on (F.CONV_C_STAT_busy c) = false →
     Completes (.convSoftwareTrigger p c v) s (Sets [(F.CONV_C_CTL_last c, v.toNat / 256), (F.CONV_C_CTL_en c, 0),
       (F.CONV_C_STAT_seq_pos c, 0), (F.CONV_C_EVENT_trig_lost c, 1), countOne s (R.CONV_C_LOST_CNT c)]
       (withConv s c { convSt s c with hist := [], stop := false }) s)) ∧
   (∀ s p (c : Fin 16) (v : Word), Live p s (R.CONV_C_CTL c) = true →
     let ctl := [(F.CONV_C_CTL_last c, v.toNat / 256), (F.CONV_C_CTL_en c, 0)]
     (s.on (F.CONV_C_STAT_busy c) = true → Completes (.convDisable p c v) s
       (Sets ctl (withConv s c { convSt s c with stop := true }) s)) ∧
     (s.on (F.CONV_C_STAT_busy c) = false → Completes (.convDisable p c v) s
       (Sets (ctl ++ [(F.CONV_C_STAT_busy c, 0), (F.CONV_C_STAT_seq_pos c, 0)]) (withConv s c { convSt s c with hist := [], stop := false }) s)))) ∧
  (∀ s (c : Fin 16) (x : ConvIn) full, s.on (F.CONV_C_STAT_busy c) = true →
     let q := s.f (F.CONV_C_STAT_seq_pos c)
     let e := (convSt s c).ent.toNat
     let ref := vref s (convDie c) x.ext x.vdda
     let volt := if e % 16 = 0 then x.a else if e % 16 = 1 then x.b else if e % 16 = 8 then 1024 / 1000
       else if e % 16 = 10 then x.vdda / 4 else if e % 16 = 11 then x.vgt / 2 else 0
     let gain : Rat := if e % 16 < 8 ∧ e / 16 % 8 < 5 then 2 ^ (e / 16 % 8) else 1
     let whole := fun z : Rat => clampInt (-32768) 32767 (roundHalfEven z)
     let code := convResult s c (convSt s c).ent x
     let y := scaled ((code :: (convSt s c).hist.get [] q).take 10) 32768 (s.f (F.CONV_C_ENT_DLY_dly c q))
       (s.f (F.CONV_C_ENT_TRIM_trim c q)) (s.pu (R.CONV_C_ENT_SCALE c q)) (s.pu (R.CONV_C_ENT_OFS c q))
     let w := fun t : State => (t.rd (R.CONV_C_RES_RAW c q)).toNat
     let last := decide ((convSt s c).last ≤ q)
     (convOwn s c = true → e % 16 = 9 → code = whole (64 * x.temp)) ∧
     (convOwn s c = true → e % 16 ≠ 9 → ref ≠ 0 → code = whole (32768 * volt * gain / ref)) ∧
     (convOwn s c = false → ∃ bits : BitVec 16, code = convCode s c bits.toNat) ∧
     Completes (.conversionEnd c x full) s fun t =>
       t.pu (R.CONV_C_RES_VAL c q) = narrow36 y ∧ (w t % 65536 : Int) = code % 65536 ∧ w t / 65536 % 16 = q ∧
       (w t / 2 ^ 23 % 2 = 1 ↔ over36 y = true) ∧ (w t / 2 ^ 21 % 2 = 1 ↔ code = -32768 ∨ code = 32767) ∧
       (w t / 2 ^ 24 % 2 = 0 ↔ s.f (F.CONV_CAL_STAT_done (convDie c)) / 2 ^ convBit c % 2 = 1) ∧
       (badEntry (convSt s c).ent = true → t.on (F.CONV_C_EVENT_bad_entry c) = true) ∧
       (full = true → t.on (F.CONV_C_EVENT_overrun c) = true) ∧
       ((convSt s c).stop = true → t.on (F.CONV_C_STAT_busy c) = false ∧ (convSt t c).hist = [] ∧ (convSt t c).stop = false) ∧
       ((convSt s c).stop = false → last = false →
         t.on (F.CONV_C_STAT_busy c) = true ∧ t.f (F.CONV_C_STAT_seq_pos c) = (q + 1) % 16) ∧
       ((convSt s c).stop = false → last = true → t.on (F.CONV_C_EVENT_seq_end c) = true ∧ t.f (F.CONV_C_STAT_seq_pos c) = 0 ∧
         t.on (F.CONV_C_STAT_busy c) = s.on (F.CONV_C_TRIG_repeat c)) ∧ SameMem s t ∧ t.now = s.now)

/-- R150, R151, R152, R163: a reference write is refused with its code, and otherwise takes the selection, drops `ref_ok` and
the calibrations, and settles, the supply reference at once; settling raises `ref_ok`, a fault of the monitor drops it. R153,
R154, R155, R163: a calibration command has the first code that applies, in order; a measurement marks its converters and keeps
their factors, a restore sets their `done` bits; a measurement in range ends with the new factors and code 0, one with a factor
out of range with code 7, each masked converter getting back the factors that it held before. -/
def Obligations.ReferencesAndCalibrationFollowTheirCodes : Prop :=
  ((∀ s p (d : Die) v, Live p s (R.CONV_REF_CFG d) = true →
     let idle := ∀ i : Fin 8, convIdle s (8 * d + i) = true
     let code := fun n : Nat => Completes (.convRefCfgWrite p d v) s (Sets [(F.CONV_REF_STAT_result d, n)] s.hid s)
     let fallen := fun c (x y : ConvSt) => y = if c / 8 = d.val then { x with fell := true } else x
     (s.mode ≠ CONFIGURE → code 1) ∧ (s.mode = CONFIGURE → ¬ idle → code 2) ∧
     (s.mode = CONFIGURE → idle → s.on (F.CONV_CAL_STAT_busy d) = true → code 4) ∧
     (s.mode = CONFIGURE → idle → s.on (F.CONV_CAL_STAT_busy d) = false → v.toNat % 4 = 3 → code 5) ∧
     (s.mode = CONFIGURE → idle → s.on (F.CONV_CAL_STAT_busy d) = false → v.toNat % 4 ≠ 3 →
       let took := [(F.CONV_REF_STAT_result d, 0), (F.CONV_REF_CFG_sel d, v.toNat), (F.CONV_REF_STAT_ref_ok d, 0),
         (F.CONV_CAL_STAT_done d, 0), (F.CONV_REF_STAT_ref_is_supply d, b2n (decide (v.toNat % 4 = 2))),
         (F.CONV_REF_STAT_fault d, 0), (F.CONV_REF_STAT_settling d, 1)]
       let rise := [(F.CONV_REF_STAT_ref_ok d, 1), (F.CONV_REF_STAT_settling d, 0), (F.CONV_REF_STAT_fault d, 0),
         (F.CONV_EVENT_ref_ok d, 1)]
       Completes (.convRefCfgWrite p d v) s (SetsConv (took ++ if v.toNat % 4 = 2 then rise else []) fallen s))) ∧
   (∀ s (d : Die), s.on (F.CONV_REF_STAT_ref_ok d) = false → Completes (.refSettled d) s
     (Sets [(F.CONV_REF_STAT_ref_ok d, 1), (F.CONV_REF_STAT_settling d, 0), (F.CONV_REF_STAT_fault d, 0),
       (F.CONV_EVENT_ref_ok d, 1)] s.hid s)) ∧
   (∀ s (d : Die), s.on (F.CONV_REF_STAT_ref_ok d) = true → s.f (F.CONV_REF_CFG_sel d) ≠ 2 →
     s.on (F.CONV_CAL_STAT_busy d) = false → Completes (.refFault d) s
     (SetsConv [(F.CONV_REF_STAT_ref_ok d, 0), (F.CONV_REF_STAT_fault d, 1), (F.CONV_EVENT_ref_fault d, 1)]
       (fun c x y => y = if c / 8 = d.val then { x with fell := true } else x) s))) ∧
  ((∀ s p (d : Die) v (op : Fin 4), Live p s (R.CONV_CAL_CMD d) = true →
     let mask := v.toNat % 256
     let c := if op = 1 then Instr.convCalMeasure p d v else if op = 2 then .convCalRestore p d v else .convCalInvalid p d v
     let named := op = 1 ∨ op = 2 ∨ (v.toNat / 256 % 4 = op.val ∧ (op = 0 ∨ op = 3))
     let idle := ∀ i : Fin 8, v.getLsbD i = true → convIdle s (8 * d + i) = true
     let code := fun n : Nat => Completes c s (Sets [(F.CONV_CAL_STAT_result d, n)] s.hid s)
     let place := named ∧ (s.mode = CONFIGURE ∨ s.mode = STANDBY)
     let ready := place ∧ idle ∧ s.on (F.CONV_REF_STAT_ref_ok d) = true
     (named → s.mode ≠ CONFIGURE → s.mode ≠ STANDBY → code 1) ∧ (place → ¬ idle → code 2) ∧
     (place → idle → s.on (F.CONV_REF_STAT_ref_ok d) = false → code 3) ∧
     (ready → s.on (F.CONV_CAL_STAT_busy d) = true → code 4) ∧
     (ready → s.on (F.CONV_CAL_STAT_busy d) = false → (mask = 0 ∨ op = 0 ∨ op = 3) → code 5) ∧
     (ready → s.on (F.CONV_CAL_STAT_busy d) = false → mask ≠ 0 → op = 2 → Completes c s
       (Sets [(F.CONV_CAL_STAT_result d, 0), (F.CONV_CAL_STAT_cal_ref d, s.f (F.CONV_REF_CFG_sel d)),
         (F.CONV_CAL_STAT_done d, s.f (F.CONV_CAL_STAT_done d) ||| mask)] s.hid s)) ∧
     (ready → s.on (F.CONV_CAL_STAT_busy d) = false → mask ≠ 0 → op = 1 → Completes c s fun t =>
       t.f (F.CONV_CAL_STAT_result d) = 0 ∧ t.on (F.CONV_CAL_STAT_busy d) = true ∧
       t.f (F.CONV_CAL_STAT_cal_ref d) = s.f (F.CONV_REF_CFG_sel d) ∧
       (∀ i : Fin 8, v.getLsbD i = true → t.on (bitFld (R.CONV_CAL_STAT d) i) = false ∧
         t.on (F.CONV_C_STAT_cal (8 * d + i)) = true ∧ (convSt t (8 * d + i)).hist = [] ∧
         (convSt t (8 * d + i)).saved = (factorRegs (8 * d + i)).map s.rd) ∧
       (∀ i : Fin 8, v.getLsbD i = false → t.on (bitFld (R.CONV_CAL_STAT d) i) = s.on (bitFld (R.CONV_CAL_STAT d) i) ∧
         t.rd (R.CONV_C_STAT (8 * d + i)) = s.rd (R.CONV_C_STAT (8 * d + i))) ∧
       KeepRegs (fun off => off = R.CONV_CAL_STAT d ∨ ∃ i : Fin 8, off = R.CONV_C_STAT (8 * d + i)) s t ∧ SameMem s t)) ∧
   (∀ s (d : Die) meas, s.on (F.CONV_CAL_STAT_busy d) = true → (calMasked s d).length = meas.length →
     (∀ m, m ∈ meas → calInRange m = true) → Completes (.convCalComplete d meas) s fun t =>
       t.on (F.CONV_CAL_STAT_busy d) = false ∧ t.f (F.CONV_CAL_STAT_result d) = 0 ∧ t.on (F.CONV_EVENT_cal_end d) = true ∧
       (∀ x, x ∈ (calMasked s d).zip meas → (factorRegs x.1).map t.rd = calWords x.2 ∧ t.on (F.CONV_C_STAT_cal x.1) = false ∧
         t.on (bitFld (R.CONV_CAL_STAT d) (convBit x.1)) = true ∧ (convSt t x.1).meas = some (calWords x.2)) ∧
       t.hid = { s.hid with conv := t.hid.conv } ∧ SameMem s t ∧ t.now = s.now) ∧
   (∀ s (d : Die) meas m, s.on (F.CONV_CAL_STAT_busy d) = true → m ∈ meas → calInRange m = false →
     Completes (.convCalComplete d meas) s fun t => t.on (F.CONV_CAL_STAT_busy d) = false ∧ t.f (F.CONV_CAL_STAT_result d) = 7 ∧
       t.on (F.CONV_EVENT_cal_fail d) = true ∧ t.f (F.CONV_CAL_STAT_done d) = s.f (F.CONV_CAL_STAT_done d) ∧
       (∀ i : Fin 8, s.on (F.CONV_C_STAT_cal (8 * d + i)) = true → t.on (F.CONV_C_STAT_cal (8 * d + i)) = false ∧
         ((convSt s (8 * d + i)).saved.length = 6 → (factorRegs (8 * d + i)).map t.rd = (convSt s (8 * d + i)).saved)) ∧
       t.hid = s.hid ∧ SameMem s t ∧ t.now = s.now))

/-- R156, R157, R158, R159, R161: at an interval's end a Fine channel starts by discarding four samples, then registers the
code of each sample, corrected and scaled (on nodes of the model's choice, log entry 123), with its Slide index; one that is to
stop ends with the sample in progress. -/
def Obligations.FineChannelsStartAndDeliver : Prop :=
  ∀ s (f : Fin 12) (vd ext vdda : Rat),
    let c := Instr.fineSample f vd ext vdda
    let run := s.on (F.CONV_F_STAT_running f) = true
    let x := fineSt s f
    let ends := fineEnds s f = true
    let due := ends ∨ (x.stop = true ∧ slideRuns s = false)
    let ref := vref s (f / 6) ext vdda
    let code := fineCode s f vd ext vdda
    let cl := clampInt (-(2 ^ 23)) (2 ^ 23 - 1) code
    let y := scaled (((cl - sext 16 (s.f (F.CONV_F_ZERO_codes f))) :: x.hist).take 10) (2 ^ 23) (s.f (F.CONV_F_DLY_dly f))
      (s.f (F.CONV_F_TRIM_trim f)) (s.pu (R.CONV_F_SCALE f)) (s.pu (R.CONV_F_OFS f))
    (ref ≠ 0 → code = roundHalfEven (2 ^ 23 * vd * 2 ^ s.f (F.CONV_F_CTL_gain f) / (ref / 4))) ∧
    (¬ run → fineMay s f = true → ends → Completes c s (Sets [(F.CONV_F_STAT_running f, 1), (F.CONV_F_STAT_no_clock f, 0)]
      (withFine s f { drop := 3, lost := x.lost }) s)) ∧
    (¬ run → ¬ (fineMay s f = true ∧ ends) → Completes c s (Sets [] s.hid s)) ∧
    (run → ¬ due → Completes c s (Sets [] s.hid s)) ∧
    (run → x.stop = false → ends → x.drop ≠ 0 → Completes c s (Sets [] (withFine s f { x with drop := x.drop - 1 }) s)) ∧
    (run → due → x.stop = true → x.drop ≠ 0 → Completes c s (Sets ((F.CONV_F_STAT_running f, 0) ::
        (if x.noClk then [(F.CONV_F_STAT_no_clock f, 1), (F.CONV_F_EVENT_no_clock f, 1)] else []))
      (withFine s f { lost := x.lost }) s)) ∧
    (run → due → x.drop = 0 → Completes c s fun t =>
      t.pu (R.CONV_F_VAL f) = narrow36 y ∧ (t.rd (R.CONV_F_IDX f)).toNat = fineIx s f ∧
      ((t.rd (R.CONV_F_RAW f)).toNat % 2 ^ 24 : Int) = (cl - sext 16 (s.f (F.CONV_F_ZERO_codes f))) % 2 ^ 24 ∧
      (t.rd64 (R.CONV_F_TS f)) = BitVec.ofInt 64 (s.now.toNat + dieSkew s (f / 6)) ∧
      (x.stop = true → t.on (F.CONV_F_STAT_running f) = false ∧ (fineSt t f).hist = [] ∧
        (x.noClk = true → t.on (F.CONV_F_EVENT_no_clock f) = true)) ∧
      (x.stop = false → t.on (F.CONV_F_STAT_running f) = true) ∧ SameMem s t ∧ t.now = s.now)

/-! ### Window monitors and the trip matrix (spec/07) -/

/-- R166–R174, R184: a sample of a running monitor moves its comparators by their thresholds, hysteresis and ramp; each
filtered output follows the last samples, and where it changes so do its trip source and its event; the change is captured with
the die's device time where captures name it, the newest entry replacing the oldest of four, and wakes where it is active and
`wake` is set. A command brings its samples one after another (log entry 83). R19, R172, R184: a read of CAP_INFO answers the
head entry, which leaves the FIFO with its time in `CAP_TS`, and zero where the FIFO is empty; disabling a monitor drops both
outputs, with the event of each that was active, and their sources, stops its ramp and clears its comparators and samples;
while RWL is locked that write leaves the RWL fields as they are, with the report of R19. -/
def Obligations.MonitorsFeedCapturesAndTripSources : Prop :=
  ((∀ s (m : Fin 32) v ext vdda sub, monOn s m = true →
     let h := 2 * s.now.toNat + b2n sub
     let ref := vref s (m / 16) ext vdda
     let volts := fun c : Int => ((c : Rat) - 2048) * ref / 2048
     let hi : Int := (monThreshold s m (BitVec.ofNat 64 (h / 2))).1
     let lo : Int := s.f (F.WIN_M_TH_lo m)
     let hyst : Int := s.f (F.WIN_M_HYS_hyst m)
     let hiC := if volts hi < v then true else if v < volts (hi - hyst) then false else (monSt s m).hiC
     let loC := if v < volts lo then true else if volts (lo + hyst) < v then false else (monSt s m).loC
     let hist := ((hiC, loC) :: (monSt s m).hist).take 15
     let act := fun low : Bool => majority (s.f (F.WIN_M_FILT_n m)) (s.f (F.WIN_M_FILT_m m)) false
       (hist.map fun c => if low then c.2 else c.1)
     let turns := fun low : Bool => monOut s m low = !act low
     let cap := s.f (F.WIN_M_CFG_cap m)
     let ts := BitVec.ofInt 64 ((h / 2 : Nat) + dieSkew s (m / 16))
     let old := (monSt s m).caps
     let new := ([false, true].filter fun low => decide (turns low) && decide (cap ≠ 0 ∧ (act low = true ∨ cap ≠ 1))).map
       fun low => ({ ts := ts, sub := sub, lo := low, act := act low } : Cap)
     (rampUsed s m = false → hi = s.f (F.WIN_M_TH_hi m)) ∧
     (¬ turns false → ¬ turns true → Completes (.monitorFilteredEdge m [v] ext vdda sub) s
       (Sets [] (withMon s m { monSt s m with hiC := hiC, loC := loC, hist := hist }) s)) ∧
     (turns false ∨ turns true → Completes (.monitorFilteredEdge m [v] ext vdda sub) s fun t =>
       (monSt t m).hiC = hiC ∧ (monSt t m).loC = loC ∧ (monSt t m).hist = hist ∧
       (∀ low, monOut t m low = act low) ∧ (∀ low, turns low → srcActive t (m / 16) (if low then 32 + m else m) = act low) ∧
       (∀ low, turns low → t.on (bitFld (R.WIN_M_EVENT m) ((if low then 2 else 0) + (if act low then 0 else 1))) = true) ∧
       (old.length ≤ 4 → (monSt t m).caps = (old ++ new).drop (old.length + new.length - 4)) ∧
       (old.length + new.length ≤ 4 → t.rd (R.WIN_M_CAP_OVR m) = s.rd (R.WIN_M_CAP_OVR m)) ∧
       (old.length + new.length = 5 → t.on (F.WIN_M_EVENT_cap_ovr m) = true ∧
         t.rd (R.WIN_M_CAP_OVR m) = bumped (s.rd (R.WIN_M_CAP_OVR m))) ∧
       (∀ low, turns low → act low = true → s.on (F.WIN_M_CFG_wake m) = true →
         t.hid.wake = { wfi := false, waken := s.hid.wake.waken || pcieHost s, event := true }) ∧
       MonFrame m s t)) ∧
   (∀ s (m : Fin 32) vd ext vdda sub, monOn s m = true → vd ≠ [] → Completes (.monitorFilteredEdge m vd ext vdda sub) s fun t =>
     (∀ low, monOut t m low = monFiltered t m low) ∧ MonFrame m s t) ∧
   (∀ s (m : Fin 32) vd ext vdda sub, monOn s m = false →
     Completes (.monitorFilteredEdge m vd ext vdda sub) s (Sets [] s.hid s))) ∧
  ((∀ s p (m : Fin 32), Live p s (R.WIN_M_CAP_INFO m) = true → (monSt s m).caps = [] → Completes (.capInfoRead p m) s
     (Answers p [0#32] false s)) ∧
   (∀ s p (m : Fin 32) c cs, Live p s (R.WIN_M_CAP_INFO m) = true → (monSt s m).caps = c :: cs → Completes (.capInfoRead p m) s
     fun t => (monSt t m).caps = cs ∧ t.rd64 (R.WIN_M_CAP_TS m) = c.ts ∧
       t.resp.get {} (portIx p) = { data := [BitVec.ofNat 32 (2 ^ 31 + 8 * b2n c.sub + 4 * b2n c.lo + 2 * b2n c.act)], err := false } ∧
       KeepRegs (fun off => off = R.WIN_M_CAP_TS m ∨ off = R.WIN_M_CAP_TS m + 4) s t ∧
       t.hid = { s.hid with mon := t.hid.mon } ∧ SameMem s t ∧ t.now = s.now) ∧
   (∀ s p (m : Fin 32) v, Live p s (R.WIN_M_CFG m) = true → Completes (.monitorDisable p m v) s fun t =>
     t.on (F.WIN_M_CFG_en m) = false ∧ t.f (F.WIN_M_CFG_cap m) = v.toNat / 16 % 4 ∧ t.on (F.WIN_M_CFG_wake m) = v.getLsbD 1 ∧
     (if rwlLocked s then t.rd (R.WIN_M_CFG m) &&& 0x3F0100#32 = s.rd (R.WIN_M_CFG m) &&& 0x3F0100#32
       else t.rd (R.WIN_M_CFG m) &&& 0x3F0100#32 = v &&& 0x3F0100#32) ∧
     t.on (F.WIN_M_STAT_hi m) = false ∧ t.on (F.WIN_M_STAT_lo m) = false ∧
     (s.on (F.WIN_M_STAT_hi m) = true → srcActive t (m / 16) m = false ∧ t.on (bitFld (R.WIN_M_EVENT m) 1) = true) ∧
     (s.on (F.WIN_M_STAT_lo m) = true → srcActive t (m / 16) (32 + m) = false ∧ t.on (bitFld (R.WIN_M_EVENT m) 3) = true) ∧
     monSt t m = { monSt s m with ramp := none, hiC := false, loC := false, hist := [] } ∧
     ∃ u, Sets (rwlFields p (R.WIN_M_CFG m) 0x3F0100#32 v s) s.hid s u ∧ MonFrame m u t))

/-- R175, R176, R177, R178, R179, R184: a source takes its state on a die where it arises or that its link reaches; one that
becomes active forces the channels of its masks off, with the partners of its force-on channels on, reports those of its report
mask, latches under release code 0, and where it forces a channel triggers the recorder; a latched force holds when the source
ends; with the TRIP island disabled only the source's bit changes. R34, R175, R179, R181, R185: a latch clears when written
with 1 once its source is inactive; firmware bits act as sources, a bit in both halves ending set, which is the model's choice
(log entry 50); TRIPIN follows its pin's last samples by its filter, enable and polarity; the other die's state of a source
that has masks here arrives with a good packet and with each repeat; a packet with no good copy sets its event and stays under
way; with the TRIP island disabled a packet is discarded and counted at its sender. -/
def Obligations.TripMatrixForcesLatchesAndClears : Prop :=
  (∀ s (d : Die) (i : Fin 144), s.up = true → (i.val < 115 ∨ 119 < i.val) →
     let act := if i.val < 32 then s.on (F.WIN_M_STAT_hi i) else if i.val < 64 then s.on (F.WIN_M_STAT_lo (i - 32 : Nat))
       else if i.val < 112 then podPresent s (i - 64) && bit (s.f (F.GATE_LIG_STAT_fv ((i.val - 64) / 12))) ((i - 64) % 12) else if i.val = 112 then droneTrip s
       else if i.val < 115 then tripinActive s (i - 113 : Nat) else if i.val < 128 then s.on (F.BORE_STAT_limit (i - 120 : Nat))
       else bit (s.f (F.TRIP_FW_set d)) (i - 128)
     let reach := s.up = true ∧ (sourceDie i = some d.val ∨ packetFor s d i = true ∨
       sourceDie i = none ∧ (128 ≤ i.val ∨ s.on (F.SYS_SEAM_STAT_up d) = true))
     let held := s.f (F.TRIP_SRC_OFF_mask d i) ||| s.f (F.TRIP_SRC_ON_mask d i)
     ((¬ reach ∨ srcActive s d i = act) → Completes (.tripSourceChange d i) s (Sets [] s.hid s)) ∧
     (reach → srcActive s d i = !act → tripOn s d = false →
       Completes (.tripSourceChange d i) s (Sets [(actBit d i, b2n act)]
         (if packetFor s (1 - d.val) i then withTrip s (1 - d.val) { tripSt s (1 - d.val) with
           pkts := (tripSt s (1 - d.val)).pkts ++ [(i.val, act)] } else s.hid) s)) ∧
     (reach → srcActive s d i = !act → tripOn s d = true → Completes (.tripSourceChange d i) s fun t =>
       srcActive t d i = act ∧
       (act = true → ∀ j : Fin 24, bit held j = true → bit (t.f (F.TRIP_GT_OFF_ch d)) j = true) ∧
       (act = true → ∀ j : Fin 24, bit (partnersOf s d (s.f (F.TRIP_SRC_ON_mask d i))) j = true →
         bit (t.f (F.TRIP_GT_ON_ch d)) j = true) ∧
       (∀ j : Fin 24, bit (t.f (F.TRIP_GT_OFF_ch d)) j = true → bit (t.f (F.TRIP_GT_ON_ch d)) j = true →
         ¬ (bit (s.f (F.TRIP_GT_OFF_ch d)) j = true ∧ bit (s.f (F.TRIP_GT_ON_ch d)) j = true) → t.on (F.TRIP_EVENT_conflict d) = true) ∧
       (act = true → ∀ j : Fin 24, bit (s.f (F.TRIP_SRC_REP_mask d i)) j = true →
         bit (t.f (F.TRIP_GT_REP_ch d)) j = true ∧ t.on (F.TRIP_EVENT_report d) = true) ∧
       (act = true → held ≠ 0 → s.f (F.TRIP_SRC_CFG_release d i) = 0 → srcLatched t d i = true ∧ (tripSt t d).held0 = true) ∧
       (srcLatched s d i = true → srcLatched t d i = true) ∧
       (act = false → srcLatched s d i = true → s.f (F.TRIP_SRC_CFG_release d i) = 0 →
         ∀ j : Fin 24, bit held j = true → bit (t.f (F.TRIP_GT_OFF_ch d)) j = true) ∧
       (∀ j : Fin 24, bit held j = true → act = true → bit (s.f (F.TRIP_GT_OFF_ch d)) j = false →
         bit (s.f (F.TRIP_GT_ON_ch d)) j = false →
         t.on (F.TRIP_EVENT_force d) = true ∧ (s.on F.REC_STAT_running = true → t.hid.recorder.trigs % 2 = 1)) ∧
       TripFrame d (fun _ => False) (packetSent s d i act) s t)) ∧
  ((∀ s p (d : Die) (w : Fin 5) v, Live p s (R.TRIP_LATCH d w) = true → Completes (.tripLatchClear p d w v) s fun t =>
     (∀ j : Fin 32, 32 * w.val + j < 144 → srcLatched s d (32 * w + j) = true →
       (srcActive s d (32 * w + j) = true ∨ v.getLsbD j = false) → srcLatched t d (32 * w + j) = true) ∧
     (∀ j : Fin 32, srcActive s d (32 * w + j) = false → v.getLsbD j = true → srcLatched t d (32 * w + j) = false) ∧
     TripFrame d (fun _ => False) [] s t) ∧
   (∀ s p (d : Die) v, Live p s (R.TRIP_FW d) = true → (∀ b : Fin 16, bit (s.f (F.TRIP_FW_set d)) b = srcActive s d (128 + b)) →
     let after := fun t : State => (∀ b : Fin 16,
         bit (t.f (F.TRIP_FW_set d)) b = (v.getLsbD b || (bit (s.f (F.TRIP_FW_set d)) b && !v.getLsbD (16 + b))) ∧
         srcActive t d (128 + b) = bit (t.f (F.TRIP_FW_set d)) b) ∧ TripFrame d (fun off => off = R.TRIP_FW d) [] s t
     Completes (.tripFwSet p d v) s after ∧ Completes (.tripFwClear p d v) s after) ∧
   (∀ s (d : Die) high, s.up = true → high ≠ [] → Completes (.tripinChange d high) s fun t =>
     (tripSt t d).pins = (high.reverse ++ (tripSt s d).pins).take 15 ∧
     srcActive t d (113 + d) = (s.on (F.TRIPIN_CFG_en d) && majority (s.f (F.TRIPIN_CFG_n d)) (s.f (F.TRIPIN_CFG_m d))
       (s.on (F.TRIPIN_CFG_pol d)) ((tripSt t d).pins.map fun h => decide (h = s.on (F.TRIPIN_CFG_pol d)))) ∧
     TripFrame d (fun _ => False) (if srcActive t d (113 + d) = srcActive s d (113 + d) then []
       else packetSent s d (113 + d) (srcActive t d (113 + d))) s t) ∧
   (∀ s (d : Die) (i : Fin 144), relayUp s = true → sourceDie i = some (1 - d.val) → masksOn s d i = true →
     let p := (tripSt s d).pkts.find? fun x => x.1 = i.val
     let rest := match p with
       | some x => (tripSt s d).pkts.erase x
       | none => (tripSt s d).pkts
     let lost := min (2 ^ 31 - 1) ((tripSt s (1 - d)).lost + 1)
     Completes (.tripStatePacket d i false) s
       (Sets (if tripOn s d then [(F.TRIP_EVENT_seam_repeat d, 1)] else []) s.hid s) ∧
     (tripOn s d = true → Completes (.tripStatePacket d i true) s fun t =>
       srcActive t d i = (p.map (·.2)).getD (srcActive s (1 - d.val) i) ∧ (tripSt t d).pkts = rest ∧
       TripFrame d (fun _ => False) [] s t) ∧
     (tripOn s d = false → Completes (.tripStatePacket d i true) s fun t =>
       tripSt t d = { tripSt s d with pkts := rest } ∧ tripSt t (1 - d) = { tripSt s (1 - d) with lost := lost } ∧
       Sets [] { s.hid with trip := t.hid.trip } s t)) ∧
   (∀ s (d : Die), relayUp s = true → tripOn s (1 - d.val) = false → Completes (.tripStateRepeat d) s fun t =>
     let n := (tripSt s (1 - d.val)).pkts.length + ((List.range 115).filter (packetFor s (1 - d.val))).length
     tripSt t (1 - d.val) = { tripSt s (1 - d.val) with pkts := [] } ∧
     tripSt t d = { tripSt s d with lost := if n = 0 then (tripSt s d).lost else min (2 ^ 31 - 1) ((tripSt s d).lost + n) } ∧
     Sets [] { s.hid with trip := t.hid.trip } s t) ∧
   (∀ s (d : Die), relayUp s = true → tripOn s (1 - d.val) = true → Completes (.tripStateRepeat d) s fun t =>
     (∀ i : Fin 115, sourceDie i = some d.val → masksOn s (1 - d.val) i = true →
       srcActive t (1 - d.val) i = srcActive s d i) ∧
     (tripSt t (1 - d.val)).pkts = [] ∧
     (∀ i : Fin 115, sourceDie i = some d.val → masksOn s (1 - d.val) i = false →
       (∀ x, x ∈ (tripSt s (1 - d.val)).pkts → x.1 ≠ i.val) → srcActive t (1 - d.val) i = srcActive s (1 - d.val) i) ∧
     TripFrame (1 - d.val) (fun _ => False) [] s t))

/-! ### Edge units (spec/08) -/

/-- R187, R188, R195, R196: a request arms its units; an unarmed unit begins a new period of its own carrier at its boundary;
an armed one whose shadows are at least two ticks old takes all seven there, its period clamped, and is armed no longer, unless
a further request came less than two ticks before; at its peak an up-down carrier starts its falling half. R177, R190, R191,
R199, R200, R201, R203, R204, R214–R216: a fall of an unpaired unit's on-interval ends the output at once; its rise passes
without dead time, waits with it, and is dropped and counted where the pulse is below the minimum; the oldest delayed rise,
which has length 0 where its pulse has ended, the end of a stretch and the end of a refresh interval act at their times. In a
complementary pair the rise of channel a's waveform turns channel b off at once and delays a, its fall turns a off and delays
b, and b's own compares do nothing. R203: a delayed rise is held until the partner's output has been low for the channel's dead
time, and then passes. R215, R216: a rising output that finds its partner's interlocked output high is held off, both where
they rose in one tick, and the hold is recorded; one that finds it low turns on. R190: a follower's period starts with its
reference's mode and period, and it goes idle with its reference. R177, R214: each GT pin is high-impedance, low or high in the
order of its holds, forces and own command; a force-on acts once the named channel's pin has been low for the dead time,
counted from the end of the Drone's forced-off line where that is later (what counts as its fall: log entry 135). Pulse lengths
as operands and the order within a tick (log entry 53), and what a follower takes of its reference and when (log entry 52), are
the model's readings. -/
def Obligations.EdgeUnitsCommitAndDriveTheirOutput : Prop :=
  ((∀ s p (d : Die) v, Live p s (R.EDGE_COMMIT d) = true → Completes (.edgeCommitWrite p d v) s fun t =>
     (∀ j : Fin 24, bit (t.f (F.EDGE_COMMIT_req d)) j = (bit (s.f (F.EDGE_COMMIT_req d)) j || v.getLsbD j)) ∧
     (∀ j : Fin 24, v.getLsbD j = true → bit (s.f (F.EDGE_COMMIT_req d)) j = false → (edgeSt t (24 * d + j)).armT = s.now) ∧
     (∀ j : Fin 24, v.getLsbD j = true → bit (s.f (F.EDGE_COMMIT_req d)) j = true →
       (edgeSt t (24 * d + j)).again = some s.now ∧ (edgeSt t (24 * d + j)).armT = (edgeSt s (24 * d + j)).armT) ∧
     Frame (fun off => off = R.EDGE_COMMIT d) { s.hid with edge := t.hid.edge } s t) ∧
   (∀ s (n : Fin 48) peak, carrierOk s n = true → (edgeSt s n).stopping = false → (edgeSt s n).rem = 0 →
     edgeRef s n = none → peak = decide ((carrier s n).1 = 1) →
     let c := if peak then Instr.carrierPeak n else .carrierZero n
     (bit (s.f (F.EDGE_COMMIT_req (n / 24))) (n % 24) = false → Completes c s fun t =>
       (edgeSt t n).live = true ∧ (edgeSt t n).ps = s.now ∧ (edgeSt t n).mode = (carrier s n).1 ∧
       (edgeSt t n).per = (carrier s n).2 ∧ (edgeSt t n).len = periodOf (carrier s n).1 (carrier s n).2 ∧
       (∀ i : Fin 7, t.rd (shadowOff n i + 64) = s.rd (shadowOff n i + 64)) ∧ SameMem s t ∧ t.now = s.now) ∧
     (bit (s.f (F.EDGE_COMMIT_req (n / 24))) (n % 24) = true → 2 ≤ (s.now - (edgeSt s n).armT).toNat → (edgeSt s n).wr = [] →
       (peak = true ∨ (carrier s n).1 = 0 ∨ commitCode s n ≠ 1) → Completes c s fun t =>
       (∀ i : Fin 7, i ≠ 1 → t.rd (shadowOff n i + 64) = s.rd (shadowOff n i)) ∧
       (t.rd (shadowOff n 1 + 64)).toNat = perClamp (modeOf (s.rd (shadowOff n 0)).toNat) (s.rd (shadowOff n 1)).toNat ∧
       bit (t.f (F.EDGE_COMMIT_req (n / 24))) (n % 24) =
         (edgeSt s n).again.any (fun y => decide ((s.now - y).toNat < 2)) ∧ (edgeSt t n).live = true ∧ (edgeSt t n).ps = s.now ∧
       (edgeSt t n).per = (carrier t n).2 ∧ (edgeSt t n).written = [] ∧ SameMem s t ∧ t.now = s.now)) ∧
   (∀ s (n : Fin 48), carrierOk s n = true → (edgeSt s n).stopping = false → (carrier s n).1 = 2 → (edgeSt s n).live = true →
     edgeRef s n = none → (commitCode s n = 0 ∨ bit (s.f (F.EDGE_COMMIT_req (n / 24))) (n % 24) = false) →
     Completes (.carrierPeak n) s fun t =>
       (edgeSt t n).falling = true ∧ (edgeSt t n).ps = s.now - BitVec.ofNat 64 (carrier s n).2 ∧
       (edgeSt t n).per = (carrier s n).2 ∧ (∀ i : Fin 7, t.rd (shadowOff n i + 64) = s.rd (shadowOff n i + 64)) ∧
       SameMem s t ∧ t.now = s.now)) ∧
  ((∀ s (n : Fin 48) (len : Nat), carrierOk s n = true →
     let x := edgeSt s n
     let fr := fun t : State => Frame (edgeReg n) { s.hid with edge := t.hid.edge } s t
     let iv := edgeInterval s n x.mode x.per
     (edgePlain s n → x.live = true → x.cmd = true → Completes (.compareMatch n false len) s fun t =>
       edgeOut t n = false ∧ (edgeSt t n).w = false ∧ (edgeSt t n).cmd = false ∧ fr t) ∧
     (edgePlain s n → x.live = true → x.cmd = false → x.refr = false → iv.1 < iv.2 → deadTime s n = 0 →
       (minPulse s n ≤ len → Completes (.compareMatch n true len) s fun t =>
         edgeOut t n = true ∧ (edgeSt t n).cmd = true ∧ (edgeSt t n).pend = [] ∧ fr t) ∧
       (len < minPulse s n → s.on (F.EDGE_CH_CFG_minp_act n) = false → Completes (.compareMatch n true len) s fun t =>
         edgeOut t n = edgeOut s n ∧ (edgeSt t n).cmd = true ∧ t.on (F.EDGE_CH_EVENT_minp_drop n) = true ∧
         t.rd (R.EDGE_CH_MINP_CNT n) = bumped (s.rd (R.EDGE_CH_MINP_CNT n)) ∧ fr t)) ∧
     (edgePlain s n → x.live = true → x.cmd = false → x.refr = false → iv.1 < iv.2 → deadTime s n ≠ 0 →
       Completes (.compareMatch n true len) s fun t => edgeOut t n = edgeOut s n ∧ (edgeSt t n).pend = [false] ∧ fr t) ∧
     (∀ gone rest, x.pend = gone :: rest → pairKind s n = 0 → x.stopping = false →
       bit (s.f (F.TRIP_GT_ON_ch (n / 24))) (n % 24) = false → ∀ l, l = (if gone then 0 else len) →
       (minPulse s n ≤ l → Completes (.deadTimeExpiry n len) s fun t =>
         edgeOut t n = (edgeOut s n || !gone) ∧ (edgeSt t n).pend = rest ∧ fr t) ∧
       (l < minPulse s n → s.on (F.EDGE_CH_CFG_minp_act n) = true → Completes (.deadTimeExpiry n len) s fun t =>
         edgeOut t n = true ∧ (edgeSt t n).pend = rest ∧ (edgeSt t n).stretch = x.stretch + 1 ∧
         t.on (F.EDGE_CH_EVENT_minp_stretch n) = true ∧ t.rd (R.EDGE_CH_MINP_CNT n) = bumped (s.rd (R.EDGE_CH_MINP_CNT n)) ∧ fr t)) ∧
     (x.stretch = 1 → x.stopping = false → pairKind s n = 0 → Completes (.minimumPulseStretchEnd n) s fun t =>
       edgeOut t n = (edgeOut s n && x.pulse) ∧ (edgeSt t n).stretch = 0 ∧ fr t) ∧
     (edgePlain s n → x.refr = true → x.cmd = x.w → x.w = false → Completes (.refreshIntervalEnd n) s fun t =>
       (edgeSt t n).refr = false ∧ (∀ off, t.rd off = s.rd off) ∧ fr t)) ∧
   (∀ s (a b : Fin 48) (len : Nat), edgePair s a b → carrierOk s a = true → (edgeSt s a).live = true →
     (edgeInterval s a (edgeSt s a).mode (edgeSt s a).per).1 < (edgeInterval s a (edgeSt s a).mode (edgeSt s a).per).2 →
     ((edgeSt s a).cmd = false → (edgeSt s b).cmd = true → deadTime s a ≠ 0 → Completes (.compareMatch a true len) s fun t =>
       edgeOut t b = false ∧ (edgeSt t b).cmd = false ∧ (edgeOut s b = true → (edgeSt t b).fallT = some s.now) ∧
       edgeOut t a = edgeOut s a ∧ (edgeSt t a).cmd = true ∧ (edgeSt t a).pend = [false] ∧ EdgeFrame a b s t) ∧
     ((edgeSt s a).cmd = true → (edgeSt s b).cmd = false → deadTime s b ≠ 0 → Completes (.compareMatch a false len) s fun t =>
       edgeOut t a = false ∧ (edgeSt t a).cmd = false ∧ (edgeOut s a = true → (edgeSt t a).fallT = some s.now) ∧
       edgeOut t b = edgeOut s b ∧ (edgeSt t b).cmd = true ∧ (edgeSt t b).pend = [false] ∧ EdgeFrame a b s t)) ∧
   (∀ s (a b : Fin 48) (len : Nat) rise, edgePair s a b → carrierOk s b = true → (edgeSt s a).cmd = (edgeSt s a).w →
     (edgeSt s b).cmd = (!(edgeSt s a).w) → Completes (.compareMatch b rise len) s fun t =>
       (∀ off, t.rd off = s.rd off) ∧ edgeSt t a = edgeSt s a ∧ (edgeSt t b).cmd = (edgeSt s b).cmd ∧
       (edgeSt t b).pend = [] ∧ (edgeSt t b).il = (edgeSt s b).il ∧ EdgeFrame a b s t) ∧
   (∀ s (n p : Fin 48) (len : Nat) rest t0, carrierOk s n = true → partner s n = some p.val → pairKind s n ≠ 3 →
     (edgeSt s n).pend = false :: rest → (edgeSt s n).stopping = false → (edgeSt s p).stopping = false →
     bit (s.f (F.TRIP_GT_ON_ch (n / 24))) (n % 24) = false → (edgeSt s p).fallT = some t0 →
     (edgeOut s p = true ∨ 64 * ((s.now - t0).toNat + 1) ≤ deadTime s n → Completes (.deadTimeExpiry n len) s (Sets [] s.hid s)) ∧
     (edgeOut s p = false → deadTime s n < 64 * ((s.now - t0).toNat + 1) → minPulse s n ≤ len →
       Completes (.deadTimeExpiry n len) s fun t => edgeOut t n = true ∧ (edgeSt t n).pend = rest ∧ EdgeFrame n p s t)) ∧
   (∀ s (n p : Fin 48) (len : Nat), carrierOk s n = true → pairKind s n = 3 → partner s n = some p.val → n ≠ p →
     n.val / 24 = p.val / 24 → (edgeSt s n).live = true → (edgeSt s n).cmd = false → (edgeSt s n).pend = [] →
     (edgeSt s n).refr = false → (edgeSt s n).stopping = false → edgeOut s n = false → deadTime s n = 0 → minPulse s n ≤ len →
     (edgeInterval s n (edgeSt s n).mode (edgeSt s n).per).1 < (edgeInterval s n (edgeSt s n).mode (edgeSt s n).per).2 →
     let d := n.val / 24
     ((edgeSt s p).il = false → Completes (.compareMatch n true len) s fun t =>
       edgeOut t n = true ∧ (edgeSt t n).il = true ∧ t.rd (R.GATE_BOTHON_CNT d) = s.rd (R.GATE_BOTHON_CNT d) ∧ EdgeFrame n p s t) ∧
     ((edgeSt s p).il = true → (edgeSt s p).stopping = false → Completes (.compareMatch n true len) s fun t =>
       edgeOut t n = true ∧ (edgeSt t n).il = false ∧ t.on (F.GATE_EVENT_both_on d) = true ∧
       t.rd (R.GATE_BOTHON_CNT d) = bumped (s.rd (R.GATE_BOTHON_CNT d)) ∧ t.rd64 (R.GATE_BOTHON_TS d) = dieTime s d ∧
       ((edgeSt s p).rise ≠ some s.now → (edgeSt t p).il = true ∧ t.on (F.GATE_BOTHON_same_tick d) = false ∧
         t.f (F.GATE_BOTHON_held d) = n.val ∧ t.f (F.GATE_BOTHON_first d) = p.val) ∧
       ((edgeSt s p).rise = some s.now → (edgeSt t p).il = false ∧ t.on (F.GATE_BOTHON_same_tick d) = true ∧
         t.f (F.GATE_BOTHON_held d) = max n.val p.val ∧ t.f (F.GATE_BOTHON_first d) = min n.val p.val) ∧ EdgeFrame n p s t)) ∧
   (∀ s (f r : Fin 48), carrierOk s f = true → edgeRef s f = some r.val → edgeRef s r = none → (edgeSt s f).stopping = false →
     (edgeSt s f).rem = 0 → modeOf (s.f (F.EDGE_CH_CTL_ACT_mode r)) ≠ 1 →
     bit (s.f (F.EDGE_COMMIT_req (f / 24))) (f % 24) = false → Completes (.carrierZero f) s fun t =>
       (edgeSt t f).live = true ∧ (edgeSt t f).ps = s.now ∧ (edgeSt t f).mode = modeOf (s.f (F.EDGE_CH_CTL_ACT_mode r)) ∧
       (edgeSt t f).per = s.f (F.EDGE_CH_PER_ACT_per r)) ∧
   (∀ s p (f r : Fin 48) v, Live p s (R.EDGE_CH_CFG r) = true → s.hid.edges.frozen = none →
     edgeRef s f = some r.val → (edgeSt s f).run = true → (edgeSt s r).run = true → edgeBusy s r = false → pairKind s r = 0 →
     Completes (.edgeDisable p r v) s fun t =>
       (edgeSt t r).run = false ∧ (edgeSt t f).live = false ∧ edgeOut t f = false ∧ (edgeSt t f).run = true) ∧
   (∀ s (n : Fin 48),
     let d := n.val / 24
     let j := n.val % 24
     let z := s.up = false ∨ s.role = 2
     let low := gtHeld s n = true ∨ bit (s.f (F.TRIP_GT_OFF_ch d)) j = true
     let on := bit (s.f (F.TRIP_GT_ON_ch d)) j = true
     (gtPin s n = .z ↔ z) ∧ (¬ z → low → gtPin s n = .low) ∧
     (¬ z → ¬ low → on → (gtPin s n = .high ↔ bit (tripSt s d).fon j = true)) ∧
     (¬ z → ¬ low → ¬ on → (gtPin s n = .high ↔ bit (tripSt s d).wait j = false ∧ (edgeSt s n).il = true)) ∧
     (∀ len (q : Fin 48), s.up = true → on → partner s n = some q.val → (edgeSt s n).pend = [] →
       (edgeSt s n).stopping = false → (edgeSt s q).stopping = false →
       let passed := fun u : BitVec 64 => decide (deadTime s n < 64 * ((s.now - u).toNat + 1))
       let may := bit (s.f (F.TRIP_GT_OFF_ch d)) j = false ∧ s.on F.DRONE_STAT_forced_off = false ∧
         (tripSt s d).offEnd.all passed = true ∧ gtPin s q ≠ .high ∧ passed (edgeSt s q).lowT = true
       (¬ may → Completes (.deadTimeExpiry n len) s (Sets [] s.hid s)) ∧
       (may → Completes (.deadTimeExpiry n len) s
         (Sets [] (withTrip s d { tripSt s d with fon := putBit (tripSt s d).fon j true }) s)))))

/-- R193, R194, R211: each tap measured stores its trim, which is copied once the unit places no edge in the tick; the last one
of a sweep stores the total, counts the sweep, and decides `cal_ok` by its limits; without a sweep in four calibration periods
`cal_ok` ends with its event. R206, R207, R208, R210: a SYNCI edge of the chosen polarity records its time, is counted and
re-phases the units that take it; a freeze ends with the periods moved on by its length, and units enabled meanwhile start;
disabling an idle unit stops it at once, one in an on-pulse after it, one in a freeze when that ends, whether RWL is locked or
not; SYNCO falls at the end of its pulse. What a start or stop of a follower waits for is the model's reading (log entry 52).
-/
def Obligations.EdgeCalibrationSyncAndDisableAct : Prop :=
  (∀ s (n : Fin 48), edgeOn s (n / 24) = true →
     let ok := bitFld (R.EDGE_CAL_STAT (n / 24)) (n % 24)
     let x := edgeSt s n
     let landed := match x.trim with
       | some (j, v, _) => [(trimFld n j, v)]
       | none => []
     let keep := match x.trim with
       | some _ => withEdge s n { x with trim := none }
       | none => s.hid
     (∀ (i : Fin 64) trim total, s.on (F.EDGE_CAL_CFG_en (n / 24)) = true → i.val ≠ 63 →
       (edgeHere s n = false → Completes (.edgeCalTap n i trim total) s (Sets (landed ++ [(trimFld n i, trim.toNat)]) keep s)) ∧
       (edgeHere s n = true → Completes (.edgeCalTap n i trim total) s
         (Sets landed (withEdge s n { x with trim := some (i, trim.toNat, s.now) }) s))) ∧
     (∀ trim total, s.on (F.EDGE_CAL_CFG_en (n / 24)) = true → Completes (.edgeCalTap n 63 trim total) s fun t =>
       t.f (F.EDGE_CH_CALT_total n) = total.toNat ∧ tapTrim t n 63 = trim.toNat ∧ (edgeSt t n).calT = s.now ∧
       t.f (F.EDGE_CH_CALT_sweeps n) = (s.f (F.EDGE_CH_CALT_sweeps n) + 1) % 2 ^ 16 ∧
       (t.on ok = true ↔ 12305 ≤ total.toNat ∧ total.toNat ≤ 12695 ∧ ∀ j : Fin 64, tapTrim t n j ≠ 0 ∧ tapTrim t n j ≠ 15) ∧
       (s.on ok = true → t.on ok = false → t.on (F.EDGE_CH_EVENT_cal_bad n) = true) ∧
       t.hid = { s.hid with edge := t.hid.edge } ∧ SameMem s t) ∧
     (4 * calPeriod s (n / 24) ≤ (s.now - x.calT).toNat → Completes (.edgeCalPeriodEnd n) s
       (Sets (if s.on ok then [(ok, 0), (F.EDGE_CH_EVENT_cal_bad n, 1)] else []) s.hid s)) ∧
     ((s.now - x.calT).toNat < 4 * calPeriod s (n / 24) → Completes (.edgeCalPeriodEnd n) s (Sets [] s.hid s))) ∧
  ((∀ s rise, edgeOn s 0 = true → s.on F.EDGE_SYNC_CFG_synci_en = true → rise = (!s.on F.EDGE_SYNC_CFG_synci_pol) →
     Completes (.synciEdge rise) s fun t => t.rd64 R.EDGE_SYNCI_TS = dieTime s 0 ∧ t.on (F.EDGE_EVENT_synci 0) = true ∧
       (s.f F.EDGE_SYNC_STAT_count < 2 ^ 15 - 1 → t.f F.EDGE_SYNC_STAT_count = s.f F.EDGE_SYNC_STAT_count + 1) ∧
       (s.f F.EDGE_SYNC_STAT_count = 2 ^ 15 - 1 → t.f F.EDGE_SYNC_STAT_count = 2 ^ 15 - 1 ∧ t.on F.EDGE_SYNC_STAT_sat = true) ∧
       (∀ n, n ∈ syncUnits s → t.on (F.EDGE_CH_EVENT_sync n) = true ∧ (edgeSt t n).rem = syncCorrection s n ∧
         (edgeSt t n).remT = some s.now) ∧ t.hid = { s.hid with edge := t.hid.edge } ∧ SameMem s t ∧ t.now = s.now) ∧
   (∀ s rise, edgeOn s 0 = true → rise = s.on F.EDGE_SYNC_CFG_synci_pol → Completes (.synciEdge rise) s (Sets [] s.hid s)) ∧
   (∀ s t0, s.hid.edges.frozen = some t0 → s.hid.edges.deferred = [] →
     (∀ n : Fin 48, s.on (F.EDGE_CH_CFG_en n) = true → edgeOn s (n / 24) = true → (edgeSt s n).run = true) →
     Completes .debugUnfreeze s
     (Sets [(F.EDGE_EVENT_frozen 0, 0), (F.EDGE_EVENT_frozen 1, 0)]
       { s.hid with edges := { s.hid.edges with frozen := none, deferred := [] },
                    edge := s.hid.edge.map fun p => (p.1, { p.2 with
                      past := p.2.pasts s.now (some t0)
                      ps := if p.2.live then p.2.ps + (s.now - t0) else p.2.ps
                      fallT := p.2.fallT.map (· + (s.now - t0)) }) } s)) ∧
   (∀ s t0 (n : Fin 48), s.hid.edges.frozen = some t0 → s.hid.edges.deferred = [] → s.on (F.EDGE_CH_CFG_en n) = true →
     edgeOn s (n / 24) = true → (edgeSt s n).run = false → Completes .debugUnfreeze s fun t =>
       (edgeSt t n).run = true ∧ t.hid.edges.frozen = none ∧ SameMem s t ∧ t.now = s.now) ∧
   (∀ s p (n : Fin 48) v, Live p s (R.EDGE_CH_CFG n) = true → s.hid.edges.frozen = none →
     Completes (.edgeDisable p n v) s fun t =>
       t.on (F.EDGE_CH_CFG_en n) = false ∧ t.on (F.EDGE_CH_CFG_sync_in n) = v.getLsbD 1 ∧
       t.rd (R.EDGE_CH_CFG n) &&& 0x3F38#32 = (if rwlLocked s then s.rd (R.EDGE_CH_CFG n) else v) &&& 0x3F38#32 ∧
       ((edgeSt s n).run = true → edgeBusy s n = true ∨ shapesPulse t n = true → (edgeSt t n).stopping = true ∧ (edgeSt t n).run = true ∧
         edgeOut t n = edgeOut s n) ∧
       ((edgeSt s n).run = true → edgeBusy s n = false → shapesPulse t n = false → (edgeSt t n).run = false ∧ (edgeSt t n).live = false ∧
         bit (t.f (F.EDGE_COMMIT_req (n / 24))) (n % 24) = false) ∧ SameMem s t ∧ t.now = s.now) ∧
   (∀ s p (n : Fin 48) v t0, Live p s (R.EDGE_CH_CFG n) = true → s.hid.edges.frozen = some t0 → (edgeSt s n).run = true →
     Completes (.edgeDisable p n v) s fun t => t.on (F.EDGE_CH_CFG_en n) = false ∧ t.hid.edges.frozen = some t0 ∧
       n.val ∈ t.hid.edges.deferred ∧
       (∀ j, edgeSt t j = if j = n.val then { edgeSt s n with refrN := (edgeSt t n).refrN } else edgeSt s j) ∧ SameMem s t ∧ t.now = s.now) ∧
   (∀ s, Completes .syncoPulseEnd s (Sets [] { s.hid with edges := { s.hid.edges with synco := false } } s)))

/-! ### Gate channels, pods and the Ligature buses (spec/09) -/

/-- R218, R219, R222, R225: a good fault vector gives each present pod's slot to its trip source, latches and counts a slot
that rises; a slot at 0 ends a latched fault and clears the source of any pod, one at 1 of a pod not present is counted among
the bus's errors and changes nothing else; a vector with a bad CRC is counted and asked for again. R218, R223, R225, R227,
R229, R230: a TELEM that answers a POLL registers the pod's report with its time and its warning, an ACK that returns the value
sent acknowledges its register, one of a CLEAR gives the causes of the fault; an answer ends the pod's losses; one with a bad
CRC counts as none. -/
def Obligations.FaultVectorsAndPodAnswersAreRegistered : Prop :=
  (∀ s (k : Fin 4) slots, busRx s k = true →
     let b := ligSt s k
     let good := crc8OfBits (ligBody 15 0 (slotBits slots))
     (∀ crc, crc ≠ good → Completes (.faultVectorRx k slots crc) s (Sets [countOne s (R.GATE_LIG_ERR k)]
       (withLig s k { b with cur := if b.cur = some .vector then none else b.cur, fvReq := b.fvReq || busOn s k }) s)) ∧
     (Completes (.faultVectorRx k slots good) s fun t =>
       t.f (F.GATE_LIG_STAT_fv k) = slots.toNat ∧
       t.rd (R.GATE_LIG_ERR k) = bumped^[((List.range 12).filter fun a => slots.getLsbD a && !podPresent s (12 * k + a)).length]
         (s.rd (R.GATE_LIG_ERR k)) ∧
       (ligSt t k) = { b with cur := if b.cur = some .vector then none else b.cur } ∧
       (∀ a : Fin 12, podPresent s (12 * k + a) = true →
         let n := 12 * k.val + a
         let was := bit (s.f (F.GATE_LIG_STAT_fv k)) a
         srcActive t (n / 24) (64 + n) = slots.getLsbD a ∧
         (slots.getLsbD a = true → was = false → t.on (F.GATE_CH_FAULT_latched n) = true ∧ t.on (F.GATE_CH_EVENT_fault n) = true ∧
           t.rd (R.GATE_CH_FCNT n) = bumped (s.rd (R.GATE_CH_FCNT n)) ∧ (t.hid.pod.get {} n).needCause = true) ∧
         (slots.getLsbD a = true → s.on (F.GATE_CH_FAULT_latched n) = true → t.on (F.GATE_CH_FAULT_latched n) = true)) ∧
       (∀ a : Fin 12, slots.getLsbD a = false →
         let n := 12 * k.val + a
         srcActive t (n / 24) (64 + n) = false ∧ t.on (F.GATE_CH_FAULT_latched n) = false ∧
         (s.on (F.GATE_CH_FAULT_latched n) = true → t.on (F.GATE_CH_EVENT_fault_clear n) = true ∧
           t.on (F.GATE_CH_FAULT_desat n) = false ∧ t.on (F.GATE_CH_FAULT_uv n) = false ∧ t.on (F.GATE_CH_FAULT_ot n) = false)) ∧
       (∀ a : Fin 12, podPresent s (12 * k + a) = false → slots.getLsbD a = true →
         let n := 12 * k.val + a
         t.rd (R.GATE_CH_FAULT n) = s.rd (R.GATE_CH_FAULT n) ∧ srcActive t (n / 24) (64 + n) = srcActive s (n / 24) (64 + n)) ∧
       t.hid = { s.hid with
         lig := t.hid.lig, pod := t.hid.pod, trip := t.hid.trip, edge := t.hid.edge,
         recorder := { s.hid.recorder with trigs := t.hid.recorder.trigs } } ∧ PinsStamped s t ∧ SameMem s t ∧ t.now = s.now)) ∧
  (∀ s (n : Fin 48), busRx s (n / 12) = true → podPresent s n = true →
     let k : Fin 4 := ⟨n.val / 12, Nat.div_lt_of_lt_mul n.isLt⟩
     let a := n.val % 12
     let b := ligSt s k
     let pod := s.hid.pod.get {} n
     let acked := { b with cur := none }
     let answered := { b with cur := none, retry := if b.retry = some a then none else b.retry, fails := b.fails.put 0 a 0,
                              ans := true }
     (b.cur = some (.poll a) → ∀ vds temp supply (status : BitVec 12),
       let good := crc8OfBits (ligBody a 3 (telemBits vds temp supply status))
       let c := Instr.telem n vds temp supply status good
       (∀ crc, crc ≠ good → exec (.telem n vds temp supply status crc) s = exec (.podAnswerTimeout k) s) ∧
       (status.getLsbD 4 = false → Completes c s fun t =>
         t.f (F.GATE_CH_TELEM0_vds n) = vds.toNat ∧ t.f (F.GATE_CH_TELEM0_supply n) = supply.toNat ∧
         t.f (F.GATE_CH_TELEM1_temp n) = temp.toNat ∧ t.f (F.GATE_CH_TELEM1_status n) = status.toNat ∧
         t.rd64 (R.GATE_CH_TELEM_TS n) = dieTime s (n / 24) ∧
         (t.on (F.GATE_CH_STAT_warn n) = true ↔ supply.toNat < s.f (F.GATE_CH_SUPPLY_warn n)) ∧
         (supply.toNat < s.f (F.GATE_CH_SUPPLY_warn n) → s.on (F.GATE_CH_STAT_warn n) = false →
           t.on (F.GATE_CH_EVENT_warn n) = true) ∧
         t.on (F.GATE_CH_FAULT_lost n) = false ∧ t.on (lostBit k a) = false ∧ ligSt t k = answered ∧
         (pod.needCause = true → t.on (F.GATE_CH_FAULT_desat n) = status.getLsbD 0 ∧
           t.on (F.GATE_CH_FAULT_uv n) = status.getLsbD 1 ∧ t.on (F.GATE_CH_FAULT_ot n) = status.getLsbD 2) ∧
         t.hid = { s.hid with lig := t.hid.lig, pod := t.hid.pod, edge := t.hid.edge } ∧ SameMem s t ∧ t.now = s.now) ∧
       (status.getLsbD 4 = true → Completes c s fun t =>
         t.on (F.GATE_CH_EVENT_resync n) = true ∧ t.on (F.GATE_CH_STAT_in_sync n) = false ∧
         bit (t.hid.pod.get {} n).unack 27 = true ∧ SameMem s t ∧ t.now = s.now)) ∧
     (∀ (addr : BitVec 8) (data : BitVec 16),
       let good := crc8OfBits (ligBody a 5 (msbFirst 8 addr.toNat ++ msbFirst 16 data.toNat))
       let c := Instr.ack n addr data good
       let found := [(lostBit k a, 0), (F.GATE_CH_FAULT_lost n, 0)]
       (∀ x v crc, b.cur = some (.write a x v) → crc ≠ good → exec (.ack n addr data crc) s = exec (.podAnswerTimeout k) s) ∧
       (b.cur = some (.write a addr.toNat data.toNat) → data.toNat = podReg s n addr.toNat → Completes c s
         (Sets (found ++ if putBit pod.unack addr.toNat false = 0 then [(F.GATE_CH_STAT_in_sync n, 1)] else [])
           { withLig s k acked with
             pod := s.hid.pod.put {} n { pod with unack := putBit pod.unack addr.toNat false } } s)) ∧
       (b.cur = some (.write a addr.toNat data.toNat) → data.toNat ≠ podReg s n addr.toNat → Completes c s
         (Sets found (withLig s k acked) s)) ∧
       (b.cur = some (.clear a) → addr = 255#8 → pod.needCause = true → Completes c s
         (Sets (found ++ [(F.GATE_CH_FAULT_desat n, data.toNat), (F.GATE_CH_FAULT_uv n, data.toNat / 2),
             (F.GATE_CH_FAULT_ot n, data.toNat / 4)])
           { withLig s k acked with pod := s.hid.pod.put {} n { pod with needCause := false } } s))))

/-- R220, R222, R223: the idle bus serves a wanted vector, a broken frame, a SELECT, a CLEAR, a WRITE, the periodic vector, a
repeated POLL and the next pod's POLL in this order; a pod's vector breaks and counts the frame in progress; an unanswered
frame is counted, a POLL is repeated once, and after three failures in a row its pod is lost. That LIG_NEXT_FRAME is the
instant at which the bus decides is the model's reading (log entry 54). R226, R227, R233, R234: the automatic clear queues a
CLEAR per try and ends stuck, the timer and the host reset its tries; a profile written is stored and queued for a present pod
within its profiles; a write that disables a bus clears its `up`, drops the CLEARs, SELECT, vector and POLL that wait for it,
which R233 leaves open (log entry 128), and keeps its queued WRITEs and the frame in progress, which ends with its answer. -/
def Obligations.LigatureServesFramesAndQueuesClears : Prop :=
  (∀ s (k : Fin 4),
     let b := ligSt s k
     let idle := b.cur = none ∨ b.cur = some .vector ∨ ∃ v, b.cur = some (.select v)
     let clear := fun f : LigFrame => match f with | .clear _ => true | _ => false
     let goes := fun (b' : LigSt) (f : LigFrame) => Completes (.ligNextFrame k) s
       (Sets [] (withLig s k { b' with cur := some f, curT := s.now }) s)
     (busOn s k = true →
       Completes (.faultVectorPoll k) s (Sets [] (withLig s k { b with fvPer := true }) s) ∧
       (ligCur s k = none → Completes (.podFaultVectorStart k) s
         (Sets [] (withLig s k { b with cur := some .vector, curT := s.now }) s)) ∧
       (∀ f, ligCur s k = some f → f ≠ .vector → Completes (.podFaultVectorStart k) s
         (Sets [countOne s (R.GATE_LIG_ABORT k)] (withLig s k
           { b with cur := some .vector, curT := s.now, again := some f, fvReq := b.fvReq && !clear f }) s)) ∧
       (idle → b.fvReq = true → goes { b with fvReq := false } .vector) ∧
       (idle → b.fvReq = false → ∀ f, b.again = some f → goes { b with again := none, fvReq := clear f } f) ∧
       (idle → b.fvReq = false → b.again = none → ∀ v, b.sel = some v → goes { b with sel := none } (.select v)) ∧
       (idle → b.fvReq = false → b.again = none → b.sel = none →
         (∀ a as, b.clears = a :: as → goes { b with clears := as, fvReq := true } (.clear a)) ∧
         (∀ w ws, b.clears = [] → b.writes = w :: ws → goes { b with writes := ws } (.write w.1 w.2.1 w.2.2)) ∧
         (b.clears = [] → b.writes = [] → b.fvPer = true → goes { b with fvPer := false } .vector) ∧
         (∀ a, b.clears = [] → b.writes = [] → b.fvPer = false → b.retry = some a → goes b (.poll a)) ∧
         (∀ a, b.clears = [] → b.writes = [] → b.fvPer = false → b.retry = none → nextPod s k b.last = some a →
           (b.last < a → goes { b with last := a } (.poll a)) ∧
           (a ≤ b.last → Completes (.ligNextFrame k) s (Sets [(F.GATE_LIG_STAT_up k, b2n b.ans)] (withLig s k
             { b with last := a, ansLast := b.ans, ans := false, cur := some (.poll a), curT := s.now }) s))))) ∧
     (busRx s k = true →
       ((b.cur = none ∨ ∃ v, b.cur = some (.select v)) → Completes (.podAnswerTimeout k) s (Sets [] s.hid s)) ∧
       (∀ pod x data, b.cur = some (.write pod x data) → Completes (.podAnswerTimeout k) s
         (Sets [countOne s (R.GATE_LIG_ERR k)] (withLig s k { b with cur := none }) s)) ∧
       (∀ a, b.cur = some (.poll a) →
         let after := { b with cur := none, fails := b.fails.put 0 a (min 3 (b.fails.get 0 a + 1)),
                               retry := if b.retry = some a then none else some a }
         (b.fails.get 0 a < 2 → Completes (.podAnswerTimeout k) s
           (Sets [countOne s (R.GATE_LIG_ERR k)] (withLig s k after) s)) ∧
         (2 ≤ b.fails.get 0 a → a < 12 → s.on (F.GATE_CH_FAULT_lost (12 * k + a)) = false → Completes (.podAnswerTimeout k) s
           (Sets [countOne s (R.GATE_LIG_ERR k), (lostBit k a, 1), (F.GATE_CH_FAULT_lost (12 * k + a), 1),
             (F.GATE_CH_EVENT_lost (12 * k + a), 1)] (withLig s k after) s))))) ∧
  ((∀ s (n : Fin 48), busOn s (n / 12) = true → s.on (F.GATE_CH_FAULT_latched n) = true → s.f (F.GATE_CH_CFG_tries n) ≠ 0 →
     let b := ligSt s (n / 12)
     let now := (s.hid.pod.get {} n).clrT.any (sameLig s (n / 24))
     (now = true → Completes (.autoClearTimer n) s (Sets [] s.hid s)) ∧
     (now = false → s.f (F.GATE_CH_FAULT_tries_used n) < s.f (F.GATE_CH_CFG_tries n) → Completes (.autoClearTimer n) s
       (Sets [(F.GATE_CH_FAULT_tries_used n, s.f (F.GATE_CH_FAULT_tries_used n) + 1)]
         (withLig s (n / 12)
           { b with clears := if b.clears.contains (n % 12) then b.clears else b.clears ++ [n.val % 12] }) s)) ∧
     (now = false → s.f (F.GATE_CH_CFG_tries n) ≤ s.f (F.GATE_CH_FAULT_tries_used n) → Completes (.autoClearTimer n) s
       (Sets [(F.GATE_CH_FAULT_stuck n, 1), (F.GATE_CH_EVENT_stuck n, 1)] s.hid s))) ∧
   (∀ s (n : Fin 48), busOn s (n / 12) = true → bit (s.f (F.GATE_LIG_STAT_fv (n / 12))) (n % 12) = false →
     Completes (.triesResetTimer n) s (Sets [(F.GATE_CH_FAULT_tries_used n, 0)] s.hid s)) ∧
   (∀ s p (n : Fin 48) v, Live p s (R.GATE_CH_FAULT n) = true → v.getLsbD 31 = true →
     let b := ligSt s (n / 12)
     Completes (.faultClr p n v) s (Sets [(F.GATE_CH_FAULT_tries_used n, 0), (F.GATE_CH_FAULT_stuck n, 0)]
       { (if busOn s (n / 12) then withLig s (n / 12)
           { b with clears := if b.clears.contains (n % 12) then b.clears else b.clears ++ [n.val % 12] } else s.hid) with
         pod := s.hid.pod.put {} n { s.hid.pod.get {} n with clrT := some s.now } } s)) ∧
   (∀ s p (n : Fin 48) (x : Fin 24) v, Live p s (R.GATE_CH_PROF n x) = true →
     let sends := podPresent s n = true ∧ x.val / 3 % 4 ≤ s.f (F.GATE_CH_CFG_nprof n)
     (¬ sends → Completes (.profileWrite p n x v) s (Sets [(wordFld (R.GATE_CH_PROF n x), v.toNat % 2 ^ 16)] s.hid s)) ∧
     (sends → Completes (.profileWrite p n x v) s fun t => (t.rd (R.GATE_CH_PROF n x)).toNat = v.toNat % 2 ^ 16 ∧
       t.on (F.GATE_CH_STAT_in_sync n) = false ∧ bit (t.hid.pod.get {} n).unack x = true ∧
       (n.val % 12, x.val, v.toNat % 2 ^ 16) ∈ (ligSt t (n / 12)).writes ∧
       (∀ w, w ∈ (ligSt t (n / 12)).writes → w.1 = n.val % 12 → w.2.1 = x.val → w.2.2 = v.toNat % 2 ^ 16) ∧
       Frame (fun off => off = R.GATE_CH_PROF n x ∨ off = R.GATE_CH_STAT n) { s.hid with lig := t.hid.lig, pod := t.hid.pod } s t)) ∧
   (∀ s p (k : Fin 4) v, Live p s (R.GATE_LIG_CFG k) = true → Completes (.ligDisable p k v) s
     (Sets [(F.GATE_LIG_CFG_sel_eu k, v.toNat / 2 ^ 16), (F.GATE_LIG_CFG_fv_poll k, v.toNat / 2 ^ 8), (F.GATE_LIG_CFG_en k, 0),
         (F.GATE_LIG_STAT_up k, 0)]
       (withLig s k { ligSt s k with
         again := none, fvReq := false, sel := none, clears := [], fvPer := false, retry := none, ans := false,
         ansLast := false }) s)))

/-! ### Bore engines (spec/10) -/

/-- R249, R250, R251, R259, R406: a routed trigger on its way, and `go` in SERVICE or under kind 3, start a step of an idle
engine; one that comes while a step runs is lost and counted, one in a hold is counted there until its limit, and the next ends
the hold with its event and starts a step; either elsewhere is ignored. On a Shadow the engine's waiting record is applied
first. R28, R250, R252, R258: at its end a step registers every stage's lanes and states, counts itself, names the tag and the
trigger it ran with, and sends its packets in every mode but STANDBY, each with a credit of its link where one is free and no
packet waits. -/
def Obligations.BoreStepsStartEndOrAreLost : Prop :=
  (∀ s (e : Fin 8), boreOn s e = true → stageCount s e ≠ 0 → steppingMode s.mode = true →
     (∀ j, j ∈ engFed s.hid.fing.recs e → j < 64) → (engFed s.hid.fing.recs e).Nodup →
     let routed := s.mode ≠ SERVICE ∧ s.f (F.BORE_TRIG_kind e) ≠ 3
     let busy := s.on (F.BORE_STAT_busy e)
     let lim := max 1 (s.f (F.BORE_HOLD_lim e))
     let holding := s.on (F.BORE_CTL_hold e) = true ∧ (boreSt s e).holdT.any (sameCyc (boreCyc s) s.now) = false
     ((boreSt s e).trigs = [] → Completes (.boreTrigger e) s (Sets [] s.hid s)) ∧
     (∀ ts rest, (boreSt s e).trigs = ts :: rest → ∀ taken, taken = withBore s e { boreSt s e with trigs := rest } →
       (¬ routed → Completes (.boreTrigger e) s (Sets [] taken s)) ∧
       (routed → busy = true → Completes (.boreTrigger e) s
         (Sets [countOne s (R.BORE_LOST_CNT e), (F.BORE_EVENT_step_lost e, 1)] taken s)) ∧
       (routed → busy = false → holding → s.f (F.BORE_HOLD_count e) < lim → Completes (.boreTrigger e) s
         (Sets [(F.BORE_HOLD_count e, s.f (F.BORE_HOLD_count e) + 1)] taken s)) ∧
       (routed → busy = false → s.on (F.BORE_CTL_hold e) = false → Completes (.boreTrigger e) s fun t =>
         StepStarts e ts (engineMirrored s e) t ∧ (boreSt t e).trigs = rest) ∧
       (routed → busy = false → holding → lim ≤ s.f (F.BORE_HOLD_count e) → Completes (.boreHoldExpiry e) s fun t =>
         StepStarts e ts (engineMirrored s e) t ∧ (boreSt t e).trigs = rest ∧ t.on (F.BORE_CTL_hold e) = false ∧
         t.on (F.BORE_EVENT_hold_exp e) = true)) ∧
     (∀ p (v : Word), Live p s (R.BORE_CTL e) = true → v.toNat / 2 % 256 = 0 → s.on (F.BORE_CTL_hold e) = false →
       (¬ routed → busy = false → Completes (.boreGo p e v) s (StepStarts e s.now (engineMirrored s e))) ∧
       (routed → Completes (.boreGo p e v) s (Sets [] s.hid s)))) ∧
  (∀ s (e : Fin 8), s.on (F.BORE_STAT_busy e) = true → stageCount s e ≤ 48 →
     let r := chainRun s e
     Completes (.boreStepEnd e) s fun t =>
       t.on (F.BORE_STAT_busy e) = false ∧ t.on (F.BORE_STAT_held e) = s.on (F.BORE_CTL_hold e) ∧
       (t.rd64 (R.BORE_STEP_CNT e)).toNat = min ((s.rd64 (R.BORE_STEP_CNT e)).toNat + 1) (2 ^ 64 - 1) ∧
       t.rd (R.BORE_TAG_SEEN e) = (boreSt s e).tag ∧ t.rd64 (R.BORE_LAST_TS e) = (boreSt s e).trig ∧
       (∀ g, g < stageCount s e → ∀ i : Fin 4,
         t.pu48 (R.BORE_STG_X e g i) = narrow48 ((r.xs.getD g []).getD i 0) ∧
         t.pu (R.BORE_STG_Y e g i) = (r.ys.getD g []).getD i 0 ∧ t.on (F.BORE_STG_CFG_lim e g) = r.lim.getD g false) ∧
       (r.ovf.any id = true → t.on (F.BORE_EVENT_ovf e) = true) ∧
       (s.mode = STANDBY → (boreSt t e).pkts = (boreSt s e).pkts) ∧
       (s.mode = FOLLOW ∨ s.mode = FORM ∨ s.mode = RIDE ∨ s.mode = SERVICE ∨ s.mode = HALT →
         (boreSt t e).pkts.map withoutCredit = ((boreSt s e).pkts ++ stepPackets s e r).map withoutCredit ∧
         ∀ d : Die, (∀ e' : Fin 8, creditWaits s d e' = false) → creditsUsed s d < 32 →
           ∀ p, p ∈ (boreSt t e).pkts → p.die = d.val → p.credit = true ∨ p.waiting = true) ∧ SameMem s t ∧ t.now = s.now)

/-- R251, whole: a trigger that becomes valid while a step runs is discarded, counted in `LOST_CNT` and told by `step_lost`;
one during a hold is discarded and counted in `HOLD.count` only, whether it was routed or written as `go`. -/
def Obligations.TriggersInAStepOrAHoldAreDiscarded : Prop :=
  ∀ s (e : Fin 8), stageCount s e ≠ 0 →
    let bySoftware := s.mode = SERVICE ∨ s.f (F.BORE_TRIG_kind e) = 3
    let lost := Sets [countOne s (R.BORE_LOST_CNT e), (F.BORE_EVENT_step_lost e, 1)]
    let held := Sets [(F.BORE_HOLD_count e, s.f (F.BORE_HOLD_count e) + 1)]
    let inStep := s.on (F.BORE_STAT_busy e) = true
    let inHold := s.on (F.BORE_STAT_busy e) = false ∧ boreOn s e = true ∧ steppingMode s.mode = true ∧
      s.on (F.BORE_CTL_hold e) = true ∧ (boreSt s e).holdT.any (sameCyc (boreCyc s) s.now) = false ∧
      s.f (F.BORE_HOLD_count e) < max 1 (s.f (F.BORE_HOLD_lim e))
    (∀ ts rest, (boreSt s e).trigs = ts :: rest → ¬ bySoftware →
      let taken := withBore s e { boreSt s e with trigs := rest }
      (inStep → Completes (.boreTrigger e) s (lost taken s)) ∧ (inHold → Completes (.boreTrigger e) s (held taken s))) ∧
    ∀ p (v : Word), Live p s (R.BORE_CTL e) = true → v.getLsbD 8 = false → v.getLsbD 5 = false →
      v.getLsbD 4 = s.on (F.BORE_CTL_hold e) → bySoftware →
      (inStep → Completes (.boreGo p e v) s (lost s.hid s)) ∧ (inHold → Completes (.boreGo p e v) s (held s.hid s))

/-- R28, R254, R255: a packet without a credit waits at its sender; with prompt timing one lands and arms its units on arrival;
with fixed timing one in time waits for its release tick and lands there, and one that comes less than two ticks before it
lands at once, late and counted. R247, R257, R259, R260, R262: coefficients and set-points land whole, a running step whose
stage has read keeping the old coefficient; a hold is set and ended by its bit; `breath_init` stays for the next step; states
are written and cleared only in the modes and holds that allow it, and a refused clear is an access error. -/
def Obligations.BorePacketsAndWritesLand : Prop :=
  (∀ s (e : Fin 8) (d : Die) p, packetProper p → p.die = d.val →
     let rest := (boreSt s e).pkts.erase p
     let arrived := (boreSt s e).pkts.find? (fun q => q.die = d.val ∧ !q.waiting) = some p
     let late := (releaseTick s e p.trig).any (fun r => decide (r < (dieTime s d).toNat + 2)) = true
     let left := fun t : State => (boreSt t e).pkts.map withoutCredit = rest.map withoutCredit
     (arrived → p.credit = false → Completes (.enginePacketArrival e d) s (Sets [] s.hid s)) ∧
     (arrived → p.credit = true → s.f (F.BORE_INFO_timing e) ≠ 1 → edgeOn s d = true →
       Completes (.enginePacketArrival e d) s fun t => PacketLands p t ∧ left t ∧ SameMem s t ∧ t.now = s.now) ∧
     (arrived → p.credit = true → s.f (F.BORE_INFO_timing e) = 1 → ¬ late → Completes (.enginePacketArrival e d) s fun t =>
       (boreSt t e).pkts.map withoutCredit =
         ((boreSt s e).pkts.map fun q => if q = p then { q with waiting := true } else q).map withoutCredit ∧
       KeepRegs (fun _ => False) s t ∧ t.hid = { s.hid with bore := t.hid.bore } ∧ SameAside s t) ∧
     (arrived → p.credit = true → s.f (F.BORE_INFO_timing e) = 1 → late → edgeOn s d = true →
       Completes (.enginePacketArrival e d) s fun t => PacketLands p t ∧ left t ∧ t.on (F.BORE_EVENT_late e) = true ∧
       t.rd (R.BORE_LATE_CNT e) = bumped (s.rd (R.BORE_LATE_CNT e)) ∧ SameMem s t ∧ t.now = s.now) ∧
     ((boreSt s e).pkts.find? (fun q => q.die = d.val ∧ q.waiting) = some p → edgeOn s d = true →
       Completes (.fixedReleaseTick e d) s fun t => PacketLands p t ∧ (boreSt t e).pkts = rest ∧ SameMem s t ∧ t.now = s.now)) ∧
  ((∀ s p (e : Fin 8) (g : Fin 48) (k : Fin 8) v, Live p s (R.BORE_STG_K e g k) = true → g.val < stageCount s e →
     let passed := s.on (F.BORE_STAT_busy e) = true ∧ boreCyc s * stgFirst s e g +
       (boreCyc s - (boreSt s e).t0.toNat % boreCyc s) % boreCyc s < (s.now - (boreSt s e).t0).toNat
     Completes (.boreCoefWrite p e (some g) (k.castLE (by decide)) v) s fun t =>
       t.pu (R.BORE_STG_K e g k) = v.toInt ∧
       (passed → (boreSt s e).old.get none (8 * g + k) = none →
         (boreSt t e).old.get none (8 * g + k) = some (s.pu (R.BORE_STG_K e g k))) ∧
       (¬ passed → t.hid = s.hid) ∧ Frame (fun off => off = R.BORE_STG_K e g k ∨ off = R.BORE_STG_K e g k + 4)
         { s.hid with bore := t.hid.bore } s t) ∧
   (∀ s p (e : Fin 8) (k : Fin 16) v, Live p s (R.BORE_SP e k) = true →
     (s.on (F.BORE_STAT_busy e) = false ∨
       (boreCyc s - (boreSt s e).t0.toNat % boreCyc s) % boreCyc s < (s.now - (boreSt s e).t0).toNat) → Completes (.boreCoefWrite p e none k v) s fun t =>
       t.pu (R.BORE_SP e k) = v.toInt ∧ Frame (fun off => off = R.BORE_SP e k ∨ off = R.BORE_SP e k + 4) s.hid s t) ∧
   (∀ s p (e : Fin 8) (k : Fin 16) v, Live p s (R.BORE_SP e k) = true → s.on (F.BORE_STAT_busy e) = true →
     (s.now - (boreSt s e).t0).toNat ≤ (boreCyc s - (boreSt s e).t0.toNat % boreCyc s) % boreCyc s → Completes (.boreCoefWrite p e none k v) s fun t =>
       t.pu (R.BORE_SP e k) = v.toInt ∧ (boreSt t e).sp.get 0 k = v.toInt ∧
       Frame (fun off => off = R.BORE_SP e k ∨ off = R.BORE_SP e k + 4) { s.hid with bore := t.hid.bore } s t) ∧
   (∀ s p (e : Fin 8), Live p s (R.BORE_CTL e) = true →
     (s.on (F.BORE_CTL_hold e) = false → s.on (F.BORE_STAT_busy e) = true → Completes (.boreHoldWrite p e 16#32) s
       (Sets [(F.BORE_CTL_hold e, 1), (F.BORE_HOLD_count e, 0)] (withBore s e { boreSt s e with holdT := some s.now }) s)) ∧
     (s.on (F.BORE_CTL_hold e) = false → s.on (F.BORE_STAT_busy e) = false → s.on (F.BORE_STAT_limit e) = false →
       Completes (.boreHoldWrite p e 16#32) s (Sets [(F.BORE_CTL_hold e, 1), (F.BORE_HOLD_count e, 0), (F.BORE_STAT_held e, 1)]
         (withBore s e { boreSt s e with holdT := some s.now }) s)) ∧
     (s.on (F.BORE_CTL_hold e) = true → Completes (.boreHoldWrite p e 0#32) s
       (Sets [(F.BORE_CTL_hold e, 0)] (withBore s e { boreSt s e with holdT := none }) s)) ∧
     (∀ v : Word, v.toNat % 16 = 0 → v.getLsbD 8 = false → v.getLsbD 4 = s.on (F.BORE_CTL_hold e) →
       Completes (.breathInit p e v) s (Sets [(F.BORE_CTL_breath_init e, 1)] s.hid s)) ∧
     (∀ v : Word, v.toNat % 16 = 0 → v.getLsbD 5 = false → v.getLsbD 4 = s.on (F.BORE_CTL_hold e) →
       (stateWritable s e = true → stageCount s e ≤ 48 → Completes (.clrState p e v) s fun t =>
         (∀ g, g < stageCount s e → ∀ i : Fin 4, t.pu48 (R.BORE_STG_X e g i) = 0 ∧ t.pu (R.BORE_STG_Y e g i) = 0) ∧
         t.hid = s.hid ∧ SameMem s t ∧ t.now = s.now) ∧
       (stateWritable s e = false → Completes (.clrState p e v) s (ReportsError p 3 (R.BORE_CTL e) s)))) ∧
   (∀ s p (e : Fin 8) (g : Fin 48) (i : Fin 4) v, Live p s (R.BORE_STG_X e g i) = true →
     (g.val < stageCount s e → stateWritable s e = true → Completes (.boreStateWrite p e g i v) s fun t =>
       t.pu48 (R.BORE_STG_X e g i) = v.toInt ∧
       Frame (fun off => off = R.BORE_STG_X e g i ∨ off = R.BORE_STG_X e g i + 4) s.hid s t) ∧
     (g.val < stageCount s e → stateWritable s e = false → Completes (.boreStateWrite p e g i v) s (Sets [] s.hid s))))

/-! ### The grid block (spec/11) -/

/-- R249, R257, R266–R270, R280, R294, R296, R406: a routed trigger on its way, and `go` in SERVICE or under kind 3, start a
grid step of an idle block with the input slots, the trigger time and the Slide count at it latched; one that comes before
cycle 160 of a step is lost and counted, also where the block is to stop with it, by the trigger kind in force at that step's
start; either elsewhere is ignored; on a Shadow the waiting records are applied first; `init` is taken in STANDBY, HALT and
SERVICE alone; a set-point that lands in cycle 0 of a step is seen by that step, a later one by the next. That a change of
`GRID_TRIG` during a step takes effect at the next one is the model's reading (log entry 129). R267, R268, R270, R273, R276,
R293: at its end a step names its trigger and counts itself, with the step time held to 5 to 100 µs; it publishes the tracker's
frequency, angle and lock of that step; the first step after a start initialises alone. R279, R295: a base in range is taken in
DORMANT and CONFIGURE, and kS follows it with an event where its range acts; any other write of a base is an access error and
changes no base. -/
def Obligations.GridStepsPublishAndBasesScale : Prop :=
  ((∀ s, s.up = true →
     let busy := s.on F.GRID_STAT_busy = true ∨ (0 < (s.hid.grid.endT - s.now).toNat ∧ (s.hid.grid.endT - s.now).toNat ≤ 32)
     let kind := F.GRID_TRIG_kind.get (if busy then s.hid.grid.sel else s.rd R.GRID_TRIG)
     let routed := s.mode ≠ SERVICE ∧ kind ≠ 3
     let runs := gridOn s = true ∧ gridSteps s.mode = true
     let u := gridMirrored s
     let fed := (gridFed s.hid.fing.recs).filter (· < 16)
     let starts := fun (at_ : BitVec 64) (t : State) => t.on F.GRID_STAT_busy = true ∧ t.on F.GRID_CTL_init = false ∧
       t.hid.grid.trig = at_ ∧ t.hid.grid.t0 = s.now ∧ t.hid.grid.sel = s.rd R.GRID_TRIG ∧ t.hid.grid.cyc = BitVec.ofNat 20 (slideCyc s at_) ∧ t.hid.grid.got = 0 ∧ t.hid.grid.run = true ∧
       t.hid.grid.init = (!u.hid.grid.run || u.on F.GRID_CTL_init) ∧
       (∀ j : Fin 16, t.pu (R.GRID_IN j) = sext 36 (BitVec.ofInt 36 (gridSlot u j)).toNat) ∧
       (∀ j, j ∈ fed → bit u.hid.grid.got j = false → t.on F.GRID_EVENT_stale = true) ∧
       (∀ j : Fin 16, gridSlot u j ≠ gridSum u j → t.on F.GRID_EVENT_ovf = true) ∧
       t.hid = { u.hid with grid := t.hid.grid, mppt := t.hid.mppt } ∧ SameMem s t ∧ t.now = s.now
     (s.hid.grid.trigs = [] → Completes .gridTrigger s (Sets [] s.hid s)) ∧
     (∀ ts rest, s.hid.grid.trigs = ts :: rest →
       let taken := { s.hid with grid := { s.hid.grid with trigs := rest } }
       (¬ routed → Completes .gridTrigger s (Sets [] taken s)) ∧
       (routed → busy → Completes .gridTrigger s (Sets [countOne s R.GRID_LOST_CNT, (F.GRID_EVENT_step_lost, 1)] taken s)) ∧
       (routed → ¬ busy → ¬ runs → Completes .gridTrigger s (Sets [] taken s)) ∧
       (routed → ¬ busy → runs → Completes .gridTrigger s fun t => starts ts t ∧ t.hid.grid.trigs = rest)) ∧
     (∀ p v, Live p s R.GRID_CTL = true → v.getLsbD 1 = false →
       (¬ routed → busy → Completes (.gridGo p v) s (Sets [countOne s R.GRID_LOST_CNT, (F.GRID_EVENT_step_lost, 1)] s.hid s)) ∧
       (¬ routed → ¬ busy → runs → Completes (.gridGo p v) s (starts s.now)) ∧
       (routed → Completes (.gridGo p v) s (Sets [] s.hid s))) ∧
     (∀ p v, Live p s R.GRID_CTL = true → v.getLsbD 0 = false → Completes (.gridInit p v) s
       (Sets (if s.mode = STANDBY ∨ s.mode = HALT ∨ s.mode = SERVICE then [(F.GRID_CTL_init, 1)] else []) s.hid s))) ∧
   (∀ s p v off, off ∈ [R.GRID_P_SP, R.GRID_Q_SP, R.GRID_IDN_SP, R.GRID_IQN_SP] → Live p s off = true →
     Live p s (off + 4) = true →
     let n := 2 * (1 + s.f F.CLK_SYS_DIV_ACT_div_grid)
     let inCycle0 := (s.now - s.hid.grid.t0).toNat ≤ (n - s.hid.grid.t0.toNat % n) % n
     Completes (.registerWrite p (BitVec.ofNat 26 off) .b64 v) s fun t => t.pu off = sext 36 v.toNat ∧
       Frame (fun o => o = off ∨ o = off + 4) { s.hid with grid := t.hid.grid } s t ∧
       (s.on F.GRID_STAT_busy = false ∨ ¬ inCycle0 → t.hid = s.hid) ∧
       (s.on F.GRID_STAT_busy = true → inCycle0 → ({ t with regs := t.hid.grid.regs } : State).pu off = sext 36 v.toNat))) ∧
  (∀ s, s.on F.GRID_STAT_busy = true → gridOn s = true → gridSteps s.mode = true →
     let g := s.hid.grid
     let c : State := { s with regs := g.regs }
     let n := max 4000 (min 80000 (g.trig - g.last).toNat)
     let trk := trkStep c n
     let ended := fun t : State => t.on F.GRID_STAT_busy = false ∧ t.rd64 R.GRID_LAST_TS = g.trig ∧ t.hid.grid.last = g.trig ∧
       (t.rd64 R.GRID_STEP_CNT).toNat = min ((s.rd64 R.GRID_STEP_CNT).toNat + 1) (2 ^ 64 - 1) ∧ SameMem s t ∧ t.now = s.now
     (g.init = false → Completes .gridPublish s fun t => ended t ∧ (t.rd R.GRID_TS).toNat = n ∧
       t.on F.GRID_STAT_ts_clip = decide (n ≠ (g.trig - g.last).toNat) ∧ t.on F.GRID_STAT_locked = trk.locked ∧
       t.hid.grid.f = trk.f ∧ t.hid.grid.sogi = trk.sogi ∧ t.rd (R.GRID_Q 0) = trk.thp ∧
       t.pu (R.GRID_Q 2) = narrow36 (ofPu48 trk.f)) ∧
     (g.init = true → Completes .gridPublish s fun t => ended t ∧ t.rd R.GRID_TS = s.rd R.GRID_TS ∧
       t.hid.grid.f = narrow48 (fmPar c R.GRID_FM_F_SET (fLo c) (fHi c)) ∧ t.hid.grid.sogi = [0, 0, 0, 0, 0, 0] ∧
       t.hid.grid.good = 0 ∧ t.hid.grid.bad = 0 ∧ t.on F.GRID_STAT_locked = s.on F.GRID_STAT_locked)) ∧
  (∀ s p (i : Fin 4) v, Live p s (R.GRID_VBASE + 4 * i) = true →
     let off := R.GRID_VBASE + 4 * i.val
     let ok := (s.mode = DORMANT ∨ s.mode = CONFIGURE) ∧
       (if i = 3 then v = 0x42480000#32 ∨ v = 0x42700000#32 else 0 < ieeeQ v ∧ ieeeQ v ≤ 1000000000)
     (ok → Completes (.gridBaseWrite p i v) s fun t => t.rd off = v ∧ t.pu R.GRID_KS = narrow36 (ksOf t).1 ∧
       ((ksOf t).2 = true → t.on F.GRID_EVENT_ks_range = true) ∧
       Frame (fun o => o = off ∨ o = R.GRID_KS ∨ o = R.GRID_KS + 4 ∨ o = R.GRID_EVENT) s.hid s t) ∧
     (¬ ok → Completes (.gridBaseWrite p i v) s (ReportsError p 3 off s)))

/-! ### Maximum power tracking and the Whistle (spec/12) -/

/-- R307, R308, R334: a round of sweeps falls due by command, and in its interval where the mode has grid steps, deferred
outside FOLLOW; at the end of a dwell the sweep goes on to its next point down from VHI, and after the last one keeps the best
point where it gains enough. -/
def Obligations.SweepsFallDueAndStep : Prop :=
  (∀ s, gridOn s = true →
    let fallen := if s.mode = FOLLOW then [] else [(F.MPPT_EVENT_sweep_defer, 1), (F.MPPT_STAT_sweep_due, 1)]
    let due := { s.hid with mppt := { s.hid.mppt with due := true } }
    (∀ p (v : Word), Live p s R.MPPT_CTL = true → Completes (.sweepNow p v) s
      (Sets ([(F.MPPT_CTL_en, v.toNat), (F.MPPT_CTL_sweep_now, 1)] ++ fallen) due s)) ∧
    (s.f F.MPPT_SWEEP_CFG_min ≠ 0 → s.mode ≠ DORMANT → s.mode ≠ CONFIGURE → Completes .sweepDue s (Sets fallen due s)) ∧
    ((s.f F.MPPT_SWEEP_CFG_min = 0 ∨ s.mode = DORMANT ∨ s.mode = CONFIGURE) → Completes .sweepDue s (Sets [] s.hid s))) ∧
  (∀ s (p : Fin 8) rest w, s.hid.mppt.round = p.val :: rest → (portSt s p).sweep = some w →
    let avg := divQ w.sum w.cnt
    let here := (avg, sweepPoint s p w.n)
    let best := match w.best with
      | none => here
      | some b => if b.1 < avg then here else b
    (w.n + 1 < sweepPts s → Completes .sweepDwellEnd s (Sets [] { s.hid with mppt := { s.hid.mppt with
      port := s.hid.mppt.port.put {} p { portSt s p with
        vref := narrow48 (sweepPoint s p (w.n + 1)),
        sweep := some { w with n := w.n + 1, t := 0, sum := 0, cnt := 0, best := some best } } } } s)) ∧
    (sweepPts s ≤ w.n + 1 → rest = [] → Completes .sweepDwellEnd s fun t =>
      let moved := ofPu w.pPre * (1 + s.puQ R.MPPT_SWEEP_GAIN) < ofPu (narrow36 best.1)
      t.pu (R.MPPT_P_BEST_P p) = narrow36 best.1 ∧ t.pu (R.MPPT_P_BEST_V p) = narrow36 best.2 ∧
      (moved → (portSt t p).vref = narrow48 best.2 ∧ t.on F.MPPT_EVENT_sweep_moved = true ∧
        t.rd (R.MPPT_P_MOVES p) = bumped (s.rd (R.MPPT_P_MOVES p))) ∧
      (¬ moved → (portSt t p).vref = w.vPre ∧ t.rd (R.MPPT_P_MOVES p) = s.rd (R.MPPT_P_MOVES p)) ∧
      (portSt t p).sweep = none ∧ t.hid.mppt.round = [] ∧ t.on F.MPPT_EVENT_sweep_done = true ∧
      t.on F.MPPT_STAT_sweeping = false ∧ t.hid = { s.hid with mppt := t.hid.mppt } ∧ SameMem s t ∧ t.now = s.now))

/-- R323, R324: a well-formed CODE frame for this node waits for the next chip boundary, one for another node is ignored; a
PHASE frame arms the phase check under network time; any other frame is counted; the host arms the check in the same way. R326,
R330: relearning invalidates the baseline; an island declaration is cleared, with its causes and the Drone's demand, outside
FOLLOW, FORM and RIDE while no passive criterion holds, and otherwise stays with an access error. -/
def Obligations.WhistleAssignsRelearnsAndClears : Prop :=
  ((∀ s d, gridOn s = true → s.on F.PROBE_ASSIGN_en = true →
     let amp := roundHalfEven ((fw d 4 2 : Rat) / 10000 * 2 ^ 30)
     let bad := [countOne s R.PROBE_BAD_CNT, (F.PROBE_EVENT_assign_bad, 1)]
     (codeFrameOk d = true → fb d 1 = s.f F.PROBE_ASSIGN_node → Completes (.probeCodeFrame d) s
         (Sets [] { s.hid with probe := { s.hid.probe with assign := some (fw d 2 2, amp) } } s)) ∧
     (codeFrameOk d = true → fb d 1 ≠ s.f F.PROBE_ASSIGN_node → Completes (.probeCodeFrame d) s (Sets [] s.hid s)) ∧
     (phaseFrameOk d = true → s.on F.CAN_NT_STAT_nt_sync = true → Completes (.probePhaseFrame d) s fun t =>
       t.rd64 R.PROBE_TAPPLY = BitVec.ofNat 64 (fw d 8 8) ∧ t.on F.PROBE_PHASE_CMD_go = true ∧
       t.f F.PROBE_PHASE_CMD_phase = fw d 2 2 ∧ t.f F.PROBE_PHASE_CMD_relearn = fb d 1 ∧
       Frame (fun o => o = R.PROBE_TAPPLY ∨ o = R.PROBE_TAPPLY + 4 ∨ o = R.PROBE_PHASE_CMD) s.hid s t) ∧
     (phaseFrameOk d = true → s.on F.CAN_NT_STAT_nt_sync = false → Completes (.probePhaseFrame d) s (Sets bad s.hid s)) ∧
     (codeFrameOk d = false → phaseFrameOk d = false → Completes (.probeBadFrame d) s (Sets bad s.hid s))) ∧
   (∀ s d, s.on F.PROBE_ASSIGN_en = false → Completes (.probeBadFrame d) s (Sets [] s.hid s)) ∧
   (∀ s p v, Live p s R.PROBE_PHASE_CMD = true → Completes (.probePhaseCmd p v) s
     (Sets [(wordFld R.PROBE_PHASE_CMD, 2 ^ 31 + v.toNat / 2 ^ 16 % 2 * 2 ^ 16 + v.toNat % 2 ^ 10)] s.hid s))) ∧
  (∀ s p (v : Word), Live p s R.PROBE_CTL = true →
     let q := fun n => s.puQ (R.GRID_Q n)
     let barred := s.mode = FOLLOW ∨ s.mode = FORM ∨ s.mode = RIDE ∨ (passive s (q 2) (q 4) (q 3)).any id = true
     (v.getLsbD 0 = false → Completes (.probeRelearn p v) s
       (Sets [(F.PROBE_STAT_z_valid, 0)] { s.hid with probe := { s.hid.probe with upd := 0 } } s)) ∧
     (v.getLsbD 1 = false → barred → Completes (.clrIsland p v) s (ReportsError p 3 R.PROBE_CTL s)) ∧
     (v.getLsbD 1 = false → ¬ barred → Completes (.clrIsland p v) s fun t => t.on F.PROBE_STAT_island = false ∧
       t.f F.PROBE_ISL_CAUSE_cause = 0 ∧ t.on (liveBit causeIsland) = false ∧ t.hid.drone.island = false ∧
       t.hid.probe = { s.hid.probe with acted := false } ∧ SameMem s t ∧ t.now = s.now))

/-! ### Metering (spec/13) -/

/-- R339, R340, R342, R343, R406: a metered sample of a running point enters its sums with the values of its six channels; the
first sample after a full cycle closes it, and the window after its last cycle publishes the RMS values, its time and its
number; a Shadow's point takes the record that waits for the cycle's close first. R339, R340: a Fine sample with no channel's
value repeats the previous values and counts a gap for each once a later sample of each channel has arrived, and waits until
then; where an index is metered that is not the next, each of those between is metered before it, with its gaps; so does an
interval of the Lean form in which no result falls. -/
def Obligations.MeterSamplesEnterOrCountGaps : Prop :=
  ((∀ s (i : Fin 2) (idx : BitVec 12) (x : List MetVal) (ts : BitVec 64), metRuns s i = true →
     metFine s i = true → s.on F.CLK_SLIDE_CFG_en = true → x.length = 6 → (metSt s i).ix.all (fun b => decide (idx.toNat = (b + 1) % 4096)) = true →
     (∀ j : Fin 6, ∃ a, ((metSt s i).q.get [] j).find? (fun a => a.idx = idx.toNat) = some a ∧
       { v := a.v, bad := a.bad, coast := a.coast } = x.getD j {} ∧ a.ts = ts) →
     Completes (.meterFineSample i idx) s (SampleEnters i ts x (meterMirrored s i))) ∧
   (∀ s (i : Fin 2) (t0 t1 : BitVec 64) (x : List MetVal), metRuns s i = true → metFine s i = false → x.length = 6 →
     intervalDue s i t0 (intervalEnd s t0 t1) = true →
     (∀ j : Fin 6, ∃ a, ((metSt s i).q.get [] j).filter (fun a => t0.toNat ≤ a.ts.toNat ∧ a.ts.toNat < (intervalEnd s t0 t1).toNat) = [a] ∧
       { v := a.v, bad := a.bad, coast := a.coast } = x.getD j {}) →
     Completes (.meterIntervalClose i t0 t1) s (SampleEnters i t0 x (meterMirrored s i)))) ∧
  (∀ s (i : Fin 2), metRuns s i = true → (metSt s i).k < metN s i →
     let gaps := fun t : State =>
       t.rd (R.METER_PT_GAP_CNT i) = bumped (bumped (bumped (bumped (bumped (bumped (s.rd (R.METER_PT_GAP_CNT i))))))) ∧
       t.on (F.METER_PT_EVENT_gap i) = true ∧ (∀ j : Fin 6, (metSt t i).last.getD j {} = (metSt s i).last.getD j {}) ∧
       (metSt t i).k = (metSt s i).k + 1 ∧
       Frame (fun o => o = R.METER_PT_GAP_CNT i ∨ o = R.METER_PT_EVENT i) { s.hid with meter := t.hid.meter } s t
     (∀ idx, metFine s i = true → s.on F.CLK_SLIDE_CFG_en = true →
       (metSt s i).ix.all (fun b => decide ((idx : BitVec 12).toNat = (b + 1) % 4096)) = true →
       (∀ j : Fin 6, ((metSt s i).q.get [] j).find? (fun a => a.idx = idx.toNat) = none) →
       ((∀ j : Fin 6, ((metSt s i).q.get [] j).any (fun a => ixAfter a.idx idx.toNat) = true) →
         Completes (.meterFineSample i idx) s gaps) ∧
       ((∃ j : Fin 6, ((metSt s i).q.get [] j).any (fun a => ixAfter a.idx idx.toNat) = false) →
         Completes (.meterFineSample i idx) s (Sets [] s.hid s))) ∧
     (∀ (idx : BitVec 12) b, (metSt s i).ix = some b → metFine s i = true → s.on F.CLK_SLIDE_CFG_en = true → ixAfter idx.toNat b = true →
       let n := (idx.toNat + 4096 - b) % 4096
       let hits := fun k => (fineHits (metSt s i) ((b + k + 1) % 4096)).length
       (metSt s i).k + n ≤ metN s i →
       (∀ j : Fin 6, ((metSt s i).q.get [] j).any (fun a => decide (a.idx = idx.toNat) || ixAfter a.idx idx.toNat) = true) →
       Completes (.meterFineSample i idx) s fun t => (metSt t i).ix = some idx.toNat ∧ (metSt t i).k = (metSt s i).k + n ∧
         t.rd (R.METER_PT_GAP_CNT i) = bumped^[((List.range n).map fun k => 6 - hits k).sum] (s.rd (R.METER_PT_GAP_CNT i)) ∧
         Frame (fun o => o = R.METER_PT_GAP_CNT i ∨ o = R.METER_PT_EVENT i) { s.hid with meter := t.hid.meter } s t) ∧
     (∀ t0 t1, metFine s i = false → intervalDue s i t0 (intervalEnd s t0 t1) = true →
       (∀ j : Fin 6, ((metSt s i).q.get [] j).filter
         (fun a => t0.toNat ≤ a.ts.toNat ∧ a.ts.toNat < (intervalEnd s t0 t1).toNat) = []) →
       Completes (.meterIntervalClose i t0 t1) s gaps))

/-- R350, R351, R354, R406: a point that stops closes its short cycle: the energy of the mean power of each phase of a
four-wire point, and of all together, goes to the total of its direction, below the no-load power to none with `creep` or the
phase's bit of `creep_ph` set; the point then begins afresh with its fractions kept. A Shadow's point takes the record that
waits first. R355, R356: an accumulator takes a write in DORMANT and CONFIGURE, with its fraction cleared, and in any other
mode answers an access error; a STATUS read of the SKM-6100 window answers the point's flags, latches its image and ends the
window flag. -/
def Obligations.MeterStopsAndAnswers : Prop :=
  (∀ s (i : Fin 2), metRuns s i = true → metAccum s.mode = true → (metSt s i).k ≠ 0 →
     let u := (metMirror i).run s
     let m := metSt u i
     let four := metFour s i
     let ph := fun x : Nat => metK s * m.pc.getD x 0 / m.k
     let p := fun x : Nat => if x < 3 then ph x else if four then ph 0 + ph 1 + ph 2 else ph 0
     let least := fun x : Nat => if x = 3 ∧ four = true then 3 * s.puQ (R.METER_PT_NOLOAD i) else s.puQ (R.METER_PT_NOLOAD i)
     let idle := fun x : Nat => absQ (p x) < least x
     let counts := fun x : Nat => (x = 3 ∨ four = true) ∧ ¬ idle x ∧ p x ≠ 0
     let reg := fun x : Nat => if 0 < p x then 4 + x else x
     let acc := fun k : Nat => (u.rd64 (R.METER_PT_ACC i k)).toNat * 2 ^ 32 + m.frac.get 0 k
     let sum := fun x : Nat => acc (reg x) + (roundHalfEven (absQ (p x) * secs (covered m) * 2 ^ 64)).toNat
     Completes (.meterStop i) s fun t =>
       (∀ x : Fin 4, counts x → t.rd64 (R.METER_PT_ACC i (reg x)) = BitVec.ofNat 64 (sum x / 2 ^ 32) ∧
         (metSt t i).frac.get 0 (reg x) = sum x % 2 ^ 32 ∧ (2 ^ 96 ≤ sum x → t.on (F.METER_PT_EVENT_wrap i) = true)) ∧
       (∀ k : Fin 8, (∀ x : Fin 4, counts x → reg x ≠ k.val) → t.rd64 (R.METER_PT_ACC i k) = u.rd64 (R.METER_PT_ACC i k) ∧
         (metSt t i).frac.get 0 k = m.frac.get 0 k) ∧
       (t.on (F.METER_PT_STAT_creep i) = true ↔ idle 3) ∧
       (∀ x : Fin 3, bit (t.f (F.METER_PT_STAT_creep_ph i)) x = true ↔ four = true ∧ idle x) ∧
       (idle 3 → s.on (F.METER_PT_STAT_creep i) = false → t.on (F.METER_PT_EVENT_creep_on i) = true) ∧
       metSt t i = { frac := (metSt t i).frac, newWin := m.newWin, stopped := true } ∧ metRuns t i = false ∧
       t.hid = { u.hid with meter := t.hid.meter } ∧ SameMem s t ∧ t.now = s.now) ∧
  ((∀ s p (i : Fin 2) (k : Fin 9) v, let off := if k.val = 8 then R.METER_PT_WRAP i else R.METER_PT_ACC i k
     Live p s off = true →
     (metAccum s.mode = true → Completes (.meterAccWrite p i k v) s (ReportsError p 3 off s)) ∧
     (metAccum s.mode = false → Completes (.meterAccWrite p i k v) s fun t => t.rd64 off = v ∧
       (metSt t i) = (if k.val = 8 then metSt s i else { metSt s i with frac := (metSt s i).frac.put 0 k 0 }) ∧
       Frame (fun o => o = off ∨ o = off + 4) { s.hid with meter := t.hid.meter } s t)) ∧
   (∀ s p, Live p s R.COMPAT_STATUS = true → Completes (.compatStatusRead p) s fun t =>
     let i := s.f F.METER_CTL_compat_pt
     t.resp.get {} (portIx p) = { data := [compatStatusWord s i], err := false } ∧ (metSt t i).newWin = false ∧
     (∀ w, w < (compatWords s i).length → t.rd (R.COMPAT w) = (compatWords s i).getD w 0#32) ∧
     t.hid = { s.hid with meter := t.hid.meter } ∧ SameMem s t ∧ t.now = s.now))

/-! ### The Chanter (spec/14) -/

/-- R360, R362, R363, R368, R370, R379: a comparator difference, an uncorrectable SRAM error, an overdue sweep and a debug halt
break lockstep with causes 1 to 4; the first and the third stop the cores; any but the debug halt clears `SYS_SOL`; the debug
halt parks the trailing core and freezes the edge units. R360, R364, R369: a corrected SRAM error is counted with its address;
the scrubber alone changes nothing, which is the model's choice (log entry 60); the end of the self-test shows its segments and
starts the cores with lockstep mended, or fails with cause 5; a restart from a host port with its key runs the self-test in
DORMANT, CONFIGURE, HALT and SERVICE, and else reports an access error. -/
def Obligations.LockstepBreaksAndIsMended : Prop :=
  (∀ s, chntOn s = true →
     (∀ seg : Fin 8, coresRun s = true → s.on F.CHNT_STAT_parked = false → Completes (.lockstepMismatch seg) s fun t =>
       LockstepFails 1 seg s t ∧ t.on F.CHNT_STAT_running = false ∧ t.f F.SYS_SOL_on = 0) ∧
     (∀ addr, Completes (.sramEccError addr true) s fun t =>
       LockstepFails 2 0 s t ∧ t.rd R.CHNT_ECC_ADDR = addr ∧ t.f F.SYS_SOL_on = 0) ∧
     (∀ t0, s.hid.chnt.sweepT = some t0 → sweepLimit s ≤ (s.now - t0).toNat → Completes .sweepOverdue s fun t =>
       LockstepFails 3 0 s t ∧ t.on F.CHNT_STAT_running = false ∧ t.f F.SYS_SOL_on = 0) ∧
     (coresRun s = true → s.on F.CHNT_STAT_debug_halted = false → Completes .debugHalt s fun t =>
       LockstepFails 4 0 s t ∧ t.on F.CHNT_STAT_parked = true ∧ t.on F.CHNT_STAT_debug_halted = true ∧
       t.on F.CHNT_STAT_running = true ∧ t.f F.SYS_SOL_on = s.f F.SYS_SOL_on ∧
       (s.hid.edges.frozen = none → t.hid.edges.frozen = some s.now))) ∧
  ((∀ s addr, chntOn s = true → Completes (.sramEccError addr false) s
     (Sets [(wordFld R.CHNT_ECC_ADDR, (addr : Word).toNat), countOne s R.CHNT_ECC_CNT, (F.CHNT_EVENT_ecc_fix, 1)] s.hid s)) ∧
   (∀ s, Completes .sramScrub s (Sets [] s.hid s)) ∧
   (∀ s pass, chntOn s = true → s.hid.chnt.test = true → Completes (.chntSelftestEnd pass) s fun t =>
     t.f F.CHNT_ST_STAT_seg_pass = (pass : BitVec 8).toNat ∧ t.on F.CHNT_ST_STAT_st_done = true ∧
     t.on F.CHNT_EVENT_selftest_end = true ∧ t.hid.chnt.test = false ∧ SameAside s t ∧
     (pass = 0xFF#8 → t.on F.CHNT_ST_STAT_st_fail = false ∧ t.on F.CHNT_STAT_running = true ∧
       t.on F.CHNT_STAT_lockstep_broken = false ∧ t.on F.SYS_MODE_STAT_lockstep_broken = false ∧ t.hid.chnt.line = false ∧
       t.hid.chnt.sweepT = (if s.hid.chnt.boot && !s.hid.boot.upd then none else some s.now) ∧ t.on (liveBit causeLockstep) = false) ∧
     (pass ≠ 0xFF#8 → t.on F.CHNT_ST_STAT_st_fail = true ∧ t.on F.CHNT_STAT_running = false ∧
       t.on F.CHNT_STAT_lockstep_broken = true ∧ t.hid.chnt.line = true ∧
       (s.on F.CHNT_STAT_lockstep_broken = false → t.f F.CHNT_LS_INFO_cause = 5))) ∧
   (∀ s p v, Live p s R.CHNT_CTL = true →
     ((p : Port) ≠ .fw ∧ (v : Word).extractLsb' 16 16 = 0xC4A7#16 ∧ v.getLsbD 0 = true ∧ s.hid.chnt.test = false ∧
       (s.mode = DORMANT ∨ s.mode = CONFIGURE ∨ s.mode = HALT ∨ s.mode = SERVICE) → Completes (.chntRestart p v) s fun t =>
       t.on F.CHNT_STAT_running = false ∧ t.on F.CHNT_STAT_parked = false ∧ t.on F.CHNT_STAT_debug_halted = false ∧
       t.rd R.CHNT_ST_STAT = s.rd R.CHNT_ST_STAT ∧ t.hid.chnt.test = true ∧ t.hid.chnt.boot = false ∧ t.hid.chnt.sweepT = none ∧
       t.hid.chnt.line = s.hid.chnt.line ∧ SameAside s t) ∧
     (¬ (p ≠ .fw ∧ v.extractLsb' 16 16 = 0xC4A7#16 ∧ v.getLsbD 0 = true ∧ s.hid.chnt.test = false ∧
       (s.mode = DORMANT ∨ s.mode = CONFIGURE ∨ s.mode = HALT ∨ s.mode = SERVICE)) →
       Completes (.chntRestart p v) s (ReportsError p 3 R.CHNT_CTL s))))

/-- R365, R366: a request latches both cores' samples of the groups named; a read answers the value where the samples agree and
four CHNT cycles have passed, else `retry`, and consumes them; SVCKEY takes the value on which both samples agree. That the
registers act for every port that reaches them (log entry 61) and that agreed GPIO levels fall with an agreement of SVCKEY (log
entry 105) is the model's choice. R367, R374: a sweep counts its words; ended with 97 or more it restarts the sweep timer, with
fewer it sets `sweep_short` and leaves the timer; a begin restarts the count (for the firmware port: log entry 61). R359, R372:
a summary that rises is counted up to 255, with `sat` beyond, and one that was high when last seen, that is low or that is
reserved is not; a GPIO source takes the agreed level; after every command only summaries that are high are held as seen high
(log entry 136), so each rising edge counts once; the machine timer interrupt is pending once device time has reached its
compare. R373: a claim answers the pending source of highest `prio`, the lowest number among equals, with its count; it clears
the count and masks the source until its number is written to `CHNT_IRQ_DONE`; a source whose summary is still asserted then is
pending again at once, with count 0; with nothing pending the claim reads 0. That a read or a DONE acts from every port that
reaches the register, where R373 speaks of firmware, is the model's reading (log entry 61). -/
def Obligations.ChanterInputsSweepsAndSourcesCount : Prop :=
  ((∀ s p v a0 b0 a1 b1, Live p s R.CHNT_AGREE_REQ = true → Completes (.agreeReq p v a0 b0 a1 b1) s fun t =>
     t.hid.chnt.agree0 = (if (v : Word).getLsbD 0 then some (a0, b0, s.now) else s.hid.chnt.agree0) ∧
     t.hid.chnt.agree1 = (if v.getLsbD 1 then some (a1 &&& 7#16, b1 &&& 7#16, s.now) else s.hid.chnt.agree1) ∧
     Sets [] (withChnt s { s.hid.chnt with
       agree0 := t.hid.chnt.agree0, agree1 := t.hid.chnt.agree1, gpio := t.hid.chnt.gpio }) s t) ∧
   (∀ s p (g : Fin 2) a b t0, Live p s (R.CHNT_AGREE_VAL g) = true →
     (if g = 0 then s.hid.chnt.agree0 else s.hid.chnt.agree1) = some (a, b, t0) → Completes (.agreeValRead p g) s fun t =>
       t.resp.get {} (portIx p) = { data := [if a = b ∧ (if s.on F.CLK_SYS_DIV_ACT_div_chnt then 10 else 5) ≤ (s.now - t0).toNat
         then a.zeroExtend 32 else 0x80000000#32], err := false } ∧
       t.hid = withChnt s (if g = 0 then { s.hid.chnt with agree0 := none } else { s.hid.chnt with agree1 := none }) ∧
       (∀ off, t.rd off = s.rd off) ∧ SameMem s t ∧ t.now = s.now) ∧
   (∀ s p (g : Fin 2), Live p s (R.CHNT_AGREE_VAL g) = true →
     (if g = 0 then s.hid.chnt.agree0 else s.hid.chnt.agree1) = none → Completes (.agreeValRead p g) s fun t =>
       t.resp.get {} (portIx p) = { data := [0x80000000#32], err := false } ∧ t.hid = s.hid ∧ ∀ off, t.rd off = s.rd off) ∧
   (∀ s a b, chntOn s = true → Completes (.svckeyAgree a b) s fun t =>
     Sets (if a = b then [(F.SYS_MODE_STAT_svckey, b2n a)] else [])
       (withChnt s { s.hid.chnt with gpio := s.hid.chnt.gpio &&& t.hid.chnt.gpio }) s t)) ∧
  (∀ s v, coresRun s = true →
     (Live .fw s R.CHNT_SWEEP_CTL = true →
       ((v : Word).getLsbD 1 = false → Completes (.sweepBegin .fw v) s
         (Sets [(F.CHNT_STAT_sweeping, 1), (F.CHNT_SWEEP_STAT_words, 0)] s.hid s)) ∧
       (v.getLsbD 0 = false → s.on F.CHNT_STAT_sweeping = true → 97 ≤ s.f F.CHNT_SWEEP_STAT_words → Completes (.sweepEnd .fw v) s
         (Sets [(F.CHNT_STAT_sweeping, 0)] (withChnt s { s.hid.chnt with
           sweepT := s.hid.chnt.sweepT.map fun _ => s.now, sweepFrom := some s.now }) s)) ∧
       (v.getLsbD 0 = false → s.on F.CHNT_STAT_sweeping = true → s.f F.CHNT_SWEEP_STAT_words < 97 → Completes (.sweepEnd .fw v) s
         (Sets [(F.CHNT_STAT_sweeping, 0), (F.CHNT_EVENT_sweep_short, 1)] s.hid s))) ∧
     (Live .fw s R.CHNT_SWEEP_DATA = true → s.on F.CHNT_STAT_sweeping = true → Completes (.sweepData .fw v) s
       (Sets [(F.CHNT_SWEEP_STAT_words, min 255 (s.f F.CHNT_SWEEP_STAT_words + 1))] s.hid s))) ∧
  ((∀ s (i : Fin 256), chntOn s = true → ¬ (64 ≤ i.val ∧ i.val < 80) →
     (i.val < 80 → irqSummary s false i = true → bit s.seen i = false → Completes (.irqSourceRise i) s fun t =>
       Sets [(wordFld (R.CHNT_IRQ_CNT i), let w := (s.rd (R.CHNT_IRQ_CNT i)).toNat
         if w % 256 = 255 then w ||| 256 else w + 1)] { s.hid with wake := t.hid.wake } s t ∧ bit t.seen i = true) ∧
     (80 ≤ i.val ∨ irqSummary s false i = false ∨ bit s.seen i = true → Completes (.irqSourceRise i) s (Sets [] s.hid s))) ∧
   (∀ s (i : Fin 256), chntOn s = true → 64 ≤ i.val → i.val < 80 → bit s.seen i = false → Completes (.irqSourceRise i) s fun t =>
     Sets [(wordFld (R.CHNT_IRQ_CNT i), let w := (s.rd (R.CHNT_IRQ_CNT i)).toNat
         if w % 256 = 255 then w ||| 256 else w + 1)]
       { s.hid with wake := t.hid.wake, chnt := { s.hid.chnt with gpio := putBit s.hid.chnt.gpio (i - 64) true } } s t ∧
     bit t.seen i = true) ∧
   (∀ c s t, exec c s = .next t → ∀ n, bit t.seen n = true → summaryAt t n = true) ∧
   (∀ s, chntOn s = true → s.rd64 R.CHNT_MTIMECMP ≤ s.now → Completes .machineTimer s
     (Sets [] { s.hid with chnt := { s.hid.chnt with mtip := true }, wake := { s.hid.wake with wfi := false } } s))) ∧
  ((∀ s p (i : Fin 80), chntOn s = true → Live p s R.CHNT_IRQ_CLAIM = true → irqPending s i = true →
     (∀ j : Fin 80, irqPending s j = true → irqPrio s j < irqPrio s i ∨ irqPrio s j = irqPrio s i ∧ i.val ≤ j.val) →
     Completes (.irqClaim p) s fun t =>
       t.resp.get {} (portIx p) = { data := [BitVec.ofNat 32 (i.val + 2 ^ 8 + (s.rd (R.CHNT_IRQ_CNT i)).toNat % 2 ^ 8 * 2 ^ 16 +
         b2n ((s.rd (R.CHNT_IRQ_CNT i)).getLsbD 8) * 2 ^ 24)], err := false } ∧
       t.rd (R.CHNT_IRQ_CNT i) = 0#32 ∧ irqPending t i = false ∧ bit t.hid.chnt.masked i = true ∧
       (∀ off, off ≠ R.CHNT_IRQ_CNT i → t.rd off = s.rd off) ∧ SameMem s t ∧ t.now = s.now) ∧
   (∀ s (i : Fin 80), bit s.hid.chnt.masked i = true → irqPending s i = false) ∧
   (∀ s p v, Live p s R.CHNT_IRQ_DONE = true → Completes (.irqDone p v) s fun t =>
     bit t.hid.chnt.masked ((v : Word).toNat % 256) = false ∧
     (∀ j : Fin 80, j.val ≠ v.toNat % 256 → irqPending t j = irqPending s j) ∧
     (∀ j : Fin 80, j.val = v.toNat % 256 → irqPending t j = (irqSummary s false j && irqEn s j)) ∧
     Sets [] { s.hid with chnt := { s.hid.chnt with masked := t.hid.chnt.masked }, wake := t.hid.wake } s t) ∧
   (∀ s p, chntOn s = true → Live p s R.CHNT_IRQ_CLAIM = true → (∀ j : Fin 80, irqPending s j = false) →
     Completes (.irqClaim p) s (Answers p [0#32] false s)))

/-! ### The Drone (spec/15) -/

/-- R376, R377, R378, R398: the Drone acts on its sources: as they stand, after a mode packet names the mode, and after the
packets have grown stale. That each command brings a whole Drone cycle is the model's reading (log entry 58). R381, R382, R383:
an enabled input is in demand while either channel is at its demand level or a fault of it is latched; its discrepancy timer
runs while the channels disagree and latches the discrepancy fault at its end; a pulsed channel that stays high through an
off-pulse latches the cross fault. -/
def Obligations.DroneActsOnItsSourcesAndInputs : Prop :=
  (∀ s, droneOn s = true →
     Completes .droneDemand s (DroneActs [] s.hid s) ∧
     (s.up = true → s.on (F.SYS_SEAM_STAT_up 0) = true → Completes .droneModePacket s
       (DroneActs [(F.DRONE_STAT_mode, s.mode), (F.DRONE_STAT_mode_stale, 0)] s.hid s)) ∧
     Completes .modePacketStale s (DroneActs [(F.DRONE_STAT_mode_stale, 1)] s.hid s)) ∧
  ((∀ s (j : Fin 4) b high, droneOn s = true →
     let a' := if b then chanDemand s j false else !high
     let b' := if b then high == antivalent s j else chanDemand s j true
     let disc := s.on (inFld j 4)
     let dem := a' || b' || disc || s.on (inFld j 7)
     (inputOn s j = false → Completes (.safetyInputFiltered j b high) s (DroneActs [(inFld j (b2n b), b2n high)] s.hid s)) ∧
     (inputOn s j = true → Completes (.safetyInputFiltered j b high) s
       (DroneActs ([(inFld j (b2n b), b2n high), (inFld j 2, b2n dem)] ++
           (if a' = b' then [(inFld j 3, 0)] else if disc then [] else [(inFld j 3, 1)]))
         (if dem then s.hid else withDrone s { s.hid.drone with initial := putBit s.hid.drone.initial j false }) s))) ∧
   (∀ s (j : Fin 4), droneOn s = true → s.on (inFld j 3) = true → Completes (.discrepancyTimeout j) s
     (DroneActs [(inFld j 3, 0), (inFld j 4, 1), (bitFld R.DRONE_FAULT (4 + j), 1), (F.SYS_DRONE_EVENT_fault, 1)] s.hid s)) ∧
   (∀ s t1 low, droneOn s = true → Completes (.tpoPulse t1 low) s fun t => SameAside s t ∧ ∀ j : Fin 4,
     let pulsed := inFld j (5 + b2n t1)
     let shorted := s.on pulsed = true ∧ inputOn s j = true ∧ s.on (inFld j (b2n t1)) = true ∧ s.on (inFld j 7) = false
     ((low : BitVec 4).getLsbD j = true → t.on pulsed = true ∧ t.on (inFld j 7) = s.on (inFld j 7)) ∧
     (low.getLsbD j = false → t.on pulsed = s.on pulsed ∧
       (shorted → t.on (inFld j 7) = true ∧ t.on (inFld j 2) = true ∧ t.on (bitFld R.DRONE_FAULT (8 + j)) = true ∧
         t.on F.SYS_DRONE_EVENT_fault = true) ∧
       (¬ shorted → t.on (inFld j 7) = s.on (inFld j 7) ∧ t.on (inFld j 2) = s.on (inFld j 2)))))

/-- R371, R384: an armed watchdog that is not kicked in time faults with kind 2; a kick of the wrong value or inside the closed
window faults with kind 1, one after the open window with kind 2, any other is accepted and only sets the value expected next.
A kick acts from every port that reaches its register, where R371 speaks of firmware: the model's reading (log entry 61). R380,
R385, R386: a parameter recheck that fails, a wrong readback of the forced-off line, and a switch that reads on while it is off
latch their faults; parameters that pass change nothing. -/
def Obligations.WatchdogAndDroneFaultsLatch : Prop :=
  (∀ s, droneOn s = true → s.on F.DRONE_WD_armed = true →
     let faults := fun kind : Nat => if s.on F.DRONE_FAULT_wd then [] else
       [(F.DRONE_FAULT_wd, 1), (F.DRONE_FAULT_wd_kind, kind), (F.SYS_DRONE_EVENT_fault, 1)]
     (s.on F.DRONE_FAULT_wd = false → Completes .wdTimeout s (DroneActs (faults 2) s.hid s)) ∧
     (s.on F.DRONE_FAULT_wd = true → Completes .wdTimeout s (Sets [] s.hid s)) ∧
     ∀ p v us, Live p s R.CHNT_WD_KICK = true → s.on (F.SYS_SEAM_STAT_up 0) = true →
       let closed := (s.rd (R.DRONE_PARAM 4)).toNat % 2 ^ 16
       let opened := (s.rd (R.DRONE_PARAM 4)).toNat / 2 ^ 16
       let next := [(F.DRONE_WD_expect, b2n (decide ((v : Word) = 0x5AC3#32)))]
       let h := withDrone s { s.hid.drone with kicked := true, kickT := s.now }
       let early := v ≠ (if s.on F.DRONE_WD_expect then 0xA53C#32 else 0x5AC3#32) ∨ s.hid.drone.kicked = true ∧ (us : Nat) < closed
       let late := closed + opened ≤ us
       ((s.on F.DRONE_FAULT_wd = true ∨ ¬ early ∧ ¬ late) → Completes (.wdKick p v us) s (Sets next h s)) ∧
       (s.on F.DRONE_FAULT_wd = false → early → Completes (.wdKick p v us) s (DroneActs (next ++ faults 1) h s)) ∧
       (s.on F.DRONE_FAULT_wd = false → ¬ early → late → Completes (.wdKick p v us) s (DroneActs (next ++ faults 2) h s))) ∧
  (∀ s, droneOn s = true →
     (safetyCrcOk s = true → Completes .paramRecheck s (Sets [] s.hid s)) ∧
     (safetyCrcOk s = false → s.on F.DRONE_FAULT_param = false → Completes .paramRecheck s
       (DroneActs [(F.DRONE_FAULT_param, 1), (F.SYS_DRONE_EVENT_fault, 1)] s.hid s)) ∧
     Completes .forcedOffReadback s (DroneActs [(F.DRONE_FAULT_line, 1), (F.SYS_DRONE_EVENT_fault, 1)] s.hid s) ∧
     ∀ (k : Fin 4) sol, (if sol then sohOn s k && !solOn s k else !sohOn s k) = true → Completes (.stuckOutput k sol) s
       (DroneActs [(bitFld R.DRONE_FAULT (12 + k), 1), (F.SYS_DRONE_EVENT_fault, 1)] s.hid s))

/-- R387, R388: a round starts, or waits for the one in progress; each switch in turn is skipped where its output is not
energised, passes, or is stuck; a demand during the pulse ends it inconclusive; the last turn ends the round. A pulse as one
command with what it reads and the demand during it as operands is the model's reading (log entry 58). -/
def Obligations.TestRoundsWalkTheSwitches : Prop :=
  (∀ s, droneOn s = true → accepted s = true →
    (s.on F.DRONE_TP_running = false → Completes .testRoundStart s
      (Sets [(wordFld R.DRONE_TP, 0x100)] (withDrone s { s.hid.drone with roundDue := false }) s)) ∧
    (s.on F.DRONE_TP_running = true → Completes .testRoundStart s
      (Sets [] (withDrone s { s.hid.drone with roundDue := true }) s))) ∧
  (∀ s off on, droneOn s = true → s.on F.DRONE_TP_running = true →
    let i := s.f F.DRONE_TP_next
    let energised := sohOn s (i / 2) && solOn s (i / 2)
    (energised = false → Completes (.testPulse off on false) s
      (Sets ((bitFld R.DRONE_TP (24 + i), 1) :: turnEnds s i) (turnHid s i) s)) ∧
    (energised = true → off = true → on = true → Completes (.testPulse off on false) s
      (Sets ((bitFld R.DRONE_TP (16 + i), 1) :: turnEnds s i) (turnHid s i) s)) ∧
    (energised = true → (off = false ∨ on = false) → Completes (.testPulse off on false) s fun t =>
      t.on F.SYS_DRONE_EVENT_tp_fail = true ∧ t.on F.SYS_DRONE_EVENT_fault = true ∧
      t.on (bitFld R.DRONE_FAULT (12 + i / 2)) = true ∧ t.f F.DRONE_TP_next = (i + 1) % 8 ∧ SameAside s t) ∧
    Completes (.testPulse off on true) s fun t =>
      t.rd R.DRONE_INC_CNT = bumped (s.rd R.DRONE_INC_CNT) ∧ t.on F.SYS_DRONE_EVENT_tp_inconc = true ∧
      (i < 7 → t.on (bitFld R.DRONE_TP (24 + i)) = true) ∧ t.f F.DRONE_TP_next = (i + 1) % 8 ∧ SameAside s t)

/-- R379, R389, R396: SVCKEY's presence and absence show and act; its absence brings HALT cause `svckey` where a source that
was being ignored is active; a firmware write of `SYS_SOL` commands the low-side switches, over a lost link it does not arrive
there (the model's reading, log entry 131); one of a host port is an access error. R390: a reset with a wrong key or from
firmware is an access error with code 1; else each latched fault named is cleared where its condition holds, and the first
condition that fails, inputs before outputs and line before clock monitor, gives the code. Over a lost link the write has no
effect; that code 5 is for bits 11:2 all 0, so that the clear of the counters alone names something, is the model's reading
(log entry 124). -/
def Obligations.DroneCommandsAndResetAreJudged : Prop :=
  (∀ s, droneOn s = true →
     (s.on F.DRONE_STAT_svckey = false → Completes .svckeyPresent s
       (DroneActs [(F.DRONE_STAT_svckey, 1), (F.SYS_DRONE_EVENT_svckey, 1)] s.hid s)) ∧
     (s.on F.DRONE_STAT_svckey = true →
       ((relaxed s && (liveSrc s 0 || liveSrc s 1 || liveSrc s 4)) = false → Completes .svckeyAbsent s
         (DroneActs [(F.DRONE_STAT_svckey, 0), (F.SYS_DRONE_EVENT_svckey, 1)] s.hid s)) ∧
       ((relaxed s && (liveSrc s 0 || liveSrc s 1 || liveSrc s 4)) = true → Completes .svckeyAbsent s fun t =>
         t.on F.DRONE_STAT_svckey = false ∧ t.on F.SYS_DRONE_EVENT_svckey = true ∧ SameAside s t ∧
         (s.up = true → t.on (causeBit causeSvckey) = true ∧ (s.mode ≠ DORMANT → t.mode = HALT)))) ∧
     ∀ p v, Live p s R.SYS_SOL = true →
       (p = Port.fw → Completes (.sysSolWrite p v) s (DroneActs [(F.SYS_SOL_on, (v : Word).toNat % 16)]
         (if s.on (F.SYS_SEAM_STAT_up 0) then withDrone s { s.hid.drone with sol := v.toNat % 16 } else s.hid) s)) ∧
       (p ≠ Port.fw → Completes (.sysSolWrite p v) s (ReportsError p 3 R.SYS_SOL s))) ∧
  (∀ s p v held, Live p s R.SYS_DRONE_RST = true → droneOn s = true →
     let named := (v : Word).toNat / 4 % 1024
     let hit := fun b : Nat => v.getLsbD (if b = 1 then 2 else if b = 3 then 8 else if b < 8 then b else b - 4) &&
       s.on (bitFld R.DRONE_FAULT b)
     let coils := fun k : Nat => !sohOn s k && !bit s.hid.drone.sol k
     let cond := fun b : Nat => if b = 1 then decide (3 ≤ s.hid.drone.monGood)
       else if b = 3 then coils 0 && coils 1 && coils 2 && coils 3 && !energisable s
       else if b < 12 then (held : BitVec 4).getLsbD (b % 4) && chanDemand s (b % 4) false && chanDemand s (b % 4) true
       else coils (b - 12) && !energisable s
     let fails := fun b : Nat => hit b && !cond b
     let inFail := fails 4 || fails 5 || fails 6 || fails 7 || fails 8 || fails 9 || fails 10 || fails 11
     let outFail := fails 12 || fails 13 || fails 14 || fails 15 || fails 3
     let good := (p : Port) ≠ .fw ∧ v.extractLsb' 16 16 = 0xD7E1#16
     (¬ good → Completes (.droneRst p v held) s fun t => t.f F.SYS_DRONE_RSTAT_result = 1 ∧
       ∃ u, Sets [(F.SYS_DRONE_RSTAT_result, 1)] s.hid s u ∧ ReportsError p 3 R.SYS_DRONE_RST u t) ∧
     (good → s.on (F.SYS_SEAM_STAT_up 0) = false → Completes (.droneRst p v held) s (Sets [] s.hid s)) ∧
     (good → s.on (F.SYS_SEAM_STAT_up 0) = true → Completes (.droneRst p v held) s fun t => SameAside s t ∧
       t.f F.SYS_DRONE_RSTAT_result = (if named = 0 then 5 else if inFail then 2 else if outFail then 3 else if fails 1 then 4 else 0) ∧
       (∀ b : Fin 16, (b = 1 ∨ 3 ≤ b.val) → t.on (bitFld R.DRONE_FAULT b) = (s.on (bitFld R.DRONE_FAULT b) && !(hit b && cond b))) ∧
       (v.getLsbD 3 = true → t.rd R.DRONE_ROUND_CNT = 0#32 ∧ t.rd R.DRONE_INC_CNT = 0#32)))

/-! ### The pair (spec/16) -/

/-- R399, R403, R404: a pairing command is refused by the first code that applies, or begins with a fresh random value; while
it runs the device sends its HELLO, in blocks on the lanes that are up, and ends it with code 0x05 when no valid one has come.
One that nothing refuses while an exchange runs ends with a code that the spec does not name (log entry 29). R399, R404: the
peer's pairing HELLO ends the pairing with the first code of its tag, revision, structure, role, mirror load and PEERROLE that
applies, or makes the device what it wanted, under the session key of both random values and fresh counters. -/
def Obligations.PairingIsCheckedAndDecided : Prop :=
  ((∀ s p v, Live p s R.PAIR_CMD = true →
     let want := (v : Word).toNat / 16 % 4
     let code := if s.mode ≠ CONFIGURE ∧ s.mode ≠ STANDBY then 1 else if s.on F.FING_FEAT_pair = false ∨ s.force < 2 then 2
       else if s.f F.PAIR_STAT_lanes = 0 then 3 else if s.role ≠ 0 then 4 else if want ≠ 1 ∧ want ≠ 2 then 9 else 0
     (code ≠ 0 → Completes (.pairCmdPair p v) s (Sets [(F.PAIR_STAT_result, code)] s.hid s)) ∧
     (code = 0 → s.on F.PAIR_STAT_busy = true → Completes (.pairCmdPair p v) s fun t =>
       ∃ c : BitVec 8, Sets [(F.PAIR_STAT_result, c.toNat)] s.hid s t) ∧
     (code = 0 → s.on F.PAIR_STAT_busy = false → Completes (.pairCmdPair p v) s (Sets [(F.PAIR_STAT_busy, 1)]
       (withPair s { s.hid.pair with want := want, rnd := Config.freeRandom s.fresh }) s))) ∧
   (∀ s, pairLink s = true → pairing s = true → Completes .helloSend s (Sets [] (withPair s { s.hid.pair with
     sent := some (none, .hello (helloMsg s) (helloTag s (helloMsg s))),
     wire := onLanes (s.f F.PAIR_STAT_lanes) (frameBlocks s.hid.pair none (.hello (helloMsg s) (helloTag s (helloMsg s)))) }) s)) ∧
   (∀ s, pairOn s = true → pairing s = true → Completes .helloTimeout s (Sets [(F.PAIR_STAT_busy, 0), (F.PAIR_STAT_result, 5)]
     (withPair s { s.hid.pair with want := 0, rnd := 0#256 }) s))) ∧
  (∀ s m tag peer, pairOn s = true → (s.on F.PAIR_STAT_peerrole = true → peer = true) →
     let w := s.hid.pair.want
     let own := helloMsg s
     let code := if tag ≠ helloTag s m then 6 else if m.rev ≠ own.rev then 7 else if m.hash ≠ own.hash then 8
       else if m.want = own.want then 9
       else if (if s.f F.PAIR_STAT_lanes = 3 then 2000 else 1000) < (if w = 1 then own.load else m.load).toNat then 10
       else if w = 1 ∧ (peer : Bool) = true then 11 else 0
     (s.role ≠ 0 → Completes (.hello m (.pairing tag) peer) s
       (Sets [(F.PAIR_STAT_peerrole, b2n peer), countOne s R.PAIR_AUTH_CNT] s.hid s)) ∧
     (s.role = 0 → s.on F.PAIR_STAT_busy = false → Completes (.hello m (.pairing tag) peer) s
       (Sets ((F.PAIR_STAT_peerrole, b2n peer) :: (if tag ≠ helloTag s m then [countOne s R.PAIR_AUTH_CNT] else [])) s.hid s)) ∧
     (s.role = 0 → s.on F.PAIR_STAT_busy = true → code ≠ 0 → Completes (.hello m (.pairing tag) peer) s
       (Sets ((F.PAIR_STAT_peerrole, b2n peer) :: (if code = 6 then [countOne s R.PAIR_AUTH_CNT] else []) ++
         [(F.PAIR_STAT_busy, 0), (F.PAIR_STAT_result, code)]) (withPair s { s.hid.pair with want := 0, rnd := 0#256 }) s)) ∧
     (s.role = 0 → s.on F.PAIR_STAT_busy = true → code = 0 → (w = 1 ∨ w = 2) → (droneOn s = true → roleOk s = true) →
       Completes (.hello m (.pairing tag) peer) s fun t =>
         t.role = w ∧ t.f F.PAIR_STAT_role = w ∧ t.on F.PAIR_STAT_busy = false ∧ t.f F.PAIR_STAT_result = 0 ∧
         t.on F.PAIR_EVENT_done = true ∧ t.hid.pair.key = (if w = 1 then sessionKey s s.hid.pair.rnd m.rnd
           else sessionKey s m.rnd s.hid.pair.rnd) ∧ t.hid.pair.first = decide (w = 1) ∧ t.hid.pair.tx = 1#64 ∧
         t.hid.pair.rx = 0#64 ∧ (droneOn s = true → w = 1 → t.hid.pair.roleHigh = true) ∧ SameAside s t))

/-- R400, R401, R408, R409: unpairing makes a LEADER SOLO, which tells its peer, and a SHADOW SOLO in HALT; a LEADER whose peer
answers hands over with ROLE low, and ends SOLO where it has failed meanwhile; a Leader in failure whose ROLE falls ends SOLO.
That UNPAIR of a SOLO device ends its exchange (log entry 108) and the code where no rule names one (log entry 29) are the
model's choices. -/
def Obligations.UnpairAndHandoverGiveTheRoleUp : Prop :=
  (∀ s p v, Live p s R.PAIR_CMD = true →
    let may := s.role = 2 ∨ s.mode = CONFIGURE ∨ s.mode = STANDBY ∨ s.mode = HALT ∨ s.mode = SERVICE
    let ends := [(F.PAIR_STAT_busy, 0), (F.PAIR_STAT_result, 0), (F.PAIR_EVENT_done, 1)]
    (s.role = 0 → may → Completes (.pairCmdUnpair p v) s
      (Sets ends (withPair s { s.hid.pair with want := 0, rnd := 0#256 }) s)) ∧
    (s.role = 1 → may → Completes (.pairCmdUnpair p v) s fun t => IsSolo t ∧ t.f F.PAIR_STAT_result = 0 ∧
      t.on F.PAIR_EVENT_done = true ∧ (t.mode = s.mode ∨ t.mode = HALT) ∧
      t.hid.pair.sent = some (some s.hid.pair.tx, .unpair { helloMsg s with unpair := true }) ∧
      t.hid.pair.wire = onLanes (s.f F.PAIR_STAT_lanes)
        (frameBlocks s.hid.pair (some s.hid.pair.tx) (.unpair { helloMsg s with unpair := true }))) ∧
    (s.role = 2 → Completes (.pairCmdUnpair p v) s fun t => IsSolo t ∧ t.f F.PAIR_STAT_result = 0 ∧
      t.on F.PAIR_EVENT_done = true ∧ t.on (causeBit causeCmd) = true ∧ (s.mode ≠ DORMANT → t.mode = HALT)) ∧
    (¬ may → Completes (.pairCmdUnpair p v) s fun t => ∃ c : BitVec 8, Sets [(F.PAIR_STAT_result, c.toNat)] s.hid s t) ∧
    (s.role = 1 → s.on F.PAIR_STAT_peer_ok = true →
      (s.mode = FOLLOW ∨ s.mode = FORM ∨ s.mode = RIDE ∨ s.mode = STANDBY) → droneOn s = true →
      (roleOk s = true → Completes (.pairCmdHandover p v) s fun t => t.role = 1 ∧ t.on F.PAIR_STAT_busy = true ∧
        t.hid.pair.handover = true ∧ t.hid.pair.roleHigh = false ∧ t.hid.drone.pair = false ∧
        t.on F.DRONE_STAT_forced_off = true ∧
        t.hid.pair.sent = some (some s.hid.pair.tx, .relinquish s.now) ∧ t.hid.pair.tx = s.hid.pair.tx + 1#64) ∧
      (roleOk s = false → Completes (.pairCmdHandover p v) s IsSolo))) ∧
  (∀ s, droneOn s = true → s.role = 1 →
    (roleOk s = false → (s.hid.pair.roleHigh = true ∨ s.hid.pair.handover = true) → Completes .droneDemand s IsSolo) ∧
    (roleOk s = true → Completes .droneDemand s fun t => t.role = 1 ∧ t.hid.pair.roleHigh = !s.hid.pair.handover))

/-- R125, R401, R404, R405, R406: a session frame whose counter is not above the last accepted one is only counted; a heartbeat
ends a run of misses and gives a SHADOW the Leader's mode, after what a fall of PEERROLE brings; a MIRROR record waits for its
producer, replacing an older one; a Leader queues the record of each step, which replaces one of its producer that has not
left, and what waits leaves, above the load limit a free part of it (the model's choice, log entry 31); every paired device
sends its heartbeats; each frame has the next counter. -/
def Obligations.SessionFramesAreCountedAndTaken : Prop :=
  (∀ s, pairOn s = true → s.on F.PAIR_STAT_peerrole = true → ∀ u, exec .peerroleFall s = .next u →
    ∀ m ctr, exec (.heart m ctr false) s = exec (.heart m ctr false) u) ∧
  (∀ s m ctr peer, pairOn s = true → (s.on F.PAIR_STAT_peerrole = true → peer = true) → s.role ≠ 0 →
    fullCtr s.hid.pair.rx ctr ≤ s.hid.pair.rx.toNat →
    Completes (.heart m ctr peer) s (Sets [(F.PAIR_STAT_peerrole, b2n peer), countOne s R.PAIR_AUTH_CNT] s.hid s)) ∧
  (∀ s m ctr peer, pairOn s = true → (s.on F.PAIR_STAT_peerrole = true → peer = true) → s.role = 2 → s.hid.pair.rx.toNat < fullCtr s.hid.pair.rx ctr → (m : HeartMsg).role = 1#2 →
    s.hid.pair.unable = false → Completes (.heart m ctr peer) s fun t =>
      t.on F.PAIR_STAT_peer_ok = true ∧ t.on F.PAIR_STAT_peerrole = peer ∧ t.hid.pair.misses = 0 ∧
      t.hid.pair.rx = BitVec.ofNat 64 (fullCtr s.hid.pair.rx ctr) ∧ SameAside s t ∧
      let can := if s.hid.pwr.st = .full then m.mode ≠ 0#3 else m.mode ≠ 3#3 ∧ m.mode ≠ 4#3 ∧ m.mode ≠ 5#3
      (can → (t.mode = m.mode.toNat ∨ t.mode = HALT) ∧ (droneOn s = false → t.mode = m.mode.toNat ∧
        t.f F.SYS_MODE_STAT_ride_origin = m.origin.toNat ∧ t.on F.SYS_MODE_STAT_ride_recovered = m.recovered) ∧
        ∀ i : Fin 12, m.causes.getLsbD i = true → t.on (causeBit i) = true) ∧
      (¬ can → t.hid.pair.unable = true ∧ t.on (causeBit causePair) = true ∧ (s.mode ≠ DORMANT → t.mode = HALT))) ∧
  (∀ s ctr kind (ix : Fin 8) step data, pairOn s = true → s.role = 2 → s.hid.pair.unable = false → (kind : Fin 6) ≠ 0 →
    s.hid.pair.rx.toNat < fullCtr s.hid.pair.rx ctr → Completes (.mirror ctr kind ix step data) s
      (Sets [] (withPair s { s.hid.pair with
        rx := BitVec.ofNat 64 (fullCtr s.hid.pair.rx ctr)
        recs := (s.hid.pair.recs.filter fun r => ¬ (r.kind = kind.val ∧ r.ix = ix.val)) ++ [⟨kind, ix, step, data⟩] }) s)) ∧
  (∀ s ctr t0, pairOn s = true → s.role = 2 → s.hid.pair.rx.toNat < fullCtr s.hid.pair.rx ctr → Completes (.relinquish ctr t0) s
    (Sets [] (withPair s { s.hid.pair with rx := BitVec.ofNat 64 (fullCtr s.hid.pair.rx ctr), relinq := some t0 }) s)) ∧
  (∀ s, pairOn s = true → Completes (.pairFrameDiscard false) s (Sets [countOne s R.PAIR_AUTH_CNT] s.hid s)) ∧
  (∀ s, pairOn s = true → pairing s = true → Completes (.pairFrameDiscard true) s (Sets [countOne s R.PAIR_AUTH_CNT,
    (F.PAIR_STAT_busy, 0), (F.PAIR_STAT_result, 6)] (withPair s { s.hid.pair with want := 0, rnd := 0#256 }) s)) ∧
  (∀ s, pairLink s = true → s.role ≠ 0 → Completes .heartSend s (Sets [] (withPair s { s.hid.pair with
    sent := some (some s.hid.pair.tx, .heart (heartMsg s)), tx := s.hid.pair.tx + 1#64,
    wire := onLanes (s.f F.PAIR_STAT_lanes) (frameBlocks s.hid.pair (some s.hid.pair.tx) (.heart (heartMsg s))) }) s)) ∧
  (∀ s kind (ix : Fin 8), pairOn s = true → (kind : Fin 6) ≠ 0 →
    let again := (s.hid.pair.queue.any fun r => r.kind = kind.val ∧ r.ix = ix.val) = true
    let n := s.hid.pair.queue.length + (if again then 0 else 1)
    let slow := mirLimit s < s.f F.PAIR_MIR_LOAD_bytes_us
    (s.role = 1 → s.hid.pair.misses < 3 → s.f F.PAIR_STAT_lanes = 0 → Completes (.mirrorSend kind ix) s fun t =>
      t.hid.pair.queue.length = n ∧ t.hid.pair.tx = s.hid.pair.tx ∧ (∀ off, t.rd off = s.rd off) ∧
      (∀ r, r ∈ t.hid.pair.queue → r.kind = kind.val → r.ix = ix.val → r.data = mirGet kind ix s)) ∧
    (s.role = 1 → s.hid.pair.misses < 3 → s.f F.PAIR_STAT_lanes ≠ 0 → Completes (.mirrorSend kind ix) s fun t =>
      (¬ slow → t.hid.pair.queue = [] ∧ t.hid.pair.tx = s.hid.pair.tx + BitVec.ofNat 64 n) ∧
      (¬ slow → s.hid.pair.queue = [] →
        ∃ k, t.hid.pair.sent = some (some s.hid.pair.tx, .mirror kind ix k (mirGet kind ix s))) ∧
      (slow → t.hid.pair.queue.length ≤ n ∧
        t.hid.pair.tx = s.hid.pair.tx + BitVec.ofNat 64 (n - t.hid.pair.queue.length)) ∧
      (∀ off, off ≠ R.PAIR_EVENT → t.rd off = s.rd off) ∧
      t.on F.PAIR_EVENT_slow = (s.on F.PAIR_EVENT_slow || decide slow)) ∧
    ((s.role ≠ 1 ∨ 3 ≤ s.hid.pair.misses) → Completes (.mirrorSend kind ix) s fun t =>
      Sets [] (withPair s { s.hid.pair with steps := t.hid.pair.steps }) s t))

/-- R402, R403, R407, R408: each miss is counted, and the third one tells a Leader that its peer is lost, a Shadow with
PEERROLE high that its link is, and lets one with PEERROLE low take over, as it does when PEERROLE falls; both ROLE lines high
bring HALT cause `pair` and the Drone's pair-role line; the lanes show. -/
def Obligations.LosingThePeerTakesOver : Prop :=
  (∀ s peer, pairOn s = true → (s.on F.PAIR_STAT_peerrole = true → peer = true) → s.role ≠ 0 →
    let counted := [(F.PAIR_STAT_peerrole, b2n peer), countOne s R.PAIR_HB_CNT]
    let h := withPair s { s.hid.pair with misses := min 4 (s.hid.pair.misses + 1) }
    (s.hid.pair.misses ≠ 2 → Completes (.heartbeatMiss peer) s (Sets counted h s)) ∧
    (s.hid.pair.misses = 2 → s.role = 1 → Completes (.heartbeatMiss peer) s
      (Sets (counted ++ [(F.PAIR_STAT_peer_ok, 0), (F.PAIR_EVENT_peer_lost, 1)])
        (withPair s { s.hid.pair with misses := 3, queue := [] }) s)) ∧
    (s.hid.pair.misses = 2 → s.role ≠ 1 → peer = true → Completes (.heartbeatMiss peer) s
      (Sets (counted ++ [(F.PAIR_STAT_peer_ok, 0), (F.PAIR_EVENT_link_lost, 1)]) h s)) ∧
    (s.hid.pair.misses = 2 → s.role = 2 → peer = false → (droneOn s = true → roleOk s = true) → Completes (.heartbeatMiss peer) s
      fun t => TakesOver s t ∧ t.rd R.PAIR_HB_CNT = bumped (s.rd R.PAIR_HB_CNT) ∧ SameAside s t)) ∧
  (∀ s, pairOn s = true →
    (pairing s = true → Completes .peerroleFall s fun t => t.on F.PAIR_STAT_peerrole = false ∧ t.on F.PAIR_STAT_busy = false ∧
      t.f F.PAIR_STAT_result = 5 ∧ t.role = 0 ∧ SameAside s t) ∧
    (s.role = 2 → (droneOn s = true → roleOk s = true) → Completes .peerroleFall s fun t =>
      TakesOver s t ∧ t.on F.PAIR_STAT_peerrole = false ∧ (droneOn s = true → t.hid.pair.roleHigh = true)) ∧
    (s.hid.pair.roleHigh = true → Completes .roleConflict s fun t => t.on F.PAIR_STAT_peerrole = true ∧
      t.on (causeBit causePair) = true ∧ (s.mode ≠ DORMANT → t.mode = HALT) ∧ (t.role = s.role → t.hid.drone.pair = true)) ∧
    ∀ a b, Completes (.fjoskLaneChange a b) s
      (Sets [(F.PAIR_STAT_lanes, b2n a + 2 * b2n b), (F.PAIR_STAT_degraded, b2n (a != b))] s.hid s))

/-! ### CAN FD and network time (spec/17) -/

/-- R412, R420, R421, R422, R429: an enable with good timing starts integration with TEC and REC 0, one with bad timing is
refused with code 3 and listen-only on CAN0 to CAN2 with code 1; a disable ends in state 0 once no frame is under way, with
mailboxes, FIFO and counters kept; a sleep request is refused on CAN3 and with wake mode 2 in standby; `recover` starts the
recovery from bus-off. That the bit reads 1 until the recovery ends or the next enable, and that whether a disable or a sleep
request finds a frame being received is free, are the model's choices: log entries 110, 111. R411, R419, R420, R422, R423: an
error shows, leaves what is pending pending and counts for the sender in TEC by multiples of 8, for a receiver in REC, as far
as ISO 11898-1 leaves it open by its operands (log entry 55), and moves a controller that may drive the bus between
error-active, error-passive and bus-off; recovery ends with the counters at 0; a protocol exception counts nothing; a sleeping
controller wakes by a level held for `filt`, by the frame or by the write its mode allows, and integration ends in the error
state of its counters. After a protocol exception the controller integrates again. -/
def Obligations.CanControlAndErrorsMoveTheState : Prop :=
  (∀ s p (k : Fin 4) v, Live p s (R.CAN_CTL k) = true →
     let c := canSt s k
     let listens := k ≠ 3 ∧ (v : Word).toNat / 2 % 4 = 1
     let frame := CanFrame k (fun off => off = R.CAN_CTL k ∨ off = R.CAN_STAT k ∨ off = R.CAN_ERR k) s
     (s.on (F.CAN_CTL_en k) = false → v.getLsbD 3 = false → c.cur = none → canState s k = 0 →
       (listens → Completes (.canEnable p k v) s fun t => t.f (F.CAN_STAT_result k) = 1 ∧ t.on (F.CAN_CTL_en k) = false ∧
         t.f (F.CAN_CTL_mode k) = s.f (F.CAN_CTL_mode k) ∧ canState t k = 0 ∧ frame t) ∧
       (¬ listens → timingOk s k = false → Completes (.canEnable p k v) s fun t => t.f (F.CAN_STAT_result k) = 3 ∧
         t.on (F.CAN_CTL_en k) = false ∧ canState t k = 0 ∧ frame t) ∧
       (¬ listens → timingOk s k = true → Completes (.canEnable p k v) s fun t => t.f (F.CAN_STAT_result k) = 0 ∧
         t.on (F.CAN_CTL_en k) = true ∧ canState t k = 1 ∧ t.f (F.CAN_ERR_tec k) = 0 ∧ t.f (F.CAN_ERR_rec k) = 0 ∧
         (canSt t k).nbt = s.rd (R.CAN_NBT k) ∧ (canSt t k).dbt = s.rd (R.CAN_DBT k) ∧
         (canSt t k).listen = decide (k = 3 ∧ v.toNat / 2 % 4 = 1) ∧ (canSt t k).fifo = c.fifo ∧ t.on (F.CAN_CTL_recover k) = false ∧
         frame t)) ∧
     (v.getLsbD 3 = false → canState s k ≠ 5 → Completes (.canDisable p k v) s fun t => t.on (F.CAN_CTL_en k) = false ∧
       (c.cur = none → c.rx = false → (canActive s k = false ∨ s.on (F.CAN_CTL_en k) = false) → canState t k = 0) ∧
       (c.cur = none → canState t k = 0 ∧ (canSt t k).rx = false ∨ canState t k = canState s k ∧ (canSt t k).rx = true) ∧
       (c.cur ≠ none → canState t k = canState s k) ∧ (canSt t k).fifo = c.fifo ∧
       t.rd (R.CAN_ERR k) = s.rd (R.CAN_ERR k) ∧ frame t) ∧
     (s.on (F.CAN_CTL_en k) = true → v.getLsbD 0 = true → ¬ listens → c.wakeT.map (·.toNat / 10) ≠ some (s.now.toNat / 10) → (canState s k = 2 ∨ canState s k = 3) →
       (k = 3 → Completes (.canSleep p k v) s fun t => t.f (F.CAN_STAT_result k) = 2 ∧ (c.sleepReq = false → canState t k = canState s k) ∧
         frame t) ∧
       (k ≠ 3 → v.toNat / 32 % 4 = 2 → v.getLsbD 4 = true → Completes (.canSleep p k v) s fun t => t.f (F.CAN_STAT_result k) = 4 ∧
         (c.sleepReq = false → canState t k = canState s k) ∧ frame t) ∧
       (k ≠ 3 → ¬ (v.toNat / 32 % 4 = 2 ∧ v.getLsbD 4 = true) → Completes (.canSleep p k v) s fun t =>
         t.f (F.CAN_STAT_result k) = 0 ∧ frame t ∧
         (c.cur = none → canState t k = 5 ∧ (canSt t k).stb = v.getLsbD 4 ∧ (canSt t k).rx = false ∨
           canState t k = canState s k ∧ (canSt t k).sleepReq = true ∧ (canSt t k).rx = true) ∧
         (c.cur ≠ none → canState t k = canState s k ∧ (canSt t k).sleepReq = true))) ∧
     (s.on (F.CAN_CTL_en k) = true → v.getLsbD 0 = true → v.getLsbD 3 = false → canState s k = 4 →
       Completes (.busOffRecover p k v) s fun t => (canSt t k).recovering = true ∧ canState t k = 4 ∧
         t.on (F.CAN_CTL_recover k) = true ∧ frame t)) ∧
  ((∀ s (k : Fin 4) e tec rec data, canActive s k = true → s.on (F.CAN_CTL_en k) = true → (canSt s k).sleepReq = false →
     let frame := CanFrame k (fun off => off = R.CAN_STAT k ∨ off = R.CAN_EVENT k ∨ off = R.CAN_ERR k ∨ off = R.CAN_DATA_BITERR k ∨
       off = R.CAN_TDC k) s
     let sends := (canSt s k).cur.isSome
     let T := if sends then tecNext (s.f (F.CAN_ERR_tec k)) (canState s k = 3) e data (tec : BitVec 9).toNat else s.f (F.CAN_ERR_tec k)
     let C := if sends then s.f (F.CAN_ERR_rec k) else recNext (s.f (F.CAN_ERR_rec k)) e (rec : BitVec 8).toNat
     (sends → (T - s.f (F.CAN_ERR_tec k)) % 8 = 0 ∧ s.f (F.CAN_ERR_tec k) ≤ T ∧
       (e ≠ .ack → (e ≠ .stuff ∨ data = true) → s.f (F.CAN_ERR_tec k) + 8 ≤ T)) ∧
     (sends = false → s.f (F.CAN_ERR_rec k) < C ∨ C = 255) ∧
     (e = .res → s.on (F.CAN_CTL_pex_dis k) = false → Completes (.canError k e tec rec data) s fun t =>
       t.on (F.CAN_EVENT_pex k) = true ∧ (canSt t k).cur = none ∧ canState t k = 1 ∧ t.rd (R.CAN_ERR k) = s.rd (R.CAN_ERR k) ∧ frame t) ∧
     (¬ (e = .res ∧ s.on (F.CAN_CTL_pex_dis k) = false) → Completes (.canError k e tec rec data) s fun t =>
       t.f (F.CAN_ERR_last k) = faultCode e ∧ (canSt t k).cur = none ∧ t.on (F.CAN_STAT_tx_busy k) = false ∧ frame t ∧
       ((data : Bool) = true → (canSt s k).cur ≠ none → (e = .bitRec ∨ e = .bitDom) →
         t.rd (R.CAN_DATA_BITERR k) = bumped (s.rd (R.CAN_DATA_BITERR k)) ∧ t.on (F.CAN_EVENT_data_biterr k) = true) ∧
       ((canSt s k).listen = true → t.f (F.CAN_ERR_tec k) = s.f (F.CAN_ERR_tec k) ∧ t.f (F.CAN_ERR_rec k) = s.f (F.CAN_ERR_rec k)) ∧
       ((canSt s k).listen = false → t.f (F.CAN_ERR_tec k) = min 255 T ∧ t.f (F.CAN_ERR_rec k) = C ∧
         canState t k = (if 255 < T then 4 else if 128 ≤ T ∨ 128 ≤ C then 3 else 2) ∧
         (255 < T → t.on (F.CAN_EVENT_bus_off k) = true ∧ (canSt t k).recovering = s.on (F.CAN_CTL_boff_auto k)) ∧
         (s.f (F.CAN_ERR_tec k) < 128 → s.f (F.CAN_ERR_rec k) < 128 → (128 ≤ T ∨ 128 ≤ C) →
           t.on (F.CAN_EVENT_err_passive k) = true) ∧
         (s.f (F.CAN_ERR_tec k) < 96 → s.f (F.CAN_ERR_rec k) < 96 → (96 ≤ T ∨ 96 ≤ C) →
           t.on (F.CAN_EVENT_err_warn k) = true)))) ∧
   (∀ s (k : Fin 4), canOn s = true → canState s k = 4 → (canSt s k).recovering = true → canFree s k →
     Completes (.busOffRecoveryDone k) s (Sets [(F.CAN_ERR_tec k, 0), (F.CAN_ERR_rec k, 0), (F.CAN_STAT_state k, 2), (F.CAN_EVENT_bus_on k, 1),
         (F.CAN_CTL_recover k, 0)]
       (withCan s k { canSt s k with recovering := false }) s)) ∧
   (∀ s (k : Fin 4), canOn s = true → canState s k = 1 → canFree s k →
     Completes (.busIntegrationComplete k) s (Sets [(F.CAN_STAT_state k,
       if 128 ≤ s.f (F.CAN_ERR_tec k) ∨ 128 ≤ s.f (F.CAN_ERR_rec k) then 3 else 2)] s.hid s)) ∧
   (∀ s (k : Fin 4), canOn s = true → canState s k = 5 →
     let wakes := fun t : State => canState t k = 1 ∧ t.on (F.CAN_EVENT_wake k) = true ∧ (canSt t k).stb = false ∧
       (canSt t k).wakeT = some s.now ∧ (canSt t k).sleepReq = false ∧ (s.on (F.CAN_CTL_wake_cpu k) = true →
         t.hid.wake = { wfi := false, waken := s.hid.wake.waken || pcieHost s, event := true }) ∧ (s.on (F.CAN_CTL_wake_cpu k) = false → t.hid.wake = s.hid.wake) ∧
       KeepRegs (fun off => off = R.CAN_STAT k ∨ off = R.CAN_EVENT k) s t
     let mode := s.f (F.CAN_CTL_wake_mode k)
     let held := fun us : BitVec 16 => mode = 1 ∧ max 1 (s.f (F.CAN_WAKE_CFG_filt k)) ≤ us.toNat
     (∀ us, held us → Completes (.canWake k (.level us)) s wakes) ∧
     (∀ us, ¬ held us → Completes (.canWake k (.level us)) s (Sets [] s.hid s)) ∧
     (∀ m good, mode = 2 → (good = false ∨ m.brs = true) → Completes (.canWake k (.frame m good)) s
       (Sets [countOne s (R.CAN_WAKE_MISS k)] s.hid s)) ∧
     (∀ m good, mode = 2 → good = true → m.brs = false → wakeFrame s k m = true → Completes (.canWake k (.frame m good)) s wakes) ∧
     (∀ m good, mode = 2 → good = true → m.brs = false → wakeFrame s k m = false → Completes (.canWake k (.frame m good)) s (Sets [] s.hid s)) ∧
     (∀ p v, Live p s (R.CAN_CTL k) = true → s.on (F.CAN_CTL_en k) = true → (v : Word).getLsbD 0 = true → (canSt s k).cur = none →
       Completes (.canWake k (.write p v)) s fun t => canState t k = 1 ∧ (canSt t k).stb = false ∧ t.on (bitFld (R.CAN_CTL k) 3) = false)))

/-- R413, R414, R415, R420: a received frame goes with its time to the first unlocked mailbox that matches; one that finds only
locked ones sets `lost` in the first; the FIFO then takes it where its filter accepts, loses it where full, and any other is
counted as dropped; a pop removes the oldest frame; `new` unlocks a mailbox, and a write to a pending one is an access error.
-/
def Obligations.CanFramesAreRouted : Prop :=
  (∀ s (k : Fin 4) m sof, canActive s k = true → canFree s k →
    let q := (canSt s k).fifo
    let fits := fifoPasses s k m
    let lost := fun b : Fin 64 => mbMatches s k b m = true ∧ ∀ c : Fin 64, c < b → mbMatches s k c m = false
    let plain := ¬ (s.f F.CAN_NT_CFG_ctrl = k ∧ refGood s m = true) ∧ ¬ probeMsg s k m
    let base := fun off => off = R.CAN_EVENT k ∨ off = R.CAN_ERR k ∨ off = R.CAN_STAT k
    (∀ b : Fin 64, mbTakes s k b m = true → (∀ c : Fin 64, c < b → mbTakes s k c m = false) →
      Completes (.canFrameRx k m sof) s fun t => t.on (F.CAN_MB_CFG_new k b) = true ∧ t.rd64 (R.CAN_MB_TS k b) = sof ∧
        t.f (F.CAN_MB_ID_id k b) = m.id.toNat ∧ t.on (F.CAN_MB_ID_ide k b) = m.ide ∧
        t.rd (R.CAN_MB_CFG k b) = frameCfg m (s.rd (R.CAN_MB_CFG k b)) ||| 0x20000#32 ∧
        (m.rtr = false → ∀ i : Fin 64, i.val < (msgBytes m).length →
          (t.rd (R.CAN_MB_DATA k b (i / 4))).extractLsb' (8 * (i % 4)) 8 = (msgBytes m).getD i 0#8) ∧
        t.on (F.CAN_EVENT_rx k) = true ∧ (canSt t k).fifo = q ∧
        (plain → CanFrame k (fun off => base off ∨ mbWord k b off) s t)) ∧
    ((∀ b : Fin 64, mbTakes s k b m = false) →
      (fits = true → q.length < 32 → Completes (.canFrameRx k m sof) s fun t => (canSt t k).fifo = q ++ [(m, sof)] ∧
        t.f (F.CAN_STAT_fifo_lvl k) = q.length + 1 ∧ (q = [] → t.on (F.CAN_EVENT_fifo k) = true) ∧
        (∀ b, lost b → t.on (F.CAN_MB_CFG_lost k b) = true)) ∧
      (fits = true → 32 ≤ q.length → Completes (.canFrameRx k m sof) s fun t => (canSt t k).fifo = q ∧
        t.rd (R.CAN_RXF_OVR k) = bumped (s.rd (R.CAN_RXF_OVR k)) ∧ t.on (F.CAN_EVENT_fifo_ovr k) = true ∧
        (∀ b, lost b → t.on (F.CAN_MB_CFG_lost k b) = true)) ∧
      (fits = false → Completes (.canFrameRx k m sof) s fun t => (canSt t k).fifo = q ∧
        t.rd (R.CAN_RX_DROP k) = bumped (s.rd (R.CAN_RX_DROP k)) ∧ (∀ b, lost b → t.on (F.CAN_MB_CFG_lost k b) = true)))) ∧
  (∀ s p (k : Fin 4) v, Live p s (R.CAN_RXF_POP k) = true → Completes (.rxfPop p k v) s fun t =>
    (canSt t k).fifo = (canSt s k).fifo.tail ∧ t.rd64 (R.CAN_HEAD_TS k) = (((canSt s k).fifo.tail.head?).map (·.2)).getD 0#64 ∧
    ((canSt s k).fifo.length ≤ 32 → t.f (F.CAN_STAT_fifo_lvl k) = (canSt s k).fifo.length - 1) ∧
    CanFrame k (fun off => off = R.CAN_STAT k ∨ headWord k off) s t) ∧
  (∀ s p (k : Fin 4) (b : Fin 64) v, Live p s (R.CAN_MB_CFG k b) = true →
    (s.on (F.CAN_MB_CFG_pend k b) = true → Completes (.mbNewClear p k b v) s (ReportsError p 3 (R.CAN_MB_CFG k b) s)) ∧
    (s.on (F.CAN_MB_CFG_pend k b) = false → Completes (.mbNewClear p k b v) s fun t => t.on (F.CAN_MB_CFG_new k b) = false ∧
      Frame (fun off => off = R.CAN_MB_CFG k b) s.hid s t))

/-- R416, R417, R418: a request makes the transmit mailboxes named pending and is refused with code 7 for any other; the frame
that wins arbitration starts, the lower mailbox among equals; a success clears `pend`, sets `done` and stamps the mailbox; a
cancel takes the mailboxes that allow it, and answers the first refusal. A pending reference frame of network time takes part
on its controller, after a mailbox of the same rank; a request to sleep that waits takes effect before a new start. The choice
before every start of frame and that the first refused mailbox is the lowest are the model's readings: log entries 55, 127. -/
def Obligations.CanTransmitsByArbitration : Prop :=
  (∀ s p (k : Fin 4) hi v, Live p s (if hi then R.CAN_TXRQ_HI k else R.CAN_TXRQ_LO k) = true →
    let mb := fun i : Fin 32 => i.val + 32 * b2n hi
    Completes (.canTxrq p k hi v) s fun t =>
      (∀ i, t.on (F.CAN_MB_CFG_pend k (mb i)) = (s.on (F.CAN_MB_CFG_pend k (mb i)) ||
        (v : Word).getLsbD i && decide (s.f (F.CAN_MB_CFG_dir k (mb i)) = 1))) ∧
      t.f (F.CAN_STAT_result k) = (if (List.finRange 32).any fun i => v.getLsbD i && decide (s.f (F.CAN_MB_CFG_dir k (mb i)) ≠ 1)
        then 7 else 0) ∧
      Frame (fun off => off = R.CAN_STAT k ∨ ∃ i : Fin 32, off = R.CAN_MB_CFG k (mb i)) s.hid s t) ∧
  (∀ s (k : Fin 4), canOn s = true → canActive s k = true → (canSt s k).cur = none → s.on (F.CAN_CTL_en k) = true →
    (canSt s k).listen = false →
    let pend := fun b : Fin 64 => s.on (F.CAN_MB_CFG_pend k b)
    let rank := fun b : Fin 64 => arbRank (s.on (F.CAN_MB_ID_ide k b)) (s.f (F.CAN_MB_ID_id k b))
    let refs := s.f F.CAN_NT_CFG_ctrl = k
    let starts := fun x t => Sets [(F.CAN_STAT_tx_busy k, 1)] (withCan s k { canSt s k with cur := some (x, s.now), rx := false }) s t
    let waits := fun b => pend b = true ∧ ∀ c, pend c = true → rank b < rank c ∨ rank b = rank c ∧ b ≤ c
    ((∀ b, pend b = false) → (refs → s.hid.nt.ref = none) → Completes (.canTxStart k) s (Sets [] s.hid s)) ∧
    ((canSt s k).sleepReq = false →
      (∀ b, waits b → (refs → ∀ m, s.hid.nt.ref = some m → rank b ≤ arbRank m.ide m.id.toNat) →
        Completes (.canTxStart k) s (starts (.mb b))) ∧
      (refs → ∀ m, s.hid.nt.ref = some m → (∀ c, pend c = true → arbRank m.ide m.id.toNat < rank c) →
        Completes (.canTxStart k) s (starts (.ref m)))) ∧
    ((canSt s k).sleepReq = true → (∃ b, pend b = true) → Completes (.canTxStart k) s
      (Sets [(F.CAN_STAT_tx_busy k, 0), (F.CAN_STAT_state k, 5)]
        (withCan s k { canSt s k with rx := false, sleepReq := false, stb := s.on (F.CAN_CTL_stb_sleep k) }) s))) ∧
  (∀ s (k : Fin 4) delay, s.on (F.CAN_CTL_en k) = true → (canSt s k).sleepReq = false →
    (∀ (b : Fin 64) t0, (canSt s k).cur = some (.mb b, t0) → Completes (.canTxDone k delay) s fun t =>
      t.on (F.CAN_MB_CFG_pend k b) = false ∧ t.on (F.CAN_MB_CFG_done k b) = true ∧ t.rd64 (R.CAN_MB_TS k b) = t0 ∧
      t.on (F.CAN_EVENT_tx_done k) = true ∧ t.on (F.CAN_STAT_tx_busy k) = false ∧
      t.f (F.CAN_ERR_tec k) = s.f (F.CAN_ERR_tec k) - 1 ∧ (canSt t k) = { canSt s k with cur := none, rx := false } ∧
      t.f (F.CAN_TDC_meas k) = (if s.on (F.CAN_MB_CFG_fdf k b) && s.on (F.CAN_TDC_en k) then delay.toNat else s.f (F.CAN_TDC_meas k)) ∧
      CanFrame k (fun off => mbWord k b off ∨ off = R.CAN_EVENT k ∨ off = R.CAN_STAT k ∨ off = R.CAN_ERR k ∨ off = R.CAN_TDC k) s t) ∧
    (∀ q t0, (canSt s k).cur = some (.ref q, t0) → Completes (.canTxDone k delay) s fun t =>
      t.hid.nt.sof = some (refSeq q, ntAt s t0) ∧ t.f F.CAN_NT_STAT_seq = refSeq q ∧
      (s.hid.nt.ref = some q → t.hid.nt.ref = none) ∧ (canSt t k).cur = none ∧ t.on (F.CAN_STAT_tx_busy k) = false)) ∧
  (∀ s p (k : Fin 4) hi v, Live p s (if hi then R.CAN_CANCEL_HI k else R.CAN_CANCEL_LO k) = true →
    let mb := fun i : Fin 32 => i.val + 32 * b2n hi
    let code : Fin 32 → Nat := fun i => if s.on (F.CAN_MB_CFG_retry k (mb i)) then
        (if canState s k = 4 ∨ s.on (F.CAN_CTL_en k) = false then 0 else 6)
      else if (canSt s k).cur.map (·.1) = some (.mb (mb i)) then 5 else 0
    let hit := fun i : Fin 32 => (v : Word).getLsbD i && s.on (F.CAN_MB_CFG_pend k (mb i))
    Completes (.canCancel p k hi v) s fun t =>
      (∀ i, t.on (F.CAN_MB_CFG_pend k (mb i)) = (s.on (F.CAN_MB_CFG_pend k (mb i)) && !(hit i && decide (code i = 0)))) ∧
      ((∃ i, hit i = true ∧ code i = 0) → t.on (F.CAN_EVENT_tx_cancel k) = true) ∧
      (∀ i, hit i = true → code i ≠ 0 → (∀ j, j < i → hit j = true → code j = 0) → t.f (F.CAN_STAT_result k) = code i) ∧
      ((∀ i, hit i = true → code i = 0) → t.f (F.CAN_STAT_result k) = 0) ∧
      Frame (fun off => off = R.CAN_STAT k ∨ off = R.CAN_EVENT k ∨ ∃ i : Fin 32, off = R.CAN_MB_CFG k (mb i)) s.hid s t)

/-- R418, whole: a 32-bit write to a `_CFG`, `_ID`, `_MASK` or `_DATA` word of a mailbox whose `pend` reads 1 is discarded with
an access error, by any of its commands; a request for a mailbox that is not a transmit mailbox is refused with code 7. -/
def Obligations.PendingMailboxesRefuseWritesAndRequests : Prop :=
  (∀ s p (k : Fin 4) (b : Fin 64) off (v : BitVec 64), s.on (F.CAN_MB_CFG_pend k b) = true →
    (off = R.CAN_MB_CFG k b ∨ off = R.CAN_MB_ID k b ∨ off = R.CAN_MB_MASK k b ∨ ∃ w : Fin 16, off = R.CAN_MB_DATA k b w) →
    Live p s off = true → Completes (.registerWrite p (BitVec.ofNat 26 off) .b32 v) s (ReportsError p 3 off s)) ∧
  (∀ s p (k : Fin 4) (b : Fin 64) v, s.on (F.CAN_MB_CFG_pend k b) = true → Live p s (R.CAN_MB_CFG k b) = true →
    Completes (.mbNewClear p k b v) s (ReportsError p 3 (R.CAN_MB_CFG k b) s)) ∧
  (∀ s p (k : Fin 4) hi v (i : Fin 32), Live p s (if hi then R.CAN_TXRQ_HI k else R.CAN_TXRQ_LO k) = true →
    (v : Word).getLsbD i = true → s.f (F.CAN_MB_CFG_dir k (i.val + 32 * b2n hi)) ≠ 1 →
    Completes (.canTxrq p k hi v) s fun t => t.f (F.CAN_STAT_result k) = 7 ∧
      t.rd (R.CAN_MB_CFG k (i.val + 32 * b2n hi)) = s.rd (R.CAN_MB_CFG k (i.val + 32 * b2n hi)))

/-- R424, R425, R426, R430: a role takes effect at its write, but a master is refused with code 8 on a listen-only, disabled or
sleeping controller; a master's reference frame carries its sequence and the time of the frame before it, where that one was
sent; a write of `CAN_NT_SET` steps a master and is an access error elsewhere; a master that hears another yields; the wrap is
counted. R425, R427: a slave pairs each good reference frame that follows the last one and carries its time: the first pair,
one in state 0 or 3, one after a step of the master and one beyond `step_ns` step the counter; any other corrects the rate
within 200 ppm and slews; four pairs in a row within `lock_ns` lock, one beyond unlocks; without pairs holdover keeps the rate.
The interval and the offset of a pair, the local time that is held and the rate in units of 2⁻³² ns are the model's readings:
log entries 56, 57. -/
def Obligations.NetworkTimeMasterAndSlaveKeepTime : Prop :=
  ((∀ s p v, Live p s R.CAN_NT_CFG = true →
     let role := (v : Word).toNat % 4
     let k := v.toNat / 4 % 4
     let bad := role = 2 ∧ ((canSt s k).listen = true ∨ s.on (F.CAN_CTL_en k) = false ∨ canState s k = 5)
     (bad → Completes (.ntCfgWrite p v) s (Sets [(F.CAN_NT_STAT_result, 8)] s.hid s)) ∧
     (¬ bad → Completes (.ntCfgWrite p v) s fun t => t.rd R.CAN_NT_CFG = v &&& 0x1F#32 ∧ t.f F.CAN_NT_STAT_result = 0 ∧
       t.f F.CAN_NT_STAT_state = 0 ∧ (role ≠ 2 → ntStateRead t = 0 ∧ ntSync t = false) ∧
       (role = 2 → ntStateRead t = (if ntSends t then 2 else 0) ∧ ntSync t = ntSends t) ∧
       (∀ d, ntAt t d = ntAt s d) ∧ t.hid = withNt s t.hid.nt)) ∧
   (∀ s, canOn s = true → ntRole s = 2 → Completes .ntRefDue s fun t =>
     let was := s.hid.nt.seq.getD (s.f F.CAN_NT_STAT_seq)
     let seq := (was + 1) % 256
     let ms := max 1 (min 100 (s.f F.CAN_NT_PERIOD_ms))
     t.hid.nt.seq = some seq ∧ t.rd R.CAN_NT_STAT = s.rd R.CAN_NT_STAT ∧ t.hid.nt.stepped = false ∧ t.on F.CAN_NT_EVENT_ref_late = (s.on F.CAN_NT_EVENT_ref_late || s.hid.nt.ref.isSome) ∧
     NtFrame s t ∧ ∃ d, t.hid.nt.ref = some (refMsg s d) ∧ d.length = 12 ∧ d.getD 0 0#8 = 1#8 ∧ d.getD 1 0#8 = BitVec.ofNat 8 seq ∧
       d.getD 3 0#8 = BitVec.ofNat 8 ms ∧ (d.getD 2 0#8).getLsbD 1 = (s.hid.nt.stepped || s.hid.nt.ref.any refStepped) ∧
       (s.hid.nt.ref ≠ none → (d.getD 2 0#8).getLsbD 0 = false) ∧
       (∀ T, s.hid.nt.ref = none → s.hid.nt.sof = some (was, T) → (d.getD 2 0#8).getLsbD 0 = true ∧
         leNat (d.drop 4) = (T.floor % 2 ^ 64).toNat)) ∧
   (∀ s p v, Live p s R.CAN_NT_SET = true →
     (ntRole s = 2 → Completes (.ntSet p v) s fun t => ntAt t t.now = (v.toNat : Rat) ∧ t.hid.nt.stepped = true ∧
       Sets [] (withNt s t.hid.nt) s t) ∧
     (ntRole s ≠ 2 → Completes (.ntSet p v) s (ReportsError p 3 R.CAN_NT_SET s))) ∧
   (∀ s m sof, canActive s (s.f F.CAN_NT_CFG_ctrl) = true → refGood s m = true → ntRole s = 2 → Completes (.ntRefRx m sof) s fun t =>
     t.on F.CAN_NT_EVENT_conflict = true ∧ t.f F.CAN_NT_CFG_role = 2 ∧ ntRole t = 1 ∧ t.f F.CAN_NT_STAT_state = 0 ∧
     t.on F.CAN_NT_STAT_nt_sync = false ∧ t.hid.nt.ref = none ∧ t.f F.CAN_NT_STAT_seq = msgByte m 1 ∧
     (¬ probeMsg s (s.f F.CAN_NT_CFG_ctrl) m → RefFrame (s.f F.CAN_NT_CFG_ctrl) s t)) ∧
   (∀ s, canOn s = true → Completes .ntWrap s fun t => t.f F.CAN_NT_SNAP_wrap = min 255 (s.f F.CAN_NT_SNAP_wrap + 1) ∧
     ntAt t t.now = (if 2 ^ 64 ≤ ntAt s s.now then ntAt s s.now - 2 ^ 64 else ntAt s s.now) ∧ NtFrame s t)) ∧
  ((∀ s m sof q tq t1, canActive s (s.f F.CAN_NT_CFG_ctrl) = true → refGood s m = true → ntRole s = 1 →
     s.hid.nt.last = some (q, tq, t1) →
     let e := (leNat ((m.data.drop 4).take 8) : Rat) - (tq - (s.rd R.CAN_NT_COMP).toInt)
     let st := s.f F.CAN_NT_STAT_state
     let mag := if e < 0 then -e else e
     let pairs := (q + 1) % 256 = msgByte m 1 ∧ msgByte m 2 % 2 = 1
     let steps := s.hid.nt.paired = false ∨ st = 0 ∨ st = 3 ∨ msgByte m 2 / 2 % 2 = 1 ∨ (s.f F.CAN_NT_TOL_step_ns : Rat) < mag
     let tm := (leNat ((m.data.drop 4).take 8) : Rat)
     let frame := fun t => ¬ probeMsg s (s.f F.CAN_NT_CFG_ctrl) m → RefFrame (s.f F.CAN_NT_CFG_ctrl) s t
     (¬ pairs → Completes (.ntRefRx m sof) s fun t => t.f F.CAN_NT_STAT_seq = msgByte m 1 ∧
       t.hid.nt = { s.hid.nt with last := some (msgByte m 1, ntAt s sof, sof), tm := if msgByte m 2 = 1 then some tm else none } ∧
       frame t ∧
       KeepRegs (fun off => off = R.CAN_NT_STAT ∨ ¬ ntReg off) s t) ∧
     (pairs → Completes (.ntRefRx m sof) s fun t => t.f F.CAN_NT_STAT_seq = msgByte m 1 ∧ t.hid.nt.paired = true ∧
       t.rd R.CAN_NT_OFS = ofsWord e ∧ t.hid.nt.pairT = some (s.now, msgByte m 3) ∧ frame t ∧
       t.hid.nt.tm = (if msgByte m 2 = 1 then some tm else none) ∧
       (steps → t.f F.CAN_NT_STAT_state = 1 ∧ t.on F.CAN_NT_EVENT_step = true ∧ t.rd R.CAN_NT_ADJ = s.rd R.CAN_NT_ADJ ∧
         ntAt t t.now = ntAt s s.now + (roundHalfEven (e * 2 ^ 32) : Rat) / 2 ^ 32 ∧
         t.hid.nt.last = some (msgByte m 1, ntAt s sof + e, sof)) ∧
       (¬ steps → ntAt t t.now = ntAt s s.now ∧
         (let held := ntHeld tq e (sof - t1).toNat (t.rd R.CAN_NT_ADJ).toInt
         t.hid.nt.last = some (msgByte m 1, held, sof) ∧ t.hid.nt.slew = (held - ntAt s sof) / t.hid.nt.line.slewN) ∧
         0 < t.hid.nt.line.slewN ∧
         (∀ t0, s.hid.nt.tm = some t0 → t0 < tm → t.hid.nt.line.slewN = max 1 ((tm - t0) * 4 / 5).floor.toNat) ∧
         (∀ t0, s.hid.nt.tm = some t0 → t0 < tm → (t.rd R.CAN_NT_ADJ).toInt = clampInt (-219902326) 219902326
           (roundHalfEven ((s.rd R.CAN_NT_ADJ).toInt + e * 2 ^ 40 / (4 * (tm - t0))))) ∧
         (mag ≤ s.f F.CAN_NT_TOL_lock_ns → t.f F.CAN_NT_STAT_state = (if 4 ≤ s.hid.nt.good + 1 then 2 else st)) ∧
         ((s.f F.CAN_NT_TOL_lock_ns : Rat) < mag → t.f F.CAN_NT_STAT_state = 1 ∧ t.hid.nt.good = 0)) ∧
       (t.f F.CAN_NT_STAT_state ≠ st → t.on F.CAN_NT_STAT_nt_sync = decide (t.f F.CAN_NT_STAT_state = 2)))) ∧
   (∀ s, canOn s = true → ntRole s = 1 → (s.f F.CAN_NT_STAT_state = 1 ∨ s.f F.CAN_NT_STAT_state = 2) →
     (∀ p, s.hid.nt.pairT = some p → 2400000 * p.2 ≤ (s.now - p.1).toNat) → Completes .ntHoldover s
     (Sets ([(F.CAN_NT_STAT_state, 3), (F.CAN_NT_STAT_nt_sync, 0)] ++
       (if s.f F.CAN_NT_STAT_state = 2 then [(F.CAN_NT_EVENT_unlock, 1)] else []))
       (withNt s { s.hid.nt with good := 0 }) s)))

/-! ### Host ports, external memory and recorder (spec/18) -/

/-- R13, R36, R436: a whole word written through BAR0 is that register write of the PCIe port; one with a byte not enabled is
an access error of kind 1; a word read answers the register word with its enabled bytes, 0 at an unmapped offset, and 0 with an
error where its island or link is down; an aligned pair of a 64-bit register that is refused is one error. A function in D3hot
takes no memory request: it is an unsupported one, which AER records and which gets no data (the model's reading: log entry
113). R437: BAR2 offset x addresses LPDDR4X byte `HOST_WIN_BASE` + x: a read answers its bytes, a write stores the enabled ones
and leaves every other byte; outside FULL, or untrained, both are errors of kind 4 that store nothing, with the island off one
of kind 2, and beyond the installed size one of kind 5. In D3hot the request is unsupported (the model's reading: log entry
113). -/
def Obligations.PcieRequestsReachRegistersAndMemory : Prop :=
  ((∀ s a v, s.hid.host.cfg.d3 = false → a.toNat % 4 = 0 → exec (.bar0Request a true [(15#4, v)]) s = exec (.registerWrite .pcie a .b32 (v.zeroExtend 64)) s) ∧
   (∀ s a v be, s.up = true → s.hid.host.cfg.d3 = false → a.toNat % 4 = 0 → be ≠ 15#4 →
     Completes (.bar0Request a true [(be, v)]) s (ReportsError .pcie 1 a.toNat s)) ∧
   (∀ s a v be, s.up = true → s.hid.host.cfg.d3 = false → a.toNat % 4 = 0 → regAt a.toNat = none →
     Completes (.bar0Request a false [(be, v)]) s (Answers .pcie [0#32] false s)) ∧
   (∀ s v, s.up = true → s.hid.host.cfg.d3 = false → Completes (.bar0Request (BitVec.ofNat 26 R.SYS_ID) false [(15#4, v)]) s
     (Answers .pcie [s.rd R.SYS_ID] false s)) ∧
   (∀ s v, s.up = true → s.hid.host.cfg.d3 = false → Completes (.bar0Request (BitVec.ofNat 26 R.SYS_ID) false [(12#4, v)]) s
     (Answers .pcie [s.rd R.SYS_ID &&& 0xFFFF0000#32] false s)) ∧
   (∀ s a v r, s.up = true → s.hid.host.cfg.d3 = false → a.toNat % 4 = 0 → regAt a.toNat = some r → s.hid.pwr.dumpOnly = false → regLive s r = false →
     Completes (.bar0Request a false [(15#4, v)]) s fun t =>
       t.resp.get {} 0 = { data := [0#32], err := true } ∧ ReportsError .pcie 2 a.toNat { s with resp := t.resp } t) ∧
   (∀ s a r v w, s.up = true → s.hid.host.cfg.d3 = false → a.toNat % 8 = 0 → regAt a.toNat = some r → wideAt a.toNat = true → s.hid.pwr.dumpOnly = false →
     regLive s r = false → Completes (.bar0Request a false [(15#4, v), (15#4, w)]) s fun t =>
       t.resp.get {} 0 = { data := [0#32, 0#32], err := true } ∧ ReportsError .pcie 2 a.toNat { s with resp := t.resp } t) ∧
   (∀ s a ws, s.up = true → s.hid.host.cfg.d3 = true →
     let refused := withHost s { s.hid.host with cfg := { s.hid.host.cfg with aer := s.hid.host.cfg.aer ||| 0x100000#64 } }
     Completes (.bar0Request a true ws) s (Sets [] refused s) ∧
     Completes (.bar0Request a false ws) s fun t =>
       t.resp.get {} 0 = { data := [], err := true } ∧ Sets [] refused { s with resp := t.resp } t)) ∧
  ((∀ s x n, s.up = true → s.hid.host.cfg.d3 = false → s.island 12 = true → memReady s = true → n ≤ 8 →
     (s.rd64 R.HOST_WIN_BASE).toNat + x.toNat + n ≤ memSize s →
     Completes (.bar2Request x (.inr n)) s (Answers .pcie
       ((List.range n).map fun i => (s.lpByte ((s.rd64 R.HOST_WIN_BASE).toNat + x.toNat + i)).zeroExtend 32) false s)) ∧
   (∀ s x b c, s.up = true → s.hid.host.cfg.d3 = false → s.island 12 = true → memReady s = true → recRunning s = false →
     (s.rd64 R.HOST_WIN_BASE).toNat + x.toNat + 3 ≤ memSize s →
     Completes (.bar2Request x (.inl [some b, none, some c])) s fun t =>
       let a := (s.rd64 R.HOST_WIN_BASE).toNat + x.toNat
       t.lpByte a = b ∧ t.lpByte (a + 2) = c ∧ (∀ k, k ≠ a → k ≠ a + 2 → t.lpByte k = s.lpByte k) ∧
       (∀ off, t.rd off = s.rd off) ∧ t.hid = s.hid ∧ t.flash = s.flash ∧ t.sram = s.sram ∧ t.now = s.now) ∧
   (∀ s x b, s.up = true → s.hid.host.cfg.d3 = false → memReady s = false →
     Completes (.bar2Request x (.inl [some b])) s (ReportsError .pcie 4 x.toNat s)) ∧
   (∀ s x b, s.up = true → s.hid.host.cfg.d3 = false → memReady s = true → s.island 12 = false →
     Completes (.bar2Request x (.inl [some b])) s (ReportsError .pcie 2 x.toNat s)) ∧
   (∀ s x, s.up = true → s.hid.host.cfg.d3 = false → memReady s = true → s.island 12 = true → memSize s ≤ (s.rd64 R.HOST_WIN_BASE).toNat + x.toNat →
     Completes (.bar2Request x (.inr 1)) s fun t =>
       t.resp.get {} 0 = { data := [0#32], err := true } ∧ ReportsError .pcie 5 x.toNat { s with resp := t.resp } t) ∧
   (∀ s x, s.up = true → s.hid.host.cfg.d3 = false → memReady s = false → Completes (.bar2Request x (.inr 1)) s fun t =>
     t.resp.get {} 0 = { data := [0#32], err := true } ∧ ReportsError .pcie 4 x.toNat { s with resp := t.resp } t) ∧
   (∀ s x w, s.up = true → s.hid.host.cfg.d3 = true → Completes (.bar2Request x w) s fun t =>
     Sets [] (withHost s { s.hid.host with cfg := { s.hid.host.cfg with aer := s.hid.host.cfg.aer ||| 0x100000#64 } })
       { s with resp := t.resp } t ∧
     t.resp = (if w.isLeft then s.resp else s.resp.put {} 0 { data := [], err := true })))

/-- R439, R440: an SPI write takes effect only with its whole frame and, where `spi_crc` is 1, a good CRC; bits of the status
byte show what came of it; reads answer the register word, repeated ones the same address, each word after 0xA5 and, with
`spi_crc`, before a CRC-8 of its own; a word that is late is 0xE1; the status read clears bits 2 and 3. R438, R441, R443: the
link's state and PERSTN; a routed source makes its vector pending and sends its message, or leaves it pending while masked; a
further edge is counted, and a summary that was high when last seen is none (log entry 136); with the link in L0 every message
that may go out has; reading `HOST_VEC_ACK` answers and clears it, and a route still asserted then makes it pending again with
count 0; a doorbell is set from its sender's side and cleared from the other. The words and mask bits of the MSI-X table after
PERST, and that MSI-X which is not enabled sends nothing, are the model's choices: log entries 8, 9, 113. -/
def Obligations.SpiLinkVectorsAndDoorbellsAct : Prop :=
  ((∀ s v crc a, a = BitVec.ofNat 32 R.HARV_RESERVE → Live .spi s R.HARV_RESERVE = true →
     (s.on F.HOST_CFG_spi_crc = true → crc8 (2#8 :: (beBytes a ++ beBytes v)) = crc) →
     Completes (.spiWrite a v crc true) s (Sets [(wordFld R.HARV_RESERVE, v.toNat)]
       { s.hid with host := { s.hid.host with spi := (s.hid.host.spi ||| 1#8) &&& 0xFD#8, spiOut := [] } } s)) ∧
   (∀ s a v crc, Completes (.spiWrite a v crc false) s (Sets [] s.hid s)) ∧
   (∀ s a v crc, s.up = true → s.on F.HOST_CFG_spi_crc = true → crc8 (2#8 :: (beBytes a ++ beBytes v)) ≠ crc →
     Completes (.spiWrite a v crc true) s fun t => t.on F.HOST_ERR_err = true ∧
       t.rd R.HOST_ERR_CNT = bumped (s.rd R.HOST_ERR_CNT) ∧ (s.on F.HOST_ERR_err = false → t.f F.HOST_ERR_INFO_kind = 6) ∧
       t.hid = { s.hid with host := { s.hid.host with spi := (s.hid.host.spi ||| 6#8) &&& 0xFE#8, spiOut := [] } } ∧
       KeepRegs (fun off => off = R.HOST_ERR ∨ off = R.HOST_ERR_INFO ∨ off = R.HOST_ERR_CNT) s t ∧ SameMem s t) ∧
   (∀ s crc a, a = BitVec.ofNat 32 R.SYS_ID → s.up = true → (s.on F.HOST_CFG_spi_crc = true → crc8 (3#8 :: beBytes a) = crc) →
     Completes (.spiRead a crc true true) s fun t =>
       t.resp.get {} 1 = { data := [s.rd R.SYS_ID], err := false } ∧
       t.hid.host.spiOut = 0xA5#8 :: beBytes (s.rd R.SYS_ID) ++
         (if s.on F.HOST_CFG_spi_crc then [crc8 (0xA5#8 :: beBytes (s.rd R.SYS_ID))] else []) ∧ t.regs = s.regs ∧ SameMem s t) ∧
   (∀ s a crc, s.up = true → (s.on F.HOST_CFG_spi_crc = true → crc8 (3#8 :: beBytes a) = crc) →
     Completes (.spiRead a crc true false) s fun t =>
       t.resp.get {} 1 = { data := [], err := true } ∧ t.on F.HOST_ERR_err = true ∧ t.hid.host.spi.getLsbD 3 = true ∧
       (s.on F.HOST_ERR_err = false → t.f F.HOST_ERR_INFO_kind = 7) ∧ t.hid.host.spiOut = [0xE1#8] ∧ SameMem s t) ∧
   (∀ s crc n a, a = BitVec.ofNat 32 R.SYS_ID → s.up = true → (s.on F.HOST_CFG_spi_crc = true → crc8 (0x0B#8 :: beBytes a) = crc) →
     (Completes (.spiRepeatedRead a crc n false) s fun t =>
       t.resp.get {} 1 = { data := List.replicate n (s.rd R.SYS_ID), err := false } ∧ t.regs = s.regs ∧ SameMem s t) ∧
     Completes (.spiRepeatedRead a crc n true) s fun t =>
       t.hid.host.spiOut = (List.replicate n (spiWord (s.on F.HOST_CFG_spi_crc) (s.rd R.SYS_ID))).flatten ++ [0xE1#8] ∧
       t.on F.HOST_ERR_err = true ∧ t.hid.host.spi.getLsbD 3 = true ∧ SameMem s t) ∧
   (∀ s, s.up = true → Completes .spiStatus s fun t =>
     t.resp.get {} 1 = { data := [s.hid.host.spi.zeroExtend 32], err := false } ∧
     t.hid = { s.hid with host := { s.hid.host with spi := s.hid.host.spi &&& 0xF3#8, spiOut := [s.hid.host.spi] } } ∧
     t.regs = s.regs ∧ SameMem s t)) ∧
  ((∀ s, s.up = true → Completes .perst s fun t => t.on F.HOST_STAT_link_up = false ∧ t.f F.HOST_STAT_speed = 0 ∧
     t.f F.HOST_STAT_width = 0 ∧
     (∀ v, v < 32 → t.rd64 (R.HOST_MSIX_ADDR v) = 0#64 ∧ t.rd (R.HOST_MSIX_CTRL v) = 1#32) ∧ t.rd64 R.HOST_MSIX_PBA = 0#64 ∧
     t.hid = { s.hid with host := { s.hid.host with cfg := {} } } ∧ SameMem s t ∧ t.now = s.now) ∧
   (∀ s speed width, s.up = true → Completes (.pcieLinkStateChange false speed width) s
     (Sets [(F.HOST_STAT_link_up, 0), (F.HOST_STAT_speed, speed.toNat), (F.HOST_STAT_width, width.toNat)] s.hid s)) ∧
   (∀ s speed width, s.up = true → Completes (.pcieLinkStateChange true speed width) s fun t =>
     t.on F.HOST_STAT_link_up = true ∧ t.f F.HOST_STAT_speed = speed.toNat ∧
     (∀ v, v < 32 → vecMasked t v = false → t.on (bitFld R.HOST_MSIX_PBA v) = false) ∧
     t.hid = { s.hid with wake := { s.hid.wake with waken := false }, host := { s.hid.host with cfg := t.hid.host.cfg, msix := t.hid.host.msix } } ∧
     KeepRegs (fun off => off = R.HOST_STAT ∨ off = R.HOST_MSIX_PBA) s t ∧ SameMem s t ∧ t.now = s.now) ∧
   (∀ s (src : Fin 80) v, v = routeVec s src → s.island 13 = true → routeEn s src = true →
     rises true src s = true → vecPending s v = false → Completes (.hostVectorPending src) s fun t =>
       vecPending t v = true ∧ (linkUp s = false → t.hid.wake.waken = true) ∧
       t.on (bitFld R.HOST_MSIX_PBA v) = (vecMasked s v || !linkUp s) ∧
       (vecMasked s v = false → linkUp s = true → t.hid.host.msix = some (s.rd64 (R.HOST_MSIX_ADDR v), s.rd (R.HOST_MSIX_DATA v))) ∧
       SameMem s t ∧ t.now = s.now) ∧
   (∀ s (src : Fin 80) v, v = routeVec s src → s.island 13 = true → routeEn s src = true →
     rises true src s = true → vecPending s v = true → (s.rd (R.HOST_VEC_ACK v)).toNat % 256 ≠ 255 →
       Completes (.hostVectorPending src) s
         (Sets [(wordFld (R.HOST_VEC_ACK v), (s.rd (R.HOST_VEC_ACK v) + 1#32).toNat)] s.hid s)) ∧
   (∀ s (src : Fin 80), rises true src s = false → Completes (.hostVectorPending src) s (Sets [] s.hid s)) ∧
   (∀ s p (v : Fin 32), Live p s (R.HOST_VEC_ACK v) = true →
     let asserted := (List.range 80).any fun i => routeEn s i && routeVec s i = v && irqSummary s true i
     let answered := fun t : State => t.resp.get {} (portIx p) = { data := [s.rd (R.HOST_VEC_ACK v) &&& 0x3FF#32], err := false } ∧
       KeepRegs (fun off => off = R.HOST_VEC_ACK v ∨ off = R.HOST_MSIX_PBA) s t ∧ SameMem s t ∧ t.now = s.now
     (asserted = false → Completes (.hostVecAckRead p v) s fun t => t.rd (R.HOST_VEC_ACK v) = 0#32 ∧
       t.on (bitFld R.HOST_MSIX_PBA v) = false ∧ t.hid = s.hid ∧ answered t) ∧
     (asserted = true → Completes (.hostVecAckRead p v) s fun t => (t.rd (R.HOST_VEC_ACK v)).toNat % 512 = 0 ∧
       vecPending t v = true ∧ (linkUp s = false → t.hid.wake.waken = true) ∧
       t.on (bitFld R.HOST_MSIX_PBA v) = (vecMasked s v || !linkUp s) ∧
       (vecMasked s v = false → linkUp s = true → t.hid.host.msix = some (s.rd64 (R.HOST_MSIX_ADDR v), s.rd (R.HOST_MSIX_DATA v))) ∧
       answered t)) ∧
   (∀ s p f2h v off, off = (if f2h then R.HOST_DB_F2H else R.HOST_DB_H2F) → Live p s off = true →
     Completes (.doorbellWrite p f2h v) s (Sets [(wordFld off,
       (if decide (p = .fw) == f2h then s.rd off ||| (v &&& 0xFFFF#32) else s.rd off &&& ~~~ (v &&& 0xFFFF#32)).toNat)] s.hid s)))

/-- R444, R445, R446: a flash operation is refused while one is busy (0x20) and outside its range and alignment (0x21); a read
is taken without a burst, programming and erasing with one of type 3; when it completes, programming has cleared bits of whole
pages and nothing else in the flash, an erase leaves erased bytes, a read has filled `QSPI_BUF`; one that is cut ends after its
pages with the code of what cut it, and a failure of the flash has code 0x22; MR4 is kept as read. That programming leaves the
conjunction of the bytes that stood and those sent, what an erased byte reads as and what stands where an operation failed are
the model's choices: log entries 14, 5, 27. -/
def Obligations.QspiOperationsChangeTheFlash : Prop :=
  (∀ s p v c, Live p s R.QSPI_CMD = true → s.on F.QSPI_STAT_busy = true →
    c ∈ [Instr.qspiRead p v, .qspiProgram p v, .qspiEraseSector p v, .qspiEraseBlock p v] →
    Completes c s (Sets [(F.QSPI_STAT_result, 0x20)] s.hid s)) ∧
  (∀ s p v, Live p s R.QSPI_CMD = true → s.on F.QSPI_STAT_busy = false → loadFromFlash s = false →
    let a := s.f F.QSPI_ADDR_addr
    let len := (v : Word).toNat / 2 ^ 16 % 2 ^ 15
    ((len = 0 ∨ 16384 < len ∨ flashSize s < a + len) →
      Completes (.qspiRead p v) s (Sets [(F.QSPI_STAT_result, 0x21)] s.hid s)) ∧
    (1 ≤ len → len ≤ 16384 → a + len ≤ flashSize s → Completes (.qspiRead p v) s
      (Sets [(F.QSPI_STAT_result, 0), (F.QSPI_STAT_busy, 1), (F.QSPI_STAT_done_pages, 0)]
        { s.hid with mem := { s.hid.mem with qspi := some ⟨1, a, len⟩ } } s)) ∧
    (qspiRange s 2 a len = true → flashAdmit s = 0 → Completes (.qspiProgram p v) s
      (Sets [(F.QSPI_STAT_result, 0), (F.QSPI_STAT_busy, 1), (F.QSPI_STAT_done_pages, 0), (F.HARV_BURST_STAT_type, 3),
        (F.HARV_BURST_STAT_last_code, 0), (F.HARV_BURST_STAT_busy, 1)]
        { s.hid with mem := { s.hid.mem with qspi := some ⟨2, a, len⟩ } } s)) ∧
    (a % 4096 = 0 → a + 4096 ≤ flashSize s → flashAdmit s = 0 → Completes (.qspiEraseSector p v) s
      (Sets [(F.QSPI_STAT_result, 0), (F.QSPI_STAT_busy, 1), (F.QSPI_STAT_done_pages, 0), (F.HARV_BURST_STAT_type, 3),
        (F.HARV_BURST_STAT_last_code, 0), (F.HARV_BURST_STAT_busy, 1)]
        { s.hid with mem := { s.hid.mem with qspi := some ⟨3, a, len⟩ } } s)) ∧
    (a % 65536 = 0 → a + 65536 ≤ flashSize s → flashAdmit s = 0 → Completes (.qspiEraseBlock p v) s
      (Sets [(F.QSPI_STAT_result, 0), (F.QSPI_STAT_busy, 1), (F.QSPI_STAT_done_pages, 0), (F.HARV_BURST_STAT_type, 3),
        (F.HARV_BURST_STAT_last_code, 0), (F.HARV_BURST_STAT_busy, 1)]
        { s.hid with mem := { s.hid.mem with qspi := some ⟨4, a, len⟩ } } s)) ∧
    (flashAdmit s ≠ 0 →
      let refused := Sets ((F.QSPI_STAT_result, flashAdmit s) :: (if s.on F.HARV_BURST_STAT_busy then [] else [(F.HARV_BURST_STAT_type, 3)]) ++
        [(F.HARV_BURST_STAT_last_code, flashAdmit s), (F.HARV_EVENT_burst_refused, 1)]) s.hid s
      (qspiRange s 2 a len = true → Completes (.qspiProgram p v) s refused) ∧
      (a % 4096 = 0 → a + 4096 ≤ flashSize s → Completes (.qspiEraseSector p v) s refused) ∧
      (a % 65536 = 0 → a + 65536 ≤ flashSize s → Completes (.qspiEraseBlock p v) s refused))) ∧
  (∀ s pages o, s.hid.mem.qspi = some o → o.op = 2 → o.len % 256 = 0 → o.len ≤ 16384 →
    let run := fun n t => (∀ i, i < 256 * n → t.flByte (o.addr + i) = s.flByte (o.addr + i) &&& (qspiBuf s o.len).getD i 0#8) ∧
      t.on F.QSPI_STAT_busy = false ∧ t.f F.QSPI_STAT_done_pages = n ∧ t.hid.mem.qspi = none ∧ t.lpddr = s.lpddr ∧ t.now = s.now
    let rest := fun m (t : State) => ∀ k, (k < o.addr ∨ o.addr + m ≤ k) → t.flByte k = s.flByte k
    let n := min pages (o.len / 256)
    ((s.island 12 = true ∨ o.len / 256 ≤ pages) → Completes (.qspiOpDone pages false false) s fun t =>
      run (o.len / 256) t ∧ rest o.len t ∧ t.f F.QSPI_STAT_result = 0) ∧
    Completes (.qspiOpDone pages true false) s (fun t => run n t ∧ rest (256 * n) t ∧
      (s.hid.pwr.trans = .toHarvest → t.f F.QSPI_STAT_result = lossCode s)) ∧
    ∀ cut, Completes (.qspiOpDone pages cut true) s fun t => run n t ∧ rest (256 * (n + 1)) t ∧ rest o.len t ∧
      t.f F.QSPI_STAT_result = 0x22) ∧
  (∀ s pages o, s.hid.mem.qspi = some o → o.op = 1 → o.len ≤ 16384 →
    let byte := fun (u : State) (i : Nat) => (u.rd (R.QSPI_BUF (i / 4))).extractLsb' (8 * (i % 4)) 8
    Completes (.qspiOpDone pages false false) s (fun t => t.f F.QSPI_STAT_result = 0 ∧ t.on F.QSPI_STAT_busy = false ∧
      (∀ i, i < 16384 → byte t i = (if i < o.len then s.flByte (o.addr + i) else byte s i)) ∧
      t.hid.mem.qspi = none ∧ SameMem s t) ∧
    ∀ cut, Completes (.qspiOpDone pages cut true) s fun t => t.f F.QSPI_STAT_result = 0x22 ∧ t.on F.QSPI_STAT_busy = false ∧
      (∀ i, i < 4096 → t.rd (R.QSPI_BUF i) = s.rd (R.QSPI_BUF i)) ∧ t.hid.mem.qspi = none ∧ SameMem s t) ∧
  (∀ s pages o, s.hid.mem.qspi = some o → (o.op = 3 ∨ o.op = 4) →
    let size := if o.op = 3 then 4096 else 65536
    let rest := fun t : State => (∀ k, (k < o.addr ∨ o.addr + size ≤ k) → t.flByte k = s.flByte k) ∧
      t.on F.QSPI_STAT_busy = false ∧ t.hid.mem.qspi = none ∧ t.lpddr = s.lpddr
    (s.wf = true → Completes (.qspiOpDone pages false false) s fun t => t.f F.QSPI_STAT_result = 0 ∧ rest t ∧
      ∀ k, o.addr ≤ k → k < o.addr + size → t.flByte k = 0xFF#8) ∧
    ∀ cut, Completes (.qspiOpDone pages cut true) s fun t => t.f F.QSPI_STAT_result = 0x22 ∧ rest t) ∧
  (∀ s v, memReady s = true → s.island 12 = true → Completes (.mr4Read v) s
    (Sets [] { s.hid with mem := { s.hid.mem with mr4 := v } } s))

/-- R448–R454: `en` starts the recorder only where it may run; an arm write arms its region, which becomes the one in use where
it is lower (the other is kept); a sample is a record of its slot and value after the time record, at the slot's rate, or a
counted drop; gap markers give the counts of the drops on its path before the next sample; a trigger that waits records its
pointer and count; a full region is padded and left; a burst of eight records goes to LPDDR4X; a read of `REC_RD_DATA` answers
four bytes and moves on by four. The region in use, the phase of the slots, a full path as an operand and the errors of the
readout are the model's readings: log entry 90. -/
def Obligations.RecorderCapturesRecords : Prop :=
  (∀ s p v, Live p s R.REC_CTL = true → v.toNat % 2 = 1 → recAble s = false → Completes (.recEnWrite p v) s
    (Sets [(F.REC_STAT_result, 1)] s.hid s)) ∧
  (∀ s p v, Live p s R.REC_CTL = true → v.toNat % 2 = 1 → recAble s = true → recRunning s = false →
    armedRegion s = none → Completes (.recEnWrite p v) s
    (Sets [(F.REC_STAT_result, 0), (F.REC_CTL_en, 1), (F.REC_STAT_running, 0), (F.REC_EVENT_no_region, 1)]
      (withRec s { s.hid.recorder with trigs := 0, last := [] }) s)) ∧
  (∀ s p v r, Live p s R.REC_CTL = true → v.toNat % 2 = 1 → recAble s = true → recRunning s = false →
    armedRegion s = some r → s.hid.recorder.burst = [] → Completes (.recEnWrite p v) s fun t =>
      recRunning t = true ∧ t.on F.REC_CTL_en = true ∧ t.f F.REC_STAT_result = 0 ∧ t.f F.REC_STAT_region = r ∧
      t.hid.recorder.burst = [timeRec false s.now] ∧ t.hid.recorder.time = some s.now ∧ t.hid.recorder.trigs = 0 ∧
      KeepRegs (fun off => off = R.REC_CTL ∨ off = R.REC_STAT) s t ∧ SameMem s t ∧ t.now = s.now ∧
      t.hid = withRec s t.hid.recorder) ∧
  (∀ s p v, Live p s R.REC_CTL = true → v.toNat % 2 = 0 → recRunning s = true → Completes (.recEnWrite p v) s fun t =>
    (s.hid.recorder.burst ≠ [] → s.hid.recorder.burst.length ≤ 8 → burstFits s → BurstLands s.hid.recorder.burst s t) ∧
    recRunning t = false ∧ t.on F.REC_CTL_en = false ∧ t.f F.REC_STAT_result = 0 ∧ t.hid.recorder.burst = [] ∧
    t.flash = s.flash ∧ t.sram = s.sram ∧ t.now = s.now) ∧
  (∀ s p (r : Fin 8) v, Live p s (R.REC_REG_STAT r) = true → recRunning s = false → s.on F.REC_CTL_en = false →
    Completes (.recArm p r v) s fun t => t.f (F.REC_REG_STAT_state r) = 1 ∧
      KeepRegs (fun off => off = R.REC_REG_STAT r) s t ∧ SameMem s t ∧ t.now = s.now) ∧
  (∀ s p (r : Fin 8) v, Live p s (R.REC_REG_STAT r) = true → recRunning s = true → s.f (F.REC_REG_STAT_state r) ≠ 1 →
    r < s.f F.REC_STAT_region → (∀ q, q < r.val → s.f (F.REC_REG_STAT_state q) ≠ 1) → s.hid.recorder.burst = [] →
    (s.hid.recorder.kept.get (0, none) r).2 ≠ some 0 → Completes (.recArm p r v) s fun t =>
      t.f (F.REC_REG_STAT_state r) = 1 ∧ t.f F.REC_STAT_region = r ∧ recRunning t = true ∧
      t.hid.recorder.pos = (s.hid.recorder.kept.get (0, none) r).1 ∧ t.hid.recorder.burst = [timeRec false s.now] ∧
      t.hid.recorder.kept.get (0, none) (s.f F.REC_STAT_region) = (s.hid.recorder.pos, s.hid.recorder.post) ∧
      KeepRegs (fun off => off = R.REC_REG_STAT r ∨ off = R.REC_STAT) s t ∧ SameMem s t ∧ t.now = s.now) ∧
  (∀ s (n : Fin 64), recRunning s = true → s.on (F.REC_SLOT_CFG_used n) = true →
    let c := s.hid.recorder
    let kind := s.f (F.REC_SLOT_CFG_kind n)
    let due := ∀ t, c.last.get none n = some t → 400 * (s.f (F.REC_SLOT_CFG_d n) + 1) ≤ (s.now - t).toNat
    let last := c.last.put none n (some s.now)
    let value := recValue s kind (s.f (F.REC_SLOT_CFG_index n))
    let gaps : List (Option Nat × Nat) := if allDropped s then [(none, (c.drops.map (·.2)).foldl (· + ·) 0)] else
      ((List.range 64).filter fun i => decide ((recPath s i = 2 ∨ recPath s i = recPath s n) ∧ c.drops.get 0 i ≠ 0)).map fun i =>
        (some i, c.drops.get 0 i)
    ((¬ due ∨ s.hid.pwr.dumpOnly = true ∧ recAcross kind = true) → ∀ full, Completes (.recSlotSample n full) s (Sets [] s.hid s)) ∧
    (due → (s.hid.pwr.dumpOnly = false ∨ recAcross kind = false) →
      Completes (.recSlotSample n true) s (Sets [(wordFld R.REC_DROP_CNT, (bumped (s.rd R.REC_DROP_CNT)).toNat),
        (F.REC_EVENT_drop, 1)] (withRec s { c with last := last, drops := c.drops.put 0 n (c.drops.get 0 n + 1) }) s) ∧
      (postDone s = false → gaps = [] → ∀ t0, c.time = some t0 → (s.now - t0).toNat < 2 ^ 20 → c.burst.length < 7 →
        Completes (.recSlotSample n false) s (Sets [] (withRec s { c with
          last := last, post := c.post.map (· - 1), burst := c.burst ++ [sampleRec n (s.now - t0).toNat value] }) s)) ∧
      (postDone s = false → gaps = [] → ∀ t0, c.time = some t0 → (s.now - t0).toNat < 2 ^ 20 → c.burst.length = 7 → burstFits s →
        Completes (.recSlotSample n false) s fun t => BurstLands (c.burst ++ [sampleRec n (s.now - t0).toNat value]) s t ∧
          t.hid.recorder.burst = [] ∧ t.regs = s.regs ∧ t.flash = s.flash ∧ t.hid = withRec s t.hid.recorder ∧
          t.hid.recorder.pos = (if c.pos + 64 < regionSize s (s.f F.REC_STAT_region) then c.pos + 64 else 0)) ∧
      (postDone s = false → gaps = [] → ∀ t0, c.time = some t0 → 2 ^ 20 ≤ (s.now - t0).toNat → c.burst.length < 6 →
        c.post = none → Completes (.recSlotSample n false) s (Sets [] (withRec s { c with
          last := last, time := some s.now, burst := c.burst ++ [timeRec false s.now, sampleRec n 0 value] }) s)) ∧
      (gaps ≠ [] → c.post = none → c.burst.length + 2 * gaps.length < 7 → Completes (.recSlotSample n false) s fun t =>
        t.hid.recorder.burst = c.burst ++ gaps.flatMap (fun g => [gapRec g.1 g.2, timeRec false s.now]) ++ [sampleRec n 0 value] ∧
        t.hid.recorder.drops.get 0 n = 0 ∧ t.regs = s.regs ∧ SameMem s t ∧ t.now = s.now))) ∧
  (∀ s (n : Fin 64), recRunning s = true → postDone s = false → s.hid.recorder.drops.get 0 n ≠ 0 →
    s.hid.recorder.burst = [] → Completes (.recGapMarker (some n)) s fun t =>
      t.hid.recorder.burst = [gapRec (some n) (s.hid.recorder.drops.get 0 n), timeRec false s.now] ∧
      t.hid.recorder.drops.get 0 n = 0 ∧ t.hid.recorder.time = some s.now ∧ t.regs = s.regs ∧ SameMem s t) ∧
  (∀ s total, recRunning s = true → postDone s = false → allDropped s = true →
    total = (s.hid.recorder.drops.map (·.2)).foldl (· + ·) 0 → total ≠ 0 → s.hid.recorder.burst = [] → Completes (.recGapMarker none) s fun t =>
      t.hid.recorder.burst = [gapRec none total, timeRec false s.now] ∧ t.hid.recorder.drops = [] ∧ t.regs = s.regs ∧ SameMem s t) ∧
  (∀ s m, recRunning s = true → (m : BitVec 7).toNat &&& s.hid.recorder.trigs &&& s.f F.REC_TRIG_MASK_mask = 0 →
    Completes (.recTrigger m) s (Sets [] (withRec s { s.hid.recorder with
      trigs := s.hid.recorder.trigs - (s.hid.recorder.trigs &&& m.toNat) }) s)) ∧
  (∀ s m k, recRunning s = true → s.hid.recorder.post = some (k + 1) →
    (m : BitVec 7).toNat &&& s.hid.recorder.trigs &&& s.f F.REC_TRIG_MASK_mask ≠ 0 → Completes (.recTrigger m) s
      (Sets [countOne s R.REC_TRIG_LOST] (withRec s { s.hid.recorder with
        trigs := s.hid.recorder.trigs - (s.hid.recorder.trigs &&& m.toNat) }) s)) ∧
  (∀ s m, recRunning s = true → s.hid.recorder.post = none → s.hid.recorder.burst.length < 7 →
    (m : BitVec 7).toNat &&& s.hid.recorder.trigs &&& s.f F.REC_TRIG_MASK_mask ≠ 0 → Completes (.recTrigger m) s fun t =>
      t.hid.recorder.trigs &&& m.toNat = 0 ∧
      t.rd64 (R.REC_REG_TRIG_PTR (s.f F.REC_STAT_region)) =
        BitVec.ofNat 64 (regionBase s (s.f F.REC_STAT_region) + s.hid.recorder.pos +
          8 * s.hid.recorder.burst.length) ∧
      t.rd R.REC_TRIG_CNT = (bitsOf 7 (m.toNat &&& s.hid.recorder.trigs &&& s.f F.REC_TRIG_MASK_mask)).foldl (fun w _ => bumped w)
        (s.rd R.REC_TRIG_CNT) ∧
      t.hid.recorder.burst = s.hid.recorder.burst ++ [timeRec true s.now] ∧ t.hid.recorder.post = some (s.rd R.REC_POST).toNat ∧
      t.on F.REC_EVENT_trig = true ∧ SameMem s t ∧ t.now = s.now) ∧
  (∀ s r, recRunning s = true → s.hid.recorder.post = some 0 → r = s.f F.REC_STAT_region →
    Completes .recRegionFull s fun t => t.f (F.REC_REG_STAT_state r) = 2 ∧ t.on F.REC_EVENT_full = true ∧
      (s.hid.recorder.burst ≠ [] → s.hid.recorder.burst.length ≤ 8 → burstFits s → BurstLands s.hid.recorder.burst s t) ∧
      (recRunning t = true → t.f F.REC_STAT_region ≠ r ∧ t.hid.recorder.burst = [timeRec false s.now]) ∧
      t.flash = s.flash ∧ t.now = s.now) ∧
  (∀ s p a, Live p s R.REC_RD_DATA = true → memReady s = true → a = (s.rd64 R.REC_RD_ADDR).toNat → a + 4 ≤ memSize s →
    Completes (.recRdDataRead p) s fun t =>
      t.resp.get {} (portIx p) = { data := [BitVec.ofNat 32 (leNat ((List.range 4).map fun i => s.lpByte (a + i)))], err := false } ∧
      t.rd64 R.REC_RD_ADDR = BitVec.ofNat 64 ((a + 4) % 2 ^ 33) ∧ KeepRegs (fun off => off = R.REC_RD_ADDR ∨ off = R.REC_RD_ADDR + 4) s t ∧
      SameMem s t ∧ t.hid = s.hid)

/-! ### Boot, update and security (spec/19) -/

/-- R460, R461, R464: the ROM reads BOOTSEL and holds no key; a normal boot stops at its first failure, of the directory, the
firmware header or the signature, in the resident loader with that code; else it copies the image to SRAM, publishes its
digest, rollback and entry, records the Fingering's check (0x63 where the flash does not answer) and starts the firmware; the
software in charge begins to sweep, while the ROM runs no sweep timer does. What firmware writes into the memory protection at
its start is free in the entries that are not locked, as no command shows it (the model's choice: log entry 133). -/
def Obligations.BootStopsAtItsFirstFailure : Prop :=
  ∀ s, coresRun s = true → s.hid.boot.upd = false →
    let sweeps := fun (h : Hid) (t : State) => { h with chnt := { h.chnt with
      sweepT := if s.on F.CHNT_STAT_lockstep_broken then h.chnt.sweepT else some s.now, pmp := t.hid.chnt.pmp } }
    let locked := fun t : State => ∀ i : Fin 16, s.hid.chnt.pmp[i].cfg.getLsbD 7 = true → t.hid.chnt.pmp[i] = s.hid.chnt.pmp[i]
    let rom := { s.hid with chnt := { s.hid.chnt with sweepT := none } }
    (∀ sel, Completes (.romBoot sel) s fun t => locked t ∧ Sets ([(F.BOOT_STAT_bootsel, sel.toNat), (F.BOOT_STAT_state, 0)] ++
        (if sel = 1#2 then [(F.BOOT_STAT_result, 0), (F.BOOT_STAT_state, 2)] else []))
      { (if sel = 1#2 then sweeps rom t else rom) with
        boot := { s.hid.boot with keys := [none, none, none, none], dir := [], fwSlot := none } } s t) ∧
    ∀ readOk : Bool, s.f F.BOOT_STAT_state = 0 →
      let d := flashBytes s 0 4096
      let img := fwImage s d
      let head := fwHeader s img (at32 d 0x0C)
      let sign := if readOk = false then 0x78 else fwSig img (slotsAfter s d)
      let stops := fun code : Nat => [(F.BOOT_STAT_result, code), (F.BOOT_EVENT_boot_fail, 1), (F.BOOT_STAT_state, 2)]
      let taken := [(F.QSPI_CFG_size, at8 d 7), (F.QSPI_CFG_mode, if s.f F.BOOT_STAT_bootsel = 2 then 0 else at8 d 6)]
      let h := withBoot s { s.hid.boot with dir := d, keys := keysOf s d }
      Completes (.bootComplete readOk) s fun t => locked t ∧ (dirCheck d ≠ 0 → Sets (stops (dirCheck d)) (sweeps s.hid t) s t) ∧
          (dirCheck d = 0 → head ≠ 0 → Sets (taken ++ stops head) (sweeps h t) s t) ∧
          (dirCheck d = 0 → head = 0 → sign ≠ 0 → t.f F.BOOT_STAT_result = sign ∧
          t.on F.BOOT_EVENT_boot_fail = true ∧ t.f F.BOOT_STAT_state = 2 ∧ t.hid = sweeps h t ∧ t.flash = s.flash ∧ t.lpddr = s.lpddr ∧
          KeepRegs (fun off => off = R.BOOT_STAT ∨ off = R.BOOT_EVENT ∨ off = R.QSPI_CFG) s t) ∧
          (dirCheck d = 0 → head = 0 → sign = 0 → t.f F.BOOT_STAT_result = 0 ∧
          t.f F.BOOT_STAT_state = 1 ∧ t.on F.BOOT_EVENT_fw_start = true ∧ SramHolds t 0 img ∧
          t.rd R.CHNT_ENTRY = BitVec.ofNat 32 (0x20000000 + at32 img 0x18) ∧
          t.rd64 R.BOOT_FW_ROLLBACK = BitVec.ofNat 64 (leNat (slice img 0x10 0x18)) ∧
          (∀ i : Fin 16, t.rd (R.BOOT_FW_HASH i) = (sha512 (img.take (at32 img 0x20))).extractLsb' (32 * i) 32) ∧
          (at32 d 0x14 = 0 → t.f F.BOOT_STAT_fing_result = 0xFF) ∧
          (at32 d 0x14 ≠ 0 → t.f F.FING_SRC_CFG_src = 0 ∧ t.rd64 R.FING_SRC_ADDR = BitVec.ofNat 64 (at32 d 0x10) ∧
            (t.f F.BOOT_STAT_fing_result = 0x63 ∨
              t.f F.BOOT_STAT_fing_result = fgCheck { s with hid := h } (flashBytes s (at32 d 0x10) (at32 d 0x14)))) ∧
          t.hid = { sweeps s.hid t with
            boot := { s.hid.boot with dir := d, keys := keysOf s d, fwSlot := some (at8 img (at32 img 0x20 + 8)) } } ∧
          t.flash = s.flash ∧ t.lpddr = s.lpddr ∧ t.now = s.now)

/-- R465, R466, R467: START, BLOCK and ABORT of an update are refused by the first code that applies; an accepted START resets
the Chanter into the loader, an accepted BLOCK is erased and programmed as a flash burst, and ABORT forgets the blocks
received. That 0x8B stands for a CONFIRM in progress too, and the order of START's codes, are the model's readings: log entries
109, 125. R466, R467: a finished block holds its bytes in its sector and counts once per offset; where the burst of a page is
refused the block ends with 0x86 and the code, a loss of supply ends it so too and a flash failure with 0x87, with the pages
before that programmed and those after it erased; with no page programmed a sector whose erase failed or was abandoned is
undefined, and nothing else in the flash has changed; the last block has the whole region checked, which ends the update or has
it sent again; NRST low, a loss of energy or a mode but DORMANT and CONFIGURE abandons the update with 0x8A. -/
def Obligations.UpdatesAreCheckedLandAndEnd : Prop :=
  (∀ s p v, Live p s R.BOOT_UPD_CMD = true →
     let d := flashBytes s 0 4096
     let code := fun c : Nat => [(F.BOOT_UPD_STAT_result, c)]
     let fw := p = Port.fw
     let ofs := (s.rd R.BOOT_UPD_OFS).toNat
     let buf := wordsGet s R.BOOT_UPD_BUF 1024
     let blk := if ofs % 4096 ≠ 0 ∨ s.hid.boot.total ≤ ofs then 0x82
       else if (s.rd R.BOOT_UPD_LEN).toNat ≠ min 4096 (s.hid.boot.total - ofs) then 0x83
       else if s.rd R.BOOT_UPD_CRC ≠ crc32c (buf.take (s.rd R.BOOT_UPD_LEN).toNat) then 0x84 else 0
     (∀ readOk : Bool,
       let t0 := b2n ((v : Word).getLsbD 8)
       let start := if fw then 0x81 else if s.mode ≠ DORMANT ∧ s.mode ≠ CONFIGURE then 0x80
         else if bootBusy s ∨ s.f F.FING_STAT_loader ≠ 0 then 0x8B
         else if readOk = false ∨ dirCheck d ≠ 0 then 0x70
         else if at32 d (if t0 = 0 then 0x0C else 0x14) < (s.rd R.BOOT_UPD_TOTAL).toNat then 0x85 else 0
       Completes (.updStart p v readOk) s fun t => (start ≠ 0 → Sets (code start) s.hid s t) ∧
       (start = 0 → t.f F.BOOT_STAT_state = 2 ∧ t.on F.CHNT_STAT_running = false ∧
         t.hid.chnt.test = true ∧ t.hid.boot.keys = keysOf s d ∧ t.hid.boot.dir = d ∧ (t.mode = s.mode → t.rd R.BOOT_UPD_STAT = 0#32 ∧
           t.hid.boot.upd = true ∧ t.hid.boot.target = t0 ∧ t.hid.boot.total = (s.rd R.BOOT_UPD_TOTAL).toNat ∧
           t.hid.boot.blocks = [] ∧ t.hid.boot.work = none) ∧ SameMem s t ∧ t.now = s.now)) ∧
     (fw → Completes (.updBlock p v) s (Sets (code 0x81) s.hid s)) ∧
     (¬ fw → bootBusy s = true → Completes (.updBlock p v) s (Sets (code 0x8B) s.hid s)) ∧
     (¬ fw → bootBusy s = false → s.hid.boot.upd = true → blk ≠ 0 → Completes (.updBlock p v) s (Sets (code blk) s.hid s)) ∧
     (¬ fw → bootBusy s = false → s.hid.boot.upd = true → blk = 0 → flashAdmit s ≠ 0 → Completes (.updBlock p v) s fun t =>
       t.f F.BOOT_UPD_STAT_result = 0x86 ∧ t.f F.BOOT_UPD_STAT_detail = flashAdmit s % 256 ∧ t.on F.BOOT_EVENT_upd_fail = true ∧
       t.hid = s.hid ∧ SameMem s t) ∧
     (¬ fw → bootBusy s = false → s.hid.boot.upd = true → blk = 0 → flashAdmit s = 0 → Completes (.updBlock p v) s
       (Sets [(F.BOOT_UPD_STAT_result, 0), (F.BOOT_UPD_STAT_detail, 0), (F.BOOT_UPD_STAT_busy, 1), (F.BOOT_STAT_state, 3),
         (F.HARV_BURST_STAT_type, 3), (F.HARV_BURST_STAT_last_code, 0), (F.HARV_BURST_STAT_busy, 1)]
         (withBoot s { s.hid.boot with work := some (ofs, buf) }) s)) ∧
     (fw → Completes (.updAbort p v) s (Sets (code 0x81) s.hid s)) ∧
     (¬ fw → bootBusy s = true → Completes (.updAbort p v) s (Sets (code 0x8B) s.hid s)) ∧
     (¬ fw → bootBusy s = false → Completes (.updAbort p v) s (Sets [(F.BOOT_UPD_STAT_result, 0), (F.BOOT_UPD_STAT_recv, 0)]
       (withBoot s { s.hid.boot with blocks := [] }) s))) ∧
  ((∀ s (pages : Fin 17) ofs bs, s.wf = true → s.hid.boot.work = some (ofs, bs) → bs.length = 4096 →
     let a := updBase s + ofs
     let got := if s.hid.boot.blocks.contains ofs then s.hid.boot.blocks else ofs :: s.hid.boot.blocks
     let last := s.hid.boot.total ≤ 4096 * got.length
     let lands := fun t : State => (∀ i, i < 4096 → t.flByte (a + i) = bs.getD i 0#8) ∧
       (∀ k, (k < a ∨ a + 4096 ≤ k) → t.flByte k = s.flByte k) ∧ t.on F.BOOT_UPD_STAT_busy = false ∧ t.hid.boot.work = none ∧
       t.on F.BOOT_EVENT_block_done = true ∧ t.lpddr = s.lpddr ∧ t.sram = s.sram ∧ t.now = s.now
     let outside := fun t : State => ∀ k, (k < a ∨ a + 4096 ≤ k) → t.flByte k = s.flByte k
     let partly := fun t : State => (∀ i, i < 256 * pages.val → t.flByte (a + i) = bs.getD i 0#8) ∧
       (∀ i, 256 * pages.val ≤ i → i < 4096 → t.flByte (a + i) = 0xFF#8) ∧ outside t
     (s.hid.pwr.trans ≠ .toHarvest → ¬ last → Completes (.updBlockDone pages none false) s fun t => lands t ∧
       t.f F.BOOT_UPD_STAT_result = 0 ∧ t.f F.BOOT_UPD_STAT_recv = got.length % 4096 ∧ t.hid.boot.blocks = got ∧
       t.f F.BOOT_STAT_state = 2 ∧ t.hid.boot.upd = s.hid.boot.upd) ∧
     (s.hid.pwr.trans ≠ .toHarvest → last → Completes (.updBlockDone pages none false) s fun t => lands t ∧ t.hid.boot.blocks = [] ∧
       (t.f F.BOOT_UPD_STAT_result = 0 ∧ t.on F.BOOT_EVENT_upd_done = true ∧ t.f F.BOOT_STAT_state = 0 ∧
           t.hid.boot.upd = false ∧ t.hid.chnt.sweepT = none ∧ regionCheck t true = 0 ∨
         t.f F.BOOT_UPD_STAT_result = 0x88 ∧ t.f F.BOOT_UPD_STAT_recv = 0 ∧ t.on F.BOOT_EVENT_upd_fail = true ∧
           t.f F.BOOT_STAT_state = 2 ∧ t.hid.boot.upd = s.hid.boot.upd ∧
           (t.f F.BOOT_UPD_STAT_detail = regionCheck t true % 256 ∨ t.f F.BOOT_UPD_STAT_detail = regionCheck t false % 256))) ∧
     (∀ c, pageRefusal true s ≠ 0 → s.hid.pwr.trans ≠ .toHarvest → Completes (.updBlockDone pages (some c) false) s fun t =>
       t.f F.BOOT_UPD_STAT_result = 0x86 ∧ t.f F.BOOT_UPD_STAT_detail = pageRefusal true s ∧ t.on F.BOOT_EVENT_upd_fail = true ∧
       t.hid.boot.blocks = s.hid.boot.blocks ∧ t.on F.BOOT_UPD_STAT_busy = false ∧ partly t) ∧
     (s.hid.pwr.trans = .toHarvest → Completes (.updBlockDone pages none false) s fun t =>
       t.f F.BOOT_UPD_STAT_result = 0x86 ∧ t.f F.BOOT_UPD_STAT_detail = lossCode s ∧ t.on F.BOOT_EVENT_upd_fail = true ∧
       t.hid.boot.blocks = s.hid.boot.blocks ∧ t.on F.BOOT_UPD_STAT_busy = false ∧ outside t ∧ (pages.val ≠ 0 → partly t)) ∧
     Completes (.updBlockDone pages none true) s fun t => t.f F.BOOT_UPD_STAT_result = 0x87 ∧
       t.on F.BOOT_EVENT_upd_fail = true ∧ t.hid.boot.blocks = s.hid.boot.blocks ∧ t.on F.BOOT_UPD_STAT_busy = false ∧
       (∀ i, i < 256 * pages.val → t.flByte (a + i) = bs.getD i 0#8) ∧
       (pages.val ≠ 0 → ∀ i, 256 * (pages.val + 1) ≤ i → i < 4096 → t.flByte (a + i) = 0xFF#8) ∧ outside t) ∧
   (∀ s dumpOk, s.up = true → s.hid.pwr.trans ≠ .toLean → s.hid.boot.upd = true →
     let abandons := fun t : State => t.f F.BOOT_UPD_STAT_result = 0x8A ∧ t.on F.BOOT_EVENT_upd_fail = true ∧
       t.f F.BOOT_UPD_STAT_recv = 0 ∧ t.on F.BOOT_UPD_STAT_busy = false ∧
       t.hid.boot = { s.hid.boot with upd := false, blocks := [], work := none } ∧
       (s.hid.boot.work = none → t.flash = s.flash) ∧ (∀ x, s.hid.boot.work = some x →
         ∀ k, (k < updBase s + x.1 ∨ updBase s + x.1 + 4096 ≤ k) → t.flByte k = s.flByte k)
     Completes (.nrstLow dumpOk) s abandons ∧ Completes (.vsupFailWarning dumpOk) s abandons ∧
     (s.on F.HARV_STAT_src_vb = true → s.hid.boot.work = none → Completes (.storeAbort dumpOk) s abandons)) ∧
   (∀ c s t, exec c s = .next t → s.up = true → t.up = true → t.mode ≠ s.mode → t.mode ≠ DORMANT → t.mode ≠ CONFIGURE →
     t.hid.boot.upd = false))

/-- R463, R464, R469: CONFIRM and the OTP commands are refused by the first code that applies; CONFIRM advances a counter that
is behind while advances are left, and ends with 0x95 where none is and with 0x92 on an OTP failure; a slot is programmed once
and revoked only while another usable one remains. Which of two counters a failed OTP write had advanced is free, and the order
of 0x81 before 0x93 is the model's reading: log entries 33, 126. -/
def Obligations.ConfirmAndOtpGuardTheKeyStore : Prop :=
  (∀ s p v, Live p s R.BOOT_CONFIRM = true → (v : Word).getLsbD 0 = true →
    let code := if p = Port.fw then 0x81 else if v.extractLsb' 16 16 ≠ 0xC0F1#16 then 0x93
      else if s.mode ≠ DORMANT ∧ s.mode ≠ CONFIGURE ∧ s.mode ≠ STANDBY then 0x80
      else if s.on F.HARV_STAT_src_vb then 0x91 else if s.on F.BOOT_SET_STAT_active_ok = false then 0x90
      else if bootBusy s ∨ secBusy s then 0x8B else 0
    Completes (.bootConfirm p v) s (Sets [(F.BOOT_UPD_STAT_result, code)]
      (if code = 0 then withBoot s { s.hid.boot with confirm := true } else s.hid) s)) ∧
  (∀ s otpOk, s.hid.boot.confirm = true → Completes (.confirmDone otpOk) s fun t =>
    let o := s.hid.otp
    let fw := (s.rd64 R.BOOT_FW_ROLLBACK).toNat
    let fg := (s.rd R.FING_ROLLBACK).toNat
    let fwBehind := o.fw < fw
    let fgBehind := (s.force = 2 ∨ s.force = 3) ∧ o.fg < fg
    t.on F.BOOT_EVENT_confirm_done = true ∧ t.hid.boot = { s.hid.boot with confirm := false } ∧ t.lpddr = s.lpddr ∧ t.sram = s.sram ∧
    KeepRegs (fun off => off = R.BOOT_UPD_STAT ∨ off = R.BOOT_EVENT) s t ∧
    (fwBehind → o.fwLeft = 0 → t.f F.BOOT_UPD_STAT_result = 0x95 ∧ t.hid.otp = o ∧ t.flash = s.flash) ∧
    (fwBehind → o.fwLeft ≠ 0 → (otpOk : Bool) = false → ¬ fgBehind →
      t.f F.BOOT_UPD_STAT_result = 0x92 ∧ t.hid.otp = o ∧ t.flash = s.flash) ∧
    (fwBehind → o.fwLeft ≠ 0 → otpOk = false → fgBehind → t.flash = s.flash ∧
      (t.hid.otp = o ∧ t.f F.BOOT_UPD_STAT_result = 0x92 ∨ t.hid.otp = { o with fw := fw, fwLeft := o.fwLeft - 1 } ∧
        t.f F.BOOT_UPD_STAT_result = if o.fgLeft = 0 then 0x95 else 0x92)) ∧
    (fwBehind → o.fwLeft ≠ 0 → otpOk = true → t.hid.otp.fw = fw ∧ t.hid.otp.fwLeft = o.fwLeft - 1) ∧
    (¬ fwBehind → t.hid.otp.fw = o.fw ∧ t.hid.otp.fwLeft = o.fwLeft) ∧
    ((fwBehind → o.fwLeft ≠ 0) → fgBehind → o.fgLeft ≠ 0 → otpOk = true → t.hid.otp.fg = fg ∧ t.hid.otp.fgLeft = o.fgLeft - 1 ∧
      t.f F.BOOT_UPD_STAT_result = 0) ∧
    ((fwBehind → o.fwLeft ≠ 0) → fgBehind → o.fgLeft = 0 → otpOk = true → t.hid.otp.fg = o.fg ∧
      t.f F.BOOT_UPD_STAT_result = 0x95 ∧ t.flash = s.flash) ∧
    (¬ fwBehind → fgBehind → o.fgLeft ≠ 0 → otpOk = false → t.hid.otp = o ∧
      t.f F.BOOT_UPD_STAT_result = 0x92 ∧ t.flash = s.flash) ∧
    (¬ fwBehind → ¬ fgBehind → t.hid.otp = o ∧ t.f F.BOOT_UPD_STAT_result = 0 ∧ (staleHalf s = none → t.flash = s.flash) ∧
      (s.wf = true → ∀ b, staleHalf s = some b → ∀ i, i < at32 s.hid.boot.dir 0x20 →
        t.flByte (at32 s.hid.boot.dir (0x18 + 4 * b) + i) = 0xFF#8))) ∧
  (∀ s p v, Live p s R.SEC_OTP_CMD = true →
    let i := (v : Word).toNat / 256 % 4
    let gate := if p = Port.fw then 0x81 else if v.extractLsb' 16 16 ≠ 0xA15E#16 then 0x93
      else if s.mode ≠ CONFIGURE ∨ s.on F.HARV_STAT_src_vb then 0x80 else if bootBusy s ∨ secBusy s then 0x8B else 0
    let prog := if gate ≠ 0 then gate else if bit s.hid.otp.prog i then 0x94 else 0
    let rev := if gate ≠ 0 then gate else if bit s.hid.otp.prog i = false ∨ ¬ (∃ j : Fin 4, j.val ≠ i ∧
      bit s.hid.otp.prog j = true ∧ bit s.hid.otp.rev j = false) then 0x94 else 0
    let begins := fun op : SecOp => withBoot s { s.hid.boot with sec := some op }
    (prog ≠ 0 → Completes (.otpProgram p v) s (Sets [(F.SEC_STAT_result, prog)] s.hid s)) ∧
    (prog = 0 → Completes (.otpProgram p v) s (Sets [(F.SEC_STAT_result, 0), (F.SEC_STAT_busy, 1)]
      (begins (.program i (BitVec.ofNat 512 (leNat (wordsGet s R.SEC_KEYHASH 16))))) s)) ∧
    (rev ≠ 0 → Completes (.otpRevoke p v) s (Sets [(F.SEC_STAT_result, rev)] s.hid s)) ∧
    (rev = 0 → Completes (.otpRevoke p v) s (Sets [(F.SEC_STAT_result, 0), (F.SEC_STAT_busy, 1)] (begins (.revoke i)) s)))

/-- R470, R472: only firmware seals and unseals, and only a healthy random source serves seals, reports and random reads; a
command that begins holds its operand, and an operation running refuses the next; one whose buffer does not fit, or is no
multiple of 16, begins nothing, and its code is free (the model's choice: log entry 29). R464, R470, R472: a slot takes its
hash and its bit; a sealed body lies with its nonce and tag where the plain one did; a body whose tag verifies is unsealed, to
what was sealed, and any other left unchanged with 0x96; a report holds the device's state and the nonce, and a signature of
the identity key. -/
def Obligations.SecurityOperationsAreGuardedAndEnd : Prop :=
  ((∀ s p v rng, Live p s R.SEC_SEAL_CMD = true →
     let a := (s.rd R.SEC_SEAL_ADDR).toNat
     let n := (s.rd R.SEC_SEAL_LEN).toNat
     let fits := n % 16 = 0 ∧ n ≤ 2 ^ 20 ∧ 0x20000000 ≤ a ∧ a + n + 28 ≤ 0x20180000
     let gate := if p ≠ Port.fw then 0x81 else if secBusy s then 0x8B else 0
     let begins := fun op : SecOp => Sets [(F.SEC_STAT_result, 0), (F.SEC_STAT_busy, 1)] (withBoot s { s.hid.boot with sec := some op }) s
     (gate ≠ 0 → Completes (.seal p v rng) s (Sets [(F.SEC_STAT_result, gate)] s.hid s) ∧
       Completes (.unseal p v) s (Sets [(F.SEC_STAT_result, gate)] s.hid s)) ∧
     (gate = 0 → rng = false → Completes (.seal p v rng) s (Sets [(F.SEC_STAT_result, 0x97)] s.hid s)) ∧
     (gate = 0 → fits → (rng = true → Completes (.seal p v rng) s (begins (.seal (a - 0x20000000) n))) ∧
       Completes (.unseal p v) s (begins (.unseal (a - 0x20000000) n))) ∧
     (gate = 0 → ¬ fits →
       let nothing := fun t : State => t.hid = s.hid ∧ t.on F.SEC_STAT_busy = s.on F.SEC_STAT_busy ∧
         KeepRegs (fun off => off = R.SEC_STAT) s t ∧ SameMem s t ∧ t.now = s.now ∧ t.resp = s.resp
       (rng = true → Completes (.seal p v rng) s nothing) ∧ Completes (.unseal p v) s nothing)) ∧
   (∀ s p v rng, Live p s R.SEC_ATT_CMD = true →
     let code := if s.hid.boot.confirm ∨ secBusy s then 0x8B else if (rng : Bool) = false then 0x97 else 0
     (code ≠ 0 → Completes (.attest p v rng) s (Sets [(F.SEC_STAT_result, code)] s.hid s)) ∧
     (code = 0 → Completes (.attest p v rng) s (Sets [(F.SEC_ATT_CMD_go, 1), (F.SEC_STAT_result, 0), (F.SEC_STAT_busy, 1)]
       (withBoot s { s.hid.boot with sec := some (.attest (wordsGet s R.SEC_ATT_NONCE 8)) }) s))) ∧
   (∀ s p, Live p s R.SEC_RNG = true →
     Completes (.rngRead p true) s (fun t => (t.resp.get {} (portIx p)).data.length = 1 ∧ (t.resp.get {} (portIx p)).err = false ∧
       t.hid = s.hid ∧ ∀ off, t.rd off = s.rd off) ∧
     Completes (.rngRead p false) s fun t => t.resp.get {} (portIx p) = { data := [0#32], err := false } ∧
       t.on F.SEC_EVENT_rng_fault = true ∧ t.hid = s.hid ∧ KeepRegs (fun off => off = R.SEC_EVENT) s t)) ∧
  ((∀ nonce body, let g := gcmSeal settingsKey nonce [] body
     gcmOpen settingsKey nonce [] g.1 g.2 = some body) ∧
   ∀ s op, s.hid.boot.sec = some op →
     let idle := { s.hid.boot with sec := none }
     (∀ i h, op = .program i h →
       Completes (.secOperationDone true) s (Sets [(F.SEC_STAT_busy, 0), (F.SEC_EVENT_otp_done, 1)]
         { withBoot s idle with otp := { s.hid.otp with hash := s.hid.otp.hash.set i h, prog := putBit s.hid.otp.prog i true } } s) ∧
       Completes (.secOperationDone false) s
         (Sets [(F.SEC_STAT_busy, 0), (F.SEC_EVENT_otp_done, 1), (F.SEC_STAT_result, 0x92)] (withBoot s idle) s)) ∧
     (∀ i, op = .revoke i → Completes (.secOperationDone true) s (Sets [(F.SEC_STAT_busy, 0), (F.SEC_EVENT_otp_done, 1)]
         { withBoot s idle with otp := { s.hid.otp with rev := putBit s.hid.otp.rev i true } } s) ∧
       Completes (.secOperationDone false) s
         (Sets [(F.SEC_STAT_busy, 0), (F.SEC_EVENT_otp_done, 1), (F.SEC_STAT_result, 0x92)] (withBoot s idle) s)) ∧
     (∀ a n ok, op = .seal a n → Completes (.secOperationDone ok) s fun t => (∃ nonce : BitVec 96,
         let g := gcmSeal settingsKey (leBytes 12 nonce.toNat) [] (sramBytes s a n)
         SramHolds t a (g.1 ++ leBytes 12 nonce.toNat ++ g.2)) ∧
       (∀ k, k < a ∨ a + n + 28 ≤ k → t.srByte k = s.srByte k) ∧ t.on F.SEC_EVENT_seal_done = true ∧ t.on F.SEC_STAT_busy = false ∧
       t.hid = withBoot s idle) ∧
     (∀ a n ok, op = .unseal a n →
       Completes (.secOperationDone ok) s fun t => (openBody (sramBytes s a (n + 28)) n = none →
         Sets [(F.SEC_STAT_busy, 0), (F.SEC_EVENT_seal_done, 1), (F.SEC_STAT_result, 0x96)] (withBoot s idle) s t) ∧
       (∀ b, openBody (sramBytes s a (n + 28)) n = some b → b.length = n → SramHolds t a b ∧
         (∀ k, k < a ∨ a + n ≤ k → t.srByte k = s.srByte k) ∧ t.on F.SEC_EVENT_seal_done = true ∧ t.hid = withBoot s idle)) ∧
     (∀ nonce ok, op = .attest nonce → nonce.length = 32 → Completes (.secOperationDone ok) s fun t =>
       (∃ draw, wordsGet t R.SEC_ATT_BUF 101 = attBody s nonce ++ idSign (sha512 (attBody s nonce)) draw) ∧
       ((attBody s nonce).drop 0xE0).take 32 = nonce ∧ t.on F.SEC_ATT_CMD_go = false ∧ t.on F.SEC_EVENT_att_done = true ∧
       t.on F.SEC_STAT_busy = false ∧ t.hid = withBoot s idle ∧ SameMem s t ∧ t.now = s.now))
end

