-- ==== Sys2Proof/Laws/State.lean ====
section
/-!
SUPPORT. What each update of the state does to each field, by definition.
-/

namespace Sys2Proof.Machine

@[simp] theorem Upd.reg_pending (off : Nat) (v : Word) (s : State) : (Upd.apply (.reg off v) s).pending = s.pending := rfl
@[simp] theorem Upd.reg_now (off : Nat) (v : Word) (s : State) : (Upd.apply (.reg off v) s).now = s.now := rfl
@[simp] theorem Upd.reg_regs (off : Nat) (v : Word) (s : State) : (Upd.apply (.reg off v) s).regs = s.regs.put (resetWord off) off v := rfl
@[simp] theorem Upd.reg_snap (off : Nat) (v : Word) (s : State) : (Upd.apply (.reg off v) s).snap = s.snap := rfl
@[simp] theorem Upd.reg_latch (off : Nat) (v : Word) (s : State) : (Upd.apply (.reg off v) s).latch = s.latch := rfl
@[simp] theorem Upd.reg_lpddr (off : Nat) (v : Word) (s : State) : (Upd.apply (.reg off v) s).lpddr = s.lpddr := rfl
@[simp] theorem Upd.reg_flash (off : Nat) (v : Word) (s : State) : (Upd.apply (.reg off v) s).flash = s.flash := rfl
@[simp] theorem Upd.reg_sram (off : Nat) (v : Word) (s : State) : (Upd.apply (.reg off v) s).sram = s.sram := rfl
@[simp] theorem Upd.reg_fresh (off : Nat) (v : Word) (s : State) : (Upd.apply (.reg off v) s).fresh = s.fresh := rfl
@[simp] theorem Upd.reg_seen (off : Nat) (v : Word) (s : State) : (Upd.apply (.reg off v) s).seen = s.seen := rfl
@[simp] theorem Upd.reg_resp (off : Nat) (v : Word) (s : State) : (Upd.apply (.reg off v) s).resp = s.resp := rfl
@[simp] theorem Upd.reg_hid (off : Nat) (v : Word) (s : State) : (Upd.apply (.reg off v) s).hid = s.hid := rfl

@[simp] theorem Upd.regsKeep_pending (p : Nat → Bool) (s : State) : (Upd.apply (.regsKeep p) s).pending = s.pending := rfl
@[simp] theorem Upd.regsKeep_now (p : Nat → Bool) (s : State) : (Upd.apply (.regsKeep p) s).now = s.now := rfl
@[simp] theorem Upd.regsKeep_regs (p : Nat → Bool) (s : State) : (Upd.apply (.regsKeep p) s).regs = s.regs.keep p := rfl
@[simp] theorem Upd.regsKeep_snap (p : Nat → Bool) (s : State) : (Upd.apply (.regsKeep p) s).snap = s.snap := rfl
@[simp] theorem Upd.regsKeep_latch (p : Nat → Bool) (s : State) : (Upd.apply (.regsKeep p) s).latch = s.latch := rfl
@[simp] theorem Upd.regsKeep_lpddr (p : Nat → Bool) (s : State) : (Upd.apply (.regsKeep p) s).lpddr = s.lpddr := rfl
@[simp] theorem Upd.regsKeep_flash (p : Nat → Bool) (s : State) : (Upd.apply (.regsKeep p) s).flash = s.flash := rfl
@[simp] theorem Upd.regsKeep_sram (p : Nat → Bool) (s : State) : (Upd.apply (.regsKeep p) s).sram = s.sram := rfl
@[simp] theorem Upd.regsKeep_fresh (p : Nat → Bool) (s : State) : (Upd.apply (.regsKeep p) s).fresh = s.fresh := rfl
@[simp] theorem Upd.regsKeep_seen (p : Nat → Bool) (s : State) : (Upd.apply (.regsKeep p) s).seen = s.seen := rfl
@[simp] theorem Upd.regsKeep_resp (p : Nat → Bool) (s : State) : (Upd.apply (.regsKeep p) s).resp = s.resp := rfl
@[simp] theorem Upd.regsKeep_hid (p : Nat → Bool) (s : State) : (Upd.apply (.regsKeep p) s).hid = s.hid := rfl

@[simp] theorem Upd.snap_pending (k : Nat) (v : Word) (s : State) : (Upd.apply (.snap k v) s).pending = s.pending := rfl
@[simp] theorem Upd.snap_now (k : Nat) (v : Word) (s : State) : (Upd.apply (.snap k v) s).now = s.now := rfl
@[simp] theorem Upd.snap_regs (k : Nat) (v : Word) (s : State) : (Upd.apply (.snap k v) s).regs = s.regs := rfl
@[simp] theorem Upd.snap_snap (k : Nat) (v : Word) (s : State) : (Upd.apply (.snap k v) s).snap = s.snap.put 0#32 k v := rfl
@[simp] theorem Upd.snap_latch (k : Nat) (v : Word) (s : State) : (Upd.apply (.snap k v) s).latch = s.latch := rfl
@[simp] theorem Upd.snap_lpddr (k : Nat) (v : Word) (s : State) : (Upd.apply (.snap k v) s).lpddr = s.lpddr := rfl
@[simp] theorem Upd.snap_flash (k : Nat) (v : Word) (s : State) : (Upd.apply (.snap k v) s).flash = s.flash := rfl
@[simp] theorem Upd.snap_sram (k : Nat) (v : Word) (s : State) : (Upd.apply (.snap k v) s).sram = s.sram := rfl
@[simp] theorem Upd.snap_fresh (k : Nat) (v : Word) (s : State) : (Upd.apply (.snap k v) s).fresh = s.fresh := rfl
@[simp] theorem Upd.snap_seen (k : Nat) (v : Word) (s : State) : (Upd.apply (.snap k v) s).seen = s.seen := rfl
@[simp] theorem Upd.snap_resp (k : Nat) (v : Word) (s : State) : (Upd.apply (.snap k v) s).resp = s.resp := rfl
@[simp] theorem Upd.snap_hid (k : Nat) (v : Word) (s : State) : (Upd.apply (.snap k v) s).hid = s.hid := rfl

@[simp] theorem Upd.latch_pending (k : Nat) (v : Nat × Word) (s : State) : (Upd.apply (.latch k v) s).pending = s.pending := rfl
@[simp] theorem Upd.latch_now (k : Nat) (v : Nat × Word) (s : State) : (Upd.apply (.latch k v) s).now = s.now := rfl
@[simp] theorem Upd.latch_regs (k : Nat) (v : Nat × Word) (s : State) : (Upd.apply (.latch k v) s).regs = s.regs := rfl
@[simp] theorem Upd.latch_snap (k : Nat) (v : Nat × Word) (s : State) : (Upd.apply (.latch k v) s).snap = s.snap := rfl
@[simp] theorem Upd.latch_latch (k : Nat) (v : Nat × Word) (s : State) : (Upd.apply (.latch k v) s).latch = s.latch.put (0, 0#32) k v := rfl
@[simp] theorem Upd.latch_lpddr (k : Nat) (v : Nat × Word) (s : State) : (Upd.apply (.latch k v) s).lpddr = s.lpddr := rfl
@[simp] theorem Upd.latch_flash (k : Nat) (v : Nat × Word) (s : State) : (Upd.apply (.latch k v) s).flash = s.flash := rfl
@[simp] theorem Upd.latch_sram (k : Nat) (v : Nat × Word) (s : State) : (Upd.apply (.latch k v) s).sram = s.sram := rfl
@[simp] theorem Upd.latch_fresh (k : Nat) (v : Nat × Word) (s : State) : (Upd.apply (.latch k v) s).fresh = s.fresh := rfl
@[simp] theorem Upd.latch_seen (k : Nat) (v : Nat × Word) (s : State) : (Upd.apply (.latch k v) s).seen = s.seen := rfl
@[simp] theorem Upd.latch_resp (k : Nat) (v : Nat × Word) (s : State) : (Upd.apply (.latch k v) s).resp = s.resp := rfl
@[simp] theorem Upd.latch_hid (k : Nat) (v : Nat × Word) (s : State) : (Upd.apply (.latch k v) s).hid = s.hid := rfl

@[simp] theorem Upd.lpddr_pending (a : Nat) (b : Byte) (s : State) : (Upd.apply (.lpddr a b) s).pending = s.pending := rfl
@[simp] theorem Upd.lpddr_now (a : Nat) (b : Byte) (s : State) : (Upd.apply (.lpddr a b) s).now = s.now := rfl
@[simp] theorem Upd.lpddr_regs (a : Nat) (b : Byte) (s : State) : (Upd.apply (.lpddr a b) s).regs = s.regs := rfl
@[simp] theorem Upd.lpddr_snap (a : Nat) (b : Byte) (s : State) : (Upd.apply (.lpddr a b) s).snap = s.snap := rfl
@[simp] theorem Upd.lpddr_latch (a : Nat) (b : Byte) (s : State) : (Upd.apply (.lpddr a b) s).latch = s.latch := rfl
@[simp] theorem Upd.lpddr_lpddr (a : Nat) (b : Byte) (s : State) : (Upd.apply (.lpddr a b) s).lpddr = s.lpddr.put ramBlank a b := rfl
@[simp] theorem Upd.lpddr_flash (a : Nat) (b : Byte) (s : State) : (Upd.apply (.lpddr a b) s).flash = s.flash := rfl
@[simp] theorem Upd.lpddr_sram (a : Nat) (b : Byte) (s : State) : (Upd.apply (.lpddr a b) s).sram = s.sram := rfl
@[simp] theorem Upd.lpddr_fresh (a : Nat) (b : Byte) (s : State) : (Upd.apply (.lpddr a b) s).fresh = s.fresh := rfl
@[simp] theorem Upd.lpddr_seen (a : Nat) (b : Byte) (s : State) : (Upd.apply (.lpddr a b) s).seen = s.seen := rfl
@[simp] theorem Upd.lpddr_resp (a : Nat) (b : Byte) (s : State) : (Upd.apply (.lpddr a b) s).resp = s.resp := rfl
@[simp] theorem Upd.lpddr_hid (a : Nat) (b : Byte) (s : State) : (Upd.apply (.lpddr a b) s).hid = s.hid := rfl

@[simp] theorem Upd.flash_pending (a : Nat) (b : Byte) (s : State) : (Upd.apply (.flash a b) s).pending = s.pending := rfl
@[simp] theorem Upd.flash_now (a : Nat) (b : Byte) (s : State) : (Upd.apply (.flash a b) s).now = s.now := rfl
@[simp] theorem Upd.flash_regs (a : Nat) (b : Byte) (s : State) : (Upd.apply (.flash a b) s).regs = s.regs := rfl
@[simp] theorem Upd.flash_snap (a : Nat) (b : Byte) (s : State) : (Upd.apply (.flash a b) s).snap = s.snap := rfl
@[simp] theorem Upd.flash_latch (a : Nat) (b : Byte) (s : State) : (Upd.apply (.flash a b) s).latch = s.latch := rfl
@[simp] theorem Upd.flash_lpddr (a : Nat) (b : Byte) (s : State) : (Upd.apply (.flash a b) s).lpddr = s.lpddr := rfl
@[simp] theorem Upd.flash_flash (a : Nat) (b : Byte) (s : State) : (Upd.apply (.flash a b) s).flash = s.flash.put flashBlank a b := rfl
@[simp] theorem Upd.flash_sram (a : Nat) (b : Byte) (s : State) : (Upd.apply (.flash a b) s).sram = s.sram := rfl
@[simp] theorem Upd.flash_fresh (a : Nat) (b : Byte) (s : State) : (Upd.apply (.flash a b) s).fresh = s.fresh := rfl
@[simp] theorem Upd.flash_seen (a : Nat) (b : Byte) (s : State) : (Upd.apply (.flash a b) s).seen = s.seen := rfl
@[simp] theorem Upd.flash_resp (a : Nat) (b : Byte) (s : State) : (Upd.apply (.flash a b) s).resp = s.resp := rfl
@[simp] theorem Upd.flash_hid (a : Nat) (b : Byte) (s : State) : (Upd.apply (.flash a b) s).hid = s.hid := rfl

@[simp] theorem Upd.sram_pending (a : Nat) (b : Byte) (s : State) : (Upd.apply (.sram a b) s).pending = s.pending := rfl
@[simp] theorem Upd.sram_now (a : Nat) (b : Byte) (s : State) : (Upd.apply (.sram a b) s).now = s.now := rfl
@[simp] theorem Upd.sram_regs (a : Nat) (b : Byte) (s : State) : (Upd.apply (.sram a b) s).regs = s.regs := rfl
@[simp] theorem Upd.sram_snap (a : Nat) (b : Byte) (s : State) : (Upd.apply (.sram a b) s).snap = s.snap := rfl
@[simp] theorem Upd.sram_latch (a : Nat) (b : Byte) (s : State) : (Upd.apply (.sram a b) s).latch = s.latch := rfl
@[simp] theorem Upd.sram_lpddr (a : Nat) (b : Byte) (s : State) : (Upd.apply (.sram a b) s).lpddr = s.lpddr := rfl
@[simp] theorem Upd.sram_flash (a : Nat) (b : Byte) (s : State) : (Upd.apply (.sram a b) s).flash = s.flash := rfl
@[simp] theorem Upd.sram_sram (a : Nat) (b : Byte) (s : State) : (Upd.apply (.sram a b) s).sram = s.sram.put ramBlank a b := rfl
@[simp] theorem Upd.sram_fresh (a : Nat) (b : Byte) (s : State) : (Upd.apply (.sram a b) s).fresh = s.fresh := rfl
@[simp] theorem Upd.sram_seen (a : Nat) (b : Byte) (s : State) : (Upd.apply (.sram a b) s).seen = s.seen := rfl
@[simp] theorem Upd.sram_resp (a : Nat) (b : Byte) (s : State) : (Upd.apply (.sram a b) s).resp = s.resp := rfl
@[simp] theorem Upd.sram_hid (a : Nat) (b : Byte) (s : State) : (Upd.apply (.sram a b) s).hid = s.hid := rfl

@[simp] theorem Upd.flashErase_pending (lo hi : Nat) (s : State) : (Upd.apply (.flashErase lo hi) s).pending = s.pending := rfl
@[simp] theorem Upd.flashErase_now (lo hi : Nat) (s : State) : (Upd.apply (.flashErase lo hi) s).now = s.now := rfl
@[simp] theorem Upd.flashErase_regs (lo hi : Nat) (s : State) : (Upd.apply (.flashErase lo hi) s).regs = s.regs := rfl
@[simp] theorem Upd.flashErase_snap (lo hi : Nat) (s : State) : (Upd.apply (.flashErase lo hi) s).snap = s.snap := rfl
@[simp] theorem Upd.flashErase_latch (lo hi : Nat) (s : State) : (Upd.apply (.flashErase lo hi) s).latch = s.latch := rfl
@[simp] theorem Upd.flashErase_lpddr (lo hi : Nat) (s : State) : (Upd.apply (.flashErase lo hi) s).lpddr = s.lpddr := rfl
@[simp] theorem Upd.flashErase_flash (lo hi : Nat) (s : State) : (Upd.apply (.flashErase lo hi) s).flash = s.flash.keep (fun k => decide (k < lo) || decide (hi ≤ k)) := rfl
@[simp] theorem Upd.flashErase_sram (lo hi : Nat) (s : State) : (Upd.apply (.flashErase lo hi) s).sram = s.sram := rfl
@[simp] theorem Upd.flashErase_fresh (lo hi : Nat) (s : State) : (Upd.apply (.flashErase lo hi) s).fresh = s.fresh := rfl
@[simp] theorem Upd.flashErase_seen (lo hi : Nat) (s : State) : (Upd.apply (.flashErase lo hi) s).seen = s.seen := rfl
@[simp] theorem Upd.flashErase_resp (lo hi : Nat) (s : State) : (Upd.apply (.flashErase lo hi) s).resp = s.resp := rfl
@[simp] theorem Upd.flashErase_hid (lo hi : Nat) (s : State) : (Upd.apply (.flashErase lo hi) s).hid = s.hid := rfl

@[simp] theorem Upd.lpddrLost_pending (s : State) : (Upd.apply (.lpddrLost) s).pending = s.pending := rfl
@[simp] theorem Upd.lpddrLost_now (s : State) : (Upd.apply (.lpddrLost) s).now = s.now := rfl
@[simp] theorem Upd.lpddrLost_regs (s : State) : (Upd.apply (.lpddrLost) s).regs = s.regs := rfl
@[simp] theorem Upd.lpddrLost_snap (s : State) : (Upd.apply (.lpddrLost) s).snap = s.snap := rfl
@[simp] theorem Upd.lpddrLost_latch (s : State) : (Upd.apply (.lpddrLost) s).latch = s.latch := rfl
@[simp] theorem Upd.lpddrLost_lpddr (s : State) : (Upd.apply (.lpddrLost) s).lpddr = [] := rfl
@[simp] theorem Upd.lpddrLost_flash (s : State) : (Upd.apply (.lpddrLost) s).flash = s.flash := rfl
@[simp] theorem Upd.lpddrLost_sram (s : State) : (Upd.apply (.lpddrLost) s).sram = s.sram := rfl
@[simp] theorem Upd.lpddrLost_fresh (s : State) : (Upd.apply (.lpddrLost) s).fresh = s.fresh := rfl
@[simp] theorem Upd.lpddrLost_seen (s : State) : (Upd.apply (.lpddrLost) s).seen = s.seen := rfl
@[simp] theorem Upd.lpddrLost_resp (s : State) : (Upd.apply (.lpddrLost) s).resp = s.resp := rfl
@[simp] theorem Upd.lpddrLost_hid (s : State) : (Upd.apply (.lpddrLost) s).hid = s.hid := rfl

@[simp] theorem Upd.sramLost_pending (s : State) : (Upd.apply (.sramLost) s).pending = s.pending := rfl
@[simp] theorem Upd.sramLost_now (s : State) : (Upd.apply (.sramLost) s).now = s.now := rfl
@[simp] theorem Upd.sramLost_regs (s : State) : (Upd.apply (.sramLost) s).regs = s.regs := rfl
@[simp] theorem Upd.sramLost_snap (s : State) : (Upd.apply (.sramLost) s).snap = s.snap := rfl
@[simp] theorem Upd.sramLost_latch (s : State) : (Upd.apply (.sramLost) s).latch = s.latch := rfl
@[simp] theorem Upd.sramLost_lpddr (s : State) : (Upd.apply (.sramLost) s).lpddr = s.lpddr := rfl
@[simp] theorem Upd.sramLost_flash (s : State) : (Upd.apply (.sramLost) s).flash = s.flash := rfl
@[simp] theorem Upd.sramLost_sram (s : State) : (Upd.apply (.sramLost) s).sram = [] := rfl
@[simp] theorem Upd.sramLost_fresh (s : State) : (Upd.apply (.sramLost) s).fresh = s.fresh := rfl
@[simp] theorem Upd.sramLost_seen (s : State) : (Upd.apply (.sramLost) s).seen = s.seen := rfl
@[simp] theorem Upd.sramLost_resp (s : State) : (Upd.apply (.sramLost) s).resp = s.resp := rfl
@[simp] theorem Upd.sramLost_hid (s : State) : (Upd.apply (.sramLost) s).hid = s.hid := rfl

@[simp] theorem Upd.latchesLost_pending (s : State) : (Upd.apply (.latchesLost) s).pending = s.pending := rfl
@[simp] theorem Upd.latchesLost_now (s : State) : (Upd.apply (.latchesLost) s).now = s.now := rfl
@[simp] theorem Upd.latchesLost_regs (s : State) : (Upd.apply (.latchesLost) s).regs = s.regs := rfl
@[simp] theorem Upd.latchesLost_snap (s : State) : (Upd.apply (.latchesLost) s).snap = [] := rfl
@[simp] theorem Upd.latchesLost_latch (s : State) : (Upd.apply (.latchesLost) s).latch = [] := rfl
@[simp] theorem Upd.latchesLost_lpddr (s : State) : (Upd.apply (.latchesLost) s).lpddr = s.lpddr := rfl
@[simp] theorem Upd.latchesLost_flash (s : State) : (Upd.apply (.latchesLost) s).flash = s.flash := rfl
@[simp] theorem Upd.latchesLost_sram (s : State) : (Upd.apply (.latchesLost) s).sram = s.sram := rfl
@[simp] theorem Upd.latchesLost_fresh (s : State) : (Upd.apply (.latchesLost) s).fresh = s.fresh := rfl
@[simp] theorem Upd.latchesLost_seen (s : State) : (Upd.apply (.latchesLost) s).seen = s.seen := rfl
@[simp] theorem Upd.latchesLost_resp (s : State) : (Upd.apply (.latchesLost) s).resp = s.resp := rfl
@[simp] theorem Upd.latchesLost_hid (s : State) : (Upd.apply (.latchesLost) s).hid = s.hid := rfl

@[simp] theorem Upd.now_pending (x : BitVec 64) (s : State) : (Upd.apply (.now x) s).pending = s.pending := rfl
@[simp] theorem Upd.now_now (x : BitVec 64) (s : State) : (Upd.apply (.now x) s).now = x := rfl
@[simp] theorem Upd.now_regs (x : BitVec 64) (s : State) : (Upd.apply (.now x) s).regs = s.regs := rfl
@[simp] theorem Upd.now_snap (x : BitVec 64) (s : State) : (Upd.apply (.now x) s).snap = s.snap := rfl
@[simp] theorem Upd.now_latch (x : BitVec 64) (s : State) : (Upd.apply (.now x) s).latch = s.latch := rfl
@[simp] theorem Upd.now_lpddr (x : BitVec 64) (s : State) : (Upd.apply (.now x) s).lpddr = s.lpddr := rfl
@[simp] theorem Upd.now_flash (x : BitVec 64) (s : State) : (Upd.apply (.now x) s).flash = s.flash := rfl
@[simp] theorem Upd.now_sram (x : BitVec 64) (s : State) : (Upd.apply (.now x) s).sram = s.sram := rfl
@[simp] theorem Upd.now_fresh (x : BitVec 64) (s : State) : (Upd.apply (.now x) s).fresh = s.fresh := rfl
@[simp] theorem Upd.now_seen (x : BitVec 64) (s : State) : (Upd.apply (.now x) s).seen = s.seen := rfl
@[simp] theorem Upd.now_resp (x : BitVec 64) (s : State) : (Upd.apply (.now x) s).resp = s.resp := rfl
@[simp] theorem Upd.now_hid (x : BitVec 64) (s : State) : (Upd.apply (.now x) s).hid = s.hid := rfl

@[simp] theorem Upd.fresh_pending (s : State) : (Upd.apply (.fresh) s).pending = s.pending := rfl
@[simp] theorem Upd.fresh_now (s : State) : (Upd.apply (.fresh) s).now = s.now := rfl
@[simp] theorem Upd.fresh_regs (s : State) : (Upd.apply (.fresh) s).regs = s.regs := rfl
@[simp] theorem Upd.fresh_snap (s : State) : (Upd.apply (.fresh) s).snap = s.snap := rfl
@[simp] theorem Upd.fresh_latch (s : State) : (Upd.apply (.fresh) s).latch = s.latch := rfl
@[simp] theorem Upd.fresh_lpddr (s : State) : (Upd.apply (.fresh) s).lpddr = s.lpddr := rfl
@[simp] theorem Upd.fresh_flash (s : State) : (Upd.apply (.fresh) s).flash = s.flash := rfl
@[simp] theorem Upd.fresh_sram (s : State) : (Upd.apply (.fresh) s).sram = s.sram := rfl
@[simp] theorem Upd.fresh_fresh (s : State) : (Upd.apply (.fresh) s).fresh = s.fresh + 1 := rfl
@[simp] theorem Upd.fresh_seen (s : State) : (Upd.apply (.fresh) s).seen = s.seen := rfl
@[simp] theorem Upd.fresh_resp (s : State) : (Upd.apply (.fresh) s).resp = s.resp := rfl
@[simp] theorem Upd.fresh_hid (s : State) : (Upd.apply (.fresh) s).hid = s.hid := rfl

@[simp] theorem Upd.seen_pending (n : Nat) (s : State) : (Upd.apply (.seen n) s).pending = s.pending := rfl
@[simp] theorem Upd.seen_now (n : Nat) (s : State) : (Upd.apply (.seen n) s).now = s.now := rfl
@[simp] theorem Upd.seen_regs (n : Nat) (s : State) : (Upd.apply (.seen n) s).regs = s.regs := rfl
@[simp] theorem Upd.seen_snap (n : Nat) (s : State) : (Upd.apply (.seen n) s).snap = s.snap := rfl
@[simp] theorem Upd.seen_latch (n : Nat) (s : State) : (Upd.apply (.seen n) s).latch = s.latch := rfl
@[simp] theorem Upd.seen_lpddr (n : Nat) (s : State) : (Upd.apply (.seen n) s).lpddr = s.lpddr := rfl
@[simp] theorem Upd.seen_flash (n : Nat) (s : State) : (Upd.apply (.seen n) s).flash = s.flash := rfl
@[simp] theorem Upd.seen_sram (n : Nat) (s : State) : (Upd.apply (.seen n) s).sram = s.sram := rfl
@[simp] theorem Upd.seen_fresh (n : Nat) (s : State) : (Upd.apply (.seen n) s).fresh = s.fresh := rfl
@[simp] theorem Upd.seen_resp (n : Nat) (s : State) : (Upd.apply (.seen n) s).resp = s.resp := rfl
@[simp] theorem Upd.seen_hid (n : Nat) (s : State) : (Upd.apply (.seen n) s).hid = s.hid := rfl
@[simp] theorem Upd.seen_seen (n : Nat) (s : State) : (Upd.apply (.seen n) s).seen = n := rfl

@[simp] theorem Upd.resp_pending (p : Nat) (r : PortResp) (s : State) : (Upd.apply (.resp p r) s).pending = s.pending := rfl
@[simp] theorem Upd.resp_now (p : Nat) (r : PortResp) (s : State) : (Upd.apply (.resp p r) s).now = s.now := rfl
@[simp] theorem Upd.resp_regs (p : Nat) (r : PortResp) (s : State) : (Upd.apply (.resp p r) s).regs = s.regs := rfl
@[simp] theorem Upd.resp_snap (p : Nat) (r : PortResp) (s : State) : (Upd.apply (.resp p r) s).snap = s.snap := rfl
@[simp] theorem Upd.resp_latch (p : Nat) (r : PortResp) (s : State) : (Upd.apply (.resp p r) s).latch = s.latch := rfl
@[simp] theorem Upd.resp_lpddr (p : Nat) (r : PortResp) (s : State) : (Upd.apply (.resp p r) s).lpddr = s.lpddr := rfl
@[simp] theorem Upd.resp_flash (p : Nat) (r : PortResp) (s : State) : (Upd.apply (.resp p r) s).flash = s.flash := rfl
@[simp] theorem Upd.resp_sram (p : Nat) (r : PortResp) (s : State) : (Upd.apply (.resp p r) s).sram = s.sram := rfl
@[simp] theorem Upd.resp_fresh (p : Nat) (r : PortResp) (s : State) : (Upd.apply (.resp p r) s).fresh = s.fresh := rfl
@[simp] theorem Upd.resp_seen (p : Nat) (r : PortResp) (s : State) : (Upd.apply (.resp p r) s).seen = s.seen := rfl
@[simp] theorem Upd.resp_resp (p : Nat) (r : PortResp) (s : State) : (Upd.apply (.resp p r) s).resp = s.resp.put {} p r := rfl
@[simp] theorem Upd.resp_hid (p : Nat) (r : PortResp) (s : State) : (Upd.apply (.resp p r) s).hid = s.hid := rfl

@[simp] theorem Upd.hid_pending (g : Hid → Hid) (s : State) : (Upd.apply (.hid g) s).pending = s.pending := rfl
@[simp] theorem Upd.hid_now (g : Hid → Hid) (s : State) : (Upd.apply (.hid g) s).now = s.now := rfl
@[simp] theorem Upd.hid_regs (g : Hid → Hid) (s : State) : (Upd.apply (.hid g) s).regs = s.regs := rfl
@[simp] theorem Upd.hid_snap (g : Hid → Hid) (s : State) : (Upd.apply (.hid g) s).snap = s.snap := rfl
@[simp] theorem Upd.hid_latch (g : Hid → Hid) (s : State) : (Upd.apply (.hid g) s).latch = s.latch := rfl
@[simp] theorem Upd.hid_lpddr (g : Hid → Hid) (s : State) : (Upd.apply (.hid g) s).lpddr = s.lpddr := rfl
@[simp] theorem Upd.hid_flash (g : Hid → Hid) (s : State) : (Upd.apply (.hid g) s).flash = s.flash := rfl
@[simp] theorem Upd.hid_sram (g : Hid → Hid) (s : State) : (Upd.apply (.hid g) s).sram = s.sram := rfl
@[simp] theorem Upd.hid_fresh (g : Hid → Hid) (s : State) : (Upd.apply (.hid g) s).fresh = s.fresh := rfl
@[simp] theorem Upd.hid_seen (g : Hid → Hid) (s : State) : (Upd.apply (.hid g) s).seen = s.seen := rfl
@[simp] theorem Upd.hid_resp (g : Hid → Hid) (s : State) : (Upd.apply (.hid g) s).resp = s.resp := rfl
@[simp] theorem Upd.hid_hid (g : Hid → Hid) (s : State) : (Upd.apply (.hid g) s).hid = g s.hid := rfl

end Sys2Proof.Machine
end

