-- ==== Sys2Proof/Laws/Tab.lean ====
section
/-!
SUPPORT. Laws of the canonical tables: what a read finds after a write, and that every operation keeps the canonical form.
-/

namespace Sys2Proof.Machine

variable {α : Type}

/-- Dropping the entries up to `n` leaves what keys above `n` read. -/
theorem Tab.get_above (d : α) (n m : Nat) (h : n < m) (t : Tab α) : (Tab.above n t).get d m = t.get d m := by
  induction t with
  | nil => rfl
  | cons x t ih =>
    obtain ⟨k, v⟩ := x
    unfold Tab.above
    split
    · rename_i hk
      simp only [Tab.get]
      rw [if_neg (by omega), if_neg (by omega)]
      exact ih
    · rfl

/-- Dropping the entries up to `n` leaves nothing at the keys up to `n`. -/
theorem Tab.get_above_le (d : α) (n m : Nat) (h : m ≤ n) (t : Tab α) : (Tab.above n t).get d m = d := by
  induction t with
  | nil => rfl
  | cons x t ih =>
    obtain ⟨k, v⟩ := x
    unfold Tab.above
    split
    · exact ih
    · simp only [Tab.get]
      rw [if_neg (by omega), if_pos (by omega)]

/-- What is left after leading entries are dropped was there. -/
theorem Tab.mem_above (n : Nat) (t : Tab α) : ∀ z ∈ Tab.above n t, z ∈ t := by
  induction t with
  | nil => intro z hz; cases hz
  | cons a t ih =>
    obtain ⟨b, c⟩ := a
    intro z hz
    unfold Tab.above at hz
    split at hz
    · exact List.mem_cons_of_mem _ (ih z hz)
    · exact hz

/-- Leading entries are dropped once. -/
theorem Tab.above_above (n : Nat) (t : Tab α) : Tab.above n (Tab.above n t) = Tab.above n t := by
  induction t with
  | nil => rfl
  | cons x t ih => by_cases hk : x.1 ≤ n <;> simp [Tab.above, hk, ih]

/-- What is left begins above `n`, so that a write at `n` puts its entry in front. -/
theorem Tab.put_above [DecidableEq α] (d : α) (n : Nat) (v : α) (t : Tab α) :
    Tab.put d (Tab.above n t) n v = if v = d then Tab.above n t else (n, v) :: Tab.above n t := by
  induction t with
  | nil => rfl
  | cons x t ih =>
    obtain ⟨k, w⟩ := x
    unfold Tab.above
    split
    · exact ih
    · rename_i hk; rw [Tab.put, if_pos (by omega)]

/-- The later of two writes at one key stands, in any table. -/
theorem Tab.put_put [DecidableEq α] (d : α) (n : Nat) (a b : α) (t : Tab α) :
    (t.put d n a).put d n b = t.put d n b := by
  induction t with
  | nil => by_cases ha : a = d <;> simp [Tab.put, Tab.above, ha]
  | cons x t ih =>
    obtain ⟨k, w⟩ := x
    by_cases hnk : n < k
    · by_cases ha : a = d <;>
        simp [Tab.put, hnk, ha, Tab.above, show ¬ k ≤ n by omega]
    · by_cases hk : n = k
      · subst hk
        by_cases ha : a = d <;> simp [Tab.put, ha, Tab.above_above, Tab.put_above]
      · simp [Tab.put, hnk, hk, ih]

/-- A read after a write: the written value at its key, elsewhere what was there. -/
theorem Tab.get_put [DecidableEq α] (d : α) (n m : Nat) (v d' : α) (h : n = m → d' = d) (t : Tab α) :
    (t.put d n v).get d' m = if m = n then v else t.get d' m := by
  induction t with
  | nil =>
    unfold Tab.put
    split
    · split
      · subst_vars; simp [Tab.get, h rfl]
      · rfl
    · simp only [Tab.get]
      split <;> simp_all
  | cons x t ih =>
    obtain ⟨k, w⟩ := x
    unfold Tab.put
    split
    · rename_i hnk
      split
      · split
        · subst_vars
          simp only [Tab.get]
          rw [if_neg (by omega), if_pos (by omega), h rfl]
        · rfl
      · simp only [Tab.get]
        by_cases hm : m = n
        · simp [hm]
        · simp only [hm, if_false]
          by_cases hlt : m < n
          · rw [if_pos hlt, if_neg (by omega), if_pos (by omega)]
          · rw [if_neg hlt]
    · split
      · rename_i hnk hk
        subst hk
        split
        · rename_i hv
          by_cases hm : m = n
          · rw [if_pos hm, hv, Tab.get_above_le d' n m (by omega), h hm.symm]
          · rw [if_neg hm]
            simp only [Tab.get, if_neg hm]
            by_cases hlt : m < n
            · rw [if_pos hlt, Tab.get_above_le d' n m (by omega)]
            · rw [if_neg hlt, Tab.get_above d' n m (by omega)]
        · simp only [Tab.get]
          by_cases hm : m = n
          · simp [hm]
          · simp only [hm, if_false]
            by_cases hlt : m < n
            · rw [if_pos hlt, if_pos hlt]
            · rw [if_neg hlt, if_neg hlt, Tab.get_above d' n m (by omega)]
      · rename_i hnk hk
        simp only [Tab.get]
        by_cases hmk : m = k
        · simp only [hmk, if_true]
          rw [if_neg (by omega)]
        · rw [if_neg hmk, if_neg hmk]
          by_cases hlt : m < k
          · rw [if_pos hlt, if_pos hlt, if_neg (by omega)]
          · rw [if_neg hlt, if_neg hlt]
            exact ih

/-! ### The canonical form -/

/-- The keys of a canonical table lie above `lo`. -/
def Tab.keysAbove (lo : Nat) (t : Tab α) : Prop := ∀ x ∈ t, lo < x.1

/-- The canonical form, unfolded once. -/
theorem Tab.wf_cons [DecidableEq α] (d : Nat → α) (k : Nat) (v : α) (t : Tab α) :
    Tab.wf d ((k, v) :: t) = true ↔ v ≠ d k ∧ Tab.keysAbove k t ∧ Tab.wf d t = true := by
  induction t generalizing k v with
  | nil => simp [Tab.wf, Tab.keysAbove]
  | cons x t ih =>
    obtain ⟨k', v'⟩ := x
    have := ih k' v'
    simp only [Tab.wf, Bool.and_eq_true, decide_eq_true_eq, this]
    constructor
    · rintro ⟨⟨h1, h2⟩, h3, h4, h5⟩
      refine ⟨h2, ?_, h3, h4, h5⟩
      intro y hy
      rcases List.mem_cons.1 hy with rfl | hy
      · exact h1
      · exact Nat.lt_trans h1 (h4 y hy)
    · rintro ⟨h1, h2, h3, h4, h5⟩
      exact ⟨⟨h2 (k', v') (by simp), h1⟩, h3, h4, h5⟩

/-- Dropping leading entries keeps the canonical form and raises its keys. -/
theorem Tab.above_wf [DecidableEq α] (d : Nat → α) (n : Nat) (t : Tab α) (h : t.wf d = true) :
    (Tab.above n t).wf d = true ∧ Tab.keysAbove n (Tab.above n t) ∧ ∀ x ∈ Tab.above n t, x ∈ t := by
  induction t with
  | nil => exact ⟨rfl, fun x hx => by simp [Tab.above] at hx, fun x hx => by simp [Tab.above] at hx⟩
  | cons x t ih =>
    obtain ⟨k, v⟩ := x
    have hw := (Tab.wf_cons d k v t).1 h
    unfold Tab.above
    split
    · obtain ⟨h1, h2, h3⟩ := ih hw.2.2
      exact ⟨h1, h2, fun y hy => List.mem_cons_of_mem _ (h3 y hy)⟩
    · rename_i hk
      refine ⟨h, ?_, fun y hy => hy⟩
      intro y hy
      rcases List.mem_cons.1 hy with rfl | hy
      · simp only; omega
      · exact Nat.lt_trans (by omega) (hw.2.1 y hy)

/-- The keys of a table after a write. -/
theorem Tab.mem_put [DecidableEq α] (d : α) (n : Nat) (v : α) (t : Tab α) :
    ∀ x ∈ t.put d n v, x.1 = n ∨ x ∈ t := by
  induction t with
  | nil =>
    intro x hx
    unfold Tab.put at hx
    split at hx
    · cases hx
    · simp at hx; exact .inl (by rw [hx])
  | cons y t ih =>
    obtain ⟨k, w⟩ := y
    intro x hx
    unfold Tab.put at hx
    split at hx
    · split at hx
      · exact .inr hx
      · rcases List.mem_cons.1 hx with rfl | hx
        · exact .inl rfl
        · exact .inr hx
    · split at hx
      · split at hx
        · exact .inr (List.mem_cons_of_mem _ (Tab.mem_above n t x hx))
        · rcases List.mem_cons.1 hx with rfl | hx
          · exact .inl rfl
          · exact .inr (List.mem_cons_of_mem _ (Tab.mem_above n t x hx))
      · rcases List.mem_cons.1 hx with rfl | hx
        · exact .inr (by simp)
        · rcases ih x hx with h | h
          · exact .inl h
          · exact .inr (List.mem_cons_of_mem _ h)

/-- A write keeps the canonical form. -/
theorem Tab.put_wf [DecidableEq α] (d : Nat → α) (n : Nat) (v : α) (t : Tab α) (h : t.wf d = true) :
    (t.put (d n) n v).wf d = true := by
  induction t with
  | nil =>
    unfold Tab.put
    split
    · rfl
    · rename_i hv; simp [Tab.wf, hv]
  | cons x t ih =>
    obtain ⟨k, w⟩ := x
    have hw := (Tab.wf_cons d k w t).1 h
    unfold Tab.put
    split
    · rename_i hnk
      split
      · exact h
      · rename_i hv
        refine (Tab.wf_cons d n v _).2 ⟨hv, ?_, h⟩
        intro y hy
        rcases List.mem_cons.1 hy with rfl | hy
        · exact hnk
        · exact Nat.lt_trans hnk (hw.2.1 y hy)
    · split
      · rename_i hnk hk
        subst hk
        split
        · exact (Tab.above_wf d n t hw.2.2).1
        · rename_i hv
          obtain ⟨h1, h2, -⟩ := Tab.above_wf d n t hw.2.2
          exact (Tab.wf_cons d n v _).2 ⟨hv, h2, h1⟩
      · rename_i hnk hk
        refine (Tab.wf_cons d k w _).2 ⟨hw.1, ?_, ih hw.2.2⟩
        intro y hy
        rcases Tab.mem_put (d n) n v t y hy with hy | hy
        · rw [hy]; omega
        · exact hw.2.1 y hy

/-- Keeping some keys keeps the canonical form. -/
theorem Tab.keep_wf [DecidableEq α] (d : Nat → α) (p : Nat → Bool) (t : Tab α) (h : t.wf d = true) :
    (Tab.keep p t).wf d = true ∧ ∀ x ∈ Tab.keep p t, x ∈ t := by
  induction t with
  | nil => exact ⟨rfl, fun x hx => hx⟩
  | cons x t ih =>
    obtain ⟨k, v⟩ := x
    have hw := (Tab.wf_cons d k v t).1 h
    obtain ⟨h1, h2⟩ := ih hw.2.2
    unfold Tab.keep
    split
    · refine ⟨(Tab.wf_cons d k v _).2 ⟨hw.1, fun y hy => hw.2.1 y (h2 y hy), h1⟩, ?_⟩
      intro y hy
      rcases List.mem_cons.1 hy with rfl | hy
      · simp
      · exact List.mem_cons_of_mem _ (h2 y hy)
    · exact ⟨h1, fun y hy => List.mem_cons_of_mem _ (h2 y hy)⟩

/-- What a kept key reads, in a canonical table. -/
theorem Tab.get_keep (d : α) (p : Nat → Bool) (n : Nat) (t : Tab α) (hp : p n = true)
    (hs : t.Pairwise fun a b => a.1 < b.1) : (Tab.keep p t).get d n = t.get d n := by
  induction t with
  | nil => rfl
  | cons x t ih =>
    obtain ⟨k, v⟩ := x
    have hs' := List.pairwise_cons.1 hs
    have ih' := ih hs'.2
    unfold Tab.keep
    split
    · simp only [Tab.get, ih']
    · rename_i hk
      have hne : n ≠ k := by rintro rfl; exact hk hp
      simp only [Tab.get, if_neg hne]
      split
      · rename_i hlt
        have : ∀ t : Tab α, (∀ y ∈ t, n < y.1) → (Tab.keep p t).get d n = d := by
          intro t
          induction t with
          | nil => intro _; rfl
          | cons a t iht =>
            obtain ⟨b, c⟩ := a
            intro hall
            have hb : n < b := hall (b, c) (by simp)
            have ht := iht fun y hy => hall y (List.mem_cons_of_mem _ hy)
            unfold Tab.keep
            split
            · simp only [Tab.get]
              rw [if_neg (by omega), if_pos hb]
            · exact ht
        exact this t fun y hy => Nat.lt_trans hlt (hs'.1 y hy)
      · exact ih'

end Sys2Proof.Machine
end

