-- ==== Sys2Proof/Laws/Act.lean ====
section
/-!
SUPPORT. How actions run: sequences, conditions, writes of words and fields; what every command answers; and the laws that hold of
every update: the queue stays, the canonical form stays.
-/

namespace Sys2Proof.Machine

/-! ### Reading after an update -/

/-- A register word after a write. -/
@[simp] theorem Upd.reg_rd (off a : Nat) (v : Word) (s : State) :
    (Upd.apply (.reg off v) s).rd a = if a = off then v else s.rd a := by
  unfold State.rd
  rw [Upd.reg_regs, Tab.get_put]
  intro h; rw [h]

@[simp] theorem Upd.snap_rd (k : Nat) (v : Word) (s : State) (a : Nat) : (Upd.apply (.snap k v) s).rd a = s.rd a := rfl
@[simp] theorem Upd.latch_rd (k : Nat) (v : Nat × Word) (s : State) (a : Nat) : (Upd.apply (.latch k v) s).rd a = s.rd a := rfl
@[simp] theorem Upd.lpddr_rd (k : Nat) (v : Byte) (s : State) (a : Nat) : (Upd.apply (.lpddr k v) s).rd a = s.rd a := rfl
@[simp] theorem Upd.flash_rd (k : Nat) (v : Byte) (s : State) (a : Nat) : (Upd.apply (.flash k v) s).rd a = s.rd a := rfl
@[simp] theorem Upd.sram_rd (k : Nat) (v : Byte) (s : State) (a : Nat) : (Upd.apply (.sram k v) s).rd a = s.rd a := rfl
@[simp] theorem Upd.flashErase_rd (k l : Nat) (s : State) (a : Nat) : (Upd.apply (.flashErase k l) s).rd a = s.rd a := rfl
@[simp] theorem Upd.lpddrLost_rd (s : State) (a : Nat) : (Upd.apply .lpddrLost s).rd a = s.rd a := rfl
@[simp] theorem Upd.sramLost_rd (s : State) (a : Nat) : (Upd.apply .sramLost s).rd a = s.rd a := rfl
@[simp] theorem Upd.latchesLost_rd (s : State) (a : Nat) : (Upd.apply .latchesLost s).rd a = s.rd a := rfl
@[simp] theorem Upd.now_rd (x : BitVec 64) (s : State) (a : Nat) : (Upd.apply (.now x) s).rd a = s.rd a := rfl
@[simp] theorem Upd.fresh_rd (s : State) (a : Nat) : (Upd.apply .fresh s).rd a = s.rd a := rfl
@[simp] theorem Upd.seen_rd (n : Nat) (s : State) (a : Nat) : (Upd.apply (.seen n) s).rd a = s.rd a := rfl
@[simp] theorem Upd.resp_rd (p : Nat) (r : PortResp) (s : State) (a : Nat) : (Upd.apply (.resp p r) s).rd a = s.rd a := rfl
@[simp] theorem Upd.hid_rd (g : Hid → Hid) (s : State) (a : Nat) : (Upd.apply (.hid g) s).rd a = s.rd a := rfl

/-! ### Running actions -/

theorem applyAll_append (us vs : List Upd) (s : State) : applyAll (us ++ vs) s = applyAll vs (applyAll us s) := by
  induction us generalizing s with
  | nil => rfl
  | cons u us ih => exact ih _

@[simp] theorem run_nop (s : State) : nop.run s = s := rfl
@[simp] theorem run_seq_nil (s : State) : (seq []).run s = s := rfl
@[simp] theorem run_seq_cons (a : Act) (as : List Act) (s : State) : (seq (a :: as)).run s = (seq as).run (a.run s) := by
  simp only [Act.run, seq, applyAll_append]
@[simp] theorem run_cond (c : State → Bool) (a b : Act) (s : State) :
    (cond c a b).run s = if c s then a.run s else b.run s := by
  unfold Act.run cond; split <;> rfl
@[simp] theorem run_whenA (c : State → Bool) (a : Act) (s : State) :
    (whenA c a).run s = if c s then a.run s else s := by
  unfold whenA; rw [run_cond]; rfl
@[simp] theorem run_only (c : Bool) (a : Act) (s : State) : (only c a).run s = if c then a.run s else s := by
  unfold only; split <;> rfl
@[simp] theorem run_withS (k : State → Act) (s : State) : (withS k).run s = (k s).run s := rfl
@[simp] theorem run_hidA (g : Hid → Hid) (s : State) : (hidA g).run s = { s with hid := g s.hid } := rfl
@[simp] theorem run_freshA (s : State) : freshA.run s = { s with fresh := s.fresh + 1 } := rfl

/-- An action written out over the state that it reads. -/
@[simp] theorem run_fun (k : State → Act) (s : State) : Act.run (fun s => k s s) s = (k s).run s := rfl

@[simp] theorem run_setW_rd (off a : Nat) (v : Word) (s : State) :
    ((setW off v).run s).rd a = if a = off then v else s.rd a := Upd.reg_rd off a v s

@[simp] theorem run_setF_rd (x : Fld) (v a : Nat) (s : State) :
    ((setF x v).run s).rd a = if a = x.off then x.put v (s.rd x.off) else s.rd a := Upd.reg_rd _ _ _ _

/-! ### What the updates of an action leave unchanged -/

@[simp] theorem run_setW_lpddr (off : Nat) (v : Word) (s : State) : ((setW off v).run s).lpddr = s.lpddr := rfl
@[simp] theorem run_setW_flash (off : Nat) (v : Word) (s : State) : ((setW off v).run s).flash = s.flash := rfl
@[simp] theorem run_setW_sram (off : Nat) (v : Word) (s : State) : ((setW off v).run s).sram = s.sram := rfl
@[simp] theorem run_setW_now (off : Nat) (v : Word) (s : State) : ((setW off v).run s).now = s.now := rfl
@[simp] theorem run_setW_hid (off : Nat) (v : Word) (s : State) : ((setW off v).run s).hid = s.hid := rfl
@[simp] theorem run_setW_resp (off : Nat) (v : Word) (s : State) : ((setW off v).run s).resp = s.resp := rfl
@[simp] theorem run_setW_snap (off : Nat) (v : Word) (s : State) : ((setW off v).run s).snap = s.snap := rfl
@[simp] theorem run_setW_latch (off : Nat) (v : Word) (s : State) : ((setW off v).run s).latch = s.latch := rfl
@[simp] theorem run_setW_pending (off : Nat) (v : Word) (s : State) : ((setW off v).run s).pending = s.pending := rfl
@[simp] theorem run_setW_fresh (off : Nat) (v : Word) (s : State) : ((setW off v).run s).fresh = s.fresh := rfl
@[simp] theorem run_setF_lpddr (x : Fld) (v : Nat) (s : State) : ((setF x v).run s).lpddr = s.lpddr := rfl
@[simp] theorem run_setF_flash (x : Fld) (v : Nat) (s : State) : ((setF x v).run s).flash = s.flash := rfl
@[simp] theorem run_setF_sram (x : Fld) (v : Nat) (s : State) : ((setF x v).run s).sram = s.sram := rfl
@[simp] theorem run_setF_now (x : Fld) (v : Nat) (s : State) : ((setF x v).run s).now = s.now := rfl
@[simp] theorem run_setF_hid (x : Fld) (v : Nat) (s : State) : ((setF x v).run s).hid = s.hid := rfl
@[simp] theorem run_setF_resp (x : Fld) (v : Nat) (s : State) : ((setF x v).run s).resp = s.resp := rfl
@[simp] theorem run_setF_snap (x : Fld) (v : Nat) (s : State) : ((setF x v).run s).snap = s.snap := rfl
@[simp] theorem run_setF_latch (x : Fld) (v : Nat) (s : State) : ((setF x v).run s).latch = s.latch := rfl
@[simp] theorem run_setF_pending (x : Fld) (v : Nat) (s : State) : ((setF x v).run s).pending = s.pending := rfl
@[simp] theorem run_setF_fresh (x : Fld) (v : Nat) (s : State) : ((setF x v).run s).fresh = s.fresh := rfl

/-- Setting and clearing a bit are writes of a field. -/
@[simp] theorem setB_eq (x : Fld) : setB x = setF x 1 := rfl
@[simp] theorem clrB_eq (x : Fld) : clrB x = setF x 0 := rfl

/-- Counting an event writes the counted word. -/
theorem bump_eq (off : Nat) (s : State) : (bump off).run s = (setW off (bumped (s.rd off))).run s := by
  unfold Act.run bump bumped
  simp only
  split <;> rfl

/-- Setting, and clearing, the bits of a mask. -/
@[simp] theorem run_orW (off : Nat) (m : Word) (s : State) : (orW off m).run s = (setW off (s.rd off ||| m)).run s := rfl
@[simp] theorem run_clearW (off : Nat) (m : Word) (s : State) : (clearW off m).run s = (setW off (s.rd off &&& ~~~ m)).run s := rfl

/-- A 64-bit register is two words. -/
@[simp] theorem run_set64 (off : Nat) (v : BitVec 64) (s : State) :
    (set64 off v).run s = (setW (off + 4) (v.extractLsb' 32 32)).run ((setW off (v.extractLsb' 0 32)).run s) := rfl

/-- A response replaces what the port last read. -/
@[simp] theorem run_respond_rd (p : Port) (ws : List Word) (e : Bool) (s : State) (a : Nat) :
    ((respond p ws e).run s).rd a = s.rd a := rfl

/-- Several updates run one by one. -/
theorem run_forEach_nil {α : Type} (a : α → Act) (s : State) : (forEach [] a).run s = s := rfl
theorem run_forEach_cons {α : Type} (x : α) (l : List α) (a : α → Act) (s : State) :
    (forEach (x :: l) a).run s = (forEach l a).run ((a x).run s) := by
  unfold forEach; rw [List.map_cons, run_seq_cons]

/-- The mode after a write of a register word elsewhere. -/
theorem run_setF_mode (x : Fld) (v : Nat) (s : State) (h : F.SYS_MODE_STAT_mode.off ≠ x.off) :
    ((setF x v).run s).mode = s.mode := by
  unfold State.mode State.f; rw [run_setF_rd, if_neg h]
theorem run_setW_mode (off : Nat) (v : Word) (s : State) (h : F.SYS_MODE_STAT_mode.off ≠ off) :
    ((setW off v).run s).mode = s.mode := by
  unfold State.mode State.f; rw [run_setW_rd, if_neg h]
theorem run_hidA_mode (g : Hid → Hid) (s : State) : ((hidA g).run s).mode = s.mode := rfl

/-! ### Fields (R12) -/

/-- The value of a word built from a high part, a field and a low part. -/
theorem Fld.put_toNat (x : Fld) (v : Nat) (w : Word) (h : x.lo ≤ x.hi) (hh : x.hi ≤ 31) :
    (x.put v w).toNat =
      w.toNat / 2 ^ (x.hi + 1) * 2 ^ (x.hi + 1) + v % 2 ^ (x.hi + 1 - x.lo) * 2 ^ x.lo + w.toNat % 2 ^ x.lo := by
  unfold Fld.put
  rw [BitVec.toNat_ofNat, Nat.mod_eq_of_lt]
  have hw := w.isLt
  have h1 : v % 2 ^ (x.hi + 1 - x.lo) < 2 ^ (x.hi + 1 - x.lo) := Nat.mod_lt _ (Nat.two_pow_pos _)
  have h2 : w.toNat % 2 ^ x.lo < 2 ^ x.lo := Nat.mod_lt _ (Nat.two_pow_pos _)
  have hp : 2 ^ (x.hi + 1) = 2 ^ (x.hi + 1 - x.lo) * 2 ^ x.lo := by rw [← Nat.pow_add]; congr 1; omega
  have hq : 2 ^ 32 = 2 ^ (31 - x.hi) * 2 ^ (x.hi + 1) := by rw [← Nat.pow_add]; congr 1; omega
  have h3 : w.toNat / 2 ^ (x.hi + 1) < 2 ^ (31 - x.hi) := by
    rw [Nat.div_lt_iff_lt_mul (Nat.two_pow_pos _), ← hq]; exact hw
  have h4 : v % 2 ^ (x.hi + 1 - x.lo) * 2 ^ x.lo + w.toNat % 2 ^ x.lo < 2 ^ (x.hi + 1) := by
    rw [hp]
    calc _ < v % 2 ^ (x.hi + 1 - x.lo) * 2 ^ x.lo + 2 ^ x.lo := by omega
      _ = (v % 2 ^ (x.hi + 1 - x.lo) + 1) * 2 ^ x.lo := by rw [Nat.add_mul, Nat.one_mul]
      _ ≤ _ := Nat.mul_le_mul_right _ h1
  calc _ < w.toNat / 2 ^ (x.hi + 1) * 2 ^ (x.hi + 1) + 2 ^ (x.hi + 1) := by omega
    _ = (w.toNat / 2 ^ (x.hi + 1) + 1) * 2 ^ (x.hi + 1) := by rw [Nat.add_mul, Nat.one_mul]
    _ ≤ 2 ^ (31 - x.hi) * 2 ^ (x.hi + 1) := Nat.mul_le_mul_right _ h3
    _ = 2 ^ 32 := hq.symm

/-- A field read after it is written. -/
theorem Fld.get_put (x : Fld) (v : Nat) (w : Word) (h : x.lo ≤ x.hi) (hh : x.hi ≤ 31) :
    x.get (x.put v w) = v % 2 ^ (x.hi + 1 - x.lo) := by
  unfold Fld.get
  rw [Fld.put_toNat x v w h hh]
  have hp : 2 ^ (x.hi + 1) = 2 ^ (x.hi + 1 - x.lo) * 2 ^ x.lo := by rw [← Nat.pow_add]; congr 1; omega
  have h2 : w.toNat % 2 ^ x.lo < 2 ^ x.lo := Nat.mod_lt _ (Nat.two_pow_pos _)
  have : w.toNat / 2 ^ (x.hi + 1) * 2 ^ (x.hi + 1) + v % 2 ^ (x.hi + 1 - x.lo) * 2 ^ x.lo + w.toNat % 2 ^ x.lo =
      (w.toNat / 2 ^ (x.hi + 1) * 2 ^ (x.hi + 1 - x.lo) + v % 2 ^ (x.hi + 1 - x.lo)) * 2 ^ x.lo + w.toNat % 2 ^ x.lo := by
    rw [hp, Nat.add_mul, Nat.mul_assoc]
  rw [this, Nat.mul_comm _ (2 ^ x.lo), Nat.mul_add_div (Nat.two_pow_pos _), Nat.div_eq_of_lt h2, Nat.add_zero, Nat.mul_comm,
    Nat.mul_add_mod, Nat.mod_mod]

/-! ### What every command answers -/

/-- The levels that summaries are seen in change nothing else. -/
theorem run_levelsFall (s : State) : levelsFall.run s =
    { s with seen := if s.seen = 0 then s.seen else maskOf ((bitsOf 160 s.seen).filter (summaryAt s)) } := by
  unfold Act.run levelsFall; split <;> rfl
@[simp] theorem run_levelsFall_rd (s : State) (a : Nat) : (levelsFall.run s).rd a = s.rd a := by rw [run_levelsFall]; rfl
@[simp] theorem run_levelsFall_hid (s : State) : (levelsFall.run s).hid = s.hid := by rw [run_levelsFall]
@[simp] theorem run_levelsFall_now (s : State) : (levelsFall.run s).now = s.now := by rw [run_levelsFall]
@[simp] theorem run_levelsFall_resp (s : State) : (levelsFall.run s).resp = s.resp := by rw [run_levelsFall]
@[simp] theorem run_levelsFall_snap (s : State) : (levelsFall.run s).snap = s.snap := by rw [run_levelsFall]
@[simp] theorem run_levelsFall_latch (s : State) : (levelsFall.run s).latch = s.latch := by rw [run_levelsFall]
@[simp] theorem run_levelsFall_lpddr (s : State) : (levelsFall.run s).lpddr = s.lpddr := by rw [run_levelsFall]
@[simp] theorem run_levelsFall_flash (s : State) : (levelsFall.run s).flash = s.flash := by rw [run_levelsFall]
@[simp] theorem run_levelsFall_sram (s : State) : (levelsFall.run s).sram = s.sram := by rw [run_levelsFall]
@[simp] theorem run_levelsFall_pending (s : State) : (levelsFall.run s).pending = s.pending := by rw [run_levelsFall]
@[simp] theorem run_levelsFall_fresh (s : State) : (levelsFall.run s).fresh = s.fresh := by rw [run_levelsFall]

/-- A meaning that keeps the mode answers the state after its action. -/
theorem finish_same (a : Act) (s : State) (h : (a.run s).mode = s.mode) : finish a s = .next (levelsFall.run (a.run s)) := by
  unfold finish; simp [h]

/-- One that acts while the Core die is unpowered, or that takes its power, does too. -/
theorem finish_down (a : Act) (s : State) (h : s.up = false ∨ (a.run s).up = false) :
    finish a s = .next (levelsFall.run (a.run s)) := by
  unfold finish; rcases h with h | h <;> simp [h]

/-- A meaning answers a next state that its updates lead to. -/
theorem finish_next (a : Act) (s : State) : ∃ us, finish a s = .next (applyAll us s) := by
  unfold finish
  simp only
  split
  · exact ⟨a s ++ levelsFall (a.run s), by rw [applyAll_append]; rfl⟩
  · exact ⟨a s ++ seq [modeSwitch s.mode, pinStamp s (List.range 48), levelsFall] (a.run s), by rw [applyAll_append]; rfl⟩

/-- Updates leave the queue. -/
@[simp] theorem Upd.apply_pending (u : Upd) (s : State) : (u.apply s).pending = s.pending := by cases u <;> rfl
theorem applyAll_pending (us : List Upd) (s : State) : (applyAll us s).pending = s.pending := by
  induction us generalizing s with
  | nil => rfl
  | cons u us ih => rw [applyAll, ih, Upd.apply_pending]

/-- An update keeps every table in canonical form. -/
theorem Upd.apply_wf (u : Upd) (s : State) (h : s.wf = true) : (u.apply s).wf = true := by
  simp only [State.wf, Memory.wf, Bool.and_eq_true] at h ⊢
  obtain ⟨⟨⟨⟨⟨⟨h1, h2⟩, h3⟩, h4⟩, h5⟩, h6⟩, h7⟩ := h
  cases u
  case reg off v => exact ⟨⟨⟨⟨⟨⟨Tab.put_wf resetWord off v s.regs h1, h2⟩, h3⟩, h4⟩, h5⟩, h6⟩, h7⟩
  case regsKeep p => exact ⟨⟨⟨⟨⟨⟨(Tab.keep_wf _ p s.regs h1).1, h2⟩, h3⟩, h4⟩, h5⟩, h6⟩, h7⟩
  case snap k v => exact ⟨⟨⟨⟨⟨⟨h1, Tab.put_wf (fun _ => 0#32) k v s.snap h2⟩, h3⟩, h4⟩, h5⟩, h6⟩, h7⟩
  case latch k v => exact ⟨⟨⟨⟨⟨⟨h1, h2⟩, Tab.put_wf (fun _ => (0, 0#32)) k v s.latch h3⟩, h4⟩, h5⟩, h6⟩, h7⟩
  case lpddr a b => exact ⟨⟨⟨⟨⟨⟨h1, h2⟩, h3⟩, Tab.put_wf (fun _ => ramBlank) a b s.lpddr h4⟩, h5⟩, h6⟩, h7⟩
  case flash a b => exact ⟨⟨⟨⟨⟨⟨h1, h2⟩, h3⟩, h4⟩, Tab.put_wf (fun _ => flashBlank) a b s.flash h5⟩, h6⟩, h7⟩
  case sram a b => exact ⟨⟨⟨⟨⟨⟨h1, h2⟩, h3⟩, h4⟩, h5⟩, Tab.put_wf (fun _ => ramBlank) a b s.sram h6⟩, h7⟩
  case flashErase lo hi => exact ⟨⟨⟨⟨⟨⟨h1, h2⟩, h3⟩, h4⟩, (Tab.keep_wf _ _ s.flash h5).1⟩, h6⟩, h7⟩
  case lpddrLost => exact ⟨⟨⟨⟨⟨⟨h1, h2⟩, h3⟩, rfl⟩, h5⟩, h6⟩, h7⟩
  case sramLost => exact ⟨⟨⟨⟨⟨⟨h1, h2⟩, h3⟩, h4⟩, h5⟩, rfl⟩, h7⟩
  case latchesLost => exact ⟨⟨⟨⟨⟨⟨h1, rfl⟩, rfl⟩, h4⟩, h5⟩, h6⟩, h7⟩
  case now x => exact ⟨⟨⟨⟨⟨⟨h1, h2⟩, h3⟩, h4⟩, h5⟩, h6⟩, h7⟩
  case fresh => exact ⟨⟨⟨⟨⟨⟨h1, h2⟩, h3⟩, h4⟩, h5⟩, h6⟩, h7⟩
  case seen n => exact ⟨⟨⟨⟨⟨⟨h1, h2⟩, h3⟩, h4⟩, h5⟩, h6⟩, h7⟩
  case resp p r => exact ⟨⟨⟨⟨⟨⟨h1, h2⟩, h3⟩, h4⟩, h5⟩, h6⟩, Tab.put_wf (fun _ => {}) p r s.resp h7⟩
  case hid g => exact ⟨⟨⟨⟨⟨⟨h1, h2⟩, h3⟩, h4⟩, h5⟩, h6⟩, h7⟩

theorem applyAll_wf (us : List Upd) (s : State) (h : s.wf = true) : (applyAll us s).wf = true := by
  induction us generalizing s with
  | nil => exact h
  | cons u us ih => exact ih _ (Upd.apply_wf u s h)

/-! ### Accesses of a port -/

/-- An access that a port may make is made. -/
theorem portAct_of_free (p : Port) (off : Nat) (wr : Bool) (a : Act) (s : State) (h : PortFree p s off = true) :
    portAct p off wr a s = a s := by
  unfold PortFree at h
  rw [Bool.and_eq_true] at h
  unfold portAct
  rw [if_neg (by simp [h.1]), if_neg]
  rintro ⟨rfl, hp⟩
  have h2 := h.2
  cases wr <;> simp [hp] at h2

/-- A write that reaches its register. -/
theorem portGate_of_live (p : Port) (off : Nat) (a : Act) (s : State) (h : Live p s off = true) :
    (portGate p off a).run s = a.run s := by
  unfold Live at h
  rw [Bool.and_eq_true] at h
  obtain ⟨hu, hl⟩ := h
  unfold Act.run portGate
  rw [portAct_of_free p off true _ s hu]
  split at hl
  · rename_i r hr
    simp only [Bool.and_eq_true, Bool.not_eq_true'] at hl
    simp [hr, hl]
  · cases hl

/-- A write to a disabled island, or over a lost link, is an access error of kind 2. -/
theorem portGate_dead (p : Port) (off : Nat) (a : Act) (s : State) (r : RegAt) (hu : PortFree p s off = true)
    (hr : regAt off = some r) (hh : seamHeld s r = false) (hl : regLive s r = false) :
    (portGate p off a).run s = (accErr p 2 off).run s := by
  unfold Act.run portGate
  rw [portAct_of_free p off true _ s hu]
  simp [hr, hh, hl]

end Sys2Proof.Machine
end

