-- ==== Sys2Proof/Laws/Sets.lean ====
section
/-!
SUPPORT. How `Sets` is built up along a sequence of actions: one lemma per kind of action, composition, and the step from a
command's action to its completion.
-/

namespace Sys2Proof.Machine

theorem fieldWord_append (l m : List (Fld × Nat)) (off : Nat) (w : Word) :
    fieldWord (l ++ m) off w = fieldWord m off (fieldWord l off w) := by simp [fieldWord]

theorem Sets.refl (s : State) : Sets [] s.hid s s := ⟨fun _ => rfl, ⟨rfl, rfl, rfl⟩, rfl, rfl, rfl, rfl, rfl, rfl⟩

/-- Two changes in a row are one change by the fields of both. -/
theorem Sets.trans {l m h g s t u} (a : Sets l h s t) (b : Sets m g t u) : Sets (l ++ m) g s u := by
  obtain ⟨a1, ⟨a2, a3, a4⟩, a5, a6, a7, a8, a9, a10⟩ := a
  obtain ⟨b1, ⟨b2, b3, b4⟩, b5, b6, b7, b8, b9, b10⟩ := b
  refine ⟨fun off => ?_, ⟨?_, ?_, ?_⟩, ?_, b6, ?_, ?_, ?_, ?_⟩
  · rw [b1, a1, fieldWord_append]
  all_goals simp [*]

theorem Sets.setF (x : Fld) (v : Nat) (s : State) : Sets [(x, v)] s.hid s ((setF x v).run s) := by
  refine ⟨fun off => ?_, ⟨rfl, rfl, rfl⟩, rfl, rfl, rfl, rfl, rfl, rfl⟩
  rw [run_setF_rd]; simp only [fieldWord, List.foldl]; by_cases h : off = x.off
  · subst h; simp
  · rw [if_neg h, if_neg (Ne.symm h)]

/-- A whole word put in is that word. -/
theorem put_word (off : Nat) (v w : Word) : (wordFld off).put v.toNat w = v := by
  apply BitVec.eq_of_toNat_eq
  rw [Fld.put_toNat _ _ _ (by simp [wordFld]) (by simp [wordFld])]
  have := v.isLt; have := w.isLt
  simp [wordFld]; omega

theorem Sets.setW (off : Nat) (v : Word) (s : State) : Sets [(wordFld off, v.toNat)] s.hid s ((setW off v).run s) := by
  refine ⟨fun a => ?_, ⟨rfl, rfl, rfl⟩, rfl, rfl, rfl, rfl, rfl, rfl⟩
  rw [run_setW_rd]; simp only [fieldWord, List.foldl, put_word]; by_cases h : a = off
  · subst h; simp [wordFld]
  · rw [if_neg h, if_neg (by simpa [wordFld] using Ne.symm h)]

theorem Sets.hidA (g : Hid → Hid) (s : State) : Sets [] (g s.hid) s ((hidA g).run s) :=
  ⟨fun _ => rfl, ⟨rfl, rfl, rfl⟩, rfl, rfl, rfl, rfl, rfl, rfl⟩

theorem Sets.freshA (s : State) : Sets [] s.hid s (freshA.run s) :=
  ⟨fun _ => rfl, ⟨rfl, rfl, rfl⟩, rfl, rfl, rfl, rfl, rfl, rfl⟩

theorem Sets.bump (off : Nat) (s : State) : Sets [(wordFld off, (bumped (s.rd off)).toNat)] s.hid s ((bump off).run s) := by
  rw [bump_eq]; exact Sets.setW _ _ _

/-- A change that leaves `SYS_MODE_STAT` alone leaves the mode alone. -/
theorem Sets.mode {l h s t} (a : Sets l h s t) (hm : ∀ x ∈ l, x.1.off ≠ R.SYS_MODE_STAT) : t.mode = s.mode := by
  unfold State.mode State.f
  rw [a.1]
  have : ∀ (l : List (Fld × Nat)) (w : Word), (∀ x ∈ l, x.1.off ≠ R.SYS_MODE_STAT) → fieldWord l F.SYS_MODE_STAT_mode.off w = w := by
    intro l
    induction l with
    | nil => intro w _; rfl
    | cons x l ih =>
      intro w hx
      have h1 := hx x (by simp)
      have : fieldWord (x :: l) F.SYS_MODE_STAT_mode.off w = fieldWord l F.SYS_MODE_STAT_mode.off (if x.1.off = F.SYS_MODE_STAT_mode.off then x.1.put x.2 w else w) := rfl
      rw [this, if_neg (by simpa [F.SYS_MODE_STAT_mode] using h1), ih _ (fun y hy => hx y (by simp [hy]))]
  rw [this _ _ hm]

theorem run_setF_rd_put (x : Fld) (v : Nat) (s : State) (off : Nat) :
    ((setF x v).run s).rd off = if x.off = off then x.put v (s.rd off) else s.rd off := by
  rw [run_setF_rd]; by_cases h : off = x.off
  · subst h; simp
  · rw [if_neg h, if_neg (Ne.symm h)]

theorem run_setW_rd_put (o : Nat) (v : Word) (s : State) (off : Nat) :
    ((setW o v).run s).rd off = if (wordFld o).off = off then (wordFld o).put v.toNat (s.rd off) else s.rd off := by
  rw [run_setW_rd, put_word]; by_cases h : off = o
  · subst h; simp [wordFld]
  · rw [if_neg h, if_neg (by simpa [wordFld] using Ne.symm h)]

theorem run_setF_mode_of_ne (x : Fld) (v : Nat) (s : State) (h : x.off ≠ R.SYS_MODE_STAT) : ((setF x v).run s).mode = s.mode :=
  run_setF_mode _ _ _ (fun e => h (by rw [← e]; rfl))

theorem run_setW_mode_of_ne (o : Nat) (v : Word) (s : State) (h : o ≠ R.SYS_MODE_STAT) : ((setW o v).run s).mode = s.mode :=
  run_setW_mode _ _ _ (fun e => h (by rw [← e]; rfl))

/-- A command completes with any property of its next state. -/
theorem completes_of {c : Instr} {s t : State} {P : State → Prop} (h : exec c s = .next t) (hp : P t) : Completes c s P := ⟨t, h, hp⟩

/-- The fields and the block state of a change may be written in any equal form. -/
theorem Sets.cast {l l' h h' s t} (a : Sets l h s t) (e : l = l') (f : h = h') : Sets l' h' s t := by subst e f; exact a

theorem Sets.then_setF {l h s t} (a : Sets l h s t) (x : Fld) (v : Nat) : Sets (l ++ [(x, v)]) h s ((Machine.setF x v).run t) :=
  a.trans ((Sets.setF x v t).cast rfl a.2.2.2.1)

theorem Sets.then_setW {l h s t} (a : Sets l h s t) (o : Nat) (v : Word) : Sets (l ++ [(wordFld o, v.toNat)]) h s ((Machine.setW o v).run t) :=
  a.trans ((Sets.setW o v t).cast rfl a.2.2.2.1)

theorem Sets.then_bump {l h s t} (a : Sets l h s t) (o : Nat) :
    Sets (l ++ [(wordFld o, (bumped (fieldWord l o (s.rd o))).toNat)]) h s ((Machine.bump o).run t) := by
  rw [bump_eq, a.1]; exact a.then_setW _ _

theorem Sets.then_hidA {l h s t} (a : Sets l h s t) (g : Hid → Hid) : Sets l (g h) s ((Machine.hidA g).run t) := by
  have := a.trans (Sets.hidA g t); rw [a.2.2.2.1] at this; simpa using this

theorem Sets.then_freshA {l h s t} (a : Sets l h s t) : Sets l h s (Machine.freshA.run t) := by
  have := a.trans (Sets.freshA t); rw [a.2.2.2.1] at this; simpa using this

theorem Sets.then_levelsFall {l h s t} (a : Sets l h s t) : Sets l h s (Machine.levelsFall.run t) := by
  rw [run_levelsFall]; exact a

/-- A command whose action is a change of fields that leaves the mode alone completes with that change. -/
theorem completes_sets {c : Instr} {a : Act} {s : State} {l : List (Fld × Nat)} {h : Hid} (hs : Sets l h s (a.run s))
    (hm : ∀ x ∈ l, x.1.off ≠ R.SYS_MODE_STAT) (he : exec c s = finish a s) : Completes c s (Sets l h s) :=
  ⟨_, by rw [he, finish_same _ _ (hs.mode hm)], hs.then_levelsFall⟩

end Sys2Proof.Machine
end

