-- ==== Sys2Proof/WellFormed.lean ====
section
/-!
DEFINITION. Which commands are well formed: the operands keep the bounds that the spec gives the event or access they stand for.
-/

namespace Sys2Proof

/-- Data bytes of the codes 0 to 15 in an FD frame (R411). -/
def fdLengths : List Nat := [0, 1, 2, 3, 4, 5, 6, 7, 8, 12, 16, 20, 24, 32, 48, 64]

/-- A frame that R411 allows: an identifier in its range, no remote FD frame, FD bits in FD frames alone, the data that the
code names. -/
def CanMsg.wf (m : CanMsg) : Bool :=
  (m.ide || decide (m.id.toNat < 2048)) && !(m.rtr && m.fdf) && (m.fdf || !(m.brs || m.esi)) &&
    decide (m.data.length = if m.rtr then 0 else if m.fdf then fdLengths[m.dlc.toNat]! else min 8 m.dlc.toNat)

/-- Factors of a calibration with a weight for each of the sixteen decisions (R153). -/
def CalMeas.wf (m : CalMeas) : Bool := decide (m.w.length = 16)

/-- The bits of `m` are set in `v`, or are clear in it. -/
def bitsSet (v m : Word) : Bool := decide (v &&& m = m)
def bitsClear (v m : Word) : Bool := decide (v &&& m = 0#32)

/-- A command word whose low field of `n` bits is `op`. -/
def opIs (v : Word) (n op : Nat) : Bool := decide (v.toNat % 2 ^ n = op)

/-- The command keeps the bounds of its row. -/
def Instr.wf : Instr → Bool
  | .registerWrite _ _ _ _ => true
  | .pu36LowWordWrite _ a _ => decide (a.toNat % 8 = 0)
  | .pu36HighWordWrite _ a _ => decide (a.toNat % 8 = 4)
  | .snapRead _ a => decide (a.toNat % 4 = 0)
  | .seamPacketCrcError _ => true
  | .seamLinkLost _ => true
  | .seamLinkTrained _ skew => decide (-1 ≤ skew) && decide (skew ≤ 1)
  | .hinColdStart => true
  | .vsupPresent => true
  | .vsupAbsent _ => true
  | .vocSample _ => true
  | .storeFull _ _ => true
  | .aonStart _ _ => true
  | .harvestEntryDelayExpiry => true
  | .harvestHoldEnter => true
  | .harvestHoldLeave => true
  | .aonStop => true
  | .pgoodAssert => true
  | .pgoodDeassert => true
  | .nrstLow _ => true
  | .nrstRise => true
  | .pwrCmdOff _ => true
  | .pwrCmdHarvest _ _ => true
  | .pwrCmdLean _ => true
  | .pwrCmdFull _ => true
  | .leanEntryComplete => true
  | .fullEntryComplete _ _ => true
  | .fullToLeanComplete => true
  | .harvestEntryComplete _ => true
  | .islandEnWrite _ _ => true
  | .islandChangeDone => true
  | .auxenBurstStart _ _ => true
  | .auxenBurstVsupEnd => true
  | .auxenBurstTimeout => true
  | .storeAbort _ => true
  | .vsupFailWarning _ => true
  | .harvMeasureUpdate _ _ _ _ _ => true
  | .vddqSelWrite _ _ => true
  | .refLost => true
  | .refBack => true
  | .pllLock _ => true
  | .pllCoastStart _ => true
  | .pllRelock _ => true
  | .coastLimit _ => true
  | .clkSysCommit _ _ => true
  | .dividerApply => true
  | .droneClockCheck _ => true
  | .bellStatusRefresh _ => true
  | .deviceTimeWrap => true
  | .skewMarker _ _ => true
  | .skewCorrection _ => true
  | .slideEnable _ _ => true
  | .slideDisable _ _ => true
  | .slideCommit _ _ => true
  | .slideRampUpdate => true
  | .slideStrobe _ => true
  | .clkoutSelect => true
  | .fingLoad _ => true
  | .fingLoadComplete => true
  | .fingApply _ => true
  | .fingApplyComplete => true
  | .fingCommit _ => true
  | .fingCommitComplete => true
  | .fingDiscard _ => true
  | .fingCmdInvalid _ op => decide (op.toNat = 0) || decide (4 < op.toNat)
  | .fingAbandon _ => true
  | .modeReqDormant _ => true
  | .modeReqConfigure _ => true
  | .modeReqStandby _ => true
  | .modeReqFollow _ => true
  | .modeReqForm _ => true
  | .modeReqRide _ => true
  | .modeReqHalt _ => true
  | .modeReqService _ => true
  | .modeTransitionComplete _ _ => true
  | .haltCauseActive _ => true
  | .haltCauseClear _ _ => true
  | .convRoutedTrigger _ => true
  | .convSoftwareTrigger _ _ v => bitsSet v 2#32
  | .conversionEnd _ _ _ => true
  | .convDisable _ _ v => bitsClear v 3#32
  | .convRefCfgWrite _ _ _ => true
  | .refSettled _ => true
  | .refFault _ => true
  | .convCalMeasure _ _ v => bitsSet v 0x100#32 && bitsClear v 0xFFFFFE00#32
  | .convCalRestore _ _ v => bitsSet v 0x200#32 && bitsClear v 0xFFFFFD00#32
  | .convCalInvalid _ _ _ => true
  | .convCalComplete _ ms => ms.all CalMeas.wf && decide (ms.length ≤ 8)
  | .fineSample _ _ _ _ => true
  | .monitorFilteredEdge _ vd _ _ _ => !vd.isEmpty
  | .capInfoRead _ _ => true
  | .monitorDisable _ _ v => bitsClear v 1#32
  | .tripSourceChange _ _ => true
  | .tripLatchClear _ _ _ _ => true
  | .tripFwSet _ _ _ => true
  | .tripFwClear _ _ _ => true
  | .tripinChange _ high => !high.isEmpty
  | .tripStatePacket _ _ _ => true
  | .tripStateRepeat _ => true
  | .carrierZero _ => true
  | .carrierPeak _ => true
  | .edgeCommitWrite _ _ _ => true
  | .compareMatch _ _ _ => true
  | .deadTimeExpiry _ _ => true
  | .refreshIntervalEnd _ => true
  | .edgeCalTap _ _ _ _ => true
  | .synciEdge _ => true
  | .debugUnfreeze => true
  | .edgeDisable _ _ v => bitsClear v 1#32
  | .faultVectorRx _ _ _ => true
  | .podFaultVectorStart _ => true
  | .faultVectorPoll _ => true
  | .ligNextFrame _ => true
  | .telem _ _ _ _ _ _ => true
  | .ack _ _ _ _ => true
  | .podAnswerTimeout _ => true
  | .autoClearTimer _ => true
  | .triesResetTimer _ => true
  | .faultClr _ _ _ => true
  | .profileWrite _ _ _ _ => true
  | .ligDisable _ _ v => bitsClear v 1#32
  | .boreTrigger _ => true
  | .boreGo _ _ v => bitsSet v 1#32
  | .boreStepEnd _ => true
  | .enginePacketArrival _ _ => true
  | .fixedReleaseTick _ _ => true
  | .boreCoefWrite _ _ g k _ => g.isNone || decide (k.val < 8)
  | .boreHoldWrite _ _ _ => true
  | .boreHoldExpiry _ => true
  | .breathInit _ _ v => bitsSet v 0x20#32
  | .clrState _ _ v => bitsSet v 0x100#32
  | .boreStateWrite _ _ _ _ _ => true
  | .gridTrigger => true
  | .gridGo _ v => bitsSet v 1#32
  | .gridPublish => true
  | .gridInit _ v => bitsSet v 2#32
  | .gridBaseWrite _ _ _ => true
  | .sweepNow _ v => bitsSet v 0x10000#32
  | .sweepDue => true
  | .sweepDwellEnd => true
  | .probeCodeFrame d => decide (d.length ≤ 64)
  | .probePhaseFrame d => decide (d.length ≤ 64)
  | .probeBadFrame d => decide (d.length ≤ 64)
  | .probePhaseCmd _ v => bitsSet v 0x80000000#32
  | .probeRelearn _ v => bitsSet v 2#32
  | .clrIsland _ v => bitsSet v 1#32
  | .meterFineSample _ _ => true
  | .meterIntervalClose _ _ _ => true
  | .meterStop _ => true
  | .meterAccWrite _ _ _ _ => true
  | .compatStatusRead _ => true
  | .lockstepMismatch _ => true
  | .sramEccError _ _ => true
  | .sramScrub => true
  | .chntSelftestEnd _ => true
  | .agreeReq _ _ _ _ _ _ => true
  | .agreeValRead _ _ => true
  | .svckeyAgree _ _ => true
  | .sweepBegin _ v => bitsSet v 1#32
  | .sweepData _ _ => true
  | .sweepEnd _ v => bitsSet v 2#32
  | .sweepOverdue => true
  | .chntRestart _ _ => true
  | .debugHalt => true
  | .wdKick _ _ _ => true
  | .irqSourceRise _ => true
  | .irqClaim _ => true
  | .irqDone _ _ => true
  | .machineTimer => true
  | .droneDemand => true
  | .droneModePacket => true
  | .modePacketStale => true
  | .safetyInputFiltered _ _ _ => true
  | .discrepancyTimeout _ => true
  | .tpoPulse _ _ => true
  | .wdTimeout => true
  | .paramRecheck => true
  | .forcedOffReadback => true
  | .stuckOutput _ _ => true
  | .testRoundStart => true
  | .testPulse _ _ _ => true
  | .svckeyPresent => true
  | .svckeyAbsent => true
  | .sysSolWrite _ _ => true
  | .droneRst _ _ _ => true
  | .pairCmdPair _ _ => true
  | .pairCmdUnpair _ _ => true
  | .pairCmdHandover _ _ => true
  | .hello _ _ _ => true
  | .helloSend => true
  | .helloTimeout => true
  | .heartSend => true
  | .heart _ _ _ => true
  | .heartbeatMiss _ => true
  | .mirror _ kind _ _ _ => decide (kind.val ≠ 0)
  | .mirrorSend kind _ => decide (kind.val ≠ 0)
  | .pairFrameDiscard _ => true
  | .relinquish _ _ => true
  | .peerroleFall => true
  | .roleConflict => true
  | .fjoskLaneChange _ _ => true
  | .canEnable _ _ v => bitsSet v 1#32
  | .canDisable _ _ v => bitsClear v 1#32
  | .canFrameRx _ m _ => m.wf
  | .canTxrq _ _ _ _ => true
  | .canTxStart _ => true
  | .canTxDone _ _ => true
  | .canCancel _ _ _ _ => true
  | .canError _ _ _ _ _ => true
  | .busOffRecover _ _ v => bitsSet v 0x400#32
  | .busOffRecoveryDone _ => true
  | .mbNewClear _ _ _ v => bitsSet v 0x20000#32
  | .rxfPop _ _ v => bitsSet v 1#32
  | .canSleep _ _ v => bitsSet v 8#32
  | .canWake _ (.frame m _) => m.wf
  | .canWake _ (.level _) => true
  | .canWake _ (.write _ v) => bitsClear v 8#32
  | .ntCfgWrite _ _ => true
  | .ntRefDue => true
  | .ntRefRx m _ => m.wf
  | .ntHoldover => true
  | .ntSet _ _ => true
  | .ntWrap => true
  | .bar0Request a _ ws => decide (a.toNat % 4 = 0) && decide (ws.length ≤ 1024)
  | .bar2Request _ (.inl bs) => decide (bs.length ≤ 4096)
  | .bar2Request _ (.inr n) => decide (n ≤ 4096)
  | .perst => true
  | .spiWrite _ _ _ _ => true
  | .spiRead _ _ _ _ => true
  | .spiRepeatedRead _ _ _ _ => true
  | .spiStatus => true
  | .hostVecAckRead _ _ => true
  | .hostVectorPending _ => true
  | .doorbellWrite _ _ _ => true
  | .qspiRead _ v => opIs v 3 1
  | .qspiProgram _ v => opIs v 3 2
  | .qspiEraseSector _ v => opIs v 3 3
  | .qspiEraseBlock _ v => opIs v 3 4
  | .qspiOpDone pages _ _ => decide (pages ≤ 64)
  | .mr4Read _ => true
  | .recSlotSample _ _ => true
  | .recGapMarker _ => true
  | .recTrigger m => decide (m ≠ 0#7)
  | .recRegionFull => true
  | .recArm _ _ v => bitsSet v 0x10#32
  | .recEnWrite _ _ => true
  | .recRdDataRead _ => true
  | .romBoot _ => true
  | .bootComplete _ => true
  | .updStart _ v _ => opIs v 2 1
  | .updBlock _ v => opIs v 2 2
  | .updBlockDone _ _ _ => true
  | .updAbort _ v => opIs v 2 3
  | .bootConfirm _ _ => true
  | .otpProgram _ v => opIs v 2 1
  | .otpRevoke _ v => opIs v 2 2
  | .seal _ v _ => opIs v 2 1
  | .unseal _ v => opIs v 2 2
  | .attest _ v _ => bitsSet v 1#32
  | .rngRead _ _ => true
  | .harvesterChargeResume _ _ => true
  | .edgeCalPeriodEnd _ => true
  | .minimumPulseStretchEnd _ => true
  | .syncoPulseEnd => true
  | .busIntegrationComplete _ => true
  | .pcieLinkStateChange _ _ _ => true
  | .secOperationDone _ => true
  | .confirmDone _ => true

end Sys2Proof
end

