-- ==== Sys2Proof/Tests/Slice0.lean ====
section
/-!
SUPPORT. Tests of the model: ill-formed commands that `Instr.wf` refuses, single steps against the worked examples of the spec,
and for every statement of Certificates/Slice0/Obligations.lean states and operands that meet the hypotheses of its clauses.
-/

namespace Sys2Proof.Tests
open Sys2Proof Sys2Proof.Machine

-- One theorem at a time: each evaluates states in the kernel, and side by side they need a thread each.
set_option Elab.async false

/-! ### Ill-formed commands -/

/-- A frame with no data and an identifier of 11 bits. -/
def shortFrame : CanMsg := ⟨false, 0, false, false, false, false, 0, []⟩

theorem test_illFormed_address : [Instr.pu36LowWordWrite .pcie 4#26 0, .pu36HighWordWrite .pcie 0#26 0, .snapRead .pcie 2#26,
    .bar0Request 2#26 false []].any Instr.wf = false := by decide +kernel

theorem test_illFormed_range : [Instr.seamLinkTrained 0 2, .seamLinkTrained 0 (-2), .fingCmdInvalid .pcie 1#3,
    .fingCmdInvalid .pcie 4#3, .boreCoefWrite .pcie 0 (some 0) 8 0, .qspiOpDone 65 false false, .recTrigger 0#7,
    .mirror 0 0 0 0 [], .mirrorSend 0 0].any Instr.wf = false := by decide +kernel

theorem test_illFormed_bitClear : [Instr.convSoftwareTrigger .pcie 0 1#32, .boreGo .pcie 0 2#32, .breathInit .pcie 0 1#32,
    .clrState .pcie 0 1#32, .gridGo .pcie 2#32, .gridInit .pcie 1#32, .sweepNow .pcie 1#32, .probePhaseCmd .pcie 1#32,
    .probeRelearn .pcie 1#32, .clrIsland .pcie 2#32, .sweepBegin .pcie 2#32, .sweepEnd .pcie 1#32, .canEnable .pcie 0 8#32,
    .busOffRecover .pcie 0 1#32, .mbNewClear .pcie 0 0 1#32, .rxfPop .pcie 0 2#32, .canSleep .pcie 0 1#32, .recArm .pcie 0 1#32,
    .attest .pcie 2#32 true, .convCalMeasure .pcie 0 1#32, .convCalRestore .pcie 0 0x101#32].any Instr.wf = false := by
  decide +kernel

theorem test_illFormed_bitSet : [Instr.convDisable .pcie 0 2#32, .monitorDisable .pcie 0 1#32, .edgeDisable .pcie 0 1#32,
    .ligDisable .pcie 0 1#32, .canDisable .pcie 0 1#32, .canWake 0 (.write .pcie 8#32), .convCalMeasure .pcie 0 0x300#32,
    .convCalRestore .pcie 0 0x300#32].any Instr.wf = false := by decide +kernel

theorem test_illFormed_op : [Instr.qspiRead .pcie 2#32, .qspiProgram .pcie 3#32, .qspiEraseSector .pcie 4#32,
    .qspiEraseBlock .pcie 1#32, .updStart .pcie 2#32 true, .updBlock .pcie 3#32, .updAbort .pcie 1#32, .otpProgram .pcie 2#32,
    .otpRevoke .pcie 1#32, .seal .pcie 2#32 true, .unseal .pcie 1#32].any Instr.wf = false := by decide +kernel

theorem test_illFormed_length : [Instr.probeCodeFrame (List.replicate 65 0), .probePhaseFrame (List.replicate 65 0),
    .probeBadFrame (List.replicate 65 0), .convCalComplete 0 [⟨0, 0, []⟩],
    .convCalComplete 0 (List.replicate 9 ⟨0, 0, List.replicate 16 0⟩), .bar2Request 0 (.inr 4097),
    .monitorFilteredEdge 0 [] 0 0 true, .tripinChange 0 []].any Instr.wf = false := by
  decide +kernel

theorem test_illFormed_bar0Length : Instr.wf (.bar0Request 0#26 true (List.replicate 1025 (0, 0))) = false := by
  simp only [Instr.wf, List.length_replicate]; decide

theorem test_illFormed_bar2Length : Instr.wf (.bar2Request 0#28 (.inl (List.replicate 4097 none))) = false := by
  simp only [Instr.wf, List.length_replicate]; decide

theorem test_illFormed_frame : [{ shortFrame with id := 2048 }, { shortFrame with rtr := true, fdf := true },
    { shortFrame with brs := true }, { shortFrame with esi := true }, { shortFrame with dlc := 1 },
    { shortFrame with rtr := true, dlc := 1, data := [0] }, { shortFrame with fdf := true, dlc := 9 }].any (fun m =>
    Instr.wf (.canFrameRx 0 m 0) || Instr.wf (.canWake 0 (.frame m true)) || Instr.wf (.ntRefRx m 0)) = false := by
  decide +kernel

theorem test_wellFormed_frame : shortFrame.wf = true := by decide

/-! ### Single steps -/

/-- Every island enabled and both seam links up. -/
def live : State := (seq [setW R.SYS_ISLAND_EN 0x07FFFFFF#32, setB (F.SYS_SEAM_STAT_up 0), setB (F.SYS_SEAM_STAT_up 1),
  setB F.CHNT_STAT_running, pwrA fun x => { x with trans := .none }]).run State.reset

/-- `live` after the changes of `l`. -/
def up (l : List Act) : State := (seq l).run live

/-- The state after reset with the changes of `l`. -/
def at0 (l : List Act) : State := (seq l).run State.reset

/-- A paired device that has asked for the role LEADER. -/
def asking : State := up [setB F.PAIR_STAT_busy, pairA fun x => { x with want := 1 }]

/-- A command that answers a state of which `P` holds, as evaluation shows. -/
theorem answers_of {c : Instr} {s : State} {P : State → Prop} [DecidablePred P]
    (h : (match exec c s with | .next t => decide (P t) | _ => false) = true) : ∃ t, exec c s = .next t ∧ P t := by
  split at h
  · exact ⟨_, ‹_›, of_decide_eq_true h⟩
  · cases h

/-- `q` holds of the state that one step of `s` with `c` in front of its queue answers. -/
def stepHas (c : Instr) (s : State) (q : State → Bool) : Bool :=
  match step { s with pending := [c] } with
  | .next t => t.pending.isEmpty && q t
  | .fault _ => false
  | .refused _ => false

/-- R2: without a command device time advances. -/
theorem test_step_idle : (match step State.reset with | .next t => t.now == 1#64 | _ => false) = true := by decide +kernel

/-- R15, R17 (the example after R15): −1.0 pu written as a pair of words. -/
theorem test_step_pairLow : stepHas (.pu36LowWordWrite .pcie (BitVec.ofNat 26 R.CLK_SLIDE_FIX) 0xC0000000#32) live (fun t =>
    t.rd R.CLK_SLIDE_FIX == live.rd R.CLK_SLIDE_FIX) = true := by decide +kernel

theorem test_step_pairHigh : stepHas (.pu36HighWordWrite .pcie (BitVec.ofNat 26 (R.CLK_SLIDE_FIX + 4)) 0x0000000F#32)
    { live with latch := [(latchKey .pcie R.CLK_SLIDE_FIX, (R.CLK_SLIDE_FIX, 0xC0000000#32))] } (fun t =>
    t.rd R.CLK_SLIDE_FIX == 0xC0000000#32 && t.latch.isEmpty) = true := by decide +kernel

/-- The example after R69: bursts of 1.71 J from a store of 47 mF at 19.0, 17.0 and 14.7 V. -/
theorem test_burst_example : ([19000, 17000, 14700].map fun mv => burstCode R.HARV_E_AUX (at0 [setB F.HARV_STAT_src_vb,
    setF F.HARV_STORE_CFG_cap_mf 47, setF F.HARV_STORE_CFG_abort_mv 13000, setW R.HARV_RESERVE 0#32, setF F.HARV_V0_vb_mv mv,
    setW R.HARV_E_AUX 1710000#32])) = [0, 0, 1] := by decide +kernel

/-- The check value of CRC-32C for the digits 1 to 9. -/
theorem test_crc32c : crc32c ((List.range 9).map fun k => BitVec.ofNat 8 (0x31 + k)) = 0xE3069283#32 := by decide +kernel

/-- The check value of CRC-8 (R218, R439) for the digits 1 to 9. -/
theorem test_crc8 : crc8OfBits ((List.range 9).map fun k => msbFirst 8 (0x31 + k)).flatten = 0xF4#8 ∧
    crc8 ((List.range 9).map fun k => BitVec.ofNat 8 (0x31 + k)) = 0xF4#8 := by decide +kernel

/-- R138: input 8 at gain code 4, with the internal reference and with 4.096 V outside, and input 9 at 300 K. -/
theorem test_conv_internalInputs : [convSignal live 0 0x48#32 {}, convSignal (up [setF (F.CONV_REF_CFG_sel 0) 1]) 0 8#32 { ext := 4096 / 1000 },
    convSignal live 0 0x49#32 { temp := 300 }] = [16384, 8192, 19200] := by decide +kernel

/-- R29: a bad packet is counted on its own link. -/
theorem test_step_seamRetry : stepHas (.seamPacketCrcError 1) live (fun t =>
    t.rd (R.SYS_SEAM_RETRY 1) == 1#32 && t.rd (R.SYS_SEAM_RETRY 0) == 0#32) = true := by decide +kernel

/-! ### Hypotheses of the statements -/

theorem test_hypotheses_StepRunsTheFrontCommand :
    (∃ (s : State) (c : Instr) (cs : List Instr), s.pending = c :: cs) ∧
    (∃ (s : State), s.pending = [] ∧ s.now ≠ BitVec.allOnes 64) ∧
    (∃ (s : State), s.pending = [] ∧ s.now = BitVec.allOnes 64) :=
  ⟨⟨{ State.reset with pending := [.droneDemand] }, Instr.droneDemand, [], by decide +kernel⟩,
   ⟨State.reset, by decide +kernel⟩,
   ⟨{ State.reset with now := BitVec.allOnes 64 }, by decide +kernel⟩⟩

theorem test_hypotheses_StepKeepsTheCanonicalForm :
    (∃ (s t : State), s.wf = true ∧ step s = .next t) :=
  ⟨State.reset, _, by decide +kernel, rfl⟩

theorem test_hypotheses_RegisterWritesAreRefusedOrLandByType :
    (∃ (s : State) (p : Port) (a : BitVec 26), PortFree p s a.toNat = true ∧ p ≠ .fw ∧ a.toNat % 4 ≠ 0) ∧
    (∃ (s : State) (a : BitVec 26), PortFree .fw s a.toNat = true ∧ a.toNat % 4 ≠ 0) ∧
    (∃ (s : State) (p : Port) (a : BitVec 26), PortFree p s a.toNat = true ∧ a.toNat % 4 = 0 ∧ regAt a.toNat = none ∧
      southSync a.toNat = false) ∧
    (∃ (s : State) (p : Port), PortFree p s (R.CAN_WAKE_DATA 0) = true ∧ s.island 14 = false) ∧
    (∃ (s : State) (p : Port) (a : BitVec 26), Live p s a.toNat = true ∧ a.toNat % 4 = 0 ∧ inDrone a.toNat = true) ∧
    (∃ (s : State) (p : Port) (i : Fin 24) (v : BitVec 64), Live p s (R.RIDE_CRV i) = true ∧ rwlLocked s = true ∧
      (s.rd (R.RIDE_CRV i) ^^^ ((v : BitVec 64).extractLsb' 0 32)) &&& 0x3011F#32 ≠ 0#32) ∧
    (∃ (s : State) (p : Port) (i : Fin 24) (v : BitVec 64), Live p s (R.RIDE_CRV i) = true ∧ rwlLocked s = true ∧
      (¬ ((s.rd (R.RIDE_CRV i) ^^^ ((v : BitVec 64).extractLsb' 0 32)) &&& 0x3011F#32 ≠ 0#32))) ∧
    (∃ (s : State) (p : Port) (i : Fin 24), Live p s (R.RIDE_CRV i) = true ∧ rwlLocked s = false) ∧
    (∃ (s : State) (p : Port) (m : Fin 32), Live p s (R.WIN_M_CFG m) = true ∧ rwlLocked s = true) ∧
    (∃ (s : State) (p : Port), Live p s R.HARV_RESERVE = true) ∧
    (∃ (s : State) (p : Port), Live p s R.HARV_EVENT = true) ∧
    (∃ (s : State) (p : Port), p ≠ .fw ∧ Live p s R.HOST_DB_H2F = true) ∧
    (∃ (s : State) (p : Port) (v : BitVec 64), Live p s R.HARV_ABORT_CNT = true ∧ v.toNat % 2 ^ 31 ≠ 0) ∧
    (∃ (s : State) (p : Port), Live p s R.HARV_STORE_CFG = true) ∧
    (∃ (s : State) (p : Port) (off : Nat), (off = R.SYS_ID ∨ off = R.SYS_REV) ∧ PortFree p s off = true) ∧
    (∃ (s : State), s.up = true) ∧
    (∃ (s : State) (p : Port) (a : BitVec 26) (r : RegAt), PortFree p s a.toNat = true ∧ a.toNat % 4 = 0 ∧
      regAt a.toNat = some r ∧ s.hid.pwr.dumpOnly = false ∧ regLive s r = false) :=
  ⟨⟨live, Port.pcie, 1#26, by decide +kernel⟩,
   ⟨live, 3#26, by decide +kernel⟩,
   ⟨live, Port.pcie, 0x1234#26, by decide +kernel⟩,
   ⟨up [setW R.SYS_ISLAND_EN 0x07FFBFFF#32], Port.pcie, by decide +kernel⟩,
   ⟨live, Port.pcie, 0x1D0000#26, by decide +kernel⟩,
   ⟨up [setF F.FING_STAT_force 2], Port.pcie, 23, 0x100#64, by decide +kernel⟩,
   ⟨up [setF F.FING_STAT_force 2], Port.pcie, 23, 0#64, by decide +kernel⟩,
   ⟨live, Port.pcie, 23, by decide +kernel⟩,
   ⟨up [setF F.FING_STAT_force 2], Port.pcie, 31, by decide +kernel⟩,
   ⟨live, Port.pcie, by decide +kernel⟩,
   ⟨live, Port.pcie, by decide +kernel⟩,
   ⟨live, Port.pcie, by decide +kernel⟩,
   ⟨live, Port.pcie, 1#64, by decide +kernel⟩,
   ⟨live, Port.pcie, by decide +kernel⟩,
   ⟨live, Port.pcie, 0, by decide +kernel⟩,
   ⟨live, by decide +kernel⟩,
   ⟨up [setW R.SYS_ISLAND_EN 0#32], .pcie, BitVec.ofNat 26 (R.WIN_M_EVENT 31), (regAt (R.WIN_M_EVENT 31)).get (by decide +kernel), by decide +kernel⟩⟩

theorem test_hypotheses_PairAndSnapshotAccessesAreCoherent :
    (∃ (s : State) (p : Port) (x : Nat × BitVec 32), Live p s R.CLK_SLIDE_FIX = true ∧
      Live p s (R.CLK_SLIDE_FIX + 4) = true ∧ s.latch.get (0, 0#32) (latchKey p R.CLK_SLIDE_FIX) = x ∧ x.1 ≠ R.CLK_SLIDE_FIX) ∧
    (∃ (s : State) (p : Port), Live p s R.CLK_TIME_SNAP = true) ∧
    (∃ (s : State) (p : Port) (low : BitVec 32), Live p s R.CLK_SLIDE_FIX = true ∧ Live p s (R.CLK_SLIDE_FIX + 4) = true ∧
      s.latch.get (0, 0#32) (latchKey p R.CLK_SLIDE_FIX) = (R.CLK_SLIDE_FIX, low)) :=
  ⟨⟨live, Port.pcie, (0, 0#32), by decide +kernel⟩,
   ⟨live, Port.pcie, by decide +kernel⟩,
   ⟨{ live with latch := [(latchKey .pcie R.CLK_SLIDE_FIX, (R.CLK_SLIDE_FIX, 7#32))] }, .pcie, 7#32, by decide +kernel⟩⟩

theorem test_hypotheses_SeamLinksCountTrainAndFail :
    (∃ (s : State) (d : Die), s.up = true ∧ s.on (F.SYS_SEAM_STAT_up d) = true ∧
      s.rd (R.SYS_SEAM_RETRY d) ≠ BitVec.allOnes 32) ∧
    (∃ (s : State) (d : Die), s.up = true ∧ s.on (F.SYS_SEAM_STAT_up d) = true ∧
      s.rd (R.SYS_SEAM_RETRY d) = BitVec.allOnes 32) ∧
    (∃ (s : State) (d : Die) (skew : Int), s.up = true ∧ s.on (F.SYS_SEAM_STAT_up d) = false ∧ s.mode = CONFIGURE ∧
      -1 ≤ skew ∧ skew ≤ 1) :=
  ⟨⟨up [setB (F.SYS_SEAM_STAT_up 1)], 1, by decide +kernel⟩,
   ⟨up [setB (F.SYS_SEAM_STAT_up 1), setW (R.SYS_SEAM_RETRY 1) (BitVec.allOnes 32)], 1, by decide +kernel⟩,
   ⟨up [clrB (F.SYS_SEAM_STAT_up 1), setF F.SYS_MODE_STAT_mode CONFIGURE], 1, -1, by decide +kernel⟩⟩

theorem test_hypotheses_HarvesterChargesAndReportsItsSupplies :
    (∃ (s : State), s.hid.pwr.aon = .running ∧ s.hid.pwr.charging ≠ none) ∧
    (∃ (s : State) (mv : BitVec 16) (go : Bool), s.hid.pwr.aon = .running ∧ 12000 ≤ mv.toNat ∧
      go = (s.on F.HARV_CFG_chg_en && !s.on F.HARV_STAT_vb_full)) ∧
    (∃ (s : State) (mv : BitVec 16) (go : Bool), s.hid.pwr.aon = .running ∧
      min 30000 (s.f F.HARV_CFG_vb_target_mv) ≤ mv.toNat ∧ go = !s.on F.HARV_STAT_vq_full) ∧
    (∃ (mv : BitVec 16), mv.toNat < 12000) ∧
    (∃ (s : State) (mv : BitVec 16), mv.toNat < min 30000 (s.f F.HARV_CFG_vb_target_mv)) ∧
    (∃ (s : State), s.hid.pwr.aon = .running ∧ s.on F.HARV_STAT_vq_full = false) ∧
    (∃ (s : State), s.hid.pwr.aon = .running ∧ s.on F.HARV_STAT_vq_full = true ∧ s.on F.HARV_CFG_chg_en = true) ∧
    (∃ (s : State), s.hid.pwr.aon = .running ∧ s.on F.HARV_STAT_vq_full = true ∧ s.on F.HARV_CFG_chg_en = false) ∧
    (∃ (s : State) (vsup : BitVec 16) (present : Bool), s.wf = true ∧ s.hid.pwr.aon = .stopped ∧
      present = decide (9000 ≤ vsup.toNat)) ∧
    (∃ (s : State), s.hid.pwr.aon = .starting) ∧
    (∃ (s : State), s.wf = true ∧ s.hid.pwr.st = .harvest ∧ s.hid.pwr.aon = .running) ∧
    (∃ (s : State), s.hid.pwr.st = .harvest ∧ s.hid.pwr.aon = .hold) ∧
    (∃ (s : State) (vb : BitVec 16), s.hid.pwr.aon ≠ .stopped ∧ 10000 ≤ vb.toNat) ∧
    (∃ (s : State) (vb : BitVec 16), s.hid.pwr.aon ≠ .stopped ∧ vb.toNat < 10000) ∧
    (∃ (s : State), s.hid.pwr.aon = .running ∧ s.on F.HARV_STAT_pgood = false) ∧
    (∃ (s : State), s.on F.HARV_STAT_pgood = true) ∧
    (∃ (s : State), s.hid.pwr.aon = .running) :=
  ⟨⟨at0 [pwrA fun x => { x with aon := .running }, pwrA fun x => { x with charging := some .vq }], by decide +kernel⟩,
   ⟨at0 [pwrA fun x => { x with aon := .running }], 12000#16, (((at0 [pwrA fun x => { x with aon := .running }]).on F.HARV_CFG_chg_en && !(at0 [pwrA fun x => { x with aon := .running }]).on F.HARV_STAT_vb_full)), by decide +kernel⟩,
   ⟨at0 [pwrA fun x => { x with aon := .running }], 30000#16, (!(at0 [pwrA fun x => { x with aon := .running }]).on F.HARV_STAT_vq_full), by decide +kernel⟩,
   ⟨0#16, by decide +kernel⟩,
   ⟨State.reset, 0#16, by decide +kernel⟩,
   ⟨at0 [pwrA fun x => { x with aon := .running }], by decide +kernel⟩,
   ⟨at0 [pwrA fun x => { x with aon := .running }, setB F.HARV_STAT_vq_full, setB F.HARV_CFG_chg_en], by decide +kernel⟩,
   ⟨at0 [pwrA fun x => { x with aon := .running }, setB F.HARV_STAT_vq_full, setW R.HARV_CFG 0#32], by decide +kernel⟩,
   ⟨at0 [pwrA fun x => { x with aon := .stopped }], 0#16, (decide (9000 ≤ (0#16).toNat)), by decide +kernel⟩,
   ⟨at0 [pwrA fun x => { x with aon := .starting }], by decide +kernel⟩,
   ⟨at0 [pwrA fun x => { x with st := .harvest }, pwrA fun x => { x with aon := .running }], by decide +kernel⟩,
   ⟨at0 [pwrA fun x => { x with st := .harvest }, pwrA fun x => { x with aon := .hold }], by decide +kernel⟩,
   ⟨State.reset, 10000#16, by decide +kernel⟩,
   ⟨State.reset, 0#16, by decide +kernel⟩,
   ⟨at0 [pwrA fun x => { x with aon := .running }], by decide +kernel⟩,
   ⟨at0 [setB F.HARV_STAT_pgood], by decide +kernel⟩,
   ⟨at0 [pwrA fun x => { x with aon := .running }], by decide +kernel⟩⟩

theorem test_hypotheses_BurstsAreAdmittedByEnergyAndEnd :
    (∃ (s : State) (e : Nat), (e = R.HARV_E_FULL ∨ e = R.HARV_E_AUX ∨ e = R.HARV_E_FLASH) ∧
      ((s.rd e).toNat = 0 ∨ 100000000 < (s.rd e).toNat)) ∧
    (∃ (s : State) (e : Nat), (e = R.HARV_E_FULL ∨ e = R.HARV_E_AUX ∨ e = R.HARV_E_FLASH) ∧ (s.rd e).toNat ≠ 0 ∧
      (s.rd e).toNat ≤ 100000000 ∧ s.on F.HARV_STAT_src_vb = false) ∧
    (∃ (s : State) (e : Nat), (e = R.HARV_E_FULL ∨ e = R.HARV_E_AUX ∨ e = R.HARV_E_FLASH) ∧ (s.rd e).toNat ≠ 0 ∧
      (s.rd e).toNat ≤ 100000000 ∧ s.on F.HARV_STAT_src_vb = true ∧ s.on F.HARV_STORE_CFG_mode = true) ∧
    (∃ (s : State) (e : Nat), (e = R.HARV_E_FULL ∨ e = R.HARV_E_AUX ∨ e = R.HARV_E_FLASH) ∧ (s.rd e).toNat ≠ 0 ∧
      (s.rd e).toNat ≤ 100000000 ∧ s.on F.HARV_STAT_src_vb = true ∧ s.on F.HARV_STORE_CFG_mode = false ∧
      s.f F.HARV_STORE_CFG_cap_mf = 0) ∧
    (∃ (s : State) (e : Nat), (e = R.HARV_E_FULL ∨ e = R.HARV_E_AUX ∨ e = R.HARV_E_FLASH) ∧ (s.rd e).toNat ≠ 0 ∧
      (s.rd e).toNat ≤ 100000000 ∧ s.on F.HARV_STAT_src_vb = true ∧ s.on F.HARV_STORE_CFG_mode = false ∧
      s.f F.HARV_STORE_CFG_cap_mf ≠ 0) ∧
    (∃ (s : State) (p : Port) (v : Word) (dur : Nat), Live p s R.HARV_AUX_CMD = true ∧ dur = v.toNat % 512 ∧
      v.getLsbD 16 = false) ∧
    (∃ (s : State) (p : Port) (v : Word) (dur : Nat), Live p s R.HARV_AUX_CMD = true ∧ dur = v.toNat % 512 ∧
      v.getLsbD 16 = true ∧ burstBlocked s = false ∧ dur ≠ 0 ∧ dur ≤ 500 ∧ burstCode R.HARV_E_AUX s = 0) ∧
    (∃ (s : State) (p : Port) (v : Word) (dur : Nat) (code : Nat), Live p s R.HARV_AUX_CMD = true ∧ dur = v.toNat % 512 ∧
      v.getLsbD 16 = true ∧ s.on F.HARV_BURST_STAT_busy = false ∧
      (code = (if burstBlocked s then 3 else if dur = 0 ∨ 500 < dur then 6 else burstCode R.HARV_E_AUX s)) ∧ code ≠ 0) ∧
    (∃ (s : State) (p : Port) (v : Word) (dur : Nat), Live p s R.HARV_AUX_CMD = true ∧ dur = v.toNat % 512 ∧
      v.getLsbD 16 = true ∧ s.on F.HARV_BURST_STAT_busy = true) ∧
    (∃ (s : State), s.on F.HARV_BURST_STAT_busy = true ∧ s.f F.HARV_BURST_STAT_type = 2 ∧ s.hid.pwr.vsup = false) ∧
    (∃ (s : State) (p : Port), Live p s R.HARV_REG_CFG = true ∧ s.hid.pwr.st = .lean) ∧
    (∃ (s : State) (p : Port), Live p s R.HARV_REG_CFG = true ∧ s.hid.pwr.st = .full) :=
  ⟨⟨State.reset, R.HARV_E_FULL, by decide +kernel⟩,
   ⟨at0 [setW R.HARV_E_FULL 1#32], R.HARV_E_FULL, by decide +kernel⟩,
   ⟨at0 [setB F.HARV_STAT_src_vb, setB F.HARV_STORE_CFG_mode, setW R.HARV_E_FULL 100000000#32], R.HARV_E_FULL, by decide +kernel⟩,
   ⟨at0 [setB F.HARV_STAT_src_vb, setW R.HARV_E_FULL 1#32, setW R.HARV_STORE_CFG 0#32], R.HARV_E_FULL, by decide +kernel⟩,
   ⟨at0 [setB F.HARV_STAT_src_vb, setF F.HARV_STORE_CFG_cap_mf 1, setW R.HARV_E_FULL 100000000#32], R.HARV_E_FULL, by decide +kernel⟩,
   ⟨live, Port.pcie, 0#32, ((0#32).toNat % 512), by decide +kernel⟩,
   ⟨up [setW R.HARV_E_AUX 1#32], Port.pcie, 0x101F4#32, ((0x101F4#32).toNat % 512), by decide +kernel⟩,
   ⟨live, Port.pcie, 0x10000#32, ((0x10000#32).toNat % 512), ((if burstBlocked (live) then 3 else if ((0x10000#32).toNat % 512) = 0 ∨ 500 < ((0x10000#32).toNat % 512) then 6 else burstCode R.HARV_E_AUX (live))), by decide +kernel⟩,
   ⟨up [setB F.HARV_BURST_STAT_busy], Port.pcie, 0x10000#32, ((0x10000#32).toNat % 512), by decide +kernel⟩,
   ⟨at0 [setB F.HARV_BURST_STAT_busy, setF F.HARV_BURST_STAT_type 2, pwrA fun x => { x with vsup := false }], by decide +kernel⟩,
   ⟨up [pwrA fun x => { x with st := .lean }], Port.pcie, by decide +kernel⟩,
   ⟨up [pwrA fun x => { x with st := .full }], Port.pcie, by decide +kernel⟩⟩

theorem test_hypotheses_PowerCommandIsCheckedInOrder :
    (∃ (s : State) (p : Port), Live p s R.SYS_PWR_CMD = true ∧
      (s.hid.pwr.trans ≠ .none ∨ s.on F.SYS_MODE_STAT_busy = true ∨ s.on F.HARV_BURST_STAT_busy = true)) ∧
    (∃ (s : State) (p : Port) (want : Fin 4), Live p s R.SYS_PWR_CMD = true ∧
      (¬ (s.hid.pwr.trans ≠ .none ∨ s.on F.SYS_MODE_STAT_busy = true ∨ s.on F.HARV_BURST_STAT_busy = true)) ∧
      want.val = (s.f F.SYS_PWR_STAT_state)) ∧
    (∃ (s : State) (p : Port) (want : Fin 4), Live p s R.SYS_PWR_CMD = true ∧
      (¬ (s.hid.pwr.trans ≠ .none ∨ s.on F.SYS_MODE_STAT_busy = true ∨ s.on F.HARV_BURST_STAT_busy = true)) ∧
      want.val ≠ (s.f F.SYS_PWR_STAT_state) ∧ (¬ (((s.f F.SYS_PWR_STAT_state) = 2 ∧
      want = 3) ∨ ((s.f F.SYS_PWR_STAT_state) = 3 ∧
      want = 2) ∨ (((s.f F.SYS_PWR_STAT_state) = 2 ∨ (s.f F.SYS_PWR_STAT_state) = 3) ∧ want = 1)))) ∧
    (∃ (s : State) (p : Port) (want : Fin 4), Live p s R.SYS_PWR_CMD = true ∧
      (¬ (s.hid.pwr.trans ≠ .none ∨ s.on F.SYS_MODE_STAT_busy = true ∨ s.on F.HARV_BURST_STAT_busy = true)) ∧
      (((s.f F.SYS_PWR_STAT_state) = 2 ∧ want = 3) ∨ ((s.f F.SYS_PWR_STAT_state) = 3 ∧
      want = 2) ∨ (((s.f F.SYS_PWR_STAT_state) = 2 ∨ (s.f F.SYS_PWR_STAT_state) = 3) ∧ want = 1)) ∧ ((want = 1 ∧
      ((s.f F.SYS_PWR_STAT_state) = 3 ∨ s.mode ≠ DORMANT)) ∨ (want = 3 ∧ s.mode = DORMANT) ∨ (want = 2 ∧
      (s.mode = FOLLOW ∨ s.mode = FORM ∨ s.mode = RIDE)))) ∧
    (∃ (s : State) (p : Port) (code : Nat), Live p s R.SYS_PWR_CMD = true ∧
      ((s.hid.pwr.trans ≠ .none ∨ s.on F.SYS_MODE_STAT_busy = true ∨ s.on F.HARV_BURST_STAT_busy = true) → code = 3) ∧
      (¬ (s.hid.pwr.trans ≠ .none ∨ s.on F.SYS_MODE_STAT_busy = true ∨ s.on F.HARV_BURST_STAT_busy = true) → code = if (s.f F.SYS_PWR_STAT_state) = 0 then 0 else 4)) :=
  ⟨⟨up [setB F.HARV_BURST_STAT_busy], Port.pcie, by decide +kernel⟩,
   ⟨live, Port.pcie, 2, by decide +kernel⟩,
   ⟨live, Port.pcie, 0, by decide +kernel⟩,
   ⟨live, Port.pcie, 3, by decide +kernel⟩,
   ⟨live, Port.pcie, 4, by decide +kernel⟩⟩

theorem test_hypotheses_PowerTransitionsBeginAndArrive :
    (∃ (s : State) (p : Port), Live p s R.SYS_PWR_CMD = true ∧ s.hid.pwr.trans = .none ∧ s.on F.SYS_MODE_STAT_busy = false ∧
      s.on F.HARV_BURST_STAT_busy = false ∧ s.f F.SYS_PWR_STAT_state = 3 ∧ s.mode ≠ FOLLOW ∧ s.mode ≠ FORM ∧ s.mode ≠ RIDE ∧
      s.on F.REC_STAT_running = false) ∧
    (∃ (s : State) (p : Port), Live p s R.SYS_PWR_CMD = true ∧ s.hid.pwr.trans = .none ∧ s.on F.SYS_MODE_STAT_busy = false ∧
      s.on F.HARV_BURST_STAT_busy = false ∧ s.f F.SYS_PWR_STAT_state = 3 ∧ s.mode ≠ FOLLOW ∧ s.mode ≠ FORM ∧ s.mode ≠ RIDE ∧
      s.on F.REC_STAT_running = true) ∧
    (∃ (s : State) (p : Port), Live p s R.SYS_PWR_CMD = true ∧ s.hid.pwr.trans = .none ∧ s.on F.SYS_MODE_STAT_busy = false ∧
      s.on F.HARV_BURST_STAT_busy = false ∧ s.f F.SYS_PWR_STAT_state = 2 ∧ s.mode ≠ DORMANT ∧
      s.on F.SYS_ISLAND_STAT_busy = false ∧ (s.on F.HARV_STAT_src_vb = true → burstCode R.HARV_E_FULL s = 0)) ∧
    (∃ (s : State) (p : Port) (code : Nat), Live p s R.SYS_PWR_CMD = true ∧ s.hid.pwr.trans = .none ∧
      s.on F.SYS_MODE_STAT_busy = false ∧ s.on F.HARV_BURST_STAT_busy = false ∧ s.f F.SYS_PWR_STAT_state = 2 ∧
      s.mode ≠ DORMANT ∧ code = (if s.on F.SYS_ISLAND_STAT_busy then 3 else if s.on F.HARV_STAT_src_vb then burstCode R.HARV_E_FULL s else 0) ∧
      code ≠ 0) ∧
    (∃ (s : State) (p : Port), Live p s R.SYS_PWR_CMD = true ∧ s.hid.pwr.trans = .none ∧ s.on F.SYS_MODE_STAT_busy = false ∧
      s.on F.HARV_BURST_STAT_busy = false ∧ s.f F.SYS_PWR_STAT_state = 2 ∧ s.mode = DORMANT) ∧
    (∃ (s : State), s.hid.pwr.trans = .toLean) ∧
    (∃ (s : State), s.hid.pwr.trans = .toFull) ∧
    (∃ (s : State), s.hid.pwr.trans = .fullToLean) ∧
    (∃ (s : State), s.hid.pwr.trans = .toHarvest) ∧
    (∃ (s : State), s.hid.pwr.trans = .toLean) ∧
    (∃ (s : State), s.up = false ∧ s.hid.pwr.trans ≠ .toLean) ∧
    (∃ (s : State), s.up = true ∧ s.hid.pwr.trans ≠ .toLean ∧ s.on F.HARV_STAT_src_vb = true) ∧
    (∃ (s : State), s.on F.HARV_STAT_src_vb = false) ∧
    (∃ (s : State), s.hid.pwr.st = .harvest ∧ s.hid.pwr.aon = .running ∧ s.hid.pwr.trans = .none ∧
      (s.hid.pwr.vsup = true ∨ s.on F.HARV_STAT_pgood = true)) ∧
    (∃ (s : State), s.hid.pwr.st = .harvest ∧ s.hid.pwr.aon = .running ∧ s.hid.pwr.trans = .none ∧ s.hid.pwr.vsup = false ∧
      s.on F.HARV_STAT_pgood = false) ∧
    (∃ (s : State), s.hid.pwr.st ≠ .harvest) :=
  ⟨⟨up [setF F.SYS_PWR_STAT_state 3], Port.pcie, by decide +kernel⟩,
   ⟨up [setF F.SYS_PWR_STAT_state 3, setB F.REC_STAT_running], Port.pcie, by decide +kernel⟩,
   ⟨up [setF F.SYS_PWR_STAT_state 2, setF F.SYS_MODE_STAT_mode STANDBY], Port.pcie, by decide +kernel⟩,
   ⟨up [setF F.SYS_PWR_STAT_state 2, setF F.SYS_MODE_STAT_mode STANDBY, setB F.SYS_ISLAND_STAT_busy], Port.pcie, ((if (up [setF F.SYS_PWR_STAT_state 2, setF F.SYS_MODE_STAT_mode STANDBY, setB F.SYS_ISLAND_STAT_busy]).on F.SYS_ISLAND_STAT_busy then 3 else if (up [setF F.SYS_PWR_STAT_state 2, setF F.SYS_MODE_STAT_mode STANDBY, setB F.SYS_ISLAND_STAT_busy]).on F.HARV_STAT_src_vb then burstCode R.HARV_E_FULL (up [setF F.SYS_PWR_STAT_state 2, setF F.SYS_MODE_STAT_mode STANDBY, setB F.SYS_ISLAND_STAT_busy]) else 0)), by decide +kernel⟩,
   ⟨up [setF F.SYS_PWR_STAT_state 2, setF F.SYS_MODE_STAT_mode DORMANT], Port.pcie, by decide +kernel⟩,
   ⟨at0 [pwrA fun x => { x with trans := .toLean }], by decide +kernel⟩,
   ⟨at0 [pwrA fun x => { x with trans := .toFull }], by decide +kernel⟩,
   ⟨at0 [pwrA fun x => { x with trans := .fullToLean }], by decide +kernel⟩,
   ⟨at0 [pwrA fun x => { x with trans := .toHarvest }], by decide +kernel⟩,
   ⟨at0 [pwrA fun x => { x with trans := .toLean }], by decide +kernel⟩,
   ⟨at0 [pwrA fun x => { x with st := .harvest, trans := .none }], by decide +kernel⟩,
   ⟨up [setB F.HARV_STAT_src_vb], by decide +kernel⟩,
   ⟨State.reset, by decide +kernel⟩,
   ⟨at0 [pwrA fun x => { x with st := .harvest }, pwrA fun x => { x with aon := .running }, pwrA fun x => { x with trans := .none }], by decide +kernel⟩,
   ⟨at0 [pwrA fun x => { x with st := .harvest }, pwrA fun x => { x with aon := .running }, pwrA fun x => { x with vsup := false, trans := .none }], by decide +kernel⟩,
   ⟨State.reset, by decide +kernel⟩⟩

theorem test_hypotheses_IslandEnablesChangeWhole :
    (∃ (s : State) (p : Port), Live p s R.SYS_ISLAND_EN = true ∧ p = .fw) ∧
    (∃ (s : State) (p : Port), Live p s R.SYS_ISLAND_EN = true ∧ p ≠ .fw ∧ s.on F.SYS_ISLAND_STAT_busy = true) ∧
    (∃ (s : State) (p : Port) (v : BitVec 32), Live p s R.SYS_ISLAND_EN = true ∧ p ≠ .fw ∧
      s.on F.SYS_ISLAND_STAT_busy = false ∧ ((((v &&& 0x07FFD7FF#32) ||| 0x2800#32).getLsbD 19 = true ∧
      ((v &&& 0x07FFD7FF#32) ||| 0x2800#32).getLsbD 21 = false) ∨ (((v &&& 0x07FFD7FF#32) ||| 0x2800#32).getLsbD 24 = true ∧
      ((v &&& 0x07FFD7FF#32) ||| 0x2800#32).getLsbD 26 = false))) ∧
    (∃ (s : State) (p : Port) (v : BitVec 32), Live p s R.SYS_ISLAND_EN = true ∧ p ≠ .fw ∧
      s.on F.SYS_ISLAND_STAT_busy = false ∧ (¬ ((((v &&& 0x07FFD7FF#32) ||| 0x2800#32).getLsbD 19 = true ∧
      ((v &&& 0x07FFD7FF#32) ||| 0x2800#32).getLsbD 21 = false) ∨ (((v &&& 0x07FFD7FF#32) ||| 0x2800#32).getLsbD 24 = true ∧
      ((v &&& 0x07FFD7FF#32) ||| 0x2800#32).getLsbD 26 = false))) ∧
      (((((v &&& 0x07FFD7FF#32) ||| 0x2800#32) &&& ~~~ s.rd R.SYS_ISLAND_EN) &&& 0x3E0000#32 ≠ 0#32 ∧
      s.on (F.SYS_SEAM_STAT_up 0) = false) ∨ ((((v &&& 0x07FFD7FF#32) ||| 0x2800#32) &&& ~~~ s.rd R.SYS_ISLAND_EN) &&& 0x7C00000#32 ≠ 0#32 ∧
      s.on (F.SYS_SEAM_STAT_up 1) = false))) ∧
    (∃ (s : State) (p : Port) (v : BitVec 32), Live p s R.SYS_ISLAND_EN = true ∧ p ≠ .fw ∧
      s.on F.SYS_ISLAND_STAT_busy = false ∧ (¬ ((((v &&& 0x07FFD7FF#32) ||| 0x2800#32).getLsbD 19 = true ∧
      ((v &&& 0x07FFD7FF#32) ||| 0x2800#32).getLsbD 21 = false) ∨ (((v &&& 0x07FFD7FF#32) ||| 0x2800#32).getLsbD 24 = true ∧
      ((v &&& 0x07FFD7FF#32) ||| 0x2800#32).getLsbD 26 = false))) ∧
      (¬ (((((v &&& 0x07FFD7FF#32) ||| 0x2800#32) &&& ~~~ s.rd R.SYS_ISLAND_EN) &&& 0x3E0000#32 ≠ 0#32 ∧
      s.on (F.SYS_SEAM_STAT_up 0) = false) ∨ ((((v &&& 0x07FFD7FF#32) ||| 0x2800#32) &&& ~~~ s.rd R.SYS_ISLAND_EN) &&& 0x7C00000#32 ≠ 0#32 ∧
      s.on (F.SYS_SEAM_STAT_up 1) = false)))) :=
  ⟨⟨live, .fw, by decide +kernel⟩,
   ⟨up [setB F.SYS_ISLAND_STAT_busy], Port.pcie, by decide +kernel⟩,
   ⟨live, Port.pcie, 0x80000#32, by decide +kernel⟩,
   ⟨up [clrB (F.SYS_SEAM_STAT_up 0), setW R.SYS_ISLAND_EN 0x2801#32], Port.pcie, 0x07FFFFFF#32, by decide +kernel⟩,
   ⟨live, Port.pcie, 0#32, by decide +kernel⟩⟩

theorem test_hypotheses_PllsAndClockFaultsAreReported :
    (∃ (s : State), s.on F.CLK_STAT_ref_ok = false) ∧
    (∃ (s : State), s.up = true ∧ s.hid.clk.sys.lock = false ∧ s.hid.clk.sys.coast = false) ∧
    (∃ (s : State), started s = true ∧ s.hid.clk.north.lock = false ∧ s.hid.clk.north.coast = false) ∧
    (∃ (s : State), started s = true ∧ s.hid.clk.south.lock = false ∧ s.hid.clk.south.coast = false) ∧
    (∃ (s : State), s.hid.pwr.st = .lean ∧ s.hid.pwr.held = true ∧ s.hid.clk.sys.lock = false ∧ s.hid.clk.sys.coast = false) ∧
    (∃ (s : State) (l : Pll), s.up = false ∧ (l = .slide ∨ l ≠ .sys ∧ started s = false)) ∧
    (∃ (s : State), s.up = true ∧ s.on F.CLK_SLIDE_CFG_en = true ∧ s.on F.CLK_SLIDE_STAT_pll_lock = false ∧
      s.on F.CLK_SLIDE_STAT_coast = false) ∧
    (∃ (s : State), s.hid.clk.sys.lock = true) ∧
    (∃ (s : State), s.hid.clk.north.lock = true) ∧
    (∃ (s : State), s.hid.clk.south.lock = true) ∧
    (∃ (s : State), s.on F.CLK_SLIDE_STAT_pll_lock = true) ∧
    (∃ (s : State), s.hid.clk.sys.coast = true ∧ s.on F.CLK_STAT_ref_ok = true) ∧
    (∃ (s : State) (l : Pll), l ≠ .slide ∧ (pllGet s l).coast = true ∧ s.on F.CLK_STAT_ref_ok = true) ∧
    (∃ (s : State), s.on F.CLK_STAT_ref_ok = false) ∧
    (∃ (s : State), s.on F.CLK_SLIDE_STAT_coast = true ∧ s.on F.CLK_STAT_ref_ok = true) ∧
    (∃ (s : State), s.on (F.SYS_SEAM_STAT_up 0) = true) ∧
    (∃ (s : State), s.on (F.SYS_SEAM_STAT_up 1) = true) ∧
    (∃ (s : State) (l : Pll), s.up = true ∧ (pllGet s l).line = true) ∧
    (∃ (s : State) (count : Nat), started s = true ∧ s.hid.pwr.aon = .running ∧ 943 ≤ count ∧ count ≤ 1105) ∧
    (∃ (s : State) (count : Nat), started s = true ∧ s.hid.pwr.aon = .running ∧ (count < 943 ∨ 1105 < count)) ∧
    (∃ (s : State), started s = false) :=
  ⟨⟨State.reset, by decide +kernel⟩,
   ⟨up [hidA fun h => { h with clk := { h.clk with sys := { h.clk.sys with lock := false } } }, hidA fun h => { h with clk := { h.clk with sys := { h.clk.sys with coast := false } } }], by decide +kernel⟩,
   ⟨at0 [hidA fun h => { h with clk := { h.clk with north := { h.clk.north with lock := false } } }, hidA fun h => { h with clk := { h.clk with north := { h.clk.north with coast := false } } }], by decide +kernel⟩,
   ⟨at0 [hidA fun h => { h with clk := { h.clk with south := { h.clk.south with lock := false } } }, hidA fun h => { h with clk := { h.clk with south := { h.clk.south with coast := false } } }], by decide +kernel⟩,
   ⟨at0 [pwrA fun x => { x with st := .lean }, pwrA fun x => { x with held := true }, hidA fun h => { h with clk := { h.clk with sys := { h.clk.sys with lock := false } } }, hidA fun h => { h with clk := { h.clk with sys := { h.clk.sys with coast := false } } }], by decide +kernel⟩,
   ⟨at0 [pwrA fun x => { x with st := .harvest }], .north, by decide +kernel⟩,
   ⟨up [setB F.CLK_SLIDE_CFG_en], by decide +kernel⟩,
   ⟨at0 [hidA fun h => { h with clk := { h.clk with sys := { h.clk.sys with lock := true } } }], by decide +kernel⟩,
   ⟨at0 [hidA fun h => { h with clk := { h.clk with north := { h.clk.north with lock := true } } }], by decide +kernel⟩,
   ⟨at0 [hidA fun h => { h with clk := { h.clk with south := { h.clk.south with lock := true } } }], by decide +kernel⟩,
   ⟨at0 [setB F.CLK_SLIDE_STAT_pll_lock], by decide +kernel⟩,
   ⟨at0 [hidA fun h => { h with clk := { h.clk with sys := { h.clk.sys with coast := true } } }, setB F.CLK_STAT_ref_ok], by decide +kernel⟩,
   ⟨at0 [setB F.CLK_STAT_ref_ok, clkA fun x => { x with sys := { x.sys with coast := true } }], Pll.sys, by decide +kernel⟩,
   ⟨State.reset, by decide +kernel⟩,
   ⟨at0 [setB F.CLK_SLIDE_STAT_coast, setB F.CLK_STAT_ref_ok], by decide +kernel⟩,
   ⟨at0 [setB (F.SYS_SEAM_STAT_up 0)], by decide +kernel⟩,
   ⟨at0 [setB (F.SYS_SEAM_STAT_up 1)], by decide +kernel⟩,
   ⟨up [clkA fun x => { x with sys := { x.sys with line := true } }], Pll.sys, by decide +kernel⟩,
   ⟨at0 [pwrA fun x => { x with aon := .running }], 943, by decide +kernel⟩,
   ⟨at0 [pwrA fun x => { x with aon := .running }], 0, by decide +kernel⟩,
   ⟨at0 [pwrA fun x => { x with st := .harvest }], by decide +kernel⟩⟩

theorem test_hypotheses_DividersAndDeviceTimeFollowTheirRules :
    (∃ (s : State) (p : Port) (v : Word), Live p s R.CLK_SYS_COMMIT = true ∧ v.getLsbD 0 = true ∧ s.mode ≠ CONFIGURE) ∧
    (∃ (s : State) (p : Port) (v : Word), Live p s R.CLK_SYS_COMMIT = true ∧ v.getLsbD 0 = true ∧ s.mode = CONFIGURE ∧
      (s.rd R.SYS_ISLAND_EN).toNat &&& commitIslands s ≠ 0) ∧
    (∃ (s : State) (p : Port) (v : Word), Live p s R.CLK_SYS_COMMIT = true ∧ v.getLsbD 0 = true ∧ s.mode = CONFIGURE ∧
      (¬ ((s.rd R.SYS_ISLAND_EN).toNat &&& commitIslands s ≠ 0)) ∧ s.on F.CLK_STAT_sys_lock = false) ∧
    (∃ (s : State) (p : Port) (v : Word), Live p s R.CLK_SYS_COMMIT = true ∧ v.getLsbD 0 = true ∧ s.mode = CONFIGURE ∧
      (¬ ((s.rd R.SYS_ISLAND_EN).toNat &&& commitIslands s ≠ 0)) ∧ s.on F.CLK_STAT_sys_lock = true ∧
      s.on F.CLK_STAT_commit_pending = true) ∧
    (∃ (s : State) (p : Port) (v : Word), Live p s R.CLK_SYS_COMMIT = true ∧ v.getLsbD 0 = true ∧ s.mode = CONFIGURE ∧
      (¬ ((s.rd R.SYS_ISLAND_EN).toNat &&& commitIslands s ≠ 0)) ∧ s.on F.CLK_STAT_sys_lock = true ∧
      s.on F.CLK_STAT_commit_pending = false) ∧
    (∃ (s : State), s.on (F.SYS_SEAM_STAT_up 0) = true ∧ s.on (F.SYS_SEAM_STAT_up 1) = true) ∧
    (∃ (s : State), s.on (F.SYS_SEAM_STAT_up 0) = false ∧ s.on (F.SYS_SEAM_STAT_up 1) = true) ∧
    (∃ (s : State), s.on (F.SYS_SEAM_STAT_up 0) = true ∧ s.on (F.SYS_SEAM_STAT_up 1) = false) :=
  ⟨⟨live, Port.pcie, 0x1#32, by decide +kernel⟩,
   ⟨up [setF F.SYS_MODE_STAT_mode CONFIGURE, setF F.CLK_SYS_DIV_div_chnt 7], Port.pcie, 0x1#32, by decide +kernel⟩,
   ⟨up [setF F.SYS_MODE_STAT_mode CONFIGURE], Port.pcie, 0x1#32, by decide +kernel⟩,
   ⟨up [setB F.CLK_STAT_sys_lock, setB F.CLK_STAT_commit_pending, setF F.SYS_MODE_STAT_mode CONFIGURE], Port.pcie, 0x1#32, by decide +kernel⟩,
   ⟨up [setB F.CLK_STAT_sys_lock, setF F.SYS_MODE_STAT_mode CONFIGURE], Port.pcie, 0x1#32, by decide +kernel⟩,
   ⟨at0 [setB (F.SYS_SEAM_STAT_up 0), setB (F.SYS_SEAM_STAT_up 1)], by decide +kernel⟩,
   ⟨at0 [clrB (F.SYS_SEAM_STAT_up 0), setB (F.SYS_SEAM_STAT_up 1)], by decide +kernel⟩,
   ⟨at0 [setB (F.SYS_SEAM_STAT_up 0), clrB (F.SYS_SEAM_STAT_up 1)], by decide +kernel⟩⟩

theorem test_hypotheses_SlideFollowsItsCommands :
    (∃ (s : State) (p : Port), Live p s R.CLK_SLIDE_CFG = true ∧ s.on F.CLK_SLIDE_CFG_en = false ∧
      s.on F.CLK_STAT_sys_lock = true) ∧
    (∃ (s : State) (p : Port), Live p s R.CLK_SLIDE_CFG = true ∧ s.on F.CLK_SLIDE_CFG_en = false ∧
      s.on F.CLK_STAT_sys_lock = false) ∧
    (∃ (s : State) (p : Port), Live p s R.CLK_SLIDE_CFG = true ∧ s.on F.CLK_SLIDE_CFG_en = true ∧
      (s.mode = DORMANT ∨ s.mode = CONFIGURE)) ∧
    (∃ (s : State) (p : Port), Live p s R.CLK_SLIDE_CFG = true ∧ s.on F.CLK_SLIDE_CFG_en = true ∧ s.mode ≠ DORMANT ∧
      s.mode ≠ CONFIGURE) ∧
    (∃ (s : State) (p : Port) (v : Word), Live p s R.CLK_SLIDE_COMMIT = true ∧ v.getLsbD 0 = true ∧
      s.on F.CLK_SLIDE_COMMIT_go = true) ∧
    (∃ (s : State) (p : Port) (v : Word), Live p s R.CLK_SLIDE_COMMIT = true ∧ v.getLsbD 0 = true ∧
      s.on F.CLK_SLIDE_COMMIT_go = false) ∧
    (∃ (s : State) (x : SlideSet) (pherr : BitVec 32) (tgt : Rat) (err : Rat), s.on F.CLK_SLIDE_CFG_en = true ∧
      x = (if s.on F.CLK_SLIDE_COMMIT_go then slideShadow s else s.hid.clk.slide) ∧ pherr = qTheta s - slideAngle s s.now ∧
      tgt = clampRat (40 / s.hid.clk.fnom) (70 / s.hid.clk.fnom) (slideTarget x s pherr.toInt) ∧ err = tgt - s.hid.clk.freq) ∧
    (∃ (s : State) (j : Fin 4), s.on F.CLK_SLIDE_CFG_en = true ∧ slideEdge s = true ∧
      strobeAt (s.hid.clk.slide.strobe.getD j 0#32) (slideCyc s s.now) = true) ∧
    (∃ (s : State) (j : Fin 4), s.on F.CLK_SLIDE_CFG_en = false ∧ bit s.hid.clk.ending j = true ∧ slideEdge s = true ∧
      strobeAt (s.hid.clk.slide.strobe.getD j 0#32) (slideCyc s s.now) = true) :=
  ⟨⟨up [setB F.CLK_STAT_sys_lock], Port.pcie, by decide +kernel⟩,
   ⟨live, Port.pcie, by decide +kernel⟩,
   ⟨up [setB F.CLK_SLIDE_CFG_en, setF F.SYS_MODE_STAT_mode DORMANT], Port.pcie, by decide +kernel⟩,
   ⟨up [setB F.CLK_SLIDE_CFG_en, setF F.SYS_MODE_STAT_mode STANDBY], Port.pcie, by decide +kernel⟩,
   ⟨up [setB F.CLK_SLIDE_COMMIT_go], Port.pcie, 0x1#32, by decide +kernel⟩,
   ⟨live, Port.pcie, 0x1#32, by decide +kernel⟩,
   ⟨at0 [setB F.CLK_SLIDE_CFG_en], ((if (at0 [setB F.CLK_SLIDE_CFG_en]).on F.CLK_SLIDE_COMMIT_go then slideShadow (at0 [setB F.CLK_SLIDE_CFG_en]) else (at0 [setB F.CLK_SLIDE_CFG_en]).hid.clk.slide)), (qTheta (at0 [setB F.CLK_SLIDE_CFG_en]) - slideAngle (at0 [setB F.CLK_SLIDE_CFG_en]) (at0 [setB F.CLK_SLIDE_CFG_en]).now), (clampRat (40 / (at0 [setB F.CLK_SLIDE_CFG_en]).hid.clk.fnom) (70 / (at0 [setB F.CLK_SLIDE_CFG_en]).hid.clk.fnom) (slideTarget ((if (at0 [setB F.CLK_SLIDE_CFG_en]).on F.CLK_SLIDE_COMMIT_go then slideShadow (at0 [setB F.CLK_SLIDE_CFG_en]) else (at0 [setB F.CLK_SLIDE_CFG_en]).hid.clk.slide)) (at0 [setB F.CLK_SLIDE_CFG_en]) (qTheta (at0 [setB F.CLK_SLIDE_CFG_en]) - slideAngle (at0 [setB F.CLK_SLIDE_CFG_en]) (at0 [setB F.CLK_SLIDE_CFG_en]).now).toInt)), ((clampRat (40 / (at0 [setB F.CLK_SLIDE_CFG_en]).hid.clk.fnom) (70 / (at0 [setB F.CLK_SLIDE_CFG_en]).hid.clk.fnom) (slideTarget ((if (at0 [setB F.CLK_SLIDE_CFG_en]).on F.CLK_SLIDE_COMMIT_go then slideShadow (at0 [setB F.CLK_SLIDE_CFG_en]) else (at0 [setB F.CLK_SLIDE_CFG_en]).hid.clk.slide)) (at0 [setB F.CLK_SLIDE_CFG_en]) (qTheta (at0 [setB F.CLK_SLIDE_CFG_en]) - slideAngle (at0 [setB F.CLK_SLIDE_CFG_en]) (at0 [setB F.CLK_SLIDE_CFG_en]).now).toInt)) - (at0 [setB F.CLK_SLIDE_CFG_en]).hid.clk.freq), by decide +kernel⟩,
   ⟨{ (up [setB F.CLK_SLIDE_CFG_en, setB F.CLK_SLIDE_STAT_pll_lock, clkA fun x => { x with cyc := 25599 / 100, cycT := 100, freq := 1, slide := { x.slide with strobe := [0#32, 0#32, 0#32, 0x100001#32] } }]) with now := 101#64 }, 3, by decide +kernel⟩,
   ⟨{ (up [setB F.CLK_SLIDE_STAT_pll_lock, clkA fun x => { x with cyc := 25599 / 100, cycT := 100, freq := 1, ending := 8, slide := { x.slide with strobe := [0#32, 0#32, 0#32, 0x100001#32] } }]) with now := 101#64 }, 3, by decide +kernel⟩⟩

theorem test_hypotheses_FingCommandsAreCheckedAndBegin :
    (∃ (s : State) (p : Port), Live p s R.FING_CMD = true ∧ fingRaced p s = true) ∧
    (∃ (s : State) (p : Port), Live p s R.FING_CMD = true ∧ fingRaced p s = false ∧ s.on F.FING_STAT_busy = true) ∧
    (∃ (s : State) (p : Port) (op : BitVec 3), Live p s R.FING_CMD = true ∧ fingRaced p s = false ∧
      s.on F.FING_STAT_busy = false ∧ (op = 0 ∨ 4 < op.toNat)) ∧
    (∃ (s : State) (p : Port) (op : BitVec 3), Live p s R.FING_CMD = true ∧ fingRaced p s = false ∧
      s.on F.FING_STAT_busy = false ∧ 1 ≤ op.toNat ∧ op.toNat ≤ 4 ∧ s.mode ≠ CONFIGURE) ∧
    (∃ (s : State) (p : Port) (op : BitVec 3), Live p s R.FING_CMD = true ∧ ((fingRaced p s = false) ∧
      s.on F.FING_STAT_busy = false) ∧ s.mode = CONFIGURE ∧ (op = 1 ∨ op = 4) ∧ (s.f F.FING_STAT_loader) ≠ 0 ∧
      (s.f F.FING_STAT_loader) ≠ 3) ∧
    (∃ (s : State) (p : Port) (op : BitVec 3), Live p s R.FING_CMD = true ∧ ((fingRaced p s = false) ∧
      s.on F.FING_STAT_busy = false) ∧ s.mode = CONFIGURE ∧ op = 2 ∧ (s.f F.FING_STAT_loader) ≠ 3) ∧
    (∃ (s : State) (p : Port) (op : BitVec 3), Live p s R.FING_CMD = true ∧ ((fingRaced p s = false) ∧
      s.on F.FING_STAT_busy = false) ∧ s.mode = CONFIGURE ∧ op = 3 ∧ ((s.f F.FING_STAT_loader) ≠ 0 ∨ s.force ≠ 1)) ∧
    (∃ (s : State) (p : Port) (op : BitVec 3), Live p s R.FING_CMD = true ∧ (((fingRaced p s = false) ∧
      s.on F.FING_STAT_busy = false) ∧ s.mode = CONFIGURE) ∧ op = 1 ∧
      ((s.f F.FING_STAT_loader) = 0 ∨ (s.f F.FING_STAT_loader) = 3) ∧ s.hid.boot.upd = true) ∧
    (∃ (s : State) (p : Port) (op : BitVec 3), Live p s R.FING_CMD = true ∧ (((fingRaced p s = false) ∧
      s.on F.FING_STAT_busy = false) ∧ s.mode = CONFIGURE) ∧ op = 1 ∧
      ((s.f F.FING_STAT_loader) = 0 ∨ (s.f F.FING_STAT_loader) = 3) ∧ s.hid.boot.upd = false ∧
      s.on F.FING_SRC_CFG_src = true ∧ memReady s = false) ∧
    (∃ (s : State) (p : Port) (op : BitVec 3), Live p s R.FING_CMD = true ∧ (((fingRaced p s = false) ∧
      s.on F.FING_STAT_busy = false) ∧ s.mode = CONFIGURE) ∧ op = 1 ∧
      ((s.f F.FING_STAT_loader) = 0 ∨ (s.f F.FING_STAT_loader) = 3) ∧ s.hid.boot.upd = false ∧
      (s.on F.FING_SRC_CFG_src = true → memReady s = true) ∧ (s.rd R.FING_SRC_ADDR).toNat % 16 ≠ 0) ∧
    (∃ (s : State) (p : Port) (op : BitVec 3), Live p s R.FING_CMD = true ∧ ((fingRaced p s = false) ∧
      s.on F.FING_STAT_busy = false) ∧ s.mode = CONFIGURE ∧ op = 2 ∧ (s.f F.FING_STAT_loader) = 3 ∧ s.hid.fing.staged ≠ [] ∧
      (s.rd R.SYS_ISLAND_EN).toNat &&& islandNeed s.hid.fing.staged ≠ islandNeed s.hid.fing.staged) ∧
    (∃ (s : State) (p : Port), Live p s R.FING_CMD = true ∧ fingRaced p s = false ∧ s.on F.FING_STAT_busy = false ∧
      s.mode = CONFIGURE ∧ ((s.f F.FING_STAT_loader) = 0 ∨ (s.f F.FING_STAT_loader) = 3) ∧ s.hid.boot.upd = false ∧
      (s.on F.FING_SRC_CFG_src = true → memReady s = true) ∧ (s.rd R.FING_SRC_ADDR).toNat % 16 = 0) ∧
    (∃ (s : State) (p : Port), Live p s R.FING_CMD = true ∧ fingRaced p s = false ∧ s.on F.FING_STAT_busy = false ∧
      s.mode = CONFIGURE ∧ (s.f F.FING_STAT_loader) = 3 ∧
      (s.rd R.SYS_ISLAND_EN).toNat &&& islandNeed s.hid.fing.staged = islandNeed s.hid.fing.staged) ∧
    (∃ (s : State) (p : Port), Live p s R.FING_CMD = true ∧ fingRaced p s = false ∧ s.on F.FING_STAT_busy = false ∧
      s.mode = CONFIGURE ∧ (s.f F.FING_STAT_loader) = 0 ∧ s.force = 1) ∧
    (∃ (s : State) (p : Port), Live p s R.FING_CMD = true ∧ fingRaced p s = false ∧ s.on F.FING_STAT_busy = false ∧
      s.mode = CONFIGURE ∧ ((s.f F.FING_STAT_loader) = 0 ∨ (s.f F.FING_STAT_loader) = 3) ∧ s.force = 0) ∧
    (∃ (s : State) (p : Port), Live p s R.FING_CMD = true ∧ fingRaced p s = false ∧ s.on F.FING_STAT_busy = false ∧
      s.mode = CONFIGURE ∧ ((s.f F.FING_STAT_loader) = 0 ∨ (s.f F.FING_STAT_loader) = 3) ∧ s.force ≠ 0) :=
  ⟨⟨up [fingA fun x => { x with last := some (0, .fw) }], Port.pcie, by decide +kernel⟩,
   ⟨up [setB F.FING_STAT_busy], Port.pcie, by decide +kernel⟩,
   ⟨live, Port.pcie, 0#3, by decide +kernel⟩,
   ⟨live, Port.pcie, 4#3, by decide +kernel⟩,
   ⟨up [setF F.SYS_MODE_STAT_mode CONFIGURE, setF F.FING_STAT_loader 1], Port.pcie, 1#3, by decide +kernel⟩,
   ⟨up [setF F.SYS_MODE_STAT_mode CONFIGURE], Port.pcie, 2, by decide +kernel⟩,
   ⟨up [setF F.SYS_MODE_STAT_mode CONFIGURE], Port.pcie, 3, by decide +kernel⟩,
   ⟨up [bootA fun x => { x with upd := true }, setF F.SYS_MODE_STAT_mode CONFIGURE], Port.pcie, 1, by decide +kernel⟩,
   ⟨up [setB F.FING_SRC_CFG_src, setF F.SYS_MODE_STAT_mode CONFIGURE], Port.pcie, 1, by decide +kernel⟩,
   ⟨up [setF F.SYS_MODE_STAT_mode CONFIGURE, setW R.FING_SRC_ADDR 8#32], Port.pcie, 1, by decide +kernel⟩,
   ⟨up [setF F.SYS_MODE_STAT_mode CONFIGURE, setF F.FING_STAT_loader 3, fingA fun x => { x with staged := [{ typ := tMeter, tgt := 0, pay := [] }] }, setW R.SYS_ISLAND_EN 0x2801#32], Port.pcie, 2, by decide +kernel⟩,
   ⟨up [setF F.SYS_MODE_STAT_mode CONFIGURE], Port.pcie, by decide +kernel⟩,
   ⟨up [setF F.SYS_MODE_STAT_mode CONFIGURE, setF F.FING_STAT_loader 3], Port.pcie, by decide +kernel⟩,
   ⟨up [setF F.FING_STAT_force 1, setF F.SYS_MODE_STAT_mode CONFIGURE], Port.pcie, by decide +kernel⟩,
   ⟨up [setF F.SYS_MODE_STAT_mode CONFIGURE], Port.pcie, by decide +kernel⟩,
   ⟨up [setF F.SYS_MODE_STAT_mode CONFIGURE, setF F.FING_STAT_force 1], Port.pcie, by decide +kernel⟩⟩

theorem test_hypotheses_FingCommandsEndWithTheirCode :
    (∃ (s : State), s.on F.FING_STAT_busy = true ∧ s.f F.FING_STAT_loader = 1 ∧ s.mode = CONFIGURE ∧ s.hid.fing.quit = none) ∧
    (∃ (s : State), s.on F.FING_STAT_busy = true ∧ s.f F.FING_STAT_loader = 4 ∧ s.mode = CONFIGURE ∧ s.hid.fing.quit = none ∧
      s.hid.pwr.dumpOnly = false) ∧
    (∃ (s : State), s.on F.FING_STAT_busy = true ∧ s.f F.FING_STAT_loader = 5 ∧ s.mode = CONFIGURE ∧ s.hid.fing.quit = none ∧
      s.force = 1) ∧
    (∃ (s : State) (why : FingAbort), s.on F.FING_STAT_busy = true ∧ (s.hid.fing.quit = some why ∨ (s.hid.fing.quit = none ∧
      why = .source ∧ s.f F.FING_STAT_loader = 1)) ∧ s.f F.FING_STAT_loader ≠ 4) ∧
    (∃ (s : State) (why : FingAbort), s.on F.FING_STAT_busy = true ∧ (s.hid.fing.quit = some why ∨ (s.hid.fing.quit = none ∧
      why = .source ∧ s.f F.FING_STAT_loader = 1)) ∧ s.f F.FING_STAT_loader = 4) ∧
    (∃ (s : State) (why : FingAbort), s.on F.FING_STAT_busy = true ∧ s.hid.fing.quit ≠ some why ∧
      (s.hid.fing.quit ≠ none ∨ why ≠ .source ∨ s.f F.FING_STAT_loader ≠ 1)) :=
  ⟨⟨at0 [setB F.FING_STAT_busy, setF F.FING_STAT_loader 1, setF F.SYS_MODE_STAT_mode CONFIGURE], by decide +kernel⟩,
   ⟨at0 [setB F.FING_STAT_busy, setF F.FING_STAT_loader 4, setF F.SYS_MODE_STAT_mode CONFIGURE], by decide +kernel⟩,
   ⟨at0 [setB F.FING_STAT_busy, setF F.FING_STAT_loader 5, setF F.FING_STAT_force 1, setF F.SYS_MODE_STAT_mode CONFIGURE], by decide +kernel⟩,
   ⟨at0 [setB F.FING_STAT_busy, fingA fun x => { x with quit := some .left }], .left, by decide +kernel⟩,
   ⟨at0 [setB F.FING_STAT_busy, setF F.FING_STAT_loader 4, fingA fun x => { x with quit := some .left }], .left, by decide +kernel⟩,
   ⟨at0 [setB F.FING_STAT_busy], .left, by decide +kernel⟩⟩

theorem test_hypotheses_ModeRequestsAreCheckedAndBegin :
    (∃ (s : State) (p : Port), Live p s R.SYS_MODE_CMD = true ∧ modeRaced p s = true) ∧
    (∃ (s : State) (p : Port) (m : Fin 8), Live p s R.SYS_MODE_CMD = true ∧ modeRaced p s = false ∧ p = .fw ∧ m.val ≠ HALT) ∧
    (∃ (s : State) (p : Port) (m : Fin 8), Live p s R.SYS_MODE_CMD = true ∧ modeRaced p s = false ∧
      (p ≠ .fw ∨ m.val = HALT) ∧ m.val = RIDE) ∧
    (∃ (s : State) (p : Port) (m : Fin 8), Live p s R.SYS_MODE_CMD = true ∧ modeRaced p s = false ∧
      (p ≠ .fw ∨ m.val = HALT) ∧ m.val ≠ RIDE ∧ s.role = 2) ∧
    (∃ (s : State) (p : Port) (m : Fin 8), Live p s R.SYS_MODE_CMD = true ∧ modeRaced p s = false ∧
      (p ≠ .fw ∨ m.val = HALT) ∧ m.val ≠ RIDE ∧ s.role ≠ 2 ∧ transBusy s = true) ∧
    (∃ (s : State) (p : Port) (m : Fin 8), Live p s R.SYS_MODE_CMD = true ∧ ((modeRaced p s = false) ∧
      (p ≠ .fw ∨ m.val = HALT)) ∧ m.val ≠ RIDE ∧ s.role ≠ 2 ∧ transBusy s = false ∧ m.val = s.mode) ∧
    (∃ (s : State) (p : Port) (m : Fin 8), Live p s R.SYS_MODE_CMD = true ∧ ((modeRaced p s = false) ∧
      (p ≠ .fw ∨ m.val = HALT)) ∧ m.val ≠ RIDE ∧ s.role ≠ 2 ∧ transBusy s = false ∧ rideRaced s = true ∧ m.val ≠ HALT ∧
      (transAllowed s.mode m = false ∨ modeInPower s m = false)) ∧
    (∃ (s : State) (p : Port) (m : Fin 8), Live p s R.SYS_MODE_CMD = true ∧ (((modeRaced p s = false) ∧
      (p ≠ .fw ∨ m.val = HALT)) ∧ m.val ≠ RIDE ∧ s.role ≠ 2 ∧ transBusy s = false) ∧ (rideRaced s = false ∨ m.val = HALT) ∧
      m.val ≠ s.mode ∧ transAllowed s.mode m = false) ∧
    (∃ (s : State) (p : Port) (m : Fin 8), Live p s R.SYS_MODE_CMD = true ∧ (((modeRaced p s = false) ∧
      (p ≠ .fw ∨ m.val = HALT)) ∧ m.val ≠ RIDE ∧ s.role ≠ 2 ∧ transBusy s = false) ∧ (rideRaced s = false ∨ m.val = HALT) ∧
      m.val ≠ s.mode ∧ transAllowed s.mode m = true ∧ m.val ≠ HALT ∧ modeInPower s m = false) ∧
    (∃ (s : State) (p : Port) (m : Fin 8) (i : Fin 15), Live p s R.SYS_MODE_CMD = true ∧ modeRaced p s = false ∧
      rideRaced s = false ∧ p ≠ .fw ∧ s.role ≠ 2 ∧ transBusy s = false ∧ m.val ≠ s.mode ∧ transAllowed s.mode m = true ∧
      modeInPower s m = true ∧ m.val ≠ HALT ∧ m.val ≠ RIDE ∧
      (([ decide (((m.val = STANDBY ∨ m.val = FOLLOW ∨ m.val = FORM) ∨ m.val = SERVICE) ∧
      ¬ (s.on (F.SYS_SEAM_STAT_up 0) = true ∧
      s.on (F.SYS_SEAM_STAT_up 1) = true)), decide (((m.val = STANDBY ∨ m.val = FOLLOW ∨ m.val = FORM) ∨ m.val = CONFIGURE) ∧
      s.on F.SYS_MODE_STAT_lockstep_broken = true), decide ((m.val = DORMANT ∨ m.val = STANDBY ∨ m.val = SERVICE) ∧
      s.on F.FING_STAT_busy = true), decide ((m.val = STANDBY ∨ m.val = FOLLOW ∨ m.val = FORM) ∧
      s.force < 2), decide ((m.val = FOLLOW ∧ s.on F.FING_FEAT_follow = false) ∨ (m.val = FORM ∧
      s.on F.FING_FEAT_form = false)), decide ((m.val = STANDBY ∨ m.val = FOLLOW ∨ m.val = FORM) ∧
      (s.rd R.SYS_ISLAND_EN).toNat &&& needIslands s ≠ needIslands s), decide ((m.val = STANDBY ∨ m.val = FOLLOW ∨ m.val = FORM) ∧
      routedCalibrated s = false), decide ((m.val = STANDBY ∨ m.val = FOLLOW ∨ m.val = FORM) ∧
      (s.on F.FING_FEAT_fine = true ∨ s.on F.FING_FEAT_whistle = true) ∧
      (s.on F.CLK_SLIDE_CFG_en = false ∨ s.on F.CLK_SLIDE_STAT_pll_lock = false)), decide ((m.val = STANDBY ∨ m.val = FOLLOW ∨ m.val = FORM) ∧
      budgetsOk s = false), decide ((m.val = FOLLOW ∨ m.val = FORM) ∧
      (s.on F.DRONE_STAT_forced_off = true ∨ droneFaulted s = true)), decide (m.val = STANDBY ∧ s.mode = HALT ∧
      s.rd R.SYS_HALT_CAUSE ≠ 0#32), decide (m.val = SERVICE ∧ s.role ≠ 0), decide (m.val = SERVICE ∧
      s.on F.SYS_MODE_STAT_svckey = false), decide ((m.val = FOLLOW ∨ m.val = FORM) ∧ s.mode = RIDE ∧
      (m.val ≠ s.f F.SYS_MODE_STAT_ride_origin ∨ s.on F.SYS_MODE_STAT_ride_recovered = false)), decide (m.val = FOLLOW ∧
      s.on F.GRID_STAT_locked = false)]).getD i false = true) ∧
      (∀ j : Fin 15, j < i → ([ decide (((m.val = STANDBY ∨ m.val = FOLLOW ∨ m.val = FORM) ∨ m.val = SERVICE) ∧
      ¬ (s.on (F.SYS_SEAM_STAT_up 0) = true ∧
      s.on (F.SYS_SEAM_STAT_up 1) = true)), decide (((m.val = STANDBY ∨ m.val = FOLLOW ∨ m.val = FORM) ∨ m.val = CONFIGURE) ∧
      s.on F.SYS_MODE_STAT_lockstep_broken = true), decide ((m.val = DORMANT ∨ m.val = STANDBY ∨ m.val = SERVICE) ∧
      s.on F.FING_STAT_busy = true), decide ((m.val = STANDBY ∨ m.val = FOLLOW ∨ m.val = FORM) ∧
      s.force < 2), decide ((m.val = FOLLOW ∧ s.on F.FING_FEAT_follow = false) ∨ (m.val = FORM ∧
      s.on F.FING_FEAT_form = false)), decide ((m.val = STANDBY ∨ m.val = FOLLOW ∨ m.val = FORM) ∧
      (s.rd R.SYS_ISLAND_EN).toNat &&& needIslands s ≠ needIslands s), decide ((m.val = STANDBY ∨ m.val = FOLLOW ∨ m.val = FORM) ∧
      routedCalibrated s = false), decide ((m.val = STANDBY ∨ m.val = FOLLOW ∨ m.val = FORM) ∧
      (s.on F.FING_FEAT_fine = true ∨ s.on F.FING_FEAT_whistle = true) ∧
      (s.on F.CLK_SLIDE_CFG_en = false ∨ s.on F.CLK_SLIDE_STAT_pll_lock = false)), decide ((m.val = STANDBY ∨ m.val = FOLLOW ∨ m.val = FORM) ∧
      budgetsOk s = false), decide ((m.val = FOLLOW ∨ m.val = FORM) ∧
      (s.on F.DRONE_STAT_forced_off = true ∨ droneFaulted s = true)), decide (m.val = STANDBY ∧ s.mode = HALT ∧
      s.rd R.SYS_HALT_CAUSE ≠ 0#32), decide (m.val = SERVICE ∧ s.role ≠ 0), decide (m.val = SERVICE ∧
      s.on F.SYS_MODE_STAT_svckey = false), decide ((m.val = FOLLOW ∨ m.val = FORM) ∧ s.mode = RIDE ∧
      (m.val ≠ s.f F.SYS_MODE_STAT_ride_origin ∨ s.on F.SYS_MODE_STAT_ride_recovered = false)), decide (m.val = FOLLOW ∧
      s.on F.GRID_STAT_locked = false)]).getD j false = false)) :=
  ⟨⟨up [modeA fun x => { x with last := some (0, .fw) }], Port.pcie, by decide +kernel⟩,
   ⟨live, .fw, 7, by decide +kernel⟩,
   ⟨live, Port.pcie, 5, by decide +kernel⟩,
   ⟨up [setF F.SYS_MODE_STAT_role 2], Port.pcie, 7, by decide +kernel⟩,
   ⟨up [setB F.SYS_MODE_STAT_busy], Port.pcie, 7, by decide +kernel⟩,
   ⟨live, Port.pcie, 0, by decide +kernel⟩,
   ⟨up [setF F.SYS_MODE_STAT_mode RIDE, modeA fun x => { x with rideT := some 0 }], Port.pcie, 7, by decide +kernel⟩,
   ⟨live, Port.pcie, 2, by decide +kernel⟩,
   ⟨up [setF F.SYS_MODE_STAT_mode STANDBY], Port.pcie, 3, by decide +kernel⟩,
   ⟨up [setF F.SYS_MODE_STAT_mode CONFIGURE], Port.pcie, 2, 3, by decide +kernel⟩⟩

theorem test_hypotheses_HaltIsEnteredAndItsCausesClear :
    (∃ (s : State) (p : Port), Live p s R.SYS_MODE_CMD = true ∧ modeRaced p s = false ∧ modeCheck p 6 s = 0 ∧ s.mode ≠ HALT ∧
      (s.mode ≠ CONFIGURE ∨ s.force ≠ 3)) ∧
    (∃ (s : State) (p : Port), Live p s R.SYS_MODE_CMD = true ∧ modeRaced p s = false ∧ modeCheck p 6 s = 0 ∧
      s.mode = CONFIGURE ∧ s.force = 3) ∧
    (∃ (s : State), s.up = true ∧ (s.mode = DORMANT ∨ s.mode = HALT) ∧ s.on F.SYS_MODE_STAT_busy = false) ∧
    (∃ (s : State), s.up = true ∧ s.mode = HALT ∧ s.on F.SYS_MODE_STAT_busy = true) ∧
    (∃ (s : State), s.up = true ∧ s.mode ≠ HALT ∧ (s.mode ≠ DORMANT ∨ s.on F.SYS_MODE_STAT_busy = true)) ∧
    (∃ (s : State) (p : Port), Live p s R.SYS_HALT_CAUSE = true) :=
  ⟨⟨live, Port.pcie, by decide +kernel⟩,
   ⟨up [setF F.FING_STAT_force 3, setF F.SYS_MODE_STAT_mode CONFIGURE], Port.pcie, by decide +kernel⟩,
   ⟨up [setF F.SYS_MODE_STAT_mode DORMANT], by decide +kernel⟩,
   ⟨up [setB F.SYS_MODE_STAT_busy, setF F.SYS_MODE_STAT_mode HALT], by decide +kernel⟩,
   ⟨up [setF F.SYS_MODE_STAT_mode STANDBY], by decide +kernel⟩,
   ⟨live, Port.pcie, by decide +kernel⟩⟩

theorem test_hypotheses_ModeTransitionsComplete :
    (∃ (s : State) (m : Nat), s.up = true ∧ s.on F.SYS_MODE_STAT_busy = true ∧ m = s.hid.mode.target ∧ m < 8 ∧ m ≠ HALT ∧
      m ≠ s.mode ∧ s.hid.ride.wait = false ∧ s.on (F.SYS_SEAM_STAT_up 0) = true ∧ s.on (F.SYS_SEAM_STAT_up 1) = true ∧
      (s.mode = CONFIGURE → s.force = 3 → safetyCrcOk s = true)) ∧
    (∃ (s : State), s.up = true ∧ s.on F.SYS_MODE_STAT_busy = true ∧ s.mode = CONFIGURE ∧ s.hid.mode.target ≠ CONFIGURE ∧
      s.force = 3 ∧ safetyCrcOk s = false ∧ s.hid.ride.wait = false) ∧
    (∃ (s : State), s.up = true ∧ s.on F.SYS_MODE_STAT_busy = true ∧ s.mode = CONFIGURE ∧ s.hid.mode.target = HALT ∧
      s.force = 3 ∧ safetyCrcOk s = true ∧ s.hid.ride.wait = false) ∧
    (∃ (s : State) (m : Nat), s.up = true ∧ s.on F.SYS_MODE_STAT_busy = true ∧ m = s.hid.mode.target ∧ (s.mode = FOLLOW ∧
      m = FORM ∨ s.mode = FORM ∧ m = FOLLOW) ∧ s.hid.ride.wait = true) :=
  ⟨⟨up [setB F.SYS_MODE_STAT_busy, setB (F.SYS_SEAM_STAT_up 0), setB (F.SYS_SEAM_STAT_up 1), modeA fun x => { x with target := 1 }], (up [setB F.SYS_MODE_STAT_busy, setB (F.SYS_SEAM_STAT_up 0), setB (F.SYS_SEAM_STAT_up 1), modeA fun x => { x with target := 1 }]).hid.mode.target, by decide +kernel⟩,
   ⟨up [setB F.SYS_MODE_STAT_busy, setF F.FING_STAT_force 3, setF F.SYS_MODE_STAT_mode CONFIGURE, setB F.DRONE_STAT_accepted, setW (R.DRONE_PARAM 0) 1#32], by decide +kernel⟩,
   ⟨up [setB F.SYS_MODE_STAT_busy, modeA fun x => { x with target := HALT }, setF F.FING_STAT_force 3, setF F.SYS_MODE_STAT_mode CONFIGURE], by decide +kernel⟩,
   ⟨up [setB F.SYS_MODE_STAT_busy, rideA fun x => { x with wait := true }, setF F.SYS_MODE_STAT_mode FOLLOW, modeA fun x => { x with target := FORM }], FORM, by decide +kernel⟩⟩

theorem test_hypotheses_ConvertersStartAndRegisterResults :
    (∃ (s : State) (c : Fin 16), (convSt s c).trigs = 0) ∧
    (∃ (s : State) (c : Fin 16), (convSt s c).trigs ≠ 0 ∧
      (s.f (F.CONV_C_TRIG_kind c) = 0 ∨ s.mode = CONFIGURE ∨ s.mode = SERVICE)) ∧
    (∃ (s : State) (c : Fin 16) (x : ConvSt), (convSt s c).trigs ≠ 0 ∧ s.f (F.CONV_C_TRIG_kind c) ≠ 0 ∧ s.mode ≠ DORMANT ∧
      s.mode ≠ CONFIGURE ∧ s.mode ≠ SERVICE ∧ convOn s (convDie c) = true ∧ s.on (F.CONV_C_STAT_cal c) = false ∧
      s.on (F.CONV_C_CTL_en c) = true ∧ x = { convSt s c with trigs := (convSt s c).trigs - 1 } ∧
      s.on (F.CONV_C_STAT_busy c) = false) ∧
    (∃ (s : State) (c : Fin 16) (x : ConvSt), (convSt s c).trigs ≠ 0 ∧ s.f (F.CONV_C_TRIG_kind c) ≠ 0 ∧ s.mode ≠ DORMANT ∧
      s.mode ≠ CONFIGURE ∧ s.mode ≠ SERVICE ∧ convOn s (convDie c) = true ∧ s.on (F.CONV_C_STAT_cal c) = false ∧
      s.on (F.CONV_C_CTL_en c) = true ∧ x = { convSt s c with trigs := (convSt s c).trigs - 1 } ∧
      s.on (F.CONV_C_STAT_busy c) = true ∧ s.on (F.CONV_C_TRIG_repeat c) = true) ∧
    (∃ (s : State) (c : Fin 16) (x : ConvSt), (convSt s c).trigs ≠ 0 ∧ s.f (F.CONV_C_TRIG_kind c) ≠ 0 ∧ s.mode ≠ DORMANT ∧
      s.mode ≠ CONFIGURE ∧ s.mode ≠ SERVICE ∧ convOn s (convDie c) = true ∧ s.on (F.CONV_C_STAT_cal c) = false ∧
      s.on (F.CONV_C_CTL_en c) = true ∧ x = { convSt s c with trigs := (convSt s c).trigs - 1 } ∧
      s.on (F.CONV_C_STAT_busy c) = true ∧ s.on (F.CONV_C_TRIG_repeat c) = false) ∧
    (∃ (s : State) (p : Port) (c : Fin 16) (v : Word), Live p s (R.CONV_C_CTL c) = true ∧ v.getLsbD 0 = true ∧
      s.mode ≠ DORMANT ∧ convOn s (convDie c) = true ∧ s.on (F.CONV_C_STAT_cal c) = false ∧
      s.on (F.CONV_C_STAT_busy c) = false) ∧
    (∃ (s : State) (p : Port) (c : Fin 16) (v : Word), Live p s (R.CONV_C_CTL c) = true ∧ v.getLsbD 0 = true ∧
      s.mode ≠ DORMANT ∧ convOn s (convDie c) = true ∧ s.on (F.CONV_C_STAT_cal c) = false ∧
      s.on (F.CONV_C_STAT_busy c) = true ∧ s.on (F.CONV_C_TRIG_repeat c) = false) ∧
    (∃ (s : State) (p : Port) (c : Fin 16) (v : Word), Live p s (R.CONV_C_CTL c) = true ∧ v.getLsbD 0 = false ∧
      s.mode ≠ DORMANT ∧ convOn s (convDie c) = true ∧ s.on (F.CONV_C_STAT_cal c) = true ∧
      s.on (F.CONV_C_STAT_busy c) = false) ∧
    (∃ (s : State) (c : Fin 16), s.on (F.CONV_C_STAT_busy c) = true ∧ convOwn s c = true ∧ ((convSt s c).ent.toNat) % 16 = 9) ∧
    (∃ (s : State) (c : Fin 16) (x : ConvIn), s.on (F.CONV_C_STAT_busy c) = true ∧ convOwn s c = true ∧
      ((convSt s c).ent.toNat) % 16 ≠ 9 ∧ (vref s (convDie c) x.ext x.vdda) ≠ 0) ∧
    (∃ (s : State) (c : Fin 16), s.on (F.CONV_C_STAT_busy c) = true ∧ convOwn s c = false) :=
  ⟨⟨State.reset, 15, by decide +kernel⟩,
   ⟨at0 [convA 15 fun x => { x with trigs := 1 }], 15, by decide +kernel⟩,
   ⟨up [setF (F.CONV_C_TRIG_kind 15) 1, setB (F.CONV_C_CTL_en 15), setF F.SYS_MODE_STAT_mode STANDBY, convA 15 fun x => { x with trigs := 1 }], 15, ({ convSt (up [setF (F.CONV_C_TRIG_kind 15) 1, setB (F.CONV_C_CTL_en 15), setF F.SYS_MODE_STAT_mode STANDBY, convA 15 fun x => { x with trigs := 1 }]) 15 with trigs := (convSt (up [setF (F.CONV_C_TRIG_kind 15) 1, setB (F.CONV_C_CTL_en 15), setF F.SYS_MODE_STAT_mode STANDBY, convA 15 fun x => { x with trigs := 1 }]) 15).trigs - 1 }), by decide +kernel⟩,
   ⟨up [setF (F.CONV_C_TRIG_kind 15) 1, setB (F.CONV_C_CTL_en 15), setB (F.CONV_C_STAT_busy 15), setB (F.CONV_C_TRIG_repeat 15), setF F.SYS_MODE_STAT_mode STANDBY, convA 15 fun x => { x with trigs := 1 }], 15, ({ convSt (up [setF (F.CONV_C_TRIG_kind 15) 1, setB (F.CONV_C_CTL_en 15), setB (F.CONV_C_STAT_busy 15), setB (F.CONV_C_TRIG_repeat 15), setF F.SYS_MODE_STAT_mode STANDBY, convA 15 fun x => { x with trigs := 1 }]) 15 with trigs := (convSt (up [setF (F.CONV_C_TRIG_kind 15) 1, setB (F.CONV_C_CTL_en 15), setB (F.CONV_C_STAT_busy 15), setB (F.CONV_C_TRIG_repeat 15), setF F.SYS_MODE_STAT_mode STANDBY, convA 15 fun x => { x with trigs := 1 }]) 15).trigs - 1 }), by decide +kernel⟩,
   ⟨up [setF (F.CONV_C_TRIG_kind 15) 1, setB (F.CONV_C_CTL_en 15), setB (F.CONV_C_STAT_busy 15), setF F.SYS_MODE_STAT_mode STANDBY, convA 15 fun x => { x with trigs := 1 }], 15, ({ convSt (up [setF (F.CONV_C_TRIG_kind 15) 1, setB (F.CONV_C_CTL_en 15), setB (F.CONV_C_STAT_busy 15), setF F.SYS_MODE_STAT_mode STANDBY, convA 15 fun x => { x with trigs := 1 }]) 15 with trigs := (convSt (up [setF (F.CONV_C_TRIG_kind 15) 1, setB (F.CONV_C_CTL_en 15), setB (F.CONV_C_STAT_busy 15), setF F.SYS_MODE_STAT_mode STANDBY, convA 15 fun x => { x with trigs := 1 }]) 15).trigs - 1 }), by decide +kernel⟩,
   ⟨up [setF F.SYS_MODE_STAT_mode STANDBY], Port.pcie, 15, 0x1#32, by decide +kernel⟩,
   ⟨up [setB (F.CONV_C_STAT_busy 15), setF F.SYS_MODE_STAT_mode STANDBY], Port.pcie, 15, 0x1#32, by decide +kernel⟩,
   ⟨up [setB (F.CONV_C_STAT_cal 15), setF F.SYS_MODE_STAT_mode STANDBY], Port.pcie, 15, 0#32, by decide +kernel⟩,
   ⟨at0 [setB (F.CONV_C_STAT_busy 15), convA 15 fun x => { x with ent := 9 }, setF (bitFld (R.CONV_CAL_STAT 1) 7) 1], 15, by decide +kernel⟩,
   ⟨at0 [setB (F.CONV_C_STAT_busy 15), setF (bitFld (R.CONV_CAL_STAT 1) 7) 1], 15, ({} : ConvIn), by decide +kernel⟩,
   ⟨at0 [setB (F.CONV_C_STAT_busy 15)], 15, by decide +kernel⟩⟩

theorem test_hypotheses_ReferencesAndCalibrationFollowTheirCodes :
    (∃ (s : State) (p : Port) (d : Die), Live p s (R.CONV_REF_CFG d) = true ∧ s.mode ≠ CONFIGURE) ∧
    (∃ (s : State) (p : Port) (d : Die), Live p s (R.CONV_REF_CFG d) = true ∧ s.mode = CONFIGURE ∧
      (¬ (∀ i : Fin 8, convIdle s (8 * d + i) = true))) ∧
    (∃ (s : State) (p : Port) (d : Die), Live p s (R.CONV_REF_CFG d) = true ∧ s.mode = CONFIGURE ∧
      (∀ i : Fin 8, convIdle s (8 * d + i) = true) ∧ s.on (F.CONV_CAL_STAT_busy d) = true) ∧
    (∃ (s : State) (p : Port) (d : Die) (v : Word), Live p s (R.CONV_REF_CFG d) = true ∧ s.mode = CONFIGURE ∧
      (∀ i : Fin 8, convIdle s (8 * d + i) = true) ∧ s.on (F.CONV_CAL_STAT_busy d) = false ∧ v.toNat % 4 = 3) ∧
    (∃ (s : State) (p : Port) (d : Die) (v : Word), Live p s (R.CONV_REF_CFG d) = true ∧ s.mode = CONFIGURE ∧
      (∀ i : Fin 8, convIdle s (8 * d + i) = true) ∧ s.on (F.CONV_CAL_STAT_busy d) = false ∧ v.toNat % 4 ≠ 3) ∧
    (∃ (s : State) (d : Die), s.on (F.CONV_REF_STAT_ref_ok d) = true ∧ s.f (F.CONV_REF_CFG_sel d) ≠ 2 ∧
      s.on (F.CONV_CAL_STAT_busy d) = false) ∧
    (∃ (s : State) (p : Port) (d : Die) (v : Word) (op : Fin 4), Live p s (R.CONV_CAL_CMD d) = true ∧
      (op = 1 ∨ op = 2 ∨ (v.toNat / 256 % 4 = op.val ∧ (op = 0 ∨ op = 3))) ∧ s.mode ≠ CONFIGURE ∧ s.mode ≠ STANDBY) ∧
    (∃ (s : State) (p : Port) (d : Die) (v : Word) (op : Fin 4), Live p s (R.CONV_CAL_CMD d) = true ∧
      (op = 1 ∨ op = 2 ∨ (v.toNat / 256 % 4 = op.val ∧ (op = 0 ∨ op = 3))) ∧ (s.mode = CONFIGURE ∨ s.mode = STANDBY) ∧
      (¬ (∀ i : Fin 8, v.getLsbD i = true → convIdle s (8 * d + i) = true))) ∧
    (∃ (s : State) (p : Port) (d : Die) (v : Word) (op : Fin 4), Live p s (R.CONV_CAL_CMD d) = true ∧
      (op = 1 ∨ op = 2 ∨ (v.toNat / 256 % 4 = op.val ∧ (op = 0 ∨ op = 3))) ∧ (s.mode = CONFIGURE ∨ s.mode = STANDBY) ∧
      (∀ i : Fin 8, v.getLsbD i = true → convIdle s (8 * d + i) = true) ∧ s.on (F.CONV_REF_STAT_ref_ok d) = false) ∧
    (∃ (s : State) (p : Port) (d : Die) (v : Word) (op : Fin 4), Live p s (R.CONV_CAL_CMD d) = true ∧
      ((op = 1 ∨ op = 2 ∨ (v.toNat / 256 % 4 = op.val ∧ (op = 0 ∨ op = 3))) ∧ (s.mode = CONFIGURE ∨ s.mode = STANDBY)) ∧
      (∀ i : Fin 8, v.getLsbD i = true → convIdle s (8 * d + i) = true) ∧ s.on (F.CONV_REF_STAT_ref_ok d) = true ∧
      s.on (F.CONV_CAL_STAT_busy d) = true) ∧
    (∃ (s : State) (p : Port) (d : Die) (v : Word) (op : Fin 4), Live p s (R.CONV_CAL_CMD d) = true ∧
      ((op = 1 ∨ op = 2 ∨ (v.toNat / 256 % 4 = op.val ∧ (op = 0 ∨ op = 3))) ∧ (s.mode = CONFIGURE ∨ s.mode = STANDBY)) ∧
      (∀ i : Fin 8, v.getLsbD i = true → convIdle s (8 * d + i) = true) ∧ s.on (F.CONV_REF_STAT_ref_ok d) = true ∧
      s.on (F.CONV_CAL_STAT_busy d) = false ∧ ((v.toNat % 256) = 0 ∨ op = 0 ∨ op = 3)) ∧
    (∃ (s : State) (p : Port) (d : Die) (v : Word) (op : Fin 4), Live p s (R.CONV_CAL_CMD d) = true ∧
      ((op = 1 ∨ op = 2 ∨ (v.toNat / 256 % 4 = op.val ∧ (op = 0 ∨ op = 3))) ∧ (s.mode = CONFIGURE ∨ s.mode = STANDBY)) ∧
      (∀ i : Fin 8, v.getLsbD i = true → convIdle s (8 * d + i) = true) ∧ s.on (F.CONV_REF_STAT_ref_ok d) = true ∧
      s.on (F.CONV_CAL_STAT_busy d) = false ∧ (v.toNat % 256) ≠ 0 ∧ op = 2) ∧
    (∃ (s : State) (p : Port) (d : Die) (v : Word) (op : Fin 4), Live p s (R.CONV_CAL_CMD d) = true ∧
      ((op = 1 ∨ op = 2 ∨ (v.toNat / 256 % 4 = op.val ∧ (op = 0 ∨ op = 3))) ∧ (s.mode = CONFIGURE ∨ s.mode = STANDBY)) ∧
      (∀ i : Fin 8, v.getLsbD i = true → convIdle s (8 * d + i) = true) ∧ s.on (F.CONV_REF_STAT_ref_ok d) = true ∧
      s.on (F.CONV_CAL_STAT_busy d) = false ∧ (v.toNat % 256) ≠ 0 ∧ op = 1) ∧
    (∃ (s : State) (d : Die) (meas : List CalMeas), s.on (F.CONV_CAL_STAT_busy d) = true ∧
      (calMasked s d).length = meas.length ∧ (∀ m, m ∈ meas → calInRange m = true)) ∧
    (∃ (s : State) (d : Die) (meas : List CalMeas) (m : CalMeas), s.on (F.CONV_CAL_STAT_busy d) = true ∧ m ∈ meas ∧
      calInRange m = false) :=
  ⟨⟨live, Port.pcie, 1, by decide +kernel⟩,
   ⟨up [setF F.SYS_MODE_STAT_mode CONFIGURE, setB (F.CONV_C_STAT_busy 15)], Port.pcie, 1, by decide +kernel⟩,
   ⟨up [setB (F.CONV_CAL_STAT_busy 1), setF F.SYS_MODE_STAT_mode CONFIGURE], Port.pcie, 1, by decide +kernel⟩,
   ⟨up [setF F.SYS_MODE_STAT_mode CONFIGURE], Port.pcie, 1, 3#32, by decide +kernel⟩,
   ⟨up [setF F.SYS_MODE_STAT_mode CONFIGURE], Port.pcie, 1, 0#32, by decide +kernel⟩,
   ⟨at0 [setB (F.CONV_REF_STAT_ref_ok 1)], 1, by decide +kernel⟩,
   ⟨live, Port.pcie, 1, 0x300#32, 3, by decide +kernel⟩,
   ⟨up [setF F.SYS_MODE_STAT_mode CONFIGURE, setB (F.CONV_C_STAT_busy 15)], Port.pcie, 1, 0x380#32, 3, by decide +kernel⟩,
   ⟨up [setF F.SYS_MODE_STAT_mode CONFIGURE], Port.pcie, 1, 0x300#32, 3, by decide +kernel⟩,
   ⟨up [setB (F.CONV_REF_STAT_ref_ok 1), setB (F.CONV_CAL_STAT_busy 1), setF F.SYS_MODE_STAT_mode CONFIGURE], Port.pcie, 1, 0x300#32, 3, by decide +kernel⟩,
   ⟨up [setB (F.CONV_REF_STAT_ref_ok 1), setF F.SYS_MODE_STAT_mode CONFIGURE], Port.pcie, 1, 0x300#32, 3, by decide +kernel⟩,
   ⟨up [setB (F.CONV_REF_STAT_ref_ok 1), setF F.SYS_MODE_STAT_mode STANDBY], Port.pcie, 1, 0x80#32, 2, by decide +kernel⟩,
   ⟨up [setB (F.CONV_REF_STAT_ref_ok 1), setF F.SYS_MODE_STAT_mode STANDBY], Port.pcie, 1, 0x80#32, 1, by decide +kernel⟩,
   ⟨at0 [setB (F.CONV_CAL_STAT_busy 1)], 1, default, by decide +kernel⟩,
   ⟨at0 [setB (F.CONV_CAL_STAT_busy 1)], 1, [⟨0, 2000000, []⟩], (⟨0, 2000000, []⟩ : CalMeas), by decide +kernel⟩⟩

theorem test_hypotheses_FineChannelsStartAndDeliver :
    (∃ (s : State) (f : Fin 12) (ext : Rat) (vdda : Rat), (vref s (f / 6) ext vdda) ≠ 0) ∧
    (∃ (s : State) (f : Fin 12), (¬ (s.on (F.CONV_F_STAT_running f) = true)) ∧ fineMay s f = true ∧ fineEnds s f = true) ∧
    (∃ (s : State) (f : Fin 12), (¬ (s.on (F.CONV_F_STAT_running f) = true)) ∧ (¬ (fineMay s f = true ∧
      (fineEnds s f = true)))) ∧
    (∃ (s : State) (f : Fin 12), s.on (F.CONV_F_STAT_running f) = true ∧
      (¬ ((fineEnds s f = true) ∨ ((fineSt s f).stop = true ∧ slideRuns s = false)))) ∧
    (∃ (s : State) (f : Fin 12), s.on (F.CONV_F_STAT_running f) = true ∧ (fineSt s f).stop = false ∧ fineEnds s f = true ∧
      (fineSt s f).drop ≠ 0) ∧
    (∃ (s : State) (f : Fin 12), s.on (F.CONV_F_STAT_running f) = true ∧ ((fineEnds s f = true) ∨ ((fineSt s f).stop = true ∧
      slideRuns s = false)) ∧ (fineSt s f).stop = true ∧ (fineSt s f).drop ≠ 0) ∧
    (∃ (s : State) (f : Fin 12), s.on (F.CONV_F_STAT_running f) = true ∧ ((fineEnds s f = true) ∨ ((fineSt s f).stop = true ∧
      slideRuns s = false)) ∧ (fineSt s f).drop = 0) :=
  ⟨⟨State.reset, 11, default, default, by decide +kernel⟩,
   ⟨{ (up [setB F.CLK_SLIDE_CFG_en, setB F.CLK_SLIDE_STAT_pll_lock, setB (F.CONV_F_CTL_en 11), setF F.SYS_MODE_STAT_mode STANDBY, clkA fun x => { x with cyc := 25599 / 100, cycT := 100, freq := 1 }]) with now := 101#64 }, 11, by decide +kernel⟩,
   ⟨State.reset, 11, by decide +kernel⟩,
   ⟨at0 [setB (F.CONV_F_STAT_running 11)], 11, by decide +kernel⟩,
   ⟨{ (up [setB F.CLK_SLIDE_CFG_en, setB F.CLK_SLIDE_STAT_pll_lock, setB (F.CONV_F_CTL_en 11), setF F.SYS_MODE_STAT_mode STANDBY, clkA fun x => { x with cyc := 25599 / 100, cycT := 100, freq := 1 }, setB (F.CONV_F_STAT_running 11), fineA 11 fun x => { x with drop := 3 }]) with now := 101#64 }, 11, by decide +kernel⟩,
   ⟨at0 [setB (F.CONV_F_STAT_running 11), fineA 11 fun x => { x with stop := true, drop := 3 }], 11, by decide +kernel⟩,
   ⟨{ (up [setB F.CLK_SLIDE_CFG_en, setB F.CLK_SLIDE_STAT_pll_lock, setB (F.CONV_F_CTL_en 11), setF F.SYS_MODE_STAT_mode STANDBY, clkA fun x => { x with cyc := 25599 / 100, cycT := 100, freq := 1 }, setB (F.CONV_F_STAT_running 11)]) with now := 101#64 }, 11, by decide +kernel⟩⟩

theorem test_hypotheses_MonitorsFeedCapturesAndTripSources :
    (∃ (s : State) (m : Fin 32), monOn s m = true ∧ rampUsed s m = false) ∧
    (∃ (s : State) (m : Fin 32) (v : Rat) (ext : Rat) (vdda : Rat) (sub : Bool), monOn s m = true ∧
      (¬ (fun low : Bool => monOut s m low = !(fun low : Bool => majority (s.f (F.WIN_M_FILT_n m)) (s.f (F.WIN_M_FILT_m m)) false (((((if (fun c : Int => ((c : Rat) - 2048) * (vref s (m / 16) ext vdda) / 2048) ((monThreshold s m (BitVec.ofNat 64 ((2 * s.now.toNat + b2n sub) / 2))).1) < v then true else if v < (fun c : Int => ((c : Rat) - 2048) * (vref s (m / 16) ext vdda) / 2048) (((monThreshold s m (BitVec.ofNat 64 ((2 * s.now.toNat + b2n sub) / 2))).1) - (s.f (F.WIN_M_HYS_hyst m))) then false else (monSt s m).hiC), (if v < (fun c : Int => ((c : Rat) - 2048) * (vref s (m / 16) ext vdda) / 2048) (s.f (F.WIN_M_TH_lo m)) then true else if (fun c : Int => ((c : Rat) - 2048) * (vref s (m / 16) ext vdda) / 2048) ((s.f (F.WIN_M_TH_lo m)) + (s.f (F.WIN_M_HYS_hyst m))) < v then false else (monSt s m).loC)) :: (monSt s m).hist).take 15).map fun c => if low then c.2 else c.1)) low) false) ∧
      (¬ (fun low : Bool => monOut s m low = !(fun low : Bool => majority (s.f (F.WIN_M_FILT_n m)) (s.f (F.WIN_M_FILT_m m)) false (((((if (fun c : Int => ((c : Rat) - 2048) * (vref s (m / 16) ext vdda) / 2048) ((monThreshold s m (BitVec.ofNat 64 ((2 * s.now.toNat + b2n sub) / 2))).1) < v then true else if v < (fun c : Int => ((c : Rat) - 2048) * (vref s (m / 16) ext vdda) / 2048) (((monThreshold s m (BitVec.ofNat 64 ((2 * s.now.toNat + b2n sub) / 2))).1) - (s.f (F.WIN_M_HYS_hyst m))) then false else (monSt s m).hiC), (if v < (fun c : Int => ((c : Rat) - 2048) * (vref s (m / 16) ext vdda) / 2048) (s.f (F.WIN_M_TH_lo m)) then true else if (fun c : Int => ((c : Rat) - 2048) * (vref s (m / 16) ext vdda) / 2048) ((s.f (F.WIN_M_TH_lo m)) + (s.f (F.WIN_M_HYS_hyst m))) < v then false else (monSt s m).loC)) :: (monSt s m).hist).take 15).map fun c => if low then c.2 else c.1)) low) true)) ∧
    (∃ (s : State) (m : Fin 32) (v : Rat) (ext : Rat) (vdda : Rat) (sub : Bool), monOn s m = true ∧
      ((fun low : Bool => monOut s m low = !(fun low : Bool => majority (s.f (F.WIN_M_FILT_n m)) (s.f (F.WIN_M_FILT_m m)) false (((((if (fun c : Int => ((c : Rat) - 2048) * (vref s (m / 16) ext vdda) / 2048) ((monThreshold s m (BitVec.ofNat 64 ((2 * s.now.toNat + b2n sub) / 2))).1) < v then true else if v < (fun c : Int => ((c : Rat) - 2048) * (vref s (m / 16) ext vdda) / 2048) (((monThreshold s m (BitVec.ofNat 64 ((2 * s.now.toNat + b2n sub) / 2))).1) - (s.f (F.WIN_M_HYS_hyst m))) then false else (monSt s m).hiC), (if v < (fun c : Int => ((c : Rat) - 2048) * (vref s (m / 16) ext vdda) / 2048) (s.f (F.WIN_M_TH_lo m)) then true else if (fun c : Int => ((c : Rat) - 2048) * (vref s (m / 16) ext vdda) / 2048) ((s.f (F.WIN_M_TH_lo m)) + (s.f (F.WIN_M_HYS_hyst m))) < v then false else (monSt s m).loC)) :: (monSt s m).hist).take 15).map fun c => if low then c.2 else c.1)) low) false ∨ (fun low : Bool => monOut s m low = !(fun low : Bool => majority (s.f (F.WIN_M_FILT_n m)) (s.f (F.WIN_M_FILT_m m)) false (((((if (fun c : Int => ((c : Rat) - 2048) * (vref s (m / 16) ext vdda) / 2048) ((monThreshold s m (BitVec.ofNat 64 ((2 * s.now.toNat + b2n sub) / 2))).1) < v then true else if v < (fun c : Int => ((c : Rat) - 2048) * (vref s (m / 16) ext vdda) / 2048) (((monThreshold s m (BitVec.ofNat 64 ((2 * s.now.toNat + b2n sub) / 2))).1) - (s.f (F.WIN_M_HYS_hyst m))) then false else (monSt s m).hiC), (if v < (fun c : Int => ((c : Rat) - 2048) * (vref s (m / 16) ext vdda) / 2048) (s.f (F.WIN_M_TH_lo m)) then true else if (fun c : Int => ((c : Rat) - 2048) * (vref s (m / 16) ext vdda) / 2048) ((s.f (F.WIN_M_TH_lo m)) + (s.f (F.WIN_M_HYS_hyst m))) < v then false else (monSt s m).loC)) :: (monSt s m).hist).take 15).map fun c => if low then c.2 else c.1)) low) true)) ∧
    (∃ (s : State) (m : Fin 32) (vd : List Rat), monOn s m = true ∧ vd ≠ []) ∧
    (∃ (s : State) (m : Fin 32), monOn s m = false) ∧
    (∃ (s : State) (p : Port) (m : Fin 32), Live p s (R.WIN_M_CAP_INFO m) = true ∧ (monSt s m).caps = []) ∧
    (∃ (s : State) (p : Port) (m : Fin 32) (c : Cap) (cs : List Cap), Live p s (R.WIN_M_CAP_INFO m) = true ∧
      (monSt s m).caps = c :: cs) ∧
    (∃ (s : State) (p : Port) (m : Fin 32), Live p s (R.WIN_M_CFG m) = true) :=
  ⟨⟨up [setB (F.WIN_M_CFG_en 31)], 31, by decide +kernel⟩,
   ⟨up [setB (F.WIN_M_CFG_en 31)], 31, 0, 0, 0, true, by decide +kernel⟩,
   ⟨up [setB (F.WIN_M_CFG_en 31), setF (F.WIN_M_TH_hi 31) 2048, setF (F.WIN_M_FILT_n 31) 1, setF (F.WIN_M_FILT_m 31) 1], 31, 3, 0, 0, false, by decide +kernel⟩,
   ⟨up [setB (F.WIN_M_CFG_en 31)], 31, [0, 1], by decide +kernel⟩,
   ⟨live, 31, by decide +kernel⟩,
   ⟨live, Port.pcie, 31, by decide +kernel⟩,
   ⟨up [monA 31 fun x => { x with caps := [⟨0, false, false, false⟩] }], Port.pcie, 31, ⟨0, false, false, false⟩, [], by decide +kernel⟩,
   ⟨live, Port.pcie, 31, by decide +kernel⟩⟩

theorem test_hypotheses_TripMatrixForcesLatchesAndClears :
    (∃ (s : State) (d : Die) (i : Fin 144), s.up = true ∧ (i.val < 115 ∨ 119 < i.val) ∧ (¬ (s.up = true ∧
      (sourceDie i = some d.val ∨ packetFor s d i = true ∨ sourceDie i = none ∧
      (128 ≤ i.val ∨ s.on (F.SYS_SEAM_STAT_up d) = true))) ∨ srcActive s d i = (if i.val < 32 then s.on (F.WIN_M_STAT_hi i) else if i.val < 64 then s.on (F.WIN_M_STAT_lo (i - 32 : Nat)) else if i.val < 112 then podPresent s (i - 64) && bit (s.f (F.GATE_LIG_STAT_fv ((i.val - 64) / 12))) ((i - 64) % 12) else if i.val = 112 then droneTrip s else if i.val < 115 then tripinActive s (i - 113 : Nat) else if i.val < 128 then s.on (F.BORE_STAT_limit (i - 120 : Nat)) else bit (s.f (F.TRIP_FW_set d)) (i - 128)))) ∧
    (∃ (s : State) (d : Die) (i : Fin 144), s.up = true ∧ (i.val < 115 ∨ 119 < i.val) ∧
      (sourceDie i = some d.val ∨ packetFor s d i = true ∨ sourceDie i = none ∧
      (128 ≤ i.val ∨ s.on (F.SYS_SEAM_STAT_up d) = true)) ∧
      srcActive s d i = !(if i.val < 32 then s.on (F.WIN_M_STAT_hi i) else if i.val < 64 then s.on (F.WIN_M_STAT_lo (i - 32 : Nat)) else if i.val < 112 then podPresent s (i - 64) && bit (s.f (F.GATE_LIG_STAT_fv ((i.val - 64) / 12))) ((i - 64) % 12) else if i.val = 112 then droneTrip s else if i.val < 115 then tripinActive s (i - 113 : Nat) else if i.val < 128 then s.on (F.BORE_STAT_limit (i - 120 : Nat)) else bit (s.f (F.TRIP_FW_set d)) (i - 128)) ∧
      tripOn s d = false) ∧
    (∃ (s : State) (d : Die) (i : Fin 144), s.up = true ∧ (i.val < 115 ∨ 119 < i.val) ∧
      (sourceDie i = some d.val ∨ packetFor s d i = true ∨ sourceDie i = none ∧
      (128 ≤ i.val ∨ s.on (F.SYS_SEAM_STAT_up d) = true)) ∧
      srcActive s d i = !(if i.val < 32 then s.on (F.WIN_M_STAT_hi i) else if i.val < 64 then s.on (F.WIN_M_STAT_lo (i - 32 : Nat)) else if i.val < 112 then podPresent s (i - 64) && bit (s.f (F.GATE_LIG_STAT_fv ((i.val - 64) / 12))) ((i - 64) % 12) else if i.val = 112 then droneTrip s else if i.val < 115 then tripinActive s (i - 113 : Nat) else if i.val < 128 then s.on (F.BORE_STAT_limit (i - 120 : Nat)) else bit (s.f (F.TRIP_FW_set d)) (i - 128)) ∧
      tripOn s d = true) ∧
    (∃ (s : State) (p : Port) (d : Die) (w : Fin 5), Live p s (R.TRIP_LATCH d w) = true) ∧
    (∃ (s : State) (p : Port) (d : Die), Live p s (R.TRIP_FW d) = true ∧
      (∀ b : Fin 16, bit (s.f (F.TRIP_FW_set d)) b = srcActive s d (128 + b))) ∧
    (∃ (s : State) (high : List Bool), s.up = true ∧ high ≠ []) ∧
    (∃ (s : State) (d : Die) (i : Fin 144), relayUp s = true ∧ sourceDie i = some (1 - d.val) ∧ masksOn s d i = true) ∧
    (∃ (s : State) (d : Die), relayUp s = true ∧ tripOn s (1 - d.val) = false) ∧
    (∃ (s : State) (d : Die), relayUp s = true ∧ tripOn s (1 - d.val) = true) :=
  ⟨⟨live, 1, 143, by decide +kernel⟩,
   ⟨up [setF (F.TRIP_FW_set 0) 1, setW R.SYS_ISLAND_EN 0#32], 0, 128, by decide +kernel⟩,
   ⟨up [setF (F.TRIP_FW_set 0) 1], 0, 128, by decide +kernel⟩,
   ⟨live, Port.pcie, 1, 4, by decide +kernel⟩,
   ⟨live, Port.pcie, 1, by decide +kernel⟩,
   ⟨live, [true, false], by decide +kernel⟩,
   ⟨up [setF (F.TRIP_SRC_OFF_mask 0 111) 1], 0, 111, by decide +kernel⟩,
   ⟨up [setW R.SYS_ISLAND_EN 0x07DFFFFF#32], 1, by decide +kernel⟩,
   ⟨live, 1, by decide +kernel⟩⟩

theorem test_hypotheses_EdgeUnitsCommitAndDriveTheirOutput :
    (∃ (s : State) (p : Port) (d : Die), Live p s (R.EDGE_COMMIT d) = true) ∧
    (∃ (s : State) (n : Fin 48) (peak : Bool), carrierOk s n = true ∧ (edgeSt s n).stopping = false ∧ (edgeSt s n).rem = 0 ∧
      edgeRef s n = none ∧ peak = decide ((carrier s n).1 = 1) ∧ bit (s.f (F.EDGE_COMMIT_req (n / 24))) (n % 24) = false) ∧
    (∃ (s : State) (n : Fin 48) (peak : Bool), carrierOk s n = true ∧ (edgeSt s n).stopping = false ∧ (edgeSt s n).rem = 0 ∧
      edgeRef s n = none ∧ peak = decide ((carrier s n).1 = 1) ∧ bit (s.f (F.EDGE_COMMIT_req (n / 24))) (n % 24) = true ∧
      2 ≤ (s.now - (edgeSt s n).armT).toNat ∧ (edgeSt s n).wr = [] ∧ (peak = true ∨ (carrier s n).1 = 0 ∨ commitCode s n ≠ 1)) ∧
    (∃ (s : State) (n : Fin 48), carrierOk s n = true ∧ (edgeSt s n).stopping = false ∧ (carrier s n).1 = 2 ∧
      (edgeSt s n).live = true ∧ edgeRef s n = none ∧
      (commitCode s n = 0 ∨ bit (s.f (F.EDGE_COMMIT_req (n / 24))) (n % 24) = false)) ∧
    (∃ (s : State) (n : Fin 48), carrierOk s n = true ∧ edgePlain s n ∧ (edgeSt s n).live = true ∧ (edgeSt s n).cmd = true) ∧
    (∃ (s : State) (n : Fin 48) (len : Nat), carrierOk s n = true ∧ edgePlain s n ∧ (edgeSt s n).live = true ∧
      (edgeSt s n).cmd = false ∧ (edgeSt s n).refr = false ∧
      (edgeInterval s n (edgeSt s n).mode (edgeSt s n).per).1 < (edgeInterval s n (edgeSt s n).mode (edgeSt s n).per).2 ∧
      deadTime s n = 0 ∧ minPulse s n ≤ len) ∧
    (∃ (s : State) (n : Fin 48) (len : Nat), carrierOk s n = true ∧ edgePlain s n ∧ (edgeSt s n).live = true ∧
      (edgeSt s n).cmd = false ∧ (edgeSt s n).refr = false ∧
      (edgeInterval s n (edgeSt s n).mode (edgeSt s n).per).1 < (edgeInterval s n (edgeSt s n).mode (edgeSt s n).per).2 ∧
      deadTime s n = 0 ∧ len < minPulse s n ∧ s.on (F.EDGE_CH_CFG_minp_act n) = false) ∧
    (∃ (s : State) (n : Fin 48), carrierOk s n = true ∧ edgePlain s n ∧ (edgeSt s n).live = true ∧ (edgeSt s n).cmd = false ∧
      (edgeSt s n).refr = false ∧ (edgeInterval s n (edgeSt s n).mode (edgeSt s n).per).1 < (edgeInterval s n (edgeSt s n).mode (edgeSt s n).per).2 ∧
      deadTime s n ≠ 0) ∧
    (∃ (s : State) (n : Fin 48) (len : Nat) (gone : Bool) (rest : List Bool) (l : Nat), carrierOk s n = true ∧
      (edgeSt s n).pend = gone :: rest ∧ pairKind s n = 0 ∧ (edgeSt s n).stopping = false ∧
      bit (s.f (F.TRIP_GT_ON_ch (n / 24))) (n % 24) = false ∧ l = (if gone then 0 else len) ∧ minPulse s n ≤ l) ∧
    (∃ (s : State) (n : Fin 48) (len : Nat) (gone : Bool) (rest : List Bool) (l : Nat), carrierOk s n = true ∧
      (edgeSt s n).pend = gone :: rest ∧ pairKind s n = 0 ∧ (edgeSt s n).stopping = false ∧
      bit (s.f (F.TRIP_GT_ON_ch (n / 24))) (n % 24) = false ∧ l = (if gone then 0 else len) ∧ l < minPulse s n ∧
      s.on (F.EDGE_CH_CFG_minp_act n) = true) ∧
    (∃ (s : State) (n : Fin 48), carrierOk s n = true ∧ (edgeSt s n).stretch = 1 ∧ (edgeSt s n).stopping = false ∧
      pairKind s n = 0) ∧
    (∃ (s : State) (n : Fin 48), carrierOk s n = true ∧ edgePlain s n ∧ (edgeSt s n).refr = true ∧
      (edgeSt s n).cmd = (edgeSt s n).w ∧ (edgeSt s n).w = false) ∧
    (∃ (s : State) (a : Fin 48) (b : Fin 48), edgePair s a b ∧ carrierOk s a = true ∧ (edgeSt s a).live = true ∧
      (edgeInterval s a (edgeSt s a).mode (edgeSt s a).per).1 < (edgeInterval s a (edgeSt s a).mode (edgeSt s a).per).2 ∧
      (edgeSt s a).cmd = false ∧ (edgeSt s b).cmd = true ∧ deadTime s a ≠ 0) ∧
    (∃ (s : State) (a : Fin 48) (b : Fin 48), edgePair s a b ∧ carrierOk s a = true ∧ (edgeSt s a).live = true ∧
      (edgeInterval s a (edgeSt s a).mode (edgeSt s a).per).1 < (edgeInterval s a (edgeSt s a).mode (edgeSt s a).per).2 ∧
      (edgeSt s a).cmd = true ∧ (edgeSt s b).cmd = false ∧ deadTime s b ≠ 0) ∧
    (∃ (s : State) (a : Fin 48) (b : Fin 48), edgePair s a b ∧ carrierOk s b = true ∧ (edgeSt s a).cmd = (edgeSt s a).w ∧
      (edgeSt s b).cmd = (!(edgeSt s a).w)) ∧
    (∃ (s : State) (n : Fin 48) (p : Fin 48) (rest : List Bool) (t0 : BitVec 64), carrierOk s n = true ∧
      partner s n = some p.val ∧ pairKind s n ≠ 3 ∧ (edgeSt s n).pend = false :: rest ∧ (edgeSt s n).stopping = false ∧
      (edgeSt s p).stopping = false ∧ bit (s.f (F.TRIP_GT_ON_ch (n / 24))) (n % 24) = false ∧ (edgeSt s p).fallT = some t0 ∧
      (edgeOut s p = true ∨ 64 * ((s.now - t0).toNat + 1) ≤ deadTime s n)) ∧
    (∃ (s : State) (n : Fin 48) (p : Fin 48) (len : Nat) (rest : List Bool) (t0 : BitVec 64), carrierOk s n = true ∧
      partner s n = some p.val ∧ pairKind s n ≠ 3 ∧ (edgeSt s n).pend = false :: rest ∧ (edgeSt s n).stopping = false ∧
      (edgeSt s p).stopping = false ∧ bit (s.f (F.TRIP_GT_ON_ch (n / 24))) (n % 24) = false ∧ (edgeSt s p).fallT = some t0 ∧
      edgeOut s p = false ∧ deadTime s n < 64 * ((s.now - t0).toNat + 1) ∧ minPulse s n ≤ len) ∧
    (∃ (s : State) (n : Fin 48) (p : Fin 48) (len : Nat), carrierOk s n = true ∧ pairKind s n = 3 ∧
      partner s n = some p.val ∧ n ≠ p ∧ n.val / 24 = p.val / 24 ∧ (edgeSt s n).live = true ∧ (edgeSt s n).cmd = false ∧
      (edgeSt s n).pend = [] ∧ (edgeSt s n).refr = false ∧ (edgeSt s n).stopping = false ∧ edgeOut s n = false ∧
      deadTime s n = 0 ∧ minPulse s n ≤ len ∧
      (edgeInterval s n (edgeSt s n).mode (edgeSt s n).per).1 < (edgeInterval s n (edgeSt s n).mode (edgeSt s n).per).2 ∧
      (edgeSt s p).il = false) ∧
    (∃ (s : State) (n : Fin 48) (p : Fin 48) (len : Nat), carrierOk s n = true ∧ pairKind s n = 3 ∧
      partner s n = some p.val ∧ n ≠ p ∧ n.val / 24 = p.val / 24 ∧ (edgeSt s n).live = true ∧ (edgeSt s n).cmd = false ∧
      (edgeSt s n).pend = [] ∧ (edgeSt s n).refr = false ∧ (edgeSt s n).stopping = false ∧ edgeOut s n = false ∧
      deadTime s n = 0 ∧ minPulse s n ≤ len ∧
      (edgeInterval s n (edgeSt s n).mode (edgeSt s n).per).1 < (edgeInterval s n (edgeSt s n).mode (edgeSt s n).per).2 ∧
      (edgeSt s p).il = true ∧ (edgeSt s p).stopping = false) ∧
    (∃ (s : State) (f : Fin 48) (r : Fin 48), carrierOk s f = true ∧ edgeRef s f = some r.val ∧ edgeRef s r = none ∧
      (edgeSt s f).stopping = false ∧ (edgeSt s f).rem = 0 ∧ modeOf (s.f (F.EDGE_CH_CTL_ACT_mode r)) ≠ 1 ∧
      bit (s.f (F.EDGE_COMMIT_req (f / 24))) (f % 24) = false) ∧
    (∃ (s : State) (p : Port) (f : Fin 48) (r : Fin 48), Live p s (R.EDGE_CH_CFG r) = true ∧ s.hid.edges.frozen = none ∧
      edgeRef s f = some r.val ∧ (edgeSt s f).run = true ∧ (edgeSt s r).run = true ∧ edgeBusy s r = false ∧ pairKind s r = 0) ∧
    (∃ (s : State) (n : Fin 48), (¬ (s.up = false ∨ s.role = 2)) ∧
      (gtHeld s n = true ∨ bit (s.f (F.TRIP_GT_OFF_ch (n.val / 24))) (n.val % 24) = true)) ∧
    (∃ (s : State) (n : Fin 48), (¬ (s.up = false ∨ s.role = 2)) ∧
      (¬ (gtHeld s n = true ∨ bit (s.f (F.TRIP_GT_OFF_ch (n.val / 24))) (n.val % 24) = true)) ∧
      bit (s.f (F.TRIP_GT_ON_ch (n.val / 24))) (n.val % 24) = true) ∧
    (∃ (s : State) (n : Fin 48), (¬ (s.up = false ∨ s.role = 2)) ∧
      (¬ (gtHeld s n = true ∨ bit (s.f (F.TRIP_GT_OFF_ch (n.val / 24))) (n.val % 24) = true)) ∧
      (¬ (bit (s.f (F.TRIP_GT_ON_ch (n.val / 24))) (n.val % 24) = true))) ∧
    (∃ (s : State) (n : Fin 48) (q : Fin 48), s.up = true ∧ bit (s.f (F.TRIP_GT_ON_ch (n.val / 24))) (n.val % 24) = true ∧
      partner s n = some q.val ∧ (edgeSt s n).pend = [] ∧ (edgeSt s n).stopping = false ∧ (edgeSt s q).stopping = false ∧
      (¬ (bit (s.f (F.TRIP_GT_OFF_ch (n.val / 24))) (n.val % 24) = false ∧ s.on F.DRONE_STAT_forced_off = false ∧
      (tripSt s (n.val / 24)).offEnd.all (fun u : BitVec 64 => decide (deadTime s n < 64 * ((s.now - u).toNat + 1))) = true ∧
      gtPin s q ≠ .high ∧ (fun u : BitVec 64 => decide (deadTime s n < 64 * ((s.now - u).toNat + 1))) (edgeSt s q).lowT = true))) ∧
    (∃ (s : State) (n : Fin 48) (q : Fin 48), s.up = true ∧ bit (s.f (F.TRIP_GT_ON_ch (n.val / 24))) (n.val % 24) = true ∧
      partner s n = some q.val ∧ (edgeSt s n).pend = [] ∧ (edgeSt s n).stopping = false ∧ (edgeSt s q).stopping = false ∧
      bit (s.f (F.TRIP_GT_OFF_ch (n.val / 24))) (n.val % 24) = false ∧ s.on F.DRONE_STAT_forced_off = false ∧
      (tripSt s (n.val / 24)).offEnd.all (fun u : BitVec 64 => decide (deadTime s n < 64 * ((s.now - u).toNat + 1))) = true ∧
      gtPin s q ≠ .high ∧ (fun u : BitVec 64 => decide (deadTime s n < 64 * ((s.now - u).toNat + 1))) (edgeSt s q).lowT = true) :=
  ⟨⟨live, Port.pcie, 1, by decide +kernel⟩,
   ⟨up [edgeA 47 fun x => { x with run := true }], 47, (decide ((carrier (up [edgeA 47 fun x => { x with run := true }]) 47).1 = 1)), by decide +kernel⟩,
   ⟨{ (up [setW (R.EDGE_COMMIT 1) 0xFFFFFF#32, edgeA 47 fun x => { x with run := true }]) with now := 2#64 }, 47, false, by decide +kernel⟩,
   ⟨up [edgeA 47 fun x => { x with run := true }, edgeA 47 fun x => { x with live := true }, setF (F.EDGE_CH_CTL_ACT_mode 47) 2], 47, by decide +kernel⟩,
   ⟨up [edgeA 47 fun x => { x with run := true, live := true, cmd := true }], 47, by unfold edgePlain; decide +kernel⟩,
   ⟨up [edgeA 47 fun x => { x with run := true, live := true, per := 200 }, setW (R.EDGE_CH_CMP_B_ACT 47) 100#32], 47, 0, by unfold edgePlain; decide +kernel⟩,
   ⟨up [edgeA 47 fun x => { x with run := true, live := true, per := 200 }, setW (R.EDGE_CH_CMP_B_ACT 47) 100#32, setF (F.EDGE_CH_MINP_ACT_minp 47) 10], 47, 0, by unfold edgePlain; decide +kernel⟩,
   ⟨up [edgeA 47 fun x => { x with run := true, live := true, per := 200 }, setW (R.EDGE_CH_CMP_B_ACT 47) 100#32, setF (F.EDGE_CH_DT_ACT_dt 47) 10], 47, by unfold edgePlain; decide +kernel⟩,
   ⟨up [edgeA 47 fun x => { x with run := true }, edgeA 47 fun x => { x with pend := true :: default }], 47, 0, true, default, ((if true then 0 else 0)), by decide +kernel⟩,
   ⟨up [edgeA 47 fun x => { x with run := true }, setB (F.EDGE_CH_CFG_minp_act 47), edgeA 47 fun x => { x with pend := true :: default }, setF (F.EDGE_CH_MINP_ACT_minp 47) 10], 47, 0, true, default, ((if true then 0 else 0)), by decide +kernel⟩,
   ⟨up [edgeA 47 fun x => { x with run := true }, edgeA 47 fun x => { x with stretch := 1 }], 47, by decide +kernel⟩,
   ⟨up [edgeA 47 fun x => { x with run := true, refr := true }], 47, by unfold edgePlain; decide +kernel⟩,
   ⟨up [setF (F.EDGE_CH_CFG_pair 24) 1, setF (F.EDGE_CH_CFG_partner 24) 25, setF (F.EDGE_CH_CFG_pair 25) 2, setF (F.EDGE_CH_CFG_partner 25) 24, edgeA 24 fun x => { x with run := true, live := true, per := 200 }, edgeA 25 fun x => { x with run := true, cmd := true }, setW (R.EDGE_CH_CMP_B_ACT 24) 100#32, setF (F.EDGE_CH_DT_ACT_dt 24) 10], 24, 25, by unfold edgePair; decide +kernel⟩,
   ⟨up [setF (F.EDGE_CH_CFG_pair 24) 1, setF (F.EDGE_CH_CFG_partner 24) 25, setF (F.EDGE_CH_CFG_pair 25) 2, setF (F.EDGE_CH_CFG_partner 25) 24, edgeA 24 fun x => { x with run := true, live := true, per := 200, cmd := true }, edgeA 25 fun x => { x with run := true }, setW (R.EDGE_CH_CMP_B_ACT 24) 100#32, setF (F.EDGE_CH_DT_ACT_dt 25) 10], 24, 25, by unfold edgePair; decide +kernel⟩,
   ⟨up [setF (F.EDGE_CH_CFG_pair 24) 1, setF (F.EDGE_CH_CFG_partner 24) 25, setF (F.EDGE_CH_CFG_pair 25) 2, setF (F.EDGE_CH_CFG_partner 25) 24, edgeA 24 fun x => { x with run := true }, edgeA 25 fun x => { x with run := true, cmd := true }], 24, 25, by unfold edgePair; decide +kernel⟩,
   ⟨up [setF (F.EDGE_CH_CFG_pair 24) 1, setF (F.EDGE_CH_CFG_partner 24) 25, setF (F.EDGE_CH_CFG_pair 25) 2, setF (F.EDGE_CH_CFG_partner 25) 24, edgeA 24 fun x => { x with run := true, pend := [false] }, edgeA 25 fun x => { x with run := true, fallT := some 0#64 }, setF (F.EDGE_CH_DT_ACT_dt 24) 100], 24, 25, [], 0#64, by decide +kernel⟩,
   ⟨up [setF (F.EDGE_CH_CFG_pair 24) 1, setF (F.EDGE_CH_CFG_partner 24) 25, setF (F.EDGE_CH_CFG_pair 25) 2, setF (F.EDGE_CH_CFG_partner 25) 24, edgeA 24 fun x => { x with run := true, pend := [false] }, edgeA 25 fun x => { x with run := true, fallT := some 0#64 }], 24, 25, 0, [], 0#64, by decide +kernel⟩,
   ⟨up [setF (F.EDGE_CH_CFG_pair 24) 3, setF (F.EDGE_CH_CFG_partner 24) 25, setF (F.EDGE_CH_CFG_pair 25) 3, setF (F.EDGE_CH_CFG_partner 25) 24, edgeA 24 fun x => { x with run := true, live := true, per := 200 }, edgeA 25 fun x => { x with run := true }, setW (R.EDGE_CH_CMP_B_ACT 24) 100#32], 24, 25, 0, by decide +kernel⟩,
   ⟨up [setF (F.EDGE_CH_CFG_pair 24) 3, setF (F.EDGE_CH_CFG_partner 24) 25, setF (F.EDGE_CH_CFG_pair 25) 3, setF (F.EDGE_CH_CFG_partner 25) 24, edgeA 24 fun x => { x with run := true, live := true, per := 200 }, edgeA 25 fun x => { x with run := true, il := true }, setW (R.EDGE_CH_CMP_B_ACT 24) 100#32], 24, 25, 0, by decide +kernel⟩,
   ⟨up [setF (F.EDGE_CH_CFG_ref_eu 24) 25, edgeA 24 fun x => { x with run := true }, edgeA 25 fun x => { x with run := true, live := true }], 24, 25, by decide +kernel⟩,
   ⟨up [setF (F.EDGE_CH_CFG_ref_eu 24) 25, edgeA 24 fun x => { x with run := true }, edgeA 25 fun x => { x with run := true }], Port.pcie, 24, 25, by decide +kernel⟩,
   ⟨State.reset, 47, by decide +kernel⟩,
   ⟨up [pwrA fun x => { x with st := .full }, setB F.DRONE_STAT_accepted, clrB F.DRONE_STAT_forced_off, setF F.FING_STAT_force 2, setF F.SYS_MODE_STAT_mode FOLLOW, setF (F.TRIP_GT_ON_ch 1) 0x800000], 47, by decide +kernel⟩,
   ⟨up [pwrA fun x => { x with st := .full }, setB F.DRONE_STAT_accepted, clrB F.DRONE_STAT_forced_off, setF F.FING_STAT_force 2, setF F.SYS_MODE_STAT_mode FOLLOW], 47, by decide +kernel⟩,
   ⟨up [setF (F.EDGE_CH_CFG_pair 24) 1, setF (F.EDGE_CH_CFG_partner 24) 25, setF (F.EDGE_CH_CFG_pair 25) 2, setF (F.EDGE_CH_CFG_partner 25) 24, setF (F.TRIP_GT_ON_ch 1) 1, setF (F.EDGE_CH_DT_ACT_dt 24) 100], 24, 25, by decide +kernel⟩,
   ⟨up [setF (F.EDGE_CH_CFG_pair 24) 1, setF (F.EDGE_CH_CFG_partner 24) 25, setF (F.EDGE_CH_CFG_pair 25) 2, setF (F.EDGE_CH_CFG_partner 25) 24, setF (F.TRIP_GT_ON_ch 1) 1], 24, 25, by decide +kernel⟩⟩

theorem test_hypotheses_EdgeCalibrationSyncAndDisableAct :
    (∃ (s : State) (n : Fin 48) (i : Fin 64), edgeOn s (n / 24) = true ∧ s.on (F.EDGE_CAL_CFG_en (n / 24)) = true ∧
      i.val ≠ 63 ∧ edgeHere s n = false) ∧
    (∃ (s : State) (n : Fin 48) (i : Fin 64), edgeOn s (n / 24) = true ∧ s.on (F.EDGE_CAL_CFG_en (n / 24)) = true ∧
      i.val ≠ 63 ∧ edgeHere s n = true) ∧
    (∃ (s : State) (n : Fin 48), edgeOn s (n / 24) = true ∧ 4 * calPeriod s (n / 24) ≤ (s.now - (edgeSt s n).calT).toNat) ∧
    (∃ (s : State) (n : Fin 48), edgeOn s (n / 24) = true ∧ (s.now - (edgeSt s n).calT).toNat < 4 * calPeriod s (n / 24)) ∧
    (∃ (s : State) (rise : Bool), edgeOn s 0 = true ∧ s.on F.EDGE_SYNC_CFG_synci_en = true ∧
      rise = (!s.on F.EDGE_SYNC_CFG_synci_pol)) ∧
    (∃ (s : State) (rise : Bool), edgeOn s 0 = true ∧ rise = s.on F.EDGE_SYNC_CFG_synci_pol) ∧
    (∃ (s : State) (t0 : BitVec 64), s.hid.edges.frozen = some t0 ∧ s.hid.edges.deferred = [] ∧
      (∀ n : Fin 48, s.on (F.EDGE_CH_CFG_en n) = true → edgeOn s (n / 24) = true → (edgeSt s n).run = true)) ∧
    (∃ (s : State) (t0 : BitVec 64) (n : Fin 48), s.hid.edges.frozen = some t0 ∧ s.hid.edges.deferred = [] ∧
      s.on (F.EDGE_CH_CFG_en n) = true ∧ edgeOn s (n / 24) = true ∧ (edgeSt s n).run = false) ∧
    (∃ (s : State) (p : Port) (n : Fin 48), Live p s (R.EDGE_CH_CFG n) = true ∧ s.hid.edges.frozen = none) ∧
    (∃ (s : State) (p : Port) (n : Fin 48) (t0 : BitVec 64), Live p s (R.EDGE_CH_CFG n) = true ∧
      s.hid.edges.frozen = some t0 ∧ (edgeSt s n).run = true) :=
  ⟨⟨up [setB (F.EDGE_CAL_CFG_en (47 / 24))], 47, 62, by decide +kernel⟩,
   ⟨up [setB (F.EDGE_CAL_CFG_en (47 / 24)), edgeA 47 fun x => { x with edgeT := some 0#64 }], 47, 62, by decide +kernel⟩,
   ⟨{ (up []) with now := 1000000000000#64 }, 47, by decide +kernel⟩,
   ⟨live, 47, by decide +kernel⟩,
   ⟨up [setB F.EDGE_SYNC_CFG_synci_en], ((!(up [setB F.EDGE_SYNC_CFG_synci_en]).on F.EDGE_SYNC_CFG_synci_pol)), by decide +kernel⟩,
   ⟨live, ((live).on F.EDGE_SYNC_CFG_synci_pol), by decide +kernel⟩,
   ⟨at0 [edgesA fun x => { x with frozen := some 0#64 }], 0#64, by decide +kernel⟩,
   ⟨up [edgesA fun x => { x with frozen := some 0#64 }, setB (F.EDGE_CH_CFG_en 47)], 0#64, 47, by decide +kernel⟩,
   ⟨live, Port.pcie, 47, by decide +kernel⟩,
   ⟨up [edgesA fun x => { x with frozen := some 0#64 }, edgeA 47 fun x => { x with run := true }], Port.pcie, 47, 0#64, by decide +kernel⟩⟩

theorem test_hypotheses_FaultVectorsAndPodAnswersAreRegistered :
    (∃ (s : State) (k : Fin 4) (slots : BitVec 12) (crc : BitVec 8), busRx s k = true ∧
      crc ≠ (crc8OfBits (ligBody 15 0 (slotBits slots)))) ∧
    (∃ (s : State) (n : Fin 48) (vds : BitVec 12) (temp : BitVec 12) (supply : BitVec 12) (status : BitVec 12) (crc : BitVec 8), busRx s (n / 12) = true ∧
      podPresent s n = true ∧ (ligSt s (⟨n.val / 12, Nat.div_lt_of_lt_mul n.isLt⟩ : Fin 4)).cur = some (.poll (n.val % 12)) ∧
      crc ≠ (crc8OfBits (ligBody (n.val % 12) 3 (telemBits vds temp supply status)))) ∧
    (∃ (s : State) (n : Fin 48) (status : BitVec 12), busRx s (n / 12) = true ∧ podPresent s n = true ∧
      (ligSt s (⟨n.val / 12, Nat.div_lt_of_lt_mul n.isLt⟩ : Fin 4)).cur = some (.poll (n.val % 12)) ∧
      status.getLsbD 4 = false) ∧
    (∃ (s : State) (n : Fin 48) (status : BitVec 12), busRx s (n / 12) = true ∧ podPresent s n = true ∧
      (ligSt s (⟨n.val / 12, Nat.div_lt_of_lt_mul n.isLt⟩ : Fin 4)).cur = some (.poll (n.val % 12)) ∧ status.getLsbD 4 = true) ∧
    (∃ (s : State) (n : Fin 48) (addr : BitVec 8) (data : BitVec 16) (x : Nat) (v : Nat) (crc : BitVec 8), busRx s (n / 12) = true ∧
      podPresent s n = true ∧ (ligSt s (⟨n.val / 12, Nat.div_lt_of_lt_mul n.isLt⟩ : Fin 4)).cur = some (.write (n.val % 12) x v) ∧
      crc ≠ (crc8OfBits (ligBody (n.val % 12) 5 (msbFirst 8 addr.toNat ++ msbFirst 16 data.toNat)))) ∧
    (∃ (s : State) (n : Fin 48) (addr : BitVec 8) (data : BitVec 16), busRx s (n / 12) = true ∧ podPresent s n = true ∧
      (ligSt s (⟨n.val / 12, Nat.div_lt_of_lt_mul n.isLt⟩ : Fin 4)).cur = some (.write (n.val % 12) addr.toNat data.toNat) ∧
      data.toNat = podReg s n addr.toNat) ∧
    (∃ (s : State) (n : Fin 48) (addr : BitVec 8) (data : BitVec 16), busRx s (n / 12) = true ∧ podPresent s n = true ∧
      (ligSt s (⟨n.val / 12, Nat.div_lt_of_lt_mul n.isLt⟩ : Fin 4)).cur = some (.write (n.val % 12) addr.toNat data.toNat) ∧
      data.toNat ≠ podReg s n addr.toNat) ∧
    (∃ (s : State) (n : Fin 48) (addr : BitVec 8), busRx s (n / 12) = true ∧ podPresent s n = true ∧
      (ligSt s (⟨n.val / 12, Nat.div_lt_of_lt_mul n.isLt⟩ : Fin 4)).cur = some (.clear (n.val % 12)) ∧ addr = 255#8 ∧
      (s.hid.pod.get {} n).needCause = true) :=
  ⟨⟨up [setB (F.GATE_LIG_CFG_en 3)], 3, 0#12, 0#8, by decide +kernel⟩,
   ⟨up [setB (F.GATE_LIG_CFG_en 3), setB (F.GATE_CH_CFG_present 47), ligA 3 fun l => { l with cur := some (.poll 11) }], 47, 0#12, 0#12, 0#12, 0#12, 0#8, by decide +kernel⟩,
   ⟨up [setB (F.GATE_LIG_CFG_en 3), setB (F.GATE_CH_CFG_present 47), ligA 3 fun l => { l with cur := some (.poll 11) }], 47, 0#12, by decide +kernel⟩,
   ⟨up [setB (F.GATE_LIG_CFG_en 3), setB (F.GATE_CH_CFG_present 47), ligA 3 fun l => { l with cur := some (.poll 11) }], 47, 0x10#12, by decide +kernel⟩,
   ⟨up [setB (F.GATE_LIG_CFG_en 3), setB (F.GATE_CH_CFG_present 47), ligA 3 fun l => { l with cur := some (.write 11 0 0) }], 47, 0#8, 0#16, 0, 0, 0#8, by decide +kernel⟩,
   ⟨up [setB (F.GATE_LIG_CFG_en 3), setB (F.GATE_CH_CFG_present 47), ligA 3 fun l => { l with cur := some (.write 11 0 0) }], 47, 0#8, 0#16, by decide +kernel⟩,
   ⟨up [setB (F.GATE_LIG_CFG_en 3), setB (F.GATE_CH_CFG_present 47), ligA 3 fun l => { l with cur := some (.write 11 0 1) }], 47, 0#8, 1#16, by decide +kernel⟩,
   ⟨up [setB (F.GATE_LIG_CFG_en 3), setB (F.GATE_CH_CFG_present 47), ligA 3 fun l => { l with cur := some (.clear 11) }, podA 47 fun l => { l with needCause := true }], 47, 255#8, by decide +kernel⟩⟩

theorem test_hypotheses_LigatureServesFramesAndQueuesClears :
    (∃ (s : State) (k : Fin 4), busOn s k = true) ∧
    (∃ (s : State) (k : Fin 4), busRx s k = true ∧ ((ligSt s k).cur = none ∨ ∃ v, (ligSt s k).cur = some (.select v))) ∧
    (∃ (s : State) (k : Fin 4) (pod : Nat) (x : Nat) (data : Nat), busRx s k = true ∧
      (ligSt s k).cur = some (.write pod x data)) ∧
    (∃ (s : State) (k : Fin 4) (a : Nat), busRx s k = true ∧ (ligSt s k).cur = some (.poll a) ∧ (ligSt s k).fails.get 0 a < 2) ∧
    (∃ (s : State) (k : Fin 4) (a : Nat), busRx s k = true ∧ (ligSt s k).cur = some (.poll a) ∧
      2 ≤ (ligSt s k).fails.get 0 a ∧ a < 12 ∧ s.on (F.GATE_CH_FAULT_lost (12 * k + a)) = false) ∧
    (∃ (s : State) (n : Fin 48), busOn s (n / 12) = true ∧ s.on (F.GATE_CH_FAULT_latched n) = true ∧
      s.f (F.GATE_CH_CFG_tries n) ≠ 0 ∧ ((s.hid.pod.get {} n).clrT.any (sameLig s (n / 24))) = true) ∧
    (∃ (s : State) (n : Fin 48), busOn s (n / 12) = true ∧ s.on (F.GATE_CH_FAULT_latched n) = true ∧
      s.f (F.GATE_CH_CFG_tries n) ≠ 0 ∧ ((s.hid.pod.get {} n).clrT.any (sameLig s (n / 24))) = false ∧
      s.f (F.GATE_CH_FAULT_tries_used n) < s.f (F.GATE_CH_CFG_tries n)) ∧
    (∃ (s : State) (n : Fin 48), busOn s (n / 12) = true ∧ s.on (F.GATE_CH_FAULT_latched n) = true ∧
      s.f (F.GATE_CH_CFG_tries n) ≠ 0 ∧ ((s.hid.pod.get {} n).clrT.any (sameLig s (n / 24))) = false ∧
      s.f (F.GATE_CH_CFG_tries n) ≤ s.f (F.GATE_CH_FAULT_tries_used n)) ∧
    (∃ (s : State) (n : Fin 48), busOn s (n / 12) = true ∧ bit (s.f (F.GATE_LIG_STAT_fv (n / 12))) (n % 12) = false) ∧
    (∃ (s : State) (p : Port) (n : Fin 48) (v : Word), Live p s (R.GATE_CH_FAULT n) = true ∧ v.getLsbD 31 = true) ∧
    (∃ (s : State) (p : Port) (n : Fin 48) (x : Fin 24), Live p s (R.GATE_CH_PROF n x) = true ∧ (¬ (podPresent s n = true ∧
      x.val / 3 % 4 ≤ s.f (F.GATE_CH_CFG_nprof n)))) ∧
    (∃ (s : State) (p : Port) (n : Fin 48) (x : Fin 24), Live p s (R.GATE_CH_PROF n x) = true ∧ podPresent s n = true ∧
      x.val / 3 % 4 ≤ s.f (F.GATE_CH_CFG_nprof n)) ∧
    (∃ (s : State) (p : Port) (k : Fin 4), Live p s (R.GATE_LIG_CFG k) = true) :=
  ⟨⟨up [setB (F.GATE_LIG_CFG_en 3)], 3, by decide +kernel⟩,
   ⟨up [setB (F.GATE_LIG_CFG_en 3)], 3, by decide +kernel⟩,
   ⟨up [setB (F.GATE_LIG_CFG_en 3), setB (F.GATE_CH_CFG_present 47), ligA 3 fun l => { l with cur := some (.write 0 0 0) }], 3, 0, 0, 0, by decide +kernel⟩,
   ⟨at0 [ligA 3 fun x => { x with cur := some (.poll 0) }], 3, 0, by decide +kernel⟩,
   ⟨up [setB (F.GATE_LIG_CFG_en 3), setB (F.GATE_CH_CFG_present 47), ligA 3 fun l => { l with cur := some (.poll 0) }, ligA 3 fun l => { l with fails := [(0, 2)] }], 3, 0, by decide +kernel⟩,
   ⟨up [setB (F.GATE_LIG_CFG_en (47 / 12)), setB (F.GATE_CH_FAULT_latched 47), setF (F.GATE_CH_CFG_tries 47) 1, setB (F.GATE_LIG_CFG_en 3), podA 47 fun x => { x with clrT := some 0 }, setF (F.GATE_CH_CFG_tries 47) 1], 47, by decide +kernel⟩,
   ⟨up [setB (F.GATE_LIG_CFG_en (47 / 12)), setB (F.GATE_CH_FAULT_latched 47), setF (F.GATE_CH_CFG_tries 47) 1], 47, by decide +kernel⟩,
   ⟨up [setB (F.GATE_LIG_CFG_en (47 / 12)), setB (F.GATE_CH_FAULT_latched 47), setF (F.GATE_CH_CFG_tries 47) 1, setF (F.GATE_CH_FAULT_tries_used 47) 1], 47, by decide +kernel⟩,
   ⟨up [setB (F.GATE_LIG_CFG_en (47 / 12))], 47, by decide +kernel⟩,
   ⟨live, Port.pcie, 47, 0x80000000#32, by decide +kernel⟩,
   ⟨live, Port.pcie, 47, 23, by decide +kernel⟩,
   ⟨up [setB (F.GATE_CH_CFG_present 47), setF (F.GATE_CH_CFG_nprof 47) 3], Port.pcie, 47, 23, by decide +kernel⟩,
   ⟨live, Port.pcie, 3, by decide +kernel⟩⟩

theorem test_hypotheses_BoreStepsStartEndOrAreLost :
    (∃ (s : State) (e : Fin 8), boreOn s e = true ∧ stageCount s e ≠ 0 ∧ steppingMode s.mode = true ∧
      (∀ j, j ∈ engFed s.hid.fing.recs e → j < 64) ∧ (engFed s.hid.fing.recs e).Nodup ∧ (boreSt s e).trigs = []) ∧
    (∃ (s : State) (e : Fin 8) (ts : BitVec 64) (rest : List (BitVec 64)) (taken : Hid), boreOn s e = true ∧
      stageCount s e ≠ 0 ∧ steppingMode s.mode = true ∧ (∀ j, j ∈ engFed s.hid.fing.recs e → j < 64) ∧
      (engFed s.hid.fing.recs e).Nodup ∧ (boreSt s e).trigs = ts :: rest ∧
      taken = withBore s e { boreSt s e with trigs := rest } ∧ (¬ (s.mode ≠ SERVICE ∧ s.f (F.BORE_TRIG_kind e) ≠ 3))) ∧
    (∃ (s : State) (e : Fin 8) (ts : BitVec 64) (rest : List (BitVec 64)) (taken : Hid), boreOn s e = true ∧
      stageCount s e ≠ 0 ∧ steppingMode s.mode = true ∧ (∀ j, j ∈ engFed s.hid.fing.recs e → j < 64) ∧
      (engFed s.hid.fing.recs e).Nodup ∧ (boreSt s e).trigs = ts :: rest ∧
      taken = withBore s e { boreSt s e with trigs := rest } ∧ s.mode ≠ SERVICE ∧ s.f (F.BORE_TRIG_kind e) ≠ 3 ∧
      (s.on (F.BORE_STAT_busy e)) = true) ∧
    (∃ (s : State) (e : Fin 8) (ts : BitVec 64) (rest : List (BitVec 64)) (taken : Hid), boreOn s e = true ∧
      stageCount s e ≠ 0 ∧ steppingMode s.mode = true ∧ (∀ j, j ∈ engFed s.hid.fing.recs e → j < 64) ∧
      (engFed s.hid.fing.recs e).Nodup ∧ (boreSt s e).trigs = ts :: rest ∧
      taken = withBore s e { boreSt s e with trigs := rest } ∧ s.mode ≠ SERVICE ∧ s.f (F.BORE_TRIG_kind e) ≠ 3 ∧
      (s.on (F.BORE_STAT_busy e)) = false ∧ s.on (F.BORE_CTL_hold e) = true ∧
      (boreSt s e).holdT.any (sameCyc (boreCyc s) s.now) = false ∧
      s.f (F.BORE_HOLD_count e) < (max 1 (s.f (F.BORE_HOLD_lim e)))) ∧
    (∃ (s : State) (e : Fin 8) (ts : BitVec 64) (rest : List (BitVec 64)) (taken : Hid), boreOn s e = true ∧
      stageCount s e ≠ 0 ∧ steppingMode s.mode = true ∧ (∀ j, j ∈ engFed s.hid.fing.recs e → j < 64) ∧
      (engFed s.hid.fing.recs e).Nodup ∧ (boreSt s e).trigs = ts :: rest ∧
      taken = withBore s e { boreSt s e with trigs := rest } ∧ s.mode ≠ SERVICE ∧ s.f (F.BORE_TRIG_kind e) ≠ 3 ∧
      (s.on (F.BORE_STAT_busy e)) = false ∧ s.on (F.BORE_CTL_hold e) = false) ∧
    (∃ (s : State) (e : Fin 8) (ts : BitVec 64) (rest : List (BitVec 64)) (taken : Hid), boreOn s e = true ∧
      stageCount s e ≠ 0 ∧ steppingMode s.mode = true ∧ (∀ j, j ∈ engFed s.hid.fing.recs e → j < 64) ∧
      (engFed s.hid.fing.recs e).Nodup ∧ (boreSt s e).trigs = ts :: rest ∧
      taken = withBore s e { boreSt s e with trigs := rest } ∧ s.mode ≠ SERVICE ∧ s.f (F.BORE_TRIG_kind e) ≠ 3 ∧
      (s.on (F.BORE_STAT_busy e)) = false ∧ s.on (F.BORE_CTL_hold e) = true ∧
      (boreSt s e).holdT.any (sameCyc (boreCyc s) s.now) = false ∧
      (max 1 (s.f (F.BORE_HOLD_lim e))) ≤ s.f (F.BORE_HOLD_count e)) ∧
    (∃ (s : State) (e : Fin 8) (p : Port) (v : Word), boreOn s e = true ∧ stageCount s e ≠ 0 ∧ steppingMode s.mode = true ∧
      (∀ j, j ∈ engFed s.hid.fing.recs e → j < 64) ∧ (engFed s.hid.fing.recs e).Nodup ∧ Live p s (R.BORE_CTL e) = true ∧
      v.toNat / 2 % 256 = 0 ∧ s.on (F.BORE_CTL_hold e) = false ∧ (¬ (s.mode ≠ SERVICE ∧ s.f (F.BORE_TRIG_kind e) ≠ 3)) ∧
      (s.on (F.BORE_STAT_busy e)) = false) ∧
    (∃ (s : State) (e : Fin 8) (p : Port) (v : Word), boreOn s e = true ∧ stageCount s e ≠ 0 ∧ steppingMode s.mode = true ∧
      (∀ j, j ∈ engFed s.hid.fing.recs e → j < 64) ∧ (engFed s.hid.fing.recs e).Nodup ∧ Live p s (R.BORE_CTL e) = true ∧
      v.toNat / 2 % 256 = 0 ∧ s.on (F.BORE_CTL_hold e) = false ∧ s.mode ≠ SERVICE ∧ s.f (F.BORE_TRIG_kind e) ≠ 3) ∧
    (∃ (s : State) (e : Fin 8), s.on (F.BORE_STAT_busy e) = true ∧ stageCount s e ≤ 48) :=
  ⟨⟨up [setF (F.BORE_INFO_stages 7) 48, setF F.SYS_MODE_STAT_mode FOLLOW], 7, by decide +kernel⟩,
   ⟨up [setF (F.BORE_INFO_stages 7) 48, setF F.SYS_MODE_STAT_mode FOLLOW, boreA 7 fun x => { x with trigs := [0#64] }], 7, 0#64, [], (withBore (up [setF (F.BORE_INFO_stages 7) 48, setF F.SYS_MODE_STAT_mode FOLLOW, boreA 7 fun x => { x with trigs := [0#64] }]) 7 { boreSt (up [setF (F.BORE_INFO_stages 7) 48, setF F.SYS_MODE_STAT_mode FOLLOW, boreA 7 fun x => { x with trigs := [0#64] }]) 7 with trigs := ([]) }), by decide +kernel⟩,
   ⟨up [setF (F.BORE_INFO_stages 7) 48, setF (F.BORE_TRIG_kind 7) 1, setF F.SYS_MODE_STAT_mode FOLLOW, boreA 7 fun x => { x with trigs := [0#64] }, setB (F.BORE_STAT_busy 7)], 7, 0#64, [], (withBore (up [setF (F.BORE_INFO_stages 7) 48, setF (F.BORE_TRIG_kind 7) 1, setF F.SYS_MODE_STAT_mode FOLLOW, boreA 7 fun x => { x with trigs := [0#64] }, setB (F.BORE_STAT_busy 7)]) 7 { boreSt (up [setF (F.BORE_INFO_stages 7) 48, setF (F.BORE_TRIG_kind 7) 1, setF F.SYS_MODE_STAT_mode FOLLOW, boreA 7 fun x => { x with trigs := [0#64] }, setB (F.BORE_STAT_busy 7)]) 7 with trigs := ([]) }), by decide +kernel⟩,
   ⟨up [setF (F.BORE_INFO_stages 7) 48, setF (F.BORE_TRIG_kind 7) 1, setB (F.BORE_CTL_hold 7), setF F.SYS_MODE_STAT_mode FOLLOW, boreA 7 fun x => { x with trigs := [0#64] }], 7, 0#64, [], (withBore (up [setF (F.BORE_INFO_stages 7) 48, setF (F.BORE_TRIG_kind 7) 1, setB (F.BORE_CTL_hold 7), setF F.SYS_MODE_STAT_mode FOLLOW, boreA 7 fun x => { x with trigs := [0#64] }]) 7 { boreSt (up [setF (F.BORE_INFO_stages 7) 48, setF (F.BORE_TRIG_kind 7) 1, setB (F.BORE_CTL_hold 7), setF F.SYS_MODE_STAT_mode FOLLOW, boreA 7 fun x => { x with trigs := [0#64] }]) 7 with trigs := ([]) }), by decide +kernel⟩,
   ⟨up [setF (F.BORE_INFO_stages 7) 48, setF (F.BORE_TRIG_kind 7) 1, setF F.SYS_MODE_STAT_mode FOLLOW, boreA 7 fun x => { x with trigs := [0#64] }], 7, 0#64, [], (withBore (up [setF (F.BORE_INFO_stages 7) 48, setF (F.BORE_TRIG_kind 7) 1, setF F.SYS_MODE_STAT_mode FOLLOW, boreA 7 fun x => { x with trigs := [0#64] }]) 7 { boreSt (up [setF (F.BORE_INFO_stages 7) 48, setF (F.BORE_TRIG_kind 7) 1, setF F.SYS_MODE_STAT_mode FOLLOW, boreA 7 fun x => { x with trigs := [0#64] }]) 7 with trigs := ([]) }), by decide +kernel⟩,
   ⟨up [setF (F.BORE_INFO_stages 7) 48, setF (F.BORE_TRIG_kind 7) 1, setB (F.BORE_CTL_hold 7), setF F.SYS_MODE_STAT_mode FOLLOW, boreA 7 fun x => { x with trigs := [0#64] }, setF (F.BORE_HOLD_count 7) 200], 7, 0#64, [], (withBore (up [setF (F.BORE_INFO_stages 7) 48, setF (F.BORE_TRIG_kind 7) 1, setB (F.BORE_CTL_hold 7), setF F.SYS_MODE_STAT_mode FOLLOW, boreA 7 fun x => { x with trigs := [0#64] }, setF (F.BORE_HOLD_count 7) 200]) 7 { boreSt (up [setF (F.BORE_INFO_stages 7) 48, setF (F.BORE_TRIG_kind 7) 1, setB (F.BORE_CTL_hold 7), setF F.SYS_MODE_STAT_mode FOLLOW, boreA 7 fun x => { x with trigs := [0#64] }, setF (F.BORE_HOLD_count 7) 200]) 7 with trigs := ([]) }), by decide +kernel⟩,
   ⟨up [setF (F.BORE_INFO_stages 7) 48, setF F.SYS_MODE_STAT_mode FOLLOW], 7, Port.pcie, 0#32, by decide +kernel⟩,
   ⟨up [setF (F.BORE_INFO_stages 7) 48, setF (F.BORE_TRIG_kind 7) 1, setF F.SYS_MODE_STAT_mode FOLLOW], 7, Port.pcie, 0#32, by decide +kernel⟩,
   ⟨at0 [setB (F.BORE_STAT_busy 7)], 7, by decide +kernel⟩⟩

theorem test_hypotheses_TriggersInAStepOrAHoldAreDiscarded :
    (∃ (s : State) (e : Fin 8) (ts : BitVec 64) (rest : List (BitVec 64)), stageCount s e ≠ 0 ∧
      (boreSt s e).trigs = ts :: rest ∧ (¬ (s.mode = SERVICE ∨ s.f (F.BORE_TRIG_kind e) = 3)) ∧
      s.on (F.BORE_STAT_busy e) = true) ∧
    (∃ (s : State) (e : Fin 8) (ts : BitVec 64) (rest : List (BitVec 64)), stageCount s e ≠ 0 ∧
      (boreSt s e).trigs = ts :: rest ∧ (¬ (s.mode = SERVICE ∨ s.f (F.BORE_TRIG_kind e) = 3)) ∧
      s.on (F.BORE_STAT_busy e) = false ∧ boreOn s e = true ∧ steppingMode s.mode = true ∧ s.on (F.BORE_CTL_hold e) = true ∧
      (boreSt s e).holdT.any (sameCyc (boreCyc s) s.now) = false ∧
      s.f (F.BORE_HOLD_count e) < max 1 (s.f (F.BORE_HOLD_lim e))) ∧
    (∃ (s : State) (e : Fin 8) (p : Port) (v : Word), stageCount s e ≠ 0 ∧ Live p s (R.BORE_CTL e) = true ∧
      v.getLsbD 8 = false ∧ v.getLsbD 5 = false ∧ v.getLsbD 4 = s.on (F.BORE_CTL_hold e) ∧
      (s.mode = SERVICE ∨ s.f (F.BORE_TRIG_kind e) = 3) ∧ s.on (F.BORE_STAT_busy e) = true) ∧
    (∃ (s : State) (e : Fin 8) (p : Port) (v : Word), stageCount s e ≠ 0 ∧ Live p s (R.BORE_CTL e) = true ∧
      v.getLsbD 8 = false ∧ v.getLsbD 5 = false ∧ v.getLsbD 4 = s.on (F.BORE_CTL_hold e) ∧
      (s.mode = SERVICE ∨ s.f (F.BORE_TRIG_kind e) = 3) ∧ s.on (F.BORE_STAT_busy e) = false ∧ boreOn s e = true ∧
      steppingMode s.mode = true ∧ s.on (F.BORE_CTL_hold e) = true ∧
      (boreSt s e).holdT.any (sameCyc (boreCyc s) s.now) = false ∧
      s.f (F.BORE_HOLD_count e) < max 1 (s.f (F.BORE_HOLD_lim e))) :=
  ⟨⟨at0 [setF (F.BORE_INFO_stages 7) 48, setF (F.BORE_TRIG_kind 7) 1, boreA 7 fun x => { x with trigs := [0#64] }, setB (F.BORE_STAT_busy 7)], 7, 0#64, [], by decide +kernel⟩,
   ⟨up [setF (F.BORE_INFO_stages 7) 48, setF (F.BORE_TRIG_kind 7) 1, boreA 7 fun x => { x with trigs := [0#64] }, setB (F.BORE_CTL_hold 7), setF F.SYS_MODE_STAT_mode FOLLOW], 7, 0#64, [], by decide +kernel⟩,
   ⟨up [setF (F.BORE_INFO_stages 7) 48, setB (F.BORE_STAT_busy 7), setF F.SYS_MODE_STAT_mode SERVICE], 7, Port.pcie, 0#32, by decide +kernel⟩,
   ⟨up [setF (F.BORE_INFO_stages 7) 48, setB (F.BORE_CTL_hold 7), setF F.SYS_MODE_STAT_mode SERVICE], 7, Port.pcie, 0x10#32, by decide +kernel⟩⟩

theorem test_hypotheses_BorePacketsAndWritesLand :
    (∃ (s : State) (e : Fin 8) (d : Die) (p : EngPkt), packetProper p ∧ p.die = d.val ∧
      ((boreSt s e).pkts.find? (fun q => q.die = d.val ∧ !q.waiting) = some p) ∧ p.credit = false) ∧
    (∃ (s : State) (e : Fin 8) (d : Die) (p : EngPkt), packetProper p ∧ p.die = d.val ∧
      ((boreSt s e).pkts.find? (fun q => q.die = d.val ∧ !q.waiting) = some p) ∧ p.credit = true ∧
      s.f (F.BORE_INFO_timing e) ≠ 1 ∧ edgeOn s d = true) ∧
    (∃ (s : State) (e : Fin 8) (d : Die) (p : EngPkt), packetProper p ∧ p.die = d.val ∧
      ((boreSt s e).pkts.find? (fun q => q.die = d.val ∧ !q.waiting) = some p) ∧ p.credit = true ∧
      s.f (F.BORE_INFO_timing e) = 1 ∧ (¬ ((releaseTick s e p.trig).any (fun r => decide (r < (dieTime s d).toNat + 2)) = true))) ∧
    (∃ (s : State) (e : Fin 8) (d : Die) (p : EngPkt), packetProper p ∧ p.die = d.val ∧
      ((boreSt s e).pkts.find? (fun q => q.die = d.val ∧ !q.waiting) = some p) ∧ p.credit = true ∧
      s.f (F.BORE_INFO_timing e) = 1 ∧ (releaseTick s e p.trig).any (fun r => decide (r < (dieTime s d).toNat + 2)) = true ∧
      edgeOn s d = true) ∧
    (∃ (s : State) (e : Fin 8) (d : Die) (p : EngPkt), packetProper p ∧ p.die = d.val ∧
      ((boreSt s e).pkts.find? (fun q => q.die = d.val ∧ q.waiting) = some p) ∧ edgeOn s d = true) ∧
    (∃ (s : State) (p : Port) (e : Fin 8) (g : Fin 48) (k : Fin 8), Live p s (R.BORE_STG_K e g k) = true ∧
      g.val < stageCount s e) ∧
    (∃ (s : State) (p : Port) (e : Fin 8) (k : Fin 16), Live p s (R.BORE_SP e k) = true ∧
      (s.on (F.BORE_STAT_busy e) = false ∨ (boreCyc s - (boreSt s e).t0.toNat % boreCyc s) % boreCyc s < (s.now - (boreSt s e).t0).toNat)) ∧
    (∃ (s : State) (p : Port) (e : Fin 8) (k : Fin 16), Live p s (R.BORE_SP e k) = true ∧ s.on (F.BORE_STAT_busy e) = true ∧
      (s.now - (boreSt s e).t0).toNat ≤ (boreCyc s - (boreSt s e).t0.toNat % boreCyc s) % boreCyc s) ∧
    (∃ (s : State) (p : Port) (e : Fin 8), Live p s (R.BORE_CTL e) = true ∧ s.on (F.BORE_CTL_hold e) = false ∧
      s.on (F.BORE_STAT_busy e) = true) ∧
    (∃ (s : State) (p : Port) (e : Fin 8), Live p s (R.BORE_CTL e) = true ∧ s.on (F.BORE_CTL_hold e) = false ∧
      s.on (F.BORE_STAT_busy e) = false ∧ s.on (F.BORE_STAT_limit e) = false) ∧
    (∃ (s : State) (p : Port) (e : Fin 8), Live p s (R.BORE_CTL e) = true ∧ s.on (F.BORE_CTL_hold e) = true) ∧
    (∃ (s : State) (p : Port) (e : Fin 8) (v : Word), Live p s (R.BORE_CTL e) = true ∧ v.toNat % 16 = 0 ∧
      v.getLsbD 8 = false ∧ v.getLsbD 4 = s.on (F.BORE_CTL_hold e)) ∧
    (∃ (s : State) (p : Port) (e : Fin 8) (v : Word), Live p s (R.BORE_CTL e) = true ∧ v.toNat % 16 = 0 ∧
      v.getLsbD 5 = false ∧ v.getLsbD 4 = s.on (F.BORE_CTL_hold e) ∧ stateWritable s e = true ∧ stageCount s e ≤ 48) ∧
    (∃ (s : State) (p : Port) (e : Fin 8) (v : Word), Live p s (R.BORE_CTL e) = true ∧ v.toNat % 16 = 0 ∧
      v.getLsbD 5 = false ∧ v.getLsbD 4 = s.on (F.BORE_CTL_hold e) ∧ stateWritable s e = false) ∧
    (∃ (s : State) (p : Port) (e : Fin 8) (g : Fin 48) (i : Fin 4), Live p s (R.BORE_STG_X e g i) = true ∧
      g.val < stageCount s e ∧ stateWritable s e = true) ∧
    (∃ (s : State) (p : Port) (e : Fin 8) (g : Fin 48) (i : Fin 4), Live p s (R.BORE_STG_X e g i) = true ∧
      g.val < stageCount s e ∧ stateWritable s e = false) :=
  ⟨⟨at0 [boreA 7 fun x => { x with pkts := [{ die := 1, trig := 0#64, cmp := [(24, 1, 2)], prof := [] }] }], 7, 1, { die := 1, trig := 0#64, cmp := [(24, 1, 2)], prof := [] }, by unfold packetProper; decide +kernel⟩,
   ⟨up [boreA 7 fun x => { x with pkts := [{ die := 1, trig := 0#64, cmp := [(24, 1, 2)], prof := [], credit := true }] }], 7, 1, { die := 1, trig := 0#64, cmp := [(24, 1, 2)], prof := [], credit := true }, by unfold packetProper; decide +kernel⟩,
   ⟨at0 [setF (F.BORE_INFO_timing 7) 1, boreA 7 fun x => { x with pkts := [{ die := 1, trig := 0#64, cmp := [(24, 1, 2)], prof := [], credit := true }] }], 7, 1, { die := 1, trig := 0#64, cmp := [(24, 1, 2)], prof := [], credit := true }, by unfold packetProper; decide +kernel⟩,
   ⟨{ (up [setF (F.BORE_INFO_timing 7) 1, setB (F.BORE_FIX_CFG_mode 7), boreA 7 fun x => { x with pkts := [{ die := 1, trig := 0#64, cmp := [(24, 1, 2)], prof := [], credit := true }] }]) with now := 1000#64 }, 7, 1, { die := 1, trig := 0#64, cmp := [(24, 1, 2)], prof := [], credit := true }, by unfold packetProper; decide +kernel⟩,
   ⟨up [boreA 7 fun x => { x with pkts := [{ die := 1, waiting := true, trig := 0#64, cmp := [(24, 1, 2)], prof := [] }] }], 7, 1, { die := 1, waiting := true, trig := 0#64, cmp := [(24, 1, 2)], prof := [] }, by unfold packetProper; decide +kernel⟩,
   ⟨up [setF (F.BORE_INFO_stages 7) 48], Port.pcie, 7, 47, 7, by decide +kernel⟩,
   ⟨live, Port.pcie, 7, 15, by decide +kernel⟩,
   ⟨up [setB (F.BORE_STAT_busy 7), boreA 7 fun x => { x with t0 := 0#64 }], Port.pcie, 7, 15, by decide +kernel⟩,
   ⟨up [setB (F.BORE_STAT_busy 7)], Port.pcie, 7, by decide +kernel⟩,
   ⟨live, Port.pcie, 7, by decide +kernel⟩,
   ⟨up [setB (F.BORE_CTL_hold 7)], Port.pcie, 7, by decide +kernel⟩,
   ⟨live, Port.pcie, 7, 0#32, by decide +kernel⟩,
   ⟨live, Port.pcie, 7, 0#32, by decide +kernel⟩,
   ⟨up [setF F.SYS_MODE_STAT_mode FOLLOW], Port.pcie, 7, 0#32, by decide +kernel⟩,
   ⟨up [setF (F.BORE_INFO_stages 7) 48], Port.pcie, 7, 47, 3, by decide +kernel⟩,
   ⟨up [setF (F.BORE_INFO_stages 7) 48, setF F.SYS_MODE_STAT_mode FOLLOW], Port.pcie, 7, 47, 3, by decide +kernel⟩⟩

theorem test_hypotheses_GridStepsPublishAndBasesScale :
    (∃ (s : State), s.up = true ∧ s.hid.grid.trigs = []) ∧
    (∃ (s : State) (ts : BitVec 64) (rest : List (BitVec 64)), s.up = true ∧ s.hid.grid.trigs = ts :: rest ∧
      (¬ (s.mode ≠ SERVICE ∧ (F.GRID_TRIG_kind.get (if (s.on F.GRID_STAT_busy = true ∨ (0 < (s.hid.grid.endT - s.now).toNat ∧
      (s.hid.grid.endT - s.now).toNat ≤ 32)) then s.hid.grid.sel else s.rd R.GRID_TRIG)) ≠ 3))) ∧
    (∃ (s : State) (ts : BitVec 64) (rest : List (BitVec 64)), s.up = true ∧ s.hid.grid.trigs = ts :: rest ∧
      s.mode ≠ SERVICE ∧ ((F.GRID_TRIG_kind.get (if (s.on F.GRID_STAT_busy = true ∨ (0 < (s.hid.grid.endT - s.now).toNat ∧
      (s.hid.grid.endT - s.now).toNat ≤ 32)) then s.hid.grid.sel else s.rd R.GRID_TRIG)) ≠ 3) ∧
      (s.on F.GRID_STAT_busy = true ∨ (0 < (s.hid.grid.endT - s.now).toNat ∧ (s.hid.grid.endT - s.now).toNat ≤ 32))) ∧
    (∃ (s : State) (ts : BitVec 64) (rest : List (BitVec 64)), s.up = true ∧ s.hid.grid.trigs = ts :: rest ∧
      s.mode ≠ SERVICE ∧ ((F.GRID_TRIG_kind.get (if (s.on F.GRID_STAT_busy = true ∨ (0 < (s.hid.grid.endT - s.now).toNat ∧
      (s.hid.grid.endT - s.now).toNat ≤ 32)) then s.hid.grid.sel else s.rd R.GRID_TRIG)) ≠ 3) ∧
      (¬ (s.on F.GRID_STAT_busy = true ∨ (0 < (s.hid.grid.endT - s.now).toNat ∧ (s.hid.grid.endT - s.now).toNat ≤ 32))) ∧
      (¬ (gridOn s = true ∧ gridSteps s.mode = true))) ∧
    (∃ (s : State) (ts : BitVec 64) (rest : List (BitVec 64)), s.up = true ∧ s.hid.grid.trigs = ts :: rest ∧
      s.mode ≠ SERVICE ∧ ((F.GRID_TRIG_kind.get (if (s.on F.GRID_STAT_busy = true ∨ (0 < (s.hid.grid.endT - s.now).toNat ∧
      (s.hid.grid.endT - s.now).toNat ≤ 32)) then s.hid.grid.sel else s.rd R.GRID_TRIG)) ≠ 3) ∧
      (¬ (s.on F.GRID_STAT_busy = true ∨ (0 < (s.hid.grid.endT - s.now).toNat ∧ (s.hid.grid.endT - s.now).toNat ≤ 32))) ∧
      gridOn s = true ∧ gridSteps s.mode = true) ∧
    (∃ (s : State) (p : Port) (v : Word), s.up = true ∧ Live p s R.GRID_CTL = true ∧ v.getLsbD 1 = false ∧
      (¬ (s.mode ≠ SERVICE ∧ (F.GRID_TRIG_kind.get (if (s.on F.GRID_STAT_busy = true ∨ (0 < (s.hid.grid.endT - s.now).toNat ∧
      (s.hid.grid.endT - s.now).toNat ≤ 32)) then s.hid.grid.sel else s.rd R.GRID_TRIG)) ≠ 3)) ∧
      (s.on F.GRID_STAT_busy = true ∨ (0 < (s.hid.grid.endT - s.now).toNat ∧ (s.hid.grid.endT - s.now).toNat ≤ 32))) ∧
    (∃ (s : State) (p : Port) (v : Word), s.up = true ∧ Live p s R.GRID_CTL = true ∧ v.getLsbD 1 = false ∧
      (¬ (s.mode ≠ SERVICE ∧ (F.GRID_TRIG_kind.get (if (s.on F.GRID_STAT_busy = true ∨ (0 < (s.hid.grid.endT - s.now).toNat ∧
      (s.hid.grid.endT - s.now).toNat ≤ 32)) then s.hid.grid.sel else s.rd R.GRID_TRIG)) ≠ 3)) ∧
      (¬ (s.on F.GRID_STAT_busy = true ∨ (0 < (s.hid.grid.endT - s.now).toNat ∧ (s.hid.grid.endT - s.now).toNat ≤ 32))) ∧
      gridOn s = true ∧ gridSteps s.mode = true) ∧
    (∃ (s : State) (p : Port) (v : Word), s.up = true ∧ Live p s R.GRID_CTL = true ∧ v.getLsbD 1 = false ∧ s.mode ≠ SERVICE ∧
      ((F.GRID_TRIG_kind.get (if (s.on F.GRID_STAT_busy = true ∨ (0 < (s.hid.grid.endT - s.now).toNat ∧
      (s.hid.grid.endT - s.now).toNat ≤ 32)) then s.hid.grid.sel else s.rd R.GRID_TRIG)) ≠ 3)) ∧
    (∃ (s : State) (p : Port) (v : Word), s.up = true ∧ Live p s R.GRID_CTL = true ∧ v.getLsbD 0 = false) ∧
    (∃ (s : State) (p : Port) (off : Nat), off ∈ [R.GRID_P_SP, R.GRID_Q_SP, R.GRID_IDN_SP, R.GRID_IQN_SP] ∧
      Live p s off = true ∧ Live p s (off + 4) = true) ∧
    (∃ (s : State), s.on F.GRID_STAT_busy = true ∧ gridOn s = true ∧ gridSteps s.mode = true ∧ s.hid.grid.init = false) ∧
    (∃ (s : State), s.on F.GRID_STAT_busy = true ∧ gridOn s = true ∧ gridSteps s.mode = true ∧ s.hid.grid.init = true) ∧
    (∃ (s : State) (p : Port) (i : Fin 4) (v : BitVec 32), Live p s (R.GRID_VBASE + 4 * i) = true ∧
      (s.mode = DORMANT ∨ s.mode = CONFIGURE) ∧ (if i = 3 then v = 0x42480000#32 ∨ v = 0x42700000#32 else 0 < ieeeQ v ∧
      ieeeQ v ≤ 1000000000)) ∧
    (∃ (s : State) (p : Port) (i : Fin 4) (v : BitVec 32), Live p s (R.GRID_VBASE + 4 * i) = true ∧
      (¬ ((s.mode = DORMANT ∨ s.mode = CONFIGURE) ∧ (if i = 3 then v = 0x42480000#32 ∨ v = 0x42700000#32 else 0 < ieeeQ v ∧
      ieeeQ v ≤ 1000000000)))) :=
  ⟨⟨live, by decide +kernel⟩,
   ⟨up [gridA fun x => { x with trigs := 0#64 :: default }], 0#64, default, by decide +kernel⟩,
   ⟨up [gridA fun x => { x with trigs := [0#64] }, setF F.GRID_TRIG_kind 1, setF F.SYS_MODE_STAT_mode FOLLOW, setB F.GRID_STAT_busy], 0#64, [], by decide +kernel⟩,
   ⟨up [setF F.GRID_TRIG_kind 1, gridA fun x => { x with trigs := [0#64] }], 0#64, [], by decide +kernel⟩,
   ⟨up [setF F.GRID_TRIG_kind 1, gridA fun x => { x with trigs := [0#64] }, setF F.SYS_MODE_STAT_mode FOLLOW], 0#64, [], by decide +kernel⟩,
   ⟨up [setF F.SYS_MODE_STAT_mode SERVICE, setB F.GRID_STAT_busy], Port.pcie, 0#32, by decide +kernel⟩,
   ⟨up [setF F.SYS_MODE_STAT_mode FOLLOW], Port.pcie, 0#32, by decide +kernel⟩,
   ⟨up [setF F.GRID_TRIG_kind 1], Port.pcie, 0#32, by decide +kernel⟩,
   ⟨live, Port.pcie, 0#32, by decide +kernel⟩,
   ⟨live, Port.pcie, R.GRID_P_SP, by decide +kernel⟩,
   ⟨up [setB F.GRID_STAT_busy, setF F.SYS_MODE_STAT_mode FOLLOW], by decide +kernel⟩,
   ⟨up [setB F.GRID_STAT_busy, gridA fun x => { x with init := true }, setF F.SYS_MODE_STAT_mode FOLLOW], by decide +kernel⟩,
   ⟨up [setF F.SYS_MODE_STAT_mode DORMANT], Port.pcie, 3, 0x42480000#32, by decide +kernel⟩,
   ⟨live, Port.pcie, 3, 0#32, by decide +kernel⟩⟩

theorem test_hypotheses_SweepsFallDueAndStep :
    (∃ (s : State) (p : Port), gridOn s = true ∧ Live p s R.MPPT_CTL = true) ∧
    (∃ (s : State), gridOn s = true ∧ s.f F.MPPT_SWEEP_CFG_min ≠ 0 ∧ s.mode ≠ DORMANT ∧ s.mode ≠ CONFIGURE) ∧
    (∃ (s : State), gridOn s = true ∧ (s.f F.MPPT_SWEEP_CFG_min = 0 ∨ s.mode = DORMANT ∨ s.mode = CONFIGURE)) ∧
    (∃ (s : State) (p : Fin 8) (rest : List Nat) (w : SweepSt), s.hid.mppt.round = p.val :: rest ∧
      (portSt s p).sweep = some w ∧ w.n + 1 < sweepPts s) ∧
    (∃ (s : State) (p : Fin 8) (rest : List Nat) (w : SweepSt), s.hid.mppt.round = p.val :: rest ∧
      (portSt s p).sweep = some w ∧ sweepPts s ≤ w.n + 1 ∧ rest = []) :=
  ⟨⟨live, Port.pcie, by decide +kernel⟩,
   ⟨up [setF F.MPPT_SWEEP_CFG_min 1, setF F.SYS_MODE_STAT_mode STANDBY], by decide +kernel⟩,
   ⟨up [setF F.MPPT_SWEEP_CFG_min 0], by decide +kernel⟩,
   ⟨at0 [mpptA fun x => { x with round := [7, 1] }, portA 7 fun x => { x with sweep := some { pPre := 0, vPre := 0 } }], 7, [1], { pPre := 0, vPre := 0, n := 0 }, by decide +kernel⟩,
   ⟨at0 [mpptA fun x => { x with round := [7] }, portA 7 fun x => { x with sweep := some { pPre := 0, vPre := 0, n := 255 } }], 7, [], { pPre := 0, vPre := 0, n := 255 }, by decide +kernel⟩⟩

theorem test_hypotheses_WhistleAssignsRelearnsAndClears :
    (∃ (s : State) (d : List Byte), gridOn s = true ∧ s.on F.PROBE_ASSIGN_en = true ∧ codeFrameOk d = true ∧
      fb d 1 = s.f F.PROBE_ASSIGN_node) ∧
    (∃ (s : State) (d : List Byte), gridOn s = true ∧ s.on F.PROBE_ASSIGN_en = true ∧ codeFrameOk d = true ∧
      fb d 1 ≠ s.f F.PROBE_ASSIGN_node) ∧
    (∃ (s : State) (d : List Byte), gridOn s = true ∧ s.on F.PROBE_ASSIGN_en = true ∧ phaseFrameOk d = true ∧
      s.on F.CAN_NT_STAT_nt_sync = true) ∧
    (∃ (s : State) (d : List Byte), gridOn s = true ∧ s.on F.PROBE_ASSIGN_en = true ∧ phaseFrameOk d = true ∧
      s.on F.CAN_NT_STAT_nt_sync = false) ∧
    (∃ (s : State) (d : List Byte), gridOn s = true ∧ s.on F.PROBE_ASSIGN_en = true ∧ codeFrameOk d = false ∧
      phaseFrameOk d = false) ∧
    (∃ (s : State), s.on F.PROBE_ASSIGN_en = false) ∧
    (∃ (s : State) (p : Port), Live p s R.PROBE_PHASE_CMD = true) ∧
    (∃ (s : State) (p : Port) (v : Word), Live p s R.PROBE_CTL = true ∧ v.getLsbD 0 = false) ∧
    (∃ (s : State) (p : Port) (v : Word), Live p s R.PROBE_CTL = true ∧ v.getLsbD 1 = false ∧
      (s.mode = FOLLOW ∨ s.mode = FORM ∨ s.mode = RIDE ∨ (passive s ((fun n => s.puQ (R.GRID_Q n)) 2) ((fun n => s.puQ (R.GRID_Q n)) 4) ((fun n => s.puQ (R.GRID_Q n)) 3)).any id = true)) ∧
    (∃ (s : State) (p : Port) (v : Word), Live p s R.PROBE_CTL = true ∧ v.getLsbD 1 = false ∧
      (¬ (s.mode = FOLLOW ∨ s.mode = FORM ∨ s.mode = RIDE ∨ (passive s ((fun n => s.puQ (R.GRID_Q n)) 2) ((fun n => s.puQ (R.GRID_Q n)) 4) ((fun n => s.puQ (R.GRID_Q n)) 3)).any id = true))) :=
  ⟨⟨up [setB F.PROBE_ASSIGN_en], [2#8, 0#8, 0#8, 0#8, 0#8, 0#8, 0#8, 0#8], by decide +kernel⟩,
   ⟨up [setB F.PROBE_ASSIGN_en], [2#8, 9#8, 0#8, 0#8, 0#8, 0#8, 0#8, 0#8], by decide +kernel⟩,
   ⟨up [setB F.PROBE_ASSIGN_en, setB F.CAN_NT_STAT_nt_sync], 1#8 :: List.replicate 15 0#8, by decide +kernel⟩,
   ⟨up [setB F.PROBE_ASSIGN_en], 1#8 :: List.replicate 15 0#8, by decide +kernel⟩,
   ⟨up [setB F.PROBE_ASSIGN_en], default, by decide +kernel⟩,
   ⟨State.reset, by decide +kernel⟩,
   ⟨live, Port.pcie, by decide +kernel⟩,
   ⟨live, Port.pcie, 0#32, by decide +kernel⟩,
   ⟨up [setF F.SYS_MODE_STAT_mode FOLLOW], Port.pcie, 0#32, by decide +kernel⟩,
   ⟨live, Port.pcie, 0#32, by decide +kernel⟩⟩

theorem test_hypotheses_MeterSamplesEnterOrCountGaps :
    (∃ (s : State) (i : Fin 2) (idx : BitVec 12), metRuns s i = true ∧ (metSt s i).k < metN s i ∧ metFine s i = true ∧
      s.on F.CLK_SLIDE_CFG_en = true ∧ (metSt s i).ix.all (fun b => decide ((idx : BitVec 12).toNat = (b + 1) % 4096)) = true ∧ (∀ j : Fin 6, ((metSt s i).q.get [] j).find? (fun a => a.idx = idx.toNat) = none) ∧
      (∀ j : Fin 6, ((metSt s i).q.get [] j).any (fun a => ixAfter a.idx idx.toNat) = true)) ∧
    (∃ (s : State) (i : Fin 2) (idx : BitVec 12), metRuns s i = true ∧ (metSt s i).k < metN s i ∧ metFine s i = true ∧
      s.on F.CLK_SLIDE_CFG_en = true ∧ (metSt s i).ix.all (fun b => decide ((idx : BitVec 12).toNat = (b + 1) % 4096)) = true ∧ (∀ j : Fin 6, ((metSt s i).q.get [] j).find? (fun a => a.idx = idx.toNat) = none) ∧
      (∃ j : Fin 6, ((metSt s i).q.get [] j).any (fun a => ixAfter a.idx idx.toNat) = false)) ∧
    (∃ (s : State) (i : Fin 2) (idx : BitVec 12) (b : Nat), metRuns s i = true ∧ (metSt s i).k < metN s i ∧
      (metSt s i).ix = some b ∧ metFine s i = true ∧ s.on F.CLK_SLIDE_CFG_en = true ∧ ixAfter idx.toNat b = true ∧
      (metSt s i).k + ((idx.toNat + 4096 - b) % 4096) ≤ metN s i ∧
      (∀ j : Fin 6, ((metSt s i).q.get [] j).any (fun a => decide (a.idx = idx.toNat) || ixAfter a.idx idx.toNat) = true)) ∧
    (∃ (s : State) (i : Fin 2) (t0 : BitVec 64) (t1 : BitVec 64), metRuns s i = true ∧ (metSt s i).k < metN s i ∧
      metFine s i = false ∧ intervalDue s i t0 (intervalEnd s t0 t1) = true ∧
      (∀ j : Fin 6, ((metSt s i).q.get [] j).filter (fun a => t0.toNat ≤ a.ts.toNat ∧
      a.ts.toNat < (intervalEnd s t0 t1).toNat) = [])) ∧
    (∃ (s : State) (i : Fin 2) (idx : BitVec 12) (x : List MetVal) (ts : BitVec 64), metRuns s i = true ∧
      metFine s i = true ∧ s.on F.CLK_SLIDE_CFG_en = true ∧ x.length = 6 ∧
      (metSt s i).ix.all (fun b => decide (idx.toNat = (b + 1) % 4096)) = true ∧
      (∀ j : Fin 6, ∃ a, ((metSt s i).q.get [] j).find? (fun a => a.idx = idx.toNat) = some a ∧
      { v := a.v, bad := a.bad, coast := a.coast } = x.getD j {} ∧ a.ts = ts)) ∧
    (∃ (s : State) (i : Fin 2) (t0 t1 : BitVec 64) (x : List MetVal), metRuns s i = true ∧ metFine s i = false ∧
      x.length = 6 ∧ intervalDue s i t0 (intervalEnd s t0 t1) = true ∧
      (∀ j : Fin 6, ∃ a, ((metSt s i).q.get [] j).filter (fun a => t0.toNat ≤ a.ts.toNat ∧
      a.ts.toNat < (intervalEnd s t0 t1).toNat) = [a] ∧ { v := a.v, bad := a.bad, coast := a.coast } = x.getD j {})) :=
  ⟨⟨up [setF F.METER_CTL_en 3, setB (F.METER_PT_CFG_form 1), setB F.CLK_SLIDE_CFG_en, metA 1 fun m => { m with q := (List.range 6).map fun j => (j, [⟨5, 9#64, 3, false, false⟩]) }], 1, 0#12, by decide +kernel⟩,
   ⟨up [setF F.METER_CTL_en 3, setB (F.METER_PT_CFG_form 1), setB F.CLK_SLIDE_CFG_en], 1, 0#12, by decide +kernel⟩,
   ⟨up [setF F.METER_CTL_en 3, setB (F.METER_PT_CFG_form 1), setB F.CLK_SLIDE_CFG_en, metA 1 fun m => { m with ix := some 0, q := (List.range 6).map fun j => (j, [⟨5, 9#64, 3, false, false⟩]) }], 1, 1#12, 0, by decide +kernel⟩,
   ⟨{ (up [setF F.METER_CTL_en 3]) with now := 3000000#64 }, 1, 0#64, 0#64, by decide +kernel⟩,
   ⟨up [setF F.METER_CTL_en 3, setB (F.METER_PT_CFG_form 1), setB F.CLK_SLIDE_CFG_en,
      metA 1 fun m => { m with q := (List.range 6).map fun j => (j, [⟨5, 9#64, 3, false, false⟩]) }], 1, 5#12, List.replicate 6 { v := 3 }, 9#64,
    by decide +kernel, by decide +kernel, by decide +kernel, by decide +kernel, by decide +kernel, fun j => ⟨⟨5, 9#64, 3, false, false⟩, by revert j; decide +kernel⟩⟩,
   ⟨{ (up [setF F.METER_CTL_en 3,
      metA 1 fun m => { m with q := (List.range 6).map fun j => (j, [⟨5, 9#64, 3, false, false⟩]) }]) with now := 3000000#64 }, 1, 0#64, 0#64, List.replicate 6 { v := 3 },
    by decide +kernel, by decide +kernel, by decide +kernel, by decide +kernel, fun j => ⟨⟨5, 9#64, 3, false, false⟩, by revert j; decide +kernel⟩⟩⟩

theorem test_hypotheses_MeterStopsAndAnswers :
    (∃ (s : State) (i : Fin 2), metRuns s i = true ∧ metAccum s.mode = true ∧ (metSt s i).k ≠ 0) ∧
    (∃ (s : State) (p : Port) (i : Fin 2) (k : Fin 9), Live p s (if k.val = 8 then R.METER_PT_WRAP i else R.METER_PT_ACC i k) = true ∧
      metAccum s.mode = true) ∧
    (∃ (s : State) (p : Port) (i : Fin 2) (k : Fin 9), Live p s (if k.val = 8 then R.METER_PT_WRAP i else R.METER_PT_ACC i k) = true ∧
      metAccum s.mode = false) ∧
    (∃ (s : State) (p : Port), Live p s R.COMPAT_STATUS = true) :=
  ⟨⟨up [setF F.METER_CTL_en 3, setF F.SYS_MODE_STAT_mode FOLLOW, metA 1 fun x => { x with k := 1 }], 1, by decide +kernel⟩,
   ⟨up [setF F.SYS_MODE_STAT_mode FOLLOW], Port.pcie, 1, 8, by decide +kernel⟩,
   ⟨up [setF F.SYS_MODE_STAT_mode CONFIGURE], Port.pcie, 1, 8, by decide +kernel⟩,
   ⟨live, Port.pcie, by decide +kernel⟩⟩

theorem test_hypotheses_LockstepBreaksAndIsMended :
    (∃ (s : State), chntOn s = true ∧ coresRun s = true ∧ s.on F.CHNT_STAT_parked = false) ∧
    (∃ (s : State), chntOn s = true) ∧
    (∃ (s : State) (t0 : BitVec 64), chntOn s = true ∧ s.hid.chnt.sweepT = some t0 ∧ sweepLimit s ≤ (s.now - t0).toNat) ∧
    (∃ (s : State), chntOn s = true ∧ coresRun s = true ∧ s.on F.CHNT_STAT_debug_halted = false) ∧
    (∃ (s : State), chntOn s = true ∧ s.hid.chnt.test = true) ∧
    (∃ (s : State) (p : Port) (v : Word), Live p s R.CHNT_CTL = true ∧ (p : Port) ≠ .fw ∧
      (v : Word).extractLsb' 16 16 = 0xC4A7#16 ∧ v.getLsbD 0 = true ∧ s.hid.chnt.test = false ∧
      (s.mode = DORMANT ∨ s.mode = CONFIGURE ∨ s.mode = HALT ∨ s.mode = SERVICE)) ∧
    (∃ (s : State) (p : Port) (v : Word), Live p s R.CHNT_CTL = true ∧ (¬ (p ≠ .fw ∧ v.extractLsb' 16 16 = 0xC4A7#16 ∧
      v.getLsbD 0 = true ∧ s.hid.chnt.test = false ∧
      (s.mode = DORMANT ∨ s.mode = CONFIGURE ∨ s.mode = HALT ∨ s.mode = SERVICE)))) :=
  ⟨⟨up [setB F.CHNT_STAT_running], by decide +kernel⟩,
   ⟨live, by decide +kernel⟩,
   ⟨{ (up [chntA fun x => { x with sweepT := some 0#64 }]) with now := 80000000#64 }, 0#64, by decide +kernel⟩,
   ⟨up [setB F.CHNT_STAT_running], by decide +kernel⟩,
   ⟨up [chntA fun x => { x with test := true }], by decide +kernel⟩,
   ⟨up [setF F.SYS_MODE_STAT_mode DORMANT, chntA fun x => { x with test := false }], Port.pcie, 0xC4A70001#32, by decide +kernel⟩,
   ⟨live, Port.pcie, 0#32, by decide +kernel⟩⟩

theorem test_hypotheses_ChanterInputsSweepsAndSourcesCount :
    (∃ (s : State) (p : Port), Live p s R.CHNT_AGREE_REQ = true) ∧
    (∃ (s : State) (p : Port) (g : Fin 2) (a : BitVec 16) (b : BitVec 16) (t0 : BitVec 64), Live p s (R.CHNT_AGREE_VAL g) = true ∧
      (if g = 0 then s.hid.chnt.agree0 else s.hid.chnt.agree1) = some (a, b, t0)) ∧
    (∃ (s : State) (p : Port) (g : Fin 2), Live p s (R.CHNT_AGREE_VAL g) = true ∧
      (if g = 0 then s.hid.chnt.agree0 else s.hid.chnt.agree1) = none) ∧
    (∃ (s : State), chntOn s = true) ∧
    (∃ (s : State) (v : Word), coresRun s = true ∧ Live .fw s R.CHNT_SWEEP_CTL = true ∧ (v : Word).getLsbD 1 = false) ∧
    (∃ (s : State) (v : Word), coresRun s = true ∧ Live .fw s R.CHNT_SWEEP_CTL = true ∧ v.getLsbD 0 = false ∧
      s.on F.CHNT_STAT_sweeping = true ∧ 97 ≤ s.f F.CHNT_SWEEP_STAT_words) ∧
    (∃ (s : State) (v : Word), coresRun s = true ∧ Live .fw s R.CHNT_SWEEP_CTL = true ∧ v.getLsbD 0 = false ∧
      s.on F.CHNT_STAT_sweeping = true ∧ s.f F.CHNT_SWEEP_STAT_words < 97) ∧
    (∃ (s : State), coresRun s = true ∧ Live .fw s R.CHNT_SWEEP_DATA = true ∧ s.on F.CHNT_STAT_sweeping = true) ∧
    (∃ (s : State) (i : Fin 256), chntOn s = true ∧ (¬ (64 ≤ i.val ∧ i.val < 80)) ∧ i.val < 80 ∧
      irqSummary s false i = true ∧ bit s.seen i = false) ∧
    (∃ (s : State) (i : Fin 256), chntOn s = true ∧ (¬ (64 ≤ i.val ∧ i.val < 80)) ∧
      (80 ≤ i.val ∨ irqSummary s false i = false ∨ bit s.seen i = true)) ∧
    (∃ (s : State) (i : Fin 256), chntOn s = true ∧ 64 ≤ i.val ∧ i.val < 80 ∧ bit s.seen i = false) ∧
    (∃ (s : State), chntOn s = true ∧ s.rd64 R.CHNT_MTIMECMP ≤ s.now) ∧
    (∃ (s : State) (p : Port) (i : Fin 80), chntOn s = true ∧ Live p s R.CHNT_IRQ_CLAIM = true ∧ irqPending s i = true ∧
      (∀ j : Fin 80, irqPending s j = true → irqPrio s j < irqPrio s i ∨ irqPrio s j = irqPrio s i ∧ i.val ≤ j.val)) ∧
    (∃ (s : State) (i : Fin 80), bit s.hid.chnt.masked i = true) ∧
    (∃ (s : State) (p : Port), Live p s R.CHNT_IRQ_DONE = true) ∧
    (∃ (s : State) (p : Port), chntOn s = true ∧ Live p s R.CHNT_IRQ_CLAIM = true ∧ (∀ j : Fin 80, irqPending s j = false)) ∧
    (∃ (c : Instr) (s t : State), exec c s = .next t ∧ bit t.seen 0 = true) :=
  ⟨⟨live, Port.pcie, by decide +kernel⟩,
   ⟨up [chntA fun x => { x with agree1 := some (0#16, 0#16, 0#64) }], Port.pcie, 1, 0#16, 0#16, 0#64, by decide +kernel⟩,
   ⟨live, Port.pcie, 1, by decide +kernel⟩,
   ⟨live, by decide +kernel⟩,
   ⟨up [setB F.CHNT_STAT_running], 0#32, by decide +kernel⟩,
   ⟨up [setB F.CHNT_STAT_running, setB F.CHNT_STAT_sweeping, setF F.CHNT_SWEEP_STAT_words 97], 0#32, by decide +kernel⟩,
   ⟨up [setB F.CHNT_STAT_running, setB F.CHNT_STAT_sweeping], 0#32, by decide +kernel⟩,
   ⟨up [setB F.CHNT_STAT_running, setB F.CHNT_STAT_sweeping], by decide +kernel⟩,
   ⟨up [setB F.SYS_PWR_STAT_done], 0, by decide +kernel⟩,
   ⟨live, 255, by decide +kernel⟩,
   ⟨live, 79, by decide +kernel⟩,
   ⟨{ live with now := BitVec.allOnes 64 }, by decide +kernel⟩,
   ⟨up [setB F.SYS_PWR_STAT_done, setW (R.CHNT_IRQ_CFG 0) 0x100#32], Port.pcie, 0, by decide +kernel⟩,
   ⟨at0 [chntA fun x => { x with masked := 2 ^ 79 }], 79, by decide +kernel⟩,
   ⟨live, Port.pcie, by decide +kernel⟩,
   ⟨live, Port.pcie, by decide +kernel⟩,
   ⟨.irqSourceRise 0, up [setB F.SYS_PWR_STAT_done], answers_of (by decide +kernel)⟩⟩

theorem test_hypotheses_DroneActsOnItsSourcesAndInputs :
    (∃ (s : State) (j : Fin 4), droneOn s = true ∧ inputOn s j = false) ∧
    (∃ (s : State) (j : Fin 4), droneOn s = true ∧ inputOn s j = true) ∧
    (∃ (s : State) (j : Fin 4), droneOn s = true ∧ s.on (inFld j 3) = true) ∧
    (∃ (s : State), droneOn s = true) :=
  ⟨⟨live, 3, by decide +kernel⟩,
   ⟨up [setB F.DRONE_STAT_accepted, setW (R.DRONE_PARAM 0) 8#32], 3, by decide +kernel⟩,
   ⟨up [setB (inFld 3 3)], 3, by decide +kernel⟩,
   ⟨live, by decide +kernel⟩⟩

theorem test_hypotheses_WatchdogAndDroneFaultsLatch :
    (∃ (s : State), droneOn s = true ∧ s.on F.DRONE_WD_armed = true ∧ s.on F.DRONE_FAULT_wd = true) ∧
    (∃ (s : State) (p : Port) (v : Word) (us : Nat), droneOn s = true ∧ s.on F.DRONE_WD_armed = true ∧
      Live p s R.CHNT_WD_KICK = true ∧ s.on (F.SYS_SEAM_STAT_up 0) = true ∧
      (s.on F.DRONE_FAULT_wd = true ∨ ¬ (v ≠ (if s.on F.DRONE_WD_expect then 0xA53C#32 else 0x5AC3#32) ∨ s.hid.drone.kicked = true ∧
      (us : Nat) < ((s.rd (R.DRONE_PARAM 4)).toNat % 2 ^ 16)) ∧
      ¬ (((s.rd (R.DRONE_PARAM 4)).toNat % 2 ^ 16) + ((s.rd (R.DRONE_PARAM 4)).toNat / 2 ^ 16) ≤ us))) ∧
    (∃ (s : State) (p : Port) (v : Word) (us : Nat), droneOn s = true ∧ s.on F.DRONE_WD_armed = true ∧
      Live p s R.CHNT_WD_KICK = true ∧ s.on (F.SYS_SEAM_STAT_up 0) = true ∧ s.on F.DRONE_FAULT_wd = false ∧
      (v ≠ (if s.on F.DRONE_WD_expect then 0xA53C#32 else 0x5AC3#32) ∨ s.hid.drone.kicked = true ∧
      (us : Nat) < ((s.rd (R.DRONE_PARAM 4)).toNat % 2 ^ 16))) ∧
    (∃ (s : State) (p : Port) (v : Word) (us : Nat), droneOn s = true ∧ s.on F.DRONE_WD_armed = true ∧
      Live p s R.CHNT_WD_KICK = true ∧ s.on (F.SYS_SEAM_STAT_up 0) = true ∧ s.on F.DRONE_FAULT_wd = false ∧
      (¬ (v ≠ (if s.on F.DRONE_WD_expect then 0xA53C#32 else 0x5AC3#32) ∨ s.hid.drone.kicked = true ∧
      (us : Nat) < ((s.rd (R.DRONE_PARAM 4)).toNat % 2 ^ 16))) ∧
      ((s.rd (R.DRONE_PARAM 4)).toNat % 2 ^ 16) + ((s.rd (R.DRONE_PARAM 4)).toNat / 2 ^ 16) ≤ us) ∧
    (∃ (s : State), droneOn s = true ∧ safetyCrcOk s = true) ∧
    (∃ (s : State), droneOn s = true ∧ safetyCrcOk s = false ∧ s.on F.DRONE_FAULT_param = false) ∧
    (∃ (s : State) (k : Fin 4) (sol : Bool), droneOn s = true ∧ (if sol then sohOn s k && !solOn s k else !sohOn s k) = true) :=
  ⟨⟨up [setB F.DRONE_WD_armed, setB F.DRONE_FAULT_wd], by decide +kernel⟩,
   ⟨up [setB F.DRONE_WD_armed, setB (F.SYS_SEAM_STAT_up 0), setW (R.DRONE_PARAM 4) 0x10000#32], Port.pcie, 0x5AC3#32, 0, by decide +kernel⟩,
   ⟨up [setB F.DRONE_WD_armed, setB (F.SYS_SEAM_STAT_up 0)], Port.pcie, 0#32, 0, by decide +kernel⟩,
   ⟨up [setB F.DRONE_WD_armed, setB (F.SYS_SEAM_STAT_up 0)], Port.pcie, 0x5AC3#32, 0, by decide +kernel⟩,
   ⟨live, by decide +kernel⟩,
   ⟨up [setB F.DRONE_STAT_accepted, setW (R.DRONE_PARAM 0) 1#32], by decide +kernel⟩,
   ⟨up [setB F.DRONE_STAT_accepted, setF F.DRONE_STAT_mode STANDBY, setF F.FING_STAT_force 2], 3, true, by decide +kernel⟩⟩

theorem test_hypotheses_TestRoundsWalkTheSwitches :
    (∃ (s : State), droneOn s = true ∧ accepted s = true ∧ s.on F.DRONE_TP_running = false) ∧
    (∃ (s : State), droneOn s = true ∧ accepted s = true ∧ s.on F.DRONE_TP_running = true) ∧
    (∃ (s : State), droneOn s = true ∧ s.on F.DRONE_TP_running = true ∧
      (sohOn s ((s.f F.DRONE_TP_next) / 2) && solOn s ((s.f F.DRONE_TP_next) / 2)) = false) ∧
    (∃ (s : State) (off : Bool) (on : Bool), droneOn s = true ∧ s.on F.DRONE_TP_running = true ∧
      (sohOn s ((s.f F.DRONE_TP_next) / 2) && solOn s ((s.f F.DRONE_TP_next) / 2)) = true ∧ off = true ∧ on = true) ∧
    (∃ (s : State) (off : Bool) (on : Bool), droneOn s = true ∧ s.on F.DRONE_TP_running = true ∧
      (sohOn s ((s.f F.DRONE_TP_next) / 2) && solOn s ((s.f F.DRONE_TP_next) / 2)) = true ∧ (off = false ∨ on = false)) :=
  ⟨⟨up [setB F.DRONE_STAT_accepted], by decide +kernel⟩,
   ⟨up [setB F.DRONE_STAT_accepted, setB F.DRONE_TP_running], by decide +kernel⟩,
   ⟨up [setB F.DRONE_TP_running], by decide +kernel⟩,
   ⟨up [setB F.DRONE_TP_running, setB F.DRONE_STAT_accepted, setF F.DRONE_STAT_mode STANDBY, droneA fun x => { x with sol := 15 }, setF F.FING_STAT_force 2], true, true, by decide +kernel⟩,
   ⟨up [setB F.DRONE_TP_running, setB F.DRONE_STAT_accepted, setF F.DRONE_STAT_mode STANDBY, droneA fun x => { x with sol := 15 }, setF F.FING_STAT_force 2], false, true, by decide +kernel⟩⟩

theorem test_hypotheses_DroneCommandsAndResetAreJudged :
    (∃ (s : State), droneOn s = true ∧ s.on F.DRONE_STAT_svckey = false) ∧
    (∃ (s : State), droneOn s = true ∧ s.on F.DRONE_STAT_svckey = true ∧
      (relaxed s && (liveSrc s 0 || liveSrc s 1 || liveSrc s 4)) = false) ∧
    (∃ (s : State), droneOn s = true ∧ s.on F.DRONE_STAT_svckey = true ∧
      (relaxed s && (liveSrc s 0 || liveSrc s 1 || liveSrc s 4)) = true) ∧
    (∃ (s : State) (p : Port), droneOn s = true ∧ Live p s R.SYS_SOL = true ∧ p = Port.fw) ∧
    (∃ (s : State) (p : Port), droneOn s = true ∧ Live p s R.SYS_SOL = true ∧ p ≠ Port.fw) ∧
    (∃ (s : State) (p : Port) (v : Word), Live p s R.SYS_DRONE_RST = true ∧ droneOn s = true ∧ (¬ ((p : Port) ≠ .fw ∧
      v.extractLsb' 16 16 = 0xD7E1#16))) ∧
    (∃ (s : State) (p : Port) (v : Word), Live p s R.SYS_DRONE_RST = true ∧ droneOn s = true ∧ (p : Port) ≠ .fw ∧
      v.extractLsb' 16 16 = 0xD7E1#16 ∧ s.on (F.SYS_SEAM_STAT_up 0) = false) ∧
    (∃ (s : State) (p : Port) (v : Word), Live p s R.SYS_DRONE_RST = true ∧ droneOn s = true ∧ (p : Port) ≠ .fw ∧
      v.extractLsb' 16 16 = 0xD7E1#16 ∧ s.on (F.SYS_SEAM_STAT_up 0) = true) :=
  ⟨⟨live, by decide +kernel⟩,
   ⟨up [setB F.DRONE_STAT_svckey], by decide +kernel⟩,
   ⟨up [setB F.DRONE_STAT_svckey, setF F.DRONE_STAT_mode SERVICE, droneA fun x => { x with pair := true }], by decide +kernel⟩,
   ⟨live, Port.fw, by decide +kernel⟩,
   ⟨live, Port.pcie, by decide +kernel⟩,
   ⟨live, Port.pcie, 0#32, by decide +kernel⟩,
   ⟨up [clrB (F.SYS_SEAM_STAT_up 0)], Port.pcie, 0xD7E10000#32, by decide +kernel⟩,
   ⟨up [setB (F.SYS_SEAM_STAT_up 0)], Port.pcie, 0xD7E10000#32, by decide +kernel⟩⟩

theorem test_hypotheses_PairingIsCheckedAndDecided :
    (∃ (s : State) (p : Port) (v : Word), Live p s R.PAIR_CMD = true ∧ ((if s.mode ≠ CONFIGURE ∧
      s.mode ≠ STANDBY then 1 else if s.on F.FING_FEAT_pair = false ∨ s.force < 2 then 2 else if s.f F.PAIR_STAT_lanes = 0 then 3 else if s.role ≠ 0 then 4 else if ((v : Word).toNat / 16 % 4) ≠ 1 ∧
      ((v : Word).toNat / 16 % 4) ≠ 2 then 9 else 0) ≠ 0)) ∧
    (∃ (s : State) (p : Port) (v : Word), Live p s R.PAIR_CMD = true ∧ ((if s.mode ≠ CONFIGURE ∧
      s.mode ≠ STANDBY then 1 else if s.on F.FING_FEAT_pair = false ∨ s.force < 2 then 2 else if s.f F.PAIR_STAT_lanes = 0 then 3 else if s.role ≠ 0 then 4 else if ((v : Word).toNat / 16 % 4) ≠ 1 ∧
      ((v : Word).toNat / 16 % 4) ≠ 2 then 9 else 0) = 0) ∧ s.on F.PAIR_STAT_busy = true) ∧
    (∃ (s : State) (p : Port) (v : Word), Live p s R.PAIR_CMD = true ∧ ((if s.mode ≠ CONFIGURE ∧
      s.mode ≠ STANDBY then 1 else if s.on F.FING_FEAT_pair = false ∨ s.force < 2 then 2 else if s.f F.PAIR_STAT_lanes = 0 then 3 else if s.role ≠ 0 then 4 else if ((v : Word).toNat / 16 % 4) ≠ 1 ∧
      ((v : Word).toNat / 16 % 4) ≠ 2 then 9 else 0) = 0) ∧ s.on F.PAIR_STAT_busy = false) ∧
    (∃ (s : State), pairLink s = true ∧ pairing s = true) ∧
    (∃ (s : State), pairOn s = true ∧ pairing s = true) ∧
    (∃ (s : State) (peer : Bool), pairOn s = true ∧ (s.on F.PAIR_STAT_peerrole = true → peer = true) ∧ s.role ≠ 0) ∧
    (∃ (s : State) (peer : Bool), pairOn s = true ∧ (s.on F.PAIR_STAT_peerrole = true → peer = true) ∧ s.role = 0 ∧
      s.on F.PAIR_STAT_busy = false) ∧
    (∃ (s : State) (m : HelloMsg) (tag : BitVec 128) (peer : Bool), pairOn s = true ∧
      (s.on F.PAIR_STAT_peerrole = true → peer = true) ∧ s.role = 0 ∧ s.on F.PAIR_STAT_busy = true ∧
      ((if tag ≠ helloTag s m then 6 else if m.rev ≠ (helloMsg s).rev then 7 else if m.hash ≠ (helloMsg s).hash then 8 else if m.want = (helloMsg s).want then 9 else if (if s.f F.PAIR_STAT_lanes = 3 then 2000 else 1000) < (if s.hid.pair.want = 1 then (helloMsg s).load else m.load).toNat then 10 else if s.hid.pair.want = 1 ∧
      (peer : Bool) = true then 11 else 0) ≠ 0)) ∧
    (∃ (s : State) (m : HelloMsg) (tag : BitVec 128) (peer : Bool), pairOn s = true ∧
      (s.on F.PAIR_STAT_peerrole = true → peer = true) ∧ s.role = 0 ∧ s.on F.PAIR_STAT_busy = true ∧
      ((if tag ≠ helloTag s m then 6 else if m.rev ≠ (helloMsg s).rev then 7 else if m.hash ≠ (helloMsg s).hash then 8 else if m.want = (helloMsg s).want then 9 else if (if s.f F.PAIR_STAT_lanes = 3 then 2000 else 1000) < (if s.hid.pair.want = 1 then (helloMsg s).load else m.load).toNat then 10 else if s.hid.pair.want = 1 ∧
      (peer : Bool) = true then 11 else 0) = 0) ∧ (s.hid.pair.want = 1 ∨ s.hid.pair.want = 2) ∧
      (droneOn s = true → roleOk s = true)) :=
  ⟨⟨live, Port.pcie, 0#32, by decide +kernel⟩,
   ⟨up [setB F.PAIR_STAT_busy, setF F.SYS_MODE_STAT_mode STANDBY, setB F.FING_FEAT_pair, setF F.FING_STAT_force 2, setF F.PAIR_STAT_lanes 1], Port.pcie, 0x10#32, by decide +kernel⟩,
   ⟨up [setF F.SYS_MODE_STAT_mode STANDBY, setB F.FING_FEAT_pair, setF F.FING_STAT_force 2, setF F.PAIR_STAT_lanes 3], Port.pcie, 0x10#32, by decide +kernel⟩,
   ⟨up [setF F.PAIR_STAT_lanes 3, setB F.PAIR_STAT_busy], by decide +kernel⟩,
   ⟨up [setB F.PAIR_STAT_busy], by decide +kernel⟩,
   ⟨up [setF F.SYS_MODE_STAT_role 1], true, by decide +kernel⟩,
   ⟨live, true, by decide +kernel⟩,
   ⟨asking, { helloMsg asking with rev := 1#32 }, helloTag asking { helloMsg asking with rev := 1#32 }, false,
    by decide +kernel, by decide +kernel, by decide +kernel, by decide +kernel, by rw [if_neg fun h => h rfl]; decide +kernel⟩,
   ⟨asking, { helloMsg asking with want := 2#8 }, helloTag asking { helloMsg asking with want := 2#8 }, false,
    by decide +kernel, by decide +kernel, by decide +kernel, by decide +kernel, by rw [if_neg fun h => h rfl]; decide +kernel, by decide +kernel, by decide +kernel⟩⟩

theorem test_hypotheses_UnpairAndHandoverGiveTheRoleUp :
    (∃ (s : State) (p : Port), Live p s R.PAIR_CMD = true ∧ s.role = 0 ∧
      (s.role = 2 ∨ s.mode = CONFIGURE ∨ s.mode = STANDBY ∨ s.mode = HALT ∨ s.mode = SERVICE)) ∧
    (∃ (s : State) (p : Port), Live p s R.PAIR_CMD = true ∧ s.role = 1 ∧
      (s.role = 2 ∨ s.mode = CONFIGURE ∨ s.mode = STANDBY ∨ s.mode = HALT ∨ s.mode = SERVICE)) ∧
    (∃ (s : State) (p : Port), Live p s R.PAIR_CMD = true ∧ s.role = 2) ∧
    (∃ (s : State) (p : Port), Live p s R.PAIR_CMD = true ∧
      (¬ (s.role = 2 ∨ s.mode = CONFIGURE ∨ s.mode = STANDBY ∨ s.mode = HALT ∨ s.mode = SERVICE))) ∧
    (∃ (s : State) (p : Port), Live p s R.PAIR_CMD = true ∧ s.role = 1 ∧ s.on F.PAIR_STAT_peer_ok = true ∧
      (s.mode = FOLLOW ∨ s.mode = FORM ∨ s.mode = RIDE ∨ s.mode = STANDBY) ∧ droneOn s = true ∧ roleOk s = true) ∧
    (∃ (s : State) (p : Port), Live p s R.PAIR_CMD = true ∧ s.role = 1 ∧ s.on F.PAIR_STAT_peer_ok = true ∧
      (s.mode = FOLLOW ∨ s.mode = FORM ∨ s.mode = RIDE ∨ s.mode = STANDBY) ∧ droneOn s = true ∧ roleOk s = false) ∧
    (∃ (s : State), droneOn s = true ∧ s.role = 1 ∧ roleOk s = false ∧
      (s.hid.pair.roleHigh = true ∨ s.hid.pair.handover = true)) :=
  ⟨⟨up [setF F.SYS_MODE_STAT_mode STANDBY], Port.pcie, by decide +kernel⟩,
   ⟨up [setF F.SYS_MODE_STAT_role 1, setF F.SYS_MODE_STAT_mode STANDBY], Port.pcie, by decide +kernel⟩,
   ⟨up [setF F.SYS_MODE_STAT_role 2], Port.pcie, by decide +kernel⟩,
   ⟨live, Port.pcie, by decide +kernel⟩,
   ⟨up [setF F.SYS_MODE_STAT_role 1, setB F.PAIR_STAT_peer_ok, setF F.SYS_MODE_STAT_mode FOLLOW], Port.pcie, by decide +kernel⟩,
   ⟨up [setF F.SYS_MODE_STAT_role 1, setB F.PAIR_STAT_peer_ok, setF F.SYS_MODE_STAT_mode FOLLOW, setF F.DRONE_FAULT_wd 1], Port.pcie, by decide +kernel⟩,
   ⟨up [setF F.SYS_MODE_STAT_role 1, pairA fun x => { x with roleHigh := true }, setB F.DRONE_FAULT_clock], by decide +kernel⟩⟩

theorem test_hypotheses_SessionFramesAreCountedAndTaken :
    (∃ (s : State) (ctr : BitVec 40) (peer : Bool), pairOn s = true ∧ (s.on F.PAIR_STAT_peerrole = true → peer = true) ∧
      s.role ≠ 0 ∧ fullCtr s.hid.pair.rx ctr ≤ s.hid.pair.rx.toNat) ∧
    (∃ (s : State) (m : HeartMsg) (ctr : BitVec 40) (peer : Bool), pairOn s = true ∧
      (s.on F.PAIR_STAT_peerrole = true → peer = true) ∧ s.role = 2 ∧ s.hid.pair.rx.toNat < fullCtr s.hid.pair.rx ctr ∧
      (m : HeartMsg).role = 1#2 ∧ s.hid.pair.unable = false) ∧
    (∃ (s : State) (ctr : BitVec 40) (kind : Fin 6), pairOn s = true ∧ s.role = 2 ∧ s.hid.pair.unable = false ∧
      (kind : Fin 6) ≠ 0 ∧ s.hid.pair.rx.toNat < fullCtr s.hid.pair.rx ctr) ∧
    (∃ (s : State) (ctr : BitVec 40), pairOn s = true ∧ s.role = 2 ∧ s.hid.pair.rx.toNat < fullCtr s.hid.pair.rx ctr) ∧
    (∃ (s : State), pairOn s = true ∧ pairing s = true) ∧
    (∃ (s : State), pairLink s = true ∧ s.role ≠ 0) ∧
    (∃ (s : State) (kind : Fin 6), pairOn s = true ∧ (kind : Fin 6) ≠ 0 ∧ s.role = 1 ∧ s.hid.pair.misses < 3 ∧
      s.f F.PAIR_STAT_lanes = 0) ∧
    (∃ (s : State) (kind : Fin 6), pairOn s = true ∧ (kind : Fin 6) ≠ 0 ∧ s.role = 1 ∧ s.hid.pair.misses < 3 ∧
      s.f F.PAIR_STAT_lanes ≠ 0) ∧
    (∃ (s : State) (kind : Fin 6), pairOn s = true ∧ (kind : Fin 6) ≠ 0 ∧ (s.role ≠ 1 ∨ 3 ≤ s.hid.pair.misses)) ∧
    (∃ (s u : State), pairOn s = true ∧ s.on F.PAIR_STAT_peerrole = true ∧ exec .peerroleFall s = .next u) :=
  ⟨⟨up [setF F.SYS_MODE_STAT_role 1], 0#40, true, by decide +kernel⟩,
   ⟨up [setF F.SYS_MODE_STAT_role 2], { time := 0, role := 1#2, mode := 3, origin := 0, recovered := false, causes := 0 }, 1#40, true, by decide +kernel⟩,
   ⟨up [setF F.SYS_MODE_STAT_role 2], 1#40, 5, by decide +kernel⟩,
   ⟨up [setF F.SYS_MODE_STAT_role 2], 1#40, by decide +kernel⟩,
   ⟨up [setB F.PAIR_STAT_busy], by decide +kernel⟩,
   ⟨up [setF F.PAIR_STAT_lanes 3, setF F.SYS_MODE_STAT_role 1], by decide +kernel⟩,
   ⟨up [setF F.SYS_MODE_STAT_role 1], 5, by decide +kernel⟩,
   ⟨up [setF F.SYS_MODE_STAT_role 1, setF F.PAIR_STAT_lanes 1], 5, by decide +kernel⟩,
   ⟨live, 5, by decide +kernel⟩,
   ⟨up [setB F.PAIR_STAT_peerrole], _, by decide +kernel, by decide +kernel, rfl⟩⟩

theorem test_hypotheses_LosingThePeerTakesOver :
    (∃ (s : State) (peer : Bool), pairOn s = true ∧ (s.on F.PAIR_STAT_peerrole = true → peer = true) ∧ s.role ≠ 0 ∧
      s.hid.pair.misses ≠ 2) ∧
    (∃ (s : State) (peer : Bool), pairOn s = true ∧ (s.on F.PAIR_STAT_peerrole = true → peer = true) ∧ s.role ≠ 0 ∧
      s.hid.pair.misses = 2 ∧ s.role = 1) ∧
    (∃ (s : State) (peer : Bool), pairOn s = true ∧ (s.on F.PAIR_STAT_peerrole = true → peer = true) ∧ s.role ≠ 0 ∧
      s.hid.pair.misses = 2 ∧ s.role ≠ 1 ∧ peer = true) ∧
    (∃ (s : State) (peer : Bool), pairOn s = true ∧ (s.on F.PAIR_STAT_peerrole = true → peer = true) ∧ s.role ≠ 0 ∧
      s.hid.pair.misses = 2 ∧ s.role = 2 ∧ peer = false ∧ (droneOn s = true → roleOk s = true)) ∧
    (∃ (s : State), pairOn s = true ∧ pairing s = true) ∧
    (∃ (s : State), pairOn s = true ∧ s.hid.pair.roleHigh = true) ∧
    (∃ (s : State), pairOn s = true) :=
  ⟨⟨up [setF F.SYS_MODE_STAT_role 1], true, by decide +kernel⟩,
   ⟨up [setF F.SYS_MODE_STAT_role 1, pairA fun x => { x with misses := 2 }], true, by decide +kernel⟩,
   ⟨up [setF F.SYS_MODE_STAT_role 1, pairA fun x => { x with misses := 2 }, setF F.SYS_MODE_STAT_role 2], true, by decide +kernel⟩,
   ⟨up [setF F.SYS_MODE_STAT_role 1, pairA fun x => { x with misses := 2 }, setF F.SYS_MODE_STAT_role 2], false, by decide +kernel⟩,
   ⟨up [setB F.PAIR_STAT_busy], by decide +kernel⟩,
   ⟨up [pairA fun x => { x with roleHigh := true }], by decide +kernel⟩,
   ⟨live, by decide +kernel⟩⟩

theorem test_hypotheses_CanControlAndErrorsMoveTheState :
    (∃ (s : State) (p : Port) (k : Fin 4) (v : Word), Live p s (R.CAN_CTL k) = true ∧ s.on (F.CAN_CTL_en k) = false ∧
      v.getLsbD 3 = false ∧ (canSt s k).cur = none ∧ canState s k = 0 ∧ k ≠ 3 ∧ (v : Word).toNat / 2 % 4 = 1) ∧
    (∃ (s : State) (p : Port) (k : Fin 4) (v : Word), Live p s (R.CAN_CTL k) = true ∧ s.on (F.CAN_CTL_en k) = false ∧
      v.getLsbD 3 = false ∧ (canSt s k).cur = none ∧ canState s k = 0 ∧ (¬ (k ≠ 3 ∧ (v : Word).toNat / 2 % 4 = 1)) ∧
      timingOk s k = false) ∧
    (∃ (s : State) (p : Port) (k : Fin 4) (v : Word), Live p s (R.CAN_CTL k) = true ∧ s.on (F.CAN_CTL_en k) = false ∧
      v.getLsbD 3 = false ∧ (canSt s k).cur = none ∧ canState s k = 0 ∧ (¬ (k ≠ 3 ∧ (v : Word).toNat / 2 % 4 = 1)) ∧
      timingOk s k = true) ∧
    (∃ (s : State) (p : Port) (k : Fin 4) (v : Word), Live p s (R.CAN_CTL k) = true ∧ v.getLsbD 3 = false ∧ canState s k ≠ 5) ∧
    (∃ (s : State) (p : Port) (k : Fin 4) (v : Word), Live p s (R.CAN_CTL k) = true ∧ s.on (F.CAN_CTL_en k) = true ∧
      v.getLsbD 0 = true ∧ (¬ (k ≠ 3 ∧ (v : Word).toNat / 2 % 4 = 1)) ∧
      (canSt s k).wakeT.map (·.toNat / 10) ≠ some (s.now.toNat / 10) ∧ (canState s k = 2 ∨ canState s k = 3) ∧ k = 3) ∧
    (∃ (s : State) (p : Port) (k : Fin 4) (v : Word), Live p s (R.CAN_CTL k) = true ∧ s.on (F.CAN_CTL_en k) = true ∧
      v.getLsbD 0 = true ∧ (¬ (k ≠ 3 ∧ (v : Word).toNat / 2 % 4 = 1)) ∧
      (canSt s k).wakeT.map (·.toNat / 10) ≠ some (s.now.toNat / 10) ∧ (canState s k = 2 ∨ canState s k = 3) ∧ k ≠ 3 ∧
      v.toNat / 32 % 4 = 2 ∧ v.getLsbD 4 = true) ∧
    (∃ (s : State) (p : Port) (k : Fin 4) (v : Word), Live p s (R.CAN_CTL k) = true ∧ s.on (F.CAN_CTL_en k) = true ∧
      v.getLsbD 0 = true ∧ (¬ (k ≠ 3 ∧ (v : Word).toNat / 2 % 4 = 1)) ∧
      (canSt s k).wakeT.map (·.toNat / 10) ≠ some (s.now.toNat / 10) ∧ (canState s k = 2 ∨ canState s k = 3) ∧ k ≠ 3 ∧
      (¬ (v.toNat / 32 % 4 = 2 ∧ v.getLsbD 4 = true))) ∧
    (∃ (s : State) (p : Port) (k : Fin 4) (v : Word), Live p s (R.CAN_CTL k) = true ∧ s.on (F.CAN_CTL_en k) = true ∧
      v.getLsbD 0 = true ∧ v.getLsbD 3 = false ∧ canState s k = 4) ∧
    (∃ (s : State) (k : Fin 4) (e : CanFault) (data : Bool), canActive s k = true ∧ s.on (F.CAN_CTL_en k) = true ∧
      (canSt s k).sleepReq = false ∧ (canSt s k).cur.isSome ∧ e ≠ .ack ∧ (e ≠ .stuff ∨ data = true)) ∧
    (∃ (s : State) (k : Fin 4), canActive s k = true ∧ s.on (F.CAN_CTL_en k) = true ∧ (canSt s k).sleepReq = false ∧
      ((canSt s k).cur.isSome) = false) ∧
    (∃ (s : State) (k : Fin 4) (e : CanFault), canActive s k = true ∧ s.on (F.CAN_CTL_en k) = true ∧
      (canSt s k).sleepReq = false ∧ e = .res ∧ s.on (F.CAN_CTL_pex_dis k) = false) ∧
    (∃ (s : State) (k : Fin 4) (e : CanFault), canActive s k = true ∧ s.on (F.CAN_CTL_en k) = true ∧
      (canSt s k).sleepReq = false ∧ (¬ (e = .res ∧ s.on (F.CAN_CTL_pex_dis k) = false))) ∧
    (∃ (s : State) (k : Fin 4), canOn s = true ∧ canState s k = 4 ∧ (canSt s k).recovering = true ∧ canFree s k) ∧
    (∃ (s : State) (k : Fin 4), canOn s = true ∧ canState s k = 1 ∧ canFree s k) ∧
    (∃ (s : State) (k : Fin 4) (us : BitVec 16), canOn s = true ∧ canState s k = 5 ∧
      ((fun us : BitVec 16 => (s.f (F.CAN_CTL_wake_mode k)) = 1 ∧ max 1 (s.f (F.CAN_WAKE_CFG_filt k)) ≤ us.toNat) us)) ∧
    (∃ (s : State) (k : Fin 4) (us : BitVec 16), canOn s = true ∧ canState s k = 5 ∧
      (¬ (fun us : BitVec 16 => (s.f (F.CAN_CTL_wake_mode k)) = 1 ∧ max 1 (s.f (F.CAN_WAKE_CFG_filt k)) ≤ us.toNat) us)) ∧
    (∃ (s : State) (k : Fin 4) (m : CanMsg) (good : Bool), canOn s = true ∧ canState s k = 5 ∧
      (s.f (F.CAN_CTL_wake_mode k)) = 2 ∧ (good = false ∨ m.brs = true)) ∧
    (∃ (s : State) (k : Fin 4) (m : CanMsg) (good : Bool), canOn s = true ∧ canState s k = 5 ∧
      (s.f (F.CAN_CTL_wake_mode k)) = 2 ∧ good = true ∧ m.brs = false ∧ wakeFrame s k m = true) ∧
    (∃ (s : State) (k : Fin 4) (m : CanMsg) (good : Bool), canOn s = true ∧ canState s k = 5 ∧
      (s.f (F.CAN_CTL_wake_mode k)) = 2 ∧ good = true ∧ m.brs = false ∧ wakeFrame s k m = false) ∧
    (∃ (s : State) (k : Fin 4) (p : Port) (v : Word), canOn s = true ∧ canState s k = 5 ∧ Live p s (R.CAN_CTL k) = true ∧
      s.on (F.CAN_CTL_en k) = true ∧ (v : Word).getLsbD 0 = true ∧ (canSt s k).cur = none) :=
  ⟨⟨up [setF (F.CAN_STAT_state 2) 0], Port.pcie, 2, 2#32, by decide +kernel⟩,
   ⟨up [setF (F.CAN_STAT_state 3) 0, setF (F.CAN_NBT_tseg1 3) 0, setF (F.CAN_NBT_brp 3) 0], Port.pcie, 3, 0#32, by decide +kernel⟩,
   ⟨up [setF (F.CAN_STAT_state 3) 0], Port.pcie, 3, 0#32, by decide +kernel⟩,
   ⟨live, Port.pcie, 3, 0#32, by decide +kernel⟩,
   ⟨up [setB (F.CAN_CTL_en 3), setF (F.CAN_STAT_state 3) 2], Port.pcie, 3, 0x1#32, by decide +kernel⟩,
   ⟨up [setB (F.CAN_CTL_en 2), setF (F.CAN_STAT_state 2) 2], Port.pcie, 2, 0x51#32, by decide +kernel⟩,
   ⟨up [setB (F.CAN_CTL_en 2), setF (F.CAN_STAT_state 2) 2], Port.pcie, 2, 0x21#32, by decide +kernel⟩,
   ⟨up [setB (F.CAN_CTL_en 3), setF (F.CAN_STAT_state 3) 4], Port.pcie, 3, 0x1#32, by decide +kernel⟩,
   ⟨up [setF (F.CAN_STAT_state 3) 2, setB (F.CAN_CTL_en 3), canA 3 fun x => { x with cur := some (.mb 63, 0#64) }], 3, .form, true, by decide +kernel⟩,
   ⟨up [setF (F.CAN_STAT_state 3) 2, setB (F.CAN_CTL_en 3)], 3, by decide +kernel⟩,
   ⟨up [setF (F.CAN_STAT_state 3) 2, setB (F.CAN_CTL_en 3)], 3, .res, by decide +kernel⟩,
   ⟨up [setF (F.CAN_STAT_state 3) 2, setB (F.CAN_CTL_en 3)], 3, .stuff, by decide +kernel⟩,
   ⟨up [setF (F.CAN_STAT_state 3) 4, setB (F.CAN_CTL_en 3), canA 3 fun x => { x with recovering := true }], 3, by unfold canFree; decide +kernel⟩,
   ⟨up [setF (F.CAN_STAT_state 3) 1, setB (F.CAN_CTL_en 3)], 3, by unfold canFree; decide +kernel⟩,
   ⟨up [setF (F.CAN_STAT_state 2) 5, setF (F.CAN_CTL_wake_mode 2) 1], 2, 0xFFFF#16, by decide +kernel⟩,
   ⟨up [setF (F.CAN_STAT_state 3) 5], 3, 0#16, by decide +kernel⟩,
   ⟨up [setF (F.CAN_STAT_state 3) 5, setF (F.CAN_CTL_wake_mode 3) 2], 3, ({ ide := false, id := 0, rtr := false, fdf := false, brs := false, esi := false, dlc := 0, data := [] } : CanMsg), false, by decide +kernel⟩,
   ⟨up [setF (F.CAN_STAT_state 3) 5, setF (F.CAN_CTL_wake_mode 3) 2], 3, ({ ide := false, id := 0, rtr := false, fdf := false, brs := false, esi := false, dlc := 0, data := [] } : CanMsg), true, by decide +kernel⟩,
   ⟨up [setF (F.CAN_STAT_state 3) 5, setF (F.CAN_CTL_wake_mode 3) 2, setF (F.CAN_WAKE_CFG_dlc 3) 1], 3, ({ ide := false, id := 0, rtr := false, fdf := false, brs := false, esi := false, dlc := 0, data := [] } : CanMsg), true, by decide +kernel⟩,
   ⟨up [setF (F.CAN_STAT_state 3) 5, setB (F.CAN_CTL_en 3)], 3, Port.pcie, 0x1#32, by decide +kernel⟩⟩

theorem test_hypotheses_CanFramesAreRouted :
    (∃ (s : State) (k : Fin 4) (m : CanMsg) (b : Fin 64), canActive s k = true ∧ canFree s k ∧ mbTakes s k b m = true ∧
      (∀ c : Fin 64, c < b → mbTakes s k c m = false)) ∧
    (∃ (s : State) (k : Fin 4) (m : CanMsg), canActive s k = true ∧ canFree s k ∧ (∀ b : Fin 64, mbTakes s k b m = false) ∧
      (fifoPasses s k m) = true ∧ ((canSt s k).fifo).length < 32) ∧
    (∃ (s : State) (k : Fin 4) (m : CanMsg), canActive s k = true ∧ canFree s k ∧ (∀ b : Fin 64, mbTakes s k b m = false) ∧
      (fifoPasses s k m) = true ∧ 32 ≤ ((canSt s k).fifo).length) ∧
    (∃ (s : State) (k : Fin 4) (m : CanMsg), canActive s k = true ∧ canFree s k ∧ (∀ b : Fin 64, mbTakes s k b m = false) ∧
      (fifoPasses s k m) = false) ∧
    (∃ (s : State) (p : Port) (k : Fin 4), Live p s (R.CAN_RXF_POP k) = true) ∧
    (∃ (s : State) (p : Port) (k : Fin 4) (b : Fin 64), Live p s (R.CAN_MB_CFG k b) = true ∧
      s.on (F.CAN_MB_CFG_pend k b) = true) ∧
    (∃ (s : State) (p : Port) (k : Fin 4) (b : Fin 64), Live p s (R.CAN_MB_CFG k b) = true ∧
      s.on (F.CAN_MB_CFG_pend k b) = false) :=
  ⟨⟨up [setF (F.CAN_STAT_state 3) 2, setB (F.CAN_CTL_en 3), setF (F.CAN_MB_CFG_dir 3 63) 2], 3, ({ ide := false, id := 0, rtr := false, fdf := false, brs := false, esi := false, dlc := 0, data := [] } : CanMsg), 63, by unfold canFree; decide +kernel⟩,
   ⟨up [setF (F.CAN_STAT_state 3) 2, setB (F.CAN_CTL_en 3), setB (F.CAN_RXF_CTL_en 3)], 3, ({ ide := false, id := 0, rtr := false, fdf := false, brs := false, esi := false, dlc := 0, data := [] } : CanMsg), by unfold canFree; decide +kernel⟩,
   ⟨up [setF (F.CAN_STAT_state 3) 2, setB (F.CAN_CTL_en 3), setB (F.CAN_RXF_CTL_en 3), canA 3 fun x => { x with fifo := List.replicate 32 (({ ide := false, id := 0, rtr := false, fdf := false, brs := false, esi := false, dlc := 0, data := [] } : CanMsg), 0#64) }], 3, ({ ide := false, id := 0, rtr := false, fdf := false, brs := false, esi := false, dlc := 0, data := [] } : CanMsg), by unfold canFree; decide +kernel⟩,
   ⟨up [setF (F.CAN_STAT_state 3) 2, setB (F.CAN_CTL_en 3)], 3, ({ ide := false, id := 0, rtr := false, fdf := false, brs := false, esi := false, dlc := 0, data := [] } : CanMsg), by unfold canFree; decide +kernel⟩,
   ⟨live, Port.pcie, 3, by decide +kernel⟩,
   ⟨up [setB (F.CAN_MB_CFG_pend 3 63)], Port.pcie, 3, 63, by decide +kernel⟩,
   ⟨live, Port.pcie, 3, 63, by decide +kernel⟩⟩

theorem test_hypotheses_CanTransmitsByArbitration :
    (∃ (s : State) (p : Port) (k : Fin 4) (hi : Bool), Live p s (if hi then R.CAN_TXRQ_HI k else R.CAN_TXRQ_LO k) = true) ∧
    (∃ (s : State) (k : Fin 4), canOn s = true ∧ canActive s k = true ∧ (canSt s k).cur = none ∧
      s.on (F.CAN_CTL_en k) = true ∧ (canSt s k).listen = false ∧
      (∀ b, (fun b : Fin 64 => s.on (F.CAN_MB_CFG_pend k b)) b = false) ∧ ((s.f F.CAN_NT_CFG_ctrl = k) → s.hid.nt.ref = none)) ∧
    (∃ (s : State) (k : Fin 4) (b : Fin 64), canOn s = true ∧ canActive s k = true ∧ (canSt s k).cur = none ∧
      s.on (F.CAN_CTL_en k) = true ∧ (canSt s k).listen = false ∧ (canSt s k).sleepReq = false ∧
      ((fun b => (fun b : Fin 64 => s.on (F.CAN_MB_CFG_pend k b)) b = true ∧
      ∀ c, (fun b : Fin 64 => s.on (F.CAN_MB_CFG_pend k b)) c = true → (fun b : Fin 64 => arbRank (s.on (F.CAN_MB_ID_ide k b)) (s.f (F.CAN_MB_ID_id k b))) b < (fun b : Fin 64 => arbRank (s.on (F.CAN_MB_ID_ide k b)) (s.f (F.CAN_MB_ID_id k b))) c ∨ (fun b : Fin 64 => arbRank (s.on (F.CAN_MB_ID_ide k b)) (s.f (F.CAN_MB_ID_id k b))) b = (fun b : Fin 64 => arbRank (s.on (F.CAN_MB_ID_ide k b)) (s.f (F.CAN_MB_ID_id k b))) c ∧
      b ≤ c) b) ∧ ((s.f F.CAN_NT_CFG_ctrl = k) → ∀ m, s.hid.nt.ref = some m → (fun b : Fin 64 => arbRank (s.on (F.CAN_MB_ID_ide k b)) (s.f (F.CAN_MB_ID_id k b))) b ≤ arbRank m.ide m.id.toNat)) ∧
    (∃ (s : State) (k : Fin 4) (m : CanMsg), canOn s = true ∧ canActive s k = true ∧ (canSt s k).cur = none ∧
      s.on (F.CAN_CTL_en k) = true ∧ (canSt s k).listen = false ∧ (canSt s k).sleepReq = false ∧ s.f F.CAN_NT_CFG_ctrl = k ∧
      s.hid.nt.ref = some m ∧ (∀ c, (fun b : Fin 64 => s.on (F.CAN_MB_CFG_pend k b)) c = true → arbRank m.ide m.id.toNat < (fun b : Fin 64 => arbRank (s.on (F.CAN_MB_ID_ide k b)) (s.f (F.CAN_MB_ID_id k b))) c)) ∧
    (∃ (s : State) (k : Fin 4), canOn s = true ∧ canActive s k = true ∧ (canSt s k).cur = none ∧
      s.on (F.CAN_CTL_en k) = true ∧ (canSt s k).listen = false ∧ (canSt s k).sleepReq = true ∧
      (∃ b, (fun b : Fin 64 => s.on (F.CAN_MB_CFG_pend k b)) b = true)) ∧
    (∃ (s : State) (k : Fin 4) (b : Fin 64) (t0 : BitVec 64), s.on (F.CAN_CTL_en k) = true ∧ (canSt s k).sleepReq = false ∧
      (canSt s k).cur = some (.mb b, t0)) ∧
    (∃ (s : State) (k : Fin 4) (q : CanMsg) (t0 : BitVec 64), s.on (F.CAN_CTL_en k) = true ∧ (canSt s k).sleepReq = false ∧
      (canSt s k).cur = some (.ref q, t0)) ∧
    (∃ (s : State) (p : Port) (k : Fin 4) (hi : Bool), Live p s (if hi then R.CAN_CANCEL_HI k else R.CAN_CANCEL_LO k) = true) :=
  ⟨⟨live, Port.pcie, 3, true, by decide +kernel⟩,
   ⟨up [setF (F.CAN_STAT_state 3) 2, setB (F.CAN_CTL_en 3)], 3, by decide +kernel⟩,
   ⟨up [setF (F.CAN_STAT_state 3) 2, setB (F.CAN_CTL_en 3), setB (F.CAN_MB_CFG_pend 3 63)], 3, 63, by decide +kernel⟩,
   ⟨up [setF (F.CAN_STAT_state 3) 2, setB (F.CAN_CTL_en 3), setF F.CAN_NT_CFG_ctrl 3, ntA fun x => { x with ref := some ({ ide := false, id := 0, rtr := false, fdf := false, brs := false, esi := false, dlc := 0, data := [] } : CanMsg) }], 3, ({ ide := false, id := 0, rtr := false, fdf := false, brs := false, esi := false, dlc := 0, data := [] } : CanMsg), by decide +kernel⟩,
   ⟨up [setF (F.CAN_STAT_state 3) 2, setB (F.CAN_CTL_en 3), setB (F.CAN_MB_CFG_pend 3 63), canA 3 fun x => { x with sleepReq := true }], 3, by decide +kernel⟩,
   ⟨at0 [setB (F.CAN_CTL_en 3), canA 3 fun x => { x with cur := some (.mb 63, 0#64) }], 3, 63, 0#64, by decide +kernel⟩,
   ⟨at0 [setB (F.CAN_CTL_en 3), canA 3 fun x => { x with cur := some (.ref ({ ide := false, id := 0, rtr := false, fdf := false, brs := false, esi := false, dlc := 0, data := [] } : CanMsg), 0#64) }], 3, ({ ide := false, id := 0, rtr := false, fdf := false, brs := false, esi := false, dlc := 0, data := [] } : CanMsg), 0#64, by decide +kernel⟩,
   ⟨live, Port.pcie, 3, true, by decide +kernel⟩⟩

theorem test_hypotheses_PendingMailboxesRefuseWritesAndRequests :
    (∃ (s : State) (p : Port) (k : Fin 4) (b : Fin 64) (off : Nat), s.on (F.CAN_MB_CFG_pend k b) = true ∧
      (off = R.CAN_MB_CFG k b ∨ off = R.CAN_MB_ID k b ∨ off = R.CAN_MB_MASK k b ∨ ∃ w : Fin 16, off = R.CAN_MB_DATA k b w) ∧
      Live p s off = true) ∧
    (∃ (s : State) (p : Port) (k : Fin 4) (b : Fin 64), s.on (F.CAN_MB_CFG_pend k b) = true ∧
      Live p s (R.CAN_MB_CFG k b) = true) ∧
    (∃ (s : State) (p : Port) (k : Fin 4) (hi : Bool) (v : Word) (i : Fin 32), Live p s (if hi then R.CAN_TXRQ_HI k else R.CAN_TXRQ_LO k) = true ∧
      (v : Word).getLsbD i = true ∧ s.f (F.CAN_MB_CFG_dir k (i.val + 32 * b2n hi)) ≠ 1) :=
  ⟨⟨up [setB (F.CAN_MB_CFG_pend 3 63)], Port.pcie, 3, 63, R.CAN_MB_CFG 3 63, by decide +kernel⟩,
   ⟨up [setB (F.CAN_MB_CFG_pend 3 63)], Port.pcie, 3, 63, by decide +kernel⟩,
   ⟨live, Port.pcie, 3, true, 0x80000000#32, 31, by decide +kernel⟩⟩

theorem test_hypotheses_NetworkTimeMasterAndSlaveKeepTime :
    (∃ (s : State) (p : Port) (v : Word), Live p s R.CAN_NT_CFG = true ∧ ((v : Word).toNat % 4) = 2 ∧
      ((canSt s (v.toNat / 4 % 4)).listen = true ∨ s.on (F.CAN_CTL_en (v.toNat / 4 % 4)) = false ∨ canState s (v.toNat / 4 % 4) = 5)) ∧
    (∃ (s : State) (p : Port) (v : Word), Live p s R.CAN_NT_CFG = true ∧ (¬ (((v : Word).toNat % 4) = 2 ∧
      ((canSt s (v.toNat / 4 % 4)).listen = true ∨ s.on (F.CAN_CTL_en (v.toNat / 4 % 4)) = false ∨ canState s (v.toNat / 4 % 4) = 5)))) ∧
    (∃ (s : State), canOn s = true ∧ ntRole s = 2) ∧
    (∃ (s : State) (p : Port), Live p s R.CAN_NT_SET = true ∧ ntRole s = 2) ∧
    (∃ (s : State) (p : Port), Live p s R.CAN_NT_SET = true ∧ ntRole s ≠ 2) ∧
    (∃ (s : State) (m : CanMsg), canActive s (s.f F.CAN_NT_CFG_ctrl) = true ∧ refGood s m = true ∧ ntRole s = 2) ∧
    (∃ (s : State) (m : CanMsg) (q : Nat) (tq : Rat) (t1 : BitVec 64), canActive s (s.f F.CAN_NT_CFG_ctrl) = true ∧
      refGood s m = true ∧ ntRole s = 1 ∧ s.hid.nt.last = some (q, tq, t1) ∧ (¬ ((q + 1) % 256 = msgByte m 1 ∧
      msgByte m 2 % 2 = 1))) ∧
    (∃ (s : State) (m : CanMsg) (q : Nat) (tq : Rat) (t1 : BitVec 64), canActive s (s.f F.CAN_NT_CFG_ctrl) = true ∧
      refGood s m = true ∧ ntRole s = 1 ∧ s.hid.nt.last = some (q, tq, t1) ∧ (q + 1) % 256 = msgByte m 1 ∧
      msgByte m 2 % 2 = 1) ∧
    (∃ (s : State), canOn s = true ∧ ntRole s = 1 ∧ (s.f F.CAN_NT_STAT_state = 1 ∨ s.f F.CAN_NT_STAT_state = 2) ∧
      (∀ p, s.hid.nt.pairT = some p → 2400000 * p.2 ≤ (s.now - p.1).toNat)) :=
  ⟨⟨live, Port.pcie, 2#32, by decide +kernel⟩,
   ⟨live, Port.pcie, 0#32, by decide +kernel⟩,
   ⟨up [setF F.CAN_NT_CFG_role 2], by decide +kernel⟩,
   ⟨up [setF F.CAN_NT_CFG_role 2], Port.pcie, by decide +kernel⟩,
   ⟨live, Port.pcie, by decide +kernel⟩,
   ⟨up [setF F.CAN_NT_CFG_role 2, setF (F.CAN_STAT_state 0) 2, setF F.CAN_NT_CFG_role 2], ({ ide := false, id := 0, rtr := false, fdf := true, brs := false, esi := false, dlc := 9, data := [1, 0, 0, 1, 0, 0, 0, 0, 0, 0, 0, 0] } : CanMsg), by decide +kernel⟩,
   ⟨up [setF F.CAN_NT_CFG_role 1, setF (F.CAN_STAT_state 0) 2, setF F.CAN_NT_CFG_role 1, ntA fun x => { x with last := some (7, 0) }], ({ ide := false, id := 0, rtr := false, fdf := true, brs := false, esi := false, dlc := 9, data := [1, 0, 0, 1, 0, 0, 0, 0, 0, 0, 0, 0] } : CanMsg), 7, 0, 0#64, by decide +kernel⟩,
   ⟨up [setF F.CAN_NT_CFG_role 1, setF (F.CAN_STAT_state 0) 2, setF F.CAN_NT_CFG_role 1, ntA fun x => { x with last := some (0, 0) }], ({ ide := false, id := 0, rtr := false, fdf := true, brs := false, esi := false, dlc := 9, data := [1, 1, 1, 1, 0, 0, 0, 0, 0, 0, 0, 0] } : CanMsg), 0, 0, 0#64, by decide +kernel⟩,
   ⟨up [setF F.CAN_NT_CFG_role 1, setF F.CAN_NT_STAT_state 1], by decide +kernel⟩⟩

theorem test_hypotheses_PcieRequestsReachRegistersAndMemory :
    (∃ (s : State) (a : BitVec 26) (be : BitVec 4), s.up = true ∧ s.hid.host.cfg.d3 = false ∧ a.toNat % 4 = 0 ∧ be ≠ 15#4) ∧
    (∃ (s : State) (a : BitVec 26), s.up = true ∧ s.hid.host.cfg.d3 = false ∧ a.toNat % 4 = 0 ∧ regAt a.toNat = none) ∧
    (∃ (s : State), s.up = true ∧ s.hid.host.cfg.d3 = true) ∧
    (∃ (s : State) (x : BitVec 28) (n : Nat), s.up = true ∧ s.hid.host.cfg.d3 = false ∧ s.island 12 = true ∧
      memReady s = true ∧ n ≤ 8 ∧ (s.rd64 R.HOST_WIN_BASE).toNat + x.toNat + n ≤ memSize s) ∧
    (∃ (s : State) (x : BitVec 28), s.up = true ∧ s.hid.host.cfg.d3 = false ∧ s.island 12 = true ∧ memReady s = true ∧
      recRunning s = false ∧ (s.rd64 R.HOST_WIN_BASE).toNat + x.toNat + 3 ≤ memSize s) ∧
    (∃ (s : State), s.up = true ∧ s.hid.host.cfg.d3 = false ∧ memReady s = false) ∧
    (∃ (s : State), s.up = true ∧ s.hid.host.cfg.d3 = false ∧ memReady s = true ∧ s.island 12 = false) ∧
    (∃ (s : State) (x : BitVec 28), s.up = true ∧ s.hid.host.cfg.d3 = false ∧ memReady s = true ∧ s.island 12 = true ∧
      memSize s ≤ (s.rd64 R.HOST_WIN_BASE).toNat + x.toNat) ∧
    (∃ (s : State), s.up = true ∧ s.hid.host.cfg.d3 = true) ∧
    (∃ (s : State) (a : BitVec 26) (r : RegAt), s.up = true ∧ s.hid.host.cfg.d3 = false ∧ a.toNat % 4 = 0 ∧
      regAt a.toNat = some r ∧ s.hid.pwr.dumpOnly = false ∧ regLive s r = false) ∧
    (∃ (s : State) (a : BitVec 26) (r : RegAt), s.up = true ∧ s.hid.host.cfg.d3 = false ∧ a.toNat % 8 = 0 ∧
      regAt a.toNat = some r ∧ wideAt a.toNat = true ∧ s.hid.pwr.dumpOnly = false ∧ regLive s r = false) :=
  ⟨⟨up [hidA fun h => { h with host := { h.host with cfg := { h.host.cfg with d3 := false } } }], 0#26, 0#4, by decide +kernel⟩,
   ⟨up [hidA fun h => { h with host := { h.host with cfg := { h.host.cfg with d3 := false } } }], 0x1234#26, by decide +kernel⟩,
   ⟨up [hidA fun h => { h with host := { h.host with cfg := { h.host.cfg with d3 := true } } }], by decide +kernel⟩,
   ⟨up [hidA fun h => { h with host := { h.host with cfg := { h.host.cfg with d3 := false } } }, pwrA fun x => { x with st := .full }, setB F.MEMC_STAT_ready], 0#28, 0, by decide +kernel⟩,
   ⟨up [hidA fun h => { h with host := { h.host with cfg := { h.host.cfg with d3 := false } } }, pwrA fun x => { x with st := .full }, setB F.MEMC_STAT_ready], 0#28, by decide +kernel⟩,
   ⟨up [hidA fun h => { h with host := { h.host with cfg := { h.host.cfg with d3 := false } } }], by decide +kernel⟩,
   ⟨up [pwrA fun x => { x with st := .full }, setB F.MEMC_STAT_ready, setW R.SYS_ISLAND_EN 0x07FFEFFF#32], by decide +kernel⟩,
   ⟨up [pwrA fun x => { x with st := .full }, setB F.MEMC_STAT_ready, set64 R.HOST_WIN_BASE 0x1FFFFFFFF#64], 0#28, by decide +kernel⟩,
   ⟨up [hidA fun h => { h with host := { h.host with cfg := { h.host.cfg with d3 := true } } }], by decide +kernel⟩,
   ⟨up [setW R.SYS_ISLAND_EN 0#32], BitVec.ofNat 26 (R.WIN_M_EVENT 31), (regAt (R.WIN_M_EVENT 31)).get (by decide +kernel), by decide +kernel⟩,
   ⟨up [setW R.SYS_ISLAND_EN 0#32], BitVec.ofNat 26 (R.METER_PT_WIN_TS 1), (regAt (R.METER_PT_WIN_TS 1)).get (by decide +kernel), by decide +kernel⟩⟩

theorem test_hypotheses_SpiLinkVectorsAndDoorbellsAct :
    (∃ (s : State) (v : Word) (crc : Byte) (a : BitVec 32), a = BitVec.ofNat 32 R.HARV_RESERVE ∧
      Live .spi s R.HARV_RESERVE = true ∧ (s.on F.HOST_CFG_spi_crc = true → crc8 (2#8 :: (beBytes a ++ beBytes v)) = crc)) ∧
    (∃ (s : State) (a : Word) (v : Word) (crc : Byte), s.up = true ∧ s.on F.HOST_CFG_spi_crc = true ∧
      crc8 (2#8 :: (beBytes a ++ beBytes v)) ≠ crc) ∧
    (∃ (s : State) (crc : Byte) (a : BitVec 32), a = BitVec.ofNat 32 R.SYS_ID ∧ s.up = true ∧
      (s.on F.HOST_CFG_spi_crc = true → crc8 (3#8 :: beBytes a) = crc)) ∧
    (∃ (s : State) (crc : Byte) (a : BitVec 32), a = BitVec.ofNat 32 R.SYS_ID ∧ s.up = true ∧
      (s.on F.HOST_CFG_spi_crc = true → crc8 (0x0B#8 :: beBytes a) = crc)) ∧
    (∃ (s : State), s.up = true) ∧
    (∃ (s : State) (src : Fin 80) (v : Nat), v = routeVec s src ∧ s.island 13 = true ∧ routeEn s src = true ∧
      rises true src s = true ∧ vecPending s v = false) ∧
    (∃ (s : State) (src : Fin 80) (v : Nat), v = routeVec s src ∧ s.island 13 = true ∧ routeEn s src = true ∧
      rises true src s = true ∧ vecPending s v = true ∧ (s.rd (R.HOST_VEC_ACK v)).toNat % 256 ≠ 255) ∧
    (∃ (s : State) (src : Fin 80), rises true src s = false) ∧
    (∃ (s : State) (p : Port) (v : Fin 32), Live p s (R.HOST_VEC_ACK v) = true ∧
      ((List.range 80).any fun i => routeEn s i && routeVec s i = v && irqSummary s true i) = false) ∧
    (∃ (s : State) (p : Port) (v : Fin 32), Live p s (R.HOST_VEC_ACK v) = true ∧
      ((List.range 80).any fun i => routeEn s i && routeVec s i = v && irqSummary s true i) = true) ∧
    (∃ (s : State) (p : Port) (f2h : Bool) (off : Nat), off = (if f2h then R.HOST_DB_F2H else R.HOST_DB_H2F) ∧
      Live p s off = true) :=
  ⟨⟨live, 0#32, 0#8, (BitVec.ofNat 32 R.HARV_RESERVE), by decide +kernel⟩,
   ⟨up [setB F.HOST_CFG_spi_crc], 0#32, 0#32, 0#8, by decide +kernel⟩,
   ⟨live, 0#8, (BitVec.ofNat 32 R.SYS_ID), by decide +kernel⟩,
   ⟨live, 0#8, (BitVec.ofNat 32 R.SYS_ID), by decide +kernel⟩,
   ⟨live, by decide +kernel⟩,
   ⟨at0 [setB (F.HOST_IRQ_ROUTE_en 0), setB F.SYS_PWR_STAT_done], 0, (routeVec (at0 [setB (F.HOST_IRQ_ROUTE_en 0), setB F.SYS_PWR_STAT_done]) 0), by decide +kernel⟩,
   ⟨at0 [setB (F.HOST_IRQ_ROUTE_en 0), setB F.SYS_PWR_STAT_done, setB (F.HOST_VEC_ACK_pending 0)], 0, (routeVec (at0 [setB (F.HOST_IRQ_ROUTE_en 0), setB F.SYS_PWR_STAT_done, setB (F.HOST_VEC_ACK_pending 0)]) 0), by decide +kernel⟩,
   ⟨State.reset, 79, by decide +kernel⟩,
   ⟨live, Port.pcie, 31, by decide +kernel⟩,
   ⟨up [setB F.SYS_PWR_STAT_done, setW (R.HOST_IRQ_ROUTE 0) 0xFFFFFFFF#32], Port.pcie, 31, by decide +kernel⟩,
   ⟨live, Port.pcie, true, ((if true then R.HOST_DB_F2H else R.HOST_DB_H2F)), by decide +kernel⟩⟩

theorem test_hypotheses_QspiOperationsChangeTheFlash :
    (∃ (s : State) (p : Port) (v : Word) (c : Instr), Live p s R.QSPI_CMD = true ∧ s.on F.QSPI_STAT_busy = true ∧
      c ∈ [Instr.qspiRead p v, .qspiProgram p v, .qspiEraseSector p v, .qspiEraseBlock p v]) ∧
    (∃ (s : State) (p : Port) (v : Word), Live p s R.QSPI_CMD = true ∧ s.on F.QSPI_STAT_busy = false ∧
      loadFromFlash s = false ∧ (((v : Word).toNat / 2 ^ 16 % 2 ^ 15) = 0 ∨ 16384 < ((v : Word).toNat / 2 ^ 16 % 2 ^ 15) ∨ flashSize s < (s.f F.QSPI_ADDR_addr) + ((v : Word).toNat / 2 ^ 16 % 2 ^ 15))) ∧
    (∃ (s : State) (p : Port) (v : Word), Live p s R.QSPI_CMD = true ∧ s.on F.QSPI_STAT_busy = false ∧
      loadFromFlash s = false ∧ 1 ≤ ((v : Word).toNat / 2 ^ 16 % 2 ^ 15) ∧ ((v : Word).toNat / 2 ^ 16 % 2 ^ 15) ≤ 16384 ∧
      (s.f F.QSPI_ADDR_addr) + ((v : Word).toNat / 2 ^ 16 % 2 ^ 15) ≤ flashSize s) ∧
    (∃ (s : State) (p : Port) (v : Word), Live p s R.QSPI_CMD = true ∧ s.on F.QSPI_STAT_busy = false ∧
      loadFromFlash s = false ∧ qspiRange s 2 (s.f F.QSPI_ADDR_addr) ((v : Word).toNat / 2 ^ 16 % 2 ^ 15) = true ∧
      flashAdmit s = 0) ∧
    (∃ (s : State) (p : Port), Live p s R.QSPI_CMD = true ∧ s.on F.QSPI_STAT_busy = false ∧ loadFromFlash s = false ∧
      (s.f F.QSPI_ADDR_addr) % 4096 = 0 ∧ (s.f F.QSPI_ADDR_addr) + 4096 ≤ flashSize s ∧ flashAdmit s = 0) ∧
    (∃ (s : State) (p : Port), Live p s R.QSPI_CMD = true ∧ s.on F.QSPI_STAT_busy = false ∧ loadFromFlash s = false ∧
      (s.f F.QSPI_ADDR_addr) % 65536 = 0 ∧ (s.f F.QSPI_ADDR_addr) + 65536 ≤ flashSize s ∧ flashAdmit s = 0) ∧
    (∃ (s : State) (p : Port) (v : Word), Live p s R.QSPI_CMD = true ∧ s.on F.QSPI_STAT_busy = false ∧
      loadFromFlash s = false ∧ flashAdmit s ≠ 0 ∧
      qspiRange s 2 (s.f F.QSPI_ADDR_addr) ((v : Word).toNat / 2 ^ 16 % 2 ^ 15) = true) ∧
    (∃ (s : State) (p : Port), Live p s R.QSPI_CMD = true ∧ s.on F.QSPI_STAT_busy = false ∧ loadFromFlash s = false ∧
      flashAdmit s ≠ 0 ∧ (s.f F.QSPI_ADDR_addr) % 4096 = 0 ∧ (s.f F.QSPI_ADDR_addr) + 4096 ≤ flashSize s) ∧
    (∃ (s : State) (p : Port), Live p s R.QSPI_CMD = true ∧ s.on F.QSPI_STAT_busy = false ∧ loadFromFlash s = false ∧
      flashAdmit s ≠ 0 ∧ (s.f F.QSPI_ADDR_addr) % 65536 = 0 ∧ (s.f F.QSPI_ADDR_addr) + 65536 ≤ flashSize s) ∧
    (∃ (s : State) (pages : Nat) (o : QspiOp), s.hid.mem.qspi = some o ∧ o.op = 2 ∧ o.len % 256 = 0 ∧ o.len ≤ 16384 ∧
      (s.island 12 = true ∨ o.len / 256 ≤ pages)) ∧
    (∃ (s : State) (o : QspiOp), s.hid.mem.qspi = some o ∧ o.op = 2 ∧ o.len % 256 = 0 ∧ o.len ≤ 16384) ∧
    (∃ (s : State) (o : QspiOp), s.hid.mem.qspi = some o ∧ o.op = 1 ∧ o.len ≤ 16384) ∧
    (∃ (s : State) (o : QspiOp), s.hid.mem.qspi = some o ∧ (o.op = 3 ∨ o.op = 4) ∧ s.wf = true) ∧
    (∃ (s : State) (o : QspiOp), s.hid.mem.qspi = some o ∧ (o.op = 3 ∨ o.op = 4)) ∧
    (∃ (s : State), memReady s = true ∧ s.island 12 = true) :=
  ⟨⟨up [setB F.QSPI_STAT_busy], Port.pcie, 0#32, (.qspiRead Port.pcie (0#32)), by decide +kernel⟩,
   ⟨live, Port.pcie, 0#32, by decide +kernel⟩,
   ⟨live, Port.pcie, 0x40000000#32, by decide +kernel⟩,
   ⟨up [setW R.HARV_E_FLASH 1#32], Port.pcie, 0x01000000#32, by decide +kernel⟩,
   ⟨up [setW R.HARV_E_FLASH 1#32], Port.pcie, by decide +kernel⟩,
   ⟨up [setW R.HARV_E_FLASH 1#32], Port.pcie, by decide +kernel⟩,
   ⟨up [setB F.HARV_BURST_STAT_busy], Port.pcie, 0x01000000#32, by decide +kernel⟩,
   ⟨up [setB F.HARV_BURST_STAT_busy], Port.pcie, by decide +kernel⟩,
   ⟨up [setB F.HARV_BURST_STAT_busy], Port.pcie, by decide +kernel⟩,
   ⟨up [memA fun x => { x with qspi := some ⟨2, 0, 1024⟩ }], 2, (⟨2, 0, 1024⟩ : QspiOp), by decide +kernel⟩,
   ⟨up [memA fun x => { x with qspi := some ⟨2, 0, 1024⟩ }], (⟨2, 0, 1024⟩ : QspiOp), by decide +kernel⟩,
   ⟨up [memA fun x => { x with qspi := some ⟨1, 0, 3⟩ }], (⟨1, 0, 3⟩ : QspiOp), by decide +kernel⟩,
   ⟨up [memA fun x => { x with qspi := some ⟨4, 0, 0⟩ }], (⟨4, 0, 0⟩ : QspiOp), by decide +kernel⟩,
   ⟨up [memA fun x => { x with qspi := some ⟨3, 0, 0⟩ }], (⟨3, 0, 0⟩ : QspiOp), by decide +kernel⟩,
   ⟨up [pwrA fun x => { x with st := .full }, setB F.MEMC_STAT_ready], by decide +kernel⟩⟩

theorem test_hypotheses_RecorderCapturesRecords :
    (∃ (s : State) (p : Port) (v : Word), Live p s R.REC_CTL = true ∧ v.toNat % 2 = 1 ∧ recAble s = false) ∧
    (∃ (s : State) (p : Port) (v : Word), Live p s R.REC_CTL = true ∧ v.toNat % 2 = 1 ∧ recAble s = true ∧
      recRunning s = false ∧ armedRegion s = none) ∧
    (∃ (s : State) (p : Port) (v : Word) (r : Nat), Live p s R.REC_CTL = true ∧ v.toNat % 2 = 1 ∧ recAble s = true ∧
      recRunning s = false ∧ armedRegion s = some r ∧ s.hid.recorder.burst = []) ∧
    (∃ (s : State) (p : Port) (v : Word), Live p s R.REC_CTL = true ∧ v.toNat % 2 = 0 ∧ recRunning s = true) ∧
    (∃ (s : State) (p : Port) (r : Fin 8), Live p s (R.REC_REG_STAT r) = true ∧ recRunning s = false ∧
      s.on F.REC_CTL_en = false) ∧
    (∃ (s : State) (p : Port) (r : Fin 8), Live p s (R.REC_REG_STAT r) = true ∧ recRunning s = true ∧
      s.f (F.REC_REG_STAT_state r) ≠ 1 ∧ r < s.f F.REC_STAT_region ∧ (∀ q, q < r.val → s.f (F.REC_REG_STAT_state q) ≠ 1) ∧
      s.hid.recorder.burst = [] ∧ (s.hid.recorder.kept.get (0, none) r).2 ≠ some 0) ∧
    (∃ (s : State) (n : Fin 64), recRunning s = true ∧ postDone s = false ∧ s.hid.recorder.drops.get 0 n ≠ 0 ∧
      s.hid.recorder.burst = []) ∧
    (∃ (s : State) (total : Nat), recRunning s = true ∧ postDone s = false ∧ allDropped s = true ∧
      total = (s.hid.recorder.drops.map (·.2)).foldl (· + ·) 0 ∧ total ≠ 0 ∧ s.hid.recorder.burst = []) ∧
    (∃ (s : State) (m : BitVec 7), recRunning s = true ∧
      (m : BitVec 7).toNat &&& s.hid.recorder.trigs &&& s.f F.REC_TRIG_MASK_mask = 0) ∧
    (∃ (s : State) (m : BitVec 7) (k : Nat), recRunning s = true ∧ s.hid.recorder.post = some (k + 1) ∧
      (m : BitVec 7).toNat &&& s.hid.recorder.trigs &&& s.f F.REC_TRIG_MASK_mask ≠ 0) ∧
    (∃ (s : State) (m : BitVec 7), recRunning s = true ∧ s.hid.recorder.post = none ∧ s.hid.recorder.burst.length < 7 ∧
      (m : BitVec 7).toNat &&& s.hid.recorder.trigs &&& s.f F.REC_TRIG_MASK_mask ≠ 0) ∧
    (∃ (s : State) (r : Nat), recRunning s = true ∧ s.hid.recorder.post = some 0 ∧ r = s.f F.REC_STAT_region) ∧
    (∃ (s : State) (p : Port) (a : Nat), Live p s R.REC_RD_DATA = true ∧ memReady s = true ∧
      a = (s.rd64 R.REC_RD_ADDR).toNat ∧ a + 4 ≤ memSize s) ∧
    (∃ (s : State) (n : Fin 64), recRunning s = true ∧ s.on (F.REC_SLOT_CFG_used n) = true ∧
      (¬ (∀ t, s.hid.recorder.last.get none n = some t → 400 * (s.f (F.REC_SLOT_CFG_d n) + 1) ≤ (s.now - t).toNat) ∨ s.hid.pwr.dumpOnly = true ∧
      recAcross (s.f (F.REC_SLOT_CFG_kind n)) = true)) ∧
    (∃ (s : State) (n : Fin 64), recRunning s = true ∧ s.on (F.REC_SLOT_CFG_used n) = true ∧
      (∀ t, s.hid.recorder.last.get none n = some t → 400 * (s.f (F.REC_SLOT_CFG_d n) + 1) ≤ (s.now - t).toNat) ∧
      (s.hid.pwr.dumpOnly = false ∨ recAcross (s.f (F.REC_SLOT_CFG_kind n)) = false)) ∧
    (∃ (s : State) (n : Fin 64), recRunning s = true ∧ s.on (F.REC_SLOT_CFG_used n) = true ∧ s.hid.recorder.burst.length = 7 ∧
      s.hid.recorder.time = some s.now ∧ postDone s = false ∧ allDropped s = false ∧ s.hid.recorder.drops = [] ∧ burstFits s ∧
      s.hid.recorder.last.get none n = none) :=
  ⟨⟨live, Port.pcie, 0x1#32, by decide +kernel⟩,
   ⟨up [pwrA fun x => { x with st := .full }, setB F.MEMC_STAT_ready], Port.pcie, 0x1#32, by decide +kernel⟩,
   ⟨up [pwrA fun x => { x with st := .full }, setB F.MEMC_STAT_ready, setF (F.REC_REG_STAT_state 0) 1], Port.pcie, 0x1#32, 0, by decide +kernel⟩,
   ⟨up [setB F.REC_STAT_running], Port.pcie, 0#32, by decide +kernel⟩,
   ⟨live, Port.pcie, 7, by decide +kernel⟩,
   ⟨up [setB F.REC_STAT_running, setF F.REC_STAT_region 7], Port.pcie, 6, by decide +kernel⟩,
   ⟨up [setB F.REC_STAT_running, recorderA fun x => { x with drops := [(63, 2)] }], 63, by decide +kernel⟩,
   ⟨up [setB F.REC_STAT_running, setB (F.REC_SLOT_CFG_used 63), recorderA fun x => { x with drops := [(63, 2)] }], (((up [setB F.REC_STAT_running, setB (F.REC_SLOT_CFG_used 63), recorderA fun x => { x with drops := [(63, 2)] }]).hid.recorder.drops.map (·.2)).foldl (· + ·) 0), by decide +kernel⟩,
   ⟨up [setB F.REC_STAT_running], 0#7, by decide +kernel⟩,
   ⟨up [setB F.REC_STAT_running, recorderA fun x => { x with post := some (0 + 1) }, setF F.REC_TRIG_MASK_mask 1, recorderA fun x => { x with trigs := 1 }], 1#7, 0, by decide +kernel⟩,
   ⟨up [setB F.REC_STAT_running, setF F.REC_TRIG_MASK_mask 1, recorderA fun x => { x with trigs := 1 }], 1#7, by decide +kernel⟩,
   ⟨up [setB F.REC_STAT_running, recorderA fun x => { x with post := some 0 }], ((up [setB F.REC_STAT_running, recorderA fun x => { x with post := some 0 }]).f F.REC_STAT_region), by decide +kernel⟩,
   ⟨up [pwrA fun x => { x with st := .full }, setB F.MEMC_STAT_ready], Port.pcie, (((up [pwrA fun x => { x with st := .full }, setB F.MEMC_STAT_ready]).rd64 R.REC_RD_ADDR).toNat), by decide +kernel⟩,
   ⟨up [setB F.REC_STAT_running, setB (F.REC_SLOT_CFG_used 63), pwrA fun x => { x with dumpOnly := true }], 63, by decide +kernel, by decide +kernel, .inr (by decide +kernel)⟩,
   ⟨up [setB F.REC_STAT_running, setB (F.REC_SLOT_CFG_used 63)], 63, by decide +kernel, by decide +kernel,
    (fun t h => nomatch (h.symm.trans (by decide +kernel) : some t = none)), by decide +kernel⟩,
   ⟨up [setB F.REC_STAT_running, setB (F.REC_SLOT_CFG_used 63), set64 (R.REC_REG_SIZE 0) 0x40#64,
    recorderA fun x => { x with time := some 0, burst := List.replicate 7 0#64 }], 63, by unfold burstFits; decide +kernel⟩⟩

theorem test_hypotheses_BootStopsAtItsFirstFailure :
    (∃ (s : State), coresRun s = true ∧ s.hid.boot.upd = false) ∧
    (∃ (s : State), coresRun s = true ∧ s.hid.boot.upd = false ∧ s.f F.BOOT_STAT_state = 0) :=
  ⟨⟨up [setB F.CHNT_STAT_running], by decide +kernel⟩,
   ⟨up [setB F.CHNT_STAT_running], by decide +kernel⟩⟩

theorem test_hypotheses_UpdatesAreCheckedLandAndEnd :
    (∃ (s : State) (p : Port), Live p s R.BOOT_UPD_CMD = true) ∧
    (∃ (s : State) (p : Port), Live p s R.BOOT_UPD_CMD = true ∧ p = Port.fw) ∧
    (∃ (s : State) (p : Port), Live p s R.BOOT_UPD_CMD = true ∧ (¬ (p = Port.fw)) ∧ bootBusy s = true) ∧
    (∃ (s : State) (p : Port), Live p s R.BOOT_UPD_CMD = true ∧ (¬ (p = Port.fw)) ∧ bootBusy s = false ∧
      s.hid.boot.upd = true ∧ ((if ((s.rd R.BOOT_UPD_OFS).toNat) % 4096 ≠ 0 ∨ s.hid.boot.total ≤ ((s.rd R.BOOT_UPD_OFS).toNat) then 0x82 else if (s.rd R.BOOT_UPD_LEN).toNat ≠ min 4096 (s.hid.boot.total - ((s.rd R.BOOT_UPD_OFS).toNat)) then 0x83 else if s.rd R.BOOT_UPD_CRC ≠ crc32c ((wordsGet s R.BOOT_UPD_BUF 1024).take (s.rd R.BOOT_UPD_LEN).toNat) then 0x84 else 0) ≠ 0)) ∧
    (∃ (s : State) (p : Port), Live p s R.BOOT_UPD_CMD = true ∧ (¬ (p = Port.fw)) ∧ bootBusy s = false ∧
      s.hid.boot.upd = true ∧ ((if ((s.rd R.BOOT_UPD_OFS).toNat) % 4096 ≠ 0 ∨ s.hid.boot.total ≤ ((s.rd R.BOOT_UPD_OFS).toNat) then 0x82 else if (s.rd R.BOOT_UPD_LEN).toNat ≠ min 4096 (s.hid.boot.total - ((s.rd R.BOOT_UPD_OFS).toNat)) then 0x83 else if s.rd R.BOOT_UPD_CRC ≠ crc32c ((wordsGet s R.BOOT_UPD_BUF 1024).take (s.rd R.BOOT_UPD_LEN).toNat) then 0x84 else 0) = 0) ∧
      flashAdmit s ≠ 0) ∧
    (∃ (s : State) (p : Port), Live p s R.BOOT_UPD_CMD = true ∧ (¬ (p = Port.fw)) ∧ bootBusy s = false ∧
      s.hid.boot.upd = true ∧ ((if ((s.rd R.BOOT_UPD_OFS).toNat) % 4096 ≠ 0 ∨ s.hid.boot.total ≤ ((s.rd R.BOOT_UPD_OFS).toNat) then 0x82 else if (s.rd R.BOOT_UPD_LEN).toNat ≠ min 4096 (s.hid.boot.total - ((s.rd R.BOOT_UPD_OFS).toNat)) then 0x83 else if s.rd R.BOOT_UPD_CRC ≠ crc32c ((wordsGet s R.BOOT_UPD_BUF 1024).take (s.rd R.BOOT_UPD_LEN).toNat) then 0x84 else 0) = 0) ∧
      flashAdmit s = 0) ∧
    (∃ (s : State), s.up = true ∧ s.hid.pwr.trans ≠ .toLean ∧ s.hid.boot.upd = true) ∧
    (∃ (s : State) (ofs : Nat) (bs : List Byte), s.wf = true ∧ s.hid.boot.work = some (ofs, bs) ∧ bs.length = 4096 ∧
      s.hid.pwr.trans ≠ .toHarvest ∧ (¬ (s.hid.boot.total ≤ 4096 * (if s.hid.boot.blocks.contains ofs then s.hid.boot.blocks else ofs :: s.hid.boot.blocks).length))) ∧
    (∃ (s : State) (ofs : Nat) (bs : List Byte), s.wf = true ∧ s.hid.boot.work = some (ofs, bs) ∧ bs.length = 4096 ∧
      s.hid.pwr.trans ≠ .toHarvest ∧ s.hid.boot.total ≤ 4096 * (if s.hid.boot.blocks.contains ofs then s.hid.boot.blocks else ofs :: s.hid.boot.blocks).length) ∧
    (∃ (s : State) (ofs : Nat) (bs : List Byte), s.wf = true ∧ s.hid.boot.work = some (ofs, bs) ∧ bs.length = 4096 ∧
      pageRefusal true s ≠ 0 ∧ s.hid.pwr.trans ≠ .toHarvest) ∧
    (∃ (s : State) (ofs : Nat) (bs : List Byte), s.wf = true ∧ s.hid.boot.work = some (ofs, bs) ∧ bs.length = 4096 ∧
      s.hid.pwr.trans = .toHarvest) ∧
    (∃ (c : Instr) (s t : State), exec c s = .next t ∧ s.up = true ∧ t.up = true ∧ t.mode ≠ s.mode ∧ t.mode ≠ DORMANT ∧
      t.mode ≠ CONFIGURE) :=
  ⟨⟨live, Port.pcie, by decide +kernel⟩,
   ⟨live, Port.fw, by decide +kernel⟩,
   ⟨up [setB F.BOOT_UPD_STAT_busy], Port.pcie, by decide +kernel⟩,
   ⟨up [bootA fun x => { x with upd := true }], Port.pcie, by decide +kernel⟩,
   ⟨up [bootA fun x => { x with upd := true }, bootA fun x => { x with total := 1 }, setW R.BOOT_UPD_LEN 1#32, setW R.BOOT_UPD_CRC (crc32c [0#8]), setB F.HARV_BURST_STAT_busy], Port.pcie, by decide +kernel⟩,
   ⟨up [bootA fun x => { x with upd := true }, bootA fun x => { x with total := 1 }, setW R.BOOT_UPD_LEN 1#32, setW R.BOOT_UPD_CRC (crc32c [0#8]), setW R.HARV_E_FLASH 1#32], Port.pcie, by decide +kernel⟩,
   ⟨up [bootA fun x => { x with upd := true }], by decide +kernel⟩,
   ⟨at0 [bootA fun x => { x with work := some (0, List.replicate 4096 0#8), total := 8192 }], 0, List.replicate 4096 0#8, by decide +kernel, rfl,
     List.length_replicate, by decide +kernel, by decide +kernel⟩,
   ⟨at0 [bootA fun x => { x with work := some (0, List.replicate 4096 0#8), total := 1 }], 0, List.replicate 4096 0#8, by decide +kernel, rfl,
     List.length_replicate, by decide +kernel, by decide +kernel⟩,
   ⟨at0 [bootA fun x => { x with work := some (0, List.replicate 4096 0#8), total := 1 }], 0, List.replicate 4096 0#8, by decide +kernel, rfl,
     List.length_replicate, by decide +kernel, by decide +kernel⟩,
   ⟨at0 [bootA fun x => { x with work := some (0, List.replicate 4096 0#8), total := 1 }, pwrA fun x => { x with trans := .toHarvest }], 0, List.replicate 4096 0#8, by decide +kernel, rfl,
     List.length_replicate, by decide +kernel⟩,
   ⟨.modeTransitionComplete true true, up [setF F.SYS_MODE_STAT_mode DORMANT, setB F.SYS_MODE_STAT_busy,
    hidA fun h => { h with mode := { h.mode with target := STANDBY } }], answers_of (by decide +kernel)⟩⟩

theorem test_hypotheses_ConfirmAndOtpGuardTheKeyStore :
    (∃ (s : State) (p : Port) (v : Word), Live p s R.BOOT_CONFIRM = true ∧ (v : Word).getLsbD 0 = true) ∧
    (∃ (s : State), s.hid.boot.confirm = true) ∧
    (∃ (s : State) (p : Port) (v : Word), Live p s R.SEC_OTP_CMD = true ∧
      ((if (if p = Port.fw then 0x81 else if v.extractLsb' 16 16 ≠ 0xA15E#16 then 0x93 else if s.mode ≠ CONFIGURE ∨ s.on F.HARV_STAT_src_vb then 0x80 else if bootBusy s ∨ secBusy s then 0x8B else 0) ≠ 0 then (if p = Port.fw then 0x81 else if v.extractLsb' 16 16 ≠ 0xA15E#16 then 0x93 else if s.mode ≠ CONFIGURE ∨ s.on F.HARV_STAT_src_vb then 0x80 else if bootBusy s ∨ secBusy s then 0x8B else 0) else if bit s.hid.otp.prog ((v : Word).toNat / 256 % 4) then 0x94 else 0) ≠ 0)) ∧
    (∃ (s : State) (p : Port) (v : Word), Live p s R.SEC_OTP_CMD = true ∧
      ((if (if p = Port.fw then 0x81 else if v.extractLsb' 16 16 ≠ 0xA15E#16 then 0x93 else if s.mode ≠ CONFIGURE ∨ s.on F.HARV_STAT_src_vb then 0x80 else if bootBusy s ∨ secBusy s then 0x8B else 0) ≠ 0 then (if p = Port.fw then 0x81 else if v.extractLsb' 16 16 ≠ 0xA15E#16 then 0x93 else if s.mode ≠ CONFIGURE ∨ s.on F.HARV_STAT_src_vb then 0x80 else if bootBusy s ∨ secBusy s then 0x8B else 0) else if bit s.hid.otp.prog ((v : Word).toNat / 256 % 4) then 0x94 else 0) = 0)) ∧
    (∃ (s : State) (p : Port) (v : Word), Live p s R.SEC_OTP_CMD = true ∧
      ((if (if p = Port.fw then 0x81 else if v.extractLsb' 16 16 ≠ 0xA15E#16 then 0x93 else if s.mode ≠ CONFIGURE ∨ s.on F.HARV_STAT_src_vb then 0x80 else if bootBusy s ∨ secBusy s then 0x8B else 0) ≠ 0 then (if p = Port.fw then 0x81 else if v.extractLsb' 16 16 ≠ 0xA15E#16 then 0x93 else if s.mode ≠ CONFIGURE ∨ s.on F.HARV_STAT_src_vb then 0x80 else if bootBusy s ∨ secBusy s then 0x8B else 0) else if bit s.hid.otp.prog ((v : Word).toNat / 256 % 4) = false ∨ ¬ (∃ j : Fin 4, j.val ≠ ((v : Word).toNat / 256 % 4) ∧
      bit s.hid.otp.prog j = true ∧ bit s.hid.otp.rev j = false) then 0x94 else 0) ≠ 0)) ∧
    (∃ (s : State) (p : Port) (v : Word), Live p s R.SEC_OTP_CMD = true ∧
      ((if (if p = Port.fw then 0x81 else if v.extractLsb' 16 16 ≠ 0xA15E#16 then 0x93 else if s.mode ≠ CONFIGURE ∨ s.on F.HARV_STAT_src_vb then 0x80 else if bootBusy s ∨ secBusy s then 0x8B else 0) ≠ 0 then (if p = Port.fw then 0x81 else if v.extractLsb' 16 16 ≠ 0xA15E#16 then 0x93 else if s.mode ≠ CONFIGURE ∨ s.on F.HARV_STAT_src_vb then 0x80 else if bootBusy s ∨ secBusy s then 0x8B else 0) else if bit s.hid.otp.prog ((v : Word).toNat / 256 % 4) = false ∨ ¬ (∃ j : Fin 4, j.val ≠ ((v : Word).toNat / 256 % 4) ∧
      bit s.hid.otp.prog j = true ∧ bit s.hid.otp.rev j = false) then 0x94 else 0) = 0)) :=
  ⟨⟨live, Port.pcie, 0x1#32, by decide +kernel⟩,
   ⟨at0 [bootA fun x => { x with confirm := true }], by decide +kernel⟩,
   ⟨live, Port.pcie, 0#32, by decide +kernel⟩,
   ⟨up [setF F.SYS_MODE_STAT_mode CONFIGURE], Port.pcie, 0xA15E0000#32, by decide +kernel⟩,
   ⟨live, Port.pcie, 0#32, by decide +kernel⟩,
   ⟨up [setF F.SYS_MODE_STAT_mode CONFIGURE, otpA fun x => { x with prog := 3 }], Port.pcie, 0xA15E0000#32, by decide +kernel⟩⟩

theorem test_hypotheses_SecurityOperationsAreGuardedAndEnd :
    (∃ (s : State) (p : Port), Live p s R.SEC_SEAL_CMD = true ∧
      (if p ≠ Port.fw then 0x81 else if secBusy s then 0x8B else 0) ≠ 0) ∧
    (∃ (s : State) (p : Port) (rng : Bool), Live p s R.SEC_SEAL_CMD = true ∧
      (if p ≠ Port.fw then 0x81 else if secBusy s then 0x8B else 0) = 0 ∧ rng = false) ∧
    (∃ (s : State) (p : Port) (rng : Bool), Live p s R.SEC_SEAL_CMD = true ∧
      (if p ≠ Port.fw then 0x81 else if secBusy s then 0x8B else 0) = 0 ∧ ((s.rd R.SEC_SEAL_LEN).toNat) % 16 = 0 ∧
      ((s.rd R.SEC_SEAL_LEN).toNat) ≤ 2 ^ 20 ∧ 0x20000000 ≤ ((s.rd R.SEC_SEAL_ADDR).toNat) ∧
      ((s.rd R.SEC_SEAL_ADDR).toNat) + ((s.rd R.SEC_SEAL_LEN).toNat) + 28 ≤ 0x20180000 ∧ rng = true) ∧
    (∃ (s : State) (p : Port) (rng : Bool), Live p s R.SEC_SEAL_CMD = true ∧
      (if p ≠ Port.fw then 0x81 else if secBusy s then 0x8B else 0) = 0 ∧ (¬ (((s.rd R.SEC_SEAL_LEN).toNat) % 16 = 0 ∧
      ((s.rd R.SEC_SEAL_LEN).toNat) ≤ 2 ^ 20 ∧ 0x20000000 ≤ ((s.rd R.SEC_SEAL_ADDR).toNat) ∧
      ((s.rd R.SEC_SEAL_ADDR).toNat) + ((s.rd R.SEC_SEAL_LEN).toNat) + 28 ≤ 0x20180000)) ∧ rng = true) ∧
    (∃ (s : State) (p : Port) (rng : Bool), Live p s R.SEC_ATT_CMD = true ∧
      ((if s.hid.boot.confirm ∨ secBusy s then 0x8B else if (rng : Bool) = false then 0x97 else 0) ≠ 0)) ∧
    (∃ (s : State) (p : Port) (rng : Bool), Live p s R.SEC_ATT_CMD = true ∧
      ((if s.hid.boot.confirm ∨ secBusy s then 0x8B else if (rng : Bool) = false then 0x97 else 0) = 0)) ∧
    (∃ (s : State) (p : Port), Live p s R.SEC_RNG = true) ∧
    (∃ (s : State) (op : SecOp) (i : Nat) (h : BitVec 512), s.hid.boot.sec = some op ∧ op = .program i h) ∧
    (∃ (s : State) (op : SecOp) (i : Nat), s.hid.boot.sec = some op ∧ op = .revoke i) ∧
    (∃ (s : State) (op : SecOp) (a : Nat) (n : Nat), s.hid.boot.sec = some op ∧ op = .seal a n) ∧
    (∃ (s : State) (op : SecOp) (a : Nat) (n : Nat), s.hid.boot.sec = some op ∧ op = .unseal a n) ∧
    (∃ (s : State) (op : SecOp) (nonce : List Byte), s.hid.boot.sec = some op ∧ op = .attest nonce ∧ nonce.length = 32) :=
  ⟨⟨live, Port.pcie, by decide +kernel⟩,
   ⟨live, Port.fw, false, by decide +kernel⟩,
   ⟨up [setW R.SEC_SEAL_ADDR 0x20000000#32], Port.fw, true, by decide +kernel⟩,
   ⟨up [setW R.SEC_SEAL_LEN 5#32], .fw, true, by decide +kernel⟩,
   ⟨live, Port.pcie, false, by decide +kernel⟩,
   ⟨live, Port.pcie, true, by decide +kernel⟩,
   ⟨live, Port.pcie, by decide +kernel⟩,
   ⟨at0 [bootA fun x => { x with sec := some (.program 0 0) }], (.program 0 0), 0, 0, by decide +kernel⟩,
   ⟨at0 [bootA fun x => { x with sec := some ((.revoke 0)) }], (.revoke 0), 0, by decide +kernel⟩,
   ⟨at0 [bootA fun x => { x with sec := some ((.seal 0 0)) }], (.seal 0 0), 0, 0, by decide +kernel⟩,
   ⟨at0 [bootA fun x => { x with sec := some ((.unseal 0 0)) }], (.unseal 0 0), 0, 0, by decide +kernel⟩,
   ⟨at0 [bootA fun x => { x with sec := some (.attest (List.replicate 32 0#8)) }], (.attest (List.replicate 32 0#8)), (List.replicate 32 0#8), by decide +kernel⟩⟩

end Sys2Proof.Tests
end

section
/-!
The statements of the family on the scope of the model: the state after reset, and the four statements that quantify over every
state and fail in one that the block does not reach.  Each refutation names its state, runs the command in it, and says which
premise the statement lacks.
-/

namespace Sys2Proof.Machine

/-- Command `c` answers a next state of `s` that the test `q` accepts. -/
def answerHas (c : Instr) (s : State) (q : State → Bool) : Bool :=
  match exec c s with
  | .next t => q t
  | .fault _ => false
  | .refused _ => false

/-- A test that every state with `P` passes is passed by the answer of a command that completes with `P`. -/
theorem Completes.answerHas_true {c : Instr} {s : State} {P : State → Prop} (h : Completes c s P) (q : State → Bool)
    (hq : ∀ t, P t → q t = true) : answerHas c s q = true := by
  obtain ⟨t, ht, hp⟩ := h
  unfold answerHas
  rw [ht]
  exact hq t hp

/-! ### The state after reset -/

/-- Settles O4: the tables of the state after reset are empty, so each register reads its reset word. -/
theorem resetReadsAsTheSpecSays : Obligations.ResetReadsAsTheSpecSays := by
  unfold Obligations.ResetReadsAsTheSpecSays
  decide +kernel

/-! ### Pairs and snapshots -/

/-- The state after reset, but with source 0 seen high while its summary, `SYS_PWR_STAT.done`, is low. -/
def staleSeen : State := { State.reset with seen := 1 }

/-- Refutes O6: the low word of `CLK_SLIDE_FIX` is said to change the latch alone, but every command also sees fallen summaries
low (`levelsFall`), and in `staleSeen` one has fallen: `seen` goes from 1 to 0.  The clause would need `seen := t.seen`, as
`Answers` has it, or the premise that every summary in `s.seen` is high. -/
theorem not_pairAndSnapshotAccessesAreCoherent : ¬ Obligations.PairAndSnapshotAccessesAreCoherent := by
  unfold Obligations.PairAndSnapshotAccessesAreCoherent
  rintro ⟨hpair, -⟩
  obtain ⟨hlow, -⟩ := hpair staleSeen .pcie (by decide +kernel) (by decide +kernel)
  have hseen := (hlow 0#32).answerHas_true (fun t => t.seen = 1) fun t ht => decide_eq_true (congrArg State.seen ht)
  exact absurd hseen (by decide +kernel)

/-! ### Dividers -/

/-- A divider commit that selects 400 MHz for BORE waits; engine 0 holds one stage, a modulator, and the structure in force names 255
legs for it, where R99 allows six. -/
def manyLegs : State := (seq [setB F.CLK_STAT_commit_pending, setB F.CLK_SYS_DIV_div_bore, setF (F.BORE_INFO_stages 0) 1,
  setF (F.BORE_STG_CFG_type 0 0) 12, fingA fun g => { g with recs := [⟨tEngOut, 0, [0#8, 0#8, 255#8]⟩] }]).run State.reset

/-- Refutes O14: at the in-phase point `lat` is said to hold its value modulo 2¹⁶, but the field has eleven bits.  In `manyLegs` the
engine takes 1042 cycles of two ticks, so the value is 2196 and the field reads 148.  The clause would need modulo 2¹¹, or the
premise that the structure in force passed the checks of a LOAD. -/
theorem not_dividersAndDeviceTimeFollowTheirRules : ¬ Obligations.DividersAndDeviceTimeFollowTheirRules := by
  unfold Obligations.DividersAndDeviceTimeFollowTheirRules
  rintro ⟨⟨-, happly⟩, -⟩
  have hlat := (happly manyLegs (by decide +kernel)).answerHas_true
    (fun t => t.f (F.BORE_FIX_CFG_lat 0) = (boreCyc t * engCycles t 0 + 112) % 2 ^ 16)
    fun t ⟨_, _, _, _, hlat, _⟩ => decide_eq_true (hlat 0 (by decide +kernel))
  exact absurd hlat (by decide +kernel)

/-! ### Monitors -/

/-- Monitor 0 runs with its high output active, captures nothing, and its FIFO of four entries holds five. -/
def crowdedMonitor : State := (seq [setW R.SYS_ISLAND_EN 0x00053801#32, setB (F.WIN_M_CFG_en 0), setB (F.WIN_M_STAT_hi 0),
  monA 0 fun x => { x with caps := List.replicate 5 ⟨0#64, false, false, true⟩ }]).run State.reset

/-- Refutes O24: where the entries held and captured make five, one is said to be lost.  In `crowdedMonitor` a sample within the
thresholds turns the high output off and captures nothing, so nothing is lost, but five entries were held before.  The clause
would need the premise `old.length ≤ 4`, which its neighbour has. -/
theorem not_monitorsFeedCapturesAndTripSources : ¬ Obligations.MonitorsFeedCapturesAndTripSources := by
  unfold Obligations.MonitorsFeedCapturesAndTripSources
  rintro ⟨⟨hsample, -⟩, -⟩
  obtain ⟨-, -, hturn⟩ := hsample crowdedMonitor 0 0 0 0 false (by decide +kernel)
  have hovr := (hturn (.inl (by decide +kernel))).answerHas_true
    (fun t => t.rd (R.WIN_M_CAP_OVR 0) = bumped (crowdedMonitor.rd (R.WIN_M_CAP_OVR 0)))
    fun t ⟨_, _, _, _, _, _, _, _, hfive, _⟩ => decide_eq_true (hfive (by decide +kernel)).2
  exact absurd hovr (by decide +kernel)

/-! ### PCIe requests -/

/-- The state after reset with every bit of `SYS_ISLAND_EN` clear, those of HOST and FAB too, which no write clears (R70). -/
def noIslands : State := { State.reset with regs := [(R.SYS_ISLAND_EN, 0#32)] }

/-- Refutes O53: a read of `SYS_ID` through BAR0 is said to answer the word wherever the Core die is powered, but in `noIslands` the
FAB island, which holds the register, is off, and the read answers 0 with an error.  The clause would need the premise
`s.island 11 = true`. -/
theorem not_pcieRequestsReachRegistersAndMemory : ¬ Obligations.PcieRequestsReachRegistersAndMemory := by
  unfold Obligations.PcieRequestsReachRegistersAndMemory
  rintro ⟨⟨-, -, -, hid, -⟩, -⟩
  have hresp := (hid noIslands 0#32 (by decide +kernel) (by decide +kernel)).answerHas_true
    (fun t => t.resp = noIslands.resp.put {} (portIx .pcie) { data := [noIslands.rd R.SYS_ID], err := false })
    fun t ht => decide_eq_true (congrArg State.resp ht)
  exact absurd hresp (by decide +kernel)

end Sys2Proof.Machine
end

section
/-!
The statements of the family on the architecture that fail: the seam links, the trip matrix, and the steps and packets of the Bore
engines.  Each refutation names its state, runs the command in it, and says which premise or case the statement lacks.
-/

namespace Sys2Proof.Machine

/-! ### The trip matrix -/

/-- The TRIPIN of die North is enabled, active high and unfiltered; its source has a mask on die South, and both seam links are up. -/
def relayedTripin : State := (seq [setB (F.SYS_SEAM_STAT_up 0), setB (F.SYS_SEAM_STAT_up 1), setW (R.TRIPIN_CFG 0) 0x113#32,
  setF (F.TRIP_SRC_OFF_mask 1 113) 1]).run State.reset

/-- Refutes O25: where a command of TRIPIN samples leaves its source as it was, no state packet is said to be sent, but each change
on the way sends one (R181).  In `relayedTripin` a sample high and one low after it turn the source on and off, and two packets are
under way to die South.  The clause would need the premise `high.length = 1`, or the packets of every change in between. -/
theorem not_tripMatrixForcesLatchesAndClears : ¬ Obligations.TripMatrixForcesLatchesAndClears := by
  unfold Obligations.TripMatrixForcesLatchesAndClears
  rintro ⟨-, -, -, htripin, -⟩
  have hpulse := htripin relayedTripin 0 [true, false] (by decide +kernel) (List.cons_ne_nil _ _)
  have hnone := hpulse.answerHas_true
    (fun t => srcActive t (0 : Die) (113 + (0 : Die)) = srcActive relayedTripin (0 : Die) (113 + (0 : Die)) → (tripSt t 1).pkts = [])
    fun t ⟨_, _, _, _, hother⟩ => decide_eq_true fun hsame => by
      rw [if_pos hsame] at hother
      exact (congrArg TripSt.pkts hother).trans (by decide +kernel)
  exact absurd hnone (by decide +kernel)

/-! ### Steps of the Bore engines -/

/-- Engine 0 idles in FOLLOW with a program, triggered by converter 0, whose result feeds input slot 0; the trigger is on its way,
and the result 5 has reached the island boundary and not yet its slot. -/
def resultAtBoundary : State := (seq [setW R.SYS_ISLAND_EN 0x07FFFFFF#32, setF F.SYS_MODE_STAT_mode FOLLOW,
  setF (F.BORE_INFO_stages 0) 1, setF (F.BORE_TRIG_kind 0) 0, fingA fun g => { g with recs := [⟨tRouteConv, 0, []⟩] },
  boreA 0 fun b => { b with trigs := [0#64], fifo := [(0, 5)] }]).run State.reset

/-- Refutes O30: a step start is said to latch the values in the input slots as they stood before, but the results that wait at the
island boundary reach their slots first (R33, R242).  In `resultAtBoundary` the step latches 5 for slot 0, where the slot still
held 0.  `StepStarts` would need the slots of `(boreSt s e).drained`. -/
theorem not_boreStepsStartEndOrAreLost : ¬ Obligations.BoreStepsStartEndOrAreLost := by
  unfold Obligations.BoreStepsStartEndOrAreLost
  rintro ⟨hengine, -⟩
  obtain ⟨-, htrig, -⟩ := hengine resultAtBoundary 0 (by decide +kernel) (by decide +kernel) (by decide +kernel)
    (by decide +kernel) (by decide +kernel)
  obtain ⟨-, -, -, hstart, -⟩ := htrig 0#64 [] (by decide +kernel) _ rfl
  have hslot := (hstart (by decide +kernel) (by decide +kernel) (by decide +kernel)).answerHas_true
    (fun t => t.pu (R.BORE_IN 0 0) = 0)
    fun t ⟨⟨_, _, _, _, _, _, _, _, _, hin, _⟩, _⟩ => decide_eq_true ((hin 0 (by decide +kernel)).trans (by decide +kernel))
  exact absurd hslot (by decide +kernel)

/-! ### Packets of the Bore engines -/

/-- Engine 0 has fixed timing, and its 32 packets under way to die North hold every credit of the link, so the threshold code 5 for
monitor 0 waits for one. -/
def codeWaits : State := (seq [setW R.SYS_ISLAND_EN 0x07FFFFFF#32, setB (F.SYS_SEAM_STAT_up 0), setF (F.BORE_INFO_timing 0) 1,
  boreA 0 fun b => { b with pkts := (List.range 32).map fun i =>
    { die := 0, credit := true, trig := BitVec.ofNat 64 i, cmp := [], prof := [] } },
  mpptA fun m => { m with codes := [(0, 5)] }]).run State.reset

/-- Refutes O32: the arrival of a packet in time is said to change no register, but it gives back its credit, and a threshold code
that waited for one lands with it (R28, R304).  In `codeWaits` the high threshold of monitor 0 goes from 0xFFF to 5.  The clause
would need the premise that no code waits for die `d`, or the register `WIN_M_TH` of each monitor whose code does among those it lets
change. -/
theorem not_borePacketsAndWritesLand : ¬ Obligations.BorePacketsAndWritesLand := by
  unfold Obligations.BorePacketsAndWritesLand
  rintro ⟨hpacket, -⟩
  obtain ⟨-, -, hwaits, -⟩ := hpacket codeWaits 0 0 { die := 0, credit := true, trig := 0#64, cmp := [], prof := [] }
    (by unfold packetProper; decide +kernel) rfl
  have hkeep := (hwaits (by decide +kernel) rfl (by decide +kernel) (by decide +kernel)).answerHas_true
    (fun t => t.rd (R.WIN_M_TH 0) = codeWaits.rd (R.WIN_M_TH 0)) fun t ⟨_, hregs, _⟩ => decide_eq_true (hregs _ id)
  exact absurd hkeep (by decide +kernel)

/-! ### The seam links: what an abandoned update leaves in the flash -/

/-- Of the bytes `a + i`, `i` in `l`, written from `g`, each reads what was written; every other byte stays. -/
theorem applyAll_flash_flByte (g : Nat → Byte) (a b : Nat) (l : List Nat) (s : State) :
    (applyAll (l.map fun i => .flash (a + i) (g (a + i))) s).flByte b = if ∃ i ∈ l, b = a + i then g b else s.flByte b := by
  induction l generalizing s with
  | nil => simp [applyAll]
  | cons i l ih =>
    have hput : (Upd.apply (.flash (a + i) (g (a + i))) s).flByte b = if b = a + i then g b else s.flByte b := by
      unfold State.flByte
      rw [Upd.flash_flash, Tab.get_put _ _ _ _ _ fun _ => rfl]
      split <;> simp_all
    rw [List.map_cons, applyAll, ih, hput]
    by_cases hl : ∃ j ∈ l, b = a + j <;> by_cases hi : b = a + i <;> simp [hl, hi]

/-- A byte of a range that takes undefined contents reads its free value (R445). -/
theorem run_flashUndef_flByte (a n i : Nat) (s : State) (hi : i < n) :
    ((flashUndef a n).run s).flByte (a + i) = Config.freeFlash s.fresh (a + i) := by
  unfold Act.run flashUndef
  rw [applyAll_append]
  simp only [applyAll, State.flByte, Upd.fresh_flash]
  rw [← State.flByte, applyAll_flash_flByte (Config.freeFlash s.fresh), if_pos ⟨i, List.mem_range.2 hi, rfl⟩]

/-- States with the same flash read the same bytes of it. -/
theorem flByte_of_flash_eq {s t : State} (h : t.flash = s.flash) (b : Nat) : t.flByte b = s.flByte b :=
  congrArg (Tab.get flashBlank · b) h

/-- The end of a burst leaves the flash. -/
theorem run_burstEnd_flash (code : Nat) (s : State) : ((burstEnd code).run s).flash = s.flash := by
  unfold burstEnd
  rw [run_whenA]
  split <;> rfl

/-- With a block in work its sector takes undefined contents (R445). -/
theorem run_workUndef (s : State) (ofs : Nat) (bs : List Byte) (hwork : s.hid.boot.work = some (ofs, bs)) :
    workUndef.run s = (setF F.BOOT_STAT_state 2).run ((flashUndef (updBase s + ofs) 4096).run s) := by
  have hus : workUndef s = seq [flashUndef (updBase s + ofs) 4096, setF F.BOOT_STAT_state 2] s := by
    unfold workUndef
    generalize 4096 = n
    rw [hwork]
  rw [Act.run, hus, ← Act.run, run_seq_cons, run_seq_cons, run_seq_nil]

/-- An update that is abandoned with a block in work leaves the block's sector undefined (R445, R467). -/
theorem run_updAbandon_flByte (s : State) (ofs i : Nat) (bs : List Byte) (hupd : s.hid.boot.upd = true)
    (hwork : s.hid.boot.work = some (ofs, bs)) (hi : i < 4096) :
    (updAbandon.run s).flByte (updBase s + ofs + i) = Config.freeFlash s.fresh (updBase s + ofs + i) := by
  have hflash : (updAbandon.run s).flash = (workUndef.run s).flash := by
    rw [updAbandon, run_whenA, if_pos hupd, run_seq_cons]
    generalize workUndef.run s = w
    simp only [run_seq_cons, run_seq_nil, run_whenA, bootA, run_hidA]
    split <;> simp [run_burstEnd_flash, updCode]
  rw [run_workUndef s ofs bs hwork, run_setF_flash] at hflash
  rw [flByte_of_flash_eq hflash, run_flashUndef_flByte _ _ _ _ hi]

/-- The times at which pins went low are no part of the flash. -/
theorem run_pinStamp_flash (was : State) (l : List Nat) (s : State) : ((pinStamp was l).run s).flash = s.flash := by
  have hall : ∀ (now : BitVec 64) (l : List Nat) (s : State),
      ((forEach l fun n => edgeA n fun x => { x with lowT := now }).run s).flash = s.flash := by
    intro now l
    induction l with
    | nil => exact fun _ => rfl
    | cons n l ih => exact fun s => by rw [run_forEach_cons, ih]; rfl
  exact hall _ _ s

/-- The last action of a sequence acts on what those before it leave. -/
theorem run_seq_getLast (l : List Act) (h : l ≠ []) (s : State) :
    (seq l).run s = (l.getLast h).run ((seq l.dropLast).run s) := by
  induction l generalizing s with
  | nil => exact absurd rfl h
  | cons a l ih =>
    cases l with
    | nil => simp
    | cons b l => rw [run_seq_cons, ih (by simp)]; simp

/-- A meaning that changes the mode while the Core die runs: the blocks follow the change. -/
theorem finish_follow (a : Act) (s : State) (h : (a.run s).mode ≠ s.mode) (hs : s.up = true) (ht : (a.run s).up = true) :
    finish a s = .next (levelsFall.run ((pinStamp s (List.range 48)).run ((modeSwitch s.mode).run (a.run s)))) := by
  unfold finish; simp [h, hs, ht]

/-- A change of mode by which the registers do not lock is followed by the blocks alone. -/
theorem run_modeSwitch_of_force_ne (a : Nat) (s : State) (h : s.force ≠ 3) :
    (modeSwitch a).run s = (modeFollow a s.mode).run s := by
  unfold modeSwitch
  rw [run_fun, run_seq_cons, run_only, if_neg (by simp [h]), run_seq_cons, run_seq_nil, run_withS]

/-- In CONFIGURE a block of an update is in work, at whose sector the flash holds a byte that is not the free value to come; the link
of die North is up.  The Drone is stopped, so that what its nodes read, which is free, plays no part. -/
def blockInWork : State :=
  { (seq [setB (F.SYS_SEAM_STAT_up 0), setF F.SYS_MODE_STAT_mode CONFIGURE, pwrA fun p => { p with aon := .stopped },
      bootA fun b => { b with upd := true, work := some (0, []) }]).run State.reset with
    flash := [(0, Config.freeFlash 0 0 + 1#8)] }

/-- The loss of the link ends CONFIGURE in HALT, and the last thing that the blocks do at that is to abandon the update. -/
theorem blockInWork_seamLinkLost :
    Completes (.seamLinkLost 0) blockInWork fun t => t.flByte 0 = Config.freeFlash 0 0 := by
  refine ⟨_, finish_follow (seamLost 0) blockInWork (by decide +kernel) (by decide +kernel) (by decide +kernel), ?_⟩
  rw [run_modeSwitch_of_force_ne _ _ (by decide +kernel)]
  generalize hx : (seamLost 0).run blockInWork = x
  unfold State.flByte
  rw [run_levelsFall_flash, run_pinStamp_flash]
  unfold modeFollow
  rw [run_fun, run_seq_getLast _ (List.cons_ne_nil _ _)]
  generalize hu : (seq (List.dropLast _)).run x = u
  simp only [List.getLast, run_only, ← hx]
  rw [if_pos (by decide +kernel)]
  have hsector := run_updAbandon_flByte u 0 0 [] (by rw [← hu, ← hx]; decide +kernel) (by rw [← hu, ← hx]; decide +kernel)
    (by decide)
  have hbase : updBase u = 0 := by rw [← hu, ← hx]; decide +kernel
  have hfresh : u.fresh = 0 := by rw [← hu, ← hx]; decide +kernel
  rw [hbase, hfresh] at hsector
  exact hsector

/-- Refutes O7: the loss of a link is said to leave the memories, but in CONFIGURE its HALT abandons an update (R467), and the sector of
the block in work is left undefined (R445).  In `blockInWork` a byte of the flash changes to a free value.  The clause would need the
premise that no block of an update is in work, or to leave the flash out; so would the clause of a link that trains. -/
theorem not_seamLinksCountTrainAndFail : ¬ Obligations.SeamLinksCountTrainAndFail := by
  unfold Obligations.SeamLinksCountTrainAndFail
  rintro ⟨-, -, -, hlost⟩
  obtain ⟨t, ht, -, -, -, -, -, -, -, -, ⟨-, hflash, -⟩, -⟩ := hlost blockInWork 0 (by decide +kernel) (by decide +kernel)
  obtain ⟨u, hu, hbyte⟩ := blockInWork_seamLinkLost
  obtain rfl : t = u := Host.Outcome.next.inj (ht.symm.trans hu)
  have hkept : t.flByte 0 = Config.freeFlash 0 0 + 1#8 := by
    rw [State.flByte, hflash]
    rfl
  exact absurd (hkept.symm.trans hbyte) (by bv_omega)

end Sys2Proof.Machine
end

section
/-!
The statements of the family on supply, harvester and power states that rest on short sequences of writes: admission and end of
bursts, the checks of a power command; and the two that fail, each in a state that its refutation names.
-/

namespace Sys2Proof.Machine

/-! ### Rules of registers and ports -/

/-- A field of another register keeps its value. -/
theorem run_setF_f_of_ne (x y : Fld) (v : Nat) (s : State) (h : y.off ≠ x.off) : ((setF x v).run s).f y = s.f y := by
  unfold State.f
  rw [run_setF_rd, if_neg h]

theorem run_setF_on_of_ne (x y : Fld) (v : Nat) (s : State) (h : y.off ≠ x.off) : ((setF x v).run s).on y = s.on y := by
  unfold State.on
  rw [run_setF_f_of_ne x y v s h]

/-- A field that was written holds the low bits of the value. -/
theorem run_setF_f (x : Fld) (v : Nat) (s : State) (h : x.lo ≤ x.hi) (hh : x.hi ≤ 31) :
    ((setF x v).run s).f x = v % 2 ^ (x.hi + 1 - x.lo) := by
  unfold State.f
  rw [run_setF_rd, if_pos rfl, Fld.get_put x v _ h hh]

/-- A burst that is refused records its code, and its type where none is in progress. -/
theorem sets_burstRefuse (ty code : Nat) (s : State) :
    Sets ((if s.on F.HARV_BURST_STAT_busy then [] else [(F.HARV_BURST_STAT_type, ty)]) ++
      [(F.HARV_BURST_STAT_last_code, code), (F.HARV_EVENT_burst_refused, 1)]) s.hid s ((burstRefuse ty code).run s) := by
  unfold burstRefuse
  rw [run_seq_cons, run_whenA]
  cases s.on F.HARV_BURST_STAT_busy
  · exact ((Sets.setF _ _ s).then_setF _ _).then_setF _ _
  · exact ((Sets.refl s).then_setF _ _).then_setF _ _

/-- An access error is reported. -/
theorem reportsError_accErr (p : Port) (kind off : Nat) (s : State) : ReportsError p kind off s ((accErr p kind off).run s) := by
  have hfirst : Sets (if s.on F.HOST_ERR_err then [] else [(F.HOST_ERR_INFO_kind, kind), (F.HOST_ERR_INFO_port, portNo p),
      (F.HOST_ERR_INFO_offset, off)]) s.hid s ((whenA (fun s => !s.on F.HOST_ERR_err) (seq [setF F.HOST_ERR_INFO_kind kind,
        setF F.HOST_ERR_INFO_port (portNo p), setF F.HOST_ERR_INFO_offset off])).run s) := by
    rw [run_whenA]
    cases s.on F.HOST_ERR_err
    · exact ((Sets.setF _ _ s).then_setF _ _).then_setF _ _
    · exact Sets.refl s
  have hword : fieldWord ((if s.on F.HOST_ERR_err then [] else [(F.HOST_ERR_INFO_kind, kind), (F.HOST_ERR_INFO_port, portNo p),
      (F.HOST_ERR_INFO_offset, off)]) ++ [(F.HOST_ERR_err, 1)]) R.HOST_ERR_CNT (s.rd R.HOST_ERR_CNT) = s.rd R.HOST_ERR_CNT := by
    cases s.on F.HOST_ERR_err <;> rfl
  have hcount := (hfirst.then_setF F.HOST_ERR_err 1).then_bump R.HOST_ERR_CNT
  rw [hword, List.append_assoc] at hcount
  unfold ReportsError accErr
  simp only [run_seq_cons, run_seq_nil, run_only, setB_eq, decide_eq_true_eq]
  by_cases hp : p = .spi
  · rw [if_pos hp, if_pos hp]
    exact hcount.then_hidA _
  · rw [if_neg hp, if_neg hp]
    exact hcount

/-- A port that reaches a register finds the Core die powered and out of reset. -/
theorem up_of_live {p : Port} {s : State} {off : Nat} (h : Live p s off = true) : s.up = true := by
  simp only [Live, PortFree, portUp, Bool.and_eq_true] at h
  exact h.1.1.1

/-- A command of the host's or firmware's ports that reaches its register completes with what its meaning sets. -/
theorem completes_portGate {c : Instr} {p : Port} {off : Nat} {a : Act} {s : State} {l : List (Fld × Nat)} {h : Hid}
    (hl : Live p s off = true) (he : exec c s = finish (portGate p off a) s) (hs : Sets l h s (a.run s))
    (hm : ∀ x ∈ l, x.1.off ≠ R.SYS_MODE_STAT) : Completes c s (Sets l h s) := by
  refine completes_sets ?_ hm he
  rwa [portGate_of_live p off a s hl]

/-! ### Admission of a burst (R62) -/

/-- A declared energy of 0, or beyond 100 J, is refused (R62, step 2). -/
theorem burstCode_of_range {e : Nat} {s : State} (h : (s.rd e).toNat = 0 ∨ 100000000 < (s.rd e).toNat) : burstCode e s = 6 := by
  unfold burstCode
  exact if_pos h

/-- The store code of R62, step 3, for a declared energy of `uj` µJ on the VB source. -/
def storeCode (uj : Nat) (s : State) : Nat :=
  if s.on F.HARV_STORE_CFG_mode then (if abortMv s + 1000 ≤ s.f F.HARV_V0_vb_mv then 0 else 1)
  else if s.f F.HARV_STORE_CFG_cap_mf = 0 then 1
  else if (uj : Rat) + ((s.rd R.HARV_RESERVE).toNat : Rat) ≤ storeEnergy s (s.f F.HARV_V0_vb_mv) then 0 else 1

/-- A declared energy within its range is judged by the stores where the path draws from them. -/
theorem burstCode_of_energy {e : Nat} {s : State} (h0 : (s.rd e).toNat ≠ 0) (h1 : (s.rd e).toNat ≤ 100000000) :
    burstCode e s = if s.on F.HARV_STAT_src_vb then storeCode (s.rd e).toNat s else 0 := by
  unfold burstCode
  refine (if_neg (by omega)).trans ?_
  cases s.on F.HARV_STAT_src_vb <;> rfl

/-- A battery is judged by its voltage alone. -/
theorem storeCode_of_battery (uj : Nat) {s : State} (hm : s.on F.HARV_STORE_CFG_mode = true) :
    storeCode uj s = if abortMv s + 1000 ≤ s.f F.HARV_V0_vb_mv then 0 else 1 := by
  simp [storeCode, hm]

/-- A capacitor of 0 mF admits no burst. -/
theorem storeCode_of_no_capacitance (uj : Nat) {s : State} (hm : s.on F.HARV_STORE_CFG_mode = false)
    (hc : s.f F.HARV_STORE_CFG_cap_mf = 0) : storeCode uj s = 1 := by
  simp [storeCode, hm, hc]

/-- A capacitor is judged by the energy that it holds above the abort level. -/
theorem storeCode_of_capacitor (uj : Nat) {s : State} (hm : s.on F.HARV_STORE_CFG_mode = false)
    (hc : s.f F.HARV_STORE_CFG_cap_mf ≠ 0) :
    storeCode uj s = if (uj : Rat) + ((s.rd R.HARV_RESERVE).toNat : Rat) ≤ storeEnergy s (s.f F.HARV_V0_vb_mv) then 0 else 1 := by
  simp [storeCode, hm, hc]

/-! ### An AUXEN burst (R64) -/

/-- The code of an AUXEN burst of `dur` ms (R62, R64). -/
def auxCode (dur : Nat) (s : State) : Nat :=
  if burstBlocked s then 3 else if dur = 0 ∨ 500 < dur then 6 else burstCode R.HARV_E_AUX s

/-- What `start` brings once the duration is written: code 0 starts the burst, any other refuses it. -/
def auxStart : Act := withS fun s =>
  let code := auxCode (s.f F.HARV_AUX_CMD_dur_ms) s
  if code = 0 then seq [burstStart 2, pwrA fun p => { p with auxen := true }] else burstRefuse 2 code

theorem auxBurst_eq (v : Word) : auxBurst v =
    seq [setF F.HARV_AUX_CMD_dur_ms (v.toNat % 512), only (v.getLsbD 16) auxStart] := by
  have hbit : decide (v.toNat / 2 ^ 16 % 2 = 1) = v.getLsbD 16 := by
    rw [BitVec.getLsbD, Nat.testBit_eq_decide_div_mod_eq]
  rw [← hbit]
  rfl

/-- The duration is no part of what a burst is judged by. -/
theorem auxCode_setF_dur (dur d : Nat) (s : State) : auxCode dur ((setF F.HARV_AUX_CMD_dur_ms d).run s) = auxCode dur s := by
  have hrd : ∀ off, off ≠ R.HARV_AUX_CMD → ((setF F.HARV_AUX_CMD_dur_ms d).run s).rd off = s.rd off := fun off h => by
    rw [run_setF_rd, if_neg (show ¬ off = F.HARV_AUX_CMD_dur_ms.off from h)]
  unfold auxCode burstBlocked burstCode storeEnergy abortMv State.on State.f
  simp (disch := decide) only [hrd, run_setF_hid]

/-- A write of `HARV_AUX_CMD` with `start` (R64): code 0 starts the burst, any other refuses it. -/
theorem run_auxBurst_start (v : Word) (s : State) (hv : v.getLsbD 16 = true) :
    (auxBurst v).run s = (if auxCode (v.toNat % 512) s = 0 then seq [burstStart 2, pwrA fun p => { p with auxen := true }]
      else burstRefuse 2 (auxCode (v.toNat % 512) s)).run ((setF F.HARV_AUX_CMD_dur_ms (v.toNat % 512)).run s) := by
  have hdur : ((setF F.HARV_AUX_CMD_dur_ms (v.toNat % 512)).run s).f F.HARV_AUX_CMD_dur_ms = v.toNat % 512 := by
    rw [run_setF_f _ _ _ (by decide) (by decide)]
    exact Nat.mod_mod _ _
  rw [auxBurst_eq, run_seq_cons, run_seq_cons, run_seq_nil, run_only, if_pos hv, auxStart, run_withS, hdur]
  exact congrArg (fun c => (if c = 0 then _ else burstRefuse 2 c).run _) (auxCode_setF_dur _ _ s)

/-- A write without `start` is one of the duration. -/
theorem run_auxBurst_of_not_start (v : Word) (s : State) (hv : v.getLsbD 16 = false) :
    (auxBurst v).run s = (setF F.HARV_AUX_CMD_dur_ms (v.toNat % 512)).run s := by
  rw [auxBurst_eq, run_seq_cons, run_seq_cons, run_seq_nil, run_only, hv]
  rfl

/-- An AUXEN burst that starts closes AUXEN. -/
theorem sets_auxBurst_started (v : Word) (s : State) (hv : v.getLsbD 16 = true) (hc : auxCode (v.toNat % 512) s = 0) :
    Sets [(F.HARV_AUX_CMD_dur_ms, v.toNat % 512), (F.HARV_BURST_STAT_type, 2), (F.HARV_BURST_STAT_last_code, 0),
      (F.HARV_BURST_STAT_busy, 1)] { s.hid with pwr := { s.hid.pwr with auxen := true } } s ((auxBurst v).run s) := by
  rw [run_auxBurst_start v s hv, if_pos hc]
  exact ((((Sets.setF _ _ s).then_setF _ _).then_setF _ _).then_setF _ _).then_hidA _

/-- An AUXEN burst that is refused. -/
theorem sets_auxBurst_refused (v : Word) (s : State) (hv : v.getLsbD 16 = true) (hc : auxCode (v.toNat % 512) s ≠ 0) :
    Sets ([(F.HARV_AUX_CMD_dur_ms, v.toNat % 512)] ++ ((if s.on F.HARV_BURST_STAT_busy then [] else [(F.HARV_BURST_STAT_type, 2)]) ++
      [(F.HARV_BURST_STAT_last_code, auxCode (v.toNat % 512) s), (F.HARV_EVENT_burst_refused, 1)])) s.hid s ((auxBurst v).run s) := by
  have hbusy := run_setF_on_of_ne F.HARV_AUX_CMD_dur_ms F.HARV_BURST_STAT_busy (v.toNat % 512) s (by decide)
  rw [run_auxBurst_start v s hv, if_neg hc, ← hbusy]
  exact (Sets.setF _ _ s).trans (sets_burstRefuse 2 _ _)

/-- The burst in progress ends with its code, and AUXEN opens. -/
theorem sets_burstEnd (code : Nat) (s : State) (h : s.on F.HARV_BURST_STAT_busy = true) :
    Sets [(F.HARV_BURST_STAT_busy, 0), (F.HARV_BURST_STAT_last_code, code)]
      { s.hid with pwr := { s.hid.pwr with auxen := false } } s ((burstEnd code).run s) := by
  unfold burstEnd
  rw [run_whenA, if_pos h]
  exact ((Sets.setF _ _ s).then_setF _ _).then_hidA _

/-- Settles O9: the codes are read off the admission rule, and each command is a short sequence of writes that `Sets` follows. -/
theorem burstsAreAdmittedByEnergyAndEnd : Obligations.BurstsAreAdmittedByEnergyAndEnd := by
  unfold Obligations.BurstsAreAdmittedByEnergyAndEnd
  refine ⟨fun s e _ => ⟨burstCode_of_range, fun h0 h1 => ?_⟩, ?_, ?_, ?_, ?_, ?_, ?_, ?_, ?_⟩
  · rw [burstCode_of_energy h0 h1]
    refine ⟨fun hv => by simp [hv], fun hv hm => ?_, fun hv hm => ⟨fun hc => ?_, fun hc => ?_⟩⟩
    · rw [if_pos hv, storeCode_of_battery _ hm]
    · rw [if_pos hv, storeCode_of_no_capacitance _ hm hc]
    · rw [if_pos hv, storeCode_of_capacitor _ hm hc, storeEnergy]
      split <;> simp_all
  · rintro s p v _ hl rfl hv
    refine completes_portGate hl rfl ?_ (by simp +decide)
    rw [run_auxBurst_of_not_start v s hv]
    exact Sets.setF _ _ s
  · rintro s p v _ hl rfl hv hb h0 h500 hc
    have hcode : auxCode (v.toNat % 512) s = 0 := by
      simp only [auxCode, hb, hc, Bool.false_eq_true, if_false]
      exact if_neg (by omega)
    exact completes_portGate hl rfl (sets_auxBurst_started v s hv hcode) (by simp +decide)
  · rintro s p v _ _ hl rfl hv hb rfl hc
    have hsets := sets_auxBurst_refused v s hv hc
    rw [hb] at hsets
    exact completes_portGate hl rfl hsets (by simp +decide)
  · rintro s p v _ hl rfl hv hb
    have hcode : auxCode (v.toNat % 512) s = 3 := by
      simp [auxCode, burstBlocked, hb]
    have hsets := sets_auxBurst_refused v s hv (by simp [hcode])
    rw [hb, hcode] at hsets
    exact completes_portGate hl rfl hsets (by simp +decide)
  · intro s hb ht
    refine completes_sets ?_ (by simp +decide) (show exec .auxenBurstVsupEnd s = finish auxVsupEnd s from rfl)
    rw [auxVsupEnd, run_whenA, if_pos (by simp [auxRunning, hb, ht])]
    exact sets_burstEnd 0 s hb
  · intro s hb ht hv
    refine completes_sets ?_ (by simp +decide) (show exec .auxenBurstTimeout s = finish auxTimeout s from rfl)
    rw [auxTimeout, run_whenA, if_pos (by simp [auxRunning, hb, ht, hv])]
    exact sets_burstEnd 12 s hb
  · intro s p v hl hst
    refine completes_portGate hl rfl ?_ (by simp +decide)
    have hw : vddqWrite p v s = setF F.HARV_REG_CFG_vddq_sel (v.toNat % 2) s := by
      simp [vddqWrite, up_of_live hl, hst]
    rw [Act.run, hw]
    exact Sets.setF _ _ s
  · intro s p v hl hst
    have hw : vddqWrite p v s = accErr p errRefused R.HARV_REG_CFG s := by
      simp [vddqWrite, up_of_live hl, hst]
    refine completes_portGate hl rfl ?_ ?_
    · rw [Act.run, hw]
      exact reportsError_accErr p errRefused R.HARV_REG_CFG s
    · cases s.on F.HOST_ERR_err <;> simp +decide

/-! ### Power commands (R58) -/

/-- A power command that the checks of R58 end records its code alone. -/
theorem run_pwrCmd_of_check {want code : Nat} {s : State} (go : Act) (hup : s.up = true) (hc : pwrCheck want s = (code, false)) :
    (pwrCmd want go).run s = (setF F.SYS_PWR_STAT_result code).run s := by
  unfold pwrCmd
  rw [run_whenA, if_pos hup]
  simp [Act.run, hc]

/-- Each command of `SYS_PWR_CMD` is the check of R58 for the state that it names, and what follows. -/
theorem exec_powerCommand (p : Port) (dumpOk : Bool) (want : Fin 4) (s : State) :
    ∃ go, exec (powerCommand p dumpOk want) s = finish (portGate p R.SYS_PWR_CMD (pwrCmd want.val go)) s := by
  match want with
  | 0 => exact ⟨_, rfl⟩
  | 1 => exact ⟨_, rfl⟩
  | 2 => exact ⟨_, rfl⟩
  | 3 => exact ⟨_, rfl⟩

/-- A power command that the checks of R58 end completes with its code. -/
theorem completes_powerCommand_of_check {p : Port} {s : State} (dumpOk : Bool) {want : Fin 4} {code : Nat}
    (hl : Live p s R.SYS_PWR_CMD = true) (hc : pwrCheck want.val s = (code, false)) :
    Completes (powerCommand p dumpOk want) s (Sets [(F.SYS_PWR_STAT_result, code)] s.hid s) := by
  obtain ⟨go, hgo⟩ := exec_powerCommand p dumpOk want s
  refine completes_sets ?_ (List.forall_mem_singleton.2 (show F.SYS_PWR_STAT_result.off ≠ R.SYS_MODE_STAT by decide)) hgo
  rw [portGate_of_live _ _ _ _ hl, run_pwrCmd_of_check go (up_of_live hl) hc]
  exact Sets.setF _ _ s

/-- What R58 takes as a transition or a burst in progress. -/
def pwrBusy (s : State) : Prop :=
  s.hid.pwr.trans ≠ .none ∨ s.on F.SYS_MODE_STAT_busy = true ∨ s.on F.HARV_BURST_STAT_busy = true

theorem pwrCheck_of_busy {want : Nat} {s : State} (h : pwrBusy s) : pwrCheck want s = (3, false) := by
  unfold pwrCheck
  exact if_pos h

theorem pwrCheck_of_present {want : Nat} {s : State} (h : ¬ pwrBusy s) (hw : want = s.f F.SYS_PWR_STAT_state) :
    pwrCheck want s = (0, false) := by
  unfold pwrCheck
  exact (if_neg h).trans (if_pos hw)

theorem pwrCheck_of_no_path {want : Nat} {s : State} (h : ¬ pwrBusy s) (hw : want ≠ s.f F.SYS_PWR_STAT_state)
    (hp : pwrPath (s.f F.SYS_PWR_STAT_state) want = false) : pwrCheck want s = (4, false) := by
  unfold pwrCheck
  exact (if_neg h).trans ((if_neg hw).trans (if_pos (by simp [hp])))

theorem pwrCheck_of_mode {want : Nat} {s : State} (h : ¬ pwrBusy s) (hp : pwrPath (s.f F.SYS_PWR_STAT_state) want = true)
    (hm : (want = 1 ∧ (s.f F.SYS_PWR_STAT_state = 3 ∨ s.mode ≠ DORMANT)) ∨ (1 < want ∧ !modeAllowed (want = 3) s.mode)) :
    pwrCheck want s = (5, false) := by
  have hw : want ≠ s.f F.SYS_PWR_STAT_state := by
    simp only [pwrPath, decide_eq_true_eq] at hp
    omega
  unfold pwrCheck
  exact (if_neg h).trans ((if_neg hw).trans ((if_neg (by simp [hp])).trans (if_pos hm)))

/-- Settles O10: each clause is one of the checks of R58 in their order, and a command that they end records its code alone. -/
theorem powerCommandIsCheckedInOrder : Obligations.PowerCommandIsCheckedInOrder := by
  unfold Obligations.PowerCommandIsCheckedInOrder
  intro s p dumpOk want hl now c busy allowed modeBad
  have hpath : pwrPath now want.val = true ↔ allowed := by
    simp only [pwrPath, decide_eq_true_eq, allowed, Fin.ext_iff]
    exact Iff.rfl
  have hmode : modeBad → (want.val = 1 ∧ (now = 3 ∨ s.mode ≠ DORMANT)) ∨ (1 < want.val ∧ !modeAllowed (want.val = 3) s.mode) := by
    rintro (⟨rfl, h⟩ | ⟨rfl, h⟩ | ⟨rfl, h⟩)
    · exact .inl ⟨rfl, h⟩
    · exact .inr ⟨by decide, by simp [modeAllowed, h]⟩
    · exact .inr ⟨by decide, by rcases h with h | h | h <;> simp [modeAllowed, h]⟩
  refine ⟨fun hb => ?_, fun hb hw => ?_, fun hb hw ha => ?_, fun hb ha hm => ?_, fun code hbusy hidle => ?_⟩
  · exact completes_powerCommand_of_check dumpOk hl (pwrCheck_of_busy hb)
  · exact completes_powerCommand_of_check dumpOk hl (pwrCheck_of_present hb hw)
  · exact completes_powerCommand_of_check dumpOk hl (pwrCheck_of_no_path hb hw (Bool.eq_false_iff.2 fun h => ha (hpath.1 h)))
  · exact completes_powerCommand_of_check dumpOk hl (pwrCheck_of_mode hb (hpath.2 ha) (hmode hm))
  · refine completes_powerCommand_of_check dumpOk (want := 0) hl ?_
    by_cases hb : busy
    · rw [hbusy hb]
      exact pwrCheck_of_busy hb
    · rw [hidle hb]
      split
      · next h => exact pwrCheck_of_present hb h.symm
      · next h => exact pwrCheck_of_no_path hb (Ne.symm h) (by simp [pwrPath])

/-! ### What a stop and a start of the device clear -/

/-- HARVEST, with 20 V of open-circuit voltage measured. -/
def harvestMeasured : State := (pwrA fun p => { p with st := .harvest, trans := .none, voc := 20000 }).run State.reset

/-- Refutes O8: a stop of the always-on domain is said to leave the measured open-circuit voltage, but nothing is powered then, and
the harvester's part is cleared with the rest (R51).  In `harvestMeasured` it goes from 20 000 mV to 0.  The clause would need
`held := false`, `voc := 0`, `hinSet := 0` and `vocWait := 0` among the parts that it lets change. -/
theorem not_harvesterChargesAndReportsItsSupplies : ¬ Obligations.HarvesterChargesAndReportsItsSupplies := by
  unfold Obligations.HarvesterChargesAndReportsItsSupplies
  rintro ⟨-, ⟨-, -, -, -, hstop⟩, -⟩
  have hvoc := (hstop harvestMeasured (by decide +kernel)).answerHas_true
    (fun t => t.hid.pwr.voc = harvestMeasured.hid.pwr.voc) fun t ⟨_, _, hpwr, _⟩ => decide_eq_true (by rw [hpwr])
  exact absurd hvoc (by decide +kernel)

/-- A start from HARVEST has held the Core die in reset for one tick; the Drone is in hold. -/
def startHeld : State := { (pwrA fun p => { p with held := true, aon := .hold }).run State.reset with now := 1#64 }

/-- Refutes O11: the end of the entry to LEAN is said to leave device time, but the Core die leaves reset with it, and device time
starts at zero there (R82).  In `startHeld` a tick has passed since the start began, and time goes from 1 to 0.  The clause would need
`t.now = 0#64` where the dies were held, or the premise that they were not. -/
theorem not_powerTransitionsBeginAndArrive : ¬ Obligations.PowerTransitionsBeginAndArrive := by
  unfold Obligations.PowerTransitionsBeginAndArrive
  rintro ⟨-, ⟨hlean, -⟩, -⟩
  have hnow := (hlean startHeld (by decide +kernel)).answerHas_true (fun t => t.now = startHeld.now)
    fun t ⟨_, _, _, _, _, hnow⟩ => decide_eq_true hnow
  exact absurd hnow (by decide +kernel)

end Sys2Proof.Machine
end

section
/-!
The island enables (R60, R61).  A write that R60 admits stops and starts whole blocks, and HALT may follow; that the enables and their
status stand all the same rests on one fact, shown block by block: no update that those blocks make touches device time or a register
below `0x40`.
-/

namespace Sys2Proof.Machine

/-- A register offset that lies above identity, power and island enables. -/
def High (off : Nat) : Prop := Nat.ble 0x40 off = true

/-- The update leaves device time alone, and the register words below `0x40`: identity, power and island enables (R42, R70). -/
def Upd.sparesLow : Upd → Prop
  | .reg off _ => High off
  | .regsKeep _ => False
  | .now _ => False
  | _ => True

/-- Each of the updates does. -/
def SparesAll (us : List Upd) : Prop := ∀ u ∈ us, u.sparesLow

/-- Each update of the action does, whatever state it reads. -/
def Spares (a : Act) : Prop := ∀ s, SparesAll (a s)

/-- Each of the actions does. -/
@[reducible] def SpareEach : List Act → Prop
  | [] => True
  | a :: l => Spares a ∧ SpareEach l

/-! ### What such updates leave -/

theorem Upd.sparesLow_apply {u : Upd} (h : u.sparesLow) (s : State) :
    (u.apply s).now = s.now ∧ ∀ off, off < 0x40 → (u.apply s).rd off = s.rd off := by
  cases u
  case reg off v => exact ⟨rfl, fun a ha => (Upd.reg_rd off a v s).trans (if_neg (by have := Nat.le_of_ble_eq_true h; omega))⟩
  case regsKeep p => exact h.elim
  case now t => exact h.elim
  all_goals exact ⟨rfl, fun _ _ => rfl⟩

theorem SparesAll.applyAll {us : List Upd} (h : SparesAll us) (s : State) :
    (applyAll us s).now = s.now ∧ ∀ off, off < 0x40 → (applyAll us s).rd off = s.rd off := by
  induction us generalizing s with
  | nil => exact ⟨rfl, fun _ _ => rfl⟩
  | cons u us ih =>
    obtain ⟨hnow, hrd⟩ := Upd.sparesLow_apply (h u List.mem_cons_self) s
    obtain ⟨hnow', hrd'⟩ := ih (fun x hx => h x (List.mem_cons_of_mem u hx)) (u.apply s)
    exact ⟨hnow'.trans hnow, fun off ho => (hrd' off ho).trans (hrd off ho)⟩

theorem Spares.run_now {a : Act} (h : Spares a) (s : State) : (a.run s).now = s.now := ((h s).applyAll s).1

theorem Spares.run_rd {a : Act} (h : Spares a) (s : State) {off : Nat} (ho : off < 0x40) : (a.run s).rd off = s.rd off :=
  ((h s).applyAll s).2 off ho

/-! ### The combinators -/

theorem SparesAll.nil : SparesAll [] := fun _ h => nomatch h

theorem SparesAll.single {u : Upd} (h : u.sparesLow) : SparesAll [u] := fun _ hu => List.mem_singleton.1 hu ▸ h

theorem SparesAll.append {us vs : List Upd} (h : SparesAll us) (h' : SparesAll vs) : SparesAll (us ++ vs) :=
  fun u hu => (List.mem_append.1 hu).elim (h u) (h' u)

theorem SparesAll.ite {c : Prop} [Decidable c] {us vs : List Upd} (h : SparesAll us) (h' : SparesAll vs) :
    SparesAll (if c then us else vs) := by
  split
  · exact h
  · exact h'

/-- An action written out over the state that it reads. -/
theorem SparesAll.of {a : Act} {s : State} (h : Spares a) : SparesAll (a s) := h s

theorem Spares.ite {c : Prop} [Decidable c] {a b : Act} (h : Spares a) (h' : Spares b) : Spares (if c then a else b) := by
  split
  · exact h
  · exact h'

theorem Spares.nop : Spares nop := fun _ => .nil

theorem Spares.seq {l : List Act} (h : SpareEach l) : Spares (seq l) := by
  induction l with
  | nil => exact .nop
  | cons a l ih => exact fun s => (h.1 s).append (ih h.2 _)

theorem Spares.whenA {c : State → Bool} {a : Act} (h : Spares a) : Spares (whenA c a) := fun s => .ite (h s) .nil

theorem Spares.only {c : Bool} {a : Act} (h : Spares a) : Spares (only c a) := .ite h .nop

theorem Spares.withS {k : State → Act} (h : ∀ s, Spares (k s)) : Spares (withS k) := fun s => h s s

theorem Spares.forEach {α : Type} {l : List α} {a : α → Act} (h : ∀ x ∈ l, Spares (a x)) : Spares (forEach l a) := by
  refine .seq ?_
  induction l with
  | nil => trivial
  | cons x l ih => exact ⟨h x List.mem_cons_self, ih fun y hy => h y (List.mem_cons_of_mem x hy)⟩

/-! ### Writes

Where the register lies at `0x40` or above.  The offset of an indexed register is a base with multiples of its indices
added, so the base decides. -/

theorem High.add {b i : Nat} (h : High b) : High (b + i) :=
  Nat.ble_eq_true_of_le (Nat.le_add_right_of_le (Nat.le_of_ble_eq_true h))

theorem Spares.setW {off : Nat} {v : Word} (h : High off) : Spares (setW off v) := fun _ => .single h

theorem Spares.setF {x : Fld} {v : Nat} (h : High x.off) : Spares (setF x v) :=
  fun s => (Spares.setW h : Spares (Machine.setW x.off (x.put v (s.rd x.off)))) s

theorem Spares.set64 {off : Nat} {v : BitVec 64} (h : High off) : Spares (set64 off v) :=
  fun s => (Spares.setW h s).append ((Spares.setW h.add : Spares (Machine.setW (off + 4) _)) s)

theorem Spares.orW {off : Nat} {m : Word} (h : High off) : Spares (orW off m) :=
  fun s => (Spares.setW h : Spares (Machine.setW off (s.rd off ||| m))) s

theorem Spares.bump {off : Nat} (h : High off) : Spares (bump off) :=
  fun s => .ite ((Spares.setW h : Spares (Machine.setW off _)) s) ((Spares.setW h : Spares (Machine.setW off _)) s)

theorem Spares.hidA {g : Hid → Hid} : Spares (hidA g) := fun _ => .single trivial

theorem SparesAll.hidA {g : Hid → Hid} {s : State} : SparesAll (hidA g s) := Spares.hidA s

theorem Spares.freshA : Spares freshA := fun _ => .single trivial

theorem SparesAll.seq {l : List Act} {s : State} (h : SpareEach l) : SparesAll (seq l s) := Spares.seq h s

theorem Spares.withEnv {k : Nat → Act} (h : ∀ n, Spares (k n)) : Spares (withEnv k) :=
  fun _ => .seq ⟨.freshA, h _, trivial⟩

theorem SparesAll.only {c : Bool} {a : Act} {s : State} (h : Spares a) : SparesAll (only c a s) := Spares.only h s

theorem SparesAll.forEach {α : Type} {l : List α} {a : α → Act} {s : State} (h : ∀ x ∈ l, Spares (a x)) :
    SparesAll (forEach l a s) := Spares.forEach h s

/-! ### Mode and HALT -/

theorem spares_changeMode (m : Nat) : Spares (changeMode m) :=
  fun _ => .seq ⟨.setF rfl, .setF rfl, .setF rfl, .only (.setF rfl), .only (.seq ⟨.setF rfl, .setF rfl, trivial⟩), .setF rfl, trivial⟩

theorem spares_enterHalt : Spares enterHalt :=
  fun _ => .seq ⟨.only (.seq ⟨.setF rfl, .setF rfl, .setF rfl, trivial⟩), .only (.seq ⟨spares_changeMode HALT, .bump rfl, trivial⟩), trivial⟩

theorem spares_haltCause (c : Nat) : Spares (haltCause c) :=
  fun _ => .ite (.seq ⟨.setF rfl, .setF rfl, .setF rfl, .only spares_enterHalt, trivial⟩) .nil

theorem spares_causeEnds (c : Nat) : Spares (causeEnds c) := .setF rfl

/-! ### Trip matrix and monitors -/

theorem spares_recSend (m : Nat) : Spares (recSend m) := .whenA .hidA

theorem spares_pinStamp (was : State) (l : List Nat) : Spares (pinStamp was l) := fun _ => .forEach fun _ _ => .hidA

theorem spares_forceOnReady (n : Nat) : Spares (forceOnReady n) := .whenA .hidA

theorem spares_tripResolve (d : Nat) (atZero : Bool) : Spares (tripResolve d atZero) :=
  .whenA fun _ => .seq ⟨.forEach fun _ _ => .setW (.add (.add rfl)), .setF (.add rfl), .setF (.add rfl), .setF (.add rfl),
    .only (.seq ⟨.setF (.add rfl), spares_recSend 1, trivial⟩),
    .only (.setF (.add rfl)), .only (.seq ⟨.setF (.add rfl), .forEach fun _ _ => .bump (.add rfl), trivial⟩), .hidA, spares_pinStamp _ _,
    .forEach fun _ _ => spares_forceOnReady _, trivial⟩

theorem spares_sourceSet (d i : Nat) (act : Bool) : Spares (sourceSet d i act) :=
  fun _ => .ite .nil (.seq ⟨.setF (.add (.add rfl)), spares_tripResolve d false, .only .hidA, trivial⟩)

theorem spares_monTurn (m : Nat) (lo act : Bool) : Spares (monTurn m lo act) :=
  .seq ⟨.seq ⟨.ite (.setF (.add (.add rfl))) (.setF (.add (.add rfl))), spares_sourceSet _ _ _, trivial⟩, .setF (.add (.add rfl)), trivial⟩

theorem spares_monStop (m : Nat) : Spares (monStop m) :=
  .seq ⟨.whenA (spares_monTurn m false false), .whenA (spares_monTurn m true false), .hidA, trivial⟩

/-! ### The Drone -/

theorem spares_droneShow : Spares droneShow :=
  fun _ => .seq ⟨.only (.forEach fun _ _ => .hidA), .only (.forEach fun _ _ => .hidA), .setW rfl, .setF rfl, .setF rfl, .setF rfl,
    .setW rfl, .freshA,
    .only (spares_pinStamp _ _), trivial⟩

theorem spares_soloA : Spares soloA :=
  .seq ⟨.seq ⟨.setF rfl, .setF rfl, trivial⟩, .setF rfl, .setF rfl, .hidA, .hidA, spares_causeEnds _, trivial⟩

theorem spares_roleEval : Spares roleEval := .whenA fun _ => .ite (.of spares_soloA) (.hidA)

theorem spares_demandRecord (d : Nat) : Spares (demandRecord d) :=
  fun _ => .seq ⟨.ite (.orW rfl) (.seq ⟨.setW rfl, .set64 rfl, .bump rfl, .hidA, trivial⟩), .freshA, .setF rfl, spares_recSend _, trivial⟩

theorem spares_demandEval : Spares demandEval :=
  fun _ => .seq ⟨spares_droneShow, .only (spares_demandRecord _), .only (.setF rfl), .hidA, .only (spares_haltCause _),
    .only (spares_causeEnds _), .only (spares_haltCause _), .only (spares_sourceSet _ _ _), trivial⟩

theorem spares_droneEval : Spares droneEval := .whenA (.seq ⟨spares_roleEval, spares_demandEval, trivial⟩)

theorem spares_droneLatch {a : Act} (h : Spares a) : Spares (droneLatch a) := .seq ⟨h, .setF rfl, spares_droneEval, trivial⟩

theorem spares_wdArm : Spares wdArm := fun _ => .seq ⟨.setF rfl, .setF rfl, .hidA, trivial⟩

theorem spares_wdRelease : Spares wdRelease := .whenA (.seq ⟨.setF rfl, .setF rfl, .whenA spares_wdArm, spares_droneEval, trivial⟩)

/-! ### Edge units -/

theorem spares_bothOn (held first : Nat) (same : Bool) : Spares (bothOn held first same) :=
  fun _ => .seq ⟨.setF (.add rfl), .setF (.add rfl), .setF (.add rfl), .set64 (.add rfl), .bump (.add rfl), .setF (.add rfl), trivial⟩

theorem spares_ilRise (n : Nat) : Spares (ilRise n) := by
  intro s
  dsimp only [ilRise]
  split
  · exact .hidA
  · exact .ite (.seq ⟨.hidA, .hidA, spares_pinStamp _ _, spares_bothOn _ _ _, trivial⟩)
      (.ite (.seq ⟨.hidA, spares_bothOn _ _ _, trivial⟩) (.hidA))

theorem spares_ilFall (n : Nat) : Spares (ilFall n) := fun _ => .seq ⟨.hidA, spares_pinStamp _ _, trivial⟩

theorem spares_trimLand (n : Nat) : Spares (trimLand n) := by
  intro s
  unfold trimLand
  split
  · exact .seq ⟨.setF (.add (.add (.add rfl))), .hidA, trivial⟩
  · exact .nil

theorem spares_edgePlace (n : Nat) : Spares (edgePlace n) :=
  .seq ⟨.whenA (spares_trimLand n), .withS fun _ => .hidA, trivial⟩

theorem spares_outFall (n : Nat) : Spares (outFall n) :=
  .whenA (.seq ⟨.setF (.add (.add rfl)), spares_ilFall n, .withS fun _ => .hidA, spares_edgePlace n, trivial⟩)

theorem spares_outRise (n : Nat) : Spares (outRise n) :=
  .whenA (.seq ⟨.setF (.add (.add rfl)), spares_ilRise n, spares_edgePlace n, trivial⟩)

theorem spares_riseDelayed (n len : Nat) : Spares (riseDelayed n len) := by
  intro s
  unfold riseDelayed
  split
  · exact .nil
  · exact .ite .nil (.ite (.seq ⟨.hidA, .bump (.add (.add rfl)),
      .ite (.seq ⟨.setF (.add (.add rfl)), .hidA, spares_outRise n, trivial⟩) (.setF (.add (.add rfl))), trivial⟩)
      (.seq ⟨.hidA, .only (.seq ⟨.hidA, spares_outRise n, trivial⟩), trivial⟩))

theorem spares_cmdSet (n : Nat) (v : Bool) (len : Option Nat) : Spares (cmdSet n v len) := by
  intro s
  refine .ite .nil (.ite (.seq ⟨.hidA, ?_, trivial⟩) (.ite (.hidA) (.seq ⟨.hidA, .only (spares_outFall n), trivial⟩)))
  cases len with
  | none => exact .nop
  | some l => exact .only (spares_riseDelayed n l)

theorem spares_waveUpdate (n : Nat) (len : Option Nat) : Spares (waveUpdate n len) :=
  fun _ => .ite (.ite (.seq ⟨spares_cmdSet _ _ _, spares_cmdSet _ _ _, trivial⟩)
    (.seq ⟨spares_cmdSet _ _ _, spares_cmdSet _ _ _, trivial⟩)) (.of (spares_cmdSet _ _ _))

theorem spares_edgeHalt (n : Nat) (run : Bool) : Spares (edgeHalt n run) :=
  .seq ⟨spares_outFall n, .setF (.add rfl), .hidA, .whenA .hidA, spares_waveUpdate n none, trivial⟩

theorem spares_edgeIdle (n : Nat) : Spares (edgeIdle n) :=
  fun _ => .seq ⟨spares_edgeHalt n false, .forEach fun _ _ => .withS fun _ => spares_edgeHalt _ _, trivial⟩

theorem spares_edgeStop (n : Nat) : Spares (edgeStop n) :=
  fun _ => .ite .nil (.ite (.hidA) (.ite (.hidA) (.of (spares_edgeIdle n))))

theorem spares_edgesStop (l : List Nat) : Spares (edgesStop l) := .withS fun _ => .forEach fun n _ => spares_edgeStop n

theorem spares_newPeriod (n : Nat) : Spares (newPeriod n) := fun s => SparesAll.hidA (s := s)

theorem spares_edgeStart (n : Nat) : Spares (edgeStart n) :=
  fun _ => .ite (.seq ⟨.hidA, .hidA, trivial⟩) (.ite (.hidA)
    (.seq ⟨.hidA, .only (spares_newPeriod n), spares_waveUpdate n none, trivial⟩))

/-! ### Ligature buses, the Chanter, external memory and updates -/

theorem spares_ligEnd (k : Nat) : Spares (ligEnd k) := .seq ⟨.setF (.add (.add rfl)), .hidA, trivial⟩

theorem spares_ligStop (k : Nat) : Spares (ligStop k) := .seq ⟨spares_ligEnd k, .hidA, trivial⟩

theorem spares_chntStopped : Spares chntStopped :=
  .seq ⟨.seq ⟨.whenA (.withEnv fun _ _ => .hidA), .setF rfl, trivial⟩, .setF rfl, .hidA, trivial⟩

theorem spares_chntRelease (boot : Bool) : Spares (chntRelease boot) :=
  .seq ⟨.setF rfl, .setF rfl, .setF rfl, .setF rfl, .hidA, spares_wdRelease, trivial⟩

theorem spares_burstEnd (code : Nat) : Spares (burstEnd code) := .whenA (.seq ⟨.setF rfl, .setF rfl, .hidA, trivial⟩)

theorem SparesAll.map {α : Type} {l : List α} {g : α → Upd} (h : ∀ x, (g x).sparesLow) :
    SparesAll (l.map g) := fun u hu => by
  obtain ⟨x, -, rfl⟩ := List.mem_map.1 hu
  exact h x

theorem spares_flashUndef (a n : Nat) : Spares (flashUndef a n) :=
  fun s => .append (.map fun _ => trivial) (Spares.freshA s)

theorem spares_workUndef : Spares workUndef := by
  intro s
  unfold workUndef
  split
  · exact .seq ⟨spares_flashUndef _ _, .setF rfl, trivial⟩
  · exact .nil

theorem spares_updAbandon : Spares updAbandon :=
  .whenA (.seq ⟨spares_workUndef, .setF rfl, .setF rfl, .setF rfl, .setF rfl, .whenA (spares_burstEnd 0), .hidA, trivial⟩)

theorem spares_updDrop : Spares updDrop :=
  .whenA (.seq ⟨spares_workUndef, .setF rfl, .whenA (spares_burstEnd 0), .hidA, trivial⟩)

theorem spares_flashProgram (a : Nat) (bs : List Byte) : Spares (flashProgram a bs) := fun _ => .map fun _ => trivial

theorem spares_flashErase (a n : Nat) : Spares (flashErase a n) := fun _ => .single trivial

theorem spares_bufFill (bs : List Byte) : Spares (bufFill bs) :=
  .forEach fun x _ s => (Spares.setW (.add rfl) : Spares (setW (R.QSPI_BUF (x.2 / 4)) _)) s

/-- A field whose value is drawn afresh. -/
theorem Spares.setF_fresh {x : Fld} {v : State → Nat} (h : High x.off) : Spares fun t => Machine.setF x (v t) t ++ [.fresh] :=
  fun t => (Spares.setF h t).append (Spares.freshA t)

theorem spares_qspiDone (pages : Nat) (cut bad : Bool) : Spares (qspiDone pages cut bad) := by
  intro s
  unfold qspiDone
  split
  · exact .nil
  · refine .seq ⟨.ite (.only (spares_bufFill _)) (.ite (.seq ⟨spares_flashProgram _ _, .setF rfl, .only (spares_flashUndef _ _), trivial⟩)
      (.ite (spares_flashErase _ _) (spares_flashUndef _ _))), .ite (.setF rfl) (.ite (.setF rfl) (.ite (.setF rfl) (.setF_fresh rfl))),
      .setF rfl, .whenA (spares_burstEnd 0), .hidA, trivial⟩

theorem spares_qspiCut : Spares qspiCut := by
  refine .withEnv fun n s => ?_
  split
  · exact .nil
  · exact .of (spares_qspiDone _ true false)

/-! ### Metering points -/

theorem spares_accAdd (i k amount : Nat) : Spares (accAdd i k amount) :=
  fun _ => .seq ⟨.set64 (.add (.add rfl)), .hidA, .only (.seq ⟨.set64 (.add rfl), .setF (.add rfl), trivial⟩), trivial⟩

theorem spares_energy (i x : Nat) (p tc : Rat) : Spares (energy i x p tc) :=
  .ite (spares_accAdd _ _ _) (.ite (spares_accAdd _ _ _) .nop)

theorem spares_putMeter (i : Nat) (l : MirVals) : Spares (putMeter i l) :=
  .seq ⟨.forEach fun _ _ => .set64 (.add (.add rfl)), .hidA, .set64 (.add rfl), trivial⟩

theorem spares_mirTake {write : Nat → Nat → MirVals → Act} (h : ∀ k i l, Spares (write k i l)) (mine : Nat → Nat → Bool) :
    Spares (mirTake write mine) :=
  fun _ => .ite .nil (.seq ⟨.forEach fun _ _ _ => .ite (.seq ⟨.hidA, h _ _ _, trivial⟩) .nil, .hidA, trivial⟩)

theorem spares_cycleClose (i n tc : Nat) : Spares (cycleClose i n tc) :=
  .seq ⟨.only (spares_mirTake (fun _ _ _ => spares_putMeter _ _) _), .whenA fun _ => .seq
    ⟨.only (.forEach fun _ _ => .only (spares_energy _ _ _ _)), .only (spares_energy _ _ _ _), .setF (.add rfl), .setF (.add rfl),
      .only (.setF (.add rfl)),
      .only (.setF (.add rfl)), trivial⟩, trivial⟩

theorem spares_metRestart (i : Nat) : Spares (metRestart i) := .hidA

theorem spares_metStop (i : Nat) : Spares (metStop i) :=
  fun _ => .seq ⟨spares_cycleClose _ _ _, spares_metRestart i, .hidA, trivial⟩

theorem spares_meterStopAll : Spares meterStopAll :=
  .seq ⟨.whenA (spares_metStop 0), .whenA (spares_metStop 1), trivial⟩

/-! ### Bore engines and the grid block -/

theorem spares_limitShow (d e : Nat) : Spares (limitShow d e) := .whenA (.withS fun _ => spares_sourceSet _ _ _)

theorem spares_limitSet (e : Nat) (v : Bool) : Spares (limitSet e v) :=
  fun _ => .ite .nil (.seq ⟨.setF (.add rfl), .only (.setF (.add rfl)), spares_limitShow 0 e, spares_limitShow 1 e, trivial⟩)

theorem spares_boreLeave (e : Nat) : Spares (boreLeave e) := .whenA (spares_limitSet e false)

theorem spares_publishSet (x : GridSet) : Spares (publishSet x) :=
  fun _ => .seq ⟨.forEach fun _ _ => .ite (.set64 (.add rfl)) (.set64 (.add rfl)), .hidA, trivial⟩

theorem spares_sweepAbort : Spares sweepAbort := by
  intro s
  unfold sweepAbort
  split
  · exact .nil
  · exact .seq ⟨.hidA, .hidA, .setF rfl, .setF rfl, trivial⟩

theorem spares_mpptIdle : Spares mpptIdle :=
  .seq ⟨spares_sweepAbort, .forEach fun _ _ => .seq ⟨.setF (.add rfl), .hidA, trivial⟩, trivial⟩

theorem spares_rideIdle : Spares rideIdle := .seq ⟨.setW rfl, .setF rfl, .setF rfl, .forEach fun _ _ => .setF (.add rfl), .hidA, trivial⟩

theorem spares_probeIdle : Spares probeIdle := .seq ⟨.setF rfl, .setF rfl, .setF rfl, .hidA, trivial⟩

theorem spares_gridLeave : Spares gridLeave :=
  .whenA fun _ => .seq ⟨spares_publishSet _, .setF rfl, .setF rfl, .hidA, spares_mpptIdle, spares_rideIdle, spares_probeIdle, trivial⟩

theorem spares_publishParts (x : GridSet) (ref : Nat) : Spares (publishParts x ref) :=
  fun _ => .seq ⟨spares_publishSet _, .setF rfl, .only (.setF rfl), trivial⟩

theorem spares_refSwitch (wa b : Nat) : Spares (refSwitch wa b) :=
  .whenA fun _ => .ite .nil (.ite (.of (spares_publishParts _ _)) (.ite (.seq ⟨.hidA, spares_publishParts _ _, trivial⟩)
    (.ite (.seq ⟨.hidA, spares_publishParts _ _, trivial⟩) (.of (spares_publishParts _ _)))))

/-! ### Converters, the recorder, the CAN controllers and network time -/

theorem spares_factorsPut (c : Nat) (ws : List Word) : Spares (factorsPut c ws) := by
  refine .forEach fun p hp => .setW ?_
  have hreg : p.1 ∈ factorRegs c := (List.of_mem_zip hp).1
  have hall : ∀ off ∈ factorRegs c, 0x40 ≤ off := by simp [factorRegs, R.CONV_C_CAL_OFS, R.CONV_C_CAL_GAIN, R.CONV_C_CAL_W]; omega
  exact Nat.ble_eq_true_of_le (hall _ hreg)

theorem spares_calAbandon (d code : Nat) : Spares (calAbandon d code) :=
  fun _ => .ite .nil (.seq ⟨.forEach fun _ _ => .seq ⟨spares_factorsPut _ _, .setF (.add (.add rfl)), trivial⟩, .setF (.add rfl),
    .setF (.add rfl), .setF (.add rfl), .setF (.add rfl), trivial⟩)

theorem spares_convStop (c : Nat) : Spares (convStop c) := .seq ⟨.setF (.add (.add rfl)), .setF (.add (.add rfl)), .hidA, trivial⟩

theorem spares_convHalt (c : Nat) : Spares (convHalt c) := fun _ => .ite .hidA (.of (spares_convStop c))

theorem spares_fineHalt (f : Nat) (clk : Bool) : Spares (fineHalt f clk) :=
  .seq ⟨.whenA (.seq ⟨.setF (.add (.add rfl)), .setF (.add (.add rfl)), .hidA, trivial⟩), .whenA .hidA, trivial⟩

theorem spares_convLeave (d : Nat) : Spares (convLeave d) :=
  .seq ⟨spares_calAbandon d 6, .forEach fun c _ => spares_convHalt c, .forEach fun f _ => spares_fineHalt f false, trivial⟩

theorem spares_convIslandStopped (d : Nat) : Spares (convIslandStopped d) :=
  .seq ⟨.forEach fun c _ => spares_convStop c, .forEach fun _ _ => .seq ⟨.setF (.add (.add rfl)), .hidA, trivial⟩, trivial⟩

theorem spares_burstWrite (rs : List (BitVec 64)) : Spares (burstWrite rs) :=
  fun _ => .seq ⟨.only fun _ => .map fun _ => trivial, .hidA, trivial⟩

theorem spares_burstPad : Spares burstPad := fun _ => .only (spares_burstWrite _)

theorem spares_recWrite (x : BitVec 64) : Spares (recWrite x) := fun _ => .seq ⟨.hidA, .only (spares_burstWrite _), trivial⟩

theorem spares_regionTake : Spares regionTake := by
  intro s
  unfold regionTake
  split
  · exact .seq ⟨.setF rfl, .setF rfl, .only .hidA, .seq ⟨spares_recWrite _, .hidA, trivial⟩, trivial⟩
  · exact .seq ⟨.setF rfl, .setF rfl, trivial⟩

theorem spares_recStart : Spares recStart := .whenA (.seq ⟨.hidA, spares_regionTake, trivial⟩)

theorem spares_recStop : Spares recStop := .whenA (.seq ⟨spares_burstPad, .setF rfl, trivial⟩)

theorem spares_canStart (k : Nat) : Spares (canStart k) := fun _ => .seq ⟨.hidA, .setF (.add rfl), .setF (.add rfl), .setF (.add rfl),
  .setF (.add rfl), trivial⟩

theorem spares_canIslandStop : Spares canIslandStop :=
  .forEach fun _ _ => .seq ⟨.seq ⟨.hidA, .setF (.add rfl), trivial⟩, .setF (.add rfl), trivial⟩

theorem spares_ntStart : Spares ntStart := fun _ => .seq ⟨.hidA, fun s => SparesAll.hidA (s := s), .hidA, trivial⟩

theorem spares_ntStop : Spares ntStop := .seq ⟨.hidA, .setF rfl, .setF rfl, trivial⟩

/-! ### Changes of mode and of the island enables -/

theorem spares_relock : Spares relock :=
  fun _ => .ite (.of (.setF rfl)) (.seq ⟨.setF rfl, .setF rfl, .setF rfl, .only (.seq ⟨.setF rfl, .setF rfl, .setF rfl, .bump rfl, trivial⟩),
    .whenA (spares_droneLatch (.setF rfl)), trivial⟩)

theorem spares_modeFollow (a b : Nat) : Spares (modeFollow a b) :=
  fun _ => .seq ⟨.only .hidA, .only (.forEach fun i _ => spares_metRestart i), .only (.whenA .hidA), .only (.setF rfl),
    .only (.seq ⟨spares_calAbandon 0 6, spares_calAbandon 1 6, .forEach fun c _ => spares_convHalt c,
      .forEach fun f _ => spares_fineHalt f false, trivial⟩),
    .only (.forEach fun e _ => spares_boreLeave e), .only (.seq ⟨.forEach fun _ _ => .hidA, .hidA, trivial⟩),
    .only spares_gridLeave, spares_refSwitch _ _, spares_recSend _,
    .only (.seq ⟨spares_sweepAbort, .whenA (.seq ⟨.setF rfl, .setF rfl, trivial⟩), trivial⟩), .only spares_updAbandon, trivial⟩

theorem spares_modeSwitch (a : Nat) : Spares (modeSwitch a) :=
  fun _ => .seq ⟨.only spares_relock, .withS fun _ => spares_modeFollow _ _, trivial⟩

theorem spares_islandsLeave (m : Word) : Spares (islandsLeave m) := .only spares_meterStopAll

theorem spares_islandsDown (m : Word) : Spares (islandsDown m) :=
  .seq ⟨.only (.seq ⟨spares_updDrop, spares_chntStopped, trivial⟩), .forEach fun e _ => spares_boreLeave e, .only spares_gridLeave,
    .only spares_recStop,
    .forEach fun _ _ => .seq ⟨.only (spares_convLeave _), .only (.forEach fun m _ => spares_monStop m), .only (spares_edgesStop _),
      .only (.forEach fun k _ => spares_ligEnd k), .only (.seq ⟨.setF (.add rfl), .setF (.add rfl), .hidA, trivial⟩), trivial⟩,
    .whenA (spares_haltCause _), spares_droneEval, trivial⟩

theorem spares_islandsUp (m : Word) : Spares (islandsUp m) :=
  .seq ⟨.only (spares_chntRelease true), .only (.seq ⟨.setF rfl, .hidA, trivial⟩), .only (.forEach fun i _ => spares_metRestart i),
    .only spares_recStart, .only (.seq ⟨spares_ntStart, .forEach fun k _ => .whenA (spares_canStart k), trivial⟩),
    .forEach fun _ _ => .seq ⟨.only (.forEach fun n _ => .whenA (spares_edgeStart n)), .only (.forEach fun _ _ => .whenA .hidA),
      .only (spares_tripResolve _ false), trivial⟩,
    .whenA (spares_causeEnds _), spares_droneEval, trivial⟩

theorem spares_islandsStopped : Spares islandsStopped :=
  fun _ => .seq ⟨.forEach fun e _ => spares_boreLeave e, .only spares_gridLeave, .only spares_qspiCut,
    .only (.seq ⟨spares_canIslandStop, spares_ntStop, trivial⟩),
    .forEach fun _ _ => .seq ⟨.only (spares_convIslandStopped _), .only (.forEach fun n _ => .whenA (spares_edgeIdle n)),
      .only (.forEach fun k _ => spares_ligStop k), trivial⟩, trivial⟩

/-! ### Commands -/

/-- What every command answers leaves device time and the low registers as its action does: the blocks that follow a change of
mode, and the summaries that have fallen, lie elsewhere. -/
theorem finish_spares (a : Act) (s : State) :
    ∃ t, finish a s = .next t ∧ t.now = (a.run s).now ∧ ∀ off, off < 0x40 → t.rd off = (a.run s).rd off := by
  unfold finish
  simp only
  split
  · exact ⟨_, rfl, run_levelsFall_now _, fun off _ => run_levelsFall_rd _ off⟩
  · refine ⟨_, rfl, ?_, fun off ho => ?_⟩
    · rw [run_seq_cons, run_seq_cons, run_seq_cons, run_seq_nil, run_levelsFall_now, (spares_pinStamp _ _).run_now,
        (spares_modeSwitch _).run_now]
    · rw [run_seq_cons, run_seq_cons, run_seq_cons, run_seq_nil, run_levelsFall_rd, (spares_pinStamp _ _).run_rd _ ho,
        (spares_modeSwitch _).run_rd _ ho]

/-- The island bits that a write of `v` asks for: those that may be written, with HOST and FAB. -/
def islandsAsked (v : Word) : Word := (v &&& islandWritable) ||| 0x2800#32

/-- A write of the enables that R60 refuses records its code alone. -/
theorem run_islandWrite_refused {p : Port} {v : Word} {s : State} {n : Nat} (hup : s.up = true) (hn : islandCheck p v s = n)
    (h0 : n ≠ 0) : (islandWrite p v).run s = (setF F.SYS_ISLAND_STAT_result n).run s := by
  unfold islandWrite
  rw [run_whenA, if_pos hup]
  simp only [Act.run, hn]
  rw [if_pos h0]

/-- One that R60 admits is applied whole. -/
theorem run_islandWrite_applied {p : Port} {v : Word} {s : State} (hup : s.up = true) (hn : islandCheck p v s = 0) :
    (islandWrite p v).run s = (seq [setF F.SYS_ISLAND_STAT_result 0, setB F.SYS_ISLAND_STAT_busy,
      islandsLeave (s.rd R.SYS_ISLAND_EN &&& ~~~ islandsAsked v), setW R.SYS_ISLAND_EN (islandsAsked v),
      islandsDown (s.rd R.SYS_ISLAND_EN &&& ~~~ islandsAsked v), islandsUp (islandsAsked v &&& ~~~ s.rd R.SYS_ISLAND_EN)]).run s := by
  unfold islandWrite
  rw [run_whenA, if_pos hup]
  simp only [Act.run, hn]
  rfl

/-- A gate island is asked for without the trip matrix of its die (R60). -/
@[reducible] def lacksTrip (new : Word) : Prop :=
  (new.getLsbD 19 = true ∧ new.getLsbD 21 = false) ∨ (new.getLsbD 24 = true ∧ new.getLsbD 26 = false)

/-- An enable would rise on a die whose seam link is down (R60). -/
@[reducible] def lacksLink (rise : Word) (s : State) : Prop :=
  (rise &&& 0x3E0000#32 ≠ 0#32 ∧ s.on (F.SYS_SEAM_STAT_up 0) = false) ∨
    (rise &&& 0x7C00000#32 ≠ 0#32 ∧ s.on (F.SYS_SEAM_STAT_up 1) = false)

/-- The table of R60, in its order. -/
theorem islandCheck_eq (p : Port) (v : Word) (s : State) : islandCheck p v s =
    if p = .fw then 7 else if s.on F.SYS_ISLAND_STAT_busy = true then 3 else if lacksTrip (islandsAsked v) then 8
    else if lacksLink (islandsAsked v &&& ~~~ s.rd R.SYS_ISLAND_EN) s then 9 else 0 := by
  unfold islandCheck
  refine if_congr Iff.rfl rfl (if_congr Iff.rfl rfl (if_congr ?_ rfl (if_congr ?_ rfl rfl)))
  · simp only [lacksTrip, islandsAsked, Bool.not_eq_true']
  · simp only [lacksLink, islandsAsked, Bool.not_eq_true']

/-- The code and `busy` lie side by side in `SYS_ISLAND_STAT`. -/
theorem islandStat_result_put_busy (v : Nat) (w : Word) :
    F.SYS_ISLAND_STAT_result.get (F.SYS_ISLAND_STAT_busy.put v w) = F.SYS_ISLAND_STAT_result.get w := by
  unfold Fld.get
  rw [Fld.put_toNat _ _ _ (by decide) (by decide)]
  simp only [F.SYS_ISLAND_STAT_result, F.SYS_ISLAND_STAT_busy]
  omega

/-- A field reads the same in states with the same word at its offset. -/
theorem f_of_rd_eq {s t : State} {x : Fld} (h : t.rd x.off = s.rd x.off) : t.f x = s.f x := congrArg x.get h

/-- A write that R60 admits: the enables take the word, and the change is in progress (R61). -/
theorem completes_islandEnWrite_applied {p : Port} {v : Word} {s : State} (hl : Live p s R.SYS_ISLAND_EN = true)
    (hn : islandCheck p v s = 0) : Completes (.islandEnWrite p v) s fun t => t.rd R.SYS_ISLAND_EN = islandsAsked v ∧
      t.on F.SYS_ISLAND_STAT_busy = true ∧ t.f F.SYS_ISLAND_STAT_result = 0 := by
  obtain ⟨t, ht, -, hlow⟩ := finish_spares (portGate p R.SYS_ISLAND_EN (islandWrite p v)) s
  rw [portGate_of_live _ _ _ _ hl, run_islandWrite_applied (up_of_live hl) hn] at hlow
  simp only [run_seq_cons, run_seq_nil] at hlow
  have hen : t.rd R.SYS_ISLAND_EN = islandsAsked v := by
    rw [hlow _ (by decide), (spares_islandsUp _).run_rd _ (by decide), (spares_islandsDown _).run_rd _ (by decide),
      run_setW_rd, if_pos rfl]
  have hstat : t.rd R.SYS_ISLAND_STAT = ((setF F.SYS_ISLAND_STAT_busy 1).run ((setF F.SYS_ISLAND_STAT_result 0).run s)).rd
      R.SYS_ISLAND_STAT := by
    rw [hlow _ (by decide), (spares_islandsUp _).run_rd _ (by decide), (spares_islandsDown _).run_rd _ (by decide),
      run_setW_rd, if_neg (by decide), (spares_islandsLeave _).run_rd _ (by decide)]
    rfl
  refine ⟨t, ht, hen, decide_eq_true ?_, ?_⟩
  · rw [f_of_rd_eq hstat, run_setF_f _ _ _ (by decide) (by decide)]
    rfl
  · rw [f_of_rd_eq hstat, State.f, run_setF_rd, if_pos (show F.SYS_ISLAND_STAT_result.off = F.SYS_ISLAND_STAT_busy.off from rfl),
      islandStat_result_put_busy]
    exact run_setF_f F.SYS_ISLAND_STAT_result 0 s (by decide) (by decide)

/-- The end of a change clears `busy`; what the stopped blocks do touches neither the enables nor time. -/
theorem completes_islandChangeDone {s : State} (hb : s.on F.SYS_ISLAND_STAT_busy = true) :
    Completes .islandChangeDone s fun t => t.on F.SYS_ISLAND_STAT_busy = false ∧ t.rd R.SYS_ISLAND_EN = s.rd R.SYS_ISLAND_EN ∧
      t.now = s.now := by
  obtain ⟨t, ht, hnow, hlow⟩ := finish_spares islandDone s
  have hrun : islandDone.run s = islandsStopped.run ((setF F.SYS_ISLAND_STAT_busy 0).run s) := by
    rw [islandDone, run_whenA, if_pos hb, run_seq_cons, run_seq_cons, run_seq_nil]
    rfl
  rw [hrun] at hnow hlow
  have hstat : t.rd R.SYS_ISLAND_STAT = ((setF F.SYS_ISLAND_STAT_busy 0).run s).rd R.SYS_ISLAND_STAT := by
    rw [hlow _ (by decide), spares_islandsStopped.run_rd _ (by decide)]
  refine ⟨t, ht, ?_, ?_, ?_⟩
  · rw [State.on, f_of_rd_eq hstat, run_setF_f _ _ _ (by decide) (by decide)]
    rfl
  · rw [hlow _ (by decide), spares_islandsStopped.run_rd _ (by decide), run_setF_rd, if_neg (by decide)]
  · rw [hnow, spares_islandsStopped.run_now, run_setF_now]

/-- Settles O12: the refusals are the table of R60, and every block that a change of the enables stops or starts writes at `0x40` or
above, so the enables and their status stand as the command wrote them. -/
theorem islandEnablesChangeWhole : Obligations.IslandEnablesChangeWhole := by
  unfold Obligations.IslandEnablesChangeWhole
  refine ⟨?_, fun s hb => completes_islandChangeDone hb⟩
  intro s p v hl new rise noTrip noLink c refusedWith
  have hrefuse : ∀ n, islandCheck p v s = n → n ≠ 0 → refusedWith n := by
    intro n hn h0
    refine completes_portGate hl rfl ?_ (by simp +decide)
    rw [run_islandWrite_refused (up_of_live hl) hn h0]
    exact Sets.setF _ _ s
  have hcheck := islandCheck_eq p v s
  refine ⟨fun hp => hrefuse 7 ?_ (by decide), fun hp hb => hrefuse 3 ?_ (by decide), fun hp hb ht => hrefuse 8 ?_ (by decide),
    fun hp hb ht hk => hrefuse 9 ?_ (by decide), fun hp hb ht hk => completes_islandEnWrite_applied hl ?_⟩
  · rw [hcheck, if_pos hp]
  · rw [hcheck, if_neg hp, if_pos hb]
  · rw [hcheck, if_neg hp, if_neg (by simp [hb])]
    exact if_pos ht
  · rw [hcheck, if_neg hp, if_neg (by simp [hb])]
    exact (if_neg ht).trans (if_pos hk)
  · rw [hcheck, if_neg hp, if_neg (by simp [hb])]
    exact (if_neg ht).trans (if_neg hk)

end Sys2Proof.Machine
end

section
/-!
The statements of the family on clocks that fail: the release of the Core die with the system PLL's first lock, and the strobes of
the Slide.  Each refutation names its state, runs the command in it, and says what the statement lacks.
-/

namespace Sys2Proof.Machine

/-- A start from HARVEST that a supply warning has turned into a departure before the system PLL locked (R65): the Core die is still
held in reset. -/
def startGivenUp : State := (pwrA fun p => { p with held := true, trans := .toHarvest }).run State.reset

/-- Refutes O13: the system PLL's first lock is said to release a Core die that is held in reset, but it does so only while the start
to LEAN is in progress (R57, R482).  In `startGivenUp` the transition is one to HARVEST, and the lock leaves the Core die in reset.
The clause would need the premise `s.hid.pwr.trans = .toLean`. -/
theorem not_pllsAndClockFaultsAreReported : ¬ Obligations.PllsAndClockFaultsAreReported := by
  unfold Obligations.PllsAndClockFaultsAreReported
  rintro ⟨⟨-, -, -, -, -, hfirst, -⟩, -⟩
  have hup := (hfirst startGivenUp (by decide +kernel) (by decide +kernel) (by decide +kernel) (by decide +kernel)).answerHas_true
    State.up fun t ⟨hup, _⟩ => hup
  exact absurd hup (by decide +kernel)

/-- The Slide runs at 1 pu, converter 0 takes its triggers from generator 3, and a strobe position of that generator falls in this tick
by the Core die's count; the copy of die North is one Slide clock ahead, as R84 allows. -/
def copyAhead : State :=
  { (seq [setB F.CLK_SLIDE_CFG_en, setB F.CLK_SLIDE_STAT_pll_lock, setF (F.CONV_C_TRIG_kind 0) 2, setF (F.CONV_C_TRIG_index 0) 3,
      clkA fun c => { c with
        cyc := 25599 / 100, cycT := 100, freq := 1, copyN := 1,
        slide := { c.slide with strobe := [0#32, 0#32, 0#32, 0x100001#32] } }]).run State.reset with
    now := 101#64 }

/-- Refutes O15: where the Core die's count is at a strobe position, each converter that names the generator is said to be triggered,
but a die generates its strobes from its own copy of the count, and none crosses the seam (R90).  In `copyAhead` the count of die
North is past the position, and converter 0 takes no trigger.  The clause would need the position by the copy of the converter's die,
`strobeHere s j (some (c / 8))`, in place of the Core die's. -/
theorem not_slideFollowsItsCommands : ¬ Obligations.SlideFollowsItsCommands := by
  unfold Obligations.SlideFollowsItsCommands
  rintro ⟨-, -, -, -, -, -, -, hstrobe, -⟩
  have htrig := (hstrobe copyAhead 3 (by decide +kernel) (by decide +kernel) (by decide +kernel)).answerHas_true
    (fun t => (convSt t 0).trigs = (convSt copyAhead 0).trigs + 1)
    fun t ⟨_, hconv, _⟩ => decide_eq_true (hconv 0 (by decide +kernel) (by decide +kernel))
  exact absurd htrig (by decide +kernel)

end Sys2Proof.Machine
end

section
/-!
The statements of the family on the Fingering, each of which fails in one clause.  DISCARD and APPLY are said to leave the memories,
but the Drone judges its sources with them, and a HALT that it finds due ends CONFIGURE and abandons an update, whose block in work
leaves its sector of the flash undefined.  A HALT that was requested from CONFIGURE is said to complete with its event set, but the
request has set the event, and the host may have cleared it since.
-/

namespace Sys2Proof.Machine

/-! ### A HALT out of CONFIGURE abandons an update (R467) -/

/-- What the blocks do at a HALT out of CONFIGURE before the trigger of the recorder and the end of an update. -/
def haltLead : Act := withS fun s =>
  seq [edgesA fun e => { e with gatePend := 0 }, forEach [0, 1] metRestart, fingQuit .left, refSwitch (refSetWas s) HALT]

/-- What follows a change of mode from CONFIGURE to HALT: the update is abandoned last. -/
theorem run_modeFollow_configure_halt (s : State) :
    (modeFollow CONFIGURE HALT).run s = updAbandon.run ((recSend 6).run (haltLead.run s)) := by
  unfold modeFollow haltLead
  rw [run_fun, run_withS]
  simp +decide [b2n]

/-- A trigger to the recorder is no part of boot and update, nor a free value. -/
theorem run_recSend_boot_fresh (m : Nat) (s : State) :
    ((recSend m).run s).hid.boot = s.hid.boot ∧ ((recSend m).run s).fresh = s.fresh := by
  unfold recSend
  rw [run_whenA]
  split <;> exact ⟨rfl, rfl⟩

/-- An update runs, and its block in work goes to the first sector of the flash. -/
@[reducible] def FirstBlockInWork (s : State) : Prop := s.hid.boot.upd = true ∧ s.hid.boot.work = some (0, []) ∧ updBase s = 0

theorem FirstBlockInWork.of_boot_eq {s t : State} (h : FirstBlockInWork s) (hb : t.hid.boot = s.hid.boot) : FirstBlockInWork t := by
  unfold FirstBlockInWork updBase at *
  rwa [hb]

/-- The action `a` takes state `s` from CONFIGURE to HALT while such a block is in work; the free values that its sector then takes are
those of count `n`. -/
@[reducible] def HaltsInWork (a : Act) (n : Nat) (s : State) : Prop :=
  s.up = true ∧ s.mode = CONFIGURE ∧ (a.run s).up = true ∧ (a.run s).mode = HALT ∧ (a.run s).force ≠ 3 ∧
    FirstBlockInWork (haltLead.run (a.run s)) ∧ (haltLead.run (a.run s)).fresh = n

/-- The first byte of the flash is then undefined. -/
theorem HaltsInWork.completes {a : Act} {n : Nat} {s : State} {c : Instr} (h : HaltsInWork a n s) (he : exec c s = finish a s) :
    Completes c s fun t => t.flByte 0 = Config.freeFlash n 0 := by
  obtain ⟨hup, hmode, hup', hmode', hforce, hblock, hfresh⟩ := h
  have hne : (a.run s).mode ≠ s.mode := by
    rw [hmode', hmode]
    decide
  refine ⟨_, he.trans (finish_follow a s hne hup hup'), ?_⟩
  rw [run_modeSwitch_of_force_ne _ _ hforce, hmode, hmode', run_modeFollow_configure_halt]
  generalize haltLead.run (a.run s) = u at hblock hfresh
  obtain ⟨hboot, hcount⟩ := run_recSend_boot_fresh 6 u
  obtain ⟨hupd, hwork, hbase⟩ := hblock.of_boot_eq hboot
  have hsector := run_updAbandon_flByte _ 0 0 [] hupd hwork (by decide)
  rw [hbase, hcount, hfresh] at hsector
  rw [← hsector]
  exact flByte_of_flash_eq (by rw [run_levelsFall_flash, run_pinStamp_flash]) 0

/-- Such a command does not leave the memories where the flash held another byte. -/
theorem HaltsInWork.not_sameMem {a : Act} {n : Nat} {s : State} {c : Instr} {P : State → Prop} (h : HaltsInWork a n s)
    (he : exec c s = finish a s) (hbyte : s.flByte 0 ≠ Config.freeFlash n 0) (hc : Completes c s P) : ¬ ∀ t, P t → SameMem s t := by
  intro hmem
  obtain ⟨t, ht, hp⟩ := hc
  obtain ⟨u, hu, hfree⟩ := h.completes he
  obtain rfl : t = u := Host.Outcome.next.inj (ht.symm.trans hu)
  obtain ⟨-, hflash, -⟩ := hmem t hp
  exact hbyte ((flByte_of_flash_eq hflash 0).symm.trans hfree)

/-- After `a`: CONFIGURE with a block of an update in work, at whose sector the flash holds a byte that is not the free value to come.
The Drone has counted the demand of the lockstep line, but HALT has not followed, so its next judgement brings HALT.  `CHNT_STAT` and
`PAIR_IEN` are not at reset because they frame the Drone's registers in the table: what a free value decides, the readings of the nodes
and the mirror load, stays between and beyond them, and every other register can be read. -/
def haltDue (a : Act) : State :=
  { (seq [a, setF F.SYS_MODE_STAT_mode CONFIGURE, setB F.CHNT_STAT_running, setW R.PAIR_IEN 1#32,
      chntA fun c => { c with line := true }, droneA fun x => { x with dem := 2 },
      bootA fun b => { b with upd := true, work := some (0, []) }]).run State.reset with
    flash := [(0, Config.freeFlash 1 0 + 1#8)] }

/-- The byte is not the free value. -/
theorem haltDue_flByte_ne (a : Act) : (haltDue a).flByte 0 ≠ Config.freeFlash 1 0 := by
  have hbyte : (haltDue a).flByte 0 = Config.freeFlash 1 0 + 1#8 := rfl
  rw [hbyte]
  bv_omega

/-! ### Commands of the loader -/

theorem exec_fingDiscard (p : Port) (s : State) :
    exec (.fingDiscard p) s = finish (portGate p R.FING_CMD (fingDiscard p)) s := rfl

theorem exec_fingApplyComplete (s : State) : exec .fingApplyComplete s = finish fingApplyDone s := rfl

/-- A structure is in force, and no command runs. -/
def discardHalts : State := haltDue (setF F.FING_STAT_force 1)

/-- Refutes O16: a DISCARD that removes a structure is said to leave the memories, but the Drone judges its sources with the removal,
and in `discardHalts`, where HALT is overdue, the HALT that follows abandons the update (R467), whose block in work leaves its sector
undefined (R445).  The clause would need the premise that no block of an update is in work, or to leave the flash out. -/
theorem not_fingCommandsAreCheckedAndBegin : ¬ Obligations.FingCommandsAreCheckedAndBegin := by
  unfold Obligations.FingCommandsAreCheckedAndBegin
  rintro ⟨-, hbegin⟩
  obtain ⟨-, -, -, -, hdiscard⟩ := hbegin discardHalts .pcie (by decide +kernel) (by decide +kernel) (by decide +kernel)
    (by decide +kernel)
  have hdone := hdiscard (by decide +kernel) (by decide +kernel)
  have hhalt : HaltsInWork (portGate .pcie R.FING_CMD (fingDiscard .pcie)) 1 discardHalts := by decide +kernel
  exact hhalt.not_sameMem (exec_fingDiscard _ _) (haltDue_flByte_ne _) hdone fun t ⟨_, _, _, _, _, _, hmem, _⟩ => hmem

/-- An APPLY of an empty structure runs. -/
def applyHalts : State := haltDue (seq [setB F.FING_STAT_busy, setF F.FING_STAT_loader 4])

/-- Refutes O17: an APPLY that completes is said to leave the memories, but the Drone discards its parameters with it and judges its
sources, and in `applyHalts`, where HALT is overdue, the HALT that follows abandons the update, as with DISCARD.  The clauses of APPLY,
of COMMIT and of an abandoned APPLY, after each of which the Drone judges, would need the premise that no block of an update is in
work, or to leave the flash out. -/
theorem not_fingCommandsEndWithTheirCode : ¬ Obligations.FingCommandsEndWithTheirCode := by
  unfold Obligations.FingCommandsEndWithTheirCode
  rintro ⟨⟨-, happly, -⟩, -⟩
  have hhalt : HaltsInWork fingApplyDone 1 applyHalts := by decide +kernel
  have hdone := happly applyHalts (by decide +kernel) (by decide +kernel) (by decide +kernel) (by decide +kernel) (by decide +kernel)
  exact hhalt.not_sameMem (exec_fingApplyComplete _) (haltDue_flByte_ne _) hdone fun t ⟨_, _, _, _, _, _, _, _, _, hmem, _⟩ => hmem

/-! ### Transitions of the mode -/

/-- HALT was requested from CONFIGURE with force 3, and the host has cleared the event of the request while the SAFETY check runs. -/
def haltAcknowledged : State := (seq [pwrA fun p => { p with trans := .none }, setF F.SYS_MODE_STAT_mode CONFIGURE,
  setF F.FING_STAT_force 3, haltRequest .pcie, clrB F.SYS_MODE_EVENT_halt]).run State.reset

/-- Refutes O20: a HALT that was requested from CONFIGURE with force 3 is said to complete with its event set, but the cause was
recorded, with the event, at the request (R128, R129), and the host may clear the event before the SAFETY check ends.  In
`haltAcknowledged` it has, and the event stays clear.  The clause would need the premise that the event is still set. -/
theorem not_modeTransitionsComplete : ¬ Obligations.ModeTransitionsComplete := by
  unfold Obligations.ModeTransitionsComplete
  rintro ⟨-, -, hhalt, -⟩
  have hevent := (hhalt haltAcknowledged false false (by decide +kernel) (by decide +kernel) (by decide +kernel) (by decide +kernel)
    (by decide +kernel) (by decide +kernel) (by decide +kernel)).answerHas_true (fun t => t.on F.SYS_MODE_EVENT_halt)
    fun t ⟨⟨_, _, _, hevent, _⟩, _⟩ => hevent
  exact absurd hevent (by decide +kernel)

end Sys2Proof.Machine
end

section
/-!
The statements of the family on the operating modes.  A request for a mode is judged by the checks of R120, then by the rows of R122,
and what it sets follows from its code; that is shown first for any request, and each clause then names the check that gives the code.
-/

namespace Sys2Proof.Machine

/-! ### Fields that a change leaves, and fields that it sets -/

theorem fieldWord_cons (x : Fld × Nat) (l : List (Fld × Nat)) (off : Nat) (w : Word) :
    fieldWord (x :: l) off w = fieldWord l off (if x.1.off = off then x.1.put x.2 w else w) := rfl

/-- A word keeps what no field of the list lies in. -/
theorem fieldWord_of_forall_ne {l : List (Fld × Nat)} {off : Nat} (h : ∀ x ∈ l, x.1.off ≠ off) (w : Word) : fieldWord l off w = w := by
  induction l generalizing w with
  | nil => rfl
  | cons x l ih =>
    obtain ⟨hx, hl⟩ := List.forall_mem_cons.1 h
    rw [fieldWord_cons, if_neg hx, ih hl]

/-- A list that names a field's register for this field alone, with one value, leaves that value. -/
theorem get_fieldWord {l : List (Fld × Nat)} {y : Fld} {v : Nat} (h : ∀ x ∈ l, x.1.off = y.off → x = (y, v)) (hy : y.lo ≤ y.hi)
    (hh : y.hi ≤ 31) (w : Word) (hv : (y, v) ∈ l ∨ y.get w = v % 2 ^ (y.hi + 1 - y.lo)) :
    y.get (fieldWord l y.off w) = v % 2 ^ (y.hi + 1 - y.lo) := by
  induction l generalizing w with
  | nil => exact hv.resolve_left List.not_mem_nil
  | cons x l ih =>
    obtain ⟨hx, hl⟩ := List.forall_mem_cons.1 h
    rw [fieldWord_cons]
    refine ih hl _ ?_
    by_cases hoff : x.1.off = y.off
    · rw [if_pos hoff, hx hoff]
      exact .inr (Fld.get_put y v w hy hh)
    · rw [if_neg hoff]
      exact hv.imp_left fun hm => (List.mem_cons.1 hm).resolve_left fun he => hoff (by rw [← he])

theorem Sets.now_eq {l : List (Fld × Nat)} {h : Hid} {s t : State} (a : Sets l h s t) : t.now = s.now := by
  obtain ⟨-, -, hnow, -⟩ := a
  exact hnow

theorem Sets.hid_eq {l : List (Fld × Nat)} {h : Hid} {s t : State} (a : Sets l h s t) : t.hid = h := by
  obtain ⟨-, -, -, hhid, -⟩ := a
  exact hhid

theorem Sets.rd_eq {l : List (Fld × Nat)} {h : Hid} {s t : State} (a : Sets l h s t) (off : Nat) :
    t.rd off = fieldWord l off (s.rd off) := by
  obtain ⟨hregs, -⟩ := a
  exact hregs off

theorem Sets.sameAside {l : List (Fld × Nat)} {h : Hid} {s t : State} (a : Sets l h s t) : SameAside s t := by
  obtain ⟨-, hmem, hnow, -, hresp, hsnap, hlatch, hpending⟩ := a
  exact ⟨hmem, hnow, hresp, hsnap, hlatch, hpending⟩

/-- Registers that no field of a change lies in keep their words. -/
theorem Sets.keepRegs {l : List (Fld × Nat)} {h : Hid} {s t : State} (a : Sets l h s t) {w : Nat → Prop} (hw : ∀ x ∈ l, w x.1.off) :
    KeepRegs w s t :=
  fun off hoff => (a.rd_eq off).trans (fieldWord_of_forall_ne (fun x hx (he : x.1.off = off) => hoff (he ▸ hw x hx)) _)

/-- The mode lies beside the code and `busy` of a request. -/
theorem mode_get_put {x : Fld} (h : x = F.SYS_MODE_STAT_result ∨ x = F.SYS_MODE_STAT_busy) (v : Nat) (w : Word) :
    F.SYS_MODE_STAT_mode.get (x.put v w) = F.SYS_MODE_STAT_mode.get w := by
  rcases h with rfl | rfl <;>
  · unfold Fld.get
    rw [Fld.put_toNat _ _ _ (by decide) (by decide)]
    simp only [F.SYS_MODE_STAT_result, F.SYS_MODE_STAT_busy, F.SYS_MODE_STAT_mode]
    omega

/-- So does the code beside `busy`. -/
theorem result_get_put_busy (v : Nat) (w : Word) :
    F.SYS_MODE_STAT_result.get (F.SYS_MODE_STAT_busy.put v w) = F.SYS_MODE_STAT_result.get w := by
  unfold Fld.get
  rw [Fld.put_toNat _ _ _ (by decide) (by decide)]
  simp only [F.SYS_MODE_STAT_result, F.SYS_MODE_STAT_busy]
  omega

/-- Of `SYS_MODE_STAT` the fields write the code and `busy` alone. -/
def SparesMode (l : List (Fld × Nat)) : Prop :=
  ∀ x ∈ l, x.1.off = R.SYS_MODE_STAT → x.1 = F.SYS_MODE_STAT_result ∨ x.1 = F.SYS_MODE_STAT_busy

theorem SparesMode.get_fieldWord {l : List (Fld × Nat)} (h : SparesMode l) (w : Word) :
    F.SYS_MODE_STAT_mode.get (fieldWord l R.SYS_MODE_STAT w) = F.SYS_MODE_STAT_mode.get w := by
  induction l generalizing w with
  | nil => rfl
  | cons x l ih =>
    obtain ⟨hx, hl⟩ := List.forall_mem_cons.1 h
    rw [fieldWord_cons, ih hl]
    split
    · next hoff => exact mode_get_put (hx hoff) _ _
    · rfl

theorem Sets.mode_of_spares {l : List (Fld × Nat)} {h : Hid} {s t : State} (a : Sets l h s t) (hl : SparesMode l) : t.mode = s.mode :=
  (congrArg _ (a.rd_eq _)).trans (hl.get_fieldWord _)

/-- A command of a port that reaches its register and leaves the mode completes with what its meaning sets. -/
theorem completes_portGate_of_spares {c : Instr} {p : Port} {off : Nat} {a : Act} {s : State} {l : List (Fld × Nat)} {h : Hid}
    (hl : Live p s off = true) (he : exec c s = finish (portGate p off a) s) (hs : Sets l h s (a.run s)) (hm : SparesMode l) :
    Completes c s (Sets l h s) := by
  rw [← portGate_of_live p off a s hl] at hs
  exact ⟨_, he.trans (finish_same _ _ (hs.mode_of_spares hm)), hs.then_levelsFall⟩

/-! ### What a request runs -/

/-- The blocks' state once the write of `SYS_MODE_CMD` by port `p` is noted (R120). -/
def notedHid (p : Port) (s : State) : Hid := withMode s { s.hid.mode with last := some (s.now.toNat / 2, p) }

/-- The same once a transition to `m` has begun with it. -/
def begunHid (p : Port) (m : Nat) (s : State) : Hid :=
  withMode s { s.hid.mode with last := some (s.now.toNat / 2, p), target := m, begun := some (s.now.toNat / 2) }

/-- What the blocks hold once port `p` has written `SYS_MODE_CMD`: a write that lost its FAB cycle is not noted. -/
def modeTakenHid (p : Port) (s : State) : Hid := if modeRaced p s then s.hid else notedHid p s

theorem modeTakenHid_of_first {p : Port} {s : State} (h : modeRaced p s = false) : modeTakenHid p s = notedHid p s := by
  rw [modeTakenHid, h]
  rfl

theorem modeTakenHid_congr (p : Port) {s t : State} (hnow : t.now = s.now) (hhid : t.hid = s.hid) :
    modeTakenHid p t = modeTakenHid p s := by
  unfold modeTakenHid notedHid modeRaced withMode
  rw [hnow, hhid]

theorem sets_modeTaken (p : Port) (s : State) : Sets [] (modeTakenHid p s) s ((modeTaken p).run s) := by
  unfold modeTaken modeTakenHid
  rw [run_whenA]
  cases modeRaced p s
  · exact Sets.hidA _ s
  · exact Sets.refl s

/-- The fields that a refusal with code `c` sets (R120, R132). -/
def refusalFields (c : Nat) : List (Fld × Nat) :=
  [(F.SYS_MODE_STAT_result, c), (F.SYS_MODE_EVENT_refused, 1)] ++ if c = 0x16 then [(F.SYS_MODE_EVENT_overtaken, 1)] else []

theorem sets_modeRefuse (c : Nat) (s : State) : Sets (refusalFields c) s.hid s ((modeRefuse c).run s) := by
  have hcode := (Sets.setF F.SYS_MODE_STAT_result c s).then_setF F.SYS_MODE_EVENT_refused 1
  unfold modeRefuse refusalFields
  simp only [run_seq_cons, run_seq_nil, run_only, setB_eq, decide_eq_true_eq]
  split
  · exact hcode.then_setF _ _
  · exact hcode

theorem sets_modeBegin (m : Nat) (s : State) : Sets [(F.SYS_MODE_STAT_result, 0), (F.SYS_MODE_STAT_busy, 1)]
    (withMode s { s.hid.mode with target := m, begun := some (s.now.toNat / 2) }) s ((modeBegin m).run s) := by
  unfold modeBegin
  rw [run_seq_cons, run_seq_cons, run_seq_cons, run_seq_nil, run_withS, setB_eq, run_setF_now, run_setF_now]
  exact ((Sets.setF _ _ s).then_setF _ _).then_hidA _

/-- Fields that are written one after another. -/
theorem sets_forEach_setF (x : Nat → Fld) (v : Nat → Nat) (l : List Nat) (s : State) :
    Sets (l.map fun e => (x e, v e)) s.hid s ((seq (l.map fun e => setF (x e) (v e))).run s) := by
  induction l generalizing s with
  | nil => exact Sets.refl s
  | cons e l ih =>
    rw [List.map_cons, List.map_cons, run_seq_cons]
    exact (Sets.setF (x e) (v e) s).trans (ih _)

/-- The fields that note the outcome of the step-budget check (R256). -/
def budgetFields (s : State) : List (Fld × Nat) := (programmed s).map fun e => (F.BORE_STAT_budget_ok e, b2n (budgetOk s e))

theorem sets_budgetNote (s : State) : Sets (budgetFields s) s.hid s (budgetNote.run s) := by
  unfold budgetNote budgetFields
  rw [run_fun]
  exact sets_forEach_setF F.BORE_STAT_budget_ok (fun e => b2n (budgetOk s e)) (programmed s) s

/-- The fields with which a request for mode `m` notes that outcome, where its checks reach row 9 of R122. -/
def noteFields (p : Port) (m : Nat) (s : State) : List (Fld × Nat) :=
  if (!modeRaced p s && budgetJudged m (modeCheck p m s) s) = true then budgetFields s else []

theorem sets_requestNote (p : Port) (m : Nat) (s : State) : Sets (noteFields p m s) s.hid s
    ((only (!modeRaced p s && budgetJudged m (modeCheck p m s) s) budgetNote).run s) := by
  unfold noteFields
  rw [run_only]
  split
  · exact sets_budgetNote s
  · exact Sets.refl s

/-- What a request for mode `m` does before it answers. -/
def requestLead (p : Port) (m : Nat) : Act := withS fun s =>
  seq [only (!modeRaced p s && budgetJudged m (modeCheck p m s) s) budgetNote, modeTaken p]

theorem sets_requestLead (p : Port) (m : Nat) (s : State) :
    Sets (noteFields p m s) (modeTakenHid p s) s ((requestLead p m).run s) := by
  have hnote := sets_requestNote p m s
  unfold requestLead
  rw [run_withS, run_seq_cons, run_seq_cons, run_seq_nil]
  generalize (only (!modeRaced p s && budgetJudged m (modeCheck p m s) s) budgetNote).run s = u at hnote ⊢
  have htaken := sets_modeTaken p u
  rw [modeTakenHid_congr p hnote.now_eq hnote.hid_eq] at htaken
  exact (hnote.trans htaken).cast (List.append_nil _) rfl

theorem run_modeRequest {p : Port} {m : Nat} {s : State} (hup : s.up = true) : (modeRequest p m).run s =
    (if modeCode p m s ≠ 0 then modeRefuse (modeCode p m s) else if m = s.mode then setF F.SYS_MODE_STAT_result 0
      else modeBegin m).run ((requestLead p m).run s) := by
  unfold modeRequest requestLead
  rw [run_whenA, if_pos hup, run_fun, run_seq_cons, run_seq_cons, run_seq_cons, run_seq_nil, run_withS, run_seq_cons, run_seq_cons,
    run_seq_nil]

theorem run_haltRequest {p : Port} {s : State} (hup : s.up = true) (h : modeCode p HALT s ≠ 0 ∨ s.mode = HALT) :
    (haltRequest p).run s = (if modeCode p HALT s ≠ 0 then modeRefuse (modeCode p HALT s) else setF F.SYS_MODE_STAT_result 0).run
      ((modeTaken p).run s) := by
  unfold haltRequest
  rw [run_whenA, if_pos hup, run_fun, run_seq_cons, run_seq_cons, run_seq_nil]
  by_cases hc : modeCode p HALT s = 0
  · rw [if_neg (not_not.2 hc), if_neg (not_not.2 hc), if_pos (h.resolve_left (not_not.2 hc))]
  · rw [if_pos hc, if_pos hc]

/-! ### What a request sets -/

theorem sparesMode_append {l l' : List (Fld × Nat)} (h : SparesMode l) (h' : SparesMode l') : SparesMode (l ++ l') :=
  List.forall_mem_append.2 ⟨h, h'⟩

theorem mem_budgetFields {s : State} {x : Fld × Nat} (hx : x ∈ budgetFields s) :
    ∃ e ∈ programmed s, x = (F.BORE_STAT_budget_ok e, b2n (budgetOk s e)) := by
  obtain ⟨e, he, rfl⟩ := List.mem_map.1 hx
  exact ⟨e, he, rfl⟩

/-- The registers of the engines lie above those of the mode. -/
theorem boreStat_off_ne (e off : Nat) (h : off < 0x100000) : (F.BORE_STAT_budget_ok e).off ≠ off := by
  show 0x100004 + e * 0x4000 ≠ off
  omega

theorem mem_noteFields {p : Port} {m : Nat} {s : State} {x : Fld × Nat} (hx : x ∈ noteFields p m s) :
    ∃ e ∈ programmed s, x = (F.BORE_STAT_budget_ok e, b2n (budgetOk s e)) := by
  unfold noteFields at hx
  split at hx
  · exact mem_budgetFields hx
  · cases hx

theorem noteFields_of_raced {p : Port} {m : Nat} {s : State} (h : modeRaced p s = true) : noteFields p m s = [] := by
  unfold noteFields
  rw [h]
  rfl

theorem noteFields_of_not_judged {p : Port} {m : Nat} {s : State} (h : budgetJudged m (modeCheck p m s) s = false) :
    noteFields p m s = [] := by
  unfold noteFields
  rw [h, Bool.and_false]
  rfl

theorem sparesMode_noteFields (p : Port) (m : Nat) (s : State) : SparesMode (noteFields p m s) := by
  intro x hx hoff
  obtain ⟨e, -, rfl⟩ := mem_noteFields hx
  exact absurd hoff (boreStat_off_ne e _ (by decide))

theorem sparesMode_refusalFields (c : Nat) : SparesMode (refusalFields c) := by
  unfold SparesMode refusalFields
  split <;> simp +decide

theorem refusalFields_of_ne {c : Nat} (h : c ≠ 0x16) :
    refusalFields c = [(F.SYS_MODE_STAT_result, c), (F.SYS_MODE_EVENT_refused, 1)] := by
  unfold refusalFields
  rw [if_neg h]
  rfl

theorem boreStat_off_inj {e e' : Nat} (h : (F.BORE_STAT_budget_ok e).off = (F.BORE_STAT_budget_ok e').off) : e = e' := by
  change 0x100004 + e * 0x4000 = 0x100004 + e' * 0x4000 at h
  omega

/-- Each command of `SYS_MODE_CMD` but that for HALT is the request that names its mode. -/
theorem exec_modeCommand (p : Port) (m : Fin 8) (s : State) (h : m.val ≠ HALT) :
    exec (modeCommand p m) s = finish (portGate p R.SYS_MODE_CMD (modeRequest p m)) s := by
  match m with
  | 0 => rfl
  | 1 => rfl
  | 2 => rfl
  | 3 => rfl
  | 4 => rfl
  | 5 => rfl
  | 6 => exact absurd rfl h
  | 7 => rfl

theorem exec_modeReqHalt (p : Port) (s : State) : exec (.modeReqHalt p) s = finish (portGate p R.SYS_MODE_CMD (haltRequest p)) s := rfl

section
variable {p : Port} {m : Nat} {s : State}

theorem sets_modeRequest_refused (hup : s.up = true) (hc : modeCode p m s ≠ 0) :
    Sets (noteFields p m s ++ refusalFields (modeCode p m s)) (modeTakenHid p s) s ((modeRequest p m).run s) := by
  have hlead := sets_requestLead p m s
  rw [run_modeRequest hup, if_pos hc]
  exact hlead.trans ((sets_modeRefuse _ _).cast rfl hlead.hid_eq)

theorem sets_modeRequest_present (hup : s.up = true) (hc : modeCode p m s = 0) (hm : m = s.mode) :
    Sets (noteFields p m s ++ [(F.SYS_MODE_STAT_result, 0)]) (modeTakenHid p s) s ((modeRequest p m).run s) := by
  rw [run_modeRequest hup, if_neg (not_not.2 hc), if_pos hm]
  exact (sets_requestLead p m s).then_setF _ _

theorem sets_modeRequest_begun (hup : s.up = true) (hr : modeRaced p s = false) (hc : modeCode p m s = 0) (hm : m ≠ s.mode) :
    Sets (noteFields p m s ++ [(F.SYS_MODE_STAT_result, 0), (F.SYS_MODE_STAT_busy, 1)])
      (begunHid p m s) s ((modeRequest p m).run s) := by
  have hlead := sets_requestLead p m s
  rw [run_modeRequest hup, if_neg (not_not.2 hc), if_neg hm]
  generalize (requestLead p m).run s = u at hlead ⊢
  have hbegin := sets_modeBegin m u
  unfold withMode at hbegin
  rw [hlead.now_eq, hlead.hid_eq, modeTakenHid_of_first hr] at hbegin
  exact hlead.trans hbegin

theorem sets_haltRequest_refused (hup : s.up = true) (hc : modeCode p HALT s ≠ 0) :
    Sets (refusalFields (modeCode p HALT s)) (modeTakenHid p s) s ((haltRequest p).run s) := by
  have htaken := sets_modeTaken p s
  rw [run_haltRequest hup (.inl hc), if_pos hc]
  exact htaken.trans ((sets_modeRefuse _ _).cast rfl htaken.hid_eq)

theorem sets_haltRequest_present (hup : s.up = true) (hc : modeCode p HALT s = 0) (hm : s.mode = HALT) :
    Sets [(F.SYS_MODE_STAT_result, 0)] (modeTakenHid p s) s ((haltRequest p).run s) := by
  rw [run_haltRequest hup (.inr hm), if_neg (not_not.2 hc)]
  exact (sets_modeTaken p s).then_setF _ _

end

section
variable {p : Port} {m : Fin 8} {s : State}

/-- A request that is refused sets the fields of its code, and of the step budgets that were judged. -/
theorem completes_modeCommand_judged (hl : Live p s R.SYS_MODE_CMD = true) (hm : m.val ≠ HALT) (hc : modeCode p m s ≠ 0) :
    Completes (modeCommand p m) s (Sets (noteFields p m s ++ refusalFields (modeCode p m s)) (modeTakenHid p s) s) :=
  completes_portGate_of_spares hl (exec_modeCommand p m s hm) (sets_modeRequest_refused (up_of_live hl) hc)
    (sparesMode_append (sparesMode_noteFields p m s) (sparesMode_refusalFields _))

/-- A request whose checks do not reach the step budgets is refused with its code. -/
theorem completes_modeCommand_refused {c : Nat} (hl : Live p s R.SYS_MODE_CMD = true) (hc : modeCode p m s = c) (hc0 : c ≠ 0)
    (hn : noteFields p m s = []) : Completes (modeCommand p m) s (Sets (refusalFields c) (modeTakenHid p s) s) := by
  subst hc
  by_cases hm : m.val = HALT
  · obtain rfl : m = 6 := Fin.ext hm
    exact completes_portGate_of_spares hl (exec_modeReqHalt p s) (sets_haltRequest_refused (up_of_live hl) hc0)
      (sparesMode_refusalFields _)
  · have hjudged := completes_modeCommand_judged hl hm hc0
    rwa [hn] at hjudged

/-- A request that names the present mode is accepted. -/
theorem completes_modeCommand_present (hl : Live p s R.SYS_MODE_CMD = true) (hc : modeCode p m s = 0) (hm : m.val = s.mode) :
    Completes (modeCommand p m) s (Sets [(F.SYS_MODE_STAT_result, 0)] (modeTakenHid p s) s) := by
  have hspares : SparesMode [(F.SYS_MODE_STAT_result, 0)] := List.forall_mem_singleton.2 fun _ => .inl rfl
  by_cases hh : m.val = HALT
  · obtain rfl : m = 6 := Fin.ext hh
    exact completes_portGate_of_spares hl (exec_modeReqHalt p s) (sets_haltRequest_present (up_of_live hl) hc hm.symm) hspares
  · have hset := sets_modeRequest_present (up_of_live hl) hc hm
    rw [noteFields_of_not_judged (by simp [budgetJudged, hm])] at hset
    exact completes_portGate_of_spares hl (exec_modeCommand p m s hh) hset hspares

end

/-! ### The code of a request (R120, R132) -/

section
variable {p : Port} {m : Nat} {s : State}

theorem modeCheck_of_firmware (hp : p = .fw) (hm : m ≠ HALT) : modeCheck p m s = 1 := by
  unfold modeCheck
  exact if_pos ⟨hp, hm⟩

theorem modeCheck_of_ride (hp : p ≠ .fw ∨ m = HALT) (hm : m = RIDE) : modeCheck p m s = 2 := by
  unfold modeCheck
  exact (if_neg (by tauto)).trans (if_pos hm)

theorem modeCheck_of_shadow (hp : p ≠ .fw ∨ m = HALT) (hm : m ≠ RIDE) (hr : s.role = 2) : modeCheck p m s = 3 := by
  unfold modeCheck
  exact (if_neg (by tauto)).trans ((if_neg hm).trans (if_pos hr))

theorem modeCheck_of_busy (hp : p ≠ .fw ∨ m = HALT) (hm : m ≠ RIDE) (hr : s.role ≠ 2) (hb : transBusy s = true) :
    modeCheck p m s = 4 := by
  unfold modeCheck
  exact (if_neg (by tauto)).trans ((if_neg hm).trans ((if_neg hr).trans (if_pos hb)))

/-- Past the first four checks a request is judged by its mode. -/
theorem modeCheck_of_free (hp : p ≠ .fw ∨ m = HALT) (hm : m ≠ RIDE) (hr : s.role ≠ 2) (hb : transBusy s = false) :
    modeCheck p m s = if m = s.mode then 0 else if !transAllowed s.mode m then 5 else if !modeInPower s m then 6 else entryCheck m s := by
  unfold modeCheck
  exact (if_neg (by tauto)).trans ((if_neg hm).trans ((if_neg hr).trans (if_neg (by simp [hb]))))

theorem modeCheck_of_path (hp : p ≠ .fw ∨ m = HALT) (hm : m ≠ RIDE) (hr : s.role ≠ 2) (hb : transBusy s = false) (hne : m ≠ s.mode)
    (ht : transAllowed s.mode m = false) : modeCheck p m s = 5 := by
  rw [modeCheck_of_free hp hm hr hb, if_neg hne, if_pos (by simp [ht])]

theorem modeCheck_of_power (hp : p ≠ .fw ∨ m = HALT) (hm : m ≠ RIDE) (hr : s.role ≠ 2) (hb : transBusy s = false) (hne : m ≠ s.mode)
    (ht : transAllowed s.mode m = true) (hw : modeInPower s m = false) : modeCheck p m s = 6 := by
  rw [modeCheck_of_free hp hm hr hb, if_neg hne, if_neg (by simp [ht]), if_pos (by simp [hw])]

theorem modeCheck_of_entry (hp : p ≠ .fw ∨ m = HALT) (hm : m ≠ RIDE) (hr : s.role ≠ 2) (hb : transBusy s = false) (hne : m ≠ s.mode)
    (ht : transAllowed s.mode m = true) (hw : modeInPower s m = true) : modeCheck p m s = entryCheck m s := by
  rw [modeCheck_of_free hp hm hr hb, if_neg hne, if_neg (by simp [ht]), if_neg (by simp [hw])]

theorem modeCode_of_raced (h : modeRaced p s = true) : modeCode p m s = 4 := if_pos h

/-- The first four checks go over an entry to RIDE in the same FAB cycle. -/
theorem modeCode_of_first {c : Nat} (h : modeRaced p s = false) (hc : modeCheck p m s = c) (h0 : c ≠ 0) (h5 : c < 5) :
    modeCode p m s = c := by
  unfold modeCode
  rw [if_neg (by simp [h]), hc]
  exact if_neg (by omega)

theorem modeCode_of_not_overtaken (h : modeRaced p s = false) (ho : rideRaced s = false ∨ m = HALT) :
    modeCode p m s = modeCheck p m s := by
  unfold modeCode
  rw [if_neg (by simp [h])]
  refine if_neg ?_
  rintro ⟨hride, hm, -⟩
  exact ho.elim (fun hf => by simp [hf] at hride) hm

theorem modeCode_of_overtaken (h : modeRaced p s = false) (ho : rideRaced s = true) (hm : m ≠ HALT)
    (hc : modeCheck p m s = 0 ∨ 5 ≤ modeCheck p m s) : modeCode p m s = 0x16 := by
  unfold modeCode
  rw [if_neg (by simp [h])]
  exact if_pos ⟨ho, hm, hc⟩

theorem mode_of_rideRaced (h : rideRaced s = true) : s.mode = RIDE := (of_decide_eq_true h).1

theorem budgetJudged_of_early {c : Nat} (h0 : c ≠ 0) (h : c < 0x0F) : budgetJudged m c s = false := by
  unfold budgetJudged
  exact decide_eq_false (by omega)

end

/-! ### The entry conditions (R122) -/

/-- Which of the fifteen rows of R122 refuse target `m`. -/
def entryFails (m : Nat) (s : State) : List Bool :=
  let run := m = STANDBY ∨ m = FOLLOW ∨ m = FORM
  let switching := m = FOLLOW ∨ m = FORM
  let links := s.on (F.SYS_SEAM_STAT_up 0) = true ∧ s.on (F.SYS_SEAM_STAT_up 1) = true
  [decide ((run ∨ m = SERVICE) ∧ ¬ links),
    decide ((run ∨ m = CONFIGURE) ∧ s.on F.SYS_MODE_STAT_lockstep_broken = true),
    decide ((m = DORMANT ∨ m = STANDBY ∨ m = SERVICE) ∧ s.on F.FING_STAT_busy = true),
    decide (run ∧ s.force < 2),
    decide ((m = FOLLOW ∧ s.on F.FING_FEAT_follow = false) ∨ (m = FORM ∧ s.on F.FING_FEAT_form = false)),
    decide (run ∧ (s.rd R.SYS_ISLAND_EN).toNat &&& needIslands s ≠ needIslands s),
    decide (run ∧ routedCalibrated s = false),
    decide (run ∧ (s.on F.FING_FEAT_fine = true ∨ s.on F.FING_FEAT_whistle = true) ∧
      (s.on F.CLK_SLIDE_CFG_en = false ∨ s.on F.CLK_SLIDE_STAT_pll_lock = false)),
    decide (run ∧ budgetsOk s = false),
    decide (switching ∧ (s.on F.DRONE_STAT_forced_off = true ∨ droneFaulted s = true)),
    decide (m = STANDBY ∧ s.mode = HALT ∧ s.rd R.SYS_HALT_CAUSE ≠ 0#32),
    decide (m = SERVICE ∧ s.role ≠ 0),
    decide (m = SERVICE ∧ s.on F.SYS_MODE_STAT_svckey = false),
    decide (switching ∧ s.mode = RIDE ∧ (m ≠ s.f F.SYS_MODE_STAT_ride_origin ∨ s.on F.SYS_MODE_STAT_ride_recovered = false)),
    decide (m = FOLLOW ∧ s.on F.GRID_STAT_locked = false)]

/-- The code of the first row that refuses, counted from `n`; 0 where none does. -/
def firstCode (n : Nat) : List Bool → Nat
  | [] => 0
  | b :: l => if b then n else firstCode (n + 1) l

theorem firstCode_of_first {l : List Bool} {i n : Nat} (hi : l.getD i false = true) (hj : ∀ j < i, l.getD j false = false) :
    firstCode n l = n + i := by
  induction l generalizing i n with
  | nil => simp at hi
  | cons b l ih =>
    cases i with
    | zero => exact if_pos hi
    | succ i =>
      have hb : b = false := hj 0 (Nat.succ_pos i)
      subst hb
      exact (ih hi fun j h => hj (j + 1) (Nat.succ_lt_succ h)).trans (by omega)

/-- The check of R122 gives the code of the first row that refuses: the rows have the codes from 0x07. -/
theorem entryCheck_eq_firstCode (m : Nat) (s : State) : entryCheck m s = firstCode 0x07 (entryFails m s) := by
  unfold entryCheck entryFails islandsOn
  simp only [firstCode, decide_eq_true_eq, Bool.not_eq_true', decide_eq_false_iff_not, not_and_or, Bool.not_eq_true, ne_eq]

theorem eq_false_of_firstCode_eq_zero {l : List Bool} {n : Nat} (hn : n ≠ 0) (h : firstCode n l = 0) (i : Nat) :
    l.getD i false = false := by
  induction l generalizing n i with
  | nil => rfl
  | cons b l ih =>
    cases b
    · cases i with
      | zero => rfl
      | succ i => exact ih (Nat.succ_ne_zero n) h i
    · exact absurd h hn

/-- Row 9: a request for a running mode passes only with every step budget kept. -/
theorem budgetsOk_of_entryCheck {m : Nat} {s : State} (hm : m = STANDBY ∨ m = FOLLOW ∨ m = FORM) (h : entryCheck m s = 0) :
    budgetsOk s = true := by
  rw [entryCheck_eq_firstCode] at h
  have hrow : decide ((m = STANDBY ∨ m = FOLLOW ∨ m = FORM) ∧ budgetsOk s = false) = false :=
    eq_false_of_firstCode_eq_zero (by decide) h 8
  exact eq_true_of_ne_false fun hb => of_decide_eq_false hrow ⟨hm, hb⟩

/-! ### The requests that begin a transition -/

section
variable {p : Port} {m : Fin 8} {s : State}

theorem sparesMode_begun : SparesMode [(F.SYS_MODE_STAT_result, 0), (F.SYS_MODE_STAT_busy, 1)] := by simp [SparesMode]

/-- A request whose checks all pass begins its transition, the noted outcome of the step-budget check beside it. -/
theorem completes_modeCommand_begun (hl : Live p s R.SYS_MODE_CMD = true) (hr : modeRaced p s = false) (ho : rideRaced s = false)
    (hm : m.val ≠ HALT) (hne : s.mode ≠ m) (hc : modeCheck p m s = 0) :
    Completes (modeCommand p m) s (Sets (noteFields p m s ++ [(F.SYS_MODE_STAT_result, 0), (F.SYS_MODE_STAT_busy, 1)])
      (begunHid p m s) s) := by
  have hcode : modeCode p m s = 0 := (modeCode_of_not_overtaken hr (.inl ho)).trans hc
  exact completes_portGate_of_spares hl (exec_modeCommand p m s hm) (sets_modeRequest_begun (up_of_live hl) hr hcode hne.symm)
    (sparesMode_append (sparesMode_noteFields p m s) sparesMode_begun)

/-- One for a mode that does not run an engine notes nothing. -/
theorem completes_modeCommand_begins (hl : Live p s R.SYS_MODE_CMD = true) (hr : modeRaced p s = false) (ho : rideRaced s = false)
    (hm : m.val ≠ HALT) (hrun : ¬ (m.val = STANDBY ∨ m.val = FOLLOW ∨ m.val = FORM)) (hne : s.mode ≠ m) (hc : modeCheck p m s = 0) :
    Completes (modeCommand p m) s (Sets [(F.SYS_MODE_STAT_result, 0), (F.SYS_MODE_STAT_busy, 1)] (begunHid p m s) s) := by
  have hbegun := completes_modeCommand_begun hl hr ho hm hne hc
  rwa [noteFields_of_not_judged (by simp [budgetJudged, hrun])] at hbegun

/-- A running mode passes its row of the step budgets. -/
theorem entryCheck_of_modeCheck {m : Nat} (hne : m ≠ s.mode) (hc : modeCheck p m s = 0) : entryCheck m s = 0 := by
  unfold modeCheck at hc
  split_ifs at hc
  exact hc

theorem lt_of_mem_programmed {e : Nat} (he : e ∈ programmed s) : e < 8 := List.mem_range.1 (List.mem_of_mem_filter he)

/-- The registers that the notes of the step budgets lie in. -/
theorem noteFields_off {m : Nat} {x : Fld × Nat} (hx : x ∈ noteFields p m s) : ∃ e : Fin 8, x.1.off = R.BORE_STAT e := by
  obtain ⟨e, he, rfl⟩ := mem_noteFields hx
  exact ⟨⟨e, lt_of_mem_programmed he⟩, rfl⟩

theorem noteFields_off_ne {m off : Nat} (h : off < 0x100000) : ∀ x ∈ noteFields p m s, x.1.off ≠ off := by
  intro x hx
  obtain ⟨e, -, rfl⟩ := mem_noteFields hx
  exact boreStat_off_ne e off h

/-- Where every step budget is kept, each is noted as kept, and nothing that a request writes beside the notes changes that. -/
theorem get_budget_ok {l : List (Fld × Nat)} {e : Nat} (hall : budgetsOk s = true) (he : e ∈ programmed s)
    (hl : ∀ x ∈ l, x.1.off < 0x100000) (w : Word) :
    (F.BORE_STAT_budget_ok e).get (fieldWord (budgetFields s ++ l) (R.BORE_STAT e) w) = 1 := by
  have hok : ∀ e ∈ programmed s, b2n (budgetOk s e) = 1 := fun e he => by rw [List.all_eq_true.1 hall e he]; rfl
  refine get_fieldWord (y := F.BORE_STAT_budget_ok e) (v := 1) ?_ le_rfl (by decide : 3 ≤ 31) w (.inl ?_)
  · refine List.forall_mem_append.2 ⟨fun x hx hoff => ?_, fun x hx hoff => absurd hoff.symm (boreStat_off_ne e _ (hl x hx))⟩
    obtain ⟨e', he', rfl⟩ := mem_budgetFields hx
    obtain rfl : e' = e := boreStat_off_inj hoff
    rw [hok e' he']
  · rw [← hok e he]
    exact List.mem_append_left _ (List.mem_map_of_mem he)

/-- A request for a running mode whose checks all pass begins its transition with every step budget noted as kept. -/
theorem completes_modeCommand_runs (hl : Live p s R.SYS_MODE_CMD = true) (hr : modeRaced p s = false) (ho : rideRaced s = false)
    (hrun : m.val = STANDBY ∨ m.val = FOLLOW ∨ m.val = FORM) (hne : s.mode ≠ m) (hc : modeCheck p m s = 0) :
    Completes (modeCommand p m) s fun t =>
      t.f F.SYS_MODE_STAT_result = 0 ∧ t.on F.SYS_MODE_STAT_busy = true ∧ t.mode = s.mode ∧ t.hid = begunHid p m s ∧
      (∀ e, e ∈ programmed s → t.on (F.BORE_STAT_budget_ok e) = true) ∧
      KeepRegs (fun off => off = R.SYS_MODE_STAT ∨ ∃ e : Fin 8, off = R.BORE_STAT e) s t ∧ SameMem s t ∧ t.now = s.now := by
  have hhalt : m.val ≠ HALT := by rintro h; simp [h, HALT, STANDBY, FOLLOW, FORM] at hrun
  have hnotes : noteFields p m s = budgetFields s := by
    unfold noteFields budgetJudged
    exact if_pos (by simp [hr, hrun, hne.symm, hc])
  have hbudget := budgetsOk_of_entryCheck hrun (entryCheck_of_modeCheck hne.symm hc)
  obtain ⟨t, ht, hset⟩ := completes_modeCommand_begun hl hr ho hhalt hne hc
  have hregs := hset.rd_eq
  obtain ⟨hmem, hnow, -⟩ := hset.sameAside
  have hstat : t.rd R.SYS_MODE_STAT = F.SYS_MODE_STAT_busy.put 1 (F.SYS_MODE_STAT_result.put 0 (s.rd R.SYS_MODE_STAT)) := by
    rw [hregs, fieldWord_append, fieldWord_of_forall_ne (noteFields_off_ne (by decide))]
    rfl
  refine ⟨t, ht, ?_, ?_, ?_, hset.hid_eq, fun e he => ?_, hset.keepRegs ?_, hmem, hnow⟩
  · exact (congrArg _ hstat).trans ((result_get_put_busy _ _).trans (Fld.get_put _ _ _ (by decide) (by decide)))
  · exact decide_eq_true ((congrArg _ hstat).trans (Fld.get_put _ _ _ (by decide) (by decide)))
  · exact hset.mode_of_spares (sparesMode_append (sparesMode_noteFields p m s) sparesMode_begun)
  · rw [hnotes] at hregs
    exact decide_eq_true ((congrArg _ (hregs _)).trans (get_budget_ok hbudget he (by simp +decide) _))
  · exact List.forall_mem_append.2 ⟨fun x hx => .inr (noteFields_off hx), by simp +decide⟩

/-- A request that row `i` of R122 refuses first. -/
theorem completes_modeCommand_of_row {i : Fin 15} (hl : Live p s R.SYS_MODE_CMD = true) (hr : modeRaced p s = false)
    (hm : m.val ≠ HALT) (hc : modeCode p m s = 7 + i) (hcheck : modeCheck p m s = 7 + i) :
    Completes (modeCommand p m) s fun t =>
      t.f F.SYS_MODE_STAT_result = 7 + i ∧ t.on F.SYS_MODE_EVENT_refused = true ∧ t.mode = s.mode ∧
      t.hid = notedHid p s ∧ SameAside s t ∧
      KeepRegs (fun off => off = R.SYS_MODE_STAT ∨ off = R.SYS_MODE_EVENT ∨ (8 ≤ i.val ∧ ∃ e : Fin 8, off = R.BORE_STAT e)) s t := by
  obtain ⟨t, ht, hset⟩ := completes_modeCommand_judged hl hm (by omega : modeCode p m s ≠ 0)
  rw [hc, refusalFields_of_ne (by omega), modeTakenHid_of_first hr] at hset
  have hword : ∀ off < 0x100000, t.rd off = fieldWord [(F.SYS_MODE_STAT_result, 7 + i.val), (F.SYS_MODE_EVENT_refused, 1)] off (s.rd off) :=
    fun off hoff => by rw [hset.rd_eq, fieldWord_append, fieldWord_of_forall_ne (noteFields_off_ne hoff)]
  refine ⟨t, ht, ?_, ?_, hset.mode_of_spares ?_, hset.hid_eq, hset.sameAside, hset.keepRegs ?_⟩
  · refine (congrArg _ (hword _ (by decide))).trans ((Fld.get_put _ _ _ (by decide) (by decide)).trans (Nat.mod_eq_of_lt ?_))
    exact (by omega : 7 + i.val < 256)
  · exact decide_eq_true ((congrArg _ (hword _ (by decide))).trans (Fld.get_put _ _ _ (by decide) (by decide)))
  · exact sparesMode_append (sparesMode_noteFields p m s) (by simp +decide [SparesMode])
  · refine List.forall_mem_append.2 ⟨fun x hx => ?_, by simp +decide⟩
    by_cases h8 : 8 ≤ i.val
    · exact .inr (.inr ⟨h8, noteFields_off hx⟩)
    · rw [noteFields_of_not_judged (hcheck ▸ budgetJudged_of_early (by omega) (by omega))] at hx
      cases hx

/-- One that another port's write of the same FAB cycle overtook is not noted at all. -/
theorem completes_modeCommand_raced (hl : Live p s R.SYS_MODE_CMD = true) (h : modeRaced p s = true) :
    Completes (modeCommand p m) s (Sets [(F.SYS_MODE_STAT_result, 4), (F.SYS_MODE_EVENT_refused, 1)] s.hid s) := by
  have hdone := completes_modeCommand_refused (m := m) hl (modeCode_of_raced h) (by decide) (noteFields_of_raced h)
  rwa [refusalFields_of_ne (by decide), modeTakenHid, if_pos h] at hdone

/-- One that a check before the step budgets refuses, or RIDE overtook. -/
theorem completes_modeCommand_unjudged {c : Nat} (hl : Live p s R.SYS_MODE_CMD = true) (hr : modeRaced p s = false)
    (hc : modeCode p m s = c) (hc0 : c ≠ 0) (h0 : modeCheck p m s ≠ 0) (hf : modeCheck p m s < 0x0F) :
    Completes (modeCommand p m) s (Sets (refusalFields c) (notedHid p s) s) := by
  have hdone := completes_modeCommand_refused hl hc hc0 (noteFields_of_not_judged (budgetJudged_of_early h0 hf))
  rwa [modeTakenHid_of_first hr] at hdone

/-- The first four checks refuse with their codes. -/
theorem completes_modeCommand_early {c : Nat} (hl : Live p s R.SYS_MODE_CMD = true) (hr : modeRaced p s = false)
    (hc : modeCheck p m s = c) (h0 : c ≠ 0) (h5 : c < 5) :
    Completes (modeCommand p m) s (Sets [(F.SYS_MODE_STAT_result, c), (F.SYS_MODE_EVENT_refused, 1)] (notedHid p s) s) := by
  have hdone := completes_modeCommand_unjudged hl hr (modeCode_of_first hr hc h0 h5) h0 (by omega) (by omega)
  rwa [refusalFields_of_ne (by omega)] at hdone

/-- The checks of the path and of the power state refuse with theirs where RIDE has not overtaken the request. -/
theorem completes_modeCommand_barred {c : Nat} (hl : Live p s R.SYS_MODE_CMD = true) (hr : modeRaced p s = false)
    (ho : rideRaced s = false ∨ m.val = HALT) (hc : modeCheck p m s = c) (h0 : c ≠ 0) (hf : c < 0x0F) :
    Completes (modeCommand p m) s (Sets [(F.SYS_MODE_STAT_result, c), (F.SYS_MODE_EVENT_refused, 1)] (notedHid p s) s) := by
  have hdone := completes_modeCommand_unjudged hl hr ((modeCode_of_not_overtaken hr ho).trans hc) h0 (by omega) (by omega)
  rwa [refusalFields_of_ne (by omega)] at hdone

end

/-- Settles O18: the code of a request is read off the checks of R120 and R122 in their order, and what it sets follows from the code;
the one write beside its own registers is the note of the step budgets. -/
theorem modeRequestsAreCheckedAndBegin : Obligations.ModeRequestsAreCheckedAndBegin := by
  unfold Obligations.ModeRequestsAreCheckedAndBegin
  refine ⟨fun s p m hl => ?_, fun s p m hl hr ho hp hrole hbusy hne hpath hpower hhalt hride => ?_, fun s p hl hr ho => ?_⟩
  · refine ⟨completes_modeCommand_raced hl, ?_, ?_, ?_, ?_, ?_, ?_, ?_, ?_, ?_⟩
    · exact fun hr hp hm => completes_modeCommand_early hl hr (modeCheck_of_firmware hp hm) (by decide) (by decide)
    · exact fun ⟨hr, hp⟩ hm => completes_modeCommand_early hl hr (modeCheck_of_ride hp hm) (by decide) (by decide)
    · intro hr
      by_cases hp : p = .fw
      · rw [if_pos hp]
        exact completes_modeCommand_early (m := 5) hl hr (modeCheck_of_firmware hp (by decide)) (by decide) (by decide)
      · rw [if_neg hp]
        exact completes_modeCommand_early (m := 5) hl hr (modeCheck_of_ride (.inl hp) rfl) (by decide) (by decide)
    · exact fun ⟨hr, hp⟩ hm h2 => completes_modeCommand_early hl hr (modeCheck_of_shadow hp hm h2) (by decide) (by decide)
    · exact fun ⟨hr, hp⟩ hm h2 hb => completes_modeCommand_early hl hr (modeCheck_of_busy hp hm h2 hb) (by decide) (by decide)
    · rintro ⟨⟨hr, hp⟩, hm, h2, hb⟩ hsame
      have hcheck := (modeCheck_of_free hp hm h2 hb).trans (if_pos hsame)
      have ho : rideRaced s = false := eq_false_of_ne_true fun h => hm (hsame.trans (mode_of_rideRaced h))
      have hdone := completes_modeCommand_present hl ((modeCode_of_not_overtaken hr (.inl ho)).trans hcheck) hsame
      rwa [modeTakenHid_of_first hr] at hdone
    · rintro ⟨⟨hr, hp⟩, hm, h2, hb⟩ ho hh hbarred
      have hne : m.val ≠ s.mode := fun h => hm (h.trans (mode_of_rideRaced ho))
      have hcheck : modeCheck p m s = 5 ∨ modeCheck p m s = 6 := by
        cases hpath : transAllowed s.mode m
        · exact .inl (modeCheck_of_path hp hm h2 hb hne hpath)
        · exact .inr (modeCheck_of_power hp hm h2 hb hne hpath (hbarred.resolve_left (by simp [hpath])))
      exact completes_modeCommand_unjudged hl hr (modeCode_of_overtaken hr ho hh (by omega)) (by decide) (by omega) (by omega)
    · rintro ⟨⟨⟨hr, hp⟩, hm, h2, hb⟩, ho⟩ hne hpath
      exact completes_modeCommand_barred hl hr ho (modeCheck_of_path hp hm h2 hb hne hpath) (by decide) (by decide)
    · rintro ⟨⟨⟨hr, hp⟩, hm, h2, hb⟩, ho⟩ hne hpath - hpower
      exact completes_modeCommand_barred hl hr ho (modeCheck_of_power hp hm h2 hb hne hpath hpower) (by decide) (by decide)
  · intro run switching links fails i hi hj
    have hcheck : modeCheck p m s = 7 + i := by
      rw [modeCheck_of_entry (.inl hp) hride hrole hbusy hne hpath hpower, entryCheck_eq_firstCode]
      exact firstCode_of_first hi fun j h => hj ⟨j, h.trans i.isLt⟩ h
    exact completes_modeCommand_of_row hl hr hhalt ((modeCode_of_not_overtaken hr (.inl ho)).trans hcheck) hcheck
  · refine ⟨?_, ?_, ?_, ?_, ?_, ?_⟩
    · exact completes_modeCommand_begins (m := 0) hl hr ho (by decide) (by decide)
    · exact completes_modeCommand_begins (m := 1) hl hr ho (by decide) (by decide)
    · exact completes_modeCommand_begins (m := 7) hl hr ho (by decide) (by decide)
    · exact completes_modeCommand_runs (m := 2) hl hr ho (by decide)
    · exact completes_modeCommand_runs (m := 3) hl hr ho (by decide)
    · exact completes_modeCommand_runs (m := 4) hl hr ho (by decide)

end Sys2Proof.Machine
end

section
/-!
The statements of the family on HALT and on the session frames of a pair that fail, each in one clause: a HALT cause that its own HALT
ends, and a heartbeat whose mode abandons an update.
-/

namespace Sys2Proof.Machine

/-! ### What the blocks leave at a HALT out of CONFIGURE -/

theorem on_of_rd_eq {s t : State} {x : Fld} (h : t.rd x.off = s.rd x.off) : t.on x = s.on x :=
  congrArg (fun n => decide (n = 1)) (f_of_rd_eq h)

/-- The times at which pins went low are no registers. -/
theorem run_pinStamp_rd (was : State) (l : List Nat) (s : State) (off : Nat) : ((pinStamp was l).run s).rd off = s.rd off := by
  have hall : ∀ (now : BitVec 64) (l : List Nat) (s : State),
      ((forEach l fun n => edgeA n fun x => { x with lowT := now }).run s).rd off = s.rd off := by
    intro now l
    induction l with
    | nil => exact fun _ => rfl
    | cons n l ih => exact fun s => by rw [run_forEach_cons, ih]; rfl
  exact hall _ _ s

/-- Nor is a trigger to the recorder. -/
theorem run_recSend_rd (m : Nat) (s : State) (off : Nat) : ((recSend m).run s).rd off = s.rd off := by
  unfold recSend
  rw [run_whenA]
  split <;> rfl

/-- With no update running there is none to abandon. -/
theorem run_updAbandon_of_none {s : State} (h : s.hid.boot.upd = false) : updAbandon.run s = s := by
  unfold updAbandon
  rw [run_whenA, h]
  rfl

/-- A change of mode from CONFIGURE with force 3: the SAFETY check comes first (R123). -/
theorem run_modeSwitch_of_force_eq {s : State} (h : s.force = 3) :
    (modeSwitch CONFIGURE).run s = (modeFollow CONFIGURE (relock.run s).mode).run (relock.run s) := by
  unfold modeSwitch
  rw [run_fun, run_seq_cons, run_only, if_pos (by simp [h]), run_seq_cons, run_seq_nil, run_withS]

/-! ### HALT causes -/

theorem exec_haltCauseActive (c : Fin 12) (s : State) : exec (.haltCauseActive c) s = finish (haltCauseActive c) s := rfl

/-- A Leader in CONFIGURE with force 3, its ROLE high, holds parameters that fail the SAFETY check.  The demand of the fault that follows
stands in the Drone already, and `CHNT_STAT` and `PAIR_IEN` are not at reset, so that no register is read past those that show what the
nodes read, which is free. -/
def leaderRecheckFails : State := (seq [setF F.SYS_MODE_STAT_mode CONFIGURE, setF F.FING_STAT_force 3, setF F.SYS_MODE_STAT_role 1,
  pairA fun p => { p with roleHigh := true }, setB F.DRONE_STAT_accepted, setW (R.DRONE_PARAM 0) 1#32,
  setB F.CHNT_STAT_running, setW R.PAIR_IEN 1#32, droneA fun x => { x with dem := 2 ^ 17 }]).run State.reset

/-- HALT cause `pair` ends CONFIGURE, the SAFETY check fails with that, the parameter fault takes ROLE down, and the device that is SOLO
then has no such cause live. -/
theorem leaderRecheckFails_haltCauseActive :
    Completes (.haltCauseActive 10) leaderRecheckFails fun t => t.on (liveBit 10) = false := by
  refine ⟨_, (exec_haltCauseActive _ _).trans (finish_follow (haltCauseActive 10) leaderRecheckFails (by decide +kernel)
    (by decide +kernel) (by decide +kernel)), ?_⟩
  have hfrom : leaderRecheckFails.mode = CONFIGURE := by decide +kernel
  have hforce : ((haltCauseActive 10).run leaderRecheckFails).force = 3 := by decide +kernel
  have hto : (relock.run ((haltCauseActive 10).run leaderRecheckFails)).mode = HALT := by decide +kernel
  have hupd : (haltLead.run (relock.run ((haltCauseActive 10).run leaderRecheckFails))).hid.boot.upd = false := by decide +kernel
  have hlive : (haltLead.run (relock.run ((haltCauseActive 10).run leaderRecheckFails))).on (liveBit 10) = false := by decide +kernel
  rw [hfrom, run_modeSwitch_of_force_eq hforce, hto, run_modeFollow_configure_halt]
  generalize haltLead.run (relock.run ((haltCauseActive 10).run leaderRecheckFails)) = u at hupd hlive
  obtain ⟨hboot, -⟩ := run_recSend_boot_fresh 6 u
  rw [run_updAbandon_of_none (by rw [hboot, hupd])]
  exact (on_of_rd_eq (by rw [run_levelsFall_rd, run_pinStamp_rd, run_recSend_rd])).trans hlive

/-- Refutes O19: a cause that is not momentary is said to be live once it has brought HALT, but cause `pair` is so no longer where the
device ends SOLO with it (R400, R402).  In `leaderRecheckFails` the SAFETY check fails on leaving CONFIGURE (R123), the parameter fault
takes a Leader's ROLE down (R398, R409), and cause 10 does not read live.  The clause would need the premise that CONFIGURE is not left
with force 3, which its neighbour on the code has, or that `c` is another cause. -/
theorem not_haltIsEnteredAndItsCausesClear : ¬ Obligations.HaltIsEnteredAndItsCausesClear := by
  unfold Obligations.HaltIsEnteredAndItsCausesClear
  rintro ⟨⟨-, -, -, -, hcause⟩, -⟩
  obtain ⟨t, ht, -, -, hlive, -⟩ := hcause leaderRecheckFails 10 (by decide +kernel) (by decide +kernel) (.inl (by decide +kernel))
  obtain ⟨u, hu, hended⟩ := leaderRecheckFails_haltCauseActive
  obtain rfl : t = u := Host.Outcome.next.inj (ht.symm.trans hu)
  exact absurd (hended.symm.trans hlive) (by decide)

/-! ### Heartbeats -/

theorem exec_heart (m : HeartMsg) (ctr : BitVec 40) (peer : Bool) (s : State) :
    exec (.heart m ctr peer) s = finish (heartRx m ctr peer) s := rfl

/-- A Shadow in CONFIGURE with a block of an update in work; island PAIR runs. -/
def shadowUpdates : State := haltDue (seq [setF F.SYS_MODE_STAT_role 2, setW R.SYS_ISLAND_EN 0x07FFFFFF#32])

/-- The heartbeat of a Leader in HALT. -/
def leaderHalts : HeartMsg := { time := 0, role := 1#2, mode := 6, origin := 0, recovered := false, causes := 0 }

/-- Refutes O46: a heartbeat that gives a Shadow the Leader's mode is said to leave the memories, but the Shadow of `shadowUpdates` leaves
CONFIGURE with it, which abandons its update (R467), and the sector of the block in work is left undefined (R445).  The clause would
need the premise that no block of an update is in work, or to leave the flash out. -/
theorem not_sessionFramesAreCountedAndTaken : ¬ Obligations.SessionFramesAreCountedAndTaken := by
  unfold Obligations.SessionFramesAreCountedAndTaken
  rintro ⟨-, -, hheart, -⟩
  have hdone := hheart shadowUpdates leaderHalts 1 true (by decide +kernel) (by decide +kernel) (by decide +kernel)
    (by decide +kernel) (by decide +kernel) (by decide +kernel)
  have hhalt : HaltsInWork (heartRx leaderHalts 1 true) 1 shadowUpdates := by decide +kernel
  exact hhalt.not_sameMem (exec_heart _ _ _ _) (haltDue_flByte_ne _) hdone fun t ⟨_, _, _, _, ⟨hmem, _⟩, _⟩ => hmem

end Sys2Proof.Machine
end

section
/-!
What the statements on the converters share.  A field keeps its value where a list of written fields leaves its bits alone, and takes the
one value that the list has for it; a change whose effect on some registers is not followed (`SetsBut`), and the actions that change
nothing but those (`Confined`).
-/

namespace Sys2Proof.Machine

/-! ### The bits of a field -/

/-- A written field holds the bits of the value; the others stay. -/
theorem Fld.getLsbD_put (x : Fld) (v : Nat) (w : Word) (j : Nat) (h : x.lo ≤ x.hi) (hh : x.hi ≤ 31) :
    (x.put v w).getLsbD j = if x.lo ≤ j ∧ j ≤ x.hi then v.testBit (j - x.lo) else w.getLsbD j := by
  have hsum : x.put v w = BitVec.ofNat 32 (2 ^ (x.hi + 1) * (w.toNat / 2 ^ (x.hi + 1)) +
      (2 ^ x.lo * (v % 2 ^ (x.hi + 1 - x.lo)) + w.toNat % 2 ^ x.lo)) := by
    unfold Fld.put
    rw [Nat.mul_comm (2 ^ (x.hi + 1)), Nat.mul_comm (2 ^ x.lo), Nat.add_assoc]
  have hlow : w.toNat % 2 ^ x.lo < 2 ^ x.lo := Nat.mod_lt _ (Nat.two_pow_pos _)
  have hmid : 2 ^ x.lo * (v % 2 ^ (x.hi + 1 - x.lo)) + w.toNat % 2 ^ x.lo < 2 ^ (x.hi + 1) := by
    have hv : v % 2 ^ (x.hi + 1 - x.lo) < 2 ^ (x.hi + 1 - x.lo) := Nat.mod_lt _ (Nat.two_pow_pos _)
    calc _ < 2 ^ x.lo * (v % 2 ^ (x.hi + 1 - x.lo)) + 2 ^ x.lo := by omega
      _ = 2 ^ x.lo * (v % 2 ^ (x.hi + 1 - x.lo) + 1) := by rw [Nat.mul_add, Nat.mul_one]
      _ ≤ 2 ^ x.lo * 2 ^ (x.hi + 1 - x.lo) := Nat.mul_le_mul_left _ hv
      _ = 2 ^ (x.hi + 1) := by rw [← Nat.pow_add]; congr 1; omega
  rw [hsum, BitVec.getLsbD_ofNat, Nat.testBit_two_pow_mul_add _ hmid, Nat.testBit_two_pow_mul_add _ hlow]
  simp only [Nat.testBit_mod_two_pow, Nat.testBit_div_two_pow, BitVec.getLsbD]
  have hword : ∀ j, ¬ j < 32 → w.toNat.testBit j = false := fun j hj =>
    Nat.testBit_lt_two_pow (Nat.lt_of_lt_of_le w.isLt (Nat.pow_le_pow_right (by decide) (by omega)))
  by_cases hj : j < 32
  · by_cases h1 : j < x.lo
    · simp [hj, h1, show j < x.hi + 1 by omega, show ¬ x.lo ≤ j by omega]
    · by_cases h2 : j < x.hi + 1
      · simp [hj, h1, h2, show x.lo ≤ j by omega, show j ≤ x.hi by omega, show j - x.lo < x.hi + 1 - x.lo by omega]
      · simp [hj, h2, show ¬ j ≤ x.hi by omega, show j - (x.hi + 1) + (x.hi + 1) = j by omega]
  · rw [hword j hj]
    simp [hj, show ¬ j ≤ x.hi by omega]

theorem Fld.testBit_get (y : Fld) (w : Word) (j : Nat) :
    (y.get w).testBit j = (decide (j < y.hi + 1 - y.lo) && w.getLsbD (y.lo + j)) := by
  rw [Fld.get, Nat.testBit_mod_two_pow, Nat.testBit_div_two_pow, Nat.add_comm j, BitVec.getLsbD]

theorem Fld.get_lt (y : Fld) (w : Word) : y.get w < 2 ^ (y.hi + 1 - y.lo) := Nat.mod_lt _ (Nat.two_pow_pos _)

/-- Fields of different registers, or of different bits of one. -/
def Fld.Apart (x y : Fld) : Prop := x.off ≠ y.off ∨ x.lo ≤ x.hi ∧ x.hi ≤ 31 ∧ (x.hi < y.lo ∨ y.hi < x.lo)

/-- A field keeps its value where other bits of its word are written. -/
theorem Fld.Apart.get_put {x y : Fld} (h : x.Apart y) (hoff : x.off = y.off) (v : Nat) (w : Word) : y.get (x.put v w) = y.get w := by
  obtain ⟨hlo, hhi, hbits⟩ := h.resolve_left (not_not.2 hoff)
  refine Nat.eq_of_testBit_eq fun j => ?_
  rw [Fld.testBit_get, Fld.testBit_get, Fld.getLsbD_put x v w _ hlo hhi]
  by_cases hj : j < y.hi + 1 - y.lo
  · rw [if_neg (by omega)]
  · simp [hj]

/-- A field that is written with what it holds leaves its word as it stands. -/
theorem Fld.put_eq_self {y : Fld} {v : Nat} {w : Word} (h : y.get w = v % 2 ^ (y.hi + 1 - y.lo)) (hlo : y.lo ≤ y.hi) (hhi : y.hi ≤ 31) :
    y.put v w = w := by
  refine BitVec.eq_of_getLsbD_eq fun j _ => ?_
  rw [Fld.getLsbD_put y v w j hlo hhi]
  split
  · next hj =>
    obtain ⟨h1, h2⟩ := hj
    have hbit := congrArg (·.testBit (j - y.lo)) h
    simp only [Fld.testBit_get, Nat.testBit_mod_two_pow, show y.lo + (j - y.lo) = j by omega,
      show j - y.lo < y.hi + 1 - y.lo by omega, decide_true, Bool.true_and] at hbit
    exact hbit.symm
  · rfl

/-! ### Fields after a list of writes -/

/-- A field that the list leaves alone keeps its value. -/
theorem get_fieldWord_of_apart {l : List (Fld × Nat)} {y : Fld} (h : ∀ x ∈ l, x.1.Apart y) (w : Word) :
    y.get (fieldWord l y.off w) = y.get w := by
  induction l generalizing w with
  | nil => rfl
  | cons x l ih =>
    obtain ⟨hx, hl⟩ := List.forall_mem_cons.1 h
    rw [fieldWord_cons, ih hl]
    split
    · next hoff => exact hx.get_put hoff _ _
    · rfl

/-- A field that the list writes with one value alone takes it. -/
theorem get_fieldWord_of_mem {l : List (Fld × Nat)} {y : Fld} {v : Nat} (h : ∀ x ∈ l, x = (y, v) ∨ x.1.Apart y) (hm : (y, v) ∈ l)
    (hlo : y.lo ≤ y.hi) (hhi : y.hi ≤ 31) (w : Word) : y.get (fieldWord l y.off w) = v % 2 ^ (y.hi + 1 - y.lo) := by
  induction l generalizing w with
  | nil => cases hm
  | cons x l ih =>
    obtain ⟨hx, hl⟩ := List.forall_mem_cons.1 h
    rw [fieldWord_cons]
    by_cases hlater : (y, v) ∈ l
    · exact ih hl hlater _
    · obtain rfl := (List.mem_cons.1 hm).resolve_right hlater
      rw [if_pos rfl, get_fieldWord_of_apart (fun z hz => (hl z hz).resolve_left fun he => hlater (he ▸ hz)), Fld.get_put _ _ _ hlo hhi]

/-! ### A change of which some registers are not followed -/

/-- From `s` to `t` the fields of `l` take the values beside them and no other register changes but those that `w` names, of which
nothing is said; the memories and device time stay. -/
def SetsBut (w : Nat → Prop) (l : List (Fld × Nat)) (s t : State) : Prop :=
  (∀ off, ¬ w off → t.rd off = fieldWord l off (s.rd off)) ∧ SameMem s t ∧ t.now = s.now

theorem Sets.setsBut {l : List (Fld × Nat)} {h : Hid} {s t : State} (a : Sets l h s t) (w : Nat → Prop) : SetsBut w l s t := by
  obtain ⟨hregs, hmem, hnow, -⟩ := a
  exact ⟨fun off _ => hregs off, hmem, hnow⟩

/-- A single bit that is low reads 0. -/
theorem f_of_on_eq_false {s : State} {y : Fld} (h : s.on y = false) (hbit : y.hi = y.lo) : s.f y = 0 := by
  have hlt := y.get_lt (s.rd y.off)
  rw [hbit, Nat.add_sub_cancel_left] at hlt
  have hne : s.f y ≠ 1 := of_decide_eq_false h
  rw [State.f] at hne ⊢
  omega

/-- A bit that is low is cleared: nothing changes. -/
theorem sets_setF_of_low {s : State} {y : Fld} (h : s.on y = false) (hbit : y.hi = y.lo) (hhi : y.hi ≤ 31) :
    Sets [] s.hid s ((setF y 0).run s) := by
  obtain ⟨hregs, haside⟩ := Sets.setF y 0 s
  refine ⟨fun off => (hregs off).trans ?_, haside⟩
  rw [fieldWord_cons]
  split
  · next hoff =>
    subst hoff
    rw [Fld.put_eq_self ((f_of_on_eq_false h hbit).trans (Nat.zero_mod _).symm) hbit.ge hhi]
  · rfl

theorem SameMem.trans {s t u : State} (a : SameMem s t) (b : SameMem t u) : SameMem s u := by
  obtain ⟨a1, a2, a3⟩ := a
  obtain ⟨b1, b2, b3⟩ := b
  exact ⟨b1.trans a1, b2.trans a2, b3.trans a3⟩

section
variable {w : Nat → Prop} {l m : List (Fld × Nat)} {s t u : State}

theorem SetsBut.trans (a : SetsBut w l s t) (b : SetsBut w m t u) : SetsBut w (l ++ m) s u := by
  obtain ⟨aregs, amem, anow⟩ := a
  obtain ⟨bregs, bmem, bnow⟩ := b
  refine ⟨fun off hoff => ?_, amem.trans bmem, bnow.trans anow⟩
  rw [bregs off hoff, aregs off hoff, fieldWord_append]

theorem SetsBut.then_setF (a : SetsBut w l s t) (x : Fld) (v : Nat) : SetsBut w (l ++ [(x, v)]) s ((setF x v).run t) :=
  a.trans ((Sets.setF x v t).setsBut w)

theorem SetsBut.then_levelsFall (a : SetsBut w l s t) : SetsBut w l s (levelsFall.run t) := by
  rw [run_levelsFall]
  exact a

/-- A field that is written with one value alone takes it. -/
theorem SetsBut.f_of_mem {y : Fld} {v : Nat} (a : SetsBut w l s t) (hw : ¬ w y.off) (hm : (y, v) ∈ l)
    (h : ∀ x ∈ l, x = (y, v) ∨ x.1.Apart y) (hlo : y.lo ≤ y.hi) (hhi : y.hi ≤ 31) : t.f y = v % 2 ^ (y.hi + 1 - y.lo) := by
  rw [State.f, a.1 _ hw, get_fieldWord_of_mem h hm hlo hhi]

/-- So does a single bit. -/
theorem SetsBut.on_of_mem {y : Fld} {v : Nat} (a : SetsBut w l s t) (hw : ¬ w y.off) (hm : (y, v) ∈ l)
    (h : ∀ x ∈ l, x = (y, v) ∨ x.1.Apart y) (hbit : y.hi = y.lo) (hhi : y.hi ≤ 31) : t.on y = decide (v % 2 = 1) := by
  rw [State.on, a.f_of_mem hw hm h hbit.ge hhi, hbit, Nat.add_sub_cancel_left, Nat.pow_one]

/-- A field that no write touches keeps its value. -/
theorem SetsBut.f_of_apart {y : Fld} (a : SetsBut w l s t) (hw : ¬ w y.off) (h : ∀ x ∈ l, x.1.Apart y) : t.f y = s.f y := by
  rw [State.f, a.1 _ hw, get_fieldWord_of_apart h]
  rfl

theorem SetsBut.on_of_apart {y : Fld} (a : SetsBut w l s t) (hw : ¬ w y.off) (h : ∀ x ∈ l, x.1.Apart y) : t.on y = s.on y := by
  rw [State.on, a.f_of_apart hw h]
  rfl

theorem Sets.f_of_apart {h : Hid} {y : Fld} (a : Sets l h s t) (hy : ∀ x ∈ l, x.1.Apart y) : t.f y = s.f y :=
  (a.setsBut fun _ => False).f_of_apart not_false hy

theorem Sets.on_of_apart {h : Hid} {y : Fld} (a : Sets l h s t) (hy : ∀ x ∈ l, x.1.Apart y) : t.on y = s.on y :=
  (a.setsBut fun _ => False).on_of_apart not_false hy

theorem wordFld_get (off : Nat) (v : Word) : (wordFld off).get v = v.toNat := by
  simp only [Fld.get, wordFld]
  omega

/-- A whole word that is written with one value alone takes it. -/
theorem SetsBut.rd_of_mem {off : Nat} {v : Word} (a : SetsBut w l s t) (hw : ¬ w off) (hm : (wordFld off, v.toNat) ∈ l)
    (h : ∀ x ∈ l, x = (wordFld off, v.toNat) ∨ x.1.off ≠ off) : t.rd off = v := by
  have hf := a.f_of_mem (y := wordFld off) hw hm (fun x hx => (h x hx).imp_right .inl) (by simp [wordFld]) (by simp [wordFld])
  rw [State.f, wordFld_get] at hf
  refine BitVec.eq_of_toNat_eq (hf.trans (Nat.mod_eq_of_lt ?_))
  exact v.isLt

theorem SetsBut.mode (a : SetsBut w l s t) (hw : ¬ w R.SYS_MODE_STAT) (hl : ∀ x ∈ l, x.1.off ≠ R.SYS_MODE_STAT) :
    t.mode = s.mode :=
  congrArg F.SYS_MODE_STAT_mode.get ((a.1 _ hw).trans (fieldWord_of_forall_ne hl _))

/-- A command whose action leaves the mode alone completes with what its action leaves. -/
theorem SetsBut.completes {c : Instr} {a : Act} {P : State → Prop} (hs : SetsBut w l s (a.run s)) (hw : ¬ w R.SYS_MODE_STAT)
    (hl : ∀ x ∈ l, x.1.off ≠ R.SYS_MODE_STAT) (he : exec c s = finish a s) (hp : P (levelsFall.run (a.run s))) : Completes c s P :=
  ⟨_, he.trans (finish_same _ _ (hs.mode hw hl)), hp⟩

end

/-- The updates, made in `s`, change the registers that `w` names, and what the blocks hold beside the registers, alone. -/
def ConfinedAt (w : Nat → Prop) (s : State) (us : List Upd) : Prop := SetsBut w [] s (applyAll us s)

/-- The updates of the action do, in whatever state. -/
def Confined (w : Nat → Prop) (a : Act) : Prop := ∀ s, ConfinedAt w s (a s)

section
variable {w : Nat → Prop} {a : Act}

theorem SetsBut.refl (w : Nat → Prop) (s : State) : SetsBut w [] s s := (Sets.refl s).setsBut w

theorem Confined.run (h : Confined w a) (s : State) : SetsBut w [] s (a.run s) := h s

theorem SetsBut.then_confined {l : List (Fld × Nat)} {s t : State} (h : SetsBut w l s t) (ha : Confined w a) :
    SetsBut w l s (a.run t) := by
  simpa using h.trans (ha.run t)

theorem Confined.nop : Confined w nop := .refl w

theorem Confined.hidA (g : Hid → Hid) : Confined w (hidA g) := fun s => (Sets.hidA g s).setsBut w

theorem Confined.bump {off : Nat} (h : w off) : Confined w (bump off) := by
  intro s
  obtain ⟨hregs, haside⟩ := (Sets.bump off s).setsBut w
  refine ⟨fun x hx => ?_, haside⟩
  exact (hregs x hx).trans (if_neg fun he : (wordFld off).off = x => hx (he ▸ h))

/-- Each of the actions is. -/
@[reducible] def ConfinedEach (w : Nat → Prop) : List Act → Prop
  | [] => True
  | a :: l => Confined w a ∧ ConfinedEach w l

theorem Confined.seq {l : List Act} (h : ConfinedEach w l) : Confined w (seq l) := by
  induction l with
  | nil => exact .nop
  | cons a l ih =>
    obtain ⟨ha, hl⟩ := h
    intro s
    show SetsBut w [] s ((Machine.seq (a :: l)).run s)
    rw [run_seq_cons]
    exact (ha.run s).trans ((ih hl).run _)

/-- A sequence written out over the state that it reads. -/
theorem ConfinedAt.seq {l : List Act} {s : State} (h : ConfinedEach w l) : ConfinedAt w s (seq l s) := Confined.seq h s

theorem Confined.forEach {α : Type} {l : List α} {f : α → Act} (h : ∀ x ∈ l, Confined w (f x)) : Confined w (forEach l f) := by
  refine .seq ?_
  induction l with
  | nil => trivial
  | cons x l ih => exact ⟨h x List.mem_cons_self, ih fun y hy => h y (List.mem_cons_of_mem x hy)⟩

theorem ConfinedAt.forEach {α : Type} {l : List α} {f : α → Act} {s : State} (h : ∀ x ∈ l, Confined w (f x)) :
    ConfinedAt w s (forEach l f s) := Confined.forEach h s

theorem Confined.whenA (c : State → Bool) (h : Confined w a) : Confined w (whenA c a) := by
  intro s
  show SetsBut w [] s ((Machine.whenA c a).run s)
  rw [run_whenA]
  split
  · exact h s
  · exact .refl w s

theorem Confined.only (c : Bool) (h : Confined w a) : Confined w (only c a) := by
  intro s
  show SetsBut w [] s ((Machine.only c a).run s)
  rw [run_only]
  split
  · exact h s
  · exact .refl w s

end

end Sys2Proof.Machine
end

section
/-!
The results of the converters: the words of a value and of its flags, the way of a result to its destinations, which
touches no register of a converter but its overrun count, and the end of a conversion.
-/

namespace Sys2Proof.Machine

/-! ### Values in a pair of words (R3, R15) -/

/-- The two words of a 64-bit register. -/
def pairFields (off : Nat) (v : BitVec 64) : List (Fld × Nat) :=
  [(wordFld off, (v.extractLsb' 0 32).toNat), (wordFld (off + 4), (v.extractLsb' 32 32).toNat)]

theorem sets_set64 (off : Nat) (v : BitVec 64) (s : State) : Sets (pairFields off v) s.hid s ((set64 off v).run s) := by
  rw [run_set64]
  exact (Sets.setW _ _ s).then_setW _ _

theorem extract_append_extract (v : BitVec 64) : v.extractLsb' 32 32 ++ v.extractLsb' 0 32 = v := by
  refine BitVec.eq_of_getLsbD_eq fun i hi => ?_
  rw [BitVec.getLsbD_append]
  by_cases h : i < 32
  · simp [h]
  · simp [h, show i - 32 < 32 by omega, show 32 + (i - 32) = i by omega]

/-- A 64-bit register both of whose words are written with one value alone takes it. -/
theorem SetsBut.rd64_of_mem {w : Nat → Prop} {l : List (Fld × Nat)} {s t : State} {off : Nat} {v : BitVec 64} (a : SetsBut w l s t)
    (hw : ¬ w off ∧ ¬ w (off + 4)) (hm : ∀ x ∈ pairFields off v, x ∈ l)
    (h : ∀ x ∈ l, x ∈ pairFields off v ∨ x.1.off ≠ off ∧ x.1.off ≠ off + 4) : t.rd64 off = v := by
  have hlow : t.rd off = v.extractLsb' 0 32 := a.rd_of_mem hw.1 (hm _ (by simp [pairFields])) fun x hx => by
    rcases h x hx with hp | ⟨hne, -⟩
    · rcases List.mem_cons.1 hp with rfl | hp
      · exact .inl rfl
      · exact .inr (by simp [List.mem_singleton.1 hp, wordFld])
    · exact .inr hne
  have hhigh : t.rd (off + 4) = v.extractLsb' 32 32 := a.rd_of_mem hw.2 (hm _ (by simp [pairFields])) fun x hx => by
    rcases h x hx with hp | ⟨-, hne⟩
    · rcases List.mem_cons.1 hp with rfl | hp
      · exact .inr (by simp [wordFld])
      · exact .inl (List.mem_singleton.1 hp)
    · exact .inr hne
  rw [State.rd64, hlow, hhigh, extract_append_extract]

/-- What a pu36 pair holds of a value. -/
def puWord (v : Int) : BitVec 64 := BitVec.ofInt 64 (sext 36 (BitVec.ofInt 36 v).toNat)

theorem clampInt_bounds {lo hi : Int} (h : lo ≤ hi) (x : Int) : lo ≤ clampInt lo hi x ∧ clampInt lo hi x ≤ hi := by
  unfold clampInt
  split
  · exact ⟨le_refl _, h⟩
  · split <;> omega

/-- A value that was narrowed to pu36 is read back from its pair. -/
theorem sext_puWord_narrow36 (y : Rat) : sext 36 (puWord (narrow36 y)).toNat = narrow36 y := by
  have hb : -34359738368 ≤ narrow36 y ∧ narrow36 y ≤ 34359738367 := clampInt_bounds (by decide) _
  generalize narrow36 y = v at hb
  simp only [puWord, sext, BitVec.toNat_ofInt]
  norm_num
  split <;> split <;> omega

/-! ### Code and flags in one word -/

/-- Flags above bit `k` and a code below it lie side by side. -/
theorem toNat_or_of_lt {k a b : Nat} (hb : b < 2 ^ k) (h : 2 ^ k * a + b < 2 ^ 32) :
    (BitVec.ofNat 32 (2 ^ k * a) ||| BitVec.ofNat 32 b).toNat = 2 ^ k * a + b := by
  rw [BitVec.toNat_or, BitVec.toNat_ofNat, BitVec.toNat_ofNat, Nat.mod_eq_of_lt (by omega), Nat.mod_eq_of_lt (by omega),
    ← Nat.two_pow_add_eq_or_of_lt hb]

theorem b2n_le_one (b : Bool) : b2n b ≤ 1 := by
  cases b <;> decide

theorem b2n_eq_one {b : Bool} : b2n b = 1 ↔ b = true := by
  cases b <;> decide

/-! ### Events that are raised where their condition holds -/

/-- The event bits that are set, of those listed with their conditions. -/
def raised (l : List (Fld × Bool)) : List (Fld × Nat) := (l.filter (·.2)).map fun x => (x.1, 1)

/-- Sets them. -/
def raiseA (l : List (Fld × Bool)) : Act := forEach l fun x => only x.2 (setB x.1)

theorem mem_raised {l : List (Fld × Bool)} {y : Fld} : (y, 1) ∈ raised l ↔ (y, true) ∈ l := by
  simp [raised]

theorem of_mem_raised {l : List (Fld × Bool)} {x : Fld × Nat} (h : x ∈ raised l) : x.2 = 1 ∧ (x.1, true) ∈ l := by
  obtain ⟨y, hy, rfl⟩ := List.mem_map.1 h
  obtain ⟨hm, hb⟩ := List.mem_filter.1 hy
  exact ⟨rfl, hb ▸ hm⟩

theorem sets_raiseA (l : List (Fld × Bool)) (s : State) : Sets (raised l) s.hid s ((raiseA l).run s) := by
  induction l generalizing s with
  | nil => exact Sets.refl s
  | cons x l ih =>
    obtain ⟨y, b⟩ := x
    unfold raiseA forEach at ih ⊢
    rw [List.map_cons, run_seq_cons, run_only]
    cases b
    · exact ih s
    · exact (Sets.setF y 1 s).trans (ih _)

/-- An event bit stays set where nothing but event bits is set in its word. -/
theorem SetsBut.on_of_raised {w : Nat → Prop} {l : List (Fld × Nat)} {s t : State} {off i : Nat} (a : SetsBut w l s t) (hw : ¬ w off)
    (hm : (bitFld off i, 1) ∈ l) (h : ∀ x ∈ l, x.1.off = off → ∃ j ≤ 31, x = (bitFld off j, 1)) :
    t.on (bitFld off i) = true := by
  have hi : i ≤ 31 := by
    obtain ⟨j, hj, he⟩ := h _ hm rfl
    obtain rfl : i = j := congrArg (fun x : Fld × Nat => x.1.hi) he
    exact hj
  refine a.on_of_mem hw hm (fun x hx => ?_) rfl hi
  by_cases hoff : x.1.off = off
  · obtain ⟨j, hj, rfl⟩ := h x hx hoff
    by_cases hij : j = i
    · exact .inl (by rw [hij])
    · exact .inr (.inr ⟨le_refl j, hj, by simp only [bitFld]; omega⟩)
  · exact .inr (.inl hoff)

/-! ### The way of a result (R143, R147, R34) -/

section
variable (w : Nat → Prop)

theorem confined_gridArrive (full : Bool) (j : Nat) (v : Int) : Confined w (gridArrive full j v) := by
  intro s
  refine .seq ⟨?_, .hidA _, trivial⟩
  split
  · unfold gridLand
    split
    · exact .hidA _
    · exact .hidA _
  · exact .nop

theorem confined_mpptDeliver (full : Bool) (c q : Nat) (v : Int) : Confined w (mpptDeliver full c q v) := by
  refine .whenA _ fun s => .forEach fun p _ => ?_
  split
  · exact .seq ⟨.only _ (confined_gridArrive w _ _ _), .only _ (confined_gridArrive w _ _ _), trivial⟩
  · exact .nop

theorem confined_metDeliver (fine : Bool) (src : Nat) (x : MetIn) : Confined w (metDeliver fine src x) :=
  fun _ => .forEach fun _ _ => .forEach fun _ _ => .hidA _

theorem confined_fire (x : TrigSrc) (ts : BitVec 64) : Confined w (fire x ts) :=
  fun _ => .seq ⟨.forEach fun _ _ => .hidA _, .only _ (.seq ⟨.forEach fun _ _ => .hidA _, .only _ (.hidA _), trivial⟩),
    trivial⟩

end

/-- A route delivers its result, or counts its loss at the converter. -/
theorem confined_routeDeliver (full : Bool) (c : Nat) (r : Rec) (v code : Int) :
    Confined (· = R.CONV_C_OVR_CNT c) (routeDeliver full c r v code) := by
  intro s
  unfold routeDeliver
  simp only
  have hlost : Confined (· = R.CONV_C_OVR_CNT c) (bump (R.CONV_C_OVR_CNT c)) := .bump rfl
  split
  · split
    · exact (Confined.whenA _ (.hidA _) : Confined _ (slotDeliver full _ _ _)) s
    · exact hlost s
  · split
    · split
      · exact (Confined.whenA _ (confined_gridArrive _ _ _ _) : Confined _ (gridDeliver full _ _)) s
      · exact hlost s
    · exact .refl _ s

/-- A result on its way to all its destinations changes no register but the converter's overrun count. -/
theorem confined_deliverAll (full : Bool) (c q : Nat) (x : MetIn) (code : Int) :
    Confined (· = R.CONV_C_OVR_CNT c) (deliverAll full c q x code) :=
  .whenA _ fun _ => .seq ⟨.forEach fun r _ => confined_routeDeliver full c r _ _, confined_mpptDeliver _ _ _ _ _,
    confined_metDeliver _ _ _ _, .forEach fun _ _ => .bump rfl, trivial⟩

end Sys2Proof.Machine
end

section
/-!
The triggers of the SAR converters (R140 to R142, R155, R161): what a trigger and a write of `CONV_C_CTL` do, case by case.
-/

namespace Sys2Proof.Machine

/-! ### Registers above that of the mode -/

/-- The offset lies above the registers of power and mode. -/
def AboveMode (off : Nat) : Prop := Nat.ble 0x80 off = true

/-- The offset of an indexed register is a base with multiples of its indices added, so the base decides. -/
theorem AboveMode.add {b i : Nat} (h : AboveMode b) : AboveMode (b + i) :=
  Nat.ble_eq_true_of_le (Nat.le_add_right_of_le (Nat.le_of_ble_eq_true h))

theorem AboveMode.ne {off o : Nat} (h : AboveMode off) (ho : o < 0x80) : off ≠ o := by
  have hoff := Nat.le_of_ble_eq_true h
  omega

/-- Each of the fields lies there. -/
@[reducible] def FieldsAbove : List (Fld × Nat) → Prop
  | [] => True
  | x :: l => AboveMode x.1.off ∧ FieldsAbove l

theorem FieldsAbove.ne {l : List (Fld × Nat)} {o : Nat} (h : FieldsAbove l) (ho : o < 0x80) : ∀ x ∈ l, x.1.off ≠ o := by
  induction l with
  | nil => exact fun _ hx => nomatch hx
  | cons x l ih =>
    obtain ⟨hx, hl⟩ := h
    exact List.forall_mem_cons.2 ⟨hx.ne ho, ih hl⟩

/-! ### What a converter holds -/

theorem convSt_withConv {s u : State} {c : Nat} {x : ConvSt} (h : u.hid = withConv s c x) : convSt u c = x := by
  rw [convSt, h]
  exact (Tab.get_put _ _ _ _ _ (fun _ => rfl) _).trans (if_pos rfl)

/-- Of two changes of one converter the later stands. -/
theorem withConv_withConv {s u : State} {c : Nat} {x : ConvSt} (h : u.hid = withConv s c x) (y : ConvSt) :
    withConv u c y = withConv s c y := by
  unfold withConv
  rw [h]
  simp only [withConv, Tab.put_put]

theorem withConv_congr {s u : State} (h : u.hid = s.hid) (c : Nat) (y : ConvSt) : withConv u c y = withConv s c y := by
  rw [withConv, h]
  rfl

section
variable {c : Nat} {s : State}

theorem sets_convA (c : Nat) (g : ConvSt → ConvSt) (s : State) : Sets [] (withConv s c (g (convSt s c))) s ((convA c g).run s) :=
  Sets.hidA _ s

theorem Sets.then_conv {l m : List (Fld × Nat)} {t u : State} {x : ConvSt} (a : Sets l s.hid s t) (b : Sets m (withConv t c x) t u) :
    Sets (l ++ m) (withConv s c x) s u :=
  a.trans (b.cast rfl (withConv_congr a.hid_eq c x))

theorem Sets.conv_then_conv {l m : List (Fld × Nat)} {t u : State} {x y : ConvSt} (a : Sets l (withConv s c x) s t)
    (b : Sets m (withConv t c y) t u) : Sets (l ++ m) (withConv s c y) s u :=
  a.trans (b.cast rfl (withConv_withConv a.hid_eq y))

theorem Sets.conv_then {l m : List (Fld × Nat)} {t u : State} {x : ConvSt} (a : Sets l (withConv s c x) s t) (b : Sets m t.hid t u) :
    Sets (l ++ m) (withConv s c x) s u :=
  a.trans (b.cast rfl a.hid_eq)

/-- The acquisition of an entry starts with the entry word as it stands (R149). -/
theorem sets_convAcquire (c q : Nat) (s : State) : Sets [(F.CONV_C_STAT_seq_pos c, q)]
    (withConv s c { convSt s c with ent := s.rd (R.CONV_C_ENT c q), fell := false }) s ((convAcquire c q).run s) :=
  (Sets.setF (F.CONV_C_STAT_seq_pos c) q s).then_conv (sets_convA c (fun v => { v with ent := s.rd (R.CONV_C_ENT c q), fell := false }) _)

/-- A sequence starts at entry 0, with the last entry and the entry word as they stand (R149). -/
theorem sets_convStart (c : Nat) (s : State) : Sets [(F.CONV_C_STAT_busy c, 1), (F.CONV_C_STAT_seq_pos c, 0)]
    (withConv s c { convSt s c with last := s.f (F.CONV_C_CTL_last c), ent := s.rd (R.CONV_C_ENT c 0), fell := false }) s
    ((convStart c).run s) := by
  have hlast := (Sets.setF (F.CONV_C_STAT_busy c) 1 s).then_conv (sets_convA c (fun v => { v with last := s.f (F.CONV_C_CTL_last c) }) _)
  generalize hu : (convA c _).run _ = u at hlast
  have hent : u.rd (R.CONV_C_ENT c 0) = s.rd (R.CONV_C_ENT c 0) := by
    rw [hlast.rd_eq, fieldWord_of_forall_ne]
    simp only [List.append_nil, List.forall_mem_singleton, F.CONV_C_STAT_busy, R.CONV_C_STAT, R.CONV_C_ENT]
    omega
  have hstart := hlast.conv_then_conv (sets_convAcquire c 0 u)
  rw [convSt_withConv hlast.hid_eq, hent, ← hu] at hstart
  exact hstart

/-- The converter stops: its next start begins at entry 0, from an empty history (R161). -/
theorem sets_convStop (c : Nat) (s : State) : Sets [(F.CONV_C_STAT_busy c, 0), (F.CONV_C_STAT_seq_pos c, 0)]
    (withConv s c { convSt s c with hist := [], stop := false }) s ((convStop c).run s) :=
  ((Sets.setF _ _ s).then_setF _ _).then_conv (sets_convA c (fun v => { v with hist := [], stop := false }) _)

/-- An idle one does so without a change of `busy`. -/
theorem sets_convStop_idle (hb : s.on (F.CONV_C_STAT_busy c) = false) : Sets [(F.CONV_C_STAT_seq_pos c, 0)]
    (withConv s c { convSt s c with hist := [], stop := false }) s ((convStop c).run s) :=
  ((sets_setF_of_low hb rfl (Nat.zero_le 31)).then_setF _ _).then_conv (sets_convA c (fun v => { v with hist := [], stop := false }) _)

/-! ### Triggers (R140, R141, R155) -/

/-- What a lost trigger sets (R141). -/
def lostFields (c : Nat) (s : State) : List (Fld × Nat) := [(F.CONV_C_EVENT_trig_lost c, 1), countOne s (R.CONV_C_LOST_CNT c)]

theorem sets_trigLost (c : Nat) (s : State) : Sets (lostFields c s) s.hid s ((trigLost c).run s) := by
  have hlost := (Sets.setF (F.CONV_C_EVENT_trig_lost c) 1 s).then_bump (R.CONV_C_LOST_CNT c)
  rw [fieldWord_of_forall_ne] at hlost
  · rw [trigLost, run_seq_cons, run_seq_cons, run_seq_nil]
    exact hlost
  · simp only [List.forall_mem_singleton, F.CONV_C_EVENT_trig_lost, R.CONV_C_EVENT, R.CONV_C_LOST_CNT]
    omega

/-- Triggers act at the converter: its island runs, and the mode is not DORMANT (R140). -/
def TriggersAct (c : Nat) (s : State) : Prop := convOn s (convDie c) = true ∧ s.mode ≠ DORMANT

/-- They do so too after a change of registers above those of the mode. -/
theorem TriggersAct.of_sets {l : List (Fld × Nat)} {h : Hid} {t : State} (a : TriggersAct c s) (hs : Sets l h s t) (hl : FieldsAbove l)
    (hp : h.pwr = s.hid.pwr) : TriggersAct c t := by
  obtain ⟨hon, hm⟩ := a
  have hen : t.rd R.SYS_ISLAND_EN = s.rd R.SYS_ISLAND_EN := by
    rw [hs.rd_eq, fieldWord_of_forall_ne (hl.ne (by decide))]
  refine ⟨?_, by rwa [hs.mode (hl.ne (by decide))]⟩
  unfold convOn dieOn State.up State.island at hon ⊢
  rwa [hen, hs.hid_eq, hp]

section
variable (ha : TriggersAct c s)
include ha

theorem run_convTrigger_cal (hcal : s.on (F.CONV_C_STAT_cal c) = true) : (convTrigger c).run s = (trigLost c).run s := by
  obtain ⟨hon, hm⟩ := ha
  simp [Act.run, convTrigger, hon, hm, hcal]

variable (hcal : s.on (F.CONV_C_STAT_cal c) = false) (hen : s.on (F.CONV_C_CTL_en c) = true)
include hcal hen

theorem run_convTrigger_idle (hb : s.on (F.CONV_C_STAT_busy c) = false) : (convTrigger c).run s = (convStart c).run s := by
  obtain ⟨hon, hm⟩ := ha
  simp [Act.run, convTrigger, hon, hm, hcal, hen, hb]

theorem run_convTrigger_loop (hb : s.on (F.CONV_C_STAT_busy c) = true) (hr : s.on (F.CONV_C_TRIG_repeat c) = true) :
    (convTrigger c).run s = s := by
  obtain ⟨hon, hm⟩ := ha
  simp [Act.run, convTrigger, hon, hm, hcal, hen, hb, hr, applyAll]

theorem run_convTrigger_busy (hb : s.on (F.CONV_C_STAT_busy c) = true) (hr : s.on (F.CONV_C_TRIG_repeat c) = false) :
    (convTrigger c).run s = (trigLost c).run s := by
  obtain ⟨hon, hm⟩ := ha
  simp [Act.run, convTrigger, hon, hm, hcal, hen, hb, hr]

end

/-- What a converter holds once a trigger on its way has arrived. -/
def arrived (c : Nat) (s : State) : ConvSt := { convSt s c with trigs := (convSt s c).trigs - 1 }

/-- A trigger on its way arrives (R140). -/
def arriveA (c : Nat) : Act := convA c fun v => { v with trigs := v.trigs - 1 }

theorem run_convRouted (ht : (convSt s c).trigs ≠ 0) : (convRouted c).run s =
    (only (s.f (F.CONV_C_TRIG_kind c) ≠ 0 ∧ s.mode ≠ CONFIGURE ∧ s.mode ≠ SERVICE) (convTrigger c)).run ((arriveA c).run s) := by
  unfold convRouted
  rw [run_whenA, if_pos (by simpa using ht), run_fun, run_seq_cons, run_seq_cons, run_seq_nil]
  rfl

theorem run_convRouted_ignored (ht : (convSt s c).trigs ≠ 0)
    (h : s.f (F.CONV_C_TRIG_kind c) = 0 ∨ s.mode = CONFIGURE ∨ s.mode = SERVICE) : (convRouted c).run s = (arriveA c).run s := by
  rw [run_convRouted ht, run_only, if_neg (by simp only [decide_eq_true_eq]; tauto)]

theorem run_convRouted_taken (ht : (convSt s c).trigs ≠ 0) (hk : s.f (F.CONV_C_TRIG_kind c) ≠ 0) (hc : s.mode ≠ CONFIGURE)
    (hs : s.mode ≠ SERVICE) : (convRouted c).run s = (convTrigger c).run ((arriveA c).run s) := by
  rw [run_convRouted ht, run_only, if_pos (by simp [hk, hc, hs])]

/-- Converter `c` takes the trigger that arrives. -/
theorem sets_arriveA (c : Nat) (s : State) : Sets [] (withConv s c (arrived c s)) s ((arriveA c).run s) := sets_convA c _ s

theorem sets_convRouted_start (ha : TriggersAct c s) (ht : (convSt s c).trigs ≠ 0) (hk : s.f (F.CONV_C_TRIG_kind c) ≠ 0)
    (hc : s.mode ≠ CONFIGURE) (hs : s.mode ≠ SERVICE) (hcal : s.on (F.CONV_C_STAT_cal c) = false)
    (hen : s.on (F.CONV_C_CTL_en c) = true) (hb : s.on (F.CONV_C_STAT_busy c) = false) :
    Sets [(F.CONV_C_STAT_busy c, 1), (F.CONV_C_STAT_seq_pos c, 0)] (withConv s c { arrived c s with
      last := s.f (F.CONV_C_CTL_last c), ent := s.rd (R.CONV_C_ENT c 0), fell := false }) s ((convRouted c).run s) := by
  have hin := sets_arriveA c s
  have hstart := hin.conv_then_conv (sets_convStart c _)
  rw [convSt_withConv hin.hid_eq] at hstart
  rw [run_convRouted_taken ht hk hc hs, run_convTrigger_idle (ha.of_sets hin trivial rfl) hcal hen hb]
  exact hstart

theorem sets_convRouted_lost (ha : TriggersAct c s) (ht : (convSt s c).trigs ≠ 0) (hk : s.f (F.CONV_C_TRIG_kind c) ≠ 0)
    (hc : s.mode ≠ CONFIGURE) (hs : s.mode ≠ SERVICE) (hcal : s.on (F.CONV_C_STAT_cal c) = false)
    (hen : s.on (F.CONV_C_CTL_en c) = true) (hb : s.on (F.CONV_C_STAT_busy c) = true) (hr : s.on (F.CONV_C_TRIG_repeat c) = false) :
    Sets (lostFields c s) (withConv s c (arrived c s)) s ((convRouted c).run s) := by
  have hin := sets_arriveA c s
  rw [run_convRouted_taken ht hk hc hs, run_convTrigger_busy (ha.of_sets hin trivial rfl) hcal hen hb hr]
  exact hin.conv_then (sets_trigLost c _)

/-! ### Writes of `CONV_C_CTL` (R140, R161) -/

/-- The fields that a write takes. -/
def ctlFields (c last en : Nat) : List (Fld × Nat) := [(F.CONV_C_CTL_last c, last), (F.CONV_C_CTL_en c, en)]

/-- Takes them. -/
def ctlA (c : Nat) (v : Word) : Act := seq [setF (F.CONV_C_CTL_last c) (v.toNat / 256), setF (F.CONV_C_CTL_en c) (v.toNat % 2)]

theorem sets_ctlA (c : Nat) (v : Word) (s : State) :
    Sets (ctlFields c (v.toNat / 256) (v.toNat % 2)) s.hid s ((ctlA c v).run s) :=
  (Sets.setF _ _ s).then_setF _ _

theorem fieldsAbove_ctlFields (c last en : Nat) : FieldsAbove (ctlFields c last en) := ⟨.add (.add rfl), .add (.add rfl), trivial⟩

/-- A write with `en` clear, or to a converter that does not calibrate, is followed by the stop and the trigger that it asks for. -/
theorem run_convCtl {v : Word} (h : s.on (F.CONV_C_STAT_cal c) = false ∨ v.toNat % 2 = 0) : (convCtl c v).run s =
    (only (v.getLsbD 1) (convTrigger c)).run ((only (v.toNat % 2 = 0) (convHalt c)).run ((ctlA c v).run s)) := by
  have hcal : decide (s.on (F.CONV_C_STAT_cal c) = true ∧ v.toNat % 2 = 1) = false := by
    rcases h with h | h <;> simp [h]
  unfold convCtl ctlA
  rw [run_fun]
  simp only [run_seq_cons, run_seq_nil, hcal, run_only, Bool.false_eq_true, if_false]

/-- A register word of another offset, and a bit of one, after such a write. -/
theorem ctlA_rd {v : Word} {off : Nat} (h : off ≠ R.CONV_C_CTL c) : ((ctlA c v).run s).rd off = s.rd off := by
  rw [(sets_ctlA c v s).rd_eq, fieldWord_of_forall_ne]
  simpa [ctlFields, F.CONV_C_CTL_last, F.CONV_C_CTL_en] using h.symm

theorem ctlA_on {v : Word} {y : Fld} (h : y.off ≠ R.CONV_C_CTL c) : ((ctlA c v).run s).on y = s.on y :=
  on_of_rd_eq (ctlA_rd h)

theorem ctlA_last (v : Word) : ((ctlA c v).run s).f (F.CONV_C_CTL_last c) = v.toNat / 256 % 16 :=
  ((sets_ctlA c v s).setsBut fun _ => False).f_of_mem not_false (by simp [ctlFields])
    (by simp [ctlFields, Fld.Apart, F.CONV_C_CTL_last, F.CONV_C_CTL_en]) (by simp [F.CONV_C_CTL_last]) (by simp [F.CONV_C_CTL_last])

theorem ctlA_en {v : Word} (h : v.toNat % 2 = 1) : ((ctlA c v).run s).on (F.CONV_C_CTL_en c) = true := by
  rw [((sets_ctlA c v s).setsBut fun _ => False).on_of_mem not_false (v := v.toNat % 2) (by simp [ctlFields])
    (by simp [ctlFields, Fld.Apart, F.CONV_C_CTL_last, F.CONV_C_CTL_en]) rfl (Nat.zero_le 31), h]
  rfl

/-- A write of `en` and `go` to a converter that does not calibrate: the trigger comes after the fields. -/
theorem run_convCtl_go {v : Word} (hcal : s.on (F.CONV_C_STAT_cal c) = false) (hen : v.toNat % 2 = 1) (hgo : v.getLsbD 1 = true) :
    (convCtl c v).run s = (convTrigger c).run ((ctlA c v).run s) := by
  rw [run_convCtl (.inl hcal), run_only, if_pos hgo, run_only, if_neg (by simp [hen])]

theorem convTrig_off_ne (c : Nat) : R.CONV_C_TRIG c ≠ R.CONV_C_CTL c := by
  simp only [R.CONV_C_TRIG, R.CONV_C_CTL]
  omega

theorem convStat_off_ne (c : Nat) : R.CONV_C_STAT c ≠ R.CONV_C_CTL c := by
  simp only [R.CONV_C_STAT, R.CONV_C_CTL]
  omega

theorem sets_convCtl_start {v : Word} (ha : TriggersAct c s) (hcal : s.on (F.CONV_C_STAT_cal c) = false) (hen : v.toNat % 2 = 1)
    (hgo : v.getLsbD 1 = true) (hb : s.on (F.CONV_C_STAT_busy c) = false) :
    Sets (ctlFields c (v.toNat / 256) 1 ++ [(F.CONV_C_STAT_busy c, 1), (F.CONV_C_STAT_seq_pos c, 0)]) (withConv s c { convSt s c with
      last := v.toNat / 256 % 16, ent := s.rd (R.CONV_C_ENT c 0), fell := false }) s ((convCtl c v).run s) := by
  have hctl := sets_ctlA c v s
  have hstart := hctl.then_conv (sets_convStart c _)
  have hent : R.CONV_C_ENT c 0 ≠ R.CONV_C_CTL c := by
    simp only [R.CONV_C_ENT, R.CONV_C_CTL]
    omega
  rw [ctlA_last, ctlA_rd hent, hen] at hstart
  rw [run_convCtl_go hcal hen hgo, run_convTrigger_idle (ha.of_sets hctl (fieldsAbove_ctlFields _ _ _) rfl)
    ((ctlA_on (convStat_off_ne c)).trans hcal) (ctlA_en hen) ((ctlA_on (convStat_off_ne c)).trans hb)]
  exact hstart

/-- What a lost trigger sets stands in registers that a write of `CONV_C_CTL` leaves. -/
theorem lostFields_congr {t : State} (h : t.rd (R.CONV_C_LOST_CNT c) = s.rd (R.CONV_C_LOST_CNT c)) : lostFields c t = lostFields c s := by
  rw [lostFields, countOne, h]
  rfl

theorem convLost_off_ne (c : Nat) : R.CONV_C_LOST_CNT c ≠ R.CONV_C_CTL c := by
  simp only [R.CONV_C_LOST_CNT, R.CONV_C_CTL]
  omega

theorem sets_convCtl_lost {v : Word} (ha : TriggersAct c s) (hcal : s.on (F.CONV_C_STAT_cal c) = false) (hen : v.toNat % 2 = 1)
    (hgo : v.getLsbD 1 = true) (hb : s.on (F.CONV_C_STAT_busy c) = true) (hr : s.on (F.CONV_C_TRIG_repeat c) = false) :
    Sets (ctlFields c (v.toNat / 256) 1 ++ lostFields c s) s.hid s ((convCtl c v).run s) := by
  have hctl := sets_ctlA c v s
  have hlost := sets_trigLost c ((ctlA c v).run s)
  rw [lostFields_congr (ctlA_rd (convLost_off_ne c))] at hlost
  rw [run_convCtl_go hcal hen hgo, run_convTrigger_busy (ha.of_sets hctl (fieldsAbove_ctlFields _ _ _) rfl)
    ((ctlA_on (convStat_off_ne c)).trans hcal) (ctlA_en hen) ((ctlA_on (convStat_off_ne c)).trans hb)
    ((ctlA_on (convTrig_off_ne c)).trans hr)]
  rw [hen] at hctl
  exact hctl.trans (hlost.cast rfl hctl.hid_eq)

/-- A write that clears `en` at an idle converter stops it. -/
theorem sets_ctlA_convHalt_idle {v : Word} (hen : v.toNat % 2 = 0) (hb : s.on (F.CONV_C_STAT_busy c) = false) :
    Sets (ctlFields c (v.toNat / 256) 0 ++ [(F.CONV_C_STAT_seq_pos c, 0)])
      (withConv s c { convSt s c with hist := [], stop := false }) s ((convHalt c).run ((ctlA c v).run s)) := by
  have hctl := sets_ctlA c v s
  have hidle := (ctlA_on (v := v) (convStat_off_ne c)).trans hb
  rw [hen] at hctl
  rw [convHalt, run_cond, if_neg (hidle ▸ Bool.false_ne_true)]
  exact hctl.then_conv (sets_convStop_idle hidle)

/-- One with `go` at a calibrating converter loses its trigger besides (R155). -/
theorem sets_convCtl_calibrating {v : Word} (ha : TriggersAct c s) (hcal : s.on (F.CONV_C_STAT_cal c) = true) (hen : v.toNat % 2 = 0)
    (hgo : v.getLsbD 1 = true) (hb : s.on (F.CONV_C_STAT_busy c) = false) :
    Sets (ctlFields c (v.toNat / 256) 0 ++ [(F.CONV_C_STAT_seq_pos c, 0)] ++ lostFields c s)
      (withConv s c { convSt s c with hist := [], stop := false }) s ((convCtl c v).run s) := by
  have hstop := sets_ctlA_convHalt_idle (c := c) (s := s) hen hb
  rw [run_convCtl (.inr hen), run_only, if_pos hgo, run_only, if_pos (by simp [hen])]
  generalize (convHalt c).run ((ctlA c v).run s) = u at hstop
  have hcal' : u.on (F.CONV_C_STAT_cal c) = true := by
    rw [hstop.on_of_apart, hcal]
    simp [ctlFields, Fld.Apart, F.CONV_C_CTL_last, F.CONV_C_CTL_en, F.CONV_C_STAT_cal, F.CONV_C_STAT_seq_pos, (convStat_off_ne c).symm]
  have hcount : u.rd (R.CONV_C_LOST_CNT c) = s.rd (R.CONV_C_LOST_CNT c) := by
    rw [hstop.rd_eq, fieldWord_of_forall_ne]
    simp only [ctlFields, List.cons_append, List.nil_append, List.forall_mem_cons, List.not_mem_nil, IsEmpty.forall_iff, implies_true, and_true,
      F.CONV_C_CTL_last, F.CONV_C_CTL_en, F.CONV_C_STAT_seq_pos, R.CONV_C_CTL, R.CONV_C_STAT, R.CONV_C_LOST_CNT]
    omega
  rw [run_convTrigger_cal (ha.of_sets hstop ⟨.add (.add rfl), .add (.add rfl), .add (.add rfl), trivial⟩ rfl) hcal',
    ← lostFields_congr hcount]
  exact hstop.conv_then (sets_trigLost c u)

/-- A write that clears `en` without `go` halts the converter. -/
theorem run_convCtl_halt {v : Word} (hen : v.toNat % 2 = 0) (hgo : v.getLsbD 1 = false) :
    (convCtl c v).run s = (convHalt c).run ((ctlA c v).run s) := by
  rw [run_convCtl (.inr hen), run_only, if_neg (hgo ▸ Bool.false_ne_true), run_only, if_pos (by simp [hen])]

/-- An idle converter then stops; one that runs finishes the conversion in progress (R161). -/
theorem sets_convCtl_halt_busy {v : Word} (hen : v.toNat % 2 = 0) (hgo : v.getLsbD 1 = false) (hb : s.on (F.CONV_C_STAT_busy c) = true) :
    Sets (ctlFields c (v.toNat / 256) 0) (withConv s c { convSt s c with stop := true }) s ((convCtl c v).run s) := by
  have hctl := sets_ctlA c v s
  rw [hen] at hctl
  rw [run_convCtl_halt hen hgo, convHalt, run_cond, if_pos ((ctlA_on (convStat_off_ne c)).trans hb)]
  exact hctl.then_conv (sets_convA c (fun v => { v with stop := true }) _)

theorem sets_convCtl_halt_idle {v : Word} (hen : v.toNat % 2 = 0) (hgo : v.getLsbD 1 = false) (hb : s.on (F.CONV_C_STAT_busy c) = false) :
    Sets (ctlFields c (v.toNat / 256) 0 ++ [(F.CONV_C_STAT_busy c, 0), (F.CONV_C_STAT_seq_pos c, 0)])
      (withConv s c { convSt s c with hist := [], stop := false }) s ((convCtl c v).run s) := by
  have hctl := sets_ctlA c v s
  rw [hen] at hctl
  have hidle := (ctlA_on (v := v) (y := F.CONV_C_STAT_busy c) (convStat_off_ne c)).trans hb
  rw [run_convCtl_halt hen hgo, convHalt, run_cond, if_neg (hidle ▸ Bool.false_ne_true)]
  exact hctl.then_conv (sets_convStop c _)

end

/-! ### The words of the commands -/

theorem or_two_div (v : Word) : (v ||| 2#32).toNat / 256 = v.toNat / 256 := by
  rw [BitVec.toNat_or, Nat.or_div_two_pow (n := 8)]
  simp

theorem or_two_mod (v : Word) : (v ||| 2#32).toNat % 2 = v.toNat % 2 := by
  rw [BitVec.toNat_or, Nat.or_mod_two_pow (n := 1)]
  simp

theorem or_two_go (v : Word) : (v ||| 2#32).getLsbD 1 = true := by simp

theorem andNot_three_div (v : Word) : (v &&& ~~~ 3#32).toNat / 256 = v.toNat / 256 := by
  have hv := v.isLt
  rw [BitVec.toNat_and, Nat.and_div_two_pow (n := 8), show (~~~ 3#32).toNat / 2 ^ 8 = 2 ^ 24 - 1 from rfl, Nat.and_two_pow_sub_one_eq_mod]
  omega

theorem andNot_three_mod (v : Word) : (v &&& ~~~ 3#32).toNat % 2 = 0 := by
  rw [BitVec.toNat_and, Nat.and_mod_two_pow (n := 1)]
  simp

theorem andNot_three_go (v : Word) : (v &&& ~~~ 3#32).getLsbD 1 = false := by simp

end Sys2Proof.Machine
end

section
/-!
The end of a conversion of a SAR converter (R136 to R138, R143, R144).  Its action is cut into the result, its events, its way to the
destinations, and how the acquisition goes on; the fields that it sets follow, and what each of them reads then.
-/

namespace Sys2Proof.Machine

/-! ### The end of a conversion (R143 to R148) -/

/-- A sequence runs its first part, then the rest. -/
theorem run_seq_append (l m : List Act) (s : State) : (seq (l ++ m)).run s = (seq m).run ((seq l).run s) := by
  induction l generalizing s with
  | nil => rfl
  | cons a l ih => rw [List.cons_append, run_seq_cons, run_seq_cons, ih]

section
variable (s : State) (c : Nat) (x : ConvIn) (full : Bool)

/-- The entry whose conversion ends. -/
def convPos : Nat := s.f (F.CONV_C_STAT_seq_pos c)

/-- The code of the conversion. -/
def convEndCode : Int := convResult s c (convSt s c).ent x

/-- The entry's history with it. -/
def convEndHist : List Int := (convEndCode s c x :: (convSt s c).hist.get [] (convPos s c)).take 10

/-- The corrected and scaled value (R144). -/
def convEndValue : Rat :=
  scaled (convEndHist s c x) 32768 (s.f (F.CONV_C_ENT_DLY_dly c (convPos s c))) (s.f (F.CONV_C_ENT_TRIM_trim c (convPos s c)))
    (s.pu (R.CONV_C_ENT_SCALE c (convPos s c))) (s.pu (R.CONV_C_ENT_OFS c (convPos s c)))

/-- Whether the result carries `clip`, `uncal`, `unsettled` and `ref_is_supply`. -/
def convEndClip : Bool := decide (convEndCode s c x = -32768) || decide (convEndCode s c x = 32767)
def convEndUncal : Bool := !(s.f (F.CONV_CAL_STAT_done (convDie c)) / 2 ^ convBit c % 2 = 1)
def convEndUnsettled : Bool := !s.on (F.CONV_REF_STAT_ref_ok (convDie c)) || (convSt s c).fell
def convEndSupply : Bool := s.on (F.CONV_REF_STAT_ref_is_supply (convDie c))

/-- The word of code, entry number and flags. -/
def convEndRaw : Word :=
  BitVec.ofNat 32 (b2n (convEndUncal s c) * 2 ^ 24 + b2n (over36 (convEndValue s c x)) * 2 ^ 23 + b2n (convEndSupply s c) * 2 ^ 22 +
    b2n (convEndClip s c x) * 2 ^ 21 + b2n (convEndUnsettled s c) * 2 ^ 20 + convPos s c * 2 ^ 16) |||
    BitVec.ofInt 32 (convEndCode s c x % 65536)

/-- The sampling instant. -/
def convEndTs : BitVec 64 := BitVec.ofInt 64 (s.now.toNat + dieSkew s (convDie c) - 20) &&& ~~~ 1#64

/-- The events of the conversion, with their conditions. -/
def convEndEvents : List (Fld × Bool) :=
  [(F.CONV_C_EVENT_uncal c, convEndUncal s c), (F.CONV_C_EVENT_bad_entry c, badEntry (convSt s c).ent),
    (F.CONV_C_EVENT_ovf c, over36 (convEndValue s c x)), (F.CONV_C_EVENT_clip c, convEndClip s c x),
    (F.CONV_C_EVENT_unsettled c, convEndUnsettled s c)]

/-- What goes to the destinations. -/
def convEndSent : MetIn :=
  ⟨0, convEndTs s c, narrow36 (convEndValue s c x), convEndUncal s c || convEndUnsettled s c || convEndClip s c x ||
    over36 (convEndValue s c x) || convEndSupply s c, s.on F.CLK_SLIDE_STAT_coast⟩

/-- Registers a result. -/
def resultA (c q : Nat) (val : Int) (raw : Word) (ts : BitVec 64) : Act :=
  seq [setPu (R.CONV_C_RES_VAL c q) val, setW (R.CONV_C_RES_RAW c q) raw, set64 (R.CONV_C_RES_TS c q) ts]

/-- Counts a result that found the boundary FIFOs full (R33). -/
def overrunA (c : Nat) (full : Bool) : Act := only full (seq [setB (F.CONV_C_EVENT_overrun c), bump (R.CONV_C_OVR_CNT c)])

/-- How the acquisition goes on after entry `q` (R141, R161). -/
def goesOnA (c q : Nat) (stop last rep : Bool) (ts : BitVec 64) : Act :=
  if stop then convStop c
  else if last then seq [setB (F.CONV_C_EVENT_seq_end c), fire (.seqEnd c) ts,
    if rep then convStart c else seq [clrB (F.CONV_C_STAT_busy c), setF (F.CONV_C_STAT_seq_pos c) 0]]
  else convAcquire c (q + 1)

/-- The action of a conversion's end, with its quantities by name. -/
theorem conversionEnd_eq (hb : s.on (F.CONV_C_STAT_busy c) = true) : conversionEnd c x full s =
    seq ([setPu (R.CONV_C_RES_VAL c (convPos s c)) (narrow36 (convEndValue s c x)),
        setW (R.CONV_C_RES_RAW c (convPos s c)) (convEndRaw s c x), set64 (R.CONV_C_RES_TS c (convPos s c)) (convEndTs s c)] ++
      [convA c fun v => { v with hist := v.hist.put [] (convPos s c) (convEndHist s c x) }] ++
      (convEndEvents s c x).map (fun y => only y.2 (setB y.1)) ++
      [deliverAll full c (convPos s c) (convEndSent s c x) (convEndCode s c x), overrunA c full,
        goesOnA c (convPos s c) (convSt s c).stop (decide ((convSt s c).last ≤ convPos s c)) (s.on (F.CONV_C_TRIG_repeat c))
          (convEndTs s c)]) s := by
  unfold conversionEnd
  rw [hb, Bool.not_true, if_neg Bool.false_ne_true]
  dsimp only [convEndEvents, List.map, List.cons_append, List.nil_append, convEndTs, convEndSent, convEndRaw, convEndValue, convEndHist,
    convEndClip, convEndUncal, convEndUnsettled, convEndSupply, convEndCode, convPos, overrunA, goesOnA]
  rfl

theorem run_conversionEnd (hb : s.on (F.CONV_C_STAT_busy c) = true) : (conversionEnd c x full).run s =
    (goesOnA c (convPos s c) (convSt s c).stop (decide ((convSt s c).last ≤ convPos s c)) (s.on (F.CONV_C_TRIG_repeat c))
      (convEndTs s c)).run ((overrunA c full).run ((deliverAll full c (convPos s c) (convEndSent s c x) (convEndCode s c x)).run
      ((raiseA (convEndEvents s c x)).run
      ((convA c fun v => { v with hist := v.hist.put [] (convPos s c) (convEndHist s c x) }).run
      ((resultA c (convPos s c) (narrow36 (convEndValue s c x)) (convEndRaw s c x) (convEndTs s c)).run s))))) := by
  rw [Act.run, conversionEnd_eq s c x full hb, ← Act.run]
  rw [run_seq_append, run_seq_append, run_seq_append, run_seq_cons, run_seq_cons, run_seq_cons, run_seq_nil, run_seq_cons, run_seq_nil,
    ← resultA, ← forEach, ← raiseA]

end

/-- The fields of a result. -/
def resultFields (c q : Nat) (val : Int) (raw : Word) (ts : BitVec 64) : List (Fld × Nat) :=
  pairFields (R.CONV_C_RES_VAL c q) (puWord val) ++ [(wordFld (R.CONV_C_RES_RAW c q), raw.toNat)] ++ pairFields (R.CONV_C_RES_TS c q) ts

theorem sets_resultA (c q : Nat) (val : Int) (raw : Word) (ts : BitVec 64) (s : State) :
    Sets (resultFields c q val raw ts) s.hid s ((resultA c q val raw ts).run s) := by
  unfold resultA
  simp only [run_seq_cons, run_seq_nil]
  have h := (sets_set64 (R.CONV_C_RES_VAL c q) (puWord val) s).then_setW (R.CONV_C_RES_RAW c q) raw
  exact h.trans ((sets_set64 (R.CONV_C_RES_TS c q) ts _).cast rfl h.hid_eq)

/-- The fields in which the acquisition goes on. -/
def goesOnFields (c q : Nat) (stop last rep : Bool) : List (Fld × Nat) :=
  if stop then [(F.CONV_C_STAT_busy c, 0), (F.CONV_C_STAT_seq_pos c, 0)]
  else if last then [(F.CONV_C_EVENT_seq_end c, 1), (F.CONV_C_STAT_busy c, b2n rep), (F.CONV_C_STAT_seq_pos c, 0)]
  else [(F.CONV_C_STAT_seq_pos c, q + 1)]

theorem setsBut_goesOnA (w : Nat → Prop) (c q : Nat) (stop last rep : Bool) (ts : BitVec 64) (s : State) :
    SetsBut w (goesOnFields c q stop last rep) s ((goesOnA c q stop last rep ts).run s) := by
  unfold goesOnA goesOnFields
  cases stop
  · cases last
    · exact (sets_convAcquire c (q + 1) s).setsBut w
    · have hend := ((Sets.setF (F.CONV_C_EVENT_seq_end c) 1 s).setsBut w).then_confined (confined_fire w (.seqEnd c) ts)
      simp only [Bool.false_eq_true, if_false, if_true, run_seq_cons, run_seq_nil, setB_eq, clrB_eq]
      cases rep
      · simpa [b2n] using (hend.then_setF (F.CONV_C_STAT_busy c) 0).then_setF (F.CONV_C_STAT_seq_pos c) 0
      · exact hend.trans ((sets_convStart c _).setsBut w)
  · exact (sets_convStop c s).setsBut w

/-- All that the end of a conversion sets, but the overrun count. -/
def convEndFields (s : State) (c : Nat) (x : ConvIn) (full : Bool) : List (Fld × Nat) :=
  resultFields c (convPos s c) (narrow36 (convEndValue s c x)) (convEndRaw s c x) (convEndTs s c) ++ raised (convEndEvents s c x) ++
    raised [(F.CONV_C_EVENT_overrun c, full)] ++
    goesOnFields c (convPos s c) (convSt s c).stop (decide ((convSt s c).last ≤ convPos s c)) (s.on (F.CONV_C_TRIG_repeat c))

theorem setsBut_overrunA (c : Nat) (full : Bool) (s : State) :
    SetsBut (· = R.CONV_C_OVR_CNT c) (raised [(F.CONV_C_EVENT_overrun c, full)]) s ((overrunA c full).run s) := by
  unfold overrunA
  rw [run_only]
  cases full
  · exact .refl _ s
  · rw [if_pos rfl, run_seq_cons, run_seq_cons, run_seq_nil]
    exact ((Sets.setF (F.CONV_C_EVENT_overrun c) 1 s).setsBut _).then_confined (.bump rfl)

/-- The end of a conversion (R143 to R148). -/
theorem setsBut_conversionEnd (s : State) (c : Nat) (x : ConvIn) (full : Bool) (hb : s.on (F.CONV_C_STAT_busy c) = true) :
    SetsBut (· = R.CONV_C_OVR_CNT c) (convEndFields s c x full) s ((conversionEnd c x full).run s) := by
  rw [run_conversionEnd s c x full hb]
  have hres := (sets_resultA c (convPos s c) (narrow36 (convEndValue s c x)) (convEndRaw s c x) (convEndTs s c) s).setsBut
    (· = R.CONV_C_OVR_CNT c)
  exact ((((hres.then_confined (.hidA _)).trans ((sets_raiseA (convEndEvents s c x) _).setsBut _)).then_confined
    (confined_deliverAll full c _ _ _)).trans (setsBut_overrunA c full _)).trans (setsBut_goesOnA _ c _ _ _ _ _ _)

/-! ### What the end of a conversion leaves -/

theorem of_mem_pairFields {off : Nat} {v : BitVec 64} {x : Fld × Nat} (h : x ∈ pairFields off v) :
    x.1.off = off ∨ x.1.off = off + 4 := by
  simp only [pairFields, List.mem_cons, List.not_mem_nil, or_false] at h
  rcases h with rfl | rfl
  · exact .inl rfl
  · exact .inr rfl

theorem of_mem_resultFields {c q : Nat} {val : Int} {raw : Word} {ts : BitVec 64} {x : Fld × Nat}
    (h : x ∈ resultFields c q val raw ts) : x ∈ pairFields (R.CONV_C_RES_VAL c q) (puWord val) ∨
      x = (wordFld (R.CONV_C_RES_RAW c q), raw.toNat) ∨ x ∈ pairFields (R.CONV_C_RES_TS c q) ts := by
  simp only [resultFields, List.mem_append, List.mem_singleton, or_assoc] at h
  exact h

/-- The registers of a result lie above the other registers that the end of a conversion writes. -/
theorem resultFields_off {c q : Nat} {val : Int} {raw : Word} {ts : BitVec 64} {x : Fld × Nat} (h : x ∈ resultFields c q val raw ts) :
    R.CONV_C_OVR_CNT c < x.1.off := by
  have hoff : x.1.off = R.CONV_C_RES_VAL c q ∨ x.1.off = R.CONV_C_RES_VAL c q + 4 ∨ x.1.off = R.CONV_C_RES_RAW c q ∨
      x.1.off = R.CONV_C_RES_TS c q ∨ x.1.off = R.CONV_C_RES_TS c q + 4 := by
    rcases of_mem_resultFields h with h | rfl | h
    · exact (of_mem_pairFields h).imp_right .inl
    · exact .inr (.inr (.inl rfl))
    · exact .inr (.inr (.inr (of_mem_pairFields h)))
  simp only [R.CONV_C_OVR_CNT, R.CONV_C_RES_VAL, R.CONV_C_RES_RAW, R.CONV_C_RES_TS] at hoff ⊢
  omega

theorem of_mem_goesOnFields {c q : Nat} {stop last rep : Bool} {x : Fld × Nat} (h : x ∈ goesOnFields c q stop last rep) :
    x = (bitFld (R.CONV_C_EVENT c) 0, 1) ∨ x.1.off = R.CONV_C_STAT c := by
  unfold goesOnFields at h
  split at h
  · simp only [List.mem_cons, List.not_mem_nil, or_false] at h
    rcases h with rfl | rfl <;> exact .inr rfl
  · split at h
    · simp only [List.mem_cons, List.not_mem_nil, or_false] at h
      rcases h with rfl | rfl | rfl
      · exact .inl rfl
      · exact .inr rfl
      · exact .inr rfl
    · rw [List.mem_singleton.1 h]
      exact .inr rfl

theorem of_mem_convEndEvents {s : State} {c : Nat} {x : ConvIn} {y : Fld × Bool} (h : y ∈ convEndEvents s c x) :
    ∃ j ≤ 31, y.1 = bitFld (R.CONV_C_EVENT c) j := by
  simp only [convEndEvents, List.mem_cons, List.not_mem_nil, or_false] at h
  rcases h with rfl | rfl | rfl | rfl | rfl
  · exact ⟨7, by decide, rfl⟩
  · exact ⟨6, by decide, rfl⟩
  · exact ⟨5, by decide, rfl⟩
  · exact ⟨4, by decide, rfl⟩
  · exact ⟨3, by decide, rfl⟩

section
variable {s : State} {c : Nat} {x : ConvIn} {full : Bool} {y : Fld × Nat}

/-- A field is one of the result, an event, or one of the status in which the acquisition goes on. -/
theorem of_mem_convEndFields (h : y ∈ convEndFields s c x full) :
    y ∈ resultFields c (convPos s c) (narrow36 (convEndValue s c x)) (convEndRaw s c x) (convEndTs s c) ∨
      (∃ j ≤ 31, y = (bitFld (R.CONV_C_EVENT c) j, 1)) ∨ y.1.off = R.CONV_C_STAT c ∧ y ∈ goesOnFields c (convPos s c)
        (convSt s c).stop (decide ((convSt s c).last ≤ convPos s c)) (s.on (F.CONV_C_TRIG_repeat c)) := by
  simp only [convEndFields, List.mem_append] at h
  obtain (((hres | hev) | hovr) | hgo) := h
  · exact .inl hres
  · obtain ⟨hone, hm⟩ := of_mem_raised hev
    obtain ⟨j, hj, he⟩ := of_mem_convEndEvents hm
    exact .inr (.inl ⟨j, hj, Prod.ext he hone⟩)
  · obtain ⟨hone, hm⟩ := of_mem_raised hovr
    have he := congrArg Prod.fst (List.mem_singleton.1 hm)
    exact .inr (.inl ⟨2, by decide, Prod.ext he hone⟩)
  · rcases of_mem_goesOnFields hgo with he | he
    · exact .inr (.inl ⟨0, by decide, he⟩)
    · exact .inr (.inr ⟨he, hgo⟩)

/-- Events and status lie below the registers of the result. -/
theorem convEnd_off_lt (c : Nat) : R.CONV_C_STAT c < R.CONV_C_EVENT c ∧ R.CONV_C_EVENT c < R.CONV_C_OVR_CNT c := by
  simp only [R.CONV_C_STAT, R.CONV_C_EVENT, R.CONV_C_OVR_CNT]
  omega

/-- A field beyond them is one of the result. -/
theorem mem_resultFields_of_off (h : y ∈ convEndFields s c x full) (hoff : R.CONV_C_OVR_CNT c < y.1.off) :
    y ∈ resultFields c (convPos s c) (narrow36 (convEndValue s c x)) (convEndRaw s c x) (convEndTs s c) := by
  obtain ⟨h1, h2⟩ := convEnd_off_lt c
  rcases of_mem_convEndFields h with hres | ⟨j, -, rfl⟩ | ⟨he, -⟩
  · exact hres
  · exact absurd hoff (by simp only [bitFld]; omega)
  · omega

/-- Of the events nothing but single bits is set. -/
theorem convEndFields_event (h : y ∈ convEndFields s c x full) (hoff : y.1.off = R.CONV_C_EVENT c) :
    ∃ j ≤ 31, y = (bitFld (R.CONV_C_EVENT c) j, 1) := by
  obtain ⟨h1, h2⟩ := convEnd_off_lt c
  rcases of_mem_convEndFields h with hres | hev | ⟨he, -⟩
  · have := resultFields_off hres
    omega
  · exact hev
  · omega

/-- A field of the status is written as the acquisition goes on. -/
theorem convEndFields_stat (h : y ∈ convEndFields s c x full) (hoff : y.1.off = R.CONV_C_STAT c) :
    y ∈ goesOnFields c (convPos s c) (convSt s c).stop (decide ((convSt s c).last ≤ convPos s c)) (s.on (F.CONV_C_TRIG_repeat c)) := by
  obtain ⟨h1, h2⟩ := convEnd_off_lt c
  rcases of_mem_convEndFields h with hres | ⟨j, -, rfl⟩ | ⟨-, hgo⟩
  · have := resultFields_off hres
    omega
  · exact absurd hoff (by simp only [bitFld]; omega)
  · exact hgo

/-- No field is one of the mode. -/
theorem convEndFields_mode (h : y ∈ convEndFields s c x full) : y.1.off ≠ R.SYS_MODE_STAT := by
  have hlow : ∀ off, R.CONV_C_STAT c ≤ off → off ≠ R.SYS_MODE_STAT := by
    intro off hoff he
    simp only [he, R.CONV_C_STAT, R.SYS_MODE_STAT] at hoff
    omega
  obtain ⟨h1, h2⟩ := convEnd_off_lt c
  rcases of_mem_convEndFields h with hres | ⟨j, -, rfl⟩ | ⟨he, -⟩
  · have := resultFields_off hres
    exact hlow _ (by omega)
  · exact hlow _ (by simp only [bitFld]; omega)
  · exact hlow _ he.ge

variable {t : State}

/-- The value is registered. -/
theorem convEnd_value (a : SetsBut (· = R.CONV_C_OVR_CNT c) (convEndFields s c x full) s t) :
    t.pu (R.CONV_C_RES_VAL c (convPos s c)) = narrow36 (convEndValue s c x) := by
  have hval : R.CONV_C_OVR_CNT c < R.CONV_C_RES_VAL c (convPos s c) := by
    simp only [R.CONV_C_OVR_CNT, R.CONV_C_RES_VAL]
    omega
  rw [State.pu, a.rd64_of_mem (v := puWord (narrow36 (convEndValue s c x))) ⟨by omega, by omega⟩ (fun y hy => ?_) fun y hy => ?_,
    sext_puWord_narrow36]
  · exact List.mem_append_left _ (List.mem_append_left _ (List.mem_append_left _ (List.mem_append_left _ (List.mem_append_left _ hy))))
  · by_cases hoff : R.CONV_C_OVR_CNT c < y.1.off
    · rcases of_mem_resultFields (mem_resultFields_of_off hy hoff) with h | rfl | h
      · exact .inl h
      · refine .inr ?_
        simp only [wordFld, R.CONV_C_RES_RAW, R.CONV_C_RES_VAL]
        omega
      · have h2 := of_mem_pairFields h
        refine .inr ?_
        simp only [R.CONV_C_RES_TS, R.CONV_C_RES_VAL] at h2 ⊢
        omega
    · exact .inr (by omega)

/-- So is the word of code and flags. -/
theorem convEnd_raw (a : SetsBut (· = R.CONV_C_OVR_CNT c) (convEndFields s c x full) s t) :
    t.rd (R.CONV_C_RES_RAW c (convPos s c)) = convEndRaw s c x := by
  have hraw : R.CONV_C_OVR_CNT c < R.CONV_C_RES_RAW c (convPos s c) := by
    simp only [R.CONV_C_OVR_CNT, R.CONV_C_RES_RAW]
    omega
  refine a.rd_of_mem (by omega) ?_ fun y hy => ?_
  · simp [convEndFields, resultFields]
  · by_cases hoff : R.CONV_C_OVR_CNT c < y.1.off
    · rcases of_mem_resultFields (mem_resultFields_of_off hy hoff) with h | rfl | h
      · have h2 := of_mem_pairFields h
        refine .inr ?_
        simp only [R.CONV_C_RES_RAW, R.CONV_C_RES_VAL] at h2 ⊢
        omega
      · exact .inl rfl
      · have h2 := of_mem_pairFields h
        refine .inr ?_
        simp only [R.CONV_C_RES_TS, R.CONV_C_RES_RAW] at h2 ⊢
        omega
    · exact .inr (by omega)

/-- An event that is among the fields is set. -/
theorem convEnd_event {j : Nat} (a : SetsBut (· = R.CONV_C_OVR_CNT c) (convEndFields s c x full) s t)
    (h : (bitFld (R.CONV_C_EVENT c) j, 1) ∈ convEndFields s c x full) : t.on (bitFld (R.CONV_C_EVENT c) j) = true := by
  have hoff := (convEnd_off_lt c).2
  exact a.on_of_raised (by omega) h fun y hy => convEndFields_event hy

/-- A field of the status takes the one value with which the acquisition goes on. -/
theorem convEnd_stat {y : Fld} {v : Nat} (a : SetsBut (· = R.CONV_C_OVR_CNT c) (convEndFields s c x full) s t)
    (hy : y.off = R.CONV_C_STAT c) (hbits : y.lo ≤ y.hi ∧ y.hi ≤ 31)
    (hm : (y, v) ∈ goesOnFields c (convPos s c) (convSt s c).stop (decide ((convSt s c).last ≤ convPos s c))
      (s.on (F.CONV_C_TRIG_repeat c)))
    (h : ∀ z ∈ goesOnFields c (convPos s c) (convSt s c).stop (decide ((convSt s c).last ≤ convPos s c))
      (s.on (F.CONV_C_TRIG_repeat c)), z = (y, v) ∨ z.1.Apart y) : t.f y = v % 2 ^ (y.hi + 1 - y.lo) := by
  obtain ⟨h1, h2⟩ := convEnd_off_lt c
  refine a.f_of_mem (by omega) (List.mem_append_right _ hm) (fun z hz => ?_) hbits.1 hbits.2
  by_cases hoff : z.1.off = R.CONV_C_STAT c
  · exact h z (convEndFields_stat hz hoff)
  · exact .inr (.inl (hy ▸ hoff))

end

/-! ### The word of code and flags -/

/-- The flags above the code, as a number. -/
def convEndFlags (s : State) (c : Nat) (x : ConvIn) : Nat :=
  b2n (convEndUncal s c) * 2 ^ 8 + b2n (over36 (convEndValue s c x)) * 2 ^ 7 + b2n (convEndSupply s c) * 2 ^ 6 +
    b2n (convEndClip s c x) * 2 ^ 5 + b2n (convEndUnsettled s c) * 2 ^ 4 + convPos s c

theorem convPos_lt (s : State) (c : Nat) : convPos s c < 16 := Fld.get_lt _ _

theorem convEndRaw_toNat (s : State) (c : Nat) (x : ConvIn) :
    (convEndRaw s c x).toNat = 2 ^ 16 * convEndFlags s c x + (convEndCode s c x % 65536).toNat := by
  have hpos := convPos_lt s c
  have h1 := b2n_le_one (convEndUncal s c)
  have h2 := b2n_le_one (over36 (convEndValue s c x))
  have h3 := b2n_le_one (convEndSupply s c)
  have h4 := b2n_le_one (convEndClip s c x)
  have h5 := b2n_le_one (convEndUnsettled s c)
  have hcode : BitVec.ofInt 32 (convEndCode s c x % 65536) = BitVec.ofNat 32 (convEndCode s c x % 65536).toNat := by
    rw [← BitVec.ofInt_natCast, Int.toNat_of_nonneg (Int.emod_nonneg _ (by decide))]
  unfold convEndRaw
  rw [hcode, ← toNat_or_of_lt (k := 16) (by omega) (by unfold convEndFlags; omega)]
  congr 3
  unfold convEndFlags
  omega

/-- Each flag stands at its bit. -/
theorem convEndFlags_bits (s : State) (c : Nat) (x : ConvIn) : convEndFlags s c x % 16 = convPos s c ∧
    convEndFlags s c x / 2 ^ 7 % 2 = b2n (over36 (convEndValue s c x)) ∧ convEndFlags s c x / 2 ^ 5 % 2 = b2n (convEndClip s c x) ∧
    convEndFlags s c x / 2 ^ 8 % 2 = b2n (convEndUncal s c) := by
  have hpos := convPos_lt s c
  have h1 := b2n_le_one (convEndUncal s c)
  have h2 := b2n_le_one (over36 (convEndValue s c x))
  have h3 := b2n_le_one (convEndSupply s c)
  have h4 := b2n_le_one (convEndClip s c x)
  have h5 := b2n_le_one (convEndUnsettled s c)
  unfold convEndFlags
  omega

section
variable {s t : State} {c : Nat} {x : ConvIn} {full : Bool}

/-- The word reads as R143 says: code, entry number, `ovf`, `clip` and `uncal`. -/
theorem convEndRaw_reads (s : State) (c : Nat) (x : ConvIn) :
    (((convEndRaw s c x).toNat : Int) % 65536 = convEndCode s c x % 65536) ∧ (convEndRaw s c x).toNat / 65536 % 16 = convPos s c ∧
      ((convEndRaw s c x).toNat / 2 ^ 23 % 2 = 1 ↔ over36 (convEndValue s c x) = true) ∧
      ((convEndRaw s c x).toNat / 2 ^ 21 % 2 = 1 ↔ convEndCode s c x = -32768 ∨ convEndCode s c x = 32767) ∧
      ((convEndRaw s c x).toNat / 2 ^ 24 % 2 = 0 ↔ s.f (F.CONV_CAL_STAT_done (convDie c)) / 2 ^ convBit c % 2 = 1) := by
  obtain ⟨hpos, hovf, hclip, huncal⟩ := convEndFlags_bits s c x
  have hclip1 : b2n (convEndClip s c x) = 1 ↔ convEndCode s c x = -32768 ∨ convEndCode s c x = 32767 := by
    simp [b2n_eq_one, convEndClip]
  have huncal0 : b2n (convEndUncal s c) = 0 ↔ s.f (F.CONV_CAL_STAT_done (convDie c)) / 2 ^ convBit c % 2 = 1 := by
    simp [b2n, convEndUncal]
  rw [convEndRaw_toNat, ← b2n_eq_one, ← hclip1, ← huncal0, ← hovf, ← hclip, ← huncal, ← hpos]
  generalize convEndFlags s c x = k
  generalize convEndCode s c x = z
  omega

theorem mem_convEndFields_of_event {y : Fld} (h : (y, true) ∈ convEndEvents s c x) : (y, 1) ∈ convEndFields s c x full :=
  List.mem_append_left _ (List.mem_append_left _ (List.mem_append_right _ (mem_raised.2 h)))

theorem mem_convEndFields_of_overrun (h : full = true) : (F.CONV_C_EVENT_overrun c, 1) ∈ convEndFields s c x full :=
  List.mem_append_left _ (List.mem_append_right _ (mem_raised.2 (by rw [h]; exact List.mem_cons_self)))

/-- A converter that is to stop stops. -/
theorem convEnd_stopped (hb : s.on (F.CONV_C_STAT_busy c) = true) (hs : (convSt s c).stop = true) :
    (convSt ((conversionEnd c x full).run s) c).hist = [] ∧ (convSt ((conversionEnd c x full).run s) c).stop = false := by
  rw [run_conversionEnd s c x full hb, goesOnA, if_pos hs, convSt_withConv (sets_convStop c _).hid_eq]
  exact ⟨rfl, rfl⟩

variable (a : SetsBut (· = R.CONV_C_OVR_CNT c) (convEndFields s c x full) s t)
include a

theorem convEnd_busy {v : Nat} (hm : (F.CONV_C_STAT_busy c, v) ∈ goesOnFields c (convPos s c) (convSt s c).stop
      (decide ((convSt s c).last ≤ convPos s c)) (s.on (F.CONV_C_TRIG_repeat c)))
    (h : ∀ z ∈ goesOnFields c (convPos s c) (convSt s c).stop (decide ((convSt s c).last ≤ convPos s c))
      (s.on (F.CONV_C_TRIG_repeat c)), z = (F.CONV_C_STAT_busy c, v) ∨ z.1.Apart (F.CONV_C_STAT_busy c)) :
    t.on (F.CONV_C_STAT_busy c) = decide (v % 2 = 1) := by
  rw [State.on, convEnd_stat a rfl ⟨le_refl 0, Nat.zero_le 31⟩ hm h]
  rfl

theorem convEnd_of_stop (hs : (convSt s c).stop = true) : t.on (F.CONV_C_STAT_busy c) = false := by
  refine convEnd_busy a (v := 0) ?_ ?_ <;>
  simp [goesOnFields, hs, Fld.Apart, F.CONV_C_STAT_busy, F.CONV_C_STAT_seq_pos]

/-- The next entry follows. -/
theorem convEnd_of_next (hb : s.on (F.CONV_C_STAT_busy c) = true) (hs : (convSt s c).stop = false)
    (hl : decide ((convSt s c).last ≤ convPos s c) = false) :
    t.on (F.CONV_C_STAT_busy c) = true ∧ t.f (F.CONV_C_STAT_seq_pos c) = (convPos s c + 1) % 16 := by
  have hgo : goesOnFields c (convPos s c) (convSt s c).stop (decide ((convSt s c).last ≤ convPos s c)) (s.on (F.CONV_C_TRIG_repeat c)) =
      [(F.CONV_C_STAT_seq_pos c, convPos s c + 1)] := by
    rw [hs, hl]
    rfl
  obtain ⟨h1, h2⟩ := convEnd_off_lt c
  have hstat : (F.CONV_C_STAT_busy c).off = R.CONV_C_STAT c := rfl
  refine ⟨?_, convEnd_stat a rfl ⟨by simp [F.CONV_C_STAT_seq_pos], by simp [F.CONV_C_STAT_seq_pos]⟩ (by simp [hgo]) (by simp [hgo])⟩
  rw [a.on_of_apart (by omega) fun z hz => ?_, hb]
  by_cases hoff : z.1.off = R.CONV_C_STAT c
  · have hgone := convEndFields_stat hz hoff
    rw [hgo, List.mem_singleton] at hgone
    subst hgone
    simp [Fld.Apart, F.CONV_C_STAT_busy, F.CONV_C_STAT_seq_pos]
  · exact .inl hoff

/-- The last entry ends the sequence, or starts the loop again. -/
theorem convEnd_of_last (hs : (convSt s c).stop = false) (hl : decide ((convSt s c).last ≤ convPos s c) = true) :
    t.on (F.CONV_C_EVENT_seq_end c) = true ∧ t.f (F.CONV_C_STAT_seq_pos c) = 0 ∧
      t.on (F.CONV_C_STAT_busy c) = s.on (F.CONV_C_TRIG_repeat c) := by
  have hgo : goesOnFields c (convPos s c) (convSt s c).stop (decide ((convSt s c).last ≤ convPos s c)) (s.on (F.CONV_C_TRIG_repeat c)) =
      [(F.CONV_C_EVENT_seq_end c, 1), (F.CONV_C_STAT_busy c, b2n (s.on (F.CONV_C_TRIG_repeat c))), (F.CONV_C_STAT_seq_pos c, 0)] := by
    rw [hs, hl]
    rfl
  have hoff : R.CONV_C_EVENT c ≠ R.CONV_C_STAT c := (convEnd_off_lt c).1.ne'
  refine ⟨convEnd_event (j := 0) a (List.mem_append_right _ ?_), ?_, ?_⟩
  · rw [hgo]
    exact List.mem_cons_self
  · refine (convEnd_stat a (v := 0) rfl ⟨by simp [F.CONV_C_STAT_seq_pos], by simp [F.CONV_C_STAT_seq_pos]⟩ ?_ ?_).trans (Nat.zero_mod _) <;>
    simp [hgo, Fld.Apart, F.CONV_C_STAT_busy, F.CONV_C_STAT_seq_pos, F.CONV_C_EVENT_seq_end, hoff]
  · rw [convEnd_busy a (v := b2n (s.on (F.CONV_C_TRIG_repeat c)))]
    · cases s.on (F.CONV_C_TRIG_repeat c) <;> rfl
    · simp [hgo]
    · simp [hgo, Fld.Apart, F.CONV_C_STAT_busy, F.CONV_C_STAT_seq_pos, F.CONV_C_EVENT_seq_end, hoff]

end

/-! ### The code of a conversion (R137, R138, R153) -/

section
variable {s : State} {c : Nat} (x : ConvIn)

theorem convResult_of_own (e : Word) (h : convOwn s c = true) :
    convResult s c e x = clampInt (-32768) 32767 (roundHalfEven (convSignal s (convDie c) e x)) := by
  simp [convResult, h]

theorem convResult_of_not_own (e : Word) (h : convOwn s c = false) :
    convResult s c e x = convCode s c (Config.freeBits c (convSignal s (convDie c) e x)).toNat := by
  simp [convResult, h]

/-- The voltage that an entry selects (R136). -/
theorem convVolt_eq (e : Word) : convVolt e x = if e.toNat % 16 = 0 then x.a else if e.toNat % 16 = 1 then x.b
    else if e.toNat % 16 = 8 then 1024 / 1000 else if e.toNat % 16 = 10 then x.vdda / 4
    else if e.toNat % 16 = 11 then x.vgt / 2 else 0 := by
  unfold convVolt
  split <;> simp_all

/-- The gain of an entry (R138). -/
theorem convGain_eq (e : Word) : convGain e = if e.toNat % 16 < 8 ∧ e.toNat / 16 % 8 < 5 then 2 ^ (e.toNat / 16 % 8) else 1 := by
  unfold convGain
  by_cases h : e.toNat % 16 < 8 ∧ e.toNat / 16 % 8 < 5
  · exact (if_neg (by omega)).trans (if_pos h).symm
  · exact (if_pos (by omega)).trans (if_neg h).symm

theorem convSignal_of_temperature {e : Word} (d : Nat) (h : e.toNat % 16 = 9) : convSignal s d e x = 64 * x.temp := if_pos h

theorem convSignal_of_voltage {e : Word} (d : Nat) (h : e.toNat % 16 ≠ 9) (hr : vref s d x.ext x.vdda ≠ 0) :
    convSignal s d e x = 32768 * convVolt e x * convGain e / vref s d x.ext x.vdda :=
  (if_neg h).trans (if_neg hr)

end

theorem exec_convSoftwareTrigger (p : Port) (c : Fin 16) (v : Word) (s : State) : exec (.convSoftwareTrigger p c v) s =
    finish (portGate p (R.CONV_C_CTL c) (convCtl c (v ||| 2#32))) s := rfl

theorem exec_convDisable (p : Port) (c : Fin 16) (v : Word) (s : State) : exec (.convDisable p c v) s =
    finish (portGate p (R.CONV_C_CTL c) (convCtl c (v &&& ~~~ 3#32))) s := rfl

theorem exec_convRoutedTrigger (c : Fin 16) (s : State) : exec (.convRoutedTrigger c) s = finish (convRouted c) s := rfl

theorem mod_two_of_getLsbD {v : Word} {b : Bool} (h : v.getLsbD 0 = b) : v.toNat % 2 = b2n b := by
  rw [← h, BitVec.getLsbD, Nat.testBit_zero]
  have := Nat.mod_two_eq_zero_or_one v.toNat
  rcases this with h | h <;> simp [h, b2n]

/-- Settles O21: a trigger and a write of `CONV_C_CTL` are short sequences of writes that `Sets` follows; the end of a conversion is
followed by `SetsBut`, as its way to the destinations touches nothing of the converter but the overrun count. -/
theorem convertersStartAndRegisterResults : Obligations.ConvertersStartAndRegisterResults := by
  unfold Obligations.ConvertersStartAndRegisterResults
  refine ⟨⟨?_, ?_, ?_, ?_, ?_, ?_⟩, ?_⟩
  · intro s c ht
    refine completes_sets ?_ (by simp) (exec_convRoutedTrigger c s)
    rw [convRouted, run_whenA, if_neg (by simpa using ht)]
    exact Sets.refl s
  · intro s c ht hk
    refine completes_sets ?_ (by simp) (exec_convRoutedTrigger c s)
    rw [run_convRouted_ignored ht hk]
    exact sets_arriveA c s
  · rintro s c ht hk hd hc hs hon hcal hen x rfl
    refine ⟨fun hb => ?_, fun hb hr => ?_, fun hb hr => ?_⟩
    · exact completes_sets (sets_convRouted_start ⟨hon, hd⟩ ht hk hc hs hcal hen hb)
        (FieldsAbove.ne ⟨.add (.add rfl), .add (.add rfl), trivial⟩ (by decide)) (exec_convRoutedTrigger c s)
    · refine completes_sets ?_ (by simp) (exec_convRoutedTrigger c s)
      have hin := sets_arriveA c s
      rw [run_convRouted_taken ht hk hc hs,
        run_convTrigger_loop (TriggersAct.of_sets ⟨hon, hd⟩ hin trivial rfl) hcal hen hb hr]
      exact hin
    · exact completes_sets (sets_convRouted_lost ⟨hon, hd⟩ ht hk hc hs hcal hen hb hr)
        (FieldsAbove.ne ⟨.add (.add rfl), .add (.add rfl), trivial⟩ (by decide)) (exec_convRoutedTrigger c s)
  · intro s p c v hl hv hd hon hcal ctl
    have hen : (v ||| 2#32).toNat % 2 = 1 := (or_two_mod v).trans (mod_two_of_getLsbD hv)
    refine ⟨fun hb => ?_, fun hb hr => ?_⟩
    · have hsets := sets_convCtl_start ⟨hon, hd⟩ hcal hen (or_two_go v) hb
      rw [or_two_div] at hsets
      exact completes_portGate hl (exec_convSoftwareTrigger p c v s) hsets
        (FieldsAbove.ne ⟨.add (.add rfl), .add (.add rfl), .add (.add rfl), .add (.add rfl), trivial⟩ (by decide))
    · have hsets := sets_convCtl_lost ⟨hon, hd⟩ hcal hen (or_two_go v) hb hr
      rw [or_two_div] at hsets
      exact completes_portGate hl (exec_convSoftwareTrigger p c v s) hsets
        (FieldsAbove.ne ⟨.add (.add rfl), .add (.add rfl), .add (.add rfl), .add (.add rfl), trivial⟩ (by decide))
  · intro s p c v hl hv hd hon hcal hb
    have hsets := sets_convCtl_calibrating ⟨hon, hd⟩ hcal ((or_two_mod v).trans (mod_two_of_getLsbD hv)) (or_two_go v) hb
    rw [or_two_div] at hsets
    exact completes_portGate hl (exec_convSoftwareTrigger p c v s) hsets
      (FieldsAbove.ne ⟨.add (.add rfl), .add (.add rfl), .add (.add rfl), .add (.add rfl), .add (.add rfl), trivial⟩ (by decide))
  · intro s p c v hl ctl
    refine ⟨fun hb => ?_, fun hb => ?_⟩
    · have hsets := sets_convCtl_halt_busy (andNot_three_mod v) (andNot_three_go v) hb
      rw [andNot_three_div] at hsets
      exact completes_portGate hl (exec_convDisable p c v s) hsets
        (FieldsAbove.ne ⟨.add (.add rfl), .add (.add rfl), trivial⟩ (by decide))
    · have hsets := sets_convCtl_halt_idle (andNot_three_mod v) (andNot_three_go v) hb
      rw [andNot_three_div] at hsets
      exact completes_portGate hl (exec_convDisable p c v s) hsets
        (FieldsAbove.ne ⟨.add (.add rfl), .add (.add rfl), .add (.add rfl), .add (.add rfl), trivial⟩ (by decide))
  · intro s c x full hb q e ref volt gain whole code y w last
    refine ⟨fun ho ht => ?_, fun ho ht hr => ?_, fun ho => ⟨_, convResult_of_not_own x _ ho⟩, ?_⟩
    · exact (convResult_of_own x _ ho).trans (by rw [convSignal_of_temperature x _ ht])
    · refine (convResult_of_own x _ ho).trans ?_
      rw [convSignal_of_voltage x _ ht hr, convVolt_eq, convGain_eq]
    · have hset := setsBut_conversionEnd s c x full hb
      have hmode : ¬ R.SYS_MODE_STAT = R.CONV_C_OVR_CNT c := by
        simp only [R.SYS_MODE_STAT, R.CONV_C_OVR_CNT]
        omega
      have ht := hset.then_levelsFall
      refine hset.completes hmode (fun y hy => convEndFields_mode hy) rfl ?_
      generalize hu : levelsFall.run ((conversionEnd c x full).run s) = t at ht
      obtain ⟨hcode, hq, hovf, hclip, huncal⟩ := convEndRaw_reads s c x
      rw [← convEnd_raw ht] at hcode hq hovf hclip huncal
      have ⟨_, hmem, hnow⟩ := ht
      refine ⟨convEnd_value ht, hcode, hq, hovf, hclip, huncal, fun hbad => ?_, fun hfull => ?_, fun hs => ?_, fun hs hl => ?_,
        fun hs hl => ?_, hmem, hnow⟩
      · exact convEnd_event (j := 6) ht (mem_convEndFields_of_event (by simp [convEndEvents, hbad, F.CONV_C_EVENT_bad_entry, bitFld]))
      · exact convEnd_event (j := 2) ht (mem_convEndFields_of_overrun hfull)
      · obtain ⟨hhist, hstop⟩ := convEnd_stopped (x := x) (full := full) hb hs
        rw [← hu, convSt, run_levelsFall_hid]
        exact ⟨convEnd_of_stop (hu ▸ ht) hs, hhist, hstop⟩
      · exact convEnd_of_next ht hb hs hl
      · exact convEnd_of_last ht hs hl

end Sys2Proof.Machine
end

section
/-!
The Fine channels (R156 to R161): start, discarded samples and stop are short sequences of writes; a delivered sample goes to the meter
besides, which touches no register.
-/

namespace Sys2Proof.Machine

/-! ### What a Fine channel holds -/

theorem fineSt_withFine {s u : State} {f : Nat} {x : FineSt} (h : u.hid = withFine s f x) : fineSt u f = x := by
  rw [fineSt, h]
  exact (Tab.get_put _ _ _ _ _ (fun _ => rfl) _).trans (if_pos rfl)

section
variable {s : State} {f : Nat}

theorem sets_fineA (f : Nat) (g : FineSt → FineSt) (s : State) : Sets [] (withFine s f (g (fineSt s f))) s ((fineA f g).run s) :=
  Sets.hidA _ s

theorem Sets.then_fine {l m : List (Fld × Nat)} {t u : State} {x : FineSt} (a : Sets l s.hid s t) (b : Sets m (withFine t f x) t u) :
    Sets (l ++ m) (withFine s f x) s u :=
  a.trans (b.cast rfl (by rw [withFine, a.hid_eq]; rfl))

/-- Of two changes of one channel the later stands. -/
theorem Sets.fine_then_fine {l m : List (Fld × Nat)} {t u : State} {x y : FineSt} (a : Sets l (withFine s f x) s t)
    (b : Sets m (withFine t f y) t u) : Sets (l ++ m) (withFine s f y) s u := by
  refine a.trans (b.cast rfl ?_)
  unfold withFine
  rw [a.hid_eq]
  simp only [withFine, Tab.put_put]

/-! ### Start and stop (R159, R161) -/

/-- A channel starts, its first `drop` samples to be discarded. -/
theorem sets_fineBegin (f drop : Nat) (s : State) : Sets [(F.CONV_F_STAT_running f, 1), (F.CONV_F_STAT_no_clock f, 0)]
    (withFine s f { drop := drop, lost := (fineSt s f).lost }) s ((fineBegin f drop).run s) :=
  ((Sets.setF (F.CONV_F_STAT_running f) 1 s).then_setF (F.CONV_F_STAT_no_clock f) 0).then_fine
    (sets_fineA f (fun x => { drop := drop, lost := x.lost }) _)

/-- The fields with which a channel ends its last sample. -/
def fineStopFields (f : Nat) (noClk : Bool) : List (Fld × Nat) :=
  (F.CONV_F_STAT_running f, 0) :: if noClk then [(F.CONV_F_STAT_no_clock f, 1), (F.CONV_F_EVENT_no_clock f, 1)] else []

/-- Ends it; `noClk`: for want of the Slide. -/
def fineStopA (f : Nat) (noClk : Bool) : Act := seq [clrB (F.CONV_F_STAT_running f), fineA f (fun x => { lost := x.lost }),
  only noClk (seq [setB (F.CONV_F_STAT_no_clock f), setB (F.CONV_F_EVENT_no_clock f)])]

theorem sets_fineStopA (f : Nat) (noClk : Bool) (s : State) :
    Sets (fineStopFields f noClk) (withFine s f { lost := (fineSt s f).lost }) s ((fineStopA f noClk).run s) := by
  have hstop := (Sets.setF (F.CONV_F_STAT_running f) 0 s).then_fine (sets_fineA f (fun x => { lost := x.lost }) _)
  unfold fineStopA fineStopFields
  simp only [run_seq_cons, run_seq_nil, run_only, setB_eq, clrB_eq]
  cases noClk
  · exact hstop
  · exact (hstop.then_setF _ _).then_setF _ _

/-- A sample of the channel ends: its decimation interval does, or the Slide has stopped and the channel is to stop. -/
def FineDue (s : State) (f : Nat) : Prop := fineEnds s f = true ∨ (fineSt s f).stop = true ∧ slideRuns s = false

theorem run_fineSample_start (vd ext vdda : Rat) (hr : s.on (F.CONV_F_STAT_running f) = false) (hm : fineMay s f = true)
    (he : fineEnds s f = true) : (fineSample f vd ext vdda).run s = (fineBegin f 3).run s := by
  simp [Act.run, fineSample, hr, hm, he]

theorem run_fineSample_idle (vd ext vdda : Rat) (hr : s.on (F.CONV_F_STAT_running f) = false)
    (h : ¬ (fineMay s f = true ∧ fineEnds s f = true)) : (fineSample f vd ext vdda).run s = s := by
  simp [Act.run, fineSample, hr, h, applyAll]

theorem not_fineDue_iff (s : State) (f : Nat) :
    ¬ FineDue s f ↔ ((!(fineSt s f).stop) = true ∨ slideRuns s = true) ∧ (!fineEnds s f) = true := by
  unfold FineDue
  cases fineEnds s f <;> cases (fineSt s f).stop <;> cases slideRuns s <;> decide

theorem run_fineSample_wait (vd ext vdda : Rat) (hr : s.on (F.CONV_F_STAT_running f) = true) (h : ¬ FineDue s f) :
    (fineSample f vd ext vdda).run s = s := by
  unfold Act.run fineSample
  rw [hr, Bool.not_true, if_neg Bool.false_ne_true, if_pos ((not_fineDue_iff s f).1 h)]
  rfl

theorem run_fineSample_due (vd ext vdda : Rat) (hr : s.on (F.CONV_F_STAT_running f) = true) (h : FineDue s f) :
    (fineSample f vd ext vdda).run s = (only (fineSt s f).stop (fineStopA f (fineSt s f).noClk)).run
      ((if (fineSt s f).drop = 0 then fineDeliver f (fineCode s f vd ext vdda)
        else fineA f fun x => { x with drop := x.drop - 1 }).run s) := by
  have hdue : fineSample f vd ext vdda s = seq [if (fineSt s f).drop = 0 then fineDeliver f (fineCode s f vd ext vdda)
      else fineA f fun x => { x with drop := x.drop - 1 }, only (fineSt s f).stop (fineStopA f (fineSt s f).noClk)] s := by
    unfold fineSample
    rw [hr, Bool.not_true, if_neg Bool.false_ne_true, if_neg fun hw => (not_fineDue_iff s f).2 hw h]
    rfl
  rw [Act.run, hdue, ← Act.run, run_seq_cons, run_seq_cons, run_seq_nil]

/-- A sample after the start is discarded. -/
theorem sets_fineDrop (f : Nat) (s : State) :
    Sets [] (withFine s f { fineSt s f with drop := (fineSt s f).drop - 1 }) s ((fineA f fun x => { x with drop := x.drop - 1 }).run s) :=
  sets_fineA f _ s

/-- One that is the last ends the channel. -/
theorem sets_fineDrop_stop (f : Nat) (s : State) (noClk : Bool) :
    Sets (fineStopFields f noClk) (withFine s f { lost := (fineSt s f).lost }) s
    ((fineStopA f noClk).run ((fineA f fun x => { x with drop := x.drop - 1 }).run s)) := by
  have hdrop := sets_fineDrop f s
  have hstop := hdrop.fine_then_fine (sets_fineStopA f noClk _)
  rw [fineSt_withFine hdrop.hid_eq] at hstop
  exact hstop

end

/-! ### A delivered sample (R157, R158) -/

section
variable (s : State) (f : Nat) (code0 : Int)

/-- The clamped code, and the code registered. -/
def fineClamped : Int := clampInt (-(2 ^ 23)) (2 ^ 23 - 1) code0
def fineResult : Int := fineClamped code0 - sext 16 (s.f (F.CONV_F_ZERO_codes f))

/-- The history with it. -/
def fineHist : List Int := (fineResult s f code0 :: (fineSt s f).hist).take 10

/-- The corrected and scaled value. -/
def fineValue : Rat :=
  scaled (fineHist s f code0) (2 ^ 23) (s.f (F.CONV_F_DLY_dly f)) (s.f (F.CONV_F_TRIM_trim f)) (s.pu (R.CONV_F_SCALE f))
    (s.pu (R.CONV_F_OFS f))

/-- Whether the sample carries `clip`, `unsettled` and `ref_is_supply`. -/
def fineClip : Bool := decide (fineClamped code0 = -(2 ^ 23)) || decide (fineClamped code0 = 2 ^ 23 - 1)
def fineUnsettled : Bool := !s.on (F.CONV_REF_STAT_ref_ok (f / 6))
def fineSupply : Bool := s.on (F.CONV_REF_STAT_ref_is_supply (f / 6))

/-- The word of code and flags. -/
def fineRaw : Word :=
  BitVec.ofNat 32 (b2n (s.on F.CLK_SLIDE_STAT_coast) * 2 ^ 28 + b2n (over36 (fineValue s f code0)) * 2 ^ 27 +
    b2n (fineSupply s f) * 2 ^ 26 + b2n (fineClip code0) * 2 ^ 25 + b2n (fineUnsettled s f) * 2 ^ 24) |||
    BitVec.ofNat 32 (fineResult s f code0 % 2 ^ 24).toNat

/-- The time of the sample. -/
def fineTs : BitVec 64 := BitVec.ofInt 64 (s.now.toNat + dieSkew s (f / 6))

/-- The events of the sample, with their conditions. -/
def fineEvents : List (Fld × Bool) :=
  [(F.CONV_F_EVENT_coast f, s.on F.CLK_SLIDE_STAT_coast), (F.CONV_F_EVENT_unsettled f, fineUnsettled s f),
    (F.CONV_F_EVENT_ovf f, over36 (fineValue s f code0)), (F.CONV_F_EVENT_clip f, fineClip code0)]

/-- The way of the sample to the meter. -/
def fineSendA : Act := only (s.on (F.SYS_SEAM_STAT_up (f / 6))) (cond (fun s => s.island 10)
  (metDeliver true f ⟨fineIx s f, fineTs s f, narrow36 (fineValue s f code0), fineUnsettled s f || fineClip code0 ||
    over36 (fineValue s f code0) || fineSupply s f, s.on F.CLK_SLIDE_STAT_coast⟩) (fineLost f (fineRoutes s f)))

/-- The action of a delivered sample, with its quantities by name. -/
theorem fineDeliver_eq : fineDeliver f code0 s =
    seq ([setPu (R.CONV_F_VAL f) (narrow36 (fineValue s f code0)), setW (R.CONV_F_RAW f) (fineRaw s f code0),
        setW (R.CONV_F_IDX f) (BitVec.ofNat 32 (fineIx s f)), set64 (R.CONV_F_TS f) (fineTs s f)] ++
      [fineSendA s f code0, fineA f fun x => { x with hist := fineHist s f code0 }] ++
      (fineEvents s f code0).map fun y => only y.2 (setB y.1)) s := by
  unfold fineDeliver
  dsimp only [fineEvents, List.map, List.cons_append, List.nil_append, fineSendA, fineTs, fineRaw, fineValue, fineHist, fineClip,
    fineUnsettled, fineSupply, fineResult, fineClamped, fineSt]
  rfl

end

/-- The fields of a delivered sample. -/
def fineResultFields (s : State) (f : Nat) (code0 : Int) : List (Fld × Nat) :=
  pairFields (R.CONV_F_VAL f) (puWord (narrow36 (fineValue s f code0))) ++ [(wordFld (R.CONV_F_RAW f), (fineRaw s f code0).toNat)] ++
    [(wordFld (R.CONV_F_IDX f), (BitVec.ofNat 32 (fineIx s f)).toNat)] ++ pairFields (R.CONV_F_TS f) (fineTs s f)
def fineFields (s : State) (f : Nat) (code0 : Int) : List (Fld × Nat) := fineResultFields s f code0 ++ raised (fineEvents s f code0)

theorem confined_fineSendA (w : Nat → Prop) (s : State) (f : Nat) (code0 : Int) : Confined w (fineSendA s f code0) := by
  refine .only _ fun t => ?_
  unfold cond
  split
  · exact confined_metDeliver w true f _ t
  · exact (Confined.hidA _ : Confined w (fineLost f _)) t

/-- A delivered sample sets its registers and events, and no register else. -/
theorem setsBut_fineDeliver (w : Nat → Prop) (s : State) (f : Nat) (code0 : Int) :
    SetsBut w (fineFields s f code0) s ((fineDeliver f code0).run s) := by
  rw [Act.run, fineDeliver_eq, ← Act.run, run_seq_append, run_seq_append, run_seq_cons, run_seq_cons, run_seq_cons, run_seq_cons,
    run_seq_nil, run_seq_cons, run_seq_cons, run_seq_nil, ← forEach, ← raiseA]
  have hregs := ((sets_set64 (R.CONV_F_VAL f) (puWord (narrow36 (fineValue s f code0))) s).then_setW (R.CONV_F_RAW f)
    (fineRaw s f code0)).then_setW (R.CONV_F_IDX f) (BitVec.ofNat 32 (fineIx s f))
  have hres := (hregs.trans ((sets_set64 (R.CONV_F_TS f) (fineTs s f) _).cast rfl hregs.hid_eq)).setsBut w
  exact ((hres.then_confined (confined_fineSendA w s f code0)).then_confined (.hidA _)).trans
    ((sets_raiseA (fineEvents s f code0) _).setsBut w)

/-- Those of one after which the channel stops where it is to. -/
def fineSampleFields (s : State) (f : Nat) (code0 : Int) : List (Fld × Nat) :=
  fineFields s f code0 ++ if (fineSt s f).stop then fineStopFields f (fineSt s f).noClk else []

theorem setsBut_fineSample (w : Nat → Prop) (s : State) (f : Nat) (code0 : Int) : SetsBut w (fineSampleFields s f code0) s
    ((only (fineSt s f).stop (fineStopA f (fineSt s f).noClk)).run ((fineDeliver f code0).run s)) := by
  unfold fineSampleFields
  rw [run_only]
  split
  · exact (setsBut_fineDeliver w s f code0).trans ((sets_fineStopA f _ _).setsBut w)
  · exact (setsBut_fineDeliver w s f code0).trans (.refl w _)

section
variable {s t : State} {f : Nat} {code0 : Int} {x : Fld × Nat}

theorem of_mem_fineResultFields (h : x ∈ fineResultFields s f code0) :
    x ∈ pairFields (R.CONV_F_VAL f) (puWord (narrow36 (fineValue s f code0))) ∨
      x = (wordFld (R.CONV_F_RAW f), (fineRaw s f code0).toNat) ∨ x = (wordFld (R.CONV_F_IDX f), (BitVec.ofNat 32 (fineIx s f)).toNat) ∨
      x ∈ pairFields (R.CONV_F_TS f) (fineTs s f) := by
  simp only [fineResultFields, List.mem_append, List.mem_singleton, or_assoc] at h
  exact h

/-- Apart from the registers of the result, a delivered sample writes events, and the status in which the channel stops. -/
theorem of_mem_fineSampleFields (h : x ∈ fineSampleFields s f code0) : x ∈ fineResultFields s f code0 ∨
    (∃ j ≤ 31, x = (bitFld (R.CONV_F_EVENT f) j, 1)) ∨
    (fineSt s f).stop = true ∧ (x = (F.CONV_F_STAT_running f, 0) ∨ x = (F.CONV_F_STAT_no_clock f, 1)) := by
  simp only [fineSampleFields, fineFields, List.mem_append] at h
  obtain ((hres | hev) | hstop) := h
  · exact .inl hres
  · obtain ⟨hone, hm⟩ := of_mem_raised hev
    simp only [fineEvents, List.mem_cons, List.not_mem_nil, or_false, Prod.mk.injEq] at hm
    refine .inr (.inl ?_)
    rcases hm with ⟨he, -⟩ | ⟨he, -⟩ | ⟨he, -⟩ | ⟨he, -⟩
    · exact ⟨3, by decide, Prod.ext he hone⟩
    · exact ⟨2, by decide, Prod.ext he hone⟩
    · exact ⟨1, by decide, Prod.ext he hone⟩
    · exact ⟨0, by decide, Prod.ext he hone⟩
  · obtain ⟨hs, hm⟩ := List.mem_ite_nil_right.1 hstop
    rcases List.mem_cons.1 hm with rfl | hm
    · exact .inr (.inr ⟨hs, .inl rfl⟩)
    · simp only [List.mem_ite_nil_right, List.mem_cons, List.not_mem_nil, or_false] at hm
      rcases hm with ⟨-, rfl | rfl⟩
      · exact .inr (.inr ⟨hs, .inr rfl⟩)
      · exact .inr (.inl ⟨4, by decide, rfl⟩)

/-- Where the registers of a channel lie. -/
theorem convF_offs (f : Nat) : R.CONV_F_STAT f + 4 = R.CONV_F_EVENT f ∧ R.CONV_F_EVENT f + 56 = R.CONV_F_VAL f ∧
    R.CONV_F_VAL f + 8 = R.CONV_F_RAW f ∧ R.CONV_F_RAW f + 4 = R.CONV_F_IDX f ∧ R.CONV_F_IDX f + 4 = R.CONV_F_TS f ∧
    R.SYS_MODE_STAT < R.CONV_F_STAT f := by
  simp only [R.CONV_F_STAT, R.CONV_F_EVENT, R.CONV_F_VAL, R.CONV_F_RAW, R.CONV_F_IDX, R.CONV_F_TS, R.SYS_MODE_STAT]
  omega

/-- The registers of a result lie above the events. -/
theorem fineResultFields_off (h : x ∈ fineResultFields s f code0) : R.CONV_F_EVENT f < x.1.off := by
  obtain ⟨-, h1, h2, h3, h4, -⟩ := convF_offs f
  rcases of_mem_fineResultFields h with h | rfl | rfl | h
  · have := of_mem_pairFields h
    omega
  · simp only [wordFld]
    omega
  · simp only [wordFld]
    omega
  · have := of_mem_pairFields h
    omega

/-- A field above the events is one of the result. -/
theorem mem_fineResultFields_of_off (h : x ∈ fineSampleFields s f code0) (hoff : R.CONV_F_EVENT f < x.1.off) :
    x ∈ fineResultFields s f code0 := by
  obtain ⟨h0, -⟩ := convF_offs f
  rcases of_mem_fineSampleFields h with hres | ⟨j, -, rfl⟩ | ⟨-, rfl | rfl⟩
  · exact hres
  · exact absurd hoff (lt_irrefl _)
  · simp only [F.CONV_F_STAT_running] at hoff
    omega
  · simp only [F.CONV_F_STAT_no_clock] at hoff
    omega

/-- Of the events nothing but single bits is set. -/
theorem fineSampleFields_event (h : x ∈ fineSampleFields s f code0) (hoff : x.1.off = R.CONV_F_EVENT f) :
    ∃ j ≤ 31, x = (bitFld (R.CONV_F_EVENT f) j, 1) := by
  obtain ⟨h0, -⟩ := convF_offs f
  rcases of_mem_fineSampleFields h with hres | hev | ⟨-, rfl | rfl⟩
  · have := fineResultFields_off hres
    omega
  · exact hev
  · simp only [F.CONV_F_STAT_running] at hoff
    omega
  · simp only [F.CONV_F_STAT_no_clock] at hoff
    omega

/-- Of the status the channel's stop alone is written. -/
theorem fineSampleFields_stat (h : x ∈ fineSampleFields s f code0) (hoff : x.1.off = R.CONV_F_STAT f) :
    (fineSt s f).stop = true ∧ (x = (F.CONV_F_STAT_running f, 0) ∨ x = (F.CONV_F_STAT_no_clock f, 1)) := by
  obtain ⟨h0, -⟩ := convF_offs f
  rcases of_mem_fineSampleFields h with hres | ⟨j, -, rfl⟩ | hstop
  · have := fineResultFields_off hres
    omega
  · simp only [bitFld] at hoff
    omega
  · exact hstop

theorem fineSampleFields_mode (h : x ∈ fineSampleFields s f code0) : x.1.off ≠ R.SYS_MODE_STAT := by
  obtain ⟨h0, -, -, -, -, h5⟩ := convF_offs f
  rcases of_mem_fineSampleFields h with hres | ⟨j, -, rfl⟩ | ⟨-, rfl | rfl⟩
  · have := fineResultFields_off hres
    omega
  · simp only [bitFld]
    omega
  · exact h5.ne'
  · exact h5.ne'

/-- What a property of the fields above the events asks of the result alone. -/
theorem fineSampleFields_above {P : Fld × Nat → Prop} (hres : ∀ x ∈ fineResultFields s f code0, P x)
    (hlow : ∀ x : Fld × Nat, x.1.off ≤ R.CONV_F_EVENT f → P x) : ∀ x ∈ fineSampleFields s f code0, P x := by
  intro x hx
  by_cases hoff : R.CONV_F_EVENT f < x.1.off
  · exact hres x (mem_fineResultFields_of_off hx hoff)
  · exact hlow x (by omega)

theorem mem_fineSampleFields_of_result (h : x ∈ fineResultFields s f code0) : x ∈ fineSampleFields s f code0 :=
  List.mem_append_left _ (List.mem_append_left _ h)

variable (a : SetsBut (fun _ => False) (fineSampleFields s f code0) s t)
include a

theorem fineSample_value : t.pu (R.CONV_F_VAL f) = narrow36 (fineValue s f code0) := by
  obtain ⟨-, h1, h2, h3, h4, -⟩ := convF_offs f
  rw [State.pu, a.rd64_of_mem (v := puWord (narrow36 (fineValue s f code0))) ⟨not_false, not_false⟩
    (fun x hx => mem_fineSampleFields_of_result (by simp [fineResultFields, hx]))
    (fineSampleFields_above (fun x hx => ?_) fun x hx => .inr (by omega)), sext_puWord_narrow36]
  rcases of_mem_fineResultFields hx with h | rfl | rfl | h
  · exact .inl h
  · exact .inr (by simp only [wordFld]; omega)
  · exact .inr (by simp only [wordFld]; omega)
  · have := of_mem_pairFields h
    exact .inr (by omega)

theorem fineSample_ts : t.rd64 (R.CONV_F_TS f) = fineTs s f := by
  obtain ⟨-, h1, h2, h3, h4, -⟩ := convF_offs f
  refine a.rd64_of_mem ⟨not_false, not_false⟩ (fun x hx => mem_fineSampleFields_of_result (by simp [fineResultFields, hx]))
    (fineSampleFields_above (fun x hx => ?_) fun x hx => .inr (by omega))
  rcases of_mem_fineResultFields hx with h | rfl | rfl | h
  · have := of_mem_pairFields h
    exact .inr (by omega)
  · exact .inr (by simp only [wordFld]; omega)
  · exact .inr (by simp only [wordFld]; omega)
  · exact .inl h

theorem fineSample_raw : t.rd (R.CONV_F_RAW f) = fineRaw s f code0 := by
  obtain ⟨-, h1, h2, h3, h4, -⟩ := convF_offs f
  refine a.rd_of_mem not_false (mem_fineSampleFields_of_result (by simp [fineResultFields]))
    (fineSampleFields_above (fun x hx => ?_) fun x hx => .inr (by omega))
  rcases of_mem_fineResultFields hx with h | rfl | rfl | h
  · have := of_mem_pairFields h
    exact .inr (by omega)
  · exact .inl rfl
  · exact .inr (by simp only [wordFld]; omega)
  · have := of_mem_pairFields h
    exact .inr (by omega)

theorem fineSample_idx : t.rd (R.CONV_F_IDX f) = BitVec.ofNat 32 (fineIx s f) := by
  obtain ⟨-, h1, h2, h3, h4, -⟩ := convF_offs f
  refine a.rd_of_mem not_false (mem_fineSampleFields_of_result (by simp [fineResultFields]))
    (fineSampleFields_above (fun x hx => ?_) fun x hx => .inr (by omega))
  rcases of_mem_fineResultFields hx with h | rfl | rfl | h
  · have := of_mem_pairFields h
    exact .inr (by omega)
  · exact .inr (by simp only [wordFld]; omega)
  · exact .inl rfl
  · have := of_mem_pairFields h
    exact .inr (by omega)

/-- A channel that is to stop no longer runs, and reports a want of the Slide. -/
theorem fineSample_stopped (hs : (fineSt s f).stop = true) : t.on (F.CONV_F_STAT_running f) = false ∧
    ((fineSt s f).noClk = true → t.on (F.CONV_F_EVENT_no_clock f) = true) := by
  refine ⟨a.on_of_mem (v := 0) not_false (by simp [fineSampleFields, hs, fineStopFields]) (fun x hx => ?_) rfl (Nat.zero_le 31),
    fun hn => a.on_of_raised (i := 4) not_false ?_ fun x hx => fineSampleFields_event hx⟩
  · by_cases hoff : x.1.off = R.CONV_F_STAT f
    · obtain ⟨-, rfl | rfl⟩ := fineSampleFields_stat hx hoff
      · exact .inl rfl
      · exact .inr (.inr (by simp [F.CONV_F_STAT_no_clock, F.CONV_F_STAT_running]))
    · exact .inr (.inl hoff)
  · simp [fineSampleFields, hs, hn, fineStopFields, F.CONV_F_EVENT_no_clock, bitFld]

/-- Any other runs on. -/
theorem fineSample_runs (hr : s.on (F.CONV_F_STAT_running f) = true) (hs : (fineSt s f).stop = false) :
    t.on (F.CONV_F_STAT_running f) = true := by
  rw [a.on_of_apart not_false fun x hx => .inl fun hoff => ?_, hr]
  obtain ⟨hstop, -⟩ := fineSampleFields_stat hx hoff
  simp [hs] at hstop

end

/-- Below the flags the word holds the code. -/
theorem fineRaw_code (s : State) (f : Nat) (code0 : Int) :
    ((fineRaw s f code0).toNat : Int) % 2 ^ 24 = fineResult s f code0 % 2 ^ 24 := by
  have h1 := b2n_le_one (s.on F.CLK_SLIDE_STAT_coast)
  have h2 := b2n_le_one (over36 (fineValue s f code0))
  have h3 := b2n_le_one (fineSupply s f)
  have h4 := b2n_le_one (fineClip code0)
  have h5 := b2n_le_one (fineUnsettled s f)
  have hnat : (fineRaw s f code0).toNat = 2 ^ 24 * (b2n (s.on F.CLK_SLIDE_STAT_coast) * 2 ^ 4 + b2n (over36 (fineValue s f code0)) * 2 ^ 3 +
      b2n (fineSupply s f) * 2 ^ 2 + b2n (fineClip code0) * 2 + b2n (fineUnsettled s f)) + (fineResult s f code0 % 2 ^ 24).toNat := by
    rw [← toNat_or_of_lt (by omega) (by omega), fineRaw]
    congr 3
    omega
  rw [hnat]
  omega

theorem fineIx_lt (s : State) (f : Nat) : fineIx s f < 4096 := Nat.mod_lt _ (by decide)

/-- Settles O23: a start, a discarded sample and a stop are short sequences of writes; a delivered sample sets the registers and events
of its channel, and its way to the meter touches no register. -/
theorem fineChannelsStartAndDeliver : Obligations.FineChannelsStartAndDeliver := by
  unfold Obligations.FineChannelsStartAndDeliver
  intro s f vd ext vdda c run x ends due ref code cl y
  have hexec : exec c s = finish (fineSample f vd ext vdda) s := rfl
  have hnot : ¬ run → s.on (F.CONV_F_STAT_running f) = false := Bool.eq_false_iff.2
  refine ⟨fun hr => ?_, fun hn hm he => ?_, fun hn hm => ?_, fun hr hd => ?_, fun hr hs he h0 => ?_,
    fun hr hd hs h0 => ?_, fun hr hd h0 => ?_⟩
  · exact congrArg roundHalfEven (if_neg (div_ne_zero hr (by norm_num)))
  · refine completes_sets ?_ (FieldsAbove.ne ⟨.add (.add rfl), .add (.add rfl), trivial⟩ (by decide)) hexec
    rw [run_fineSample_start vd ext vdda (hnot hn) hm he]
    exact sets_fineBegin f 3 s
  · refine completes_sets ?_ (by simp) hexec
    rw [run_fineSample_idle vd ext vdda (hnot hn) hm]
    exact Sets.refl s
  · refine completes_sets ?_ (by simp) hexec
    rw [run_fineSample_wait vd ext vdda hr hd]
    exact Sets.refl s
  · refine completes_sets ?_ (by simp) hexec
    have hstop : (fineSt s f).stop = false := hs
    rw [run_fineSample_due vd ext vdda hr (.inl he), if_neg h0, run_only, if_neg (hstop ▸ Bool.false_ne_true)]
    exact sets_fineDrop f s
  · refine completes_sets ?_ ?_ hexec
    · rw [run_fineSample_due vd ext vdda hr hd, if_neg h0, hs]
      exact sets_fineDrop_stop f s x.noClk
    · cases x.noClk
      · exact FieldsAbove.ne ⟨.add (.add rfl), trivial⟩ (by decide)
      · exact FieldsAbove.ne ⟨.add (.add rfl), .add (.add rfl), .add (.add rfl), trivial⟩ (by decide)
  · have hrun := run_fineSample_due vd ext vdda hr hd
    rw [if_pos h0] at hrun
    have hset := setsBut_fineSample (fun _ => False) s f code
    rw [← hrun] at hset
    refine hset.completes not_false (fun z hz => fineSampleFields_mode hz) hexec ?_
    have ht := hset.then_levelsFall
    have ⟨_, hmem, hnow⟩ := ht
    refine ⟨fineSample_value ht, ?_, ?_, fineSample_ts ht, fun hs => ?_, fineSample_runs ht hr, hmem, hnow⟩
    · rw [fineSample_idx ht, BitVec.toNat_ofNat]
      exact Nat.mod_eq_of_lt ((fineIx_lt s f).trans (by decide))
    · rw [fineSample_raw ht, fineRaw_code]
      rfl
    · obtain ⟨hstopped, hclock⟩ := fineSample_stopped ht hs
      refine ⟨hstopped, ?_, hclock⟩
      rw [fineSt, run_levelsFall_hid, hrun, show (fineSt s f).stop = true from hs, run_only, if_pos rfl, ← fineSt,
        fineSt_withFine (sets_fineStopA f _ _).hid_eq]

end Sys2Proof.Machine
end

section
/-!
The references (R150 to R152): what a write of `CONV_REF_CFG`, the end of settling and a fault of the monitor set.  What a change of
several converters' state beside the registers is (`SetsConv`) comes before it, for the calibration too.
-/

namespace Sys2Proof.Machine

/-! ### Changes of several converters -/

theorem convSt_congr {s t : State} (h : t.hid = s.hid) (c : Nat) : convSt t c = convSt s c := by
  rw [convSt, h]
  rfl

section
variable {l m : List (Fld × Nat)} {P Q W : Nat → ConvSt → ConvSt → Prop} {s t u : State}

/-- A change of fields alone. -/
theorem Sets.setsConv (a : Sets l s.hid s t) (h : ∀ c x, P c x x) : SetsConv l P s t := by
  refine ⟨fun c => ?_, a.cast rfl ?_⟩
  · rw [convSt_congr a.hid_eq]
    exact h c _
  · rw [a.hid_eq]

/-- A change of one converter's state alone. -/
theorem setsConv_convA (k : Nat) (g : ConvSt → ConvSt) (s : State) :
    SetsConv [] (fun c x y => y = if c = k then g x else x) s ((convA k g).run s) := by
  refine ⟨fun c => (Tab.get_put _ _ _ _ _ (fun _ => rfl) _).trans ?_, Sets.hidA _ s⟩
  split
  · next h => rw [h]; rfl
  · rfl

theorem SetsConv.trans (a : SetsConv l P s t) (b : SetsConv m Q t u) (h : ∀ c x y z, P c x y → Q c y z → W c x z) :
    SetsConv (l ++ m) W s u := by
  obtain ⟨aconv, asets⟩ := a
  obtain ⟨bconv, bsets⟩ := b
  refine ⟨fun c => h c _ _ _ (aconv c) (bconv c), asets.trans (bsets.cast rfl ?_)⟩
  rw [asets.hid_eq]

theorem SetsConv.mono (a : SetsConv l P s t) (h : ∀ c x y, P c x y → Q c x y) : SetsConv l Q s t :=
  a.imp_left fun aconv c => h c _ _ (aconv c)

theorem SetsConv.sets (a : SetsConv l P s t) : Sets l { s.hid with conv := t.hid.conv } s t := a.2

theorem SetsConv.conv (a : SetsConv l P s t) (c : Nat) : P c (convSt s c) (convSt t c) := a.1 c

theorem SetsConv.setsBut (a : SetsConv l P s t) : SetsBut (fun _ => False) l s t := a.sets.setsBut _

theorem SetsConv.then_sets (a : SetsConv l P s t) (b : Sets m t.hid t u) : SetsConv (l ++ m) P s u :=
  a.trans (b.setsConv (P := fun _ x y => y = x) fun _ _ => rfl) fun _ _ _ _ h he => he ▸ h

theorem SetsConv.then_setF (a : SetsConv l P s t) (x : Fld) (v : Nat) : SetsConv (l ++ [(x, v)]) P s ((Machine.setF x v).run t) :=
  a.then_sets (Sets.setF x v t)

theorem Sets.then_setsConv (a : Sets l s.hid s t) (b : SetsConv m P t u) : SetsConv (l ++ m) P s u :=
  (a.setsConv (P := fun _ x y => y = x) fun _ _ => rfl).trans b fun _ _ _ _ he h => he ▸ h

theorem SetsConv.then_levelsFall (a : SetsConv l P s t) : SetsConv l P s (levelsFall.run t) := by
  have hid : (levelsFall.run t).hid = t.hid := run_levelsFall_hid t
  refine ⟨fun c => ?_, ?_⟩
  · rw [convSt_congr hid]
    exact a.conv c
  · rw [hid]
    exact a.sets.then_levelsFall

/-- A command whose action is such a change and leaves the mode alone completes with what the change gives. -/
theorem SetsConv.completes {c : Instr} {a : Act} {G : State → Prop} (hs : SetsConv l P s (a.run s))
    (hm : ∀ x ∈ l, x.1.off ≠ R.SYS_MODE_STAT) (he : exec c s = finish a s) (hr : ∀ t, SetsConv l P s t → G t) : Completes c s G :=
  ⟨_, he.trans (finish_same _ _ (hs.sets.mode hm)), hr _ hs.then_levelsFall⟩

end

/-- Actions on fields alone, for the members of a list. -/
theorem sets_forEach {α : Type} {f : α → List (Fld × Nat)} {act : α → Act} (l : List α)
    (h : ∀ a ∈ l, ∀ s, Sets (f a) s.hid s ((act a).run s)) (s : State) : Sets (l.flatMap f) s.hid s ((forEach l act).run s) := by
  induction l generalizing s with
  | nil => exact Sets.refl s
  | cons a l ih =>
    obtain ⟨ha, hl⟩ := List.forall_mem_cons.1 h
    rw [run_forEach_cons, List.flatMap_cons]
    have hfirst := ha s
    exact hfirst.trans ((ih hl _).cast rfl hfirst.hid_eq)

/-- What actions on different converters, one for each member of a list, leave: each of them changes its own, and the others stay. -/
def EachConv {α : Type} (κ : α → Nat) (g : α → ConvSt → ConvSt) (l : List α) (c : Nat) (x y : ConvSt) : Prop :=
  (∀ a ∈ l, κ a = c → y = g a x) ∧ ((∀ a ∈ l, κ a ≠ c) → y = x)

theorem setsConv_forEach {α : Type} {f : α → List (Fld × Nat)} {act : α → Act} (κ : α → Nat) (g : α → ConvSt → ConvSt)
    (l : List α) (h : ∀ a ∈ l, ∀ s, SetsConv (f a) (fun c x y => y = if c = κ a then g a x else x) s ((act a).run s))
    (hn : (l.map κ).Nodup) (s : State) :
    SetsConv (l.flatMap f) (EachConv κ g l) s ((forEach l act).run s) := by
  induction l generalizing s with
  | nil => exact (Sets.refl s).setsConv fun _ _ => ⟨by simp, fun _ => rfl⟩
  | cons a l ih =>
    obtain ⟨ha, hl⟩ := List.forall_mem_cons.1 h
    obtain ⟨hout, hrest⟩ := List.nodup_cons.1 hn
    have hne : ∀ b ∈ l, κ b ≠ κ a := fun b hb he => hout (he ▸ List.mem_map_of_mem hb)
    rw [run_forEach_cons, List.flatMap_cons]
    refine (ha s).trans (ih hl hrest _) ?_
    rintro c x y z rfl ⟨hmem, hnot⟩
    refine ⟨List.forall_mem_cons.2 ⟨fun hc => ?_, fun b hb hc => ?_⟩, fun hall => ?_⟩
    · rw [hnot (hc ▸ hne), if_pos hc.symm]
    · rw [hmem b hb hc, if_neg (hc ▸ hne b hb)]
    · obtain ⟨hc, hothers⟩ := List.forall_mem_cons.1 hall
      rw [hnot hothers, if_neg (Ne.symm hc)]

/-! ### The converters of a mask -/

theorem mem_maskConvs {d m c : Nat} : c ∈ maskConvs d m ↔ ∃ i < 8, m / 2 ^ i % 2 = 1 ∧ c = 8 * d + i := by
  simp only [maskConvs, List.mem_map, List.mem_filter, List.mem_range, decide_eq_true_eq, and_assoc, eq_comm (b := c)]

theorem nodup_maskConvs (d m : Nat) : (maskConvs d m).Nodup :=
  (List.nodup_range.filter _).map fun _ _ h => Nat.add_left_cancel h

/-- Converters of the mask that are not idle. -/
theorem any_maskConvs {d m : Nat} {s : State} : ((maskConvs d m).any fun c => !convIdle s c) = true ↔
    ¬ ∀ i : Fin 8, m / 2 ^ i.val % 2 = 1 → convIdle s (8 * d + i) = true := by
  simp only [List.any_eq_true, mem_maskConvs, Bool.not_eq_true', not_forall, Bool.not_eq_true]
  constructor
  · rintro ⟨_, ⟨i, hi, hm, rfl⟩, hc⟩
    exact ⟨⟨i, hi⟩, hm, hc⟩
  · rintro ⟨i, hm, hc⟩
    exact ⟨_, ⟨i, i.isLt, hm, rfl⟩, hc⟩

/-- All converters of a die. -/
theorem mem_maskConvs_255 {d c : Nat} : c ∈ maskConvs d 255 ↔ c / 8 = d := by
  have hbits : ∀ i < 8, 255 / 2 ^ i % 2 = 1 := by decide
  rw [mem_maskConvs]
  constructor
  · rintro ⟨i, hi, -, rfl⟩
    omega
  · exact fun hc => ⟨c % 8, Nat.mod_lt _ (by decide), hbits _ (Nat.mod_lt _ (by decide)), by omega⟩

/-! ### Reference writes (R151, R163) -/

/-- What the fall of a reference marks: its die's converters (R162). -/
def Fallen (d c : Nat) (x y : ConvSt) : Prop := y = if c / 8 = d then { x with fell := true } else x

theorem setsConv_fell (d : Nat) (s : State) :
    SetsConv [] (Fallen d) s ((forEach (maskConvs d 255) fun c => convA c fun v => { v with fell := true }).run s) := by
  have hall := setsConv_forEach (f := fun _ => []) id (fun _ v => { v with fell := true }) (maskConvs d 255)
    (fun c _ s => setsConv_convA c (fun v => { v with fell := true }) s) (by rw [List.map_id]; exact nodup_maskConvs d 255) s
  rw [List.flatMap_eq_nil_iff.2 fun _ _ => rfl] at hall
  refine hall.mono fun c x y ⟨hin, hout⟩ => ?_
  unfold Fallen
  split
  · next hc => exact hin c (mem_maskConvs_255.2 hc) rfl
  · next hc => exact hout fun a ha (he : a = c) => hc (mem_maskConvs_255.1 (he ▸ ha))

theorem setsConv_refFall (d : Nat) (s : State) : SetsConv [(F.CONV_REF_STAT_ref_ok d, 0)] (Fallen d) s ((refFall d).run s) :=
  (Sets.setF (F.CONV_REF_STAT_ref_ok d) 0 s).then_setsConv (setsConv_fell d _)

/-- What the end of settling sets (R152). -/
def riseFields (d : Nat) : List (Fld × Nat) :=
  [(F.CONV_REF_STAT_ref_ok d, 1), (F.CONV_REF_STAT_settling d, 0), (F.CONV_REF_STAT_fault d, 0), (F.CONV_EVENT_ref_ok d, 1)]

theorem sets_refRise (d : Nat) (s : State) : Sets (riseFields d) s.hid s ((refRise d).run s) :=
  (((Sets.setF _ _ s).then_setF _ _).then_setF _ _).then_setF _ _

theorem riseFields_above (d : Nat) : FieldsAbove (riseFields d) :=
  ⟨.add rfl, .add rfl, .add rfl, .add rfl, trivial⟩

/-- What an accepted write sets first: the selection, and a reference that settles (R151). -/
def tookFields (d : Nat) (v : Word) : List (Fld × Nat) :=
  [(F.CONV_REF_STAT_result d, 0), (F.CONV_REF_CFG_sel d, v.toNat), (F.CONV_REF_STAT_ref_ok d, 0), (F.CONV_CAL_STAT_done d, 0),
    (F.CONV_REF_STAT_ref_is_supply d, b2n (decide (v.toNat % 4 = 2))), (F.CONV_REF_STAT_fault d, 0), (F.CONV_REF_STAT_settling d, 1)]

theorem tookFields_above (d : Nat) (v : Word) : FieldsAbove (tookFields d v) :=
  ⟨.add rfl, .add rfl, .add rfl, .add rfl, .add rfl, .add rfl, .add rfl, trivial⟩

/-- All converters of the die are idle. -/
@[reducible] def DieIdle (d : Nat) (s : State) : Prop := ∀ i : Fin 8, convIdle s (8 * d + i) = true

theorem refCheck_eq (d : Nat) (v : Word) (s : State) : refCheck d v s =
    if s.mode ≠ CONFIGURE then 1 else if ¬ DieIdle d s then 2 else if s.on (F.CONV_CAL_STAT_busy d) = true then 4
    else if v.toNat % 4 = 3 then 5 else 0 := by
  have hbits : ∀ i : Fin 8, 255 / 2 ^ i.val % 2 = 1 := by decide
  have hidle : ((maskConvs d 255).any fun c => !convIdle s c) = true ↔ ¬ DieIdle d s :=
    any_maskConvs.trans (not_congr ⟨fun h i => h i (hbits i), fun h i _ => h i⟩)
  simp only [refCheck, hidle]

theorem sets_refWrite_refused {d : Nat} {v : Word} {s : State} {n : Nat} (hc : refCheck d v s = n) (hn : n ≠ 0) :
    Sets [(F.CONV_REF_STAT_result d, n)] s.hid s ((refWrite d v).run s) := by
  have hrun : (refWrite d v).run s = (setF (F.CONV_REF_STAT_result d) n).run s := by simp [Act.run, refWrite, hc, hn]
  rw [hrun]
  exact Sets.setF _ _ s

theorem setsConv_refWrite_taken {d : Nat} {v : Word} {s : State} (hc : refCheck d v s = 0) :
    SetsConv (tookFields d v ++ if v.toNat % 4 = 2 then riseFields d else []) (Fallen d) s ((refWrite d v).run s) := by
  have hrun : (refWrite d v).run s = (seq [setF (F.CONV_REF_STAT_result d) 0, setF (F.CONV_REF_CFG_sel d) v.toNat, refFall d,
      setF (F.CONV_CAL_STAT_done d) 0, setF (F.CONV_REF_STAT_ref_is_supply d) (b2n (decide (v.toNat % 4 = 2))),
      clrB (F.CONV_REF_STAT_fault d), setB (F.CONV_REF_STAT_settling d), only (decide (v.toNat % 4 = 2)) (refRise d)]).run s := by
    simp only [Act.run, refWrite, hc, ne_eq, not_true_eq_false, if_false]
  have htook := (((((Sets.setF (F.CONV_REF_STAT_result d) 0 s).then_setF (F.CONV_REF_CFG_sel d) v.toNat).then_setsConv
    (setsConv_refFall d _)).then_setF (F.CONV_CAL_STAT_done d) 0).then_setF (F.CONV_REF_STAT_ref_is_supply d)
    (b2n (decide (v.toNat % 4 = 2)))).then_setF (F.CONV_REF_STAT_fault d) 0 |>.then_setF (F.CONV_REF_STAT_settling d) 1
  rw [hrun]
  simp only [run_seq_cons, run_seq_nil, run_only, decide_eq_true_eq]
  split
  · exact htook.then_sets (sets_refRise d _)
  · exact htook.then_sets (Sets.refl _)

section
variable {p : Port} {d : Die} {v : Word} {s : State}

theorem completes_refWrite_refused {n : Nat} (hl : Live p s (R.CONV_REF_CFG d) = true) (hc : refCheck d v s = n) (hn : n ≠ 0) :
    Completes (.convRefCfgWrite p d v) s (Sets [(F.CONV_REF_STAT_result d, n)] s.hid s) :=
  completes_portGate hl rfl (sets_refWrite_refused hc hn) (FieldsAbove.ne ⟨.add rfl, trivial⟩ (by decide))

theorem completes_refWrite_taken (hl : Live p s (R.CONV_REF_CFG d) = true) (hc : refCheck d v s = 0) :
    Completes (.convRefCfgWrite p d v) s (SetsConv (tookFields d v ++ if v.toNat % 4 = 2 then riseFields d else []) (Fallen d) s) := by
  have hset := setsConv_refWrite_taken hc
  rw [← portGate_of_live p _ _ s hl] at hset
  refine hset.completes (fun x hx => ?_) rfl fun _ h => h
  rcases List.mem_append.1 hx with hx | hx
  · exact (tookFields_above d v).ne (by decide) x hx
  · split at hx
    · exact (riseFields_above d).ne (by decide) x hx
    · cases hx

/-! ### Settling and faults (R150, R152) -/

theorem completes_refSettled (hok : s.on (F.CONV_REF_STAT_ref_ok d) = false) :
    Completes (.refSettled d) s (Sets (riseFields d) s.hid s) := by
  refine completes_sets (a := refSettled d) ?_ ((riseFields_above d).ne (by decide)) rfl
  rw [refSettled, run_whenA, if_pos (by rw [hok]; rfl)]
  exact sets_refRise d s

theorem run_calAbandon_idle {d code : Nat} {s : State} (hb : s.on (F.CONV_CAL_STAT_busy d) = false) : (calAbandon d code).run s = s := by
  simp [Act.run, calAbandon, hb, applyAll]

/-- What a fault of the monitor sets. -/
def faultFields (d : Nat) : List (Fld × Nat) :=
  [(F.CONV_REF_STAT_ref_ok d, 0), (F.CONV_REF_STAT_fault d, 1), (F.CONV_EVENT_ref_fault d, 1)]

theorem faultFields_above (d : Nat) : FieldsAbove (faultFields d) :=
  ⟨.add rfl, .add rfl, .add rfl, trivial⟩

theorem completes_refFault (hok : s.on (F.CONV_REF_STAT_ref_ok d) = true) (hsel : s.f (F.CONV_REF_CFG_sel d) ≠ 2)
    (hb : s.on (F.CONV_CAL_STAT_busy d) = false) : Completes (.refFault d) s (SetsConv (faultFields d) (Fallen d) s) := by
  have hset : SetsConv (faultFields d) (Fallen d) s
      ((setB (F.CONV_EVENT_ref_fault d)).run ((setB (F.CONV_REF_STAT_fault d)).run ((refFall d).run s))) :=
    ((setsConv_refFall d s).then_setF _ _).then_setF _ _
  have hb' := hset.sets.on_of_apart (y := F.CONV_CAL_STAT_busy d) fun x hx => .inl (by
    simp only [faultFields, List.mem_cons, List.not_mem_nil, or_false] at hx
    rcases hx with rfl | rfl | rfl <;>
    · simp only [F.CONV_REF_STAT_ref_ok, F.CONV_REF_STAT_fault, F.CONV_EVENT_ref_fault, F.CONV_CAL_STAT_busy, R.CONV_REF_STAT,
        R.CONV_EVENT, R.CONV_CAL_STAT]
      omega)
  refine SetsConv.completes (a := refFault d) ?_ ((faultFields_above d).ne (by decide)) rfl fun _ h => h
  rw [refFault, run_whenA, if_pos (by simp [hok, hsel]), run_seq_cons, run_seq_cons, run_seq_cons, run_seq_cons, run_seq_nil,
    run_calAbandon_idle (hb'.trans hb)]
  exact hset

end

end Sys2Proof.Machine
end

section
/-!
The calibration commands (R154, R155): the first code that applies, and what a restore and a measurement set.
-/

namespace Sys2Proof.Machine

/-! ### The command word -/

/-- The command of `CONV_CAL_CMD` that names `op`. -/
def calCommand (p : Port) (d : Die) (v : Word) (op : Fin 4) : Instr :=
  if op = 1 then .convCalMeasure p d v else if op = 2 then .convCalRestore p d v else .convCalInvalid p d v

/-- `op` is the command's own, or that of the word of an invalid one. -/
@[reducible] def NamesOp (v : Word) (op : Fin 4) : Prop := op = 1 ∨ op = 2 ∨ (v.toNat / 256 % 4 = op.val ∧ (op = 0 ∨ op = 3))

/-- What a converter holds for a measurement: the factors that stand. -/
def keptFactors (s : State) (c : Nat) (x : ConvSt) : ConvSt := { x with saved := (factorRegs c).map s.rd, hist := [] }

/-- What a command that is accepted does. -/
def calGo (d : Nat) (v : Word) (op : Fin 4) : Act :=
  if op = 1 then fun s => seq [setB (F.CONV_CAL_STAT_busy d),
    forEach (maskConvs d (v.toNat % 256)) fun c => seq [
      clrB (bitFld (R.CONV_CAL_STAT d) (convBit c)), setB (F.CONV_C_STAT_cal c), convA c (keptFactors s c)]] s
  else if op = 2 then forEach (maskConvs d (v.toNat % 256)) fun c => setB (bitFld (R.CONV_CAL_STAT d) (convBit c))
  else nop

/-- The mask of a word keeps its place beside an op that is written over the rest. -/
theorem toNat_mask_or {v : Word} {n : Nat} (hn : n < 4) :
    (v &&& 0xFF#32 ||| BitVec.ofNat 32 (2 ^ 8 * n)).toNat = 2 ^ 8 * n + v.toNat % 2 ^ 8 := by
  have hmask : v &&& 0xFF#32 = BitVec.ofNat 32 (v.toNat % 2 ^ 8) := by
    refine BitVec.eq_of_toNat_eq ?_
    rw [BitVec.toNat_and, BitVec.toNat_ofNat, BitVec.toNat_ofNat, Nat.mod_eq_of_lt (by decide), Nat.and_two_pow_sub_one_eq_mod v.toNat 8]
    omega
  rw [hmask, BitVec.or_comm, toNat_or_of_lt (by omega) (by omega)]

section
variable {d : Nat} {v w : Word}

theorem calMeasure_eq (hm : w.toNat % 256 = v.toNat % 256) : calMeasure d w = calCmd d w (calGo d v 1) := by
  simp only [calMeasure, hm]
  rfl

theorem calRestore_eq (hm : w.toNat % 256 = v.toNat % 256) : calRestore d w = calCmd d w (calGo d v 2) := by
  simp only [calRestore, calGo, hm, show ¬ (2 : Fin 4) = 1 by decide, if_true, if_false]

theorem calInvalid_eq {op : Fin 4} (ho : v.toNat / 256 % 4 = op.val) (h : op = 0 ∨ op = 3) :
    calInvalid d v = calCmd d v (calGo d v op) := by
  rcases h with rfl | rfl <;>
  · simp only [calInvalid, ho, only, calGo]
    simp

end

/-- A command is judged with its mask and its op, whatever its other bits are. -/
theorem exec_calCommand {p : Port} {d : Die} {v : Word} {op : Fin 4} {s : State} (h : NamesOp v op) :
    ∃ w : Word, w.toNat % 256 = v.toNat % 256 ∧ w.toNat / 256 % 4 = op.val ∧
      exec (calCommand p d v op) s = finish (portGate p (R.CONV_CAL_CMD d) (calCmd d w (calGo d v op))) s := by
  obtain rfl | rfl | ⟨hop, h03⟩ := h
  · have hw : (v &&& 0xFF#32 ||| 0x100#32).toNat = 2 ^ 8 * 1 + v.toNat % 2 ^ 8 := toNat_mask_or (n := 1) (by decide)
    have hm : (v &&& 0xFF#32 ||| 0x100#32).toNat % 256 = v.toNat % 256 := by omega
    refine ⟨_, hm, by rw [hw]; omega, ?_⟩
    rw [← calMeasure_eq hm]
    rfl
  · have hw : (v &&& 0xFF#32 ||| 0x200#32).toNat = 2 ^ 8 * 2 + v.toNat % 2 ^ 8 := toNat_mask_or (n := 2) (by decide)
    have hm : (v &&& 0xFF#32 ||| 0x200#32).toNat % 256 = v.toNat % 256 := by omega
    refine ⟨_, hm, by rw [hw]; omega, ?_⟩
    rw [← calRestore_eq hm]
    rfl
  · refine ⟨v, rfl, hop, ?_⟩
    rw [← calInvalid_eq hop h03]
    rcases h03 with rfl | rfl <;> rfl

/-! ### The code of a command (R163) -/

/-- The converters that the mask names are idle. -/
@[reducible] def CalIdle (d : Nat) (v : Word) (s : State) : Prop := ∀ i : Fin 8, v.getLsbD i = true → convIdle s (8 * d + i) = true

theorem mask_bit (v : Word) (i : Fin 8) : v.toNat % 256 / 2 ^ i.val % 2 = 1 ↔ v.getLsbD i = true := by
  have hbit : (v.toNat % 2 ^ 8).testBit i = v.getLsbD i := by
    rw [Nat.testBit_mod_two_pow, decide_eq_true i.isLt, Bool.true_and, BitVec.getLsbD]
  rw [← hbit, Nat.testBit_eq_decide_div_mod_eq, decide_eq_true_eq]
  rfl

theorem calCheck_eq {d : Nat} {v w : Word} {op : Fin 4} (hm : w.toNat % 256 = v.toNat % 256) (ho : w.toNat / 256 % 4 = op.val) (s : State) :
    calCheck d w s = if s.mode ≠ CONFIGURE ∧ s.mode ≠ STANDBY then 1 else if ¬ CalIdle d v s then 2
      else if s.on (F.CONV_REF_STAT_ref_ok d) = false then 3 else if s.on (F.CONV_CAL_STAT_busy d) = true then 4
      else if v.toNat % 256 = 0 ∨ op = 0 ∨ op = 3 then 5 else 0 := by
  have hidle : ((maskConvs d (v.toNat % 256)).any fun c => !convIdle s c) = true ↔ ¬ CalIdle d v s :=
    any_maskConvs.trans (not_congr (forall_congr' fun i => by rw [mask_bit]))
  have h0 : op.val = 0 ↔ op = 0 := by omega
  have h3 : op.val = 3 ↔ op = 3 := by omega
  simp only [calCheck, hm, ho, hidle, h0, h3, Bool.not_eq_true']

/-- Of a command in its modes, at idle converters and a settled reference, the calibration and the operands decide. -/
theorem calCheck_of_ready {d : Nat} {v w : Word} {op : Fin 4} {s : State} (hm : w.toNat % 256 = v.toNat % 256)
    (ho : w.toNat / 256 % 4 = op.val) (hmode : s.mode = CONFIGURE ∨ s.mode = STANDBY) (hi : CalIdle d v s)
    (hok : s.on (F.CONV_REF_STAT_ref_ok d) = true) : calCheck d w s =
      if s.on (F.CONV_CAL_STAT_busy d) = true then 4 else if v.toNat % 256 = 0 ∨ op = 0 ∨ op = 3 then 5 else 0 := by
  rw [calCheck_eq hm ho, if_neg fun ⟨h1, h2⟩ => hmode.elim h1 h2, if_neg (not_not.2 hi), if_neg (hok ▸ Bool.false_ne_true.symm)]

theorem sets_calCmd_refused {d : Nat} {w : Word} {go : Act} {s : State} {n : Nat} (hc : calCheck d w s = n) (hn : n ≠ 0) :
    Sets [(F.CONV_CAL_STAT_result d, n)] s.hid s ((calCmd d w go).run s) := by
  have hrun : (calCmd d w go).run s = (seq [setF (F.CONV_CAL_STAT_result d) n, only (n = 0)
      (seq [setF (F.CONV_CAL_STAT_cal_ref d) (s.f (F.CONV_REF_CFG_sel d)), go])]).run s := by simp only [Act.run, calCmd, hc]
  rw [hrun, run_seq_cons, run_seq_cons, run_seq_nil, run_only, if_neg (by simpa using hn)]
  exact Sets.setF _ _ s

/-- What an accepted command notes, beside the code. -/
def takenFields (d : Nat) (s : State) : List (Fld × Nat) :=
  [(F.CONV_CAL_STAT_result d, 0), (F.CONV_CAL_STAT_cal_ref d, s.f (F.CONV_REF_CFG_sel d))]

theorem run_calCmd_taken {d : Nat} {w : Word} {s : State} (go : Act) (hc : calCheck d w s = 0) :
    ∃ u, Sets (takenFields d s) s.hid s u ∧ (calCmd d w go).run s = go.run u := by
  have hrun : (calCmd d w go).run s = (seq [setF (F.CONV_CAL_STAT_result d) 0, only (decide (0 = 0))
      (seq [setF (F.CONV_CAL_STAT_cal_ref d) (s.f (F.CONV_REF_CFG_sel d)), go])]).run s := by simp only [Act.run, calCmd, hc]
  rw [hrun, run_seq_cons, run_seq_cons, run_seq_nil, run_only, if_pos (decide_eq_true rfl), run_seq_cons, run_seq_cons, run_seq_nil]
  exact ⟨_, (Sets.setF _ _ s).then_setF _ _, rfl⟩

section
variable {p : Port} {d : Die} {v : Word} {op : Fin 4} {s : State} (hl : Live p s (R.CONV_CAL_CMD d) = true) (hn : NamesOp v op)
include hl hn

theorem completes_calCommand_refused {n : Nat} (h0 : n ≠ 0)
    (hc : ∀ w : Word, w.toNat % 256 = v.toNat % 256 → w.toNat / 256 % 4 = op.val → calCheck d w s = n) :
    Completes (calCommand p d v op) s (Sets [(F.CONV_CAL_STAT_result d, n)] s.hid s) := by
  obtain ⟨w, hm, ho, he⟩ := exec_calCommand hn
  exact completes_portGate hl he (sets_calCmd_refused (hc w hm ho) h0) (FieldsAbove.ne ⟨.add rfl, trivial⟩ (by decide))

/-- An accepted command does what its op says after its note. -/
theorem run_calCommand_taken (hc : ∀ w : Word, w.toNat % 256 = v.toNat % 256 → w.toNat / 256 % 4 = op.val → calCheck d w s = 0) :
    ∃ a u, exec (calCommand p d v op) s = finish a s ∧ Sets (takenFields d s) s.hid s u ∧ a.run s = (calGo d v op).run u := by
  obtain ⟨w, hm, ho, he⟩ := exec_calCommand hn
  obtain ⟨u, hu, hrun⟩ := run_calCmd_taken (calGo d v op) (hc w hm ho)
  exact ⟨_, u, he, hu, (portGate_of_live p _ _ s hl).trans hrun⟩

end

/-! ### A restore (R154) -/

theorem sets_calGo_restore (d : Nat) (v : Word) (s : State) :
    Sets ((maskConvs d (v.toNat % 256)).flatMap fun c => [(bitFld (R.CONV_CAL_STAT d) (convBit c), 1)]) s.hid s ((calGo d v 2).run s) :=
  sets_forEach _ (fun _ _ s => Sets.setF _ _ s) s

/-- Bits of a word that are set one after another. -/
theorem getLsbD_fieldWord_bits {l : List Nat} {off : Nat} (hl : ∀ c ∈ l, convBit c ≤ 31) (w : Word) (j : Nat) :
    (fieldWord (l.flatMap fun c => [(bitFld off (convBit c), 1)]) off w).getLsbD j =
      (decide (∃ c ∈ l, convBit c = j) || w.getLsbD j) := by
  induction l generalizing w with
  | nil => simp [fieldWord]
  | cons c l ih =>
    obtain ⟨hc, hl⟩ := List.forall_mem_cons.1 hl
    rw [List.flatMap_cons, List.singleton_append, fieldWord_cons, ih hl, if_pos (show (bitFld off (convBit c)).off = off from rfl),
      Fld.getLsbD_put _ _ _ _ (le_refl _) hc]
    by_cases hj : convBit c = j
    · simp [bitFld, hj]
    · simp [bitFld, hj, show ¬ (convBit c ≤ j ∧ j ≤ convBit c) by omega]

theorem exists_mem_maskConvs_bit {d m j : Nat} : (∃ c ∈ maskConvs d m, convBit c = j) ↔ j < 8 ∧ m.testBit j = true := by
  rw [Nat.testBit_eq_decide_div_mod_eq, decide_eq_true_eq]
  constructor
  · rintro ⟨_, hc, rfl⟩
    obtain ⟨i, hi, hm, rfl⟩ := mem_maskConvs.1 hc
    rw [show convBit (8 * d + i) = i by simp only [convBit]; omega]
    exact ⟨hi, hm⟩
  · rintro ⟨hj, hm⟩
    exact ⟨_, mem_maskConvs.2 ⟨j, hj, hm, rfl⟩, by simp only [convBit]; omega⟩

/-- The bits of a mask set one after another are the mask set at once. -/
theorem fieldWord_done (d m : Nat) (off : Nat) (w : Word) :
    fieldWord ((maskConvs d m).flatMap fun c => [(bitFld (R.CONV_CAL_STAT d) (convBit c), 1)]) off w =
      fieldWord [(F.CONV_CAL_STAT_done d, (F.CONV_CAL_STAT_done d).get w ||| m)] off w := by
  by_cases hoff : R.CONV_CAL_STAT d = off
  · subst hoff
    refine BitVec.eq_of_getLsbD_eq fun j _ => ?_
    rw [getLsbD_fieldWord_bits (fun c _ => (Nat.mod_lt c (by decide)).le.trans (by decide)), fieldWord_cons,
      if_pos (show (F.CONV_CAL_STAT_done d).off = R.CONV_CAL_STAT d from rfl)]
    show _ = ((F.CONV_CAL_STAT_done d).put _ w).getLsbD j
    rw [Fld.getLsbD_put _ _ _ _ (Nat.zero_le 7) (by decide : 7 ≤ 31), Nat.testBit_or, Fld.testBit_get]
    simp only [exists_mem_maskConvs_bit]
    by_cases hj : j < 8
    · simp [F.CONV_CAL_STAT_done, hj, show j ≤ 7 by omega, Bool.or_comm]
    · simp [F.CONV_CAL_STAT_done, hj, show ¬ j ≤ 7 by omega]
  · rw [fieldWord_of_forall_ne, fieldWord_of_forall_ne]
    · exact List.forall_mem_singleton.2 hoff
    · intro x hx
      obtain ⟨c, -, hc⟩ := List.mem_flatMap.1 hx
      rw [List.mem_singleton.1 hc]
      exact hoff

/-- The `done` bits of the mask are set beside those that stand. -/
theorem sets_restored {d : Nat} {v : Word} {s u : State} (hu : Sets (takenFields d s) s.hid s u) :
    Sets (takenFields d s ++ [(F.CONV_CAL_STAT_done d, s.f (F.CONV_CAL_STAT_done d) ||| v.toNat % 256)]) s.hid s ((calGo d v 2).run u) := by
  have hdone : u.f (F.CONV_CAL_STAT_done d) = s.f (F.CONV_CAL_STAT_done d) :=
    hu.f_of_apart (by simp [takenFields, Fld.Apart, F.CONV_CAL_STAT_result, F.CONV_CAL_STAT_cal_ref, F.CONV_CAL_STAT_done])
  obtain ⟨hregs, haside⟩ := (sets_calGo_restore d v u).cast rfl hu.hid_eq
  refine hu.trans ⟨fun off => ?_, haside⟩
  rw [hregs, fieldWord_done]
  by_cases hoff : R.CONV_CAL_STAT d = off
  · subst hoff
    rw [← hdone]
    rfl
  · rw [fieldWord_of_forall_ne (List.forall_mem_singleton.2 hoff), fieldWord_of_forall_ne (List.forall_mem_singleton.2 hoff)]

/-! ### A measurement begins (R154) -/

/-- What it sets: its converters calibrate, their `done` bits are clear. -/
def measureFields (d m : Nat) : List (Fld × Nat) :=
  [(F.CONV_CAL_STAT_busy d, 1)] ++
    (maskConvs d m).flatMap fun c => [(bitFld (R.CONV_CAL_STAT d) (convBit c), 0), (F.CONV_C_STAT_cal c, 1)]

theorem setsConv_calGo_measure (d : Nat) (v : Word) (s : State) : SetsConv (measureFields d (v.toNat % 256))
    (EachConv id (keptFactors s) (maskConvs d (v.toNat % 256))) s ((calGo d v 1).run s) := by
  rw [calGo, if_pos rfl, run_fun, run_seq_cons, run_seq_cons, run_seq_nil]
  refine (Sets.setF (F.CONV_CAL_STAT_busy d) 1 s).then_setsConv
    (setsConv_forEach id (keptFactors s) _ (fun c _ u => ?_) (by rw [List.map_id]; exact nodup_maskConvs d _) _)
  exact ((Sets.setF (bitFld (R.CONV_CAL_STAT d) (convBit c)) 0 u).then_setF (F.CONV_C_STAT_cal c) 1).then_setsConv
    (setsConv_convA c (keptFactors s c) _)

theorem mem_measureFields {d m : Nat} {x : Fld × Nat} : x ∈ measureFields d m ↔ x = (F.CONV_CAL_STAT_busy d, 1) ∨
    ∃ i < 8, m / 2 ^ i % 2 = 1 ∧ (x = (bitFld (R.CONV_CAL_STAT d) i, 0) ∨ x = (F.CONV_C_STAT_cal (8 * d + i), 1)) := by
  have hbit : ∀ i < 8, convBit (8 * d + i) = i := fun i hi => by simp only [convBit]; omega
  simp only [measureFields, List.singleton_append, List.mem_cons, List.mem_flatMap, mem_maskConvs, List.not_mem_nil, or_false]
  refine or_congr Iff.rfl ⟨?_, ?_⟩
  · rintro ⟨_, ⟨i, hi, hm, rfl⟩, hx⟩
    exact ⟨i, hi, hm, by rwa [hbit i hi] at hx⟩
  · rintro ⟨i, hi, hm, hx⟩
    exact ⟨_, ⟨i, hi, hm, rfl⟩, by rwa [hbit i hi]⟩

/-! ### What a measurement's begin leaves -/

theorem convStat_ne_calStat (c d : Nat) : R.CONV_C_STAT c ≠ R.CONV_CAL_STAT d := by
  simp only [R.CONV_C_STAT, R.CONV_CAL_STAT]
  omega

theorem convStat_inj {c e : Nat} (h : R.CONV_C_STAT c = R.CONV_C_STAT e) : c = e := by
  simp only [R.CONV_C_STAT] at h
  omega

/-- The `done` bits lie below the other fields of their word. -/
theorem doneBit_apart {d i : Nat} {y : Fld} (hi : i < 8) (hy : 8 ≤ y.lo) : (bitFld (R.CONV_CAL_STAT d) i).Apart y :=
  .inr ⟨le_refl i, (show i ≤ 31 by omega), .inl (show i < y.lo by omega)⟩

/-- They lie apart from one another. -/
theorem doneBit_apart_doneBit {d i j : Nat} (hi : i < 8) (hij : i ≠ j) :
    (bitFld (R.CONV_CAL_STAT d) i).Apart (bitFld (R.CONV_CAL_STAT d) j) :=
  .inr ⟨le_refl i, (show i ≤ 31 by omega), (show i < j ∨ j < i by omega)⟩

/-- The factor registers hold neither. -/
theorem factorRegs_range {c off : Nat} (h : off ∈ factorRegs c) :
    0x81100 + c / 8 * 0x10000 + c % 8 * 0x800 ≤ off ∧ off ≤ 0x8111C + c / 8 * 0x10000 + c % 8 * 0x800 := by
  simp only [factorRegs, R.CONV_C_CAL_OFS, R.CONV_C_CAL_GAIN, R.CONV_C_CAL_W, List.mem_cons, List.not_mem_nil, or_false] at h
  omega

theorem factorRegs_ne_calStat {c d off : Nat} (h : off ∈ factorRegs c) : off ≠ R.CONV_CAL_STAT d := by
  have hr := factorRegs_range h
  simp only [R.CONV_CAL_STAT]
  omega

section
variable {d m : Nat} {s t u : State}

/-- The note of a command leaves the factors that a measurement keeps. -/
theorem keptFactors_taken (hu : Sets (takenFields d s) s.hid s u) (c : Nat) : keptFactors u c = keptFactors s c := by
  have hregs : (factorRegs c).map u.rd = (factorRegs c).map s.rd := List.map_congr_left fun off hoff => by
    have hne := (factorRegs_ne_calStat hoff (d := d)).symm
    rw [hu.rd_eq, fieldWord_of_forall_ne]
    exact List.forall_mem_cons.2 ⟨hne, List.forall_mem_singleton.2 hne⟩
  unfold keptFactors
  rw [hregs]

/-- What is written above the `done` bits. -/
def calHeads (d : Nat) (s : State) : List (Fld × Nat) := takenFields d s ++ [(F.CONV_CAL_STAT_busy d, 1)]

theorem calHeads_place {x : Fld × Nat} (hx : x ∈ calHeads d s) :
    x.1.off = R.CONV_CAL_STAT d ∧ 8 ≤ x.1.lo ∧ x.1.lo ≤ x.1.hi ∧ x.1.hi ≤ 31 := by
  simp only [calHeads, takenFields, List.cons_append, List.nil_append, List.mem_cons, List.not_mem_nil, or_false] at hx
  rcases hx with rfl | rfl | rfl <;>
  simp [F.CONV_CAL_STAT_result, F.CONV_CAL_STAT_cal_ref, F.CONV_CAL_STAT_busy]

theorem calHeads_apart : ∀ x ∈ calHeads d s, ∀ y ∈ calHeads d s, x = y ∨ x.1.Apart y.1 := by
  simp [calHeads, takenFields, Fld.Apart, F.CONV_CAL_STAT_result, F.CONV_CAL_STAT_cal_ref, F.CONV_CAL_STAT_busy]

theorem mem_measured {x : Fld × Nat} : x ∈ takenFields d s ++ measureFields d m ↔ x ∈ calHeads d s ∨
    ∃ i < 8, m / 2 ^ i % 2 = 1 ∧ (x = (bitFld (R.CONV_CAL_STAT d) i, 0) ∨ x = (F.CONV_C_STAT_cal (8 * d + i), 1)) := by
  simp only [calHeads, List.mem_append, List.mem_singleton, mem_measureFields, or_assoc]

section
variable (a : SetsConv (takenFields d s ++ measureFields d m) (EachConv id (keptFactors s) (maskConvs d m)) s t)
include a

theorem measured_head {x : Fld × Nat} (hx : x ∈ calHeads d s) : t.f x.1 = x.2 % 2 ^ (x.1.hi + 1 - x.1.lo) := by
  obtain ⟨hoff, h8, hlo, hhi⟩ := calHeads_place hx
  refine a.setsBut.f_of_mem not_false (mem_measured.2 (.inl hx)) (fun z hz => ?_) hlo hhi
  rcases mem_measured.1 hz with hz | ⟨i, hi, -, rfl | rfl⟩
  · exact calHeads_apart z hz x hx
  · exact .inr (doneBit_apart hi h8)
  · exact .inr (.inl (hoff ▸ convStat_ne_calStat _ _))

theorem measured_busy : t.on (F.CONV_CAL_STAT_busy d) = true := by
  rw [State.on, measured_head a (x := (F.CONV_CAL_STAT_busy d, 1)) (by simp [calHeads])]
  rfl

theorem measured_result : t.f (F.CONV_CAL_STAT_result d) = 0 :=
  measured_head a (x := (F.CONV_CAL_STAT_result d, 0)) (by simp [calHeads, takenFields])

theorem measured_ref : t.f (F.CONV_CAL_STAT_cal_ref d) = s.f (F.CONV_REF_CFG_sel d) :=
  (measured_head a (x := (F.CONV_CAL_STAT_cal_ref d, s.f (F.CONV_REF_CFG_sel d))) (by simp [calHeads, takenFields])).trans
    (Nat.mod_eq_of_lt (Fld.get_lt _ _))

/-- A converter of the mask calibrates; its factors are kept. -/
theorem measured_in {i : Nat} (hi : i < 8) (hm : m / 2 ^ i % 2 = 1) : t.on (bitFld (R.CONV_CAL_STAT d) i) = false ∧
    t.on (F.CONV_C_STAT_cal (8 * d + i)) = true ∧ convSt t (8 * d + i) = keptFactors s (8 * d + i) (convSt s (8 * d + i)) := by
  refine ⟨?_, ?_, (a.conv _).1 _ (mem_maskConvs.2 ⟨i, hi, hm, rfl⟩) rfl⟩
  · refine a.setsBut.on_of_mem (v := 0) not_false (mem_measured.2 (.inr ⟨i, hi, hm, .inl rfl⟩)) (fun z hz => ?_) rfl
      (show i ≤ 31 by omega)
    rcases mem_measured.1 hz with hz | ⟨j, hj, -, rfl | rfl⟩
    · obtain ⟨-, h8, hlo, hhi⟩ := calHeads_place hz
      exact .inr (.inr ⟨hlo, hhi, .inr (show i < _ by omega)⟩)
    · by_cases hji : j = i
      · exact .inl (by rw [hji])
      · exact .inr (doneBit_apart_doneBit hj hji)
    · exact .inr (.inl (convStat_ne_calStat _ _))
  · refine a.setsBut.on_of_mem (v := 1) not_false (mem_measured.2 (.inr ⟨i, hi, hm, .inr rfl⟩)) (fun z hz => ?_) rfl
      (show 1 ≤ 31 by decide)
    rcases mem_measured.1 hz with hz | ⟨j, hj, -, rfl | rfl⟩
    · exact .inr (.inl ((calHeads_place hz).1 ▸ (convStat_ne_calStat _ _).symm))
    · exact .inr (.inl (convStat_ne_calStat _ _).symm)
    · by_cases hji : j = i
      · exact .inl (by rw [hji])
      · exact .inr (.inl fun he => hji (Nat.add_left_cancel (convStat_inj he)))

/-- Any other keeps its bits. -/
theorem measured_out {i : Nat} (hi : i < 8) (hm : ¬ m / 2 ^ i % 2 = 1) :
    t.on (bitFld (R.CONV_CAL_STAT d) i) = s.on (bitFld (R.CONV_CAL_STAT d) i) ∧
      t.rd (R.CONV_C_STAT (8 * d + i)) = s.rd (R.CONV_C_STAT (8 * d + i)) := by
  refine ⟨a.sets.on_of_apart fun z hz => ?_, ?_⟩
  · rcases mem_measured.1 hz with hz | ⟨j, hj, hmj, rfl | rfl⟩
    · obtain ⟨-, h8, hlo, hhi⟩ := calHeads_place hz
      exact .inr ⟨hlo, hhi, .inr (show i < _ by omega)⟩
    · exact doneBit_apart_doneBit hj fun he => hm (he ▸ hmj)
    · exact .inl (convStat_ne_calStat _ _)
  · rw [a.sets.rd_eq, fieldWord_of_forall_ne]
    intro z hz
    rcases mem_measured.1 hz with hz | ⟨j, hj, hmj, rfl | rfl⟩
    · exact (calHeads_place hz).1 ▸ (convStat_ne_calStat _ _).symm
    · exact (convStat_ne_calStat _ _).symm
    · exact fun he => hm ((Nat.add_left_cancel (convStat_inj he)) ▸ hmj)

/-- No other register changes. -/
theorem measured_keeps : KeepRegs (fun off => off = R.CONV_CAL_STAT d ∨ ∃ i : Fin 8, off = R.CONV_C_STAT (8 * d + i)) s t := by
  refine a.sets.keepRegs fun z hz => ?_
  rcases mem_measured.1 hz with hz | ⟨j, hj, -, rfl | rfl⟩
  · exact .inl (calHeads_place hz).1
  · exact .inl rfl
  · exact .inr ⟨⟨j, hj⟩, rfl⟩

end

end

/-- The fields of a measurement's begin lie above those of the mode. -/
theorem measured_mode {d m : Nat} {s : State} : ∀ x ∈ takenFields d s ++ measureFields d m, x.1.off ≠ R.SYS_MODE_STAT := by
  have hcal : R.CONV_CAL_STAT d ≠ R.SYS_MODE_STAT := by simp only [R.CONV_CAL_STAT, R.SYS_MODE_STAT]; omega
  intro x hx
  rcases mem_measured.1 hx with hx | ⟨j, hj, -, rfl | rfl⟩
  · exact (calHeads_place hx).1 ▸ hcal
  · exact hcal
  · exact AboveMode.ne (.add (.add rfl)) (by decide)

section
variable {p : Port} {d : Die} {v : Word} {s : State} (hl : Live p s (R.CONV_CAL_CMD d) = true)
include hl

theorem completes_calRestore (hc : ∀ w : Word, w.toNat % 256 = v.toNat % 256 → w.toNat / 256 % 4 = 2 → calCheck d w s = 0) :
    Completes (calCommand p d v 2) s (Sets (takenFields d s ++
      [(F.CONV_CAL_STAT_done d, s.f (F.CONV_CAL_STAT_done d) ||| v.toNat % 256)]) s.hid s) := by
  obtain ⟨a, u, he, hu, hrun⟩ := run_calCommand_taken hl (.inr (.inl rfl)) hc
  refine completes_sets (a := a) ?_ (FieldsAbove.ne ⟨.add rfl, .add rfl, .add rfl, trivial⟩ (by decide)) he
  rw [hrun]
  exact sets_restored hu

theorem completes_calMeasure (hc : ∀ w : Word, w.toNat % 256 = v.toNat % 256 → w.toNat / 256 % 4 = 1 → calCheck d w s = 0) :
    Completes (calCommand p d v 1) s (SetsConv (takenFields d s ++ measureFields d (v.toNat % 256))
      (EachConv id (keptFactors s) (maskConvs d (v.toNat % 256))) s) := by
  obtain ⟨a, u, he, hu, hrun⟩ := run_calCommand_taken hl (.inl rfl) hc
  have hset := hu.then_setsConv (setsConv_calGo_measure d v u)
  rw [← hrun, funext (keptFactors_taken hu)] at hset
  exact hset.completes measured_mode he fun _ h => h

end

end Sys2Proof.Machine
end

section
/-!
The end of a calibration (R155): factors in range stand with their `done` bits; with one out of range each converter gets its own back.
-/

namespace Sys2Proof.Machine

/-! ### Factor words -/

/-- The factor words of a converter as fields. -/
def factorFields (c : Nat) (ws : List Word) : List (Fld × Nat) := ((factorRegs c).zip ws).flatMap fun p => [(wordFld p.1, p.2.toNat)]

theorem sets_factorsPut (c : Nat) (ws : List Word) (s : State) : Sets (factorFields c ws) s.hid s ((factorsPut c ws).run s) :=
  sets_forEach _ (fun p _ s => Sets.setW p.1 p.2 s) s

theorem mem_factorFields {c : Nat} {ws : List Word} {x : Fld × Nat} :
    x ∈ factorFields c ws ↔ ∃ p ∈ (factorRegs c).zip ws, x = (wordFld p.1, p.2.toNat) := by
  simp only [factorFields, List.mem_flatMap, List.mem_singleton]

theorem factorFields_off {c : Nat} {ws : List Word} {x : Fld × Nat} (h : x ∈ factorFields c ws) : x.1.off ∈ factorRegs c := by
  obtain ⟨p, hp, rfl⟩ := mem_factorFields.1 h
  exact (List.of_mem_zip hp).1

theorem nodup_factorRegs (c : Nat) : (factorRegs c).Nodup := by
  simp [factorRegs, R.CONV_C_CAL_OFS, R.CONV_C_CAL_GAIN, R.CONV_C_CAL_W]
  omega

/-- Converters share no factor register. -/
theorem factorRegs_inj {c e off : Nat} (hc : off ∈ factorRegs c) (he : off ∈ factorRegs e) : c = e := by
  have h1 := factorRegs_range hc
  have h2 := factorRegs_range he
  omega

theorem factorRegs_ne_convStat {c e off : Nat} (h : off ∈ factorRegs c) : off ≠ R.CONV_C_STAT e := by
  have hr := factorRegs_range h
  simp only [R.CONV_C_STAT]
  omega

theorem factorRegs_ne_event {c d off : Nat} (h : off ∈ factorRegs c) : off ≠ R.CONV_EVENT d := by
  have hr := factorRegs_range h
  simp only [R.CONV_EVENT]
  omega

/-- The factors of a converter that are written once hold the words written. -/
theorem SetsBut.factors {w : Nat → Prop} {l : List (Fld × Nat)} {s t : State} {c : Nat} {ws : List Word} (a : SetsBut w l s t)
    (hlen : ws.length = 6) (hw : ∀ off ∈ factorRegs c, ¬ w off) (hm : ∀ x ∈ factorFields c ws, x ∈ l)
    (h : ∀ x ∈ l, x.1.off ∈ factorRegs c → x ∈ factorFields c ws) : (factorRegs c).map t.rd = ws := by
  refine List.ext_getElem (by rw [List.length_map, hlen]; rfl) fun i hi hi' => ?_
  rw [List.length_map] at hi
  have hzip : ∀ j (hj : j < (factorRegs c).length) (hj' : j < ws.length), ((factorRegs c)[j], ws[j]) ∈ (factorRegs c).zip ws :=
    fun j hj hj' => List.mem_iff_getElem.2 ⟨j, by rw [List.length_zip]; exact lt_min hj hj', List.getElem_zip⟩
  rw [List.getElem_map]
  refine a.rd_of_mem (hw _ (List.getElem_mem hi)) (hm _ (mem_factorFields.2 ⟨_, hzip i hi hi', rfl⟩)) fun x hx => ?_
  by_cases hoff : x.1.off = (factorRegs c)[i]
  · obtain ⟨p, hp, rfl⟩ := mem_factorFields.1 (h x hx (hoff ▸ List.getElem_mem hi))
    obtain ⟨j, hj, rfl⟩ := List.mem_iff_getElem.1 hp
    rw [List.length_zip] at hj
    rw [List.getElem_zip] at hoff ⊢
    obtain rfl : j = i := ((nodup_factorRegs c).getElem_inj_iff).1 hoff
    exact .inl rfl
  · exact .inr hoff

/-! ### The converters that calibrate -/

theorem mem_calMasked {s : State} {d c : Nat} : c ∈ calMasked s d ↔ ∃ i < 8, c = 8 * d + i ∧ s.on (F.CONV_C_STAT_cal c) = true := by
  simp only [calMasked, List.mem_filter, List.mem_map, List.mem_range]
  constructor
  · rintro ⟨⟨i, hi, rfl⟩, hc⟩
    exact ⟨i, hi, rfl, hc⟩
  · rintro ⟨i, hi, rfl, hc⟩
    exact ⟨⟨i, hi, rfl⟩, hc⟩

theorem nodup_calMasked (s : State) (d : Nat) : (calMasked s d).Nodup :=
  (List.nodup_range.map fun _ _ h => Nat.add_left_cancel h).filter _

theorem convBit_of_mem_calMasked {s : State} {d c : Nat} (h : c ∈ calMasked s d) : convBit c < 8 ∧ c = 8 * d + convBit c := by
  obtain ⟨i, hi, rfl, -⟩ := mem_calMasked.1 h
  simp only [convBit]
  omega

/-! ### What the end of a calibration writes -/

/-- What it sets last. -/
def calEndFields (d code : Nat) : List (Fld × Nat) :=
  [(F.CONV_CAL_STAT_busy d, 0), (F.CONV_CAL_STAT_result d, code), (F.CONV_EVENT_cal_end d, 1)]

theorem mem_calEndFields {d code : Nat} {x : Fld × Nat} : x ∈ calEndFields d code ↔
    x = (F.CONV_CAL_STAT_busy d, 0) ∨ x = (F.CONV_CAL_STAT_result d, code) ∨ x = (F.CONV_EVENT_cal_end d, 1) := by
  simp only [calEndFields, List.mem_cons, List.not_mem_nil, or_false]

theorem calEndFields_not_factor {d code c : Nat} {x : Fld × Nat} (hx : x ∈ calEndFields d code) : x.1.off ∉ factorRegs c := by
  intro hoff
  rcases mem_calEndFields.1 hx with rfl | rfl | rfl
  · exact factorRegs_ne_calStat hoff rfl
  · exact factorRegs_ne_calStat hoff rfl
  · exact factorRegs_ne_event hoff rfl

/-- Each field is a factor, the mark or the `done` bit of a converter that calibrates, or ends the calibration, which may have failed. -/
def EndsCal (s : State) (d code : Nat) (l : List (Fld × Nat)) : Prop :=
  ∀ x ∈ l, (∃ c ∈ calMasked s d, x.1.off ∈ factorRegs c ∨ x = (F.CONV_C_STAT_cal c, 0) ∨
      x = (bitFld (R.CONV_CAL_STAT d) (convBit c), 1)) ∨
    x ∈ calEndFields d code ∨ x = (F.CONV_EVENT_cal_fail d, 1)

theorem event_ne_calStat (d e : Nat) : R.CONV_EVENT d ≠ R.CONV_CAL_STAT e := by
  simp only [R.CONV_EVENT, R.CONV_CAL_STAT]
  omega

theorem event_ne_convStat (d c : Nat) : R.CONV_EVENT d ≠ R.CONV_C_STAT c := by
  simp only [R.CONV_EVENT, R.CONV_C_STAT]
  omega

section
variable {s t : State} {d code : Nat} {l : List (Fld × Nat)} (h : EndsCal s d code l)
include h

theorem EndsCal.mode : ∀ x ∈ l, x.1.off ≠ R.SYS_MODE_STAT := by
  have hcal : R.CONV_CAL_STAT d ≠ R.SYS_MODE_STAT := AboveMode.ne (.add rfl) (by decide)
  have hev : R.CONV_EVENT d ≠ R.SYS_MODE_STAT := AboveMode.ne (.add rfl) (by decide)
  intro x hx
  rcases h x hx with ⟨c, -, hoff | rfl | rfl⟩ | hx | rfl
  · have hr := factorRegs_range hoff
    simp only [R.SYS_MODE_STAT]
    omega
  · exact AboveMode.ne (.add (.add rfl)) (by decide)
  · exact hcal
  · rcases mem_calEndFields.1 hx with rfl | rfl | rfl
    · exact hcal
    · exact hcal
    · exact hev
  · exact hev

/-- A field of the command's word that lies above the `done` bits is written at the end alone. -/
theorem EndsCal.head {y : Fld} (hoff : y.off = R.CONV_CAL_STAT d) (hlo : 8 ≤ y.lo) {x : Fld × Nat} (hx : x ∈ l) :
    x ∈ calEndFields d code ∨ x.1.Apart y := by
  rcases h x hx with ⟨c, hc, hf | rfl | rfl⟩ | hx | rfl
  · exact .inr (.inl (hoff ▸ factorRegs_ne_calStat hf))
  · exact .inr (.inl (hoff ▸ convStat_ne_calStat c d))
  · exact .inr (doneBit_apart (convBit_of_mem_calMasked hc).1 hlo)
  · exact .inl hx
  · exact .inr (.inl (hoff ▸ event_ne_calStat d d))

/-- In the events' word bits are set alone. -/
theorem EndsCal.event {x : Fld × Nat} (hx : x ∈ l) (hoff : x.1.off = R.CONV_EVENT d) :
    ∃ j ≤ 31, x = (bitFld (R.CONV_EVENT d) j, 1) := by
  rcases h x hx with ⟨c, hc, hf | rfl | rfl⟩ | hx | rfl
  · exact absurd hoff (factorRegs_ne_event hf)
  · exact absurd hoff.symm (event_ne_convStat d c)
  · exact absurd hoff.symm (event_ne_calStat d d)
  · rcases mem_calEndFields.1 hx with rfl | rfl | rfl
    · exact absurd hoff.symm (event_ne_calStat d d)
    · exact absurd hoff.symm (event_ne_calStat d d)
    · exact ⟨2, by decide, rfl⟩
  · exact ⟨3, by decide, rfl⟩

/-- A converter's status word loses its mark alone. -/
theorem EndsCal.mark {c : Nat} {x : Fld × Nat} (hx : x ∈ l) : x = (F.CONV_C_STAT_cal c, 0) ∨ x.1.off ≠ R.CONV_C_STAT c := by
  have hcal := (convStat_ne_calStat c d).symm
  rcases h x hx with ⟨e, -, hf | rfl | rfl⟩ | hx | rfl
  · exact .inr (factorRegs_ne_convStat hf)
  · by_cases he : e = c
    · exact .inl (by rw [he])
    · exact .inr fun hoff => he (convStat_inj hoff)
  · exact .inr hcal
  · rcases mem_calEndFields.1 hx with rfl | rfl | rfl
    · exact .inr hcal
    · exact .inr hcal
    · exact .inr (event_ne_convStat d c)
  · exact .inr (event_ne_convStat d c)

variable (a : SetsBut (fun _ => False) l s t)
include a

theorem EndsCal.busy (hm : ∀ x ∈ calEndFields d code, x ∈ l) : t.on (F.CONV_CAL_STAT_busy d) = false := by
  refine a.on_of_mem (v := 0) not_false (hm _ (mem_calEndFields.2 (.inl rfl))) (fun x hx => ?_) rfl (show 8 ≤ 31 by decide)
  refine (h.head (y := F.CONV_CAL_STAT_busy d) rfl (le_refl 8) hx).elim (fun hx => ?_) .inr
  rcases mem_calEndFields.1 hx with rfl | rfl | rfl
  · exact .inl rfl
  · exact .inr (by simp [Fld.Apart, F.CONV_CAL_STAT_result, F.CONV_CAL_STAT_busy])
  · exact .inr (.inl (event_ne_calStat d d))

theorem EndsCal.result (hm : ∀ x ∈ calEndFields d code, x ∈ l) : t.f (F.CONV_CAL_STAT_result d) = code % 16 := by
  refine a.f_of_mem (v := code) not_false (hm _ (mem_calEndFields.2 (.inr (.inl rfl)))) (fun x hx => ?_) (show 16 ≤ 19 by decide)
    (show 19 ≤ 31 by decide)
  refine (h.head (y := F.CONV_CAL_STAT_result d) rfl (show 8 ≤ 16 by decide) hx).elim (fun hx => ?_) .inr
  rcases mem_calEndFields.1 hx with rfl | rfl | rfl
  · exact .inr (by simp [Fld.Apart, F.CONV_CAL_STAT_result, F.CONV_CAL_STAT_busy])
  · exact .inl rfl
  · exact .inr (.inl (event_ne_calStat d d))

theorem EndsCal.raised {i : Nat} (hm : (bitFld (R.CONV_EVENT d) i, 1) ∈ l) : t.on (bitFld (R.CONV_EVENT d) i) = true :=
  a.on_of_raised not_false hm fun _ hx => h.event hx

theorem EndsCal.unmarked {c : Nat} (hm : (F.CONV_C_STAT_cal c, 0) ∈ l) : t.on (F.CONV_C_STAT_cal c) = false :=
  a.on_of_mem (v := 0) not_false hm (fun _ hx => (h.mark hx).imp_right .inl) rfl (show 1 ≤ 31 by decide)

end

/-! ### Factors out of range -/

/-- What the converters of an abandoned calibration get back. -/
def backFields (s : State) (c : Nat) : List (Fld × Nat) := factorFields c (convSt s c).saved ++ [(F.CONV_C_STAT_cal c, 0)]

/-- What an abandoned calibration sets. -/
def abandonFields (s : State) (d code : Nat) : List (Fld × Nat) :=
  (calMasked s d).flatMap (backFields s) ++ (calEndFields d code ++ [(F.CONV_EVENT_cal_fail d, 1)])

theorem sets_calAbandon {s : State} {d : Nat} (code : Nat) (hb : s.on (F.CONV_CAL_STAT_busy d) = true) :
    Sets (abandonFields s d code) s.hid s ((calAbandon d code).run s) := by
  have hrun : (calAbandon d code).run s = (seq [forEach (calMasked s d) fun c => seq [factorsPut c (convSt s c).saved,
      clrB (F.CONV_C_STAT_cal c)], clrB (F.CONV_CAL_STAT_busy d), setF (F.CONV_CAL_STAT_result d) code,
      setB (F.CONV_EVENT_cal_end d), setB (F.CONV_EVENT_cal_fail d)]).run s := by
    simp only [Act.run, calAbandon, hb, Bool.not_true, Bool.false_eq_true, if_false]
  have hback := sets_forEach (f := backFields s) (act := fun c => seq [factorsPut c (convSt s c).saved, clrB (F.CONV_C_STAT_cal c)])
    (calMasked s d) (fun c _ u => by
      rw [run_seq_cons, run_seq_cons, run_seq_nil]
      exact (sets_factorsPut c _ u).then_setF (F.CONV_C_STAT_cal c) 0) s
  rw [hrun, run_seq_cons, run_seq_cons, run_seq_cons, run_seq_cons, run_seq_cons, run_seq_nil]
  have hall := (((hback.then_setF (F.CONV_CAL_STAT_busy d) 0).then_setF (F.CONV_CAL_STAT_result d) code).then_setF
    (F.CONV_EVENT_cal_end d) 1).then_setF (F.CONV_EVENT_cal_fail d) 1
  exact hall.cast (by simp [abandonFields, calEndFields]) rfl

theorem mem_backFields {s : State} {c : Nat} {x : Fld × Nat} :
    x ∈ backFields s c ↔ x ∈ factorFields c (convSt s c).saved ∨ x = (F.CONV_C_STAT_cal c, 0) := by
  simp only [backFields, List.mem_append, List.mem_singleton]

theorem mem_abandonFields {s : State} {d code : Nat} {x : Fld × Nat} : x ∈ abandonFields s d code ↔
    (∃ c ∈ calMasked s d, x ∈ factorFields c (convSt s c).saved ∨ x = (F.CONV_C_STAT_cal c, 0)) ∨ x ∈ calEndFields d code ∨
      x = (F.CONV_EVENT_cal_fail d, 1) := by
  simp only [abandonFields, List.mem_append, List.mem_flatMap, mem_backFields, List.mem_singleton]

theorem endsCal_abandonFields (s : State) (d code : Nat) : EndsCal s d code (abandonFields s d code) := fun _ hx =>
  (mem_abandonFields.1 hx).imp_left fun ⟨c, hc, hf⟩ => ⟨c, hc, hf.imp factorFields_off .inl⟩

section
variable {s t : State} {d code : Nat} (a : Sets (abandonFields s d code) s.hid s t)
include a

/-- The `done` bits stay. -/
theorem abandoned_done : t.f (F.CONV_CAL_STAT_done d) = s.f (F.CONV_CAL_STAT_done d) := by
  refine a.f_of_apart fun x hx => ?_
  rcases mem_abandonFields.1 hx with ⟨c, -, hf | rfl⟩ | hx | rfl
  · exact .inl (factorRegs_ne_calStat (factorFields_off hf))
  · exact .inl (convStat_ne_calStat c d)
  · rcases mem_calEndFields.1 hx with rfl | rfl | rfl
    · simp [Fld.Apart, F.CONV_CAL_STAT_busy, F.CONV_CAL_STAT_done]
    · simp [Fld.Apart, F.CONV_CAL_STAT_result, F.CONV_CAL_STAT_done]
    · exact .inl (event_ne_calStat d d)
  · exact .inl (event_ne_calStat d d)

/-- Each converter gets the factors back that it held. -/
theorem abandoned_factors {c : Nat} (hc : c ∈ calMasked s d) (hlen : (convSt s c).saved.length = 6) :
    (factorRegs c).map t.rd = (convSt s c).saved := by
  refine (a.setsBut fun _ => False).factors hlen (fun _ _ => not_false) (fun x hx => mem_abandonFields.2 (.inl ⟨c, hc, .inl hx⟩)) ?_
  intro x hx hoff
  rcases mem_abandonFields.1 hx with ⟨e, -, hf | rfl⟩ | hx | rfl
  · obtain rfl := factorRegs_inj hoff (factorFields_off hf)
    exact hf
  · exact absurd rfl (factorRegs_ne_convStat hoff)
  · exact absurd hoff (calEndFields_not_factor hx)
  · exact absurd rfl (factorRegs_ne_event hoff)

end

/-! ### Factors in range -/

/-- What a converter holds of its measurement. -/
def measured (m : CalMeas) (x : ConvSt) : ConvSt := { x with meas := some (calWords m) }

/-- What a completed calibration sets: the measured factors, then the `done` bits. -/
def completeFields (s : State) (d : Nat) (meas : List CalMeas) : List (Fld × Nat) :=
  ((calMasked s d).zip meas).flatMap (fun p => factorFields p.1 (calWords p.2)) ++
    ((calMasked s d).flatMap (fun c => [(F.CONV_C_STAT_cal c, 0), (bitFld (R.CONV_CAL_STAT d) (convBit c), 1)]) ++ calEndFields d 0)

theorem mem_completeFields {s : State} {d : Nat} {meas : List CalMeas} {x : Fld × Nat} : x ∈ completeFields s d meas ↔
    (∃ p ∈ (calMasked s d).zip meas, x ∈ factorFields p.1 (calWords p.2)) ∨
      (∃ c ∈ calMasked s d, x = (F.CONV_C_STAT_cal c, 0) ∨ x = (bitFld (R.CONV_CAL_STAT d) (convBit c), 1)) ∨
        x ∈ calEndFields d 0 := by
  simp only [completeFields, List.mem_append, List.mem_flatMap, List.mem_cons, List.not_mem_nil, or_false]

theorem endsCal_completeFields (s : State) (d : Nat) (meas : List CalMeas) : EndsCal s d 0 (completeFields s d meas) := by
  intro x hx
  rcases mem_completeFields.1 hx with ⟨p, hp, hf⟩ | ⟨c, hc, hf⟩ | hx
  · exact .inl ⟨p.1, (List.of_mem_zip hp).1, .inl (factorFields_off hf)⟩
  · exact .inl ⟨c, hc, .inr hf⟩
  · exact .inr (.inl hx)

section
variable {s t : State} {d : Nat} {meas : List CalMeas}

variable (hlen : (calMasked s d).length = meas.length)
include hlen

/-- No converter stands twice beside a measurement. -/
theorem nodup_map_fst_zip : (((calMasked s d).zip meas).map Prod.fst).Nodup := by
  rw [List.map_fst_zip hlen.le]
  exact nodup_calMasked s d

/-- Two measurements of one converter are one. -/
theorem zip_calMasked_inj {p q : Nat × CalMeas} (hp : p ∈ (calMasked s d).zip meas) (hq : q ∈ (calMasked s d).zip meas)
    (h : p.1 = q.1) : p = q :=
  List.inj_on_of_nodup_map (nodup_map_fst_zip hlen) hp hq h

theorem setsConv_calComplete (hb : s.on (F.CONV_CAL_STAT_busy d) = true) (hr : ∀ m ∈ meas, calInRange m = true) :
    SetsConv (completeFields s d meas) (EachConv Prod.fst (fun p => measured p.2) ((calMasked s d).zip meas)) s
      ((calComplete d meas).run s) := by
  have hrun : (calComplete d meas).run s = (seq [
      forEach ((calMasked s d).zip meas) fun p => seq [factorsPut p.1 (calWords p.2), convA p.1 (measured p.2)],
      forEach (calMasked s d) fun c => seq [clrB (F.CONV_C_STAT_cal c), setB (bitFld (R.CONV_CAL_STAT d) (convBit c))],
      clrB (F.CONV_CAL_STAT_busy d), setF (F.CONV_CAL_STAT_result d) 0, setB (F.CONV_EVENT_cal_end d)]).run s := by
    simp only [Act.run, calComplete, hb, Bool.not_true, Bool.false_eq_true, if_false, List.all_eq_true.2 hr, if_true]
    rfl
  have hfactors := setsConv_forEach (f := fun p => factorFields p.1 (calWords p.2) ++ [])
    (act := fun p => seq [factorsPut p.1 (calWords p.2), convA p.1 (measured p.2)]) Prod.fst (fun p => measured p.2)
    ((calMasked s d).zip meas) (fun p _ u => by
      rw [run_seq_cons, run_seq_cons, run_seq_nil]
      exact (sets_factorsPut p.1 _ u).then_setsConv (setsConv_convA p.1 (measured p.2) _)) (nodup_map_fst_zip hlen) s
  have hdone := fun u => sets_forEach (f := fun c => [(F.CONV_C_STAT_cal c, 0), (bitFld (R.CONV_CAL_STAT d) (convBit c), 1)])
    (act := fun c => seq [clrB (F.CONV_C_STAT_cal c), setB (bitFld (R.CONV_CAL_STAT d) (convBit c))]) (calMasked s d)
    (fun c _ u => (Sets.setF (F.CONV_C_STAT_cal c) 0 u).then_setF (bitFld (R.CONV_CAL_STAT d) (convBit c)) 1) u
  rw [hrun, run_seq_cons, run_seq_cons, run_seq_cons, run_seq_cons, run_seq_cons, run_seq_nil]
  have hall := (((hfactors.then_sets (hdone _)).then_setF (F.CONV_CAL_STAT_busy d) 0).then_setF (F.CONV_CAL_STAT_result d) 0).then_setF
    (F.CONV_EVENT_cal_end d) 1
  rw [completeFields, calEndFields]
  simp only [List.append_nil, List.append_assoc, List.cons_append, List.nil_append] at hall
  exact hall

end

section
variable {s t : State} {d : Nat} {meas : List CalMeas}
  (a : SetsConv (completeFields s d meas) (EachConv Prod.fst (fun p => measured p.2) ((calMasked s d).zip meas)) s t)
include a

/-- A converter of the measurement holds its factors, and is done. -/
theorem completed_done {c : Nat} (hc : c ∈ calMasked s d) : t.on (bitFld (R.CONV_CAL_STAT d) (convBit c)) = true := by
  have hlt := (convBit_of_mem_calMasked hc).1
  refine a.setsBut.on_of_mem (v := 1) not_false (mem_completeFields.2 (.inr (.inl ⟨c, hc, .inr rfl⟩))) (fun x hx => ?_) rfl
    (show convBit c ≤ 31 by omega)
  rcases mem_completeFields.1 hx with ⟨p, -, hf⟩ | ⟨e, he, rfl | rfl⟩ | hx
  · exact .inr (.inl (factorRegs_ne_calStat (factorFields_off hf)))
  · exact .inr (.inl (convStat_ne_calStat e d))
  · by_cases hec : convBit e = convBit c
    · exact .inl (by rw [hec])
    · exact .inr (doneBit_apart_doneBit (convBit_of_mem_calMasked he).1 hec)
  · rcases mem_calEndFields.1 hx with rfl | rfl | rfl
    · exact .inr (.inr (by simp only [F.CONV_CAL_STAT_busy, bitFld]; omega))
    · exact .inr (.inr (by simp only [F.CONV_CAL_STAT_result, bitFld]; omega))
    · exact .inr (.inl (event_ne_calStat d d))

theorem completed_factors (hlen : (calMasked s d).length = meas.length) {p : Nat × CalMeas}
    (hp : p ∈ (calMasked s d).zip meas) : (factorRegs p.1).map t.rd = calWords p.2 := by
  refine a.setsBut.factors rfl (fun _ _ => not_false) (fun x hx => mem_completeFields.2 (.inl ⟨p, hp, hx⟩)) ?_
  intro x hx hoff
  rcases mem_completeFields.1 hx with ⟨q, hq, hf⟩ | ⟨e, he, rfl | rfl⟩ | hx
  · obtain rfl := zip_calMasked_inj hlen hq hp (factorRegs_inj (factorFields_off hf) hoff)
    exact hf
  · exact absurd rfl (factorRegs_ne_convStat hoff)
  · exact absurd rfl (factorRegs_ne_calStat hoff)
  · exact absurd hoff (calEndFields_not_factor hx)

theorem completed_meas {p : Nat × CalMeas} (hp : p ∈ (calMasked s d).zip meas) : (convSt t p.1).meas = some (calWords p.2) := by
  rw [(a.conv p.1).1 p hp rfl]
  rfl

end

section
variable {s : State} {d : Die} {meas : List CalMeas}

theorem completes_calComplete_inRange (hb : s.on (F.CONV_CAL_STAT_busy d) = true) (hlen : (calMasked s d).length = meas.length)
    (hr : ∀ m ∈ meas, calInRange m = true) : Completes (.convCalComplete d meas) s
    (SetsConv (completeFields s d meas) (EachConv Prod.fst (fun p => measured p.2) ((calMasked s d).zip meas)) s) :=
  (setsConv_calComplete hlen hb hr).completes (endsCal_completeFields s d meas).mode rfl fun _ h => h

theorem completes_calComplete_outOfRange {m : CalMeas} (hb : s.on (F.CONV_CAL_STAT_busy d) = true) (hm : m ∈ meas)
    (hr : calInRange m = false) : Completes (.convCalComplete d meas) s (Sets (abandonFields s d 7) s.hid s) := by
  have hall : meas.all calInRange = false := List.all_eq_false.2 ⟨m, hm, by simp [hr]⟩
  have hrun : (calComplete d meas).run s = (calAbandon d 7).run s := by
    simp only [Act.run, calComplete, hb, hall, Bool.not_true, Bool.false_eq_true, if_false]
  refine completes_sets (a := calComplete d meas) ?_ (endsCal_abandonFields s d 7).mode rfl
  rw [hrun]
  exact sets_calAbandon 7 hb

end

/-! ### The statement -/

/-- Settles O22: each command is judged by one chain of conditions, and a reference, a restore and a measurement are short lists of
fields; what the end of a calibration writes is read off by where its fields lie. -/
theorem referencesAndCalibrationFollowTheirCodes : Obligations.ReferencesAndCalibrationFollowTheirCodes := by
  unfold Obligations.ReferencesAndCalibrationFollowTheirCodes
  refine ⟨⟨fun s p d v hl => ?_, fun s d hok => completes_refSettled hok, fun s d hok hsel hb => completes_refFault hok hsel hb⟩,
    fun s p d v op hl => ?_, fun s d meas hb hlen hr => ?_, fun s d meas m hb hm hr => ?_⟩
  · intro idle code fallen
    have refused : ∀ n, refCheck d v s = n → n ≠ 0 → code n := fun n hc hn => completes_refWrite_refused hl hc hn
    have hcode := refCheck_eq d v s
    refine ⟨fun hm => refused 1 ?_ (by decide), fun hm hi => refused 2 ?_ (by decide), fun hm hi hb => refused 4 ?_ (by decide),
      fun hm hi hb hv => refused 5 ?_ (by decide), fun hm hi hb hv => completes_refWrite_taken hl ?_⟩
    · rw [hcode, if_pos hm]
    · rw [hcode, if_neg (not_not.2 hm), if_pos hi]
    · rw [hcode, if_neg (not_not.2 hm), if_neg (not_not.2 hi), if_pos hb]
    · rw [hcode, if_neg (not_not.2 hm), if_neg (not_not.2 hi), if_neg (hb ▸ Bool.false_ne_true), if_pos hv]
    · rw [hcode, if_neg (not_not.2 hm), if_neg (not_not.2 hi), if_neg (hb ▸ Bool.false_ne_true), if_neg hv]
  · intro mask c named idle code place ready
    have refused : ∀ n, named → n ≠ 0 → (∀ w : Word, w.toNat % 256 = v.toNat % 256 → w.toNat / 256 % 4 = op.val →
        calCheck d w s = n) → code n := fun n hn h0 hc => completes_calCommand_refused hl hn h0 hc
    have hplace : (s.mode = CONFIGURE ∨ s.mode = STANDBY) → ¬ (s.mode ≠ CONFIGURE ∧ s.mode ≠ STANDBY) :=
      fun h ⟨h1, h2⟩ => h.elim h1 h2
    have htaken : ready → s.on (F.CONV_CAL_STAT_busy d) = false → mask ≠ 0 → op = 1 ∨ op = 2 →
        ∀ w : Word, w.toNat % 256 = v.toNat % 256 → w.toNat / 256 % 4 = op.val → calCheck d w s = 0 := by
      intro ⟨⟨_, hm⟩, hi, hok⟩ hb hmask hop w hw ho
      rw [calCheck_of_ready hw ho hm hi hok, if_neg (hb ▸ Bool.false_ne_true), if_neg]
      rintro (h | h)
      · exact hmask h
      · omega
    refine ⟨fun hn h1 h2 => refused 1 hn (by decide) fun w hw ho => ?_, fun ⟨hn, hm⟩ hi => refused 2 hn (by decide) fun w hw ho => ?_,
      fun ⟨hn, hm⟩ hi hok => refused 3 hn (by decide) fun w hw ho => ?_,
      fun ⟨⟨hn, hm⟩, hi, hok⟩ hb => refused 4 hn (by decide) fun w hw ho => ?_,
      fun ⟨⟨hn, hm⟩, hi, hok⟩ hb hop => refused 5 hn (by decide) fun w hw ho => ?_, fun hready hb hmask hop => ?_,
      fun hready hb hmask hop => ?_⟩
    · rw [calCheck_eq hw ho, if_pos ⟨h1, h2⟩]
    · rw [calCheck_eq hw ho, if_neg (hplace hm), if_pos hi]
    · rw [calCheck_eq hw ho, if_neg (hplace hm), if_neg (not_not.2 hi), if_pos hok]
    · rw [calCheck_of_ready hw ho hm hi hok, if_pos hb]
    · rw [calCheck_of_ready hw ho hm hi hok, if_neg (hb ▸ Bool.false_ne_true), if_pos hop]
    · have h0 := htaken hready hb hmask (.inr hop)
      subst hop
      exact completes_calRestore hl h0
    · have h0 := htaken hready hb hmask (.inl hop)
      subst hop
      obtain ⟨t, he, a⟩ := completes_calMeasure hl h0
      have ⟨_, hmem, _⟩ := a.setsBut
      refine ⟨t, he, measured_result a, measured_busy a, measured_ref a, fun i hi => ?_, fun i hi => measured_out a i.isLt ?_,
        measured_keeps a, hmem⟩
      · obtain ⟨hdone, hcal, hconv⟩ := measured_in a i.isLt ((mask_bit v i).2 hi)
        rw [hconv]
        exact ⟨hdone, hcal, rfl, rfl⟩
      · rw [mask_bit, hi]
        exact Bool.false_ne_true
  · obtain ⟨t, he, a⟩ := completes_calComplete_inRange hb hlen hr
    have hends := endsCal_completeFields s d meas
    have hlast : ∀ x ∈ calEndFields d 0, x ∈ completeFields s d meas := fun x hx => mem_completeFields.2 (.inr (.inr hx))
    have ⟨_, hmem, hnow⟩ := a.setsBut
    refine ⟨t, he, hends.busy a.setsBut hlast, hends.result a.setsBut hlast, hends.raised a.setsBut (hlast _ (mem_calEndFields.2
      (.inr (.inr rfl)))), fun x hx => ?_, a.sets.hid_eq, hmem, hnow⟩
    have hin := (List.of_mem_zip hx).1
    exact ⟨completed_factors a hlen hx, hends.unmarked a.setsBut (mem_completeFields.2 (.inr (.inl ⟨_, hin, .inl rfl⟩))),
      completed_done a hin, completed_meas a hx⟩
  · obtain ⟨t, he, a⟩ := completes_calComplete_outOfRange hb hm hr
    have hends := endsCal_abandonFields s d 7
    have hset := a.setsBut fun _ => False
    have hlast : ∀ x ∈ calEndFields d 7, x ∈ abandonFields s d 7 := fun x hx => mem_abandonFields.2 (.inr (.inl hx))
    have ⟨_, hmem, hnow⟩ := hset
    refine ⟨t, he, hends.busy hset hlast, hends.result hset hlast, hends.raised hset (mem_abandonFields.2 (.inr (.inr rfl))),
      abandoned_done a, fun i hi => ?_, a.hid_eq, hmem, hnow⟩
    have hin : 8 * d.val + i.val ∈ calMasked s d := mem_calMasked.2 ⟨i, i.isLt, rfl, hi⟩
    exact ⟨hends.unmarked hset (mem_abandonFields.2 (.inl ⟨_, hin, .inr rfl⟩)), abandoned_factors a hin⟩

end Sys2Proof.Machine
end

section
/-!
The statement on how edge units commit and drive their outputs, which fails for a follower that is being disabled.  The refutation names
its state, runs the command in it, and says which premise the statement lacks.
-/

namespace Sys2Proof.Machine

/-- Edge unit 0 follows the carrier of unit 1, and both run.  Unit 0 has been disabled within an on-pulse, which is still to end
(R210); unit 1 is enabled and idles between its pulses. -/
def followerStopping : State := (seq [setW R.SYS_ISLAND_EN 0x07FFFFFF#32, setF (F.EDGE_CH_CFG_ref_eu 0) 1,
  setB (F.SYS_SEAM_STAT_up 0), setB (F.EDGE_CH_CFG_en 1),
  edgeA 1 fun x => { x with run := true, live := true, per := 800, len := 800 },
  setB (F.EDGE_CH_STAT_out 0), edgeA 0 fun x => { x with
    run := true, live := true, per := 800, len := 800, w := true, cmd := true, il := true, stopping := true }]).run State.reset

/-- Refutes O26: a follower whose reference is disabled is said to run on, waiting for it, but one that is itself being disabled goes
idle for good.  In `followerStopping` a disable of unit 1 leaves unit 0 with `run` false.  The clause would need the premise
`(edgeSt s f).stopping = false`. -/
theorem not_edgeUnitsCommitAndDriveTheirOutput : ¬ Obligations.EdgeUnitsCommitAndDriveTheirOutput := by
  unfold Obligations.EdgeUnitsCommitAndDriveTheirOutput
  rintro ⟨-, -, -, -, -, -, -, hdisable, -⟩
  have hrun := (hdisable followerStopping .pcie 0 1 0x3F00#32 (by decide +kernel) (by decide +kernel) (by decide +kernel)
    (by decide +kernel) (by decide +kernel) (by decide +kernel) (by decide +kernel)).answerHas_true
    (fun t => (edgeSt t (0 : Fin 48)).run) fun t ⟨_, _, _, hwaits⟩ => hwaits
  exact absurd hrun (by decide +kernel)

end Sys2Proof.Machine
end

section
/-!
The statement on the calibration of edge units, SYNCI, the freeze and the disable, which fails where a freeze ends: the command that
ends it also ends the Chanter's debug halt.  The refutation names its state, runs the command in it, and says what the statement lacks.
-/

namespace Sys2Proof.Machine

/-- A debugger has halted the Chanter: `CHNT_STAT.parked` and `debug_halted` read 1 (R370), edge unit 0, which is enabled and runs, is
frozen with `EDGE_EVENT.frozen` at 1 (R208), and no disable waits. -/
def frozenByDebugHalt : State := (seq [setW R.SYS_ISLAND_EN 0x07FFFFFF#32, setB F.CHNT_STAT_running, setB F.CHNT_STAT_parked,
  setB F.CHNT_STAT_debug_halted, setB (F.EDGE_CH_CFG_en 0),
  edgeA 0 fun x => { x with run := true, live := true, per := 800, len := 800 }, edgeFreeze]).run State.reset

/-- Refutes O27: the end of a freeze is said to change no register but the two `EDGE_EVENT`, but DEBUG_UNFREEZE is the Chanter's
resumption (R208), which ends the debug halt too.  In `frozenByDebugHalt` it clears `CHNT_STAT.debug_halted`.  The clause would need
`(F.CHNT_STAT_debug_halted, 0)` among the fields that it sets, or the premise that the field reads 0, which leaves out the freeze of a
debug halt. -/
theorem not_edgeCalibrationSyncAndDisableAct : ¬ Obligations.EdgeCalibrationSyncAndDisableAct := by
  unfold Obligations.EdgeCalibrationSyncAndDisableAct
  rintro ⟨-, -, -, hunfreeze, -⟩
  have hkeeps := (hunfreeze frozenByDebugHalt 0#64 (by decide +kernel) (by decide +kernel) (by decide +kernel)).answerHas_true
    (fun t => t.rd R.CHNT_STAT = frozenByDebugHalt.rd R.CHNT_STAT)
    fun t hsets => decide_eq_true ((hsets.rd_eq R.CHNT_STAT).trans (fieldWord_of_forall_ne (by decide) _))
  exact absurd hkeeps (by decide +kernel)

end Sys2Proof.Machine
end

section
/-!
What the statements on the Ligature buses share: what a bus and a pod hold after a change, the counters and the bits of a gate channel's
registers, and the rules of the actions that several commands run.
-/

namespace Sys2Proof.Machine

/-! ### What a bus and a pod hold -/

section
variable {l : List (Fld × Nat)} {h : Hid} {s t : State} {k n : Nat} {b : LigSt}

theorem ligSt_withLig (hb : t.hid.lig = (withLig s k b).lig) : ligSt t k = b := by
  rw [ligSt, hb]
  exact (Tab.get_put _ _ _ _ _ (fun _ => rfl) _).trans (if_pos rfl)

/-- A change of what bus `k` holds. -/
theorem Sets.then_ligA (a : Sets l h s t) (k : Nat) (g : LigSt → LigSt) :
    Sets l { h with lig := h.lig.put {} k (g (h.lig.get {} k)) } s ((ligA k g).run t) :=
  a.then_hidA _

/-- A second change starts from what the first one left. -/
theorem Sets.lig_then_ligA (a : Sets l (withLig s k b) s t) (g : LigSt → LigSt) :
    Sets l (withLig s k (g b)) s ((ligA k g).run t) := by
  refine (a.then_ligA k g).cast rfl ?_
  simp only [withLig, Tab.put_put, Tab.get_put {} k k b {} (fun _ => rfl), if_true]

theorem sets_ligA (k : Nat) (g : LigSt → LigSt) (s : State) : Sets [] (withLig s k (g (ligSt s k))) s ((ligA k g).run s) :=
  (Sets.refl s).then_ligA k g

/-- A change of what gate channel `n` holds of its pod. -/
theorem Sets.then_podA (a : Sets l h s t) (n : Nat) (g : PodSt → PodSt) :
    Sets l { h with pod := h.pod.put {} n (g (h.pod.get {} n)) } s ((podA n g).run t) :=
  a.then_hidA _

theorem pod_get_put (p : Tab PodSt) (n : Nat) (x : PodSt) : (p.put {} n x).get {} n = x :=
  (Tab.get_put _ _ _ _ _ (fun _ => rfl) _).trans (if_pos rfl)

/-- A counter that the change has not touched counts one event. -/
theorem Sets.then_countOne (a : Sets l h s t) {off : Nat} (hl : ∀ x ∈ l, x.1.off ≠ off) :
    Sets (l ++ [countOne s off]) h s ((Machine.bump off).run t) := by
  have hcount := a.then_bump off
  rwa [fieldWord_of_forall_ne hl] at hcount

theorem sets_countOne (off : Nat) (s : State) : Sets [countOne s off] s.hid s ((Machine.bump off).run s) := Sets.bump off s

/-- A command on registers above that of the mode completes with what its meaning sets. -/
theorem completes_above {c : Instr} {a : Act} (hs : Sets l h s (a.run s)) (hl : FieldsAbove l) (he : exec c s = finish a s) :
    Completes c s (Sets l h s) :=
  completes_sets hs (hl.ne (by decide)) he

end

/-- A bus runs alike in two states of equal islands, power and `GATE_LIG_CFG`. -/
theorem busOn_congr {s t : State} {k : Nat} (hen : t.rd R.SYS_ISLAND_EN = s.rd R.SYS_ISLAND_EN)
    (hcfg : t.rd (R.GATE_LIG_CFG k) = s.rd (R.GATE_LIG_CFG k)) (hp : t.hid.pwr = s.hid.pwr) : busOn t k = busOn s k := by
  unfold busOn ligOn dieOn State.up State.island
  rw [hen, hp, on_of_rd_eq (x := F.GATE_LIG_CFG_en k) hcfg]

theorem podPresent_congr {s t : State} {n : Nat} (h : t.rd (R.GATE_CH_CFG n) = s.rd (R.GATE_CH_CFG n)) :
    podPresent t n = podPresent s n :=
  on_of_rd_eq h

/-- A bit that is put in is read back. -/
theorem bit_putBit_self (x i : Nat) (b : Bool) : bit (putBit x i b) i = b := by
  unfold putBit
  split
  · next h => exact h
  · next h =>
    have hpos := Nat.two_pow_pos i
    cases b
    · have hbit : x / 2 ^ i % 2 = 1 := by simpa [bit] using h
      have hle : 2 ^ i ≤ x := by
        by_contra hlt
        rw [Nat.div_eq_of_lt (Nat.lt_of_not_le hlt)] at hbit
        exact absurd hbit (by decide)
      have hdiv : (x - 2 ^ i) / 2 ^ i = x / 2 ^ i - 1 := by
        rw [← Nat.sub_mul_div x (2 ^ i) 1, Nat.mul_one]
      simp only [bit, hdiv, Bool.false_eq_true, if_false]
      exact decide_eq_false (by omega)
    · have hbit : x / 2 ^ i % 2 ≠ 1 := by simpa [bit] using h
      simp only [bit, if_true, Nat.add_div_right x hpos]
      exact decide_eq_true (by omega)

/-! ### Writes to a pod (R227) -/

/-- A WRITE to a pod is not queued for a register that the pod has not, or where it is not present. -/
theorem run_podWrite_none {s : State} {n x : Nat} (h : ¬ (podPresent s n = true ∧ podHas s n x = true)) : (podWrite n x).run s = s := by
  unfold Act.run podWrite
  rw [if_neg h]
  rfl

/-- The writes that wait on the bus of channel `n` when one of pod register `x` with value `v` is queued. -/
def writesWith (b : LigSt) (n x v : Nat) : List (Nat × Nat × Nat) :=
  (b.writes.filter fun w => ¬ (w.1 = n % 12 ∧ w.2.1 = x)) ++ [(n % 12, x, v)]

theorem mem_writesWith (b : LigSt) (n x v : Nat) : (n % 12, x, v) ∈ writesWith b n x v :=
  List.mem_append_right _ (List.mem_singleton_self _)

/-- No other value waits for the same register. -/
theorem value_of_mem_writesWith {b : LigSt} {n x v : Nat} {w : Nat × Nat × Nat} (hw : w ∈ writesWith b n x v) (hn : w.1 = n % 12)
    (hx : w.2.1 = x) : w.2.2 = v := by
  rcases List.mem_append.1 hw with hold | hnew
  · exact absurd ⟨hn, hx⟩ (of_decide_eq_true (List.mem_filter.1 hold).2)
  · rw [List.mem_singleton.1 hnew]

/-- The block state after a WRITE of pod register `x` of channel `n` is queued. -/
def queuedHid (s : State) (n x : Nat) : Hid :=
  { withLig s (n / 12) { ligSt s (n / 12) with writes := writesWith (ligSt s (n / 12)) n x (podReg s n x) } with
    pod := s.hid.pod.put {} n { s.hid.pod.get {} n with unack := putBit (s.hid.pod.get {} n).unack x true } }

theorem ligSt_queuedHid {s t : State} {n x : Nat} (h : t.hid = queuedHid s n x) :
    ligSt t (n / 12) = { ligSt s (n / 12) with writes := writesWith (ligSt s (n / 12)) n x (podReg s n x) } := by
  refine ligSt_withLig (s := s) ?_
  rw [h]
  rfl

/-- A pod register mirrors a word of `GATE_CH_PROF`, or fields of `GATE_CH_DESAT` and `GATE_CH_SUPPLY`. -/
theorem podReg_congr {s t : State} {n : Nat} (x : Nat) (hprof : t.rd (R.GATE_CH_PROF n x) = s.rd (R.GATE_CH_PROF n x))
    (hdesat : t.rd (R.GATE_CH_DESAT n) = s.rd (R.GATE_CH_DESAT n)) (hsupply : t.rd (R.GATE_CH_SUPPLY n) = s.rd (R.GATE_CH_SUPPLY n)) :
    podReg t n x = podReg s n x := by
  simp only [podReg, hprof, f_of_rd_eq (x := F.GATE_CH_DESAT_blank n) hdesat, f_of_rd_eq (x := F.GATE_CH_DESAT_thr n) hdesat,
    f_of_rd_eq (x := F.GATE_CH_SUPPLY_uv n) hsupply]

theorem sets_podWrite {s : State} {n x : Nat} (hp : podPresent s n = true) (hx : podHas s n x = true) :
    Sets [(F.GATE_CH_STAT_in_sync n, 0)] (queuedHid s n x) s ((podWrite n x).run s) := by
  have hrun : (podWrite n x).run s = (ligA (n / 12) fun b => { b with writes := writesWith b n x (podReg s n x) }).run
      ((podA n fun p => { p with unack := putBit p.unack x true }).run ((clrB (F.GATE_CH_STAT_in_sync n)).run s)) := by
    unfold Act.run podWrite
    rw [if_pos ⟨hp, hx⟩]
    simp only [seq, applyAll_append]
    rfl
  rw [hrun]
  exact ((Sets.setF _ 0 s).then_podA n _).then_ligA _ _

end Sys2Proof.Machine
end

section
/-!
The schedule of a Ligature bus, the end of a frame without an answer, and the commands that queue a CLEAR or a WRITE, reset the tries or
disable the bus.
-/

namespace Sys2Proof.Machine

/-! ### The frame that a bus sends next (R220, R222, R223) -/

/-- What a bus holds when frame `f` begins at device time `now`; a poll of the fault vector is to follow a CLEAR (R222). -/
def begun (f : LigFrame) (now : BitVec 64) (b : LigSt) : LigSt :=
  { b with cur := some f, curT := now, fvReq := match f with | .clear _ => true | _ => b.fvReq }

/-- No frame of the bus waits for its answer. -/
def LigSt.Idle (b : LigSt) : Prop := b.cur = none ∨ b.cur = some .vector ∨ ∃ v, b.cur = some (.select v)

section
variable {s t : State} {k : Nat} {l : List (Fld × Nat)} {f : LigFrame}

theorem run_ligBegin (k : Nat) (f : LigFrame) (s : State) : (ligBegin k f).run s = (ligA k (begun f s.now)).run s := rfl

theorem sets_ligBegin (k : Nat) (f : LigFrame) (s : State) :
    Sets [] (withLig s k (begun f s.now (ligSt s k))) s ((ligBegin k f).run s) :=
  sets_ligA k (begun f s.now) s

/-- A frame begins after another change of what the bus holds. -/
theorem Sets.lig_then_begin {b : LigSt} (a : Sets l (withLig s k b) s t) (f : LigFrame) :
    Sets l (withLig s k (begun f s.now b)) s ((ligBegin k f).run t) := by
  rw [run_ligBegin, a.now_eq]
  exact a.lig_then_ligA _

/-- A frame is taken out of those that wait, as `g` says, and begins. -/
def serveA (k : Nat) (g : LigSt → LigSt) (f : LigFrame) : Act := seq [ligA k g, ligBegin k f]

theorem sets_serveA (k : Nat) (g : LigSt → LigSt) (f : LigFrame) (s : State) :
    Sets [] (withLig s k (begun f s.now (g (ligSt s k)))) s ((serveA k g f).run s) := by
  rw [serveA, run_seq_cons, run_seq_cons, run_seq_nil]
  exact (sets_ligA k g s).lig_then_begin f

end

/-! The classes of frames in the order of the schedule: each is served where none of those before it waits. -/

section
variable {s : State} {k : Nat} (hon : busOn s k = true) (hidle : (ligSt s k).Idle)
include hon hidle

theorem ligNext_of_wanted (hfv : (ligSt s k).fvReq = true) :
    ligNext k s = serveA k (fun b => { b with fvReq := false }) .vector s := by
  rcases hidle with hcur | hcur | ⟨v, hcur⟩ <;> simp [ligNext, serveA, hon, hcur, hfv]

variable (hfv : (ligSt s k).fvReq = false)
include hfv

theorem ligNext_of_broken {f : LigFrame} (hagain : (ligSt s k).again = some f) :
    ligNext k s = serveA k (fun b => { b with again := none }) f s := by
  rcases hidle with hcur | hcur | ⟨v, hcur⟩ <;> simp [ligNext, serveA, hon, hcur, hfv, hagain]

variable (hagain : (ligSt s k).again = none)
include hagain

theorem ligNext_of_select {v : BitVec 24} (hsel : (ligSt s k).sel = some v) :
    ligNext k s = serveA k (fun b => { b with sel := none }) (.select v) s := by
  rcases hidle with hcur | hcur | ⟨v, hcur⟩ <;> simp [ligNext, serveA, hon, hcur, hfv, hagain, hsel]

variable (hsel : (ligSt s k).sel = none)
include hsel

theorem ligNext_of_clear {a : Nat} {as : List Nat} (hclears : (ligSt s k).clears = a :: as) :
    ligNext k s = serveA k (fun b => { b with clears := as }) (.clear a) s := by
  rcases hidle with hcur | hcur | ⟨v, hcur⟩ <;> simp [ligNext, serveA, hon, hcur, hfv, hagain, hsel, hclears]

variable (hclears : (ligSt s k).clears = [])
include hclears

theorem ligNext_of_write {w : Nat × Nat × Nat} {ws : List (Nat × Nat × Nat)} (hwrites : (ligSt s k).writes = w :: ws) :
    ligNext k s = serveA k (fun b => { b with writes := ws }) (.write w.1 w.2.1 w.2.2) s := by
  rcases hidle with hcur | hcur | ⟨v, hcur⟩ <;> simp [ligNext, serveA, hon, hcur, hfv, hagain, hsel, hclears, hwrites]

variable (hwrites : (ligSt s k).writes = [])
include hwrites

theorem ligNext_of_periodic (hper : (ligSt s k).fvPer = true) :
    ligNext k s = serveA k (fun b => { b with fvPer := false }) .vector s := by
  rcases hidle with hcur | hcur | ⟨v, hcur⟩ <;> simp [ligNext, serveA, hon, hcur, hfv, hagain, hsel, hclears, hwrites, hper]

variable (hper : (ligSt s k).fvPer = false)
include hper

theorem ligNext_of_retry {a : Nat} (hretry : (ligSt s k).retry = some a) : ligNext k s = ligBegin k (.poll a) s := by
  rcases hidle with hcur | hcur | ⟨v, hcur⟩ <;> simp [ligNext, hon, hcur, hfv, hagain, hsel, hclears, hwrites, hper, hretry]

variable (hretry : (ligSt s k).retry = none)
include hretry

theorem ligNext_of_pod {a : Nat} (hpod : nextPod s k (ligSt s k).last = some a) (ha : (ligSt s k).last < a) :
    ligNext k s = serveA k (fun b => { b with last := a }) (.poll a) s := by
  rcases hidle with hcur | hcur | ⟨v, hcur⟩ <;>
    simp [ligNext, serveA, hon, hcur, hfv, hagain, hsel, hclears, hwrites, hper, hretry, hpod, ha]

/-- The poll of a pod that is not after the last one begins a round: `up` shows whether a pod answered in the round before. -/
theorem ligNext_of_round {a : Nat} (hpod : nextPod s k (ligSt s k).last = some a) (ha : a ≤ (ligSt s k).last) :
    ligNext k s = seq [setF (F.GATE_LIG_STAT_up k) (b2n (ligSt s k).ans),
      ligA k (fun b => { b with last := a, ansLast := b.ans, ans := false }), ligBegin k (.poll a)] s := by
  rcases hidle with hcur | hcur | ⟨v, hcur⟩ <;>
    simp [ligNext, hon, hcur, hfv, hagain, hsel, hclears, hwrites, hper, hretry, hpod, ha]

end

section
variable {s : State} {k : Fin 4} {f : LigFrame}

theorem exec_ligNextFrame (k : Fin 4) (s : State) : exec (.ligNextFrame k) s = finish (ligNext k) s := rfl

/-- A bus whose schedule serves frame `f` sends it. -/
theorem completes_ligNext_serves {g : LigSt → LigSt} (hrun : ligNext k s = serveA k g f s) {b : LigSt}
    (hb : begun f s.now (g (ligSt s k)) = b) : Completes (.ligNextFrame k) s (Sets [] (withLig s k b) s) := by
  subst hb
  refine completes_above ?_ trivial (exec_ligNextFrame k s)
  rw [Act.run, hrun]
  exact sets_serveA k g f s

theorem completes_ligNext_retry {a : Nat} (hrun : ligNext k s = ligBegin k (.poll a) s) :
    Completes (.ligNextFrame k) s (Sets [] (withLig s k { ligSt s k with cur := some (.poll a), curT := s.now }) s) := by
  refine completes_above ?_ trivial (exec_ligNextFrame k s)
  rw [Act.run, hrun]
  exact sets_ligBegin k (.poll a) s

theorem completes_ligNext_round {a : Nat} (hrun : ligNext k s = seq [setF (F.GATE_LIG_STAT_up k) (b2n (ligSt s k).ans),
      ligA k (fun b => { b with last := a, ansLast := b.ans, ans := false }), ligBegin k (.poll a)] s) :
    Completes (.ligNextFrame k) s (Sets [(F.GATE_LIG_STAT_up k, b2n (ligSt s k).ans)] (withLig s k
      { ligSt s k with last := a, ansLast := (ligSt s k).ans, ans := false, cur := some (.poll a), curT := s.now }) s) := by
  refine completes_above ?_ ⟨.add (.add rfl), trivial⟩ (exec_ligNextFrame k s)
  rw [Act.run, hrun]
  show Sets _ _ s ((seq _).run s)
  rw [run_seq_cons, run_seq_cons, run_seq_cons, run_seq_nil]
  have hround : Sets [(F.GATE_LIG_STAT_up k, b2n (ligSt s k).ans)] (withLig s k _) s _ :=
    (Sets.setF (F.GATE_LIG_STAT_up k) (b2n (ligSt s k).ans) s).then_ligA k
      fun b => { b with last := a, ansLast := b.ans, ans := false }
  exact hround.lig_then_begin (.poll a)

/-! ### Fault vectors of the pods -/

theorem completes_faultVectorPoll (hon : busOn s k = true) :
    Completes (.faultVectorPoll k) s (Sets [] (withLig s k { ligSt s k with fvPer := true }) s) := by
  refine completes_above (a := vectorPoll k) ?_ trivial rfl
  rw [vectorPoll, run_whenA, if_pos hon]
  exact sets_ligA k _ s

theorem completes_podFaultVectorStart_free (hon : busOn s k = true) (hcur : ligCur s k = none) :
    Completes (.podFaultVectorStart k) s (Sets [] (withLig s k { ligSt s k with cur := some .vector, curT := s.now }) s) := by
  refine completes_above (a := vectorStart k) ?_ trivial rfl
  have hrun : vectorStart k s = ligBegin k .vector s := by simp [vectorStart, hon, hcur]
  rw [Act.run, hrun]
  exact sets_ligBegin k .vector s

/-- The frame begins a poll of the fault vector after it (R222). -/
def LigFrame.isClear (f : LigFrame) : Bool :=
  match f with
  | .clear _ => true
  | _ => false

/-- What a bus holds when a pod's vector has broken frame `f`. -/
def broken (f : LigFrame) (b : LigSt) : LigSt :=
  { b with again := some f, fvReq := match f with | .clear _ => false | _ => b.fvReq }

theorem broken_eq (f : LigFrame) (b : LigSt) : broken f b = { b with again := some f, fvReq := b.fvReq && !f.isClear } := by
  cases f <;> simp [broken, LigFrame.isClear]

theorem completes_podFaultVectorStart_breaks (hon : busOn s k = true) (hcur : ligCur s k = some f) (hf : f ≠ .vector) :
    Completes (.podFaultVectorStart k) s (Sets [countOne s (R.GATE_LIG_ABORT k)]
      (withLig s k (broken f { ligSt s k with cur := some .vector, curT := s.now })) s) := by
  refine completes_above (a := vectorStart k) ?_ ⟨.add (.add rfl), trivial⟩ rfl
  have hrun : (vectorStart k).run s = (seq [bump (R.GATE_LIG_ABORT k), ligBegin k .vector, ligA k (broken f)]).run s := by
    cases f
    case vector => exact absurd rfl hf
    all_goals simp [Act.run, vectorStart, hon, hcur]; rfl
  rw [hrun, run_seq_cons, run_seq_cons, run_seq_cons, run_seq_nil, run_ligBegin]
  have hcount := sets_countOne (R.GATE_LIG_ABORT k) s
  rw [hcount.now_eq]
  have hbegin : Sets [countOne s (R.GATE_LIG_ABORT k)] (withLig s k _) s _ := hcount.then_ligA k (begun .vector s.now)
  exact hbegin.lig_then_ligA (broken f)

end

/-! ### A frame without an answer (R223) -/

section
variable {s : State} {k : Fin 4} (hrx : busRx s k = true)

theorem exec_podAnswerTimeout (k : Fin 4) (s : State) : exec (.podAnswerTimeout k) s = finish (answerTimeout k) s := rfl

include hrx

/-- A SELECT draws no answer. -/
theorem completes_answerTimeout_none (hcur : (ligSt s k).cur = none ∨ ∃ v, (ligSt s k).cur = some (.select v)) :
    Completes (.podAnswerTimeout k) s (Sets [] s.hid s) := by
  refine completes_above ?_ trivial (exec_podAnswerTimeout k s)
  have hrun : answerTimeout k s = [] := by
    rcases hcur with hcur | ⟨v, hcur⟩ <;> simp [answerTimeout, hrx, hcur]
  rw [Act.run, hrun]
  exact Sets.refl s

theorem completes_answerTimeout_write {pod x data : Nat} (hcur : (ligSt s k).cur = some (.write pod x data)) :
    Completes (.podAnswerTimeout k) s (Sets [countOne s (R.GATE_LIG_ERR k)] (withLig s k { ligSt s k with cur := none }) s) := by
  refine completes_above ?_ ⟨.add (.add rfl), trivial⟩ (exec_podAnswerTimeout k s)
  have hrun : (answerTimeout k).run s = (seq [bump (R.GATE_LIG_ERR k), ligA k fun b => { b with cur := none }]).run s := by
    simp [Act.run, answerTimeout, hrx, hcur]
  rw [hrun, run_seq_cons, run_seq_cons, run_seq_nil]
  exact (sets_countOne _ s).then_ligA k _

/-- What a bus holds when a POLL of pod `a` has failed. -/
def pollFailed (a : Nat) (b : LigSt) : LigSt :=
  { b with cur := none, fails := b.fails.put 0 a (min 3 (b.fails.get 0 a + 1)), retry := if b.retry = some a then none else some a }

/-- The bits that show a pod lost. -/
def podLostA (s : State) (k a : Nat) : Act :=
  seq [setB (lostBit k a), setB (F.GATE_CH_FAULT_lost (12 * k + a)),
    only (!s.on (F.GATE_CH_FAULT_lost (12 * k + a))) (setB (F.GATE_CH_EVENT_lost (12 * k + a)))]

omit hrx in
theorem sets_pollFails (k a : Nat) (s : State) : Sets [countOne s (R.GATE_LIG_ERR k)] (withLig s k (pollFailed a (ligSt s k))) s
    ((seq [bump (R.GATE_LIG_ERR k), ligA k fun b => { b with
      cur := none, fails := b.fails.put 0 a (min 3 ((ligSt s k).fails.get 0 a + 1)),
      retry := if b.retry = some a then none else some a }]).run s) := by
  rw [run_seq_cons, run_seq_cons, run_seq_nil]
  exact (sets_countOne _ s).then_ligA k _

theorem run_answerTimeout_poll {a : Nat} (hcur : (ligSt s k).cur = some (.poll a)) : (answerTimeout k).run s =
    (only (3 ≤ (ligSt s k).fails.get 0 a + 1) (podLostA s k a)).run
      ((seq [bump (R.GATE_LIG_ERR k), ligA k fun b => { b with
        cur := none, fails := b.fails.put 0 a (min 3 ((ligSt s k).fails.get 0 a + 1)),
        retry := if b.retry = some a then none else some a }]).run s) := by
  have hrun : answerTimeout k s = seq [bump (R.GATE_LIG_ERR k), ligA k fun b => { b with
      cur := none, fails := b.fails.put 0 a (min 3 ((ligSt s k).fails.get 0 a + 1)),
      retry := if b.retry = some a then none else some a }, only (3 ≤ (ligSt s k).fails.get 0 a + 1) (podLostA s k a)] s := by
    simp only [answerTimeout, hrx, hcur, Bool.not_true, Bool.false_eq_true, if_false]
    rfl
  rw [Act.run, hrun]
  show (seq _).run s = _
  simp only [run_seq_cons, run_seq_nil]

theorem completes_answerTimeout_poll {a : Nat} (hcur : (ligSt s k).cur = some (.poll a)) (hf : (ligSt s k).fails.get 0 a < 2) :
    Completes (.podAnswerTimeout k) s (Sets [countOne s (R.GATE_LIG_ERR k)] (withLig s k (pollFailed a (ligSt s k))) s) := by
  refine completes_above ?_ ⟨.add (.add rfl), trivial⟩ (exec_podAnswerTimeout k s)
  rw [run_answerTimeout_poll hrx hcur, run_only, if_neg (by simp; omega)]
  exact sets_pollFails k a s

theorem completes_answerTimeout_lost {a : Nat} (hcur : (ligSt s k).cur = some (.poll a)) (hf : 2 ≤ (ligSt s k).fails.get 0 a)
    (hlost : s.on (F.GATE_CH_FAULT_lost (12 * k + a)) = false) :
    Completes (.podAnswerTimeout k) s (Sets [countOne s (R.GATE_LIG_ERR k), (lostBit k a, 1), (F.GATE_CH_FAULT_lost (12 * k + a), 1),
      (F.GATE_CH_EVENT_lost (12 * k + a), 1)] (withLig s k (pollFailed a (ligSt s k))) s) := by
  refine completes_above ?_ ⟨.add (.add rfl), .add (.add rfl), .add (.add rfl), .add (.add rfl), trivial⟩ (exec_podAnswerTimeout k s)
  rw [run_answerTimeout_poll hrx hcur, run_only, if_pos (by simp; omega), podLostA, hlost, run_seq_cons, run_seq_cons, run_seq_cons,
    run_seq_nil, run_only, Bool.not_false, if_pos rfl]
  exact (((sets_pollFails k a s).then_setF _ 1).then_setF _ 1).then_setF _ 1

end


/-! ### CLEARs, tries and profiles (R226, R227, R233, R234) -/

/-- What a bus holds when a CLEAR of pod `a` waits. -/
def clearing (a : Nat) (b : LigSt) : LigSt := { b with clears := if b.clears.contains a then b.clears else b.clears ++ [a] }

section
variable {s : State} {n : Fin 48}

theorem exec_autoClearTimer (n : Fin 48) (s : State) : exec (.autoClearTimer n) s = finish (autoClear n) s := rfl

section
variable (hon : busOn s (n / 12) = true) (hlatched : s.on (F.GATE_CH_FAULT_latched n) = true) (htries : s.f (F.GATE_CH_CFG_tries n) ≠ 0)

theorem completes_autoClear_now (hnow : (s.hid.pod.get {} n).clrT.any (sameLig s (n / 24)) = true) :
    Completes (.autoClearTimer n) s (Sets [] s.hid s) := by
  refine completes_above ?_ trivial (exec_autoClearTimer n s)
  have hrun : autoClear n s = [] := if_pos (.inr (.inr (.inr hnow)))
  rw [Act.run, hrun]
  exact Sets.refl s

variable (hnow : (s.hid.pod.get {} n).clrT.any (sameLig s (n / 24)) = false)
include hon hlatched htries hnow

/-- The timer acts. -/
theorem autoClear_eq : autoClear n s = if s.f (F.GATE_CH_FAULT_tries_used n) < s.f (F.GATE_CH_CFG_tries n) then
    seq [queueClear n, setF (F.GATE_CH_FAULT_tries_used n) (s.f (F.GATE_CH_FAULT_tries_used n) + 1)] s else podStuck n s := by
  unfold autoClear
  simp only
  rw [if_neg]
  simp [hon, hlatched, htries, hnow]

theorem completes_autoClear_try (hused : s.f (F.GATE_CH_FAULT_tries_used n) < s.f (F.GATE_CH_CFG_tries n)) :
    Completes (.autoClearTimer n) s (Sets [(F.GATE_CH_FAULT_tries_used n, s.f (F.GATE_CH_FAULT_tries_used n) + 1)]
      (withLig s (n / 12) (clearing (n % 12) (ligSt s (n / 12)))) s) := by
  refine completes_above ?_ ⟨.add (.add rfl), trivial⟩ (exec_autoClearTimer n s)
  rw [Act.run, autoClear_eq hon hlatched htries hnow, if_pos hused]
  show Sets _ _ s ((seq _).run s)
  rw [run_seq_cons, run_seq_cons, run_seq_nil]
  exact (sets_ligA (n / 12) (clearing (n % 12)) s).then_setF _ _

theorem completes_autoClear_stuck (hused : s.f (F.GATE_CH_CFG_tries n) ≤ s.f (F.GATE_CH_FAULT_tries_used n)) :
    Completes (.autoClearTimer n) s (Sets [(F.GATE_CH_FAULT_stuck n, 1), (F.GATE_CH_EVENT_stuck n, 1)] s.hid s) := by
  refine completes_above ?_ ⟨.add (.add rfl), .add (.add rfl), trivial⟩ (exec_autoClearTimer n s)
  rw [Act.run, autoClear_eq hon hlatched htries hnow, if_neg (Nat.not_lt.2 hused)]
  show Sets _ _ s ((podStuck n).run s)
  rw [podStuck, run_whenA, if_pos (decide_eq_true ⟨htries, hused⟩), run_seq_cons, run_seq_cons, run_seq_nil]
  exact (Sets.setF _ 1 s).then_setF _ 1

end

theorem completes_triesReset (hon : busOn s (n / 12) = true) (hslot : bit (s.f (F.GATE_LIG_STAT_fv (n / 12))) (n % 12) = false) :
    Completes (.triesResetTimer n) s (Sets [(F.GATE_CH_FAULT_tries_used n, 0)] s.hid s) := by
  refine completes_above (a := triesReset n) ?_ ⟨.add (.add rfl), trivial⟩ rfl
  rw [triesReset, run_whenA, if_pos (by simp [hon, hslot])]
  exact Sets.setF _ 0 s

/-- The block state after the host's `clr`: its time is noted, and a bus that runs queues the CLEAR. -/
def clearedHid (s : State) (n : Nat) : Hid :=
  { (if busOn s (n / 12) then withLig s (n / 12) (clearing (n % 12) (ligSt s (n / 12))) else s.hid) with
    pod := s.hid.pod.put {} n { s.hid.pod.get {} n with clrT := some s.now } }

theorem sets_faultClr {v : Word} (n : Nat) (hv : v.getLsbD 31 = true) (s : State) :
    Sets [(F.GATE_CH_FAULT_tries_used n, 0), (F.GATE_CH_FAULT_stuck n, 0)] (clearedHid s n) s ((faultClr n v).run s) := by
  rw [faultClr, run_only, if_pos hv, run_seq_cons, run_seq_cons, run_seq_cons, run_seq_cons, run_seq_nil, run_withS, run_whenA]
  have hfields := (Sets.setF (F.GATE_CH_FAULT_tries_used n) 0 s).then_setF (F.GATE_CH_FAULT_stuck n) 0
  rw [← clrB_eq] at hfields
  generalize (clrB (F.GATE_CH_FAULT_stuck n)).run _ = t at hfields
  have hnoted := hfields.then_podA n fun p => { p with clrT := some t.now }
  rw [hfields.now_eq] at hnoted ⊢
  generalize (podA n _).run t = u at hnoted
  have hbus : busOn u (n / 12) = busOn s (n / 12) := by
    refine busOn_congr ?_ ?_ (congrArg Hid.pwr hnoted.hid_eq :) <;> rw [hnoted.rd_eq, fieldWord_of_forall_ne] <;>
      simp [F.GATE_CH_FAULT_tries_used, F.GATE_CH_FAULT_stuck, R.GATE_CH_FAULT, R.GATE_LIG_CFG, R.SYS_ISLAND_EN]
    · omega
    · omega
  rw [hbus, clearedHid]
  cases busOn s (n / 12)
  · exact hnoted
  · exact hnoted.then_ligA _ (clearing (n % 12))

theorem completes_faultClr {p : Port} {v : Word} (hl : Live p s (R.GATE_CH_FAULT n) = true) (hv : v.getLsbD 31 = true) :
    Completes (.faultClr p n v) s (Sets [(F.GATE_CH_FAULT_tries_used n, 0), (F.GATE_CH_FAULT_stuck n, 0)] (clearedHid s n) s) :=
  completes_portGate hl rfl (sets_faultClr n hv s) (FieldsAbove.ne ⟨.add (.add rfl), .add (.add rfl), trivial⟩ (by decide))

end

/-! ### Profiles (R227) -/

section
variable {p : Port} {s : State} {n : Fin 48} {x : Fin 24} {v : Word} (hl : Live p s (R.GATE_CH_PROF n x) = true)

theorem exec_profileWrite (p : Port) (n : Fin 48) (x : Fin 24) (v : Word) (s : State) :
    exec (.profileWrite p n x v) s = finish (portGate p (R.GATE_CH_PROF n x) (profileWrite n x v)) s := rfl

theorem toNat_and_low_half (v : Word) : (v &&& 0xFFFF#32).toNat = v.toNat % 2 ^ 16 := by
  rw [BitVec.toNat_and]
  exact Nat.and_two_pow_sub_one_eq_mod _ 16

/-- The profile word is stored; what a pod has is read from another register. -/
theorem sets_profileStored (n x : Nat) (v : Word) (s : State) :
    Sets [(wordFld (R.GATE_CH_PROF n x), v.toNat % 2 ^ 16)] s.hid s ((setW (R.GATE_CH_PROF n x) (v &&& 0xFFFF#32)).run s) :=
  (Sets.setW _ _ s).cast (by rw [toNat_and_low_half]) rfl

theorem profile_rd_of_ne {l : Nat} {t : State} {n x off : Nat} (ht : Sets [(wordFld (R.GATE_CH_PROF n x), l)] s.hid s t)
    (h : off ≠ R.GATE_CH_PROF n x) : t.rd off = s.rd off := by
  rw [ht.rd_eq, fieldWord_of_forall_ne]
  simpa [wordFld] using h.symm

theorem podHas_profile {n : Nat} {x : Fin 24} : podHas s n x = decide (x.val / 3 % 4 ≤ s.f (F.GATE_CH_CFG_nprof n)) := by
  have hx := x.isLt
  simp [podHas, Nat.not_le.2 hx]

theorem chCfg_ne_prof (n x : Nat) : R.GATE_CH_CFG n ≠ R.GATE_CH_PROF n x := by
  simp only [R.GATE_CH_CFG, R.GATE_CH_PROF]
  omega

theorem chStat_ne_prof (n x : Nat) : R.GATE_CH_STAT n ≠ R.GATE_CH_PROF n x := by
  simp only [R.GATE_CH_STAT, R.GATE_CH_PROF]
  omega

/-- A WRITE is sent for the profile register. -/
def Sends (s : State) (n x : Nat) : Prop := podPresent s n = true ∧ x / 3 % 4 ≤ s.f (F.GATE_CH_CFG_nprof n)

theorem sends_iff {t : State} (ht : Sets [(wordFld (R.GATE_CH_PROF n x), v.toNat % 2 ^ 16)] s.hid s t) :
    podPresent t n = true ∧ podHas t n x = true ↔ Sends s n x := by
  have hcfg := profile_rd_of_ne ht (chCfg_ne_prof n x)
  rw [podPresent_congr hcfg, podHas_profile, f_of_rd_eq (x := F.GATE_CH_CFG_nprof n) hcfg, decide_eq_true_iff, Sends]

include hl

theorem completes_profileWrite_kept (hs : ¬ Sends s n x) : Completes (.profileWrite p n x v) s
    (Sets [(wordFld (R.GATE_CH_PROF n x), v.toNat % 2 ^ 16)] s.hid s) := by
  refine completes_portGate hl (exec_profileWrite p n x v s) ?_ (FieldsAbove.ne ⟨.add (.add (.add rfl)), trivial⟩ (by decide))
  have hstored := sets_profileStored n x v s
  rw [profileWrite, run_seq_cons, run_seq_cons, run_seq_nil, run_podWrite_none (mt (sends_iff hstored).1 hs)]
  exact hstored

/-- The profile word is stored and its WRITE queued. -/
theorem completes_profileWrite_sent (hs : Sends s n x) : Completes (.profileWrite p n x v) s fun t => ∃ u,
    Sets [(wordFld (R.GATE_CH_PROF n x), v.toNat % 2 ^ 16)] s.hid s u ∧
    Sets [(wordFld (R.GATE_CH_PROF n x), v.toNat % 2 ^ 16), (F.GATE_CH_STAT_in_sync n, 0)] (queuedHid u n x) s t := by
  have hstored := sets_profileStored n x v s
  generalize hu : (setW (R.GATE_CH_PROF n x) (v &&& 0xFFFF#32)).run s = u at hstored
  obtain ⟨hp, hx⟩ := (sends_iff hstored).2 hs
  have hsent := hstored.trans (sets_podWrite hp hx)
  have hrun : (profileWrite n x v).run s = (podWrite n x).run u := by
    rw [profileWrite, run_seq_cons, run_seq_cons, run_seq_nil, hu]
  rw [← hrun] at hsent
  obtain ⟨t, ht, hset⟩ := completes_portGate hl (exec_profileWrite p n x v s) hsent
    (FieldsAbove.ne ⟨.add (.add (.add rfl)), .add (.add rfl), trivial⟩ (by decide))
  exact ⟨t, ht, u, hstored, hset⟩

end

/-- What a profile write that is sent leaves (R227). -/
theorem profile_sent {s u t : State} {n x : Nat} {v : Word} (hx : x < 24)
    (hu : Sets [(wordFld (R.GATE_CH_PROF n x), v.toNat % 2 ^ 16)] s.hid s u)
    (ht : Sets [(wordFld (R.GATE_CH_PROF n x), v.toNat % 2 ^ 16), (F.GATE_CH_STAT_in_sync n, 0)] (queuedHid u n x) s t) :
    (t.rd (R.GATE_CH_PROF n x)).toNat = v.toNat % 2 ^ 16 ∧ t.on (F.GATE_CH_STAT_in_sync n) = false ∧
    bit (t.hid.pod.get {} n).unack x = true ∧ (ligSt t (n / 12)).writes = writesWith (ligSt s (n / 12)) n x (v.toNat % 2 ^ 16) := by
  have hprof (w : State) (l : List (Fld × Nat)) (h : Hid) (hw : Sets ((wordFld (R.GATE_CH_PROF n x), v.toNat % 2 ^ 16) :: l) h s w)
      (hl : ∀ y ∈ l, y.1.off ≠ R.GATE_CH_PROF n x) : (w.rd (R.GATE_CH_PROF n x)).toNat = v.toNat % 2 ^ 16 := by
    rw [hw.rd_eq, fieldWord_cons, fieldWord_of_forall_ne hl, ← toNat_and_low_half]
    exact congrArg BitVec.toNat ((if_pos rfl).trans (put_word _ _ _))
  have hreg : podReg u n x = v.toNat % 2 ^ 16 := by
    rw [podReg, if_pos hx, hprof u [] _ hu (by simp), Nat.mod_mod]
  refine ⟨hprof t _ _ ht (List.forall_mem_singleton.2 (chStat_ne_prof n x)), ?_, ?_, ?_⟩
  · refine (ht.setsBut fun _ => False).on_of_mem (v := 0) not_false (by simp) (fun y hy => ?_) rfl (Nat.zero_le 31)
    rcases List.mem_cons.1 hy with rfl | hy
    · exact .inr (.inl (chStat_ne_prof n x).symm)
    · exact .inl (List.mem_singleton.1 hy)
  · rw [ht.hid_eq, queuedHid, pod_get_put]
    exact bit_putBit_self _ _ _
  · rw [ligSt_queuedHid ht.hid_eq, hreg, ligSt, hu.hid_eq]
    rfl

theorem profileFrame {s u t : State} {n x v : Nat} (hu : Sets [(wordFld (R.GATE_CH_PROF n x), v)] s.hid s u)
    (ht : Sets [(wordFld (R.GATE_CH_PROF n x), v), (F.GATE_CH_STAT_in_sync n, 0)] (queuedHid u n x) s t) :
    Frame (fun off => off = R.GATE_CH_PROF n x ∨ off = R.GATE_CH_STAT n) { s.hid with lig := t.hid.lig, pod := t.hid.pod } s t := by
  obtain ⟨hmem, hnow, hresp, hsnap, hlatch, hpending⟩ := ht.sameAside
  refine ⟨ht.keepRegs ?_, hmem, hnow, ?_, hresp, hsnap, hlatch, hpending⟩
  · exact List.forall_mem_cons.2 ⟨.inl rfl, List.forall_mem_singleton.2 (.inr rfl)⟩
  · rw [ht.hid_eq, queuedHid, withLig, hu.hid_eq]

/-! ### A bus that is disabled (R233) -/

theorem andNot_one_div (v : Word) {i : Nat} (hi : (~~~ 1#32).toNat / 2 ^ i = 2 ^ (32 - i) - 1) (hle : i ≤ 32) :
    (v &&& ~~~ 1#32).toNat / 2 ^ i = v.toNat / 2 ^ i := by
  have hlt : v.toNat / 2 ^ i < 2 ^ (32 - i) := by
    rw [Nat.div_lt_iff_lt_mul (Nat.two_pow_pos i), ← Nat.pow_add, Nat.sub_add_cancel hle]
    exact v.isLt
  rw [BitVec.toNat_and, Nat.and_div_two_pow, hi, Nat.and_two_pow_sub_one_eq_mod, Nat.mod_eq_of_lt hlt]

theorem andNot_one_bit (v : Word) : (v &&& ~~~ 1#32).getLsbD 0 = false := by simp

/-- The fields that a write of `GATE_LIG[k]_CFG` that disables the bus sets. -/
def disableFields (k sel poll : Nat) : List (Fld × Nat) :=
  [(F.GATE_LIG_CFG_sel_eu k, sel), (F.GATE_LIG_CFG_fv_poll k, poll), (F.GATE_LIG_CFG_en k, 0), (F.GATE_LIG_STAT_up k, 0)]

/-- What a bus that is disabled keeps: its queued WRITEs, the frame in progress, and the counts of its pods. -/
def ended (b : LigSt) : LigSt :=
  { b with again := none, fvReq := false, sel := none, clears := [], fvPer := false, retry := none, ans := false, ansLast := false }

/-- A field takes the low bits of a value alone. -/
theorem setF_congr {x : Fld} {v w : Nat} (h : v % 2 ^ (x.hi + 1 - x.lo) = w % 2 ^ (x.hi + 1 - x.lo)) : setF x v = setF x w := by
  unfold setF Fld.put
  rw [h]

theorem run_ligCfgWrite (k : Nat) (w : Word) (s : State) : (ligCfgWrite k w).run s =
    (seq [setF (F.GATE_LIG_CFG_sel_eu k) (w.toNat / 2 ^ 16), setF (F.GATE_LIG_CFG_fv_poll k) (w.toNat / 2 ^ 8),
      setF (F.GATE_LIG_CFG_en k) w.toNat,
      if w.getLsbD 0 then only (!s.on (F.GATE_LIG_CFG_en k)) (ligA k fun b => { b with fvReq := true }) else ligEnd k]).run s := rfl

/-- A write with `en` clear. -/
theorem sets_ligCfgWrite_disable {w : Word} {sel poll : Nat} (hsel : w.toNat / 2 ^ 16 = sel) (hpoll : w.toNat / 2 ^ 8 = poll)
    (hen : w.getLsbD 0 = false) (k : Nat) (s : State) :
    Sets (disableFields k sel poll) (withLig s k (ended (ligSt s k))) s ((ligCfgWrite k w).run s) := by
  have hset : setF (F.GATE_LIG_CFG_en k) w.toNat = setF (F.GATE_LIG_CFG_en k) 0 := setF_congr (mod_two_of_getLsbD hen)
  rw [run_ligCfgWrite, hsel, hpoll, hset, if_neg (Bool.not_eq_true _ ▸ hen), run_seq_cons, run_seq_cons, run_seq_cons, run_seq_cons,
    run_seq_nil, ligEnd, run_seq_cons, run_seq_cons, run_seq_nil]
  exact ((((Sets.setF _ sel s).then_setF _ poll).then_setF _ 0).then_setF _ 0).then_ligA k ended

theorem completes_ligDisable {p : Port} {s : State} {k : Fin 4} (v : Word) (hl : Live p s (R.GATE_LIG_CFG k) = true) :
    Completes (.ligDisable p k v) s (Sets (disableFields k (v.toNat / 2 ^ 16) (v.toNat / 2 ^ 8)) (withLig s k (ended (ligSt s k))) s) :=
  completes_portGate hl rfl (sets_ligCfgWrite_disable (andNot_one_div v (by decide) (by decide)) (andNot_one_div v (by decide) (by decide))
    (andNot_one_bit v) k s) (FieldsAbove.ne ⟨.add (.add rfl), .add (.add rfl), .add (.add rfl), .add (.add rfl), trivial⟩ (by decide))

/-- Where no vector is wanted, the frame that begins wants one only if it is a CLEAR. -/
theorem begun_of_not_wanted {f : LigFrame} {now : BitVec 64} {b : LigSt} (hfv : b.fvReq = false) :
    begun f now b = { b with cur := some f, curT := now, fvReq := f.isClear } := by
  cases f <;> simp [begun, LigFrame.isClear, hfv]

/-- Settles O29: each class of frames is served where none of those before it waits; the other clauses go command by command. -/
theorem ligatureServesFramesAndQueuesClears : Obligations.LigatureServesFramesAndQueuesClears := by
  unfold Obligations.LigatureServesFramesAndQueuesClears
  refine ⟨fun s k => ⟨fun hon => ⟨completes_faultVectorPoll hon, completes_podFaultVectorStart_free hon, ?_, ?_, ?_, ?_, ?_⟩,
    fun hrx => ⟨completes_answerTimeout_none hrx, fun _ _ _ => completes_answerTimeout_write hrx, fun a hcur =>
      ⟨completes_answerTimeout_poll hrx hcur, fun hf _ => completes_answerTimeout_lost hrx hcur hf⟩⟩⟩, ?_, ?_, ?_, ?_, ?_⟩
  · intro f hcur hf
    have hbreaks := completes_podFaultVectorStart_breaks hon hcur hf
    rwa [broken_eq] at hbreaks
  · exact fun hidle hfv => completes_ligNext_serves (ligNext_of_wanted hon hidle hfv) rfl
  · exact fun hidle hfv f hagain => completes_ligNext_serves (ligNext_of_broken hon hidle hfv hagain)
      (begun_of_not_wanted hfv)
  · exact fun hidle hfv hagain v hsel => completes_ligNext_serves (ligNext_of_select hon hidle hfv hagain hsel) rfl
  · intro hidle hfv hagain hsel
    refine ⟨fun a as hclears => ?_, fun w ws hclears hwrites => ?_, fun hclears hwrites hper => ?_,
      fun a hclears hwrites hper hretry => ?_, fun a hclears hwrites hper hretry hpod => ⟨fun ha => ?_, fun ha => ?_⟩⟩
    · exact completes_ligNext_serves (ligNext_of_clear hon hidle hfv hagain hsel hclears) rfl
    · exact completes_ligNext_serves (ligNext_of_write hon hidle hfv hagain hsel hclears hwrites) rfl
    · exact completes_ligNext_serves (ligNext_of_periodic hon hidle hfv hagain hsel hclears hwrites hper) rfl
    · exact completes_ligNext_retry (ligNext_of_retry hon hidle hfv hagain hsel hclears hwrites hper hretry)
    · exact completes_ligNext_serves (ligNext_of_pod hon hidle hfv hagain hsel hclears hwrites hper hretry hpod ha) rfl
    · exact completes_ligNext_round (ligNext_of_round hon hidle hfv hagain hsel hclears hwrites hper hretry hpod ha)
  · exact fun s n hon hlatched htries => ⟨completes_autoClear_now, completes_autoClear_try hon hlatched htries,
      completes_autoClear_stuck hon hlatched htries⟩
  · exact fun s n => completes_triesReset
  · exact fun s p n v => completes_faultClr
  · intro s p n x v hl
    refine ⟨completes_profileWrite_kept hl, fun hs => ?_⟩
    obtain ⟨t, ht, u, hu, hset⟩ := completes_profileWrite_sent hl hs
    obtain ⟨hprof, hsync, hunack, hwrites⟩ := profile_sent x.isLt hu hset
    refine ⟨t, ht, hprof, hsync, hunack, ?_, ?_, ?_⟩
    · rw [hwrites]
      exact mem_writesWith _ _ _ _
    · rw [hwrites]
      exact fun w => value_of_mem_writesWith
    · exact profileFrame hu hset
  · exact fun s p k v => completes_ligDisable v

end Sys2Proof.Machine
end

section
/-!
The answers of the pods: what a good answer ends, what a TELEM and an ACK register, and the rewriting of a pod that has lost its settings.
-/

namespace Sys2Proof.Machine

/-! ### A good answer (R223) -/

/-- What a bus holds when pod `a` has answered: an answer to a POLL ends the run of failed polls. -/
def heard (a : Nat) (b : LigSt) : LigSt :=
  if b.cur = some (.poll a) then { b with
    cur := none, retry := if b.retry = some a then none else b.retry, fails := b.fails.put 0 a 0, ans := true }
  else { b with cur := none }

/-- The bits that show the pod of channel `n` lost are cleared. -/
def heardFields (n : Nat) : List (Fld × Nat) := [(lostBit (n / 12) (n % 12), 0), (F.GATE_CH_FAULT_lost n, 0)]

/-- The block state after a good answer of the pod of channel `n`. -/
def heardHid (s : State) (n : Nat) : Hid := withLig s (n / 12) (heard (n % 12) (ligSt s (n / 12)))

theorem sets_podAnswered (n : Nat) (s : State) : Sets (heardFields n) (heardHid s n) s ((podAnswered n).run s) := by
  rw [podAnswered, run_seq_cons, run_seq_cons, run_seq_cons, run_seq_nil]
  exact ((Sets.setF _ 0 s).then_setF _ 0).then_ligA _ (heard (n % 12))

theorem heard_of_not_poll {a : Nat} {b : LigSt} (h : b.cur ≠ some (.poll a)) : heard a b = { b with cur := none } := if_neg h

/-- Registers of the channel and of the bus other than those of the losses keep their words. -/
theorem rd_of_heard {n off : Nat} {h : Hid} {s t : State} (a : Sets (heardFields n) h s t) (hbus : off ≠ R.GATE_LIG_STAT (n / 12))
    (hch : off ≠ R.GATE_CH_FAULT n) : t.rd off = s.rd off := by
  rw [a.rd_eq, fieldWord_of_forall_ne]
  exact List.forall_mem_cons.2 ⟨hbus.symm, List.forall_mem_singleton.2 hch.symm⟩

theorem podReg_of_heard {n : Nat} {h : Hid} {s t : State} (a : Sets (heardFields n) h s t) (x : Nat) : podReg t n x = podReg s n x := by
  refine podReg_congr x (rd_of_heard a ?_ ?_) (rd_of_heard a ?_ ?_) (rd_of_heard a ?_ ?_) <;>
    simp only [R.GATE_CH_PROF, R.GATE_CH_DESAT, R.GATE_CH_SUPPLY, R.GATE_LIG_STAT, R.GATE_CH_FAULT] <;> omega

/-! ### The causes of a fault (R225) -/

def causeFields (n c : Nat) : List (Fld × Nat) :=
  [(F.GATE_CH_FAULT_desat n, c), (F.GATE_CH_FAULT_uv n, c / 2), (F.GATE_CH_FAULT_ot n, c / 4)]

/-- The block state after the causes are copied. -/
def causedHid (h : Hid) (n : Nat) : Hid := { h with pod := h.pod.put {} n { h.pod.get {} n with needCause := false } }

theorem sets_copyCauses (n c : Nat) (s : State) (hneed : (s.hid.pod.get {} n).needCause = true) :
    Sets (causeFields n c) (causedHid s.hid n) s ((copyCauses n c).run s) := by
  rw [copyCauses, run_whenA, if_pos hneed, run_seq_cons, run_seq_cons, run_seq_cons, run_seq_cons, run_seq_nil]
  exact (((Sets.setF _ _ s).then_setF _ _).then_setF _ _).then_podA n _

theorem run_copyCauses_none (n c : Nat) (s : State) (hneed : (s.hid.pod.get {} n).needCause = false) : (copyCauses n c).run s = s := by
  rw [copyCauses, run_whenA, if_neg (by simp [hneed])]

/-! ### ACK (R218, R225, R227) -/

/-- What a meaning answers depends on what it does in the state alone. -/
theorem finish_congr {a b : Act} {s : State} (h : a s = b s) : finish a s = finish b s := by
  unfold finish Act.run
  rw [h]

section
variable {s : State} {n : Fin 48} {addr : BitVec 8} {data : BitVec 16} {crc : BitVec 8}

/-- The CRC of a good ACK. -/
def ackCrc (a : Nat) (addr : BitVec 8) (data : BitVec 16) : BitVec 8 :=
  crc8OfBits (ligBody a 5 (msbFirst 8 addr.toNat ++ msbFirst 16 data.toNat))

theorem exec_ack (n : Fin 48) (addr : BitVec 8) (data : BitVec 16) (crc : BitVec 8) (s : State) :
    exec (.ack n addr data crc) s = finish (ackRx n addr data crc) s := rfl

variable (hrx : busRx s (n / 12) = true) (hp : podPresent s n = true)
include hrx hp

theorem ackRx_of_bad {x v : Nat} (hcur : (ligSt s (n / 12)).cur = some (.write (n % 12) x v)) (hcrc : crc ≠ ackCrc (n % 12) addr data) :
    ackRx n addr data crc s = answerTimeout (n / 12) s := by
  rw [ackCrc] at hcrc
  simp [ackRx, hrx, hp, hcur, hcrc]

theorem ackRx_of_write {x v : Nat} (hcur : (ligSt s (n / 12)).cur = some (.write (n % 12) x v)) :
    ackRx n addr data (ackCrc (n % 12) addr data) s =
      seq [podAnswered n, only (addr.toNat = x ∧ data.toNat = v) (podAcked n x v)] s := by
  simp [ackRx, hrx, hp, hcur, ackCrc]

theorem ackRx_of_clear (hcur : (ligSt s (n / 12)).cur = some (.clear (n % 12))) :
    ackRx n addr data (ackCrc (n % 12) addr data) s =
      seq [podAnswered n, only (addr = 0xFF#8) (copyCauses n data.toNat)] s := by
  simp [ackRx, hrx, hp, hcur, ackCrc]

/-- The block state after pod register `x` of channel `n` is acknowledged. -/
def ackedHid (s : State) (n x : Nat) : Hid :=
  { withLig s (n / 12) { ligSt s (n / 12) with cur := none } with
    pod := s.hid.pod.put {} n { s.hid.pod.get {} n with unack := putBit (s.hid.pod.get {} n).unack x false } }

/-- What an ACK that returns the value sent leaves: the register is acknowledged, and with the last of them the pod is in step. -/
theorem completes_ack_same (hcur : (ligSt s (n / 12)).cur = some (.write (n % 12) addr.toNat data.toNat))
    (hreg : data.toNat = podReg s n addr.toNat) : Completes (.ack n addr data (ackCrc (n % 12) addr data)) s
      (Sets (heardFields n ++ if putBit (s.hid.pod.get {} n).unack addr.toNat false = 0 then [(F.GATE_CH_STAT_in_sync n, 1)] else [])
        (ackedHid s n addr.toNat) s) := by
  have hheard := sets_podAnswered n s
  generalize hu : (podAnswered n).run s = u at hheard
  have hacked := hheard.then_podA n fun p => { p with unack := putBit p.unack addr.toNat false }
  generalize hv : (podA n _).run u = v at hacked
  have hrun : (ackRx n addr data (ackCrc (n % 12) addr data)).run s =
      (whenA (fun t => (t.hid.pod.get {} n).unack = 0) (setB (F.GATE_CH_STAT_in_sync n))).run v := by
    rw [Act.run, ackRx_of_write hrx hp hcur]
    show (seq _).run s = _
    rw [run_seq_cons, run_seq_cons, run_seq_nil, hu, run_only, if_pos (by simp), podAcked, run_whenA,
      if_pos (decide_eq_true ((podReg_of_heard hheard _).trans hreg.symm)), run_seq_cons, run_seq_cons, run_seq_nil, hv]
  replace hacked := hacked.cast (h' := ackedHid s n addr.toNat) rfl (by rw [heardHid, heard_of_not_poll (by simp [hcur])]; rfl)
  have hunack : (v.hid.pod.get {} n).unack = putBit (s.hid.pod.get {} n).unack addr.toNat false := by
    rw [hacked.hid_eq, ackedHid, pod_get_put]
  refine completes_above ?_ ?_ (exec_ack n addr data _ s)
  · rw [hrun, run_whenA, hunack]
    simp only [decide_eq_true_eq]
    by_cases hlast : putBit (s.hid.pod.get {} n).unack addr.toNat false = 0
    · rw [if_pos hlast, if_pos hlast]
      exact hacked.then_setF _ 1
    · rw [if_neg hlast, if_neg hlast, List.append_nil]
      exact hacked
  · split
    · exact ⟨.add (.add rfl), .add (.add rfl), .add (.add rfl), trivial⟩
    · exact ⟨.add (.add rfl), .add (.add rfl), trivial⟩

/-- A register that was written again meanwhile is not acknowledged. -/
theorem completes_ack_other (hcur : (ligSt s (n / 12)).cur = some (.write (n % 12) addr.toNat data.toNat))
    (hreg : data.toNat ≠ podReg s n addr.toNat) : Completes (.ack n addr data (ackCrc (n % 12) addr data)) s
      (Sets (heardFields n) (withLig s (n / 12) { ligSt s (n / 12) with cur := none }) s) := by
  have hheard := sets_podAnswered n s
  refine completes_above ?_ ⟨.add (.add rfl), .add (.add rfl), trivial⟩ (exec_ack n addr data _ s)
  rw [Act.run, ackRx_of_write hrx hp hcur]
  show Sets _ _ s ((seq _).run s)
  rw [run_seq_cons, run_seq_cons, run_seq_nil, run_only, if_pos (by simp), podAcked, run_whenA,
    if_neg (by rw [podReg_of_heard hheard]; simpa using hreg.symm)]
  exact hheard.cast rfl (by rw [heardHid, heard_of_not_poll (by simp [hcur])])

theorem completes_ack_clear (hcur : (ligSt s (n / 12)).cur = some (.clear (n % 12))) (haddr : addr = 255#8)
    (hneed : (s.hid.pod.get {} n).needCause = true) : Completes (.ack n addr data (ackCrc (n % 12) addr data)) s
      (Sets (heardFields n ++ causeFields n data.toNat)
        (causedHid (withLig s (n / 12) { ligSt s (n / 12) with cur := none }) n) s) := by
  have hheard : Sets (heardFields n) (withLig s (n / 12) { ligSt s (n / 12) with cur := none }) s ((podAnswered n).run s) :=
    (sets_podAnswered n s).cast rfl (by rw [heardHid, heard_of_not_poll (by simp [hcur])])
  refine completes_above ?_ ⟨.add (.add rfl), .add (.add rfl), .add (.add rfl), .add (.add rfl), .add (.add rfl), trivial⟩
    (exec_ack n addr data _ s)
  rw [Act.run, ackRx_of_clear hrx hp hcur]
  show Sets _ _ s ((seq _).run s)
  rw [run_seq_cons, run_seq_cons, run_seq_nil, run_only, if_pos (by simpa using haddr)]
  refine hheard.trans ((sets_copyCauses n _ _ ?_).cast rfl (by rw [hheard.hid_eq]))
  rw [hheard.hid_eq]
  exact hneed

end

/-! ### The pod is rewritten whole (R232) -/

theorem confined_podWrite (n x : Nat) : Confined (· = R.GATE_CH_STAT n) (podWrite n x) := by
  intro s
  by_cases hsent : podPresent s n = true ∧ podHas s n x = true
  · obtain ⟨hregs, haside⟩ := (sets_podWrite hsent.1 hsent.2).setsBut (· = R.GATE_CH_STAT n)
    exact ⟨fun off hoff => (hregs off hoff).trans (if_neg fun he : (F.GATE_CH_STAT_in_sync n).off = off => hoff he.symm), haside⟩
  · show SetsBut _ [] s ((podWrite n x).run s)
    rw [run_podWrite_none hsent]
    exact .refl _ s

/-- Every register is written, the mode register of the pod last. -/
theorem run_podResync (n : Nat) (s : State) : (podResync n).run s = (podWrite n 27).run
    ((forEach (List.range 27) (podWrite n)).run ((setF (F.GATE_CH_STAT_in_sync n) 0).run ((setF (F.GATE_CH_EVENT_resync n) 1).run s))) := by
  rw [podResync, run_seq_cons, run_seq_cons, run_seq_cons, run_seq_nil, forEach, List.range_succ, List.map_append, run_seq_append]
  simp only [List.map_cons, List.map_nil, run_seq_cons, run_seq_nil]
  rfl

theorem podResync_spec {n : Nat} {s : State} (hp : podPresent s n = true) :
    SetsBut (· = R.GATE_CH_STAT n) [(F.GATE_CH_EVENT_resync n, 1)] s ((podResync n).run s) ∧
    ((podResync n).run s).on (F.GATE_CH_STAT_in_sync n) = false ∧ bit (((podResync n).run s).hid.pod.get {} n).unack 27 = true := by
  have hne (off : Nat) : ¬ off = R.GATE_CH_STAT n → (F.GATE_CH_STAT_in_sync n).off ≠ off := fun h he => h he.symm
  have hsync : SetsBut (· = R.GATE_CH_STAT n) [(F.GATE_CH_EVENT_resync n, 1)] s
      ((setF (F.GATE_CH_STAT_in_sync n) 0).run ((setF (F.GATE_CH_EVENT_resync n) 1).run s)) := by
    obtain ⟨hregs, haside⟩ := ((Sets.setF (F.GATE_CH_EVENT_resync n) 1 s).then_setF (F.GATE_CH_STAT_in_sync n) 0).setsBut
      (· = R.GATE_CH_STAT n)
    refine ⟨fun off hoff => (hregs off hoff).trans ?_, haside⟩
    rw [fieldWord_append]
    exact if_neg (hne off hoff)
  have hmost := hsync.then_confined (Confined.forEach fun x (_ : x ∈ List.range 27) => confined_podWrite n x)
  rw [run_podResync]
  generalize (forEach (List.range 27) (podWrite n)).run _ = u at hmost
  have hpu : podPresent u n = true := by
    rw [podPresent_congr, hp]
    rw [hmost.1, fieldWord_of_forall_ne]
    · simp only [List.forall_mem_singleton, F.GATE_CH_EVENT_resync, R.GATE_CH_EVENT, R.GATE_CH_CFG]
      omega
    · simp only [R.GATE_CH_STAT, R.GATE_CH_CFG]
      omega
  have hlast := sets_podWrite (x := 27) hpu rfl
  refine ⟨hmost.then_confined (confined_podWrite n 27), ?_, ?_⟩
  · exact (hlast.setsBut fun _ => False).on_of_mem (v := 0) not_false (List.mem_singleton_self _)
      (List.forall_mem_singleton.2 (.inl rfl)) rfl (Nat.zero_le 31)
  · rw [hlast.hid_eq, queuedHid, pod_get_put]
    exact bit_putBit_self _ _ _

end Sys2Proof.Machine
end

section
/-!
The TELEM with which a pod answers a POLL: the registers of its report, its warning, the causes of its fault, and the rewriting of a pod
that asks for it.
-/

namespace Sys2Proof.Machine

/-! ### The count of a refresh (R201) -/

theorem sets_refreshEval (n : Nat) (s : State) :
    Sets [] { s.hid with edge := ((refreshEval n).run s).hid.edge } s ((refreshEval n).run s) := by
  rw [refreshEval, run_whenA]
  split
  · exact Sets.hidA _ s
  · exact Sets.refl s

/-! ### The fields of a report (R229, R230) -/

section
variable (s : State) (n : Nat) (vds temp supply status : BitVec 12)

/-- The supply lies below its warning level. -/
def podWarns : Bool := decide (supply.toNat < s.f (F.GATE_CH_SUPPLY_warn n))

/-- The warning begins. -/
def podWarned : List (Fld × Bool) := [(F.GATE_CH_EVENT_warn n, podWarns s n supply && !s.on (F.GATE_CH_STAT_warn n))]

/-- The fields of a TELEM before the causes of a fault. -/
def reportFields : List (Fld × Nat) :=
  heardFields n ++ [(F.GATE_CH_TELEM0_vds n, vds.toNat), (F.GATE_CH_TELEM0_supply n, supply.toNat),
    (F.GATE_CH_TELEM1_temp n, temp.toNat), (F.GATE_CH_TELEM1_status n, status.toNat)] ++
    pairFields (R.GATE_CH_TELEM_TS n) (dieTime s (n / 24)) ++ raised (podWarned s n supply) ++
    [(F.GATE_CH_STAT_warn n, b2n (podWarns s n supply))]

/-- The fields of a TELEM. -/
def telemFields : List (Fld × Nat) :=
  reportFields s n vds temp supply status ++ if (s.hid.pod.get {} n).needCause then causeFields n status.toNat else []

/-- The steps that write the report. -/
def reportActs : List Act := [podAnswered n,
  setF (F.GATE_CH_TELEM0_vds n) vds.toNat, setF (F.GATE_CH_TELEM0_supply n) supply.toNat,
  setF (F.GATE_CH_TELEM1_temp n) temp.toNat, setF (F.GATE_CH_TELEM1_status n) status.toNat,
  set64 (R.GATE_CH_TELEM_TS n) (dieTime s (n / 24)), raiseA (podWarned s n supply),
  setF (F.GATE_CH_STAT_warn n) (b2n (podWarns s n supply))]

/-- The meaning of a good TELEM, without the rewriting of the pod. -/
def telemA : Act := seq (reportActs s n vds temp supply status ++ [refreshEval n, copyCauses n status.toNat])

/-- The CRC of a good TELEM. -/
def telemCrc (a : Nat) (vds temp supply status : BitVec 12) : BitVec 8 :=
  crc8OfBits (ligBody a 3 (telemBits vds temp supply status))

theorem sets_reportActs : Sets (reportFields s n vds temp supply status) (heardHid s n) s
    ((seq (reportActs s n vds temp supply status)).run s) := by
  rw [reportActs, run_seq_cons, run_seq_cons, run_seq_cons, run_seq_cons, run_seq_cons, run_seq_cons, run_seq_cons, run_seq_cons,
    run_seq_nil]
  have hwords := ((((sets_podAnswered n s).then_setF (F.GATE_CH_TELEM0_vds n) vds.toNat).then_setF (F.GATE_CH_TELEM0_supply n)
    supply.toNat).then_setF (F.GATE_CH_TELEM1_temp n) temp.toNat).then_setF (F.GATE_CH_TELEM1_status n) status.toNat
  have hts := hwords.trans ((sets_set64 (R.GATE_CH_TELEM_TS n) (dieTime s (n / 24)) _).cast rfl hwords.hid_eq)
  have hwarned := hts.trans ((sets_raiseA (podWarned s n supply) _).cast rfl hts.hid_eq)
  exact (hwarned.then_setF (F.GATE_CH_STAT_warn n) (b2n (podWarns s n supply))).cast (by simp [reportFields]) rfl

theorem sets_telemA : Sets (telemFields s n vds temp supply status)
    { heardHid s n with pod := ((telemA s n vds temp supply status).run s).hid.pod,
                        edge := ((telemA s n vds temp supply status).run s).hid.edge }
    s ((telemA s n vds temp supply status).run s) := by
  have hreport := sets_reportActs s n vds temp supply status
  rw [telemA, run_seq_append, run_seq_cons, run_seq_cons, run_seq_nil]
  generalize (seq (reportActs s n vds temp supply status)).run s = u at hreport
  have hrefresh := hreport.trans (sets_refreshEval n u)
  generalize (refreshEval n).run u = v at hrefresh
  rw [hreport.hid_eq, List.append_nil] at hrefresh
  have hpod : v.hid.pod.get {} n = s.hid.pod.get {} n := by
    rw [hrefresh.hid_eq]
    rfl
  cases hneed : (s.hid.pod.get {} n).needCause
  · rw [run_copyCauses_none n _ v (by rw [hpod, hneed])]
    refine hrefresh.cast (by simp [telemFields, hneed]) ?_
    rw [hrefresh.hid_eq]
  · have hcauses := hrefresh.trans (sets_copyCauses n status.toNat v (by rw [hpod, hneed]))
    refine hcauses.cast (by simp [telemFields, hneed]) ?_
    rw [hcauses.hid_eq, causedHid, hrefresh.hid_eq]

end

section
variable {s : State} {n : Nat} {vds temp supply status : BitVec 12}

/-- Every field that a TELEM may write, with its value. -/
def telemAll (s : State) (n : Nat) (vds temp supply status : BitVec 12) : List (Fld × Nat) :=
  heardFields n ++ [(F.GATE_CH_TELEM0_vds n, vds.toNat), (F.GATE_CH_TELEM0_supply n, supply.toNat),
    (F.GATE_CH_TELEM1_temp n, temp.toNat), (F.GATE_CH_TELEM1_status n, status.toNat)] ++
    pairFields (R.GATE_CH_TELEM_TS n) (dieTime s (n / 24)) ++ [(F.GATE_CH_EVENT_warn n, 1)] ++
    [(F.GATE_CH_STAT_warn n, b2n (podWarns s n supply))] ++ causeFields n status.toNat

theorem telemFields_subset : telemFields s n vds temp supply status ⊆ telemAll s n vds temp supply status := by
  refine List.append_subset.2 ⟨fun x hx => List.mem_append_left _ ?_, fun x hx => List.mem_append_right _ ?_⟩
  · rcases List.mem_append.1 hx with hreport | hwarn
    · refine List.mem_append_left _ ?_
      rcases List.mem_append.1 hreport with hreport | hevent
      · exact List.mem_append_left _ hreport
      · obtain ⟨hone, hm⟩ := of_mem_raised hevent
        have hevent : x.1 = F.GATE_CH_EVENT_warn n := congrArg Prod.fst (List.mem_singleton.1 hm)
        exact List.mem_append_right _ (List.mem_singleton.2 (Prod.ext hevent hone))
    · exact List.mem_append_right _ hwarn
  · split at hx
    · exact hx
    · cases hx

/-- Their registers, beside the pair of the time. -/
def telemRegs (n : Nat) : List Nat := [R.GATE_LIG_STAT (n / 12), R.GATE_CH_FAULT n, R.GATE_CH_TELEM0 n, R.GATE_CH_TELEM1 n,
  R.GATE_CH_EVENT n, R.GATE_CH_STAT n]

theorem telemAll_off : ∀ x ∈ telemAll s n vds temp supply status,
    x ∈ pairFields (R.GATE_CH_TELEM_TS n) (dieTime s (n / 24)) ∨ x.1.off ∈ telemRegs n := by
  simp +contextual [telemAll, telemRegs, heardFields, causeFields, lostBit, bitFld, F.GATE_CH_TELEM0_vds, F.GATE_CH_TELEM0_supply,
    F.GATE_CH_TELEM1_temp, F.GATE_CH_TELEM1_status, F.GATE_CH_FAULT_lost, F.GATE_CH_FAULT_desat, F.GATE_CH_FAULT_uv,
    F.GATE_CH_FAULT_ot, F.GATE_CH_STAT_warn, F.GATE_CH_EVENT_warn, or_imp]

/-- They lie in different registers, or in different bits of one. -/
theorem telemAll_apart : (telemAll s n vds temp supply status).Pairwise fun x y => x.1.Apart y.1 ∧ y.1.Apart x.1 := by
  simp [telemAll, heardFields, pairFields, causeFields, lostBit, bitFld, wordFld, Fld.Apart, F.GATE_CH_TELEM0_vds,
    F.GATE_CH_TELEM0_supply, F.GATE_CH_TELEM1_temp, F.GATE_CH_TELEM1_status, F.GATE_CH_FAULT_lost, F.GATE_CH_FAULT_desat,
    F.GATE_CH_FAULT_uv, F.GATE_CH_FAULT_ot, F.GATE_CH_STAT_warn, F.GATE_CH_EVENT_warn, R.GATE_CH_TELEM0, R.GATE_CH_TELEM1,
    R.GATE_CH_TELEM_TS, R.GATE_CH_STAT, R.GATE_CH_EVENT, R.GATE_CH_FAULT, R.GATE_LIG_STAT]
  omega

theorem eq_or_apart_of_telemAll {x y : Fld × Nat} (hx : x ∈ telemAll s n vds temp supply status)
    (hy : y ∈ telemAll s n vds temp supply status) : x = y ∨ x.1.Apart y.1 := by
  have : Std.Symm fun x y : Fld × Nat => x = y ∨ x.1.Apart y.1 ∧ y.1.Apart x.1 := ⟨fun _ _ h => h.imp Eq.symm And.symm⟩
  have hpairs := telemAll_apart (s := s) (n := n) (vds := vds) (temp := temp) (supply := supply) (status := status)
  exact ((hpairs.imp Or.inr).forall_of_forall (fun _ _ => .inl rfl) hx hy).imp_right And.left

/-! ### What the registers show -/

section
variable {w : Nat → Prop} {t : State} (a : SetsBut w (telemFields s n vds temp supply status) s t)
include a

/-- A field that the TELEM writes takes its value. -/
theorem telem_f {x : Fld × Nat} (hw : ¬ w x.1.off) (hm : x ∈ telemFields s n vds temp supply status) (hlo : x.1.lo ≤ x.1.hi)
    (hhi : x.1.hi ≤ 31) : t.f x.1 = x.2 % 2 ^ (x.1.hi + 1 - x.1.lo) :=
  a.f_of_mem hw hm (fun _ hy => eq_or_apart_of_telemAll (telemFields_subset hy) (telemFields_subset hm)) hlo hhi

theorem telem_on {x : Fld × Nat} (hw : ¬ w x.1.off) (hm : x ∈ telemFields s n vds temp supply status) (hbit : x.1.hi = x.1.lo)
    (hhi : x.1.hi ≤ 31) : t.on x.1 = decide (x.2 % 2 = 1) :=
  a.on_of_mem hw hm (fun _ hy => eq_or_apart_of_telemAll (telemFields_subset hy) (telemFields_subset hm)) hbit hhi

end

section
variable {t : State} (a : SetsBut (fun _ => False) (telemFields s n vds temp supply status) s t)
include a

theorem telem_value {y : Fld} {x : BitVec 12} (hm : (y, x.toNat) ∈ telemFields s n vds temp supply status) (hw : y.hi + 1 - y.lo = 12)
    (hhi : y.hi ≤ 31) : t.f y = x.toNat := by
  have hlo : y.lo ≤ y.hi := by omega
  exact (telem_f a not_false hm hlo hhi).trans (by rw [hw, Nat.mod_eq_of_lt x.isLt])

theorem telem_report : t.f (F.GATE_CH_TELEM0_vds n) = vds.toNat ∧ t.f (F.GATE_CH_TELEM0_supply n) = supply.toNat ∧
    t.f (F.GATE_CH_TELEM1_temp n) = temp.toNat ∧ t.f (F.GATE_CH_TELEM1_status n) = status.toNat := by
  refine ⟨telem_value a ?_ rfl ?_, telem_value a ?_ rfl ?_, telem_value a ?_ rfl ?_, telem_value a ?_ rfl ?_⟩ <;>
  simp [telemFields, reportFields, F.GATE_CH_TELEM0_vds, F.GATE_CH_TELEM0_supply, F.GATE_CH_TELEM1_temp, F.GATE_CH_TELEM1_status]

theorem telem_ts : t.rd64 (R.GATE_CH_TELEM_TS n) = dieTime s (n / 24) := by
  refine a.rd64_of_mem ⟨not_false, not_false⟩ (fun x hx => ?_) fun x hx => ?_
  · simp only [telemFields, reportFields, List.mem_append]
    tauto
  · refine (telemAll_off x (telemFields_subset hx)).imp_right fun hoff => ?_
    simp only [telemRegs, List.mem_cons, List.not_mem_nil, or_false, R.GATE_LIG_STAT, R.GATE_CH_FAULT, R.GATE_CH_TELEM0,
      R.GATE_CH_TELEM1, R.GATE_CH_EVENT, R.GATE_CH_STAT] at hoff
    simp only [R.GATE_CH_TELEM_TS]
    omega

theorem telem_warn : t.on (F.GATE_CH_STAT_warn n) = true ↔ supply.toNat < s.f (F.GATE_CH_SUPPLY_warn n) := by
  rw [telem_on a (x := (F.GATE_CH_STAT_warn n, b2n (podWarns s n supply))) not_false (by simp [telemFields, reportFields]) rfl
    (by simp [F.GATE_CH_STAT_warn])]
  by_cases h : supply.toNat < s.f (F.GATE_CH_SUPPLY_warn n) <;> simp [podWarns, h, b2n]

theorem telem_warned (hlow : supply.toNat < s.f (F.GATE_CH_SUPPLY_warn n)) (hnew : s.on (F.GATE_CH_STAT_warn n) = false) :
    t.on (F.GATE_CH_EVENT_warn n) = true :=
  telem_on a (x := (F.GATE_CH_EVENT_warn n, 1)) not_false
    (by simp [telemFields, reportFields, raised, podWarned, podWarns, hlow, hnew]) rfl (by simp [F.GATE_CH_EVENT_warn])

theorem telem_found : t.on (F.GATE_CH_FAULT_lost n) = false ∧ t.on (lostBit (n / 12) (n % 12)) = false := by
  have hbit : n % 12 ≤ 31 := by omega
  exact ⟨telem_on a (x := (F.GATE_CH_FAULT_lost n, 0)) not_false (by simp [telemFields, reportFields, heardFields]) rfl
      (by simp [F.GATE_CH_FAULT_lost]),
    telem_on a (x := (lostBit (n / 12) (n % 12), 0)) not_false (by simp [telemFields, reportFields, heardFields]) rfl hbit⟩

omit a in
theorem decide_div_mod_two (x : BitVec 12) (i : Nat) : decide (x.toNat / 2 ^ i % 2 = 1) = x.getLsbD i := by
  rw [BitVec.getLsbD, Nat.testBit_eq_decide_div_mod_eq]

theorem telem_causes (hneed : (s.hid.pod.get {} n).needCause = true) : t.on (F.GATE_CH_FAULT_desat n) = status.getLsbD 0 ∧
    t.on (F.GATE_CH_FAULT_uv n) = status.getLsbD 1 ∧ t.on (F.GATE_CH_FAULT_ot n) = status.getLsbD 2 := by
  have hmem (x : Fld × Nat) (hx : x ∈ causeFields n status.toNat) : x ∈ telemFields s n vds temp supply status := by
    refine List.mem_append_right _ ?_
    rwa [if_pos hneed]
  have hdesat := telem_on a not_false (hmem (F.GATE_CH_FAULT_desat n, status.toNat) (by simp [causeFields])) rfl
    (by simp [F.GATE_CH_FAULT_desat])
  have huv := telem_on a not_false (hmem (F.GATE_CH_FAULT_uv n, status.toNat / 2) (by simp [causeFields])) rfl
    (by simp [F.GATE_CH_FAULT_uv])
  have hot := telem_on a not_false (hmem (F.GATE_CH_FAULT_ot n, status.toNat / 4) (by simp [causeFields])) rfl
    (by simp [F.GATE_CH_FAULT_ot])
  simp only [hdesat, huv, hot, ← decide_div_mod_two, Nat.pow_zero, Nat.div_one, Nat.pow_one, Nat.reducePow, and_self]

end

end

/-! ### The command -/

section
variable {s : State} {n : Fin 48} (vds temp supply status : BitVec 12)

theorem exec_telem (n : Fin 48) (vds temp supply status : BitVec 12) (crc : BitVec 8) (s : State) :
    exec (.telem n vds temp supply status crc) s = finish (telemRx n vds temp supply status crc) s := rfl

theorem telemFields_off_ne_cfg {n : Nat} {x : Fld × Nat} (hx : x ∈ telemFields s n vds temp supply status) :
    x.1.off ≠ R.GATE_CH_CFG n := by
  rcases telemAll_off x (telemFields_subset hx) with hts | hoff
  · rcases List.mem_cons.1 hts with rfl | hts
    · simp [wordFld, R.GATE_CH_TELEM_TS, R.GATE_CH_CFG]
    · rw [List.mem_singleton.1 hts]
      simp only [wordFld, R.GATE_CH_TELEM_TS, R.GATE_CH_CFG]
      omega
  · simp only [telemRegs, List.mem_cons, List.not_mem_nil, or_false, R.GATE_LIG_STAT, R.GATE_CH_FAULT, R.GATE_CH_TELEM0,
      R.GATE_CH_TELEM1, R.GATE_CH_EVENT, R.GATE_CH_STAT] at hoff
    simp only [R.GATE_CH_CFG]
    omega

theorem aboveMode_telemFields (n : Nat) (s : State) : ∀ x ∈ telemFields s n vds temp supply status, x.1.off ≠ R.SYS_MODE_STAT := by
  have hall : FieldsAbove (telemAll s n vds temp supply status) :=
    ⟨.add (.add rfl), .add (.add rfl), .add (.add rfl), .add (.add rfl), .add (.add rfl), .add (.add rfl), .add (.add rfl),
      .add (.add (.add rfl)), .add (.add rfl), .add (.add rfl), .add (.add rfl), .add (.add rfl), .add (.add rfl), trivial⟩
  exact fun x hx => hall.ne (by decide) x (telemFields_subset hx)

variable (hrx : busRx s (n / 12) = true) (hp : podPresent s n = true) (hcur : (ligSt s (n / 12)).cur = some (.poll (n % 12)))
include hrx hp hcur

theorem telemRx_of_bad {crc : BitVec 8} (hcrc : crc ≠ telemCrc (n % 12) vds temp supply status) :
    telemRx n vds temp supply status crc s = answerTimeout (n / 12) s := by
  rw [telemCrc] at hcrc
  simp [telemRx, hrx, hp, hcur, hcrc]

/-- A good TELEM registers its report; a pod that asks for it is rewritten. -/
theorem run_telemRx : (telemRx n vds temp supply status (telemCrc (n % 12) vds temp supply status)).run s =
    (only (status.getLsbD 4) (podResync n)).run ((telemA s n vds temp supply status).run s) := by
  have hwarned (t : State) : (raiseA (podWarned s n supply)).run t =
      (only (podWarns s n supply ∧ !s.on (F.GATE_CH_STAT_warn n)) (setB (F.GATE_CH_EVENT_warn n))).run t := by
    rw [raiseA, podWarned, run_forEach_cons, run_forEach_nil]
    simp only [Bool.decide_and, Bool.decide_eq_true]
  have hrun : telemRx n vds temp supply status (telemCrc (n % 12) vds temp supply status) s = seq [podAnswered n,
      setF (F.GATE_CH_TELEM0_vds n) vds.toNat, setF (F.GATE_CH_TELEM0_supply n) supply.toNat,
      setF (F.GATE_CH_TELEM1_temp n) temp.toNat, setF (F.GATE_CH_TELEM1_status n) status.toNat,
      set64 (R.GATE_CH_TELEM_TS n) (dieTime s (n / 24)),
      only (podWarns s n supply ∧ !s.on (F.GATE_CH_STAT_warn n)) (setB (F.GATE_CH_EVENT_warn n)),
      setF (F.GATE_CH_STAT_warn n) (b2n (podWarns s n supply)), refreshEval n,
      copyCauses n status.toNat, only (status.getLsbD 4) (podResync n)] s := by
    unfold telemRx
    rw [if_neg (by simp [hrx, hp, hcur]), if_neg (by simp [telemCrc])]
    rfl
  rw [Act.run, hrun]
  show (seq _).run s = _
  rw [telemA, reportActs, run_seq_append, run_seq_cons, run_seq_cons, run_seq_cons, run_seq_cons, run_seq_cons, run_seq_cons, run_seq_cons,
    run_seq_cons, run_seq_cons, run_seq_cons, run_seq_cons, run_seq_nil]
  repeat rw [run_seq_cons]
  repeat rw [run_seq_nil]
  rw [hwarned]

theorem completes_telem (hsync : status.getLsbD 4 = false) :
    Completes (.telem n vds temp supply status (telemCrc (n % 12) vds temp supply status)) s fun t =>
      SetsBut (fun _ => False) (telemFields s n vds temp supply status) s t ∧
      t.hid = { heardHid s n with pod := t.hid.pod, edge := t.hid.edge } := by
  have hsets := sets_telemA s n vds temp supply status
  have hrun := run_telemRx vds temp supply status hrx hp hcur
  rw [hsync, run_only, if_neg Bool.false_ne_true] at hrun
  rw [← hrun] at hsets
  refine (hsets.setsBut fun _ => False).completes not_false (aboveMode_telemFields vds temp supply status n s)
    (exec_telem n vds temp supply status _ s) ⟨(hsets.setsBut _).then_levelsFall, ?_⟩
  rw [run_levelsFall_hid]
  exact hsets.hid_eq

theorem completes_telem_resync (hsync : status.getLsbD 4 = true) :
    Completes (.telem n vds temp supply status (telemCrc (n % 12) vds temp supply status)) s fun t =>
      t.on (F.GATE_CH_EVENT_resync n) = true ∧ t.on (F.GATE_CH_STAT_in_sync n) = false ∧
      bit (t.hid.pod.get {} n).unack 27 = true ∧ SameMem s t ∧ t.now = s.now := by
  have hsets := (sets_telemA s n vds temp supply status).setsBut (· = R.GATE_CH_STAT n)
  have hrun := run_telemRx vds temp supply status hrx hp hcur
  rw [hsync, run_only, if_pos rfl] at hrun
  generalize (telemA s n vds temp supply status).run s = u at hsets hrun
  have hpu : podPresent u n = true := by
    refine (podPresent_congr ?_).trans hp
    rw [hsets.1, fieldWord_of_forall_ne fun x => telemFields_off_ne_cfg vds temp supply status]
    simp only [R.GATE_CH_CFG, R.GATE_CH_STAT]
    omega
  obtain ⟨hresync, hin, hunack⟩ := podResync_spec hpu
  rw [← hrun] at hresync hin hunack
  have hall := hsets.trans hresync
  have hev : (levelsFall.run ((telemRx n vds temp supply status (telemCrc (n % 12) vds temp supply status)).run s)).on
      (F.GATE_CH_EVENT_resync n) = true := by
    refine hresync.then_levelsFall.on_of_mem (v := 1) ?_ (List.mem_singleton_self _) (List.forall_mem_singleton.2 (.inl rfl)) rfl
      (by simp [F.GATE_CH_EVENT_resync])
    simp only [F.GATE_CH_EVENT_resync, R.GATE_CH_EVENT, R.GATE_CH_STAT]
    omega
  obtain ⟨-, hmem, hnow⟩ := hall.then_levelsFall
  refine hall.completes ?_ ?_ (exec_telem n vds temp supply status _ s) ⟨hev, ?_, ?_, hmem, hnow⟩
  · simp only [R.GATE_CH_STAT, R.SYS_MODE_STAT]
    omega
  · exact List.forall_mem_append.2 ⟨aboveMode_telemFields vds temp supply status n s,
      FieldsAbove.ne (l := [(F.GATE_CH_EVENT_resync n, 1)]) ⟨.add (.add rfl), trivial⟩ (by decide)⟩
  · exact (on_of_rd_eq (run_levelsFall_rd _ _)).trans hin
  · rwa [run_levelsFall_hid]

end

end Sys2Proof.Machine
end

section
/-!
What a change of a trip source leaves: the evaluation of the matrix of its die changes registers of that matrix alone, and beside the
registers what the matrices hold, the times at which pins went low, and the triggers sent to the recorder.
-/

namespace Sys2Proof.Machine

/-! ### What a fault vector leaves beside the registers -/

/-- From `s` to `t` the blocks differ beside their registers in what the buses, the pods and the trip matrices hold, the times at which pins
went low, and the triggers sent to the recorder alone; the memories and device time stay. -/
def GateFrame (s t : State) : Prop :=
  t.hid = { s.hid with
    lig := t.hid.lig, pod := t.hid.pod, trip := t.hid.trip, edge := t.hid.edge,
    recorder := { s.hid.recorder with trigs := t.hid.recorder.trigs } } ∧ PinsStamped s t ∧ SameMem s t ∧ t.now = s.now

theorem PinsStamped.of_edge {s t : State} (h : t.hid.edge = s.hid.edge) : PinsStamped s t := fun n => by
  simp only [edgeSt, h]

theorem PinsStamped.trans {s t u : State} (a : PinsStamped s t) (b : PinsStamped t u) : PinsStamped s u := fun n =>
  (b n).trans (by rw [a n])

theorem GateFrame.trans {s t u : State} (a : GateFrame s t) (b : GateFrame t u) : GateFrame s u := by
  obtain ⟨ahid, apins, amem, anow⟩ := a
  obtain ⟨bhid, bpins, bmem, bnow⟩ := b
  exact ⟨bhid.trans (by rw [ahid]), apins.trans bpins, amem.trans bmem, bnow.trans anow⟩

/-- A change of fields, of buses and of pods. -/
theorem Sets.gateFrame {l : List (Fld × Nat)} {h : Hid} {s t : State} (a : Sets l h s t)
    (hh : h = { s.hid with lig := h.lig, pod := h.pod }) : GateFrame s t := by
  obtain ⟨hmem, hnow, -⟩ := a.sameAside
  refine ⟨?_, .of_edge ?_, hmem, hnow⟩
  · rw [a.hid_eq, hh]
  · rw [a.hid_eq, hh]

/-- From `s` to `t` only registers that `w` names differ, and beside them only what the trip matrices bring about. -/
structure TripOnly (w : Nat → Prop) (s t : State) : Prop where
  regs : KeepRegs w s t
  frame : GateFrame s t
  lig : t.hid.lig = s.hid.lig
  pod : t.hid.pod = s.hid.pod

/-- So it is with the updates, made in `s`. -/
def TripAt (w : Nat → Prop) (s : State) (us : List Upd) : Prop := TripOnly w s (applyAll us s)

/-- And with those of the action, in whatever state. -/
def TripAct (w : Nat → Prop) (a : Act) : Prop := ∀ s, TripAt w s (a s)

section
variable {w : Nat → Prop} {a : Act} {s t u : State}

theorem TripOnly.refl (w : Nat → Prop) (s : State) : TripOnly w s s :=
  ⟨fun _ _ => rfl, (Sets.refl s).gateFrame rfl, rfl, rfl⟩

theorem TripOnly.trans (a : TripOnly w s t) (b : TripOnly w t u) : TripOnly w s u :=
  ⟨fun off hoff => (b.regs off hoff).trans (a.regs off hoff), a.frame.trans b.frame, b.lig.trans a.lig, b.pod.trans a.pod⟩

theorem TripOnly.mono {w' : Nat → Prop} (a : TripOnly w s t) (h : ∀ off, w off → w' off) : TripOnly w' s t :=
  { a with regs := fun off hoff => a.regs off fun hw => hoff (h off hw) }

/-- A change of fields alone. -/
theorem Sets.tripOnly {l : List (Fld × Nat)} (a : Sets l s.hid s t) (hw : ∀ x ∈ l, w x.1.off) : TripOnly w s t :=
  ⟨a.keepRegs hw, a.gateFrame rfl, congrArg Hid.lig a.hid_eq, congrArg Hid.pod a.hid_eq⟩

theorem TripAct.run (h : TripAct w a) (s : State) : TripOnly w s (a.run s) := h s

theorem TripAct.nop : TripAct w nop := .refl w

theorem TripAct.setF {x : Fld} {v : Nat} (h : w x.off) : TripAct w (setF x v) := fun s =>
  (Sets.setF x v s).tripOnly (List.forall_mem_singleton.2 h)

theorem TripAct.setW {off : Nat} {v : Word} (h : w off) : TripAct w (setW off v) := fun s =>
  (Sets.setW off v s).tripOnly (List.forall_mem_singleton.2 h)

theorem TripAct.bump {off : Nat} (h : w off) : TripAct w (bump off) := fun s =>
  (sets_countOne off s).tripOnly (List.forall_mem_singleton.2 h)

theorem TripAct.tripA (d : Nat) (g : TripSt → TripSt) : TripAct w (tripA d g) := fun _ =>
  ⟨fun _ _ => rfl, ⟨rfl, .of_edge rfl, ⟨rfl, rfl, rfl⟩, rfl⟩, rfl, rfl⟩

/-- The time at which a pin went low is noted. -/
theorem pinsStamped_lowA (n : Nat) (time : BitVec 64) (s : State) : PinsStamped s ((edgeA n fun x => { x with lowT := time }).run s) := by
  intro m
  have hget : edgeSt ((edgeA n fun x => { x with lowT := time }).run s) m =
      if m = n then { edgeSt s n with lowT := time } else edgeSt s m := Tab.get_put _ _ _ _ _ (fun _ => rfl) _
  rw [hget]
  split
  · next h => rw [h]
  · rfl

theorem TripAct.lowA (n : Nat) (time : BitVec 64) : TripAct w (edgeA n fun x => { x with lowT := time }) := fun s =>
  ⟨fun _ _ => rfl, ⟨rfl, pinsStamped_lowA n time s, ⟨rfl, rfl, rfl⟩, rfl⟩, rfl, rfl⟩

theorem TripAct.whenA (c : State → Bool) (h : TripAct w a) : TripAct w (whenA c a) := fun s => by
  change TripOnly w s ((Machine.whenA c a).run s)
  rw [run_whenA]
  split
  · exact h s
  · exact .refl w s

theorem TripAct.only (c : Bool) (h : TripAct w a) : TripAct w (only c a) := fun s => by
  change TripOnly w s ((Machine.only c a).run s)
  rw [run_only]
  split
  · exact h s
  · exact .refl w s

/-- Each of the actions does. -/
@[reducible] def TripEach (w : Nat → Prop) : List Act → Prop
  | [] => True
  | a :: l => TripAct w a ∧ TripEach w l

theorem TripAct.seq {l : List Act} (h : TripEach w l) : TripAct w (seq l) := by
  induction l with
  | nil => exact .nop
  | cons a l ih =>
    obtain ⟨ha, hl⟩ := h
    intro s
    change TripOnly w s ((Machine.seq (a :: l)).run s)
    rw [run_seq_cons]
    exact (ha s).trans (ih hl _)

/-- A sequence written out over the state that it reads. -/
theorem TripAt.seq {l : List Act} (h : TripEach w l) : TripAt w s (seq l s) := TripAct.seq h s

theorem TripAct.forEach {α : Type} {l : List α} {f : α → Act} (h : ∀ x ∈ l, TripAct w (f x)) : TripAct w (forEach l f) := by
  refine .seq ?_
  induction l with
  | nil => trivial
  | cons x l ih => exact ⟨h x List.mem_cons_self, ih fun y hy => h y (List.mem_cons_of_mem x hy)⟩

theorem TripAt.forEach {α : Type} {l : List α} {f : α → Act} (h : ∀ x ∈ l, TripAct w (f x)) : TripAt w s (forEach l f s) :=
  TripAct.forEach h s

end

/-! ### The trip matrix (R176 to R181) -/

/-- The registers that an evaluation of the matrix of die `d` writes. -/
def resolveReg (d off : Nat) : Prop :=
  off = R.TRIP_GT_OFF d ∨ off = R.TRIP_GT_ON d ∨ off = R.TRIP_GT_REP d ∨ off = R.TRIP_EVENT d ∨ off = R.TRIP_CONFLICT_CNT d ∨
    ∃ w : Fin 5, off = R.TRIP_LATCH d w

section
variable {w : Nat → Prop}

theorem tripAct_recSend (m : Nat) : TripAct w (recSend m) :=
  .whenA _ fun _ => ⟨fun _ _ => rfl, ⟨rfl, .of_edge rfl, ⟨rfl, rfl, rfl⟩, rfl⟩, rfl, rfl⟩

theorem tripAct_pinStamp (was : State) (l : List Nat) : TripAct w (pinStamp was l) := fun s =>
  .forEach fun n _ => .lowA n s.now

theorem tripAct_forceOnReady (n : Nat) : TripAct w (forceOnReady n) := .whenA _ (.tripA _ _)

end

theorem tripAct_tripResolve (d : Nat) (atZero : Bool) : TripAct (resolveReg d) (tripResolve d atZero) := by
  have hoff : resolveReg d (R.TRIP_GT_OFF d) := .inl rfl
  have hon : resolveReg d (R.TRIP_GT_ON d) := .inr (.inl rfl)
  have hrep : resolveReg d (R.TRIP_GT_REP d) := .inr (.inr (.inl rfl))
  have hevent : resolveReg d (R.TRIP_EVENT d) := .inr (.inr (.inr (.inl rfl)))
  have hconflict : resolveReg d (R.TRIP_CONFLICT_CNT d) := .inr (.inr (.inr (.inr (.inl rfl))))
  have hlatch (i : Nat) (hi : i ∈ List.range 5) : resolveReg d (R.TRIP_LATCH d i) :=
    .inr (.inr (.inr (.inr (.inr ⟨⟨i, List.mem_range.1 hi⟩, rfl⟩))))
  exact .whenA _ fun s => .seq ⟨.forEach fun i hi => .setW (hlatch i hi), .setF hoff, .setF hon, .setF hrep,
    .only _ (.seq ⟨.setF hevent, tripAct_recSend 1, trivial⟩), .only _ (.setF hevent),
    .only _ (.seq ⟨.setF hevent, .forEach fun _ _ => .bump hconflict, trivial⟩), .tripA _ _, tripAct_pinStamp _ _,
    .forEach fun j _ => tripAct_forceOnReady _, trivial⟩

theorem bit_eq_testBit (x i : Nat) : bit x i = x.testBit i := Nat.testBit_eq_decide_div_mod_eq.symm

/-- The bit of a source after it is written. -/
theorem srcActive_setF (s : State) {d i e j : Nat} (act : Bool) (hi : i < 160) (hj : j < 160) :
    srcActive ((setF (bitFld (R.TRIP_SRC_ACT d (i / 32)) (i % 32)) (b2n act)).run s) e j =
      if e = d ∧ j = i then act else srcActive s e j := by
  have hbit : (b2n act).testBit 0 = act := by cases act <;> rfl
  have hrd : ((setF (bitFld (R.TRIP_SRC_ACT d (i / 32)) (i % 32)) (b2n act)).run s).rd (R.TRIP_SRC_ACT e (j / 32)) =
      if R.TRIP_SRC_ACT e (j / 32) = R.TRIP_SRC_ACT d (i / 32) then
        (bitFld (R.TRIP_SRC_ACT d (i / 32)) (i % 32)).put (b2n act) (s.rd (R.TRIP_SRC_ACT d (i / 32)))
      else s.rd (R.TRIP_SRC_ACT e (j / 32)) := run_setF_rd _ _ _ _
  unfold srcActive
  rw [hrd, bit_eq_testBit, bit_eq_testBit]
  by_cases hoff : R.TRIP_SRC_ACT e (j / 32) = R.TRIP_SRC_ACT d (i / 32)
  · have hd : e = d ∧ j / 32 = i / 32 := by
      simp only [R.TRIP_SRC_ACT] at hoff
      omega
    rw [if_pos hoff, ← BitVec.getLsbD, Fld.getLsbD_put _ _ _ _ (le_refl _) (show i % 32 ≤ 31 by omega)]
    by_cases hij : j = i
    · rw [if_pos (by simp only [bitFld, hij]; omega), if_pos ⟨hd.1, hij⟩]
      simp [bitFld, hij, hbit]
    · rw [if_neg (by simp only [bitFld]; omega), if_neg (fun h => hij h.2)]
      simp only [BitVec.getLsbD, hoff]
  · rw [if_neg hoff, if_neg]
    rintro ⟨rfl, rfl⟩
    exact hoff rfl

/-- The active sources are no register that an evaluation writes. -/
theorem srcActive_of_tripOnly {d e j : Nat} {s t : State} (a : TripOnly (resolveReg d) s t) (hj : j < 160) :
    srcActive t e j = srcActive s e j := by
  unfold srcActive
  rw [a.regs]
  rintro (h | h | h | h | h | ⟨w, h⟩) <;>
    simp only [R.TRIP_SRC_ACT, R.TRIP_GT_OFF, R.TRIP_GT_ON, R.TRIP_GT_REP, R.TRIP_EVENT, R.TRIP_CONFLICT_CNT, R.TRIP_LATCH] at h <;>
    omega

/-- What a change of source `i` on die `d` leaves. -/
theorem sourceSet_spec {d i : Nat} (act : Bool) (hi : i < 115) (s : State) :
    TripOnly (tripReg d) s ((sourceSet d i act).run s) ∧
    ∀ e j, j < 160 → srcActive ((sourceSet d i act).run s) e j = if e = d ∧ j = i then act else srcActive s e j := by
  unfold Act.run sourceSet
  by_cases hsame : srcActive s d i = act
  · rw [if_pos (.inr hsame)]
    refine ⟨.refl _ s, fun e j _ => ?_⟩
    split
    · next h => rw [h.1, h.2]; exact hsame
    · rfl
  · rw [if_neg (by rintro (h | h); omega; exact hsame h)]
    change TripOnly _ s ((seq _).run s) ∧ ∀ e j, j < 160 → srcActive ((seq _).run s) e j = _
    rw [run_seq_cons, run_seq_cons, run_seq_cons, run_seq_nil]
    have hbit : TripOnly (tripReg d) s ((setF (bitFld (R.TRIP_SRC_ACT d (i / 32)) (i % 32)) (b2n act)).run s) :=
      TripAct.setF (.inr (.inr (.inr (.inr (.inr ⟨⟨i / 32, by omega⟩, .inl rfl⟩))))) s
    have hact := fun e j hj => srcActive_setF s (d := d) (i := i) (e := e) (j := j) act (by omega) hj
    generalize (setF _ _).run s = u at hbit hact
    have hres := (tripAct_tripResolve d false u).trans
      (TripAct.only (packetFor s (1 - d) i) (.tripA (1 - d) fun t => { t with pkts := t.pkts ++ [(i, act)] }) _)
    refine ⟨hbit.trans (hres.mono fun off hoff => ?_), fun e j hj => (srcActive_of_tripOnly hres hj).trans (hact e j hj)⟩
    unfold tripReg
    rcases hoff with h | h | h | h | h | ⟨w, h⟩
    · exact .inl h
    · exact .inr (.inl h)
    · exact .inr (.inr (.inl h))
    · exact .inr (.inr (.inr (.inl h)))
    · exact .inr (.inr (.inr (.inr (.inl h))))
    · exact .inr (.inr (.inr (.inr (.inr ⟨w, .inr h⟩))))

end Sys2Proof.Machine
end

section
/-!
Fault vectors: a discarded one, what one slot brings about, and the twelve slots of a good vector in order.
-/

namespace Sys2Proof.Machine

/-! ### A vector with a bad CRC (R222) -/

/-- What a bus holds when the frame in progress, where it is a vector, has ended. -/
def vectorEnded (b : LigSt) : LigSt := { b with cur := if b.cur = some .vector then none else b.cur }

section
variable {s : State} {k : Fin 4} {slots : BitVec 12} {crc : BitVec 8}

/-- The CRC of a good vector. -/
def vectorCrc (slots : BitVec 12) : BitVec 8 := crc8OfBits (ligBody 15 0 (slotBits slots))

theorem exec_faultVectorRx (k : Fin 4) (slots : BitVec 12) (crc : BitVec 8) (s : State) :
    exec (.faultVectorRx k slots crc) s = finish (vectorRx k slots crc) s := rfl

theorem vectorRx_of_bad (hrx : busRx s k = true) (hcrc : crc ≠ vectorCrc slots) : vectorRx k slots crc s =
    seq [ligA k vectorEnded, bump (R.GATE_LIG_ERR k), only (busOn s k) (ligA k fun b => { b with fvReq := true })] s := by
  unfold vectorRx
  rw [if_neg (by simp [hrx])]
  exact if_pos hcrc

theorem completes_vector_bad (hrx : busRx s k = true) (hcrc : crc ≠ vectorCrc slots) :
    Completes (.faultVectorRx k slots crc) s (Sets [countOne s (R.GATE_LIG_ERR k)]
      (withLig s k { vectorEnded (ligSt s k) with fvReq := (ligSt s k).fvReq || busOn s k }) s) := by
  have hcount := (sets_ligA k vectorEnded s).then_countOne (off := R.GATE_LIG_ERR k) (by simp)
  refine completes_above ?_ ⟨.add (.add rfl), trivial⟩ (exec_faultVectorRx k slots crc s)
  rw [Act.run, vectorRx_of_bad hrx hcrc]
  show Sets _ _ s ((seq _).run s)
  rw [run_seq_cons, run_seq_cons, run_seq_cons, run_seq_nil, run_only]
  cases hon : busOn s k
  · rw [if_neg Bool.false_ne_true]
    exact hcount.cast rfl (by rw [Bool.or_false]; rfl)
  · rw [if_pos rfl]
    exact (hcount.lig_then_ligA _).cast rfl (by rw [Bool.or_true])

end

/-! ### What one slot changes -/

/-- The registers of its channel, and of the trip matrix of its die, that the slot of channel `n` changes. -/
def slotReg (n off : Nat) : Prop :=
  off = R.GATE_CH_FAULT n ∨ off = R.GATE_CH_EVENT n ∨ off = R.GATE_CH_FCNT n ∨ tripReg (n / 24) off

theorem tripReg_bounds {d off : Nat} (hd : d < 2) (h : tripReg d off) : 0xA0000 ≤ off ∧ off < 0xC0000 := by
  rcases h with h | h | h | h | h | ⟨w, h | h⟩ <;>
    simp only [R.TRIP_SRC_ACT, R.TRIP_GT_OFF, R.TRIP_GT_ON, R.TRIP_GT_REP, R.TRIP_EVENT, R.TRIP_CONFLICT_CNT, R.TRIP_LATCH] at h <;>
    omega

/-- They lie among the matrices, or among the registers of the channel. -/
theorem slotReg_bounds {n off : Nat} (hn : n < 48) (h : slotReg n off) : (0xA0000 ≤ off ∧ off < 0xC0000) ∨
    (0xE1000 + n / 24 * 0x10000 + n % 24 * 0x100 ≤ off ∧ off < 0xE1000 + n / 24 * 0x10000 + n % 24 * 0x100 + 0x100) := by
  rcases h with rfl | rfl | rfl | h
  · simp only [R.GATE_CH_FAULT]
    omega
  · simp only [R.GATE_CH_EVENT]
    omega
  · simp only [R.GATE_CH_FCNT]
    omega
  · exact .inl (tripReg_bounds (by omega) h)

/-- From `s` to `t` only registers that `w` names differ, the pod and the trip source of channel `n`, and what the trip matrices bring
about. -/
structure SlotOnly (w : Nat → Prop) (n : Nat) (s t : State) : Prop where
  regs : KeepRegs w s t
  frame : GateFrame s t
  lig : t.hid.lig = s.hid.lig
  pods : ∀ m, m ≠ n → t.hid.pod.get {} m = s.hid.pod.get {} m
  sources : ∀ d i, i < 160 → ¬ (d = n / 24 ∧ i = 64 + n) → srcActive t d i = srcActive s d i

section
variable {w : Nat → Prop} {n : Nat} {s t u : State}

theorem SlotOnly.refl (w : Nat → Prop) (n : Nat) (s : State) : SlotOnly w n s s :=
  ⟨fun _ _ => rfl, (Sets.refl s).gateFrame rfl, rfl, fun _ _ => rfl, fun _ _ _ _ => rfl⟩

theorem SlotOnly.trans (a : SlotOnly w n s t) (b : SlotOnly w n t u) : SlotOnly w n s u :=
  ⟨fun off hoff => (b.regs off hoff).trans (a.regs off hoff), a.frame.trans b.frame, b.lig.trans a.lig,
    fun m hm => (b.pods m hm).trans (a.pods m hm), fun d i hi hn => (b.sources d i hi hn).trans (a.sources d i hi hn)⟩

theorem SlotOnly.mono {w' : Nat → Prop} (a : SlotOnly w n s t) (h : ∀ off, w off → w' off) : SlotOnly w' n s t :=
  { a with regs := fun off hoff => a.regs off fun hw => hoff (h off hw) }

theorem srcActive_congr {d i : Nat} (h : t.rd (R.TRIP_SRC_ACT d (i / 32)) = s.rd (R.TRIP_SRC_ACT d (i / 32))) :
    srcActive t d i = srcActive s d i := by
  rw [srcActive, srcActive, h]

/-- A change of fields of the gates, and of the pod. -/
theorem Sets.slotOnly {l : List (Fld × Nat)} {h : Hid} (a : Sets l h s t) (hw : ∀ x ∈ l, w x.1.off)
    (hl : ∀ x ∈ l, ∀ d i, i < 160 → x.1.off ≠ R.TRIP_SRC_ACT d (i / 32))
    (hh : h = { s.hid with pod := h.pod }) (hpod : ∀ m, m ≠ n → h.pod.get {} m = s.hid.pod.get {} m) : SlotOnly w n s t := by
  have hlig : h.lig = s.hid.lig := by rw [hh]
  refine ⟨a.keepRegs hw, a.gateFrame (hh.trans (by rw [hlig])), ?_, fun m hm => ?_, fun d i hi _ => srcActive_congr ?_⟩
  · rw [a.hid_eq, hlig]
  · rw [a.hid_eq, hpod m hm]
  · rw [a.rd_eq, fieldWord_of_forall_ne fun x hx => hl x hx d i hi]

end

/-! ### The slot of a pod (R222, R225, R226) -/

/-- A fault begins. -/
def slotRise (n : Nat) : Act := seq [setB (F.GATE_CH_FAULT_latched n), podA n (fun p => { p with needCause := true }),
  bump (R.GATE_CH_FCNT n), setB (F.GATE_CH_EVENT_fault n), podStuck n]

/-- A latched fault ends. -/
def slotFall (n : Nat) : Act := seq [clrB (F.GATE_CH_FAULT_latched n), clrB (F.GATE_CH_FAULT_desat n), clrB (F.GATE_CH_FAULT_uv n),
  clrB (F.GATE_CH_FAULT_ot n), podA n (fun p => { p with needCause := false }), setB (F.GATE_CH_EVENT_fault_clear n)]

theorem run_slotTake (n : Nat) (was isSet : Bool) (s : State) : (slotTake n was isSet).run s =
    (sourceSet (n / 24) (64 + n) isSet).run ((whenA (fun s => s.on (F.GATE_CH_FAULT_latched n) ∧ !isSet) (slotFall n)).run
      ((only (isSet ∧ !was) (slotRise n)).run s)) := by
  rw [slotTake, run_seq_cons, run_seq_cons, run_seq_cons, run_seq_nil]
  rfl

/-- The fields of a fault that begins; with `stuck`, the tries of the pod are used up. -/
def slotRiseFields (s : State) (n : Nat) (stuck : Bool) : List (Fld × Nat) :=
  [(F.GATE_CH_FAULT_latched n, 1), countOne s (R.GATE_CH_FCNT n), (F.GATE_CH_EVENT_fault n, 1)] ++
    if stuck then [(F.GATE_CH_FAULT_stuck n, 1), (F.GATE_CH_EVENT_stuck n, 1)] else []

def slotFallFields (n : Nat) : List (Fld × Nat) :=
  [(F.GATE_CH_FAULT_latched n, 0), (F.GATE_CH_FAULT_desat n, 0), (F.GATE_CH_FAULT_uv n, 0), (F.GATE_CH_FAULT_ot n, 0),
    (F.GATE_CH_EVENT_fault_clear n, 1)]

/-- The block state after the causes of a fault are wanted, or no more. -/
def needHid (s : State) (n : Nat) (need : Bool) : Hid :=
  { s.hid with pod := s.hid.pod.put {} n { s.hid.pod.get {} n with needCause := need } }

theorem sets_podStuck (n : Nat) (s : State) : ∃ stuck : Bool,
    Sets (if stuck then [(F.GATE_CH_FAULT_stuck n, 1), (F.GATE_CH_EVENT_stuck n, 1)] else []) s.hid s ((podStuck n).run s) := by
  rw [podStuck, run_whenA]
  split
  · refine ⟨true, ?_⟩
    rw [run_seq_cons, run_seq_cons, run_seq_nil]
    exact (Sets.setF _ 1 s).then_setF _ 1
  · exact ⟨false, Sets.refl s⟩

theorem sets_slotRise (n : Nat) (s : State) : ∃ stuck, Sets (slotRiseFields s n stuck) (needHid s n true) s ((slotRise n).run s) := by
  have hcount := ((Sets.setF (F.GATE_CH_FAULT_latched n) 1 s).then_podA n fun p => { p with needCause := true }).then_countOne
    (off := R.GATE_CH_FCNT n) (by simp only [List.forall_mem_singleton, F.GATE_CH_FAULT_latched, R.GATE_CH_FAULT, R.GATE_CH_FCNT]; omega)
  have hevent := hcount.then_setF (F.GATE_CH_EVENT_fault n) 1
  rw [slotRise, run_seq_cons, run_seq_cons, run_seq_cons, run_seq_cons, run_seq_cons, run_seq_nil]
  obtain ⟨stuck, hstuck⟩ := sets_podStuck n _
  exact ⟨stuck, hevent.trans (hstuck.cast rfl hevent.hid_eq)⟩

theorem sets_slotFall (n : Nat) (s : State) : Sets (slotFallFields n) (needHid s n false) s ((slotFall n).run s) := by
  rw [slotFall, run_seq_cons, run_seq_cons, run_seq_cons, run_seq_cons, run_seq_cons, run_seq_cons, run_seq_nil]
  exact (((((Sets.setF _ 0 s).then_setF _ 0).then_setF _ 0).then_setF _ 0).then_podA n _).then_setF _ 1

section
variable {n : Nat}

/-- The registers of a channel that its slot changes lie in no matrix. -/
theorem fault_ne_srcAct (n d w : Nat) (hw : w < 5) : R.GATE_CH_FAULT n ≠ R.TRIP_SRC_ACT d w ∧
    R.GATE_CH_EVENT n ≠ R.TRIP_SRC_ACT d w ∧ R.GATE_CH_FCNT n ≠ R.TRIP_SRC_ACT d w := by
  simp only [R.GATE_CH_FAULT, R.GATE_CH_EVENT, R.GATE_CH_FCNT, R.TRIP_SRC_ACT]
  omega

/-- A change of the fault, the events and the count of faults of channel `n`, and of its pod. -/
theorem Sets.slotOnly_channel {l : List (Fld × Nat)} {h : Hid} {s t : State} (a : Sets l h s t)
    (hl : ∀ x ∈ l, x.1.off = R.GATE_CH_FAULT n ∨ x.1.off = R.GATE_CH_EVENT n ∨ x.1.off = R.GATE_CH_FCNT n)
    (hh : ∃ need, h = needHid s n need) : SlotOnly (slotReg n) n s t := by
  obtain ⟨need, rfl⟩ := hh
  refine a.slotOnly (fun x hx => ?_) (fun x hx d i hi => ?_) rfl fun m hm => (Tab.get_put _ _ _ _ _ (fun _ => rfl) _).trans (if_neg hm)
  · rcases hl x hx with h | h | h
    · exact .inl h
    · exact .inr (.inl h)
    · exact .inr (.inr (.inl h))
  · obtain ⟨hfault, hevent, hcount⟩ := fault_ne_srcAct n d (i / 32) (by omega)
    rcases hl x hx with h | h | h <;> rw [h]
    · exact hfault
    · exact hevent
    · exact hcount

theorem slotOnly_sourceSet (hn : n < 48) (act : Bool) (s : State) :
    SlotOnly (slotReg n) n s ((sourceSet (n / 24) (64 + n) act).run s) := by
  obtain ⟨⟨hregs, hframe, hlig, hpod⟩, hact⟩ := sourceSet_spec (d := n / 24) (i := 64 + n) act (by omega) s
  refine ⟨fun off hoff => hregs off fun h => hoff (.inr (.inr (.inr h))), hframe, hlig, fun m _ => by rw [hpod], fun d i hi hne => ?_⟩
  rw [hact d i hi, if_neg hne]

theorem slotOnly_slotRise (n : Nat) (s : State) : SlotOnly (slotReg n) n s ((slotRise n).run s) := by
  obtain ⟨stuck, hsets⟩ := sets_slotRise n s
  refine hsets.slotOnly_channel ?_ ⟨_, rfl⟩
  cases stuck <;>
  simp [slotRiseFields, countOne, wordFld, F.GATE_CH_FAULT_latched, F.GATE_CH_EVENT_fault, F.GATE_CH_FAULT_stuck, F.GATE_CH_EVENT_stuck]

theorem slotOnly_slotFall (n : Nat) (s : State) : SlotOnly (slotReg n) n s ((slotFall n).run s) := by
  refine (sets_slotFall n s).slotOnly_channel ?_ ⟨_, rfl⟩
  simp [slotFallFields, F.GATE_CH_FAULT_latched, F.GATE_CH_FAULT_desat, F.GATE_CH_FAULT_uv, F.GATE_CH_FAULT_ot, F.GATE_CH_EVENT_fault_clear]

theorem slotOnly_slotTake (hn : n < 48) (was isSet : Bool) (s : State) : SlotOnly (slotReg n) n s ((slotTake n was isSet).run s) := by
  have hrise (c : Bool) (u : State) : SlotOnly (slotReg n) n u ((only c (slotRise n)).run u) := by
    rw [run_only]
    split
    · exact slotOnly_slotRise n u
    · exact .refl _ _ _
  have hfall (c : State → Bool) (u : State) : SlotOnly (slotReg n) n u ((whenA c (slotFall n)).run u) := by
    rw [run_whenA]
    split
    · exact slotOnly_slotFall n u
    · exact .refl _ _ _
  rw [run_slotTake]
  exact ((hrise _ s).trans (hfall _ _)).trans (slotOnly_sourceSet hn isSet _)

/-! ### What the channel of a slot shows -/

/-- What the registers and the pod of channel `n` show in `t`, where its slot, `was` in the vector before, was taken as `isSet` in `s`. -/
structure FaultTaken (n : Nat) (was isSet : Bool) (s t : State) : Prop where
  rises : isSet = true → was = false → t.on (F.GATE_CH_FAULT_latched n) = true ∧ t.on (F.GATE_CH_EVENT_fault n) = true ∧
    t.rd (R.GATE_CH_FCNT n) = bumped (s.rd (R.GATE_CH_FCNT n)) ∧ (t.hid.pod.get {} n).needCause = true
  stays : isSet = true → s.on (F.GATE_CH_FAULT_latched n) = true → t.on (F.GATE_CH_FAULT_latched n) = true
  falls : isSet = false → t.on (F.GATE_CH_FAULT_latched n) = false ∧
    (s.on (F.GATE_CH_FAULT_latched n) = true → t.on (F.GATE_CH_EVENT_fault_clear n) = true ∧
      t.on (F.GATE_CH_FAULT_desat n) = false ∧ t.on (F.GATE_CH_FAULT_uv n) = false ∧ t.on (F.GATE_CH_FAULT_ot n) = false)

/-- The fault of channel `n`, its events, the count of its faults and its pod are the same in `s` and `t`. -/
structure SameFault (n : Nat) (s t : State) : Prop where
  fault : t.rd (R.GATE_CH_FAULT n) = s.rd (R.GATE_CH_FAULT n)
  event : t.rd (R.GATE_CH_EVENT n) = s.rd (R.GATE_CH_EVENT n)
  count : t.rd (R.GATE_CH_FCNT n) = s.rd (R.GATE_CH_FCNT n)
  pod : t.hid.pod.get {} n = s.hid.pod.get {} n

/-- So is its trip source. -/
structure SameChannel (n : Nat) (s t : State) : Prop extends SameFault n s t where
  source : srcActive t (n / 24) (64 + n) = srcActive s (n / 24) (64 + n)

theorem SameFault.refl (n : Nat) (s : State) : SameFault n s s := ⟨rfl, rfl, rfl, rfl⟩

theorem SameChannel.refl (n : Nat) (s : State) : SameChannel n s s := ⟨.refl n s, rfl⟩

theorem SameChannel.trans {s t u : State} (a : SameChannel n s t) (b : SameChannel n t u) : SameChannel n s u :=
  ⟨⟨b.fault.trans a.fault, b.event.trans a.event, b.count.trans a.count, b.pod.trans a.pod⟩, b.source.trans a.source⟩

theorem FaultTaken.congr {was isSet : Bool} {s s' t t' : State} (a : FaultTaken n was isSet s t) (hs : SameFault n s' s)
    (ht : SameFault n t t') : FaultTaken n was isSet s' t' := by
  obtain ⟨rises, stays, falls⟩ := a
  rw [on_of_rd_eq (x := F.GATE_CH_FAULT_latched n) hs.fault] at stays falls
  rw [hs.count] at rises
  refine ⟨?_, ?_, ?_⟩ <;>
  simpa only [on_of_rd_eq (x := F.GATE_CH_FAULT_latched n) ht.fault, on_of_rd_eq (x := F.GATE_CH_FAULT_desat n) ht.fault,
    on_of_rd_eq (x := F.GATE_CH_FAULT_uv n) ht.fault, on_of_rd_eq (x := F.GATE_CH_FAULT_ot n) ht.fault,
    on_of_rd_eq (x := F.GATE_CH_EVENT_fault n) ht.event, on_of_rd_eq (x := F.GATE_CH_EVENT_fault_clear n) ht.event, ht.count, ht.pod]

/-- A change made for another channel leaves channel `m` as it was. -/
theorem SlotOnly.sameChannel {m : Nat} {s t : State} {w : Nat → Prop} (a : SlotOnly w n s t) (hm : m < 48) (hne : m ≠ n)
    (hfault : ¬ w (R.GATE_CH_FAULT m)) (hevent : ¬ w (R.GATE_CH_EVENT m)) (hcount : ¬ w (R.GATE_CH_FCNT m)) : SameChannel m s t :=
  ⟨⟨a.regs _ hfault, a.regs _ hevent, a.regs _ hcount, a.pods m hne⟩, a.sources _ _ (by omega) (by omega)⟩

/-- The trip source of the channel changes beside its fault. -/
theorem sameFault_sourceSet (hn : n < 48) (act : Bool) (s : State) : SameFault n s ((sourceSet (n / 24) (64 + n) act).run s) := by
  obtain ⟨⟨hregs, -, -, hpod⟩, -⟩ := sourceSet_spec (d := n / 24) (i := 64 + n) act (by omega) s
  have hkeep (off : Nat) (hoff : 0xE0000 ≤ off) : ((sourceSet (n / 24) (64 + n) act).run s).rd off = s.rd off :=
    hregs off fun h => absurd (tripReg_bounds (by omega) h) (by omega)
  refine ⟨hkeep _ ?_, hkeep _ ?_, hkeep _ ?_, by rw [hpod]⟩
  · simp only [R.GATE_CH_FAULT]; omega
  · simp only [R.GATE_CH_EVENT]; omega
  · simp only [R.GATE_CH_FCNT]; omega

/-- The fields of a fault that begins lie in different registers, or in different bits of one. -/
theorem slotRiseFields_apart (s : State) (n : Nat) (stuck : Bool) : ∀ x ∈ slotRiseFields s n stuck, ∀ y ∈ slotRiseFields s n stuck,
    x = y ∨ x.1.Apart y.1 := by
  cases stuck <;>
  simp [slotRiseFields, countOne, wordFld, Fld.Apart, F.GATE_CH_FAULT_latched, F.GATE_CH_EVENT_fault, F.GATE_CH_FAULT_stuck,
    F.GATE_CH_EVENT_stuck, R.GATE_CH_FAULT, R.GATE_CH_EVENT, R.GATE_CH_FCNT]

/-- One of them is the count, the others lie in other registers. -/
theorem eq_count_or_off_ne (s : State) (n : Nat) (stuck : Bool) : ∀ x ∈ slotRiseFields s n stuck,
    x = countOne s (R.GATE_CH_FCNT n) ∨ x.1.off ≠ R.GATE_CH_FCNT n := by
  cases stuck <;>
  simp [slotRiseFields, F.GATE_CH_FAULT_latched, F.GATE_CH_EVENT_fault, F.GATE_CH_FAULT_stuck, F.GATE_CH_EVENT_stuck, R.GATE_CH_FAULT,
    R.GATE_CH_EVENT, R.GATE_CH_FCNT]

theorem slotFallFields_apart (n : Nat) : ∀ x ∈ slotFallFields n, ∀ y ∈ slotFallFields n, x = y ∨ x.1.Apart y.1 := by
  simp [slotFallFields, Fld.Apart, F.GATE_CH_FAULT_latched, F.GATE_CH_FAULT_desat, F.GATE_CH_FAULT_uv, F.GATE_CH_FAULT_ot,
    F.GATE_CH_EVENT_fault_clear, R.GATE_CH_FAULT, R.GATE_CH_EVENT]

theorem slotRise_shows (n : Nat) (s : State) : ((slotRise n).run s).on (F.GATE_CH_FAULT_latched n) = true ∧
    ((slotRise n).run s).on (F.GATE_CH_EVENT_fault n) = true ∧
    ((slotRise n).run s).rd (R.GATE_CH_FCNT n) = bumped (s.rd (R.GATE_CH_FCNT n)) ∧
    (((slotRise n).run s).hid.pod.get {} n).needCause = true := by
  obtain ⟨stuck, hsets⟩ := sets_slotRise n s
  have hbut := hsets.setsBut fun _ => False
  have hone {y : Fld} (hm : (y, 1) ∈ slotRiseFields s n stuck) (hbit : y.hi = y.lo) (hhi : y.hi ≤ 31) :
      ((slotRise n).run s).on y = true :=
    (hbut.on_of_mem not_false hm (fun x hx => slotRiseFields_apart s n stuck x hx _ hm) hbit hhi).trans (by simp)
  refine ⟨hone (by simp [slotRiseFields]) rfl (Nat.zero_le _), hone (by simp [slotRiseFields]) rfl (Nat.zero_le _), ?_, ?_⟩
  · have hm : countOne s (R.GATE_CH_FCNT n) ∈ slotRiseFields s n stuck := by simp [slotRiseFields]
    exact hbut.rd_of_mem not_false hm (eq_count_or_off_ne s n stuck)
  · rw [hsets.hid_eq, needHid, pod_get_put]

theorem slotFall_shows (n : Nat) (s : State) : ((slotFall n).run s).on (F.GATE_CH_FAULT_latched n) = false ∧
    ((slotFall n).run s).on (F.GATE_CH_EVENT_fault_clear n) = true ∧ ((slotFall n).run s).on (F.GATE_CH_FAULT_desat n) = false ∧
    ((slotFall n).run s).on (F.GATE_CH_FAULT_uv n) = false ∧ ((slotFall n).run s).on (F.GATE_CH_FAULT_ot n) = false := by
  have hbut := (sets_slotFall n s).setsBut fun _ => False
  have hval {y : Fld} {v : Nat} (hm : (y, v) ∈ slotFallFields n) (hbit : y.hi = y.lo) (hhi : y.hi ≤ 31) :
      ((slotFall n).run s).on y = decide (v % 2 = 1) :=
    hbut.on_of_mem not_false hm (fun x hx => slotFallFields_apart n x hx _ hm) hbit hhi
  have hzero {y : Fld} (hm : (y, 0) ∈ slotFallFields n) (hbit : y.hi = y.lo) (hhi : y.hi ≤ 31) : ((slotFall n).run s).on y = false :=
    (hval hm hbit hhi).trans (by simp)
  refine ⟨hzero ?_ rfl ?_, (hval (v := 1) ?_ rfl ?_).trans ?_, hzero ?_ rfl ?_, hzero ?_ rfl ?_, hzero ?_ rfl ?_⟩ <;>
  simp [slotFallFields, F.GATE_CH_FAULT_latched, F.GATE_CH_FAULT_desat, F.GATE_CH_FAULT_uv, F.GATE_CH_FAULT_ot,
    F.GATE_CH_EVENT_fault_clear]

theorem faultTaken_slotTake (hn : n < 48) (was isSet : Bool) (s : State) : FaultTaken n was isSet s ((slotTake n was isSet).run s) := by
  rw [run_slotTake]
  refine .congr ?_ (.refl n s) (sameFault_sourceSet hn isSet _)
  cases isSet
  · rw [run_only, if_neg (by simp), run_whenA]
    cases hlatched : s.on (F.GATE_CH_FAULT_latched n)
    · rw [if_neg (by simp)]
      exact ⟨nofun, nofun, fun _ => ⟨hlatched, fun h => absurd (hlatched.symm.trans h) Bool.false_ne_true⟩⟩
    · rw [if_pos (by simp)]
      obtain ⟨hoff, hshown⟩ := slotFall_shows n s
      exact ⟨nofun, nofun, fun _ => ⟨hoff, fun _ => hshown⟩⟩
  · rw [run_whenA, if_neg (by simp), run_only]
    cases was
    · rw [if_pos (by simp)]
      obtain ⟨hon, hshown⟩ := slotRise_shows n s
      exact ⟨fun _ _ => ⟨hon, hshown⟩, fun _ _ => hon, nofun⟩
    · rw [if_neg (by simp)]
      exact ⟨nofun, fun _ h => h, nofun⟩

theorem srcActive_slotTake (hn : n < 48) (was isSet : Bool) (s : State) :
    srcActive ((slotTake n was isSet).run s) (n / 24) (64 + n) = isSet := by
  rw [run_slotTake, (sourceSet_spec isSet (by omega) _).2 _ _ (by omega), if_pos ⟨rfl, rfl⟩]

end
end Sys2Proof.Machine
end

section
/-!
The twelve slots of a good vector, taken in order, and the settled obligation on fault vectors and the answers of pods.
-/

namespace Sys2Proof.Machine

/-! ### Actions for each member of a list -/

section
variable {α : Type} {f : α → Act} {l : List α}

/-- What each of the actions keeps, all of them keep. -/
theorem forEach_keeps {r : State → State → Prop} (hrefl : ∀ s, r s s) (htrans : ∀ {s t u}, r s t → r t u → r s u)
    (h : ∀ x ∈ l, ∀ s, r s ((f x).run s)) (s : State) : r s ((forEach l f).run s) := by
  induction l generalizing s with
  | nil => exact hrefl s
  | cons x l ih =>
    rw [run_forEach_cons]
    exact htrans (h x List.mem_cons_self s) (ih (fun y hy => h y (List.mem_cons_of_mem x hy)) _)

/-- What all others keep changes in the one action alone. -/
theorem exists_forEach_at {r : State → State → Prop} (hrefl : ∀ s, r s s) (htrans : ∀ {s t u}, r s t → r t u → r s u) {x : α}
    (hx : x ∈ l) (hl : l.Nodup) (h : ∀ y ∈ l, y ≠ x → ∀ s, r s ((f y).run s)) (s : State) :
    ∃ u, r s u ∧ r ((f x).run u) ((forEach l f).run s) := by
  obtain ⟨before, after, rfl⟩ := List.append_of_mem hx
  obtain ⟨-, hlast, hapart⟩ := List.nodup_append.1 hl
  refine ⟨(forEach before f).run s, forEach_keeps hrefl htrans (fun y hy => h y (by simp [hy]) ?_) s, ?_⟩
  · exact hapart y hy x List.mem_cons_self
  · rw [show forEach (before ++ x :: after) f = seq (before.map f ++ f x :: after.map f) by rw [forEach, List.map_append, List.map_cons],
      run_seq_append, run_seq_cons]
    refine forEach_keeps hrefl htrans (fun y hy => h y (by simp [hy]) ?_) _
    rintro rfl
    exact (List.nodup_cons.1 hlast).1 hy

/-- A counter that some of the actions count one event in, and the others leave. -/
theorem rd_forEach_count {off : Nat} {c : α → Bool}
    (h : ∀ x ∈ l, ∀ s, ((f x).run s).rd off = if c x then bumped (s.rd off) else s.rd off) (s : State) :
    ((forEach l f).run s).rd off = bumped^[(l.filter c).length] (s.rd off) := by
  induction l generalizing s with
  | nil => rfl
  | cons x l ih =>
    rw [run_forEach_cons, ih fun y hy => h y (List.mem_cons_of_mem x hy), h x List.mem_cons_self]
    cases hc : c x
    · rw [List.filter_cons_of_neg (by simp [hc])]
      rfl
    · rw [List.filter_cons_of_pos hc]
      rfl

end

/-! ### The slots of a good vector (R219, R222) -/

section
variable {s : State} {k : Fin 4} {slots : BitVec 12}

/-- What slot `a` of a good vector, received in `s`, brings about. -/
def slotAct (s : State) (k : Nat) (slots : BitVec 12) (a : Nat) : Act :=
  if podPresent s (12 * k + a) ∨ !slots.getLsbD a then
    slotTake (12 * k + a) (bit (s.f (F.GATE_LIG_STAT_fv k)) a) (slots.getLsbD a)
  else bump (R.GATE_LIG_ERR k)

theorem slotAct_of_taken {a : Nat} (h : podPresent s (12 * k + a) = true ∨ slots.getLsbD a = false) :
    slotAct s k slots a = slotTake (12 * k + a) (bit (s.f (F.GATE_LIG_STAT_fv k)) a) (slots.getLsbD a) :=
  if_pos (h.imp_right fun h => by simp [h])

theorem slotAct_of_stray {a : Nat} (hp : podPresent s (12 * k + a) = false) (hset : slots.getLsbD a = true) :
    slotAct s k slots a = bump (R.GATE_LIG_ERR k) :=
  if_neg (by simp [hp, hset])

/-- A bus and its pods belong to one die. -/
theorem die_of_pod (k : Nat) {a : Nat} (ha : a < 12) : (12 * k + a) / 24 = k / 2 := by omega

/-- The registers that slot `a` may change. -/
def slotActReg (k a off : Nat) : Prop := off = R.GATE_LIG_ERR k ∨ slotReg (12 * k + a) off

theorem slotOnly_slotAct {a : Nat} (ha : a < 12) (u : State) :
    SlotOnly (slotActReg k a) (12 * k + a) u ((slotAct s k slots a).run u) := by
  unfold slotAct
  split
  · exact (slotOnly_slotTake (by omega) _ _ u).mono fun _ => .inr
  · refine (sets_countOne (R.GATE_LIG_ERR k) u).slotOnly (List.forall_mem_singleton.2 (.inl rfl)) ?_ rfl fun _ _ => rfl
    simp only [List.forall_mem_singleton, countOne, wordFld, R.GATE_LIG_ERR, R.TRIP_SRC_ACT]
    omega

/-- A slot changes no register of another channel, and a stray slot none of any. -/
theorem not_slotActReg {a m off : Nat} (ha : a < 12) (hm : m < 48) (hne : m ≠ 12 * k + a)
    (hlo : 0xE1000 + m / 24 * 0x10000 + m % 24 * 0x100 ≤ off) (hhi : off < 0xE1000 + m / 24 * 0x10000 + m % 24 * 0x100 + 0x100) :
    ¬ slotActReg k a off := by
  rintro (h | h)
  · simp only [R.GATE_LIG_ERR] at h
    omega
  · have hbounds := slotReg_bounds (by omega) h
    omega

/-- A slot leaves the channels of the other pods as they are. -/
theorem sameChannel_slotAct {a m : Nat} (ha : a < 12) (hm : m < 48) (hne : m ≠ 12 * k + a) (u : State) :
    SameChannel m u ((slotAct s k slots a).run u) := by
  refine (slotOnly_slotAct ha u).sameChannel hm hne (not_slotActReg ha hm hne ?_ ?_) (not_slotActReg ha hm hne ?_ ?_)
    (not_slotActReg ha hm hne ?_ ?_) <;>
  simp only [R.GATE_CH_FAULT, R.GATE_CH_EVENT, R.GATE_CH_FCNT] <;> omega

/-- A stray slot leaves the channel as it is. -/
theorem sameChannel_slotAct_stray {a : Nat} (ha : a < 12) (hp : podPresent s (12 * k + a) = false) (hset : slots.getLsbD a = true)
    (u : State) : SameChannel (12 * k + a) u ((slotAct s k slots a).run u) := by
  rw [slotAct_of_stray hp hset]
  have hcount := sets_countOne (R.GATE_LIG_ERR k) u
  have hkeep (off : Nat) (hoff : R.GATE_LIG_ERR k ≠ off) : ((bump (R.GATE_LIG_ERR k)).run u).rd off = u.rd off :=
    (hcount.rd_eq off).trans (fieldWord_of_forall_ne (List.forall_mem_singleton.2 hoff) _)
  refine ⟨⟨hkeep _ ?_, hkeep _ ?_, hkeep _ ?_, by rw [hcount.hid_eq]⟩, srcActive_congr (hkeep _ ?_)⟩ <;>
  simp only [R.GATE_LIG_ERR, R.GATE_CH_FAULT, R.GATE_CH_EVENT, R.GATE_CH_FCNT, R.TRIP_SRC_ACT] <;> omega

/-- A slot counts an error of the bus where it is stray. -/
theorem rd_ligErr_slotAct {a : Nat} (ha : a < 12) (u : State) : ((slotAct s k slots a).run u).rd (R.GATE_LIG_ERR k) =
    if slots.getLsbD a && !podPresent s (12 * k + a) then bumped (u.rd (R.GATE_LIG_ERR k)) else u.rd (R.GATE_LIG_ERR k) := by
  by_cases htaken : podPresent s (12 * k + a) = true ∨ slots.getLsbD a = false
  · rw [slotAct_of_taken htaken, if_neg (by rcases htaken with h | h <;> simp [h])]
    refine (slotOnly_slotTake (by omega) _ _ u).regs _ fun h => ?_
    have hbounds := slotReg_bounds (by omega) h
    have hdie := die_of_pod k ha
    simp only [R.GATE_LIG_ERR] at hbounds
    omega
  · obtain ⟨hp, hset⟩ : podPresent s (12 * k + a) = false ∧ slots.getLsbD a = true := by simpa using htaken
    rw [slotAct_of_stray hp hset, if_pos (by simp [hset, hp])]
    exact ((sets_countOne (R.GATE_LIG_ERR k) u).setsBut fun _ => False).rd_of_mem not_false (List.mem_singleton_self _)
      (List.forall_mem_singleton.2 (.inl rfl))

/-! ### All twelve slots -/

/-- The registers that the slots of a vector on bus `k` change. -/
def slotsReg (k off : Nat) : Prop := ∃ a < 12, slotActReg k a off

/-- From `s` to `t` the slots of a vector on bus `k` are taken. -/
structure SlotsOnly (k : Nat) (s t : State) : Prop where
  regs : KeepRegs (slotsReg k) s t
  frame : GateFrame s t
  lig : t.hid.lig = s.hid.lig

theorem SlotsOnly.refl (k : Nat) (s : State) : SlotsOnly k s s :=
  ⟨fun _ _ => rfl, (Sets.refl s).gateFrame rfl, rfl⟩

theorem SlotsOnly.trans {k : Nat} {s t u : State} (a : SlotsOnly k s t) (b : SlotsOnly k t u) : SlotsOnly k s u :=
  ⟨fun off hoff => (b.regs off hoff).trans (a.regs off hoff), a.frame.trans b.frame, b.lig.trans a.lig⟩

theorem slotsOnly_slotActs (u : State) : SlotsOnly k u ((forEach (List.range 12) (slotAct s k slots)).run u) := by
  refine forEach_keeps (.refl _) .trans (fun a ha u => ?_) u
  obtain ⟨hregs, hframe, hlig, -⟩ := slotOnly_slotAct (s := s) (slots := slots) (k := k) (List.mem_range.1 ha) u
  exact ⟨fun off hoff => hregs off fun h => hoff ⟨a, List.mem_range.1 ha, h⟩, hframe, hlig⟩

theorem not_slotsReg_mode : ¬ slotsReg k R.SYS_MODE_STAT := by
  rintro ⟨a, ha, h | h⟩
  · simp only [R.GATE_LIG_ERR, R.SYS_MODE_STAT] at h
    omega
  · have hbounds := slotReg_bounds (by omega) h
    simp only [R.SYS_MODE_STAT] at hbounds
    omega

theorem not_slotsReg_ligStat : ¬ slotsReg k (R.GATE_LIG_STAT k) := by
  rintro ⟨a, ha, h | h⟩
  · simp only [R.GATE_LIG_ERR, R.GATE_LIG_STAT] at h
    omega
  · have hbounds := slotReg_bounds (by omega) h
    have hdie := die_of_pod k ha
    simp only [R.GATE_LIG_STAT] at hbounds
    omega

/-- The state after the vector is shown, before its slots are taken. -/
def vectorShown (s : State) (k : Nat) (slots : BitVec 12) : State :=
  (setF (F.GATE_LIG_STAT_fv k) slots.toNat).run ((ligA k vectorEnded).run s)

/-- The state that a good vector leads to. -/
def vectorEnd (s : State) (k : Nat) (slots : BitVec 12) : State :=
  levelsFall.run ((forEach (List.range 12) (slotAct s k slots)).run (vectorShown s k slots))

theorem sets_vectorShown (s : State) (k : Nat) (slots : BitVec 12) :
    Sets [(F.GATE_LIG_STAT_fv k, slots.toNat)] (withLig s k (vectorEnded (ligSt s k))) s (vectorShown s k slots) :=
  (sets_ligA k vectorEnded s).then_setF _ _

theorem rd_vectorShown {off : Nat} (hoff : R.GATE_LIG_STAT k ≠ off) : (vectorShown s k slots).rd off = s.rd off :=
  ((sets_vectorShown s k slots).rd_eq off).trans (fieldWord_of_forall_ne (List.forall_mem_singleton.2 hoff) _)

theorem sameChannel_vectorShown (s : State) (k : Fin 4) (slots : BitVec 12) {n : Nat} (hn : n < 48) :
    SameChannel n s (vectorShown s k slots) := by
  refine ⟨⟨rd_vectorShown ?_, rd_vectorShown ?_, rd_vectorShown ?_, by rw [(sets_vectorShown s k slots).hid_eq]; rfl⟩,
    srcActive_congr (rd_vectorShown ?_)⟩ <;>
  simp only [R.GATE_LIG_STAT, R.GATE_CH_FAULT, R.GATE_CH_EVENT, R.GATE_CH_FCNT, R.TRIP_SRC_ACT] <;> omega

/-- The levels that summaries are seen in are no part of a channel. -/
theorem sameChannel_levelsFall (n : Nat) (u : State) : SameChannel n u (levelsFall.run u) :=
  ⟨⟨run_levelsFall_rd _ _, run_levelsFall_rd _ _, run_levelsFall_rd _ _, by rw [run_levelsFall_hid]⟩,
    srcActive_congr (run_levelsFall_rd _ _)⟩

theorem slotsOnly_vectorEnd (s : State) (k : Fin 4) (slots : BitVec 12) : SlotsOnly k (vectorShown s k slots) (vectorEnd s k slots) :=
  (slotsOnly_slotActs _).trans
    ⟨fun _ _ => run_levelsFall_rd _ _, (Sets.refl _).then_levelsFall.gateFrame rfl, congrArg Hid.lig (run_levelsFall_hid _)⟩

/-- A good vector ends a vector in progress, shows in `GATE_LIG_STAT`, and its slots are taken in order. -/
theorem run_vectorRx (hrx : busRx s k = true) : (vectorRx k slots (vectorCrc slots)).run s =
    (forEach (List.range 12) (slotAct s k slots)).run (vectorShown s k slots) := by
  have hrun : vectorRx k slots (vectorCrc slots) s =
      seq [ligA k vectorEnded, setF (F.GATE_LIG_STAT_fv k) slots.toNat, forEach (List.range 12) (slotAct s k slots)] s := by
    unfold vectorRx
    rw [if_neg (by simp [hrx])]
    exact if_neg (not_not_intro rfl)
  rw [Act.run, hrun]
  show (seq _).run s = _
  rw [run_seq_cons, run_seq_cons, run_seq_cons, run_seq_nil, vectorShown]

theorem completes_vector {P : State → Prop} (hrx : busRx s k = true) (hp : P (vectorEnd s k slots)) :
    Completes (.faultVectorRx k slots (vectorCrc slots)) s P := by
  refine completes_of ((exec_faultVectorRx k slots _ s).trans (finish_same _ _ ?_)) (by rw [run_vectorRx hrx]; exact hp)
  rw [run_vectorRx hrx]
  refine congrArg F.SYS_MODE_STAT_mode.get (((slotsOnly_slotActs _).regs _ not_slotsReg_mode).trans (rd_vectorShown ?_))
  simp only [R.GATE_LIG_STAT, R.SYS_MODE_STAT]
  omega

/-! ### What a good vector leaves -/

theorem vectorEnd_fv (s : State) (k : Fin 4) (slots : BitVec 12) : (vectorEnd s k slots).f (F.GATE_LIG_STAT_fv k) = slots.toNat := by
  have hval : (vectorShown s k slots).f (F.GATE_LIG_STAT_fv k) = slots.toNat % 2 ^ 12 :=
    ((sets_vectorShown s k slots).setsBut fun _ => False).f_of_mem not_false (List.mem_singleton_self _)
      (List.forall_mem_singleton.2 (.inl rfl)) (by simp [F.GATE_LIG_STAT_fv]) (by simp [F.GATE_LIG_STAT_fv])
  rw [f_of_rd_eq (x := F.GATE_LIG_STAT_fv k) ((slotsOnly_vectorEnd s k slots).regs _ not_slotsReg_ligStat), hval,
    Nat.mod_eq_of_lt slots.isLt]

theorem vectorEnd_ligErr (s : State) (k : Fin 4) (slots : BitVec 12) : (vectorEnd s k slots).rd (R.GATE_LIG_ERR k) =
    bumped^[((List.range 12).filter fun a => slots.getLsbD a && !podPresent s (12 * k + a)).length] (s.rd (R.GATE_LIG_ERR k)) := by
  have hshown : (vectorShown s k slots).rd (R.GATE_LIG_ERR k) = s.rd (R.GATE_LIG_ERR k) := by
    refine rd_vectorShown ?_
    simp only [R.GATE_LIG_STAT, R.GATE_LIG_ERR]
    omega
  rw [vectorEnd, run_levelsFall_rd, rd_forEach_count fun a ha => rd_ligErr_slotAct (List.mem_range.1 ha), hshown]

theorem ligSt_vectorEnd (s : State) (k : Fin 4) (slots : BitVec 12) : ligSt (vectorEnd s k slots) k = vectorEnded (ligSt s k) :=
  ligSt_withLig ((slotsOnly_vectorEnd s k slots).lig.trans (congrArg Hid.lig (sets_vectorShown s k slots).hid_eq))

theorem gateFrame_vectorEnd (s : State) (k : Fin 4) (slots : BitVec 12) : GateFrame s (vectorEnd s k slots) :=
  ((sets_vectorShown s k slots).gateFrame rfl).trans (slotsOnly_vectorEnd s k slots).frame

/-- A slot that is taken shows in its trip source and in the registers of its channel. -/
theorem vectorEnd_taken {a : Nat} (ha : a < 12) (h : podPresent s (12 * k + a) = true ∨ slots.getLsbD a = false) :
    srcActive (vectorEnd s k slots) ((12 * k + a) / 24) (64 + (12 * k + a)) = slots.getLsbD a ∧
    FaultTaken (12 * k + a) (bit (s.f (F.GATE_LIG_STAT_fv k)) a) (slots.getLsbD a) s (vectorEnd s k slots) := by
  obtain ⟨u, hbefore, hafter⟩ := exists_forEach_at (r := SameChannel (12 * k + a)) (.refl _) .trans (List.mem_range.2 ha)
    (List.nodup_range) (fun b hb hne => sameChannel_slotAct (s := s) (slots := slots) (k := k) (List.mem_range.1 hb) (by omega)
      (by omega)) (vectorShown s k slots)
  have hend := hafter.trans (sameChannel_levelsFall _ _)
  rw [slotAct_of_taken h] at hend
  exact ⟨hend.source.trans (srcActive_slotTake (by omega) _ _ u),
    (faultTaken_slotTake (by omega) _ _ u).congr ((sameChannel_vectorShown s k slots (by omega)).trans hbefore).toSameFault
      hend.toSameFault⟩

/-- A stray slot shows nowhere but in the count. -/
theorem vectorEnd_stray {a : Nat} (ha : a < 12) (hp : podPresent s (12 * k + a) = false) (hset : slots.getLsbD a = true) :
    SameChannel (12 * k + a) s (vectorEnd s k slots) := by
  refine (sameChannel_vectorShown s k slots (by omega)).trans (.trans ?_ (sameChannel_levelsFall _ _))
  refine forEach_keeps (r := SameChannel (12 * k + a)) (.refl _) .trans (fun b hb => ?_) _
  by_cases hb' : b = a
  · subst hb'
    exact sameChannel_slotAct_stray ha hp hset
  · exact sameChannel_slotAct (List.mem_range.1 hb) (by omega) (by omega)

end

/-! ### The obligation -/

/-- Settles O28: a good fault vector is followed slot by slot, as each slot leaves the channels of the other pods alone; the answers go
through what a TELEM and an ACK set. -/
theorem faultVectorsAndPodAnswersAreRegistered : Obligations.FaultVectorsAndPodAnswersAreRegistered := by
  unfold Obligations.FaultVectorsAndPodAnswersAreRegistered
  refine ⟨fun s k slots hrx => ⟨fun crc hcrc => completes_vector_bad hrx hcrc, completes_vector hrx ⟨vectorEnd_fv s k slots,
    vectorEnd_ligErr s k slots, ligSt_vectorEnd s k slots, fun a hp => ?_, fun a hslot => ?_, fun a hp hslot => ?_,
    gateFrame_vectorEnd s k slots⟩⟩, fun s n hrx hp => ⟨fun hcur vds temp supply status => ⟨fun crc hcrc => ?_, fun hsync => ?_,
    completes_telem_resync vds temp supply status hrx hp hcur⟩, fun addr data => ⟨fun x v crc hcur hcrc => ?_,
    completes_ack_same hrx hp, completes_ack_other hrx hp, completes_ack_clear hrx hp⟩⟩⟩
  · obtain ⟨hsource, hrises, hstays, -⟩ := vectorEnd_taken (slots := slots) a.isLt (.inl hp)
    exact ⟨hsource, hrises, hstays⟩
  · obtain ⟨hsource, -, -, hfalls⟩ := vectorEnd_taken (s := s) (k := k) a.isLt (.inr hslot)
    exact ⟨hsource.trans hslot, hfalls hslot⟩
  · have hstray := vectorEnd_stray a.isLt hp hslot
    exact ⟨hstray.fault, hstray.source⟩
  · rw [exec_telem, exec_podAnswerTimeout]
    exact finish_congr (telemRx_of_bad vds temp supply status hrx hp hcur hcrc)
  · obtain ⟨t, hexec, hreport, hhid⟩ := completes_telem vds temp supply status hrx hp hcur hsync
    obtain ⟨hlost, hbit⟩ := telem_found hreport
    have hlig : ligSt t (n / 12) = heard (n % 12) (ligSt s (n / 12)) := ligSt_withLig (by rw [hhid]; rfl)
    have hbuses : t.hid.lig = (heardHid s n).lig := by rw [hhid]
    obtain ⟨hvds, hsupply, htemp, hstatus⟩ := telem_report hreport
    exact ⟨t, hexec, hvds, hsupply, htemp, hstatus, telem_ts hreport, telem_warn hreport, telem_warned hreport, hlost, hbit,
      hlig.trans (if_pos hcur), telem_causes hreport, hhid.trans (by rw [hbuses]; rfl), hreport.2⟩
  · rw [exec_ack, exec_podAnswerTimeout]
    exact finish_congr (ackRx_of_bad hrx hp hcur hcrc)
end Sys2Proof.Machine
end


section
/-!
Triggers of the Bore engines that start no step (R249 to R251): during a step and in a hold.
-/

namespace Sys2Proof.Machine

/-! ### What such a trigger sets -/

/-- Software alone triggers engine `e` (R249). -/
@[reducible] def BySoftware (s : State) (e : Nat) : Prop := s.mode = SERVICE ∨ s.f (F.BORE_TRIG_kind e) = 3

/-- Engine `e` is in a hold that counts the next trigger: it was not set in this cycle (R263), and is below its limit (R259). -/
@[reducible] def InHold (s : State) (e : Nat) : Prop :=
  s.on (F.BORE_STAT_busy e) = false ∧ boreOn s e = true ∧ steppingMode s.mode = true ∧ s.on (F.BORE_CTL_hold e) = true ∧
    (boreSt s e).holdT.any (sameCyc (boreCyc s) s.now) = false ∧ s.f (F.BORE_HOLD_count e) < max 1 (s.f (F.BORE_HOLD_lim e))

/-- What a trigger during a step sets (R251). -/
def stepLostFields (s : State) (e : Nat) : List (Fld × Nat) := [countOne s (R.BORE_LOST_CNT e), (F.BORE_EVENT_step_lost e, 1)]

/-- What a trigger in a hold sets (R251, R259). -/
def holdCountFields (s : State) (e : Nat) : List (Fld × Nat) := [(F.BORE_HOLD_count e, s.f (F.BORE_HOLD_count e) + 1)]

section
variable {s : State} {e : Nat} {ts : BitVec 64} {go : Bool}

/-- A trigger is taken where it comes from the source that acts. -/
theorem trigger_taken_iff : ¬ go ≠ (s.mode = SERVICE || s.f (F.BORE_TRIG_kind e) = 3) ↔ (go = true ↔ BySoftware s e) := by
  rw [not_ne_iff, Bool.eq_iff_iff, Bool.or_eq_true, decide_eq_true_iff, decide_eq_true_iff]

variable (hn : stageCount s e ≠ 0) (hgo : go = true ↔ BySoftware s e)
include hn hgo

theorem sets_boreTrigger_inStep (hb : s.on (F.BORE_STAT_busy e) = true) :
    Sets (stepLostFields s e) s.hid s ((boreTrigger e ts go).run s) := by
  have hrun : (boreTrigger e ts go).run s = (setB (F.BORE_EVENT_step_lost e)).run ((bump (R.BORE_LOST_CNT e)).run s) := by
    unfold Act.run boreTrigger
    rw [if_neg (not_or.2 ⟨hn, trigger_taken_iff.2 hgo⟩), if_pos hb]
    exact run_seq_cons _ _ s
  rw [hrun]
  exact (sets_countOne _ s).then_setF _ _

theorem sets_boreTrigger_inHold (hh : InHold s e) : Sets (holdCountFields s e) s.hid s ((boreTrigger e ts go).run s) := by
  obtain ⟨hb, hon, hm, hhold, hset, hroom⟩ := hh
  have hrun : (boreTrigger e ts go).run s = (setF (F.BORE_HOLD_count e) (s.f (F.BORE_HOLD_count e) + 1)).run s := by
    unfold Act.run boreTrigger
    rw [if_neg (not_or.2 ⟨hn, trigger_taken_iff.2 hgo⟩), if_neg (by simp [hb]), if_neg (by simp [hon, hm]),
      if_pos (by simp [hhold, hset])]
    exact congrArg (applyAll · s) (if_pos hroom)
  rw [hrun]
  exact Sets.setF _ _ s

end

/-! ### The commands -/

section
variable {s : State} {e : Nat} {l : List (Fld × Nat)} {h : Hid}

/-- The fields lie above the register of the mode, and none of them in `BORE[e]_STAT`, where `busy` lies. -/
@[reducible] def StartsNone (e : Nat) (l : List (Fld × Nat)) : Prop := FieldsAbove l ∧ ∀ x ∈ l, x.1.off ≠ R.BORE_STAT e

theorem startsNone_stepLostFields (s : State) (e : Nat) : StartsNone e (stepLostFields s e) := by
  refine ⟨⟨.add rfl, .add rfl, trivial⟩, ?_⟩
  simp [stepLostFields, countOne, wordFld, F.BORE_EVENT_step_lost, R.BORE_LOST_CNT, R.BORE_EVENT, R.BORE_STAT]

theorem startsNone_holdCountFields (s : State) (e : Nat) : StartsNone e (holdCountFields s e) := by
  refine ⟨⟨.add rfl, trivial⟩, ?_⟩
  simp [holdCountFields, F.BORE_HOLD_count, R.BORE_HOLD, R.BORE_STAT]

/-- No record of the Leader is applied before an action that starts no step (R406). -/
theorem sets_boreHook {a : Act} (hs : Sets l h s (a.run s)) (hl : StartsNone e l) : Sets l h s ((boreHook e a).run s) := by
  have hbusy : (a.run s).on (F.BORE_STAT_busy e) = s.on (F.BORE_STAT_busy e) :=
    on_of_rd_eq ((hs.rd_eq _).trans (fieldWord_of_forall_ne hl.2 _))
  have hrun : boreHook e a s = a s := by
    unfold boreHook mirHook
    rw [if_neg (by simp [hbusy])]
  rwa [show (boreHook e a).run s = a.run s from congrArg (applyAll · s) hrun]

/-- The state in which the oldest trigger on its way to engine `e` has arrived, `rest` being the others. -/
def triggerTaken (s : State) (e : Nat) (rest : List (BitVec 64)) : State := (boreA e fun b => { b with trigs := rest }).run s

theorem boreSt_triggerTaken (s : State) (e : Nat) (rest : List (BitVec 64)) :
    boreSt (triggerTaken s e rest) e = { boreSt s e with trigs := rest } :=
  (Tab.get_put _ _ _ _ _ (fun _ => rfl) _).trans (if_pos rfl)

theorem inHold_triggerTaken (hh : InHold s e) (rest : List (BitVec 64)) : InHold (triggerTaken s e rest) e := by
  obtain ⟨hb, hon, hm, hhold, hset, hroom⟩ := hh
  refine ⟨hb, hon, hm, hhold, ?_, hroom⟩
  rw [boreSt_triggerTaken]
  exact hset

theorem run_boreRouted {ts : BitVec 64} {rest : List (BitVec 64)} (ht : (boreSt s e).trigs = ts :: rest) :
    (boreRouted e).run s = (boreTrigger e ts false).run (triggerTaken s e rest) := by
  unfold Act.run boreRouted
  rw [ht]
  exact (run_seq_cons _ _ s).trans (run_seq_cons _ _ _)

/-- BORE_TRIGGER completes with what its trigger sets, which is no longer on its way. -/
theorem completes_boreTrigger {e : Fin 8} {ts : BitVec 64} {rest : List (BitVec 64)} (ht : (boreSt s e).trigs = ts :: rest)
    (hs : Sets l (triggerTaken s e rest).hid (triggerTaken s e rest) ((boreTrigger e ts false).run (triggerTaken s e rest)))
    (hl : StartsNone e l) :
    Completes (.boreTrigger e) s (Sets l (withBore s e { boreSt s e with trigs := rest }) s) := by
  have htaken : Sets [] (triggerTaken s e rest).hid s (triggerTaken s e rest) := Sets.hidA _ s
  refine completes_above (sets_boreHook ?_ hl) hl.1 rfl
  rw [run_boreRouted ht]
  exact htaken.trans hs

/-- A write of `BORE[e]_CTL` that asks for no clear and no initialisation, and leaves `hold`, is its `go` (R249). -/
theorem run_boreCtl_go {p : Port} {v : Word} (hclr : v.getLsbD 8 = false) (hinit : v.getLsbD 5 = false)
    (hhold : v.getLsbD 4 = s.on (F.BORE_CTL_hold e)) : (boreCtl p e (v ||| 1#32)).run s = (boreTrigger e s.now true).run s := by
  unfold boreCtl
  simp only [BitVec.getLsbD_or, run_seq_cons, run_seq_nil, run_only, hclr, hinit, hhold]
  cases hon : s.on (F.BORE_CTL_hold e) <;> simp [Act.run, applyAll, hon]

/-- BORE_GO completes with what its trigger sets. -/
theorem completes_boreGo {e : Fin 8} {p : Port} {v : Word} (hlive : Live p s (R.BORE_CTL e) = true) (hclr : v.getLsbD 8 = false)
    (hinit : v.getLsbD 5 = false) (hhold : v.getLsbD 4 = s.on (F.BORE_CTL_hold e))
    (hs : Sets l s.hid s ((boreTrigger e s.now true).run s)) (hl : StartsNone e l) :
    Completes (.boreGo p e v) s (Sets l s.hid s) := by
  refine completes_portGate hlive rfl (sets_boreHook ?_ hl) (hl.1.ne (by decide))
  rwa [run_boreCtl_go hclr hinit hhold]

end

/-! ### The obligation -/

/-- Settles O31: a trigger, routed or written, does the same once it comes from the source that acts; it sets nothing in `BORE[e]_STAT`,
so no step starts, and on a Shadow no record is applied. -/
theorem triggersInAStepOrAHoldAreDiscarded : Obligations.TriggersInAStepOrAHoldAreDiscarded := by
  unfold Obligations.TriggersInAStepOrAHoldAreDiscarded
  intro s e hn bySoftware lost held inStep inHold
  refine ⟨fun ts rest ht hrouted => ?_, fun p v hlive hclr hinit hhold hsoft => ?_⟩
  · have hgo : false = true ↔ BySoftware (triggerTaken s e rest) e := iff_of_false Bool.false_ne_true hrouted
    exact ⟨fun hb => completes_boreTrigger ht (sets_boreTrigger_inStep hn hgo hb) (startsNone_stepLostFields _ _),
      fun hh => completes_boreTrigger ht (sets_boreTrigger_inHold hn hgo (inHold_triggerTaken hh rest)) (startsNone_holdCountFields _ _)⟩
  · have hgo : true = true ↔ BySoftware s e := iff_of_true rfl hsoft
    exact ⟨fun hb => completes_boreGo hlive hclr hinit hhold (sets_boreTrigger_inStep hn hgo hb) (startsNone_stepLostFields _ _),
      fun hh => completes_boreGo hlive hclr hinit hhold (sets_boreTrigger_inHold hn hgo hh) (startsNone_holdCountFields _ _)⟩

end Sys2Proof.Machine
end

section
/-!
The statement on the grid block, which fails in the values that a step latches.
-/

namespace Sys2Proof.Machine

/-- The grid block idles in FOLLOW, triggered by converter 0, whose result feeds its input slot 0; the trigger is on its way, and the
result 5 has reached the island boundary and not yet its slot. -/
def gridResultAtBoundary : State := (seq [setW R.SYS_ISLAND_EN 0x07FFFFFF#32, setF F.SYS_MODE_STAT_mode FOLLOW,
  setF F.GRID_TRIG_kind 0, fingA fun g => { g with recs := [⟨tRouteConv, 0, [0#8, 0#8, 1#8]⟩] },
  gridA fun g => { g with trigs := [0#64], fifo := [(0, 5)] }]).run State.reset

/-- Refutes O33: a grid step is said to latch the values in the input slots as they stood before its start, but the results that wait at
the island boundary reach their slots first (R33, R266).  In `gridResultAtBoundary` the step latches 5 for slot 0, where the slot still
held 0.  The clauses of `starts` on `GRID_IN` and on stale and saturated slots would need the state after `gridDrain` in place of
`gridMirrored s`. -/
theorem not_gridStepsPublishAndBasesScale : ¬ Obligations.GridStepsPublishAndBasesScale := by
  unfold Obligations.GridStepsPublishAndBasesScale
  rintro ⟨⟨hgrid, -⟩, -⟩
  obtain ⟨-, htrig, -⟩ := hgrid gridResultAtBoundary (by decide +kernel)
  obtain ⟨-, -, -, hstart⟩ := htrig 0#64 [] (by decide +kernel)
  have hslot := (hstart (by decide +kernel) (by decide +kernel) (by decide +kernel)).answerHas_true
    (fun t => t.pu (R.GRID_IN 0) = 0)
    fun t ⟨⟨_, _, _, _, _, _, _, _, _, hin, _⟩, _⟩ => decide_eq_true ((hin 0).trans (by decide +kernel))
  exact absurd hslot (by decide +kernel)

end Sys2Proof.Machine
end

section
/-!
The statements on the scope of the model: a step runs the front command, every command completes and leaves the queue, and every step
keeps the canonical form.  They rest on one fact, that each command answers what its meaning's updates lead to.
-/

namespace Sys2Proof.Machine

/-- Each command answers what `finish` makes of its meaning. -/
theorem exec_eq_finish (c : Instr) (s : State) : ∃ a, exec c s = finish a s := by
  cases c <;> exact ⟨_, rfl⟩

/-- Each command answers the state that a list of updates leads to. -/
theorem exec_next (c : Instr) (s : State) : ∃ us, exec c s = .next (applyAll us s) := by
  obtain ⟨a, ha⟩ := exec_eq_finish c s
  rw [ha]
  exact finish_next a s

theorem step_of_pending {s : State} {c : Instr} {cs : List Instr} (h : s.pending = c :: cs) :
    step s = exec c { s with pending := cs } := by
  unfold step
  rw [h]

theorem step_of_idle {s : State} (h : s.pending = []) :
    step s = if s.now = BitVec.allOnes 64 then exec .deviceTimeWrap s else .next { s with now := s.now + 1#64 } := by
  unfold step
  split
  · rfl
  · next c cs hc => cases h.symm.trans hc

/-- Settles O1, by the two cases of the queue. -/
theorem stepRunsTheFrontCommand : Obligations.StepRunsTheFrontCommand := by
  unfold Obligations.StepRunsTheFrontCommand
  refine ⟨fun s c cs h => step_of_pending h, fun s h hn => ?_, fun s h hn => ?_⟩
  · rw [step_of_idle h, if_neg hn]
  · rw [step_of_idle h, if_pos hn]

/-- Settles O2: updates leave the queue. -/
theorem everyCommandCompletesAndLeavesTheQueue : Obligations.EveryCommandCompletesAndLeavesTheQueue := by
  unfold Obligations.EveryCommandCompletesAndLeavesTheQueue
  intro c s
  obtain ⟨us, hus⟩ := exec_next c s
  exact ⟨_, hus, applyAll_pending us s⟩

/-- A command keeps the canonical form. -/
theorem exec_keeps_wf {c : Instr} {s t : State} (h : s.wf = true) (ht : exec c s = .next t) : t.wf = true := by
  obtain ⟨us, hus⟩ := exec_next c s
  rw [hus] at ht
  exact Host.Outcome.next.inj ht ▸ applyAll_wf us s h

/-- Settles O3: a waiting command keeps the canonical form whatever else waits, and a tick changes no table. -/
theorem stepKeepsTheCanonicalForm : Obligations.StepKeepsTheCanonicalForm := by
  unfold Obligations.StepKeepsTheCanonicalForm
  intro s t h ht
  cases hp : s.pending with
  | cons c cs =>
    rw [step_of_pending hp] at ht
    exact exec_keeps_wf (s := { s with pending := cs }) h ht
  | nil =>
    rw [step_of_idle hp] at ht
    split at ht
    · exact exec_keeps_wf h ht
    · exact Host.Outcome.next.inj ht ▸ h

end Sys2Proof.Machine
end

section
/-!
The statements on the Whistle's commands, on lockstep and on the Drone that fail in one clause.  Each says that a command leaves the
memories, but the Drone judges its sources with it; where HALT is overdue the judgement ends CONFIGURE and abandons an update, whose
block in work leaves its sector of the flash undefined (R467, R445).
-/

namespace Sys2Proof.Machine

/-- Where the Drone acts outside force 3, the statement leaves the memories. -/
theorem DroneActs.sameMem {l : List (Fld × Nat)} {h : Hid} {s t : State} (ha : DroneActs l h s t)
    (hl : ∀ x ∈ l, x.1.off ≠ R.FING_STAT) (hf : s.force ≠ 3) : SameMem s t := by
  obtain ⟨u, hu, v, hv, -, hacts⟩ := ha
  have hrole : SameMem u v ∧ v.rd R.FING_STAT = u.rd R.FING_STAT := by
    unfold RoleFollows at hv
    split at hv
    · exact ⟨hv.sameAside.1, hv.rd_eq _⟩
    · split at hv
      · exact ⟨hv.sameAside.1, hv.rd_eq _⟩
      · exact ⟨hv.sameAside.1, (hv.rd_eq _).trans (fieldWord_of_forall_ne (by simp +decide) _)⟩
  have hstat : v.rd R.FING_STAT = s.rd R.FING_STAT :=
    hrole.2.trans ((hu.rd_eq _).trans (fieldWord_of_forall_ne hl _))
  have hforce : v.force = s.force := congrArg F.FING_STAT_force.get hstat
  obtain ⟨_, _, _, _, _, _, _, _, _, _, _, _, haside, _⟩ := hacts fun ⟨_, h3, _⟩ => hf (hforce ▸ h3)
  exact hu.sameAside.1.trans (hrole.1.trans haside.1)

/-- The state `haltDue a`, in which HALT is due, with a byte at the sector of the block in work that is not the free value of count
`n`. -/
def haltDueAt (n : Nat) (a : Act) : State := { haltDue a with flash := [(0, Config.freeFlash n 0 + 1#8)] }

theorem haltDueAt_flByte_ne (n : Nat) (a : Act) : (haltDueAt n a).flByte 0 ≠ Config.freeFlash n 0 := by
  have hbyte : (haltDueAt n a).flByte 0 = Config.freeFlash n 0 + 1#8 := rfl
  rw [hbyte]
  bv_omega

/-- Such a state refutes a statement that a command leaves the memories. -/
theorem HaltsInWork.refutes {n : Nat} {a b : Act} {c : Instr} {P : State → Prop} (h : HaltsInWork b n (haltDueAt n a))
    (hc : Completes c (haltDueAt n a) P) (he : ∀ s, exec c s = finish b s) (hmem : ∀ t, P t → SameMem (haltDueAt n a) t) : False :=
  h.not_sameMem (he _) (haltDueAt_flByte_ne n a) hc hmem

/-! ### The Whistle (R330) -/

/-- Every island runs, so that `PROBE_CTL` can be written. -/
def clearHalts : State := haltDueAt 1 (setW R.SYS_ISLAND_EN 0x07FFFFFF#32)

/-- Refutes O35: clearing an island declaration is said to leave the memories, but the Drone judges its sources without the island
then, and in `clearHalts`, where HALT is overdue, the HALT that follows abandons the update.  The clause would need the premise that
no block of an update is in work, or to leave the flash out. -/
theorem not_whistleAssignsRelearnsAndClears : ¬ Obligations.WhistleAssignsRelearnsAndClears := by
  unfold Obligations.WhistleAssignsRelearnsAndClears
  rintro ⟨-, hctl⟩
  obtain ⟨-, -, hclear⟩ := hctl clearHalts .pcie 0#32 (by decide +kernel)
  have hdone := hclear (by decide +kernel) (by decide +kernel)
  have hhalt : HaltsInWork (portGate .pcie R.PROBE_CTL (probeCtl .pcie (0#32 ||| 1#32))) 1 clearHalts := by decide +kernel
  exact hhalt.refutes hdone (fun _ => rfl) fun t ⟨_, _, _, _, _, hmem, _⟩ => hmem

/-! ### Lockstep (R362) -/

/-- HALT is due, and the count of free values that an abandoned block takes is 2. -/
def faultHalts : State := haltDueAt 2 nop

/-- Refutes O38: a comparator difference is said to leave the memories, but the lockstep-failure line makes the Drone judge its sources,
and in `faultHalts` the HALT that follows abandons the update.  The clauses of the first half, and those of the self-test, would need
the premise that no block of an update is in work, or to leave the flash out. -/
theorem not_lockstepBreaksAndIsMended : ¬ Obligations.LockstepBreaksAndIsMended := by
  unfold Obligations.LockstepBreaksAndIsMended
  rintro ⟨hbreaks, -⟩
  obtain ⟨hmismatch, -⟩ := hbreaks faultHalts (by decide +kernel)
  have hdone := hmismatch 0 (by decide +kernel) (by decide +kernel)
  have hhalt : HaltsInWork (lockstepMismatch 0) 2 faultHalts := by decide +kernel
  exact hhalt.refutes hdone (fun _ => rfl) fun t ⟨⟨_, _, _, _, _, hmem, _⟩, _⟩ => hmem

/-! ### The Drone (R376, R377, R388, R389) -/

/-- HALT is due at the Drone's next cycle. -/
def cycleHalts : State := haltDueAt 1 nop

/-- Refutes O40: a Drone cycle is said to leave the memories, but in `cycleHalts` it brings HALT, which abandons the update.
`DroneEvaluates` would need the premise that no block of an update is in work, or to leave the flash out. -/
theorem not_droneActsOnItsSourcesAndInputs : ¬ Obligations.DroneActsOnItsSourcesAndInputs := by
  unfold Obligations.DroneActsOnItsSourcesAndInputs
  rintro ⟨hsources, -⟩
  obtain ⟨hcycle, -⟩ := hsources cycleHalts (by decide +kernel)
  have hhalt : HaltsInWork droneEval 1 cycleHalts := by decide +kernel
  exact hhalt.refutes hcycle (fun _ => rfl) fun t ht => ht.sameMem (by simp) (by decide +kernel)

/-- HALT is due, and the Drone has counted the demand of the line fault too. -/
def lineHalts : State := (droneA fun x => { x with dem := 0x40002 }).run (haltDueAt 1 nop)

/-- Refutes O41: a fault that latches is said to be followed by a Drone cycle that leaves the memories, but in `lineHalts` the cycle
after a wrong readback brings HALT, as with O40. -/
theorem not_watchdogAndDroneFaultsLatch : ¬ Obligations.WatchdogAndDroneFaultsLatch := by
  unfold Obligations.WatchdogAndDroneFaultsLatch
  rintro ⟨-, hfaults⟩
  obtain ⟨-, -, hline, -⟩ := hfaults lineHalts (by decide +kernel)
  have hhalt : HaltsInWork lineFault 1 lineHalts := by decide +kernel
  have hexec : ∀ s, exec .forcedOffReadback s = finish lineFault s := fun _ => rfl
  exact hhalt.not_sameMem (hexec _) (haltDueAt_flByte_ne 1 nop) hline fun t ht => ht.sameMem (by simp +decide) (by decide +kernel)

/-- A test round runs, and the first switch has its turn. -/
def pulseHalts : State := haltDueAt 1 (setB F.DRONE_TP_running)

/-- Refutes O42: a test pulse that a demand overtakes is said to leave the memories, but the Drone judges its sources with it, and in
`pulseHalts` the HALT that follows abandons the update.  This clause, and the one of a stuck switch, would need the premise that no
block of an update is in work, or to leave the flash out. -/
theorem not_testRoundsWalkTheSwitches : ¬ Obligations.TestRoundsWalkTheSwitches := by
  unfold Obligations.TestRoundsWalkTheSwitches
  rintro ⟨-, hturn⟩
  obtain ⟨-, -, -, hdemand⟩ := hturn pulseHalts true true (by decide +kernel) (by decide +kernel)
  have hhalt : HaltsInWork (testPulse true true true) 1 pulseHalts := by decide +kernel
  exact hhalt.refutes hdemand (fun _ => rfl) fun t ⟨_, _, _, _, hmem, _⟩ => hmem

/-- Refutes O43: SVCKEY's presence is said to be followed by a Drone cycle that leaves the memories, but in `cycleHalts` the cycle
brings HALT, as with O40. -/
theorem not_droneCommandsAndResetAreJudged : ¬ Obligations.DroneCommandsAndResetAreJudged := by
  unfold Obligations.DroneCommandsAndResetAreJudged
  rintro ⟨hkey, -⟩
  obtain ⟨hpresent, -⟩ := hkey cycleHalts (by decide +kernel)
  have hdone := hpresent (by decide +kernel)
  have hhalt : HaltsInWork svckeyPresent 1 cycleHalts := by decide +kernel
  exact hhalt.refutes hdone (fun _ => rfl) fun t ht => ht.sameMem (by simp +decide) (by decide +kernel)

end Sys2Proof.Machine
end

section
/-!
The statements on the pair that fail in one clause: the peer's HELLO and a takeover are said to leave the memories, as in the part
before; and a Leader's demand is said to leave its role, though the HALT that it brings may take it.
-/

namespace Sys2Proof.Machine

/-! ### A HALT in work with ROLE free to be high (R398, R467) -/

/-- As `haltDueAt`, but the demand that the Drone has counted is that of the island line, which does not take a Leader's ROLE down. -/
def roleHalts (n : Nat) (a : Act) : State :=
  (seq [chntA fun c => { c with line := false }, droneA fun x => { x with island := true, dem := 8 }]).run
    (haltDueAt n (seq [setW R.SYS_ISLAND_EN 0x07FFFFFF#32, setB (F.SYS_SEAM_STAT_up 0), setB (F.SYS_SEAM_STAT_up 1), a]))

theorem roleHalts_flash (n : Nat) (a : Act) : (roleHalts n a).flash = [(0, Config.freeFlash n 0 + 1#8)] := by
  unfold roleHalts chntA droneA
  rw [run_seq_cons, run_seq_cons, run_seq_nil, run_hidA, run_hidA]
  rfl

theorem roleHalts_flByte_ne (n : Nat) (a : Act) : (roleHalts n a).flByte 0 ≠ Config.freeFlash n 0 := by
  have hbyte : (roleHalts n a).flByte 0 = Config.freeFlash n 0 + 1#8 := by
    unfold State.flByte
    rw [roleHalts_flash]
    rfl
  rw [hbyte]
  bv_omega

/-- A pairing is in progress, for SHADOW. -/
def helloHalts : State := roleHalts 1 (seq [setB F.PAIR_STAT_busy, pairA fun p => { p with want := 2 }])

/-- A peer with the same structure that asks for LEADER. -/
def helloPeer : HelloMsg := { helloMsg helloHalts with want := 1#8 }

/-- Refutes O44: the HELLO that makes the device what it wanted is said to leave the memories, but the Drone judges its sources with it,
and in `helloHalts` the HALT that follows abandons the update. -/
theorem not_pairingIsCheckedAndDecided : ¬ Obligations.PairingIsCheckedAndDecided := by
  unfold Obligations.PairingIsCheckedAndDecided
  rintro ⟨-, hhello⟩
  obtain ⟨-, -, -, haccept⟩ := hhello helloHalts helloPeer (helloTag helloHalts helloPeer) false (by decide +kernel) (by decide +kernel)
  have hdone := haccept (by decide +kernel) (by decide +kernel) (by decide +kernel) (.inr (by decide +kernel)) (by decide +kernel)
  have hhalt : HaltsInWork (helloRx helloPeer (.pairing (helloTag helloHalts helloPeer)) false) 1 helloHalts := by decide +kernel
  have hexec : ∀ m h p s, exec (.hello m h p) s = finish (helloRx m h p) s := fun _ _ _ _ => rfl
  exact hhalt.not_sameMem (hexec _ _ _ _) (roleHalts_flByte_ne 1 _) hdone fun t ⟨_, _, _, _, _, _, _, _, _, _, hmem, _⟩ => hmem

/-- A Shadow has missed two heartbeats. -/
def takeHalts : State := roleHalts 1 (seq [setRole 2, pairA fun p => { p with misses := 2 }])

/-- Refutes O47: the third miss is said to let a Shadow take over and leave the memories, but the Drone judges its sources with it, and
in `takeHalts` the HALT that follows abandons the update. -/
theorem not_losingThePeerTakesOver : ¬ Obligations.LosingThePeerTakesOver := by
  unfold Obligations.LosingThePeerTakesOver
  rintro ⟨hmiss, -⟩
  obtain ⟨-, -, -, htake⟩ := hmiss takeHalts false (by decide +kernel) (by decide +kernel) (by decide +kernel)
  have hdone := htake (by decide +kernel) (by decide +kernel) rfl (by decide +kernel)
  have hhalt : HaltsInWork (heartMiss false) 1 takeHalts := by decide +kernel
  have hexec : ∀ p s, exec (.heartbeatMiss p) s = finish (heartMiss p) s := fun _ _ => rfl
  exact hhalt.not_sameMem (hexec _ _) (roleHalts_flByte_ne 1 _) hdone fun t ⟨_, _, hmem, _⟩ => hmem

/-! ### A Leader whose demand takes its role (R123, R398, R409) -/

/-- The updates, made in `s`, leave the device in HALT, and the pair's part as it is. -/
def SteadyAt (s : State) (us : List Upd) : Prop := (applyAll us s).mode = HALT ∧ (applyAll us s).hid.pair = s.hid.pair

/-- The updates of the action do, from HALT. -/
def Steady (a : Act) : Prop := ∀ s, s.mode = HALT → SteadyAt s (a s)

/-- Each of the actions is. -/
@[reducible] def SteadyEach : List Act → Prop
  | [] => True
  | a :: l => Steady a ∧ SteadyEach l

theorem Steady.run {a : Act} (h : Steady a) {s : State} (hs : s.mode = HALT) :
    (a.run s).mode = HALT ∧ (a.run s).hid.pair = s.hid.pair := h s hs

theorem SteadyAt.nil {s : State} (hs : s.mode = HALT) : SteadyAt s [] := ⟨hs, rfl⟩

theorem Steady.nop : Steady nop := fun _ => .nil

theorem Steady.seq {l : List Act} (h : SteadyEach l) : Steady (seq l) := by
  induction l with
  | nil => exact .nop
  | cons a l ih =>
    intro s hs
    obtain ⟨ha, hl⟩ := h
    obtain ⟨hmode, hpair⟩ := ha.run hs
    obtain ⟨hmode', hpair'⟩ := (ih hl).run hmode
    show ((Machine.seq (a :: l)).run s).mode = HALT ∧ ((Machine.seq (a :: l)).run s).hid.pair = s.hid.pair
    rw [run_seq_cons]
    exact ⟨hmode', hpair'.trans hpair⟩

/-- A sequence written out over the state that it reads. -/
theorem SteadyAt.seq {l : List Act} {s : State} (hs : s.mode = HALT) (h : SteadyEach l) : SteadyAt s (seq l s) := Steady.seq h s hs

theorem SteadyAt.ite {c : Prop} [Decidable c] {s : State} {us vs : List Upd} (h : SteadyAt s us) (h' : SteadyAt s vs) :
    SteadyAt s (if c then us else vs) := by
  split
  · exact h
  · exact h'

theorem Steady.ite {c : Prop} [Decidable c] {a b : Act} (h : Steady a) (h' : Steady b) : Steady (if c then a else b) := by
  split
  · exact h
  · exact h'

theorem Steady.whenA {c : State → Bool} {a : Act} (h : Steady a) : Steady (whenA c a) :=
  fun s hs => .ite (h s hs) (.nil hs)

theorem Steady.only {c : Bool} {a : Act} (h : Steady a) : Steady (only c a) := .ite h .nop

theorem steady_only_of_false {c : Bool} {a : Act} (h : c = false) : Steady (only c a) := by
  subst h
  exact .nop

theorem Steady.forEach {α : Type} {l : List α} {f : α → Act} (h : ∀ x ∈ l, Steady (f x)) : Steady (forEach l f) := by
  refine .seq ?_
  induction l with
  | nil => trivial
  | cons x l ih => exact ⟨h x List.mem_cons_self, ih fun y hy => h y (List.mem_cons_of_mem x hy)⟩

theorem SteadyAt.forEach {α : Type} {l : List α} {f : α → Act} {s : State} (hs : s.mode = HALT) (h : ∀ x ∈ l, Steady (f x)) :
    SteadyAt s (forEach l f s) := Steady.forEach h s hs

theorem Steady.setW {off : Nat} {v : Word} (h : R.SYS_MODE_STAT ≠ off) : Steady (setW off v) :=
  fun s hs => ⟨(run_setW_mode off v s h).trans hs, rfl⟩

theorem Steady.setF {x : Fld} {v : Nat} (h : R.SYS_MODE_STAT ≠ x.off) : Steady (setF x v) :=
  fun s hs => ⟨(run_setF_mode x v s h).trans hs, rfl⟩

/-! Registers above those of the modes -/

theorem Steady.setW_above {off : Nat} {v : Word} (h : AboveMode off) : Steady (Machine.setW off v) := .setW (h.ne (by decide)).symm

theorem Steady.setF_above {x : Fld} {v : Nat} (h : AboveMode x.off) : Steady (Machine.setF x v) := .setF (h.ne (by decide)).symm

/-- A write of another field of `SYS_MODE_STAT`. -/
theorem steady_setF_beside {x : Fld} {v : Nat} (h : x = F.SYS_MODE_STAT_result ∨ x = F.SYS_MODE_STAT_busy) : Steady (setF x v) := by
  refine fun s hs => ⟨?_, rfl⟩
  have hoff : R.SYS_MODE_STAT = x.off := by rcases h with rfl | rfl <;> rfl
  have hrd : ((setF x v).run s).rd R.SYS_MODE_STAT = x.put v (s.rd R.SYS_MODE_STAT) := by
    rw [run_setF_rd, if_pos hoff, hoff]
  exact (congrArg F.SYS_MODE_STAT_mode.get hrd).trans ((mode_get_put h v _).trans hs)

theorem Steady.bump {off : Nat} (h : R.SYS_MODE_STAT ≠ off) : Steady (bump off) :=
  fun s hs => .ite (Steady.setW (v := s.rd off ||| 0x80000000#32) h s hs) (Steady.setW (v := s.rd off + 1#32) h s hs)

theorem Steady.bump_above {off : Nat} (h : AboveMode off) : Steady (Machine.bump off) := .bump (h.ne (by decide)).symm

theorem Steady.orW {off : Nat} {m : Word} (h : R.SYS_MODE_STAT ≠ off) : Steady (orW off m) :=
  fun s hs => Steady.setW (v := s.rd off ||| m) h s hs

theorem Steady.set64 {off : Nat} {v : BitVec 64} (h : AboveMode off) : Steady (set64 off v) :=
  fun s hs => Steady.seq (l := [Machine.setW off (v.extractLsb' 0 32), Machine.setW (off + 4) (v.extractLsb' 32 32)])
    ⟨.setW (h.ne (by decide)).symm, .setW (h.add.ne (by decide)).symm, trivial⟩ s hs

theorem Steady.hidA {g : Hid → Hid} (h : ∀ x, (g x).pair = x.pair) : Steady (hidA g) := fun s hs => ⟨hs, h s.hid⟩

theorem Steady.freshA : Steady freshA := fun _ hs => ⟨hs, rfl⟩

/-! What the Drone does at a demand -/

theorem steady_causeEnds (c : Nat) : Steady (causeEnds c) :=
  .setF (x := bitFld R.SYS_HALT_LIVE c) (show R.SYS_MODE_STAT ≠ R.SYS_HALT_LIVE by decide)

theorem steady_enterHalt : Steady enterHalt :=
  fun _ hs => .seq hs ⟨.only (.seq ⟨steady_setF_beside (.inl rfl), .setF (by decide), steady_setF_beside (.inr rfl), trivial⟩),
    steady_only_of_false (decide_eq_false (not_not_intro hs)), trivial⟩

theorem steady_haltCause (c : Nat) : Steady (haltCause c) :=
  fun _ hs => .ite (.seq hs ⟨.setF (x := bitFld R.SYS_HALT_CAUSE c) (show R.SYS_MODE_STAT ≠ R.SYS_HALT_CAUSE by decide),
    .setF (x := bitFld R.SYS_HALT_LIVE c) (show R.SYS_MODE_STAT ≠ R.SYS_HALT_LIVE by decide), .setF (by decide),
    .only steady_enterHalt, trivial⟩) (.nil hs)

theorem steady_recSend (m : Nat) : Steady (recSend m) := .whenA (.hidA fun _ => rfl)

theorem steady_pinStamp (was : State) (l : List Nat) : Steady (pinStamp was l) :=
  fun _ hs => .forEach hs fun _ _ => .hidA fun _ => rfl

theorem steady_forceOnReady (n : Nat) : Steady (forceOnReady n) := .whenA (.hidA fun _ => rfl)

theorem steady_tripResolve (d : Nat) (atZero : Bool) : Steady (tripResolve d atZero) :=
  .whenA fun _ hs => .seq hs ⟨.forEach fun _ _ => .setW_above (.add (.add rfl)), .setF_above (.add rfl),
    .setF_above (.add rfl), .setF_above (.add rfl), .only (.seq ⟨.setF_above (.add rfl), steady_recSend 1, trivial⟩),
    .only (.setF_above (.add rfl)),
    .only (.seq ⟨.setF_above (.add rfl), .forEach fun _ _ => .bump_above (.add rfl), trivial⟩),
    .hidA fun _ => rfl, steady_pinStamp _ _, .forEach fun _ _ => steady_forceOnReady _, trivial⟩

theorem steady_sourceSet (d i : Nat) (act : Bool) : Steady (sourceSet d i act) :=
  fun _ hs => .ite (.nil hs)
    (.seq hs ⟨.setF_above (.add (.add rfl)), steady_tripResolve d false, .only (.hidA fun _ => rfl), trivial⟩)

theorem steady_droneShow : Steady droneShow :=
  fun _ hs => .seq hs ⟨.only (.forEach fun _ _ => .hidA fun _ => rfl), .only (.forEach fun _ _ => .hidA fun _ => rfl),
    .setW (by decide), .setF (by decide), .setF (by decide), .setF (by decide), .setW (by decide), .freshA,
    .only (steady_pinStamp _ _), trivial⟩

theorem steady_demandRecord (d : Nat) : Steady (demandRecord d) :=
  fun _ hs => .seq hs ⟨.ite (.orW (by decide)) (.seq ⟨.setW (by decide), .set64 rfl, .bump (by decide), .hidA fun _ => rfl, trivial⟩),
    .freshA, .setF (by decide), steady_recSend _, trivial⟩

/-- The Drone's judgement of its demands keeps HALT and the pair's part. -/
theorem steady_demandEval : Steady demandEval :=
  fun _ hs => .seq hs ⟨steady_droneShow, .only (steady_demandRecord _), .only (.setF (by decide)), .hidA fun _ => rfl,
    .only (steady_haltCause _), .only (steady_causeEnds _), .only (steady_haltCause _), .only (steady_sourceSet _ _ _), trivial⟩

/-! What follows a change to HALT -/

theorem steady_setPu (off : Nat) (v : Int) (h : AboveMode off) : Steady (setPu off v) := .set64 h

theorem steady_publishSet (x : GridSet) : Steady (publishSet x) :=
  fun _ hs => .seq hs ⟨.forEach fun _ _ => .ite (.set64 (.add rfl)) (steady_setPu _ _ (.add rfl)), .hidA fun _ => rfl, trivial⟩

theorem steady_publishParts (x : GridSet) (ref : Nat) : Steady (publishParts x ref) :=
  fun _ hs => .seq hs ⟨steady_publishSet _, .setF_above rfl, .only (.setF_above rfl), trivial⟩

theorem steady_refSwitch (a b : Nat) : Steady (refSwitch a b) := by
  refine .whenA fun s hs => ?_
  dsimp only
  refine .ite (.nil hs) (.ite (steady_publishParts _ _ s hs) (.ite (.seq hs ?_) (.ite (.seq hs ?_) (steady_publishParts _ _ s hs))))
  · exact ⟨.hidA fun _ => rfl, steady_publishParts _ _, trivial⟩
  · exact ⟨.hidA fun _ => rfl, steady_publishParts _ _, trivial⟩

theorem steady_haltLead : Steady haltLead :=
  fun _ hs => .seq hs ⟨.hidA fun _ => rfl, .forEach fun _ _ => .hidA fun _ => rfl, .whenA (.hidA fun _ => rfl),
    steady_refSwitch _ _, trivial⟩

theorem applyAll_flash_regs_hid (l : List (Nat × Byte)) (s : State) :
    (applyAll (l.map fun x => .flash x.1 x.2) s).regs = s.regs ∧ (applyAll (l.map fun x => .flash x.1 x.2) s).hid = s.hid := by
  induction l generalizing s with
  | nil => exact ⟨rfl, rfl⟩
  | cons x l ih => exact ih ((Upd.flash x.1 x.2).apply s)

theorem steady_flashUndef (a n : Nat) : Steady (flashUndef a n) := by
  intro s hs
  have hus : flashUndef a n s = ((List.range n).map fun i => (a + i, Config.freeFlash s.fresh (a + i))).map
      (fun x => Upd.flash x.1 x.2) ++ [.fresh] := by simp [flashUndef, Function.comp_def]
  obtain ⟨hregs, hhid⟩ := applyAll_flash_regs_hid ((List.range n).map fun i => (a + i, Config.freeFlash s.fresh (a + i))) s
  unfold SteadyAt
  rw [hus, applyAll_append]
  exact ⟨(f_of_rd_eq (congrArg (fun r => r.get (resetWord R.SYS_MODE_STAT) R.SYS_MODE_STAT) hregs)).trans hs, congrArg Hid.pair hhid⟩

theorem steady_workUndef : Steady workUndef := by
  intro s hs
  unfold workUndef
  split
  · exact .seq hs ⟨steady_flashUndef _ _, .setF_above rfl, trivial⟩
  · exact .nil hs

theorem steady_updAbandon : Steady updAbandon :=
  .whenA (.seq ⟨steady_workUndef, .setF_above rfl, .setF_above rfl, .setF_above rfl, .setF_above rfl,
    .whenA (.whenA (.seq ⟨.setF_above rfl, .setF_above rfl, .hidA fun _ => rfl, trivial⟩)), .hidA fun _ => rfl, trivial⟩)

/-- A device that has come to HALT from CONFIGURE keeps the pair's part with what follows. -/
theorem steady_modeFollow_configure : Steady (modeFollow CONFIGURE HALT) := by
  intro s hs
  show ((modeFollow CONFIGURE HALT).run s).mode = HALT ∧ ((modeFollow CONFIGURE HALT).run s).hid.pair = s.hid.pair
  rw [run_modeFollow_configure_halt]
  obtain ⟨hlead, hlead'⟩ := steady_haltLead.run hs
  obtain ⟨hsend, hsend'⟩ := (steady_recSend 6).run hlead
  obtain ⟨hupd, hupd'⟩ := steady_updAbandon.run hsend
  exact ⟨hupd, hupd'.trans (hsend'.trans hlead')⟩

/-! The state, and what a recheck that fails brings -/

/-- The update writes no register that `p` names. -/
def Upd.leaves (p : Nat → Bool) : Upd → Bool
  | .reg off _ => !p off
  | .regsKeep _ => false
  | _ => true

theorem Upd.leaves_rd {p : Nat → Bool} {u : Upd} (h : u.leaves p = true) (s : State) {off : Nat} (hp : p off = true) :
    (u.apply s).rd off = s.rd off := by
  cases u
  case reg o v =>
    have ho : (!p o) = true := h
    refine (Upd.reg_rd o off v s).trans (if_neg fun he => ?_)
    rw [← he, hp] at ho
    exact Bool.false_ne_true ho
  case regsKeep q => exact absurd h Bool.false_ne_true
  all_goals rfl

theorem applyAll_rd_of_leaves {p : Nat → Bool} {us : List Upd} (h : us.all (Upd.leaves p) = true) (s : State) {off : Nat}
    (hp : p off = true) : (applyAll us s).rd off = s.rd off := by
  induction us generalizing s with
  | nil => rfl
  | cons u us ih =>
    rw [List.all_cons, Bool.and_eq_true] at h
    obtain ⟨hu, hus⟩ := h
    exact (ih hus _).trans (Upd.leaves_rd hu s hp)

/-- A Leader in CONFIGURE with force 3, its ROLE high, holds parameters that fail the SAFETY check; HALT is due for the island line. -/
def recheckDue : State := (seq [setF F.SYS_MODE_STAT_mode CONFIGURE, setF F.FING_STAT_force 3, setF F.SYS_MODE_STAT_role 1,
  setB (F.SYS_SEAM_STAT_up 0), setB (F.SYS_SEAM_STAT_up 1), setB F.DRONE_STAT_accepted, setW (R.DRONE_PARAM 0) 1#32,
  setB F.CHNT_STAT_running, setW R.PAIR_IEN 1#32, pairA fun p => { p with roleHigh := true },
  droneA fun x => { x with island := true, dem := 8 }]).run State.reset

/-- What the Drone does at a demand after it has shown its outputs. -/
def demandRest (s : State) : List Upd := (demandEval s).drop (droneShow s).length

theorem run_demandEval (s : State) : demandEval.run s = applyAll (demandRest s) (droneShow.run s) := by
  have hsplit : demandEval s = droneShow s ++ demandRest s := (List.prefix_iff_eq_append.1 ⟨_, rfl⟩).symm
  unfold Act.run
  rw [hsplit, applyAll_append]

/-- `DRONE_STAT`, the latched faults and the parameters that the Drone holds. -/
def parReg (off : Nat) : Bool :=
  off == R.DRONE_STAT || (off == R.DRONE_FAULT || (decide (R.DRONE_PARAM 0 ≤ off) && decide (off < R.DRONE_PARAM 16)))

theorem parReg_param {k : Nat} (h : k < 16) : parReg (R.DRONE_PARAM k) = true := by
  refine Bool.or_eq_true_iff.2 (.inr (Bool.or_eq_true_iff.2 (.inr (Bool.and_eq_true_iff.2 ⟨decide_eq_true ?_, decide_eq_true ?_⟩)))) <;>
  · unfold R.DRONE_PARAM
    omega

theorem param_ne_stat (k : Nat) : R.DRONE_STAT ≠ R.DRONE_PARAM k := by
  unfold R.DRONE_STAT R.DRONE_PARAM
  omega

theorem Confined.setW {w : Nat → Prop} {off : Nat} (v : Word) (h : w off) : Confined w (setW off v) :=
  fun s => ⟨fun x hx => (Upd.reg_rd off x v s).trans (if_neg fun (he : x = off) => hx (he ▸ h)), ⟨rfl, rfl, rfl⟩, rfl⟩

theorem Confined.freshA {w : Nat → Prop} : Confined w freshA := fun s => (Sets.freshA s).setsBut w

/-- The Drone's outputs are shown outside the parameters, and beside the bit that says that they were accepted. -/
theorem setsBut_droneShow (s : State) : ∃ a b c, SetsBut (fun off => parReg off = false)
    [(F.DRONE_STAT_forced_off, a), (F.DRONE_STAT_relaxed, b), (F.DRONE_STAT_energised, c)] s (droneShow.run s) := by
  have hsrc : ∀ v, Confined (fun off => parReg off = false) (setW R.DRONE_SRC v) := fun v => .setW v (by decide)
  have hout : ∀ v, Confined (fun off => parReg off = false) (setW R.DRONE_OUT v) := fun v => .setW v (by decide)
  have hstamp : ∀ l, Confined (fun off => parReg off = false) (pinStamp s l) := fun l u => .forEach fun _ _ => .hidA _
  unfold droneShow
  rw [run_fun]
  simp only [run_seq_cons, run_seq_nil]
  have hlead := (((SetsBut.refl (fun off => parReg off = false) s).then_confined
    (.only (forcedOff s) (.forEach (l := [0, 1]) (f := fun d => tripA d fun t => { t with fon := 0 }) fun _ _ => .hidA _))).then_confined
    (.only (s.on F.DRONE_STAT_forced_off ∧ !forcedOff s)
      (.forEach (l := [0, 1]) (f := fun d => tripA d fun t => { t with offEnd := some s.now }) fun _ _ => .hidA _))).then_confined
    (hsrc (droneSrcWord s))
  exact ⟨_, _, _, ((((hlead.then_setF _ _).then_setF _ _).then_setF _ _).then_confined (hout _)).then_confined .freshA
    |>.then_confined (.only _ (hstamp _))⟩

section
variable {s : State} (hon : droneOn s = true) (hrole : (roleEval s).all (Upd.leaves parReg) = true)
  (hrest : (demandRest (roleEval.run s)).all (Upd.leaves parReg) = true)
include hon hrole hrest

/-- Where nothing else writes these registers, a judgement writes what it shows in `DRONE_STAT` alone. -/
theorem run_droneEval_rd : ∃ a b c, ∀ off, parReg off = true → (droneEval.run s).rd off =
    fieldWord [(F.DRONE_STAT_forced_off, a), (F.DRONE_STAT_relaxed, b), (F.DRONE_STAT_energised, c)] off (s.rd off) := by
  obtain ⟨a, b, c, hregs, -⟩ := setsBut_droneShow (roleEval.run s)
  refine ⟨a, b, c, fun off hp => ?_⟩
  have hrun : droneEval.run s = applyAll (demandRest (roleEval.run s)) (droneShow.run (roleEval.run s)) := by
    unfold droneEval
    rw [run_whenA, if_pos hon, run_seq_cons, run_seq_cons, run_seq_nil, run_demandEval]
  have hlead : (roleEval.run s).rd off = s.rd off := applyAll_rd_of_leaves hrole s hp
  rw [hrun, applyAll_rd_of_leaves hrest _ hp, hregs off (by simp [hp]), hlead]

theorem run_droneEval_rd_of_ne {off : Nat} (hp : parReg off = true) (hne : R.DRONE_STAT ≠ off) :
    (droneEval.run s).rd off = s.rd off := by
  obtain ⟨a, b, c, hregs⟩ := run_droneEval_rd hon hrole hrest
  exact (hregs off hp).trans (fieldWord_of_forall_ne
    (List.forall_mem_cons.2 ⟨hne, List.forall_mem_cons.2 ⟨hne, List.forall_mem_singleton.2 hne⟩⟩) _)

theorem run_droneEval_accepted : accepted (droneEval.run s) = accepted s := by
  obtain ⟨a, b, c, hregs⟩ := run_droneEval_rd hon hrole hrest
  have hget : F.DRONE_STAT_accepted.get ((droneEval.run s).rd R.DRONE_STAT) = F.DRONE_STAT_accepted.get (s.rd R.DRONE_STAT) := by
    have happart : ∀ x ∈ [(F.DRONE_STAT_forced_off, a), (F.DRONE_STAT_relaxed, b), (F.DRONE_STAT_energised, c)],
        x.1.Apart F.DRONE_STAT_accepted := by simp +decide [Fld.Apart]
    rw [hregs _ rfl]
    exact get_fieldWord_of_apart happart _
  exact congrArg (fun n => decide (n = 1)) hget

theorem run_droneEval_safetyCrcOk : safetyCrcOk (droneEval.run s) = safetyCrcOk s := by
  have hpar : parBytes (droneEval.run s) = parBytes s := by
    refine List.map_congr_left fun i hi => ?_
    have hreg : parReg (R.DRONE_PARAM (i / 4)) = true := parReg_param (by have := List.mem_range.1 hi; omega)
    simp only [parByte, run_droneEval_rd_of_ne hon hrole hrest hreg (param_ne_stat _)]
  unfold safetyCrcOk
  rw [run_droneEval_accepted hon hrole hrest, hpar]

end

/-- What a SAFETY check that fails brings before the parameter fault. -/
def relockLead (s : State) : Act := seq [
  setF F.SYS_MODE_STAT_result 0x17, setB (bitFld R.SYS_HALT_CAUSE causeSafety), setB F.SYS_MODE_EVENT_halt,
  only (s.mode ≠ HALT) (seq [setF F.SYS_MODE_STAT_mode HALT, setF F.SYS_MODE_STAT_ride_origin 0,
    clrB F.SYS_MODE_STAT_ride_recovered, bump R.SYS_HALT_CNT])]

/-- The parameter fault latches. -/
def paramLatch : Act := seq [setB F.DRONE_FAULT_param, setB F.SYS_DRONE_EVENT_fault]

theorem run_seq_last (a b c d e : Act) (s : State) : (seq [a, b, c, d, e]).run s = e.run ((seq [a, b, c, d]).run s) := by
  simp only [run_seq_cons, run_seq_nil]

theorem run_relock_of_fails {s : State} (h : safetyCrcOk s = false) (hon : droneOn ((relockLead s).run s) = true)
    (hpar : ((relockLead s).run s).on F.DRONE_FAULT_param = false) :
    relock.run s = droneEval.run (paramLatch.run ((relockLead s).run s)) := by
  have hlead : relock.run s = (whenA (fun s => droneOn s ∧ !s.on F.DRONE_FAULT_param) (droneLatch (setB F.DRONE_FAULT_param))).run
      ((relockLead s).run s) := by
    have hne : ¬ safetyCrcOk s = true := by
      rw [h]
      exact Bool.false_ne_true
    rw [relockLead, ← run_seq_last]
    exact congrArg (applyAll · s) (if_neg hne)
  rw [hlead, run_whenA, if_pos (by simp [hon, hpar])]
  unfold droneLatch paramLatch
  simp only [run_seq_cons, run_seq_nil]

/-- Where the parameter fault is latched, ROLE of a Leader that had it high falls with its role. -/
theorem run_roleEval_of_param {s : State} (hrole : s.role = 1) (hpar : s.on F.DRONE_FAULT_param = true)
    (hhigh : s.hid.pair.roleHigh = true) : roleEval.run s = soloA.run s := by
  have hlatched : latchedBits s ≠ 0 := by
    unfold latchedBits
    rw [hpar]
    simp [b2n]
  have hbad : roleOk s = false := by simp [roleOk, hlatched]
  unfold roleEval
  rw [run_whenA, if_pos (by simp [hrole])]
  exact congrArg (applyAll · s) (if_pos (by simp [hbad, hhigh]))

/-- The Leader of `recheckDue` at the parameter fault that the HALT from its demand brings. -/
def recheckFails : State := paramLatch.run ((relockLead (droneEval.run recheckDue)).run (droneEval.run recheckDue))

theorem recheckDue_relock : relock.run (droneEval.run recheckDue) = droneEval.run recheckFails := by
  have hon : droneOn recheckDue = true := by decide +kernel
  have hrole : (roleEval recheckDue).all (Upd.leaves parReg) = true := by decide +kernel
  have hrest : (demandRest (roleEval.run recheckDue)).all (Upd.leaves parReg) = true := by decide +kernel
  have hcrc : safetyCrcOk (droneEval.run recheckDue) = false :=
    (run_droneEval_safetyCrcOk hon hrole hrest).trans (by decide +kernel)
  have hlead : (relockLead (droneEval.run recheckDue) (droneEval.run recheckDue)).all (Upd.leaves parReg) = true := by decide +kernel
  refine run_relock_of_fails hcrc (by decide +kernel) ?_
  refine (on_of_rd_eq (x := F.DRONE_FAULT_param) (s := recheckDue) ?_).trans (by decide +kernel)
  exact (applyAll_rd_of_leaves hlead _ rfl).trans (run_droneEval_rd_of_ne hon hrole hrest rfl (by decide))

theorem recheckFails_param : recheckFails.on F.DRONE_FAULT_param = true := by
  unfold recheckFails paramLatch
  generalize (relockLead (droneEval.run recheckDue)).run (droneEval.run recheckDue) = u
  rw [run_seq_cons, run_seq_cons, run_seq_nil, setB, run_setF_on_of_ne _ _ _ _ (by decide)]
  exact decide_eq_true (run_setF_f F.DRONE_FAULT_param 1 u (by decide) (by decide))

/-- A HALT out of CONFIGURE with force 3 takes the role of the Leader of `recheckDue`. -/
theorem recheckDue_droneDemand : Completes .droneDemand recheckDue fun t => t.hid.pair.roleHigh = false := by
  have hexec : ∀ s, exec .droneDemand s = finish droneEval s := fun _ => rfl
  refine ⟨_, (hexec _).trans (finish_follow droneEval recheckDue (by decide +kernel) (by decide +kernel) (by decide +kernel)), ?_⟩
  have hfrom : recheckDue.mode = CONFIGURE := by decide +kernel
  have hforce : (droneEval.run recheckDue).force = 3 := by decide +kernel
  have hon : droneOn recheckFails = true := by decide +kernel
  have hsolo := run_roleEval_of_param (s := recheckFails) (by decide +kernel) recheckFails_param (by decide +kernel)
  have hmode : (soloA.run recheckFails).mode = HALT := by decide +kernel
  have hhigh : (soloA.run recheckFails).hid.pair.roleHigh = false := by decide +kernel
  have hrun : droneEval.run recheckFails = demandEval.run (soloA.run recheckFails) := by
    rw [← hsolo]
    unfold droneEval
    rw [run_whenA, if_pos hon, run_seq_cons, run_seq_cons, run_seq_nil]
  rw [hfrom, run_modeSwitch_of_force_eq hforce, recheckDue_relock, hrun]
  generalize soloA.run recheckFails = u at hmode hhigh
  obtain ⟨hhalt, hpair⟩ := steady_demandEval.run hmode
  rw [hhalt]
  obtain ⟨hhalt', hpair'⟩ := steady_modeFollow_configure.run hhalt
  obtain ⟨-, hstamp⟩ := (steady_pinStamp recheckDue (List.range 48)).run hhalt'
  show (levelsFall.run _).hid.pair.roleHigh = false
  rw [run_levelsFall_hid, hstamp, hpair', hpair, hhigh]

/-- Refutes O45: a Leader whose ROLE nothing keeps low is said to be LEADER after a demand, but the HALT that the demand brings may end
CONFIGURE with force 3, and where the SAFETY check fails then (R123), the parameter fault takes ROLE down and the device ends SOLO
(R398, R409).  The clause would need the premise that CONFIGURE is not left with force 3. -/
theorem not_unpairAndHandoverGiveTheRoleUp : ¬ Obligations.UnpairAndHandoverGiveTheRoleUp := by
  unfold Obligations.UnpairAndHandoverGiveTheRoleUp
  rintro ⟨-, hdemand⟩
  obtain ⟨-, hleads⟩ := hdemand recheckDue (by decide +kernel) (by decide +kernel)
  obtain ⟨t, ht, -, hhigh⟩ := hleads (by decide +kernel)
  obtain ⟨u, hu, hlow⟩ := recheckDue_droneDemand
  obtain rfl : t = u := Host.Outcome.next.inj (ht.symm.trans hu)
  have hhand : recheckDue.hid.pair.handover = false := by decide +kernel
  rw [hhand, hlow] at hhigh
  exact Bool.false_ne_true hhigh

end Sys2Proof.Machine
end

section
/-!
The statements on metered samples and on the recorder, each of which fails in one clause at a state that the clause does not exclude.
-/

namespace Sys2Proof.Machine

/-- Point 0, of the Fine form, runs; the index of its last sample is 10000, past those of the Slide cycle. -/
def pastCycle : State :=
  (seq [setW R.SYS_ISLAND_EN 0x07FFFFFF#32, setW R.METER_CTL 1#32, setB (F.METER_PT_CFG_form 0), setB F.CLK_SLIDE_CFG_en,
    metA 0 fun m => { m with
      ix := some 10000, q := (List.range 6).foldl (fun t j => t.put [] j [⟨1809, 0#64, 0, false, false⟩]) [] }]).run State.reset

/-- Refutes O36: the next index is said to be metered where it is the last one's successor modulo 4096, whatever the last one is, but in
`pastCycle` the last one is none of the Slide cycle and its successor does not come after it (R339).  The clause would need the last
index below 4096. -/
theorem not_meterSamplesEnterOrCountGaps : ¬ Obligations.MeterSamplesEnterOrCountGaps := by
  unfold Obligations.MeterSamplesEnterOrCountGaps
  rintro ⟨⟨hfine, -⟩, -⟩
  have henters := hfine pastCycle 0 1809 (List.replicate 6 {}) 0#64 (by decide +kernel) (by decide +kernel) (by decide +kernel)
    (by decide +kernel) (by decide +kernel) (fun j => ⟨⟨1809, 0#64, 0, false, false⟩, by revert j; decide +kernel⟩)
  have hcount := henters.answerHas_true (fun t => (metSt t 0).k = 1)
    fun t ⟨_, _, hwithin, _⟩ => decide_eq_true ((hwithin (by decide +kernel)).1.trans (by decide +kernel))
  exact absurd hcount (by decide +kernel)

/-- The recorder runs, one record after a trigger is left, and a sample of slot 0 was dropped. -/
def lastRecord : State := (seq [setB F.REC_STAT_running,
  recorderA fun c => { c with post := some 1, drops := c.drops.put 0 0 1 }]).run State.reset

/-- Refutes O56: a gap marker and its time record are said to stand in the burst together, but where the post-trigger count has one
record left, the gap record completes it, and the time record goes to the next region (R451): in `lastRecord` the region is full after
the gap record, and no other is armed.  The clause would need the premise that no post-trigger count runs, as its neighbours have. -/
theorem not_recorderCapturesRecords : ¬ Obligations.RecorderCapturesRecords := by
  unfold Obligations.RecorderCapturesRecords
  rintro ⟨-, -, -, -, -, -, -, hgap, -⟩
  have hburst := (hgap lastRecord 0 (by decide +kernel) (by decide +kernel) (by decide +kernel) (by decide +kernel)).answerHas_true
    (fun t => t.hid.recorder.burst.length = 2) fun t ⟨hrecs, _⟩ => decide_eq_true (congrArg List.length hrecs)
  exact absurd hburst (by decide +kernel)

end Sys2Proof.Machine
end

section
/-!
Rules on changes of fields that the proofs below share: an action under a condition, and what a field or a register reads after a
change.
-/

namespace Sys2Proof.Machine

theorem Sets.then_set64 {l h s t} (a : Sets l h s t) (off : Nat) (v : BitVec 64) :
    Sets (l ++ pairFields off v) h s ((set64 off v).run t) := a.trans ((sets_set64 off v t).cast rfl a.hid_eq)

/-- A further change that leaves what is hidden. -/
theorem Sets.then_keep {l m h s t u} (a : Sets l h s t) (b : Sets m t.hid t u) : Sets (l ++ m) h s u := a.trans (b.cast rfl a.hid_eq)

theorem run_withEnv (k : Nat → Act) (s : State) :
    (withEnv k).run s = (k (Config.freeEnv s.fresh)).run { s with fresh := s.fresh + 1 } := by
  unfold withEnv
  rw [run_fun, run_seq_cons, run_seq_cons, run_seq_nil, run_freshA]

/-- A change of what is hidden alone. -/
theorem Sets.ofHid (s : State) (h : Hid) : Sets [] h s { s with hid := h } := ((Sets.refl s).then_hidA fun _ => h)

/-- A change that happens where a condition holds. -/
theorem Sets.then_only {l m : List (Fld × Nat)} {h : Hid} {s t : State} {a : Act} (c : Bool) (hl : Sets l h s t)
    (ha : c = true → Sets m t.hid t (a.run t)) : Sets (l ++ if c then m else []) h s ((only c a).run t) := by
  rw [run_only]
  cases c with
  | false => simpa using hl
  | true => exact hl.then_keep (ha rfl)

theorem Sets.up {l h s t} (a : Sets l h s t) (hp : h.pwr = s.hid.pwr) : t.up = s.up := by
  rw [State.up, a.hid_eq, hp]
  rfl

theorem Sets.island {l h s t} (a : Sets l h s t) (hl : ∀ x ∈ l, x.1.off ≠ R.SYS_ISLAND_EN) (b : Nat) : t.island b = s.island b := by
  rw [State.island, a.rd_eq, fieldWord_of_forall_ne hl]
  rfl

section
variable {l : List (Fld × Nat)} {h : Hid} {s t : State} {y : Fld} {v : Nat}

theorem Sets.f_of_mem (a : Sets l h s t) (hm : (y, v) ∈ l) (hy : ∀ x ∈ l, x = (y, v) ∨ x.1.Apart y) (hlo : y.lo ≤ y.hi)
    (hhi : y.hi ≤ 31) : t.f y = v % 2 ^ (y.hi + 1 - y.lo) := (a.setsBut fun _ => False).f_of_mem not_false hm hy hlo hhi

theorem Sets.on_of_mem (a : Sets l h s t) (hm : (y, v) ∈ l) (hy : ∀ x ∈ l, x = (y, v) ∨ x.1.Apart y) (hbit : y.hi = y.lo)
    (hhi : y.hi ≤ 31) : t.on y = decide (v % 2 = 1) := (a.setsBut fun _ => False).on_of_mem not_false hm hy hbit hhi

theorem Sets.rd_of_ne {off : Nat} (a : Sets l h s t) (hy : ∀ x ∈ l, x.1.off ≠ off) : t.rd off = s.rd off :=
  (a.rd_eq off).trans (fieldWord_of_forall_ne hy _)

theorem Sets.rd_of_mem {off : Nat} {w : Word} (a : Sets l h s t) (hm : (wordFld off, w.toNat) ∈ l)
    (hy : ∀ x ∈ l, x = (wordFld off, w.toNat) ∨ x.1.off ≠ off) : t.rd off = w :=
  (a.setsBut fun _ => False).rd_of_mem not_false hm hy

theorem Sets.rd64_of_mem {off : Nat} {w : BitVec 64} (a : Sets l h s t) (hm : ∀ x ∈ pairFields off w, x ∈ l)
    (hy : ∀ x ∈ l, x ∈ pairFields off w ∨ x.1.off ≠ off ∧ x.1.off ≠ off + 4) : t.rd64 off = w :=
  (a.setsBut fun _ => False).rd64_of_mem ⟨not_false, not_false⟩ hm hy

end

end Sys2Proof.Machine
end

section
/-!
The statement on CONFIRM and the OTP commands (R463, R464, R469).  A command is first its code; CONFIRM's end is first a code, the
counters and the flash as functions of the state, and each clause is then a case of these.
-/

namespace Sys2Proof.Machine

/-! ### Command words -/

/-- The key in the upper half of a command word. -/
theorem key_eq_iff (v : Word) (k : Nat) (hk : k < 2 ^ 16) : v.extractLsb' 16 16 = BitVec.ofNat 16 k ↔ v.toNat / 2 ^ 16 = k := by
  have hv := v.isLt
  rw [BitVec.toNat_eq, BitVec.extractLsb'_toNat, Nat.shiftRight_eq_div_pow, BitVec.toNat_ofNat, Nat.mod_eq_of_lt hk,
    Nat.mod_eq_of_lt (by omega)]

/-- The `op` field of a command word lies below its other fields. -/
theorem withOp2_div (v : Word) (op : Nat) (h : op < 4) : (withOp2 v op).toNat / 4 = v.toNat / 4 := by
  have hshift : withOp2 v op >>> 2 = v >>> 2 := by
    ext i hi
    have hthree : Nat.testBit 3 (2 + i) = false := Nat.testBit_lt_two_pow (by rw [Nat.pow_add]; have := Nat.two_pow_pos i; omega)
    have hop : Nat.testBit op (2 + i) = false := Nat.testBit_lt_two_pow (by rw [Nat.pow_add]; have := Nat.two_pow_pos i; omega)
    simp only [withOp2, BitVec.getElem_ushiftRight, BitVec.getLsbD_or, BitVec.getLsbD_and, BitVec.getLsbD_not, BitVec.getLsbD_ofNat,
      hthree, hop, Bool.and_false, Bool.or_false, Bool.not_false, Bool.and_true]
    by_cases hlt : 2 + i < 32
    · simp [hlt]
    · simp [BitVec.getLsbD_of_ge v _ (not_lt.1 hlt)]
  have := congrArg BitVec.toNat hshift
  simpa [BitVec.toNat_ushiftRight, Nat.shiftRight_eq_div_pow] using this

theorem withOp2_mod (v : Word) (op : Nat) (h : op < 4) : (withOp2 v op).toNat % 4 = op := by
  have hlow : (withOp2 v op).setWidth 2 = BitVec.ofNat 2 op := by
    ext i hi
    interval_cases i <;> simp [withOp2]
  have := congrArg BitVec.toNat hlow
  rw [BitVec.toNat_setWidth, BitVec.toNat_ofNat] at this
  omega
/-! ### CONFIRM begins -/

/-- The first code that applies to CONFIRM (R469). -/
def confirmCode (p : Port) (v : Word) (s : State) : Nat :=
  if p = Port.fw then 0x81 else if v.extractLsb' 16 16 ≠ 0xC0F1#16 then 0x93
  else if s.mode ≠ DORMANT ∧ s.mode ≠ CONFIGURE ∧ s.mode ≠ STANDBY then 0x80
  else if s.on F.HARV_STAT_src_vb then 0x91 else if s.on F.BOOT_SET_STAT_active_ok = false then 0x90
  else if bootBusy s ∨ secBusy s then 0x8B else 0

theorem confirmCmd_eq {p : Port} {v : Word} {s : State} (hgo : v.getLsbD 0 = true) : confirmCmd p v s =
    if confirmCode p v s = 0 then seq [updCode 0, bootA fun b => { b with confirm := true }] s
    else updCode (confirmCode p v s) s := by
  have hkey : v.extractLsb' 16 16 = 0xC0F1#16 ↔ v.toNat / 2 ^ 16 = 0xC0F1 := key_eq_iff v 0xC0F1 (by decide)
  unfold confirmCmd confirmCode
  simp only [ne_eq, hkey]
  split_ifs <;> simp_all

theorem sets_confirmCmd {p : Port} {v : Word} {s : State} (hgo : v.getLsbD 0 = true) : Sets [(F.BOOT_UPD_STAT_result, confirmCode p v s)]
    (if confirmCode p v s = 0 then withBoot s { s.hid.boot with confirm := true } else s.hid) s ((confirmCmd p v).run s) := by
  rw [Act.run, confirmCmd_eq hgo]
  split
  · next h =>
    rw [h]
    show Sets _ _ s ((seq _).run s)
    rw [run_seq_cons, run_seq_cons, run_seq_nil]
    exact (Sets.setF _ _ s).then_hidA _
  · exact Sets.setF _ _ s

/-! ### CONFIRM ends -/

/-- A key that a table does not keep reads as when unlisted. -/
theorem Tab.get_keep_of_dropped {α : Type} (d : α) (p : Nat → Bool) (n : Nat) (t : Tab α) (hp : p n = false) :
    (Tab.keep p t).get d n = d := by
  induction t with
  | nil => rfl
  | cons x t ih =>
    obtain ⟨k, v⟩ := x
    unfold Tab.keep
    split
    · next hk =>
      have hne : n ≠ k := by
        rintro rfl
        exact Bool.false_ne_true (hp.symm.trans hk)
      simp only [Tab.get, if_neg hne, ih, ite_self]
    · exact ih

/-- What the flash holds once CONFIRM has erased a stale half. -/
def staleErased (s : State) : Tab Byte :=
  match staleHalf s with
  | some b =>
    let a := at32 s.hid.boot.dir (0x18 + 4 * b)
    s.flash.keep fun k => decide (k < a) || decide (a + at32 s.hid.boot.dir 0x20 ≤ k)
  | none => s.flash

theorem run_staleErase (s : State) : staleErase.run s = { s with flash := staleErased s } := by
  unfold Act.run staleErase staleErased
  cases staleHalf s <;> rfl

theorem staleErased_flByte {s : State} {b i : Nat} (hb : staleHalf s = some b) (hi : i < at32 s.hid.boot.dir 0x20) :
    (staleErased s).get flashBlank (at32 s.hid.boot.dir (0x18 + 4 * b) + i) = 0xFF#8 := by
  unfold staleErased
  rw [hb]
  exact Tab.get_keep_of_dropped _ _ _ _ (by simp; omega)

/-- The key store after the firmware, and after the Fingering, counter is advanced where it is behind and may be. -/
def fwAdvanced (s : State) : OtpSt :=
  if fwAdvance s = true ∧ s.hid.otp.fwLeft ≠ 0 then { s.hid.otp with fw := (s.rd64 R.BOOT_FW_ROLLBACK).toNat, fwLeft := s.hid.otp.fwLeft - 1 }
  else s.hid.otp

def fgAdvanced (s : State) (o : OtpSt) : OtpSt :=
  if fgAdvance s = true ∧ s.hid.otp.fgLeft ≠ 0 then { o with fg := (s.rd R.FING_ROLLBACK).toNat, fgLeft := o.fgLeft - 1 } else o

theorem run_otpAdvanceFw (s : State) : otpAdvanceFw.run s = { s with hid := withOtp s (fwAdvanced s) } := by
  unfold otpAdvanceFw fwAdvanced
  rw [run_fun, run_only]
  simp only [decide_eq_true_eq]
  split <;> rfl

theorem run_otpAdvanceFg (s : State) : otpAdvanceFg.run s = { s with hid := withOtp s (fgAdvanced s s.hid.otp) } := by
  unfold otpAdvanceFg fgAdvanced
  rw [run_fun, run_only]
  simp only [decide_eq_true_eq]
  split <;> rfl

/-- The code of the step that advances the firmware counter, or 0 where it goes on; `second` says that the other counter's write
fails. -/
def fwStepCode (otpOk : Bool) (second : Bool) (s : State) : Nat :=
  if !fwAdvance s then 0 else if s.hid.otp.fwLeft = 0 then 0x95 else if !otpOk ∧ !second then 0x92 else 0

/-- The code of the step that advances the Fingering counter. -/
def fgStepCode (otpOk : Bool) (s : State) : Nat :=
  if !fgAdvance s then 0 else if s.hid.otp.fgLeft = 0 then 0x95 else if !otpOk then 0x92 else 0

/-- The code, the key store and the flash that CONFIRM ends with, by the codes of its two steps. -/
def confirmEnd (fw fg : Nat) (s : State) : Nat × OtpSt × Tab Byte :=
  if fw ≠ 0 then (fw, s.hid.otp, s.flash)
  else if fg ≠ 0 then (fg, fwAdvanced s, s.flash)
  else (0, fgAdvanced s (fwAdvanced s), staleErased s)

/-- The state in which CONFIRM shows its end. -/
def confirmed (o : OtpSt) (flash : Tab Byte) (s : State) : State :=
  { s with flash := flash, hid := { s.hid with otp := o, boot := { s.hid.boot with confirm := false } } }

/-- The Fingering counter is advanced by what stood before the firmware counter was. -/
theorem fgAdvanced_confirmed (s : State) :
    fgAdvanced (confirmed (fwAdvanced s) s.flash s) (fwAdvanced s) = fgAdvanced s (fwAdvanced s) := by
  have hfg : (fwAdvanced s).fg = s.hid.otp.fg := by unfold fwAdvanced; split <;> rfl
  have hleft : (fwAdvanced s).fgLeft = s.hid.otp.fgLeft := by unfold fwAdvanced; split <;> rfl
  have hbehind : fgAdvance (confirmed (fwAdvanced s) s.flash s) = fgAdvance s := by
    unfold fgAdvance
    rw [show (confirmed (fwAdvanced s) s.flash s).hid.otp.fg = (fwAdvanced s).fg from rfl, hfg]
    rfl
  unfold fgAdvanced
  rw [hbehind, show (confirmed (fwAdvanced s) s.flash s).hid.otp.fgLeft = (fwAdvanced s).fgLeft from rfl, hleft]
  rfl

theorem run_fwStep (s : State) : otpAdvanceFw.run (confirmed s.hid.otp s.flash s) = confirmed (fwAdvanced s) s.flash s :=
  run_otpAdvanceFw _

theorem run_fgStep (s : State) : staleErase.run (otpAdvanceFg.run (confirmed (fwAdvanced s) s.flash s)) =
    confirmed (fgAdvanced s (fwAdvanced s)) (staleErased s) s := by
  rw [run_otpAdvanceFg, run_staleErase, show (confirmed (fwAdvanced s) s.flash s).hid.otp = fwAdvanced s from rfl,
    fgAdvanced_confirmed]
  rfl

theorem run_confirmSteps (fw fg : Nat) (s : State) :
    (seq [bootA (fun b => { b with confirm := false }),
      if fw ≠ 0 then updCode fw else seq [otpAdvanceFw, if fg ≠ 0 then updCode fg else seq [otpAdvanceFg, staleErase, updCode 0]],
      setB F.BOOT_EVENT_confirm_done]).run s =
    (setB F.BOOT_EVENT_confirm_done).run ((updCode (confirmEnd fw fg s).1).run
      (confirmed (confirmEnd fw fg s).2.1 (confirmEnd fw fg s).2.2 s)) := by
  have hfirst : (bootA fun b => { b with confirm := false }).run s = confirmed s.hid.otp s.flash s := rfl
  unfold confirmEnd
  simp only [run_seq_cons, run_seq_nil, hfirst]
  split_ifs
  · rfl
  · simp only [run_seq_cons, run_seq_nil, run_fwStep]
  · simp only [run_seq_cons, run_seq_nil, run_fwStep, run_fgStep]

/-- The choice of log entry 33: where both counters advance, whether the write of the Fingering counter is the one that fails. -/
def confirmSecond (n : Nat) (s : State) : Bool := decide (fwAdvance s ∧ fgAdvance s ∧ n.testBit 0)

theorem fwAdvance_fresh (s : State) (n : Nat) : fwAdvance { s with fresh := n } = fwAdvance s := rfl
theorem fgAdvance_fresh (s : State) (n : Nat) : fgAdvance { s with fresh := n } = fgAdvance s := rfl
theorem staleHalf_fresh (s : State) (n : Nat) : staleHalf { s with fresh := n } = staleHalf s := rfl
theorem rd_fresh (s : State) (n off : Nat) : { s with fresh := n }.rd off = s.rd off := rfl
theorem rd64_fresh (s : State) (n off : Nat) : { s with fresh := n }.rd64 off = s.rd64 off := rfl

theorem staleErased_fresh (s : State) (n : Nat) : staleErased { s with fresh := n } = staleErased s := by
  unfold staleErased
  rw [staleHalf_fresh]

theorem fwAdvanced_fresh (s : State) (n : Nat) : fwAdvanced { s with fresh := n } = fwAdvanced s := by
  unfold fwAdvanced
  rw [fwAdvance_fresh, rd64_fresh]

theorem fgAdvanced_fresh (s : State) (n : Nat) (o : OtpSt) : fgAdvanced { s with fresh := n } o = fgAdvanced s o := by
  unfold fgAdvanced
  rw [fgAdvance_fresh, rd_fresh]

theorem confirmEnd_fresh (fw fg n : Nat) (s : State) : confirmEnd fw fg { s with fresh := n } = confirmEnd fw fg s := by
  simp only [confirmEnd, fwAdvanced_fresh, fgAdvanced_fresh, staleErased_fresh]

/-- CONFIRM's end. -/
def confirmResult (otpOk : Bool) (s : State) : Nat × OtpSt × Tab Byte :=
  confirmEnd (fwStepCode otpOk (confirmSecond (Config.freeEnv s.fresh) s) s) (fgStepCode otpOk s) s

theorem confirmSecond_fresh (m n : Nat) (s : State) : confirmSecond m { s with fresh := n } = confirmSecond m s := by
  unfold confirmSecond
  rw [decide_eq_decide, fwAdvance_fresh, fgAdvance_fresh]

theorem fwStepCode_fresh (otpOk second : Bool) (s : State) (n : Nat) :
    fwStepCode otpOk second { s with fresh := n } = fwStepCode otpOk second s := by
  unfold fwStepCode
  rw [fwAdvance_fresh]

theorem fgStepCode_fresh (otpOk : Bool) (s : State) (n : Nat) : fgStepCode otpOk { s with fresh := n } = fgStepCode otpOk s := by
  unfold fgStepCode
  rw [fgAdvance_fresh]

/-- The steps of CONFIRM with the environment's choice `n`. -/
def confirmSteps (otpOk : Bool) (n : Nat) : Act := fun s =>
  seq [bootA (fun b => { b with confirm := false }),
    if fwStepCode otpOk (confirmSecond n s) s ≠ 0 then updCode (fwStepCode otpOk (confirmSecond n s) s)
    else seq [otpAdvanceFw,
      if fgStepCode otpOk s ≠ 0 then updCode (fgStepCode otpOk s) else seq [otpAdvanceFg, staleErase, updCode 0]],
    setB F.BOOT_EVENT_confirm_done] s

theorem confirmDone_eq (otpOk : Bool) : confirmDone otpOk = whenA (fun s => s.hid.boot.confirm) (withEnv (confirmSteps otpOk)) := rfl

theorem run_confirmDone {otpOk : Bool} {s : State} (h : s.hid.boot.confirm = true) : (confirmDone otpOk).run s =
    (setB F.BOOT_EVENT_confirm_done).run ((updCode (confirmResult otpOk s).1).run
      (confirmed (confirmResult otpOk s).2.1 (confirmResult otpOk s).2.2 { s with fresh := s.fresh + 1 })) := by
  rw [confirmDone_eq, run_whenA, if_pos h, run_withEnv]
  unfold confirmSteps confirmResult
  rw [run_fun, run_confirmSteps, fwStepCode_fresh, fgStepCode_fresh, confirmEnd_fresh, confirmSecond_fresh]

/-- CONFIRM's end changes its code and its event. -/
theorem completes_confirmDone {otpOk : Bool} {s : State} (h : s.hid.boot.confirm = true) : Completes (.confirmDone otpOk) s
    (Sets [(F.BOOT_UPD_STAT_result, (confirmResult otpOk s).1), (F.BOOT_EVENT_confirm_done, 1)]
      { s.hid with otp := (confirmResult otpOk s).2.1, boot := { s.hid.boot with confirm := false } }
      { s with flash := (confirmResult otpOk s).2.2 }) := by
  have hset : Sets [(F.BOOT_UPD_STAT_result, (confirmResult otpOk s).1), (F.BOOT_EVENT_confirm_done, 1)]
      { s.hid with otp := (confirmResult otpOk s).2.1, boot := { s.hid.boot with confirm := false } }
      { s with flash := (confirmResult otpOk s).2.2 } ((confirmDone otpOk).run s) := by
    rw [run_confirmDone h]
    exact (Sets.setF _ _ _).then_setF _ _
  have hmode : ((confirmDone otpOk).run s).mode = s.mode := hset.mode (by simp +decide)
  exact ⟨_, finish_same _ _ hmode, hset.then_levelsFall⟩

theorem fwAdvance_iff (s : State) : fwAdvance s = true ↔ s.hid.otp.fw < (s.rd64 R.BOOT_FW_ROLLBACK).toNat := decide_eq_true_iff
theorem fgAdvance_iff (s : State) : fgAdvance s = true ↔ (s.force = 2 ∨ s.force = 3) ∧ s.hid.otp.fg < (s.rd R.FING_ROLLBACK).toNat :=
  decide_eq_true_iff

theorem confirmResult_fw_exhausted {otpOk : Bool} {s : State} (hfw : fwAdvance s = true) (hleft : s.hid.otp.fwLeft = 0) :
    confirmResult otpOk s = (0x95, s.hid.otp, s.flash) := by
  simp [confirmResult, confirmEnd, fwStepCode, hfw, hleft]

/-- The firmware counter's write fails. -/
theorem confirmResult_fw_failed {s : State} (hfw : fwAdvance s = true) (hleft : s.hid.otp.fwLeft ≠ 0) (hsecond : confirmSecond (Config.freeEnv s.fresh) s = false) :
    confirmResult false s = (0x92, s.hid.otp, s.flash) := by
  simp [confirmResult, confirmEnd, fwStepCode, hfw, hleft, hsecond]

/-- The firmware step goes on. -/
theorem fwStepCode_eq_zero {otpOk : Bool} {s : State} (hleft : fwAdvance s = true → s.hid.otp.fwLeft ≠ 0)
    (hok : otpOk = true ∨ fwAdvance s = false ∨ confirmSecond (Config.freeEnv s.fresh) s = true) : fwStepCode otpOk (confirmSecond (Config.freeEnv s.fresh) s) s = 0 := by
  unfold fwStepCode
  cases hfw : fwAdvance s with
  | false => rfl
  | true => rcases hok with rfl | hno | hsecond <;> simp_all

theorem confirmResult_of_fgCode {otpOk : Bool} {s : State} (hfw : fwStepCode otpOk (confirmSecond (Config.freeEnv s.fresh) s) s = 0)
    (hfg : fgStepCode otpOk s ≠ 0) : confirmResult otpOk s = (fgStepCode otpOk s, fwAdvanced s, s.flash) := by
  simp [confirmResult, confirmEnd, hfw, hfg]

theorem confirmResult_of_done {otpOk : Bool} {s : State} (hfw : fwStepCode otpOk (confirmSecond (Config.freeEnv s.fresh) s) s = 0)
    (hfg : fgStepCode otpOk s = 0) : confirmResult otpOk s = (0, fgAdvanced s (fwAdvanced s), staleErased s) := by
  simp [confirmResult, confirmEnd, hfw, hfg]

theorem fwAdvanced_eq {s : State} (h : fwAdvance s = true) (hleft : s.hid.otp.fwLeft ≠ 0) :
    fwAdvanced s = { s.hid.otp with fw := (s.rd64 R.BOOT_FW_ROLLBACK).toNat, fwLeft := s.hid.otp.fwLeft - 1 } := if_pos ⟨h, hleft⟩

theorem fwAdvanced_of_level {s : State} (h : fwAdvance s = false) : fwAdvanced s = s.hid.otp :=
  if_neg fun hadv => Bool.false_ne_true (h.symm.trans hadv.1)

theorem fgAdvanced_eq {s : State} (o : OtpSt) (h : fgAdvance s = true) (hleft : s.hid.otp.fgLeft ≠ 0) :
    fgAdvanced s o = { o with fg := (s.rd R.FING_ROLLBACK).toNat, fgLeft := o.fgLeft - 1 } := if_pos ⟨h, hleft⟩

theorem fgAdvanced_of_level {s : State} (o : OtpSt) (h : fgAdvance s = false) : fgAdvanced s o = o :=
  if_neg fun hadv => Bool.false_ne_true (h.symm.trans hadv.1)

theorem fgAdvanced_fw (s : State) (o : OtpSt) : (fgAdvanced s o).fw = o.fw ∧ (fgAdvanced s o).fwLeft = o.fwLeft := by
  unfold fgAdvanced
  split <;> exact ⟨rfl, rfl⟩

/-- What CONFIRM does to the firmware counter is decided in its first step. -/
theorem confirmResult_fw {otpOk : Bool} {s : State} (hfw : fwStepCode otpOk (confirmSecond (Config.freeEnv s.fresh) s) s = 0) :
    (confirmResult otpOk s).2.1.fw = (fwAdvanced s).fw ∧ (confirmResult otpOk s).2.1.fwLeft = (fwAdvanced s).fwLeft := by
  by_cases hfg : fgStepCode otpOk s = 0
  · rw [confirmResult_of_done hfw hfg]
    exact fgAdvanced_fw s _
  · rw [confirmResult_of_fgCode hfw hfg]
    exact ⟨rfl, rfl⟩

theorem fgStepCode_eq_zero {otpOk : Bool} {s : State} (h : fgAdvance s = true → s.hid.otp.fgLeft ≠ 0 ∧ otpOk = true) :
    fgStepCode otpOk s = 0 := by
  unfold fgStepCode
  cases hfg : fgAdvance s with
  | false => rfl
  | true => obtain ⟨hleft, rfl⟩ := h hfg; simp [hleft]

theorem fgStepCode_exhausted {otpOk : Bool} {s : State} (h : fgAdvance s = true) (hleft : s.hid.otp.fgLeft = 0) :
    fgStepCode otpOk s = 0x95 := by simp [fgStepCode, h, hleft]

theorem fgStepCode_failed {s : State} (h : fgAdvance s = true) :
    fgStepCode false s = if s.hid.otp.fgLeft = 0 then 0x95 else 0x92 := by simp [fgStepCode, h]

/-! ### The OTP commands -/

/-- The code that refuses either OTP command (R464). -/
def otpGate (p : Port) (v : Word) (s : State) : Nat :=
  if p = Port.fw then 0x81 else if v.extractLsb' 16 16 ≠ 0xA15E#16 then 0x93
  else if s.mode ≠ CONFIGURE ∨ s.on F.HARV_STAT_src_vb then 0x80 else if bootBusy s ∨ secBusy s then 0x8B else 0

theorem withOp2_slot (v : Word) (op : Nat) (h : op < 4) : (withOp2 v op).toNat / 256 % 4 = v.toNat / 256 % 4 := by
  have := withOp2_div v op h
  omega

theorem withOp2_key (v : Word) (op : Nat) (h : op < 4) : (withOp2 v op).toNat / 2 ^ 16 = v.toNat / 2 ^ 16 := by
  have := withOp2_div v op h
  omega

theorem otpCmd_withOp2 {p : Port} {v : Word} {op : Nat} (h : op = 1 ∨ op = 2) (s : State) : otpCmd p (withOp2 v op) s =
    if otpGate p v s ≠ 0 then secCode (otpGate p v s) s
    else if op = 1 then
      if bit s.hid.otp.prog (v.toNat / 256 % 4) then secCode 0x94 s
      else secStart (.program (v.toNat / 256 % 4) (BitVec.ofNat 512 (leNat (wordsGet s R.SEC_KEYHASH 16)))) s
    else if !bit s.hid.otp.prog (v.toNat / 256 % 4) ∨ !otherSlot s (v.toNat / 256 % 4) then secCode 0x94 s
    else secStart (.revoke (v.toNat / 256 % 4)) s := by
  have hkey : v.extractLsb' 16 16 = 0xA15E#16 ↔ v.toNat / 2 ^ 16 = 0xA15E := key_eq_iff v 0xA15E (by decide)
  have hop : op < 4 := by omega
  unfold otpCmd otpGate
  rw [withOp2_mod v op hop, withOp2_slot v op hop, withOp2_key v op hop]
  simp only [if_neg (show ¬ (op = 0 ∨ op = 3) by omega), ne_eq, hkey]
  split_ifs <;> simp_all

theorem sets_secStart (op : SecOp) (s : State) : Sets [(F.SEC_STAT_result, 0), (F.SEC_STAT_busy, 1)]
    (withBoot s { s.hid.boot with sec := some op }) s ((secStart op).run s) := by
  unfold secStart
  rw [run_seq_cons, run_seq_cons, run_seq_cons, run_seq_nil]
  exact ((Sets.setF _ _ s).then_setF _ _).then_hidA _

theorem otherSlot_iff (s : State) (i : Nat) :
    otherSlot s i = true ↔ ∃ j : Fin 4, j.val ≠ i ∧ bit s.hid.otp.prog j = true ∧ bit s.hid.otp.rev j = false := by
  unfold otherSlot
  rw [List.any_eq_true]
  simp only [List.mem_range, Bool.and_eq_true, decide_eq_true_eq, Bool.not_eq_true', and_assoc]
  exact ⟨fun ⟨j, hj, h⟩ => ⟨⟨j, hj⟩, h⟩, fun ⟨j, h⟩ => ⟨j, j.isLt, h⟩⟩

/-- The code of an OTP command: its gate's, else 0x94 where the slot does not allow it. -/
def otpCode (p : Port) (v : Word) (s : State) (refuse : Bool) : Nat :=
  if otpGate p v s ≠ 0 then otpGate p v s else if refuse then 0x94 else 0

/-- An OTP command is refused with its code or starts its operation. -/
theorem completes_otpCmd {c : Instr} {p : Port} {v : Word} {s : State} {op : Nat} {refuse : Bool} {o : SecOp}
    (hlive : Live p s R.SEC_OTP_CMD = true) (he : exec c s = finish (portGate p R.SEC_OTP_CMD (otpCmd p (withOp2 v op))) s)
    (hcmd : otpCmd p (withOp2 v op) s = if otpGate p v s ≠ 0 then secCode (otpGate p v s) s
      else if refuse then secCode 0x94 s else secStart o s) :
    (otpCode p v s refuse ≠ 0 → Completes c s (Sets [(F.SEC_STAT_result, otpCode p v s refuse)] s.hid s)) ∧
    (otpCode p v s refuse = 0 →
      Completes c s (Sets [(F.SEC_STAT_result, 0), (F.SEC_STAT_busy, 1)] (withBoot s { s.hid.boot with sec := some o }) s)) := by
  unfold otpCode
  constructor
  · intro hcode
    refine completes_portGate hlive he ?_ (by simp +decide)
    rw [Act.run, hcmd]
    split_ifs at hcode ⊢
    case pos => exact Sets.setF F.SEC_STAT_result _ s
    case pos => exact Sets.setF F.SEC_STAT_result _ s
    case neg => exact absurd rfl hcode
  · intro hcode
    refine completes_portGate hlive he ?_ (by simp +decide)
    rw [Act.run, hcmd]
    split_ifs at hcode ⊢
    case pos hgate => exact absurd hcode hgate
    case neg => exact sets_secStart o s

theorem completes_bootConfirm {p : Port} {v : Word} {s : State} (hlive : Live p s R.BOOT_CONFIRM = true) (hgo : v.getLsbD 0 = true) :
    Completes (.bootConfirm p v) s (Sets [(F.BOOT_UPD_STAT_result, confirmCode p v s)]
      (if confirmCode p v s = 0 then withBoot s { s.hid.boot with confirm := true } else s.hid) s) :=
  completes_portGate hlive rfl (sets_confirmCmd hgo) (by simp +decide)

theorem confirmResult_code_lt (otpOk : Bool) (s : State) : (confirmResult otpOk s).1 < 256 := by
  have hfw : ∀ second, fwStepCode otpOk second s < 256 := fun second => by unfold fwStepCode; split_ifs <;> decide
  have hfg : fgStepCode otpOk s < 256 := by unfold fgStepCode; split_ifs <;> decide
  unfold confirmResult confirmEnd
  split_ifs
  · exact hfw _
  · exact hfg
  · exact Nat.zero_lt_succ _

/-- Where the firmware step goes on and the Fingering counter is behind with advances left, a write that succeeds ends with 0. -/
theorem confirmResult_fg {s : State} {otpOk : Bool} (hfw : fwStepCode otpOk (confirmSecond (Config.freeEnv s.fresh) s) s = 0)
    (hfg : fgAdvance s = true) (hleft : s.hid.otp.fgLeft ≠ 0) (hok : otpOk = true) :
    (confirmResult otpOk s).1 = 0 ∧ (confirmResult otpOk s).2.1.fg = (s.rd R.FING_ROLLBACK).toNat ∧
      (confirmResult otpOk s).2.1.fgLeft = s.hid.otp.fgLeft - 1 := by
  rw [confirmResult_of_done hfw (fgStepCode_eq_zero fun _ => ⟨hleft, hok⟩), fgAdvanced_eq _ hfg hleft]
  have hkeep : (fwAdvanced s).fgLeft = s.hid.otp.fgLeft := by unfold fwAdvanced; split <;> rfl
  exact ⟨rfl, rfl, by rw [hkeep]⟩

theorem fwAdvanced_fg (s : State) : (fwAdvanced s).fg = s.hid.otp.fg := by unfold fwAdvanced; split <;> rfl

/-- The clauses of O59 on CONFIRM's end, of its code, key store and flash. -/
theorem confirmEnds (otpOk : Bool) (s : State) :
    let e := confirmResult otpOk s
    let o := s.hid.otp
    let fw := (s.rd64 R.BOOT_FW_ROLLBACK).toNat
    let fg := (s.rd R.FING_ROLLBACK).toNat
    let fwBehind := o.fw < fw
    let fgBehind := (s.force = 2 ∨ s.force = 3) ∧ o.fg < fg
    (fwBehind → o.fwLeft = 0 → e.1 = 0x95 ∧ e.2.1 = o ∧ e.2.2 = s.flash) ∧
    (fwBehind → o.fwLeft ≠ 0 → otpOk = false → ¬ fgBehind → e.1 = 0x92 ∧ e.2.1 = o ∧ e.2.2 = s.flash) ∧
    (fwBehind → o.fwLeft ≠ 0 → otpOk = false → fgBehind → e.2.2 = s.flash ∧
      (e.2.1 = o ∧ e.1 = 0x92 ∨ e.2.1 = { o with fw := fw, fwLeft := o.fwLeft - 1 } ∧ e.1 = if o.fgLeft = 0 then 0x95 else 0x92)) ∧
    (fwBehind → o.fwLeft ≠ 0 → otpOk = true → e.2.1.fw = fw ∧ e.2.1.fwLeft = o.fwLeft - 1) ∧
    (¬ fwBehind → e.2.1.fw = o.fw ∧ e.2.1.fwLeft = o.fwLeft) ∧
    ((fwBehind → o.fwLeft ≠ 0) → fgBehind → o.fgLeft ≠ 0 → otpOk = true → e.2.1.fg = fg ∧ e.2.1.fgLeft = o.fgLeft - 1 ∧ e.1 = 0) ∧
    ((fwBehind → o.fwLeft ≠ 0) → fgBehind → o.fgLeft = 0 → otpOk = true → e.2.1.fg = o.fg ∧ e.1 = 0x95 ∧ e.2.2 = s.flash) ∧
    (¬ fwBehind → fgBehind → o.fgLeft ≠ 0 → otpOk = false → e.2.1 = o ∧ e.1 = 0x92 ∧ e.2.2 = s.flash) ∧
    (¬ fwBehind → ¬ fgBehind → e.2.1 = o ∧ e.1 = 0 ∧ e.2.2 = staleErased s) := by
  simp only [← fwAdvance_iff, ← fgAdvance_iff, Bool.not_eq_true]
  refine ⟨fun hfw hleft => ?_, fun hfw hleft hok hfg => ?_, fun hfw hleft hok hfg => ?_, fun hfw hleft hok => ?_, fun hfw => ?_,
    fun hleft hfg hfgLeft hok => ?_, fun hleft hfg hfgLeft hok => ?_, fun hfw hfg hleft hok => ?_, fun hfw hfg => ?_⟩
  · rw [confirmResult_fw_exhausted hfw hleft]
    exact ⟨rfl, rfl, rfl⟩
  · subst hok
    rw [confirmResult_fw_failed hfw hleft (by simp [confirmSecond, hfg])]
    exact ⟨rfl, rfl, rfl⟩
  · subst hok
    cases hsecond : confirmSecond (Config.freeEnv s.fresh) s with
    | false =>
      rw [confirmResult_fw_failed hfw hleft hsecond]
      exact ⟨rfl, .inl ⟨rfl, rfl⟩⟩
    | true =>
      have hstep := fgStepCode_failed hfg
      rw [confirmResult_of_fgCode (fwStepCode_eq_zero (fun _ => hleft) (.inr (.inr hsecond))) (by rw [hstep]; split <;> decide),
        fwAdvanced_eq hfw hleft, hstep]
      exact ⟨rfl, .inr ⟨rfl, rfl⟩⟩
  · obtain ⟨hctr, hcount⟩ := confirmResult_fw (fwStepCode_eq_zero (s := s) (fun _ => hleft) (.inl hok))
    rw [hctr, hcount, fwAdvanced_eq hfw hleft]
    exact ⟨rfl, rfl⟩
  · obtain ⟨hctr, hcount⟩ := confirmResult_fw (otpOk := otpOk) (fwStepCode_eq_zero (s := s) (by simp [hfw]) (.inr (.inl hfw)))
    rw [hctr, hcount, fwAdvanced_of_level hfw]
    exact ⟨rfl, rfl⟩
  · obtain ⟨hcode, hctr, hcount⟩ := confirmResult_fg (fwStepCode_eq_zero hleft (.inl hok)) hfg hfgLeft hok
    exact ⟨hctr, hcount, hcode⟩
  · have hstep := fgStepCode_exhausted (otpOk := otpOk) hfg hfgLeft
    rw [confirmResult_of_fgCode (fwStepCode_eq_zero hleft (.inl hok)) (by rw [hstep]; decide), hstep]
    exact ⟨fwAdvanced_fg s, rfl, rfl⟩
  · subst hok
    have hstep : fgStepCode false s = 0x92 := (fgStepCode_failed hfg).trans (if_neg hleft)
    rw [confirmResult_of_fgCode (fwStepCode_eq_zero (by simp [hfw]) (.inr (.inl hfw))) (by rw [hstep]; decide), hstep,
      fwAdvanced_of_level hfw]
    exact ⟨rfl, rfl, rfl⟩
  · rw [confirmResult_of_done (fwStepCode_eq_zero (by simp [hfw]) (.inr (.inl hfw))) (fgStepCode_eq_zero (by simp [hfg])),
      fgAdvanced_of_level _ hfg, fwAdvanced_of_level hfw]
    exact ⟨rfl, rfl, rfl⟩

/-- Settles O59, by the code of each command, CONFIRM's end as a triple of its code, the key store and the flash, and the cases of
its two steps. -/
theorem confirmAndOtpGuardTheKeyStore : Obligations.ConfirmAndOtpGuardTheKeyStore := by
  unfold Obligations.ConfirmAndOtpGuardTheKeyStore
  refine ⟨fun s p v hlive hgo => completes_bootConfirm hlive hgo, fun s otpOk hconf => ?_, fun s p v hlive => ?_⟩
  · obtain ⟨t, ht, hset⟩ := completes_confirmDone (otpOk := otpOk) hconf
    have hdone : t.on F.BOOT_EVENT_confirm_done = true := by
      rw [(hset.setsBut fun _ => False).on_of_mem (v := 1) not_false (by simp) (by simp +decide [Fld.Apart]) rfl (by decide)]
      rfl
    have hcode : t.f F.BOOT_UPD_STAT_result = (confirmResult otpOk s).1 := by
      rw [(hset.setsBut fun _ => False).f_of_mem not_false List.mem_cons_self (by simp +decide [Fld.Apart]) (by decide) (by decide)]
      exact Nat.mod_eq_of_lt (confirmResult_code_lt otpOk s)
    have hotp : t.hid.otp = (confirmResult otpOk s).2.1 := congrArg Hid.otp hset.hid_eq
    have hboot : t.hid.boot = { s.hid.boot with confirm := false } := congrArg Hid.boot hset.hid_eq
    have hkeep : KeepRegs (fun off => off = R.BOOT_UPD_STAT ∨ off = R.BOOT_EVENT) s t := hset.keepRegs (by simp +decide)
    obtain ⟨-, ⟨hlpddr, hflash, hsram⟩, -⟩ := hset
    have hflash : t.flash = (confirmResult otpOk s).2.2 := hflash
    obtain ⟨h1, h2, h3, h4, h5, h6, h7, h8, h9⟩ := confirmEnds otpOk s
    simp only [← hcode, ← hotp, ← hflash] at h1 h2 h3 h4 h5 h6 h7 h8 h9
    refine ⟨t, ht, hdone, hboot, hlpddr, hsram, hkeep, h1, h2, h3, h4, h5, h6, h7, h8, fun hfw hfg => ?_⟩
    obtain ⟨hsame, hzero, herased⟩ := h9 hfw hfg
    refine ⟨hsame, hzero, fun hnone => ?_, fun _ b hb i hi => ?_⟩
    · rw [herased, staleErased, hnone]
    · rw [State.flByte, herased]
      exact staleErased_flByte hb hi
  · obtain ⟨hprogCode, hprogGo⟩ := completes_otpCmd (c := .otpProgram p v) hlive rfl (otpCmd_withOp2 (v := v) (.inl rfl) s)
    obtain ⟨hrevCode, hrevGo⟩ := completes_otpCmd (c := .otpRevoke p v) (refuse := decide (bit s.hid.otp.prog (v.toNat / 256 % 4) = false ∨
      ¬ ∃ j : Fin 4, j.val ≠ v.toNat / 256 % 4 ∧ bit s.hid.otp.prog j = true ∧ bit s.hid.otp.rev j = false))
      (o := .revoke (v.toNat / 256 % 4)) hlive rfl (by
        rw [otpCmd_withOp2 (.inr rfl) s, if_neg (show ¬ (2 = 1) by decide)]
        simp only [decide_eq_true_eq, ← otherSlot_iff, Bool.not_eq_true', Bool.not_eq_true])
    unfold otpCode at hprogCode hprogGo hrevCode hrevGo
    simp only [decide_eq_true_eq] at hrevCode hrevGo
    exact ⟨hprogCode, hprogGo, hrevCode, hrevGo⟩

end Sys2Proof.Machine
end

section
/-!
The statement on the sweeps of the MPPT ports (R307, R308, R334).
-/

namespace Sys2Proof.Machine

/-! ### A round falls due -/

/-- What a round that falls due shows outside FOLLOW. -/
def deferFields (s : State) : List (Fld × Nat) := if s.mode ≠ FOLLOW then [(F.MPPT_EVENT_sweep_defer, 1), (F.MPPT_STAT_sweep_due, 1)] else []

theorem deferFields_eq (s : State) :
    deferFields s = if s.mode = FOLLOW then [] else [(F.MPPT_EVENT_sweep_defer, 1), (F.MPPT_STAT_sweep_due, 1)] := ite_not ..

theorem sets_sweepDefer (s : State) : Sets [(F.MPPT_EVENT_sweep_defer, 1), (F.MPPT_STAT_sweep_due, 1)] s.hid s (sweepDefer.run s) := by
  unfold sweepDefer
  rw [run_seq_cons, run_seq_cons, run_seq_nil]
  exact (Sets.setF _ _ s).then_setF _ _

theorem sets_sweepFallsDue {s : State} (h : gridOn s = true) :
    Sets (deferFields s) { s.hid with mppt := { s.hid.mppt with due := true } } s (sweepFallsDue.run s) := by
  unfold sweepFallsDue
  rw [run_whenA, if_pos (show decide (s.up = true ∧ s.island 9 = true) = true from h), run_fun, run_seq_cons, run_seq_cons, run_seq_nil]
  have hdue := (Sets.refl s).then_hidA fun h => { h with mppt := { h.mppt with due := true } }
  exact (hdue.then_only (decide (s.mode ≠ FOLLOW)) fun _ => sets_sweepDefer _).cast
    (by simp [deferFields]) rfl

theorem sets_mpptCtl {s : State} {v : Word} (h : gridOn s = true) :
    Sets ([(F.MPPT_CTL_en, v.toNat), (F.MPPT_CTL_sweep_now, 1)] ++ deferFields s)
      { s.hid with mppt := { s.hid.mppt with due := true } } s ((mpptCtl (v ||| 0x10000#32)).run s) := by
  have hen : setF F.MPPT_CTL_en (v ||| 0x10000#32).toNat = setF F.MPPT_CTL_en v.toNat := setF_congr (by
    have hlow : (v ||| 0x10000#32).setWidth 8 = v.setWidth 8 := by ext i hi; interval_cases i <;> simp
    have htoNat := congrArg BitVec.toNat hlow
    rwa [BitVec.toNat_setWidth, BitVec.toNat_setWidth] at htoNat)
  have hgo : (v ||| 0x10000#32).getLsbD 16 = true := by simp
  unfold mpptCtl
  rw [run_seq_cons, run_seq_cons, run_seq_nil, hen, hgo, run_only, if_pos rfl, run_seq_cons, run_seq_cons, run_seq_nil]
  have hset := (Sets.setF F.MPPT_CTL_en v.toNat s).then_setF F.MPPT_CTL_sweep_now 1
  have hon : gridOn ((setB F.MPPT_CTL_sweep_now).run ((setF F.MPPT_CTL_en v.toNat).run s)) = true := by
    exact (congrArg₂ (fun a b => decide (a = true ∧ b = true)) (hset.up rfl) (hset.island (by simp +decide) 9)).trans h
  refine (hset.trans (sets_sweepFallsDue hon)).cast ?_ ?_
  · rw [deferFields, deferFields, hset.mode (by simp +decide)]
    rfl
  · rw [hset.hid_eq]

/-! ### The end of a dwell -/

/-- The point of a port's sweep that ends, its best one so far. -/
def dwellBest (s : State) (p : Nat) (w : SweepSt) : Rat × Rat :=
  match w.best with
  | none => (divQ w.sum w.cnt, sweepPoint s p w.n)
  | some b => if b.1 < divQ w.sum w.cnt then (divQ w.sum w.cnt, sweepPoint s p w.n) else b

/-- Whether a sweep's best point gains enough to be kept (R307). -/
def sweepGains (s : State) (p : Nat) (w : SweepSt) : Bool :=
  decide (ofPu w.pPre * (1 + s.puQ R.MPPT_SWEEP_GAIN) < ofPu (narrow36 (dwellBest s p w).1))

/-- What the last dwell of a round shows of its best point. -/
def sweepShown (s : State) (p : Nat) (w : SweepSt) : List (Fld × Nat) :=
  pairFields (R.MPPT_P_BEST_V p) (puWord (narrow36 (dwellBest s p w).2)) ++ pairFields (R.MPPT_P_BEST_P p) (puWord (narrow36 (dwellBest s p w).1)) ++
    (if over36 (dwellBest s p w).1 || over36 (dwellBest s p w).2 then [(F.MPPT_EVENT_ovf, 1)] else [])

/-- What the last dwell of a round shows. -/
def sweepEndFields (s : State) (p : Nat) (w : SweepSt) : List (Fld × Nat) :=
  sweepShown s p w ++
    (if sweepGains s p w then [(F.MPPT_EVENT_sweep_moved, 1), (wordFld (R.MPPT_P_MOVES p), (bumped (s.rd (R.MPPT_P_MOVES p))).toNat)] else []) ++
    [(F.MPPT_EVENT_sweep_done, 1)] ++ [(F.MPPT_STAT_sweeping, 0)]

/-- The port after the last dwell of its sweep. -/
def sweptPort (s : State) (p : Nat) (w : SweepSt) : PortSt :=
  { (portSt s p).restart with
    vref := if sweepGains s p w then narrow48 (dwellBest s p w).2 else w.vPre
    pLast := if sweepGains s p w then narrow36 (dwellBest s p w).1 else w.pPre
    sweep := none }

theorem run_dwellEnd_next {s : State} {p : Nat} {rest : List Nat} {w : SweepSt} (hround : s.hid.mppt.round = p :: rest)
    (hsweep : (portSt s p).sweep = some w) (hn : w.n + 1 < sweepPts s) : dwellEnd.run s = { s with hid := { s.hid with mppt :=
      { s.hid.mppt with port := s.hid.mppt.port.put {} p { portSt s p with
          vref := narrow48 (sweepPoint s p (w.n + 1))
          sweep := some { w with n := w.n + 1, t := 0, sum := 0, cnt := 0, best := some (dwellBest s p w) } } } } } := by
  have hact : dwellEnd s = portA p (fun a => { a with
      vref := narrow48 (sweepPoint s p (w.n + 1))
      sweep := some { w with n := w.n + 1, t := 0, sum := 0, cnt := 0, best := some (dwellBest s p w) } }) s := by
    unfold dwellEnd
    simp only [hround, hsweep, if_pos hn]
    rfl
  rw [Act.run, hact]
  rfl

theorem of_mem_sweepShown {s : State} {p : Nat} {w : SweepSt} {x : Fld × Nat} (h : x ∈ sweepShown s p w) :
    x ∈ pairFields (R.MPPT_P_BEST_V p) (puWord (narrow36 (dwellBest s p w).2)) ∨
      x ∈ pairFields (R.MPPT_P_BEST_P p) (puWord (narrow36 (dwellBest s p w).1)) ∨ x = (F.MPPT_EVENT_ovf, 1) := by
  unfold sweepShown at h
  rcases List.mem_append.1 h with h | h
  · exact (List.mem_append.1 h).imp_right .inl
  · refine .inr (.inr ?_)
    split at h
    · exact List.mem_singleton.1 h
    · exact absurd h List.not_mem_nil

theorem sweepShown_ne_moves {s : State} {p : Nat} {w : SweepSt} {x : Fld × Nat} (h : x ∈ sweepShown s p w) : x.1.off ≠ R.MPPT_P_MOVES p := by
  rcases of_mem_sweepShown h with h | h | rfl
  · rcases of_mem_pairFields h with h | h <;> rw [h] <;> simp only [R.MPPT_P_BEST_V, R.MPPT_P_MOVES] <;> omega
  · rcases of_mem_pairFields h with h | h <;> rw [h] <;> simp only [R.MPPT_P_BEST_P, R.MPPT_P_MOVES] <;> omega
  · simp only [F.MPPT_EVENT_ovf, R.MPPT_EVENT, R.MPPT_P_MOVES]; omega

theorem of_mem_sweepEndFields {s : State} {p : Nat} {w : SweepSt} {x : Fld × Nat} (h : x ∈ sweepEndFields s p w) :
    x ∈ sweepShown s p w ∨ sweepGains s p w = true ∧ (x = (F.MPPT_EVENT_sweep_moved, 1) ∨
      x = (wordFld (R.MPPT_P_MOVES p), (bumped (s.rd (R.MPPT_P_MOVES p))).toNat)) ∨ x = (F.MPPT_EVENT_sweep_done, 1) ∨
      x = (F.MPPT_STAT_sweeping, 0) := by
  unfold sweepEndFields at h
  simp only [List.mem_append, List.mem_singleton] at h
  rcases h with ((h | h) | h) | h
  · exact .inl h
  · split at h
    · next hgain => exact .inr (.inl ⟨hgain, by simpa using h⟩)
    · exact absurd h List.not_mem_nil
  · exact .inr (.inr (.inl h))
  · exact .inr (.inr (.inr h))

/-- The offsets of what a sweep's end writes. -/
theorem off_of_mem_sweepEndFields {s : State} {p : Nat} {w : SweepSt} {x : Fld × Nat} (h : x ∈ sweepEndFields s p w) :
    x ∈ pairFields (R.MPPT_P_BEST_V p) (puWord (narrow36 (dwellBest s p w).2)) ∨
      x ∈ pairFields (R.MPPT_P_BEST_P p) (puWord (narrow36 (dwellBest s p w).1)) ∨ x.1.off = R.MPPT_EVENT ∨ x.1.off = R.MPPT_STAT ∨
      x.1.off = R.MPPT_P_MOVES p := by
  rcases of_mem_sweepEndFields h with h | ⟨-, rfl | rfl⟩ | rfl | rfl
  · rcases of_mem_sweepShown h with h | h | rfl
    · exact .inl h
    · exact .inr (.inl h)
    · exact .inr (.inr (.inl rfl))
  · exact .inr (.inr (.inl rfl))
  · exact .inr (.inr (.inr (.inr rfl)))
  · exact .inr (.inr (.inl rfl))
  · exact .inr (.inr (.inr (.inl rfl)))

theorem sets_sweepMoved (p : Nat) (s : State) :
    Sets [(F.MPPT_EVENT_sweep_moved, 1), (wordFld (R.MPPT_P_MOVES p), (bumped (s.rd (R.MPPT_P_MOVES p))).toNat)] s.hid s
      ((seq [setB F.MPPT_EVENT_sweep_moved, bump (R.MPPT_P_MOVES p)]).run s) := by
  have hevent := Sets.setF F.MPPT_EVENT_sweep_moved 1 s
  have hne : F.MPPT_EVENT_sweep_moved.off ≠ R.MPPT_P_MOVES p := by simp only [F.MPPT_EVENT_sweep_moved, R.MPPT_EVENT, R.MPPT_P_MOVES]; omega
  rw [run_seq_cons, run_seq_cons, run_seq_nil]
  refine (hevent.then_bump (R.MPPT_P_MOVES p)).cast ?_ rfl
  rw [fieldWord_of_forall_ne (List.forall_mem_singleton.2 hne)]
  rfl

theorem sets_dwellEnd_last {s : State} {p : Nat} {w : SweepSt} (hround : s.hid.mppt.round = [p])
    (hsweep : (portSt s p).sweep = some w) (hn : sweepPts s ≤ w.n + 1) : Sets (sweepEndFields s p w)
      { s.hid with mppt := { s.hid.mppt with port := s.hid.mppt.port.put {} p (sweptPort s p w), round := [] } } s (dwellEnd.run s) := by
  have hrun : dwellEnd.run s = (seq [setPu (R.MPPT_P_BEST_V p) (narrow36 (dwellBest s p w).2),
      setPu (R.MPPT_P_BEST_P p) (narrow36 (dwellBest s p w).1), portA p (fun a => { a.restart with
        vref := if sweepGains s p w then narrow48 (dwellBest s p w).2 else w.vPre
        pLast := if sweepGains s p w then narrow36 (dwellBest s p w).1 else w.pPre, sweep := none }),
      only (over36 (dwellBest s p w).1 || over36 (dwellBest s p w).2) (setB F.MPPT_EVENT_ovf),
      only (sweepGains s p w) (seq [setB F.MPPT_EVENT_sweep_moved, bump (R.MPPT_P_MOVES p)]),
      setB F.MPPT_EVENT_sweep_done, sweepNext []]).run s := by
    unfold dwellEnd
    simp only [Act.run, hround, hsweep, if_neg (not_lt.2 hn)]
    rfl
  rw [hrun]
  unfold sweepNext
  simp only [run_seq_cons, run_seq_nil]
  have hbest := ((Sets.refl s).then_set64 (R.MPPT_P_BEST_V p) (puWord (narrow36 (dwellBest s p w).2))).then_set64 (R.MPPT_P_BEST_P p)
    (puWord (narrow36 (dwellBest s p w).1))
  have hport := hbest.then_hidA fun h => { h with mppt := { h.mppt with port := h.mppt.port.put {} p (sweptPort s p w) } }
  have hovf := hport.then_only (over36 (dwellBest s p w).1 || over36 (dwellBest s p w).2) fun _ => Sets.setF F.MPPT_EVENT_ovf 1 _
  have hcount : ∀ x ∈ sweepShown s p w, x.1.off ≠ R.MPPT_P_MOVES p := fun x hx => sweepShown_ne_moves hx
  have hmoved := hovf.then_only (sweepGains s p w) fun _ => sets_sweepMoved p _
  rw [hovf.rd_of_ne hcount] at hmoved
  exact ((hmoved.then_setF F.MPPT_EVENT_sweep_done 1).then_hidA fun h => { h with mppt := { h.mppt with round := [] } }).then_setF
    F.MPPT_STAT_sweeping 0

section
variable {s t : State} {p : Nat} {w : SweepSt} {h : Hid}

/-- A field of `MPPT_EVENT` or `MPPT_STAT` lies apart from the port's registers. -/
theorem sweepEndFields_event {x : Fld × Nat} {o : Nat} (hx : x ∈ sweepEndFields s p w) (ho : o = R.MPPT_EVENT ∨ o = R.MPPT_STAT) :
    x ∈ [(F.MPPT_EVENT_ovf, 1), (F.MPPT_EVENT_sweep_moved, 1), (F.MPPT_EVENT_sweep_done, 1), (F.MPPT_STAT_sweeping, 0)] ∨ x.1.off ≠ o := by
  have hbound : o = 0x160008 ∨ o = 0x160004 := ho
  rcases of_mem_sweepEndFields hx with h | ⟨-, rfl | rfl⟩ | rfl | rfl
  · rcases of_mem_sweepShown h with h | h | rfl
    · have := of_mem_pairFields h
      simp only [R.MPPT_P_BEST_V] at this
      exact .inr (by omega)
    · have := of_mem_pairFields h
      simp only [R.MPPT_P_BEST_P] at this
      exact .inr (by omega)
    · exact .inl (by simp)
  · exact .inl (by simp)
  · exact .inr (by simp only [wordFld, R.MPPT_P_MOVES]; omega)
  · exact .inl (by simp)
  · exact .inl (by simp)

theorem sweepEnd_best (ht : Sets (sweepEndFields s p w) h s t) : t.pu (R.MPPT_P_BEST_P p) = narrow36 (dwellBest s p w).1 ∧
    t.pu (R.MPPT_P_BEST_V p) = narrow36 (dwellBest s p w).2 := by
  have hregs : R.MPPT_P_BEST_V p = 0x160190 + p * 0x100 ∧ R.MPPT_P_BEST_P p = 0x160198 + p * 0x100 ∧
    R.MPPT_P_MOVES p = 0x16010C + p * 0x100 ∧ R.MPPT_EVENT = 0x160008 ∧ R.MPPT_STAT = 0x160004 := ⟨rfl, rfl, rfl, rfl, rfl⟩
  rw [State.pu, State.pu, ht.rd64_of_mem (off := R.MPPT_P_BEST_P p) (w := puWord (narrow36 (dwellBest s p w).1)),
    ht.rd64_of_mem (off := R.MPPT_P_BEST_V p) (w := puWord (narrow36 (dwellBest s p w).2))]
  · exact ⟨sext_puWord_narrow36 _, sext_puWord_narrow36 _⟩
  · exact fun x hx => List.mem_append_left _ (List.mem_append_left _ (List.mem_append_left _ (List.mem_append_left _
      (List.mem_append_left _ hx))))
  · intro x hx
    rcases off_of_mem_sweepEndFields hx with h | h | h
    · exact .inl h
    · have := of_mem_pairFields h
      exact .inr (by omega)
    · exact .inr (by omega)
  · exact fun x hx => List.mem_append_left _ (List.mem_append_left _ (List.mem_append_left _ (List.mem_append_left _
      (List.mem_append_right _ hx))))
  · intro x hx
    rcases off_of_mem_sweepEndFields hx with h | h | h
    · have := of_mem_pairFields h
      exact .inr (by omega)
    · exact .inl h
    · exact .inr (by omega)

theorem sweepEnd_bits (ht : Sets (sweepEndFields s p w) h s t) :
    (sweepGains s p w = true → t.on F.MPPT_EVENT_sweep_moved = true) ∧ t.on F.MPPT_EVENT_sweep_done = true ∧
      t.on F.MPPT_STAT_sweeping = false := by
  refine ⟨fun hgain => ?_, ?_, ?_⟩
  · rw [ht.on_of_mem (v := 1) (by simp [sweepEndFields, hgain]) (fun x hx => ?_) rfl (by decide)]
    · rfl
    · rcases sweepEndFields_event hx (.inl rfl) with h | h
      · simp only [List.mem_cons, List.not_mem_nil, or_false] at h
        rcases h with rfl | rfl | rfl | rfl <;> simp +decide [Fld.Apart]
      · exact .inr (.inl h)
  · rw [ht.on_of_mem (v := 1) (by simp [sweepEndFields]) (fun x hx => ?_) rfl (by decide)]
    · rfl
    · rcases sweepEndFields_event hx (.inl rfl) with h | h
      · simp only [List.mem_cons, List.not_mem_nil, or_false] at h
        rcases h with rfl | rfl | rfl | rfl <;> simp +decide [Fld.Apart]
      · exact .inr (.inl h)
  · rw [ht.on_of_mem (v := 0) (by simp [sweepEndFields]) (fun x hx => ?_) rfl (by decide)]
    · rfl
    · rcases sweepEndFields_event hx (.inr rfl) with h | h
      · simp only [List.mem_cons, List.not_mem_nil, or_false] at h
        rcases h with rfl | rfl | rfl | rfl <;> simp +decide [Fld.Apart]
      · exact .inr (.inl h)

theorem sweepEnd_moves (ht : Sets (sweepEndFields s p w) h s t) : t.rd (R.MPPT_P_MOVES p) =
    if sweepGains s p w then bumped (s.rd (R.MPPT_P_MOVES p)) else s.rd (R.MPPT_P_MOVES p) := by
  have hshown : ∀ x ∈ sweepShown s p w, x.1.off ≠ R.MPPT_P_MOVES p := fun x hx => sweepShown_ne_moves hx
  have hevent : R.MPPT_EVENT ≠ R.MPPT_P_MOVES p := by simp only [R.MPPT_EVENT, R.MPPT_P_MOVES]; omega
  have hstat : R.MPPT_STAT ≠ R.MPPT_P_MOVES p := by simp only [R.MPPT_STAT, R.MPPT_P_MOVES]; omega
  split
  · next hgain =>
    refine ht.rd_of_mem (by simp [sweepEndFields, hgain]) fun x hx => ?_
    rcases of_mem_sweepEndFields hx with h | ⟨-, rfl | rfl⟩ | rfl | rfl
    · exact .inr (hshown x h)
    · exact .inr hevent
    · exact .inl rfl
    · exact .inr hevent
    · exact .inr hstat
  · next hno =>
    refine ht.rd_of_ne fun x hx => ?_
    rcases of_mem_sweepEndFields hx with h | ⟨hgain, -⟩ | rfl | rfl
    · exact hshown x h
    · exact absurd hgain hno
    · exact hevent
    · exact hstat

end

/-- Settles O34, by what a round that falls due, and the end of a dwell, write as lists of fields. -/
theorem sweepsFallDueAndStep : Obligations.SweepsFallDueAndStep := by
  unfold Obligations.SweepsFallDueAndStep
  refine ⟨fun s hgrid => ?_, fun s p rest w hround hsweep => ?_⟩
  · rw [← deferFields_eq]
    refine ⟨fun p v hlive => completes_portGate hlive rfl (sets_mpptCtl hgrid) ?_, fun hmin hdorm hconf => ?_, fun hno => ?_⟩
    · unfold deferFields
      split <;> simp +decide
    · refine completes_sets ?_ ?_ rfl
      · unfold sweepDue
        rw [run_whenA, if_pos (decide_eq_true ⟨hmin, hdorm, hconf⟩)]
        exact sets_sweepFallsDue hgrid
      · unfold deferFields
        split <;> simp +decide
    · refine completes_sets ?_ (by simp) rfl
      unfold sweepDue
      rw [run_whenA, if_neg (by simp only [decide_eq_true_eq]; omega)]
      exact Sets.refl s
  · refine ⟨fun hn => completes_sets ?_ (by simp) rfl, fun hn hrest => ?_⟩
    · rw [run_dwellEnd_next hround hsweep hn]
      exact Sets.ofHid s _
    · subst hrest
      obtain ⟨t, ht, hset⟩ := completes_sets (c := .sweepDwellEnd) (sets_dwellEnd_last hround hsweep hn) (fun x hx => by
        rcases off_of_mem_sweepEndFields hx with h | h | h
        · have := of_mem_pairFields h
          simp only [R.MPPT_P_BEST_V] at this
          simp only [R.SYS_MODE_STAT]; omega
        · have := of_mem_pairFields h
          simp only [R.MPPT_P_BEST_P] at this
          simp only [R.SYS_MODE_STAT]; omega
        · simp only [R.MPPT_EVENT, R.MPPT_STAT, R.MPPT_P_MOVES] at h
          simp only [R.SYS_MODE_STAT]; omega) rfl
      obtain ⟨hp, hv⟩ := sweepEnd_best hset
      obtain ⟨hmovedBit, hdone, hsweeping⟩ := sweepEnd_bits hset
      have hport : portSt t p = sweptPort s p w := by
        rw [portSt, hset.hid_eq]
        exact (Tab.get_put _ _ _ _ _ (fun _ => rfl) _).trans (if_pos rfl)
      refine ⟨t, ht, hp, hv, fun hmoved => ?_, fun hkept => ?_, ?_, ?_, hdone, hsweeping, ?_, hset.2.1, hset.now_eq⟩
      · have hgain : sweepGains s p w = true := decide_eq_true hmoved
        refine ⟨?_, hmovedBit hgain, ?_⟩
        · rw [hport]; exact if_pos hgain
        · rw [sweepEnd_moves hset, if_pos hgain]
      · have hgain : ¬ sweepGains s p w = true := fun h => hkept (of_decide_eq_true h)
        refine ⟨?_, ?_⟩
        · rw [hport]; exact if_neg hgain
        · rw [sweepEnd_moves hset, if_neg hgain]
      · rw [hport]; rfl
      · rw [hset.hid_eq]
      · rw [hset.hid_eq]

end Sys2Proof.Machine
end

section
/-!
What a read of a register answers and does (R13 to R19), the bits of masks, and the interrupt summaries as functions of the registers
that they read: the rules that the statements on the Chanter, the meters and the host share.
-/

namespace Sys2Proof.Machine

/-! ### Reads -/

/-- The register at `off` reads `view`, and a read of it does `effect`. -/
def ReadsAs (off : Nat) (view : State → Word) (effect : Port → Act) : Prop :=
  ∃ r, regAt off = some r ∧ r.desc.copy = false ∧ (∀ s, copyGone s r = false) ∧ r.is R.REC_RD_DATA = false ∧
    (∀ s, viewWord s off r &&& readMask r = view s) ∧ ∀ p, readEffect p r = effect p

section
variable {p : Port} {off : Nat} {view : State → Word} {effect : Port → Act} {s : State}

/-- A read that reaches its register answers the word found before the read acts. -/
theorem run_readReg (hl : Live p s off = true) (hr : ReadsAs off view effect) :
    (readReg p off).run s = (respond p [view s] false).run ((effect p).run s) := by
  obtain ⟨r, hreg, hcopy, hgone, hrec, hview, heffect⟩ := hr
  unfold Live at hl
  rw [hreg, Bool.and_eq_true, Bool.and_eq_true] at hl
  obtain ⟨hfree, hlive, hheld⟩ := hl
  have hword : readWord p off s = (view s, false) := by
    unfold readWord
    simp only [hreg, hlive, hcopy, hgone, hrec, ← hview]
    rfl
  have hact : (readAct p off).run s = (effect p).run s := by
    unfold Act.run readAct
    simp only [hreg, hlive, if_true, heffect]
  have hnow : readHeld off s = false := by
    unfold readHeld
    simp only [hreg]
    simpa using hheld
  unfold readReg
  rw [Act.run, portAct_of_free p off false _ s hfree]
  unfold readWords
  simp only [hnow, hword]
  show Act.run (seq _) s = _
  rw [run_seq_cons, run_seq_cons, run_seq_nil, hact]
  rfl

/-- A command that reads a register: it answers the word, and what else changes is what the read does. -/
theorem completes_readReg {c : Instr} {l : List (Fld × Nat)} {h : Hid} (hl : Live p s off = true) (hr : ReadsAs off view effect)
    (he : exec c s = finish (readReg p off) s) (hs : Sets l h s ((effect p).run s)) (hm : ∀ x ∈ l, x.1.off ≠ R.SYS_MODE_STAT) :
    Completes c s (Sets l h { s with resp := s.resp.put {} (portIx p) { data := [view s], err := false } }) := by
  have hset : Sets l h { s with resp := s.resp.put {} (portIx p) { data := [view s], err := false } } ((readReg p off).run s) := by
    rw [run_readReg hl hr]
    obtain ⟨hregs, hmem, hnow, hhid, hresp, hsnap, hlatch, hpending⟩ := hs
    exact ⟨hregs, hmem, hnow, hhid, by rw [← hresp]; rfl, hsnap, hlatch, hpending⟩
  have hmode : ((readReg p off).run s).mode = s.mode := hset.mode hm
  exact ⟨_, he.trans (finish_same _ _ hmode), hset.then_levelsFall⟩

/-- A read that does nothing else answers alone. -/
theorem completes_answers {c : Instr} (hl : Live p s off = true) (hr : ReadsAs off view effect)
    (he : exec c s = finish (readReg p off) s) (hs : (effect p).run s = s) : Completes c s (Answers p [view s] false s) := by
  have hrun := run_readReg hl hr
  rw [hs] at hrun
  have hmode : ((readReg p off).run s).mode = s.mode := by rw [hrun]; rfl
  refine ⟨_, he.trans (finish_same _ _ hmode), ?_⟩
  rw [hrun, run_levelsFall]
  rfl

end

/-- What the response of a port reads after it is put. -/
theorem Sets.resp_get {l : List (Fld × Nat)} {h : Hid} {s t : State} {p : Port} {x : PortResp}
    (a : Sets l h { s with resp := s.resp.put {} (portIx p) x } t) : t.resp.get {} (portIx p) = x := by
  obtain ⟨-, -, -, -, hresp, -⟩ := a
  rw [hresp]
  exact (Tab.get_put _ _ _ _ _ (fun _ => rfl) _).trans (if_pos rfl)

/-- A word with no bit outside a mask is what the mask leaves of it. -/
theorem and_eq_self_of_subset {w m : Word} (h : ∀ i, i < 32 → w.getLsbD i = true → m.getLsbD i = true) : w &&& m = w := by
  refine BitVec.eq_of_getLsbD_eq fun i hi => ?_
  rw [BitVec.getLsbD_and]
  cases hw : w.getLsbD i with
  | false => rfl
  | true => rw [h i hi hw]; rfl

/-! ### Masks -/

/-- A bit that is added where it was clear leaves the others. -/
theorem bit_add_two_pow {x i j : Nat} (h : bit x i = false) (hj : j ≠ i) : bit (x + 2 ^ i) j = bit x j := by
  rcases Nat.lt_or_gt_of_ne hj with hlt | hgt
  · rw [bit_eq_testBit, bit_eq_testBit, Nat.add_comm, Nat.testBit_two_pow_add_gt hlt]
  · have heven : x / 2 ^ i % 2 ≠ 1 := of_decide_eq_false h
    have hhalf : (x + 2 ^ i) / 2 ^ (i + 1) = x / 2 ^ (i + 1) := by
      rw [Nat.pow_succ, ← Nat.div_div_eq_div_mul, ← Nat.div_div_eq_div_mul, Nat.add_div_right x (Nat.two_pow_pos i)]
      omega
    obtain ⟨d, rfl⟩ := Nat.exists_eq_add_of_lt hgt
    have hsplit : ∀ y, y / 2 ^ (i + d + 1) = y / 2 ^ (i + 1) / 2 ^ d := fun y => by
      rw [Nat.div_div_eq_div_mul, ← Nat.pow_add]
      congr 2
      omega
    unfold bit
    rw [hsplit, hsplit x, hhalf]

theorem bit_putBit (x i j : Nat) (b : Bool) : bit (putBit x i b) j = if j = i then b else bit x j := by
  split
  · next h => rw [h, bit_putBit_self]
  · next h =>
    have hself := bit_putBit_self x i b
    unfold putBit at hself ⊢
    split
    · rfl
    · next hne =>
      rw [if_neg hne] at hself
      cases b with
      | true => exact bit_add_two_pow (by simpa using hne) h
      | false =>
        have hle : 2 ^ i ≤ x := Nat.ge_two_pow_of_testBit ((bit_eq_testBit x i).symm.trans (by simpa using hne))
        have hback := bit_add_two_pow hself h
        simp only [Bool.false_eq_true, if_false, Nat.sub_add_cancel hle] at hback ⊢
        exact hback.symm

theorem bit_foldl_putBit (l : List Nat) (x n : Nat) : bit (l.foldl (fun a i => putBit a i true) x) n = (decide (n ∈ l) || bit x n) := by
  induction l generalizing x with
  | nil => simp
  | cons i l ih =>
    rw [List.foldl_cons, ih, bit_putBit]
    by_cases hn : n = i
    · simp [hn]
    · simp [hn]

theorem bit_maskOf (l : List Nat) (n : Nat) : bit (maskOf l) n = decide (n ∈ l) := by
  rw [maskOf, bit_foldl_putBit]
  simp [bit]

/-! ### What the interrupt summaries read (R372) -/

/-- The registers in which sources and vectors are counted: no summary reads them. -/
@[reducible] def countReg (off : Nat) : Prop := 0x1C1400 ≤ off ∧ off < 0x1C1540 ∨ 0x241400 ≤ off ∧ off < 0x241480

section
variable {s t : State} (hrd : ∀ off, ¬ countReg off → t.rd off = s.rd off)
include hrd

theorem evOn_congr {ev ien : Nat} (hev : ¬ countReg ev) (hien : ¬ countReg ien) : evOn t ev ien = evOn s ev ien := by
  rw [evOn, evOn, hrd _ hev, hrd _ hien]

theorem anyOf_congr {off : Nat} {m : Word} (h : ¬ countReg off) : anyOf t off m = anyOf s off m := by
  rw [anyOf, anyOf, hrd _ h]

theorem on_congr {x : Fld} (h : ¬ countReg x.off) : t.on x = s.on x := on_of_rd_eq (hrd _ h)

/-- So it is with the masks of a die's units. -/
theorem maskOf_evOn_congr {n : Nat} {ev ien : Nat → Nat} (h : ∀ i, i < n → ¬ countReg (ev i) ∧ ¬ countReg (ien i)) :
    maskOf ((List.range n).filter fun i => evOn t (ev i) (ien i)) = maskOf ((List.range n).filter fun i => evOn s (ev i) (ien i)) := by
  refine congrArg maskOf (List.filter_congr fun i hi => ?_)
  obtain ⟨hev, hien⟩ := h i (List.mem_range.1 hi)
  exact evOn_congr hrd hev hien

theorem convEvMask_congr {d : Nat} (_ : d < 2) : convEvMask t d = convEvMask s d :=
  maskOf_evOn_congr hrd fun i hi => by simp only [countReg, R.CONV_C_EVENT, R.CONV_C_IEN]; omega

theorem fineEvMask_congr {d : Nat} (_ : d < 2) : fineEvMask t d = fineEvMask s d :=
  maskOf_evOn_congr hrd fun i hi => by simp only [countReg, R.CONV_F_EVENT, R.CONV_F_IEN]; omega

theorem edgeEvMask_congr {d : Nat} (hd : d < 2) : edgeEvMask t d = edgeEvMask s d :=
  maskOf_evOn_congr hrd fun i hi => by simp only [countReg, R.EDGE_CH_EVENT, R.EDGE_CH_IEN]; omega

theorem gateEvMask_congr {d : Nat} (hd : d < 2) : gateEvMask t d = gateEvMask s d :=
  maskOf_evOn_congr hrd fun i hi => by simp only [countReg, R.GATE_CH_EVENT, R.GATE_CH_IEN]; omega

theorem winEvAny_congr {d : Nat} (hd : d < 2) : ((dieUnits d 16).any fun m => evOn t (R.WIN_M_EVENT m) (R.WIN_M_IEN m)) =
    (dieUnits d 16).any fun m => evOn s (R.WIN_M_EVENT m) (R.WIN_M_IEN m) := by
  rw [Bool.eq_iff_iff, List.any_eq_true, List.any_eq_true]
  refine exists_congr fun m => and_congr_right fun hm => ?_
  obtain ⟨i, hi, rfl⟩ := List.mem_map.1 hm
  have hi := List.mem_range.1 hi
  rw [evOn_congr hrd (by simp only [countReg, R.WIN_M_EVENT]; omega) (by simp only [countReg, R.WIN_M_IEN]; omega)]

end

/-- No summary of a source reads the counts. -/
theorem irqSummary_congr {s t : State} (hrd : ∀ off, ¬ countReg off → t.rd off = s.rd off) (hgpio : t.hid.chnt.gpio = s.hid.chnt.gpio)
    (hfrozen : t.hid.edges = s.hid.edges) (host : Bool) (i : Nat) : irqSummary t host i = irqSummary s host i := by
  have hfrozen : edgeFrozen t = edgeFrozen s := congrArg (fun e => e.frozen.isSome) hfrozen
  unfold irqSummary
  refine ite_congr rfl (fun _ => on_congr hrd (by decide)) fun _ => ?_
  refine ite_congr rfl (fun _ => anyOf_congr hrd (by decide)) fun _ => ?_
  refine ite_congr rfl (fun _ => anyOf_congr hrd (by decide)) fun _ => ?_
  refine ite_congr rfl (fun _ => anyOf_congr hrd (by decide)) fun _ => ?_
  refine ite_congr rfl (fun _ => anyOf_congr hrd (by decide)) fun _ => ?_
  refine ite_congr rfl (fun _ => evOn_congr hrd (by decide) (by decide)) fun _ => ?_
  refine ite_congr rfl (fun _ => evOn_congr hrd (by decide) (by decide)) fun _ => ?_
  refine ite_congr rfl (fun _ => evOn_congr hrd (by decide) (by decide)) fun _ => ?_
  refine ite_congr rfl (fun hi => ?_) fun _ => ?_
  · simp only [anyOf_congr hrd (show ¬ countReg (R.CONV_EVENT (i - 8)) by simp only [countReg, R.CONV_EVENT]; omega),
      convEvMask_congr hrd (show i - 8 < 2 by omega), fineEvMask_congr hrd (show i - 8 < 2 by omega)]
  refine ite_congr rfl (fun hi => ?_) fun _ => ?_
  · simp only [anyOf_congr hrd (show ¬ countReg (R.TRIP_EVENT (i - 10)) by simp only [countReg, R.TRIP_EVENT]; omega),
      winEvAny_congr hrd (show i - 10 < 2 by omega)]
  refine ite_congr rfl (fun hi => ?_) fun _ => ?_
  · simp only [anyOf_congr hrd (show ¬ countReg (R.EDGE_EVENT (i - 12)) by simp only [countReg, R.EDGE_EVENT]; omega), hfrozen,
      edgeEvMask_congr hrd (show i - 12 < 2 by omega)]
  refine ite_congr rfl (fun hi => ?_) fun _ => ?_
  · simp only [anyOf_congr hrd (show ¬ countReg (R.GATE_EVENT (i - 14)) by simp only [countReg, R.GATE_EVENT]; omega),
      gateEvMask_congr hrd (show i - 14 < 2 by omega)]
  refine ite_congr rfl (fun hi => evOn_congr hrd (by simp only [countReg, R.BORE_EVENT]; omega)
    (by simp only [countReg, R.BORE_IEN]; omega)) fun _ => ?_
  refine ite_congr rfl (fun _ => evOn_congr hrd (by decide) (by decide)) fun _ => ?_
  refine ite_congr rfl (fun _ => evOn_congr hrd (by decide) (by decide)) fun _ => ?_
  refine ite_congr rfl (fun _ => evOn_congr hrd (by decide) (by decide)) fun _ => ?_
  refine ite_congr rfl (fun _ => evOn_congr hrd (by decide) (by decide)) fun _ => ?_
  refine ite_congr rfl (fun hi => evOn_congr hrd (by simp only [countReg, R.METER_PT_EVENT]; omega)
    (by simp only [countReg, R.METER_PT_IEN]; omega)) fun _ => ?_
  refine ite_congr rfl (fun hi => ?_) fun _ => ?_
  · simp only [evOn_congr hrd (show ¬ countReg (R.CAN_EVENT (i - 32)) by simp only [countReg, R.CAN_EVENT]; omega)
      (show ¬ countReg (R.CAN_IEN (i - 32)) by simp only [countReg, R.CAN_IEN]; omega),
      evOn_congr hrd (show ¬ countReg R.CAN_NT_EVENT by decide) (show ¬ countReg R.CAN_NT_IEN by decide),
      f_of_rd_eq (hrd F.CAN_NT_CFG_ctrl.off (by decide))]
  refine ite_congr rfl (fun _ => ?_) fun _ => ?_
  · rw [hrd _ (by cases host <;> decide)]
  refine ite_congr rfl (fun _ => evOn_congr hrd (by decide) (by decide)) fun _ => ?_
  refine ite_congr rfl (fun _ => evOn_congr hrd (by decide) (by decide)) fun _ => ?_
  refine ite_congr rfl (fun _ => evOn_congr hrd (by decide) (by decide)) fun _ => ?_
  exact ite_congr rfl (fun _ => by rw [hgpio]) fun _ => rfl

end Sys2Proof.Machine
end

section
/-!
The statement on the Chanter's agreed inputs, sweeps and interrupt sources (R359, R365 to R367, R372 to R374).
-/

namespace Sys2Proof.Machine

/-! ### Agreed inputs (R365, R366) -/

/-- The samples that a request latches. -/
def requested (s : State) (v : Word) (a0 b0 a1 b1 : BitVec 16) : ChntSt :=
  { s.hid.chnt with
    agree0 := if v.getLsbD 0 then some (a0, b0, s.now) else s.hid.chnt.agree0
    agree1 := if v.getLsbD 1 then some (a1 &&& 7#16, b1 &&& 7#16, s.now) else s.hid.chnt.agree1 }

theorem sets_agreeReq (s : State) (v : Word) (a0 b0 a1 b1 : BitVec 16) :
    Sets [] (withChnt s (requested s v a0 b0 a1 b1)) s ((agreeReq v a0 b0 a1 b1).run s) := by
  unfold agreeReq requested
  rw [run_fun, run_seq_cons, run_seq_cons, run_seq_nil, run_only, run_only]
  split_ifs <;> exact Sets.ofHid s _

/-- A word that a read of agreed inputs answers lies in its fields. -/
theorem agreeWord_and (s : State) (g : Nat) : agreeWord s g &&& 0x8000FFFF#32 = agreeWord s g := by
  refine and_eq_self_of_subset fun i hi hbit => ?_
  have hcases : (∃ a : BitVec 16, agreeWord s g = a.zeroExtend 32) ∨ agreeWord s g = 0x80000000#32 := by
    unfold agreeWord
    split
    · exact (ite_eq_or_eq ..).imp_left fun h => ⟨_, h⟩
    · exact .inr rfl
  rcases hcases with ⟨a, ha⟩ | ha
  · rw [ha] at hbit
    have hlt : i < 16 := by
      by_contra hge
      simp [BitVec.getLsbD_setWidth, BitVec.getLsbD_of_ge a i (not_lt.1 hge)] at hbit
    exact (show ∀ i < 16, (0x8000FFFF#32).getLsbD i = true by decide) i hlt
  · rw [ha] at hbit
    exact (show ∀ i < 32, (0x80000000#32).getLsbD i = true → (0x8000FFFF#32).getLsbD i = true by decide) i hi hbit

theorem readsAs_agreeVal (g : Fin 2) : ReadsAs (R.CHNT_AGREE_VAL g) (agreeWord · g) fun _ => agreeRead g := by
  have h : ∀ g : Fin 2, (regAt (R.CHNT_AGREE_VAL g)).any (fun r => r.desc.base = R.CHNT_AGREE_VAL 0 ∧ r.at 0 = g.val ∧
    r.desc.copy = false ∧ readMask r = 0x8000FFFF#32) = true := by decide +kernel
  obtain ⟨r, hr, hprops⟩ := (Option.any_eq_true _ _).1 (h g)
  obtain ⟨hbase, hat, hcopy, hmask⟩ := of_decide_eq_true hprops
  refine ⟨r, hr, hcopy, fun s => by simp +decide [copyGone, RegAt.is, hbase], by simp +decide [RegAt.is, hbase], fun s => ?_, fun p => ?_⟩
  · unfold viewWord RegAt.is
    rw [hbase, hat, hmask]
    simp +decide only [if_true, if_false]
    exact agreeWord_and s g
  · unfold readEffect RegAt.is
    rw [hbase, hat]
    simp +decide

theorem completes_agreeValRead {p : Port} {g : Fin 2} {s : State} (hl : Live p s (R.CHNT_AGREE_VAL g) = true) :
    Completes (.agreeValRead p g) s (Sets [] (withChnt s (if g.val = 0 then { s.hid.chnt with agree0 := none } else
      { s.hid.chnt with agree1 := none })) { s with resp := s.resp.put {} (portIx p) { data := [agreeWord s g], err := false } }) :=
  completes_readReg hl (readsAs_agreeVal g) rfl (Sets.ofHid s _) (by simp)

theorem agreeWord_of_some {s : State} {g : Fin 2} {a b : BitVec 16} {t0 : BitVec 64}
    (h : (if g = 0 then s.hid.chnt.agree0 else s.hid.chnt.agree1) = some (a, b, t0)) : agreeWord s g =
      if a = b ∧ (if s.on F.CLK_SYS_DIV_ACT_div_chnt then 10 else 5) ≤ (s.now - t0).toNat then a.zeroExtend 32 else 0x80000000#32 := by
  have hof : agreeOf s g = some (a, b, t0) := by rw [← h, agreeOf]; exact if_congr (by rw [Fin.ext_iff]; rfl) rfl rfl
  unfold agreeWord
  rw [hof]

theorem agreeWord_of_none {s : State} {g : Fin 2} (h : (if g = 0 then s.hid.chnt.agree0 else s.hid.chnt.agree1) = none) :
    agreeWord s g = 0x80000000#32 := by
  have hof : agreeOf s g = none := by rw [← h, agreeOf]; exact if_congr (by rw [Fin.ext_iff]; rfl) rfl rfl
  unfold agreeWord
  rw [hof]

theorem sets_svckeyAgree {s : State} {a b : Bool} (h : chntOn s = true) : ∃ n,
    Sets (if a = b then [(F.SYS_MODE_STAT_svckey, b2n a)] else [])
      (withChnt s { s.hid.chnt with gpio := s.hid.chnt.gpio &&& n }) s ((svckeyAgree a b).run s) := by
  unfold svckeyAgree
  rw [run_whenA, if_pos h, run_seq_cons, run_seq_cons, run_seq_nil, run_withEnv]
  have hkey := ((Sets.refl s).then_only (decide (a = b)) fun _ => Sets.setF F.SYS_MODE_STAT_svckey (b2n a) s).then_freshA
  exact ⟨_, (hkey.then_hidA _).cast (by simp) rfl⟩

/-! ### Sweeps (R367, R374) -/

section
variable {s : State} {v : Word} (hrun : coresRun s = true)
include hrun

theorem sets_sweepBegin (hv : v.getLsbD 1 = false) :
    Sets [(F.CHNT_STAT_sweeping, 1), (F.CHNT_SWEEP_STAT_words, 0)] s.hid s ((sweepBegin .fw (v ||| 1#32)).run s) := by
  have hend : (v ||| 1#32).getLsbD 1 = false := by simpa using hv
  have hbegin : (v ||| 1#32).getLsbD 0 = true := by simp
  unfold sweepBegin sweepCtl
  rw [run_whenA, if_pos (by simpa using hrun), run_seq_cons, run_seq_cons, run_seq_nil, run_whenA, hend, if_neg (by simp), hbegin,
    run_only, if_pos rfl, run_seq_cons, run_seq_cons, run_seq_nil]
  exact (Sets.setF _ _ s).then_setF _ _

/-- What ends a sweep that is under way. -/
theorem run_sweepEnd (hv : v.getLsbD 0 = false) (hsweep : s.on F.CHNT_STAT_sweeping = true) : (sweepEnd .fw (v ||| 2#32)).run s =
    (if 97 ≤ s.f F.CHNT_SWEEP_STAT_words then chntA fun c => { c with sweepT := c.sweepT.map fun _ => s.now, sweepFrom := some s.now }
      else setB F.CHNT_EVENT_sweep_short).run ((clrB F.CHNT_STAT_sweeping).run s) := by
  have hend : (v ||| 2#32).getLsbD 1 = true := by simp
  have hbegin : (v ||| 2#32).getLsbD 0 = false := by simpa using hv
  unfold sweepEnd sweepCtl
  rw [run_whenA, if_pos (by simpa using hrun), run_seq_cons, run_seq_cons, run_seq_nil, run_whenA, hend, hsweep, if_pos (by simp), hbegin,
    run_only, if_neg Bool.false_ne_true, run_fun, run_seq_cons, run_seq_cons, run_seq_nil]

theorem sets_sweepEnd_counts (hv : v.getLsbD 0 = false) (hsweep : s.on F.CHNT_STAT_sweeping = true)
    (hwords : 97 ≤ s.f F.CHNT_SWEEP_STAT_words) : Sets [(F.CHNT_STAT_sweeping, 0)] (withChnt s { s.hid.chnt with
      sweepT := s.hid.chnt.sweepT.map fun _ => s.now, sweepFrom := some s.now }) s ((sweepEnd .fw (v ||| 2#32)).run s) := by
  rw [run_sweepEnd hrun hv hsweep, if_pos hwords]
  exact (Sets.setF _ _ s).then_hidA _

theorem sets_sweepEnd_short (hv : v.getLsbD 0 = false) (hsweep : s.on F.CHNT_STAT_sweeping = true)
    (hwords : s.f F.CHNT_SWEEP_STAT_words < 97) :
    Sets [(F.CHNT_STAT_sweeping, 0), (F.CHNT_EVENT_sweep_short, 1)] s.hid s ((sweepEnd .fw (v ||| 2#32)).run s) := by
  rw [run_sweepEnd hrun hv hsweep, if_neg (not_le.2 hwords)]
  exact (Sets.setF _ _ s).then_setF _ _

theorem sets_sweepData (hsweep : s.on F.CHNT_STAT_sweeping = true) :
    Sets [(F.CHNT_SWEEP_STAT_words, min 255 (s.f F.CHNT_SWEEP_STAT_words + 1))] s.hid s ((sweepData .fw).run s) := by
  unfold sweepData
  rw [run_whenA, if_pos (by simp [hrun, hsweep]), run_fun]
  exact Sets.setF F.CHNT_SWEEP_STAT_words _ s

end

/-! ### Levels and the machine timer (R359, R372) -/

theorem machineTimer_sets {s : State} (hon : chntOn s = true) (hcmp : s.rd64 R.CHNT_MTIMECMP ≤ s.now) : Sets []
    { s.hid with chnt := { s.hid.chnt with mtip := true }, wake := { s.hid.wake with wfi := false } } s (machineTimer.run s) := by
  unfold machineTimer
  rw [run_whenA, if_pos (by simp [hon, hcmp]), run_seq_cons, run_seq_cons, run_seq_nil]
  exact Sets.ofHid s _

/-- Only summaries that are high are held as seen high. -/
theorem summaryAt_of_seen {s : State} {n : Nat} (h : bit (levelsFall.run s).seen n = true) : summaryAt (levelsFall.run s) n = true := by
  rw [run_levelsFall] at h ⊢
  have hsame : summaryAt s n = true := by
    by_cases hzero : s.seen = 0
    · rw [if_pos hzero, hzero] at h
      exact absurd h (by simp [bit])
    · rw [if_neg hzero, bit_maskOf] at h
      exact (List.mem_filter.1 (of_decide_eq_true h)).2
  exact hsame

theorem finish_levelsFall (a : Act) (s : State) : ∃ u, finish a s = .next (levelsFall.run u) := by
  unfold finish
  dsimp only
  split
  · exact ⟨_, rfl⟩
  · exact ⟨(pinStamp s (List.range 48)).run ((modeSwitch s.mode).run (a.run s)), by rw [run_seq_cons, run_seq_cons, run_seq_cons, run_seq_nil]⟩

/-! ### Sources that rise (R372) -/

/-- The count of a source after it rises: at 255 it stays, with `sat`. -/
def countedWord (w : Word) : Word := if w.toNat % 256 = 255 then w ||| 0x100#32 else w + 1#32

theorem countedWord_toNat (w : Word) : (countedWord w).toNat = if w.toNat % 256 = 255 then w.toNat ||| 256 else w.toNat + 1 := by
  unfold countedWord
  split
  · rw [BitVec.toNat_or]
    rfl
  · have := w.isLt
    rw [BitVec.toNat_add, Nat.mod_eq_of_lt]
    · rfl
    · show w.toNat + 1 < _
      omega

theorem run_countRise (off : Nat) (s : State) : (countRise off).run s = (setW off (countedWord (s.rd off))).run s := by
  unfold Act.run countRise countedWord setW
  dsimp only
  split <;> rfl

/-- A wait for interrupt may end. -/
theorem run_irqWake (s : State) : ∃ wk, irqWake.run s = { s with hid := { s.hid with wake := wk } } := by
  unfold irqWake
  rw [run_whenA]
  split
  · exact ⟨_, rfl⟩
  · exact ⟨s.hid.wake, rfl⟩

/-- The source's level is taken for agreed. -/
def gpioUp (i : Nat) (s : State) : State :=
  { s with hid := { s.hid with chnt := { s.hid.chnt with gpio := putBit s.hid.chnt.gpio (i - 64) true } } }

/-- A rise that is counted. -/
theorem run_counted {i : Nat} {s : State} (hon : chntOn s = true) (hrise : rises false i s = true) : ∃ wk,
    (whenA (rises false i) (seq [riseSeen false i, whenA chntOn (seq [countRise (R.CHNT_IRQ_CNT i), irqWake])])).run s =
      { (setW (R.CHNT_IRQ_CNT i) (countedWord (s.rd (R.CHNT_IRQ_CNT i)))).run s with
        seen := putBit s.seen i true, hid := { s.hid with wake := wk } } := by
  rw [run_whenA, if_pos hrise, run_seq_cons, run_seq_cons, run_seq_nil, run_whenA]
  rw [if_pos (show chntOn ((riseSeen false i).run s) = true from hon), run_seq_cons, run_seq_cons, run_seq_nil, run_countRise]
  exact run_irqWake _

/-- The counted source's summary is high, so that it is seen high after the command. -/
theorem seen_levelsFall {s : State} {i : Nat} (hi : i < 80) (hsum : irqSummary s false i = true) (hseen : bit s.seen i = true) :
    bit (levelsFall.run s).seen i = true := by
  have hne : s.seen ≠ 0 := by
    intro h
    rw [h] at hseen
    exact absurd hseen (by simp [bit])
  rw [run_levelsFall]
  show bit (if s.seen = 0 then _ else _) i = true
  rw [if_neg hne, bit_maskOf, decide_eq_true_eq, List.mem_filter, bitsOf, List.mem_filter, List.mem_range]
  refine ⟨⟨by omega, hseen⟩, ?_⟩
  rw [summaryAt, decide_eq_false (by omega), Nat.mod_eq_of_lt hi]
  exact hsum

theorem not_countReg_irqCnt {i off : Nat} (hi : i < 80) (h : ¬ countReg off) : off ≠ R.CHNT_IRQ_CNT i := by
  simp only [countReg, R.CHNT_IRQ_CNT] at h ⊢
  omega

/-- A source that rises is counted, and seen high; `u` is the state once its level is taken. -/
theorem completes_irqRise {i : Fin 256} {s u : State} (hi : i.val < 80)
    (hrun : (irqRise i).run s = (whenA (rises false i) (seq [riseSeen false i, whenA chntOn (seq [countRise (R.CHNT_IRQ_CNT i), irqWake])])).run u)
    (hu : Sets [] u.hid s u) (hon : chntOn u = true) (hrise : rises false i u = true) : Completes (.irqSourceRise i) s fun t =>
      Sets [(wordFld (R.CHNT_IRQ_CNT i), (countedWord (s.rd (R.CHNT_IRQ_CNT i))).toNat)] { u.hid with wake := t.hid.wake } s t ∧
      bit t.seen i = true := by
  obtain ⟨wk, hwk⟩ := run_counted hon hrise
  have hset : Sets [(wordFld (R.CHNT_IRQ_CNT i), (countedWord (s.rd (R.CHNT_IRQ_CNT i))).toNat)] { u.hid with wake := wk } s
      ((irqRise i).run s) := by
    rw [hrun, hwk, hu.rd_eq]
    exact (hu.then_setW _ _).then_hidA fun h => { h with wake := wk }
  have hmode : ((irqRise i).run s).mode = s.mode := hset.mode (by
    intro x hx
    rw [List.mem_singleton.1 hx]
    simp only [wordFld, R.CHNT_IRQ_CNT, R.SYS_MODE_STAT]
    omega)
  have hsum : irqSummary u false i = true := by
    unfold rises at hrise
    simp only [Bool.and_eq_true] at hrise
    exact hrise.1.2
  have hsame : irqSummary ((irqRise i).run s) false i = irqSummary u false i := by
    rw [hrun, hwk]
    refine irqSummary_congr (s := u) (fun off hoff => ?_) ?_ ?_ _ _
    case refine_2 => rfl
    case refine_3 => rfl
    exact (run_setW_rd _ _ _ u).trans (if_neg (not_countReg_irqCnt hi hoff))
  have hseen : bit ((irqRise i).run s).seen i = true := by
    rw [hrun, hwk]
    exact bit_putBit_self _ _ _
  refine ⟨_, finish_same _ _ hmode, ?_, seen_levelsFall hi (hsame.trans hsum) hseen⟩
  rw [run_levelsFall_hid, hset.hid_eq]
  exact hset.then_levelsFall

theorem up_of_chntOn {s : State} (h : chntOn s = true) : s.up = true := (of_decide_eq_true h).1

theorem rises_iff {s : State} {i : Nat} (hup : s.up = true) :
    rises false i s = true ↔ i < 80 ∧ irqSummary s false i = true ∧ bit s.seen i = false := by
  unfold rises seenIx
  simp [hup, and_assoc]

/-- A source below 64 has no level of its own. -/
theorem run_irqRise_low {i : Nat} (s : State) (h : ¬ (64 ≤ i ∧ i < 80)) : (irqRise i).run s =
    (whenA (rises false i) (seq [riseSeen false i, whenA chntOn (seq [countRise (R.CHNT_IRQ_CNT i), irqWake])])).run s := by
  unfold irqRise
  rw [run_seq_cons, run_seq_cons, run_seq_nil, run_only, if_neg (by simpa using h)]

theorem run_irqRise_gpio {i : Nat} {s : State} (h : 64 ≤ i ∧ i < 80) (hon : chntOn s = true) : (irqRise i).run s =
    (whenA (rises false i) (seq [riseSeen false i, whenA chntOn (seq [countRise (R.CHNT_IRQ_CNT i), irqWake])])).run (gpioUp i s) := by
  have hlevel : (whenA chntOn (chntA fun c => { c with gpio := putBit c.gpio (i - 64) true })).run s = gpioUp i s := by
    rw [run_whenA, if_pos hon]
    rfl
  unfold irqRise
  rw [run_seq_cons, run_seq_cons, run_seq_nil, run_only, if_pos (by simpa using h), hlevel]

theorem irqSummary_gpioUp {i : Nat} {s : State} (h : 64 ≤ i ∧ i < 80) : irqSummary (gpioUp i s) false i = true := by
  have hbit : irqSummary (gpioUp i s) false i = bit (gpioUp i s).hid.chnt.gpio (i - 64) := by
    unfold irqSummary
    iterate 23 rw [if_neg (by omega)]
    exact if_pos h
  rw [hbit]
  exact bit_putBit_self _ _ _

/-- The clauses of O39 on sources that rise. -/
theorem sourceRises {s : State} {i : Fin 256} (hon : chntOn s = true) :
    (¬ (64 ≤ i.val ∧ i.val < 80) →
     (i.val < 80 → irqSummary s false i = true → bit s.seen i = false → Completes (.irqSourceRise i) s fun t =>
       Sets [(wordFld (R.CHNT_IRQ_CNT i), (countedWord (s.rd (R.CHNT_IRQ_CNT i))).toNat)] { s.hid with wake := t.hid.wake } s t ∧
         bit t.seen i = true) ∧
     (80 ≤ i.val ∨ irqSummary s false i = false ∨ bit s.seen i = true → Completes (.irqSourceRise i) s (Sets [] s.hid s))) ∧
    (64 ≤ i.val → i.val < 80 → bit s.seen i = false → Completes (.irqSourceRise i) s fun t =>
      Sets [(wordFld (R.CHNT_IRQ_CNT i), (countedWord (s.rd (R.CHNT_IRQ_CNT i))).toNat)]
        { s.hid with wake := t.hid.wake, chnt := { s.hid.chnt with gpio := putBit s.hid.chnt.gpio (i - 64) true } } s t ∧
      bit t.seen i = true) := by
  have hup := up_of_chntOn hon
  refine ⟨fun hlow => ⟨fun hi hsum hseen => ?_, fun hno => ?_⟩, fun hge hlt hseen => ?_⟩
  · exact completes_irqRise hi (run_irqRise_low s hlow) (Sets.refl s) hon ((rises_iff hup).2 ⟨hi, hsum, hseen⟩)
  · refine completes_sets (a := irqRise i) ?_ (by simp) rfl
    have hnot : rises false i s = false := by
      rw [← Bool.not_eq_true, rises_iff hup]
      rintro ⟨hi, hsum, hseen⟩
      rcases hno with h | h | h
      · omega
      · exact Bool.false_ne_true (h.symm.trans hsum)
      · exact Bool.false_ne_true (hseen.symm.trans h)
    rw [run_irqRise_low s hlow, run_whenA, hnot]
    exact Sets.refl s
  · exact completes_irqRise hlt (run_irqRise_gpio ⟨hge, hlt⟩ hon) (Sets.ofHid s _) hon
      ((rises_iff (s := gpioUp i s) hup).2 ⟨hlt, irqSummary_gpioUp ⟨hge, hlt⟩, hseen⟩)

/-! ### Claims (R373) -/

/-- A source goes before another (R373): by its priority, and among equals by its number. -/
def GoesBefore (s : State) (i j : Nat) : Prop := irqPrio s j < irqPrio s i ∨ irqPrio s j = irqPrio s i ∧ i ≤ j

/-- The source that a claim keeps of two. -/
def irqBetter (s : State) (best : Option Nat) (i : Nat) : Option Nat :=
  match best with
  | some b => if irqPrio s b < irqPrio s i then some i else some b
  | none => some i

theorem irqTop_eq (s : State) : irqTop s = ((List.range 80).filter (irqPending s)).foldl (irqBetter s) none := by
  unfold irqTop
  congr 1

/-- Along a rising list the source kept goes before all others. -/
theorem foldl_irqBetter (s : State) (l : List Nat) (b : Nat) (h : (b :: l).Pairwise (· < ·)) :
    ∃ c, l.foldl (irqBetter s) (some b) = some c ∧ c ∈ b :: l ∧ ∀ j ∈ b :: l, GoesBefore s c j := by
  induction l generalizing b with
  | nil => exact ⟨b, rfl, List.mem_singleton_self b, fun j hj => .inr (by simp [List.mem_singleton.1 hj])⟩
  | cons x l ih =>
    obtain ⟨hb, hl⟩ := List.pairwise_cons.1 h
    have hbx := hb x List.mem_cons_self
    rw [List.foldl_cons]
    by_cases hlt : irqPrio s b < irqPrio s x
    · obtain ⟨c, hc, hmem, hbest⟩ := ih x hl
      refine ⟨c, by rw [irqBetter, if_pos hlt]; exact hc, List.mem_cons_of_mem b hmem, fun j hj => ?_⟩
      rcases List.mem_cons.1 hj with rfl | hj
      · have hx := hbest x List.mem_cons_self
        unfold GoesBefore at hx ⊢
        omega
      · exact hbest j hj
    · obtain ⟨c, hc, hmem, hbest⟩ := ih b (List.Pairwise.sublist ((List.sublist_cons_self x l).cons_cons b) h)
      refine ⟨c, by rw [irqBetter, if_neg hlt]; exact hc, ?_, fun j hj => ?_⟩
      · rcases List.mem_cons.1 hmem with rfl | hmem
        · exact List.mem_cons_self
        · exact List.mem_cons_of_mem b (List.mem_cons_of_mem x hmem)
      · have hcb := hbest b List.mem_cons_self
        rcases List.mem_cons.1 hj with rfl | hj
        · exact hcb
        rcases List.mem_cons.1 hj with rfl | hj
        · unfold GoesBefore at hcb ⊢
          omega
        · exact hbest j (List.mem_cons_of_mem b hj)

/-- The source that a claim takes is the one that goes before all pending ones. -/
theorem irqTop_eq_some {s : State} {i : Fin 80} (hi : irqPending s i = true)
    (hbest : ∀ j : Fin 80, irqPending s j = true → GoesBefore s i j) : irqTop s = some i.val := by
  have hmem : ∀ n, n ∈ (List.range 80).filter (irqPending s) ↔ n < 80 ∧ irqPending s n = true := fun n => by
    rw [List.mem_filter, List.mem_range]
  have hsorted : ((List.range 80).filter (irqPending s)).Pairwise (· < ·) := List.pairwise_lt_range.filter _
  have hin := (hmem i).2 ⟨i.isLt, hi⟩
  rw [irqTop_eq]
  cases hlist : (List.range 80).filter (irqPending s) with
  | nil => exact absurd (hlist ▸ hin) List.not_mem_nil
  | cons b l =>
    rw [hlist] at hmem hsorted hin
    obtain ⟨c, hc, hcmem, hcbest⟩ := foldl_irqBetter s l b hsorted
    obtain ⟨hclt, hcpend⟩ := (hmem c).1 hcmem
    have hic := hbest ⟨c, hclt⟩ hcpend
    have hci := hcbest i hin
    rw [List.foldl_cons]
    refine hc.trans (congrArg some ?_)
    unfold GoesBefore at hic hci
    dsimp only at hic
    omega

theorem irqTop_eq_none {s : State} (h : ∀ j : Fin 80, irqPending s j = false) : irqTop s = none := by
  have hempty : (List.range 80).filter (irqPending s) = [] :=
    List.filter_eq_nil_iff.2 fun n hn => Bool.not_eq_true _ ▸ h ⟨n, List.mem_range.1 hn⟩
  rw [irqTop_eq, hempty]
  rfl

theorem readsAs_irqClaim : ReadsAs R.CHNT_IRQ_CLAIM (fun s => claimWord s &&& 0x1FF01FF#32) fun _ => irqClaim := by
  have h : (regAt R.CHNT_IRQ_CLAIM).any (fun r => r.desc.base = R.CHNT_IRQ_CLAIM ∧ r.desc.copy = false ∧ readMask r = 0x1FF01FF#32) = true := by
    decide +kernel
  obtain ⟨r, hr, hprops⟩ := (Option.any_eq_true _ _).1 h
  obtain ⟨hbase, hcopy, hmask⟩ := of_decide_eq_true hprops
  refine ⟨r, hr, hcopy, fun s => by simp +decide [copyGone, RegAt.is, hbase], by simp +decide [RegAt.is, hbase], fun s => ?_, fun p => ?_⟩
  · unfold viewWord RegAt.is
    rw [hbase, hmask]
    simp +decide
  · unfold readEffect RegAt.is
    rw [hbase]
    simp +decide

/-- A claim's word lies in its fields. -/
theorem claim_and {i m b : Nat} (hi : i < 80) (hm : m < 256) (hb : b < 2) : BitVec.ofNat 32 (i + 2 ^ 8 + m * 2 ^ 16 + b * 2 ^ 24) &&& 0x1FF01FF#32 =
    BitVec.ofNat 32 (i + 2 ^ 8 + m * 2 ^ 16 + b * 2 ^ 24) := by
  refine and_eq_self_of_subset fun j hj hbit => ?_
  have hdiv : (i + 2 ^ 8 + m * 2 ^ 16 + b * 2 ^ 24) / 2 ^ j % 2 = 1 := by
    rw [BitVec.getLsbD_ofNat, Nat.testBit_eq_decide_div_mod_eq, Bool.and_eq_true, decide_eq_true_eq, decide_eq_true_eq] at hbit
    exact hbit.2
  by_contra hmask
  have hgap : 9 ≤ j ∧ j < 16 ∨ 25 ≤ j := (show ∀ j < 32, ¬ (0x1FF01FF#32).getLsbD j = true → 9 ≤ j ∧ j < 16 ∨ 25 ≤ j by decide) j hj hmask
  rcases hgap with ⟨hlo, hhi⟩ | hlo
  · interval_cases j <;> omega
  · interval_cases j <;> omega

theorem getLsbD_eight (w : Word) : w.toNat / 256 % 2 = b2n (w.getLsbD 8) := by
  rw [BitVec.getLsbD, Nat.testBit_eq_decide_div_mod_eq]
  unfold b2n
  have : w.toNat / 2 ^ 8 % 2 < 2 := Nat.mod_lt _ (by decide)
  split
  · next h => exact of_decide_eq_true h
  · next h =>
    have := of_decide_eq_false (Bool.not_eq_true _ ▸ h)
    omega

/-- The clause of O39 on a claim of a pending source. -/
theorem claims {s : State} {p : Port} {i : Fin 80} (hl : Live p s R.CHNT_IRQ_CLAIM = true) (hi : irqPending s i = true)
    (hbest : ∀ j : Fin 80, irqPending s j = true → GoesBefore s i j) : Completes (.irqClaim p) s fun t =>
      t.resp.get {} (portIx p) = { data := [BitVec.ofNat 32 (i.val + 2 ^ 8 + (s.rd (R.CHNT_IRQ_CNT i)).toNat % 2 ^ 8 * 2 ^ 16 +
        b2n ((s.rd (R.CHNT_IRQ_CNT i)).getLsbD 8) * 2 ^ 24)], err := false } ∧
      t.rd (R.CHNT_IRQ_CNT i) = 0#32 ∧ irqPending t i = false ∧ bit t.hid.chnt.masked i = true ∧
      (∀ off, off ≠ R.CHNT_IRQ_CNT i → t.rd off = s.rd off) ∧ SameMem s t ∧ t.now = s.now := by
  have htop := irqTop_eq_some hi hbest
  have hrun : irqClaim.run s = (seq [setW (R.CHNT_IRQ_CNT i) 0#32, chntA fun c => { c with masked := putBit c.masked i true }]).run s := by
    unfold Act.run irqClaim
    rw [htop]
  have hset : Sets [(wordFld (R.CHNT_IRQ_CNT i), (0#32).toNat)] (withChnt s { s.hid.chnt with masked := putBit s.hid.chnt.masked i true }) s
      (irqClaim.run s) := by
    rw [hrun, run_seq_cons, run_seq_cons, run_seq_nil]
    exact (Sets.setW _ _ s).then_hidA _
  have hword : claimWord s = BitVec.ofNat 32 (i.val + 2 ^ 8 + (s.rd (R.CHNT_IRQ_CNT i)).toNat % 2 ^ 8 * 2 ^ 16 +
      b2n ((s.rd (R.CHNT_IRQ_CNT i)).getLsbD 8) * 2 ^ 24) := by
    unfold claimWord
    rw [htop, ← getLsbD_eight]
    rfl
  obtain ⟨t, ht, hread⟩ := completes_readReg (c := .irqClaim p) hl readsAs_irqClaim rfl hset (List.forall_mem_singleton.2 (by
    simp only [wordFld, R.CHNT_IRQ_CNT, R.SYS_MODE_STAT]; omega))
  simp only [hword] at hread
  rw [claim_and i.isLt (show (s.rd (R.CHNT_IRQ_CNT i)).toNat % 2 ^ 8 < 256 from Nat.mod_lt _ (by decide)) (by have := b2n_le_one ((s.rd (R.CHNT_IRQ_CNT i)).getLsbD 8); omega)] at hread
  have hmasked : bit t.hid.chnt.masked i = true := by
    rw [hread.hid_eq]
    exact bit_putBit_self _ _ _
  refine ⟨t, ht, ?_, ?_, by simp [irqPending, hmasked], hmasked, fun off hoff => ?_, hread.2.1, hread.now_eq⟩
  · exact hread.resp_get
  · exact hread.rd_of_mem (w := 0#32) List.mem_cons_self fun x hx => .inl (List.mem_singleton.1 hx)
  · exact hread.rd_of_ne fun x hx => by rw [List.mem_singleton.1 hx]; exact fun h => hoff h.symm

/-- The clause of O39 on the end of a claim. -/
theorem claimDone {s : State} {p : Port} {v : Word} (hl : Live p s R.CHNT_IRQ_DONE = true) : Completes (.irqDone p v) s fun t =>
    bit t.hid.chnt.masked (v.toNat % 256) = false ∧
    (∀ j : Fin 80, j.val ≠ v.toNat % 256 → irqPending t j = irqPending s j) ∧
    (∀ j : Fin 80, j.val = v.toNat % 256 → irqPending t j = (irqSummary s false j && irqEn s j)) ∧
    Sets [] { s.hid with chnt := { s.hid.chnt with masked := t.hid.chnt.masked }, wake := t.hid.wake } s t := by
  obtain ⟨wk, hwk⟩ := run_irqWake ((chntA fun c => { c with masked := putBit c.masked (v.toNat % 256) false }).run s)
  have hset : Sets [] { s.hid with chnt := { s.hid.chnt with masked := putBit s.hid.chnt.masked (v.toNat % 256) false }, wake := wk } s
      ((irqDone v).run s) := by
    unfold irqDone
    rw [run_seq_cons, run_seq_cons, run_seq_nil, hwk]
    exact Sets.ofHid s _
  obtain ⟨t, ht, hdone⟩ := completes_portGate (c := .irqDone p v) hl rfl hset (by simp)
  have hsummary : ∀ j, irqSummary t false j = irqSummary s false j :=
    irqSummary_congr (fun off _ => hdone.rd_eq off) (by rw [hdone.hid_eq]) (by rw [hdone.hid_eq]) false
  have hen : ∀ j, irqEn t j = irqEn s j := fun j => by rw [irqEn, hdone.rd_eq]; rfl
  have hmasked : ∀ j, bit t.hid.chnt.masked j = if j = v.toNat % 256 then false else bit s.hid.chnt.masked j := fun j => by
    rw [hdone.hid_eq]
    exact bit_putBit _ _ _ _
  refine ⟨t, ht, ?_, fun j hj => ?_, fun j hj => ?_, ?_⟩
  · rw [hmasked, if_pos rfl]
  · rw [irqPending, hsummary, hen, hmasked, if_neg hj, irqPending]
  · rw [irqPending, hsummary, hen, hmasked, if_pos hj]
    simp
  · rw [hdone.hid_eq]
    exact hdone

/-- Settles O39, by the rules on reads, and the sources' counts, which no summary reads. -/
theorem chanterInputsSweepsAndSourcesCount : Obligations.ChanterInputsSweepsAndSourcesCount := by
  unfold Obligations.ChanterInputsSweepsAndSourcesCount
  refine ⟨⟨fun s p v a0 b0 a1 b1 hl => ?_, fun s p g a b t0 hl hsome => ?_, fun s p g hl hnone => ?_, fun s a b hon => ?_⟩,
    fun s v hrun => ⟨fun hl => ⟨fun hv => ?_, fun hv hsw hw => ?_, fun hv hsw hw => ?_⟩, fun hl hsw => ?_⟩,
    ⟨fun s i hon hlow => ?_, fun s i hon => ?_, fun c s t ht n => ?_, fun s hon hcmp => ?_⟩,
    fun s p i _ hl hi hbest => ?_, fun s i hmasked => ?_, fun s p v hl => claimDone hl, fun s p _ hl hnone => ?_⟩
  · obtain ⟨t, ht, hset⟩ := completes_portGate (c := .agreeReq p v a0 b0 a1 b1) hl rfl (sets_agreeReq s v a0 b0 a1 b1) (by simp)
    refine ⟨t, ht, ?_, ?_, ?_⟩
    · rw [hset.hid_eq]; rfl
    · rw [hset.hid_eq]; rfl
    · rw [hset.hid_eq]; exact hset
  · obtain ⟨t, ht, hset⟩ := completes_agreeValRead hl
    rw [agreeWord_of_some hsome] at hset
    refine ⟨t, ht, ?_, ?_, fun off => hset.rd_eq off, hset.2.1, hset.now_eq⟩
    · exact hset.resp_get
    · rw [hset.hid_eq]
      exact congrArg (withChnt s) (if_congr (by rw [Fin.ext_iff]; rfl) rfl rfl)
  · obtain ⟨t, ht, hset⟩ := completes_agreeValRead hl
    rw [agreeWord_of_none hnone] at hset
    refine ⟨t, ht, ?_, ?_, fun off => hset.rd_eq off⟩
    · exact hset.resp_get
    · rw [hset.hid_eq]
      have hkeep : (if g.val = 0 then { s.hid.chnt with agree0 := none } else { s.hid.chnt with agree1 := none }) = s.hid.chnt := by
        by_cases hg : g = 0
        · rw [if_pos hg] at hnone
          rw [← hnone]
          exact if_pos (congrArg Fin.val hg)
        · rw [if_neg hg] at hnone
          rw [← hnone]
          exact if_neg fun h => hg (Fin.ext h)
      rw [hkeep]
      rfl
  · obtain ⟨n, hn⟩ := sets_svckeyAgree (a := a) (b := b) hon
    have hmode : ((svckeyAgree a b).run s).mode = s.mode := hn.f_of_apart (by
      split <;> simp +decide [Fld.Apart])
    refine ⟨_, finish_same _ _ hmode, ?_⟩
    have hfinal := hn.then_levelsFall
    have hgpio : s.hid.chnt.gpio &&& (levelsFall.run ((svckeyAgree a b).run s)).hid.chnt.gpio = s.hid.chnt.gpio &&& n := by
      rw [hfinal.hid_eq]
      show s.hid.chnt.gpio &&& (s.hid.chnt.gpio &&& n) = _
      rw [← Nat.and_assoc, Nat.and_self]
    exact hfinal.cast rfl (by rw [hgpio])
  · exact completes_portGate hl rfl (sets_sweepBegin hrun hv) (by simp +decide)
  · exact completes_portGate hl rfl (sets_sweepEnd_counts hrun hv hsw hw) (by simp +decide)
  · exact completes_portGate hl rfl (sets_sweepEnd_short hrun hv hsw hw) (by simp +decide)
  · exact completes_portGate hl rfl (sets_sweepData hrun hsw) (by simp +decide)
  · simp only [← countedWord_toNat]
    exact (sourceRises hon).1 hlow
  · simp only [← countedWord_toNat]
    exact (sourceRises hon).2
  · obtain ⟨a, ha⟩ := exec_eq_finish c s
    obtain ⟨u, hu⟩ := finish_levelsFall a s
    obtain rfl := Host.Outcome.next.inj (ht.symm.trans (ha.trans hu))
    exact summaryAt_of_seen
  · exact completes_sets (machineTimer_sets hon hcmp) (by simp) rfl
  · exact claims hl hi hbest
  · simp [irqPending, hmasked]
  · have htop := irqTop_eq_none hnone
    have hrun : irqClaim.run s = s := by
      unfold Act.run irqClaim
      rw [htop]
      rfl
    have hread := completes_answers (c := .irqClaim p) hl readsAs_irqClaim rfl hrun
    have hword : claimWord s = 0#32 := by
      unfold claimWord
      rw [htop]
    rwa [hword, show 0#32 &&& 0x1FF01FF#32 = 0#32 by decide] at hread

end Sys2Proof.Machine
end

section
/-!
The statement on metering points that stop, on their accumulators and on the SKM-6100 window (R350 to R356, R406).
-/

namespace Sys2Proof.Machine

/-! ### What a Shadow's record changes (R406) -/

/-- The registers of point `i` that a record brings: its accumulators and its wrap counts. -/
def accReg (i off : Nat) : Prop := R.METER_PT_WRAP i ≤ off ∧ off < R.METER_PT_NOLOAD i

/-- From `s` to `t` at most the accumulators of point `i`, its fractions and what the pair holds differ. -/
structure MeterTaken (i : Nat) (s t : State) : Prop where
  regs : SetsBut (accReg i) [] s t
  hid : t.hid = { s.hid with pair := t.hid.pair, meter := t.hid.meter }
  point : metSt t i = { metSt s i with frac := (metSt t i).frac }

theorem MeterTaken.refl (i : Nat) (s : State) : MeterTaken i s s := ⟨.refl _ s, rfl, rfl⟩

theorem MeterTaken.trans {i : Nat} {s t u : State} (a : MeterTaken i s t) (b : MeterTaken i t u) : MeterTaken i s u :=
  ⟨a.regs.trans b.regs, by rw [b.hid, a.hid], by rw [b.point, a.point]⟩

theorem MeterTaken.run_set64 {i off : Nat} (h : accReg i off ∧ accReg i (off + 4)) (v : BitVec 64) (s : State) :
    MeterTaken i s ((set64 off v).run s) := by
  have hset := sets_set64 off v s
  refine ⟨⟨fun o ho => ?_, hset.2.1, hset.now_eq⟩, hset.hid_eq, ?_⟩
  · refine hset.rd_of_ne fun x hx hoff => ho ?_
    rcases of_mem_pairFields hx with he | he
    · exact hoff ▸ he ▸ h.1
    · exact hoff ▸ he ▸ h.2
  · rw [metSt, hset.hid_eq]
    rfl

theorem metSt_metA (i : Nat) (g : MeterSt → MeterSt) (s : State) : metSt ((metA i g).run s) i = g (metSt s i) :=
  (Tab.get_put _ _ _ _ _ (fun _ => rfl) _).trans (if_pos rfl)

theorem run_metA_metA (i : Nat) (f g : MeterSt → MeterSt) (s : State) :
    (metA i g).run ((metA i f).run s) = (metA i fun m => g (f m)).run s := by
  have hget : (s.hid.meter.put {} i (f (metSt s i))).get {} i = f (metSt s i) := metSt_metA i f s
  have htwice : (s.hid.meter.put {} i (f (metSt s i))).put {} i (g ((s.hid.meter.put {} i (f (metSt s i))).get {} i)) =
      s.hid.meter.put {} i (g (f (metSt s i))) := by rw [hget, Tab.put_put]
  exact congrArg (fun m => ({ s with hid := { s.hid with meter := m } } : State)) htwice

theorem MeterTaken.run_frac (i : Nat) (f : MeterSt → Tab Nat) (s : State) :
    MeterTaken i s ((metA i fun m => { m with frac := f m }).run s) :=
  ⟨(Confined.hidA _).run s, rfl, by rw [metSt_metA]⟩

theorem MeterTaken.run_pair {i : Nat} {g : Hid → Hid} (hg : ∀ h, g h = { h with pair := (g h).pair }) (s : State) :
    MeterTaken i s ((hidA g).run s) := by
  have hmeter : (g s.hid).meter = s.hid.meter := by rw [hg]
  refine ⟨(Confined.hidA _).run s, ?_, ?_⟩
  · show g s.hid = { s.hid with pair := (g s.hid).pair, meter := (g s.hid).meter }
    rw [hmeter]
    exact hg s.hid
  · have hpoint : metSt ((hidA g).run s) i = metSt s i := congrArg (fun m : Tab MeterSt => m.get ({} : MeterSt) i) hmeter
    rw [hpoint]

theorem MeterTaken.run_forEach {α : Type} {i : Nat} {l : List α} {f : α → Act} (h : ∀ x ∈ l, ∀ s, MeterTaken i s ((f x).run s)) (s : State) :
    MeterTaken i s ((forEach l f).run s) := by
  induction l generalizing s with
  | nil => exact .refl i s
  | cons x l ih =>
    rw [run_forEach_cons]
    exact (h x List.mem_cons_self s).trans (ih (fun y hy => h y (List.mem_cons_of_mem x hy)) _)

theorem accReg_acc {i k : Nat} (h : k < 8) : accReg i (R.METER_PT_ACC i k) ∧ accReg i (R.METER_PT_ACC i k + 4) := by
  simp only [accReg, R.METER_PT_WRAP, R.METER_PT_NOLOAD, R.METER_PT_ACC]
  omega

theorem accReg_wrap (i : Nat) : accReg i (R.METER_PT_WRAP i) ∧ accReg i (R.METER_PT_WRAP i + 4) := by
  simp only [accReg, R.METER_PT_WRAP, R.METER_PT_NOLOAD]
  omega

theorem MeterTaken.run_putMeter (i : Nat) (l : MirVals) (s : State) : MeterTaken i s ((putMeter i l).run s) := by
  unfold putMeter
  rw [run_seq_cons, run_seq_cons, run_seq_cons, run_seq_nil]
  exact ((MeterTaken.run_forEach (fun k hk => .run_set64 (accReg_acc (List.mem_range.1 hk)) _) s).trans (.run_frac i _ _)).trans
    (.run_set64 (accReg_wrap i) _ _)

/-- A Shadow's point that takes its record changes no more than that. -/
theorem MeterTaken.run_metMirror {i : Nat} (hi : i < 2) (s : State) : MeterTaken i s ((metMirror i).run s) := by
  unfold Act.run metMirror mirTake
  dsimp only
  split
  · exact .refl i s
  · show MeterTaken i s ((seq _).run s)
    rw [run_seq_cons, run_seq_cons, run_seq_nil]
    refine (MeterTaken.run_forEach (fun r hr t => ?_) s).trans (.run_pair (fun _ => rfl) _)
    have hix : r.ix = i := (of_decide_eq_true (List.mem_filter.1 hr).2).2
    unfold Act.run
    dsimp only
    split
    · show MeterTaken i t ((seq _).run t)
      rw [run_seq_cons, run_seq_cons, run_seq_nil, hix, Nat.mod_eq_of_lt hi]
      exact (MeterTaken.run_pair (fun _ => rfl) t).trans (.run_putMeter i _ _)
    · exact .refl i t

theorem MeterTaken.mode {i : Nat} {s t : State} (h : MeterTaken i s t) : t.mode = s.mode :=
  h.regs.f_of_apart (y := F.SYS_MODE_STAT_mode) (by simp only [accReg, R.METER_PT_WRAP, F.SYS_MODE_STAT_mode, R.SYS_MODE_STAT]; omega)
    fun _ hx => absurd hx List.not_mem_nil

/-! ### Energy that is booked (R350, R351) -/

/-- What accumulator `k` of point `i` holds, with its fraction, in units of 2⁻⁶⁴ pu·s. -/
def accOf (s : State) (i k : Nat) : Nat := (s.rd64 (R.METER_PT_ACC i k)).toNat * 2 ^ 32 + (metSt s i).frac.get 0 k

/-- The wrap counts after accumulator `k` takes `new`. -/
def wrapsWith (s : State) (i k new : Nat) : BitVec 64 :=
  let wraps := (s.rd64 (R.METER_PT_WRAP i)).toNat
  let w := wraps / 256 ^ k % 256
  BitVec.ofNat 64 (wraps + (min 255 (w + new / 2 ^ 96) - w) * 256 ^ k)

/-- What an amount that is added shows. -/
def addedFields (s : State) (i k a : Nat) : List (Fld × Nat) :=
  pairFields (R.METER_PT_ACC i k) (BitVec.ofNat 64 ((accOf s i k + a) / 2 ^ 32)) ++
    if decide (2 ^ 96 ≤ accOf s i k + a) then pairFields (R.METER_PT_WRAP i) (wrapsWith s i k (accOf s i k + a)) ++ [(F.METER_PT_EVENT_wrap i, 1)]
    else []

theorem of_mem_addedFields {s : State} {i k a : Nat} {x : Fld × Nat} (h : x ∈ addedFields s i k a) :
    x ∈ pairFields (R.METER_PT_ACC i k) (BitVec.ofNat 64 ((accOf s i k + a) / 2 ^ 32)) ∨
      x.1.off = R.METER_PT_WRAP i ∨ x.1.off = R.METER_PT_WRAP i + 4 ∨
      x.1.off = R.METER_PT_EVENT i ∧ x = (F.METER_PT_EVENT_wrap i, 1) := by
  rcases List.mem_append.1 h with h | h
  · exact .inl h
  · split at h
    · rcases List.mem_append.1 h with h | h
      · exact .inr ((of_mem_pairFields h).imp_right .inl)
      · have h := List.mem_singleton.1 h
        exact .inr (.inr (.inr ⟨by rw [h]; rfl, h⟩))
    · exact absurd h List.not_mem_nil

theorem sets_accAdd (s : State) (i k a : Nat) : Sets (addedFields s i k a) { s.hid with meter := s.hid.meter.put {} i { metSt s i with
    frac := (metSt s i).frac.put 0 k ((accOf s i k + a) % 2 ^ 32) } } s ((accAdd i k a).run s) := by
  unfold Act.run accAdd
  show Sets _ _ s ((seq _).run s)
  rw [run_seq_cons, run_seq_cons, run_seq_cons, run_seq_nil]
  have hacc := (Sets.refl s).then_set64 (R.METER_PT_ACC i k) (BitVec.ofNat 64 ((accOf s i k + a) / 2 ^ 32))
  have hfrac := hacc.then_hidA fun h => { h with meter := h.meter.put {} i { h.meter.get {} i with
    frac := (h.meter.get {} i).frac.put 0 k ((accOf s i k + a) % 2 ^ 32) } }
  refine hfrac.then_only (decide (2 ^ 96 ≤ accOf s i k + a)) fun _ => ?_
  rw [run_seq_cons, run_seq_cons, run_seq_nil]
  exact (sets_set64 _ _ _).then_setF _ _

/-- The registers that booked energy changes. -/
def bookReg (i off : Nat) : Prop := accReg i off ∨ off = R.METER_PT_EVENT i

/-- From `u` to `t` the amounts `amt x` have gone to the accumulators `reg x`, for the quantities `x` of `X`. -/
structure Booked (i : Nat) (reg amt : Nat → Nat) (X : List Nat) (u t : State) : Prop where
  regs : SetsBut (bookReg i) [] u t
  hid : t.hid = { u.hid with meter := t.hid.meter }
  point : metSt t i = { metSt u i with frac := (metSt t i).frac }
  booked : ∀ x ∈ X, t.rd64 (R.METER_PT_ACC i (reg x)) = BitVec.ofNat 64 ((accOf u i (reg x) + amt x) / 2 ^ 32) ∧
    (metSt t i).frac.get 0 (reg x) = (accOf u i (reg x) + amt x) % 2 ^ 32 ∧
    (2 ^ 96 ≤ accOf u i (reg x) + amt x → t.on (F.METER_PT_EVENT_wrap i) = true)
  kept : ∀ k, k < 8 → (∀ x ∈ X, reg x ≠ k) →
    t.rd64 (R.METER_PT_ACC i k) = u.rd64 (R.METER_PT_ACC i k) ∧ (metSt t i).frac.get 0 k = (metSt u i).frac.get 0 k

theorem Booked.refl (i : Nat) (reg amt : Nat → Nat) (u : State) : Booked i reg amt [] u u :=
  ⟨.refl _ u, rfl, rfl, fun _ hx => absurd hx List.not_mem_nil, fun _ _ _ => ⟨rfl, rfl⟩⟩

/-- What one amount that is added does. -/
theorem accAdd_spec {i k : Nat} (a : Nat) (hk : k < 8) (s : State) : let t := (accAdd i k a).run s
    SetsBut (bookReg i) [] s t ∧ t.hid = { s.hid with meter := t.hid.meter } ∧
    metSt t i = { metSt s i with frac := (metSt s i).frac.put 0 k ((accOf s i k + a) % 2 ^ 32) } ∧
    (∀ j, t.rd64 (R.METER_PT_ACC i j) =
      if j = k then BitVec.ofNat 64 ((accOf s i k + a) / 2 ^ 32) else s.rd64 (R.METER_PT_ACC i j)) ∧
    (2 ^ 96 ≤ accOf s i k + a ∨ s.on (F.METER_PT_EVENT_wrap i) = true → t.on (F.METER_PT_EVENT_wrap i) = true) := by
  have hset := sets_accAdd s i k a
  have hregs : R.METER_PT_WRAP i = 0x1A1018 + i * 0x800 ∧ R.METER_PT_EVENT i = 0x1A1008 + i * 0x800 ∧
    ∀ j, R.METER_PT_ACC i j = 0x1A1020 + i * 0x800 + j * 0x8 := ⟨rfl, rfl, fun _ => rfl⟩
  obtain ⟨hwrap, hevent, hacc⟩ := hregs
  have hoff : (F.METER_PT_EVENT_wrap i).off = R.METER_PT_EVENT i := rfl
  refine ⟨⟨fun o ho => hset.rd_of_ne fun x hx he => ho ?_, hset.2.1, hset.now_eq⟩, ?_, ?_, fun j => ?_, fun hw => ?_⟩
  · subst he
    rcases of_mem_addedFields hx with h | h | h | ⟨h, -⟩
    · exact .inl ((of_mem_pairFields h).elim (fun h => h ▸ (accReg_acc hk).1) fun h => h ▸ (accReg_acc hk).2)
    · exact .inl (h ▸ (accReg_wrap i).1)
    · exact .inl (h ▸ (accReg_wrap i).2)
    · exact .inr h
  · rw [hset.hid_eq]
  · rw [metSt, hset.hid_eq]
    exact (Tab.get_put _ _ _ _ _ (fun _ => rfl) _).trans (if_pos rfl)
  · split
    · next hj =>
      rw [hj]
      refine hset.rd64_of_mem (fun x hx => List.mem_append_left _ hx) fun x hx => ?_
      have hj := hacc k
      rcases of_mem_addedFields hx with h | h | h | ⟨h, -⟩
      · exact .inl h
      · exact .inr (by omega)
      · exact .inr (by omega)
      · exact .inr (by omega)
    · next hj =>
      have hne : ∀ x ∈ addedFields s i k a, x.1.off ≠ R.METER_PT_ACC i j ∧ x.1.off ≠ R.METER_PT_ACC i j + 4 := fun x hx => by
        have hj := hacc j
        have hk := hacc k
        rcases of_mem_addedFields hx with h | h | h | ⟨h, -⟩
        · have := of_mem_pairFields h
          omega
        · omega
        · omega
        · omega
      rw [State.rd64, hset.rd_of_ne fun x hx => (hne x hx).1, hset.rd_of_ne fun x hx => (hne x hx).2]
      rfl
  · have hcases : ∀ x ∈ addedFields s i k a, x = (F.METER_PT_EVENT_wrap i, 1) ∨ x.1.off ≠ R.METER_PT_EVENT i := fun x hx => by
      have hk := hacc k
      rcases of_mem_addedFields hx with h | h | h | ⟨-, h⟩
      · have := of_mem_pairFields h
        exact .inr (by omega)
      · exact .inr (by omega)
      · exact .inr (by omega)
      · exact .inl h
    by_cases hover : 2 ^ 96 ≤ accOf s i k + a
    · have hin : (F.METER_PT_EVENT_wrap i, 1) ∈ addedFields s i k a := by
        unfold addedFields
        rw [decide_eq_true hover, if_pos rfl]
        exact List.mem_append_right _ (List.mem_append_right _ (List.mem_singleton_self _))
      rw [hset.on_of_mem (v := 1) hin (fun x hx => (hcases x hx).imp_right .inl) rfl (show 2 ≤ 31 by decide)]
      rfl
    · have hlow : ∀ x ∈ addedFields s i k a, x.1.off ≠ R.METER_PT_EVENT i := fun x hx => by
        have hk := hacc k
        rw [addedFields, decide_eq_false hover, if_neg Bool.false_ne_true, List.append_nil] at hx
        have := of_mem_pairFields hx
        omega
      rw [hset.on_of_apart fun x hx => .inl (hlow x hx)]
      exact hw.resolve_left hover

theorem hid_meter_trans {a b c : Hid} (hab : b = { a with meter := b.meter }) (hbc : c = { b with meter := c.meter }) :
    c = { a with meter := c.meter } := hbc.trans (congrArg (fun g : Hid => { g with meter := c.meter }) hab)

/-- One more amount is booked, in an accumulator of its own. -/
theorem Booked.accAdd {i : Nat} {reg amt : Nat → Nat} {X : List Nat} {u t : State} (h : Booked i reg amt X u t) (x : Nat)
    (hx : reg x < 8) (hnew : ∀ y ∈ X, reg y ≠ reg x) : Booked i reg amt (X ++ [x]) u ((Machine.accAdd i (reg x) (amt x)).run t) := by
  obtain ⟨hregs, hhid, hpoint, hrd, hwrap⟩ := accAdd_spec (i := i) (amt x) hx t
  have hsame : accOf t i (reg x) = accOf u i (reg x) := by
    obtain ⟨h1, h2⟩ := h.kept (reg x) hx hnew
    unfold accOf
    rw [h1, h2]
  rw [hsame] at hpoint hrd hwrap
  have hfrac : ∀ k, (metSt ((Machine.accAdd i (reg x) (amt x)).run t) i).frac.get 0 k =
      if k = reg x then (accOf u i (reg x) + amt x) % 2 ^ 32 else (metSt t i).frac.get 0 k := fun k => by
    rw [hpoint]
    exact Tab.get_put _ _ _ _ _ (fun _ => rfl) _
  refine ⟨h.regs.trans hregs, hid_meter_trans h.hid hhid, by rw [hpoint, h.point], fun y hy => ?_, fun k hk hno => ?_⟩
  · rw [hrd, hfrac]
    rcases List.mem_append.1 hy with hy | hy
    · obtain ⟨h1, h2, h3⟩ := h.booked y hy
      rw [if_neg (hnew y hy), if_neg (hnew y hy)]
      exact ⟨h1, h2, fun hover => hwrap (.inr (h3 hover))⟩
    · rw [List.mem_singleton.1 hy, if_pos rfl, if_pos rfl]
      exact ⟨rfl, rfl, fun hover => hwrap (.inl hover)⟩
  · have hne : k ≠ reg x := fun he => hno x (List.mem_append_right _ (List.mem_singleton_self x)) he.symm
    rw [hrd, hfrac, if_neg hne, if_neg hne]
    exact h.kept k hk fun y hy => hno y (List.mem_append_left _ hy)

/-- The power of quantity `x` of a cycle of `n` samples: of phase `x`, or of all together. -/
def cyclePower (s : State) (i n x : Nat) : Rat :=
  let ph := fun x => metK s * (metSt s i).pc.getD x 0 / n
  if x < 3 then ph x else if metFour s i then ph 0 + ph 1 + ph 2 else ph 0

/-- The no-load power of quantity `x`. -/
def cycleLeast (s : State) (i x : Nat) : Rat :=
  if x = 3 ∧ metFour s i = true then 3 * s.puQ (R.METER_PT_NOLOAD i) else s.puQ (R.METER_PT_NOLOAD i)

/-- Quantity `x` lies below it. -/
def cycleIdle (s : State) (i n x : Nat) : Bool := decide (absQ (cyclePower s i n x) < cycleLeast s i x)

/-- The accumulator of its direction. -/
def energyReg (s : State) (i n x : Nat) : Nat := if 0 < cyclePower s i n x then 4 + x else x

/-- Its energy over `tc` ticks. -/
def energyAmount (s : State) (i n tc x : Nat) : Nat := (roundHalfEven (absQ (cyclePower s i n x) * secs tc * 2 ^ 64)).toNat

/-- Energy of it is booked. -/
def energyCounts (s : State) (i n x : Nat) : Bool :=
  decide (x = 3 ∨ metFour s i = true) && !cycleIdle s i n x && decide (cyclePower s i n x ≠ 0)

theorem energyReg_inj {s : State} {i n x y : Nat} (hx : x < 4) (hy : y < 4) (h : energyReg s i n x = energyReg s i n y) : x = y := by
  unfold energyReg at h
  split at h <;> split at h <;> omega

theorem energyReg_lt {s : State} {i n x : Nat} (hx : x < 4) : energyReg s i n x < 8 := by
  unfold energyReg
  split <;> omega

/-- A quantity whose energy is booked, or is none. -/
theorem Booked.energy {s u t : State} {i n tc : Nat} {X : List Nat} (h : Booked i (energyReg s i n) (energyAmount s i n tc) X u t) {x : Nat} (hx : x < 4)
    (hX : ∀ y ∈ X, y < x) {c : Bool} (hc : c = (decide (x = 3 ∨ metFour s i = true) && !cycleIdle s i n x)) :
    Booked i (energyReg s i n) (energyAmount s i n tc) (X ++ if energyCounts s i n x then [x] else []) u
      ((only c (Machine.energy i x (cyclePower s i n x) (secs tc))).run t) := by
  cases c with
  | false =>
    have hno : energyCounts s i n x = false := by rw [energyCounts, ← hc]; rfl
    rw [hno, run_only]
    simpa using h
  | true =>
    rw [run_only, if_pos rfl]
    by_cases hzero : cyclePower s i n x = 0
    · have hno : energyCounts s i n x = false := by simp [energyCounts, hzero]
      have hnop : Machine.energy i x (cyclePower s i n x) (secs tc) = nop := by
        unfold Machine.energy
        rw [hzero, if_neg (lt_irrefl _), if_neg (lt_irrefl _)]
      rw [hno, hnop]
      simpa using h
    · have hyes : energyCounts s i n x = true := by rw [energyCounts, ← hc]; simp [hzero]
      have hadd : Machine.energy i x (cyclePower s i n x) (secs tc) = Machine.accAdd i (energyReg s i n x) (energyAmount s i n tc x) := by
        unfold Machine.energy energyReg
        split
        · rfl
        · next hpos => exact if_pos (lt_of_le_of_ne (not_lt.1 hpos) hzero)
      rw [hyes, hadd]
      exact h.accAdd x (energyReg_lt hx) fun y hy he => (hX y hy).ne (energyReg_inj ((hX y hy).trans hx) hx he)

/-- The mask of the idle phases of a four-wire point. -/
def idlePhases (s : State) (i n : Nat) : Nat := maskOf ((List.range 3).filter fun x => metFour s i && cycleIdle s i n x)

/-- What a cycle's close does to the state whose record has been taken. -/
def closeSteps (u : State) (i n tc : Nat) : Act :=
  let book := fun x => only (decide (x = 3 ∨ metFour u i = true) && !cycleIdle u i n x) (energy i x (cyclePower u i n x) (secs tc))
  let was := u.on (F.METER_PT_STAT_creep i)
  seq [book 0, book 1, book 2, book 3, setF (F.METER_PT_STAT_creep_ph i) (idlePhases u i n),
    setF (F.METER_PT_STAT_creep i) (b2n (cycleIdle u i n 3)),
    only (cycleIdle u i n 3 && !was) (setB (F.METER_PT_EVENT_creep_on i)),
    only (!cycleIdle u i n 3 && was) (setB (F.METER_PT_EVENT_creep_off i))]

theorem cyclePower_phase {u : State} {i n x : Nat} (hx : x < 3) :
    ((List.range 3).map fun x => metK u * (metSt u i).pc.getD x 0 / n).getD x 0 = cyclePower u i n x := by
  unfold cyclePower
  rw [if_pos hx]
  interval_cases x <;> rfl

theorem cyclePower_total (u : State) (i n : Nat) :
    (if metFour u i then ((List.range 3).map fun x => metK u * (metSt u i).pc.getD x 0 / n).foldl (· + ·) 0
      else metK u * (metSt u i).pc.getD 0 0 / n) = cyclePower u i n 3 := by
  unfold cyclePower
  rw [if_neg (show ¬ (3 : Nat) < 3 by decide)]
  refine ite_congr rfl (fun _ => ?_) fun _ => rfl
  exact congrArg (· + _ + _) (zero_add _)

theorem cycleIdle_phase {u : State} {i n x : Nat} (hx : x < 3) :
    decide (absQ (cyclePower u i n x) < u.puQ (R.METER_PT_NOLOAD i)) = cycleIdle u i n x := by
  unfold cycleIdle cycleLeast
  rw [if_neg (show ¬ (x = 3 ∧ _) from fun h => absurd h.1 (by omega))]

theorem cycleIdle_total (u : State) (i n : Nat) : decide (absQ (cyclePower u i n 3) <
    if metFour u i then 3 * u.puQ (R.METER_PT_NOLOAD i) else u.puQ (R.METER_PT_NOLOAD i)) = cycleIdle u i n 3 := by
  unfold cycleIdle cycleLeast
  simp

theorem run_phases {u : State} {i n tc : Nat} (t : State) : (only (metFour u i) (forEach (List.range 3) fun x =>
      only (!(metFour u i && decide (absQ (((List.range 3).map fun x => metK u * (metSt u i).pc.getD x 0 / n).getD x 0) < u.puQ (R.METER_PT_NOLOAD i))))
        (energy i x (((List.range 3).map fun x => metK u * (metSt u i).pc.getD x 0 / n).getD x 0) (secs tc)))).run t =
      ((List.range 3).foldl (fun t x => (only (decide (x = 3 ∨ metFour u i = true) && !cycleIdle u i n x)
        (energy i x (cyclePower u i n x) (secs tc))).run t) t) := by
  cases hfour : metFour u i with
  | false =>
    rw [run_only, if_neg Bool.false_ne_true]
    simp [List.range_succ]
  | true =>
    rw [run_only, if_pos rfl]
    have hstep : ∀ x, x < 3 → ∀ t, (only (!(true && decide (absQ (((List.range 3).map fun x => metK u * (metSt u i).pc.getD x 0 / n).getD x 0) <
        u.puQ (R.METER_PT_NOLOAD i)))) (energy i x (((List.range 3).map fun x => metK u * (metSt u i).pc.getD x 0 / n).getD x 0) (secs tc))).run t =
        (only (decide (x = 3 ∨ true = true) && !cycleIdle u i n x) (energy i x (cyclePower u i n x) (secs tc))).run t := fun x hx t => by
      rw [cyclePower_phase hx, cycleIdle_phase hx]
      simp
    show (forEach [0, 1, 2] _).run t = _
    rw [run_forEach_cons, run_forEach_cons, run_forEach_cons, run_forEach_nil, hstep 0 (by decide), hstep 1 (by decide), hstep 2 (by decide)]
    rfl

theorem run_cycleClose {s : State} {i n tc : Nat} (hn : n ≠ 0) (hmode : metAccum ((metMirror i).run s).mode = true) :
    (cycleClose i n tc).run s = (closeSteps ((metMirror i).run s) i n tc).run ((metMirror i).run s) := by
  unfold cycleClose
  rw [run_seq_cons, run_seq_cons, run_seq_nil, run_only, if_pos (decide_eq_true hn), run_whenA, if_pos (by simp [hmode, hn])]
  generalize (metMirror i).run s = u
  unfold closeSteps
  rw [run_fun]
  dsimp only
  rw [cyclePower_total, cycleIdle_total]
  simp only [run_seq_cons, run_seq_nil, run_phases]
  have hmask : maskOf ((List.range 3).filter fun x => metFour u i && decide (absQ (((List.range 3).map fun x =>
      metK u * (metSt u i).pc.getD x 0 / n).getD x 0) < u.puQ (R.METER_PT_NOLOAD i))) = idlePhases u i n := by
    refine congrArg maskOf (List.filter_congr fun x hx => ?_)
    have hx := List.mem_range.1 hx
    rw [cyclePower_phase hx, cycleIdle_phase hx]
  rw [hmask, decide_eq_true (Or.inl trivial : True ∨ metFour u i = true), Bool.true_and]
  rfl

/-- The quantities whose energy is booked. -/
def countedAt (u : State) (i n : Nat) : List Nat :=
  ((([] ++ if energyCounts u i n 0 then [0] else []) ++ if energyCounts u i n 1 then [1] else []) ++
    if energyCounts u i n 2 then [2] else []) ++ if energyCounts u i n 3 then [3] else []

theorem mem_countedAt {u : State} {i n x : Nat} : x ∈ countedAt u i n ↔ x < 4 ∧ energyCounts u i n x = true := by
  have hite : ∀ y, (x ∈ if energyCounts u i n y then [y] else []) ↔ x = y ∧ energyCounts u i n y = true := fun y => by
    split
    · next h => simp [h]
    · next h => simp [h]
  unfold countedAt
  simp only [List.mem_append, List.not_mem_nil, false_or, hite]
  constructor
  · rintro (((⟨rfl, h⟩ | ⟨rfl, h⟩) | ⟨rfl, h⟩) | ⟨rfl, h⟩) <;> exact ⟨by decide, h⟩
  · rintro ⟨hx, h⟩
    interval_cases x <;> simp [h]

/-- The flags that a cycle's close shows. -/
def closeFlags (u : State) (i n : Nat) : List (Fld × Nat) :=
  [(F.METER_PT_STAT_creep_ph i, idlePhases u i n)] ++ [(F.METER_PT_STAT_creep i, b2n (cycleIdle u i n 3))] ++
    (if cycleIdle u i n 3 && !u.on (F.METER_PT_STAT_creep i) then [(F.METER_PT_EVENT_creep_on i, 1)] else []) ++
    if !cycleIdle u i n 3 && u.on (F.METER_PT_STAT_creep i) then [(F.METER_PT_EVENT_creep_off i, 1)] else []

/-- A cycle's close books the energies, then shows its flags. -/
theorem closeSteps_spec (u : State) (i n tc : Nat) : ∃ v, Booked i (energyReg u i n) (energyAmount u i n tc) (countedAt u i n) u v ∧
    Sets (closeFlags u i n) v.hid v ((closeSteps u i n tc).run u) := by
  have h0 := (Booked.refl i (energyReg u i n) (energyAmount u i n tc) u).energy (x := 0) (by decide) (fun _ hy => absurd hy List.not_mem_nil) rfl
  have hlt : ∀ (X : List Nat) (x : Nat) (c : Bool), (∀ y ∈ X, y < x) → ∀ y ∈ X ++ (if c then [x] else []), y < x + 1 := fun X x c hX y hy => by
    rcases List.mem_append.1 hy with h | h
    · exact (hX y h).trans (Nat.lt_succ_self x)
    · split at h
      · rw [List.mem_singleton.1 h]; exact Nat.lt_succ_self x
      · exact absurd h List.not_mem_nil
  have hX0 := hlt [] 0 (energyCounts u i n 0) fun _ hy => absurd hy List.not_mem_nil
  have h1 := h0.energy (x := 1) (by decide) hX0 rfl
  have hX1 := hlt _ 1 (energyCounts u i n 1) hX0
  have h2 := h1.energy (x := 2) (by decide) hX1 rfl
  have h3 := h2.energy (x := 3) (by decide) (hlt _ 2 (energyCounts u i n 2) hX1) rfl
  refine ⟨_, h3, ?_⟩
  unfold closeSteps
  simp only [run_seq_cons, run_seq_nil]
  exact (((Sets.setF (F.METER_PT_STAT_creep_ph i) _ _).then_setF _ _).then_only _ fun _ => Sets.setF (F.METER_PT_EVENT_creep_on i) 1 _).then_only
    _ fun _ => Sets.setF (F.METER_PT_EVENT_creep_off i) 1 _

theorem of_mem_closeFlags {u : State} {i n : Nat} {x : Fld × Nat} (h : x ∈ closeFlags u i n) :
    x = (F.METER_PT_STAT_creep_ph i, idlePhases u i n) ∨ x = (F.METER_PT_STAT_creep i, b2n (cycleIdle u i n 3)) ∨
      x = (F.METER_PT_EVENT_creep_on i, 1) ∨ x = (F.METER_PT_EVENT_creep_off i, 1) := by
  unfold closeFlags at h
  simp only [List.mem_append, List.mem_singleton] at h
  rcases h with ((h | h) | h) | h
  · exact .inl h
  · exact .inr (.inl h)
  · split at h
    · exact .inr (.inr (.inl (List.mem_singleton.1 h)))
    · exact absurd h List.not_mem_nil
  · split at h
    · exact .inr (.inr (.inr (List.mem_singleton.1 h)))
    · exact absurd h List.not_mem_nil

/-- What the flags read after the close. -/
theorem closeFlags_shown {u v t : State} {i n : Nat} {g : Hid} (h : Sets (closeFlags u i n) g v t) :
    t.on (F.METER_PT_STAT_creep i) = cycleIdle u i n 3 ∧ t.f (F.METER_PT_STAT_creep_ph i) = idlePhases u i n % 2 ^ 3 ∧
    (cycleIdle u i n 3 = true → u.on (F.METER_PT_STAT_creep i) = false → t.on (F.METER_PT_EVENT_creep_on i) = true) ∧
    t.on (F.METER_PT_EVENT_wrap i) = v.on (F.METER_PT_EVENT_wrap i) ∧ ∀ off, accReg i off → t.rd off = v.rd off := by
  have hstat : R.METER_PT_STAT i ≠ R.METER_PT_EVENT i := by simp only [R.METER_PT_STAT, R.METER_PT_EVENT]; omega
  refine ⟨?_, ?_, fun hidle hwas => ?_, ?_, fun off hoff => ?_⟩
  · rw [h.on_of_mem (v := b2n (cycleIdle u i n 3)) (by simp [closeFlags]) (fun x hx => ?_) rfl (show 10 ≤ 31 by decide)]
    · cases cycleIdle u i n 3 <;> rfl
    · rcases of_mem_closeFlags hx with rfl | rfl | rfl | rfl
      · exact .inr (.inr (show 11 ≤ 13 ∧ 13 ≤ 31 ∧ (13 < 10 ∨ 10 < 11) by decide))
      · exact .inl rfl
      · exact .inr (.inl hstat.symm)
      · exact .inr (.inl hstat.symm)
  · refine h.f_of_mem (v := idlePhases u i n) (by simp [closeFlags]) (fun x hx => ?_) (show 11 ≤ 13 by decide) (show 13 ≤ 31 by decide)
    rcases of_mem_closeFlags hx with rfl | rfl | rfl | rfl
    · exact .inl rfl
    · exact .inr (.inr (show 10 ≤ 10 ∧ 10 ≤ 31 ∧ (10 < 11 ∨ 13 < 10) by decide))
    · exact .inr (.inl hstat.symm)
    · exact .inr (.inl hstat.symm)
  · rw [h.on_of_mem (v := 1) (by simp [closeFlags, hidle, hwas]) (fun x hx => ?_) rfl (show 3 ≤ 31 by decide)]
    · rfl
    · rcases of_mem_closeFlags hx with rfl | rfl | rfl | rfl
      · exact .inr (.inl hstat)
      · exact .inr (.inl hstat)
      · exact .inl rfl
      · exact .inr (.inr (show 4 ≤ 4 ∧ 4 ≤ 31 ∧ (4 < 3 ∨ 3 < 4) by decide))
  · refine h.on_of_apart fun x hx => ?_
    rcases of_mem_closeFlags hx with rfl | rfl | rfl | rfl
    · exact .inl hstat
    · exact .inl hstat
    · exact .inr (show 3 ≤ 3 ∧ 3 ≤ 31 ∧ (3 < 2 ∨ 2 < 3) by decide)
    · exact .inr (show 4 ≤ 4 ∧ 4 ≤ 31 ∧ (4 < 2 ∨ 2 < 4) by decide)
  · refine h.rd_of_ne fun x hx he => ?_
    simp only [accReg, R.METER_PT_WRAP, R.METER_PT_NOLOAD] at hoff
    have hcases : x.1.off = R.METER_PT_STAT i ∨ x.1.off = R.METER_PT_EVENT i := by
      rcases of_mem_closeFlags hx with rfl | rfl | rfl | rfl
      · exact .inl rfl
      · exact .inl rfl
      · exact .inr rfl
      · exact .inr rfl
    simp only [R.METER_PT_STAT, R.METER_PT_EVENT] at hcases
    omega

/-- The bits of the idle phases. -/
theorem bit_idlePhases {u : State} {i n x : Nat} (hx : x < 3) :
    bit (idlePhases u i n % 2 ^ 3) x = (metFour u i && cycleIdle u i n x) := by
  rw [bit_eq_testBit, Nat.testBit_mod_two_pow, decide_eq_true hx, Bool.true_and, ← bit_eq_testBit, idlePhases, bit_maskOf]
  simp only [List.mem_filter, List.mem_range, hx, true_and, Bool.decide_eq_true]

/-! ### The SKM-6100 window (R356) -/

theorem readsAs_compatStatus : ReadsAs R.COMPAT_STATUS (fun s => compatStatusWord s (s.f F.METER_CTL_compat_pt)) fun _ => compatLatch := by
  have h : (regAt R.COMPAT_STATUS).any (fun r => r.desc.base = R.COMPAT_STATUS ∧ r.desc.copy = false ∧ readMask r = BitVec.allOnes 32) = true := by
    decide +kernel
  obtain ⟨r, hr, hprops⟩ := (Option.any_eq_true _ _).1 h
  obtain ⟨hbase, hcopy, hmask⟩ := of_decide_eq_true hprops
  refine ⟨r, hr, hcopy, fun s => by simp +decide [copyGone, RegAt.is, hbase], by simp +decide [RegAt.is, hbase], fun s => ?_, fun p => ?_⟩
  · unfold viewWord RegAt.is
    rw [hbase, hmask, BitVec.and_allOnes]
    simp +decide
  · unfold readEffect RegAt.is
    rw [hbase]
    simp +decide

/-- The words of an image, as fields. -/
def imageFields (l : List Word) : List (Fld × Nat) :=
  (List.range l.length).flatMap fun w => [(wordFld (R.COMPAT w), (l.getD w 0#32).toNat)]

theorem mem_imageFields {l : List Word} {x : Fld × Nat} :
    x ∈ imageFields l ↔ ∃ w, w < l.length ∧ x = (wordFld (R.COMPAT w), (l.getD w 0#32).toNat) := by
  simp [imageFields]

theorem sets_compatLatch (s : State) : let i := s.f F.METER_CTL_compat_pt
    Sets (imageFields (compatWords s i)) { s.hid with meter := s.hid.meter.put {} i { metSt s i with newWin := false } } s
      (compatLatch.run s) := by
  intro i
  unfold Act.run compatLatch
  show Sets _ _ s ((seq _).run s)
  rw [run_seq_cons, run_seq_cons, run_seq_nil]
  exact (sets_forEach (f := fun w => [(wordFld (R.COMPAT w), ((compatWords s i).getD w 0#32).toNat)]) _ (fun w _ t => Sets.setW _ _ t) s).then_hidA
    fun h => { h with meter := h.meter.put {} i { h.meter.get {} i with newWin := false } }

/-! ### Accumulators that are written (R355) -/

/-- The register of accumulator `k`, or of the wrap counts. -/
def accOff (i k : Nat) : Nat := if k = 8 then R.METER_PT_WRAP i else R.METER_PT_ACC i k

theorem sets_accWrite {s : State} {p : Port} {i k : Nat} {v : BitVec 64} (h : metAccum s.mode = false) : Sets (pairFields (accOff i k) v)
    (if k = 8 then s.hid else { s.hid with meter := s.hid.meter.put {} i { metSt s i with frac := (metSt s i).frac.put 0 k 0 } }) s
    ((accWrite p i k v).run s) := by
  unfold Act.run accWrite
  dsimp only
  rw [if_neg (show ¬ metAccum s.mode = true by simp [h])]
  show Sets _ _ s ((seq _).run s)
  rw [run_seq_cons, run_seq_cons, run_seq_nil]
  have hpair := sets_set64 (accOff i k) v s
  by_cases hk : k = 8
  · subst hk
    exact hpair
  · rw [show decide (k ≠ 8) = true from decide_eq_true hk, run_only, if_pos rfl]
    refine (hpair.then_hidA fun h => { h with meter := h.meter.put {} i { h.meter.get {} i with
      frac := (h.meter.get {} i).frac.put 0 k 0 } }).cast rfl ?_
    exact (if_neg hk).symm

theorem run_accWrite_refused {s : State} {p : Port} {i k : Nat} {v : BitVec 64} (h : metAccum s.mode = true) :
    (accWrite p i k v).run s = (accErr p 3 (accOff i k)).run s := by
  unfold Act.run accWrite
  dsimp only
  rw [if_pos (show metAccum s.mode = true from h)]
  rfl

theorem accOff_bounds {i k : Nat} (hk : k < 9) : R.SYS_MODE_STAT ≠ accOff i k ∧ R.SYS_MODE_STAT ≠ accOff i k + 4 := by
  unfold accOff
  split <;> simp only [R.METER_PT_WRAP, R.METER_PT_ACC, R.SYS_MODE_STAT] <;> omega

/-- An accumulator that is written where the mode does not accumulate. -/
theorem completes_accWrite {s : State} {p : Port} {i : Fin 2} {k : Fin 9} {v : BitVec 64} (hl : Live p s (accOff i k) = true)
    (h : metAccum s.mode = false) : Completes (.meterAccWrite p i k v) s fun t => t.rd64 (accOff i k) = v ∧
      metSt t i = (if k.val = 8 then metSt s i else { metSt s i with frac := (metSt s i).frac.put 0 k 0 }) ∧
      Frame (fun o => o = accOff i k ∨ o = accOff i k + 4) { s.hid with meter := t.hid.meter } s t := by
  have hne := accOff_bounds (i := i) k.isLt
  obtain ⟨t, ht, hset⟩ := completes_portGate (c := .meterAccWrite p i k v) hl rfl (sets_accWrite h) fun x hx he =>
    (of_mem_pairFields hx).elim (fun hx => hne.1 (he.symm.trans hx)) fun hx => hne.2 (he.symm.trans hx)
  refine ⟨t, ht, hset.rd64_of_mem (fun _ hx => hx) fun _ hx => .inl hx, ?_, fun o ho => hset.rd_of_ne fun x hx he => ho ?_, hset.2.1,
    hset.now_eq, ?_, hset.2.2.2.2.1, hset.2.2.2.2.2.1, hset.2.2.2.2.2.2.1, hset.2.2.2.2.2.2.2⟩
  · rw [metSt, hset.hid_eq]
    split
    · rfl
    · exact (Tab.get_put _ _ _ _ _ (fun _ => rfl) _).trans (if_pos rfl)
  · exact he ▸ of_mem_pairFields hx
  · rw [hset.hid_eq]
    split <;> rfl

/-- What the blocks hold where point `i` has stopped. -/
def stoppedHid (v : State) (i : Nat) : Hid :=
  { v.hid with meter := v.hid.meter.put {} i { frac := (metSt v i).frac, newWin := (metSt v i).newWin, stopped := true } }

/-- What a point that stops leaves, once its record is taken. -/
theorem meterStop_spec {s : State} {i : Nat} (hi : i < 2) (hruns : metRuns s i = true) (hmode : metAccum s.mode = true)
    (hk : (metSt s i).k ≠ 0) : ∃ v, let u := (metMirror i).run s
      let n := (metSt s i).k
      Booked i (energyReg u i n) (energyAmount u i n (covered (metSt s i))) (countedAt u i n) u v ∧
      Sets (closeFlags u i n) (stoppedHid v i) v ((meterStop i).run s) := by
  have htaken := MeterTaken.run_metMirror hi s
  have hsame : ((metMirror i).run s).mode = s.mode := htaken.mode
  obtain ⟨v, hbook, hset⟩ := closeSteps_spec ((metMirror i).run s) i (metSt s i).k (covered (metSt s i))
  refine ⟨v, hbook, ?_⟩
  have hrun : (meterStop i).run s = (metA i fun m => { m with stopped := true }).run ((metRestart i).run
      ((closeSteps ((metMirror i).run s) i (metSt s i).k (covered (metSt s i))).run ((metMirror i).run s))) := by
    unfold meterStop
    rw [run_whenA, if_pos hruns, ← run_cycleClose hk (by rw [hsame]; exact hmode)]
    unfold Act.run metStop
    show (seq _).run s = _
    rw [run_seq_cons, run_seq_cons, run_seq_cons, run_seq_nil]
    rfl
  rw [hrun]
  rw [metRestart, run_metA_metA]
  exact hset.then_hidA _

/-- What the state after a stop reads, by what was booked and shown. -/
theorem meterStop_reads {u v t : State} {i n tc : Nat}
    (hbook : Booked i (energyReg u i n) (energyAmount u i n tc) (countedAt u i n) u v) (hset : Sets (closeFlags u i n) (stoppedHid v i) v t) :
    (∀ k, k < 8 → t.rd64 (R.METER_PT_ACC i k) = v.rd64 (R.METER_PT_ACC i k)) ∧
    metSt t i = { frac := (metSt v i).frac, newWin := (metSt u i).newWin, stopped := true } ∧
    t.hid = { u.hid with meter := t.hid.meter } ∧ SameMem u t ∧ t.now = u.now ∧ t.mode = u.mode := by
  obtain ⟨-, -, -, -, hacc⟩ := closeFlags_shown hset
  refine ⟨fun k hk => ?_, ?_, ?_, hbook.regs.2.1.trans hset.2.1, hset.now_eq.trans hbook.regs.2.2, ?_⟩
  · obtain ⟨hlo, hhi⟩ := accReg_acc (i := i) hk
    rw [State.rd64, State.rd64, hacc _ hlo, hacc _ hhi]
  · have hwin : (metSt v i).newWin = (metSt u i).newWin := by rw [hbook.point]
    rw [metSt, hset.hid_eq, ← hwin]
    exact (Tab.get_put _ _ _ _ _ (fun _ => rfl) _).trans (if_pos rfl)
  · exact hid_meter_trans hbook.hid (by rw [hset.hid_eq]; rfl)
  · have hflags : t.mode = v.mode := hset.mode fun x hx he => by
      rcases of_mem_closeFlags hx with rfl | rfl | rfl | rfl <;>
        simp only [F.METER_PT_STAT_creep_ph, F.METER_PT_STAT_creep, F.METER_PT_EVENT_creep_on, F.METER_PT_EVENT_creep_off, R.METER_PT_STAT,
          R.METER_PT_EVENT, R.SYS_MODE_STAT] at he <;> omega
    refine hflags.trans (hbook.regs.f_of_apart (y := F.SYS_MODE_STAT_mode) ?_ fun _ hx => absurd hx List.not_mem_nil)
    simp only [bookReg, accReg, R.METER_PT_WRAP, R.METER_PT_EVENT, F.SYS_MODE_STAT_mode, R.SYS_MODE_STAT]
    omega

/-- What a cycle's close computes does not depend on what a record brings. -/
theorem MeterTaken.reads {i : Nat} {s u : State} (h : MeterTaken i s u) : metK u = metK s ∧ metFour u i = metFour s i ∧
    u.puQ (R.METER_PT_NOLOAD i) = s.puQ (R.METER_PT_NOLOAD i) ∧ u.on (F.METER_PT_STAT_creep i) = s.on (F.METER_PT_STAT_creep i) := by
  have hrd : ∀ off, ¬ accReg i off → u.rd off = s.rd off := fun off hoff => h.regs.1 off hoff
  have hfar : ∀ off, off < 0x1A1018 ∨ R.METER_PT_NOLOAD i ≤ off ∨ off < R.METER_PT_WRAP i → ¬ accReg i off := fun off hoff hacc => by
    simp only [accReg, R.METER_PT_WRAP, R.METER_PT_NOLOAD] at hacc hoff
    omega
  refine ⟨?_, ?_, ?_, ?_⟩
  · unfold metK
    rw [hrd _ (hfar _ (.inl (by decide))), hrd _ (hfar _ (.inl (by decide))), hrd _ (hfar _ (.inl (by decide)))]
  · exact on_of_rd_eq (hrd _ (hfar _ (.inr (.inr (by simp only [F.METER_PT_CFG_wiring, R.METER_PT_CFG, R.METER_PT_WRAP]; omega)))))
  · unfold State.puQ State.pu State.rd64
    rw [hrd _ (hfar _ (.inr (.inl (le_refl _)))), hrd _ (hfar _ (.inr (.inl (Nat.le_add_right _ 4))))]
  · exact on_of_rd_eq (hrd _ (hfar _ (.inr (.inr (by simp only [F.METER_PT_STAT_creep, R.METER_PT_STAT, R.METER_PT_WRAP]; omega)))))

/-- Settles O37, by what a cycle's close books and shows, and the rules on reads. -/
theorem meterStopsAndAnswers : Obligations.MeterStopsAndAnswers := by
  unfold Obligations.MeterStopsAndAnswers
  refine ⟨fun s i hruns hmode hk => ?_, fun s p i k v hl => ⟨fun h => ?_, fun h => completes_accWrite hl h⟩, fun s p hl => ?_⟩
  · have htaken := MeterTaken.run_metMirror i.isLt s
    obtain ⟨v, hbook, hset⟩ := meterStop_spec i.isLt hruns hmode hk
    have hst : metSt ((metMirror i).run s) i = { metSt s i with frac := (metSt ((metMirror i).run s) i).frac } := htaken.point
    have hn : (metSt ((metMirror i).run s) i).k = (metSt s i).k := by rw [hst]
    have hcov : covered (metSt ((metMirror i).run s) i) = covered (metSt s i) := by rw [hst]; rfl
    obtain ⟨hK, hfour, hleast, hwas⟩ := htaken.reads
    rw [← hn, ← hcov] at hbook
    rw [← hn] at hset
    revert hbook hset
    generalize hu : (metMirror i).run s = u at *
    intro hbook hset
    have hp : ∀ x, cyclePower u i (metSt u i).k x = if x < 3 then metK s * (metSt u i).pc.getD x 0 / (metSt u i).k
        else if metFour s i then metK s * (metSt u i).pc.getD 0 0 / (metSt u i).k + metK s * (metSt u i).pc.getD 1 0 / (metSt u i).k +
          metK s * (metSt u i).pc.getD 2 0 / (metSt u i).k else metK s * (metSt u i).pc.getD 0 0 / (metSt u i).k := fun x => by
      unfold cyclePower
      rw [hK, hfour]
    have hmode' : ((meterStop i).run s).mode = s.mode := by
      obtain ⟨-, -, -, -, -, hlast⟩ := meterStop_reads hbook hset
      exact hlast.trans htaken.mode
    obtain ⟨hacc, hpoint, hhid, hmem, hnow, -⟩ := meterStop_reads hbook hset.then_levelsFall
    obtain ⟨hcreep, hph, hevent, hwrap, -⟩ := closeFlags_shown hset.then_levelsFall
    refine ⟨_, finish_same _ _ hmode', ?_⟩
    simp only [← hp]
    simp only [← hfour, ← hleast, ← hwas]
    have hidle : ∀ x : Nat, (absQ (cyclePower u i (metSt u i).k x) <
        if x = 3 ∧ metFour u i = true then 3 * u.puQ (R.METER_PT_NOLOAD i) else u.puQ (R.METER_PT_NOLOAD i)) ↔
        cycleIdle u i (metSt u i).k x = true := fun x => by
      unfold cycleIdle cycleLeast
      rw [decide_eq_true_eq]
    have htotal := hidle 3
    simp only [true_and] at htotal
    simp only [hidle, true_and, htotal, hcreep, hph]
    have hcounts : ∀ x : Fin 4, ((x.val = 3 ∨ metFour u i = true) ∧ ¬ cycleIdle u i (metSt u i).k x = true ∧
        cyclePower u i (metSt u i).k x ≠ 0) ↔ x.val ∈ countedAt u i (metSt u i).k := fun x => by
      rw [mem_countedAt, energyCounts]
      simp [x.isLt, and_assoc]
    have hfrac : (metSt (levelsFall.run ((meterStop i).run s)) i).frac = (metSt v i).frac := by rw [hpoint]
    refine ⟨fun x hx => ?_, fun k hno => ?_, fun x => ?_, hevent, ?_, ?_, hhid, ?_, ?_⟩
    · have hreg := energyReg_lt (s := u) (i := i) (n := (metSt u i).k) x.isLt
      obtain ⟨h1, h2, h3⟩ := hbook.booked x ((hcounts x).1 hx)
      exact ⟨(hacc _ hreg).trans h1, (congrArg (Tab.get 0 · _) hfrac).trans h2, fun hover => hwrap.trans (h3 hover)⟩
    · obtain ⟨h1, h2⟩ := hbook.kept k k.isLt fun x hx => hno ⟨x, (mem_countedAt.1 hx).1⟩ ((hcounts ⟨x, (mem_countedAt.1 hx).1⟩).2 hx)
      exact ⟨(hacc _ k.isLt).trans h1, (congrArg (Tab.get 0 · _) hfrac).trans h2⟩
    · rw [bit_idlePhases x.isLt, Bool.and_eq_true]
    · rw [hfrac]
      exact hpoint
    · unfold metRuns
      rw [hpoint]
      simp
    · exact htaken.regs.2.1.trans hmem
    · exact hnow.trans htaken.regs.2.2
  · refine completes_portGate hl rfl (a := accWrite p i k v) ?_ ?_
    · rw [run_accWrite_refused h]
      exact reportsError_accErr p 3 _ s
    · split <;> simp +decide
  · obtain ⟨t, ht, hset⟩ := completes_readReg (c := .compatStatusRead p) hl readsAs_compatStatus rfl (sets_compatLatch s) (by
      intro x hx
      obtain ⟨w, -, rfl⟩ := mem_imageFields.1 hx
      simp only [wordFld, R.COMPAT, R.SYS_MODE_STAT]
      omega)
    refine ⟨t, ht, hset.resp_get, ?_, fun w hw => ?_, ?_, hset.2.1, hset.now_eq⟩
    · rw [metSt, hset.hid_eq]
      exact congrArg MeterSt.newWin ((Tab.get_put _ _ _ _ _ (fun _ => rfl) _).trans (if_pos rfl))
    · refine hset.rd_of_mem (mem_imageFields.2 ⟨w, hw, rfl⟩) fun x hx => ?_
      obtain ⟨y, hy, rfl⟩ := mem_imageFields.1 hx
      by_cases he : y = w
      · exact .inl (by rw [he])
      · refine .inr ?_
        simp only [wordFld, R.COMPAT]
        omega
    · rw [hset.hid_eq]

end Sys2Proof.Machine
end

section
/-!
The statement on SPI frames, the link and the doorbells, which fails: its read of `SYS_ID` needs the FAB island.
-/

namespace Sys2Proof.Machine

/-- Refutes O54: an SPI read of `SYS_ID` is said to answer the word wherever the Core die is powered, but in `noIslands` the FAB
island, which holds the register, is off, and the read answers 0 with an error.  The clause would need the premise
`s.island 11 = true`. -/
theorem not_spiLinkVectorsAndDoorbellsAct : ¬ Obligations.SpiLinkVectorsAndDoorbellsAct := by
  unfold Obligations.SpiLinkVectorsAndDoorbellsAct
  rintro ⟨⟨-, -, -, hread, -⟩, -⟩
  have hnoCrc : noIslands.on F.HOST_CFG_spi_crc = false := by decide +kernel
  have hresp := (hread noIslands 0#8 _ rfl (by decide +kernel) (by simp [hnoCrc])).answerHas_true
    (fun t => t.resp.get {} 1 = { data := [noIslands.rd R.SYS_ID], err := false })
    fun t ⟨hanswer, _⟩ => decide_eq_true hanswer
  exact absurd hresp (by decide +kernel)

end Sys2Proof.Machine
end

section
/-!
The CAN controllers' rules that the statements on them share: the bits of a word that name mailboxes, what a controller holds after a
change, and the words of a mailbox in the register map.
-/

namespace Sys2Proof.Machine

/-! ### Bits of a word -/

theorem mem_bitsOf {n x i : Nat} : i ∈ bitsOf n x ↔ i < n ∧ bit x i = true := by
  rw [bitsOf, List.mem_filter, List.mem_range]

theorem bit_toNat (v : Word) (i : Nat) : bit v.toNat i = v.getLsbD i := by
  rw [bit_eq_testBit, BitVec.testBit_toNat]

/-- The mailboxes that the bits of a word of the low or the high half name. -/
def named (hi : Bool) (v : Word) : List Nat := (bitsOf 32 v.toNat).map (· + 32 * b2n hi)

theorem mem_named {v : Word} {hi : Bool} {b : Nat} : b ∈ named hi v ↔ ∃ i : Fin 32, b = i.val + 32 * b2n hi ∧ v.getLsbD i = true := by
  simp only [named, List.mem_map, mem_bitsOf, bit_toNat]
  constructor
  · rintro ⟨i, ⟨hlt, hbit⟩, rfl⟩
    exact ⟨⟨i, hlt⟩, rfl, hbit⟩
  · rintro ⟨i, rfl, hbit⟩
    exact ⟨i, ⟨i.isLt, hbit⟩, rfl⟩

/-! ### What a controller holds -/

theorem canSt_put_self {s t : State} {k : Nat} {c : CanSt} (h : t.hid.can = s.hid.can.put {} k c) : canSt t k = c := by
  unfold canSt
  rw [h]
  exact (Tab.get_put _ _ _ _ _ (fun _ => rfl) _).trans (if_pos rfl)

theorem canSt_put_of_ne {s t : State} {j k : Nat} {c : CanSt} (h : t.hid.can = s.hid.can.put {} k c) (hj : j ≠ k) :
    canSt t j = canSt s j := by
  unfold canSt
  rw [h]
  exact (Tab.get_put _ _ _ _ _ (fun _ => rfl) _).trans (if_neg hj)

/-! ### Fields that do not overlap -/

/-- Where two fields lie in one word, they have no bit in common. -/
def Clear (x y : Fld × Nat) : Prop := x.1.off = y.1.off → x.1.hi < y.1.lo ∨ y.1.hi < x.1.lo

/-- The fields of a list lie in their words and do not overlap. -/
def DisjointFields (l : List (Fld × Nat)) : Prop := (∀ x ∈ l, x.1.lo ≤ x.1.hi ∧ x.1.hi ≤ 31) ∧ l.Pairwise Clear

theorem Clear.apart {x y : Fld × Nat} (h : Clear x y) (hx : x.1.lo ≤ x.1.hi ∧ x.1.hi ≤ 31) : x.1.Apart y.1 := by
  by_cases hoff : x.1.off = y.1.off
  · exact .inr ⟨hx.1, hx.2, h hoff⟩
  · exact .inl hoff

theorem DisjointFields.sublist {l m : List (Fld × Nat)} (hd : DisjointFields m) (hl : l.Sublist m) : DisjointFields l := by
  obtain ⟨hin, hpair⟩ := hd
  exact ⟨fun x hx => hin x (hl.subset hx), hpair.sublist hl⟩

section
variable {l : List (Fld × Nat)} {h : Hid} {s t : State} {y : Fld} {v : Nat} (hd : DisjointFields l) (ht : Sets l h s t)
include hd

/-- So each of them is apart from the others. -/
theorem DisjointFields.apart (hm : (y, v) ∈ l) : ∀ x ∈ l, x = (y, v) ∨ x.1.Apart y := by
  obtain ⟨hin, hpair⟩ := hd
  have hsymm : Std.Symm Clear := ⟨fun x z hxz he => (hxz he.symm).symm⟩
  intro x hx
  by_cases he : x = (y, v)
  · exact .inl he
  · exact .inr ((hpair.forall hx hm he).apart (hin x hx))

include ht

theorem Sets.f_of_disjoint (hm : (y, v) ∈ l) : t.f y = v % 2 ^ (y.hi + 1 - y.lo) :=
  ht.f_of_mem hm (hd.apart hm) (hd.1 _ hm).1 (hd.1 _ hm).2

theorem Sets.on_of_disjoint (hm : (y, v) ∈ l) (hbit : y.hi = y.lo) : t.on y = decide (v % 2 = 1) :=
  ht.on_of_mem hm (hd.apart hm) hbit (hd.1 _ hm).2

theorem Sets.rd_of_disjoint {off : Nat} {w : Word} (hm : (wordFld off, w.toNat) ∈ l) : t.rd off = w := by
  have hf := Sets.f_of_disjoint hd ht hm
  exact BitVec.eq_of_toNat_eq ((wordFld_get off (t.rd off)).symm.trans (hf.trans (Nat.mod_eq_of_lt w.isLt)))

theorem Sets.rd64_of_disjoint {off : Nat} {w : BitVec 64} (hm : ∀ x ∈ pairFields off w, x ∈ l) : t.rd64 off = w := by
  have hlow := Sets.rd_of_disjoint hd ht (hm _ List.mem_cons_self)
  have hhigh := Sets.rd_of_disjoint hd ht (hm _ (List.mem_cons_of_mem _ List.mem_cons_self))
  rw [State.rd64, hlow, hhigh, extract_append_extract]

end

/-! ### The bit `pend` of mailboxes -/

/-- The fields with which `pend` of the mailboxes of a list becomes `v`. -/
def pendFields (k v : Nat) (l : List Nat) : List (Fld × Nat) := l.flatMap fun b => [(F.CAN_MB_CFG_pend k b, v)]

theorem mem_pendFields {k v : Nat} {l : List Nat} {x : Fld × Nat} : x ∈ pendFields k v l ↔ ∃ b ∈ l, x = (F.CAN_MB_CFG_pend k b, v) := by
  simp only [pendFields, List.mem_flatMap, List.mem_singleton]

theorem pend_off_ne {k b c : Nat} (h : b ≠ c) : (F.CAN_MB_CFG_pend k b).off ≠ R.CAN_MB_CFG k c := by
  simp only [F.CAN_MB_CFG_pend, R.CAN_MB_CFG]
  omega

section
variable {k v : Nat} {l : List Nat} {m : List (Fld × Nat)} {h : Hid} {s t : State} (ht : Sets (pendFields k v l ++ m) h s t)

include ht

theorem Sets.rd_cfg_of_pendFields {c : Nat} (hm : ∀ x ∈ m, x.1.off < R.CAN_MB_CFG k 0) (hc : c ∉ l) : t.rd (R.CAN_MB_CFG k c) = s.rd (R.CAN_MB_CFG k c) := by
  refine ht.rd_of_ne fun x hx => ?_
  obtain hx | hx := List.mem_append.1 hx
  · obtain ⟨b, hb, rfl⟩ := mem_pendFields.1 hx
    exact pend_off_ne fun he => hc (he ▸ hb)
  · have hlt := hm x hx
    simp only [R.CAN_MB_CFG] at hlt ⊢
    omega

theorem Sets.on_pend_of_pendFields (hm : ∀ x ∈ m, x.1.off < R.CAN_MB_CFG k 0) (c : Nat) :
    t.on (F.CAN_MB_CFG_pend k c) = if c ∈ l then decide (v % 2 = 1) else s.on (F.CAN_MB_CFG_pend k c) := by
  split
  · next hc =>
    refine ht.on_of_mem (List.mem_append_left _ (mem_pendFields.2 ⟨c, hc, rfl⟩)) (fun x hx => ?_) rfl (by simp [F.CAN_MB_CFG_pend])
    obtain hx | hx := List.mem_append.1 hx
    · obtain ⟨b, hb, rfl⟩ := mem_pendFields.1 hx
      by_cases he : b = c
      · exact .inl (by rw [he])
      · exact .inr (.inl (pend_off_ne he))
    · have hlt := hm x hx
      refine .inr (.inl ?_)
      simp only [R.CAN_MB_CFG, F.CAN_MB_CFG_pend] at hlt ⊢
      omega
  · next hc => exact on_of_rd_eq (ht.rd_cfg_of_pendFields hm hc)

/-- A field beside the mailboxes is what the fields after them make of it. -/
theorem Sets.f_of_pendFields {y : Fld} {w : Nat} (hy : y.off < R.CAN_MB_CFG k 0) (hmem : (y, w) ∈ m)
    (hrest : ∀ x ∈ m, x = (y, w) ∨ x.1.Apart y) (hlo : y.lo ≤ y.hi) (hhi : y.hi ≤ 31) : t.f y = w % 2 ^ (y.hi + 1 - y.lo) := by
  refine ht.f_of_mem (List.mem_append_right _ hmem) (fun x hx => ?_) hlo hhi
  obtain hx | hx := List.mem_append.1 hx
  · obtain ⟨b, -, rfl⟩ := mem_pendFields.1 hx
    refine .inr (.inl ?_)
    simp only [R.CAN_MB_CFG, F.CAN_MB_CFG_pend] at hy ⊢
    omega
  · exact hrest x hx

end

section
variable {k : Nat} {s t : State} {c : CanSt} (h : t.hid = withCan s k c)
include h

theorem canSt_of_withCan : canSt t k = c := canSt_put_self (congrArg Hid.can h)

theorem canSt_of_withCan_of_ne {j : Nat} (hj : j ≠ k) : canSt t j = canSt s j := canSt_put_of_ne (congrArg Hid.can h) hj

end

/-- From `s` to `t` the register fields of `l` take the values beside them, controller `k` holds `c`, and nothing else differs but the
counter of free values and the levels seen. -/
def SetsCan (l : List (Fld × Nat)) (k : Nat) (c : CanSt) (s t : State) : Prop :=
  canSt t k = c ∧ (∀ j, j ≠ k → canSt t j = canSt s j) ∧ Sets l { s.hid with can := t.hid.can } s t

theorem Sets.setsCan {l : List (Fld × Nat)} {s t : State} (a : Sets l s.hid s t) (k : Nat) : SetsCan l k (canSt s k) s t := by
  have hcan : ∀ j, canSt t j = canSt s j := fun j => by unfold canSt; rw [a.hid_eq]
  exact ⟨hcan k, fun j _ => hcan j, a.cast rfl (by rw [a.hid_eq])⟩

theorem setsCan_canA (k : Nat) (g : CanSt → CanSt) (s : State) : SetsCan [] k (g (canSt s k)) s ((canA k g).run s) := by
  have hs := Sets.hidA (fun h => { h with can := h.can.put {} k (g (h.can.get {} k)) }) s
  have hh : ((canA k g).run s).hid = withCan s k (g (canSt s k)) := hs.hid_eq
  exact ⟨canSt_of_withCan hh, fun j hj => canSt_of_withCan_of_ne hh hj, hs.cast rfl (by rw [hh]; rfl)⟩

section
variable {l m : List (Fld × Nat)} {k : Nat} {c d : CanSt} {s t u : State} {a : Act}

theorem SetsCan.canSt_eq (ht : SetsCan l k c s t) : canSt t k = c := by
  obtain ⟨hst, -, -⟩ := ht
  exact hst

theorem SetsCan.sets (ht : SetsCan l k c s t) : Sets l { s.hid with can := t.hid.can } s t := by
  obtain ⟨-, -, hs⟩ := ht
  exact hs

theorem SetsCan.canFrame (ht : SetsCan l k c s t) {w : Nat → Prop} (hw : ∀ x ∈ l, w x.1.off) : CanFrame k w s t := by
  obtain ⟨-, hrest, hs⟩ := ht
  exact ⟨hs.keepRegs hw, hs.sameAside, hs.hid_eq, hrest⟩

theorem SetsCan.trans (ht : SetsCan l k c s t) (hu : SetsCan m k d t u) : SetsCan (l ++ m) k d s u := by
  obtain ⟨htSt, htRest, ht⟩ := ht
  obtain ⟨huSt, huRest, hu⟩ := hu
  exact ⟨huSt, fun j hj => (huRest j hj).trans (htRest j hj), ht.trans (hu.cast rfl (by rw [ht.hid_eq]))⟩

theorem SetsCan.then_sets (ht : SetsCan l k c s t) (ha : Sets m t.hid t (a.run t)) : SetsCan (l ++ m) k c s (a.run t) :=
  ht.trans (ht.canSt_eq ▸ ha.setsCan k)

theorem SetsCan.then_setF (ht : SetsCan l k c s t) (x : Fld) (v : Nat) : SetsCan (l ++ [(x, v)]) k c s ((Machine.setF x v).run t) :=
  ht.then_sets (Sets.setF x v t)

theorem SetsCan.then_setW (ht : SetsCan l k c s t) (o : Nat) (v : Word) :
    SetsCan (l ++ [(wordFld o, v.toNat)]) k c s ((Machine.setW o v).run t) :=
  ht.then_sets (Sets.setW o v t)

theorem SetsCan.then_canA (ht : SetsCan l k c s t) (g : CanSt → CanSt) : SetsCan l k (g c) s ((Machine.canA k g).run t) := by
  have hu := setsCan_canA k g t
  rw [ht.canSt_eq] at hu
  simpa using ht.trans hu

theorem SetsCan.then_only (b : Bool) (ht : SetsCan l k c s t) (ha : b = true → SetsCan m k d t (a.run t)) :
    SetsCan (l ++ if b then m else []) k (if b then d else c) s ((only b a).run t) := by
  rw [run_only]
  cases b with
  | false => simpa using ht
  | true => exact ht.trans (ha rfl)

theorem SetsCan.then_only_canA (b : Bool) (ht : SetsCan l k c s t) (g : CanSt → CanSt) :
    SetsCan l k (if b then g c else c) s ((only b (canA k g)).run t) := by
  rw [run_only]
  cases b with
  | false => exact ht
  | true => exact ht.then_canA g

theorem SetsCan.then_levelsFall (ht : SetsCan l k c s t) : SetsCan l k c s (levelsFall.run t) := by
  simpa using ht.then_sets (m := []) ((Sets.refl t).then_levelsFall)

/-- A command whose action changes a controller alone completes with that change. -/
theorem SetsCan.completes {i : Instr} (ht : SetsCan l k c s (a.run s)) (hm : ∀ x ∈ l, x.1.off ≠ R.SYS_MODE_STAT)
    (he : exec i s = finish a s) : Completes i s (SetsCan l k c s) :=
  ⟨_, he.trans (finish_same _ _ (ht.sets.mode hm)), ht.then_levelsFall⟩

/-- So does one of a port that reaches its register. -/
theorem SetsCan.completes_portGate {i : Instr} {p : Port} {off : Nat} (ht : SetsCan l k c s (a.run s)) (hl : Live p s off = true)
    (hm : ∀ x ∈ l, x.1.off ≠ R.SYS_MODE_STAT) (he : exec i s = finish (portGate p off a) s) : Completes i s (SetsCan l k c s) := by
  rw [← portGate_of_live p off a s hl] at ht
  exact ht.completes hm he

end

/-! ### Actions of a controller -/

/-- A further change of what the controller holds. -/
theorem Sets.then_canA {l : List (Fld × Nat)} {k : Nat} {c : CanSt} {s t : State} (a : Sets l (withCan s k c) s t) (g : CanSt → CanSt) :
    Sets l (withCan s k (g c)) s ((canA k g).run t) := by
  have hget : (s.hid.can.put {} k c).get {} k = c := (Tab.get_put _ _ _ _ _ (fun _ => rfl) _).trans (if_pos rfl)
  refine (a.then_hidA fun h => { h with can := h.can.put {} k (g (h.can.get {} k)) }).cast rfl ?_
  simp only [withCan, hget, Tab.put_put]

theorem sets_canTxEnd (k : Nat) (s : State) : Sets [(F.CAN_STAT_tx_busy k, 0)]
    (withCan s k { canSt s k with cur := none, rx := false }) s ((canTxEnd k).run s) := by
  unfold canTxEnd
  rw [run_seq_cons, run_seq_cons, run_seq_nil, clrB_eq]
  exact (Sets.hidA _ s).then_setF _ _

theorem setsCan_canTxEnd (k : Nat) (s : State) :
    SetsCan [(F.CAN_STAT_tx_busy k, 0)] k { canSt s k with cur := none, rx := false } s ((canTxEnd k).run s) := by
  unfold canTxEnd
  rw [run_seq_cons, run_seq_cons, run_seq_nil, clrB_eq]
  exact (setsCan_canA k _ s).then_setF _ _

/-- At the end of a frame nothing waits for a controller that stays enabled and awake. -/
theorem run_canFrameEnd_of_awake {k : Nat} {s : State} (hen : s.on (F.CAN_CTL_en k) = true) (hsleep : (canSt s k).sleepReq = false) :
    (canFrameEnd k).run s = s := by
  unfold Act.run canFrameEnd
  simp only [hen, hsleep]
  split <;> rfl

/-- Nor while one is under way. -/
theorem run_canFrameEnd_of_underway {k : Nat} {s : State} (h : (canSt s k).cur ≠ none ∨ (canSt s k).rx = true) :
    (canFrameEnd k).run s = s := by
  unfold Act.run canFrameEnd
  rw [if_pos]
  · rfl
  · exact h.imp Option.isSome_iff_ne_none.2 id

section
variable {k : Nat} {s : State} (hcur : (canSt s k).cur = none) (hrx : (canSt s k).rx = false)
include hcur hrx

/-- A disable then takes effect (R429). -/
theorem setsCan_canFrameEnd_of_disabled (hen : s.on (F.CAN_CTL_en k) = false) :
    SetsCan [(F.CAN_STAT_state k, 0)] k (canSt s k) s ((canFrameEnd k).run s) := by
  have hrun : (canFrameEnd k).run s = (setF (F.CAN_STAT_state k) 0).run s := by
    unfold Act.run canFrameEnd
    rw [if_neg (by simp [hcur, hrx]), if_pos (by simp [hen])]
  rw [hrun]
  exact (Sets.setF _ _ s).setsCan k

/-- So does a request to sleep that waits (R422). -/
theorem setsCan_canFrameEnd_of_asleep (hen : s.on (F.CAN_CTL_en k) = true) (hsleep : (canSt s k).sleepReq = true)
    (hstate : canState s k = 2 ∨ canState s k = 3) : SetsCan [(F.CAN_STAT_state k, 5)] k
      { canSt s k with sleepReq := false, stb := s.on (F.CAN_CTL_stb_sleep k) } s ((canFrameEnd k).run s) := by
  have hrun : (canFrameEnd k).run s = (seq [setF (F.CAN_STAT_state k) 5,
      canA k fun c => { c with sleepReq := false, stb := s.on (F.CAN_CTL_stb_sleep k) }]).run s := by
    unfold Act.run canFrameEnd
    rw [if_neg (by simp [hcur, hrx]), if_neg (by simp [hen]), if_pos ⟨hsleep, hstate⟩]
  rw [hrun, run_seq_cons, run_seq_cons, run_seq_nil]
  exact ((Sets.setF _ _ s).setsCan k).then_canA _

end

/-- A disable or a request to sleep finds the bus: where the controller takes part in it and sends nothing, whether a frame is being
received is free. -/
theorem setsCan_canBusy (k : Nat) (s : State) : ∃ b, SetsCan [] k
    (if canActive s k ∧ (canSt s k).cur = none then { canSt s k with rx := b } else canSt s k) s ((canBusy k).run s) := by
  unfold canBusy
  rw [run_whenA]
  by_cases h : canActive s k ∧ (canSt s k).cur = none
  · rw [if_pos (by simpa using h), run_withEnv]
    refine ⟨(Config.freeEnv s.fresh).testBit 0, ?_⟩
    rw [if_pos h]
    have hfresh : SetsCan [] k (canSt s k) s { s with fresh := s.fresh + 1 } := (Sets.freshA s).setsCan k
    exact hfresh.then_canA fun c => { c with rx := (Config.freeEnv s.fresh).testBit 0 }
  · rw [if_neg (by simpa using h)]
    exact ⟨false, by rw [if_neg h]; exact (Sets.refl s).setsCan k⟩

/-- The field in which the error state of a controller that may drive the bus shows (R420). -/
def errStateFields (s : State) (k : Nat) : List (Fld × Nat) :=
  if canState s k = 2 ∨ canState s k = 3 then
    [(F.CAN_STAT_state k, if 128 ≤ s.f (F.CAN_ERR_tec k) ∨ 128 ≤ s.f (F.CAN_ERR_rec k) then 3 else 2)]
  else []

theorem errStateFields_sublist (s : State) (k : Nat) : ∃ v, (errStateFields s k).Sublist [(F.CAN_STAT_state k, v)] := by
  unfold errStateFields
  split
  · exact ⟨_, List.Sublist.refl _⟩
  · exact ⟨0, List.nil_sublist _⟩

theorem sets_canErrState (k : Nat) (s : State) : Sets (errStateFields s k) s.hid s ((canErrState k).run s) := by
  unfold Act.run canErrState errStateFields
  split
  · exact Sets.setF _ _ s
  · exact Sets.refl s

/-- The field in which the delay measured in a frame that is sent shows (R412). -/
def delayFields (s : State) (k : Nat) (x : CanTx) (delay : BitVec 8) : List (Fld × Nat) :=
  if txFd s k x && s.on (F.CAN_TDC_en k) then [(F.CAN_TDC_meas k, delay.toNat)] else []

theorem delayFields_sublist (s : State) (k : Nat) (x : CanTx) (delay : BitVec 8) :
    (delayFields s k x delay).Sublist [(F.CAN_TDC_meas k, delay.toNat)] := by
  unfold delayFields
  split
  · exact List.Sublist.refl _
  · exact List.nil_sublist _

theorem sets_tdcMeas (k : Nat) (x : CanTx) (delay : BitVec 8) (s : State) :
    Sets (delayFields s k x delay) s.hid s ((tdcMeas k x delay).run s) := by
  unfold tdcMeas delayFields
  rw [run_fun, run_only]
  split
  · exact Sets.setF _ _ s
  · exact Sets.refl s

/-! ### The words of a mailbox -/

theorem locate_nil_of_ge {r : Nat} (h : 8 ≤ r) : locate [] r = none := by
  rw [locate, if_neg (by omega), if_neg (by omega)]

theorem locate_cons_of_none {stride count r : Nat} {ds : List (Nat × Nat)} (h : locate ds (r % stride) = none) :
    locate ((stride, count) :: ds) r = none := by
  rw [locate, h]
  split <;> rfl

theorem locate_cons_add {stride count i r : Nat} {ds : List (Nat × Nat)} (hi : i < count) (hr : r < stride) :
    locate ((stride, count) :: ds) (i * stride + r) = (locate ds r).map fun x => (i :: x.1, x.2) := by
  have hdiv : (i * stride + r) / stride = i := by
    rw [Nat.add_comm, Nat.add_mul_div_right r i (by omega), Nat.div_eq_of_lt hr, Nat.zero_add]
  have hmod : (i * stride + r) % stride = r := by
    rw [Nat.add_comm, Nat.add_mul_mod_self_right, Nat.mod_eq_of_lt hr]
  rw [locate, hdiv, hmod, if_pos hi]
  cases locate ds r <;> rfl

theorem findReg_cons_of_none {off : Nat} {d : RegDesc} {ds : List RegDesc} (h : d.base ≤ off → locate d.dims (off - d.base) = none) :
    findReg off (d :: ds) = findReg off ds := by
  rw [findReg]
  split
  · next hle => rw [h hle]
  · rfl

/-- A row whose words lie apart from the mailboxes: it is one of the words at the beginning of each controller's registers, or of the
network-time registers at the end of the first one's. -/
def besideMail (d : RegDesc) : Bool :=
  decide (d.dims = [(0x10000, 4)] ∧ 0x200000 ≤ d.base ∧ d.base < 0x200080 ∨ d.dims = [] ∧ 0x20F000 ≤ d.base ∧ d.base < 0x20F050)

/-- So the search for a mailbox's word passes over such rows. -/
theorem findReg_append_of_besideMail {k x : Nat} (hx : 0x1000 ≤ x ∧ x < 0x3000) {l : List RegDesc}
    (hl : l.all besideMail = true) (ds : List RegDesc) :
    findReg (0x200000 + k * 0x10000 + x) (l ++ ds) = findReg (0x200000 + k * 0x10000 + x) ds := by
  induction l with
  | nil => rfl
  | cons d l ih =>
    obtain ⟨hd, hrest⟩ := List.all_cons.symm.trans hl |> Bool.and_eq_true_iff.1
    rw [List.cons_append, findReg_cons_of_none, ih hrest]
    intro hle
    unfold besideMail at hd
    rcases of_decide_eq_true hd with ⟨hdims, hlo, hhi⟩ | ⟨hdims, hlo, hhi⟩
    · rw [hdims]
      exact locate_cons_of_none (locate_nil_of_ge (by omega))
    · rw [hdims]
      exact locate_nil_of_ge (by omega)

/-- The rows of `_CFG`, `_ID`, `_TS`, `_MASK` and `_DATA`. -/
def cfgRow : RegDesc := ⟨0x201000, [(0x10000, 4), (0x80, 64)], .r32, 0, 0xF7B, 0, 0xE0000, 0, 0, 0x10080, 14, 0, .any, false⟩
def idRow : RegDesc := ⟨0x201004, [(0x10000, 4), (0x80, 64)], .r32, 0, 0x9FFFFFFF, 0, 0, 0, 0, 0, 14, 0, .any, false⟩
def stampRow : RegDesc := ⟨0x201008, [(0x10000, 4), (0x80, 64)], .r64, 0, 0, 0, 0, 0, 0, 0xFFFFFFFFFFFFFFFF, 14, 0, .any, false⟩
def maskRow : RegDesc := ⟨0x201010, [(0x10000, 4), (0x80, 64)], .r32, 0, 0x1FFFFFFF, 0, 0, 0, 0, 0, 14, 0, .any, false⟩
def dataRow : RegDesc := ⟨0x201040, [(0x10000, 4), (0x80, 64), (0x4, 16)], .r32, 0, 0xFFFFFFFF, 0, 0, 0, 0, 0, 14, 0, .any, false⟩

/-- They come after the rows beside them. -/
theorem dropWhile_besideMail : ∃ ds, regsCAN.dropWhile besideMail = cfgRow :: idRow :: stampRow :: maskRow :: dataRow :: ds :=
  ⟨_, rfl⟩

/-- The offset of byte `x` of mailbox `b` of controller `k`. -/
def mailAt (k b x : Nat) : Nat := 0x201000 + (k * 0x10000 + (b * 0x80 + x))

section
variable {k b x : Nat} (hk : k < 4) (hb : b < 64) (hx : x < 0x80)
include hk hb hx

theorem regAt_mailAt : regAt (mailAt k b x) = findReg (mailAt k b x) (regsCAN.dropWhile besideMail) := by
  have hoff : mailAt k b x = 0x200000 + k * 0x10000 + (0x1000 + b * 0x80 + x) := by unfold mailAt; omega
  have hblock : blockRegs (mailAt k b x) = regsCAN := by
    have hdiv : mailAt k b x / 0x10000 = 0x20 + k := by unfold mailAt; omega
    unfold blockRegs
    rw [hdiv]
    interval_cases k <;> rfl
  have hsplit := findReg_append_of_besideMail (k := k) (x := 0x1000 + b * 0x80 + x) ⟨by omega, by omega⟩
    (List.all_takeWhile (p := besideMail) (l := regsCAN)) (regsCAN.dropWhile besideMail)
  rw [List.takeWhile_append_dropWhile, ← hoff] at hsplit
  rw [regAt, hblock, hsplit]

/-- What a row of the mailboxes that begins at byte `y` finds there. -/
theorem findReg_mailRow {y : Nat} {d : RegDesc} {ds : List RegDesc} {dims : List (Nat × Nat)}
    (hd : d.dims = (0x10000, 4) :: (0x80, 64) :: dims) (hy : d.base = 0x201000 + y) (hyx : y ≤ x) :
    findReg (mailAt k b x) (d :: ds) = match locate dims (x - y) with
      | some (ix, w) => if w < d.kind.words then some ⟨d, k :: b :: ix, w⟩ else findReg (mailAt k b x) ds
      | none => findReg (mailAt k b x) ds := by
  have hoff : mailAt k b x - d.base = k * 0x10000 + (b * 0x80 + (x - y)) := by unfold mailAt; omega
  rw [findReg, if_pos (by unfold mailAt; omega), hoff, hd, locate_cons_add hk (by omega), locate_cons_add hb (by omega)]
  cases locate dims (x - y) <;> rfl

end

/-- The words of a mailbox whose write its `pend` refuses (R418) are `_CFG`, `_ID`, `_MASK` and the data words. -/
def MailWord (off k b : Nat) : Prop :=
  off = R.CAN_MB_CFG k b ∨ off = R.CAN_MB_ID k b ∨ off = R.CAN_MB_MASK k b ∨ ∃ w : Fin 16, off = R.CAN_MB_DATA k b w

/-- A register of mailbox `b` of controller `k` is found at such a word. -/
theorem regAt_of_mailWord {off : Nat} {k : Fin 4} {b : Fin 64} (h : MailWord off k b) :
    ∃ d ix, (d = cfgRow ∧ off = R.CAN_MB_CFG k b ∨ d = idRow ∨ d = maskRow ∨ d = dataRow) ∧ regAt off = some ⟨d, k.val :: b.val :: ix, 0⟩ := by
  obtain ⟨ds, hds⟩ := dropWhile_besideMail
  have hfind : ∀ x, x < 0x80 → regAt (mailAt k b x) = findReg (mailAt k b x) (cfgRow :: idRow :: stampRow :: maskRow :: dataRow :: ds) :=
    fun x hx => hds ▸ regAt_mailAt k.isLt b.isLt hx
  have hrow := fun x (hx : x < 0x80) y d ds dims => findReg_mailRow k.isLt b.isLt hx (y := y) (d := d) (ds := ds) (dims := dims)
  obtain rfl | rfl | rfl | ⟨w, rfl⟩ := h
  · refine ⟨cfgRow, [], .inl ⟨rfl, rfl⟩, ?_⟩
    rw [show R.CAN_MB_CFG k b = mailAt k b 0 by simp only [R.CAN_MB_CFG, mailAt]; omega, hfind 0 (by decide),
      hrow 0 (by decide) 0 cfgRow _ [] rfl rfl (by decide)]
    rfl
  · refine ⟨idRow, [], .inr (.inl rfl), ?_⟩
    rw [show R.CAN_MB_ID k b = mailAt k b 4 by simp only [R.CAN_MB_ID, mailAt]; omega, hfind 4 (by decide),
      hrow 4 (by decide) 0 cfgRow _ [] rfl rfl (by decide), hrow 4 (by decide) 4 idRow _ [] rfl rfl (by decide)]
    rfl
  · refine ⟨maskRow, [], .inr (.inr (.inl rfl)), ?_⟩
    rw [show R.CAN_MB_MASK k b = mailAt k b 0x10 by simp only [R.CAN_MB_MASK, mailAt]; omega, hfind 0x10 (by decide),
      hrow 0x10 (by decide) 0 cfgRow _ [] rfl rfl (by decide), hrow 0x10 (by decide) 4 idRow _ [] rfl rfl (by decide),
      hrow 0x10 (by decide) 8 stampRow _ [] rfl rfl (by decide), hrow 0x10 (by decide) 0x10 maskRow _ [] rfl rfl (by decide)]
    rfl
  · have hw := w.isLt
    have hnil : ∀ y, y ≤ 0x10 → locate [] (0x40 + w * 4 - y) = none := fun y hy => locate_nil_of_ge (by omega)
    refine ⟨dataRow, [w.val], .inr (.inr (.inr rfl)), ?_⟩
    rw [show R.CAN_MB_DATA k b w = mailAt k b (0x40 + w * 4) by simp only [R.CAN_MB_DATA, mailAt]; omega, hfind _ (by omega),
      hrow _ (by omega) 0 cfgRow _ [] rfl rfl (by omega), hrow _ (by omega) 4 idRow _ [] rfl rfl (by omega),
      hrow _ (by omega) 8 stampRow _ [] rfl rfl (by omega), hrow _ (by omega) 0x10 maskRow _ [] rfl rfl (by omega),
      hrow _ (by omega) 0x40 dataRow _ [(4, 16)] rfl rfl (by omega), hnil 0 (by omega), hnil 4 (by omega), hnil 8 (by omega),
      hnil 0x10 (by omega), Nat.add_sub_cancel_left, show w.val * 4 = w * 4 + 0 from rfl, locate_cons_add hw (by decide)]
    rfl

end Sys2Proof.Machine
end

section
/-!
The statement on pending mailboxes: what a write of a mailbox's word runs, what a request runs, and both as the statement says.
-/

namespace Sys2Proof.Machine

/-! ### Writes of a mailbox's words (R418) -/

/-- The rows of these words. -/
def mailRow (d : RegDesc) : Bool :=
  decide (d.isl = 14 ∧ d.acc = .any ∧ d.kind = .r32 ∧ d.base ∈ [0x201000, 0x201004, 0x201010, 0x201040])

theorem regWrite_of_mailRow (p : Port) {d : RegDesc} {ix : List Nat} {off : Nat} (h : mailRow d = true) (hoff : 0x100000 ≤ off) (v : Word) :
    regWrite p ⟨d, ix, 0⟩ off v = highWrite p ⟨d, ix, 0⟩ off v := by
  obtain ⟨hisl, hacc, hkind, hbase⟩ := of_decide_eq_true h
  have htakes : portTakes p ⟨d, ix, 0⟩ = true := by
    unfold portTakes
    rw [hacc]
  have hpair : RegAt.pair ⟨d, ix, 0⟩ = false := by
    simp only [List.mem_cons, List.not_mem_nil, or_false] at hbase
    unfold RegAt.pair RegAt.is
    rw [hkind]
    obtain h | h | h | h := hbase <;> rw [h] <;> decide
  rw [regWrite, hisl, if_neg (by decide), htakes, if_neg (by decide), hpair, if_neg (by decide), if_neg (by omega)]

theorem highWrite_cfgRow (p : Port) (ix : List Nat) (k b : Nat) (v : Word) (off : Nat) :
    highWrite p ⟨cfgRow, k :: b :: ix, 0⟩ off v = mbCfg p k b v := by
  unfold highWrite RegAt.is
  simp +decide only [cfgRow, if_true, if_false]
  rfl

theorem highWrite_mailRow (p : Port) {d : RegDesc} (h : d = idRow ∨ d = maskRow ∨ d = dataRow) (ix : List Nat) (k b : Nat) (v : Word)
    (off : Nat) : highWrite p ⟨d, k :: b :: ix, 0⟩ off v = mbGuard p k b off (plainWrite p ⟨d, k :: b :: ix, 0⟩ off v) := by
  unfold highWrite RegAt.is
  obtain rfl | rfl | rfl := h
  · simp +decide only [idRow, if_true, if_false]
    rfl
  · simp +decide only [maskRow, if_true, if_false]
    rfl
  · simp +decide only [dataRow, if_true, if_false]
    rfl

/-- A write of such a word is guarded by `pend`. -/
theorem regWrite_mailRow (p : Port) {d : RegDesc} (ix : List Nat) {off k b : Nat}
    (h : d = cfgRow ∧ off = R.CAN_MB_CFG k b ∨ d = idRow ∨ d = maskRow ∨ d = dataRow) (hoff : 0x100000 ≤ off) (v : Word) :
    ∃ a, regWrite p ⟨d, k :: b :: ix, 0⟩ off v = mbGuard p k b off a := by
  have hrow : mailRow d = true := by
    obtain ⟨rfl, -⟩ | rfl | rfl | rfl := h <;> decide
  rw [regWrite_of_mailRow p hrow hoff]
  obtain ⟨rfl, rfl⟩ | hrest := h
  · exact ⟨_, highWrite_cfgRow p ix k b v _⟩
  · exact ⟨_, highWrite_mailRow p hrest ix k b v off⟩

/-- A 32-bit write of such a word that reaches it is guarded by `pend`. -/
theorem portWrite_mailWord {p : Port} {s : State} {off : Nat} {k : Fin 4} {b : Fin 64} (v : BitVec 64) (hw : MailWord off k b)
    (hl : Live p s off = true) : ∃ a, (portWrite p off .b32 v).run s = (mbGuard p k b off a).run s := by
  obtain ⟨d, ix, hd, hreg⟩ := regAt_of_mailWord hw
  have hlow : 0x100000 ≤ off ∧ off % 4 = 0 := by
    obtain rfl | rfl | rfl | ⟨w, rfl⟩ := hw <;> simp only [R.CAN_MB_CFG, R.CAN_MB_ID, R.CAN_MB_MASK, R.CAN_MB_DATA] <;> omega
  obtain ⟨a, hwrite⟩ := regWrite_mailRow p ix hd hlow.1 (v.extractLsb' 0 32)
  refine ⟨a, ?_⟩
  unfold Live at hl
  rw [hreg, Bool.and_eq_true, Bool.and_eq_true, Bool.not_eq_true'] at hl
  obtain ⟨hfree, hlive, hheld⟩ := hl
  unfold portWrite
  rw [Act.run, portAct_of_free p off true _ s hfree, if_neg (by simp [accBytes, hlow.2]), if_neg (by simp [accBytes, hlow.2]), if_pos rfl,
    writeWord, hreg]
  simp only [hheld, hlive, if_true, hwrite]
  rfl

theorem completes_mailWrite {p : Port} {s : State} {off : Nat} {k : Fin 4} {b : Fin 64} (v : BitVec 64) (hw : MailWord off k b)
    (hl : Live p s off = true) (hpend : s.on (F.CAN_MB_CFG_pend k b) = true) :
    Completes (.registerWrite p (BitVec.ofNat 26 off) .b32 v) s (ReportsError p 3 off s) := by
  obtain ⟨a, ha⟩ := portWrite_mailWord v hw hl
  have hoff : (BitVec.ofNat 26 off).toNat = off := by
    obtain rfl | rfl | rfl | ⟨w, rfl⟩ := hw <;> simp only [R.CAN_MB_CFG, R.CAN_MB_ID, R.CAN_MB_MASK, R.CAN_MB_DATA, BitVec.toNat_ofNat] <;> omega
  have hrun : (portWrite p (BitVec.ofNat 26 off).toNat .b32 v).run s = (accErr p 3 off).run s := by
    rw [hoff, ha, Act.run, mbGuard, if_pos hpend]
    rfl
  have herr := reportsError_accErr p 3 off s
  rw [← hrun] at herr
  exact completes_sets herr (by split <;> simp +decide) rfl

/-! ### Requests (R416, R418) -/

/-- The mailboxes named that a request makes pending. -/
def mailRequested (s : State) (k : Nat) (hi : Bool) (v : Word) : List Nat :=
  (named hi v).filter fun b => s.f (F.CAN_MB_CFG_dir k b) = 1

/-- The code of a request. -/
def requestCode (s : State) (k : Nat) (hi : Bool) (v : Word) : Nat :=
  if (mailRequested s k hi v).length < (named hi v).length then 7 else 0

theorem requestCode_eq (s : State) (k : Nat) (hi : Bool) (v : Word) :
    requestCode s k hi v = if ∃ b ∈ named hi v, s.f (F.CAN_MB_CFG_dir k b) ≠ 1 then 7 else 0 := by
  unfold requestCode mailRequested
  simp only [List.length_filter_lt_length_iff_exists, decide_eq_true_eq]

/-- The fields that a request sets. -/
def requestFields (s : State) (k : Nat) (hi : Bool) (v : Word) : List (Fld × Nat) :=
  pendFields k 1 (mailRequested s k hi v) ++ [(F.CAN_STAT_result k, requestCode s k hi v)]

theorem sets_canTxrq (k : Nat) (hi : Bool) (v : Word) (s : State) : Sets (requestFields s k hi v) s.hid s ((canTxrq k hi v).run s) := by
  have hpend := sets_forEach (f := fun b => [(F.CAN_MB_CFG_pend k b, 1)]) (act := fun b => setB (F.CAN_MB_CFG_pend k b))
    (mailRequested s k hi v) (fun b _ u => Sets.setF _ _ u) s
  unfold canTxrq
  rw [run_fun, run_seq_cons, run_seq_cons, run_seq_nil]
  exact hpend.then_setF (F.CAN_STAT_result k) (requestCode s k hi v)

theorem mem_requestFields {s : State} {k : Nat} {hi : Bool} {v : Word} {x : Fld × Nat} (h : x ∈ requestFields s k hi v) :
    (∃ b ∈ mailRequested s k hi v, x.1.off = R.CAN_MB_CFG k b) ∨ x.1.off = R.CAN_STAT k := by
  obtain hx | hx := List.mem_append.1 h
  · obtain ⟨b, hb, rfl⟩ := mem_pendFields.1 hx
    exact .inl ⟨b, hb, rfl⟩
  · rw [List.mem_singleton.1 hx]
    exact .inr rfl

/-- A request completes, naming what it makes pending. -/
theorem completes_canTxrq {p : Port} {k : Fin 4} {hi : Bool} {s : State} (v : Word)
    (hl : Live p s (if hi then R.CAN_TXRQ_HI k else R.CAN_TXRQ_LO k) = true) :
    Completes (.canTxrq p k hi v) s (Sets (requestFields s k hi v) s.hid s) := by
  refine completes_portGate hl rfl (sets_canTxrq k hi v s) fun x hx => ?_
  obtain ⟨b, -, he⟩ | he := mem_requestFields hx <;> rw [he] <;> simp only [R.CAN_MB_CFG, R.CAN_STAT, R.SYS_MODE_STAT] <;> omega

section
variable {k : Nat} {hi : Bool} {v : Word} {s t : State} (ht : Sets (requestFields s k hi v) s.hid s t)
include ht

theorem result_of_requestFields : t.f (F.CAN_STAT_result k) = requestCode s k hi v := by
  have hf := Sets.f_of_pendFields ht (y := F.CAN_STAT_result k) (w := requestCode s k hi v)
    (by simp only [F.CAN_STAT_result, R.CAN_STAT, R.CAN_MB_CFG]; omega) (List.mem_singleton_self _) (by simp) (by simp [F.CAN_STAT_result])
    (by simp [F.CAN_STAT_result])
  refine hf.trans (Nat.mod_eq_of_lt ?_)
  unfold requestCode
  simp only [F.CAN_STAT_result]
  split <;> omega

theorem rd_cfg_of_requestFields {b : Nat} (hb : b ∉ mailRequested s k hi v) : t.rd (R.CAN_MB_CFG k b) = s.rd (R.CAN_MB_CFG k b) :=
  Sets.rd_cfg_of_pendFields ht (by simp only [List.mem_singleton, forall_eq, F.CAN_STAT_result, R.CAN_STAT, R.CAN_MB_CFG]; omega) hb

theorem pend_of_requestFields (b : Nat) : t.on (F.CAN_MB_CFG_pend k b) =
    (s.on (F.CAN_MB_CFG_pend k b) || decide (b ∈ mailRequested s k hi v)) := by
  rw [Sets.on_pend_of_pendFields ht (by simp only [List.mem_singleton, forall_eq, F.CAN_STAT_result, R.CAN_STAT, R.CAN_MB_CFG]; omega)]
  split
  · next hb => simp [hb]
  · next hb => simp [hb]

end

/-- Settles O51: a write of a pending mailbox's word meets its guard, whichever command makes it, and a mailbox that a request names in
vain gives the code. -/
theorem pendingMailboxesRefuseWritesAndRequests : Obligations.PendingMailboxesRefuseWritesAndRequests := by
  unfold Obligations.PendingMailboxesRefuseWritesAndRequests
  refine ⟨fun s p k b off v hpend hoff hl => completes_mailWrite v hoff hl hpend, fun s p k b v hpend hl => ?_,
    fun s p k hi v i hl hbit hdir => ?_⟩
  · have hrun : (mbCfg p k b (v ||| 0x20000#32)).run s = (accErr p 3 (R.CAN_MB_CFG k b)).run s := by
      rw [Act.run, mbCfg, mbGuard, if_pos hpend]
      rfl
    have herr := reportsError_accErr p 3 (R.CAN_MB_CFG k b) s
    rw [← hrun] at herr
    exact completes_portGate hl rfl herr (by split <;> simp +decide)
  · obtain ⟨t, he, ht⟩ := completes_canTxrq v hl
    have hnamed : ∃ b ∈ named hi v, s.f (F.CAN_MB_CFG_dir k b) ≠ 1 := ⟨_, mem_named.2 ⟨i, rfl, hbit⟩, hdir⟩
    have hout : i.val + 32 * b2n hi ∉ mailRequested s k hi v := fun h => hdir (of_decide_eq_true (List.mem_filter.1 h).2)
    exact ⟨t, he, by rw [result_of_requestFields ht, requestCode_eq, if_pos hnamed], rd_cfg_of_requestFields ht hout⟩

end Sys2Proof.Machine
end

section
/-!
The statement on transmission (R416, R417): requests, the choice before each start of frame, a frame that has been sent, and cancels.
-/

namespace Sys2Proof.Machine

/-! ### Requests -/

/-- What a change leaves that sets register fields alone. -/
theorem Sets.frame {l : List (Fld × Nat)} {h : Hid} {s t : State} (ht : Sets l h s t) {w : Nat → Prop} (hw : ∀ x ∈ l, w x.1.off) :
    Frame w h s t := by
  have hkeep := ht.keepRegs hw
  obtain ⟨-, hmem, hnow, hhid, hresp, hsnap, hlatch, hpending⟩ := ht
  exact ⟨hkeep, hmem, hnow, hhid, hresp, hsnap, hlatch, hpending⟩

/-- A mailbox of a half lies among those that a word names where its bit is set. -/
theorem mailbox_mem_named {v : Word} {hi : Bool} {i : Fin 32} : i.val + 32 * b2n hi ∈ named hi v ↔ v.getLsbD i = true := by
  rw [mem_named]
  constructor
  · rintro ⟨j, he, hj⟩
    rwa [show i = j from Fin.ext (by omega)]
  · exact fun h => ⟨i, rfl, h⟩

theorem exists_mem_named {v : Word} {hi : Bool} {q : Nat → Prop} :
    (∃ b ∈ named hi v, q b) ↔ ∃ i : Fin 32, v.getLsbD i = true ∧ q (i.val + 32 * b2n hi) := by
  constructor
  · rintro ⟨b, hb, hq⟩
    obtain ⟨i, rfl, hbit⟩ := mem_named.1 hb
    exact ⟨i, hbit, hq⟩
  · rintro ⟨i, hbit, hq⟩
    exact ⟨_, mailbox_mem_named.2 hbit, hq⟩

/-! ### The choice before a start of frame -/

theorem arbWinner_mem {l : List (Nat × CanTx)} {x : Nat × CanTx} (h : arbWinner l = some x) : x ∈ l := by
  induction l generalizing x with
  | nil => exact absurd h (by simp [arbWinner])
  | cons y l ih =>
    rw [arbWinner] at h
    split at h
    · next z hz =>
      split at h
      · exact List.mem_cons_of_mem _ (Option.some.inj h ▸ ih hz)
      · exact Option.some.inj h ▸ List.mem_cons_self
    · exact Option.some.inj h ▸ List.mem_cons_self

/-- The winner is the first of lowest rank. -/
theorem arbWinner_append {l m : List (Nat × CanTx)} {x : Nat × CanTx} (hl : ∀ y ∈ l, x.1 < y.1) (hm : ∀ y ∈ m, x.1 ≤ y.1) :
    arbWinner (l ++ x :: m) = some x := by
  induction l with
  | nil =>
    rw [List.nil_append, arbWinner]
    split
    · next z hz => rw [if_neg (Nat.not_lt.2 (hm z (arbWinner_mem hz)))]
    · rfl
  | cons y l ih =>
    obtain ⟨hy, hl⟩ := List.forall_mem_cons.1 hl
    rw [List.cons_append, arbWinner, ih hl]
    exact if_pos hy

theorem arbWinner_isSome {l : List (Nat × CanTx)} (h : l ≠ []) : ∃ x, arbWinner l = some x := by
  obtain ⟨y, l, rfl⟩ := List.exists_cons_of_ne_nil h
  rw [arbWinner]
  split
  · split
    · exact ⟨_, rfl⟩
    · exact ⟨_, rfl⟩
  · exact ⟨_, rfl⟩

theorem range_eq_append_cons {b n : Nat} (h : b < n + 1) :
    List.range (n + 1) = List.range b ++ b :: List.range' (b + 1) (n - b) := by
  have happ := List.range'_append_1 (s := 0) (m := b) (n := n - b + 1)
  rw [Nat.zero_add, show b + (n - b + 1) = n + 1 by omega] at happ
  rw [List.range_eq_range', List.range_eq_range', ← List.range'_succ, happ]

/-- The rank of mailbox `b` in arbitration. -/
def mailRank (s : State) (k b : Nat) : Nat := arbRank (s.on (F.CAN_MB_ID_ide k b)) (s.f (F.CAN_MB_ID_id k b))

/-- The pending mailboxes among those of a list, and the reference frame that waits (R426), as they take part in arbitration. -/
def mailRivals (s : State) (k : Nat) (l : List Nat) : List (Nat × CanTx) :=
  (l.filter fun b => s.on (F.CAN_MB_CFG_pend k b)).map fun b => (mailRank s k b, CanTx.mb b)

def refRivals (s : State) (k : Nat) : List (Nat × CanTx) :=
  match s.hid.nt.ref with
  | some m => if s.f F.CAN_NT_CFG_ctrl = k then [(arbRank m.ide m.id.toNat, CanTx.ref m)] else []
  | none => []

theorem canPending_eq (s : State) (k : Nat) : canPending s k = mailRivals s k (List.range 64) ++ refRivals s k := rfl

theorem mem_mailRivals {s : State} {k : Nat} {l : List Nat} {y : Nat × CanTx} :
    y ∈ mailRivals s k l ↔ ∃ b ∈ l, s.on (F.CAN_MB_CFG_pend k b) = true ∧ y = (mailRank s k b, .mb b) := by
  simp only [mailRivals, List.mem_map, List.mem_filter, and_assoc, eq_comm]

theorem mem_refRivals {s : State} {k : Nat} {y : Nat × CanTx} :
    y ∈ refRivals s k ↔ ∃ m, s.hid.nt.ref = some m ∧ s.f F.CAN_NT_CFG_ctrl = k ∧ y = (arbRank m.ide m.id.toNat, .ref m) := by
  unfold refRivals
  split
  · next m hm =>
    rw [hm]
    split
    · next hk => simp [hk]
    · next hk => simp [hk]
  · next hm => simp [hm]

section
variable {s : State} {k : Nat}

/-- A pending mailbox of lowest rank, the lower one among equals, wins over a reference frame of no lower rank. -/
theorem arbWinner_mailbox {b : Fin 64} (hpend : s.on (F.CAN_MB_CFG_pend k b) = true)
    (hmin : ∀ c : Fin 64, s.on (F.CAN_MB_CFG_pend k c) = true →
      mailRank s k b < mailRank s k c ∨ mailRank s k b = mailRank s k c ∧ b ≤ c)
    (href : s.f F.CAN_NT_CFG_ctrl = k → ∀ m, s.hid.nt.ref = some m → mailRank s k b ≤ arbRank m.ide m.id.toNat) :
    arbWinner (canPending s k) = some (mailRank s k b, .mb b) := by
  have hrange := range_eq_append_cons b.isLt
  have hsplit : canPending s k = mailRivals s k (List.range b) ++ (mailRank s k b, CanTx.mb b) ::
      (mailRivals s k (List.range' (b + 1) (63 - b)) ++ refRivals s k) := by
    rw [canPending_eq, hrange]
    simp [mailRivals, List.filter_append, hpend]
  rw [hsplit]
  refine arbWinner_append (fun y hy => ?_) (fun y hy => ?_)
  · obtain ⟨c, hc, hcp, rfl⟩ := mem_mailRivals.1 hy
    have hlt := List.mem_range.1 hc
    obtain h | ⟨-, h⟩ := hmin ⟨c, by omega⟩ hcp
    · exact h
    · exact absurd h (by simp [Fin.le_def]; omega)
  · obtain hy | hy := List.mem_append.1 hy
    · obtain ⟨c, hc, hcp, rfl⟩ := mem_mailRivals.1 hy
      have hlt := List.mem_range'_1.1 hc
      obtain h | ⟨h, -⟩ := hmin ⟨c, by omega⟩ hcp
      · exact Nat.le_of_lt h
      · exact Nat.le_of_eq h
    · obtain ⟨m, hm, hk, rfl⟩ := mem_refRivals.1 hy
      exact href hk m hm

/-- A reference frame that waits on the controller wins where every pending mailbox has a higher rank. -/
theorem arbWinner_ref {m : CanMsg} (hm : s.hid.nt.ref = some m) (hk : s.f F.CAN_NT_CFG_ctrl = k)
    (hmin : ∀ c : Fin 64, s.on (F.CAN_MB_CFG_pend k c) = true → arbRank m.ide m.id.toNat < mailRank s k c) :
    arbWinner (canPending s k) = some (arbRank m.ide m.id.toNat, .ref m) := by
  have href : refRivals s k = [(arbRank m.ide m.id.toNat, .ref m)] := by
    unfold refRivals
    rw [hm]
    exact if_pos hk
  rw [canPending_eq, href]
  refine arbWinner_append (fun y hy => ?_) (by simp)
  obtain ⟨c, hc, hcp, rfl⟩ := mem_mailRivals.1 hy
  exact hmin ⟨c, List.mem_range.1 hc⟩ hcp

end

/-- A controller that may start a frame: it takes part in the bus, is enabled, may drive the bus, and sends none. -/
def MayStart (s : State) (k : Nat) : Prop :=
  canOn s = true ∧ canActive s k = true ∧ (canSt s k).cur = none ∧ s.on (F.CAN_CTL_en k) = true ∧ (canSt s k).listen = false

section
variable {s : State} {k : Nat}

theorem run_canTxStart_of_none (hw : arbWinner (canPending s k) = none) : (canTxStart k).run s = s := by
  unfold canTxStart
  rw [run_whenA]
  split
  · unfold Act.run
    dsimp only
    rw [hw]
    rfl
  · rfl

section
variable {x : Nat × CanTx} (h : MayStart s k) (hw : arbWinner (canPending s k) = some x)
include h hw

theorem run_canTxStart_of_winner : (canTxStart k).run s =
    if (canSt s k).sleepReq then (seq [canTxEnd k, canFrameEnd k]).run s
    else (seq [canA k fun c => { c with cur := some (x.2, s.now), rx := false }, setB (F.CAN_STAT_tx_busy k)]).run s := by
  obtain ⟨hon, hact, hcur, hen, hlisten⟩ := h
  unfold canTxStart
  rw [run_whenA, if_pos (by simp [hon, hact, hcur, hen, hlisten])]
  unfold Act.run
  dsimp only
  rw [hw]
  dsimp only
  split <;> rfl

/-- The frame of a winner starts where no request to sleep waits. -/
theorem sets_canTxStart (hs : (canSt s k).sleepReq = false) :
    Sets [(F.CAN_STAT_tx_busy k, 1)] (withCan s k { canSt s k with cur := some (x.2, s.now), rx := false }) s ((canTxStart k).run s) := by
  rw [run_canTxStart_of_winner h hw, if_neg (by simp [hs]), run_seq_cons, run_seq_cons, run_seq_nil, setB_eq]
  exact (Sets.hidA _ s).then_setF _ _

/-- A request to sleep that waits takes effect before a start. -/
theorem sets_canTxStart_sleep (hs : (canSt s k).sleepReq = true) : Sets [(F.CAN_STAT_tx_busy k, 0), (F.CAN_STAT_state k, 5)]
      (withCan s k { canSt s k with rx := false, sleepReq := false, stb := s.on (F.CAN_CTL_stb_sleep k) }) s ((canTxStart k).run s) := by
  rw [run_canTxStart_of_winner h hw, if_pos hs, run_seq_cons, run_seq_cons, run_seq_nil]
  obtain ⟨-, hact, hcur, hen, -⟩ := h
  have hend := sets_canTxEnd k s
  have hstart := hend.on_of_apart (y := F.CAN_CTL_en k) (by simp [Fld.Apart, F.CAN_CTL_en, F.CAN_STAT_tx_busy, R.CAN_CTL, R.CAN_STAT])
  have hstb := hend.on_of_apart (y := F.CAN_CTL_stb_sleep k)
    (by simp [Fld.Apart, F.CAN_CTL_stb_sleep, F.CAN_STAT_tx_busy, R.CAN_CTL, R.CAN_STAT])
  have hstate : canState ((canTxEnd k).run s) k = canState s k :=
    hend.f_of_apart (y := F.CAN_STAT_state k) (by simp [Fld.Apart, F.CAN_STAT_state, F.CAN_STAT_tx_busy, R.CAN_STAT])
  have hheld := canSt_of_withCan hend.hid_eq
  generalize (canTxEnd k).run s = t at hend hstart hstb hstate hheld
  have hrun : (canFrameEnd k).run t = (seq [setF (F.CAN_STAT_state k) 5,
      canA k fun c => { c with sleepReq := false, stb := t.on (F.CAN_CTL_stb_sleep k) }]).run t := by
    unfold Act.run canFrameEnd
    rw [if_neg (by simp [hheld]), if_neg (by simp [hstart, hen]), if_pos (by
      simp only [canActive, Bool.decide_and, Bool.and_eq_true, decide_eq_true_eq] at hact
      rw [hstate, hheld]
      exact ⟨hs, hact.2⟩)]
  rw [hrun, run_seq_cons, run_seq_cons, run_seq_nil, hstb]
  have hall := (hend.then_setF (F.CAN_STAT_state k) 5).then_canA fun c => { c with sleepReq := false, stb := s.on (F.CAN_CTL_stb_sleep k) }
  refine hall.cast rfl ?_
  rw [← hcur]

end
end

/-! ### A frame that has been sent -/

/-- The fields that a mailbox's success sets, but for those of the controller (R417). -/
def sentFields (k b : Nat) (t0 : BitVec 64) : List (Fld × Nat) :=
  [(F.CAN_MB_CFG_pend k b, 0), (F.CAN_MB_CFG_done k b, 1)] ++ pairFields (R.CAN_MB_TS k b) t0 ++ [(F.CAN_EVENT_tx_done k, 1)]

theorem sets_sent (k b : Nat) (t0 : BitVec 64) (s : State) : Sets (sentFields k b t0) s.hid s ((seq [clrB (F.CAN_MB_CFG_pend k b),
    setB (F.CAN_MB_CFG_done k b), set64 (R.CAN_MB_TS k b) t0, setB (F.CAN_EVENT_tx_done k)]).run s) := by
  rw [run_seq_cons, run_seq_cons, run_seq_cons, run_seq_cons, run_seq_nil, clrB_eq, setB_eq, setB_eq]
  exact (((Sets.setF _ _ s).then_setF _ _).then_set64 _ _).then_setF _ _

/-- The fields of the controller that are set where a frame that it sent ends: its delay, TEC, which becomes `n`, and the error state as
it stands in `w`. -/
def endFields (u w : State) (k : Nat) (x : CanTx) (delay : BitVec 8) (n : Nat) : List (Fld × Nat) :=
  delayFields u k x delay ++ [(F.CAN_ERR_tec k, n)] ++ errStateFields w k ++ [(F.CAN_STAT_tx_busy k, 0)]

section
variable (u w : State) (k : Nat) (x : CanTx) (delay : BitVec 8) (n : Nat)

theorem endFields_sublist : ∃ v, (endFields u w k x delay n).Sublist
    [(F.CAN_TDC_meas k, delay.toNat), (F.CAN_ERR_tec k, n), (F.CAN_STAT_state k, v), (F.CAN_STAT_tx_busy k, 0)] := by
  obtain ⟨v, hv⟩ := errStateFields_sublist w k
  exact ⟨v, (((delayFields_sublist u k x delay).append (List.Sublist.refl _)).append hv).append (List.Sublist.refl _)⟩

theorem disjoint_sent_end (b : Nat) (t0 : BitVec 64) : DisjointFields (sentFields k b t0 ++ endFields u w k x delay n) := by
  obtain ⟨v, hv⟩ := endFields_sublist u w k x delay n
  refine DisjointFields.sublist ?_ ((List.Sublist.refl _).append hv)
  simp [DisjointFields, Clear, sentFields, pairFields, wordFld, F.CAN_TDC_meas, F.CAN_ERR_tec, F.CAN_STAT_state, F.CAN_STAT_tx_busy,
    R.CAN_TDC, R.CAN_ERR, R.CAN_STAT, F.CAN_MB_CFG_pend, F.CAN_MB_CFG_done, F.CAN_EVENT_tx_done, R.CAN_MB_CFG, R.CAN_MB_TS, R.CAN_EVENT]
  omega

theorem off_of_mem_endFields {y : Fld × Nat} (hy : y ∈ endFields u w k x delay n) :
    y.1.off = R.CAN_STAT k ∨ y.1.off = R.CAN_ERR k ∨ y.1.off = R.CAN_TDC k := by
  obtain ⟨v, hv⟩ := endFields_sublist u w k x delay n
  have hmem := hv.subset hy
  simp only [List.mem_cons, List.not_mem_nil, or_false] at hmem
  obtain rfl | rfl | rfl | rfl := hmem
  · exact .inr (.inr rfl)
  · exact .inr (.inl rfl)
  · exact .inl rfl
  · exact .inl rfl

end

theorem off_of_mem_sentFields {k b : Nat} {t0 : BitVec 64} {y : Fld × Nat} (hy : y ∈ sentFields k b t0) :
    mbWord k b y.1.off ∨ y.1.off = R.CAN_EVENT k := by
  simp only [sentFields, pairFields, List.mem_append, List.mem_cons, List.not_mem_nil, or_false] at hy
  obtain ((rfl | rfl) | (rfl | rfl)) | rfl := hy
  · exact .inl ⟨Nat.le_refl _, Nat.lt_add_of_pos_right (by decide)⟩
  · exact .inl ⟨Nat.le_refl _, Nat.lt_add_of_pos_right (by decide)⟩
  · refine .inl ?_
    simp only [mbWord, wordFld, R.CAN_MB_TS, R.CAN_MB_CFG]
    omega
  · refine .inl ?_
    simp only [mbWord, wordFld, R.CAN_MB_TS, R.CAN_MB_CFG]
    omega
  · exact .inr rfl

/-- What the success of a transmission does by what was sent. -/
def sent (k : Nat) (t0 : BitVec 64) : CanTx → Act
  | .mb b => seq [clrB (F.CAN_MB_CFG_pend k b), setB (F.CAN_MB_CFG_done k b), set64 (R.CAN_MB_TS k b) t0, setB (F.CAN_EVENT_tx_done k)]
  | .ref m => refSent m t0

/-- The frame ends: what the controller does then, whatever it sent. -/
def sentEnd (k : Nat) (x : CanTx) (delay : BitVec 8) (n : Nat) : Act :=
  seq [tdcMeas k x delay, setF (F.CAN_ERR_tec k) n, canErrState k, canTxEnd k, canFrameEnd k]

theorem run_canTxDone {k : Nat} {delay : BitVec 8} {s : State} {x : CanTx} {t0 : BitVec 64} (hcur : (canSt s k).cur = some (x, t0)) :
    (canTxDone k delay).run s = (sentEnd k x delay (s.f (F.CAN_ERR_tec k) - 1)).run ((sent k t0 x).run s) := by
  have hseq : (canTxDone k delay).run s = (seq [sent k t0 x, tdcMeas k x delay, setF (F.CAN_ERR_tec k) (s.f (F.CAN_ERR_tec k) - 1),
      canErrState k, canTxEnd k, canFrameEnd k]).run s := by
    unfold canTxDone
    rw [run_whenA, if_pos (by rw [hcur]; rfl)]
    unfold Act.run
    dsimp only
    rw [hcur]
    cases x <;> rfl
  rw [hseq, run_seq_cons]
  rfl

theorem setsCan_sentEnd {k : Nat} {u : State} (x : CanTx) (delay : BitVec 8) (n : Nat) (hen : u.on (F.CAN_CTL_en k) = true)
    (hsleep : (canSt u k).sleepReq = false) : ∃ w, SetsCan (endFields u w k x delay n) k { canSt u k with cur := none, rx := false } u
      ((sentEnd k x delay n).run u) := by
  have hdelay := ((sets_tdcMeas k x delay u).setsCan k).then_setF (F.CAN_ERR_tec k) n
  refine ⟨(setF (F.CAN_ERR_tec k) n).run ((tdcMeas k x delay).run u), ?_⟩
  unfold sentEnd
  rw [run_seq_cons, run_seq_cons, run_seq_cons, run_seq_cons, run_seq_cons, run_seq_nil]
  have herr := hdelay.then_sets (sets_canErrState k _)
  have hend := setsCan_canTxEnd k ((canErrState k).run ((setF (F.CAN_ERR_tec k) n).run ((tdcMeas k x delay).run u)))
  rw [herr.canSt_eq] at hend
  have hall := herr.trans hend
  rw [run_canFrameEnd_of_awake]
  · exact hall
  · have hctl : ∀ y ∈ endFields u ((setF (F.CAN_ERR_tec k) n).run ((tdcMeas k x delay).run u)) k x delay n, y.1.off ≠ R.CAN_CTL k := by
      intro y hy
      obtain he | he | he := off_of_mem_endFields _ _ _ _ _ _ hy <;> rw [he] <;> simp [R.CAN_STAT, R.CAN_ERR, R.CAN_TDC, R.CAN_CTL]
    exact (on_of_rd_eq (x := F.CAN_CTL_en k) (hall.sets.rd_of_ne hctl)).trans hen
  · rw [hall.canSt_eq]
    exact hsleep

theorem delayFields_congr {s u : State} {k : Nat} {x : CanTx} (hfd : txFd u k x = txFd s k x)
    (hen : u.on (F.CAN_TDC_en k) = s.on (F.CAN_TDC_en k)) (delay : BitVec 8) : delayFields u k x delay = delayFields s k x delay := by
  unfold delayFields
  rw [hfd, hen]

/-- What the success of mailbox `b` sets and leaves. -/
theorem setsCan_canTxDone_mailbox {k : Nat} {delay : BitVec 8} {s : State} {b : Nat} {t0 : BitVec 64}
    (hcur : (canSt s k).cur = some (.mb b, t0)) (hen : s.on (F.CAN_CTL_en k) = true) (hsleep : (canSt s k).sleepReq = false) :
    ∃ w, SetsCan (sentFields k b t0 ++ endFields s w k (.mb b) delay (s.f (F.CAN_ERR_tec k) - 1)) k
      { canSt s k with cur := none, rx := false } s ((canTxDone k delay).run s) := by
  have hsent := sets_sent k b t0 s
  have hout : ∀ r, r < R.CAN_MB_CFG k 0 → r ≠ R.CAN_EVENT k → ∀ y ∈ sentFields k b t0, y.1.off ≠ r := fun r hr hne y hy he => by
    obtain ⟨hlo, -⟩ | hev := off_of_mem_sentFields hy
    · simp only [R.CAN_MB_CFG] at hlo hr
      omega
    · exact hne (he.symm.trans hev)
  have hctl := on_of_rd_eq (x := F.CAN_CTL_en k) (hsent.rd_of_ne (hout _ (by simp only [F.CAN_CTL_en, R.CAN_CTL, R.CAN_MB_CFG]; omega)
    (by simp [F.CAN_CTL_en, R.CAN_CTL, R.CAN_EVENT])))
  have htdc := on_of_rd_eq (x := F.CAN_TDC_en k) (hsent.rd_of_ne (hout _ (by simp only [F.CAN_TDC_en, R.CAN_TDC, R.CAN_MB_CFG]; omega)
    (by simp [F.CAN_TDC_en, R.CAN_TDC, R.CAN_EVENT])))
  have hfd := hsent.on_of_apart (y := F.CAN_MB_CFG_fdf k b) (by
    simp [sentFields, pairFields, Fld.Apart, wordFld, F.CAN_MB_CFG_pend, F.CAN_MB_CFG_done, F.CAN_MB_CFG_fdf, F.CAN_EVENT_tx_done,
      R.CAN_MB_CFG, R.CAN_MB_TS, R.CAN_EVENT]
    omega)
  have hfirst := hsent.setsCan k
  obtain ⟨w, hend⟩ := setsCan_sentEnd (.mb b) delay (s.f (F.CAN_ERR_tec k) - 1) (hctl.trans hen) (hfirst.canSt_eq ▸ hsleep)
  rw [hfirst.canSt_eq, endFields, delayFields_congr (x := .mb b) hfd htdc] at hend
  refine ⟨w, ?_⟩
  rw [run_canTxDone hcur]
  exact hfirst.trans hend

/-! ### Cancels -/

/-- The pending mailboxes that the bits of a word name. -/
def hitBy (s : State) (k : Nat) (hi : Bool) (v : Word) : List Nat := (named hi v).filter fun b => s.on (F.CAN_MB_CFG_pend k b)

/-- Those that a cancel takes, and its code. -/
def cancelled (s : State) (k : Nat) (hi : Bool) (v : Word) : List Nat := (hitBy s k hi v).filter fun b => cancelCode s k b = 0
def cancelResult (s : State) (k : Nat) (hi : Bool) (v : Word) : Nat :=
  match (hitBy s k hi v).find? fun b => cancelCode s k b ≠ 0 with
  | some b => cancelCode s k b
  | none => 0

/-- The fields that a cancel sets. -/
def cancelFields (s : State) (k : Nat) (hi : Bool) (v : Word) : List (Fld × Nat) :=
  pendFields k 0 (cancelled s k hi v) ++ ((if cancelled s k hi v ≠ [] then [(F.CAN_EVENT_tx_cancel k, 1)] else []) ++
    [(F.CAN_STAT_result k, cancelResult s k hi v)])

theorem sets_canCancel (k : Nat) (hi : Bool) (v : Word) (s : State) : Sets (cancelFields s k hi v) s.hid s ((canCancel k hi v).run s) := by
  have hpend := sets_forEach (f := fun b => [(F.CAN_MB_CFG_pend k b, 0)]) (act := fun b => clrB (F.CAN_MB_CFG_pend k b))
    (cancelled s k hi v) (fun b _ u => Sets.setF _ _ u) s
  have hevent := hpend.then_only (m := [(F.CAN_EVENT_tx_cancel k, 1)]) (decide (cancelled s k hi v ≠ []))
    fun _ => Sets.setF (F.CAN_EVENT_tx_cancel k) 1 _
  have hall := hevent.then_setF (F.CAN_STAT_result k) (cancelResult s k hi v)
  unfold canCancel
  rw [run_fun, run_seq_cons, run_seq_cons, run_seq_cons, run_seq_nil]
  refine hall.cast ?_ rfl
  rw [cancelFields, pendFields, List.append_assoc]
  simp only [decide_eq_true_eq]

theorem off_of_mem_cancelFields {s : State} {k : Nat} {hi : Bool} {v : Word} {y : Fld × Nat} (hy : y ∈ cancelFields s k hi v) :
    (∃ b ∈ named hi v, y.1.off = R.CAN_MB_CFG k b) ∨ y.1.off = R.CAN_EVENT k ∨ y.1.off = R.CAN_STAT k := by
  simp only [cancelFields, List.mem_append, List.mem_singleton] at hy
  obtain hy | hy | rfl := hy
  · obtain ⟨b, hb, rfl⟩ := mem_pendFields.1 hy
    exact .inl ⟨b, List.mem_of_mem_filter (List.mem_of_mem_filter hb), rfl⟩
  · split at hy
    · rw [List.mem_singleton.1 hy]
      exact .inr (.inl rfl)
    · exact absurd hy List.not_mem_nil
  · exact .inr (.inr rfl)

theorem cancelCode_lt (s : State) (k b : Nat) : cancelCode s k b < 8 := by
  unfold cancelCode
  split <;> split <;> decide

theorem cancelResult_lt (s : State) (k : Nat) (hi : Bool) (v : Word) : cancelResult s k hi v < 16 := by
  unfold cancelResult
  split
  · exact Nat.lt_trans (cancelCode_lt s k _) (by decide)
  · decide

section
variable {k : Nat} {hi : Bool} {v : Word} {s t : State} (ht : Sets (cancelFields s k hi v) s.hid s t)
include ht

theorem pend_of_cancelFields (b : Nat) :
    t.on (F.CAN_MB_CFG_pend k b) = (s.on (F.CAN_MB_CFG_pend k b) && !decide (b ∈ cancelled s k hi v)) := by
  rw [Sets.on_pend_of_pendFields ht]
  · split
    · next hb => simp [hb]
    · next hb => simp [hb]
  · intro x hx
    obtain hx | hx := List.mem_append.1 hx
    · split at hx
      · rw [List.mem_singleton.1 hx]
        simp only [F.CAN_EVENT_tx_cancel, R.CAN_EVENT, R.CAN_MB_CFG]
        omega
      · exact absurd hx List.not_mem_nil
    · rw [List.mem_singleton.1 hx]
      simp only [F.CAN_STAT_result, R.CAN_STAT, R.CAN_MB_CFG]
      omega

theorem event_of_cancelFields (hne : cancelled s k hi v ≠ []) : t.on (F.CAN_EVENT_tx_cancel k) = true := by
  have hf := Sets.f_of_pendFields ht (y := F.CAN_EVENT_tx_cancel k) (w := 1)
    (by simp only [F.CAN_EVENT_tx_cancel, R.CAN_EVENT, R.CAN_MB_CFG]; omega) (by rw [if_pos hne]; simp)
    (by rw [if_pos hne]; simp [Fld.Apart, F.CAN_EVENT_tx_cancel, F.CAN_STAT_result, R.CAN_EVENT, R.CAN_STAT])
    (by simp [F.CAN_EVENT_tx_cancel]) (by simp [F.CAN_EVENT_tx_cancel])
  have hone : t.f (F.CAN_EVENT_tx_cancel k) = 1 := hf.trans (by simp [F.CAN_EVENT_tx_cancel])
  exact decide_eq_true hone

theorem result_of_cancelFields : t.f (F.CAN_STAT_result k) = cancelResult s k hi v := by
  have hf := Sets.f_of_pendFields ht (y := F.CAN_STAT_result k) (w := cancelResult s k hi v)
    (by simp only [F.CAN_STAT_result, R.CAN_STAT, R.CAN_MB_CFG]; omega) (by simp)
    (by split <;> simp [Fld.Apart, F.CAN_EVENT_tx_cancel, F.CAN_STAT_result, R.CAN_EVENT, R.CAN_STAT])
    (by simp [F.CAN_STAT_result]) (by simp [F.CAN_STAT_result])
  refine hf.trans (Nat.mod_eq_of_lt ?_)
  have hlt := cancelResult_lt s k hi v
  simpa [F.CAN_STAT_result] using hlt

end

theorem completes_canCancel {p : Port} {k : Fin 4} {hi : Bool} {s : State} (v : Word)
    (hl : Live p s (if hi then R.CAN_CANCEL_HI k else R.CAN_CANCEL_LO k) = true) :
    Completes (.canCancel p k hi v) s (Sets (cancelFields s k hi v) s.hid s) := by
  refine completes_portGate hl rfl (sets_canCancel k hi v s) fun x hx => ?_
  obtain ⟨b, -, he⟩ | he | he := off_of_mem_cancelFields hx <;> rw [he] <;>
    simp only [R.CAN_MB_CFG, R.CAN_STAT, R.CAN_EVENT, R.SYS_MODE_STAT] <;> omega

/-- The code is that of the lowest mailbox refused. -/
theorem cancelResult_of_first {s : State} {k : Nat} {hi : Bool} {v : Word} {i : Fin 32} (hbit : v.getLsbD i = true)
    (hpend : s.on (F.CAN_MB_CFG_pend k (i.val + 32 * b2n hi)) = true) (hcode : cancelCode s k (i.val + 32 * b2n hi) ≠ 0)
    (hfirst : ∀ j : Fin 32, j < i → v.getLsbD j = true → s.on (F.CAN_MB_CFG_pend k (j.val + 32 * b2n hi)) = true →
      cancelCode s k (j.val + 32 * b2n hi) = 0) : cancelResult s k hi v = cancelCode s k (i.val + 32 * b2n hi) := by
  have hfind : (hitBy s k hi v).find? (fun b => cancelCode s k b ≠ 0) = some (i.val + 32 * b2n hi) := by
    have hsplit : named hi v = ((List.range i).filter (bit v.toNat)).map (· + 32 * b2n hi) ++ (i.val + 32 * b2n hi) ::
        ((List.range' (i + 1) (31 - i)).filter (bit v.toNat)).map (· + 32 * b2n hi) := by
      rw [named, bitsOf, range_eq_append_cons i.isLt, List.filter_append, List.filter_cons, if_pos (by rw [bit_toNat, hbit]),
        List.map_append, List.map_cons]
    rw [hitBy, hsplit, List.filter_append, List.filter_cons, if_pos hpend, List.find?_append, List.find?_eq_none.2, Option.none_or,
      List.find?_cons_of_pos (by simpa using hcode)]
    intro b hb
    simp only [List.mem_filter, List.mem_map, List.mem_range, bit_toNat] at hb
    obtain ⟨⟨j, ⟨hlt, hj⟩, rfl⟩, hp⟩ := hb
    simpa using hfirst ⟨j, by omega⟩ hlt hj hp
  rw [cancelResult, hfind]

theorem cancelResult_of_none {s : State} {k : Nat} {hi : Bool} {v : Word}
    (hnone : ∀ i : Fin 32, v.getLsbD i = true → s.on (F.CAN_MB_CFG_pend k (i.val + 32 * b2n hi)) = true →
      cancelCode s k (i.val + 32 * b2n hi) = 0) : cancelResult s k hi v = 0 := by
  rw [cancelResult, List.find?_eq_none.2]
  intro b hb
  obtain ⟨hb, hp⟩ := List.mem_filter.1 hb
  obtain ⟨i, rfl, hbit⟩ := mem_named.1 hb
  simpa using hnone i hbit hp

theorem mem_cancelled {s : State} {k : Nat} {hi : Bool} {v : Word} {i : Fin 32} :
    i.val + 32 * b2n hi ∈ cancelled s k hi v ↔
      v.getLsbD i = true ∧ s.on (F.CAN_MB_CFG_pend k (i.val + 32 * b2n hi)) = true ∧ cancelCode s k (i.val + 32 * b2n hi) = 0 := by
  simp only [cancelled, hitBy, List.mem_filter, mailbox_mem_named, decide_eq_true_eq, and_assoc]

/-! ### The statement -/

/-- A frame that a mailbox has sent. -/
theorem canTxDone_mailbox {s : State} {k : Fin 4} {delay : BitVec 8} {b : Fin 64} {t0 : BitVec 64}
    (hcur : (canSt s k).cur = some (.mb b, t0)) (hen : s.on (F.CAN_CTL_en k) = true) (hsleep : (canSt s k).sleepReq = false) :
    Completes (.canTxDone k delay) s fun t =>
      t.on (F.CAN_MB_CFG_pend k b) = false ∧ t.on (F.CAN_MB_CFG_done k b) = true ∧ t.rd64 (R.CAN_MB_TS k b) = t0 ∧
      t.on (F.CAN_EVENT_tx_done k) = true ∧ t.on (F.CAN_STAT_tx_busy k) = false ∧
      t.f (F.CAN_ERR_tec k) = s.f (F.CAN_ERR_tec k) - 1 ∧ (canSt t k) = { canSt s k with cur := none, rx := false } ∧
      t.f (F.CAN_TDC_meas k) = (if s.on (F.CAN_MB_CFG_fdf k b) && s.on (F.CAN_TDC_en k) then delay.toNat else s.f (F.CAN_TDC_meas k)) ∧
      CanFrame k (fun off => mbWord k b off ∨ off = R.CAN_EVENT k ∨ off = R.CAN_STAT k ∨ off = R.CAN_ERR k ∨ off = R.CAN_TDC k) s t := by
  obtain ⟨w, hrun⟩ := setsCan_canTxDone_mailbox (delay := delay) hcur hen hsleep
  have hoffs : ∀ y ∈ sentFields k b t0 ++ endFields s w k (.mb b) delay (s.f (F.CAN_ERR_tec k) - 1),
      mbWord k b y.1.off ∨ y.1.off = R.CAN_EVENT k ∨ y.1.off = R.CAN_STAT k ∨ y.1.off = R.CAN_ERR k ∨ y.1.off = R.CAN_TDC k := by
    intro y hy
    obtain hy | hy := List.mem_append.1 hy
    · exact (off_of_mem_sentFields hy).imp id .inl
    · exact .inr (.inr (off_of_mem_endFields _ _ _ _ _ _ hy))
  obtain ⟨t, he, ht⟩ := hrun.completes (i := .canTxDone k delay) (fun y hy hmode => by
    have hy := hoffs y hy
    rw [hmode] at hy
    simp only [mbWord, R.SYS_MODE_STAT, R.CAN_MB_CFG, R.CAN_EVENT, R.CAN_STAT, R.CAN_ERR, R.CAN_TDC] at hy
    omega) rfl
  have hd := disjoint_sent_end s w k (.mb b) delay (s.f (F.CAN_ERR_tec k) - 1) b t0
  have hset := ht.sets
  have htec := Sets.f_of_disjoint hd hset (y := F.CAN_ERR_tec k) (v := s.f (F.CAN_ERR_tec k) - 1) (by simp [endFields])
  have hlow : s.f (F.CAN_ERR_tec k) < 256 := Nat.mod_lt _ (by simp [F.CAN_ERR_tec])
  refine ⟨t, he, ?_, ?_, ?_, ?_, ?_, ?_, ht.canSt_eq, ?_, ht.canFrame hoffs⟩
  · exact Sets.on_of_disjoint hd hset (v := 0) (by simp [sentFields]) rfl
  · exact Sets.on_of_disjoint hd hset (v := 1) (by simp [sentFields]) rfl
  · have hwords : ∀ x ∈ pairFields (R.CAN_MB_TS k b) t0, x ∈ sentFields k b t0 ++ endFields s w k (.mb b) delay (s.f (F.CAN_ERR_tec k) - 1) :=
      fun x hx => by simp [sentFields, hx]
    exact Sets.rd64_of_disjoint hd hset hwords
  · exact Sets.on_of_disjoint hd hset (v := 1) (by simp [sentFields]) rfl
  · exact Sets.on_of_disjoint hd hset (v := 0) (by simp [endFields]) rfl
  · exact htec.trans (Nat.mod_eq_of_lt (by simp only [F.CAN_ERR_tec] at hlow ⊢; omega))
  · by_cases hmeas : (s.on (F.CAN_MB_CFG_fdf k b) && s.on (F.CAN_TDC_en k)) = true
    · have hdelay : delayFields s k (.mb b) delay = [(F.CAN_TDC_meas k, delay.toNat)] := if_pos hmeas
      rw [if_pos hmeas, Sets.f_of_disjoint hd hset (y := F.CAN_TDC_meas k) (v := delay.toNat) (by simp [endFields, hdelay])]
      exact Nat.mod_eq_of_lt delay.isLt
    · have hdelay : delayFields s k (.mb b) delay = [] := if_neg hmeas
      rw [if_neg hmeas]
      obtain ⟨v, hv⟩ := errStateFields_sublist w k
      refine f_of_rd_eq (x := F.CAN_TDC_meas k) (hset.rd_of_ne fun y hy => ?_)
      obtain hy | hy := List.mem_append.1 hy
      · obtain ⟨hlo, -⟩ | hev := off_of_mem_sentFields hy
        · simp only [R.CAN_MB_CFG, F.CAN_TDC_meas, R.CAN_TDC] at hlo ⊢
          omega
        · rw [hev]
          simp [F.CAN_TDC_meas, R.CAN_TDC, R.CAN_EVENT]
      · have hy := ((((List.Sublist.refl _).append (List.Sublist.refl _)).append hv).append (List.Sublist.refl _)).subset hy
        simp only [hdelay, List.nil_append, List.mem_append, List.mem_cons, List.not_mem_nil, or_false] at hy
        obtain (rfl | rfl) | rfl := hy <;>
          simp [F.CAN_TDC_meas, F.CAN_ERR_tec, F.CAN_STAT_state, F.CAN_STAT_tx_busy, R.CAN_TDC, R.CAN_ERR, R.CAN_STAT]

/-- A reference frame that has been sent. -/
theorem canTxDone_ref {s : State} {k : Fin 4} {delay : BitVec 8} {q : CanMsg} {t0 : BitVec 64}
    (hcur : (canSt s k).cur = some (.ref q, t0)) (hen : s.on (F.CAN_CTL_en k) = true) (hsleep : (canSt s k).sleepReq = false) :
    Completes (.canTxDone k delay) s fun t => t.hid.nt.sof = some (refSeq q, ntAt s t0) ∧ t.f F.CAN_NT_STAT_seq = refSeq q ∧
      (s.hid.nt.ref = some q → t.hid.nt.ref = none) ∧ (canSt t k).cur = none ∧ t.on (F.CAN_STAT_tx_busy k) = false := by
  have hsent : Sets [(F.CAN_NT_STAT_seq, refSeq q)] { s.hid with nt := { s.hid.nt with
      sof := some (refSeq q, ntAt s t0), ref := if s.hid.nt.ref.map refSeq = some (refSeq q) then none else s.hid.nt.ref } } s
      ((refSent q t0).run s) := by
    unfold refSent
    rw [run_fun, run_seq_cons, run_seq_cons, run_seq_nil]
    exact (Sets.setF _ _ s).then_hidA _
  generalize hu : (refSent q t0).run s = u at hsent
  have hctl : u.on (F.CAN_CTL_en k) = true := (on_of_rd_eq (x := F.CAN_CTL_en k) (hsent.rd_of_ne (by
    simp only [List.mem_singleton, forall_eq, F.CAN_NT_STAT_seq, F.CAN_CTL_en, R.CAN_CTL, R.CAN_NT_STAT]
    omega))).trans hen
  have hcan : canSt u k = canSt s k := by
    unfold canSt
    rw [hsent.hid_eq]
  obtain ⟨w, hend⟩ := setsCan_sentEnd (.ref q) delay (s.f (F.CAN_ERR_tec k) - 1) hctl (hcan ▸ hsleep)
  have hrun : (canTxDone k delay).run s = (sentEnd k (.ref q) delay (s.f (F.CAN_ERR_tec k) - 1)).run u := by
    rw [run_canTxDone hcur, ← hu]
    rfl
  rw [← hrun] at hend
  have hoffs : ∀ y ∈ endFields u w k (.ref q) delay (s.f (F.CAN_ERR_tec k) - 1), y.1.off ≠ R.SYS_MODE_STAT ∧ y.1.off ≠ R.CAN_NT_STAT := by
    intro y hy
    obtain he | he | he := off_of_mem_endFields _ _ _ _ _ _ hy <;> rw [he] <;>
      simp only [R.CAN_STAT, R.CAN_ERR, R.CAN_TDC, R.SYS_MODE_STAT, R.CAN_NT_STAT] <;> omega
  have hmode : ((canTxDone k delay).run s).mode = s.mode :=
    (hend.sets.mode fun y hy => (hoffs y hy).1).trans (hsent.mode (by simp [F.CAN_NT_STAT_seq, R.CAN_NT_STAT, R.SYS_MODE_STAT]))
  have hd : DisjointFields (endFields u w k (.ref q) delay (s.f (F.CAN_ERR_tec k) - 1)) := by
    obtain ⟨v, hv⟩ := endFields_sublist u w k (.ref q) delay (s.f (F.CAN_ERR_tec k) - 1)
    refine DisjointFields.sublist ?_ hv
    simp [DisjointFields, Clear, F.CAN_TDC_meas, F.CAN_ERR_tec, F.CAN_STAT_state, F.CAN_STAT_tx_busy, R.CAN_TDC, R.CAN_ERR, R.CAN_STAT]
  have ht := hend.then_levelsFall
  have hnt : (levelsFall.run ((canTxDone k delay).run s)).hid.nt = u.hid.nt := by
    have hhid := congrArg Hid.nt ht.sets.hid_eq
    exact hhid
  refine ⟨_, finish_same _ _ hmode, ?_, ?_, fun href => ?_, ?_, ?_⟩
  · rw [hnt, hsent.hid_eq]
  · have hseq := hsent.f_of_mem (y := F.CAN_NT_STAT_seq) (List.mem_singleton_self _) (by simp) (by decide) (by decide)
    exact (f_of_rd_eq (x := F.CAN_NT_STAT_seq) (ht.sets.rd_of_ne fun y hy => (hoffs y hy).2)).trans
      (hseq.trans (Nat.mod_eq_of_lt (BitVec.isLt _)))
  · rw [hnt, hsent.hid_eq]
    exact if_pos (by rw [href]; rfl)
  · rw [ht.canSt_eq]
  · exact Sets.on_of_disjoint hd ht.sets (v := 0) (by simp [endFields]) rfl

/-- Settles O50: each command sets the fields of one list, and the choice before a start is the first pending transmission of lowest
rank. -/
theorem canTransmitsByArbitration : Obligations.CanTransmitsByArbitration := by
  unfold Obligations.CanTransmitsByArbitration
  refine ⟨?_, ?_, fun s k delay hen hsleep => ⟨fun b t0 hcur => canTxDone_mailbox hcur hen hsleep, fun q t0 hcur => ?_⟩, ?_⟩
  · intro s p k hi v hl mb
    obtain ⟨t, he, ht⟩ := completes_canTxrq v hl
    refine ⟨t, he, fun i => ?_, ?_, ht.frame fun x hx => ?_⟩
    · rw [pend_of_requestFields ht]
      simp only [mailRequested, List.mem_filter, mb, mailbox_mem_named, Bool.decide_and, decide_eq_true_eq, Bool.decide_eq_true]
    · rw [result_of_requestFields ht, requestCode_eq]
      simp only [exists_mem_named, List.any_eq_true, List.mem_finRange, true_and, Bool.and_eq_true, decide_eq_true_eq, mb]
    · obtain ⟨b, hb, he⟩ | he := mem_requestFields hx
      · obtain ⟨i, rfl, -⟩ := mem_named.1 (List.mem_of_mem_filter hb)
        exact .inr ⟨i, he⟩
      · exact .inl he
  · intro s k hon hact hcur hen hlisten pend rank refs starts waits
    have hmay : MayStart s k := ⟨hon, hact, hcur, hen, hlisten⟩
    have hmode : ∀ x : Fld × Nat, x.1.off = R.CAN_STAT k → x.1.off ≠ R.SYS_MODE_STAT := fun x hx => by
      rw [hx]; simp only [R.CAN_STAT, R.SYS_MODE_STAT]; omega
    refine ⟨fun hnone href => ?_, fun hs => ⟨fun b hb hrank => ?_, fun hk m hm hlow => ?_⟩, fun hs ⟨b, hb⟩ => ?_⟩
    · have hempty : canPending s k = [] := by
        rw [canPending_eq, List.append_eq_nil_iff, List.eq_nil_iff_forall_not_mem, List.eq_nil_iff_forall_not_mem]
        refine ⟨fun y hy => ?_, fun y hy => ?_⟩
        · obtain ⟨c, hc, hcp, -⟩ := mem_mailRivals.1 hy
          exact Bool.false_ne_true ((hnone ⟨c, List.mem_range.1 hc⟩).symm.trans hcp)
        · obtain ⟨m, hm, hk, -⟩ := mem_refRivals.1 hy
          exact Option.some_ne_none m (hm.symm.trans (href hk))
      have hrun : (canTxStart k).run s = s := run_canTxStart_of_none (by rw [hempty]; rfl)
      exact completes_sets (hrun.symm ▸ Sets.refl s) (by simp) rfl
    · exact completes_sets (sets_canTxStart hmay (arbWinner_mailbox hb.1 hb.2 hrank) hs) (by simpa using hmode (F.CAN_STAT_tx_busy k, 1) rfl) rfl
    · exact completes_sets (sets_canTxStart hmay (arbWinner_ref hm hk hlow) hs) (by simpa using hmode (F.CAN_STAT_tx_busy k, 1) rfl) rfl
    · have hrival : (mailRank s k b, CanTx.mb b) ∈ canPending s k := by
        rw [canPending_eq]
        exact List.mem_append_left _ (mem_mailRivals.2 ⟨b, List.mem_range.2 b.isLt, hb, rfl⟩)
      obtain ⟨x, hx⟩ := arbWinner_isSome (List.ne_nil_of_mem hrival)
      exact completes_sets (sets_canTxStart_sleep hmay hx hs)
        (by simpa using ⟨hmode (F.CAN_STAT_tx_busy k, 1) rfl, hmode (F.CAN_STAT_state k, 5) rfl⟩) rfl
  · exact canTxDone_ref hcur hen hsleep
  · intro s p k hi v hl mb code hit
    have hcodes : ∀ i, code i = cancelCode s k (mb i) := fun i => by
      simp only [code, cancelCode, Bool.not_eq_true']
    obtain ⟨t, he, ht⟩ := completes_canCancel v hl
    refine ⟨t, he, fun i => ?_, ?_, ?_, ?_, ht.frame fun x hx => ?_⟩
    · rw [pend_of_cancelFields ht]
      have hmem : decide (mb i ∈ cancelled s k hi v) = (hit i && decide (code i = 0)) := by
        rw [hcodes i, decide_eq_decide.2 mem_cancelled, Bool.decide_and, Bool.decide_and, Bool.decide_eq_true, Bool.decide_eq_true,
          ← Bool.and_assoc]
      rw [hmem]
    · rintro ⟨i, hhit, hcode⟩
      obtain ⟨hbit, hpend⟩ := Bool.and_eq_true_iff.1 hhit
      exact event_of_cancelFields ht (List.ne_nil_of_mem (mem_cancelled.2 ⟨hbit, hpend, (hcodes i).symm.trans hcode⟩))
    · intro i hhit hne hfirst
      obtain ⟨hbit, hpend⟩ := Bool.and_eq_true_iff.1 hhit
      rw [result_of_cancelFields ht, hcodes i]
      refine cancelResult_of_first hbit hpend (hcodes i ▸ hne) fun j hj hjbit hjpend => ?_
      exact (hcodes j).symm.trans (hfirst j hj (Bool.and_eq_true_iff.2 ⟨hjbit, hjpend⟩))
    · intro hnone
      rw [result_of_cancelFields ht]
      exact cancelResult_of_none fun i hbit hpend => (hcodes i).symm.trans (hnone i (Bool.and_eq_true_iff.2 ⟨hbit, hpend⟩))
    · obtain ⟨b, hb, he⟩ | he | he := off_of_mem_cancelFields hx
      · obtain ⟨i, rfl, -⟩ := mem_named.1 hb
        exact .inr (.inr ⟨i, he⟩)
      · exact .inr (.inl he)
      · exact .inl he

end Sys2Proof.Machine
end

section
/-!
What a write of `CAN[k]_CTL` does (R412, R420, R421, R422, R429): the requests in it, what is taken at once, and what waits for the frame
in progress.
-/

namespace Sys2Proof.Machine

/-! ### A word that a field list begins with -/

/-- A single bit of a register is that bit of its word. -/
theorem on_eq_getLsbD {s : State} {x : Fld} (h : x.hi = x.lo) : s.on x = (s.rd x.off).getLsbD x.lo := by
  have hget := Fld.testBit_get x (s.rd x.off) 0
  rw [h, Nat.add_sub_cancel_left, Nat.add_zero] at hget
  rw [State.on, State.f]
  have hlt := x.get_lt (s.rd x.off)
  rw [h, Nat.add_sub_cancel_left] at hlt
  simp only [Nat.testBit_zero, Nat.lt_one_iff, decide_true, Bool.true_and] at hget
  rw [← hget]
  congr 1
  exact propext ⟨fun h => by omega, fun h => by omega⟩

/-- A field of a word that is written first, and not touched after. -/
theorem Sets.f_of_word {m : List (Fld × Nat)} {h : Hid} {s t : State} {y : Fld} {w : Word}
    (ht : Sets ((wordFld y.off, w.toNat) :: m) h s t) (hm : ∀ x ∈ m, x.1.Apart y) : t.f y = y.get w := by
  rw [State.f, ht.rd_eq, fieldWord_cons, get_fieldWord_of_apart hm]
  refine congrArg y.get ((if_pos rfl).trans ?_)
  exact BitVec.eq_of_toNat_eq ((wordFld_get y.off _).symm.trans ((Fld.get_put (wordFld y.off) _ _ (Nat.zero_le _) (Nat.le_refl _)).trans (Nat.mod_eq_of_lt w.isLt)))

theorem Sets.on_of_word {m : List (Fld × Nat)} {h : Hid} {s t : State} {y : Fld} {w : Word}
    (ht : Sets ((wordFld y.off, w.toNat) :: m) h s t) (hm : ∀ x ∈ m, x.1.Apart y) (hy : y.hi = y.lo) : t.on y = w.getLsbD y.lo := by
  have hword := on_eq_getLsbD (s := (Machine.setW y.off w).run s) hy
  rw [run_setW_rd, if_pos rfl] at hword
  rw [← hword, State.on, State.on, Sets.f_of_word ht hm, Sets.f_of_word (Sets.setW y.off w s) (by simp)]

/-! ### The requests in the word -/

section
variable (s : State) (k : Nat) (v : Word)

/-- It asks for listen-only, which CAN0 to CAN2 have not; it asks to enable; to sleep, unless the controller has woken in this tick. -/
def asksListen : Bool := decide (k ≠ 3 ∧ v.toNat / 2 % 4 = 1)
def asksEnable : Bool := v.getLsbD 0 && !s.on (F.CAN_CTL_en k)
def asksSleep : Bool := v.getLsbD 3 && !decide ((canSt s k).wakeT.map (·.toNat / 10) = some (s.now.toNat / 10))

/-- The codes of the enable and its mode, and of the sleep. -/
def enableCode : Nat := if asksListen k v then 1 else if asksEnable s k v ∧ !timingOk s k then 3 else 0
def sleepCode : Nat :=
  if !asksSleep s k v ∨ canState s k = 5 then 0 else if k = 3 then 2 else if v.toNat / 32 % 4 = 2 ∧ v.getLsbD 4 then 4 else 0

/-- The bits `en` and `sleep` as they then read. -/
def enabledBy : Bool := v.getLsbD 0 && (decide (enableCode s k v = 0) || !asksEnable s k v)
def sleepsBy : Bool := asksSleep s k v && decide (sleepCode s k v = 0)

/-- The bits that take the word's values. -/
def ctlMask : Word := if asksListen k v then 0x3F0#32 else 0x3F6#32

/-- The register's new word. -/
def ctlWord : Word := (s.rd (R.CAN_CTL k) &&& ~~~ (ctlMask k v ||| 9#32)) ||| (v &&& (ctlMask k v ||| 0x400#32)) |||
  BitVec.ofNat 32 (b2n (enabledBy s k v) + 8 * b2n (sleepsBy s k v))

/-- What a write takes at once. -/
def ctlActs : List Act := [
  setW (R.CAN_CTL k) (ctlWord s k v),
  setF (F.CAN_STAT_result k) (if enableCode s k v ≠ 0 then enableCode s k v else sleepCode s k v),
  only (asksEnable s k v && enabledBy s k v) (canStart k),
  only (sleepsBy s k v && decide (canState s k ≠ 5)) (canA k fun c => { c with sleepReq := true }),
  only (!v.getLsbD 3) (canA k fun c => { c with sleepReq := false }),
  only (!v.getLsbD 3 && decide (canState s k = 5)) (canWakeUp k),
  only (v.getLsbD 10 && decide (canState s k = 4)) (canA k fun c => { c with recovering := true })]

def ctlTaken : Act := seq (ctlActs s k v)

/-- It finds the bus where it asks to sleep, or ends the enable. -/
def findsBus : Bool := sleepsBy s k v || (!enabledBy s k v && s.on (F.CAN_CTL_en k))

theorem canCtl_eq : canCtl k v s = seq (ctlActs s k v ++ [only (findsBus s k v) (canBusy k), canFrameEnd k]) s := by
  unfold canCtl ctlActs findsBus ctlWord ctlMask sleepsBy enabledBy sleepCode enableCode asksSleep asksEnable asksListen
  rfl

theorem run_canCtl : (canCtl k v).run s =
    (canFrameEnd k).run ((only (findsBus s k v) (canBusy k)).run ((ctlTaken s k v).run s)) := by
  have hseq : (canCtl k v).run s = (seq (ctlActs s k v ++ [only (findsBus s k v) (canBusy k), canFrameEnd k])).run s :=
    congrArg (applyAll · s) (canCtl_eq s k v)
  rw [hseq, run_seq_append, run_seq_cons, run_seq_cons, run_seq_nil]
  rfl

/-! ### What is taken at once -/

/-- The fields after the word: the code, and those of an enable and of a wake. -/
def canCtlFields : List (Fld × Nat) :=
  [(F.CAN_STAT_result k, if enableCode s k v ≠ 0 then enableCode s k v else sleepCode s k v)] ++
    (if asksEnable s k v && enabledBy s k v then
      [(F.CAN_CTL_recover k, 0), (F.CAN_ERR_tec k, 0), (F.CAN_ERR_rec k, 0), (F.CAN_STAT_state k, 1)] else []) ++
    if !v.getLsbD 3 && decide (canState s k = 5) then [(F.CAN_STAT_state k, 1)] else []

/-- What the controller holds once it is started, with `listen` as `mode` then reads. -/
def startedSt (c : CanSt) (nbt dbt : Word) (listen : Bool) : CanSt :=
  { c with nbt := nbt, dbt := dbt, listen := listen, recovering := false, stb := false, rx := false }

/-- What the controller holds then. -/
def takenSt : CanSt :=
  let c := if asksEnable s k v && enabledBy s k v then
    startedSt (canSt s k) (s.rd (R.CAN_NBT k)) (s.rd (R.CAN_DBT k)) (decide (k = 3 ∧ (F.CAN_CTL_mode k).get (ctlWord s k v) = 1)) else canSt s k
  let c := if sleepsBy s k v && decide (canState s k ≠ 5) then { c with sleepReq := true } else c
  let c := if !v.getLsbD 3 then { c with sleepReq := false } else c
  let c := if !v.getLsbD 3 && decide (canState s k = 5) then { c with stb := false, sleepReq := false } else c
  if v.getLsbD 10 && decide (canState s k = 4) then { c with recovering := true } else c

theorem setsCan_canStart (s : State) (k : Nat) : SetsCan
    [(F.CAN_CTL_recover k, 0), (F.CAN_ERR_tec k, 0), (F.CAN_ERR_rec k, 0), (F.CAN_STAT_state k, 1)] k
    (startedSt (canSt s k) (s.rd (R.CAN_NBT k)) (s.rd (R.CAN_DBT k)) (decide (k = 3 ∧ s.f (F.CAN_CTL_mode k) = 1))) s ((canStart k).run s) := by
  unfold canStart
  rw [run_fun]
  simp only [run_seq_cons, run_seq_nil, clrB_eq]
  have hheld := (setsCan_canA k (fun c => startedSt c (s.rd (R.CAN_NBT k)) (s.rd (R.CAN_DBT k)) (decide (k = 3 ∧ s.f (F.CAN_CTL_mode k) = 1))) s)
  exact (((hheld.then_setF _ _).then_setF _ _).then_setF _ _).then_setF _ _

theorem setsCan_canWakeUp (s : State) (k : Nat) : SetsCan [(F.CAN_STAT_state k, 1)] k { canSt s k with stb := false, sleepReq := false } s
    ((canWakeUp k).run s) := by
  unfold canWakeUp
  rw [run_seq_cons, run_seq_cons, run_seq_nil]
  exact ((((Sets.setF (F.CAN_STAT_state k) 1 s).setsCan k)).then_canA fun c => { c with stb := false, sleepReq := false })

theorem setsCan_ctlTaken : SetsCan ((wordFld (R.CAN_CTL k), (ctlWord s k v).toNat) :: canCtlFields s k v) k (takenSt s k v) s
    ((ctlTaken s k v).run s) := by
  unfold ctlTaken ctlActs
  rw [run_seq_cons, run_seq_cons, run_seq_cons, run_seq_cons, run_seq_cons, run_seq_cons, run_seq_cons, run_seq_nil]
  have hcode := ((Sets.setW (R.CAN_CTL k) (ctlWord s k v) s).setsCan k).then_setF (F.CAN_STAT_result k)
    (if enableCode s k v ≠ 0 then enableCode s k v else sleepCode s k v)
  have hmode := Sets.f_of_word (y := F.CAN_CTL_mode k) (w := ctlWord s k v) hcode.sets
    (by simp [Fld.Apart, F.CAN_CTL_mode, F.CAN_STAT_result, R.CAN_CTL, R.CAN_STAT])
  have hnbt := hcode.sets.rd_of_ne (off := R.CAN_NBT k) (by simp [wordFld, F.CAN_STAT_result, R.CAN_CTL, R.CAN_STAT, R.CAN_NBT])
  have hdbt := hcode.sets.rd_of_ne (off := R.CAN_DBT k) (by simp [wordFld, F.CAN_STAT_result, R.CAN_CTL, R.CAN_STAT, R.CAN_DBT])
  have hstart := setsCan_canStart ((setF (F.CAN_STAT_result k)
    (if enableCode s k v ≠ 0 then enableCode s k v else sleepCode s k v)).run ((setW (R.CAN_CTL k) (ctlWord s k v)).run s)) k
  rw [hmode, hnbt, hdbt, hcode.canSt_eq] at hstart
  have hasked := (((hcode.then_only (asksEnable s k v && enabledBy s k v) fun _ => hstart).then_only_canA
    (sleepsBy s k v && decide (canState s k ≠ 5)) fun c => { c with sleepReq := true }).then_only_canA
    (!v.getLsbD 3) fun c => { c with sleepReq := false })
  have hwoken := hasked.then_only (!v.getLsbD 3 && decide (canState s k = 5)) fun _ => setsCan_canWakeUp _ k
  rw [hasked.canSt_eq] at hwoken
  have hall := hwoken.then_only_canA (v.getLsbD 10 && decide (canState s k = 4)) fun c => { c with recovering := true }
  exact hall

end

/-! ### What reads then -/

/-- The register's word as a write leaves it, with fields besides. -/
def ctlAll (s : State) (k : Nat) (v : Word) : List (Fld × Nat) := (wordFld (R.CAN_CTL k), (ctlWord s k v).toNat) :: canCtlFields s k v

theorem off_of_mem_ctlAll {s : State} {k : Nat} {v : Word} {x : Fld × Nat} (hx : x ∈ ctlAll s k v) :
    x.1.off = R.CAN_CTL k ∨ x.1.off = R.CAN_STAT k ∨ x.1.off = R.CAN_ERR k := by
  unfold ctlAll canCtlFields at hx
  simp only [List.mem_cons, List.mem_append, List.not_mem_nil, or_false] at hx
  obtain rfl | (rfl | hx) | hx := hx
  · exact .inl rfl
  · exact .inr (.inl rfl)
  · split at hx
    · simp only [List.mem_cons, List.not_mem_nil, or_false] at hx
      obtain rfl | rfl | rfl | rfl := hx
      · exact .inl rfl
      · exact .inr (.inr rfl)
      · exact .inr (.inr rfl)
      · exact .inr (.inl rfl)
    · exact absurd hx List.not_mem_nil
  · split at hx
    · rw [List.mem_singleton.1 hx]
      exact .inr (.inl rfl)
    · exact absurd hx List.not_mem_nil

/-- The fields besides are `recover`, the code, the state and the counters. -/
theorem fld_of_mem_canCtlFields {s : State} {k : Nat} {v : Word} {x : Fld × Nat} (hx : x ∈ canCtlFields s k v) :
    x = (F.CAN_STAT_result k, if enableCode s k v ≠ 0 then enableCode s k v else sleepCode s k v) ∨ x.1 = F.CAN_STAT_state k ∨
      (asksEnable s k v && enabledBy s k v) = true ∧
        (x = (F.CAN_CTL_recover k, 0) ∨ x = (F.CAN_ERR_tec k, 0) ∨ x = (F.CAN_ERR_rec k, 0)) := by
  unfold canCtlFields at hx
  simp only [List.mem_append, List.mem_singleton] at hx
  obtain (rfl | hx) | hx := hx
  · exact .inl rfl
  · split at hx
    · next hstart =>
      simp only [List.mem_cons, List.not_mem_nil, or_false] at hx
      obtain rfl | rfl | rfl | rfl := hx
      · exact .inr (.inr ⟨hstart, .inl rfl⟩)
      · exact .inr (.inr ⟨hstart, .inr (.inl rfl)⟩)
      · exact .inr (.inr ⟨hstart, .inr (.inr rfl)⟩)
      · exact .inr (.inl rfl)
    · exact absurd hx List.not_mem_nil
  · split at hx
    · rw [List.mem_singleton.1 hx]
      exact .inr (.inl rfl)
    · exact absurd hx List.not_mem_nil

section
variable {s u : State} {k : Nat} {v : Word} {h : Hid} (hu : Sets (ctlAll s k v) h s u)

end

/-! ### The bits of the word -/

theorem getLsbD_flags : ∀ (a b : Bool) (i : Fin 32),
    (BitVec.ofNat 32 (b2n a + 8 * b2n b)).getLsbD i = (decide (i = 0) && a || decide (i = 3) && b) := by decide

section
variable {s : State} {k : Nat} {v : Word}

theorem getLsbD_ctlWord (i : Fin 32) : (ctlWord s k v).getLsbD i =
    ((s.rd (R.CAN_CTL k)).getLsbD i && !(ctlMask k v ||| 9#32).getLsbD i || v.getLsbD i && (ctlMask k v ||| 0x400#32).getLsbD i ||
      (decide (i = 0) && enabledBy s k v || decide (i = 3) && sleepsBy s k v)) := by
  rw [ctlWord, BitVec.getLsbD_or, BitVec.getLsbD_or, BitVec.getLsbD_and, BitVec.getLsbD_and, BitVec.getLsbD_not, getLsbD_flags,
    decide_eq_true i.isLt, Bool.true_and]

theorem getLsbD_ctlWord_en : (ctlWord s k v).getLsbD 0 = enabledBy s k v := by
  have hbit := getLsbD_ctlWord (s := s) (k := k) (v := v) 0
  unfold ctlMask at hbit
  cases hl : asksListen k v <;> simpa [hl] using hbit

theorem getLsbD_ctlWord_sleep : (ctlWord s k v).getLsbD 3 = sleepsBy s k v := by
  have hbit := getLsbD_ctlWord (s := s) (k := k) (v := v) 3
  unfold ctlMask at hbit
  cases hl : asksListen k v <;> simpa [hl] using hbit

theorem getLsbD_ctlWord_stb : (ctlWord s k v).getLsbD 4 = v.getLsbD 4 := by
  have hbit := getLsbD_ctlWord (s := s) (k := k) (v := v) 4
  unfold ctlMask at hbit
  cases hl : asksListen k v <;> simpa [hl] using hbit

theorem getLsbD_ctlWord_recover : (ctlWord s k v).getLsbD 10 = ((s.rd (R.CAN_CTL k)).getLsbD 10 || v.getLsbD 10) := by
  have hbit := getLsbD_ctlWord (s := s) (k := k) (v := v) 10
  unfold ctlMask at hbit
  cases hl : asksListen k v <;> simpa [hl] using hbit

/-- `mode` keeps its value where listen-only is refused, and takes the word's else. -/
theorem mode_get_ctlWord : (F.CAN_CTL_mode k).get (ctlWord s k v) =
    (F.CAN_CTL_mode k).get (if asksListen k v then s.rd (R.CAN_CTL k) else v) := by
  refine Nat.eq_of_testBit_eq fun j => ?_
  rw [Fld.testBit_get, Fld.testBit_get]
  by_cases hj : j < 2
  · have hbit := getLsbD_ctlWord (s := s) (k := k) (v := v) ⟨1 + j, by omega⟩
    unfold ctlMask at hbit
    have hone : j = 0 ∨ j = 1 := by omega
    obtain rfl | rfl := hone <;> cases hl : asksListen k v <;> simpa [hl, F.CAN_CTL_mode] using hbit
  · have hout : ¬ j < (F.CAN_CTL_mode k).hi + 1 - (F.CAN_CTL_mode k).lo := by simpa [F.CAN_CTL_mode] using hj
    rw [decide_eq_false hout, Bool.false_and, Bool.false_and]

end

/-! ### What reads once a write is taken -/

theorem enableCode_le (s : State) (k : Nat) (v : Word) : enableCode s k v ≤ 3 := by
  unfold enableCode
  split
  · decide
  · split <;> decide

theorem sleepCode_le (s : State) (k : Nat) (v : Word) : sleepCode s k v ≤ 4 := by
  unfold sleepCode
  split
  · decide
  · split
    · decide
    · split <;> decide

section
variable {s u : State} {k : Nat} {v : Word} {h : Hid} (hu : Sets (ctlAll s k v) h s u)
include hu

/-- A bit of the register but `recover` is that of the word. -/
theorem ctl_bit_of_taken {y : Fld} (hoff : y.off = R.CAN_CTL k) (hbit : y.hi = y.lo) (hlo : y.lo < 10) :
    u.on y = (ctlWord s k v).getLsbD y.lo := by
  unfold ctlAll at hu
  rw [← hoff] at hu
  refine Sets.on_of_word hu (fun x hx => ?_) hbit
  obtain rfl | he | ⟨-, rfl | rfl | rfl⟩ := fld_of_mem_canCtlFields hx
  · exact .inl (by rw [hoff]; simp [F.CAN_STAT_result, R.CAN_STAT, R.CAN_CTL])
  · exact .inl (by rw [he, hoff]; simp [F.CAN_STAT_state, R.CAN_STAT, R.CAN_CTL])
  · exact .inr ⟨by simp [F.CAN_CTL_recover], by simp [F.CAN_CTL_recover], .inr (by simp [F.CAN_CTL_recover]; omega)⟩
  · exact .inl (by rw [hoff]; simp [F.CAN_ERR_tec, R.CAN_ERR, R.CAN_CTL])
  · exact .inl (by rw [hoff]; simp [F.CAN_ERR_rec, R.CAN_ERR, R.CAN_CTL])

theorem en_of_taken : u.on (F.CAN_CTL_en k) = enabledBy s k v :=
  (ctl_bit_of_taken hu (y := F.CAN_CTL_en k) rfl rfl (by simp [F.CAN_CTL_en])).trans getLsbD_ctlWord_en

/-- Without an enable `recover` is that of the word too. -/
theorem recover_of_quiet (hn : (asksEnable s k v && enabledBy s k v) = false) :
    u.on (F.CAN_CTL_recover k) = (ctlWord s k v).getLsbD 10 := by
  refine Sets.on_of_word (y := F.CAN_CTL_recover k) hu (fun x hx => ?_) rfl
  obtain rfl | he | ⟨hs, -⟩ := fld_of_mem_canCtlFields hx
  · exact .inl (by simp [F.CAN_CTL_recover, F.CAN_STAT_result, R.CAN_STAT, R.CAN_CTL])
  · exact .inl (by rw [he]; simp [F.CAN_CTL_recover, F.CAN_STAT_state, R.CAN_STAT, R.CAN_CTL])
  · exact absurd hs (by simp [hn])

theorem stb_of_taken : u.on (F.CAN_CTL_stb_sleep k) = v.getLsbD 4 :=
  (ctl_bit_of_taken hu (y := F.CAN_CTL_stb_sleep k) rfl rfl (by simp [F.CAN_CTL_stb_sleep])).trans getLsbD_ctlWord_stb

theorem mode_of_taken : u.f (F.CAN_CTL_mode k) = (F.CAN_CTL_mode k).get (if asksListen k v then s.rd (R.CAN_CTL k) else v) := by
  refine (Sets.f_of_word (y := F.CAN_CTL_mode k) hu fun x hx => ?_).trans mode_get_ctlWord
  obtain rfl | he | ⟨-, rfl | rfl | rfl⟩ := fld_of_mem_canCtlFields hx
  · exact .inl (by simp [F.CAN_CTL_mode, F.CAN_STAT_result, R.CAN_STAT, R.CAN_CTL])
  · exact .inl (by rw [he]; simp [F.CAN_CTL_mode, F.CAN_STAT_state, R.CAN_STAT, R.CAN_CTL])
  · exact .inr ⟨by simp [F.CAN_CTL_recover], by simp [F.CAN_CTL_recover], .inr (by simp [F.CAN_CTL_recover, F.CAN_CTL_mode])⟩
  · exact .inl (by simp [F.CAN_CTL_mode, F.CAN_ERR_tec, R.CAN_ERR, R.CAN_CTL])
  · exact .inl (by simp [F.CAN_CTL_mode, F.CAN_ERR_rec, R.CAN_ERR, R.CAN_CTL])

theorem result_of_taken : u.f (F.CAN_STAT_result k) = if enableCode s k v ≠ 0 then enableCode s k v else sleepCode s k v := by
  have hf := hu.f_of_mem (y := F.CAN_STAT_result k) (v := if enableCode s k v ≠ 0 then enableCode s k v else sleepCode s k v)
    (List.mem_cons_of_mem _ (by simp [canCtlFields])) (fun x hx => ?_) (by simp [F.CAN_STAT_result]) (by simp [F.CAN_STAT_result])
  · refine hf.trans (Nat.mod_eq_of_lt ?_)
    have h1 := enableCode_le s k v
    have h2 := sleepCode_le s k v
    simp only [F.CAN_STAT_result]
    split <;> omega
  · obtain rfl | hx := List.mem_cons.1 hx
    · exact .inr (.inl (by simp [wordFld, F.CAN_STAT_result, R.CAN_STAT, R.CAN_CTL]))
    · obtain rfl | he | ⟨-, rfl | rfl | rfl⟩ := fld_of_mem_canCtlFields hx
      · exact .inl rfl
      · rw [he]
        exact .inr (.inr (by simp [F.CAN_STAT_result, F.CAN_STAT_state]))
      · exact .inr (.inl (by simp [F.CAN_STAT_result, F.CAN_CTL_recover, R.CAN_STAT, R.CAN_CTL]))
      · exact .inr (.inl (by simp [F.CAN_STAT_result, F.CAN_ERR_tec, R.CAN_STAT, R.CAN_ERR]))
      · exact .inr (.inl (by simp [F.CAN_STAT_result, F.CAN_ERR_rec, R.CAN_STAT, R.CAN_ERR]))

/-- Without an enable the error counters stay, and so does the state but for a wake. -/
theorem err_of_taken (hn : (asksEnable s k v && enabledBy s k v) = false) : u.rd (R.CAN_ERR k) = s.rd (R.CAN_ERR k) := by
  refine hu.rd_of_ne fun x hx => ?_
  obtain rfl | hx := List.mem_cons.1 hx
  · simp [wordFld, R.CAN_CTL, R.CAN_ERR]
  · obtain rfl | he | ⟨hs, -⟩ := fld_of_mem_canCtlFields hx
    · simp [F.CAN_STAT_result, R.CAN_STAT, R.CAN_ERR]
    · rw [he]
      simp [F.CAN_STAT_state, R.CAN_STAT, R.CAN_ERR]
    · exact absurd hs (by simp [hn])

theorem state_of_taken (hn : (asksEnable s k v && enabledBy s k v) = false) (hw : v.getLsbD 3 = true ∨ canState s k ≠ 5) :
    canState u k = canState s k := by
  have hfields : canCtlFields s k v = [(F.CAN_STAT_result k, if enableCode s k v ≠ 0 then enableCode s k v else sleepCode s k v)] := by
    have hwake : (!v.getLsbD 3 && decide (canState s k = 5)) = false := by
      obtain h | h := hw <;> simp [h]
    rw [canCtlFields, hn, hwake]
    rfl
  refine hu.f_of_apart (y := F.CAN_STAT_state k) ?_
  rw [ctlAll, hfields]
  simp [Fld.Apart, wordFld, F.CAN_STAT_result, F.CAN_STAT_state, R.CAN_CTL, R.CAN_STAT]

/-- With an enable or a wake it integrates. -/
theorem state_of_taken_one (hs : (asksEnable s k v && enabledBy s k v) = true ∨ v.getLsbD 3 = false ∧ canState s k = 5) :
    canState u k = 1 := by
  refine (hu.f_of_mem (y := F.CAN_STAT_state k) (v := 1) ?_ (fun x hx => ?_) (by simp [F.CAN_STAT_state]) (by simp [F.CAN_STAT_state])).trans
    (by simp [F.CAN_STAT_state])
  · unfold ctlAll canCtlFields
    obtain h | ⟨h, h5⟩ := hs
    · simp [h]
    · have hwake : (!v.getLsbD 3 && decide (canState s k = 5)) = true := by rw [h, h5]; rfl
      refine List.mem_cons_of_mem _ (List.mem_append_right _ ?_)
      rw [if_pos hwake]
      exact List.mem_singleton_self _
  · obtain rfl | hx := List.mem_cons.1 hx
    · exact .inr (.inl (by simp [wordFld, F.CAN_STAT_state, R.CAN_STAT, R.CAN_CTL]))
    · unfold canCtlFields at hx
      simp only [List.mem_append, List.mem_singleton] at hx
      obtain (rfl | hx) | hx := hx
      · exact .inr (.inr (by simp [F.CAN_STAT_result, F.CAN_STAT_state]))
      · split at hx
        · simp only [List.mem_cons, List.not_mem_nil, or_false] at hx
          obtain rfl | rfl | rfl | rfl := hx
          · exact .inr (.inl (by simp [F.CAN_STAT_state, F.CAN_CTL_recover, R.CAN_STAT, R.CAN_CTL]))
          · exact .inr (.inl (by simp [F.CAN_STAT_state, F.CAN_ERR_tec, R.CAN_STAT, R.CAN_ERR]))
          · exact .inr (.inl (by simp [F.CAN_STAT_state, F.CAN_ERR_rec, R.CAN_STAT, R.CAN_ERR]))
          · exact .inl rfl
        · exact absurd hx List.not_mem_nil
      · split at hx
        · exact .inl (List.mem_singleton.1 hx)
        · exact absurd hx List.not_mem_nil

end

section
variable {s u : State} {k : Nat} {v : Word} {h : Hid} (hu : Sets (ctlAll s k v) h s u)
  (hs : (asksEnable s k v && enabledBy s k v) = true)
include hu hs

/-- An enable clears the counters and `recover`. -/
theorem err_zero_of_taken {y : Fld} (hy : y = F.CAN_ERR_tec k ∨ y = F.CAN_ERR_rec k) : u.f y = 0 := by
  have hin : y.lo ≤ y.hi ∧ y.hi ≤ 31 := by obtain rfl | rfl := hy <;> simp [F.CAN_ERR_tec, F.CAN_ERR_rec]
  refine (hu.f_of_mem (v := 0) (List.mem_cons_of_mem _ ?_) (fun x hx => ?_) hin.1 hin.2).trans (Nat.zero_mod _)
  · unfold canCtlFields
    rw [if_pos hs]
    obtain rfl | rfl := hy <;> simp
  · obtain rfl | hx := List.mem_cons.1 hx
    · exact .inr (.inl (by obtain rfl | rfl := hy <;> simp [wordFld, F.CAN_ERR_tec, F.CAN_ERR_rec, R.CAN_CTL, R.CAN_ERR]))
    · obtain rfl | he | ⟨-, rfl | rfl | rfl⟩ := fld_of_mem_canCtlFields hx
      · exact .inr (.inl (by obtain rfl | rfl := hy <;> simp [F.CAN_STAT_result, F.CAN_ERR_tec, F.CAN_ERR_rec, R.CAN_STAT, R.CAN_ERR]))
      · rw [he]
        exact .inr (.inl (by obtain rfl | rfl := hy <;> simp [F.CAN_STAT_state, F.CAN_ERR_tec, F.CAN_ERR_rec, R.CAN_STAT, R.CAN_ERR]))
      · exact .inr (.inl (by obtain rfl | rfl := hy <;> simp [F.CAN_CTL_recover, F.CAN_ERR_tec, F.CAN_ERR_rec, R.CAN_CTL, R.CAN_ERR]))
      · obtain rfl | rfl := hy
        · exact .inl rfl
        · exact .inr (.inr (by simp [F.CAN_ERR_tec, F.CAN_ERR_rec]))
      · obtain rfl | rfl := hy
        · exact .inr (.inr (by simp [F.CAN_ERR_tec, F.CAN_ERR_rec]))
        · exact .inl rfl

theorem recover_of_taken : u.on (F.CAN_CTL_recover k) = false := by
  have hget : u.f (F.CAN_CTL_recover k) = 0 := by
    rw [State.f, hu.rd_eq, ctlAll, fieldWord_cons]
    refine (get_fieldWord_of_mem (y := F.CAN_CTL_recover k) (v := 0) (fun x hx => ?_) ?_ (by simp [F.CAN_CTL_recover])
      (by simp [F.CAN_CTL_recover]) _).trans (Nat.zero_mod _)
    · obtain rfl | he | ⟨-, rfl | rfl | rfl⟩ := fld_of_mem_canCtlFields hx
      · exact .inr (.inl (by simp [F.CAN_STAT_result, F.CAN_CTL_recover, R.CAN_STAT, R.CAN_CTL]))
      · rw [he]
        exact .inr (.inl (by simp [F.CAN_STAT_state, F.CAN_CTL_recover, R.CAN_STAT, R.CAN_CTL]))
      · exact .inl rfl
      · exact .inr (.inl (by simp [F.CAN_ERR_tec, F.CAN_CTL_recover, R.CAN_ERR, R.CAN_CTL]))
      · exact .inr (.inl (by simp [F.CAN_ERR_rec, F.CAN_CTL_recover, R.CAN_ERR, R.CAN_CTL]))
    · unfold canCtlFields
      rw [if_pos hs]
      simp
  exact decide_eq_false (by rw [hget]; decide)

end

/-! ### What waits for the frame in progress -/

/-- From `w` to `t` a frame ends: what it was waited for takes effect where none is under way. -/
def EndsFrame (k : Nat) (w t : State) : Prop :=
  ((canSt w k).cur ≠ none ∨ (canSt w k).rx = true → canSt t k = canSt w k ∧ canState t k = canState w k) ∧
  ((canSt w k).cur = none → (canSt w k).rx = false → w.on (F.CAN_CTL_en k) = false → canSt t k = canSt w k ∧ canState t k = 0) ∧
  ((canSt w k).cur = none → (canSt w k).rx = false → w.on (F.CAN_CTL_en k) = true → (canSt w k).sleepReq = true →
    canState w k = 2 ∨ canState w k = 3 →
    canSt t k = { canSt w k with sleepReq := false, stb := w.on (F.CAN_CTL_stb_sleep k) } ∧ canState t k = 5) ∧
  (w.on (F.CAN_CTL_en k) = true → (canSt w k).sleepReq = false → canSt t k = canSt w k ∧ canState t k = canState w k)

theorem state_of_setsCan {k n : Nat} {c : CanSt} {w t : State} (ht : SetsCan [(F.CAN_STAT_state k, n)] k c w t) (hn : n < 8) :
    canState t k = n :=
  (ht.sets.f_of_mem (y := F.CAN_STAT_state k) (List.mem_singleton_self _) (by simp) (by simp [F.CAN_STAT_state])
    (by simp [F.CAN_STAT_state])).trans (Nat.mod_eq_of_lt (by simpa [F.CAN_STAT_state] using hn))

/-- That is what the end of a frame does, with no field but the state. -/
theorem setsCan_canFrameEnd (k : Nat) (w : State) : ∃ m, (∀ x ∈ m, x.1 = F.CAN_STAT_state k) ∧
    SetsCan m k (canSt ((canFrameEnd k).run w) k) w ((canFrameEnd k).run w) ∧ EndsFrame k w ((canFrameEnd k).run w) := by
  have hself : ∀ t, (canFrameEnd k).run w = t → t = w →
      SetsCan [] k (canSt t k) w t ∧ (canSt t k = canSt w k ∧ canState t k = canState w k) := fun t _ he => by
    rw [he]
    exact ⟨(Sets.refl w).setsCan k, rfl, rfl⟩
  by_cases hway : (canSt w k).cur ≠ none ∨ (canSt w k).rx = true
  · obtain ⟨hset, hsame⟩ := hself _ rfl (run_canFrameEnd_of_underway hway)
    refine ⟨[], by simp, hset, fun _ => hsame, fun hc hr _ => ?_, fun hc hr _ _ _ => ?_, fun _ _ => hsame⟩ <;>
      exact absurd hway (by simp [hc, hr])
  · obtain ⟨hcur, hrx⟩ : (canSt w k).cur = none ∧ (canSt w k).rx = false := by simpa using hway
    cases hen : w.on (F.CAN_CTL_en k) with
    | false =>
      have hset := setsCan_canFrameEnd_of_disabled hcur hrx hen
      have hheld := hset.canSt_eq
      refine ⟨_, by simp, hheld.symm ▸ hset, fun h => absurd h hway, fun _ _ _ => ⟨hheld, state_of_setsCan hset (by decide)⟩,
        fun _ _ h => ?_, fun h => ?_⟩ <;> exact absurd (hen.symm.trans h) (by decide)
    | true =>
      by_cases hsleep : (canSt w k).sleepReq = true ∧ (canState w k = 2 ∨ canState w k = 3)
      · have hset := setsCan_canFrameEnd_of_asleep hcur hrx hen hsleep.1 hsleep.2
        have hheld := hset.canSt_eq
        refine ⟨_, by simp, hheld.symm ▸ hset, fun h => absurd h hway, fun _ _ h => absurd (hen.symm.trans h) (by decide),
          fun _ _ _ _ _ => ⟨hheld, state_of_setsCan hset (by decide)⟩, fun _ h => absurd (hsleep.1.symm.trans h) (by decide)⟩
      · have hrun : (canFrameEnd k).run w = w := by
          unfold Act.run canFrameEnd
          rw [if_neg (by simp [hcur, hrx]), if_neg (by simp [hen]), if_neg hsleep]
          rfl
        obtain ⟨hset, hsame⟩ := hself _ rfl hrun
        exact ⟨[], by simp, hset, fun _ => hsame, fun _ _ h => absurd (hen.symm.trans h) (by decide),
          fun _ _ _ h1 h2 => absurd ⟨h1, h2⟩ hsleep, fun _ _ => hsame⟩

theorem canSt_levelsFall (t : State) (k : Nat) : canSt (levelsFall.run t) k = canSt t k := by
  unfold canSt
  rw [run_levelsFall_hid]

theorem canState_levelsFall (t : State) (k : Nat) : canState (levelsFall.run t) k = canState t k := by
  unfold canState State.f
  rw [run_levelsFall_rd]

/-- A write that reaches `CAN[k]_CTL` takes what it takes at once, may find the bus busy, and then ends the frame. -/
theorem completes_canCtl {i : Instr} {p : Port} {s : State} {k : Nat} {v : Word} {P : State → Prop}
    (hl : Live p s (R.CAN_CTL k) = true) (he : exec i s = finish (portGate p (R.CAN_CTL k) (canCtl k v)) s)
    (hP : ∀ u w t b m, SetsCan (ctlAll s k v) k (takenSt s k v) s u →
      SetsCan [] k (if findsBus s k v = true ∧ canActive u k = true ∧ (canSt u k).cur = none then { canSt u k with rx := b } else canSt u k) u w →
      SetsCan m k (canSt t k) w t → (∀ x ∈ m, x.1 = F.CAN_STAT_state k) → EndsFrame k w t → P t) : Completes i s P := by
  have hu := setsCan_ctlTaken s k v
  have hw : ∃ b, SetsCan [] k (if findsBus s k v = true ∧ canActive ((ctlTaken s k v).run s) k = true ∧
      (canSt ((ctlTaken s k v).run s) k).cur = none then { canSt ((ctlTaken s k v).run s) k with rx := b } else canSt ((ctlTaken s k v).run s) k)
      ((ctlTaken s k v).run s) ((only (findsBus s k v) (canBusy k)).run ((ctlTaken s k v).run s)) := by
    rw [run_only]
    cases findsBus s k v with
    | false => exact ⟨false, by simpa using (Sets.refl _).setsCan k⟩
    | true => simpa using setsCan_canBusy k ((ctlTaken s k v).run s)
  obtain ⟨b, hw⟩ := hw
  obtain ⟨m, hm, ht, hends⟩ := setsCan_canFrameEnd k ((only (findsBus s k v) (canBusy k)).run ((ctlTaken s k v).run s))
  rw [← run_canCtl] at ht hends
  have hall := (hu.trans hw).trans ht
  have hgate := portGate_of_live p (R.CAN_CTL k) (canCtl k v) s hl
  refine ⟨levelsFall.run ((canCtl k v).run s), ?_, hP _ _ _ b m hu hw ?_ hm ?_⟩
  · rw [he, finish_same _ _ (by
      rw [hgate]
      refine hall.sets.mode fun x hx hmode => ?_
      have hoff : x.1.off = R.CAN_CTL k ∨ x.1.off = R.CAN_STAT k ∨ x.1.off = R.CAN_ERR k := by
        obtain hx | hx := List.mem_append.1 hx
        · exact off_of_mem_ctlAll (by simpa [ctlAll] using hx)
        · exact .inr (.inl (by rw [hm x hx]; rfl))
      rw [hmode] at hoff
      simp only [R.SYS_MODE_STAT, R.CAN_CTL, R.CAN_STAT, R.CAN_ERR] at hoff
      omega), hgate]
  · rw [canSt_levelsFall]
    exact ht.then_levelsFall
  · unfold EndsFrame
    rw [canSt_levelsFall, canState_levelsFall]
    exact hends

/-! ### The statement's clauses on control -/

section
variable {s u w t : State} {k : Nat} {v : Word} {b : Bool} {c : CanSt} {m : List (Fld × Nat)}
  (hu : SetsCan (ctlAll s k v) k (takenSt s k v) s u)
  (hw : SetsCan [] k (if findsBus s k v = true ∧ canActive u k = true ∧ (canSt u k).cur = none then { canSt u k with rx := b } else canSt u k) u w)
  (ht : SetsCan m k c w t) (hm : ∀ x ∈ m, x.1 = F.CAN_STAT_state k)
include hw ht hm

/-- A field beside the state reads at the end what it read once the write was taken. -/
theorem rd_of_ends {off : Nat} (hoff : off ≠ R.CAN_STAT k) : t.rd off = u.rd off :=
  (ht.sets.rd_of_ne fun x hx => by rw [hm x hx]; exact fun h => hoff h.symm).trans (hw.sets.rd_of_ne (by simp))

theorem f_of_ends {y : Fld} (hy : (F.CAN_STAT_state k).Apart y) : t.f y = u.f y :=
  (ht.sets.f_of_apart fun x hx => by rw [hm x hx]; exact hy).trans (hw.sets.f_of_apart (by simp))

include hu

theorem canFrame_of_ends : CanFrame k (fun off => off = R.CAN_CTL k ∨ off = R.CAN_STAT k ∨ off = R.CAN_ERR k) s t := by
  refine ((hu.trans hw).trans ht).canFrame fun x hx => ?_
  obtain hx | hx := List.mem_append.1 hx
  · exact off_of_mem_ctlAll (by simpa using hx)
  · exact .inr (.inl (by rw [hm x hx]; rfl))

theorem result_of_ends : t.f (F.CAN_STAT_result k) = if enableCode s k v ≠ 0 then enableCode s k v else sleepCode s k v :=
  (f_of_ends hw ht hm (.inr (by simp [F.CAN_STAT_state, F.CAN_STAT_result]))).trans (result_of_taken hu.sets)

theorem en_of_ends : t.on (F.CAN_CTL_en k) = enabledBy s k v := by
  rw [← en_of_taken hu.sets]
  exact on_of_rd_eq (rd_of_ends hw ht hm (by simp [F.CAN_CTL_en, R.CAN_CTL, R.CAN_STAT]))

end

end Sys2Proof.Machine
end

section
/-!
The clauses of the statement on control (R412, R420, R421, R422, R429): enable, disable, request to sleep, recovery from bus-off, and the
wake by a write.
-/

namespace Sys2Proof.Machine

/-! ### The word of a request -/

theorem mode_bits_congr {v w : Word} (h1 : v.getLsbD 1 = w.getLsbD 1) (h2 : v.getLsbD 2 = w.getLsbD 2) :
    v.toNat / 2 % 4 = w.toNat / 2 % 4 := by
  have hget : ∀ x : Word, x.toNat / 2 % 4 = (F.CAN_CTL_mode 0).get x := fun x => rfl
  rw [hget, hget]
  refine Nat.eq_of_testBit_eq fun j => ?_
  rw [Fld.testBit_get, Fld.testBit_get]
  by_cases hj : j < 2
  · have hone : j = 0 ∨ j = 1 := by omega
    obtain rfl | rfl := hone
    · exact congrArg _ h1
    · exact congrArg _ h2
  · have hout : ¬ j < (F.CAN_CTL_mode 0).hi + 1 - (F.CAN_CTL_mode 0).lo := hj
    rw [decide_eq_false hout, Bool.false_and, Bool.false_and]

theorem asksListen_congr {k : Nat} {v w : Word} (h1 : v.getLsbD 1 = w.getLsbD 1) (h2 : v.getLsbD 2 = w.getLsbD 2) :
    asksListen k v = asksListen k w := by
  unfold asksListen
  rw [mode_bits_congr h1 h2]

section
variable {s : State} {k : Nat} {v : Word}

/-- Where `sleep` is not written the controller is not asked to sleep, and only a controller that sleeps wakes. -/
theorem sleepsBy_of_low (h3 : v.getLsbD 3 = false) : sleepsBy s k v = false := by
  unfold sleepsBy asksSleep
  rw [h3]
  rfl

theorem sleepCode_of_low (h3 : v.getLsbD 3 = false) : sleepCode s k v = 0 := by
  unfold sleepCode asksSleep
  rw [h3]
  exact if_pos (.inl rfl)

/-- An enable that is refused. -/
theorem enabledBy_of_refused (hask : asksEnable s k v = true) (hcode : enableCode s k v ≠ 0) : enabledBy s k v = false := by
  unfold enabledBy
  rw [hask, decide_eq_false hcode]
  simp

/-- A controller that is enabled stays so where `en` is written 1. -/
theorem enabledBy_of_enabled (h0 : v.getLsbD 0 = true) (hen : s.on (F.CAN_CTL_en k) = true) :
    enabledBy s k v = true ∧ asksEnable s k v = false := by
  unfold enabledBy asksEnable
  rw [h0, hen]
  simp

/-- What a controller holds that is neither started, nor asked to sleep, nor asleep, nor off the bus. -/
theorem takenSt_of_low (hstart : (asksEnable s k v && enabledBy s k v) = false) (h3 : v.getLsbD 3 = false) (h5 : canState s k ≠ 5)
    (h4 : v.getLsbD 10 = false ∨ canState s k ≠ 4) : takenSt s k v = { canSt s k with sleepReq := false } := by
  have hrec : (v.getLsbD 10 && decide (canState s k = 4)) = false := by
    obtain h | h := h4
    · rw [h, Bool.false_and]
    · rw [decide_eq_false h, Bool.and_false]
  unfold takenSt
  rw [hstart, sleepsBy_of_low h3, h3, hrec, decide_eq_false h5]
  rfl

end

/-! ### Enable -/

section
variable {s u w t : State} {k : Nat} {v : Word} {b : Bool} {m : List (Fld × Nat)}
  (hu : SetsCan (ctlAll s k v) k (takenSt s k v) s u)
  (hw : SetsCan [] k (if findsBus s k v = true ∧ canActive u k = true ∧ (canSt u k).cur = none then { canSt u k with rx := b } else canSt u k) u w)
  (ht : SetsCan m k (canSt t k) w t) (hm : ∀ x ∈ m, x.1 = F.CAN_STAT_state k) (hends : EndsFrame k w t)
  (h0 : v.getLsbD 0 = true) (hen : s.on (F.CAN_CTL_en k) = false) (h3 : v.getLsbD 3 = false)
  (hst : canState s k = 0)
include hu hw ht hm hends h0 hen h3 hst

theorem enable_refused (hcur : (canSt s k).cur = none) (hcode : enableCode s k v ≠ 0) :
    t.f (F.CAN_STAT_result k) = enableCode s k v ∧ t.on (F.CAN_CTL_en k) = false ∧ canState t k = 0 := by
  have hask : asksEnable s k v = true := by
    unfold asksEnable
    rw [h0, hen]
    rfl
  have hnot := enabledBy_of_refused hask hcode
  have hstart : (asksEnable s k v && enabledBy s k v) = false := by rw [hnot, Bool.and_false]
  refine ⟨(result_of_ends hu hw ht hm).trans (if_pos hcode), (en_of_ends hu hw ht hm).trans hnot, ?_⟩
  have hbus : findsBus s k v = false := by
    unfold findsBus
    rw [sleepsBy_of_low h3, hen, Bool.and_false]
    rfl
  have hheld : canSt w k = { canSt s k with sleepReq := false } := by
    rw [hw.canSt_eq, hbus, if_neg (by simp), hu.canSt_eq, takenSt_of_low hstart h3 (by omega) (.inr (by omega))]
  have hstate : canState w k = 0 := by
    have hsame : canState w k = canState u k := hw.sets.f_of_apart (y := F.CAN_STAT_state k) (by simp)
    rw [hsame, state_of_taken hu.sets hstart (.inr (by omega)), hst]
  obtain ⟨hway, hoff, -, -⟩ := hends
  cases hrx : (canSt w k).rx with
  | true => exact (hway (.inr hrx)).2.trans hstate
  | false => 
    refine (hoff (by rw [hheld]; exact hcur) hrx ?_).2
    have henw : w.on (F.CAN_CTL_en k) = u.on (F.CAN_CTL_en k) := hw.sets.on_of_apart (by simp)
    rw [henw, en_of_taken hu.sets, hnot]

theorem enable_accepted (hcode : enableCode s k v = 0) : t.f (F.CAN_STAT_result k) = 0 ∧ t.on (F.CAN_CTL_en k) = true ∧ canState t k = 1 ∧
    t.f (F.CAN_ERR_tec k) = 0 ∧ t.f (F.CAN_ERR_rec k) = 0 ∧ (canSt t k).nbt = s.rd (R.CAN_NBT k) ∧ (canSt t k).dbt = s.rd (R.CAN_DBT k) ∧
    (canSt t k).listen = decide (k = 3 ∧ v.toNat / 2 % 4 = 1) ∧ (canSt t k).fifo = (canSt s k).fifo ∧ t.on (F.CAN_CTL_recover k) = false := by
  have hask : asksEnable s k v = true := by
    unfold asksEnable
    rw [h0, hen]
    rfl
  have hby : enabledBy s k v = true := by
    unfold enabledBy
    rw [h0, decide_eq_true hcode]
    rfl
  have hstart : (asksEnable s k v && enabledBy s k v) = true := by rw [hask, hby]; rfl
  have hlisten : asksListen k v = false := by
    unfold enableCode at hcode
    cases h : asksListen k v with
    | false => rfl
    | true => rw [h] at hcode; exact absurd hcode (by simp)
  have hbus : findsBus s k v = false := by
    unfold findsBus
    rw [sleepsBy_of_low h3, hby]
    rfl
  have hheld : canSt w k = { startedSt (canSt s k) (s.rd (R.CAN_NBT k)) (s.rd (R.CAN_DBT k))
      (decide (k = 3 ∧ (F.CAN_CTL_mode k).get (ctlWord s k v) = 1)) with sleepReq := false } := by
    rw [hw.canSt_eq, hbus, if_neg (by simp), hu.canSt_eq, takenSt, hstart, sleepsBy_of_low h3, h3, hst]
    simp
  obtain ⟨-, -, -, hawake⟩ := hends
  have henw : w.on (F.CAN_CTL_en k) = u.on (F.CAN_CTL_en k) := hw.sets.on_of_apart (by simp)
  obtain ⟨hst', hstate⟩ := hawake (by rw [henw, en_of_taken hu.sets, hby]) (by rw [hheld])
  have hsame : canState w k = canState u k := hw.sets.f_of_apart (y := F.CAN_STAT_state k) (by simp)
  have herr := fun y (hy : y = F.CAN_ERR_tec k ∨ y = F.CAN_ERR_rec k) => err_zero_of_taken hu.sets hstart hy
  rw [hst', hheld]
  refine ⟨(result_of_ends hu hw ht hm).trans ?_, (en_of_ends hu hw ht hm).trans hby, ?_, ?_, ?_, rfl, rfl, ?_, rfl, ?_⟩
  · rw [hcode, sleepCode_of_low h3]
    rfl
  · rw [hstate, hsame, state_of_taken_one hu.sets (.inl hstart)]
  · exact (f_of_ends hw ht hm (.inl (by simp [F.CAN_STAT_state, F.CAN_ERR_tec, R.CAN_STAT, R.CAN_ERR]))).trans (herr _ (.inl rfl))
  · exact (f_of_ends hw ht hm (.inl (by simp [F.CAN_STAT_state, F.CAN_ERR_rec, R.CAN_STAT, R.CAN_ERR]))).trans (herr _ (.inr rfl))
  · show decide (k = 3 ∧ (F.CAN_CTL_mode k).get (ctlWord s k v) = 1) = _
    rw [mode_get_ctlWord, hlisten]
    rfl
  · exact (on_of_rd_eq (x := F.CAN_CTL_recover k) (rd_of_ends hw ht hm (by simp [F.CAN_CTL_recover, R.CAN_CTL, R.CAN_STAT]))).trans
      (recover_of_taken hu.sets hstart)

end

/-! ### Disable, sleep, recovery, wake -/

/-- What a write that starts nothing leaves of what the controller holds. -/
theorem takenSt_keeps {s : State} {k : Nat} {v : Word} (hstart : (asksEnable s k v && enabledBy s k v) = false) :
    (takenSt s k v).cur = (canSt s k).cur ∧ (takenSt s k v).rx = (canSt s k).rx ∧ (takenSt s k v).fifo = (canSt s k).fifo := by
  unfold takenSt
  rw [hstart]
  cases sleepsBy s k v && decide (canState s k ≠ 5) <;> cases !v.getLsbD 3 <;> cases decide (canState s k = 5) <;>
    cases v.getLsbD 10 && decide (canState s k = 4) <;> exact ⟨rfl, rfl, rfl⟩

section
variable {s u w t : State} {k : Nat} {v : Word} {b : Bool} {m : List (Fld × Nat)}
  (hu : SetsCan (ctlAll s k v) k (takenSt s k v) s u)
  (hw : SetsCan [] k (if findsBus s k v = true ∧ canActive u k = true ∧ (canSt u k).cur = none then { canSt u k with rx := b } else canSt u k) u w)
  (ht : SetsCan m k (canSt t k) w t) (hm : ∀ x ∈ m, x.1 = F.CAN_STAT_state k) (hends : EndsFrame k w t)
include hu hw

/-- The bus that a write finds changes only whether a frame is being received, and that only where none is sent. -/
theorem found_cases : canSt w k = takenSt s k v ∨
    (findsBus s k v = true ∧ canActive u k = true ∧ (takenSt s k v).cur = none) ∧ canSt w k = { takenSt s k v with rx := b } := by
  have hheld := hw.canSt_eq
  rw [hu.canSt_eq] at hheld
  split at hheld
  · next h => exact .inr ⟨h, hheld⟩
  · exact .inl hheld

theorem en_of_found : w.on (F.CAN_CTL_en k) = enabledBy s k v :=
  (hw.sets.on_of_apart (y := F.CAN_CTL_en k) (by simp)).trans (en_of_taken hu.sets)

theorem state_of_found (hstart : (asksEnable s k v && enabledBy s k v) = false) (hwake : v.getLsbD 3 = true ∨ canState s k ≠ 5) :
    canState w k = canState s k :=
  (hw.sets.f_of_apart (y := F.CAN_STAT_state k) (by simp)).trans (state_of_taken hu.sets hstart hwake)

include ht hm hends

theorem disabled (h0 : v.getLsbD 0 = false) (h3 : v.getLsbD 3 = false) (h5 : canState s k ≠ 5) : t.on (F.CAN_CTL_en k) = false ∧
    ((canSt s k).cur = none → (canSt s k).rx = false → (canActive s k = false ∨ s.on (F.CAN_CTL_en k) = false) → canState t k = 0) ∧
    ((canSt s k).cur = none → canState t k = 0 ∧ (canSt t k).rx = false ∨ canState t k = canState s k ∧ (canSt t k).rx = true) ∧
    ((canSt s k).cur ≠ none → canState t k = canState s k) ∧ (canSt t k).fifo = (canSt s k).fifo ∧
    t.rd (R.CAN_ERR k) = s.rd (R.CAN_ERR k) := by
  have hoff : enabledBy s k v = false := by
    unfold enabledBy
    rw [h0]
    rfl
  have hstart : (asksEnable s k v && enabledBy s k v) = false := by rw [hoff, Bool.and_false]
  obtain ⟨kcur, krx, kfifo⟩ := takenSt_keeps hstart
  have hcurw : (canSt w k).cur = (canSt s k).cur ∧ (canSt w k).fifo = (canSt s k).fifo := by
    obtain hh | ⟨-, hh⟩ := found_cases hu hw <;> rw [hh] <;> exact ⟨kcur, kfifo⟩
  have hstate := state_of_found hu hw hstart (.inr h5)
  have hen := (en_of_found hu hw).trans hoff
  obtain ⟨hway, hidle, -, -⟩ := hends
  have hsame : canSt t k = canSt w k := by
    by_cases h : (canSt w k).cur ≠ none ∨ (canSt w k).rx = true
    · exact (hway h).1
    · obtain ⟨hc, hr⟩ : (canSt w k).cur = none ∧ (canSt w k).rx = false := by simpa using h
      exact (hidle hc hr hen).1
  refine ⟨(en_of_ends hu hw ht hm).trans hoff, fun hc hr hact => ?_, fun hc => ?_, fun hc => ?_, ?_, ?_⟩
  · refine (hidle (hcurw.1.trans hc) ?_ hen).2
    obtain hh | ⟨⟨hbus, hactive, -⟩, -⟩ := found_cases hu hw
    · rw [hh, krx, hr]
    · exfalso
      have hup : canActive u k = canActive s k := by
        unfold canActive
        rw [hu.sets.up rfl, state_of_taken hu.sets hstart (.inr h5)]
      obtain h | h := hact
      · exact absurd (hup.symm.trans hactive) (by simp [h])
      · unfold findsBus at hbus
        rw [sleepsBy_of_low h3, h] at hbus
        simp at hbus
  · cases hr : (canSt w k).rx with
    | true => exact .inr ⟨(hway (.inr hr)).2.trans hstate, by rw [hsame, hr]⟩
    | false => exact .inl ⟨(hidle (hcurw.1.trans hc) hr hen).2, by rw [hsame, hr]⟩
  · exact (hway (.inl (by rw [hcurw.1]; exact hc))).2.trans hstate
  · rw [hsame]
    exact hcurw.2
  · exact (rd_of_ends hw ht hm (by simp [R.CAN_ERR, R.CAN_STAT])).trans (err_of_taken hu.sets hstart)

section
variable (h0 : v.getLsbD 0 = true) (hen : s.on (F.CAN_CTL_en k) = true) (h3 : v.getLsbD 3 = true) (hlisten : asksListen k v = false)
  (hst : canState s k = 2 ∨ canState s k = 3)
include h0 hen h3 hlisten hst

theorem sleep_refused (hcode : sleepCode s k v ≠ 0) : t.f (F.CAN_STAT_result k) = sleepCode s k v ∧
    ((canSt s k).sleepReq = false → canState t k = canState s k) := by
  obtain ⟨hby, hask⟩ := enabledBy_of_enabled h0 hen
  have hstart : (asksEnable s k v && enabledBy s k v) = false := by rw [hask, Bool.false_and]
  have hcode0 : enableCode s k v = 0 := by
    unfold enableCode
    rw [hlisten, hask]
    simp
  have hnot : sleepsBy s k v = false := by
    unfold sleepsBy
    rw [decide_eq_false hcode, Bool.and_false]
  refine ⟨(result_of_ends hu hw ht hm).trans (by rw [hcode0]; rfl), fun hreq => ?_⟩
  have hbus : findsBus s k v = false := by
    unfold findsBus
    rw [hnot, hby]
    rfl
  have hheld : canSt w k = canSt s k := by
    obtain hh | ⟨⟨h, -⟩, -⟩ := found_cases hu hw
    · have h4 : canState s k ≠ 4 := by omega
      rw [hh, takenSt, hstart, hnot, h3, decide_eq_false h4, Bool.and_false]
      rfl
    · exact absurd h (by simp [hbus])
  obtain ⟨-, -, -, hawake⟩ := hends
  exact (hawake ((en_of_found hu hw).trans hby) (by rw [hheld]; exact hreq)).2.trans (state_of_found hu hw hstart (.inl h3))

theorem sleep_accepted (hcode : sleepCode s k v = 0) (hask : asksSleep s k v = true) (hup : s.up = true) : t.f (F.CAN_STAT_result k) = 0 ∧
    ((canSt s k).cur = none → canState t k = 5 ∧ (canSt t k).stb = v.getLsbD 4 ∧ (canSt t k).rx = false ∨
      canState t k = canState s k ∧ (canSt t k).sleepReq = true ∧ (canSt t k).rx = true) ∧
    ((canSt s k).cur ≠ none → canState t k = canState s k ∧ (canSt t k).sleepReq = true) := by
  obtain ⟨hby, haskEn⟩ := enabledBy_of_enabled h0 hen
  have hstart : (asksEnable s k v && enabledBy s k v) = false := by rw [haskEn, Bool.false_and]
  have hcode0 : enableCode s k v = 0 := by
    unfold enableCode
    rw [hlisten, haskEn]
    simp
  have hsleeps : sleepsBy s k v = true := by
    unfold sleepsBy
    rw [hask, decide_eq_true hcode]
    rfl
  have h4 : canState s k ≠ 4 := by omega
  have h5 : canState s k ≠ 5 := by omega
  have htaken : takenSt s k v = { canSt s k with sleepReq := true } := by
    rw [takenSt, hstart, hsleeps, h3, decide_eq_false h4, decide_eq_true h5, Bool.and_false]
    rfl
  have hact : canActive u k = true := by
    unfold canActive
    rw [hu.sets.up rfl, state_of_taken hu.sets hstart (.inl h3)]
    simp [hup, hst]
  have hstate := state_of_found hu hw hstart (.inl h3)
  have hbus : findsBus s k v = true := by
    unfold findsBus
    rw [hsleeps]
    rfl
  have hheld := hw.canSt_eq
  rw [hu.canSt_eq, htaken] at hheld
  obtain ⟨hway, -, hsleep, -⟩ := hends
  refine ⟨(result_of_ends hu hw ht hm).trans (by rw [hcode0]; exact hcode), fun hc => ?_, fun hc => ?_⟩
  · rw [if_pos ⟨hbus, hact, hc⟩] at hheld
    cases b with
    | true =>
      obtain ⟨hsame, hst'⟩ := hway (.inr (by rw [hheld]))
      exact .inr ⟨hst'.trans hstate, by rw [hsame, hheld], by rw [hsame, hheld]⟩
    | false =>
      obtain ⟨hsame, hst'⟩ := hsleep (by rw [hheld]; exact hc) (by rw [hheld]) ((en_of_found hu hw).trans hby) (by rw [hheld])
        (by rw [hstate]; exact hst)
      have hstb : w.on (F.CAN_CTL_stb_sleep k) = v.getLsbD 4 :=
        (hw.sets.on_of_apart (y := F.CAN_CTL_stb_sleep k) (by simp)).trans (stb_of_taken hu.sets)
      exact .inl ⟨hst', by rw [hsame]; exact hstb, by rw [hsame, hheld]⟩
  · rw [if_neg fun h => hc h.2.2] at hheld
    obtain ⟨hsame, hst'⟩ := hway (.inl (by rw [hheld]; exact hc))
    exact ⟨hst'.trans hstate, by rw [hsame, hheld]⟩

end

section
variable (h0 : v.getLsbD 0 = true) (hen : s.on (F.CAN_CTL_en k) = true) (h3 : v.getLsbD 3 = false)
include h0 hen h3

omit ht hm in
/-- An enabled controller for which `sleep` is not written takes what it takes, and no frame holds it. -/
theorem taken_of_awake : canSt t k = takenSt s k v ∧ canState t k = canState u k := by
  obtain ⟨hby, -⟩ := enabledBy_of_enabled h0 hen
  have hbus : findsBus s k v = false := by
    unfold findsBus
    rw [sleepsBy_of_low h3, hby]
    rfl
  have hheld : canSt w k = takenSt s k v := by
    obtain hh | ⟨⟨h, -⟩, -⟩ := found_cases hu hw
    · exact hh
    · exact absurd h (by simp [hbus])
  have hreq : (takenSt s k v).sleepReq = false := by
    unfold takenSt
    rw [h3]
    cases decide (canState s k = 5) <;> cases v.getLsbD 10 && decide (canState s k = 4) <;> rfl
  obtain ⟨-, -, -, hawake⟩ := hends
  obtain ⟨hsame, hst'⟩ := hawake ((en_of_found hu hw).trans hby) (by rw [hheld, hreq])
  exact ⟨hsame.trans hheld, hst'.trans (hw.sets.f_of_apart (y := F.CAN_STAT_state k) (by simp))⟩

theorem recovery_begun (h10 : v.getLsbD 10 = true) (hst : canState s k = 4) :
    (canSt t k).recovering = true ∧ canState t k = 4 ∧ t.on (F.CAN_CTL_recover k) = true := by
  obtain ⟨hheld, hstate⟩ := taken_of_awake hu hw hends h0 hen h3
  obtain ⟨-, hask⟩ := enabledBy_of_enabled (s := s) (k := k) h0 hen
  have hstart : (asksEnable s k v && enabledBy s k v) = false := by rw [hask, Bool.false_and]
  refine ⟨?_, ?_, ?_⟩
  · rw [hheld, takenSt, h10, hst]
    rfl
  · rw [hstate, state_of_taken hu.sets hstart (.inr (by omega)), hst]
  · rw [on_of_rd_eq (x := F.CAN_CTL_recover k) (rd_of_ends hw ht hm (by simp [F.CAN_CTL_recover, R.CAN_CTL, R.CAN_STAT])),
      recover_of_quiet hu.sets hstart, getLsbD_ctlWord_recover, h10, Bool.or_true]

theorem woken (hst : canState s k = 5) : canState t k = 1 ∧ (canSt t k).stb = false ∧ t.on (bitFld (R.CAN_CTL k) 3) = false := by
  obtain ⟨hheld, hstate⟩ := taken_of_awake hu hw hends h0 hen h3
  have h4 : canState s k ≠ 4 := by omega
  refine ⟨?_, ?_, ?_⟩
  · rw [hstate, state_of_taken_one hu.sets (.inr ⟨h3, hst⟩)]
  · rw [hheld, takenSt, h3, hst]
    simp
  · rw [on_of_rd_eq (x := bitFld (R.CAN_CTL k) 3) (rd_of_ends hw ht hm (by simp [bitFld, R.CAN_CTL, R.CAN_STAT])),
      ctl_bit_of_taken hu.sets (y := bitFld (R.CAN_CTL k) 3) rfl rfl (by simp [bitFld])]
    exact getLsbD_ctlWord_sleep.trans (sleepsBy_of_low h3)

end

end

end Sys2Proof.Machine
end

section
/-!
The statement on control, errors and wake (R411, R412, R419 to R423, R429): what an error counts and shows, the recoveries, and the wakes.
-/

namespace Sys2Proof.Machine

theorem canActive_iff {s : State} {k : Nat} : canActive s k = true ↔ s.up = true ∧ (canState s k = 2 ∨ canState s k = 3) := by
  unfold canActive
  simp

/-! ### What an error counts -/

/-- TEC after an error in a frame that the controller sends, REC after one in a frame that it receives. -/
def errTec (s : State) (k : Nat) (e : CanFault) (data : Bool) (told : Nat) : Nat :=
  if (canSt s k).cur.isSome then tecNext (s.f (F.CAN_ERR_tec k)) (canState s k = 3) e data told else s.f (F.CAN_ERR_tec k)
def errRec (s : State) (k : Nat) (e : CanFault) (told : Nat) : Nat :=
  if (canSt s k).cur.isSome then s.f (F.CAN_ERR_rec k) else recNext (s.f (F.CAN_ERR_rec k)) e told

theorem tecNext_spec (t : Nat) (p : Bool) (e : CanFault) (data : Bool) (told : Nat) :
    (tecNext t p e data told - t) % 8 = 0 ∧ t ≤ tecNext t p e data told ∧
      (e ≠ .ack → (e ≠ .stuff ∨ data = true) → t + 8 ≤ tecNext t p e data told) := by
  unfold tecNext
  dsimp only
  split
  · next h =>
    obtain ⟨hle, hmod, hkeep⟩ := h
    refine ⟨hmod, hle, fun hack hstuff => ?_⟩
    have hne : told ≠ t := by
      refine hkeep.resolve_right fun hk => ?_
      obtain hs | hs := hstuff <;> simp [hack, hs] at hk
    omega
  · omega

theorem recNext_spec (r : Nat) (e : CanFault) (told : Nat) : r < recNext r e told ∨ recNext r e told = 255 := by
  unfold recNext
  dsimp only
  split
  · next h => exact .inl h.1
  · omega

theorem recNext_lt (r : Nat) (e : CanFault) (told : BitVec 8) : recNext r e told.toNat < 256 := by
  have htold := told.isLt
  unfold recNext
  dsimp only
  split <;> omega

theorem tec_lt (s : State) (k : Nat) : s.f (F.CAN_ERR_tec k) < 256 := Nat.mod_lt _ (by simp [F.CAN_ERR_tec])
theorem rec_lt (s : State) (k : Nat) : s.f (F.CAN_ERR_rec k) < 256 := Nat.mod_lt _ (by simp [F.CAN_ERR_rec])

theorem errRec_lt (s : State) (k : Nat) (e : CanFault) (told : BitVec 8) : errRec s k e told.toNat < 256 := by
  unfold errRec
  split
  · exact rec_lt s k
  · exact recNext_lt _ _ _

/-! ### What an error sets -/

/-- A counter reaches `n` that both were below. -/
def crosses (s : State) (k n t r : Nat) : Bool :=
  decide (n ≤ t ∨ n ≤ r) && !decide (n ≤ s.f (F.CAN_ERR_tec k) ∨ n ≤ s.f (F.CAN_ERR_rec k))

/-- A bit error in the data of a frame that is sent is counted apart. -/
def dataBit (s : State) (k : Nat) (e : CanFault) (data : Bool) : Bool := data && (canSt s k).cur.isSome && (e = .bitRec || e = .bitDom)

/-- The fields that every error sets, with what it measures `m`. -/
def shownFields (s : State) (k : Nat) (e : CanFault) (data : Bool) (m : List (Fld × Nat)) : List (Fld × Nat) :=
  [(F.CAN_ERR_last k, faultCode e)] ++
    (if dataBit s k e data then
      [(wordFld (R.CAN_DATA_BITERR k), (bumped (s.rd (R.CAN_DATA_BITERR k))).toNat), (F.CAN_EVENT_data_biterr k, 1)] else []) ++ m ++
    [(F.CAN_STAT_tx_busy k, 0)]

/-- The state that follows from TEC before its limit and REC, with the event of bus-off. -/
def errStateAfter (k t r : Nat) : List (Fld × Nat) :=
  if 255 < t then [(F.CAN_STAT_state k, 4), (F.CAN_EVENT_bus_off k, 1)] else [(F.CAN_STAT_state k, if 128 ≤ t ∨ 128 ≤ r then 3 else 2)]

theorem errStateAfter_sublist (k t r : Nat) : ∃ v, (errStateAfter k t r).Sublist [(F.CAN_STAT_state k, v), (F.CAN_EVENT_bus_off k, 1)] := by
  unfold errStateAfter
  split
  · exact ⟨4, List.Sublist.refl _⟩
  · exact ⟨_, List.sublist_append_left [_] [_]⟩

/-- The fields with which a controller that may drive the bus counts it: TEC before its limit, REC, the events and the state. -/
def countedFields (s : State) (k t r : Nat) : List (Fld × Nat) :=
  [(F.CAN_ERR_tec k, min 255 t), (F.CAN_ERR_rec k, r)] ++
    (if crosses s k 96 (min 255 t) r then [(F.CAN_EVENT_err_warn k, 1)] else []) ++
    (if crosses s k 128 (min 255 t) r then [(F.CAN_EVENT_err_passive k, 1)] else []) ++ errStateAfter k t r

/-- What is measured is a delay, if anything. -/
def Measured (k : Nat) (m : List (Fld × Nat)) : Prop := ∃ d, m.Sublist [(F.CAN_TDC_meas k, d)]

theorem ite_sublist {α : Type} {c : Prop} [Decidable c] {l m : List α} (h : l.Sublist m) : (if c then l else []).Sublist m := by
  split
  · exact h
  · exact List.nil_sublist _

theorem shownFields_sublist {s : State} {k : Nat} {e : CanFault} {data : Bool} {m : List (Fld × Nat)} (hm : Measured k m) :
    ∃ d, (shownFields s k e data m).Sublist [(F.CAN_ERR_last k, faultCode e),
      (wordFld (R.CAN_DATA_BITERR k), (bumped (s.rd (R.CAN_DATA_BITERR k))).toNat), (F.CAN_EVENT_data_biterr k, 1), (F.CAN_TDC_meas k, d),
      (F.CAN_STAT_tx_busy k, 0)] := by
  obtain ⟨d, hd⟩ := hm
  exact ⟨d, ((((List.Sublist.refl [_]).append (ite_sublist (List.Sublist.refl [_, _]))).append hd).append (List.Sublist.refl [_]))⟩

theorem countedFields_sublist (s : State) (k t r : Nat) : ∃ v, (countedFields s k t r).Sublist [(F.CAN_ERR_tec k, min 255 t),
    (F.CAN_ERR_rec k, r), (F.CAN_EVENT_err_warn k, 1), (F.CAN_EVENT_err_passive k, 1), (F.CAN_STAT_state k, v), (F.CAN_EVENT_bus_off k, 1)] := by
  have hhead := ((List.Sublist.refl [(F.CAN_ERR_tec k, min 255 t), (F.CAN_ERR_rec k, r)]).append
    (ite_sublist (c := crosses s k 96 (min 255 t) r = true) (List.Sublist.refl [(F.CAN_EVENT_err_warn k, 1)]))).append
    (ite_sublist (c := crosses s k 128 (min 255 t) r = true) (List.Sublist.refl [(F.CAN_EVENT_err_passive k, 1)]))
  obtain ⟨v, hv⟩ := errStateAfter_sublist k t r
  exact ⟨v, hhead.append hv⟩

theorem disjoint_shown {s : State} {k : Nat} {e : CanFault} {data : Bool} {m : List (Fld × Nat)} (hm : Measured k m) (t r : Nat) :
    DisjointFields (shownFields s k e data m ++ countedFields s k t r) := by
  obtain ⟨d, hd⟩ := shownFields_sublist (s := s) (e := e) (data := data) hm
  obtain ⟨v, hv⟩ := countedFields_sublist s k t r
  refine DisjointFields.sublist ?_ (hd.append hv)
  simp [DisjointFields, Clear, wordFld, F.CAN_ERR_last, F.CAN_EVENT_data_biterr, F.CAN_TDC_meas, F.CAN_STAT_tx_busy, F.CAN_ERR_tec,
    F.CAN_ERR_rec, F.CAN_EVENT_err_warn, F.CAN_EVENT_err_passive, F.CAN_STAT_state, F.CAN_EVENT_bus_off, R.CAN_ERR, R.CAN_DATA_BITERR,
    R.CAN_EVENT, R.CAN_TDC, R.CAN_STAT]

/-- The registers that an error changes. -/
def errReg (k off : Nat) : Prop := off = R.CAN_STAT k ∨ off = R.CAN_EVENT k ∨ off = R.CAN_ERR k ∨ off = R.CAN_DATA_BITERR k ∨ off = R.CAN_TDC k

theorem errReg_of_mem {s : State} {k : Nat} {e : CanFault} {data : Bool} {m : List (Fld × Nat)} (hm : Measured k m) {t r : Nat}
    {x : Fld × Nat} (hx : x ∈ shownFields s k e data m ++ countedFields s k t r) : errReg k x.1.off := by
  obtain ⟨d, hd⟩ := shownFields_sublist (s := s) (e := e) (data := data) hm
  obtain ⟨v, hv⟩ := countedFields_sublist s k t r
  have hmem := (hd.append hv).subset hx
  simp only [List.cons_append, List.nil_append, List.mem_cons, List.not_mem_nil, or_false] at hmem
  unfold errReg
  obtain rfl | rfl | rfl | rfl | rfl | rfl | rfl | rfl | rfl | rfl | rfl := hmem <;>
    simp [wordFld, F.CAN_ERR_last, F.CAN_EVENT_data_biterr, F.CAN_TDC_meas, F.CAN_STAT_tx_busy, F.CAN_ERR_tec, F.CAN_ERR_rec,
      F.CAN_EVENT_err_warn, F.CAN_EVENT_err_passive, F.CAN_STAT_state, F.CAN_EVENT_bus_off]

/-- What the controller holds after an error. -/
def errSt (s : State) (k t : Nat) : CanSt :=
  let c := { canSt s k with cur := none, rx := false }
  if !(canSt s k).listen && decide (255 < t) then { c with recovering := s.on (F.CAN_CTL_boff_auto k) } else c

/-- The delay that an FD frame measured before its error. -/
def measuredBy (s : State) (k : Nat) (data : Bool) (n : Nat) : Act :=
  match (canSt s k).cur with
  | some x => only (data || n.testBit 8) (tdcMeas k x.1 (BitVec.ofNat 8 n))
  | none => nop

theorem sets_measuredBy (s u : State) (k : Nat) (data : Bool) (n : Nat) :
    ∃ m, Measured k m ∧ Sets m u.hid u ((measuredBy s k data n).run u) := by
  unfold measuredBy
  split
  · next x _ =>
    rw [run_only]
    split
    · exact ⟨_, ⟨_, delayFields_sublist u k x.1 (BitVec.ofNat 8 n)⟩, sets_tdcMeas k x.1 _ u⟩
    · exact ⟨[], ⟨0, List.nil_sublist _⟩, Sets.refl u⟩
  · exact ⟨[], ⟨0, List.nil_sublist _⟩, Sets.refl u⟩

/-- What every error does, and what one does besides that is counted. -/
def errActs (s : State) (k : Nat) (e : CanFault) (data : Bool) (n : Nat) : List Act := [
  setF (F.CAN_ERR_last k) (faultCode e),
  only (dataBit s k e data) (seq [bump (R.CAN_DATA_BITERR k), setB (F.CAN_EVENT_data_biterr k)]),
  measuredBy s k data n, canTxEnd k]

def errCounted (s : State) (k t r : Nat) : Act := seq [
  setF (F.CAN_ERR_tec k) (min 255 t), setF (F.CAN_ERR_rec k) r,
  only (crosses s k 96 (min 255 t) r) (setB (F.CAN_EVENT_err_warn k)), only (crosses s k 128 (min 255 t) r) (setB (F.CAN_EVENT_err_passive k)),
  if decide (255 < t) then seq [setF (F.CAN_STAT_state k) 4, setB (F.CAN_EVENT_bus_off k),
    canA k fun c => { c with recovering := s.on (F.CAN_CTL_boff_auto k) }]
  else canErrState k]

theorem canError_counted_eq {s : State} {k : Nat} {e : CanFault} {tec : BitVec 9} {rec : BitVec 8} {data : Bool}
    (hact : canActive s k = true) (hpex : ¬ (e = .res ∧ s.on (F.CAN_CTL_pex_dis k) = false)) :
    ∃ n, (canError k e tec rec data).run s = (canFrameEnd k).run ((only (!(canSt s k).listen)
      (errCounted s k (errTec s k e data tec.toNat) (errRec s k e rec.toNat))).run ((seq (errActs s k e data n)).run
        { s with fresh := s.fresh + 1 })) := by
  refine ⟨Config.freeEnv s.fresh, ?_⟩
  unfold canError
  rw [run_whenA, if_pos hact, run_withEnv]
  have hnot : ¬ (e = .res ∧ (!({ s with fresh := s.fresh + 1 } : State).on (F.CAN_CTL_pex_dis k)) = true) := fun h =>
    hpex ⟨h.1, by have hoff := h.2; rwa [Bool.not_eq_true'] at hoff⟩
  refine (congrArg (applyAll · _) (if_neg hnot)).trans ?_
  refine Eq.trans (b := (seq (errActs s k e data (Config.freeEnv s.fresh) ++ [only (!(canSt s k).listen)
      (errCounted s k (errTec s k e data tec.toNat) (errRec s k e rec.toNat)), canFrameEnd k])).run { s with fresh := s.fresh + 1 }) rfl ?_
  rw [run_seq_append, run_seq_cons, run_seq_cons, run_seq_nil]

theorem setsCan_errActs {s : State} {k : Nat} (e : CanFault) (data : Bool) (n : Nat) : ∃ m, Measured k m ∧
    SetsCan (shownFields s k e data m) k { canSt s k with cur := none, rx := false } s
      ((seq (errActs s k e data n)).run { s with fresh := s.fresh + 1 }) := by
  unfold errActs
  rw [run_seq_cons, run_seq_cons, run_seq_cons, run_seq_cons, run_seq_nil]
  have hfresh : SetsCan [] k (canSt s k) s { s with fresh := s.fresh + 1 } := (Sets.freshA s).setsCan k
  have hlast := hfresh.then_setF (F.CAN_ERR_last k) (faultCode e)
  have hword := hlast.sets.rd_of_ne (off := R.CAN_DATA_BITERR k) (by simp [F.CAN_ERR_last, R.CAN_ERR, R.CAN_DATA_BITERR])
  have hbit := hlast.then_only (dataBit s k e data) (a := seq [bump (R.CAN_DATA_BITERR k), setB (F.CAN_EVENT_data_biterr k)]) fun _ => by
    rw [run_seq_cons, run_seq_cons, run_seq_nil, bump_eq, hword]
    exact ((Sets.setW _ _ _).setsCan k).then_setF _ _
  obtain ⟨m, hm, hmeas⟩ := sets_measuredBy s ((only (dataBit s k e data) (seq [bump (R.CAN_DATA_BITERR k), setB (F.CAN_EVENT_data_biterr k)])).run
    ((setF (F.CAN_ERR_last k) (faultCode e)).run { s with fresh := s.fresh + 1 })) k data n
  have hall := hbit.then_sets hmeas
  refine ⟨m, hm, ?_⟩
  have hend := setsCan_canTxEnd k ((measuredBy s k data n).run ((only (dataBit s k e data)
    (seq [bump (R.CAN_DATA_BITERR k), setB (F.CAN_EVENT_data_biterr k)])).run
    ((setF (F.CAN_ERR_last k) (faultCode e)).run { s with fresh := s.fresh + 1 })))
  rw [hall.canSt_eq, hlast.canSt_eq, ite_self] at hend
  exact hall.trans hend

theorem setsCan_errCounted {s u : State} {k t r : Nat} (hr : r < 256) (hstate : canState u k = 2 ∨ canState u k = 3) :
    SetsCan (countedFields s k t r) k (if 255 < t then { canSt u k with recovering := s.on (F.CAN_CTL_boff_auto k) } else canSt u k) u
      ((errCounted s k t r).run u) := by
  unfold errCounted
  rw [run_seq_cons, run_seq_cons, run_seq_cons, run_seq_cons, run_seq_cons, run_seq_nil]
  have hcount := (((Sets.setF (F.CAN_ERR_tec k) (min 255 t) u).then_setF (F.CAN_ERR_rec k) r).then_only (crosses s k 96 (min 255 t) r)
    fun _ => Sets.setF (F.CAN_EVENT_err_warn k) 1 _).then_only (crosses s k 128 (min 255 t) r)
    fun _ => Sets.setF (F.CAN_EVENT_err_passive k) 1 _
  set w := (only (crosses s k 128 (min 255 t) r) (setB (F.CAN_EVENT_err_passive k))).run ((only (crosses s k 96 (min 255 t) r)
    (setB (F.CAN_EVENT_err_warn k))).run ((setF (F.CAN_ERR_rec k) r).run ((setF (F.CAN_ERR_tec k) (min 255 t)).run u)))
  have hd : DisjointFields ([(F.CAN_ERR_tec k, min 255 t), (F.CAN_ERR_rec k, r)] ++
      (if crosses s k 96 (min 255 t) r then [(F.CAN_EVENT_err_warn k, 1)] else []) ++
      if crosses s k 128 (min 255 t) r then [(F.CAN_EVENT_err_passive k, 1)] else []) := by
    refine DisjointFields.sublist ?_ (((List.Sublist.refl _).append (ite_sublist (List.Sublist.refl _))).append (ite_sublist (List.Sublist.refl _)))
    simp [DisjointFields, Clear, F.CAN_ERR_tec, F.CAN_ERR_rec, F.CAN_EVENT_err_warn, F.CAN_EVENT_err_passive, R.CAN_ERR, R.CAN_EVENT]
  by_cases ht : 255 < t
  · rw [if_pos (decide_eq_true ht), if_pos ht, run_seq_cons, run_seq_cons, run_seq_cons, run_seq_nil]
    have hall := (((hcount.setsCan k).then_setF (F.CAN_STAT_state k) 4).then_setF (F.CAN_EVENT_bus_off k) 1).then_canA
      fun c => { c with recovering := s.on (F.CAN_CTL_boff_auto k) }
    rw [countedFields, errStateAfter, if_pos ht]
    rw [List.append_assoc] at hall
    exact hall
  · rw [if_neg (c := decide (255 < t) = true) (by simpa using ht), if_neg ht]
    have htec : w.f (F.CAN_ERR_tec k) = t :=
      (Sets.f_of_disjoint hd hcount (y := F.CAN_ERR_tec k) (v := min 255 t) (by simp)).trans (by simp only [F.CAN_ERR_tec]; omega)
    have hrec : w.f (F.CAN_ERR_rec k) = r :=
      (Sets.f_of_disjoint hd hcount (y := F.CAN_ERR_rec k) (v := r) (by simp)).trans (by simp only [F.CAN_ERR_rec]; omega)
    have hsame : canState w k = canState u k := by
      refine hcount.f_of_apart (y := F.CAN_STAT_state k) fun x hx => .inl ?_
      have hx := (((List.Sublist.refl _).append (ite_sublist (List.Sublist.refl _))).append (ite_sublist (List.Sublist.refl _))).subset hx
      simp only [List.cons_append, List.nil_append, List.mem_cons, List.not_mem_nil, or_false] at hx
      obtain rfl | rfl | rfl | rfl := hx <;>
        simp [F.CAN_ERR_tec, F.CAN_ERR_rec, F.CAN_EVENT_err_warn, F.CAN_EVENT_err_passive, F.CAN_STAT_state, R.CAN_ERR, R.CAN_EVENT, R.CAN_STAT]
    have hall := (hcount.setsCan k).then_sets (sets_canErrState k w)
    have herr : errStateFields w k = [(F.CAN_STAT_state k, if 128 ≤ t ∨ 128 ≤ r then 3 else 2)] := by
      rw [errStateFields, if_pos (by rw [hsame]; exact hstate), htec, hrec]
    rw [herr] at hall
    rw [countedFields, errStateAfter, if_neg ht]
    exact hall

/-- What an error that is counted sets, and what the controller then holds. -/
theorem setsCan_canError {s : State} {k : Nat} {e : CanFault} {tec : BitVec 9} {rec : BitVec 8} {data : Bool}
    (hact : canActive s k = true) (hen : s.on (F.CAN_CTL_en k) = true) (hsleep : (canSt s k).sleepReq = false)
    (hpex : ¬ (e = .res ∧ s.on (F.CAN_CTL_pex_dis k) = false)) : ∃ m, Measured k m ∧
    SetsCan (shownFields s k e data m ++ if !(canSt s k).listen then
        countedFields s k (errTec s k e data tec.toNat) (errRec s k e rec.toNat) else []) k
      (errSt s k (errTec s k e data tec.toNat)) s ((canError k e tec rec data).run s) := by
  obtain ⟨n, hrun⟩ := canError_counted_eq (tec := tec) (rec := rec) (data := data) hact hpex
  obtain ⟨m, hm, hshown⟩ := setsCan_errActs (s := s) (k := k) e data n
  refine ⟨m, hm, ?_⟩
  rw [hrun]
  have hfive := (canActive_iff.1 hact).2
  have hstate : canState ((seq (errActs s k e data n)).run { s with fresh := s.fresh + 1 }) k = canState s k := by
    refine hshown.sets.f_of_apart (y := F.CAN_STAT_state k) fun x hx => ?_
    obtain ⟨d, hd⟩ := shownFields_sublist (s := s) (e := e) (data := data) hm
    have hx := hd.subset hx
    simp only [List.mem_cons, List.not_mem_nil, or_false] at hx
    obtain rfl | rfl | rfl | rfl | rfl := hx <;>
      simp [Fld.Apart, wordFld, F.CAN_ERR_last, F.CAN_EVENT_data_biterr, F.CAN_TDC_meas, F.CAN_STAT_tx_busy, F.CAN_STAT_state, R.CAN_ERR,
        R.CAN_DATA_BITERR, R.CAN_EVENT, R.CAN_TDC, R.CAN_STAT]
  have hcount := hshown.then_only (!(canSt s k).listen) fun _ => setsCan_errCounted (s := s) (t := errTec s k e data tec.toNat)
    (errRec_lt s k e rec) (hstate ▸ hfive)
  rw [hshown.canSt_eq] at hcount
  have hheld : (if (!(canSt s k).listen) = true then
      if 255 < errTec s k e data tec.toNat then { canSt s k with cur := none, rx := false, recovering := s.on (F.CAN_CTL_boff_auto k) }
      else { canSt s k with cur := none, rx := false } else { canSt s k with cur := none, rx := false }) =
      errSt s k (errTec s k e data tec.toNat) := by
    unfold errSt
    by_cases hl : (!(canSt s k).listen) = true
    · rw [if_pos hl, hl]
      simp
    · rw [if_neg hl]
      simp [hl]
  rw [hheld] at hcount
  rw [run_canFrameEnd_of_awake]
  · exact hcount
  · refine (on_of_rd_eq (x := F.CAN_CTL_en k) (hcount.sets.rd_of_ne fun x hx => ?_)).trans hen
    have hreg := errReg_of_mem hm ((List.Sublist.append (List.Sublist.refl _) (ite_sublist (List.Sublist.refl _))).subset hx)
    unfold errReg at hreg
    obtain he | he | he | he | he := hreg <;> rw [he] <;>
      simp [F.CAN_CTL_en, R.CAN_CTL, R.CAN_STAT, R.CAN_EVENT, R.CAN_ERR, R.CAN_DATA_BITERR, R.CAN_TDC]
  · rw [hcount.canSt_eq]
    unfold errSt
    cases !(canSt s k).listen && decide (255 < errTec s k e data tec.toNat) <;> exact hsleep

end Sys2Proof.Machine
end

section
/-!
The statement on control, errors and wake, settled: a protocol exception, the recoveries and the wakes, and the clauses put together.
-/

namespace Sys2Proof.Machine

/-! ### A protocol exception, recovery, integration -/

theorem setsCan_canError_pex {s : State} {k : Nat} {tec : BitVec 9} {rec : BitVec 8} {data : Bool} (hact : canActive s k = true)
    (hen : s.on (F.CAN_CTL_en k) = true) (hsleep : (canSt s k).sleepReq = false) (hpex : s.on (F.CAN_CTL_pex_dis k) = false) :
    SetsCan [(F.CAN_EVENT_pex k, 1), (F.CAN_STAT_state k, 1), (F.CAN_STAT_tx_busy k, 0)] k { canSt s k with cur := none, rx := false } s
      ((canError k .res tec rec data).run s) := by
  have hrun : (canError k .res tec rec data).run s = (seq [setB (F.CAN_EVENT_pex k), setF (F.CAN_STAT_state k) 1, canTxEnd k,
      canFrameEnd k]).run { s with fresh := s.fresh + 1 } := by
    have hyes : CanFault.res = .res ∧ (!({ s with fresh := s.fresh + 1 } : State).on (F.CAN_CTL_pex_dis k)) = true :=
      ⟨rfl, by rw [Bool.not_eq_true']; exact hpex⟩
    unfold canError
    rw [run_whenA, if_pos hact, run_withEnv]
    exact congrArg (applyAll · _) (if_pos hyes)
  rw [hrun, run_seq_cons, run_seq_cons, run_seq_cons, run_seq_cons, run_seq_nil]
  have hfresh : SetsCan [] k (canSt s k) s { s with fresh := s.fresh + 1 } := (Sets.freshA s).setsCan k
  have hshown := (hfresh.then_setF (F.CAN_EVENT_pex k) 1).then_setF (F.CAN_STAT_state k) 1
  have hend := setsCan_canTxEnd k ((setF (F.CAN_STAT_state k) 1).run ((setF (F.CAN_EVENT_pex k) 1).run { s with fresh := s.fresh + 1 }))
  rw [hshown.canSt_eq] at hend
  have hall := hshown.trans hend
  rw [setB_eq, run_canFrameEnd_of_awake]
  · exact hall
  · exact (on_of_rd_eq (x := F.CAN_CTL_en k) (hall.sets.rd_of_ne (by
      simp [F.CAN_CTL_en, F.CAN_EVENT_pex, F.CAN_STAT_state, F.CAN_STAT_tx_busy, R.CAN_CTL, R.CAN_EVENT, R.CAN_STAT]))).trans hen
  · rw [hall.canSt_eq]
    exact hsleep

theorem Fld.put_put {x : Fld} (v w : Nat) (r : Word) (hlo : x.lo ≤ x.hi) (hhi : x.hi ≤ 31) : x.put w (x.put v r) = x.put w r := by
  refine BitVec.eq_of_getLsbD_eq fun j _ => ?_
  rw [Fld.getLsbD_put x w _ j hlo hhi, Fld.getLsbD_put x w r j hlo hhi, Fld.getLsbD_put x v r j hlo hhi]
  split <;> rfl

/-- Of two values written to one field the last one stands. -/
theorem Sets.put_again {x : Fld} {v w : Nat} {h : Hid} {s t : State} (ht : Sets [(x, v), (x, w)] h s t) (hlo : x.lo ≤ x.hi)
    (hhi : x.hi ≤ 31) : Sets [(x, w)] h s t := by
  obtain ⟨hrd, hrest⟩ := ht
  refine ⟨fun off => (hrd off).trans ?_, hrest⟩
  rw [fieldWord_cons, fieldWord_cons, fieldWord_cons]
  split
  · rw [Fld.put_put v w _ hlo hhi]
  · rfl

section
variable {s : State} {k : Nat} (hon : canOn s = true) (hfree : canFree s k)
include hon hfree

theorem sets_busOffDone (hst : canState s k = 4) (hrec : (canSt s k).recovering = true) :
    Sets [(F.CAN_ERR_tec k, 0), (F.CAN_ERR_rec k, 0), (F.CAN_STAT_state k, 2), (F.CAN_EVENT_bus_on k, 1), (F.CAN_CTL_recover k, 0)]
      (withCan s k { canSt s k with recovering := false }) s ((busOffDone k).run s) := by
  obtain ⟨-, hen, hsleep⟩ := hfree
  unfold busOffDone
  rw [run_whenA, if_pos (by simp [hon, hst, hrec]), run_seq_cons, run_seq_cons, run_seq_cons, run_seq_cons, run_seq_cons, run_seq_cons,
    run_seq_cons, run_seq_nil, setB_eq, clrB_eq]
  have hall := (((((Sets.setF (F.CAN_ERR_tec k) 0 s).then_setF (F.CAN_ERR_rec k) 0).then_setF (F.CAN_STAT_state k) 2).then_setF
    (F.CAN_EVENT_bus_on k) 1).then_setF (F.CAN_CTL_recover k) 0).then_hidA
    fun h => { h with can := h.can.put {} k { h.can.get {} k with recovering := false } }
  rw [run_canFrameEnd_of_awake]
  · exact hall
  · exact (hall.on_of_apart (y := F.CAN_CTL_en k) (by
      simp [Fld.Apart, F.CAN_CTL_en, F.CAN_ERR_tec, F.CAN_ERR_rec, F.CAN_STAT_state, F.CAN_EVENT_bus_on, F.CAN_CTL_recover, R.CAN_CTL,
        R.CAN_ERR, R.CAN_EVENT, R.CAN_STAT])).trans hen
  · have hheld : canSt _ k = { canSt s k with recovering := false } := canSt_of_withCan hall.hid_eq
    exact (congrArg CanSt.sleepReq hheld).trans hsleep

theorem sets_canIntegrated (hst : canState s k = 1) : Sets [(F.CAN_STAT_state k,
    if 128 ≤ s.f (F.CAN_ERR_tec k) ∨ 128 ≤ s.f (F.CAN_ERR_rec k) then 3 else 2)] s.hid s ((canIntegrated k).run s) := by
  obtain ⟨-, hen, hsleep⟩ := hfree
  have hyes : decide (canOn s = true ∧ canState s k = 1) = true := decide_eq_true ⟨hon, hst⟩
  unfold canIntegrated
  rw [run_whenA, if_pos hyes, run_seq_cons, run_seq_cons, run_seq_cons, run_seq_nil]
  have hone := (Sets.setF (F.CAN_STAT_state k) 2 s).setsCan k
  have hfields : errStateFields ((setF (F.CAN_STAT_state k) 2).run s) k = [(F.CAN_STAT_state k,
      if 128 ≤ s.f (F.CAN_ERR_tec k) ∨ 128 ≤ s.f (F.CAN_ERR_rec k) then 3 else 2)] := by
    have hcount : ∀ y : Fld, y.off = R.CAN_ERR k → ((setF (F.CAN_STAT_state k) 2).run s).f y = s.f y := fun y hy =>
      hone.sets.f_of_apart (by simp [Fld.Apart, hy, F.CAN_STAT_state, R.CAN_STAT, R.CAN_ERR])
    rw [errStateFields, if_pos (.inl (state_of_setsCan hone (by decide))), hcount (F.CAN_ERR_tec k) rfl, hcount (F.CAN_ERR_rec k) rfl]
  have htwo := (Sets.setF (F.CAN_STAT_state k) 2 s).trans (sets_canErrState k ((setF (F.CAN_STAT_state k) 2).run s))
  rw [hfields] at htwo
  have hall := htwo.put_again (by simp [F.CAN_STAT_state]) (by simp [F.CAN_STAT_state])
  rw [run_canFrameEnd_of_awake]
  · exact hall
  · exact (on_of_rd_eq (x := F.CAN_CTL_en k) (hall.rd_of_ne (by simp [F.CAN_CTL_en, F.CAN_STAT_state, R.CAN_CTL, R.CAN_STAT]))).trans hen
  · exact (congrArg CanSt.sleepReq (hall.setsCan k).canSt_eq).trans hsleep

end

/-! ### Wakes -/

/-- What the blocks hold once controller `k` has been woken from the bus (R423). -/
def wokenHid (s : State) (k : Nat) : Hid :=
  { withCan s k { canSt s k with stb := false, sleepReq := false, wakeT := some s.now } with
    wake := if s.on (F.CAN_CTL_wake_cpu k) then { wfi := false, waken := s.hid.wake.waken || pcieHost s, event := true } else s.hid.wake }

theorem sets_wakeAll {s : State} (hup : s.up = true) :
    Sets [] { s.hid with wake := { wfi := false, waken := s.hid.wake.waken || pcieHost s, event := true } } s (wakeAll.run s) := by
  have hrun : wakeAll.run s =
      (hidA fun h => { h with wake := { wfi := false, waken := h.wake.waken || pcieHost s, event := true } }).run s :=
    congrArg (applyAll · s) (if_pos hup)
  rw [hrun]
  exact Sets.hidA _ s

theorem sets_canBusWake {s : State} (k : Nat) (hup : s.up = true) :
    Sets [(F.CAN_EVENT_wake k, 1), (F.CAN_STAT_state k, 1)] (wokenHid s k) s ((canBusWake k).run s) := by
  have hrun : (canBusWake k).run s = (seq [setB (F.CAN_EVENT_wake k), canWakeUp k, canA k fun c => { c with wakeT := some s.now },
    only (s.on (F.CAN_CTL_wake_cpu k)) wakeAll]).run s := rfl
  rw [hrun, run_seq_cons, run_seq_cons, run_seq_cons, run_seq_cons, run_seq_nil, setB_eq]
  have hwoken : Sets [(F.CAN_STAT_state k, 1)] (withCan s k { canSt s k with stb := false, sleepReq := false })
      ((setF (F.CAN_EVENT_wake k) 1).run s) ((canWakeUp k).run ((setF (F.CAN_EVENT_wake k) 1).run s)) := by
    unfold canWakeUp
    rw [run_seq_cons, run_seq_cons, run_seq_nil]
    exact (Sets.setF _ _ _).then_hidA _
  have hall := ((Sets.setF (F.CAN_EVENT_wake k) 1 s).trans hwoken).then_canA fun c => { c with wakeT := some s.now }
  rw [run_only]
  unfold wokenHid
  split
  · refine (hall.trans (sets_wakeAll ((hall.up rfl).trans hup))).cast rfl ?_
    unfold pcieHost
    rw [hall.hid_eq]
    rfl
  · exact hall

end Sys2Proof.Machine
end

section
/-!
The statement on control, errors and wake, settled: its clauses command by command, and the clauses put together.
-/

namespace Sys2Proof.Machine

/-! ### Requests to `CAN[k]_CTL` -/

/-- The registers that a request changes. -/
def ctlReg (k off : Nat) : Prop := off = R.CAN_CTL k ∨ off = R.CAN_STAT k ∨ off = R.CAN_ERR k

theorem asksListen_iff {k : Fin 4} {v : Word} : asksListen k v = true ↔ k ≠ 3 ∧ v.toNat / 2 % 4 = 1 := by
  unfold asksListen
  rw [decide_eq_true_iff, ne_eq, ne_eq, Fin.ext_iff]
  rfl

theorem asksListen_eq_false {k : Fin 4} {v : Word} (h : ¬ (k ≠ 3 ∧ v.toNat / 2 % 4 = 1)) : asksListen k v = false :=
  Bool.eq_false_iff.2 fun ht => h (asksListen_iff.1 ht)

theorem wake_bits_congr {v w : Word} (h5 : v.getLsbD 5 = w.getLsbD 5) (h6 : v.getLsbD 6 = w.getLsbD 6) :
    v.toNat / 32 % 4 = w.toNat / 32 % 4 := by
  have hget : ∀ x : Word, x.toNat / 32 % 4 = (F.CAN_CTL_wake_mode 0).get x := fun x => rfl
  rw [hget, hget]
  refine Nat.eq_of_testBit_eq fun j => ?_
  rw [Fld.testBit_get, Fld.testBit_get]
  by_cases hj : j < 2
  · have hone : j = 0 ∨ j = 1 := by omega
    obtain rfl | rfl := hone
    · exact congrArg _ h5
    · exact congrArg _ h6
  · have hout : ¬ j < (F.CAN_CTL_wake_mode 0).hi + 1 - (F.CAN_CTL_wake_mode 0).lo := hj
    rw [decide_eq_false hout, Bool.false_and, Bool.false_and]

section
variable {p : Port} {s : State} {k : Fin 4} {v : Word} (hl : Live p s (R.CAN_CTL k) = true)
include hl

section
variable (hen : s.on (F.CAN_CTL_en k) = false) (h3 : v.getLsbD 3 = false) (hcur : (canSt s k).cur = none) (hst : canState s k = 0)
include hen h3 hst

include hcur in
theorem completes_enable_refused {n : Nat} (hcode : enableCode s k (v ||| 1#32) = n) (hn : n ≠ 0) : Completes (.canEnable p k v) s fun t =>
    t.f (F.CAN_STAT_result k) = n ∧ t.on (F.CAN_CTL_en k) = false ∧
      (asksListen k v = true → t.f (F.CAN_CTL_mode k) = s.f (F.CAN_CTL_mode k)) ∧ canState t k = 0 ∧ CanFrame k (ctlReg k) s t := by
  refine completes_canCtl hl rfl fun u w t b m hu hw ht hm hends => ?_
  obtain ⟨hresult, hoff, hstate⟩ := enable_refused hu hw ht hm hends (by simp) hen (by simpa using h3) hst hcur (by rw [hcode]; exact hn)
  refine ⟨hresult.trans hcode, hoff, fun hlisten => ?_, hstate, canFrame_of_ends hu hw ht hm⟩
  rw [f_of_ends hw ht hm (.inl (by simp [F.CAN_STAT_state, F.CAN_CTL_mode, R.CAN_STAT, R.CAN_CTL])), mode_of_taken hu.sets,
    if_pos ((asksListen_congr (by simp) (by simp)).trans hlisten)]
  rfl

theorem completes_enable_accepted (hcode : enableCode s k (v ||| 1#32) = 0) : Completes (.canEnable p k v) s fun t =>
    t.f (F.CAN_STAT_result k) = 0 ∧ t.on (F.CAN_CTL_en k) = true ∧ canState t k = 1 ∧ t.f (F.CAN_ERR_tec k) = 0 ∧
      t.f (F.CAN_ERR_rec k) = 0 ∧ (canSt t k).nbt = s.rd (R.CAN_NBT k) ∧ (canSt t k).dbt = s.rd (R.CAN_DBT k) ∧
      (canSt t k).listen = decide (k = 3 ∧ v.toNat / 2 % 4 = 1) ∧ (canSt t k).fifo = (canSt s k).fifo ∧ t.on (F.CAN_CTL_recover k) = false ∧
      CanFrame k (ctlReg k) s t := by
  refine completes_canCtl hl rfl fun u w t b m hu hw ht hm hends => ?_
  obtain ⟨hresult, hon, hstate, htec, hrec, hnbt, hdbt, hlisten, hfifo, hrecover⟩ :=
    enable_accepted hu hw ht hm hends (by simp) hen (by simpa using h3) hst hcode
  refine ⟨hresult, hon, hstate, htec, hrec, hnbt, hdbt, hlisten.trans ?_, hfifo, hrecover, canFrame_of_ends hu hw ht hm⟩
  rw [mode_bits_congr (v := v ||| 1#32) (w := v) (by simp) (by simp), decide_eq_decide, Fin.ext_iff]
  rfl

end

theorem completes_disable (h3 : v.getLsbD 3 = false) (h5 : canState s k ≠ 5) : Completes (.canDisable p k v) s fun t =>
    t.on (F.CAN_CTL_en k) = false ∧
      ((canSt s k).cur = none → (canSt s k).rx = false → (canActive s k = false ∨ s.on (F.CAN_CTL_en k) = false) → canState t k = 0) ∧
      ((canSt s k).cur = none → canState t k = 0 ∧ (canSt t k).rx = false ∨ canState t k = canState s k ∧ (canSt t k).rx = true) ∧
      ((canSt s k).cur ≠ none → canState t k = canState s k) ∧ (canSt t k).fifo = (canSt s k).fifo ∧
      t.rd (R.CAN_ERR k) = s.rd (R.CAN_ERR k) ∧ CanFrame k (ctlReg k) s t := by
  refine completes_canCtl hl rfl fun u w t b m hu hw ht hm hends => ?_
  obtain ⟨hoff, hidle, hfree, hway, hfifo, herr⟩ := disabled hu hw ht hm hends (by simp) (by simpa using h3) h5
  exact ⟨hoff, hidle, hfree, hway, hfifo, herr, canFrame_of_ends hu hw ht hm⟩

section
variable (hen : s.on (F.CAN_CTL_en k) = true) (h0 : v.getLsbD 0 = true)
include hen h0

section
variable (hlisten : ¬ (k ≠ 3 ∧ v.toNat / 2 % 4 = 1)) (hst : canState s k = 2 ∨ canState s k = 3)
include hlisten hst

theorem completes_sleep_refused {n : Nat} (hcode : sleepCode s k (v ||| 8#32) = n) (hn : n ≠ 0) : Completes (.canSleep p k v) s fun t =>
    t.f (F.CAN_STAT_result k) = n ∧ ((canSt s k).sleepReq = false → canState t k = canState s k) ∧ CanFrame k (ctlReg k) s t := by
  refine completes_canCtl hl rfl fun u w t b m hu hw ht hm hends => ?_
  obtain ⟨hresult, hstate⟩ := sleep_refused hu hw ht hm hends (by simpa using h0) hen (by simp)
    ((asksListen_congr (by simp) (by simp)).trans (asksListen_eq_false hlisten)) hst (by rw [hcode]; exact hn)
  exact ⟨hresult.trans hcode, hstate, canFrame_of_ends hu hw ht hm⟩

theorem completes_sleep_accepted (hcode : sleepCode s k (v ||| 8#32) = 0) (hask : asksSleep s k (v ||| 8#32) = true) :
    Completes (.canSleep p k v) s fun t => t.f (F.CAN_STAT_result k) = 0 ∧ CanFrame k (ctlReg k) s t ∧
      ((canSt s k).cur = none → canState t k = 5 ∧ (canSt t k).stb = v.getLsbD 4 ∧ (canSt t k).rx = false ∨
        canState t k = canState s k ∧ (canSt t k).sleepReq = true ∧ (canSt t k).rx = true) ∧
      ((canSt s k).cur ≠ none → canState t k = canState s k ∧ (canSt t k).sleepReq = true) := by
  refine completes_canCtl hl rfl fun u w t b m hu hw ht hm hends => ?_
  obtain ⟨hresult, hfree, hway⟩ := sleep_accepted hu hw ht hm hends (by simpa using h0) hen (by simp)
    ((asksListen_congr (by simp) (by simp)).trans (asksListen_eq_false hlisten)) hst hcode hask (up_of_live hl)
  have hstb : (v ||| 8#32).getLsbD 4 = v.getLsbD 4 := by simp
  exact ⟨hresult, canFrame_of_ends hu hw ht hm, hstb ▸ hfree, hway⟩

end

section
variable (h3 : v.getLsbD 3 = false)
include h3

theorem completes_recover (hst : canState s k = 4) : Completes (.busOffRecover p k v) s fun t =>
    (canSt t k).recovering = true ∧ canState t k = 4 ∧ t.on (F.CAN_CTL_recover k) = true ∧ CanFrame k (ctlReg k) s t := by
  refine completes_canCtl hl rfl fun u w t b m hu hw ht hm hends => ?_
  obtain ⟨hrec, hstate, hon⟩ := recovery_begun hu hw ht hm hends (by simpa using h0) hen (by simpa using h3) (by simp) hst
  exact ⟨hrec, hstate, hon, canFrame_of_ends hu hw ht hm⟩

end

theorem completes_wakeByWrite (hst : canState s k = 5) : Completes (.canWake k (.write p v)) s fun t =>
    canState t k = 1 ∧ (canSt t k).stb = false ∧ t.on (bitFld (R.CAN_CTL k) 3) = false :=
  completes_canCtl hl rfl fun _ _ _ _ _ hu hw ht hm hends =>
    woken hu hw ht hm hends (by simpa using h0) hen (by simp) hst

end

end

/-- The codes of a request to sleep. -/
theorem sleepCode_cases {s : State} {k : Fin 4} {v : Word} (hwake : (canSt s k).wakeT.map (·.toNat / 10) ≠ some (s.now.toNat / 10))
    (hst : canState s k = 2 ∨ canState s k = 3) : asksSleep s k (v ||| 8#32) = true ∧ sleepCode s k (v ||| 8#32) =
      if k = 3 then 2 else if v.toNat / 32 % 4 = 2 ∧ v.getLsbD 4 = true then 4 else 0 := by
  have hask : asksSleep s k (v ||| 8#32) = true := by
    unfold asksSleep
    rw [decide_eq_false hwake]
    simp
  have hstb : (v ||| 8#32).getLsbD 4 = v.getLsbD 4 := by simp
  have h5 : canState s k ≠ 5 := by omega
  refine ⟨hask, ?_⟩
  unfold sleepCode
  rw [if_neg (by simp [hask, h5]), wake_bits_congr (v := v ||| 8#32) (w := v) (by simp) (by simp), hstb]
  simp only [Fin.ext_iff]
  rfl

/-! ### Errors -/

section
variable {s : State} {k : Fin 4} {e : CanFault} {tec : BitVec 9} {rec : BitVec 8} {data : Bool} (hact : canActive s k = true)
  (hen : s.on (F.CAN_CTL_en k) = true) (hsleep : (canSt s k).sleepReq = false)
include hact hen hsleep

theorem completes_protocolException (hres : e = .res) (hpex : s.on (F.CAN_CTL_pex_dis k) = false) : Completes (.canError k e tec rec data) s fun t =>
    t.on (F.CAN_EVENT_pex k) = true ∧ (canSt t k).cur = none ∧ canState t k = 1 ∧ t.rd (R.CAN_ERR k) = s.rd (R.CAN_ERR k) ∧
      CanFrame k (errReg k) s t := by
  subst hres
  have hoff : ∀ x ∈ [(F.CAN_EVENT_pex k, 1), (F.CAN_STAT_state k, 1), (F.CAN_STAT_tx_busy k, 0)], x.1.off = R.CAN_EVENT k ∨ x.1.off = R.CAN_STAT k := by
    simp [F.CAN_EVENT_pex, F.CAN_STAT_state, F.CAN_STAT_tx_busy]
  have hd : DisjointFields [(F.CAN_EVENT_pex k, 1), (F.CAN_STAT_state k, 1), (F.CAN_STAT_tx_busy k, 0)] := by
    simp [DisjointFields, Clear, F.CAN_EVENT_pex, F.CAN_STAT_state, F.CAN_STAT_tx_busy, R.CAN_EVENT, R.CAN_STAT]
  obtain ⟨t, he, ht⟩ := (setsCan_canError_pex (tec := tec) (rec := rec) (data := data) hact hen hsleep hpex).completes
    (i := .canError k .res tec rec data) (fun x hx => by
      obtain h | h := hoff x hx <;> rw [h] <;> simp only [R.CAN_EVENT, R.CAN_STAT, R.SYS_MODE_STAT] <;> omega) rfl
  refine ⟨t, he, ?_, congrArg CanSt.cur ht.canSt_eq, ?_, ht.sets.rd_of_ne fun x hx => ?_, ht.canFrame fun x hx => ?_⟩
  · exact (Sets.on_of_disjoint hd ht.sets (y := F.CAN_EVENT_pex k) (v := 1) (by simp) rfl).trans (by decide)
  · exact Sets.f_of_disjoint hd ht.sets (y := F.CAN_STAT_state k) (v := 1) (by simp)
  · obtain h | h := hoff x hx <;> rw [h] <;> simp [R.CAN_EVENT, R.CAN_STAT, R.CAN_ERR]
  · obtain h | h := hoff x hx
    · exact .inr (.inl h)
    · exact .inl h

omit hact hen hsleep in
theorem errorFields_sublist (s : State) (k t r : Nat) (e : CanFault) (data : Bool) (m : List (Fld × Nat)) (b : Bool) :
    (shownFields s k e data m ++ if b then countedFields s k t r else []).Sublist (shownFields s k e data m ++ countedFields s k t r) :=
  (List.Sublist.refl _).append (ite_sublist (List.Sublist.refl _))

theorem completes_error (hpex : ¬ (e = .res ∧ s.on (F.CAN_CTL_pex_dis k) = false)) : Completes (.canError k e tec rec data) s fun t =>
    ∃ m, Measured k m ∧ SetsCan (shownFields s k e data m ++ if !(canSt s k).listen then
      countedFields s k (errTec s k e data tec.toNat) (errRec s k e rec.toNat) else []) k (errSt s k (errTec s k e data tec.toNat)) s t := by
  obtain ⟨m, hm, hset⟩ := setsCan_canError (tec := tec) (rec := rec) (data := data) hact hen hsleep hpex
  obtain ⟨t, he, ht⟩ := hset.completes (i := .canError k e tec rec data) (fun x hx => by
    have hreg := errReg_of_mem hm ((errorFields_sublist _ _ _ _ _ _ _ _).subset hx)
    unfold errReg at hreg
    obtain h | h | h | h | h := hreg <;> rw [h] <;>
      simp only [R.CAN_STAT, R.CAN_EVENT, R.CAN_ERR, R.CAN_DATA_BITERR, R.CAN_TDC, R.SYS_MODE_STAT] <;> omega) rfl
  exact ⟨t, he, m, hm, ht⟩

end

section
variable {s t : State} {k T C : Nat} {e : CanFault} {data b : Bool} {m : List (Fld × Nat)} (hm : Measured k m)
  (ht : SetsCan (shownFields s k e data m ++ if b then countedFields s k T C else []) k (errSt s k T) s t)
include hm ht

/-- What shows of every error. -/
theorem shown_of_error : t.f (F.CAN_ERR_last k) = faultCode e ∧ (canSt t k).cur = none ∧ t.on (F.CAN_STAT_tx_busy k) = false ∧
    CanFrame k (errReg k) s t ∧ ((data : Bool) = true → (canSt s k).cur ≠ none → (e = .bitRec ∨ e = .bitDom) →
      t.rd (R.CAN_DATA_BITERR k) = bumped (s.rd (R.CAN_DATA_BITERR k)) ∧ t.on (F.CAN_EVENT_data_biterr k) = true) := by
  have hd := (disjoint_shown hm T C).sublist (errorFields_sublist s k T C e data m b)
  have hlast : (F.CAN_ERR_last k, faultCode e) ∈ shownFields s k e data m := by simp [shownFields]
  have hbusy : (F.CAN_STAT_tx_busy k, 0) ∈ shownFields s k e data m := by simp [shownFields]
  refine ⟨?_, ?_, ?_, ?_, fun hdata hcur hbit => ?_⟩
  · refine (Sets.f_of_disjoint hd ht.sets (List.mem_append_left _ hlast)).trans ?_
    cases e <;> rfl
  · rw [ht.canSt_eq]
    unfold errSt
    cases !(canSt s k).listen && decide (255 < T) <;> rfl
  · exact Sets.on_of_disjoint hd ht.sets (List.mem_append_left _ hbusy) rfl
  · exact ht.canFrame fun x hx => errReg_of_mem hm ((errorFields_sublist _ _ _ _ _ _ _ _).subset hx)
  · have hyes : dataBit s k e data = true := by
      unfold dataBit
      rw [hdata, Option.isSome_iff_ne_none.2 hcur]
      obtain rfl | rfl := hbit <;> rfl
    have hword : (wordFld (R.CAN_DATA_BITERR k), (bumped (s.rd (R.CAN_DATA_BITERR k))).toNat) ∈ shownFields s k e data m := by
      simp [shownFields, hyes]
    have hevent : (F.CAN_EVENT_data_biterr k, 1) ∈ shownFields s k e data m := by simp [shownFields, hyes]
    exact ⟨Sets.rd_of_disjoint hd ht.sets (List.mem_append_left _ hword),
      (Sets.on_of_disjoint hd ht.sets (List.mem_append_left _ hevent) rfl).trans (by decide)⟩

/-- In listen-only nothing is counted. -/
theorem counters_of_uncounted (hb : b = false) : t.f (F.CAN_ERR_tec k) = s.f (F.CAN_ERR_tec k) ∧ t.f (F.CAN_ERR_rec k) = s.f (F.CAN_ERR_rec k) := by
  subst hb
  have hkeep : ∀ y, (F.CAN_ERR_last k).Apart y → y.off = R.CAN_ERR k → t.f y = s.f y := fun y hy hoff => by
    obtain ⟨d, hd⟩ := shownFields_sublist (s := s) (e := e) (data := data) hm
    refine ht.sets.f_of_apart fun x hx => ?_
    have hx := hd.subset (by simpa using hx)
    simp only [List.mem_cons, List.not_mem_nil, or_false] at hx
    obtain rfl | rfl | rfl | rfl | rfl := hx
    · exact hy
    all_goals
      refine .inl ?_
      rw [hoff]
      simp [wordFld, F.CAN_EVENT_data_biterr, F.CAN_TDC_meas, F.CAN_STAT_tx_busy, R.CAN_ERR, R.CAN_DATA_BITERR, R.CAN_EVENT, R.CAN_TDC, R.CAN_STAT]
  exact ⟨hkeep _ (.inr (by simp [F.CAN_ERR_last, F.CAN_ERR_tec])) rfl, hkeep _ (.inr (by simp [F.CAN_ERR_last, F.CAN_ERR_rec])) rfl⟩

/-- Else the counters, the state and the events follow. -/
theorem counters_of_counted (hb : b = true) (hC : C < 256) : t.f (F.CAN_ERR_tec k) = min 255 T ∧ t.f (F.CAN_ERR_rec k) = C ∧
    canState t k = (if 255 < T then 4 else if 128 ≤ T ∨ 128 ≤ C then 3 else 2) ∧
    (255 < T → t.on (F.CAN_EVENT_bus_off k) = true) ∧
    (s.f (F.CAN_ERR_tec k) < 128 → s.f (F.CAN_ERR_rec k) < 128 → (128 ≤ T ∨ 128 ≤ C) → t.on (F.CAN_EVENT_err_passive k) = true) ∧
    (s.f (F.CAN_ERR_tec k) < 96 → s.f (F.CAN_ERR_rec k) < 96 → (96 ≤ T ∨ 96 ≤ C) → t.on (F.CAN_EVENT_err_warn k) = true) := by
  subst hb
  have hd := disjoint_shown (s := s) (e := e) (data := data) hm T C
  have ht := ht.sets
  rw [if_pos rfl] at ht
  have hval : ∀ y v, (y, v) ∈ countedFields s k T C → t.f y = v % 2 ^ (y.hi + 1 - y.lo) := fun y v hmem =>
    Sets.f_of_disjoint hd ht (List.mem_append_right _ hmem)
  have hset : ∀ y, y.hi = y.lo → (y, 1) ∈ countedFields s k T C → t.on y = true := fun y hbit hmem =>
    (Sets.on_of_disjoint hd ht (List.mem_append_right _ hmem) hbit).trans (by decide)
  have hcross : ∀ n, n ≤ 255 → s.f (F.CAN_ERR_tec k) < n → s.f (F.CAN_ERR_rec k) < n → (n ≤ T ∨ n ≤ C) → crosses s k n (min 255 T) C = true := by
    intro n hn h1 h2 h3
    have hup : n ≤ min 255 T ∨ n ≤ C := by omega
    have hlow : ¬ (n ≤ s.f (F.CAN_ERR_tec k) ∨ n ≤ s.f (F.CAN_ERR_rec k)) := by omega
    unfold crosses
    rw [decide_eq_true hup, decide_eq_false hlow]
    rfl
  refine ⟨?_, ?_, ?_, fun h => ?_, fun h1 h2 h3 => ?_, fun h1 h2 h3 => ?_⟩
  · exact (hval (F.CAN_ERR_tec k) (min 255 T) (by simp [countedFields])).trans (by simp only [F.CAN_ERR_tec]; omega)
  · exact (hval (F.CAN_ERR_rec k) C (by simp [countedFields])).trans (by simp only [F.CAN_ERR_rec]; omega)
  · split
    · next h => exact hval (F.CAN_STAT_state k) 4 (by simp [countedFields, errStateAfter, h])
    · next h =>
      refine (hval (F.CAN_STAT_state k) _ (List.mem_append_right _ ?_)).trans (b := (if 128 ≤ T ∨ 128 ≤ C then 3 else 2) % 8) rfl |>.trans ?_
      · unfold errStateAfter
        rw [if_neg h]
        exact List.mem_singleton_self _
      · split <;> rfl
  · exact hset (F.CAN_EVENT_bus_off k) rfl (by simp [countedFields, errStateAfter, h])
  · exact hset (F.CAN_EVENT_err_passive k) rfl (by simp [countedFields, hcross 128 (by omega) h1 h2 h3])
  · exact hset (F.CAN_EVENT_err_warn k) rfl (by simp [countedFields, hcross 96 (by omega) h1 h2 h3])

end

/-! ### Wakes -/

/-- What a wake from the bus leaves. -/
def WokenFrom (s : State) (k : Nat) (t : State) : Prop :=
  canState t k = 1 ∧ t.on (F.CAN_EVENT_wake k) = true ∧ (canSt t k).stb = false ∧ (canSt t k).wakeT = some s.now ∧
    (canSt t k).sleepReq = false ∧
    (s.on (F.CAN_CTL_wake_cpu k) = true → t.hid.wake = { wfi := false, waken := s.hid.wake.waken || pcieHost s, event := true }) ∧
    (s.on (F.CAN_CTL_wake_cpu k) = false → t.hid.wake = s.hid.wake) ∧ KeepRegs (fun off => off = R.CAN_STAT k ∨ off = R.CAN_EVENT k) s t

theorem wokenFrom_of_sets {s t : State} {k : Nat}
    (ht : Sets [(F.CAN_EVENT_wake k, 1), (F.CAN_STAT_state k, 1)] (wokenHid s k) s t) : WokenFrom s k t := by
  have hd : DisjointFields [(F.CAN_EVENT_wake k, 1), (F.CAN_STAT_state k, 1)] := by
    simp [DisjointFields, Clear, F.CAN_EVENT_wake, F.CAN_STAT_state, R.CAN_EVENT, R.CAN_STAT]
  have hheld : canSt t k = { canSt s k with stb := false, sleepReq := false, wakeT := some s.now } :=
    canSt_put_self (congrArg Hid.can ht.hid_eq)
  have hwake : t.hid.wake = if s.on (F.CAN_CTL_wake_cpu k) then
      { wfi := false, waken := s.hid.wake.waken || pcieHost s, event := true } else s.hid.wake := congrArg Hid.wake ht.hid_eq
  refine ⟨Sets.f_of_disjoint hd ht (y := F.CAN_STAT_state k) (v := 1) (by simp),
    (Sets.on_of_disjoint hd ht (y := F.CAN_EVENT_wake k) (v := 1) (by simp) rfl).trans (by decide), by rw [hheld], by rw [hheld], by rw [hheld],
    fun h => hwake.trans (if_pos h), fun h => hwake.trans (if_neg (by simp [h])), ht.keepRegs (by simp [F.CAN_EVENT_wake, F.CAN_STAT_state])⟩

section
variable {s : State} {k : Fin 4}

/-- A command whose action wakes the controller. -/
theorem completes_woken {w : CanWakeBy} (hup : s.up = true) (hrun : (canWake k w).run s = (canBusWake k).run s) :
    Completes (.canWake k w) s (WokenFrom s k) := by
  have hset := sets_canBusWake k hup
  rw [← hrun] at hset
  obtain ⟨t, he, ht⟩ := completes_sets hset (c := .canWake k w) (by
    simp only [List.forall_mem_cons, List.not_mem_nil, false_imp_iff, implies_true, and_true, F.CAN_EVENT_wake, F.CAN_STAT_state, R.CAN_EVENT,
      R.CAN_STAT, R.SYS_MODE_STAT]
    omega) rfl
  exact ⟨t, he, wokenFrom_of_sets ht⟩

theorem completes_unwoken {w : CanWakeBy} (hrun : (canWake k w).run s = s) : Completes (.canWake k w) s (Sets [] s.hid s) :=
  completes_sets (by rw [hrun]; exact Sets.refl s) (by simp) rfl

variable (hon : canOn s = true) (hst : canState s k = 5)
include hon hst

theorem run_canWake_level (us : BitVec 16) : (canWake k (.level us)).run s =
    if s.f (F.CAN_CTL_wake_mode k) = 1 ∧ max 1 (s.f (F.CAN_WAKE_CFG_filt k)) ≤ us.toNat then (canBusWake k).run s else s := by
  unfold canWake
  rw [run_whenA]
  simp only [hon, hst, true_and, decide_eq_true_eq]

theorem run_canWake_frame (hmode : s.f (F.CAN_CTL_wake_mode k) = 2) (m : CanMsg) (good : Bool) : (canWake k (.frame m good)).run s =
    if good = false ∨ m.brs = true then (bump (R.CAN_WAKE_MISS k)).run s
    else if wakeFrame s k m = true then (canBusWake k).run s else s := by
  have hyes : decide (canOn s = true ∧ canState s k = 5 ∧ s.f (F.CAN_CTL_wake_mode k) = 2) = true := decide_eq_true ⟨hon, hst, hmode⟩
  unfold canWake
  rw [run_whenA, if_pos hyes]
  by_cases h : good = false ∨ m.brs = true
  · rw [if_pos h]
    exact congrArg (applyAll · s) (if_pos (by simpa using h))
  · rw [if_neg h]
    refine (congrArg (applyAll · s) (if_neg (by simpa using h))).trans ?_
    exact run_only _ _ _

end

/-! ### The statement -/

/-- The codes of an enable. -/
theorem enableCode_of_off {s : State} {k : Fin 4} {v : Word} (hen : s.on (F.CAN_CTL_en k) = false) :
    enableCode s k (v ||| 1#32) = if k ≠ 3 ∧ v.toNat / 2 % 4 = 1 then 1 else if timingOk s k then 0 else 3 := by
  have hask : asksEnable s k (v ||| 1#32) = true := by
    unfold asksEnable
    rw [hen]
    simp
  unfold enableCode
  rw [asksListen_congr (k := k) (v := v ||| 1#32) (w := v) (by simp) (by simp), hask]
  by_cases h : k ≠ 3 ∧ v.toNat / 2 % 4 = 1
  · rw [if_pos (asksListen_iff.2 h), if_pos h]
  · rw [if_neg (by simp [asksListen_eq_false h]), if_neg h]
    cases timingOk s k <;> rfl

/-- What an error counts for a sender is a multiple of 8, and at least 8 where nothing excuses it; for a receiver it is more than
before, to the limit. -/
theorem errCounts_spec (s : State) (k : Nat) (e : CanFault) (data : Bool) (told : Nat) (toldRec : Nat) :
    ((canSt s k).cur.isSome = true → (errTec s k e data told - s.f (F.CAN_ERR_tec k)) % 8 = 0 ∧ s.f (F.CAN_ERR_tec k) ≤ errTec s k e data told ∧
      (e ≠ .ack → (e ≠ .stuff ∨ data = true) → s.f (F.CAN_ERR_tec k) + 8 ≤ errTec s k e data told)) ∧
    ((canSt s k).cur.isSome = false → s.f (F.CAN_ERR_rec k) < errRec s k e toldRec ∨ errRec s k e toldRec = 255) := by
  unfold errTec errRec
  refine ⟨fun h => ?_, fun h => ?_⟩
  · rw [h]
    exact tecNext_spec _ _ _ _ _
  · rw [h]
    exact recNext_spec _ _ _

theorem off_canReg_ne_mode {k : Fin 4} {off : Nat} (h : off = R.CAN_CTL k ∨ off = R.CAN_STAT k ∨ off = R.CAN_ERR k ∨ off = R.CAN_EVENT k ∨
    off = R.CAN_WAKE_MISS k) : off ≠ R.SYS_MODE_STAT := by
  simp only [R.CAN_CTL, R.CAN_STAT, R.CAN_ERR, R.CAN_EVENT, R.CAN_WAKE_MISS, R.SYS_MODE_STAT] at h ⊢
  omega

/-- Settles O48. -/
theorem canControlAndErrorsMoveTheState : Obligations.CanControlAndErrorsMoveTheState := by
  unfold Obligations.CanControlAndErrorsMoveTheState
  refine ⟨?_, ⟨?_, ?_, ?_, ?_⟩⟩
  · intro s p k v hl c listens frame
    refine ⟨fun hen h3 hcur hst => ⟨fun hlisten => ?_, fun hlisten htiming => ?_, fun hlisten htiming => ?_⟩,
      fun h3 h5 => completes_disable hl h3 h5, fun hen h0 hlisten hwake hst => ?_,
      fun hen h0 h3 hst => completes_recover hl hen h0 h3 hst⟩
    · obtain ⟨t, he, hresult, hoff, hmode, hstate, hframe⟩ := completes_enable_refused hl hen h3 hcur hst
        ((enableCode_of_off hen).trans (if_pos hlisten)) (by decide)
      exact ⟨t, he, hresult, hoff, hmode (asksListen_iff.2 hlisten), hstate, hframe⟩
    · obtain ⟨t, he, hresult, hoff, -, hstate, hframe⟩ := completes_enable_refused hl hen h3 hcur hst (n := 3)
        ((enableCode_of_off hen).trans ((if_neg hlisten).trans (if_neg (by simp [htiming])))) (by decide)
      exact ⟨t, he, hresult, hoff, hstate, hframe⟩
    · exact completes_enable_accepted hl hen h3 hst ((enableCode_of_off hen).trans ((if_neg hlisten).trans (if_pos htiming)))
    · obtain ⟨hask, hcode⟩ := sleepCode_cases (v := v) hwake hst
      refine ⟨fun hk => ?_, fun hk hmode hstb => ?_, fun hk hfree => ?_⟩
      · exact completes_sleep_refused hl hen h0 hlisten hst (hcode.trans (if_pos hk)) (by decide)
      · exact completes_sleep_refused hl hen h0 hlisten hst (hcode.trans ((if_neg hk).trans (if_pos ⟨hmode, hstb⟩))) (by decide)
      · exact completes_sleep_accepted hl hen h0 hlisten hst (hcode.trans ((if_neg hk).trans (if_neg hfree))) hask
  · intro s k e tec rec data hact hen hsleep frame sends T C
    obtain ⟨hsends, hreceives⟩ := errCounts_spec s k e data tec.toNat rec.toNat
    refine ⟨hsends, hreceives, fun hres hpex => completes_protocolException hact hen hsleep hres hpex, fun hpex => ?_⟩
    obtain ⟨t, he, m, hm, ht⟩ := completes_error (tec := tec) (rec := rec) (data := data) hact hen hsleep hpex
    obtain ⟨hlast, hcur, hbusy, hframe, hbit⟩ := shown_of_error hm ht
    refine ⟨t, he, hlast, hcur, hbusy, hframe, hbit, fun hlisten => counters_of_uncounted hm ht (by simp [hlisten]), fun hlisten => ?_⟩
    obtain ⟨htec, hrec, hstate, hoff, hpassive, hwarn⟩ := counters_of_counted hm ht (by simp [hlisten]) (errRec_lt s k e rec)
    refine ⟨htec, hrec, hstate, fun h => ⟨hoff h, ?_⟩, hpassive, hwarn⟩
    have hover : (!(canSt s k).listen && decide (255 < errTec s k e data tec.toNat)) = true := by
      rw [hlisten]
      exact decide_eq_true h
    rw [ht.canSt_eq, errSt, if_pos hover]
  · refine fun s k hon hst hrec hfree => completes_sets (sets_busOffDone hon hfree hst hrec) (fun x hx => off_canReg_ne_mode (k := k) ?_) rfl
    simp only [List.mem_cons, List.not_mem_nil, or_false] at hx
    obtain rfl | rfl | rfl | rfl | rfl := hx <;> simp [F.CAN_ERR_tec, F.CAN_ERR_rec, F.CAN_STAT_state, F.CAN_EVENT_bus_on, F.CAN_CTL_recover]
  · refine fun s k hon hst hfree => completes_sets (sets_canIntegrated hon hfree hst) (fun x hx => off_canReg_ne_mode (k := k) ?_) rfl
    rw [List.mem_singleton.1 hx]
    exact .inr (.inl rfl)
  · intro s k hon hst wakes mode held
    have hup : s.up = true := by
      unfold canOn at hon
      exact (of_decide_eq_true hon).1
    refine ⟨fun us h => completes_woken hup ((run_canWake_level hon hst us).trans (if_pos h)),
      fun us h => completes_unwoken ((run_canWake_level hon hst us).trans (if_neg h)), fun m good hmode h => ?_,
      fun m good hmode hgood hbrs hw => ?_, fun m good hmode hgood hbrs hw => ?_,
      fun p v hl hen h0 _ => completes_wakeByWrite hl hen h0 hst⟩
    · have hset := Sets.setW (R.CAN_WAKE_MISS k) (bumped (s.rd (R.CAN_WAKE_MISS k))) s
      rw [← bump_eq, ← (run_canWake_frame hon hst hmode m good).trans (if_pos h)] at hset
      exact completes_sets hset (fun x hx => off_canReg_ne_mode (k := k) (by
        rw [List.mem_singleton.1 hx]
        exact .inr (.inr (.inr (.inr rfl))))) rfl
    · exact completes_woken hup ((run_canWake_frame hon hst hmode m good).trans ((if_neg (by simp [hgood, hbrs])).trans (if_pos hw)))
    · exact completes_unwoken ((run_canWake_frame hon hst hmode m good).trans
        ((if_neg (by simp [hgood, hbrs])).trans (if_neg (by simp [hw]))))

end Sys2Proof.Machine
end

section
/-!
The rules of received frames that the statements on them share (R414, R415): what a mailbox takes, what the FIFO takes and its head
window shows, and what the reception of a frame changes in all.
-/

namespace Sys2Proof.Machine

/-! ### The words of a frame -/

theorem digit_of_sum {a b c d i : Nat} (ha : a < 256) (hb : b < 256) (hc : c < 256) (hd : d < 256) (hi : i < 4) :
    (a + b * 256 + c * 65536 + d * 16777216) % 4294967296 / 256 ^ i % 256 = [a, b, c, d].getD i 0 := by
  obtain rfl | rfl | rfl | rfl : i = 0 ∨ i = 1 ∨ i = 2 ∨ i = 3 := by omega
  · show _ / 1 % 256 = a
    omega
  · show _ / 256 % 256 = b
    omega
  · show _ / 65536 % 256 = c
    omega
  · show _ / 16777216 % 256 = d
    omega

/-- A byte of a word that is summed from four bytes. -/
theorem extract_sum_bytes (x : Nat → Byte) {i : Nat} (hi : i < 4) :
    (BitVec.ofNat 32 ((List.range 4).foldl (fun a i => a + (x i).toNat * 2 ^ (8 * i)) 0)).extractLsb' (8 * i) 8 = x i := by
  have hsum : (List.range 4).foldl (fun a i => a + (x i).toNat * 2 ^ (8 * i)) 0 =
      (x 0).toNat + (x 1).toNat * 256 + (x 2).toNat * 65536 + (x 3).toNat * 16777216 := by
    rw [show List.range 4 = [0, 1, 2, 3] from rfl, List.foldl_cons, List.foldl_cons, List.foldl_cons, List.foldl_cons, List.foldl_nil, Nat.zero_add]
    norm_num
  refine BitVec.eq_of_toNat_eq ?_
  rw [hsum, BitVec.extractLsb'_toNat, BitVec.toNat_ofNat, Nat.shiftRight_eq_div_pow, Nat.pow_mul]
  refine (digit_of_sum (x 0).isLt (x 1).isLt (x 2).isLt (x 3).isLt hi).trans ?_
  obtain rfl | rfl | rfl | rfl : i = 0 ∨ i = 1 ∨ i = 2 ∨ i = 3 := by omega
  all_goals rfl

/-- The data bytes of a frame show in their words. -/
theorem extract_dataWord (old : Word) {d : List Byte} {w i : Nat} (hi : i < 4) (hd : 4 * w + i < d.length) :
    (dataWord old d w).extractLsb' (8 * i) 8 = d.getD (4 * w + i) 0#8 := by
  refine (extract_sum_bytes (fun i => d.getD (4 * w + i) (old.extractLsb' (8 * i) 8)) hi).trans ?_
  rw [List.getD_eq_getElem _ _ hd, List.getD_eq_getElem _ _ hd]

/-! ### A mailbox -/

/-- The fields of the data of a frame in the words at `row`, over the words `old`. -/
def dataFields (row : Nat → Nat) (word : Nat → Word) (l : List Nat) : List (Fld × Nat) := l.flatMap fun w => [(wordFld (row w), (word w).toNat)]

theorem mem_dataFields {row : Nat → Nat} {word : Nat → Word} {l : List Nat} {x : Fld × Nat} :
    x ∈ dataFields row word l ↔ ∃ w ∈ l, x = (wordFld (row w), (word w).toNat) := by
  simp only [dataFields, List.mem_flatMap, List.mem_singleton]

/-- The data words that a frame of `n` bytes fills. -/
def filledWords (n : Nat) : List Nat := (List.range 16).filter fun w => 4 * w < n

/-- The fields with which a frame fills a mailbox. -/
def storeFields (s : State) (k b : Nat) (m : CanMsg) (sof : BitVec 64) : List (Fld × Nat) :=
  [(wordFld (R.CAN_MB_CFG k b), (frameCfg m (s.rd (R.CAN_MB_CFG k b)) ||| 0x20000#32).toNat), (wordFld (R.CAN_MB_ID k b), (frameId m).toNat)] ++
    pairFields (R.CAN_MB_TS k b) sof ++
    (if !m.rtr then dataFields (R.CAN_MB_DATA k b) (fun w => dataWord (s.rd (R.CAN_MB_DATA k b w)) (msgBytes m) w)
      (filledWords (msgBytes m).length) else []) ++ [(F.CAN_EVENT_rx k, 1)]

theorem sets_forEach_filter {l : List Nat} {c : Nat → Bool} {row : Nat → Nat} {word : Nat → Word} (s : State) :
    Sets (dataFields row word (l.filter c)) s.hid s ((forEach l fun w => only (c w) (setW (row w) (word w))).run s) := by
  have hall := sets_forEach (f := fun w => if c w then [(wordFld (row w), (word w).toNat)] else []) (act := fun w => only (c w) (setW (row w) (word w))) l
    (fun w _ u => by
      rw [run_only]
      split
      · exact Sets.setW _ _ u
      · exact Sets.refl u) s
  refine hall.cast ?_ rfl
  clear hall
  unfold dataFields
  induction l with
  | nil => rfl
  | cons w l ih =>
    rw [List.flatMap_cons, List.filter_cons, ih]
    split <;> rfl

theorem sets_mbStore (s : State) (k b : Nat) (m : CanMsg) (sof : BitVec 64) :
    Sets (storeFields s k b m sof) s.hid s ((mbStore k b m sof).run s) := by
  unfold mbStore
  rw [run_fun, run_seq_cons, run_seq_cons, run_seq_cons, run_seq_cons, run_seq_cons, run_seq_nil, setB_eq]
  have hhead := (((Sets.setW (R.CAN_MB_CFG k b) (frameCfg m (s.rd (R.CAN_MB_CFG k b)) ||| 0x20000#32) s).then_setW (R.CAN_MB_ID k b)
    (frameId m)).then_set64 (R.CAN_MB_TS k b) sof)
  exact (hhead.then_only (!m.rtr) fun _ => (sets_forEach_filter _)).then_setF _ _

/-! ### The FIFO and its head window -/

/-- What the head window shows of a FIFO. -/
def headCfg (q : List (CanMsg × BitVec 64)) : Word := match q.head? with | some f => frameCfg f.1 0#32 | none => 0#32
def headId (q : List (CanMsg × BitVec 64)) : Word := match q.head? with | some f => frameId f.1 | none => 0#32
def headTs (q : List (CanMsg × BitVec 64)) : BitVec 64 := match q.head? with | some f => f.2 | none => 0#64
def headData (q : List (CanMsg × BitVec 64)) (w : Nat) : Word := match q.head? with | some f => dataWord 0#32 (msgBytes f.1) w | none => 0#32

theorem headTs_eq (q : List (CanMsg × BitVec 64)) : headTs q = (q.head?.map (·.2)).getD 0#64 := by
  unfold headTs
  cases q <;> rfl

def headFields (k : Nat) (q : List (CanMsg × BitVec 64)) : List (Fld × Nat) :=
  [(F.CAN_STAT_fifo_lvl k, q.length), (wordFld (R.CAN_HEAD_CFG k), (headCfg q).toNat), (wordFld (R.CAN_HEAD_ID k), (headId q).toNat)] ++
    pairFields (R.CAN_HEAD_TS k) (headTs q) ++ dataFields (R.CAN_HEAD_DATA k) (headData q) (List.range 16)

theorem mem_headFields {k : Nat} {q : List (CanMsg × BitVec 64)} {x : Fld × Nat} (hx : x ∈ headFields k q) :
    x = (F.CAN_STAT_fifo_lvl k, q.length) ∨ x ∈ pairFields (R.CAN_HEAD_TS k) (headTs q) ∨
      x.1.off = R.CAN_HEAD_CFG k ∨ x.1.off = R.CAN_HEAD_ID k ∨ ∃ w < 16, x.1.off = R.CAN_HEAD_DATA k w := by
  unfold headFields at hx
  simp only [List.mem_append, List.mem_cons, List.not_mem_nil, or_false, mem_dataFields, List.mem_range] at hx
  obtain ((rfl | rfl | rfl) | hx) | ⟨w, hw, rfl⟩ := hx
  · exact .inl rfl
  · exact .inr (.inr (.inl rfl))
  · exact .inr (.inr (.inr (.inl rfl)))
  · exact .inr (.inl hx)
  · exact .inr (.inr (.inr (.inr ⟨w, hw, rfl⟩)))

theorem sets_headShow (k : Nat) (s : State) : Sets (headFields k (canSt s k).fifo) s.hid s ((headShow k).run s) := by
  unfold headShow
  rw [run_fun, run_seq_cons, run_seq_cons, run_seq_cons, run_seq_cons, run_seq_cons, run_seq_nil]
  have hhead := (((Sets.setF (F.CAN_STAT_fifo_lvl k) (canSt s k).fifo.length s).then_setW (R.CAN_HEAD_CFG k) (headCfg (canSt s k).fifo)).then_setW
    (R.CAN_HEAD_ID k) (headId (canSt s k).fifo)).then_set64 (R.CAN_HEAD_TS k) (headTs (canSt s k).fifo)
  have hdata := fun u => sets_forEach (f := fun w => [(wordFld (R.CAN_HEAD_DATA k w), (headData (canSt s k).fifo w).toNat)])
    (act := fun w => setW (R.CAN_HEAD_DATA k w) (headData (canSt s k).fifo w)) (List.range 16) (fun w _ u => Sets.setW _ _ u) u
  exact hhead.trans ((hdata _).cast rfl hhead.hid_eq)

section
variable {s : State} {k : Nat} {m : CanMsg} {sof : BitVec 64}

theorem sets_fifoOffer_dropped (h : fifoPasses s k m = false) :
    Sets [countOne s (R.CAN_RX_DROP k)] s.hid s ((fifoOffer k m sof).run s) := by
  have hrun : (fifoOffer k m sof).run s = (bump (R.CAN_RX_DROP k)).run s := congrArg (applyAll · s) (if_pos (by rw [h]; rfl))
  rw [hrun, bump_eq]
  exact Sets.setW _ _ s

section
variable (h : fifoPasses s k m = true)
include h

theorem sets_fifoOffer_full (hfull : 32 ≤ (canSt s k).fifo.length) :
    Sets [countOne s (R.CAN_RXF_OVR k), (F.CAN_EVENT_fifo_ovr k, 1)] s.hid s ((fifoOffer k m sof).run s) := by
  have hrun : (fifoOffer k m sof).run s = (seq [bump (R.CAN_RXF_OVR k), setB (F.CAN_EVENT_fifo_ovr k)]).run s :=
    congrArg (applyAll · s) ((if_neg (by rw [h]; simp)).trans (if_pos hfull))
  rw [hrun, run_seq_cons, run_seq_cons, run_seq_nil, bump_eq, setB_eq]
  exact (Sets.setW _ _ s).then_setF _ _

theorem setsCan_fifoOffer_taken (hroom : (canSt s k).fifo.length < 32) : SetsCan
    ((if (canSt s k).fifo.isEmpty then [(F.CAN_EVENT_fifo k, 1)] else []) ++ headFields k ((canSt s k).fifo ++ [(m, sof)])) k
    { canSt s k with fifo := (canSt s k).fifo ++ [(m, sof)] } s ((fifoOffer k m sof).run s) := by
  have hrun : (fifoOffer k m sof).run s = (seq [canA k fun c => { c with fifo := c.fifo ++ [(m, sof)] },
      only (canSt s k).fifo.isEmpty (setB (F.CAN_EVENT_fifo k)), headShow k]).run s :=
    congrArg (applyAll · s) ((if_neg (by rw [h]; simp)).trans (if_neg (by omega)))
  rw [hrun, run_seq_cons, run_seq_cons, run_seq_cons, run_seq_nil]
  have hput := setsCan_canA k (fun c => { c with fifo := c.fifo ++ [(m, sof)] }) s
  have hevent := hput.then_sets (a := only (canSt s k).fifo.isEmpty (setB (F.CAN_EVENT_fifo k)))
    ((Sets.refl _).then_only _ fun _ => Sets.setF (F.CAN_EVENT_fifo k) 1 _)
  have hhead := hevent.then_sets (sets_headShow k _)
  rw [hevent.canSt_eq] at hhead
  exact hhead

end

end

/-! ### The reception of a frame -/

theorem run_seq_pair (a b : Act) (s : State) : (seq [a, b]).run s = b.run (a.run s) := by
  rw [run_seq_cons, run_seq_cons, run_seq_nil]

/-- What follows once a frame has gone where it goes: REC and the error state, and the end of the frame (R420). -/
def restRec (s : State) (k : Nat) : Nat :=
  if s.f (F.CAN_ERR_rec k) ≤ 127 then s.f (F.CAN_ERR_rec k) - 1 else max 119 (min 127 (Config.freeRec s.fresh))
def rxTail (s : State) (k : Nat) : Act :=
  seq [only (!(canSt s k).listen) (setF (F.CAN_ERR_rec k) (restRec s k)), freshA, canErrState k, canFrameEnd k]

/-- The mailboxes that accept a frame, and the mark that the first of them has lost it (R414). -/
def rxHits (s : State) (k : Nat) (m : CanMsg) : List Nat := (List.range 64).filter fun b => mbMatches s k b m
def rxLostFields (s : State) (k : Nat) (m : CanMsg) : List (Fld × Nat) := ((rxHits s k m).head?.map fun b => (F.CAN_MB_CFG_lost k b, 1)).toList
def lostMark (s : State) (k : Nat) (m : CanMsg) : Act := match rxHits s k m with | b :: _ => setB (F.CAN_MB_CFG_lost k b) | [] => nop

theorem sets_lostMark (s u : State) (k : Nat) (m : CanMsg) : Sets (rxLostFields s k m) u.hid u ((lostMark s k m).run u) := by
  unfold rxLostFields lostMark
  cases rxHits s k m with
  | nil => exact Sets.refl u
  | cons b l => exact Sets.setF _ _ u

theorem find_rxHits_some {s : State} {k b : Nat} {m : CanMsg} (hb : b < 64) (ht : mbTakes s k b m = true)
    (hlow : ∀ c < b, mbTakes s k c m = false) : (rxHits s k m).find? (fun b => !s.on (F.CAN_MB_CFG_new k b)) = some b := by
  rw [rxHits, List.find?_filter, List.find?_range_eq_some]
  unfold mbTakes at ht hlow
  exact ⟨by simpa using ht, List.mem_range.2 hb, fun c hc => by
    rw [Bool.not_eq_true', decide_eq_false_iff_not, ← Bool.and_eq_true, hlow c hc]
    exact Bool.false_ne_true⟩

theorem find_rxHits_none {s : State} {k : Nat} {m : CanMsg} (h : ∀ b < 64, mbTakes s k b m = false) :
    (rxHits s k m).find? (fun b => !s.on (F.CAN_MB_CFG_new k b)) = none := by
  rw [rxHits, List.find?_filter, List.find?_eq_none]
  unfold mbTakes at h
  exact fun b hb => by simpa using h b (List.mem_range.1 hb)

theorem head_rxHits {s : State} {k b : Nat} {m : CanMsg} (hb : b < 64) (hm : mbMatches s k b m = true) (hlow : ∀ c < b, mbMatches s k c m = false) :
    (rxHits s k m).head? = some b := by
  rw [rxHits, List.head?_filter, List.find?_range_eq_some]
  exact ⟨hm, List.mem_range.2 hb, fun c hc => by simp [hlow c hc]⟩

section
variable {s : State} {k : Nat} {m : CanMsg} {sof : BitVec 64} (hact : canActive s k = true)
include hact

theorem run_canRx_taken {b : Nat} (h : (rxHits s k m).find? (fun b => !s.on (F.CAN_MB_CFG_new k b)) = some b) :
    (canRx k m sof).run s = (rxTail s k).run ((mbStore k b m sof).run ((canTxEnd k).run s)) := by
  unfold canRx
  rw [run_whenA, if_pos hact]
  unfold rxHits at h
  simp only [run_fun, h]
  rw [run_seq_cons, run_seq_cons]
  rfl

theorem run_canRx_untaken (h : (rxHits s k m).find? (fun b => !s.on (F.CAN_MB_CFG_new k b)) = none) :
    (canRx k m sof).run s = (rxTail s k).run ((fifoOffer k m sof).run ((lostMark s k m).run ((canTxEnd k).run s))) := by
  unfold canRx
  rw [run_whenA, if_pos hact]
  unfold rxHits at h
  simp only [run_fun, h]
  rw [run_seq_cons, run_seq_cons, run_seq_pair]
  rfl

end

/-- The end of a reception changes REC and the state; the controller holds what it held where it stays enabled and is not to sleep. -/
theorem setsCan_rxTail (s w : State) (k : Nat) : ∃ l, (∀ x ∈ l, x.1 = F.CAN_ERR_rec k ∨ x.1 = F.CAN_STAT_state k) ∧
    SetsCan l k (canSt ((rxTail s k).run w) k) w ((rxTail s k).run w) ∧
    (w.on (F.CAN_CTL_en k) = true → (canSt w k).sleepReq = false → canSt ((rxTail s k).run w) k = canSt w k) := by
  unfold rxTail
  rw [run_seq_cons, run_seq_cons, run_seq_pair]
  have hrec := ((Sets.refl w).then_only (!(canSt s k).listen) (a := setF (F.CAN_ERR_rec k) (restRec s k))
    fun _ => Sets.setF (F.CAN_ERR_rec k) (restRec s k) _).then_freshA
  have herr := (hrec.setsCan k).then_sets (sets_canErrState k _)
  have hoff : ∀ x ∈ ([] ++ if !(canSt s k).listen then [(F.CAN_ERR_rec k, restRec s k)] else []) ++
      errStateFields (freshA.run ((only (!(canSt s k).listen) (setF (F.CAN_ERR_rec k) (restRec s k))).run w)) k,
      x.1 = F.CAN_ERR_rec k ∨ x.1 = F.CAN_STAT_state k := by
    intro x hx
    obtain ⟨v, hv⟩ := errStateFields_sublist (freshA.run ((only (!(canSt s k).listen) (setF (F.CAN_ERR_rec k) (restRec s k))).run w)) k
    have hx := ((ite_sublist (List.Sublist.refl [(F.CAN_ERR_rec k, restRec s k)])).append hv).subset hx
    simp only [List.cons_append, List.nil_append, List.mem_cons, List.not_mem_nil, or_false] at hx
    obtain rfl | rfl := hx
    · exact .inl rfl
    · exact .inr rfl
  obtain ⟨m, hm, hset, -, -, -, hawake⟩ := setsCan_canFrameEnd k ((canErrState k).run (freshA.run
    ((only (!(canSt s k).listen) (setF (F.CAN_ERR_rec k) (restRec s k))).run w)))
  refine ⟨_, fun x hx => ?_, herr.trans hset, fun hen hsleep => ?_⟩
  · obtain hx | hx := List.mem_append.1 hx
    · exact hoff x hx
    · exact .inr (hm x hx)
  · refine (hawake ?_ ?_).1.trans herr.canSt_eq
    · refine (on_of_rd_eq (x := F.CAN_CTL_en k) (herr.sets.rd_of_ne fun x hx => ?_)).trans hen
      obtain h | h := hoff x hx <;> rw [h] <;>
        simp [F.CAN_ERR_rec, F.CAN_STAT_state, F.CAN_CTL_en, R.CAN_CTL, R.CAN_ERR, R.CAN_STAT]
    · rw [herr.canSt_eq]
      exact hsleep

/-- The registers that the reception of a frame changes. -/
def rxReg (k off : Nat) : Prop := off = R.CAN_STAT k ∨ off = R.CAN_EVENT k ∨ off = R.CAN_ERR k ∨ off = R.CAN_RX_DROP k ∨
  off = R.CAN_RXF_OVR k ∨ headWord k off ∨ ∃ b : Fin 64, mbWord k b off

theorem off_of_mem_storeFields {s : State} {k b : Nat} {m : CanMsg} {sof : BitVec 64} {x : Fld × Nat} (hx : x ∈ storeFields s k b m sof) :
    mbWord k b x.1.off ∨ x.1.off = R.CAN_EVENT k := by
  unfold storeFields pairFields at hx
  simp only [List.mem_append, List.mem_cons, List.not_mem_nil, or_false] at hx
  obtain (((rfl | rfl) | rfl | rfl) | hx) | rfl := hx
  · left; simp only [mbWord, wordFld, R.CAN_MB_CFG]; omega
  · left; simp only [mbWord, wordFld, R.CAN_MB_CFG, R.CAN_MB_ID]; omega
  · left; simp only [mbWord, wordFld, R.CAN_MB_CFG, R.CAN_MB_TS]; omega
  · left; simp only [mbWord, wordFld, R.CAN_MB_CFG, R.CAN_MB_TS]; omega
  · split at hx
    · obtain ⟨w, hw, rfl⟩ := mem_dataFields.1 hx
      have hlt := List.mem_range.1 (List.mem_filter.1 hw).1
      left; simp only [mbWord, wordFld, R.CAN_MB_CFG, R.CAN_MB_DATA]; omega
    · exact absurd hx List.not_mem_nil
  · exact .inr rfl

theorem off_of_mem_headFields {k : Nat} {q : List (CanMsg × BitVec 64)} {x : Fld × Nat} (hx : x ∈ headFields k q) :
    headWord k x.1.off ∨ x.1.off = R.CAN_STAT k := by
  obtain rfl | hx | hx | hx | ⟨w, hw, hx⟩ := mem_headFields hx
  · exact .inr rfl
  · left
    unfold pairFields at hx
    simp only [List.mem_cons, List.not_mem_nil, or_false] at hx
    obtain rfl | rfl := hx <;> simp only [headWord, wordFld, R.CAN_HEAD_CFG, R.CAN_HEAD_TS] <;> omega
  · left; rw [hx]; simp only [headWord]; omega
  · left; rw [hx]; simp only [headWord, R.CAN_HEAD_CFG, R.CAN_HEAD_ID]; omega
  · left; rw [hx]; simp only [headWord, R.CAN_HEAD_CFG, R.CAN_HEAD_DATA]; omega

/-- What an offer to the FIFO sets, whatever comes of it. -/
theorem setsCan_fifoOffer (s : State) (k : Nat) (m : CanMsg) (sof : BitVec 64) : ∃ l c, (∀ x ∈ l, rxReg k x.1.off) ∧
    SetsCan l k c s ((fifoOffer k m sof).run s) := by
  cases h : fifoPasses s k m with
  | false =>
    refine ⟨_, _, fun x hx => ?_, (sets_fifoOffer_dropped h).setsCan k⟩
    rw [List.mem_singleton.1 hx]
    exact .inr (.inr (.inr (.inl rfl)))
  | true =>
    by_cases hfull : 32 ≤ (canSt s k).fifo.length
    · refine ⟨_, _, fun x hx => ?_, (sets_fifoOffer_full h hfull).setsCan k⟩
      simp only [List.mem_cons, List.not_mem_nil, or_false] at hx
      obtain rfl | rfl := hx
      · exact .inr (.inr (.inr (.inr (.inl rfl))))
      · exact .inr (.inl rfl)
    · refine ⟨_, _, fun x hx => ?_, setsCan_fifoOffer_taken h (by omega)⟩
      obtain hx | hx := List.mem_append.1 hx
      · rw [List.mem_singleton.1 ((ite_sublist (List.Sublist.refl [_])).subset hx)]
        exact .inr (.inl rfl)
      · obtain hx | hx := off_of_mem_headFields hx
        · exact .inr (.inr (.inr (.inr (.inr (.inl hx)))))
        · exact .inl hx

/-- What a reception changes in all. -/
theorem setsCan_canRx (s : State) (k : Nat) (m : CanMsg) (sof : BitVec 64) : ∃ l c, (∀ x ∈ l, rxReg k x.1.off) ∧
    SetsCan l k c s ((canRx k m sof).run s) := by
  cases hact : canActive s k with
  | false =>
    have hrun : (canRx k m sof).run s = s := by
      unfold canRx
      rw [run_whenA, if_neg (by simp [hact])]
    rw [hrun]
    exact ⟨[], _, by simp, (Sets.refl s).setsCan k⟩
  | true =>
    have hend : ∀ l c w, (∀ x ∈ l, rxReg k x.1.off) → SetsCan l k c s w →
        ∃ l' c', (∀ x ∈ l', rxReg k x.1.off) ∧ SetsCan l' k c' s ((rxTail s k).run w) := by
      intro l c w hl hw
      obtain ⟨m, hm, hset, -⟩ := setsCan_rxTail s w k
      refine ⟨_, _, fun x hx => ?_, hw.trans hset⟩
      obtain hx | hx := List.mem_append.1 hx
      · exact hl x hx
      · obtain h | h := hm x hx <;> rw [h]
        · exact .inr (.inr (.inl rfl))
        · exact .inl rfl
    have hbusy : ∀ x ∈ [(F.CAN_STAT_tx_busy k, 0)], rxReg k x.1.off := fun x hx => by
      rw [List.mem_singleton.1 hx]
      exact .inl rfl
    have htx := setsCan_canTxEnd k s
    cases h : (rxHits s k m).find? (fun b => !s.on (F.CAN_MB_CFG_new k b)) with
    | some b =>
      rw [run_canRx_taken hact h]
      have hlt : b < 64 := List.mem_range.1 (List.mem_filter.1 (List.mem_of_find?_eq_some h)).1
      refine hend _ _ _ (fun x hx => ?_) (htx.then_sets (sets_mbStore _ k b m sof))
      obtain hx | hx := List.mem_append.1 hx
      · exact hbusy x hx
      · obtain hx | hx := off_of_mem_storeFields hx
        · exact .inr (.inr (.inr (.inr (.inr (.inr ⟨⟨b, hlt⟩, hx⟩)))))
        · exact .inr (.inl hx)
    | none =>
      rw [run_canRx_untaken hact h]
      have hlost := htx.then_sets (sets_lostMark s _ k m)
      obtain ⟨l, c, hl, hoffer⟩ := setsCan_fifoOffer ((lostMark s k m).run ((canTxEnd k).run s)) k m sof
      refine hend _ _ _ (fun x hx => ?_) (hlost.trans hoffer)
      obtain hx | hx := List.mem_append.1 hx
      · obtain hx | hx := List.mem_append.1 hx
        · exact hbusy x hx
        · obtain ⟨b, hb, rfl⟩ : ∃ b, (rxHits s k m).head? = some b ∧ (F.CAN_MB_CFG_lost k b, 1) = x := by
            simpa [rxLostFields] using hx
          have hlt : b < 64 := List.mem_range.1 (List.mem_filter.1 (List.mem_of_mem_head? hb)).1
          refine .inr (.inr (.inr (.inr (.inr (.inr ⟨⟨b, hlt⟩, ?_⟩)))))
          simp only [mbWord, F.CAN_MB_CFG_lost]
          omega
      · exact hl x hx

end Sys2Proof.Machine
end

section
/-!
What a received frame does beside its controller (R323, R430): in network time, where it is a reference frame there, and in the Whistle,
which it may be meant for.
-/

namespace Sys2Proof.Machine

/-! ### Network time -/

/-- From `s` to `t` registers of network time change, and what its block holds. -/
def NtMoves (s t : State) : Prop := ∃ l n, (∀ x ∈ l, ntReg x.1.off) ∧ Sets l (withNt s n) s t

theorem NtMoves.refl (s : State) : NtMoves s s := ⟨[], s.hid.nt, by simp, Sets.refl s⟩

theorem NtMoves.trans {s t u : State} (ht : NtMoves s t) (hu : NtMoves t u) : NtMoves s u := by
  obtain ⟨l, n, hl, ht⟩ := ht
  obtain ⟨l', n', hl', hu⟩ := hu
  refine ⟨l ++ l', n', fun x hx => ?_, ht.trans (hu.cast rfl ?_)⟩
  · obtain hx | hx := List.mem_append.1 hx
    · exact hl x hx
    · exact hl' x hx
  · unfold withNt
    rw [ht.hid_eq]
    rfl

/-- An action of network time changes nothing else. -/
def NtOnly (a : Act) : Prop := ∀ s, NtMoves s (a.run s)

theorem ntOnly_setF {x : Fld} (hx : ntReg x.off) (v : Nat) : NtOnly (setF x v) := fun s =>
  ⟨_, s.hid.nt, by simpa using hx, Sets.setF x v s⟩

theorem ntOnly_setW {off : Nat} (hx : ntReg off) (v : Word) : NtOnly (setW off v) := fun s =>
  ⟨_, s.hid.nt, by simpa [wordFld] using hx, Sets.setW off v s⟩

theorem ntOnly_ntA (g : NtSt → NtSt) : NtOnly (ntA g) := fun s => ⟨[], g s.hid.nt, by simp, Sets.hidA _ s⟩

theorem ntOnly_only {c : Bool} {a : Act} (ha : NtOnly a) : NtOnly (only c a) := fun s => by
  rw [run_only]
  split
  · exact ha s
  · exact NtMoves.refl s

theorem ntOnly_fun {f : State → Act} (h : ∀ s, NtOnly (f s)) : NtOnly (fun s => f s s) := fun s => h s s

theorem ntOnly_withS {f : State → Act} (h : ∀ s, NtOnly (f s)) : NtOnly (withS f) := fun s => by
  rw [run_withS]
  exact h s s

theorem ntOnly_seq {l : List Act} (h : ∀ a ∈ l, NtOnly a) : NtOnly (seq l) := by
  induction l with
  | nil => exact NtMoves.refl
  | cons a l ih =>
    obtain ⟨ha, hl⟩ := List.forall_mem_cons.1 h
    intro s
    rw [run_seq_cons]
    exact (ha s).trans (ih hl _)

theorem ntOnly_nil : NtOnly nop := NtMoves.refl

theorem ntOnly_rebase (c : Int) : NtOnly (ntRebase c) := by
  unfold ntRebase
  exact ntOnly_fun (f := fun s => ntA _) fun _ => ntOnly_ntA _

theorem ntOnly_step (e : Rat) : NtOnly (ntStep e) := by
  unfold ntStep
  exact ntOnly_fun (f := fun s => ntRebase _) fun _ => ntOnly_rebase _

theorem ntOnly_state (n : Nat) : NtOnly (ntState n) := by
  refine ntOnly_fun (f := fun s => seq _) fun s => ntOnly_seq ?_
  simp only [List.forall_mem_cons, List.not_mem_nil, false_imp_iff, implies_true, and_true]
  exact ⟨ntOnly_setF (.inl rfl) _, ntOnly_setF (.inl rfl) _, ntOnly_only (ntOnly_setF (.inr (.inl rfl)) _), ntOnly_only (ntOnly_setF (.inr (.inl rfl)) _)⟩

theorem ntOnly_pair (e : Rat) (b : Bool) (tref : Rat) (old : Rat × Nat) : NtOnly (ntPair e b tref old) := by
  refine ntOnly_fun (f := fun s => seq _) fun s => ntOnly_seq ?_
  simp only [List.forall_mem_cons, List.not_mem_nil, false_imp_iff, implies_true, and_true]
  refine ⟨ntOnly_setW (.inr (.inr (.inl rfl))) _, ?_, ntOnly_ntA _⟩
  split
  · refine ntOnly_seq ?_
    simp only [List.forall_mem_cons, List.not_mem_nil, false_imp_iff, implies_true, and_true]
    exact ⟨ntOnly_step e, ntOnly_ntA _, ntOnly_setF (.inr (.inl rfl)) _, ntOnly_state 1⟩
  · refine ntOnly_seq ?_
    simp only [List.forall_mem_cons, List.not_mem_nil, false_imp_iff, implies_true, and_true]
    refine ⟨ntOnly_withS fun _ => ntOnly_setW (.inr (.inr (.inr (.inl rfl)))) _, ntOnly_withS fun _ => ntOnly_seq ?_, ?_⟩
    · simp only [List.forall_mem_cons, List.not_mem_nil, false_imp_iff, implies_true, and_true]
      exact ⟨ntOnly_ntA _, ntOnly_step 0, ntOnly_ntA _⟩
    · split
      · exact ntOnly_state 1
      · exact ntOnly_only (ntOnly_state 2)

theorem ntOnly_slave (m : CanMsg) (t : BitVec 64) : NtOnly (ntSlave m t) := by
  refine ntOnly_fun (f := fun s => seq _) fun s => ntOnly_seq ?_
  simp only [List.forall_mem_cons, List.not_mem_nil, false_imp_iff, implies_true, and_true]
  refine ⟨ntOnly_setF (.inl rfl) _, ntOnly_ntA _, ?_⟩
  split
  · refine ntOnly_seq ?_
    simp only [List.forall_mem_cons, List.not_mem_nil, false_imp_iff, implies_true, and_true]
    exact ⟨ntOnly_pair _ _ _ _, ntOnly_ntA _⟩
  · exact ntOnly_nil

theorem ntOnly_refRx (m : CanMsg) (t : BitVec 64) : NtOnly (ntRefRx m t) := by
  intro s
  unfold ntRefRx Act.run
  dsimp only
  split
  · exact ntOnly_slave m t s
  · refine ntOnly_seq ?_ s
    simp only [List.forall_mem_cons, List.not_mem_nil, false_imp_iff, implies_true, and_true]
    exact ⟨ntOnly_setF (.inr (.inl rfl)) _, ntOnly_ntA _, ntOnly_state 0, ntOnly_slave m t⟩
  · exact ntOnly_nil s

/-! ### The Whistle, and frames that a disabled island has lost -/

/-- From `s` to `t` registers of the Whistle change, and what it and the counts of lost frames hold. -/
def ProbeMoves (s t : State) : Prop := ∃ l h, (∀ x ∈ l, 0x180000 ≤ x.1.off ∧ x.1.off < 0x180200) ∧ Sets l h s t ∧ h.nt = s.hid.nt ∧
  ∀ j, (h.can.get {} j).fifo = (canSt s j).fifo

theorem ProbeMoves.refl (s : State) : ProbeMoves s s := ⟨[], s.hid, by simp, Sets.refl s, rfl, fun _ => rfl⟩

theorem ProbeMoves.trans {s t u : State} (ht : ProbeMoves s t) (hu : ProbeMoves t u) : ProbeMoves s u := by
  obtain ⟨l, h, hl, ht, hnt, hfifo⟩ := ht
  obtain ⟨l', h', hl', hu, hnt', hfifo'⟩ := hu
  refine ⟨l ++ l', h', fun x hx => ?_, ht.trans hu, ?_, fun j => ?_⟩
  · obtain hx | hx := List.mem_append.1 hx
    · exact hl x hx
    · exact hl' x hx
  · rw [hnt', ht.hid_eq, hnt]
  · rw [hfifo', canSt, ht.hid_eq, hfifo]

theorem probeMoves_assign (c : Nat) (a : Int) (s : State) : ProbeMoves s ((assign c a).run s) :=
  ⟨[], _, by simp, Sets.hidA (fun h => { h with probe := { h.probe with assign := some (c, a) } }) s, rfl, fun _ => rfl⟩

theorem probeMoves_bad (s : State) : ProbeMoves s (badFrame.run s) := by
  unfold badFrame
  rw [run_seq_pair, bump_eq]
  exact ⟨_, _, by simp [wordFld, F.PROBE_EVENT_assign_bad, R.PROBE_BAD_CNT, R.PROBE_EVENT], (Sets.setW _ _ s).then_setF _ _, rfl, fun _ => rfl⟩

theorem probeMoves_phase (a : BitVec 64) (w : Word) (s : State) :
    ProbeMoves s ((seq [set64 R.PROBE_TAPPLY a, setW R.PROBE_PHASE_CMD w]).run s) := by
  rw [run_seq_pair]
  exact ⟨_, _, by simp [pairFields, wordFld, R.PROBE_TAPPLY, R.PROBE_PHASE_CMD], (sets_set64 _ _ s).then_setW _ _, rfl, fun _ => rfl⟩

theorem probeMoves_frame (d : List Byte) (s : State) : ProbeMoves s ((probeFrame d).run s) := by
  unfold probeFrame
  rw [run_whenA]
  split
  · unfold Act.run
    split
    · show ProbeMoves s ((only _ (assign _ _)).run s)
      rw [run_only]
      split
      · exact probeMoves_assign _ _ s
      · exact ProbeMoves.refl s
    · dsimp only
      split
      · exact probeMoves_phase _ _ s
      · exact probeMoves_bad s
  · exact ProbeMoves.refl s

theorem probeMoves_lost (k : Nat) (s : State) :
    ProbeMoves s ((canA k fun c => { c with lost := min (2 ^ 31 - 1) (c.lost + 1) }).run s) := by
  obtain ⟨hk, hrest, hs⟩ := setsCan_canA k (fun c => { c with lost := min (2 ^ 31 - 1) (c.lost + 1) }) s
  refine ⟨[], _, by simp, hs, rfl, fun j => ?_⟩
  by_cases hj : j = k
  · rw [hj]
    exact (congrArg CanSt.fifo hk : (canSt ((canA k _).run s) k).fifo = _)
  · exact (congrArg CanSt.fifo (hrest j hj) : (canSt ((canA k _).run s) j).fifo = _)

/-! ### A received frame in all -/

/-- A received frame goes to its controller, then to network time where it is a reference frame there, then to the Whistle where it is
meant for it. -/
theorem run_canFrame (k : Nat) (m : CanMsg) (sof : BitVec 64) (s : State) :
    ∃ v, v = (if canActive s k = true ∧ s.f F.CAN_NT_CFG_ctrl = k ∧ refGood s m = true then (ntRefRx m sof).run ((canRx k m sof).run s)
      else (canRx k m sof).run s) ∧ ProbeMoves v ((canFrame k m sof).run s) ∧ (¬ probeMsg s k m → (canFrame k m sof).run s = v) := by
  refine ⟨_, rfl, ?_⟩
  unfold canFrame
  simp only [run_fun]
  rw [run_seq_cons, run_seq_cons, run_seq_pair, run_only (decide (canActive s k = true ∧ s.f F.CAN_NT_CFG_ctrl = k ∧ refGood s m = true))]
  simp only [decide_eq_true_eq]
  set v := if canActive s k = true ∧ s.f F.CAN_NT_CFG_ctrl = k ∧ refGood s m = true then (ntRefRx m sof).run ((canRx k m sof).run s)
      else (canRx k m sof).run s
  refine ⟨?_, fun hmsg => ?_⟩
  · have hlost : ∀ c d u, ProbeMoves u ((only c (only d (canA k fun c => { c with lost := min (2 ^ 31 - 1) (c.lost + 1) }))).run u) := by
      intro c d u
      rw [run_only, run_only]
      split
      · split
        · exact probeMoves_lost k u
        · exact ProbeMoves.refl u
      · exact ProbeMoves.refl u
    have hprobe : ∀ c u, ProbeMoves u ((only c (probeFrame m.data)).run u) := by
      intro c u
      rw [run_only]
      split
      · exact probeMoves_frame _ u
      · exact ProbeMoves.refl u
    exact (hlost _ _ v).trans (hprobe _ _)
  · have hno : ¬ (canActive s k = true ∧ s.f F.PROBE_ASSIGN_can = k ∧ s.on F.PROBE_ASSIGN_ID_ide = m.ide ∧
        s.f F.PROBE_ASSIGN_ID_id = m.id.toNat) := fun h => hmsg h.2
    rw [run_only, run_only, decide_eq_false hno, if_neg (by simp), if_neg (by simp)]

end Sys2Proof.Machine
end

section
/-!
The statement on received frames, settled: a frame that a mailbox takes, one that the FIFO is offered, a pop, and writes of `new`.
-/

namespace Sys2Proof.Machine

/-! ### A reception completes -/

/-- The frame is for its controller alone. -/
def plainFrame (s : State) (k : Nat) (m : CanMsg) : Prop :=
  ¬ (s.f F.CAN_NT_CFG_ctrl = k ∧ refGood s m = true) ∧ ¬ probeMsg s k m

theorem ntReg_range {off : Nat} (h : ntReg off) : 0x20F000 ≤ off ∧ off < 0x20F100 := by
  unfold ntReg at h
  simp only [R.CAN_NT_STAT, R.CAN_NT_EVENT, R.CAN_NT_OFS, R.CAN_NT_ADJ, R.CAN_NT_SNAP] at h
  omega

theorem ne_mode_of_rxReg {k off : Nat} (h : rxReg k off) : off ≠ R.SYS_MODE_STAT := by
  unfold rxReg headWord mbWord at h
  simp only [R.CAN_STAT, R.CAN_EVENT, R.CAN_ERR, R.CAN_RX_DROP, R.CAN_RXF_OVR, R.CAN_HEAD_CFG, R.CAN_MB_CFG, R.SYS_MODE_STAT] at h ⊢
  obtain h | h | h | h | h | h | ⟨b, h⟩ := h <;> omega

theorem range_of_rxReg {k off : Nat} (h : rxReg k off) : 0x200000 + k * 0x10000 ≤ off ∧ off < 0x20F000 + k * 0x10000 := by
  unfold rxReg headWord mbWord at h
  simp only [R.CAN_STAT, R.CAN_EVENT, R.CAN_ERR, R.CAN_RX_DROP, R.CAN_RXF_OVR, R.CAN_HEAD_CFG, R.CAN_MB_CFG] at h
  obtain h | h | h | h | h | h | ⟨b, h⟩ := h <;> omega

section
variable {s : State} {k : Nat} {m : CanMsg} {sof : BitVec 64} {l : List (Fld × Nat)} {c : CanSt}
  (hu : SetsCan l k c s ((canRx k m sof).run s)) (hl : ∀ x ∈ l, x.1.off ≠ R.SYS_MODE_STAT)
include hu hl

/-- What a reception leaves in the controller's words is what the controller made of it, and it changes nothing else where it is for the
controller alone. -/
theorem completes_canFrame : ∃ t, finish (canFrame k m sof) s = .next t ∧
    (∀ off, rxReg k off → t.rd off = ((canRx k m sof).run s).rd off) ∧ (canSt t k).fifo = c.fifo ∧
    (plainFrame s k m → SetsCan l k c s t) := by
  obtain ⟨v, hv, hprobe, hplain⟩ := run_canFrame k m sof s
  obtain ⟨l1, n, hl1, hnt⟩ : NtMoves ((canRx k m sof).run s) v := by
    rw [hv]
    split
    · exact ntOnly_refRx m sof _
    · exact NtMoves.refl _
  obtain ⟨l2, h, hl2, ht, -, hfifo⟩ := hprobe
  refine ⟨levelsFall.run ((canFrame k m sof).run s), finish_same _ _ ?_, fun off hoff => ?_, ?_, fun hmsg => ?_⟩
  · rw [ht.mode fun x hx => by have h := hl2 x hx; simp only [R.SYS_MODE_STAT]; omega,
      hnt.mode fun x hx => by have h := ntReg_range (hl1 x hx); simp only [R.SYS_MODE_STAT]; omega, hu.sets.mode hl]
  · rw [run_levelsFall_rd]
    have hrange := range_of_rxReg hoff
    refine (ht.rd_of_ne fun x hx => ?_).trans (hnt.rd_of_ne fun x hx => ?_)
    · have h := hl2 x hx
      omega
    · have h := ntReg_range (hl1 x hx)
      omega
  · rw [canSt_levelsFall]
    refine (congrArg (fun h : Hid => (h.can.get {} k).fifo) ht.hid_eq).trans ((hfifo k).trans ?_)
    refine (congrArg (fun h : Hid => (h.can.get {} k).fifo) hnt.hid_eq).trans ?_
    exact congrArg CanSt.fifo hu.canSt_eq
  · obtain ⟨href, hmsg⟩ := hmsg
    rw [hplain hmsg, hv, if_neg fun h => href h.2]
    exact hu.then_levelsFall

end

/-! ### A mailbox takes the frame -/

section
variable {s : State} {k : Fin 4} {m : CanMsg} {sof : BitVec 64} (hact : canActive s k = true) (hfree : canFree s k)
include hact hfree

theorem setsCan_canRx_taken {b : Nat} (h : (rxHits s k m).find? (fun b => !s.on (F.CAN_MB_CFG_new k b)) = some b) :
    ∃ l, (∀ x ∈ l, x.1 = F.CAN_ERR_rec k ∨ x.1 = F.CAN_STAT_state k) ∧
      SetsCan ([(F.CAN_STAT_tx_busy k, 0)] ++ storeFields ((canTxEnd k).run s) k b m sof ++ l) k { canSt s k with cur := none, rx := false } s
        ((canRx k m sof).run s) := by
  obtain ⟨-, hen, hsleep⟩ := hfree
  have hstore := (setsCan_canTxEnd k s).then_sets (sets_mbStore ((canTxEnd k).run s) k b m sof)
  obtain ⟨l, hl, hset, hsame⟩ := setsCan_rxTail s ((mbStore k b m sof).run ((canTxEnd k).run s)) k
  refine ⟨l, hl, ?_⟩
  rw [run_canRx_taken hact h]
  rw [hsame ?_ ?_, hstore.canSt_eq] at hset
  · exact hstore.trans hset
  · refine (on_of_rd_eq (x := F.CAN_CTL_en k) (hstore.sets.rd_of_ne fun x hx => ?_)).trans hen
    obtain hx | hx := List.mem_append.1 hx
    · rw [List.mem_singleton.1 hx]
      simp [F.CAN_STAT_tx_busy, F.CAN_CTL_en, R.CAN_STAT, R.CAN_CTL]
    · obtain hx | hx := off_of_mem_storeFields hx
      · simp only [mbWord, F.CAN_CTL_en, R.CAN_CTL, R.CAN_MB_CFG] at hx ⊢
        omega
      · rw [hx]
        simp [F.CAN_CTL_en, R.CAN_EVENT, R.CAN_CTL]
  · rw [hstore.canSt_eq]
    exact hsleep

end

section
variable {s : State} {k : Nat} {m : CanMsg} {sof : BitVec 64}

/-- Of the words that a frame fills each is set once. -/
theorem mem_storeFields {b : Nat} {x : Fld × Nat} (hx : x ∈ storeFields s k b m sof) :
    x = (wordFld (R.CAN_MB_CFG k b), (frameCfg m (s.rd (R.CAN_MB_CFG k b)) ||| 0x20000#32).toNat) ∨
      x = (wordFld (R.CAN_MB_ID k b), (frameId m).toNat) ∨ x ∈ pairFields (R.CAN_MB_TS k b) sof ∨
      (∃ w < 16, x = (wordFld (R.CAN_MB_DATA k b w), (dataWord (s.rd (R.CAN_MB_DATA k b w)) (msgBytes m) w).toNat)) ∨
      x = (F.CAN_EVENT_rx k, 1) := by
  unfold storeFields at hx
  simp only [List.mem_append, List.mem_cons, List.not_mem_nil, or_false] at hx
  obtain (((rfl | rfl) | hx) | hx) | rfl := hx
  · exact .inl rfl
  · exact .inr (.inl rfl)
  · exact .inr (.inr (.inl hx))
  · split at hx
    · obtain ⟨w, hw, rfl⟩ := mem_dataFields.1 hx
      exact .inr (.inr (.inr (.inl ⟨w, List.mem_range.1 (List.mem_filter.1 hw).1, rfl⟩)))
    · exact absurd hx List.not_mem_nil
  · exact .inr (.inr (.inr (.inr rfl)))

end

/-- The word that a frame leaves at an offset of its mailbox beside the time. -/
def storeWord (s : State) (k b : Nat) (m : CanMsg) (off : Nat) : Word :=
  if off = R.CAN_MB_CFG k b then frameCfg m (s.rd (R.CAN_MB_CFG k b)) ||| 0x20000#32
  else if off = R.CAN_MB_ID k b then frameId m
  else dataWord (s.rd off) (msgBytes m) ((off - R.CAN_MB_DATA k b 0) / 4)

section
variable (s : State) (k b : Nat) (m : CanMsg)

theorem storeWord_cfg : storeWord s k b m (R.CAN_MB_CFG k b) = frameCfg m (s.rd (R.CAN_MB_CFG k b)) ||| 0x20000#32 := if_pos rfl

theorem storeWord_id : storeWord s k b m (R.CAN_MB_ID k b) = frameId m :=
  (if_neg (by simp [R.CAN_MB_ID, R.CAN_MB_CFG])).trans (if_pos rfl)

theorem storeWord_data (w : Nat) : storeWord s k b m (R.CAN_MB_DATA k b w) = dataWord (s.rd (R.CAN_MB_DATA k b w)) (msgBytes m) w := by
  have hidx : (R.CAN_MB_DATA k b w - R.CAN_MB_DATA k b 0) / 4 = w := by
    simp only [R.CAN_MB_DATA]
    omega
  rw [storeWord, if_neg (by simp only [R.CAN_MB_DATA, R.CAN_MB_CFG]; omega), if_neg (by simp only [R.CAN_MB_DATA, R.CAN_MB_ID]; omega), hidx]

end

theorem eq_of_mem_storeFields {s : State} {k b : Nat} {m : CanMsg} {sof : BitVec 64} {x : Fld × Nat} (hx : x ∈ storeFields s k b m sof)
    (hts : x ∉ pairFields (R.CAN_MB_TS k b) sof) (hmb : x.1.off ≠ R.CAN_EVENT k) :
    x = (wordFld x.1.off, (storeWord s k b m x.1.off).toNat) := by
  obtain rfl | rfl | hx | ⟨w, -, rfl⟩ | rfl := mem_storeFields hx
  · exact congrArg (fun w : Word => (wordFld (R.CAN_MB_CFG k b), w.toNat)) (storeWord_cfg s k b m).symm
  · exact congrArg (fun w : Word => (wordFld (R.CAN_MB_ID k b), w.toNat)) (storeWord_id s k b m).symm
  · exact absurd hx hts
  · exact congrArg (fun v : Word => (wordFld (R.CAN_MB_DATA k b w), v.toNat)) (storeWord_data s k b m w).symm
  · exact absurd rfl hmb

theorem mem_pairFields {off : Nat} {v : BitVec 64} {x : Fld × Nat} (hx : x ∈ pairFields off v) :
    x.1.off = off ∨ x.1.off = off + 4 := by
  unfold pairFields at hx
  simp only [List.mem_cons, List.not_mem_nil, or_false] at hx
  obtain rfl | rfl := hx
  · exact .inl rfl
  · exact .inr rfl

section
variable {s s1 u : State} {k b : Nat} {m : CanMsg} {sof : BitVec 64} {l : List (Fld × Nat)} {h : Hid}
  (hu : Sets ([(F.CAN_STAT_tx_busy k, 0)] ++ storeFields s1 k b m sof ++ l) h s u)
  (hl : ∀ x ∈ l, x.1 = F.CAN_ERR_rec k ∨ x.1 = F.CAN_STAT_state k)
include hl

/-- All fields that such a reception sets. -/
theorem mem_taken {x : Fld × Nat} (hx : x ∈ [(F.CAN_STAT_tx_busy k, 0)] ++ storeFields s1 k b m sof ++ l) :
    x ∈ storeFields s1 k b m sof ∨ x.1.off = R.CAN_STAT k ∨ x.1.off = R.CAN_ERR k := by
  obtain hx | hx := List.mem_append.1 hx
  · obtain hx | hx := List.mem_append.1 hx
    · rw [List.mem_singleton.1 hx]
      exact .inr (.inl rfl)
    · exact .inl hx
  · obtain h | h := hl x hx <;> rw [h]
    · exact .inr (.inr rfl)
    · exact .inr (.inl rfl)

include hu

/-- A word of the mailbox that is set reads as it was set. -/
theorem rd_of_taken {off : Nat} (hm : (wordFld off, (storeWord s1 k b m off).toNat) ∈ storeFields s1 k b m sof)
    (hoff : off = R.CAN_MB_CFG k b ∨ off = R.CAN_MB_ID k b ∨ ∃ i, off = R.CAN_MB_DATA k b i) : u.rd off = storeWord s1 k b m off := by
  refine hu.rd_of_mem (List.mem_append_left _ (List.mem_append_right _ hm)) fun x hx => ?_
  by_cases ho : x.1.off = off
  · left
    obtain hx | hx | hx := mem_taken hl hx
    · subst ho
      refine eq_of_mem_storeFields hx (fun hp => ?_) fun he => ?_
      · have hp := mem_pairFields hp
        simp only [R.CAN_MB_CFG, R.CAN_MB_ID, R.CAN_MB_DATA, R.CAN_MB_TS] at hoff hp
        obtain h | h | ⟨i, h⟩ := hoff <;> omega
      · simp only [R.CAN_MB_CFG, R.CAN_MB_ID, R.CAN_MB_DATA, R.CAN_EVENT] at hoff he
        obtain h | h | ⟨i, h⟩ := hoff <;> omega
    · simp only [R.CAN_MB_CFG, R.CAN_MB_ID, R.CAN_MB_DATA, R.CAN_STAT] at hoff hx
      obtain h | h | ⟨i, h⟩ := hoff <;> omega
    · simp only [R.CAN_MB_CFG, R.CAN_MB_ID, R.CAN_MB_DATA, R.CAN_ERR] at hoff hx
      obtain h | h | ⟨i, h⟩ := hoff <;> omega
  · exact .inr ho

theorem rd_cfg_of_taken : u.rd (R.CAN_MB_CFG k b) = frameCfg m (s1.rd (R.CAN_MB_CFG k b)) ||| 0x20000#32 :=
  (rd_of_taken hu hl (by rw [storeWord_cfg]; simp [storeFields]) (.inl rfl)).trans (storeWord_cfg s1 k b m)

theorem rd_id_of_taken : u.rd (R.CAN_MB_ID k b) = frameId m :=
  (rd_of_taken hu hl (by rw [storeWord_id]; simp [storeFields]) (.inr (.inl rfl))).trans (storeWord_id s1 k b m)

theorem rd_data_of_taken (hdata : m.rtr = false) {w : Nat} (hw : w < 16) (hfill : 4 * w < (msgBytes m).length) :
    u.rd (R.CAN_MB_DATA k b w) = dataWord (s1.rd (R.CAN_MB_DATA k b w)) (msgBytes m) w := by
  refine (rd_of_taken hu hl ?_ (.inr (.inr ⟨w, rfl⟩))).trans (storeWord_data s1 k b m w)
  rw [storeWord_data, storeFields, hdata]
  refine List.mem_append_left _ (List.mem_append_right _ (mem_dataFields.2 ⟨w, ?_, rfl⟩))
  exact List.mem_filter.2 ⟨List.mem_range.2 hw, decide_eq_true hfill⟩

theorem rd64_ts_of_taken : u.rd64 (R.CAN_MB_TS k b) = sof := by
  refine hu.rd64_of_mem (fun x hx => ?_) fun x hx => ?_
  · refine List.mem_append_left _ (List.mem_append_right _ ?_)
    unfold storeFields
    exact List.mem_append_left _ (List.mem_append_left _ (List.mem_append_right _ hx))
  · obtain hx | hx | hx := mem_taken hl hx
    · obtain rfl | rfl | hx | ⟨w, hw, rfl⟩ | rfl := mem_storeFields hx
      · right; simp only [wordFld, R.CAN_MB_CFG, R.CAN_MB_TS]; omega
      · right; simp only [wordFld, R.CAN_MB_ID, R.CAN_MB_TS]; omega
      · exact .inl hx
      · right; simp only [wordFld, R.CAN_MB_DATA, R.CAN_MB_TS]; omega
      · right; simp only [F.CAN_EVENT_rx, R.CAN_EVENT, R.CAN_MB_TS]; omega
    · right; simp only [R.CAN_STAT, R.CAN_MB_TS] at hx ⊢; omega
    · right; simp only [R.CAN_ERR, R.CAN_MB_TS] at hx ⊢; omega

theorem rx_event_of_taken : u.on (F.CAN_EVENT_rx k) = true := by
  refine (hu.on_of_mem (y := F.CAN_EVENT_rx k) (v := 1) ?_ (fun x hx => ?_) rfl (by simp [F.CAN_EVENT_rx])).trans (by decide)
  · refine List.mem_append_left _ (List.mem_append_right _ ?_)
    unfold storeFields
    exact List.mem_append_right _ (List.mem_singleton_self _)
  · obtain hx | hx | hx := mem_taken hl hx
    · obtain rfl | rfl | hx | ⟨w, hw, rfl⟩ | rfl := mem_storeFields hx
      · right; left; simp only [wordFld, R.CAN_MB_CFG, F.CAN_EVENT_rx, R.CAN_EVENT]; omega
      · right; left; simp only [wordFld, R.CAN_MB_ID, F.CAN_EVENT_rx, R.CAN_EVENT]; omega
      · have hx := mem_pairFields hx
        right; left; simp only [R.CAN_MB_TS, F.CAN_EVENT_rx, R.CAN_EVENT] at hx ⊢; omega
      · right; left; simp only [wordFld, R.CAN_MB_DATA, F.CAN_EVENT_rx, R.CAN_EVENT]; omega
      · exact .inl rfl
    · right; left; simp only [R.CAN_STAT, F.CAN_EVENT_rx, R.CAN_EVENT] at hx ⊢; omega
    · right; left; simp only [R.CAN_ERR, F.CAN_EVENT_rx, R.CAN_EVENT] at hx ⊢; omega

end

/-! ### The FIFO is offered the frame -/

section
variable {s : State} {k : Fin 4} {m : CanMsg} {sof : BitVec 64} (hact : canActive s k = true) (hfree : canFree s k)
  (hnone : (rxHits s k m).find? (fun b => !s.on (F.CAN_MB_CFG_new k b)) = none)
include hact hfree hnone

/-- The state in which the FIFO is offered a frame. -/
def offeredSt (s : State) (k : Nat) (m : CanMsg) : State := (lostMark s k m).run ((canTxEnd k).run s)

omit hact hfree hnone in
theorem setsCan_offeredSt : SetsCan ([(F.CAN_STAT_tx_busy k, 0)] ++ rxLostFields s k m) k { canSt s k with cur := none, rx := false } s
    (offeredSt s k m) := (setsCan_canTxEnd k s).then_sets (sets_lostMark s _ k m)

omit hact hfree hnone in
theorem off_of_mem_offered {x : Fld × Nat} (hx : x ∈ [(F.CAN_STAT_tx_busy k, 0)] ++ rxLostFields s k m) :
    x = (F.CAN_STAT_tx_busy k, 0) ∨ ∃ b < 64, (rxHits s k m).head? = some b ∧ x = (F.CAN_MB_CFG_lost k b, 1) := by
  obtain hx | hx := List.mem_append.1 hx
  · exact .inl (List.mem_singleton.1 hx)
  · obtain ⟨b, hb, rfl⟩ : ∃ b, (rxHits s k m).head? = some b ∧ (F.CAN_MB_CFG_lost k b, 1) = x := by simpa [rxLostFields] using hx
    exact .inr ⟨b, List.mem_range.1 (List.mem_filter.1 (List.mem_of_mem_head? hb)).1, hb, rfl⟩

omit hact hfree hnone in
theorem rd_offeredSt {off : Nat} (hlow : off ≠ R.CAN_STAT k) (hmb : off < R.CAN_MB_CFG k 0) : (offeredSt s k m).rd off = s.rd off := by
  refine setsCan_offeredSt.sets.rd_of_ne fun x hx => ?_
  obtain rfl | ⟨b, -, -, rfl⟩ := off_of_mem_offered hx
  · exact Ne.symm hlow
  · simp only [F.CAN_MB_CFG_lost, R.CAN_MB_CFG] at hmb ⊢
    omega

theorem setsCan_canRx_untaken {lo : List (Fld × Nat)} {q : List (CanMsg × BitVec 64)} (hlo : ∀ x ∈ lo, rxReg k x.1.off)
    (hoffer : SetsCan lo k { canSt s k with cur := none, rx := false, fifo := q } (offeredSt s k m) ((fifoOffer k m sof).run (offeredSt s k m))) :
    ∃ l, (∀ x ∈ l, x.1 = F.CAN_ERR_rec k ∨ x.1 = F.CAN_STAT_state k) ∧
      SetsCan ([(F.CAN_STAT_tx_busy k, 0)] ++ rxLostFields s k m ++ lo ++ l) k { canSt s k with cur := none, rx := false, fifo := q } s
        ((canRx k m sof).run s) := by
  obtain ⟨-, hen, hsleep⟩ := hfree
  have hall := setsCan_offeredSt.trans hoffer
  obtain ⟨l, hl, hset, hsame⟩ := setsCan_rxTail s ((fifoOffer k m sof).run (offeredSt s k m)) k
  refine ⟨l, hl, ?_⟩
  rw [run_canRx_untaken hact hnone]
  rw [hsame ?_ ?_, hoffer.canSt_eq] at hset
  · exact hall.trans hset
  · refine (on_of_rd_eq (x := F.CAN_CTL_en k) ((hoffer.sets.rd_of_ne fun x hx he => ?_).trans (rd_offeredSt (m := m) ?_ ?_))).trans hen
    · have h := hlo x hx
      rw [he] at h
      unfold rxReg headWord mbWord at h
      simp only [F.CAN_CTL_en, R.CAN_CTL, R.CAN_STAT, R.CAN_EVENT, R.CAN_ERR, R.CAN_RX_DROP, R.CAN_RXF_OVR, R.CAN_HEAD_CFG, R.CAN_MB_CFG] at h
      obtain h | h | h | h | h | h | ⟨b, h⟩ := h <;> omega
    · simp [F.CAN_CTL_en, R.CAN_CTL, R.CAN_STAT]
    · simp only [F.CAN_CTL_en, R.CAN_CTL, R.CAN_MB_CFG]
      omega
  · rw [hoffer.canSt_eq]
    exact hsleep

end

section
variable {s u : State} {k : Nat} {m : CanMsg} {lo l : List (Fld × Nat)} {h : Hid}
  (hu : Sets ([(F.CAN_STAT_tx_busy k, 0)] ++ rxLostFields s k m ++ lo ++ l) h s u)
  (hl : ∀ x ∈ l, x.1 = F.CAN_ERR_rec k ∨ x.1 = F.CAN_STAT_state k)
include hl

/-- All fields that such a reception sets. -/
theorem mem_untaken {x : Fld × Nat} (hx : x ∈ [(F.CAN_STAT_tx_busy k, 0)] ++ rxLostFields s k m ++ lo ++ l) :
    x = (F.CAN_STAT_tx_busy k, 0) ∨ (∃ b < 64, (rxHits s k m).head? = some b ∧ x = (F.CAN_MB_CFG_lost k b, 1)) ∨ x ∈ lo ∨
      x.1 = F.CAN_ERR_rec k ∨ x.1 = F.CAN_STAT_state k := by
  obtain hx | hx := List.mem_append.1 hx
  · obtain hx | hx := List.mem_append.1 hx
    · obtain h | h := List.mem_append.1 hx
      · exact .inl (List.mem_singleton.1 h)
      · obtain ⟨b, hb, rfl⟩ : ∃ b, (rxHits s k m).head? = some b ∧ (F.CAN_MB_CFG_lost k b, 1) = x := by simpa [rxLostFields] using h
        exact .inr (.inl ⟨b, List.mem_range.1 (List.mem_filter.1 (List.mem_of_mem_head? hb)).1, hb, rfl⟩)
    · exact .inr (.inr (.inl hx))
  · exact .inr (.inr (.inr (hl x hx)))

theorem off_of_mem_untaken (hlo : ∀ x ∈ lo, rxReg k x.1.off) {x : Fld × Nat}
    (hx : x ∈ [(F.CAN_STAT_tx_busy k, 0)] ++ rxLostFields s k m ++ lo ++ l) : rxReg k x.1.off := by
  obtain rfl | ⟨b, hb, -, rfl⟩ | hx | he | he := mem_untaken hl hx
  · exact .inl rfl
  · refine .inr (.inr (.inr (.inr (.inr (.inr ⟨⟨b, hb⟩, ?_⟩)))))
    simp only [mbWord, F.CAN_MB_CFG_lost]
    omega
  · exact hlo x hx
  · rw [he]; exact .inr (.inr (.inl rfl))
  · rw [he]; exact .inl rfl

/-- A field that the offer sets, beside the words of the mailboxes, REC, and the bits of the state. -/
theorem untaken_apart {y : Fld} {v : Nat} (hy : y.off < R.CAN_MB_CFG k 0) (herr : (F.CAN_ERR_rec k).Apart y)
    (hstate : (F.CAN_STAT_state k).Apart y) (hbusy : (F.CAN_STAT_tx_busy k).Apart y) (hmem : ∀ x ∈ lo, x = (y, v) ∨ x.1.Apart y) :
    ∀ x ∈ [(F.CAN_STAT_tx_busy k, 0)] ++ rxLostFields s k m ++ lo ++ l, x = (y, v) ∨ x.1.Apart y := by
  intro x hx
  obtain rfl | ⟨b, -, -, rfl⟩ | hx | he | he := mem_untaken hl hx
  · exact .inr hbusy
  · refine .inr (.inl ?_)
    simp only [F.CAN_MB_CFG_lost, R.CAN_MB_CFG] at hy ⊢
    omega
  · exact hmem x hx
  · rw [he]; exact .inr herr
  · rw [he]; exact .inr hstate

include hu

/-- The first mailbox that accepts the frame shows that it has lost it. -/
theorem lost_of_untaken {b : Nat} (hb : (rxHits s k m).head? = some b)
    (hlo : ∀ x ∈ lo, x.1.off < R.CAN_MB_CFG k 0 ∨ R.CAN_HEAD_CFG k ≤ x.1.off) : u.on (F.CAN_MB_CFG_lost k b) = true := by
  have hlt : b < 64 := List.mem_range.1 (List.mem_filter.1 (List.mem_of_mem_head? hb)).1
  refine (hu.on_of_mem (y := F.CAN_MB_CFG_lost k b) (v := 1) ?_ (fun x hx => ?_) rfl (by simp [F.CAN_MB_CFG_lost])).trans (by decide)
  · have hmem : (F.CAN_MB_CFG_lost k b, 1) ∈ rxLostFields s k m := by simp [rxLostFields, hb]
    exact List.mem_append_left _ (List.mem_append_left _ (List.mem_append_right _ hmem))
  · obtain rfl | ⟨c, -, hc, rfl⟩ | hx | he | he := mem_untaken hl hx
    · right; left; simp only [F.CAN_STAT_tx_busy, F.CAN_MB_CFG_lost, R.CAN_STAT, R.CAN_MB_CFG]; omega
    · obtain rfl : c = b := Option.some.inj (hc.symm.trans hb)
      exact .inl rfl
    · have h := hlo x hx
      right; left; simp only [F.CAN_MB_CFG_lost, R.CAN_HEAD_CFG, R.CAN_MB_CFG] at h ⊢; omega
    · rw [he]; right; left; simp only [F.CAN_ERR_rec, F.CAN_MB_CFG_lost, R.CAN_ERR, R.CAN_MB_CFG]; omega
    · rw [he]; right; left; simp only [F.CAN_STAT_state, F.CAN_MB_CFG_lost, R.CAN_STAT, R.CAN_MB_CFG]; omega

end

/-! ### A mailbox is written, the FIFO popped -/

theorem setsCan_rxfPop {k : Nat} {v : Word} {s : State} (hv : v.getLsbD 0 = true) :
    SetsCan (headFields k (canSt s k).fifo.tail) k { canSt s k with fifo := (canSt s k).fifo.tail } s ((rxfPop k v).run s) := by
  unfold rxfPop
  rw [run_only, if_pos hv, run_seq_pair]
  have htail := setsCan_canA k (fun c => { c with fifo := c.fifo.tail }) s
  have hhead := htail.then_sets (sets_headShow k _)
  rw [htail.canSt_eq] at hhead
  exact hhead

/-- The word of a mailbox that is written with `new` set. -/
def newCleared (w v : Word) : Word :=
  let rw : Word := if v.toNat % 4 = 2 then 0x07B#32 else 0xF7B#32
  (w &&& ~~~ (rw ||| (v &&& 0xE0000#32))) ||| (v &&& rw)

theorem getLsbD_newCleared {w v : Word} (hv : v.getLsbD 17 = true) : (newCleared w v).getLsbD 17 = false := by
  unfold newCleared
  dsimp only
  split <;> simp [hv]

theorem sets_mbCfg {p : Port} {k b : Nat} {v : Word} {s : State} (hpend : s.on (F.CAN_MB_CFG_pend k b) = false) :
    Sets [(wordFld (R.CAN_MB_CFG k b), (newCleared (s.rd (R.CAN_MB_CFG k b)) v).toNat)] s.hid s ((mbCfg p k b v).run s) := by
  have hrun : (mbCfg p k b v).run s = (setW (R.CAN_MB_CFG k b) (newCleared (s.rd (R.CAN_MB_CFG k b)) v)).run s := by
    rw [Act.run, mbCfg, mbGuard, if_neg (by simp [hpend])]
    rfl
  rw [hrun]
  exact Sets.setW _ _ s

end Sys2Proof.Machine
end

section
/-!
The statement on received frames, put together.
-/

namespace Sys2Proof.Machine

theorem id_of_frameId (m : CanMsg) : (frameId m).toNat / 2 ^ 0 % 2 ^ (28 + 1 - 0) = m.id.toNat := by
  have hid := m.id.isLt
  have hbit : (BitVec.ofNat 32 (b2n m.ide * 2 ^ 31)).toNat % 2 ^ 29 = 0 := by
    cases m.ide <;> rfl
  have hlow : (m.id.zeroExtend 32).toNat % 2 ^ 29 = m.id.toNat := by
    rw [show m.id.zeroExtend 32 = m.id.setWidth 32 from rfl, BitVec.toNat_setWidth, Nat.mod_eq_of_lt (b := 2 ^ 32) (by omega), Nat.mod_eq_of_lt hid]
  have hor := Nat.or_mod_two_pow (a := (m.id.zeroExtend 32).toNat) (b := (BitVec.ofNat 32 (b2n m.ide * 2 ^ 31)).toNat) (n := 29)
  rw [hbit, hlow, Nat.or_zero] at hor
  rw [frameId, BitVec.toNat_or, Nat.pow_zero, Nat.div_one]
  exact hor

theorem ide_of_frameId (m : CanMsg) : (frameId m).getLsbD 31 = m.ide := by
  unfold frameId
  rw [BitVec.getLsbD_or]
  cases m.ide
  · simp [b2n]
  · have htop : (BitVec.ofNat 32 (b2n true * 2 ^ 31)).getLsbD 31 = true := by decide
    rw [htop, Bool.or_true]

section
variable {s : State} {k : Fin 4} {m : CanMsg} {sof : BitVec 64} (hact : canActive s k = true) (hfree : canFree s k)
include hact hfree

/-- A frame that mailbox `b` takes fills it. -/
theorem completes_frame_taken (b : Fin 64) (ht : mbTakes s k b m = true) (hlow : ∀ c : Fin 64, c < b → mbTakes s k c m = false) :
    Completes (.canFrameRx k m sof) s fun t => t.on (F.CAN_MB_CFG_new k b) = true ∧ t.rd64 (R.CAN_MB_TS k b) = sof ∧
      t.f (F.CAN_MB_ID_id k b) = m.id.toNat ∧ t.on (F.CAN_MB_ID_ide k b) = m.ide ∧
      t.rd (R.CAN_MB_CFG k b) = frameCfg m (s.rd (R.CAN_MB_CFG k b)) ||| 0x20000#32 ∧
      (m.rtr = false → ∀ i : Fin 64, i.val < (msgBytes m).length →
        (t.rd (R.CAN_MB_DATA k b (i / 4))).extractLsb' (8 * (i % 4)) 8 = (msgBytes m).getD i 0#8) ∧
      t.on (F.CAN_EVENT_rx k) = true ∧ (canSt t k).fifo = (canSt s k).fifo ∧
      (plainFrame s k m → CanFrame k (fun off => (off = R.CAN_EVENT k ∨ off = R.CAN_ERR k ∨ off = R.CAN_STAT k) ∨ mbWord k b off) s t) := by
  have hhit := find_rxHits_some (m := m) b.isLt ht fun c hc => hlow ⟨c, hc.trans b.isLt⟩ hc
  obtain ⟨l, hl, hset⟩ := setsCan_canRx_taken (sof := sof) hact hfree hhit
  have hoff : ∀ x ∈ [(F.CAN_STAT_tx_busy k, 0)] ++ storeFields ((canTxEnd k).run s) k b m sof ++ l,
      (x.1.off = R.CAN_EVENT k ∨ x.1.off = R.CAN_ERR k ∨ x.1.off = R.CAN_STAT k) ∨ mbWord k b x.1.off := by
    intro x hx
    obtain hx | hx | hx := mem_taken hl hx
    · obtain hx | hx := off_of_mem_storeFields hx
      · exact .inr hx
      · exact .inl (.inl hx)
    · exact .inl (.inr (.inr hx))
    · exact .inl (.inr (.inl hx))
  obtain ⟨t, he, hkeep, hfifo, hplain⟩ := completes_canFrame hset fun x hx => by
    refine ne_mode_of_rxReg (k := k) ?_
    obtain (h | h | h) | h := hoff x hx
    · exact .inr (.inl h)
    · exact .inr (.inr (.inl h))
    · exact .inl h
    · exact .inr (.inr (.inr (.inr (.inr (.inr ⟨b, h⟩)))))
  have hword : ∀ off, mbWord k b off → t.rd off = ((canRx k m sof).run s).rd off := fun off h =>
    hkeep off (.inr (.inr (.inr (.inr (.inr (.inr ⟨b, h⟩))))))
  have hcfg : t.rd (R.CAN_MB_CFG k b) = frameCfg m (s.rd (R.CAN_MB_CFG k b)) ||| 0x20000#32 := by
    rw [hword _ (by simp only [mbWord]; omega), rd_cfg_of_taken hset.sets hl,
      (setsCan_canTxEnd k s).sets.rd_of_ne (by simp only [List.mem_singleton, forall_eq, F.CAN_STAT_tx_busy, R.CAN_STAT, R.CAN_MB_CFG]; omega)]
  have hid : t.rd (R.CAN_MB_ID k b) = frameId m := by
    rw [hword _ (by simp only [mbWord, R.CAN_MB_ID, R.CAN_MB_CFG]; omega), rd_id_of_taken hset.sets hl]
  refine ⟨t, he, ?_, ?_, ?_, ?_, hcfg, fun hrtr i hi => ?_, ?_, hfifo, fun hmsg => (hplain hmsg).canFrame hoff⟩
  · rw [on_eq_getLsbD (x := F.CAN_MB_CFG_new k b) rfl]
    refine (congrArg (BitVec.getLsbD · 17) hcfg).trans ?_
    rw [BitVec.getLsbD_or]
    simp
  · rw [← rd64_ts_of_taken hset.sets hl, State.rd64, State.rd64, hword _ (by simp only [mbWord, R.CAN_MB_TS, R.CAN_MB_CFG]; omega),
      hword _ (by simp only [mbWord, R.CAN_MB_TS, R.CAN_MB_CFG]; omega)]
  · refine (congrArg (F.CAN_MB_ID_id k b).get hid).trans ?_
    exact id_of_frameId m
  · rw [on_eq_getLsbD (x := F.CAN_MB_ID_ide k b) rfl]
    exact (congrArg (BitVec.getLsbD · 31) hid).trans (ide_of_frameId m)
  · have hrow : i.val / 4 < 16 := by omega
    rw [hword _ (by simp only [mbWord, R.CAN_MB_DATA, R.CAN_MB_CFG]; omega), rd_data_of_taken hset.sets hl hrtr (by omega) (by omega),
      extract_dataWord _ (by omega) (by omega), Nat.div_add_mod]
  · exact (on_of_rd_eq (x := F.CAN_EVENT_rx k) (hkeep _ (.inr (.inl rfl)))).trans (rx_event_of_taken hset.sets hl)

end

theorem rd_of_wordFld {t : State} {off : Nat} {w : Word} (h : t.f (wordFld off) = w.toNat % 2 ^ ((wordFld off).hi + 1 - (wordFld off).lo)) :
    t.rd off = w :=
  BitVec.eq_of_toNat_eq ((wordFld_get off (t.rd off)).symm.trans (h.trans (Nat.mod_eq_of_lt w.isLt)))

theorem on_of_f_one {t : State} {y : Fld} (h : t.f y = 1 % 2 ^ (y.hi + 1 - y.lo)) (hbit : y.hi = y.lo := by rfl) : t.on y = true := by
  unfold State.on
  rw [h, hbit, Nat.add_sub_cancel_left]
  rfl

theorem lvl_or_head {k : Nat} {q : List (CanMsg × BitVec 64)} {x : Fld × Nat} (hx : x ∈ headFields k q) :
    x = (F.CAN_STAT_fifo_lvl k, q.length) ∨ headWord k x.1.off := by
  obtain h | h := off_of_mem_headFields hx
  · exact .inr h
  · obtain rfl | hx | hx | hx | ⟨w, hw, hx⟩ := mem_headFields hx
    · exact .inl rfl
    · have hx := mem_pairFields hx
      simp only [R.CAN_HEAD_TS, R.CAN_STAT] at hx h
      omega
    · exact .inr (by rw [hx]; simp only [headWord]; omega)
    · exact .inr (by rw [hx]; simp only [headWord, R.CAN_HEAD_ID, R.CAN_HEAD_CFG]; omega)
    · exact .inr (by rw [hx]; simp only [headWord, R.CAN_HEAD_DATA, R.CAN_HEAD_CFG]; omega)

section
variable {s : State} {k : Fin 4} {m : CanMsg} {sof : BitVec 64} (hact : canActive s k = true) (hfree : canFree s k)
  (hnone : ∀ b : Fin 64, mbTakes s k b m = false)

theorem fifoPasses_offeredSt : fifoPasses (offeredSt s k m) k m = fifoPasses s k m := by
  have hrd : ∀ off, off = R.CAN_RXF_CTL k ∨ off = R.CAN_RXF_ID k ∨ off = R.CAN_RXF_MASK k → (offeredSt s k m).rd off = s.rd off := by
    intro off hoff
    simp only [R.CAN_RXF_CTL, R.CAN_RXF_ID, R.CAN_RXF_MASK] at hoff
    refine rd_offeredSt ?_ ?_ <;> simp only [R.CAN_STAT, R.CAN_MB_CFG] <;> omega
  unfold fifoPasses
  rw [hrd _ (.inr (.inl rfl)), hrd _ (.inr (.inr rfl)), on_of_rd_eq (x := F.CAN_RXF_CTL_en k) (hrd _ (.inl rfl))]

/-- A field beside the mailboxes, REC, the state and the sign of a frame that is sent. -/
def OfferField (k : Nat) (y : Fld) : Prop := y.off < R.CAN_MB_CFG k 0 ∧ (F.CAN_ERR_rec k).Apart y ∧ (F.CAN_STAT_state k).Apart y ∧
  (F.CAN_STAT_tx_busy k).Apart y ∧ y.lo ≤ y.hi ∧ y.hi ≤ 31

/-- The FIFO as it is offered the frame. -/
theorem canSt_offeredSt : canSt (offeredSt s k m) k = { canSt s k with cur := none, rx := false } := setsCan_offeredSt.canSt_eq

include hact hfree hnone

/-- A frame that no mailbox takes is offered to the FIFO; what the offer changes reads so at the end, and the first mailbox that accepts
the frame shows that it is lost. -/
theorem completes_frame_offered {lo : List (Fld × Nat)} {q : List (CanMsg × BitVec 64)} (hlo : ∀ x ∈ lo, rxReg k x.1.off)
    (hmb : ∀ x ∈ lo, x.1.off < R.CAN_MB_CFG k 0 ∨ R.CAN_HEAD_CFG k ≤ x.1.off)
    (hoffer : SetsCan lo k { canSt s k with cur := none, rx := false, fifo := q } (offeredSt s k m) ((fifoOffer k m sof).run (offeredSt s k m))) :
    Completes (.canFrameRx k m sof) s fun t => (canSt t k).fifo = q ∧
      (∀ b : Fin 64, mbMatches s k b m = true ∧ (∀ c : Fin 64, c < b → mbMatches s k c m = false) → t.on (F.CAN_MB_CFG_lost k b) = true) ∧
      ∀ y v, (y, v) ∈ lo → OfferField k y → (∀ x ∈ lo, x = (y, v) ∨ x.1.Apart y) → t.f y = v % 2 ^ (y.hi + 1 - y.lo) := by
  obtain ⟨l, hl, hset⟩ := setsCan_canRx_untaken hact hfree (find_rxHits_none fun b hb => hnone ⟨b, hb⟩) hlo hoffer
  obtain ⟨t, he, hkeep, hfifo, -⟩ := completes_canFrame hset fun x hx => ne_mode_of_rxReg (off_of_mem_untaken hl hlo hx)
  refine ⟨t, he, hfifo, fun b hb => ?_, fun y v hmem hy hrest => ?_⟩
  · obtain ⟨hmatch, hlow⟩ := hb
    have hhead := head_rxHits b.isLt hmatch fun c hc => hlow ⟨c, hc.trans b.isLt⟩ hc
    refine (on_of_rd_eq (x := F.CAN_MB_CFG_lost k b) (hkeep _ (.inr (.inr (.inr (.inr (.inr (.inr ⟨b, ?_⟩)))))))).trans
      (lost_of_untaken hset.sets hl hhead hmb)
    simp only [mbWord, F.CAN_MB_CFG_lost]
    omega
  · obtain ⟨hy, herr, hstate, hbusy, hle, hhi⟩ := hy
    refine (f_of_rd_eq (x := y) (hkeep _ (hlo _ hmem))).trans (hset.sets.f_of_mem (List.mem_append_left _ (List.mem_append_right _ hmem)) ?_ hle hhi)
    exact untaken_apart hl hy herr hstate hbusy hrest

theorem completes_frame_dropped (h : fifoPasses s k m = false) : Completes (.canFrameRx k m sof) s fun t =>
    (canSt t k).fifo = (canSt s k).fifo ∧ t.rd (R.CAN_RX_DROP k) = bumped (s.rd (R.CAN_RX_DROP k)) ∧
      (∀ b : Fin 64, mbMatches s k b m = true ∧ (∀ c : Fin 64, c < b → mbMatches s k c m = false) → t.on (F.CAN_MB_CFG_lost k b) = true) := by
  have hoffer := (sets_fifoOffer_dropped (sof := sof) (fifoPasses_offeredSt.trans h)).setsCan k
  rw [canSt_offeredSt] at hoffer
  have hcount : (offeredSt s k m).rd (R.CAN_RX_DROP k) = s.rd (R.CAN_RX_DROP k) :=
    rd_offeredSt (by simp [R.CAN_RX_DROP, R.CAN_STAT]) (by simp only [R.CAN_RX_DROP, R.CAN_MB_CFG]; omega)
  obtain ⟨t, he, hfifo, hlost, hread⟩ := completes_frame_offered (q := (canSt s k).fifo) hact hfree hnone (fun x hx => by
      rw [List.mem_singleton.1 hx]
      exact .inr (.inr (.inr (.inl rfl)))) (fun x hx => by
      rw [List.mem_singleton.1 hx]
      simp only [countOne, wordFld, R.CAN_RX_DROP, R.CAN_MB_CFG]
      omega) hoffer
  refine ⟨t, he, hfifo, ?_, hlost⟩
  rw [← hcount]
  refine rd_of_wordFld (hread _ _ (List.mem_singleton_self _) ?_ (by simp [countOne]))
  simp [OfferField, Fld.Apart, wordFld, F.CAN_ERR_rec, F.CAN_STAT_state, F.CAN_STAT_tx_busy, R.CAN_ERR, R.CAN_STAT, R.CAN_RX_DROP, R.CAN_MB_CFG]

theorem completes_frame_overrun (h : fifoPasses s k m = true) (hfull : 32 ≤ (canSt s k).fifo.length) : Completes (.canFrameRx k m sof) s fun t =>
    (canSt t k).fifo = (canSt s k).fifo ∧ t.rd (R.CAN_RXF_OVR k) = bumped (s.rd (R.CAN_RXF_OVR k)) ∧ t.on (F.CAN_EVENT_fifo_ovr k) = true ∧
      (∀ b : Fin 64, mbMatches s k b m = true ∧ (∀ c : Fin 64, c < b → mbMatches s k c m = false) → t.on (F.CAN_MB_CFG_lost k b) = true) := by
  have hoffer := (sets_fifoOffer_full (sof := sof) (fifoPasses_offeredSt.trans h) (by rw [canSt_offeredSt]; exact hfull)).setsCan k
  rw [canSt_offeredSt] at hoffer
  have hcount : (offeredSt s k m).rd (R.CAN_RXF_OVR k) = s.rd (R.CAN_RXF_OVR k) :=
    rd_offeredSt (by simp [R.CAN_RXF_OVR, R.CAN_STAT]) (by simp only [R.CAN_RXF_OVR, R.CAN_MB_CFG]; omega)
  obtain ⟨t, he, hfifo, hlost, hread⟩ := completes_frame_offered (q := (canSt s k).fifo) hact hfree hnone (fun x hx => by
      simp only [List.mem_cons, List.not_mem_nil, or_false] at hx
      obtain rfl | rfl := hx
      · exact .inr (.inr (.inr (.inr (.inl rfl))))
      · exact .inr (.inl rfl)) (fun x hx => by
      simp only [List.mem_cons, List.not_mem_nil, or_false] at hx
      obtain rfl | rfl := hx <;> simp only [countOne, wordFld, F.CAN_EVENT_fifo_ovr, R.CAN_EVENT, R.CAN_RXF_OVR, R.CAN_MB_CFG] <;> omega) hoffer
  refine ⟨t, he, hfifo, ?_, ?_, hlost⟩
  · rw [← hcount]
    refine rd_of_wordFld (hread _ _ List.mem_cons_self ?_ ?_)
    · simp [OfferField, Fld.Apart, wordFld, F.CAN_ERR_rec, F.CAN_STAT_state, F.CAN_STAT_tx_busy, R.CAN_ERR, R.CAN_STAT, R.CAN_RXF_OVR, R.CAN_MB_CFG]
    · simp [countOne, Fld.Apart, wordFld, F.CAN_EVENT_fifo_ovr, R.CAN_EVENT, R.CAN_RXF_OVR]
  · refine on_of_f_one (y := F.CAN_EVENT_fifo_ovr k) (hread _ 1 (by simp) ?_ ?_)
    · simp [OfferField, Fld.Apart, F.CAN_EVENT_fifo_ovr, F.CAN_ERR_rec, F.CAN_STAT_state, F.CAN_STAT_tx_busy, R.CAN_ERR, R.CAN_STAT, R.CAN_EVENT,
        R.CAN_MB_CFG]
    · simp [countOne, Fld.Apart, wordFld, F.CAN_EVENT_fifo_ovr, R.CAN_EVENT, R.CAN_RXF_OVR]

theorem completes_frame_queued (h : fifoPasses s k m = true) (hroom : (canSt s k).fifo.length < 32) : Completes (.canFrameRx k m sof) s fun t =>
    (canSt t k).fifo = (canSt s k).fifo ++ [(m, sof)] ∧ t.f (F.CAN_STAT_fifo_lvl k) = (canSt s k).fifo.length + 1 ∧
      ((canSt s k).fifo = [] → t.on (F.CAN_EVENT_fifo k) = true) ∧
      (∀ b : Fin 64, mbMatches s k b m = true ∧ (∀ c : Fin 64, c < b → mbMatches s k c m = false) → t.on (F.CAN_MB_CFG_lost k b) = true) := by
  have hoffer := setsCan_fifoOffer_taken (sof := sof) (fifoPasses_offeredSt.trans h) (by rw [canSt_offeredSt]; exact hroom)
  rw [canSt_offeredSt] at hoffer
  dsimp only at hoffer
  have hmem : ∀ x ∈ (if (canSt s k).fifo.isEmpty then [(F.CAN_EVENT_fifo k, 1)] else []) ++ headFields k ((canSt s k).fifo ++ [(m, sof)]),
      x = (F.CAN_EVENT_fifo k, 1) ∨ x = (F.CAN_STAT_fifo_lvl k, (canSt s k).fifo.length + 1) ∨ headWord k x.1.off := by
    intro x hx
    obtain hx | hx := List.mem_append.1 hx
    · exact .inl (List.mem_singleton.1 ((ite_sublist (List.Sublist.refl [_])).subset hx))
    · obtain rfl | hx := lvl_or_head hx
      · rw [List.length_append]
        exact .inr (.inl rfl)
      · exact .inr (.inr hx)
  obtain ⟨t, he, hfifo, hlost, hread⟩ := completes_frame_offered hact hfree hnone (fun x hx => by
      obtain rfl | rfl | hx := hmem x hx
      · exact .inr (.inl rfl)
      · exact .inl rfl
      · exact .inr (.inr (.inr (.inr (.inr (.inl hx)))))) (fun x hx => by
      obtain rfl | rfl | hx := hmem x hx
      · left; simp only [F.CAN_EVENT_fifo, R.CAN_EVENT, R.CAN_MB_CFG]; omega
      · left; simp only [F.CAN_STAT_fifo_lvl, R.CAN_STAT, R.CAN_MB_CFG]; omega
      · exact .inr hx.1) hoffer
  refine ⟨t, he, hfifo, ?_, fun hempty => ?_, hlost⟩
  · refine (hread (F.CAN_STAT_fifo_lvl k) ((canSt s k).fifo.length + 1) (List.mem_append_right _ (by simp [headFields])) ?_ fun x hx => ?_).trans
      (Nat.mod_eq_of_lt (by simp only [F.CAN_STAT_fifo_lvl]; omega))
    · simp [OfferField, Fld.Apart, F.CAN_STAT_fifo_lvl, F.CAN_ERR_rec, F.CAN_STAT_state, F.CAN_STAT_tx_busy, R.CAN_ERR, R.CAN_STAT, R.CAN_MB_CFG]
    · obtain rfl | rfl | hx := hmem x hx
      · exact .inr (.inl (by simp [F.CAN_EVENT_fifo, F.CAN_STAT_fifo_lvl, R.CAN_EVENT, R.CAN_STAT]))
      · exact .inl rfl
      · unfold headWord at hx
        right; left; simp only [F.CAN_STAT_fifo_lvl, R.CAN_STAT, R.CAN_HEAD_CFG] at hx ⊢; omega
  · refine on_of_f_one (y := F.CAN_EVENT_fifo k) (hread _ 1 (List.mem_append_left _ (by simp [hempty])) ?_ fun x hx => ?_)
    · simp [OfferField, Fld.Apart, F.CAN_EVENT_fifo, F.CAN_ERR_rec, F.CAN_STAT_state, F.CAN_STAT_tx_busy, R.CAN_ERR, R.CAN_STAT, R.CAN_EVENT, R.CAN_MB_CFG]
    · obtain rfl | rfl | hx := hmem x hx
      · exact .inl rfl
      · exact .inr (.inl (by simp [F.CAN_EVENT_fifo, F.CAN_STAT_fifo_lvl, R.CAN_EVENT, R.CAN_STAT]))
      · unfold headWord at hx
        right; left; simp only [F.CAN_EVENT_fifo, R.CAN_EVENT, R.CAN_HEAD_CFG] at hx ⊢; omega

end

/-! ### The statement -/

theorem completes_rxfPop {s : State} {p : Port} {k : Fin 4} {v : Word} (hl : Live p s (R.CAN_RXF_POP k) = true) :
    Completes (.rxfPop p k v) s fun t => (canSt t k).fifo = (canSt s k).fifo.tail ∧
      t.rd64 (R.CAN_HEAD_TS k) = ((canSt s k).fifo.tail.head?.map (·.2)).getD 0#64 ∧
      ((canSt s k).fifo.length ≤ 32 → t.f (F.CAN_STAT_fifo_lvl k) = (canSt s k).fifo.length - 1) ∧
      CanFrame k (fun off => off = R.CAN_STAT k ∨ headWord k off) s t := by
  obtain ⟨t, he, ht⟩ := (setsCan_rxfPop (k := k) (v := v ||| 1#32) (s := s) (by simp)).completes_portGate (i := .rxfPop p k v) hl (fun x hx => by
    obtain hx | hx := off_of_mem_headFields hx
    · unfold headWord at hx
      simp only [R.CAN_HEAD_CFG, R.SYS_MODE_STAT] at hx ⊢
      omega
    · rw [hx]
      simp only [R.CAN_STAT, R.SYS_MODE_STAT]
      omega) rfl
  refine ⟨t, he, congrArg CanSt.fifo ht.canSt_eq, ?_, fun hlen => ?_, ht.canFrame fun x hx => (off_of_mem_headFields hx).symm⟩
  · rw [← headTs_eq]
    refine ht.sets.rd64_of_mem (fun x hx => ?_) fun x hx => ?_
    · unfold headFields
      exact List.mem_append_left _ (List.mem_append_right _ hx)
    · obtain rfl | hx | hx | hx | ⟨w, hw, hx⟩ := mem_headFields hx
      · right; simp only [F.CAN_STAT_fifo_lvl, R.CAN_STAT, R.CAN_HEAD_TS]; omega
      · exact .inl hx
      · right; rw [hx]; simp only [R.CAN_HEAD_CFG, R.CAN_HEAD_TS]; omega
      · right; rw [hx]; simp only [R.CAN_HEAD_ID, R.CAN_HEAD_TS]; omega
      · right; rw [hx]; simp only [R.CAN_HEAD_DATA, R.CAN_HEAD_TS]; omega
  · refine (ht.sets.f_of_mem (y := F.CAN_STAT_fifo_lvl k) (v := (canSt s k).fifo.tail.length) (by simp [headFields]) (fun x hx => ?_)
      (by simp [F.CAN_STAT_fifo_lvl]) (by simp [F.CAN_STAT_fifo_lvl])).trans ?_
    · obtain rfl | hx := lvl_or_head hx
      · exact .inl rfl
      · unfold headWord at hx
        right; left; simp only [F.CAN_STAT_fifo_lvl, R.CAN_STAT, R.CAN_HEAD_CFG] at hx ⊢; omega
    · rw [List.length_tail]
      exact Nat.mod_eq_of_lt (by simp only [F.CAN_STAT_fifo_lvl]; omega)

theorem completes_mbNewClear {s : State} {p : Port} {k : Fin 4} {b : Fin 64} {v : Word} (hl : Live p s (R.CAN_MB_CFG k b) = true)
    (hpend : s.on (F.CAN_MB_CFG_pend k b) = false) : Completes (.mbNewClear p k b v) s fun t => t.on (F.CAN_MB_CFG_new k b) = false ∧
      Frame (fun off => off = R.CAN_MB_CFG k b) s.hid s t := by
  obtain ⟨t, he, ht⟩ := completes_portGate (c := .mbNewClear p k b v) hl rfl (sets_mbCfg (p := p) (v := v ||| 0x20000#32) hpend) (fun x hx => by
    rw [List.mem_singleton.1 hx]
    simp only [wordFld, R.CAN_MB_CFG, R.SYS_MODE_STAT]
    omega)
  refine ⟨t, he, ?_, ht.frame (by simp [wordFld])⟩
  rw [on_eq_getLsbD (x := F.CAN_MB_CFG_new k b) rfl]
  exact (congrArg (BitVec.getLsbD · 17) (ht.rd_of_mem (List.mem_singleton_self _) (by simp))).trans (getLsbD_newCleared (by simp))

/-- Settles O49. -/
theorem canFramesAreRouted : Obligations.CanFramesAreRouted := by
  have hpending := pendingMailboxesRefuseWritesAndRequests
  unfold Obligations.PendingMailboxesRefuseWritesAndRequests at hpending
  obtain ⟨-, hpending, -⟩ := hpending
  unfold Obligations.CanFramesAreRouted
  refine ⟨?_, ?_, ?_⟩
  · intro s k m sof hact hfree q fits lost plain base
    refine ⟨fun b ht hlow => completes_frame_taken hact hfree b ht hlow, fun hnone => ⟨fun hfits hroom => ?_, fun hfits hfull => ?_,
      fun hfits => ?_⟩⟩
    · exact completes_frame_queued hact hfree hnone hfits hroom
    · exact completes_frame_overrun hact hfree hnone hfits hfull
    · exact completes_frame_dropped hact hfree hnone hfits
  · exact fun s p k v hl => completes_rxfPop hl
  · exact fun s p k b v hl => ⟨fun hpend => hpending s p k b v hpend hl, fun hpend => completes_mbNewClear hl hpend⟩

end Sys2Proof.Machine
end

section
/-!
Network time (R424 to R427): how its counter reads after it is set anew, what its state shows, and what its commands but the reference
frame do.
-/

namespace Sys2Proof.Machine

/-! ### The counter -/

theorem ntCount_congr {s t : State} (hline : t.hid.nt.line = s.hid.nt.line) (hwas : t.hid.nt.was = s.hid.nt.was) (d : BitVec 64) :
    ntCount t d = ntCount s d := by
  unfold ntCount
  rw [hline, hwas]

theorem ntAt_congr {s t : State} (hline : t.hid.nt.line = s.hid.nt.line) (hwas : t.hid.nt.was = s.hid.nt.was) (d : BitVec 64) :
    ntAt t d = ntAt s d := by
  unfold ntAt
  rw [ntCount_congr hline hwas]

/-- A stretch reads its count where it starts. -/
theorem NtLine.after_zero (l : NtLine) : l.after 0 = l.count := by
  unfold NtLine.after
  simp

theorem ntCount_of_start {t : State} (h : t.hid.nt.line.at0 = t.now) : ntCount t t.now = t.hid.nt.line.count := by
  have hnow : t.now - t.hid.nt.line.at0 = 0#64 := by rw [h, BitVec.sub_self]
  unfold ntCount
  cases t.hid.nt.was with
  | nil => rw [ntCountOn, hnow, if_pos (by decide)]; exact NtLine.after_zero _
  | cons m l => rw [ntCountOn, hnow, if_pos (by decide)]; exact NtLine.after_zero _

/-- What the block holds once its counter goes on from `c`. -/
def rebasedNt (now : BitVec 64) (adj : Word) (c : Int) (x : NtSt) : NtSt :=
  { x with line := { count := c, at0 := now, inc := ntInc adj.toInt 0, incS := ntInc adj.toInt x.slew,
                     slewN := x.line.slewN - (now - x.line.at0).toNat },
           was := recent (·.at0) now (2 ^ 24) (x.line :: x.was) }

theorem sets_ntA (g : NtSt → NtSt) (s : State) : Sets [] (withNt s (g s.hid.nt)) s ((ntA g).run s) := Sets.hidA _ s

theorem sets_ntRebase (c : Int) (s : State) :
    Sets [] (withNt s (rebasedNt s.now (s.rd R.CAN_NT_ADJ) c s.hid.nt)) s ((ntRebase c).run s) := sets_ntA _ s

section
variable {l m : List (Fld × Nat)} {n n' : NtSt} {s t u : State} (ht : Sets l (withNt s n) s t)
include ht

theorem Sets.nt_eq : t.hid.nt = n := congrArg Hid.nt ht.hid_eq

theorem Sets.trans_nt (hu : Sets m (withNt t n') t u) : Sets (l ++ m) (withNt s n') s u :=
  ht.trans (hu.cast rfl (by unfold withNt; rw [ht.hid_eq]; rfl))

theorem Sets.then_ntA (g : NtSt → NtSt) : Sets l (withNt s (g n)) s ((ntA g).run t) := by
  have hu := sets_ntA g t
  rw [Sets.nt_eq ht] at hu
  simpa using Sets.trans_nt ht hu

theorem Sets.then_ntRebase (c : Int) {adj : Word} (hadj : t.rd R.CAN_NT_ADJ = adj) :
    Sets l (withNt s (rebasedNt s.now adj c n)) s ((ntRebase c).run t) := by
  have hu := sets_ntRebase c t
  rw [Sets.nt_eq ht, ht.now_eq, hadj] at hu
  simpa using Sets.trans_nt ht hu

end

/-- The fields in which the state `n` of the block shows, where its state was `was` (R427). -/
def stateFields (was n : Nat) : List (Fld × Nat) :=
  [(F.CAN_NT_STAT_state, n), (F.CAN_NT_STAT_nt_sync, b2n (decide (n = 2)))] ++ (if n = 2 ∧ was ≠ 2 then [(F.CAN_NT_EVENT_lock, 1)] else []) ++
    (if n ≠ 2 ∧ was = 2 then [(F.CAN_NT_EVENT_unlock, 1)] else [])

theorem sets_ntState (n : Nat) (s : State) : Sets (stateFields (s.f F.CAN_NT_STAT_state) n) s.hid s ((ntState n).run s) := by
  unfold ntState
  simp only [run_fun]
  rw [run_seq_cons, run_seq_cons, run_seq_pair]
  have hall := (((Sets.setF F.CAN_NT_STAT_state n s).then_setF F.CAN_NT_STAT_nt_sync (b2n (decide (n = 2)))).then_only
    (decide (n = 2 ∧ s.f F.CAN_NT_STAT_state ≠ 2)) fun _ => Sets.setF F.CAN_NT_EVENT_lock 1 _).then_only
    (decide (n ≠ 2 ∧ s.f F.CAN_NT_STAT_state = 2)) fun _ => Sets.setF F.CAN_NT_EVENT_unlock 1 _
  unfold stateFields
  simp only [decide_eq_true_eq] at hall
  exact hall

theorem ntReg_of_mem_stateFields {was n : Nat} {x : Fld × Nat} (hx : x ∈ stateFields was n) : ntReg x.1.off := by
  have hx := (((List.Sublist.refl _).append (ite_sublist (List.Sublist.refl _))).append (ite_sublist (List.Sublist.refl _))).subset hx
  simp only [List.cons_append, List.nil_append, List.mem_cons, List.not_mem_nil, or_false] at hx
  obtain rfl | rfl | rfl | rfl := hx
  · exact .inl rfl
  · exact .inl rfl
  · exact .inr (.inl rfl)
  · exact .inr (.inl rfl)

/-! ### Configuration (R425) -/

/-- What the block holds once a role is written. -/
def roleTaken (x : NtSt) : NtSt :=
  { x with yielded := false, last := none, tm := none, paired := false, good := 0, ref := none, seq := none, sof := none, stepped := false }

/-- The fields that a role that is taken sets. -/
def roleFields (v : Word) : List (Fld × Nat) :=
  [(wordFld R.CAN_NT_CFG, (v &&& 0x1F#32).toNat), (F.CAN_NT_STAT_result, 0), (F.CAN_NT_STAT_state, 0), (F.CAN_NT_STAT_nt_sync, 0)]

theorem disjoint_roleFields (v : Word) : DisjointFields (roleFields v) := by
  simp [DisjointFields, Clear, roleFields, wordFld, F.CAN_NT_STAT_result, F.CAN_NT_STAT_state, F.CAN_NT_STAT_nt_sync, R.CAN_NT_CFG, R.CAN_NT_STAT]

theorem sets_ntCfg_taken {v : Word} {s : State} (h : ¬ (v.toNat % 4 = 2 ∧ masterRefused s (v.toNat / 4 % 4) = true)) :
    Sets (roleFields v) (withNt s (roleTaken s.hid.nt)) s ((ntCfg v).run s) := by
  have hrun : (ntCfg v).run s = (seq [setW R.CAN_NT_CFG (v &&& 0x1F#32), setF F.CAN_NT_STAT_result 0, ntA roleTaken,
      setF F.CAN_NT_STAT_state 0, clrB F.CAN_NT_STAT_nt_sync]).run s := congrArg (applyAll · s) (if_neg h)
  rw [hrun, run_seq_cons, run_seq_cons, run_seq_cons, run_seq_pair, clrB_eq]
  have htwo : Sets _ (withNt s s.hid.nt) s _ := (Sets.setW R.CAN_NT_CFG (v &&& 0x1F#32) s).then_setF F.CAN_NT_STAT_result 0
  exact ((Sets.then_ntA htwo roleTaken).then_setF F.CAN_NT_STAT_state 0).then_setF F.CAN_NT_STAT_nt_sync 0

theorem sets_ntCfg_refused {v : Word} {s : State} (h : v.toNat % 4 = 2 ∧ masterRefused s (v.toNat / 4 % 4) = true) :
    Sets [(F.CAN_NT_STAT_result, 8)] s.hid s ((ntCfg v).run s) := by
  have hrun : (ntCfg v).run s = (setF F.CAN_NT_STAT_result 8).run s := congrArg (applyAll · s) (if_pos h)
  rw [hrun]
  exact Sets.setF _ _ s

theorem masterRefused_iff {s : State} {k : Nat} :
    masterRefused s k = true ↔ (canSt s k).listen = true ∨ s.on (F.CAN_CTL_en k) = false ∨ canState s k = 5 := by
  unfold masterRefused
  simp

/-- The role that a word holds. -/
theorem role_get (v : Word) : F.CAN_NT_CFG_role.get (v &&& 0x1F#32) = v.toNat % 4 := by
  have hand := Nat.and_mod_two_pow (a := v.toNat) (b := 31) (n := 2)
  have hlow := Nat.and_two_pow_sub_one_eq_mod (v.toNat % 4) 2
  show (v &&& 0x1F#32).toNat / 1 % 4 = v.toNat % 4
  rw [BitVec.toNat_and, Nat.div_one]
  refine hand.trans (hlow.trans (Nat.mod_mod _ _))

theorem ntRole_of_role {t : State} (h : t.f F.CAN_NT_CFG_role ≠ 2) : ntRole t ≠ 2 := by
  unfold ntRole
  split <;> simp_all

theorem ntRole_of_master {t : State} (h : t.f F.CAN_NT_CFG_role = 2) (hy : t.hid.nt.yielded = false) : ntRole t = 2 := by
  unfold ntRole
  rw [h, hy]
  rfl

theorem completes_ntCfg {s : State} {p : Port} {v : Word} (hl : Live p s R.CAN_NT_CFG = true)
    (h : ¬ (v.toNat % 4 = 2 ∧ masterRefused s (v.toNat / 4 % 4) = true)) : Completes (.ntCfgWrite p v) s fun t =>
      t.rd R.CAN_NT_CFG = v &&& 0x1F#32 ∧ t.f F.CAN_NT_STAT_result = 0 ∧ t.f F.CAN_NT_STAT_state = 0 ∧
      (v.toNat % 4 ≠ 2 → ntStateRead t = 0 ∧ ntSync t = false) ∧
      (v.toNat % 4 = 2 → ntStateRead t = (if ntSends t then 2 else 0) ∧ ntSync t = ntSends t) ∧
      (∀ d, ntAt t d = ntAt s d) ∧ t.hid = withNt s t.hid.nt := by
  obtain ⟨t, he, ht⟩ := completes_portGate hl rfl (sets_ntCfg_taken h) (c := .ntCfgWrite p v) (by
    simp [roleFields, wordFld, F.CAN_NT_STAT_result, F.CAN_NT_STAT_state, F.CAN_NT_STAT_nt_sync, R.CAN_NT_CFG, R.CAN_NT_STAT, R.SYS_MODE_STAT])
  have hd := disjoint_roleFields v
  have hnt := Sets.nt_eq ht
  have hcfg : t.rd R.CAN_NT_CFG = v &&& 0x1F#32 := Sets.rd_of_disjoint hd ht (by simp [roleFields])
  have hstate : t.f F.CAN_NT_STAT_state = 0 := Sets.f_of_disjoint hd ht (y := F.CAN_NT_STAT_state) (v := 0) (by simp [roleFields])
  have hsync : t.on F.CAN_NT_STAT_nt_sync = false := Sets.on_of_disjoint hd ht (y := F.CAN_NT_STAT_nt_sync) (v := 0) (by simp [roleFields]) rfl
  have hrole : t.f F.CAN_NT_CFG_role = v.toNat % 4 := (congrArg F.CAN_NT_CFG_role.get hcfg).trans (role_get v)
  refine ⟨t, he, hcfg, Sets.f_of_disjoint hd ht (y := F.CAN_NT_STAT_result) (v := 0) (by simp [roleFields]), hstate, fun hr => ?_, fun hr => ?_,
    fun d => ntAt_congr (by rw [hnt]; rfl) (by rw [hnt]; rfl) d, by rw [hnt]; exact ht.hid_eq⟩
  · have hno := ntRole_of_role (t := t) (by rw [hrole]; exact hr)
    unfold ntStateRead ntSync
    rw [if_neg hno, if_neg hno]
    exact ⟨hstate, hsync⟩
  · have hyes := ntRole_of_master (hrole.trans hr) (by rw [hnt]; rfl)
    unfold ntStateRead ntSync
    rw [if_pos hyes, if_pos hyes]
    exact ⟨rfl, rfl⟩

/-! ### Setting, wrapping, holding over -/

theorem roundHalfEven_zero : roundHalfEven 0 = 0 := by decide +kernel

theorem completes_ntSet {s : State} {p : Port} {v : BitVec 64} (hl : Live p s R.CAN_NT_SET = true) (hrole : ntRole s = 2) :
    Completes (.ntSet p v) s fun t => ntAt t t.now = (v.toNat : Rat) ∧ t.hid.nt.stepped = true ∧ Sets [] (withNt s t.hid.nt) s t := by
  have hrun : (ntSet p v).run s = (seq [ntRebase (v.toNat * 2 ^ 32), ntA fun x => { x with stepped := true }]).run s :=
    congrArg (applyAll · s) (if_pos hrole)
  have hset := Sets.then_ntA (sets_ntRebase (v.toNat * 2 ^ 32) s) fun x => { x with stepped := true }
  rw [← run_seq_pair, ← hrun] at hset
  obtain ⟨t, he, ht⟩ := completes_portGate hl rfl hset (c := .ntSet p v) (by simp)
  have hnt := Sets.nt_eq ht
  refine ⟨t, he, ?_, by rw [hnt], by rw [hnt]; exact ht⟩
  unfold ntAt
  rw [ntCount_of_start (by rw [hnt, ht.now_eq]; rfl), hnt]
  show (((v.toNat : Int) * 2 ^ 32 : Int) : Rat) / 2 ^ 32 = v.toNat
  rw [Int.cast_mul, Int.cast_natCast, Int.cast_pow, Int.cast_ofNat]
  exact mul_div_cancel_right₀ _ (by positivity)

theorem completes_ntSet_refused {s : State} {p : Port} {v : BitVec 64} (hl : Live p s R.CAN_NT_SET = true) (hrole : ntRole s ≠ 2) :
    Completes (.ntSet p v) s (ReportsError p 3 R.CAN_NT_SET s) := by
  have hrun : (ntSet p v).run s = (accErr p 3 R.CAN_NT_SET).run s := congrArg (applyAll · s) (if_neg hrole)
  have herr := reportsError_accErr p 3 R.CAN_NT_SET s
  rw [← hrun] at herr
  exact completes_portGate hl rfl herr (by split <;> simp +decide)

theorem completes_ntHoldover {s : State} (hon : canOn s = true) (hrole : ntRole s = 1)
    (hst : s.f F.CAN_NT_STAT_state = 1 ∨ s.f F.CAN_NT_STAT_state = 2)
    (hpair : ∀ p, s.hid.nt.pairT = some p → 2400000 * p.2 ≤ (s.now - p.1).toNat) : Completes .ntHoldover s
      (Sets ([(F.CAN_NT_STAT_state, 3), (F.CAN_NT_STAT_nt_sync, 0)] ++
        (if s.f F.CAN_NT_STAT_state = 2 then [(F.CAN_NT_EVENT_unlock, 1)] else [])) (withNt s { s.hid.nt with good := 0 }) s) := by
  have hceased : pairsCeased s = true := by
    unfold pairsCeased
    split
    · next p h => exact decide_eq_true (hpair p h)
    · rfl
  have hyes : decide (canOn s = true ∧ ntRole s = 1 ∧ (s.f F.CAN_NT_STAT_state = 1 ∨ s.f F.CAN_NT_STAT_state = 2) ∧ pairsCeased s = true) = true :=
    decide_eq_true ⟨hon, hrole, hst, hceased⟩
  have hstate : Sets _ (withNt s s.hid.nt) s ((ntState 3).run s) := sets_ntState 3 s
  have hset : Sets (stateFields (s.f F.CAN_NT_STAT_state) 3) (withNt s { s.hid.nt with good := 0 }) s (ntHoldover.run s) := by
    unfold ntHoldover
    rw [run_whenA, if_pos hyes, run_seq_pair]
    exact Sets.then_ntA hstate fun x => { x with good := 0 }
  refine completes_sets (hset.cast ?_ rfl) (fun x hx => ?_) rfl
  · simp [stateFields, b2n]
  · have hx := ((List.Sublist.refl _).append (ite_sublist (List.Sublist.refl _))).subset hx
    simp only [List.cons_append, List.nil_append, List.mem_cons, List.not_mem_nil, or_false] at hx
    obtain rfl | rfl | rfl := hx <;> decide

theorem wrapped_div {c m : Int} {d e : Rat} (hd : 0 < d) (hm : (m : Rat) = e * d) :
    ((if m ≤ c then c - m else c : Int) : Rat) / d = if e ≤ (c : Rat) / d then (c : Rat) / d - e else (c : Rat) / d := by
  have hiff : e ≤ (c : Rat) / d ↔ m ≤ c := by rw [le_div_iff₀ hd, ← hm, Int.cast_le]
  by_cases h : m ≤ c
  · rw [if_pos h, if_pos (hiff.2 h), Int.cast_sub, sub_div, hm, mul_div_cancel_right₀ _ hd.ne']
  · rw [if_neg h, if_neg fun h' => h (hiff.1 h')]

theorem two_pow_96 : ((2 ^ 96 : Int) : Rat) = 2 ^ 64 * 2 ^ 32 := by norm_num

/-- Counting on from 2⁹⁶ units counts on from 0 (R424). -/
theorem wrapped_eq (c : Int) : (((if 2 ^ 96 ≤ c then c - 2 ^ 96 else c : Int) : Rat) / 2 ^ 32) =
    if (2 : Rat) ^ 64 ≤ (c : Rat) / 2 ^ 32 then (c : Rat) / 2 ^ 32 - 2 ^ 64 else (c : Rat) / 2 ^ 32 :=
  wrapped_div (by positivity) two_pow_96

/-- The count once it has wrapped. -/
def wrapCount (c : Int) : Int := if 2 ^ 96 ≤ c then c - 2 ^ 96 else c

theorem ntWrap_eq : ntWrap = whenA canOn (seq [ntA (fun x => { x with wrapEv := true }), fun s => ntRebase (wrapCount (ntCount s s.now)) s,
    fun s => setF F.CAN_NT_SNAP_wrap (min 255 (s.f F.CAN_NT_SNAP_wrap + 1)) s]) := rfl

theorem run_ntRebase_wrap (u : State) :
    Act.run (fun s => ntRebase (wrapCount (ntCount s s.now)) s) u = (ntRebase (wrapCount (ntCount u u.now))).run u :=
  run_fun (fun s => ntRebase (wrapCount (ntCount s s.now))) u

theorem run_setF_wrap (u : State) : Act.run (fun s => setF F.CAN_NT_SNAP_wrap (min 255 (s.f F.CAN_NT_SNAP_wrap + 1)) s) u =
    (setF F.CAN_NT_SNAP_wrap (min 255 (u.f F.CAN_NT_SNAP_wrap + 1))).run u :=
  run_fun (fun s => setF F.CAN_NT_SNAP_wrap (min 255 (s.f F.CAN_NT_SNAP_wrap + 1))) u

theorem sets_ntWrap {s : State} (hon : canOn s = true) : Sets [(F.CAN_NT_SNAP_wrap, min 255 (s.f F.CAN_NT_SNAP_wrap + 1))]
    (withNt s (rebasedNt s.now (s.rd R.CAN_NT_ADJ) (wrapCount (ntCount s s.now)) { s.hid.nt with wrapEv := true })) s (ntWrap.run s) := by
  have hev := sets_ntA (fun x => { x with wrapEv := true }) s
  have hcount : ntCount ((ntA fun x => { x with wrapEv := true }).run s) ((ntA fun x => { x with wrapEv := true }).run s).now = ntCount s s.now := by
    rw [hev.now_eq]
    exact ntCount_congr (by rw [Sets.nt_eq hev]) (by rw [Sets.nt_eq hev]) _
  have hbase := Sets.then_ntRebase hev (wrapCount (ntCount s s.now)) (hev.rd_of_ne (by simp))
  rw [ntWrap_eq, run_whenA, if_pos hon, run_seq_cons, run_seq_pair,
    run_ntRebase_wrap, run_setF_wrap, hcount, hbase.f_of_apart (y := F.CAN_NT_SNAP_wrap) (by simp)]
  exact hbase.then_setF _ _

theorem completes_ntWrap {s : State} (hon : canOn s = true) : Completes .ntWrap s fun t =>
    t.f F.CAN_NT_SNAP_wrap = min 255 (s.f F.CAN_NT_SNAP_wrap + 1) ∧
      ntAt t t.now = (if 2 ^ 64 ≤ ntAt s s.now then ntAt s s.now - 2 ^ 64 else ntAt s s.now) ∧ NtFrame s t := by
  obtain ⟨t, he, ht⟩ := completes_sets (sets_ntWrap hon) (c := .ntWrap) (by simp [F.CAN_NT_SNAP_wrap, R.CAN_NT_SNAP, R.SYS_MODE_STAT]) rfl
  have hnt := Sets.nt_eq ht
  refine ⟨t, he, ?_, ?_, ht.keepRegs (by simp [F.CAN_NT_SNAP_wrap, ntReg]), ht.sameAside, by rw [hnt]; exact ht.hid_eq⟩
  · refine (ht.f_of_mem (y := F.CAN_NT_SNAP_wrap) (by simp) (by simp) (by simp [F.CAN_NT_SNAP_wrap]) (by simp [F.CAN_NT_SNAP_wrap])).trans
      (Nat.mod_eq_of_lt (by simp only [F.CAN_NT_SNAP_wrap]; omega))
  · unfold ntAt
    rw [ntCount_of_start (by rw [hnt, ht.now_eq]; rfl), hnt]
    exact wrapped_eq _

/-! ### A master's reference frame (R426) -/

theorem leNat_leBytes (n x : Nat) : leNat (leBytes n x) = x % 256 ^ n := by
  induction n generalizing x with
  | zero => rw [leBytes, leNat, Nat.pow_zero, Nat.mod_one]
  | succ n ih =>
    rw [leBytes, leNat, ih, BitVec.toNat_ofNat]
    show x % 256 + 256 * (x / 256 % 256 ^ n) = x % 256 ^ (n + 1)
    rw [Nat.pow_succ', Nat.mod_mul]

theorem length_leBytes (n x : Nat) : (leBytes n x).length = n := by
  induction n generalizing x with
  | zero => rfl
  | succ n ih => rw [leBytes, List.length_cons, ih]

/-- The time of the frame before, where that one has been sent and none waits. -/
def refTime (s : State) : Option Rat :=
  if s.hid.nt.ref.isSome then none
  else (s.hid.nt.sof.filter fun y => y.1 = s.hid.nt.seq.getD (s.f F.CAN_NT_STAT_seq)).map (·.2)

/-- The bytes of the reference frame that falls due. -/
def refBytes (s : State) : List Byte :=
  refData ((s.hid.nt.seq.getD (s.f F.CAN_NT_STAT_seq) + 1) % 256) (refTime s).isSome (s.hid.nt.stepped || s.hid.nt.ref.any refStepped) (ntPeriod s)
    ((refTime s).getD 0)

/-- What the block holds once the frame is formed. -/
def dueNt (s : State) : NtSt :=
  { s.hid.nt with
    ref := some (refMsg s (refBytes s)), seq := some ((s.hid.nt.seq.getD (s.f F.CAN_NT_STAT_seq) + 1) % 256), stepped := false }

theorem sets_ntRefDue {s : State} (hon : canOn s = true) (hrole : ntRole s = 2) :
    Sets (if s.hid.nt.ref.isSome then [(F.CAN_NT_EVENT_ref_late, 1)] else []) (withNt s (dueNt s)) s (ntRefDue.run s) := by
  have hyes : decide (canOn s = true ∧ ntRole s = 2) = true := decide_eq_true ⟨hon, hrole⟩
  have hlate : Sets _ (withNt s s.hid.nt) s _ := (Sets.refl s).then_only s.hid.nt.ref.isSome fun _ => Sets.setF F.CAN_NT_EVENT_ref_late 1 _
  have hall := Sets.then_ntA hlate fun x => { x with ref := (dueNt s).ref, seq := (dueNt s).seq, stepped := false }
  have hrun : ntRefDue.run s = (seq [only s.hid.nt.ref.isSome (setB F.CAN_NT_EVENT_ref_late),
      ntA fun x => { x with ref := (dueNt s).ref, seq := (dueNt s).seq, stepped := false }]).run s := by
    unfold ntRefDue
    rw [run_whenA, if_pos hyes]
    rfl
  rw [hrun, run_seq_pair]
  exact hall

theorem length_refData (q : Nat) (valid stepped : Bool) (ms : Nat) (t : Rat) : (refData q valid stepped ms t).length = 12 := by
  rw [refData, List.length_append, length_leBytes]
  rfl

theorem refTime_of_waiting {s : State} (h : s.hid.nt.ref ≠ none) : refTime s = none :=
  if_pos (Option.isSome_iff_ne_none.2 h)

theorem refTime_of_sent {s : State} {T : Rat} (h : s.hid.nt.ref = none)
    (hsof : s.hid.nt.sof = some (s.hid.nt.seq.getD (s.f F.CAN_NT_STAT_seq), T)) : refTime s = some T := by
  unfold refTime
  rw [h, hsof]
  simp

theorem refFlags_stepped : ∀ a b : Bool, (BitVec.ofNat 8 (b2n a + 2 * b2n b)).getLsbD 1 = b := by decide
theorem refFlags_valid : ∀ a b : Bool, (BitVec.ofNat 8 (b2n a + 2 * b2n b)).getLsbD 0 = a := by decide

theorem completes_ntRefDue {s : State} (hon : canOn s = true) (hrole : ntRole s = 2) : Completes .ntRefDue s fun t =>
    t.hid.nt = dueNt s ∧ t.rd R.CAN_NT_STAT = s.rd R.CAN_NT_STAT ∧
      t.on F.CAN_NT_EVENT_ref_late = (s.on F.CAN_NT_EVENT_ref_late || s.hid.nt.ref.isSome) ∧ NtFrame s t := by
  have hmem : ∀ x ∈ (if s.hid.nt.ref.isSome then [(F.CAN_NT_EVENT_ref_late, 1)] else []), x = (F.CAN_NT_EVENT_ref_late, 1) := fun x hx =>
    List.mem_singleton.1 ((ite_sublist (List.Sublist.refl _)).subset hx)
  obtain ⟨t, he, ht⟩ := completes_sets (sets_ntRefDue hon hrole) (c := .ntRefDue) (fun x hx => by
    rw [hmem x hx]
    decide) rfl
  have hnt := Sets.nt_eq ht
  refine ⟨t, he, hnt, ht.rd_of_ne fun x hx => by rw [hmem x hx]; decide, ?_, ht.keepRegs fun x hx => by rw [hmem x hx]; exact .inr (.inl rfl),
    ht.sameAside, by rw [hnt]; exact ht.hid_eq⟩
  cases hlate : s.hid.nt.ref.isSome with
  | true =>
    rw [hlate] at ht
    rw [Bool.or_true]
    exact (ht.on_of_mem (y := F.CAN_NT_EVENT_ref_late) (v := 1) (by simp) (by simp) rfl (by decide)).trans (by decide)
  | false =>
    rw [hlate] at ht
    rw [Bool.or_false]
    exact ht.on_of_apart (by simp)

end Sys2Proof.Machine
end

section
/-!
What a slave of network time does with a reference frame (R425, R427): a pair steps the counter or slews it, and a frame without its pair
is noted.
-/

namespace Sys2Proof.Machine

/-! ### A pair -/

section
variable (u : State) (e : Rat) (b : Bool) (tref : Rat) (old : Rat × Nat)

/-- Its offset lies within `lock_ns`; it steps the counter; the pairs in a row within `lock_ns` that there then are. -/
def pairTol : Bool := decide (magQ e ≤ (u.f F.CAN_NT_TOL_lock_ns : Rat))
def pairSteps : Bool :=
  !u.hid.nt.paired || u.f F.CAN_NT_STAT_state = 0 || u.f F.CAN_NT_STAT_state = 3 || b || decide ((u.f F.CAN_NT_TOL_step_ns : Rat) < magQ e)
def pairGood : Nat := if !pairTol u e then 0 else if pairSteps u e b then 1 else u.hid.nt.good + 1

/-- What the block holds after a pair that steps. -/
def steppedNt : NtSt :=
  { rebasedNt u.now (u.rd R.CAN_NT_ADJ) (ntCount u u.now + roundHalfEven (e * 2 ^ 32)) u.hid.nt with
    last := u.hid.nt.last.map fun l => (l.1, l.2.1 + e, l.2.2), paired := true, good := pairGood u e b }

/-- The rate as a pair that slews corrects it, the local time that is held, and the length of the slew. -/
def slewAdj : Word := BitVec.ofInt 32 (clampInt (-219902326) 219902326
  (roundHalfEven (((u.rd R.CAN_NT_ADJ).toInt : Rat) + e * 2 ^ 40 / (4 * tref))))
def slewHeld : Rat := ntHeld old.1 e old.2 (slewAdj u e tref).toInt
def slewTicks : Nat := max 1 (tref * 4 / 5).floor.toNat

/-- What the block holds before and after a pair that slews goes on from the count as it stands. -/
def slewStart : NtSt :=
  { u.hid.nt with slew := (slewHeld u e tref old - (u.hid.nt.last.map (·.2.1)).getD (slewHeld u e tref old)) / slewTicks tref }
def slewBase : NtSt := rebasedNt u.now (slewAdj u e tref) (ntCount u u.now) (slewStart u e tref old)
def slewedNt : NtSt :=
  { slewBase u e tref old with
    line := { (slewBase u e tref old).line with slewN := slewTicks tref },
    last := u.hid.nt.last.map fun l => (l.1, slewHeld u e tref old, l.2.2), paired := true, good := pairGood u e b }

/-- The fields that a pair that slews sets beside the offset and the rate. -/
def slewState : List (Fld × Nat) :=
  if !pairTol u e then stateFields (u.f F.CAN_NT_STAT_state) 1
  else if 4 ≤ pairGood u e b then stateFields (u.f F.CAN_NT_STAT_state) 2 else []

end

section
variable {u : State} {e : Rat} {b : Bool} {tref : Rat} {old : Rat × Nat}

theorem run_ntStep (e : Rat) (u : State) : (ntStep e).run u = (ntRebase (ntCount u u.now + roundHalfEven (e * 2 ^ 32))).run u :=
  run_fun (fun s => ntRebase (ntCount s s.now + roundHalfEven (e * 2 ^ 32))) u

/-- What a pair does that steps, and what one does that slews. -/
def stepActs (e : Rat) : Act := seq [ntStep e, ntA fun y => { y with last := y.last.map fun l => (l.1, l.2.1 + e, l.2.2) },
  setB F.CAN_NT_EVENT_step, ntState 1]

def slewOn (held tref : Rat) : Act :=
  seq [ntA fun y => { y with slew := (held - (y.last.map (·.2.1)).getD held) / slewTicks tref }, ntStep 0,
    ntA fun y => { y with line := { y.line with slewN := slewTicks tref }, last := y.last.map fun l => (l.1, held, l.2.2) }]

def slewActs (u : State) (e : Rat) (b : Bool) (tref : Rat) (old : Rat × Nat) : Act := seq [
  withS fun t => setW R.CAN_NT_ADJ (BitVec.ofInt 32 (clampInt (-219902326) 219902326
    (roundHalfEven (((t.rd R.CAN_NT_ADJ).toInt : Rat) + e * 2 ^ 40 / (4 * tref))))),
  withS fun t => slewOn (ntHeld old.1 e old.2 (t.rd R.CAN_NT_ADJ).toInt) tref,
  if !pairTol u e then ntState 1 else only (4 ≤ pairGood u e b) (ntState 2)]

theorem run_ntPair (u : State) (e : Rat) (b : Bool) (tref : Rat) (old : Rat × Nat) :
    (ntPair e b tref old).run u = (seq [setW R.CAN_NT_OFS (ofsWord e), if pairSteps u e b then stepActs e else slewActs u e b tref old,
      ntA fun y => { y with paired := true, good := pairGood u e b }]).run u := rfl

theorem sets_ntPair_steps (h : pairSteps u e b = true) :
    Sets ([(wordFld R.CAN_NT_OFS, (ofsWord e).toNat), (F.CAN_NT_EVENT_step, 1)] ++ stateFields (u.f F.CAN_NT_STAT_state) 1)
      (withNt u (steppedNt u e b)) u ((ntPair e b tref old).run u) := by
  rw [run_ntPair, if_pos h, run_seq_cons, run_seq_pair, stepActs, run_seq_cons, run_seq_cons, run_seq_pair, run_ntStep, setB_eq]
  have hofs : Sets _ (withNt u u.hid.nt) u _ := Sets.setW R.CAN_NT_OFS (ofsWord e) u
  have hcount : ntCount ((setW R.CAN_NT_OFS (ofsWord e)).run u) ((setW R.CAN_NT_OFS (ofsWord e)).run u).now = ntCount u u.now := rfl
  rw [hcount]
  have hstep := (Sets.then_ntA (Sets.then_ntRebase hofs (ntCount u u.now + roundHalfEven (e * 2 ^ 32)) (hofs.rd_of_ne (by simp [wordFld, R.CAN_NT_OFS, R.CAN_NT_ADJ])))
    fun y => { y with last := y.last.map fun l => (l.1, l.2.1 + e, l.2.2) }).then_setF F.CAN_NT_EVENT_step 1
  have hstate := sets_ntState 1 ((setF F.CAN_NT_EVENT_step 1).run ((ntA fun y => { y with last := y.last.map fun l => (l.1, l.2.1 + e, l.2.2) }).run
    ((ntRebase (ntCount u u.now + roundHalfEven (e * 2 ^ 32))).run ((setW R.CAN_NT_OFS (ofsWord e)).run u))))
  rw [hstep.f_of_apart (y := F.CAN_NT_STAT_state) (by simp [Fld.Apart, wordFld, F.CAN_NT_EVENT_step, F.CAN_NT_STAT_state, R.CAN_NT_OFS,
    R.CAN_NT_EVENT, R.CAN_NT_STAT])] at hstate
  exact Sets.then_ntA (hstep.trans (hstate.cast rfl hstep.hid_eq)) fun y => { y with paired := true, good := pairGood u e b }

theorem sets_slewOn (tref : Rat) (old : Rat × Nat) {l : List (Fld × Nat)} {w : State} (hw : Sets l (withNt u u.hid.nt) u w)
    (hadj : w.rd R.CAN_NT_ADJ = slewAdj u e tref) :
    Sets l (withNt u { slewBase u e tref old with
      line := { (slewBase u e tref old).line with slewN := slewTicks tref },
      last := u.hid.nt.last.map fun l => (l.1, slewHeld u e tref old, l.2.2) }) u ((slewOn (slewHeld u e tref old) tref).run w) := by
  rw [slewOn, run_seq_cons, run_seq_pair, run_ntStep, zero_mul, roundHalfEven_zero, Int.add_zero]
  have hstart := Sets.then_ntA hw fun y => { y with
    slew := (slewHeld u e tref old - (y.last.map (·.2.1)).getD (slewHeld u e tref old)) / slewTicks tref }
  set v := (ntA fun y => { y with slew := (slewHeld u e tref old - (y.last.map (·.2.1)).getD (slewHeld u e tref old)) / slewTicks tref }).run w with hv
  have hcount : ntCount v v.now = ntCount u u.now := by
    rw [hstart.now_eq]
    exact ntCount_congr (by rw [Sets.nt_eq hstart]) (by rw [Sets.nt_eq hstart]) _
  have hrate : v.rd R.CAN_NT_ADJ = slewAdj u e tref := ((sets_ntA _ w).rd_of_ne (by simp)).trans hadj
  rw [hcount]
  exact Sets.then_ntA (Sets.then_ntRebase hstart (ntCount u u.now) hrate) fun y => { y with
    line := { y.line with slewN := slewTicks tref }, last := y.last.map fun l => (l.1, slewHeld u e tref old, l.2.2) }

theorem sets_ntPair_slews (h : pairSteps u e b = false) :
    Sets ([(wordFld R.CAN_NT_OFS, (ofsWord e).toNat), (wordFld R.CAN_NT_ADJ, (slewAdj u e tref).toNat)] ++ slewState u e b)
      (withNt u (slewedNt u e b tref old)) u ((ntPair e b tref old).run u) := by
  rw [run_ntPair, if_neg (by simp [h]), run_seq_cons, run_seq_pair, slewActs, run_seq_cons, run_seq_pair, run_withS, run_withS]
  have hofs : Sets _ (withNt u u.hid.nt) u _ := Sets.setW R.CAN_NT_OFS (ofsWord e) u
  have hword : ((setW R.CAN_NT_OFS (ofsWord e)).run u).rd R.CAN_NT_ADJ = u.rd R.CAN_NT_ADJ :=
    hofs.rd_of_ne (by simp [wordFld, R.CAN_NT_OFS, R.CAN_NT_ADJ])
  rw [hword]
  have hadj := hofs.then_setW R.CAN_NT_ADJ (slewAdj u e tref)
  have hrate : ((setW R.CAN_NT_ADJ (slewAdj u e tref)).run ((setW R.CAN_NT_OFS (ofsWord e)).run u)).rd R.CAN_NT_ADJ = slewAdj u e tref := by
    rw [run_setW_rd, if_pos rfl]
  have hslew := sets_slewOn tref old hadj hrate
  have hheld : ntHeld old.1 e old.2 (((setW R.CAN_NT_ADJ (slewAdj u e tref)).run ((setW R.CAN_NT_OFS (ofsWord e)).run u)).rd R.CAN_NT_ADJ).toInt =
      slewHeld u e tref old := by rw [hrate]; rfl
  rw [← slewAdj, hheld]
  set w := (slewOn (slewHeld u e tref old) tref).run ((setW R.CAN_NT_ADJ (slewAdj u e tref)).run ((setW R.CAN_NT_OFS (ofsWord e)).run u))
  have hst : w.f F.CAN_NT_STAT_state = u.f F.CAN_NT_STAT_state :=
    hslew.f_of_apart (by simp [Fld.Apart, wordFld, F.CAN_NT_STAT_state, R.CAN_NT_OFS, R.CAN_NT_ADJ, R.CAN_NT_STAT])
  have hstate : Sets (slewState u e b) w.hid w ((if !pairTol u e then ntState 1 else only (4 ≤ pairGood u e b) (ntState 2)).run w) := by
    unfold slewState
    rw [← hst]
    split
    · exact sets_ntState 1 w
    · rw [run_only]
      by_cases hgood : 4 ≤ pairGood u e b
      · rw [if_pos (decide_eq_true hgood), if_pos hgood]
        exact sets_ntState 2 w
      · rw [if_neg hgood, if_neg (by simp [hgood])]
        exact Sets.refl w
  exact Sets.then_ntA (hslew.trans (hstate.cast rfl hslew.hid_eq)) fun y => { y with paired := true, good := pairGood u e b }

end

/-! ### A reference frame -/

/-- The master's time that a frame carries, and the interval that it closes. -/
def frameTm (m : CanMsg) : Rat := ((leNat ((m.data.drop 4).take 8) : Nat) : Rat)
def frameTref (u : State) (m : CanMsg) : Rat := match u.hid.nt.tm with
  | some t0 => if t0 < frameTm m then frameTm m - t0 else msgByte m 3 * 1000000
  | none => msgByte m 3 * 1000000

/-- What the block notes of a frame. -/
def notedNt (u : State) (m : CanMsg) (t : BitVec 64) : NtSt :=
  { u.hid.nt with
    last := some (msgByte m 1, ntAt u t, t), tm := if msgByte m 2 = 1 then some (frameTm m) else none }

/-- The noting of a frame. -/
def noteActs (u : State) (m : CanMsg) (t : BitVec 64) : List Act := [setF F.CAN_NT_STAT_seq (msgByte m 1),
  ntA fun y => { y with last := (notedNt u m t).last, tm := (notedNt u m t).tm }]

/-- The state once a frame is noted. -/
def notedSt (u : State) (m : CanMsg) (t : BitVec 64) : State := (seq (noteActs u m t)).run u

theorem sets_notedSt (u : State) (m : CanMsg) (t : BitVec 64) :
    Sets [(F.CAN_NT_STAT_seq, msgByte m 1)] (withNt u (notedNt u m t)) u (notedSt u m t) := by
  unfold notedSt noteActs
  rw [run_seq_pair]
  have hseq : Sets _ (withNt u u.hid.nt) u _ := Sets.setF F.CAN_NT_STAT_seq (msgByte m 1) u
  exact Sets.then_ntA hseq fun y => { y with last := (notedNt u m t).last, tm := (notedNt u m t).tm }

section
variable {u : State} {m : CanMsg} {t : BitVec 64}

theorem run_ntSlave_unpaired (h : ∀ l, u.hid.nt.last = some l → ¬ ((l.1 + 1) % 256 = msgByte m 1 ∧ msgByte m 2 % 2 = 1)) :
    (ntSlave m t).run u = notedSt u m t := by
  have hrun : (ntSlave m t).run u = (seq (noteActs u m t ++ [nop])).run u := by
    unfold msgByte at h
    unfold Act.run ntSlave
    dsimp only
    cases hl : u.hid.nt.last with
    | none => rfl
    | some l =>
      dsimp only
      rw [if_neg (h l hl)]
      rfl
  rw [hrun, run_seq_append]
  rfl

theorem run_ntSlave_paired {q : Nat} {tq : Rat} {t1 : BitVec 64} (hl : u.hid.nt.last = some (q, tq, t1))
    (hp : (q + 1) % 256 = msgByte m 1 ∧ msgByte m 2 % 2 = 1) : (ntSlave m t).run u =
      (ntA fun y => { y with pairT := some (u.now, msgByte m 3) }).run
        ((ntPair (frameTm m - (tq - ((u.rd R.CAN_NT_COMP).toInt : Rat))) (decide (msgByte m 2 / 2 % 2 = 1)) (frameTref u m)
          (tq, (t - t1).toNat)).run (notedSt u m t)) := by
  have hrun : (ntSlave m t).run u = (seq (noteActs u m t ++ [seq [ntPair (frameTm m - (tq - ((u.rd R.CAN_NT_COMP).toInt : Rat)))
      (decide (msgByte m 2 / 2 % 2 = 1)) (frameTref u m) (tq, (t - t1).toNat), ntA fun y => { y with pairT := some (u.now, msgByte m 3) }]])).run u := by
    have hp : (q + 1) % 256 = (m.data.getD 1 0#8).toNat ∧ (m.data.getD 2 0#8).toNat % 2 = 1 := hp
    unfold Act.run ntSlave
    dsimp only
    rw [hl]
    dsimp only
    rw [if_pos hp]
    rfl
  rw [hrun, run_seq_append, run_seq_cons, run_seq_pair, run_seq_nil]
  rfl

end

end Sys2Proof.Machine
end

section
/-!
The statement on network time, settled: the reference frame as a command, and the clauses put together.
-/

namespace Sys2Proof.Machine

/-! ### The reference frame as a command -/

/-- Beside the registers of network time. -/
def ntOut (off : Nat) : Prop := ¬ (0x20F000 ≤ off ∧ off < 0x20F100)

/-- Network time stands in `u` as in `s`. -/
def NtSame (s u : State) : Prop := SetsBut ntOut [] s u ∧ u.hid.nt = s.hid.nt

theorem not_ntOut_of_ntReg {off : Nat} (h : ntReg off) : ¬ ntOut off := not_not_intro (ntReg_range h)

section
variable {s u : State} (hu : NtSame s u)
include hu

theorem NtSame.rd_eq {off : Nat} (hoff : ¬ ntOut off) : u.rd off = s.rd off := hu.1.1 off hoff

theorem NtSame.f_eq {y : Fld} (hoff : ¬ ntOut y.off) : u.f y = s.f y := f_of_rd_eq (NtSame.rd_eq hu hoff)

theorem NtSame.now_eq : u.now = s.now := by
  obtain ⟨⟨-, -, hnow⟩, -⟩ := hu
  exact hnow

theorem NtSame.ntAt_eq (d : BitVec 64) : ntAt u d = ntAt s d := ntAt_congr (by rw [hu.2]) (by rw [hu.2]) d

theorem NtSame.ntRole_eq : ntRole u = ntRole s := by
  unfold ntRole
  rw [NtSame.f_eq hu (y := F.CAN_NT_CFG_role) (by simp [ntOut, F.CAN_NT_CFG_role, R.CAN_NT_CFG]), hu.2]

end

/-- A change of registers beside network time leaves its registers. -/
theorem SetsBut.of_out {w : Nat → Prop} {l : List (Fld × Nat)} {s t : State} (ht : SetsBut w l s t) (hw : ∀ off, w off → ntOut off)
    (hl : ∀ x ∈ l, ntOut x.1.off) : SetsBut ntOut [] s t := by
  obtain ⟨hrd, hmem, hnow⟩ := ht
  refine ⟨fun off hoff => ?_, hmem, hnow⟩
  rw [hrd off fun h => hoff (hw off h)]
  exact fieldWord_of_forall_ne (off := off) (fun x hx he => hoff (he ▸ hl x hx)) _

theorem ntOut_of_rxReg {k off : Nat} (h : rxReg k off) : ntOut off := by
  have hrange := range_of_rxReg h
  unfold ntOut
  rcases Nat.eq_zero_or_pos k with rfl | hk <;> omega

/-- A reception that goes on to network time changes what the statement's frame names. -/
theorem refFrame_of_sets {k : Nat} {l l1 : List (Fld × Nat)} {c : CanSt} {n : NtSt} {s u v : State} (hl : ∀ x ∈ l, rxReg k x.1.off)
    (hu : SetsCan l k c s u) (hl1 : ∀ x ∈ l1, ntReg x.1.off) (hv : Sets l1 (withNt u n) u v) : RefFrame k s v := by
  obtain ⟨-, hrest, hset⟩ := hu
  have hall := hset.trans hv
  have hcan : v.hid.can = u.hid.can := (congrArg Hid.can hv.hid_eq).trans rfl
  have hnt : v.hid.nt = n := Sets.nt_eq hv
  refine ⟨hall.keepRegs fun x hx => ?_, hall.sameAside, ?_, fun j hj => ?_⟩
  · obtain hx | hx := List.mem_append.1 hx
    · exact .inr (hl x hx)
    · exact .inl (hl1 x hx)
  · rw [hcan, hnt, hall.hid_eq]
    unfold withNt
    rw [hset.hid_eq]
  · rw [← hrest j hj, canSt, canSt, hcan]

section
variable {s : State} {m : CanMsg} {sof : BitVec 64} (hact : canActive s (s.f F.CAN_NT_CFG_ctrl) = true) (hgood : refGood s m = true)
include hact hgood

theorem completes_refRx {P : State → Prop} (hP : ∀ u t, NtSame s u → SetsBut ntOut [] ((ntRefRx m sof).run u) t →
      t.hid.nt = ((ntRefRx m sof).run u).hid.nt → (¬ probeMsg s (s.f F.CAN_NT_CFG_ctrl) m → RefFrame (s.f F.CAN_NT_CFG_ctrl) s t) → P t) :
    Completes (.ntRefRx m sof) s P := by
  obtain ⟨l, c, hl, hu⟩ := setsCan_canRx s (s.f F.CAN_NT_CFG_ctrl) m sof
  obtain ⟨v, hv, hprobe, hplain⟩ := run_canFrame (s.f F.CAN_NT_CFG_ctrl) m sof s
  rw [if_pos ⟨hact, rfl, hgood⟩] at hv
  obtain ⟨l1, n, hl1, hnt⟩ := ntOnly_refRx m sof ((canRx (s.f F.CAN_NT_CFG_ctrl) m sof).run s)
  rw [← hv] at hnt
  obtain ⟨l2, h, hl2, ht, hhnt, -⟩ := hprobe
  have hrun : (ntFrame m sof).run s = (canFrame (s.f F.CAN_NT_CFG_ctrl) m sof).run s := by
    have hyes : decide (canActive s (s.f F.CAN_NT_CFG_ctrl) = true ∧ refGood s m = true) = true := decide_eq_true ⟨hact, hgood⟩
    unfold ntFrame
    rw [run_whenA, if_pos hyes]
    exact run_fun (fun s => canFrame (s.f F.CAN_NT_CFG_ctrl) m sof) s
  have hout : ∀ x ∈ l2, ntOut x.1.off := fun x hx => by
    have h := hl2 x hx
    unfold ntOut
    omega
  refine ⟨levelsFall.run ((ntFrame m sof).run s), finish_same _ _ ?_, hP ((canRx (s.f F.CAN_NT_CFG_ctrl) m sof).run s) _
    ⟨(hu.sets.setsBut ntOut).of_out (fun _ h => h) fun x hx => ntOut_of_rxReg (hl x hx), by rw [hu.sets.hid_eq]⟩ ?_ ?_ fun hmsg => ?_⟩
  · rw [hrun, ht.mode fun x hx => by have h := hl2 x hx; simp only [R.SYS_MODE_STAT]; omega,
      hnt.mode fun x hx => by have h := ntReg_range (hl1 x hx); simp only [R.SYS_MODE_STAT]; omega,
      hu.sets.mode fun x hx => ne_mode_of_rxReg (hl x hx)]
  · rw [hrun, ← hv]
    exact ((ht.setsBut ntOut).of_out (fun _ h => h) hout).then_levelsFall
  · rw [run_levelsFall_hid, hrun, ← hv, ht.hid_eq]
    exact hhnt
  · rw [hrun, hplain hmsg]
    exact refFrame_of_sets hl hu hl1 hnt.then_levelsFall

end

/-! ### The role -/

theorem run_ntRefRx_slave {u : State} {m : CanMsg} {d : BitVec 64} (h : ntRole u = 1) : (ntRefRx m d).run u = (ntSlave m d).run u := by
  unfold ntRefRx Act.run
  dsimp only
  rw [h]
  rfl

/-- What a master holds that has heard another one. -/
def yieldedNt (x : NtSt) : NtSt := { x with yielded := true, ref := none, last := none, tm := none, paired := false, good := 0 }

theorem run_ntRefRx_master {u : State} {m : CanMsg} {d : BitVec 64} (h : ntRole u = 2) : (ntRefRx m d).run u =
    (ntSlave m d).run ((ntState 0).run ((ntA yieldedNt).run ((setF F.CAN_NT_EVENT_conflict 1).run u))) := by
  have hrun : (ntRefRx m d).run u = (seq [setB F.CAN_NT_EVENT_conflict, ntA yieldedNt, ntState 0, ntSlave m d]).run u := by
    unfold ntRefRx Act.run
    dsimp only
    rw [h]
    rfl
  rw [hrun, run_seq_cons, run_seq_cons, run_seq_pair, setB_eq]

theorem role_of_master {s : State} (h : ntRole s = 2) : s.f F.CAN_NT_CFG_role = 2 := by
  unfold ntRole at h
  split at h
  · exact absurd h (by decide)
  · next hr => exact hr
  · exact absurd h (by decide)

theorem sets_ntRefRx_master {u : State} {m : CanMsg} {d : BitVec 64} (h : ntRole u = 2) :
    ∃ l0, Sets ([(F.CAN_NT_EVENT_conflict, 1)] ++ stateFields (u.f F.CAN_NT_STAT_state) 0 ++ [(F.CAN_NT_STAT_seq, msgByte m 1)])
      (withNt u { yieldedNt u.hid.nt with last := l0, tm := if msgByte m 2 = 1 then some (frameTm m) else none }) u ((ntRefRx m d).run u) := by
  have hset : Sets _ (withNt u u.hid.nt) u _ := Sets.setF F.CAN_NT_EVENT_conflict 1 u
  have hyield := Sets.then_ntA hset yieldedNt
  have hstate := sets_ntState 0 ((ntA yieldedNt).run ((setF F.CAN_NT_EVENT_conflict 1).run u))
  rw [hyield.f_of_apart (y := F.CAN_NT_STAT_state) (by simp [Fld.Apart, F.CAN_NT_EVENT_conflict, F.CAN_NT_STAT_state, R.CAN_NT_EVENT,
    R.CAN_NT_STAT])] at hstate
  have hquiet := hyield.trans (hstate.cast rfl hyield.hid_eq)
  have hnt := Sets.nt_eq hquiet
  refine ⟨some (msgByte m 1, ntAt ((ntState 0).run ((ntA yieldedNt).run ((setF F.CAN_NT_EVENT_conflict 1).run u))) d, d), ?_⟩
  rw [run_ntRefRx_master h, run_ntSlave_unpaired fun l hl => by rw [hnt] at hl; exact absurd hl (by simp [yieldedNt])]
  refine (Sets.trans_nt hquiet (sets_notedSt _ m d)).cast rfl ?_
  unfold notedNt
  rw [hnt]

section
variable {l : List (Fld × Nat)} {s t : State} {y : Fld} {v : Nat} (ht : SetsBut ntOut l s t)
include ht

theorem SetsBut.f_of_disjoint (hd : DisjointFields l) (hy : ntReg y.off) (hm : (y, v) ∈ l) : t.f y = v % 2 ^ (y.hi + 1 - y.lo) :=
  ht.f_of_mem (not_ntOut_of_ntReg hy) hm (hd.apart hm) (hd.1 _ hm).1 (hd.1 _ hm).2

theorem SetsBut.on_of_disjoint (hd : DisjointFields l) (hy : ntReg y.off) (hm : (y, v) ∈ l) (hbit : y.hi = y.lo) : t.on y = decide (v % 2 = 1) :=
  ht.on_of_mem (not_ntOut_of_ntReg hy) hm (hd.apart hm) hbit (hd.1 _ hm).2

end

theorem stateFields_sublist (was n : Nat) : (stateFields was n).Sublist [(F.CAN_NT_STAT_state, n),
    (F.CAN_NT_STAT_nt_sync, b2n (decide (n = 2))), (F.CAN_NT_EVENT_lock, 1), (F.CAN_NT_EVENT_unlock, 1)] :=
  ((List.Sublist.refl _).append (ite_sublist (List.Sublist.refl [(F.CAN_NT_EVENT_lock, 1)]))).append
    (ite_sublist (List.Sublist.refl [(F.CAN_NT_EVENT_unlock, 1)]))

/-- The fields of a reference frame do not overlap, whatever it does. -/
theorem disjoint_yieldFields (was q : Nat) :
    DisjointFields ([(F.CAN_NT_EVENT_conflict, 1)] ++ stateFields was 0 ++ [(F.CAN_NT_STAT_seq, q)]) := by
  refine DisjointFields.sublist ?_ (((List.Sublist.refl _).append (stateFields_sublist was 0)).append (List.Sublist.refl _))
  simp [DisjointFields, Clear, F.CAN_NT_STAT_seq, F.CAN_NT_EVENT_conflict, F.CAN_NT_STAT_state, F.CAN_NT_STAT_nt_sync, F.CAN_NT_EVENT_lock,
    F.CAN_NT_EVENT_unlock, R.CAN_NT_STAT, R.CAN_NT_EVENT]

theorem disjoint_stepFields (was q x : Nat) : DisjointFields ([(F.CAN_NT_STAT_seq, q)] ++
    ([(wordFld R.CAN_NT_OFS, x), (F.CAN_NT_EVENT_step, 1)] ++ stateFields was 1)) := by
  refine DisjointFields.sublist ?_ ((List.Sublist.refl _).append ((List.Sublist.refl _).append (stateFields_sublist was 1)))
  simp [DisjointFields, Clear, wordFld, F.CAN_NT_STAT_seq, F.CAN_NT_EVENT_step, F.CAN_NT_STAT_state, F.CAN_NT_STAT_nt_sync, F.CAN_NT_EVENT_lock,
    F.CAN_NT_EVENT_unlock, R.CAN_NT_STAT, R.CAN_NT_EVENT, R.CAN_NT_OFS]

theorem slewState_sublist (u : State) (e : Rat) (b : Bool) : ∃ n, (slewState u e b).Sublist (stateFields (u.f F.CAN_NT_STAT_state) n) := by
  unfold slewState
  split
  · exact ⟨1, List.Sublist.refl _⟩
  · split
    · exact ⟨2, List.Sublist.refl _⟩
    · exact ⟨0, List.nil_sublist _⟩

theorem disjoint_slewFields (u : State) (e : Rat) (b : Bool) (q x z : Nat) : DisjointFields ([(F.CAN_NT_STAT_seq, q)] ++
    ([(wordFld R.CAN_NT_OFS, x), (wordFld R.CAN_NT_ADJ, z)] ++ slewState u e b)) := by
  obtain ⟨n, hn⟩ := slewState_sublist u e b
  refine DisjointFields.sublist ?_ ((List.Sublist.refl _).append ((List.Sublist.refl _).append (hn.trans (stateFields_sublist _ n))))
  simp [DisjointFields, Clear, wordFld, F.CAN_NT_STAT_seq, F.CAN_NT_STAT_state, F.CAN_NT_STAT_nt_sync, F.CAN_NT_EVENT_lock,
    F.CAN_NT_EVENT_unlock, R.CAN_NT_STAT, R.CAN_NT_EVENT, R.CAN_NT_OFS, R.CAN_NT_ADJ]

/-! ### The clauses on reference frames -/

section
variable {s : State} {m : CanMsg} {sof : BitVec 64} (hact : canActive s (s.f F.CAN_NT_CFG_ctrl) = true) (hgood : refGood s m = true)

theorem msgByte_lt (m : CanMsg) (i : Nat) : msgByte m i < 256 := (m.data.getD i 0#8).isLt

/-- What a reference frame sets in network time stands at the end. -/
theorem SetsBut.of_refRx {l : List (Fld × Nat)} {n : NtSt} {s u v t : State} (hu : NtSame s u) (hv : Sets l (withNt u n) u v)
    (ht : SetsBut ntOut [] v t) : SetsBut ntOut l s t := by
  have hall := (hu.1.trans (hv.setsBut ntOut)).trans ht
  simpa using hall

include hact hgood

theorem completes_refRx_master (hrole : ntRole s = 2) : Completes (.ntRefRx m sof) s fun t =>
    t.on F.CAN_NT_EVENT_conflict = true ∧ t.f F.CAN_NT_CFG_role = 2 ∧ ntRole t = 1 ∧ t.f F.CAN_NT_STAT_state = 0 ∧
      t.on F.CAN_NT_STAT_nt_sync = false ∧ t.hid.nt.ref = none ∧ t.f F.CAN_NT_STAT_seq = msgByte m 1 ∧
      (¬ probeMsg s (s.f F.CAN_NT_CFG_ctrl) m → RefFrame (s.f F.CAN_NT_CFG_ctrl) s t) := by
  refine completes_refRx hact hgood fun u t hu ht hnt hframe => ?_
  obtain ⟨l0, hset⟩ := sets_ntRefRx_master (m := m) (d := sof) (hu.ntRole_eq.trans hrole)
  have ht := SetsBut.of_refRx hu hset ht
  rw [Sets.nt_eq hset] at hnt
  have hd := disjoint_yieldFields (u.f F.CAN_NT_STAT_state) (msgByte m 1)
  have hcfg : t.f F.CAN_NT_CFG_role = 2 := by
    refine (ht.f_of_apart (y := F.CAN_NT_CFG_role) (by simp [ntOut, F.CAN_NT_CFG_role, R.CAN_NT_CFG]) fun x hx => .inl ?_).trans (role_of_master hrole)
    have hx := (((List.Sublist.refl _).append (stateFields_sublist _ 0)).append (List.Sublist.refl _)).subset hx
    simp only [List.cons_append, List.nil_append, List.mem_cons, List.not_mem_nil, or_false] at hx
    obtain rfl | rfl | rfl | rfl | rfl | rfl := hx <;>
      simp [F.CAN_NT_EVENT_conflict, F.CAN_NT_STAT_state, F.CAN_NT_STAT_nt_sync, F.CAN_NT_EVENT_lock, F.CAN_NT_EVENT_unlock, F.CAN_NT_STAT_seq,
        F.CAN_NT_CFG_role, R.CAN_NT_CFG, R.CAN_NT_STAT, R.CAN_NT_EVENT]
  refine ⟨?_, hcfg, ?_, ?_, ?_, by rw [hnt]; rfl, ?_, hframe⟩
  · exact (ht.on_of_disjoint (y := F.CAN_NT_EVENT_conflict) (v := 1) hd (.inr (.inl rfl)) (by simp) rfl).trans (by decide)
  · unfold ntRole
    rw [hcfg, hnt]
    rfl
  · exact ht.f_of_disjoint (y := F.CAN_NT_STAT_state) (v := 0) hd (.inl rfl) (by simp [stateFields])
  · exact ht.on_of_disjoint (y := F.CAN_NT_STAT_nt_sync) (v := 0) hd (.inl rfl) (by simp [stateFields, b2n]) rfl
  · exact (ht.f_of_disjoint (y := F.CAN_NT_STAT_seq) (v := msgByte m 1) hd (.inl rfl) (by simp)).trans (Nat.mod_eq_of_lt (msgByte_lt m 1))

theorem completes_refRx_unpaired (hrole : ntRole s = 1)
    (h : ∀ l, s.hid.nt.last = some l → ¬ ((l.1 + 1) % 256 = msgByte m 1 ∧ msgByte m 2 % 2 = 1)) : Completes (.ntRefRx m sof) s fun t =>
      t.f F.CAN_NT_STAT_seq = msgByte m 1 ∧
      t.hid.nt = { s.hid.nt with last := some (msgByte m 1, ntAt s sof, sof), tm := if msgByte m 2 = 1 then some (frameTm m) else none } ∧
      (¬ probeMsg s (s.f F.CAN_NT_CFG_ctrl) m → RefFrame (s.f F.CAN_NT_CFG_ctrl) s t) ∧
      KeepRegs (fun off => off = R.CAN_NT_STAT ∨ ¬ ntReg off) s t := by
  refine completes_refRx hact hgood fun u t hu ht hnt hframe => ?_
  have hset := sets_notedSt u m sof
  rw [← run_ntSlave_unpaired (by rw [hu.2]; exact h), ← run_ntRefRx_slave (hu.ntRole_eq.trans hrole)] at hset
  have ht := SetsBut.of_refRx hu hset ht
  rw [Sets.nt_eq hset, notedNt, hu.2, hu.ntAt_eq] at hnt
  refine ⟨?_, hnt, hframe, fun off hoff => ?_⟩
  · exact (ht.f_of_mem (y := F.CAN_NT_STAT_seq) (v := msgByte m 1) (not_ntOut_of_ntReg (.inl rfl)) (by simp) (by simp) (by decide) (by decide)).trans
      (Nat.mod_eq_of_lt (msgByte_lt m 1))
  · obtain ⟨hstat, hreg⟩ := not_or.1 hoff
    refine (ht.1 off (not_ntOut_of_ntReg (not_not.1 hreg))).trans (fieldWord_of_forall_ne (fun x hx he => hstat ?_) _)
    rw [← he, List.mem_singleton.1 hx]
    rfl

end

/-! ### Pairs -/

/-- The offset of a pair with a frame at local time `tq` (R427). -/
def pairOfs (s : State) (m : CanMsg) (tq : Rat) : Rat := frameTm m - (tq - ((s.rd R.CAN_NT_COMP).toInt : Rat))

/-- A pair steps the counter. -/
def Steps (s : State) (m : CanMsg) (e : Rat) : Prop := s.hid.nt.paired = false ∨ s.f F.CAN_NT_STAT_state = 0 ∨ s.f F.CAN_NT_STAT_state = 3 ∨
  msgByte m 2 / 2 % 2 = 1 ∨ (s.f F.CAN_NT_TOL_step_ns : Rat) < magQ e

section
variable {s u : State} (hu : NtSame s u) (m : CanMsg) (sof : BitVec 64)
include hu

theorem notedSt_f {y : Fld} (hy : ¬ ntOut y.off) (hseq : F.CAN_NT_STAT_seq.Apart y) : (notedSt u m sof).f y = s.f y :=
  ((sets_notedSt u m sof).f_of_apart (by simpa using hseq)).trans (NtSame.f_eq hu hy)

theorem notedSt_nt : (notedSt u m sof).hid.nt =
    { s.hid.nt with last := some (msgByte m 1, ntAt s sof, sof), tm := if msgByte m 2 = 1 then some (frameTm m) else none } := by
  rw [Sets.nt_eq (sets_notedSt u m sof), notedNt, hu.2, NtSame.ntAt_eq hu]

theorem notedSt_state : (notedSt u m sof).f F.CAN_NT_STAT_state = s.f F.CAN_NT_STAT_state :=
  notedSt_f hu m sof (not_ntOut_of_ntReg (.inl rfl)) (.inr (by decide))

theorem notedSt_tol {y : Fld} (hy : y.off = R.CAN_NT_TOL) : (notedSt u m sof).f y = s.f y :=
  notedSt_f hu m sof (by rw [hy]; simp [ntOut, R.CAN_NT_TOL]) (.inl (by rw [hy]; simp [F.CAN_NT_STAT_seq, R.CAN_NT_STAT, R.CAN_NT_TOL]))

theorem pairSteps_noted (e : Rat) :
    pairSteps (notedSt u m sof) e (decide (msgByte m 2 / 2 % 2 = 1)) = true ↔ Steps s m e := by
  unfold pairSteps Steps
  rw [notedSt_nt hu, notedSt_state hu, notedSt_tol hu m sof (y := F.CAN_NT_TOL_step_ns) rfl]
  simp [or_assoc]

theorem pairTol_noted (e : Rat) : pairTol (notedSt u m sof) e = decide (magQ e ≤ (s.f F.CAN_NT_TOL_lock_ns : Rat)) := by
  unfold pairTol
  rw [notedSt_tol hu m sof (y := F.CAN_NT_TOL_lock_ns) rfl]

theorem notedSt_adj : (notedSt u m sof).rd R.CAN_NT_ADJ = s.rd R.CAN_NT_ADJ :=
  ((sets_notedSt u m sof).rd_of_ne (by simp [F.CAN_NT_STAT_seq, R.CAN_NT_STAT, R.CAN_NT_ADJ])).trans (NtSame.rd_eq hu (by simp [ntOut, R.CAN_NT_ADJ]))

theorem notedSt_now : (notedSt u m sof).now = s.now := (sets_notedSt u m sof).now_eq.trans (NtSame.now_eq hu)

theorem notedSt_count (d : BitVec 64) : ntCount (notedSt u m sof) d = ntCount s d :=
  ntCount_congr (by rw [notedSt_nt hu]) (by rw [notedSt_nt hu]) d

/-- The run of a frame that makes a pair. -/
theorem run_refRx_paired (hrole : ntRole s = 1) {q : Nat} {tq : Rat} {t1 : BitVec 64} (hl : s.hid.nt.last = some (q, tq, t1))
    (hp : (q + 1) % 256 = msgByte m 1 ∧ msgByte m 2 % 2 = 1) : (ntRefRx m sof).run u =
      (ntA fun y => { y with pairT := some (s.now, msgByte m 3) }).run
        ((ntPair (pairOfs s m tq) (decide (msgByte m 2 / 2 % 2 = 1)) (frameTref s m) (tq, (sof - t1).toNat)).run (notedSt u m sof)) := by
  have htref : frameTref u m = frameTref s m := by
    unfold frameTref
    rw [hu.2]
  rw [run_ntRefRx_slave ((NtSame.ntRole_eq hu).trans hrole), run_ntSlave_paired (by rw [hu.2]; exact hl) hp, NtSame.now_eq hu, htref,
    NtSame.rd_eq hu (off := R.CAN_NT_COMP) (by simp [ntOut, R.CAN_NT_COMP])]
  rfl

end

section
variable {s : State} {m : CanMsg} {sof : BitVec 64} (hact : canActive s (s.f F.CAN_NT_CFG_ctrl) = true) (hgood : refGood s m = true)
  (hrole : ntRole s = 1) {q : Nat} {tq : Rat} {t1 : BitVec 64} (hl : s.hid.nt.last = some (q, tq, t1))
  (hp : (q + 1) % 256 = msgByte m 1 ∧ msgByte m 2 % 2 = 1)
include hact hgood hrole hl hp

/-- What every pair leaves. -/
def PairLeft (s : State) (m : CanMsg) (tq : Rat) (t : State) : Prop :=
  t.f F.CAN_NT_STAT_seq = msgByte m 1 ∧ t.hid.nt.paired = true ∧ t.rd R.CAN_NT_OFS = ofsWord (pairOfs s m tq) ∧
    t.hid.nt.pairT = some (s.now, msgByte m 3) ∧ (¬ probeMsg s (s.f F.CAN_NT_CFG_ctrl) m → RefFrame (s.f F.CAN_NT_CFG_ctrl) s t) ∧
    t.hid.nt.tm = (if msgByte m 2 = 1 then some (frameTm m) else none)

theorem completes_refRx_steps (hs : Steps s m (pairOfs s m tq)) : Completes (.ntRefRx m sof) s fun t => PairLeft s m tq t ∧
    t.f F.CAN_NT_STAT_state = 1 ∧ t.on F.CAN_NT_STAT_nt_sync = false ∧ t.on F.CAN_NT_EVENT_step = true ∧ t.rd R.CAN_NT_ADJ = s.rd R.CAN_NT_ADJ ∧
    ntAt t t.now = ntAt s s.now + (roundHalfEven (pairOfs s m tq * 2 ^ 32) : Rat) / 2 ^ 32 ∧
    t.hid.nt.last = some (msgByte m 1, ntAt s sof + pairOfs s m tq, sof) := by
  refine completes_refRx hact hgood fun u t hu ht hnt hframe => ?_
  have hset := Sets.then_ntA (Sets.trans_nt (sets_notedSt u m sof) (sets_ntPair_steps (tref := frameTref s m) (old := (tq, (sof - t1).toNat))
    ((pairSteps_noted hu m sof _).2 hs))) fun y => { y with pairT := some (s.now, msgByte m 3) }
  rw [← run_refRx_paired hu m sof hrole hl hp] at hset
  have ht := SetsBut.of_refRx hu hset ht
  rw [Sets.nt_eq hset] at hnt
  have hd := disjoint_stepFields ((notedSt u m sof).f F.CAN_NT_STAT_state) (msgByte m 1) (ofsWord (pairOfs s m tq)).toNat
  have hnow : t.now = s.now := ht.2.2
  refine ⟨⟨?_, by rw [hnt]; rfl, ?_, by rw [hnt], hframe, ?_⟩, ?_, ?_, ?_, ?_, ?_, ?_⟩
  · exact (ht.f_of_disjoint (y := F.CAN_NT_STAT_seq) (v := msgByte m 1) hd (.inl rfl) (by simp)).trans (Nat.mod_eq_of_lt (msgByte_lt m 1))
  · exact rd_of_wordFld (ht.f_of_disjoint hd (.inr (.inr (.inl rfl))) (by simp))
  · rw [hnt]
    exact congrArg NtSt.tm (notedSt_nt hu m sof)
  · exact ht.f_of_disjoint (y := F.CAN_NT_STAT_state) (v := 1) hd (.inl rfl) (by simp [stateFields])
  · exact ht.on_of_disjoint (y := F.CAN_NT_STAT_nt_sync) (v := 0) hd (.inl rfl) (by simp [stateFields, b2n]) rfl
  · exact (ht.on_of_disjoint (y := F.CAN_NT_EVENT_step) (v := 1) hd (.inr (.inl rfl)) (by simp) rfl).trans (by decide)
  · refine (ht.1 _ (not_ntOut_of_ntReg (.inr (.inr (.inr (.inl rfl)))))).trans (fieldWord_of_forall_ne (fun x hx => ?_) _)
    have hx := ((List.Sublist.refl _).append ((List.Sublist.refl _).append (stateFields_sublist _ 1))).subset hx
    simp only [List.cons_append, List.nil_append, List.mem_cons, List.not_mem_nil, or_false] at hx
    obtain rfl | rfl | rfl | rfl | rfl | rfl | rfl := hx <;>
      simp [wordFld, F.CAN_NT_STAT_seq, F.CAN_NT_EVENT_step, F.CAN_NT_STAT_state, F.CAN_NT_STAT_nt_sync, F.CAN_NT_EVENT_lock, F.CAN_NT_EVENT_unlock,
        R.CAN_NT_STAT, R.CAN_NT_EVENT, R.CAN_NT_OFS, R.CAN_NT_ADJ]
  · have hcount : ntCount t t.now = ntCount s s.now + roundHalfEven (pairOfs s m tq * 2 ^ 32) := by
      rw [ntCount_of_start (by rw [hnt, hnow]; exact notedSt_now hu m sof), hnt]
      show ntCount (notedSt u m sof) (notedSt u m sof).now + _ = _
      rw [notedSt_now hu, notedSt_count hu]
    unfold ntAt
    rw [hcount, Int.cast_add, add_div]
  · rw [hnt]
    refine (congrArg (fun x : NtSt => x.last.map fun l => (l.1, l.2.1 + pairOfs s m tq, l.2.2)) (notedSt_nt hu m sof)).trans ?_
    rfl

omit hact hgood hrole hl hp in
theorem slewAdj_toInt (u : State) (e tref : Rat) : (slewAdj u e tref).toInt = clampInt (-219902326) 219902326
    (roundHalfEven (((u.rd R.CAN_NT_ADJ).toInt : Rat) + e * 2 ^ 40 / (4 * tref))) := by
  obtain ⟨hlo, hhi⟩ := clampInt_bounds (lo := -219902326) (hi := 219902326) (by decide)
    (roundHalfEven (((u.rd R.CAN_NT_ADJ).toInt : Rat) + e * 2 ^ 40 / (4 * tref)))
  rw [slewAdj, BitVec.toInt_ofInt]
  exact Int.bmod_eq_of_le (by omega) (by omega)

/-- A pair that does not step slews. -/
theorem completes_refRx_slews (hs : ¬ Steps s m (pairOfs s m tq)) : Completes (.ntRefRx m sof) s fun t => PairLeft s m tq t ∧
    ntAt t t.now = ntAt s s.now ∧
    (t.hid.nt.last = some (msgByte m 1, ntHeld tq (pairOfs s m tq) (sof - t1).toNat (t.rd R.CAN_NT_ADJ).toInt, sof) ∧
      t.hid.nt.slew = (ntHeld tq (pairOfs s m tq) (sof - t1).toNat (t.rd R.CAN_NT_ADJ).toInt - ntAt s sof) / t.hid.nt.line.slewN) ∧
    t.hid.nt.line.slewN = max 1 (frameTref s m * 4 / 5).floor.toNat ∧
    (t.rd R.CAN_NT_ADJ).toInt = clampInt (-219902326) 219902326
      (roundHalfEven ((s.rd R.CAN_NT_ADJ).toInt + pairOfs s m tq * 2 ^ 40 / (4 * frameTref s m))) ∧
    (magQ (pairOfs s m tq) ≤ s.f F.CAN_NT_TOL_lock_ns →
      t.f F.CAN_NT_STAT_state = (if 4 ≤ s.hid.nt.good + 1 then 2 else s.f F.CAN_NT_STAT_state)) ∧
    ((s.f F.CAN_NT_TOL_lock_ns : Rat) < magQ (pairOfs s m tq) → t.f F.CAN_NT_STAT_state = 1 ∧ t.hid.nt.good = 0) ∧
    (t.f F.CAN_NT_STAT_state ≠ s.f F.CAN_NT_STAT_state → t.on F.CAN_NT_STAT_nt_sync = decide (t.f F.CAN_NT_STAT_state = 2)) := by
  refine completes_refRx hact hgood fun u t hu ht hnt hframe => ?_
  have hno : pairSteps (notedSt u m sof) (pairOfs s m tq) (decide (msgByte m 2 / 2 % 2 = 1)) = false :=
    Bool.eq_false_iff.2 fun h => hs ((pairSteps_noted hu m sof _).1 h)
  have hset := Sets.then_ntA (Sets.trans_nt (sets_notedSt u m sof) (sets_ntPair_slews (tref := frameTref s m) (old := (tq, (sof - t1).toNat)) hno))
    fun y => { y with pairT := some (s.now, msgByte m 3) }
  rw [← run_refRx_paired hu m sof hrole hl hp] at hset
  have ht := SetsBut.of_refRx hu hset ht
  rw [Sets.nt_eq hset] at hnt
  have hd := disjoint_slewFields (notedSt u m sof) (pairOfs s m tq) (decide (msgByte m 2 / 2 % 2 = 1)) (msgByte m 1)
    (ofsWord (pairOfs s m tq)).toNat (slewAdj (notedSt u m sof) (pairOfs s m tq) (frameTref s m)).toNat
  have hnow : t.now = s.now := ht.2.2
  have hadj : t.rd R.CAN_NT_ADJ = slewAdj (notedSt u m sof) (pairOfs s m tq) (frameTref s m) :=
    rd_of_wordFld (ht.f_of_disjoint hd (.inr (.inr (.inr (.inl rfl)))) (by simp))
  have hstate : ∀ n < 4, slewState (notedSt u m sof) (pairOfs s m tq) (decide (msgByte m 2 / 2 % 2 = 1)) =
      stateFields ((notedSt u m sof).f F.CAN_NT_STAT_state) n → t.f F.CAN_NT_STAT_state = n ∧ t.on F.CAN_NT_STAT_nt_sync = decide (n = 2) := by
    intro n hn h
    refine ⟨(ht.f_of_disjoint (y := F.CAN_NT_STAT_state) (v := n) hd (.inl rfl) (by simp [h, stateFields])).trans (Nat.mod_eq_of_lt hn), ?_⟩
    refine (ht.on_of_disjoint (y := F.CAN_NT_STAT_nt_sync) (v := b2n (decide (n = 2))) hd (.inl rfl) (by simp [h, stateFields]) rfl).trans ?_
    cases decide (n = 2) <;> rfl
  have hsame : slewState (notedSt u m sof) (pairOfs s m tq) (decide (msgByte m 2 / 2 % 2 = 1)) = [] →
      t.f F.CAN_NT_STAT_state = s.f F.CAN_NT_STAT_state := by
    intro h
    rw [h] at ht
    refine ht.f_of_apart (y := F.CAN_NT_STAT_state) (not_ntOut_of_ntReg (.inl rfl)) ?_
    simp [Fld.Apart, wordFld, F.CAN_NT_STAT_seq, F.CAN_NT_STAT_state, R.CAN_NT_STAT, R.CAN_NT_OFS, R.CAN_NT_ADJ]
  have hgoodIn : magQ (pairOfs s m tq) ≤ (s.f F.CAN_NT_TOL_lock_ns : Rat) →
      pairGood (notedSt u m sof) (pairOfs s m tq) (decide (msgByte m 2 / 2 % 2 = 1)) = s.hid.nt.good + 1 := by
    intro htol
    unfold pairGood
    rw [hno, pairTol_noted hu, decide_eq_true htol, notedSt_nt hu]
    rfl
  refine ⟨⟨?_, by rw [hnt]; rfl, ?_, by rw [hnt], hframe, ?_⟩, ?_, ⟨?_, ?_⟩, ?_, ?_, fun htol => ?_, fun htol => ?_, fun hne => ?_⟩
  · exact (ht.f_of_disjoint (y := F.CAN_NT_STAT_seq) (v := msgByte m 1) hd (.inl rfl) (by simp)).trans (Nat.mod_eq_of_lt (msgByte_lt m 1))
  · exact rd_of_wordFld (ht.f_of_disjoint hd (.inr (.inr (.inl rfl))) (by simp))
  · rw [hnt]
    exact congrArg NtSt.tm (notedSt_nt hu m sof)
  · have hcount : ntCount t t.now = ntCount s s.now := by
      rw [ntCount_of_start (by rw [hnt, hnow]; exact notedSt_now hu m sof), hnt]
      show ntCount (notedSt u m sof) (notedSt u m sof).now = _
      rw [notedSt_now hu, notedSt_count hu]
    unfold ntAt
    rw [hcount]
  · rw [hadj, hnt]
    exact congrArg (fun x : NtSt => x.last.map fun l => (l.1, slewHeld (notedSt u m sof) (pairOfs s m tq) (frameTref s m) (tq, (sof - t1).toNat),
      l.2.2)) (notedSt_nt hu m sof)
  · rw [hadj, hnt]
    exact congrArg (fun x : NtSt => (slewHeld (notedSt u m sof) (pairOfs s m tq) (frameTref s m) (tq, (sof - t1).toNat) -
      (x.last.map (·.2.1)).getD (slewHeld (notedSt u m sof) (pairOfs s m tq) (frameTref s m) (tq, (sof - t1).toNat))) /
        (slewTicks (frameTref s m) : Rat)) (notedSt_nt hu m sof)
  · rw [hnt]
    rfl
  · rw [hadj, slewAdj_toInt, notedSt_adj hu]
  · have hfields : slewState (notedSt u m sof) (pairOfs s m tq) (decide (msgByte m 2 / 2 % 2 = 1)) =
        if 4 ≤ s.hid.nt.good + 1 then stateFields ((notedSt u m sof).f F.CAN_NT_STAT_state) 2 else [] := by
      unfold slewState
      rw [hgoodIn htol, pairTol_noted hu, decide_eq_true htol]
      rfl
    split
    · next h => exact (hstate 2 (by decide) (hfields.trans (if_pos h))).1
    · next h => exact hsame (hfields.trans (if_neg h))
  · have hbad : decide (magQ (pairOfs s m tq) ≤ (s.f F.CAN_NT_TOL_lock_ns : Rat)) = false := decide_eq_false (not_le.2 htol)
    refine ⟨(hstate 1 (by decide) ?_).1, ?_⟩
    · unfold slewState
      rw [pairTol_noted hu, hbad]
      rfl
    · rw [hnt]
      show pairGood (notedSt u m sof) _ _ = 0
      unfold pairGood
      rw [pairTol_noted hu, hbad]
      rfl
  · have hcases : slewState (notedSt u m sof) (pairOfs s m tq) (decide (msgByte m 2 / 2 % 2 = 1)) = [] ∨ ∃ n < 4,
        slewState (notedSt u m sof) (pairOfs s m tq) (decide (msgByte m 2 / 2 % 2 = 1)) = stateFields ((notedSt u m sof).f F.CAN_NT_STAT_state) n := by
      unfold slewState
      split
      · exact .inr ⟨1, by decide, rfl⟩
      · split
        · exact .inr ⟨2, by decide, rfl⟩
        · exact .inl rfl
    obtain h | ⟨n, hn, h⟩ := hcases
    · exact absurd (hsame h) hne
    · obtain ⟨h1, h2⟩ := hstate n hn h
      rw [h1, h2]

end

/-! ### The statement -/

/-- The bytes of the reference frame that falls due (R425, R426). -/
theorem refBytes_spec (s : State) : (refBytes s).length = 12 ∧ (refBytes s).getD 0 0#8 = 1#8 ∧
    (refBytes s).getD 1 0#8 = BitVec.ofNat 8 ((s.hid.nt.seq.getD (s.f F.CAN_NT_STAT_seq) + 1) % 256) ∧
    (refBytes s).getD 3 0#8 = BitVec.ofNat 8 (ntPeriod s) ∧
    ((refBytes s).getD 2 0#8).getLsbD 1 = (s.hid.nt.stepped || s.hid.nt.ref.any refStepped) ∧
    ((refBytes s).getD 2 0#8).getLsbD 0 = (refTime s).isSome ∧
    (refBytes s).drop 4 = leBytes 8 (((refTime s).getD 0).floor % 2 ^ 64).toNat :=
  ⟨length_refData _ _ _ _ _, rfl, rfl, rfl, refFlags_stepped _ _, refFlags_valid _ _, rfl⟩

/-- Settles O52. -/
theorem networkTimeMasterAndSlaveKeepTime : Obligations.NetworkTimeMasterAndSlaveKeepTime := by
  unfold Obligations.NetworkTimeMasterAndSlaveKeepTime
  refine ⟨⟨?_, ?_, ?_, ?_, ?_⟩, ?_, ?_⟩
  · intro s p v hl role k bad
    have hbad : bad ↔ v.toNat % 4 = 2 ∧ masterRefused s (v.toNat / 4 % 4) = true := and_congr_right fun _ => masterRefused_iff.symm
    refine ⟨fun h => ?_, fun h => completes_ntCfg hl fun h' => h (hbad.2 h')⟩
    exact completes_portGate hl rfl (sets_ntCfg_refused (hbad.1 h)) (by simp [F.CAN_NT_STAT_result, R.CAN_NT_STAT, R.SYS_MODE_STAT])
  · intro s hon hrole
    obtain ⟨t, he, hnt, hstat, hlate, hframe⟩ := completes_ntRefDue hon hrole
    obtain ⟨hlen, h0, h1, h3, hstep, hvalid, htime⟩ := refBytes_spec s
    refine ⟨t, he, by rw [hnt]; rfl, hstat, by rw [hnt]; rfl, hlate, hframe, refBytes s, by rw [hnt]; rfl, hlen, h0, h1, h3, hstep,
      fun hwait => ?_, fun T hfree hsof => ?_⟩
    · rw [hvalid, refTime_of_waiting hwait]
      rfl
    · have hT := refTime_of_sent hfree hsof
      have hlt : (T.floor % 2 ^ 64).toNat < 256 ^ 8 := by omega
      rw [hvalid, htime, hT, leNat_leBytes]
      exact ⟨rfl, Nat.mod_eq_of_lt hlt⟩
  · exact fun s p v hl => ⟨completes_ntSet hl, completes_ntSet_refused hl⟩
  · exact fun s m sof hact hgood hrole => completes_refRx_master hact hgood hrole
  · exact fun s hon => completes_ntWrap hon
  · intro s m sof q tq t1 hact hgood hrole hlast e st mag pairs steps tm frame
    refine ⟨fun hno => completes_refRx_unpaired hact hgood hrole fun l hl hp => ?_, fun hp => ?_⟩
    · obtain rfl := Option.some.inj (hl.symm.trans hlast)
      exact hno hp
    · by_cases hs : Steps s m (pairOfs s m tq)
      · obtain ⟨t, he, ⟨hseq, hpaired, hofs, hpairT, hframe, htm⟩, hstate, hsync, hstep, hadj, hat, hlastT⟩ :=
          completes_refRx_steps (t1 := t1) (sof := sof) hact hgood hrole hlast hp hs
        refine ⟨t, he, hseq, hpaired, hofs, hpairT, hframe, htm, fun _ => ⟨hstate, hstep, hadj, hat, hlastT⟩, fun h => absurd hs h, fun _ => ?_⟩
        rw [hsync, hstate]
        rfl
      · obtain ⟨t, he, ⟨hseq, hpaired, hofs, hpairT, hframe, htm⟩, hat, hheld, hticks, hadj, htol, hbad, hsync⟩ :=
          completes_refRx_slews (sof := sof) hact hgood hrole hlast hp hs
        have htref : ∀ t0, s.hid.nt.tm = some t0 → t0 < frameTm m → frameTref s m = frameTm m - t0 := fun t0 h hlt => by
          unfold frameTref
          rw [h]
          exact if_pos hlt
        refine ⟨t, he, hseq, hpaired, hofs, hpairT, hframe, htm, fun h => absurd h hs, fun _ => ⟨hat, hheld, ?_, fun t0 h hlt => ?_,
          fun t0 h hlt => ?_, htol, hbad⟩, hsync⟩
        · rw [hticks]
          omega
        · rw [hticks, htref t0 h hlt]
          rfl
        · rw [hadj, htref t0 h hlt]
          rfl
  · exact fun s hon hrole hst hpair => completes_ntHoldover hon hrole hst hpair

end Sys2Proof.Machine
end

section
/-!
Boot and the security block: bytes written to the SRAM, the words of a digest, and the start of the software in charge (R368, R461,
R470).
-/

namespace Sys2Proof.Machine

/-! ### Bytes written to the SRAM -/

theorem srByte_apply_sram (a k : Nat) (b : Byte) (s : State) :
    (Upd.apply (.sram a b) s).srByte k = if k = a then b else s.srByte k := by
  unfold State.srByte
  rw [Upd.sram_sram]
  exact Tab.get_put _ _ _ _ _ (fun _ => rfl) _

/-- Writes to the SRAM change nothing else. -/
theorem run_sramWrite (a : Nat) (bs : List Byte) (s : State) :
    (sramWrite a bs).run s = { s with sram := ((sramWrite a bs).run s).sram } := by
  have hall : ∀ (l : List (Byte × Nat)) (s : State), applyAll (l.map fun x => .sram (a + x.2) x.1) s =
      { s with sram := (applyAll (l.map fun x => .sram (a + x.2) x.1) s).sram } := by
    intro l
    induction l with
    | nil => exact fun s => rfl
    | cons x l ih => exact fun s => ih _
  exact hall _ s

theorem srByte_run_sramWrite (a k : Nat) (bs : List Byte) (s : State) :
    ((sramWrite a bs).run s).srByte k = if a ≤ k ∧ k < a + bs.length then bs.getD (k - a) 0#8 else s.srByte k := by
  have hall : ∀ (bs : List Byte) (n : Nat) (s : State), (applyAll ((bs.zipIdx n).map fun x => .sram (a + x.2) x.1) s).srByte k =
      if a + n ≤ k ∧ k < a + n + bs.length then bs.getD (k - (a + n)) 0#8 else s.srByte k := by
    intro bs
    induction bs with
    | nil =>
      intro n s
      exact (if_neg fun h => by simp at h; omega).symm
    | cons b bs ih =>
      intro n s
      refine (ih (n + 1) _).trans ?_
      rw [srByte_apply_sram, List.length_cons]
      by_cases hk : k = a + n
      · subst hk
        rw [if_neg (by omega), if_pos rfl, if_pos (by omega), Nat.sub_self]
        rfl
      · rw [if_neg hk]
        by_cases hin : a + (n + 1) ≤ k ∧ k < a + (n + 1) + bs.length
        · rw [if_pos hin, if_pos (by omega), show k - (a + n) = k - (a + (n + 1)) + 1 by omega]
          rfl
        · rw [if_neg hin, if_neg (by omega)]
  exact hall bs 0 s

theorem sramHolds_sramWrite {a : Nat} {bs : List Byte} {s t : State} (ht : t.sram = ((sramWrite a bs).run s).sram) : SramHolds t a bs := by
  intro i hi
  have hbyte := srByte_run_sramWrite a (a + i) bs s
  rw [if_pos (by omega), Nat.add_sub_cancel_left] at hbyte
  unfold State.srByte at hbyte ⊢
  rw [ht, hbyte]

/-! ### Bytes in register words -/

def wordFields (off : Nat → Nat) (n : Nat) (bs : List Byte) : List (Fld × Nat) :=
  dataFields off (fun i => BitVec.ofNat 32 (leNat ((bs.drop (4 * i)).take 4))) (List.range n)

theorem sets_wordsPut (off : Nat → Nat) (n : Nat) (bs : List Byte) (s : State) :
    Sets (wordFields off n bs) s.hid s ((wordsPut off n bs).run s) :=
  sets_forEach (f := fun i => [(wordFld (off i), (BitVec.ofNat 32 (leNat ((bs.drop (4 * i)).take 4))).toNat)]) _
    (fun _ _ _ => Sets.setW _ _ _) s

theorem off_of_mem_wordFields {off : Nat → Nat} {n : Nat} {bs : List Byte} {x : Fld × Nat} (hx : x ∈ wordFields off n bs) :
    ∃ i < n, x.1.off = off i := by
  obtain ⟨i, hi, rfl⟩ := mem_dataFields.1 hx
  exact ⟨i, List.mem_range.1 hi, rfl⟩

/-- Each of the words takes its four bytes. -/
theorem Sets.rd_of_wordFields {off : Nat → Nat} {n i : Nat} {bs : List Byte} {l : List (Fld × Nat)} {h : Hid} {s t : State}
    (ht : Sets l h s t) (hi : i < n) (hinj : ∀ j, off j = off i → j = i) (hsub : ∀ x ∈ wordFields off n bs, x ∈ l)
    (hl : ∀ x ∈ l, x ∈ wordFields off n bs ∨ x.1.off ≠ off i) :
    t.rd (off i) = BitVec.ofNat 32 (leNat ((bs.drop (4 * i)).take 4)) := by
  refine ht.rd_of_mem (hsub _ (mem_dataFields.2 ⟨i, List.mem_range.2 hi, rfl⟩)) fun x hx => (hl x hx).elim (fun hword => ?_) .inr
  obtain ⟨j, -, rfl⟩ := mem_dataFields.1 hword
  by_cases hj : j = i
  · exact .inl (by rw [hj])
  · exact .inr fun he => hj (hinj j he)

theorem leBytes_drop (k n x : Nat) : (leBytes (k + n) x).drop k = leBytes n (x / 256 ^ k) := by
  induction k generalizing x with
  | zero => simp
  | succ k ih =>
    rw [Nat.succ_add, leBytes, List.drop_succ_cons, ih, Nat.div_div_eq_div_mul, Nat.pow_succ']

theorem leBytes_take (k n x : Nat) : (leBytes (k + n) x).take k = leBytes k x := by
  induction k generalizing x with
  | zero => simp [leBytes]
  | succ k ih => rw [Nat.succ_add, leBytes, List.take_succ_cons, ih, leBytes]

/-- A digest's word `i` is its bits from `32 i` on. -/
theorem word_of_digestBytes (d : BitVec 512) (i : Fin 16) :
    BitVec.ofNat 32 (leNat (((digestBytes d).drop (4 * i)).take 4)) = d.extractLsb' (32 * i) 32 := by
  have hlen : 64 = 4 * i.val + (4 + (60 - 4 * i.val)) := by omega
  rw [digestBytes, hlen, leBytes_drop, leBytes_take]
  refine BitVec.eq_of_toNat_eq ?_
  rw [BitVec.toNat_ofNat, leNat_leBytes, BitVec.extractLsb'_toNat, Nat.shiftRight_eq_div_pow, Nat.pow_mul, Nat.pow_mul]
  exact Nat.mod_mod _ _

/-! ### The software in charge starts -/

/-- What the blocks hold once the software in charge has started in `s` with memory protection `pmp`, from `h`. -/
def startedHid (s : State) (h : Hid) (pmp : Vector PmpEntry 16) : Hid :=
  { h with chnt := { h.chnt with sweepT := if s.on F.CHNT_STAT_lockstep_broken then h.chnt.sweepT else some s.now, pmp := pmp } }

/-- Entries of the memory protection that are locked keep their values. -/
def PmpLocked (old new : Vector PmpEntry 16) : Prop := ∀ i : Fin 16, old[i].cfg.getLsbD 7 = true → new[i] = old[i]

theorem sets_firmwareStart (s : State) : ∃ pmp, PmpLocked s.hid.chnt.pmp pmp ∧ Sets [] (startedHid s s.hid pmp) s (firmwareStart.run s) := by
  have hsweep : Sets [] (startedHid s s.hid s.hid.chnt.pmp) s (sweepTimerStart.run s) := by
    cases hb : s.on F.CHNT_STAT_lockstep_broken with
    | true =>
      have hkeep : sweepTimerStart.run s = s := by rw [sweepTimerStart, run_whenA, hb]; rfl
      rw [hkeep, startedHid, hb]
      exact Sets.refl s
    | false =>
      have hstart : sweepTimerStart.run s = (chntA fun c => { c with sweepT := some s.now }).run s := by
        rw [sweepTimerStart, run_whenA, hb]
        rfl
      rw [hstart, startedHid, hb]
      exact Sets.hidA _ s
  have hpmp : (sweepTimerStart.run s).hid.chnt.pmp = s.hid.chnt.pmp := by rw [hsweep.hid_eq]; rfl
  unfold firmwareStart
  rw [run_seq_cons, run_seq_cons, run_seq_nil]
  unfold pmpLoad
  rw [run_fun, run_seq_cons, run_seq_cons, run_seq_nil]
  refine ⟨_, ?_, (hsweep.then_hidA _).then_freshA⟩
  intro i hlock
  rw [hpmp]
  refine (Vector.getElem_ofFn _).trans ?_
  exact if_pos hlock

end Sys2Proof.Machine
end

section
/-!
Settles O57: boot stops at its first failure or starts the firmware (R460, R461, R464).
-/

namespace Sys2Proof.Machine

/-! ### Values that fit their field -/

theorem headerCheck_lt (img : List Byte) : headerCheck img < 256 := by
  unfold headerCheck
  split_ifs <;> decide

theorem sigCheck_lt (img : List Byte) (keys : List KeySlot) : sigCheck img keys < 256 := by
  unfold sigCheck
  dsimp only
  split_ifs
  · decide
  · decide
  · decide
  · split
    · decide
    · split_ifs <;> decide

theorem fgCheck_lt (s : State) (img : List Byte) : fgCheck s img < 256 := by
  unfold fgCheck
  split_ifs
  · exact headerCheck_lt img
  · exact sigCheck_lt img _
  · decide
  · decide

theorem fwSig_lt (img : List Byte) (keys : List KeySlot) : fwSig img keys < 256 := by
  unfold fwSig
  dsimp only
  split_ifs
  · decide
  · decide
  · decide
  · split
    · decide
    · split_ifs <;> decide

/-! ### Fields of which some are followed -/

/-- The fields of a list are those of `core`, or lie in words that none of `core` lies in. -/
def Beside (core l : List (Fld × Nat)) : Prop := ∀ x ∈ l, x ∈ core ∨ ∀ y ∈ core, x.1.off ≠ y.1.off

section
variable {core l : List (Fld × Nat)} {h : Hid} {s t : State} {y : Fld} {v : Nat} (hd : DisjointFields core) (hl : Beside core l)
  (ht : Sets l h s t)
include hd hl

theorem Beside.apart (hm : (y, v) ∈ core) : ∀ x ∈ l, x = (y, v) ∨ x.1.Apart y := fun x hx => by
  obtain hx | hx := hl x hx
  · exact hd.apart hm x hx
  · exact .inr (.inl (hx _ hm))

include ht

theorem Sets.f_of_core (hm : (y, v) ∈ l) (hc : (y, v) ∈ core) : t.f y = v % 2 ^ (y.hi + 1 - y.lo) :=
  ht.f_of_mem hm (Beside.apart hd hl hc) (hd.1 _ hc).1 (hd.1 _ hc).2

theorem Sets.on_of_core (hm : (y, v) ∈ l) (hc : (y, v) ∈ core) (hbit : y.hi = y.lo) : t.on y = decide (v % 2 = 1) :=
  ht.on_of_mem hm (Beside.apart hd hl hc) hbit (hd.1 _ hc).2

theorem Sets.rd_of_core {off : Nat} {w : Word} (hm : (wordFld off, w.toNat) ∈ l) (hc : (wordFld off, w.toNat) ∈ core) : t.rd off = w := by
  have hf := Sets.f_of_core hd hl ht hm hc
  exact BitVec.eq_of_toNat_eq ((wordFld_get off (t.rd off)).symm.trans (hf.trans (Nat.mod_eq_of_lt w.isLt)))

theorem Sets.rd64_of_core {off : Nat} {w : BitVec 64} (hm : ∀ x ∈ pairFields off w, x ∈ l) (hc : ∀ x ∈ pairFields off w, x ∈ core) :
    t.rd64 off = w := by
  have hlow := Sets.rd_of_core hd hl ht (hm _ List.mem_cons_self) (hc _ List.mem_cons_self)
  have hhigh := Sets.rd_of_core hd hl ht (hm _ (List.mem_cons_of_mem _ List.mem_cons_self)) (hc _ (List.mem_cons_of_mem _ List.mem_cons_self))
  rw [State.rd64, hlow, hhigh, extract_append_extract]

end

/-! ### A command that ends with the start of the software in charge -/

theorem startedHid_congr {b s : State} {h : Hid} {pmp : Vector PmpEntry 16} (hon : b.on F.CHNT_STAT_lockstep_broken = s.on F.CHNT_STAT_lockstep_broken)
    (hnow : b.now = s.now) : startedHid b h pmp = startedHid s h pmp := by
  unfold startedHid
  rw [hon, hnow]

/-- The registers that say which mode the device is in and whether lockstep is broken are not among these. -/
def SparesStart (l : List (Fld × Nat)) : Prop := ∀ x ∈ l, x.1.off ≠ R.SYS_MODE_STAT ∧ x.1.off ≠ R.CHNT_STAT

theorem completes_started {c : Instr} {a : Act} {s b u : State} {l : List (Fld × Nat)} {h : Hid} (he : exec c s = finish a s)
    (ha : a.run s = firmwareStart.run u) (hb : b.mode = s.mode) (hs : Sets l h b u) (hl : SparesStart l) :
    Completes c s fun t => PmpLocked h.chnt.pmp t.hid.chnt.pmp ∧ Sets l (startedHid b h t.hid.chnt.pmp) b t := by
  obtain ⟨pmp, hlock, hstart⟩ := sets_firmwareStart u
  have hall : Sets l (startedHid b h pmp) b (firmwareStart.run u) := by
    have hon := hs.on_of_apart (y := F.CHNT_STAT_lockstep_broken) fun x hx => .inl (hl x hx).2
    have heq : startedHid u u.hid pmp = startedHid b h pmp := by rw [startedHid_congr hon hs.now_eq, hs.hid_eq]
    rw [heq] at hstart
    simpa using hs.trans hstart
  have hend := hall.then_levelsFall
  have hpmp : (levelsFall.run (firmwareStart.run u)).hid.chnt.pmp = pmp := by rw [hend.hid_eq]; rfl
  rw [hs.hid_eq] at hlock
  refine ⟨_, by rw [he, finish_same _ _ (by rw [ha, hall.mode fun x hx => (hl x hx).1, hb]), ha], ?_, ?_⟩
  · rw [hpmp]
    exact hlock
  · rw [hpmp]
    exact hend

/-! ### The ROM reads BOOTSEL -/

/-- What the blocks hold while the ROM runs. -/
def romHid (s : State) : Hid :=
  { s.hid with chnt := { s.hid.chnt with sweepT := none },
               boot := { s.hid.boot with keys := [none, none, none, none], dir := [], fwSlot := none } }

def romFields (sel : BitVec 2) : List (Fld × Nat) := [(F.BOOT_STAT_bootsel, sel.toNat), (F.BOOT_STAT_state, 0)]

section
variable {s : State} (hrun : coresRun s = true) (hupd : s.hid.boot.upd = false)
include hrun hupd

/-- The ROM up to the choice that BOOTSEL makes. -/
theorem sets_romBoot (sel : BitVec 2) : ∃ u, Sets (romFields sel) (romHid s) s u ∧ (romBoot sel).run s =
    (only (sel = 1#2) (seq [setF F.BOOT_STAT_result 0, setF F.BOOT_STAT_state 2, firmwareStart])).run u := by
  have hyes : decide (coresRun s = true ∧ (!s.hid.boot.upd) = true) = true := decide_eq_true ⟨hrun, by rw [hupd]; rfl⟩
  unfold romBoot
  rw [run_whenA, if_pos hyes, run_seq_cons, run_seq_cons, run_seq_cons, run_seq_cons, run_seq_cons, run_seq_nil]
  exact ⟨_, ((((Sets.setF _ _ s).then_setF _ _).then_hidA _).then_hidA _).cast rfl rfl, rfl⟩

theorem completes_romBoot (sel : BitVec 2) (hsel : sel ≠ 1#2) : Completes (.romBoot sel) s (Sets (romFields sel) (romHid s) s) := by
  obtain ⟨u, hu, he⟩ := sets_romBoot hrun hupd sel
  have hend : (romBoot sel).run s = u := he.trans (by rw [run_only, if_neg (by simp [hsel])])
  exact completes_sets (a := romBoot sel) (by rw [hend]; exact hu) (by simp [romFields, F.BOOT_STAT_bootsel, F.BOOT_STAT_state, R.BOOT_STAT, R.SYS_MODE_STAT]) rfl

/-- With BOOTSEL 1 the loader starts. -/
theorem completes_romBoot_loader : Completes (.romBoot 1#2) s fun t => PmpLocked s.hid.chnt.pmp t.hid.chnt.pmp ∧
    Sets (romFields 1#2 ++ [(F.BOOT_STAT_result, 0), (F.BOOT_STAT_state, 2)]) (startedHid s (romHid s) t.hid.chnt.pmp) s t := by
  obtain ⟨u, hu, he⟩ := sets_romBoot hrun hupd 1#2
  rw [run_only, if_pos (decide_eq_true rfl), run_seq_cons, run_seq_cons, run_seq_cons, run_seq_nil] at he
  refine completes_started rfl he rfl (((hu.then_setF _ _).then_setF _ _).cast (List.append_assoc _ _ _) rfl) ?_
  simp [SparesStart, romFields, F.BOOT_STAT_bootsel, F.BOOT_STAT_state, F.BOOT_STAT_result, R.BOOT_STAT, R.SYS_MODE_STAT, R.CHNT_STAT]

end

/-! ### The directory, the header and the signature -/

def stopFields (code : Nat) : List (Fld × Nat) := [(F.BOOT_STAT_result, code), (F.BOOT_EVENT_boot_fail, 1), (F.BOOT_STAT_state, 2)]

def dirFields (s : State) (d : List Byte) : List (Fld × Nat) :=
  [(F.QSPI_CFG_size, at8 d 7), (F.QSPI_CFG_mode, if s.f F.BOOT_STAT_bootsel = 2 then 0 else at8 d 6)]

/-- What the blocks hold once the directory `d` is taken. -/
def dirHid (s : State) (d : List Byte) : Hid := withBoot s { s.hid.boot with dir := d, keys := keysOf s d }

theorem run_bootFail (code : Nat) (u : State) : ∃ v, (bootFail code).run u = firmwareStart.run v ∧ Sets (stopFields code) u.hid u v := by
  unfold bootFail
  rw [run_seq_cons, run_seq_cons, run_seq_cons, run_seq_cons, run_seq_nil, setB_eq]
  exact ⟨_, rfl, ((Sets.setF F.BOOT_STAT_result code u).then_setF F.BOOT_EVENT_boot_fail 1).then_setF F.BOOT_STAT_state 2⟩

theorem sparesStart_stop (code : Nat) : SparesStart (stopFields code) := by
  simp [SparesStart, stopFields, F.BOOT_STAT_result, F.BOOT_EVENT_boot_fail, F.BOOT_STAT_state, R.BOOT_STAT, R.BOOT_EVENT, R.SYS_MODE_STAT, R.CHNT_STAT]

theorem sparesStart_dir (s : State) (d : List Byte) : SparesStart (dirFields s d) := by
  simp [SparesStart, dirFields, F.QSPI_CFG_size, F.QSPI_CFG_mode, R.QSPI_CFG, R.SYS_MODE_STAT, R.CHNT_STAT]

theorem SparesStart.append {l m : List (Fld × Nat)} (hl : SparesStart l) (hm : SparesStart m) : SparesStart (l ++ m) := fun x hx =>
  (List.mem_append.1 hx).elim (hl x) (hm x)

theorem sets_dirTake (d : List Byte) (s : State) :
    Sets (dirFields s d) (dirHid s d) s ((dirTake d (s.f F.BOOT_STAT_bootsel = 2)).run s) := by
  unfold dirTake
  rw [run_fun, run_seq_cons, run_seq_cons, run_seq_cons, run_seq_nil]
  refine (((Sets.setF _ _ s).then_setF _ _).then_hidA _).cast ?_ rfl
  simp only [dirFields, decide_eq_true_eq]
  rfl

/-- A change beside the SRAM is the same whatever the SRAM holds. -/
theorem Sets.with_sram {l : List (Fld × Nat)} {h : Hid} {s t : State} (ht : Sets l h s t) (m : Tab Byte) :
    Sets l h { s with sram := m } { t with sram := m } := by
  obtain ⟨hrd, ⟨hlp, hfl, -⟩, hrest⟩ := ht
  exact ⟨hrd, ⟨hlp, hfl, rfl⟩, hrest⟩

/-- The copy of the image. -/
def bootCopy (readOk : Bool) (img : List Byte) : Act := only readOk fun _ => img.zipIdx.map fun x => .sram x.2 x.1

/-- The image is copied to the SRAM where it could be read. -/
theorem sets_bootCopy {l : List (Fld × Nat)} {h : Hid} {s t : State} (ht : Sets l h s t) (c : Bool) (img : List Byte) : ∃ m,
    Sets l h { s with sram := m } ((bootCopy c img).run t) ∧
      (c = true → ∀ u : State, u.sram = m → SramHolds u 0 img) := by
  unfold bootCopy
  cases c with
  | false =>
    refine ⟨s.sram, ?_, fun h => absurd h (by decide)⟩
    rw [run_only]
    exact ht
  | true =>
    have hcopy : (fun _ => img.zipIdx.map fun x => .sram x.2 x.1 : Act) = sramWrite 0 img := by
      unfold sramWrite
      simp only [Nat.zero_add]
    rw [hcopy, run_only, if_pos rfl, run_sramWrite]
    exact ⟨_, ht.with_sram _, fun _ u hu => sramHolds_sramWrite hu⟩

section
variable {s : State} (hrun : coresRun s = true) (hupd : s.hid.boot.upd = false) (readOk : Bool) (hst : s.f F.BOOT_STAT_state = 0)
include hrun hupd hst

theorem run_bootComplete : (bootComplete readOk).run s = if dirCheck (flashBytes s 0 4096) ≠ 0 then
    (bootFail (dirCheck (flashBytes s 0 4096))).run s
    else (bootRest readOk).run ((dirTake (flashBytes s 0 4096) (s.f F.BOOT_STAT_bootsel = 2)).run s) := by
  have hyes : decide (coresRun s = true ∧ (!s.hid.boot.upd) = true ∧ s.f F.BOOT_STAT_state = 0) = true :=
    decide_eq_true ⟨hrun, by rw [hupd]; rfl, hst⟩
  unfold bootComplete
  rw [run_whenA, if_pos hyes]
  by_cases hd : dirCheck (flashBytes s 0 4096) ≠ 0
  · rw [if_pos hd]
    exact congrArg (applyAll · s) (if_pos hd)
  · rw [if_neg hd]
    refine (congrArg (applyAll · s) (if_neg hd)).trans ?_
    exact (run_seq_cons _ _ s).trans ((run_seq_cons _ _ _).trans (run_seq_nil _))

theorem completes_bootComplete_dir (hd : dirCheck (flashBytes s 0 4096) ≠ 0) : Completes (.bootComplete readOk) s fun t =>
    PmpLocked s.hid.chnt.pmp t.hid.chnt.pmp ∧
      Sets (stopFields (dirCheck (flashBytes s 0 4096))) (startedHid s s.hid t.hid.chnt.pmp) s t := by
  have he := run_bootComplete hrun hupd readOk hst
  rw [if_pos hd] at he
  obtain ⟨v, hv, hsets⟩ := run_bootFail (dirCheck (flashBytes s 0 4096)) s
  exact completes_started rfl (he.trans hv) rfl hsets (sparesStart_stop _)

end

/-! ### After the directory -/

section
variable {s u : State} {d : List Byte} (hu : Sets (dirFields s d) (dirHid s d) s u)
include hu

theorem dir_of_taken : u.hid.boot.dir = d := by rw [hu.hid_eq]; rfl

theorem flashBytes_of_taken (a n : Nat) : flashBytes u a n = flashBytes s a n := by
  obtain ⟨-, ⟨-, hflash, -⟩, -⟩ := hu
  unfold flashBytes State.flByte
  rw [hflash]

theorem fwImage_of_taken : fwImage u d = fwImage s d := by
  unfold fwImage
  rw [flashBytes_of_taken hu, flashBytes_of_taken hu]

theorem fwHeader_of_taken (img : List Byte) (n : Nat) : fwHeader u img n = fwHeader s img n := by
  unfold fwHeader
  rw [hu.hid_eq]
  rfl

theorem keySlots_of_taken : keySlots u = slotsAfter s d := by
  unfold keySlots slotsAfter
  rw [hu.hid_eq]
  rfl

theorem fgCheck_of_taken (img : List Byte) : fgCheck u img = fgCheck { s with hid := dirHid s d } img := by
  unfold fgCheck keySlots
  rw [hu.hid_eq]

/-- A header that fails stops boot. -/
theorem run_bootRest_head (readOk : Bool) (h : fwHeader s (fwImage s d) (at32 d 0x0C) ≠ 0) :
    (bootRest readOk).run u = (bootFail (fwHeader s (fwImage s d) (at32 d 0x0C))).run u := by
  rw [← fwImage_of_taken hu, ← fwHeader_of_taken hu, ← dir_of_taken hu] at h ⊢
  exact congrArg (applyAll · u) (if_pos h)

end

end Sys2Proof.Machine
end

section
/-!
The end of boot after the directory and the header (R461 steps 4 to 7), and the theorem that settles O57.
-/

namespace Sys2Proof.Machine

/-! ### The fields of a boot that starts the firmware -/

/-- The fields that name the image, the Fingering's region and the firmware's start, the latter's check having ended with `fr`. -/
def fwFields (d img : List Byte) (fr : Nat) : List (Fld × Nat) :=
  [(F.BOOT_STAT_fing_result, fr)] ++ ((F.FING_SRC_CFG_src, 0) :: pairFields R.FING_SRC_ADDR (BitVec.ofNat 64 (at32 d 0x10))) ++
    pairFields R.BOOT_FW_ROLLBACK (BitVec.ofNat 64 (leNat (slice img 0x10 0x18))) ++
    [(wordFld R.CHNT_ENTRY, (BitVec.ofNat 32 (0x20000000 + at32 img 0x18)).toNat), (F.BOOT_STAT_result, 0), (F.BOOT_STAT_state, 1),
      (F.BOOT_EVENT_fw_start, 1)]

theorem disjointFields_fw (d img : List Byte) (fr : Nat) : DisjointFields (fwFields d img fr) := by
  refine ⟨?_, ?_⟩
  · simp [fwFields, pairFields, wordFld, F.BOOT_STAT_fing_result, F.FING_SRC_CFG_src, F.BOOT_STAT_result, F.BOOT_STAT_state,
      F.BOOT_EVENT_fw_start]
  · simp [fwFields, pairFields, wordFld, Clear, F.BOOT_STAT_fing_result, F.FING_SRC_CFG_src, F.BOOT_STAT_result, F.BOOT_STAT_state,
      F.BOOT_EVENT_fw_start, R.BOOT_STAT, R.BOOT_EVENT, R.FING_SRC_CFG, R.FING_SRC_ADDR, R.BOOT_FW_ROLLBACK, R.CHNT_ENTRY]

def digestWords (img : List Byte) : List (Fld × Nat) := wordFields R.BOOT_FW_HASH 16 (digestBytes (sha512 (img.take (at32 img 0x20))))

/-- All that a boot that starts the firmware sets, with `m` in the settings registers. -/
def bootedFields (s : State) (d img : List Byte) (fr : Nat) (m : List (Fld × Nat)) : List (Fld × Nat) :=
  dirFields s d ++ [(F.BOOT_STAT_fing_result, fr)] ++ (if decide (at32 d 0x14 ≠ 0) then
    (F.FING_SRC_CFG_src, 0) :: pairFields R.FING_SRC_ADDR (BitVec.ofNat 64 (at32 d 0x10)) else []) ++ m ++ digestWords img ++
    (pairFields R.BOOT_FW_ROLLBACK (BitVec.ofNat 64 (leNat (slice img 0x10 0x18))) ++
    [(wordFld R.CHNT_ENTRY, (BitVec.ofNat 32 (0x20000000 + at32 img 0x18)).toNat), (F.BOOT_STAT_result, 0), (F.BOOT_STAT_state, 1),
      (F.BOOT_EVENT_fw_start, 1)])

/-- Fields of the settings registers. -/
def SettingsOnly (m : List (Fld × Nat)) : Prop := ∀ x ∈ m, x.1.off = R.BOOT_SET_STAT ∨ x.1.off = R.BOOT_SET_FMT

/-- The registers that `fwFields` lie in. -/
def fwWords : List Nat := [R.BOOT_STAT, R.FING_SRC_CFG, R.FING_SRC_ADDR, R.FING_SRC_ADDR + 4, R.BOOT_FW_ROLLBACK, R.BOOT_FW_ROLLBACK + 4,
  R.CHNT_ENTRY, R.BOOT_STAT, R.BOOT_STAT, R.BOOT_EVENT]

theorem off_mem_fwWords {d img : List Byte} {fr : Nat} {y : Fld × Nat} (hy : y ∈ fwFields d img fr) : y.1.off ∈ fwWords := by
  have hmap : (fwFields d img fr).map (fun x => x.1.off) = fwWords := rfl
  rw [← hmap]
  exact List.mem_map_of_mem (f := fun x : Fld × Nat => x.1.off) hy

/-- The registers that boot sets beside those are none of them. -/
theorem off_ne_of_fwFields {d img : List Byte} {fr : Nat} {y : Fld × Nat} (hy : y ∈ fwFields d img fr) : y.1.off ≠ R.QSPI_CFG ∧
    y.1.off ≠ R.BOOT_SET_STAT ∧ y.1.off ≠ R.BOOT_SET_FMT ∧ y.1.off ≠ R.SYS_MODE_STAT ∧ y.1.off ≠ R.CHNT_STAT ∧
    ∀ i < 16, y.1.off ≠ R.BOOT_FW_HASH i := by
  have hw := off_mem_fwWords hy
  simp only [fwWords, List.mem_cons, List.not_mem_nil, or_false, R.BOOT_STAT, R.FING_SRC_CFG, R.FING_SRC_ADDR, R.BOOT_FW_ROLLBACK, R.CHNT_ENTRY,
    R.BOOT_EVENT] at hw
  simp only [R.QSPI_CFG, R.BOOT_SET_STAT, R.BOOT_SET_FMT, R.BOOT_FW_HASH, R.SYS_MODE_STAT, R.CHNT_STAT]
  exact ⟨by omega, by omega, by omega, by omega, by omega, fun i hi => by omega⟩

theorem mem_bootedFields {s : State} {d img : List Byte} {fr : Nat} {m : List (Fld × Nat)} (hm : SettingsOnly m) {x : Fld × Nat}
    (hx : x ∈ bootedFields s d img fr m) : x ∈ fwFields d img fr ∨
      (x.1.off = R.QSPI_CFG ∨ x.1.off = R.BOOT_SET_STAT ∨ x.1.off = R.BOOT_SET_FMT ∨ x ∈ digestWords img) := by
  unfold bootedFields at hx
  obtain hx | hx := List.mem_append.1 hx
  · obtain hx | hx := List.mem_append.1 hx
    · obtain hx | hx := List.mem_append.1 hx
      · obtain hx | hx := List.mem_append.1 hx
        · obtain hx | hx := List.mem_append.1 hx
          · simp only [dirFields, List.mem_cons, List.not_mem_nil, or_false] at hx
            obtain rfl | rfl := hx <;> exact .inr (.inl rfl)
          · exact .inl (List.mem_append_left _ (List.mem_append_left _ (List.mem_append_left _ hx)))
        · split at hx
          · exact .inl (List.mem_append_left _ (List.mem_append_left _ (List.mem_append_right _ hx)))
          · exact absurd hx List.not_mem_nil
      · exact .inr (.inr ((hm x hx).imp_right .inl))
    · exact .inr (.inr (.inr (.inr hx)))
  · obtain hx | hx := List.mem_append.1 hx
    · exact .inl (List.mem_append_left _ (List.mem_append_right _ hx))
    · exact .inl (List.mem_append_right _ hx)

theorem beside_bootedFields {s : State} {d img : List Byte} {fr : Nat} {m : List (Fld × Nat)} (hm : SettingsOnly m) :
    Beside (fwFields d img fr) (bootedFields s d img fr m) := by
  intro x hx
  refine (mem_bootedFields hm hx).imp_right fun hoff y hy he => ?_
  obtain ⟨hqspi, hset, hfmt, -, -, hhash⟩ := off_ne_of_fwFields hy
  obtain hoff | hoff | hoff | hoff := hoff
  · exact hqspi (he.symm.trans hoff)
  · exact hset (he.symm.trans hoff)
  · exact hfmt (he.symm.trans hoff)
  · obtain ⟨i, hi, hoff⟩ := off_of_mem_wordFields hoff
    exact hhash i hi (he.symm.trans hoff)

theorem sparesStart_booted {s : State} {d img : List Byte} {fr : Nat} {m : List (Fld × Nat)} (hm : SettingsOnly m) :
    SparesStart (bootedFields s d img fr m) := by
  intro x hx
  obtain hx | hoff | hoff | hoff | hoff := mem_bootedFields hm hx
  · obtain ⟨-, -, -, hmode, hstat, -⟩ := off_ne_of_fwFields hx
    exact ⟨hmode, hstat⟩
  · rw [hoff]
    decide
  · rw [hoff]
    decide
  · rw [hoff]
    decide
  · obtain ⟨i, hi, hoff⟩ := off_of_mem_wordFields hoff
    rw [hoff]
    simp only [R.BOOT_FW_HASH, R.SYS_MODE_STAT, R.CHNT_STAT]
    omega

/-- What such a boot shows. -/
structure Booted (d img : List Byte) (fr : Nat) (t : State) : Prop where
  result : t.f F.BOOT_STAT_result = 0
  state : t.f F.BOOT_STAT_state = 1
  started : t.on F.BOOT_EVENT_fw_start = true
  entry : t.rd R.CHNT_ENTRY = BitVec.ofNat 32 (0x20000000 + at32 img 0x18)
  rollback : t.rd64 R.BOOT_FW_ROLLBACK = BitVec.ofNat 64 (leNat (slice img 0x10 0x18))
  digest : ∀ i : Fin 16, t.rd (R.BOOT_FW_HASH i) = (sha512 (img.take (at32 img 0x20))).extractLsb' (32 * i) 32
  check : t.f F.BOOT_STAT_fing_result = fr % 256
  source : at32 d 0x14 ≠ 0 → t.f F.FING_SRC_CFG_src = 0 ∧ t.rd64 R.FING_SRC_ADDR = BitVec.ofNat 64 (at32 d 0x10)

theorem booted_of_sets {s b t : State} {d img : List Byte} {fr : Nat} {m : List (Fld × Nat)} {h : Hid} (hm : SettingsOnly m)
    (ht : Sets (bootedFields s d img fr m) h b t) : Booted d img fr t := by
  have hd := disjointFields_fw d img fr
  have hl := beside_bootedFields (s := s) (d := d) (img := img) (fr := fr) hm
  have htail : ∀ x ∈ pairFields R.BOOT_FW_ROLLBACK (BitVec.ofNat 64 (leNat (slice img 0x10 0x18))) ++
      [(wordFld R.CHNT_ENTRY, (BitVec.ofNat 32 (0x20000000 + at32 img 0x18)).toNat), (F.BOOT_STAT_result, 0), (F.BOOT_STAT_state, 1),
        (F.BOOT_EVENT_fw_start, 1)], x ∈ bootedFields s d img fr m ∧ x ∈ fwFields d img fr := fun x hx =>
    ⟨List.mem_append_right _ hx, (List.mem_append.1 hx).elim (fun h => List.mem_append_left _ (List.mem_append_right _ h))
      (fun h => List.mem_append_right _ h)⟩
  have hword : ∀ x ∈ [(wordFld R.CHNT_ENTRY, (BitVec.ofNat 32 (0x20000000 + at32 img 0x18)).toNat), (F.BOOT_STAT_result, 0),
      (F.BOOT_STAT_state, 1), (F.BOOT_EVENT_fw_start, 1)], x ∈ bootedFields s d img fr m ∧ x ∈ fwFields d img fr := fun x hx =>
    htail x (List.mem_append_right _ hx)
  obtain ⟨⟨hentry, hentry'⟩, ⟨hres, hres'⟩, ⟨hstate, hstate'⟩, ⟨hfw, hfw'⟩⟩ := And.intro (hword _ (.head _))
    (And.intro (hword _ (.tail _ (.head _))) (And.intro (hword _ (.tail _ (.tail _ (.head _)))) (hword _ (.tail _ (.tail _ (.tail _ (.head _)))))))
  have hfing : (F.BOOT_STAT_fing_result, fr) ∈ bootedFields s d img fr m := by simp [bootedFields]
  refine ⟨Sets.f_of_core hd hl ht hres hres', Sets.f_of_core hd hl ht hstate hstate', Sets.on_of_core hd hl ht hfw hfw' rfl,
    Sets.rd_of_core hd hl ht hentry hentry',
    Sets.rd64_of_core hd hl ht (fun x hx => (htail x (List.mem_append_left _ hx)).1) fun x hx => (htail x (List.mem_append_left _ hx)).2,
    fun i => ?_, Sets.f_of_core hd hl ht hfing (.head _), fun hne => ?_⟩
  · rw [← word_of_digestBytes]
    refine Sets.rd_of_wordFields (off := R.BOOT_FW_HASH) (n := 16) ht i.isLt (fun j hj => ?_)
      (fun x hx => List.mem_append_left _ (List.mem_append_right _ hx)) fun x hx => ?_
    · simp only [R.BOOT_FW_HASH] at hj
      omega
    · obtain hx | hoff | hoff | hoff | hx := mem_bootedFields hm hx
      · obtain ⟨-, -, -, -, -, hhash⟩ := off_ne_of_fwFields hx
        exact .inr (hhash i i.isLt)
      · right
        simp only [hoff, R.QSPI_CFG, R.BOOT_FW_HASH]
        omega
      · right
        simp only [hoff, R.BOOT_SET_STAT, R.BOOT_FW_HASH]
        omega
      · right
        simp only [hoff, R.BOOT_SET_FMT, R.BOOT_FW_HASH]
        omega
      · exact .inl hx
  · have hsrc : ∀ x ∈ (F.FING_SRC_CFG_src, 0) :: pairFields R.FING_SRC_ADDR (BitVec.ofNat 64 (at32 d 0x10)),
        x ∈ bootedFields s d img fr m ∧ x ∈ fwFields d img fr := fun x hx => by
      refine ⟨?_, List.mem_append_left _ (List.mem_append_left _ (List.mem_append_right _ hx))⟩
      unfold bootedFields
      rw [if_pos (decide_eq_true hne)]
      exact List.mem_append_left _ (List.mem_append_left _ (List.mem_append_left _ (List.mem_append_right _ hx)))
    exact ⟨Sets.f_of_core hd hl ht (hsrc _ (.head _)).1 (hsrc _ (.head _)).2,
      Sets.rd64_of_core hd hl ht (fun x hx => (hsrc x (.tail _ hx)).1) fun x hx => (hsrc x (.tail _ hx)).2⟩

/-! ### Steps 4 to 7 -/

theorem sets_settingsTake (fmt : Nat) (s : State) : ∃ m, SettingsOnly m ∧ Sets m s.hid s ((settingsTake fmt).run s) := by
  unfold settingsTake
  rw [run_fun, run_seq_cons, run_seq_cons, run_seq_cons, run_seq_cons, run_seq_cons, run_seq_cons, run_seq_cons, run_seq_cons, run_seq_nil]
  refine ⟨_, ?_, (((((((Sets.setW _ _ s).then_setF _ _).then_setF _ _).then_setF _ _).then_setF _ _).then_setF _ _).then_setF _ _).then_setF _ _⟩
  simp [SettingsOnly, wordFld, F.BOOT_SET_STAT_fw_fmt, F.BOOT_SET_STAT_valid_a, F.BOOT_SET_STAT_valid_b, F.BOOT_SET_STAT_active,
    F.BOOT_SET_STAT_active_ok, F.BOOT_SET_FMT_a, F.BOOT_SET_FMT_b]

/-- What the signature's check of the image `img` in the directory `d` answers. -/
def signCode (s : State) (d img : List Byte) (readOk : Bool) : Nat := if readOk = false then 0x78 else fwSig img (slotsAfter s d)

theorem signCode_lt (s : State) (d img : List Byte) (readOk : Bool) : signCode s d img readOk < 256 := by
  unfold signCode
  split
  · decide
  · exact fwSig_lt _ _

/-- What the check of the Fingering's region answers in `u`. -/
def fingCode (d : List Byte) (u : State) (n : Nat) : Nat := if at32 d 0x14 = 0 then 0xFF else fgRegion u (n.testBit 0)

/-- The steps once the image is copied and its signature holds. -/
def fwActs (d img : List Byte) (u : State) : List Act :=
  [withEnv fun n => setF F.BOOT_STAT_fing_result (fingCode d u n),
    only (at32 d 0x14 ≠ 0) (seq [setF F.FING_SRC_CFG_src 0, set64 R.FING_SRC_ADDR (BitVec.ofNat 64 (at32 d 0x10))]),
    settingsTake (at16 img 0x1C), wordsPut R.BOOT_FW_HASH 16 (digestBytes (sha512 (img.take (at32 img 0x20)))),
    set64 R.BOOT_FW_ROLLBACK (BitVec.ofNat 64 (leNat (slice img 0x10 0x18))),
    setW R.CHNT_ENTRY (BitVec.ofNat 32 (0x20000000 + at32 img 0x18)), setF F.BOOT_STAT_result 0, setF F.BOOT_STAT_state 1,
    setB F.BOOT_EVENT_fw_start, bootA (fun b => { b with fwSlot := some (at8 img (at32 img 0x20 + 8)) })]

/-- What the blocks hold once the firmware image `img` is taken after `d`. -/
def fwHid (s : State) (d img : List Byte) : Hid :=
  withBoot s { s.hid.boot with dir := d, keys := keysOf s d, fwSlot := some (at8 img (at32 img 0x20 + 8)) }

theorem sets_fwActs {s b u v : State} {d : List Byte} (img : List Byte) (hv : Sets (dirFields s d) (dirHid s d) b v) : ∃ m n, SettingsOnly m ∧
    Sets (bootedFields s d img (fingCode d u n) m) (fwHid s d img) b ((seq (fwActs d img u)).run v) := by
  unfold fwActs
  rw [run_seq_cons, run_seq_cons, run_seq_cons, run_seq_cons, run_seq_cons, run_seq_cons, run_seq_cons, run_seq_cons, run_seq_cons,
    run_seq_cons, run_seq_nil, run_withEnv, setB_eq]
  have hcheck := (hv.then_freshA).then_setF F.BOOT_STAT_fing_result (fingCode d u (Config.freeEnv v.fresh))
  have hsrc := hcheck.then_only (decide (at32 d 0x14 ≠ 0)) (a := seq [setF F.FING_SRC_CFG_src 0,
      set64 R.FING_SRC_ADDR (BitVec.ofNat 64 (at32 d 0x10))])
    (m := (F.FING_SRC_CFG_src, 0) :: pairFields R.FING_SRC_ADDR (BitVec.ofNat 64 (at32 d 0x10))) fun _ => by
      rw [run_seq_cons, run_seq_cons, run_seq_nil]
      exact (Sets.setF F.FING_SRC_CFG_src 0 _).then_set64 _ _
  obtain ⟨m, hm, hset⟩ := sets_settingsTake (at16 img 0x1C) ((only (decide (at32 d 0x14 ≠ 0)) (seq [setF F.FING_SRC_CFG_src 0,
    set64 R.FING_SRC_ADDR (BitVec.ofNat 64 (at32 d 0x10))])).run ((setF F.BOOT_STAT_fing_result (fingCode d u (Config.freeEnv v.fresh))).run
      (freshA.run v)))
  have hdigest := (hsrc.then_keep hset).then_keep (sets_wordsPut R.BOOT_FW_HASH 16 (digestBytes (sha512 (img.take (at32 img 0x20)))) _)
  have hall := ((((((hdigest.then_set64 R.BOOT_FW_ROLLBACK (BitVec.ofNat 64 (leNat (slice img 0x10 0x18)))).then_setW R.CHNT_ENTRY
    (BitVec.ofNat 32 (0x20000000 + at32 img 0x18))).then_setF F.BOOT_STAT_result 0).then_setF F.BOOT_STAT_state 1).then_setF
    F.BOOT_EVENT_fw_start 1).then_hidA fun h => { h with boot := { h.boot with fwSlot := some (at8 img (at32 img 0x20 + 8)) } })
  refine ⟨m, Config.freeEnv v.fresh, hm, hall.cast ?_ rfl⟩
  unfold bootedFields digestWords
  simp only [List.append_assoc, List.cons_append, List.nil_append]

section
variable {s u : State} {d : List Byte} (hu : Sets (dirFields s d) (dirHid s d) s u) {readOk : Bool}
  (hhead : fwHeader s (fwImage s d) (at32 d 0x0C) = 0)
include hu

theorem signCode_of_taken : signCode s d (fwImage s d) readOk = if !readOk then 0x78 else fwSig (fwImage u d) (keySlots u) := by
  rw [signCode, fwImage_of_taken hu, keySlots_of_taken hu]
  cases readOk <;> rfl

include hhead

/-- A header that holds leads to the signature. -/
theorem run_bootRest : (bootRest readOk).run u = if signCode s d (fwImage s d) readOk ≠ 0 then
    (seq [bootCopy readOk (fwImage s d), bootFail (signCode s d (fwImage s d) readOk)]).run u
    else (seq (bootCopy readOk (fwImage s d) :: (fwActs d (fwImage s d) u ++ [firmwareStart]))).run u := by
  rw [signCode_of_taken hu]
  rw [← fwImage_of_taken hu] at hhead ⊢
  rw [← fwHeader_of_taken hu] at hhead
  obtain rfl := dir_of_taken hu
  refine (congrArg (applyAll · u) (if_neg (not_not_intro hhead))).trans ?_
  exact apply_ite (applyAll · u) _ _ _

theorem run_bootRest_sign (h : signCode s d (fwImage s d) readOk ≠ 0) : (bootRest readOk).run u =
    (bootFail (signCode s d (fwImage s d) readOk)).run ((bootCopy readOk (fwImage s d)).run u) := by
  rw [run_bootRest hu hhead, if_pos h, run_seq_cons, run_seq_cons, run_seq_nil]

theorem run_bootRest_fw (h : signCode s d (fwImage s d) readOk = 0) : (bootRest readOk).run u =
    firmwareStart.run ((seq (fwActs d (fwImage s d) u)).run ((bootCopy readOk (fwImage s d)).run u)) := by
  rw [run_bootRest hu hhead, if_neg (not_not_intro h), run_seq_cons, run_seq_append, run_seq_cons, run_seq_nil]

end

/-! ### The three ends of a boot whose directory holds -/

section
variable {s : State} (hrun : coresRun s = true) (hupd : s.hid.boot.upd = false) (readOk : Bool) (hst : s.f F.BOOT_STAT_state = 0)
  (hd : dirCheck (flashBytes s 0 4096) = 0)
include hrun hupd hst hd

theorem run_bootComplete_dir : ∃ u, Sets (dirFields s (flashBytes s 0 4096)) (dirHid s (flashBytes s 0 4096)) s u ∧
    (bootComplete readOk).run s = (bootRest readOk).run u := by
  have he := run_bootComplete hrun hupd readOk hst
  rw [if_neg (not_not_intro hd)] at he
  exact ⟨_, sets_dirTake _ s, he⟩

theorem completes_bootComplete_head (hh : fwHeader s (fwImage s (flashBytes s 0 4096)) (at32 (flashBytes s 0 4096) 0x0C) ≠ 0) :
    Completes (.bootComplete readOk) s fun t => PmpLocked s.hid.chnt.pmp t.hid.chnt.pmp ∧
      Sets (dirFields s (flashBytes s 0 4096) ++ stopFields (fwHeader s (fwImage s (flashBytes s 0 4096)) (at32 (flashBytes s 0 4096) 0x0C)))
        (startedHid s (dirHid s (flashBytes s 0 4096)) t.hid.chnt.pmp) s t := by
  obtain ⟨u, hu, he⟩ := run_bootComplete_dir hrun hupd readOk hst hd
  obtain ⟨v, hv, hstop⟩ := run_bootFail (fwHeader s (fwImage s (flashBytes s 0 4096)) (at32 (flashBytes s 0 4096) 0x0C)) u
  rw [run_bootRest_head hu readOk hh, hv] at he
  exact completes_started rfl he rfl (hu.then_keep hstop) ((sparesStart_dir _ _).append (sparesStart_stop _))

variable (hh : fwHeader s (fwImage s (flashBytes s 0 4096)) (at32 (flashBytes s 0 4096) 0x0C) = 0)
include hh

theorem completes_bootComplete_sign (hs : signCode s (flashBytes s 0 4096) (fwImage s (flashBytes s 0 4096)) readOk ≠ 0) :
    Completes (.bootComplete readOk) s fun t => PmpLocked s.hid.chnt.pmp t.hid.chnt.pmp ∧ ∃ m,
      Sets (dirFields s (flashBytes s 0 4096) ++ stopFields (signCode s (flashBytes s 0 4096) (fwImage s (flashBytes s 0 4096)) readOk))
        (startedHid s (dirHid s (flashBytes s 0 4096)) t.hid.chnt.pmp) { s with sram := m } t := by
  obtain ⟨u, hu, he⟩ := run_bootComplete_dir hrun hupd readOk hst hd
  obtain ⟨m, hcopy, -⟩ := sets_bootCopy hu readOk (fwImage s (flashBytes s 0 4096))
  obtain ⟨v, hv, hstop⟩ := run_bootFail (signCode s (flashBytes s 0 4096) (fwImage s (flashBytes s 0 4096)) readOk)
    ((bootCopy readOk (fwImage s (flashBytes s 0 4096))).run u)
  rw [run_bootRest_sign hu hh hs, hv] at he
  obtain ⟨t, ht, hlock, hend⟩ := completes_started (c := .bootComplete readOk) (b := { s with sram := m }) rfl he rfl (hcopy.then_keep hstop) ((sparesStart_dir _ _).append (sparesStart_stop _))
  exact ⟨t, ht, hlock, m, hend⟩

/-- The firmware starts. -/
theorem completes_bootComplete_fw (hs : signCode s (flashBytes s 0 4096) (fwImage s (flashBytes s 0 4096)) readOk = 0) :
    Completes (.bootComplete readOk) s fun t => PmpLocked s.hid.chnt.pmp t.hid.chnt.pmp ∧
      SramHolds t 0 (fwImage s (flashBytes s 0 4096)) ∧ ∃ u m b n, SettingsOnly m ∧
      Sets (dirFields s (flashBytes s 0 4096)) (dirHid s (flashBytes s 0 4096)) s u ∧
      Sets (bootedFields s (flashBytes s 0 4096) (fwImage s (flashBytes s 0 4096)) (fingCode (flashBytes s 0 4096) u n) m)
        (startedHid s (fwHid s (flashBytes s 0 4096) (fwImage s (flashBytes s 0 4096))) t.hid.chnt.pmp) { s with sram := b } t := by
  obtain ⟨u, hu, he⟩ := run_bootComplete_dir hrun hupd readOk hst hd
  obtain ⟨b, hcopy, hholds⟩ := sets_bootCopy hu readOk (fwImage s (flashBytes s 0 4096))
  obtain ⟨m, n, hm, hacts⟩ := sets_fwActs (u := u) (fwImage s (flashBytes s 0 4096)) hcopy
  rw [run_bootRest_fw hu hh hs] at he
  obtain ⟨t, ht, hlock, hend⟩ := completes_started (c := .bootComplete readOk) (b := { s with sram := b }) rfl he rfl hacts (sparesStart_booted hm)
  have hread : readOk = true := by
    cases readOk with
    | true => rfl
    | false => exact absurd hs (by simp [signCode])
  obtain ⟨-, ⟨-, -, hsram⟩, -⟩ := id hend
  exact ⟨t, ht, hlock, hholds hread t hsram, u, m, b, n, hm, hu, hend⟩

end

theorem disjointFields_stopped (s : State) (d : List Byte) (code : Nat) : DisjointFields (dirFields s d ++ stopFields code) := by
  refine ⟨?_, ?_⟩
  · simp [dirFields, stopFields, F.QSPI_CFG_size, F.QSPI_CFG_mode, F.BOOT_STAT_result, F.BOOT_EVENT_boot_fail, F.BOOT_STAT_state]
  · simp [dirFields, stopFields, Clear, F.QSPI_CFG_size, F.QSPI_CFG_mode, F.BOOT_STAT_result, F.BOOT_EVENT_boot_fail, F.BOOT_STAT_state,
      R.QSPI_CFG, R.BOOT_STAT, R.BOOT_EVENT]

/-- The Fingering's region is checked, or the flash does not answer. -/
theorem fgRegion_cases {s u : State} {d : List Byte} (hu : Sets (dirFields s d) (dirHid s d) s u) (readOk : Bool) :
    fgRegion u readOk % 256 = 0x63 ∨
      fgRegion u readOk % 256 = fgCheck { s with hid := dirHid s d } (flashBytes s (at32 d 0x10) (at32 d 0x14)) := by
  unfold fgRegion
  rw [dir_of_taken hu]
  cases readOk with
  | false => exact .inl rfl
  | true =>
    refine .inr ((Nat.mod_eq_of_lt (fgCheck_lt _ _)).trans ?_)
    rw [flashBytes_of_taken hu, fgCheck_of_taken hu]

/-- Settles O57. -/
theorem bootStopsAtItsFirstFailure : Obligations.BootStopsAtItsFirstFailure := by
  unfold Obligations.BootStopsAtItsFirstFailure
  intro s hrun hupd sweeps locked rom
  refine ⟨fun sel => ?_, ?_⟩
  · by_cases hsel : sel = 1#2
    · subst hsel
      exact completes_romBoot_loader hrun hupd
    · obtain ⟨t, he, ht⟩ := completes_romBoot hrun hupd sel hsel
      refine ⟨t, he, fun i _ => by rw [ht.hid_eq]; rfl, ht.cast ?_ ?_⟩
      · rw [if_neg hsel, List.append_nil]
        rfl
      · rw [if_neg hsel]
        rfl
  · intro readOk hst d img head sign stops taken h
    by_cases hd : dirCheck d = 0
    · by_cases hh : head = 0
      · by_cases hs : sign = 0
        · obtain ⟨t, he, hlock, hholds, u, m, b, n, hm, hu, ht⟩ := completes_bootComplete_fw hrun hupd readOk hst hd hh hs
          obtain ⟨hres, hstate, hstart, hentry, hroll, hdigest, hcheck, hsrc⟩ := booted_of_sets hm ht
          obtain ⟨-, ⟨hlp, hfl, -⟩, hnow, hhid, -⟩ := ht
          refine ⟨t, he, hlock, fun h => absurd hd h, fun _ h => absurd hh h, fun _ _ h => absurd hs h, fun _ _ _ => ⟨hres, hstate, hstart,
            hholds, hentry, hroll, hdigest, fun hz => ?_, fun hne => ⟨(hsrc hne).1, (hsrc hne).2, ?_⟩, hhid, hfl, hlp, hnow⟩⟩
          · rw [hcheck, fingCode, if_pos hz]
          · rw [hcheck, fingCode, if_neg hne]
            exact fgRegion_cases hu _
        · obtain ⟨t, he, hlock, m, ht⟩ := completes_bootComplete_sign hrun hupd readOk hst hd hh hs
          have hfields := disjointFields_stopped s d sign
          obtain ⟨-, ⟨hlp, hfl, -⟩, -, hhid, -⟩ := id ht
          refine ⟨t, he, hlock, fun h => absurd hd h, fun _ h => absurd hh h, fun _ _ _ => ⟨?_, ?_, ?_, hhid, hfl, hlp, ?_⟩,
            fun _ _ h => absurd h hs⟩
          · exact (Sets.f_of_disjoint hfields ht (List.mem_append_right _ (.head _))).trans (Nat.mod_eq_of_lt (signCode_lt s d img readOk))
          · exact Sets.on_of_disjoint hfields ht (List.mem_append_right _ (.tail _ (.head _))) rfl
          · exact Sets.f_of_disjoint hfields ht (List.mem_append_right _ (.tail _ (.tail _ (.head _))))
          · refine ht.keepRegs (s := { s with sram := m }) fun x hx => ?_
            simp only [dirFields, stopFields, List.cons_append, List.nil_append, List.mem_cons, List.not_mem_nil, or_false] at hx
            obtain rfl | rfl | rfl | rfl | rfl := hx
            · exact .inr (.inr rfl)
            · exact .inr (.inr rfl)
            · exact .inl rfl
            · exact .inr (.inl rfl)
            · exact .inl rfl
      · obtain ⟨t, he, hlock, ht⟩ := completes_bootComplete_head hrun hupd readOk hst hd hh
        exact ⟨t, he, hlock, fun h => absurd hd h, fun _ _ => ht, fun _ h => absurd h hh, fun _ h => absurd h hh⟩
    · obtain ⟨t, he, hlock, ht⟩ := completes_bootComplete_dir hrun hupd readOk hst hd
      exact ⟨t, he, hlock, fun _ => ht, fun h => absurd h hd, fun h => absurd h hd, fun h => absurd h hd⟩

end Sys2Proof.Machine
end

section
/-!
Sealing (R470): a body that AES-256-GCM has sealed is opened to what it was.
-/

namespace Sys2Proof.Machine

/-! ### Lengths -/

theorem length_xorBytes (a b : List Byte) : (xorBytes a b).length = min a.length b.length := List.length_zipWith

/-- Bytes masked twice are as they were. -/
theorem xorBytes_xorBytes (a b : List Byte) (h : a.length ≤ b.length) : xorBytes (xorBytes a b) b = a := by
  induction a generalizing b with
  | nil => rfl
  | cons x a ih =>
    cases b with
    | nil => simp at h
    | cons y b =>
      simp only [xorBytes, List.zipWith_cons_cons] at ih ⊢
      rw [ih b (by simpa using h), BitVec.xor_assoc, BitVec.xor_self, BitVec.xor_zero]

theorem length_pieces {α : Type} (k n : Nat) (l : List α) : (pieces k n l).length = n := by
  induction n generalizing l with
  | zero => rfl
  | succ n ih => rw [pieces, List.length_cons, ih]

/-- Pieces of a list that is long enough are whole. -/
theorem length_of_mem_pieces {α : Type} {k n : Nat} {l x : List α} (hl : k * n ≤ l.length) (hx : x ∈ pieces k n l) : x.length = k := by
  induction n generalizing l with
  | zero => simp [pieces] at hx
  | succ n ih =>
    rw [Nat.mul_succ] at hl
    obtain rfl | hx := List.mem_cons.1 hx
    · rw [List.length_take]
      omega
    · exact ih (l := l.drop k) (by rw [List.length_drop]; omega) hx

theorem length_flatten_of_forall {α : Type} {k : Nat} {l : List (List α)} (h : ∀ x ∈ l, x.length = k) : l.flatten.length = k * l.length := by
  induction l with
  | nil => rfl
  | cons x l ih =>
    rw [List.flatten_cons, List.length_append, h x List.mem_cons_self, ih fun y hy => h y (List.mem_cons_of_mem _ hy), List.length_cons]
    ring

/-! ### The key schedule and the block cipher -/

/-- Words of a key schedule: each has four bytes, and eight stand at least. -/
def KeyWords (w : List (List Byte)) : Prop := (∀ x ∈ w, x.length = 4) ∧ 8 ≤ w.length

/-- The last word `t` as the next one is formed with it. -/
def keyTurn (i : Nat) (rc : Byte) (t : List Byte) : List Byte :=
  if i % 8 = 0 then xorBytes ((t.drop 1 ++ t.take 1).map sbox) [rc, 0#8, 0#8, 0#8] else if i % 8 = 4 then t.map sbox else t

theorem length_keyTurn (i : Nat) (rc : Byte) {t : List Byte} (ht : t.length = 4) : (keyTurn i rc t).length = 4 := by
  unfold keyTurn
  split_ifs
  · simp [length_xorBytes, ht]
  · rw [List.length_map, ht]
  · exact ht

theorem aesExpand_succ (n i : Nat) (rc : Byte) (w : List (List Byte)) : aesExpand (n + 1) i rc w =
    aesExpand n (i + 1) (if i % 8 = 0 then xtime rc else rc) (xorBytes (w.getD 7 []) (keyTurn i rc (w.headD [])) :: w) := rfl

theorem keyWords_next {w : List (List Byte)} (hw : KeyWords w) (i : Nat) (rc : Byte) :
    KeyWords (xorBytes (w.getD 7 []) (keyTurn i rc (w.headD [])) :: w) := by
  obtain ⟨hlen, hn⟩ := hw
  have hhead : (w.headD []).length = 4 := by
    cases w with
    | nil => simp at hn
    | cons x w => exact hlen x List.mem_cons_self
  have hseventh : (w.getD 7 []).length = 4 := by
    rw [List.getD_eq_getElem _ _ hn]
    exact hlen _ (List.getElem_mem _)
  refine ⟨fun x hx => ?_, by rw [List.length_cons]; omega⟩
  obtain rfl | hx := List.mem_cons.1 hx
  · rw [length_xorBytes, hseventh, length_keyTurn i rc hhead, Nat.min_self]
  · exact hlen x hx

theorem length_aesExpand (n i : Nat) (rc : Byte) (w : List (List Byte)) (hw : KeyWords w) :
    (∀ x ∈ aesExpand n i rc w, x.length = 4) ∧ (aesExpand n i rc w).length = n + w.length := by
  induction n generalizing i rc w with
  | zero =>
    obtain ⟨hlen, -⟩ := hw
    exact ⟨fun x hx => hlen x (List.mem_reverse.1 hx), by rw [aesExpand, List.length_reverse, Nat.zero_add]⟩
  | succ n ih =>
    obtain ⟨hlen, hn⟩ := ih (i + 1) (if i % 8 = 0 then xtime rc else rc) _ (keyWords_next hw i rc)
    rw [aesExpand_succ]
    refine ⟨hlen, hn.trans ?_⟩
    rw [List.length_cons]
    omega

/-- The round keys of a key of 32 bytes have 16 bytes each. -/
theorem length_of_mem_aesKeys {key x : List Byte} (hkey : key.length = 32) (hx : x ∈ aesKeys key) : x.length = 16 := by
  have hwords : KeyWords (pieces 4 8 key).reverse := by
    refine ⟨fun x hx => length_of_mem_pieces (by omega) (List.mem_reverse.1 hx), ?_⟩
    rw [List.length_reverse, length_pieces]
  obtain ⟨hlen, hn⟩ := length_aesExpand 52 8 1#8 _ hwords
  rw [List.length_reverse, length_pieces] at hn
  refine length_of_mem_pieces ?_ hx
  rw [length_flatten_of_forall hlen, hn]

theorem length_aesShift (s : List Byte) : (aesShift s).length = 16 := by simp [aesShift]

theorem length_mixColumn {c : List Byte} (h : c.length = 4) : (mixColumn c).length = 4 := by
  match c, h with
  | [_, _, _, _], _ => rfl

theorem length_aesRounds {ks : List (List Byte)} (hne : ks ≠ []) (hks : ∀ k ∈ ks, k.length = 16) (s : List Byte) :
    (aesRounds ks s).length = 16 := by
  induction ks generalizing s with
  | nil => exact absurd rfl hne
  | cons k ks ih =>
    cases ks with
    | nil => rw [aesRounds, length_xorBytes, length_aesShift, hks k List.mem_cons_self]; rfl
    | cons k' ks => exact ih (List.cons_ne_nil _ _) (fun x hx => hks x (List.mem_cons_of_mem _ hx)) _

/-- A block of the cipher has 16 bytes. -/
theorem length_aesBlock {key : List Byte} (hkey : key.length = 32) (s : List Byte) : (aesBlock (aesKeys key) s).length = 16 := by
  have hn : (aesKeys key).length = 15 := length_pieces _ _ _
  refine length_aesRounds (fun h => ?_) (fun k hk => length_of_mem_aesKeys hkey (List.mem_of_mem_tail hk)) _
  have := congrArg List.length h
  rw [List.length_tail, hn] at this
  exact absurd this (by decide)

/-! ### Counter mode -/

/-- `n` pieces masked by the blocks from `k` on. -/
def maskedFrom (block : Nat → List Byte) (k n : Nat) (m : List Byte) : List Byte :=
  (((pieces 16 n m).zipIdx k).map fun x => xorBytes x.1 (block x.2)).flatten

theorem maskedFrom_succ (block : Nat → List Byte) (k n : Nat) (m : List Byte) :
    maskedFrom block k (n + 1) m = xorBytes (m.take 16) (block k) ++ maskedFrom block (k + 1) n (m.drop 16) := rfl

theorem gcmStream_eq (ks : List (List Byte)) (nonce m : List Byte) :
    gcmStream ks nonce m = maskedFrom (fun i => aesBlock ks (gcmCtr nonce (i + 2))) 0 ((m.length + 15) / 16) m := rfl

section
variable {block : Nat → List Byte} (hblock : ∀ i, (block i).length = 16)
include hblock

theorem length_maskedFrom (k n : Nat) (m : List Byte) (hm : m.length ≤ 16 * n) : (maskedFrom block k n m).length = m.length := by
  induction n generalizing k m with
  | zero => exact (Nat.le_zero.1 hm).symm
  | succ n ih =>
    rw [maskedFrom_succ, List.length_append, length_xorBytes, hblock, ih (k + 1) (m.drop 16) (by rw [List.length_drop]; omega),
      List.length_take, List.length_drop]
    omega

/-- Masked twice, a byte string is as it was. -/
theorem maskedFrom_maskedFrom (k n : Nat) (m : List Byte) (hm : m.length ≤ 16 * n) : maskedFrom block k n (maskedFrom block k n m) = m := by
  induction n generalizing k m with
  | zero => exact (List.length_eq_zero_iff.1 (Nat.le_zero.1 hm)).symm
  | succ n ih =>
    have hrest : (m.drop 16).length ≤ 16 * n := by rw [List.length_drop]; omega
    have hhead : (xorBytes (m.take 16) (block k)).length = min 16 m.length := by
      rw [length_xorBytes, hblock, List.length_take]
      omega
    have hcut : (maskedFrom block k (n + 1) m).take 16 = xorBytes (m.take 16) (block k) ∧
        (maskedFrom block k (n + 1) m).drop 16 = maskedFrom block (k + 1) n (m.drop 16) := by
      rw [maskedFrom_succ]
      by_cases hlong : 16 ≤ m.length
      · have hlen : (xorBytes (m.take 16) (block k)).length = 16 := by omega
        exact ⟨List.take_left' hlen, List.drop_left' hlen⟩
      · have hnone : maskedFrom block (k + 1) n (m.drop 16) = [] := by
          rw [← List.length_eq_zero_iff, length_maskedFrom hblock _ _ _ hrest, List.length_drop]
          omega
        rw [hnone, List.append_nil]
        exact ⟨List.take_of_length_le (by omega), List.drop_eq_nil_of_le (by omega)⟩
    obtain ⟨htake, hdrop⟩ := hcut
    rw [maskedFrom_succ, htake, hdrop, ih (k + 1) _ hrest, xorBytes_xorBytes _ _ (by rw [hblock, List.length_take]; omega),
      List.take_append_drop]

end

theorem length_gcmStream {key : List Byte} (hkey : key.length = 32) (nonce m : List Byte) :
    (gcmStream (aesKeys key) nonce m).length = m.length := by
  rw [gcmStream_eq]
  exact length_maskedFrom (fun i => length_aesBlock hkey _) 0 _ m (by omega)

theorem gcmStream_gcmStream {key : List Byte} (hkey : key.length = 32) (nonce m : List Byte) :
    gcmStream (aesKeys key) nonce (gcmStream (aesKeys key) nonce m) = m := by
  rw [gcmStream_eq, length_gcmStream hkey, gcmStream_eq]
  exact maskedFrom_maskedFrom (fun i => length_aesBlock hkey _) 0 _ m (by omega)

/-- A sealed body opens to what it was, under a key of 32 bytes. -/
theorem gcmOpen_gcmSeal {key : List Byte} (hkey : key.length = 32) (nonce aad body : List Byte) :
    gcmOpen key nonce aad (gcmSeal key nonce aad body).1 (gcmSeal key nonce aad body).2 = some body := by
  rw [gcmSeal, gcmOpen]
  dsimp only
  rw [if_pos rfl, gcmStream_gcmStream hkey]

theorem length_settingsKey : settingsKey.length = 32 := by
  unfold settingsKey
  exact length_leBytes 32 _

end Sys2Proof.Machine
end

section
/-!
The commands of the security block (R470, R472): which are refused, which begin, and a read of the random source.
-/

namespace Sys2Proof.Machine

/-! ### Seal and unseal -/

/-- The code that refuses either command. -/
def sealGate (p : Port) (s : State) : Nat := if p ≠ Port.fw then 0x81 else if secBusy s then 0x8B else 0

/-- The buffer is one that the SRAM holds, of whole blocks. -/
def SealFits (s : State) : Prop := (s.rd R.SEC_SEAL_LEN).toNat % 16 = 0 ∧ (s.rd R.SEC_SEAL_LEN).toNat ≤ 2 ^ 20 ∧
  0x20000000 ≤ (s.rd R.SEC_SEAL_ADDR).toNat ∧ (s.rd R.SEC_SEAL_ADDR).toNat + (s.rd R.SEC_SEAL_LEN).toNat + 28 ≤ 0x20180000

/-- The operation that code `op` of `SEC_SEAL_CMD` begins. -/
def sealOp (op : Nat) (s : State) : SecOp :=
  if op = 1 then .seal ((s.rd R.SEC_SEAL_ADDR).toNat - 0x20000000) (s.rd R.SEC_SEAL_LEN).toNat
  else .unseal ((s.rd R.SEC_SEAL_ADDR).toNat - 0x20000000) (s.rd R.SEC_SEAL_LEN).toNat

section
variable {p : Port} {v : Word} {op : Nat} {rng : Bool} {s : State} (hop : op = 1 ∨ op = 2)
include hop

theorem sealCmd_of_gate (hg : sealGate p s ≠ 0) : sealCmd p (withOp2 v op) rng s = secCode (sealGate p s) s := by
  unfold sealGate at hg ⊢
  unfold sealCmd
  rw [withOp2_mod v op (by omega)]
  dsimp only
  by_cases hp : p ≠ Port.fw
  · rw [if_pos hp, if_pos hp]
  · rw [if_neg hp] at hg ⊢
    rw [if_neg hp, if_neg (by omega)]
    by_cases hb : secBusy s = true
    · rw [if_pos hb, if_pos hb]
    · exact absurd (if_neg hb) hg

theorem sealCmd_of_free (hg : sealGate p s = 0) : sealCmd p (withOp2 v op) rng s = if op = 1 ∧ !rng then secCode 0x97 s
    else if (s.rd R.SEC_SEAL_LEN).toNat % 16 ≠ 0 ∨ 2 ^ 20 < (s.rd R.SEC_SEAL_LEN).toNat ∨ (s.rd R.SEC_SEAL_ADDR).toNat < 0x20000000 ∨
      0x20000000 + sramSize < (s.rd R.SEC_SEAL_ADDR).toNat + (s.rd R.SEC_SEAL_LEN).toNat + 28 then secFree s
    else secStart (sealOp op s) s := by
  unfold sealGate at hg
  unfold sealCmd sealOp
  rw [withOp2_mod v op (by omega)]
  dsimp only
  by_cases hp : p ≠ Port.fw
  · rw [if_pos hp] at hg
    exact absurd hg (by decide)
  · rw [if_neg hp] at hg ⊢
    by_cases hb : secBusy s = true
    · rw [if_pos hb] at hg
      exact absurd hg (by decide)
    · rw [if_neg (by omega), if_neg hb]

end

/-- A code that is free changes nothing but the result. -/
theorem sets_secFree (s : State) : ∃ x, Sets [(F.SEC_STAT_result, x)] s.hid s (secFree.run s) := by
  refine ⟨(Config.freeCode s.fresh).toNat, ?_⟩
  unfold secFree
  rw [Act.run, applyAll_append]
  exact (Sets.setF F.SEC_STAT_result (Config.freeCode s.fresh).toNat s).then_freshA

section
variable {c : Instr} {p : Port} {v : Word} {op : Nat} {rng : Bool} {s : State} (hl : Live p s R.SEC_SEAL_CMD = true) (hop : op = 1 ∨ op = 2)
  (he : exec c s = finish (portGate p R.SEC_SEAL_CMD (sealCmd p (withOp2 v op) rng)) s)
include hl hop he

theorem completes_seal_refused (hg : sealGate p s ≠ 0) : Completes c s (Sets [(F.SEC_STAT_result, sealGate p s)] s.hid s) := by
  refine completes_portGate hl he ?_ (by simp +decide)
  rw [Act.run, sealCmd_of_gate hop hg]
  exact Sets.setF F.SEC_STAT_result _ s

variable (hg : sealGate p s = 0)
include hg

theorem completes_seal_begins (hrng : op = 1 → rng = true) (hfit : SealFits s) : Completes c s
    (Sets [(F.SEC_STAT_result, 0), (F.SEC_STAT_busy, 1)] (withBoot s { s.hid.boot with sec := some (sealOp op s) }) s) := by
  refine completes_portGate hl he ?_ (by simp +decide)
  obtain ⟨hmod, hmax, hlow, hhigh⟩ := hfit
  have hno : ¬ (op = 1 ∧ (!rng) = true) := fun h => by simp [hrng h.1] at h
  have hsize : sramSize = 0x180000 := rfl
  rw [Act.run, sealCmd_of_free hop hg, if_neg hno, if_neg (by omega)]
  exact sets_secStart _ s

theorem completes_seal_unfit (hrng : op = 1 → rng = true) (hfit : ¬ SealFits s) : Completes c s fun t =>
    t.hid = s.hid ∧ t.on F.SEC_STAT_busy = s.on F.SEC_STAT_busy ∧ KeepRegs (fun off => off = R.SEC_STAT) s t ∧ SameMem s t ∧
      t.now = s.now ∧ t.resp = s.resp := by
  have hno : ¬ (op = 1 ∧ (!rng) = true) := fun h => by simp [hrng h.1] at h
  have hsize : sramSize = 0x180000 := rfl
  obtain ⟨x, hx⟩ := sets_secFree s
  have hset : Sets [(F.SEC_STAT_result, x)] s.hid s ((sealCmd p (withOp2 v op) rng).run s) := by
    unfold SealFits at hfit
    rw [Act.run, sealCmd_of_free hop hg, if_neg hno, if_pos (by omega)]
    exact hx
  obtain ⟨t, ht, hend⟩ := completes_portGate hl he hset (by simp +decide)
  have hbusy := hend.on_of_apart (y := F.SEC_STAT_busy) (by simp [Fld.Apart, F.SEC_STAT_result, F.SEC_STAT_busy])
  have hkeep := hend.keepRegs (w := fun off => off = R.SEC_STAT) (by simp [F.SEC_STAT_result])
  obtain ⟨-, hmem, hnow, hhid, hresp, -⟩ := hend
  exact ⟨t, ht, hhid, hbusy, hkeep, hmem, hnow, hresp⟩

end

theorem completes_seal_unhealthy {p : Port} {v : Word} {s : State} (hl : Live p s R.SEC_SEAL_CMD = true) (hg : sealGate p s = 0) :
    Completes (.seal p v false) s (Sets [(F.SEC_STAT_result, 0x97)] s.hid s) := by
  refine completes_portGate hl rfl ?_ (by simp +decide)
  rw [Act.run, sealCmd_of_free (.inl rfl) hg, if_pos ⟨rfl, rfl⟩]
  exact Sets.setF F.SEC_STAT_result _ s

/-! ### Attest -/

def attCode (s : State) (rng : Bool) : Nat := if s.hid.boot.confirm ∨ secBusy s then 0x8B else if rng = false then 0x97 else 0

theorem run_attCmd (v : Word) (rng : Bool) (s : State) : (attCmd (v ||| 1#32) rng).run s =
    if attCode s rng ≠ 0 then (secCode (attCode s rng)).run s
    else (seq [setB F.SEC_ATT_CMD_go, secStart (.attest (wordsGet s R.SEC_ATT_NONCE 8))]).run s := by
  have hgo : (v ||| 1#32).getLsbD 0 = true := by simp
  unfold attCmd attCode
  rw [run_only, if_pos hgo]
  by_cases hb : s.hid.boot.confirm = true ∨ secBusy s = true
  · refine (congrArg (applyAll · s) (if_pos hb)).trans ?_
    rw [if_pos hb]
    exact (if_pos (by decide)).symm
  · refine (congrArg (applyAll · s) (if_neg hb)).trans ?_
    rw [if_neg hb]
    cases rng <;> rfl

theorem completes_attest {p : Port} {v : Word} {rng : Bool} {s : State} (hl : Live p s R.SEC_ATT_CMD = true) :
    (attCode s rng ≠ 0 → Completes (.attest p v rng) s (Sets [(F.SEC_STAT_result, attCode s rng)] s.hid s)) ∧
    (attCode s rng = 0 → Completes (.attest p v rng) s (Sets [(F.SEC_ATT_CMD_go, 1), (F.SEC_STAT_result, 0), (F.SEC_STAT_busy, 1)]
      (withBoot s { s.hid.boot with sec := some (.attest (wordsGet s R.SEC_ATT_NONCE 8)) }) s)) := by
  constructor
  · intro hc
    refine completes_portGate hl rfl ?_ (by simp +decide)
    rw [run_attCmd, if_pos hc]
    exact Sets.setF F.SEC_STAT_result _ s
  · intro hc
    refine completes_portGate hl rfl ?_ (by simp +decide)
    rw [run_attCmd, if_neg (not_not_intro hc), run_seq_cons, run_seq_cons, run_seq_nil]
    exact (Sets.setF F.SEC_ATT_CMD_go 1 s).trans (sets_secStart _ _)

/-! ### The random source -/

/-- A read with an operand of its own acts where it reaches a register that is no window of the recorder. -/
theorem run_readGate {p : Port} {off : Nat} {a : Act} {s : State} {r : RegAt} (hl : Live p s off = true) (hreg : regAt off = some r)
    (hrec : r.is R.REC_RD_DATA = false) : (readGate p off a).run s = a.run s := by
  unfold Live at hl
  rw [hreg, Bool.and_eq_true, Bool.and_eq_true] at hl
  obtain ⟨hfree, hlive, hheld⟩ := hl
  have hnow : readHeld off s = false := by
    unfold readHeld
    simp only [hreg]
    simpa using hheld
  have hword : (readWord p off s).2 = false := by
    unfold readWord
    simp only [hreg, hlive, hrec]
    rfl
  unfold readGate
  rw [Act.run, portAct_of_free p off false _ s hfree]
  simp only [hnow, hword]
  rfl

theorem run_rngReg {p : Port} {rng : Bool} {s : State} (hl : Live p s R.SEC_RNG = true) :
    (rngReg p rng).run s = (rngAct rng).run ((respond p [rngWord s rng] false).run s) := by
  obtain ⟨r, hreg, hrec⟩ : ∃ r, regAt R.SEC_RNG = some r ∧ r.is R.REC_RD_DATA = false := ⟨_, rfl, by decide⟩
  unfold rngReg
  rw [run_readGate hl hreg hrec]
  exact (run_seq_cons _ _ s).trans ((run_seq_cons _ _ _).trans (run_seq_nil _))

/-- What the read answers. -/
def rngResp (s : State) (rng : Bool) : PortResp := { data := [rngWord s rng], err := false }

theorem completes_rngRead {p : Port} {rng : Bool} {s : State} (hl : Live p s R.SEC_RNG = true) :
    Completes (.rngRead p rng) s (Sets (if rng then [] else [(F.SEC_EVENT_rng_fault, 1)]) s.hid
      { s with resp := s.resp.put {} (portIx p) (rngResp s rng) }) := by
  have hset : Sets (if rng then [] else [(F.SEC_EVENT_rng_fault, 1)]) s.hid { s with resp := s.resp.put {} (portIx p) (rngResp s rng) }
      ((rngReg p rng).run s) := by
    rw [run_rngReg hl]
    cases rng with
    | true => exact Sets.freshA _
    | false => exact Sets.setF F.SEC_EVENT_rng_fault 1 _
  have hmode : ((rngReg p rng).run s).mode = s.mode := hset.mode (by cases rng <;> simp +decide)
  exact ⟨_, finish_same _ _ hmode, hset.then_levelsFall⟩

end Sys2Proof.Machine
end

section
/-!
The ends of the operations of the security block (R464, R470, R472), and the theorem that settles O60.
-/

namespace Sys2Proof.Machine

/-! ### Bytes and words -/

theorem leBytes_leNat (l : List Byte) : leBytes l.length (leNat l) = l := by
  induction l with
  | nil => rfl
  | cons b l ih =>
    have hdiv : (b.toNat + 256 * leNat l) / 256 = leNat l := by have := b.isLt; omega
    rw [List.length_cons, leNat, leBytes, hdiv, ih]
    refine congrArg (· :: l) (BitVec.eq_of_toNat_eq ?_)
    rw [BitVec.toNat_ofNat]
    have := b.isLt
    omega

theorem leBytes_mod (n x : Nat) : leBytes n (x % 256 ^ n) = leBytes n x := by
  have h := leBytes_leNat (leBytes n x)
  rwa [length_leBytes, leNat_leBytes] at h

theorem leNat_lt (l : List Byte) : leNat l < 256 ^ l.length := by
  have h := leNat_leBytes l.length (leNat l)
  rw [leBytes_leNat] at h
  rw [h]
  exact Nat.mod_lt _ (Nat.pow_pos (by decide))

theorem length_wordsGet (s : State) (off : Nat → Nat) (n : Nat) : (wordsGet s off n).length = 4 * n := by
  unfold wordsGet
  rw [length_flatten_of_forall (k := 4), List.length_map, List.length_range]
  intro x hx
  obtain ⟨i, -, rfl⟩ := List.mem_map.1 hx
  exact length_leBytes 4 _

/-- Words put together from the bytes of a list give its bytes back. -/
theorem wordsGet_of_words {t : State} {off : Nat → Nat} {n : Nat} {bs : List Byte} (hlen : bs.length = 4 * n)
    (h : ∀ i < n, t.rd (off i) = BitVec.ofNat 32 (leNat ((bs.drop (4 * i)).take 4))) : wordsGet t off n = bs := by
  have hword : ∀ i < n, leBytes 4 (t.rd (off i)).toNat = (bs.drop (4 * i)).take 4 := by
    intro i hi
    have hfour : ((bs.drop (4 * i)).take 4).length = 4 := by rw [List.length_take, List.length_drop]; omega
    have hlt : leNat ((bs.drop (4 * i)).take 4) < 2 ^ 32 := (leNat_lt _).trans_eq (by rw [hfour]; norm_num)
    have hback := leBytes_leNat ((bs.drop (4 * i)).take 4)
    rw [hfour] at hback
    rw [h i hi, BitVec.toNat_ofNat, Nat.mod_eq_of_lt hlt, hback]
  have hall : ∀ m ≤ n, wordsGet t off m = bs.take (4 * m) := by
    intro m hm
    induction m with
    | zero => rw [Nat.mul_zero, List.take_zero]; rfl
    | succ m ih =>
      have hm' := ih (by omega)
      unfold wordsGet at hm' ⊢
      rw [List.range_succ, List.map_append, List.flatten_append, hm', Nat.mul_succ, List.take_add, ← hword m (by omega)]
      simp
  rw [hall n (Nat.le_refl n), ← hlen, List.take_length]

/-! ### A report -/

/-- A report before its nonce. -/
def attHead (s : State) : List Byte :=
  [0x48#8, 0x5A#8, 0x41#8, 0x54#8] ++ leBytes 4 1 ++ leBytes 4 (s.rd R.SYS_ID).toNat ++ leBytes 4 (s.rd R.SYS_REV).toNat ++
    leBytes 8 s.hid.otp.fw ++ leBytes 8 s.hid.otp.fg ++ wordsGet s R.BOOT_FW_HASH 16 ++
    (if s.force = 0 then List.replicate 64 0#8 else wordsGet s R.FING_HASH 16) ++
    if s.on F.BOOT_SET_STAT_active_ok then digestBytes (sha512 (halfBytes s (s.f F.BOOT_SET_STAT_active))) else List.replicate 64 0#8

/-- What follows it. -/
def attTail (s : State) : List Byte :=
  leBytes 8 s.now.toNat ++ leBytes 4 (s.mode + 16 * s.f F.SYS_PWR_STAT_state + 256 * s.role + 4096 * s.force) ++ leBytes 4 0

theorem attBody_eq (s : State) (nonce : List Byte) : attBody s nonce = attHead s ++ (nonce ++ attTail s) := by
  unfold attBody attHead attTail
  simp only [List.append_assoc]

theorem length_attHead (s : State) : (attHead s).length = 0xE0 := by
  have hforce : (if s.force = 0 then List.replicate 64 0#8 else wordsGet s R.FING_HASH 16).length = 64 := by
    split
    · exact List.length_replicate
    · exact length_wordsGet _ _ _
  have hhalf : (if s.on F.BOOT_SET_STAT_active_ok then digestBytes (sha512 (halfBytes s (s.f F.BOOT_SET_STAT_active)))
      else List.replicate 64 0#8).length = 64 := by
    split
    · exact length_leBytes 64 _
    · exact List.length_replicate
  unfold attHead
  simp only [List.length_append, length_leBytes, length_wordsGet, hforce, hhalf]
  rfl

theorem length_attTail (s : State) : (attTail s).length = 16 := by
  unfold attTail
  simp only [List.length_append, length_leBytes]

theorem length_attBody (s : State) {nonce : List Byte} (h : nonce.length = 32) : (attBody s nonce).length = 272 := by
  rw [attBody_eq, List.length_append, List.length_append, length_attHead, length_attTail, h]

theorem nonce_of_attBody (s : State) {nonce : List Byte} (h : nonce.length = 32) : ((attBody s nonce).drop 0xE0).take 32 = nonce := by
  rw [attBody_eq, List.drop_left' (length_attHead s), List.take_left' h]

theorem length_bytes66 (x : Nat) : (bytes66 x).length = 66 := by
  unfold bytes66
  rw [List.length_reverse, length_leBytes]

theorem length_idSign (digest : BitVec 512) (draw : Nat) : (idSign digest draw).length = 132 := by
  unfold idSign
  simp only [ecdsaSign, List.length_append, length_bytes66]

/-! ### The end of an operation -/

/-- What the blocks hold once it has ended. -/
def idleHid (s : State) : Hid := withBoot s { s.hid.boot with sec := none }

theorem run_secDone {s : State} {op : SecOp} (ok : Bool) (h : s.hid.boot.sec = some op) :
    ∃ u, Sets [(F.SEC_STAT_busy, 0)] (idleHid s) s u ∧ (secDone ok).run s = (secEffect op ok).run u := by
  have hrun : (secDone ok).run s = (seq [bootA (fun b => { b with sec := none }), clrB F.SEC_STAT_busy, secEffect op ok]).run s := by
    unfold Act.run
    simp only [secDone, h]
  rw [run_seq_cons, run_seq_cons, run_seq_cons, run_seq_nil, clrB_eq] at hrun
  exact ⟨_, ((Sets.refl s).then_hidA fun h => { h with boot := { h.boot with sec := none } }).then_setF _ _, hrun⟩

section
variable {s u : State} (hu : Sets [(F.SEC_STAT_busy, 0)] (idleHid s) s u)
include hu

theorem sramBytes_of_idle (a n : Nat) : sramBytes u a n = sramBytes s a n := by
  obtain ⟨-, ⟨-, -, hsram⟩, -⟩ := hu
  unfold sramBytes State.srByte
  rw [hsram]

theorem wordsGet_of_idle {off : Nat → Nat} {n : Nat} (hoff : ∀ i < n, F.SEC_STAT_busy.off ≠ off i) : wordsGet u off n = wordsGet s off n := by
  unfold wordsGet
  refine congrArg List.flatten (List.map_congr_left fun i hi => ?_)
  rw [hu.rd_of_ne fun x hx => by rw [List.mem_singleton.1 hx]; exact hoff i (List.mem_range.1 hi)]

/-- A report is of what the device was before the operation ended. -/
theorem attBody_of_idle (nonce : List Byte) : attBody u nonce = attBody s nonce := by
  have hfield : ∀ y : Fld, F.SEC_STAT_busy.off ≠ y.off → u.f y = s.f y := fun y hy =>
    hu.f_of_apart fun x hx => by rw [List.mem_singleton.1 hx]; exact .inl hy
  have hrd : ∀ off, F.SEC_STAT_busy.off ≠ off → u.rd off = s.rd off := fun off hy =>
    hu.rd_of_ne fun x hx => by rw [List.mem_singleton.1 hx]; exact hy
  have hfw := wordsGet_of_idle hu (off := R.BOOT_FW_HASH) (n := 16) fun i hi => by
    simp only [F.SEC_STAT_busy, R.SEC_STAT, R.BOOT_FW_HASH]
    omega
  have hfing := wordsGet_of_idle hu (off := R.FING_HASH) (n := 16) fun i hi => by
    simp only [F.SEC_STAT_busy, R.SEC_STAT, R.FING_HASH]
    omega
  have hhalf : ∀ b, halfBytes u b = halfBytes s b := fun b => by
    obtain ⟨-, ⟨-, hflash, -⟩, -, hhid, -⟩ := hu
    unfold halfBytes flashBytes State.flByte
    rw [hflash, hhid]
    rfl
  unfold attBody
  rw [hfw, hfing, hhalf, hrd R.SYS_ID (by decide), hrd R.SYS_REV (by decide), hu.hid_eq, hu.now_eq]
  simp only [State.on, State.force, State.mode, State.role, hfield _ (show F.SEC_STAT_busy.off ≠ F.BOOT_SET_STAT_active_ok.off by decide),
    hfield _ (show F.SEC_STAT_busy.off ≠ F.BOOT_SET_STAT_active.off by decide), hfield _ (show F.SEC_STAT_busy.off ≠ F.FING_STAT_force.off by decide),
    hfield _ (show F.SEC_STAT_busy.off ≠ F.SYS_MODE_STAT_mode.off by decide), hfield _ (show F.SEC_STAT_busy.off ≠ F.SYS_MODE_STAT_role.off by decide),
    hfield _ (show F.SEC_STAT_busy.off ≠ F.SYS_PWR_STAT_state.off by decide)]
  rfl

end

section
variable {s : State} {op : SecOp} (hsec : s.hid.boot.sec = some op)
include hsec

/-- An operation that changes registers and what the blocks hold alone. -/
theorem completes_secDone {ok : Bool} {l : List (Fld × Nat)} {h : Hid}
    (heffect : ∀ u, Sets [(F.SEC_STAT_busy, 0)] (idleHid s) s u → Sets ((F.SEC_STAT_busy, 0) :: l) h s ((secEffect op ok).run u))
    (hl : ∀ x ∈ l, x.1.off ≠ R.SYS_MODE_STAT) : Completes (.secOperationDone ok) s (Sets ((F.SEC_STAT_busy, 0) :: l) h s) := by
  obtain ⟨u, hu, hrun⟩ := run_secDone ok hsec
  refine completes_sets (a := secDone ok) (by rw [hrun]; exact heffect u hu) (fun x hx => ?_) rfl
  obtain rfl | hx := List.mem_cons.1 hx
  · decide
  · exact hl x hx

end

/-- One that writes the SRAM. -/
theorem completes_secDone_sram {s : State} {ok : Bool} {a : Nat} {bs : List Byte} {w : State} (hw : w.sram = s.sram)
    (hset : Sets [(F.SEC_STAT_busy, 0), (F.SEC_EVENT_seal_done, 1)] (idleHid s) { s with sram := ((sramWrite a bs).run w).sram }
      ((secDone ok).run s)) :
    Completes (.secOperationDone ok) s fun t => SramHolds t a bs ∧ (∀ k, (k < a ∨ a + bs.length ≤ k) → t.srByte k = s.srByte k) ∧
      t.on F.SEC_EVENT_seal_done = true ∧ t.on F.SEC_STAT_busy = false ∧ t.hid = idleHid s := by
  have hmode : ((secDone ok).run s).mode = s.mode := hset.mode (by simp +decide)
  have hend := hset.then_levelsFall
  have hfields : DisjointFields [(F.SEC_STAT_busy, 0), (F.SEC_EVENT_seal_done, 1)] := by
    refine ⟨?_, ?_⟩
    · simp [F.SEC_STAT_busy, F.SEC_EVENT_seal_done]
    · simp [Clear, F.SEC_STAT_busy, F.SEC_EVENT_seal_done, R.SEC_STAT, R.SEC_EVENT]
  have hsram : (levelsFall.run ((secDone ok).run s)).sram = ((sramWrite a bs).run w).sram := by
    obtain ⟨-, ⟨-, -, h⟩, -⟩ := hend
    exact h
  refine ⟨_, finish_same _ _ hmode, sramHolds_sramWrite hsram, fun k hk => ?_, Sets.on_of_disjoint hfields hend (.tail _ (.head _)) rfl,
    Sets.on_of_disjoint hfields hend (.head _) rfl, hend.hid_eq⟩
  have hbyte := srByte_run_sramWrite a k bs w
  rw [if_neg (by omega)] at hbyte
  unfold State.srByte at hbyte ⊢
  rw [hsram, hbyte, hw]

theorem length_sramBytes (s : State) (a n : Nat) : (sramBytes s a n).length = n := by simp [sramBytes]

theorem length_gcmTag (ks : List (List Byte)) (nonce aad c : List Byte) : (gcmTag ks nonce aad c).length ≤ 16 := by
  unfold gcmTag
  rw [length_xorBytes, List.length_reverse, length_leBytes]
  exact Nat.min_le_left _ _

theorem length_gcmSeal (nonce body : List Byte) :
    (gcmSeal settingsKey nonce [] body).1.length = body.length ∧ (gcmSeal settingsKey nonce [] body).2.length ≤ 16 := by
  rw [gcmSeal]
  exact ⟨length_gcmStream length_settingsKey nonce body, length_gcmTag _ _ _ _⟩

/-- What a seal writes. -/
def sealedBytes (s : State) (nonce : List Byte) (a n : Nat) : List Byte :=
  (gcmSeal settingsKey nonce [] (sramBytes s a n)).1 ++ nonce ++ (gcmSeal settingsKey nonce [] (sramBytes s a n)).2

theorem length_sealedBytes (s : State) {nonce : List Byte} (h : nonce.length = 12) (a n : Nat) : (sealedBytes s nonce a n).length ≤ n + 28 := by
  obtain ⟨hbody, htag⟩ := length_gcmSeal nonce (sramBytes s a n)
  rw [length_sramBytes] at hbody
  rw [sealedBytes, List.length_append, List.length_append, hbody, h]
  omega

/-- The nonce of a seal that ends in `s`. -/
def sealNonce (s : State) : BitVec 96 := BitVec.ofNat 96 (Config.freeRandom s.fresh).toNat

theorem leBytes_sealNonce (s : State) : leBytes 12 (sealNonce s).toNat = leBytes 12 (Config.freeRandom s.fresh).toNat := by
  rw [sealNonce, BitVec.toNat_ofNat, ← leBytes_mod 12 (Config.freeRandom s.fresh).toNat]
  norm_num

theorem run_secEffect_seal (a n : Nat) (ok : Bool) (u : State) : (secEffect (.seal a n) ok).run u =
    (setF F.SEC_EVENT_seal_done 1).run ((sramWrite a (sealedBytes u (leBytes 12 (sealNonce u).toNat) a n)).run (freshA.run u)) := by
  unfold secEffect
  rw [run_fun]
  rw [run_seq_cons, run_seq_cons, run_seq_cons, run_seq_nil, leBytes_sealNonce, sealedBytes, setB_eq]

theorem completes_seal_done {s : State} {a n : Nat} (ok : Bool) (hsec : s.hid.boot.sec = some (.seal a n)) :
    Completes (.secOperationDone ok) s fun t => (∃ nonce : BitVec 96, SramHolds t a (sealedBytes s (leBytes 12 nonce.toNat) a n)) ∧
      (∀ k, (k < a ∨ a + n + 28 ≤ k) → t.srByte k = s.srByte k) ∧ t.on F.SEC_EVENT_seal_done = true ∧ t.on F.SEC_STAT_busy = false ∧
      t.hid = idleHid s := by
  obtain ⟨u, hu, hrun⟩ := run_secDone ok hsec
  have hbytes : sealedBytes u (leBytes 12 (sealNonce u).toNat) a n = sealedBytes s (leBytes 12 (sealNonce u).toNat) a n := by
    rw [sealedBytes, sramBytes_of_idle hu, sealedBytes]
  rw [run_secEffect_seal, hbytes] at hrun
  have hfresh := hu.then_freshA
  have hstart : (freshA.run u).sram = s.sram := by
    obtain ⟨-, ⟨-, -, h⟩, -⟩ := id hfresh
    exact h
  have hset := (hfresh.with_sram ((sramWrite a (sealedBytes s (leBytes 12 (sealNonce u).toNat) a n)).run (freshA.run u)).sram).then_setF
    F.SEC_EVENT_seal_done 1
  rw [← run_sramWrite, ← hrun] at hset
  obtain ⟨t, ht, hholds, hrest, hdone, hbusy, hhid⟩ := completes_secDone_sram hstart hset
  have hlen := length_sealedBytes s (length_leBytes 12 (sealNonce u).toNat) a n
  exact ⟨t, ht, ⟨sealNonce u, hholds⟩, fun k hk => hrest k (by omega), hdone, hbusy, hhid⟩

/-- A body that opens takes its place. -/
theorem completes_unseal_done {s : State} {a n : Nat} {b : List Byte} (ok : Bool) (hsec : s.hid.boot.sec = some (.unseal a n))
    (hopen : openBody (sramBytes s a (n + 28)) n = some b) : Completes (.secOperationDone ok) s fun t => SramHolds t a b ∧
      (∀ k, (k < a ∨ a + b.length ≤ k) → t.srByte k = s.srByte k) ∧ t.on F.SEC_EVENT_seal_done = true ∧ t.on F.SEC_STAT_busy = false ∧
      t.hid = idleHid s := by
  obtain ⟨u, hu, hsecDone⟩ := run_secDone ok hsec
  have hdone := hu.then_setF F.SEC_EVENT_seal_done 1
  have hstart : ((setF F.SEC_EVENT_seal_done 1).run u).sram = s.sram := by
    obtain ⟨-, ⟨-, -, h⟩, -⟩ := id hdone
    exact h
  have hrun : (secEffect (.unseal a n) ok).run u = (sramWrite a b).run ((setF F.SEC_EVENT_seal_done 1).run u) := by
    rw [← sramBytes_of_idle hu] at hopen
    unfold secEffect
    rw [run_fun, run_seq_cons, run_seq_cons, run_seq_nil, hopen, setB_eq]
  refine completes_secDone_sram hstart ?_
  rw [hsecDone, hrun, run_sramWrite]
  exact hdone.with_sram _

theorem completes_unseal_failed {s : State} {a n : Nat} (ok : Bool) (hsec : s.hid.boot.sec = some (.unseal a n))
    (hopen : openBody (sramBytes s a (n + 28)) n = none) : Completes (.secOperationDone ok) s
      (Sets [(F.SEC_STAT_busy, 0), (F.SEC_EVENT_seal_done, 1), (F.SEC_STAT_result, 0x96)] (idleHid s) s) := by
  refine completes_secDone hsec (fun u hu => ?_) (by simp +decide)
  rw [← sramBytes_of_idle hu] at hopen
  unfold secEffect
  rw [run_fun, run_seq_cons, run_seq_cons, run_seq_nil, hopen, setB_eq]
  exact (hu.then_setF _ _).then_setF _ _

/-- An OTP operation that succeeds changes the store by `g`, and one that fails shows 0x92. -/
theorem completes_otp_done {s : State} {op : SecOp} {g : OtpSt → OtpSt} (hsec : s.hid.boot.sec = some op)
    (heffect : ∀ ok u, (secEffect op ok).run u = (seq [setB F.SEC_EVENT_otp_done, if ok then otpA g else secCode 0x92]).run u) :
    Completes (.secOperationDone true) s
      (Sets [(F.SEC_STAT_busy, 0), (F.SEC_EVENT_otp_done, 1)] { idleHid s with otp := g s.hid.otp } s) ∧
    Completes (.secOperationDone false) s (Sets [(F.SEC_STAT_busy, 0), (F.SEC_EVENT_otp_done, 1), (F.SEC_STAT_result, 0x92)] (idleHid s) s) := by
  constructor
  · refine completes_secDone hsec (fun u hu => ?_) (by simp +decide)
    rw [heffect, run_seq_cons, run_seq_cons, run_seq_nil, setB_eq]
    exact (hu.then_setF F.SEC_EVENT_otp_done 1).then_hidA _
  · refine completes_secDone hsec (fun u hu => ?_) (by simp +decide)
    rw [heffect, run_seq_cons, run_seq_cons, run_seq_nil, setB_eq]
    exact (hu.then_setF F.SEC_EVENT_otp_done 1).then_setF _ _

/-- The fields that a report sets, beside the buffer's words. -/
def attFields : List (Fld × Nat) := [(F.SEC_STAT_busy, 0), (F.SEC_ATT_CMD_go, 0), (F.SEC_EVENT_att_done, 1)]

theorem disjointFields_att : DisjointFields attFields := by
  refine ⟨?_, ?_⟩
  · simp [attFields, F.SEC_STAT_busy, F.SEC_ATT_CMD_go, F.SEC_EVENT_att_done]
  · simp [attFields, Clear, F.SEC_STAT_busy, F.SEC_ATT_CMD_go, F.SEC_EVENT_att_done, R.SEC_STAT, R.SEC_ATT_CMD, R.SEC_EVENT]

/-- The buffer's words lie in none of their registers. -/
theorem off_ne_attBuf {y : Fld × Nat} (hy : y ∈ attFields) (i : Nat) : y.1.off ≠ R.SEC_ATT_BUF i := by
  simp only [attFields, List.mem_cons, List.not_mem_nil, or_false] at hy
  obtain rfl | rfl | rfl := hy <;>
    simp only [F.SEC_STAT_busy, F.SEC_ATT_CMD_go, F.SEC_EVENT_att_done, R.SEC_STAT, R.SEC_ATT_CMD, R.SEC_EVENT, R.SEC_ATT_BUF] <;> omega

/-- All that it sets. -/
def attReport (bs : List Byte) : List (Fld × Nat) :=
  [(F.SEC_STAT_busy, 0)] ++ wordFields R.SEC_ATT_BUF 101 bs ++ [(F.SEC_ATT_CMD_go, 0), (F.SEC_EVENT_att_done, 1)]

theorem mem_attReport {bs : List Byte} {x : Fld × Nat} : x ∈ attReport bs ↔ x ∈ wordFields R.SEC_ATT_BUF 101 bs ∨ x ∈ attFields := by
  simp only [attReport, attFields, List.mem_append, List.mem_cons, List.not_mem_nil, or_false]
  tauto

theorem beside_report (bs : List Byte) : Beside attFields (attReport bs) := fun x hx => by
  obtain hx | hx := mem_attReport.1 hx
  · obtain ⟨i, -, hoff⟩ := off_of_mem_wordFields hx
    exact .inr fun y hy he => off_ne_attBuf hy i (he.symm.trans hoff)
  · exact .inl hx

/-- The bytes of a report signed in `s`. -/
def reportBytes (s : State) (nonce : List Byte) (draw : Nat) : List Byte := attBody s nonce ++ idSign (sha512 (attBody s nonce)) draw

theorem length_reportBytes (s : State) {nonce : List Byte} (hn : nonce.length = 32) (draw : Nat) : (reportBytes s nonce draw).length = 4 * 101 := by
  rw [reportBytes, List.length_append, length_attBody s hn, length_idSign]

theorem sets_report {s : State} {nonce : List Byte} (ok : Bool) (hsec : s.hid.boot.sec = some (.attest nonce)) :
    ∃ draw, Sets (attReport (reportBytes s nonce draw)) (idleHid s) s ((secDone ok).run s) := by
  obtain ⟨u, hu, hrun⟩ := run_secDone ok hsec
  refine ⟨Config.freeScalar u.fresh, ?_⟩
  have heffect : (secEffect (.attest nonce) ok).run u = (setF F.SEC_EVENT_att_done 1).run ((setF F.SEC_ATT_CMD_go 0).run
      ((wordsPut R.SEC_ATT_BUF 101 (reportBytes u nonce (Config.freeScalar u.fresh))).run (freshA.run u))) := by
    unfold secEffect
    rw [run_fun]
    rw [run_seq_cons, run_seq_cons, run_seq_cons, run_seq_cons, run_seq_nil, reportBytes, setB_eq, clrB_eq]
  have hbytes : reportBytes u nonce (Config.freeScalar u.fresh) = reportBytes s nonce (Config.freeScalar u.fresh) := by
    rw [reportBytes, attBody_of_idle hu, reportBytes]
  rw [hrun, heffect, hbytes]
  refine (((hu.then_freshA.then_keep (sets_wordsPut _ _ _ _)).then_setF F.SEC_ATT_CMD_go 0).then_setF F.SEC_EVENT_att_done 1).cast ?_ rfl
  rw [attReport, List.append_assoc, List.append_assoc, List.append_assoc]
  rfl

/-- A report ends with its signature. -/
theorem completes_attest_done {s : State} {nonce : List Byte} (ok : Bool) (hsec : s.hid.boot.sec = some (.attest nonce)) (hn : nonce.length = 32) :
    Completes (.secOperationDone ok) s fun t =>
      (∃ draw, wordsGet t R.SEC_ATT_BUF 101 = attBody s nonce ++ idSign (sha512 (attBody s nonce)) draw) ∧ t.on F.SEC_ATT_CMD_go = false ∧
      t.on F.SEC_EVENT_att_done = true ∧ t.on F.SEC_STAT_busy = false ∧ t.hid = idleHid s ∧ SameMem s t ∧ t.now = s.now := by
  obtain ⟨draw, hset⟩ := sets_report ok hsec
  have hmode : ∀ x ∈ attReport (reportBytes s nonce draw), x.1.off ≠ R.SYS_MODE_STAT := fun x hx => by
    obtain hx | hx := mem_attReport.1 hx
    · obtain ⟨i, -, hoff⟩ := off_of_mem_wordFields hx
      simp only [hoff, R.SEC_ATT_BUF, R.SYS_MODE_STAT]
      omega
    · simp only [attFields, List.mem_cons, List.not_mem_nil, or_false] at hx
      obtain rfl | rfl | rfl := hx <;> decide
  obtain ⟨t, ht, hend⟩ := completes_sets (c := .secOperationDone ok) hset hmode rfl
  have hon : ∀ y v, (y, v) ∈ attFields → y.hi = y.lo → t.on y = decide (v % 2 = 1) := fun y v hy hbit =>
    Sets.on_of_core disjointFields_att (beside_report _) hend (mem_attReport.2 (.inr hy)) hy hbit
  have hwords : wordsGet t R.SEC_ATT_BUF 101 = reportBytes s nonce draw := by
    refine wordsGet_of_words (length_reportBytes s hn draw) fun i hi => ?_
    refine Sets.rd_of_wordFields (off := R.SEC_ATT_BUF) (n := 101) hend hi (fun j hj => ?_) (fun x hx => mem_attReport.2 (.inl hx)) fun x hx =>
      (mem_attReport.1 hx).imp_right fun hx => off_ne_attBuf hx i
    simp only [R.SEC_ATT_BUF] at hj
    omega
  have hgo := hon F.SEC_ATT_CMD_go 0 (.tail _ (.head _)) rfl
  have hdone := hon F.SEC_EVENT_att_done 1 (.tail _ (.tail _ (.head _))) rfl
  have hbusy := hon F.SEC_STAT_busy 0 (.head _) rfl
  obtain ⟨-, hmem, hnow, hhid, -⟩ := hend
  exact ⟨t, ht, ⟨draw, hwords⟩, hgo, hdone, hbusy, hhid, hmem, hnow⟩

/-- Settles O60. -/
theorem securityOperationsAreGuardedAndEnd : Obligations.SecurityOperationsAreGuardedAndEnd := by
  unfold Obligations.SecurityOperationsAreGuardedAndEnd
  refine ⟨⟨?_, ?_, ?_⟩, fun nonce body => gcmOpen_gcmSeal length_settingsKey nonce [] body, ?_⟩
  · intro s p v rng hl a n fits gate begins
    refine ⟨fun hg => ⟨completes_seal_refused hl (.inl rfl) rfl hg, completes_seal_refused hl (.inr rfl) rfl hg⟩, ?_, ?_, ?_⟩
    · rintro hg rfl
      exact completes_seal_unhealthy hl hg
    · exact fun hg hfit => ⟨fun hrng => completes_seal_begins hl (.inl rfl) rfl hg (fun _ => hrng) hfit,
        completes_seal_begins hl (.inr rfl) rfl hg (fun h => absurd h (by decide)) hfit⟩
    · exact fun hg hfit => ⟨fun hrng => completes_seal_unfit hl (.inl rfl) rfl hg (fun _ => hrng) hfit,
        completes_seal_unfit hl (.inr rfl) rfl hg (fun h => absurd h (by decide)) hfit⟩
  · exact fun s p v rng hl => completes_attest hl
  · intro s p hl
    obtain ⟨t, ht, hend⟩ := completes_rngRead (rng := true) hl
    obtain ⟨u, hu, hfault⟩ := completes_rngRead (rng := false) hl
    refine ⟨⟨t, ht, ?_⟩, u, hu, hfault.resp_get, hfault.on_of_mem (.head _) (by simp) rfl (by decide), hfault.hid_eq,
      hfault.keepRegs (s := { s with resp := s.resp.put {} (portIx p) (rngResp s false) }) (by simp [F.SEC_EVENT_rng_fault])⟩
    have hget := hend.resp_get
    exact ⟨by rw [hget]; rfl, by rw [hget]; rfl, hend.hid_eq, fun off => hend.rd_of_ne (by simp)⟩
  · intro s op hsec idle
    refine ⟨?_, ?_, ?_, ?_, ?_⟩
    · rintro i h rfl
      exact completes_otp_done hsec fun _ _ => rfl
    · rintro i rfl
      exact completes_otp_done hsec fun _ _ => rfl
    · rintro a n ok rfl
      exact completes_seal_done ok hsec
    · rintro a n ok rfl
      cases hopen : openBody (sramBytes s a (n + 28)) n with
      | none =>
        obtain ⟨t, ht, hend⟩ := completes_unseal_failed ok hsec hopen
        exact ⟨t, ht, fun _ => hend, fun b h => absurd h (by simp)⟩
      | some b =>
        obtain ⟨t, ht, hholds, hrest, hdone, -, hhid⟩ := completes_unseal_done ok hsec hopen
        refine ⟨t, ht, fun h => absurd h (by simp), fun b' hb hlen => ?_⟩
        obtain rfl := Option.some.inj hb
        exact ⟨hholds, fun k hk => hrest k (by omega), hdone, hhid⟩
    · rintro nonce ok rfl hn
      obtain ⟨t, ht, hbuf, hgo, hdone, hbusy, hhid, hmem, hnow⟩ := completes_attest_done ok hsec hn
      exact ⟨t, ht, hbuf, nonce_of_attBody s hn, hgo, hdone, hbusy, hhid, hmem, hnow⟩

end Sys2Proof.Machine
end

section
/-!
What the Drone's evaluation, a change of mode and a departure leave as it is: the registers of boot and update, the memories, what the boot
block holds, and that the Core die is powered; and that they take the device to no mode but HALT.  One fact, shown block by block.
-/

namespace Sys2Proof.Machine

/-! ### What is kept -/

/-- The registers that are kept. -/
def Held (off : Nat) : Prop := 0x200000 ≤ off ∨ off = R.CHNT_STAT

/-- From `s` to `t` these are kept, and the mode, but for a HALT where `halts` allows one. -/
structure Keeps (halts : Bool) (s t : State) : Prop where
  regs : ∀ off, Held off → t.rd off = s.rd off
  mode : t.mode = s.mode ∨ halts = true ∧ t.mode = HALT
  lpddr : t.lpddr = s.lpddr
  sram : t.sram = s.sram
  now : t.now = s.now
  boot : t.hid.boot = s.hid.boot
  up : t.up = s.up
  test : t.hid.chnt.test = s.hid.chnt.test

section
variable {halts : Bool} {s t u : State}

theorem Keeps.refl (halts : Bool) (s : State) : Keeps halts s s := ⟨fun _ _ => rfl, .inl rfl, rfl, rfl, rfl, rfl, rfl, rfl⟩

theorem Keeps.trans (h : Keeps halts s t) (h' : Keeps halts t u) : Keeps halts s u where
  regs off hoff := (h'.regs off hoff).trans (h.regs off hoff)
  mode := h'.mode.elim (fun he => h.mode.imp he.trans fun ⟨hh, hm⟩ => ⟨hh, he.trans hm⟩) .inr
  lpddr := h'.lpddr.trans h.lpddr
  sram := h'.sram.trans h.sram
  now := h'.now.trans h.now
  boot := h'.boot.trans h.boot
  up := h'.up.trans h.up
  test := h'.test.trans h.test

theorem Keeps.may (h : Keeps false s t) : Keeps halts s t :=
  { h with mode := .inl (h.mode.resolve_right fun hh => Bool.false_ne_true hh.1) }

theorem Keeps.f_eq (h : Keeps halts s t) {y : Fld} (hy : Held y.off) : t.f y = s.f y := congrArg y.get (h.regs _ hy)

theorem Keeps.on_eq (h : Keeps halts s t) {y : Fld} (hy : Held y.off) : t.on y = s.on y := by rw [State.on, h.f_eq hy]; rfl

end

/-- The updates, made in `s`, keep these and the flash. -/
def RestAt (halts : Bool) (s : State) (us : List Upd) : Prop := Keeps halts s (applyAll us s) ∧ (applyAll us s).flash = s.flash

/-- The updates of the action do, in whatever state. -/
def Rests (halts : Bool) (a : Act) : Prop := ∀ s, RestAt halts s (a s)

/-- Each of the actions does. -/
@[reducible] def RestEach (halts : Bool) : List Act → Prop
  | [] => True
  | a :: l => Rests halts a ∧ RestEach halts l

/-! ### The combinators -/

section
variable {halts : Bool} {s : State}

theorem Rests.keeps {a : Act} (h : Rests halts a) (s : State) : Keeps halts s (a.run s) := (h s).1

theorem Rests.flash {a : Act} (h : Rests halts a) (s : State) : (a.run s).flash = s.flash := (h s).2

theorem RestAt.nil : RestAt halts s [] := ⟨.refl _ s, rfl⟩

theorem RestAt.append {us vs : List Upd} (h : RestAt halts s us) (h' : RestAt halts (applyAll us s) vs) : RestAt halts s (us ++ vs) := by
  obtain ⟨hk, hf⟩ := h
  obtain ⟨hk', hf'⟩ := h'
  unfold RestAt
  rw [applyAll_append]
  exact ⟨hk.trans hk', hf'.trans hf⟩

theorem RestAt.ite {c : Prop} [Decidable c] {us vs : List Upd} (h : RestAt halts s us) (h' : RestAt halts s vs) :
    RestAt halts s (if c then us else vs) := by
  split
  · exact h
  · exact h'

/-- An action written out over the state that it reads. -/
theorem RestAt.of {a : Act} (h : Rests halts a) : RestAt halts s (a s) := h s

theorem Rests.ite {c : Prop} [Decidable c] {a b : Act} (h : Rests halts a) (h' : Rests halts b) : Rests halts (if c then a else b) := by
  split
  · exact h
  · exact h'

theorem Rests.may {a : Act} (h : Rests false a) : Rests halts a := fun s => ⟨(h s).1.may, (h s).2⟩

theorem Rests.nop : Rests halts nop := fun _ => .nil

theorem Rests.seq {l : List Act} (h : RestEach halts l) : Rests halts (seq l) := by
  induction l with
  | nil => exact .nop
  | cons a l ih =>
    obtain ⟨ha, hl⟩ := h
    exact fun s => .append (ha s) (ih hl _)

theorem RestAt.seq {l : List Act} (h : RestEach halts l) : RestAt halts s (seq l s) := Rests.seq h s

theorem Rests.whenA {c : State → Bool} {a : Act} (h : Rests halts a) : Rests halts (whenA c a) := fun s => .ite (h s) .nil

theorem Rests.cond {c : State → Bool} {a b : Act} (h : Rests halts a) (h' : Rests halts b) : Rests halts (cond c a b) := fun s => .ite (h s) (h' s)

theorem Rests.only {c : Bool} {a : Act} (h : Rests halts a) : Rests halts (only c a) := .ite h .nop

theorem Rests.withS {k : State → Act} (h : ∀ s, Rests halts (k s)) : Rests halts (withS k) := fun s => h s s

theorem Rests.forEach {α : Type} {l : List α} {a : α → Act} (h : ∀ x ∈ l, Rests halts (a x)) : Rests halts (forEach l a) := by
  refine .seq ?_
  induction l with
  | nil => trivial
  | cons x l ih => exact ⟨h x List.mem_cons_self, ih fun y hy => h y (List.mem_cons_of_mem x hy)⟩

theorem RestAt.forEach {α : Type} {l : List α} {a : α → Act} (h : ∀ x ∈ l, Rests halts (a x)) : RestAt halts s (forEach l a s) :=
  Rests.forEach h s

/-! ### Writes -/

/-- Beside the mode's word, the registers that may be written. -/
@[reducible] def Quiet (off : Nat) : Prop := off ≠ R.SYS_MODE_STAT ∧ off ≠ R.CHNT_STAT ∧ off < 0x200000

/-- A field of one of these, or one of the mode's word beside the mode. -/
@[reducible] def Calm (x : Fld) : Prop := Quiet x.off ∨ x.off = R.SYS_MODE_STAT ∧ x.lo ≤ x.hi ∧ x.hi ≤ 31 ∧ 2 < x.lo

/-- A register of the blocks whose registers are indexed, with `k` below the end of these. -/
def Mid (k off : Nat) : Prop := (Nat.ble 0x1000 off && Nat.ble (off + k) 0x1BFFFF) = true

/-- The offset of an indexed register is a base with multiples of its indices added. -/
theorem Mid.add {k m b i : Nat} (hi : i ≤ m) (h : Mid (k + m) b) : Mid k (b + i) := by
  simp only [Mid, Bool.and_eq_true, Nat.ble_eq] at h ⊢
  omega

theorem Mid.quiet {off : Nat} (h : Mid 0 off) : Quiet off := by
  simp only [Mid, Bool.and_eq_true, Nat.ble_eq] at h
  simp only [Quiet, R.SYS_MODE_STAT, R.CHNT_STAT]
  omega

theorem Quiet.not_held {off : Nat} (h : Quiet off) : ¬ Held off := by
  obtain ⟨-, hchnt, hlt⟩ := h
  exact fun hh => hh.elim (fun hge => absurd hlt (not_lt.2 hge)) hchnt

theorem Rests.setW {off : Nat} {v : Word} (h : Quiet off) : Rests halts (setW off v) := fun s =>
  ⟨⟨fun o ho => (run_setW_rd off o v s).trans (if_neg fun he : o = off => h.not_held (he ▸ ho)), .inl (run_setW_mode_of_ne off v s h.1),
    rfl, rfl, rfl, rfl, rfl, rfl⟩, rfl⟩

theorem Rests.setF {x : Fld} {v : Nat} (h : Calm x) : Rests halts (setF x v) := by
  intro s
  have hheld : ¬ Held x.off := h.elim Quiet.not_held fun ⟨he, _⟩ => by
    rw [he]
    simp +decide [Held]
  have hmode : ((Machine.setF x v).run s).mode = s.mode := by
    refine (Sets.setF x v s).f_of_apart (y := F.SYS_MODE_STAT_mode) fun z hz => ?_
    rw [List.mem_singleton.1 hz]
    exact h.imp (fun hq => hq.1) fun ⟨_, hlo, hhi, hgt⟩ => ⟨hlo, hhi, .inr hgt⟩
  exact ⟨⟨fun o ho => (run_setF_rd x v o s).trans (if_neg fun he : o = x.off => hheld (he ▸ ho)), .inl hmode, rfl, rfl, rfl, rfl, rfl, rfl⟩, rfl⟩

theorem Rests.setF_mid {x : Fld} {v : Nat} (h : Mid 0 x.off) : Rests halts (Machine.setF x v) := .setF (.inl h.quiet)

theorem Rests.set64 {off : Nat} {v : BitVec 64} (h : Quiet off) (h' : Quiet (off + 4)) : Rests halts (set64 off v) := fun s =>
  RestAt.append (Rests.setW h s) (Rests.setW h' _)

theorem Rests.set64_mid {off : Nat} {v : BitVec 64} (h : Mid 4 off) : Rests halts (Machine.set64 off v) :=
  .set64 (Mid.quiet (by simp only [Mid, Bool.and_eq_true, Nat.ble_eq] at h ⊢; omega)) (Mid.quiet (Mid.add (k := 0) (m := 4) (Nat.le_refl 4) h))

theorem Rests.orW {off : Nat} {m : Word} (h : Quiet off) : Rests halts (orW off m) := fun s => Rests.setW (v := s.rd off ||| m) h s

theorem Rests.bump {off : Nat} (h : Quiet off) : Rests halts (bump off) := fun s =>
  .ite (Rests.setW (v := s.rd off ||| 0x80000000#32) h s) (Rests.setW (v := s.rd off + 1#32) h s)

theorem Rests.hidA {g : Hid → Hid} (hboot : ∀ h, (g h).boot = h.boot) (hst : ∀ h, (g h).pwr.st = h.pwr.st)
    (hheld : ∀ h, (g h).pwr.held = h.pwr.held) (htest : ∀ h, (g h).chnt.test = h.chnt.test) : Rests halts (hidA g) := fun s =>
  ⟨⟨fun _ _ => rfl, .inl rfl, rfl, rfl, rfl, hboot _, by
    show State.up { s with hid := g s.hid } = s.up
    simp only [State.up, hst, hheld], htest _⟩, rfl⟩

/-- What a block beside boot, power and the Chanter holds changes. -/
theorem Rests.beside {g : Hid → Hid} (h : ∀ h, ((g h).boot, (g h).pwr, (g h).chnt) = (h.boot, h.pwr, h.chnt)) : Rests halts (Machine.hidA g) := by
  have hparts : ∀ h', (g h').boot = h'.boot ∧ (g h').pwr = h'.pwr ∧ (g h').chnt = h'.chnt := fun h' => by
    simpa only [Prod.mk.injEq] using h h'
  exact .hidA (fun h' => (hparts h').1) (fun h' => congrArg PwrSt.st (hparts h').2.1) (fun h' => congrArg PwrSt.held (hparts h').2.1)
    fun h' => congrArg ChntSt.test (hparts h').2.2

theorem Rests.pwrA {g : PwrSt → PwrSt} (h : ∀ p, ((g p).st, (g p).held) = (p.st, p.held)) : Rests halts (pwrA g) :=
  .hidA (fun _ => rfl) (fun h' => congrArg Prod.fst (h h'.pwr)) (fun h' => congrArg Prod.snd (h h'.pwr)) fun _ => rfl

theorem Rests.freshA : Rests halts freshA := fun _ => ⟨⟨fun _ _ => rfl, .inl rfl, rfl, rfl, rfl, rfl, rfl, rfl⟩, rfl⟩

theorem Rests.levelsFall : Rests halts levelsFall := by
  intro s
  show Keeps halts s (Machine.levelsFall.run s) ∧ (Machine.levelsFall.run s).flash = s.flash
  rw [run_levelsFall]
  exact ⟨⟨fun _ _ => rfl, .inl rfl, rfl, rfl, rfl, rfl, rfl, rfl⟩, rfl⟩

end

theorem mul_le_last {i n : Nat} (h : i ≤ n) (k : Nat) : i * k ≤ n * k := Nat.mul_le_mul_right k h

end Sys2Proof.Machine
end

section
/-!
That fact for the blocks that the Drone's evaluation, a change of mode and a departure reach.
-/

namespace Sys2Proof.Machine

section
variable {halts : Bool}

/-! ### Trip matrix -/

theorem rests_recSend (m : Nat) : Rests halts (recSend m) := .whenA (.beside fun _ => rfl)

theorem rests_pinStamp (was : State) (l : List Nat) : Rests halts (pinStamp was l) := fun _ => .forEach fun _ _ => .beside fun _ => rfl

theorem rests_forceOnReady (n : Nat) : Rests halts (forceOnReady n) := .whenA (.beside fun _ => rfl)

theorem rests_tripResolve {d : Nat} (hd : d ≤ 1) (atZero : Bool) : Rests halts (tripResolve d atZero) := by
  have hdie := mul_le_last hd 0x10000
  refine .whenA fun _ => .seq ⟨.forEach fun w hw => .setW (Mid.quiet ?_), .setF_mid (.add hdie rfl), .setF_mid (.add hdie rfl),
    .setF_mid (.add hdie rfl), .only (.seq ⟨.setF_mid (.add hdie rfl), rests_recSend 1, trivial⟩), .only (.setF_mid (.add hdie rfl)),
    .only (.seq ⟨.setF_mid (.add hdie rfl), .forEach fun _ _ => .bump (Mid.quiet (.add hdie rfl)), trivial⟩), .beside fun _ => rfl,
    rests_pinStamp _ _, .forEach fun _ _ => rests_forceOnReady _, trivial⟩
  exact .add (mul_le_last (Nat.le_of_lt_succ (List.mem_range.1 hw)) 4) (.add hdie rfl)

theorem rests_sourceSet {d i : Nat} (hd : d ≤ 1) (hi : i / 32 ≤ 4) (act : Bool) : Rests halts (sourceSet d i act) :=
  fun _ => .ite .nil (.seq ⟨.setF_mid (.add (mul_le_last hi 4) (.add (mul_le_last hd 0x10000) rfl)), rests_tripResolve hd false,
    .only (.beside fun _ => rfl), trivial⟩)

/-! ### HALT and the Drone -/

theorem rests_causeEnds (c : Nat) : Rests halts (causeEnds c) := .setF (.inl (show Quiet R.SYS_HALT_LIVE by decide))

/-- The mode becomes HALT. -/
theorem rests_setF_halt : Rests true (setF F.SYS_MODE_STAT_mode HALT) := by
  intro s
  have hne : ∀ off, Held off → ¬ off = F.SYS_MODE_STAT_mode.off := by
    rintro off (hge | rfl)
    · intro he
      rw [he] at hge
      exact absurd hge (by decide)
    · decide
  have hmode : ((setF F.SYS_MODE_STAT_mode HALT).run s).mode = HALT := run_setF_f F.SYS_MODE_STAT_mode HALT s (by decide) (by decide)
  exact ⟨⟨fun off hoff => (run_setF_rd F.SYS_MODE_STAT_mode HALT off s).trans (if_neg (hne off hoff)), .inr ⟨rfl, hmode⟩,
    rfl, rfl, rfl, rfl, rfl, rfl⟩, rfl⟩

theorem rests_changeMode : Rests true (changeMode HALT) := fun _ => .seq ⟨.setF (by decide), rests_setF_halt, .setF (by decide),
  .only (.setF (.inl (show Quiet R.SYS_HALT_LIVE by decide))), .only (.seq ⟨.setF (by decide), .setF (by decide), trivial⟩),
  .setF (by decide), trivial⟩

theorem rests_enterHalt : Rests true enterHalt := fun _ => .seq
  ⟨.only (.seq ⟨.setF (by decide), .setF (by decide), .setF (by decide), trivial⟩), .only (.seq ⟨rests_changeMode, .bump (by decide), trivial⟩),
    trivial⟩

theorem rests_haltCause (c : Nat) : Rests true (haltCause c) := fun _ => .ite (.seq
  ⟨.setF (.inl (show Quiet R.SYS_HALT_CAUSE by decide)), .setF (.inl (show Quiet R.SYS_HALT_LIVE by decide)), .setF (by decide),
    .only rests_enterHalt, trivial⟩) .nil

theorem rests_soloA : Rests halts soloA := .seq ⟨.seq ⟨.setF (by decide), .setF (by decide), trivial⟩, .setF (by decide), .setF (by decide),
  .beside fun _ => rfl, .beside fun _ => rfl, rests_causeEnds _, trivial⟩

theorem rests_roleEval : Rests halts roleEval := .whenA fun _ => .ite (.of rests_soloA) (.of (.beside fun _ => rfl))

theorem rests_droneShow : Rests halts droneShow := fun _ => .seq
  ⟨.only (.forEach fun _ _ => .beside fun _ => rfl), .only (.forEach fun _ _ => .beside fun _ => rfl), .setW (by decide), .setF (by decide),
    .setF (by decide), .setF (by decide), .setW (by decide), .freshA, .only (rests_pinStamp _ _), trivial⟩

theorem rests_demandRecord (d : Nat) : Rests halts (demandRecord d) := fun _ => .seq
  ⟨.ite (.orW (by decide)) (.seq ⟨.setW (by decide), .set64 (by decide) (by decide), .bump (by decide), .beside fun _ => rfl, trivial⟩),
    .freshA, .setF (by decide), rests_recSend _, trivial⟩

theorem rests_demandEval : Rests true demandEval := fun _ => .seq
  ⟨rests_droneShow, .only (rests_demandRecord _), .only (.setF (by decide)), .beside fun _ => rfl, .only (rests_haltCause _),
    .only (rests_causeEnds _), .only (rests_haltCause _), .only (rests_sourceSet (by decide) (by decide) _), trivial⟩

theorem rests_droneEval : Rests true droneEval := .whenA (.seq ⟨rests_roleEval, rests_demandEval, trivial⟩)

theorem rests_droneLatch {a : Act} (h : Rests true a) : Rests true (droneLatch a) := .seq ⟨h, .setF (by decide), rests_droneEval, trivial⟩

theorem rests_wdArm : Rests halts wdArm := fun _ => .seq ⟨.setF (by decide), .setF (by decide), .beside fun _ => rfl, trivial⟩

theorem rests_wdRelease : Rests true wdRelease :=
  .whenA (.seq ⟨.setF (by decide), .setF (by decide), .whenA rests_wdArm, rests_droneEval, trivial⟩)

/-- A check of the Fingering as CONFIGURE is left. -/
theorem rests_relock : Rests true relock := fun _ => .ite (.of (.setF (by decide))) (.seq
  ⟨.setF (by decide), .setF (.inl (show Quiet R.SYS_HALT_CAUSE by decide)), .setF (by decide),
    .only (.seq ⟨rests_setF_halt, .setF (by decide), .setF (by decide), .bump (by decide), trivial⟩),
    .whenA (rests_droneLatch (.setF (by decide))), trivial⟩)

/-! ### Metering points -/

theorem rests_metRestart (i : Nat) : Rests halts (metRestart i) := .beside fun _ => rfl

theorem rests_accAdd {i k : Nat} (hi : i ≤ 1) (hk : k ≤ 7) (amount : Nat) : Rests halts (accAdd i k amount) := fun _ => .seq
  ⟨.set64_mid (.add (mul_le_last hk _) (.add (mul_le_last hi _) rfl)), .beside fun _ => rfl,
    .only (.seq ⟨.set64_mid (.add (mul_le_last hi _) rfl), .setF_mid (.add (mul_le_last hi _) rfl), trivial⟩), trivial⟩

theorem rests_energy {i x : Nat} (hi : i ≤ 1) (hx : x ≤ 3) (p tc : Rat) : Rests halts (energy i x p tc) :=
  .ite (rests_accAdd hi (by omega) _) (.ite (rests_accAdd hi (by omega) _) .nop)

theorem rests_putMeter {i : Nat} (hi : i ≤ 1) (l : MirVals) : Rests halts (putMeter i l) := .seq
  ⟨.forEach fun _ hk => .set64_mid (.add (mul_le_last (Nat.le_of_lt_succ (List.mem_range.1 hk)) _) (.add (mul_le_last hi _) rfl)),
    .beside fun _ => rfl, .set64_mid (.add (mul_le_last hi _) rfl), trivial⟩

theorem rests_mirTake {write : Nat → Nat → MirVals → Act} (h : ∀ k i l, Rests halts (write k i l)) (mine : Nat → Nat → Bool) :
    Rests halts (mirTake write mine) := fun _ => .ite .nil (.seq
  ⟨.forEach fun _ _ _ => .ite (.seq ⟨.beside fun _ => rfl, h _ _ _, trivial⟩) .nil, .beside fun _ => rfl, trivial⟩)

theorem rests_cycleClose {i : Nat} (hi : i ≤ 1) (n tc : Nat) : Rests halts (cycleClose i n tc) := by
  have hpoint := fun k => mul_le_last hi k
  refine .seq ⟨.only (rests_mirTake (fun _ _ _ => rests_putMeter (by omega) _) _), .whenA fun _ => .seq
    ⟨.only (.forEach fun x hx => .only (rests_energy hi (Nat.le_of_lt (List.mem_range.1 hx)) _ _)), .only (rests_energy hi (by decide) _ _),
      .setF_mid (.add (hpoint _) rfl), .setF_mid (.add (hpoint _) rfl), .only (.setF_mid (.add (hpoint _) rfl)),
      .only (.setF_mid (.add (hpoint _) rfl)), trivial⟩, trivial⟩

theorem rests_metStop {i : Nat} (hi : i ≤ 1) : Rests halts (metStop i) := fun _ => .seq
  ⟨rests_cycleClose hi _ _, rests_metRestart i, .beside fun _ => rfl, trivial⟩

theorem rests_meterStopAll : Rests halts meterStopAll :=
  .seq ⟨.whenA (rests_metStop (by decide)), .whenA (rests_metStop (by decide)), trivial⟩

/-! ### Converters -/

theorem rests_factorsPut {c : Nat} (hc : c ≤ 15) (ws : List Word) : Rests halts (factorsPut c ws) := by
  refine .forEach fun p hp => .setW ?_
  have hreg : p.1 ∈ factorRegs c := (List.of_mem_zip hp).1
  have hall : ∀ off ∈ factorRegs c, Quiet off := by
    intro off hoff
    simp only [factorRegs, R.CONV_C_CAL_OFS, R.CONV_C_CAL_GAIN, R.CONV_C_CAL_W, List.mem_cons, List.not_mem_nil, or_false] at hoff
    simp only [Quiet, R.SYS_MODE_STAT, R.CHNT_STAT]
    omega
  exact hall _ hreg

theorem rests_calAbandon {d : Nat} (hd : d ≤ 1) (code : Nat) : Rests halts (calAbandon d code) := by
  have hdie := fun k => mul_le_last hd k
  refine fun s => .ite .nil (.seq ⟨.forEach fun c hc => ?_, .setF_mid (.add (hdie _) rfl), .setF_mid (.add (hdie _) rfl),
    .setF_mid (.add (hdie _) rfl), .setF_mid (.add (hdie _) rfl), trivial⟩)
  have hc15 : c ≤ 15 := by
    simp only [calMasked, List.mem_filter, List.mem_map, List.mem_range] at hc
    obtain ⟨⟨j, hj, rfl⟩, -⟩ := hc
    omega
  refine .seq ⟨rests_factorsPut hc15 _, .setF (.inl ?_), trivial⟩
  simp only [Quiet, F.CONV_C_STAT_cal, R.CONV_C_STAT, R.SYS_MODE_STAT, R.CHNT_STAT]
  omega

theorem rests_convStop {c : Nat} (hc : c ≤ 15) : Rests halts (convStop c) := by
  refine .seq ⟨.setF (.inl ?_), .setF (.inl ?_), .beside fun _ => rfl, trivial⟩
  · simp only [Quiet, F.CONV_C_STAT_busy, R.CONV_C_STAT, R.SYS_MODE_STAT, R.CHNT_STAT]
    omega
  · simp only [Quiet, F.CONV_C_STAT_seq_pos, R.CONV_C_STAT, R.SYS_MODE_STAT, R.CHNT_STAT]
    omega

theorem rests_convHalt {c : Nat} (hc : c ≤ 15) : Rests halts (convHalt c) := .cond (.beside fun _ => rfl) (rests_convStop hc)

theorem rests_fineHalt {f : Nat} (hf : f ≤ 11) (clk : Bool) : Rests halts (fineHalt f clk) := by
  refine .seq ⟨.whenA (.seq ⟨.setF (.inl ?_), .setF (.inl ?_), .beside fun _ => rfl, trivial⟩), .whenA (.beside fun _ => rfl), trivial⟩
  · simp only [Quiet, F.CONV_F_STAT_running, R.CONV_F_STAT, R.SYS_MODE_STAT, R.CHNT_STAT]
    omega
  · simp only [Quiet, F.CONV_F_STAT_no_clock, R.CONV_F_STAT, R.SYS_MODE_STAT, R.CHNT_STAT]
    omega

/-! ### Bore engines and the grid block -/

theorem rests_limitShow {d e : Nat} (hd : d ≤ 1) (he : e ≤ 7) : Rests halts (limitShow d e) :=
  .whenA (.withS fun _ => rests_sourceSet hd (by omega) _)

theorem rests_limitSet {e : Nat} (he : e ≤ 7) (v : Bool) : Rests halts (limitSet e v) := fun _ => .ite .nil (.seq
  ⟨.setF_mid (.add (mul_le_last he _) rfl), .only (.setF_mid (.add (mul_le_last he _) rfl)), rests_limitShow (by decide) he,
    rests_limitShow (by decide) he, trivial⟩)

theorem rests_boreLeave {e : Nat} (he : e ≤ 7) : Rests halts (boreLeave e) := .whenA (rests_limitSet he false)

theorem rests_publishSet (x : GridSet) : Rests halts (publishSet x) := by
  refine fun _ => .seq ⟨.forEach fun q hq => ?_, .beside fun _ => rfl, trivial⟩
  have hq' := Nat.le_of_lt_succ (List.mem_range.1 hq)
  exact .ite (.set64_mid (.add (mul_le_last hq' _) rfl)) (.set64_mid (.add (mul_le_last hq' _) rfl))

theorem rests_sweepAbort : Rests halts sweepAbort := by
  intro s
  unfold sweepAbort
  split
  · exact .nil
  · exact .seq ⟨.beside fun _ => rfl, .beside fun _ => rfl, .setF (by decide), .setF (by decide), trivial⟩

theorem rests_mpptIdle : Rests halts mpptIdle := .seq ⟨rests_sweepAbort, .forEach fun _ hp =>
  .seq ⟨.setF_mid (.add (mul_le_last (Nat.le_of_lt_succ (List.mem_range.1 hp)) _) rfl), .beside fun _ => rfl, trivial⟩, trivial⟩

theorem rests_rideIdle : Rests halts rideIdle := .seq ⟨.setW (by decide), .setF (by decide), .setF (by decide),
  .forEach fun i hi => .setF_mid (.add (mul_le_last (Nat.le_of_lt_succ (List.mem_range.1 hi)) _) rfl), .beside fun _ => rfl, trivial⟩

theorem rests_probeIdle : Rests halts probeIdle := .seq ⟨.setF (by decide), .setF (by decide), .setF (by decide), .beside fun _ => rfl, trivial⟩

theorem rests_gridLeave : Rests halts gridLeave := .whenA fun _ => .seq
  ⟨rests_publishSet _, .setF (by decide), .setF (by decide), .beside fun _ => rfl, rests_mpptIdle, rests_rideIdle, rests_probeIdle, trivial⟩

theorem rests_publishParts (x : GridSet) (ref : Nat) : Rests halts (publishParts x ref) := fun _ => .seq
  ⟨rests_publishSet _, .setF (by decide), .only (.setF (by decide)), trivial⟩

theorem rests_refSwitch (wa b : Nat) : Rests halts (refSwitch wa b) := .whenA fun _ => .ite .nil (.ite (.of (rests_publishParts _ _))
  (.ite (.seq ⟨.beside fun _ => rfl, rests_publishParts _ _, trivial⟩) (.ite (.seq ⟨.beside fun _ => rfl, rests_publishParts _ _, trivial⟩)
    (.of (rests_publishParts _ _)))))

/-! ### A departure -/

theorem index_of_dumpWords {s : State} {cause : Nat} {x : Nat × Word} (hx : x ∈ dumpWords s cause) : x.1 ≤ 127 := by
  simp only [dumpWords, List.mem_append, List.mem_map, List.mem_cons, List.not_mem_nil, or_false] at hx
  obtain ⟨y, hy, rfl⟩ | rfl | rfl | rfl := hx
  · have hlt := (List.mem_zipIdx hy).2.1
    simp [Function.comp_def] at hlt
    show y.2 ≤ 127
    omega
  · decide
  · decide
  · decide

theorem rests_dump (cause : Nat) (ok : Bool) : Rests halts (dump cause ok) := by
  have hword : ∀ (s : State) (v : Nat × Word → Word), ∀ x ∈ dumpWords s cause, Rests halts (setW (R.HARV_RET x.1) (v x)) := fun s v x hx =>
    .setW (Mid.quiet (.add (mul_le_last (index_of_dumpWords hx) _) rfl))
  exact fun s => .ite (.seq ⟨.forEach (hword s fun x => x.2), .freshA, .withS fun _ => .setW (by decide), .setF (by decide), .pwrA fun _ => rfl,
    trivial⟩) (.seq ⟨.forEach (hword s fun x => Config.freeRet s.fresh x.1), .freshA, .pwrA fun _ => rfl, trivial⟩)

theorem rests_depart (cause : Nat) (dumpOk : Bool) : Rests true (depart cause dumpOk) := .seq
  ⟨.pwrA fun _ => rfl, .setF (by decide), .beside fun _ => rfl, rests_meterStopAll, rests_calAbandon (by decide) 6,
    rests_calAbandon (by decide) 6, rests_dump cause dumpOk, rests_droneEval, trivial⟩

theorem rests_burstEnd (code : Nat) : Rests halts (burstEnd code) :=
  .whenA (.seq ⟨.setF (by decide), .setF (by decide), .pwrA fun _ => rfl, trivial⟩)

theorem rests_overtake (code : Nat) : Rests halts (overtake code) := .seq ⟨.whenA (.setF (by decide)), rests_burstEnd code, trivial⟩

/-! ### A change of mode -/

/-- What a change of mode brings before an update is abandoned. -/
def followLead (a b : Nat) (s : State) : List Act := [
  only (¬ (rideActs a ∧ rideActs b)) (edgesA fun e => { e with gatePend := 0 }),
  only (!metAccum a ∧ metAccum b) (forEach [0, 1] metRestart),
  only (a = CONFIGURE) (fingQuit .left),
  only (a ≠ CONFIGURE ∧ b = CONFIGURE ∧ s.force = 2) (setF F.FING_STAT_force 3),
  only (b = DORMANT) (seq [calAbandon 0 6, calAbandon 1 6,
    forEach (List.range 16) convHalt, forEach (List.range 12) fun f => fineHalt f false]),
  only (steppingMode a ∧ !steppingMode b) (forEach (List.range 8) boreLeave),
  only (a = STANDBY ∧ (b = FOLLOW ∨ b = FORM)) (seq [
    forEach (List.range 8) (fun e => boreA e fun x => { x with entry := true }), mpptA fun m => { m with start := true }]),
  only (gridSteps a ∧ !gridSteps b) gridLeave,
  refSwitch (refSetWas s) b,
  recSend (2 + 4 * b2n (decide (b = HALT)) + 8 * b2n (decide (b = RIDE))),
  only (a = FOLLOW) (seq [sweepAbort, whenA (fun t => t.hid.mppt.due ∧ !t.on F.MPPT_STAT_sweep_due) sweepDefer])]

theorem run_modeFollow (a b : Nat) (s : State) : (modeFollow a b).run s =
    (only (b ≠ DORMANT ∧ b ≠ CONFIGURE) updAbandon).run ((seq (followLead a b s)).run s) :=
  (run_seq_append (followLead a b s) [only (b ≠ DORMANT ∧ b ≠ CONFIGURE) updAbandon] s).trans (by rw [run_seq_cons, run_seq_nil])

theorem rests_followLead (a b : Nat) (s : State) : Rests halts (seq (followLead a b s)) := by
  have hlast : ∀ {i n : Nat}, i ∈ List.range (n + 1) → i ≤ n := fun h => Nat.le_of_lt_succ (List.mem_range.1 h)
  exact .seq ⟨.only (.beside fun _ => rfl), .only (.forEach fun i _ => rests_metRestart i), .only (.whenA (.beside fun _ => rfl)),
    .only (.setF (by decide)), .only (.seq ⟨rests_calAbandon (by decide) 6, rests_calAbandon (by decide) 6,
      .forEach fun c hc => rests_convHalt (hlast hc), .forEach fun f hf => rests_fineHalt (hlast hf) false, trivial⟩),
    .only (.forEach fun e he => rests_boreLeave (hlast he)), .only (.seq ⟨.forEach fun _ _ => .beside fun _ => rfl, .beside fun _ => rfl, trivial⟩),
    .only rests_gridLeave, rests_refSwitch _ _, rests_recSend _,
    .only (.seq ⟨rests_sweepAbort, .whenA (.seq ⟨.setF (by decide), .setF (by decide), trivial⟩), trivial⟩), trivial⟩

end

end Sys2Proof.Machine
end

section
/-!
How an update is abandoned (R467): by a change of mode, by NRST and by a loss of energy.
-/

namespace Sys2Proof.Machine

/-! ### The abandoning itself -/

theorem run_updAbandon_of_idle {s : State} (h : s.hid.boot.upd = false) : updAbandon.run s = s := by
  rw [updAbandon, run_whenA, h]
  rfl

/-- What abandoning the update that runs in `v` leads to. -/
structure Abandoned (v u : State) : Prop where
  result : u.f F.BOOT_UPD_STAT_result = 0x8A
  fail : u.on F.BOOT_EVENT_upd_fail = true
  recv : u.f F.BOOT_UPD_STAT_recv = 0
  busy : u.on F.BOOT_UPD_STAT_busy = false
  boot : u.hid.boot = { v.hid.boot with upd := false, blocks := [], work := none }
  kept : v.hid.boot.work = none → u.flash = v.flash
  outside : ∀ x, v.hid.boot.work = some x → ∀ k, (k < updBase v + x.1 ∨ updBase v + x.1 + 4096 ≤ k) → u.flByte k = v.flByte k

/-- Fields that abandoning sets in its registers. -/
def updStopFields : List (Fld × Nat) :=
  [(F.BOOT_UPD_STAT_result, 0x8A), (F.BOOT_EVENT_upd_fail, 1), (F.BOOT_UPD_STAT_recv, 0), (F.BOOT_UPD_STAT_busy, 0)]

theorem disjointFields_updStop : DisjointFields updStopFields := by
  refine ⟨?_, ?_⟩
  · simp [updStopFields, F.BOOT_UPD_STAT_result, F.BOOT_EVENT_upd_fail, F.BOOT_UPD_STAT_recv, F.BOOT_UPD_STAT_busy]
  · simp [updStopFields, Clear, F.BOOT_UPD_STAT_result, F.BOOT_EVENT_upd_fail, F.BOOT_UPD_STAT_recv, F.BOOT_UPD_STAT_busy, R.BOOT_UPD_STAT,
      R.BOOT_EVENT]

/-- From `v` to `u` everything but `BOOT_STAT`, the flash and the counter of free values is the same. -/
structure UndefOnly (v u : State) : Prop where
  regs : ∀ off, off ≠ R.BOOT_STAT → u.rd off = v.rd off
  hid : u.hid = v.hid
  lpddr : u.lpddr = v.lpddr
  sram : u.sram = v.sram
  now : u.now = v.now

/-- Bytes of the flash that take undefined contents; no other does, and nothing else changes. -/
theorem run_flashUndef (a n : Nat) (s : State) : UndefOnly s ((flashUndef a n).run s) ∧
    ((flashUndef a n).run s).rd R.BOOT_STAT = s.rd R.BOOT_STAT ∧
    ∀ k, (k < a ∨ a + n ≤ k) → ((flashUndef a n).run s).flByte k = s.flByte k := by
  have hall : ∀ (l : List Nat) (g : Nat → Byte) (s : State), applyAll (l.map fun i => .flash (a + i) (g i)) s =
      { s with flash := (applyAll (l.map fun i => .flash (a + i) (g i)) s).flash } := by
    intro l g
    induction l with
    | nil => exact fun s => rfl
    | cons i l ih => exact fun s => ih _
  have hrun : (flashUndef a n).run s = freshA.run (applyAll ((List.range n).map fun i => .flash (a + i) (Config.freeFlash s.fresh (a + i))) s) := by
    rw [Act.run, flashUndef, applyAll_append]
    rfl
  rw [hall] at hrun
  refine ⟨⟨fun off _ => by rw [hrun]; rfl, by rw [hrun]; rfl, by rw [hrun]; rfl, by rw [hrun]; rfl, by rw [hrun]; rfl⟩, by rw [hrun]; rfl,
    fun k hk => ?_⟩
  have hbyte := applyAll_flash_flByte (Config.freeFlash s.fresh) a k (List.range n) s
  rw [if_neg (by simp only [List.mem_range]; omega)] at hbyte
  rw [hrun]
  exact hbyte

theorem UndefOnly.then_setF {v w : State} (h : UndefOnly v w) {x : Fld} {n : Nat} (hx : x.off = R.BOOT_STAT) :
    UndefOnly v ((setF x n).run w) :=
  ⟨fun off hoff => (run_setF_rd x n off w).trans ((if_neg (hx ▸ hoff)).trans (h.regs off hoff)), h.hid, h.lpddr, h.sram, h.now⟩

theorem flByte_setF (x : Fld) (n k : Nat) (w : State) : ((setF x n).run w).flByte k = w.flByte k := rfl

/-- The sector of the block in work. -/
theorem workUndef_spec (v : State) : UndefOnly v (workUndef.run v) ∧ (v.hid.boot.work = none → workUndef.run v = v) ∧
    ∀ x, v.hid.boot.work = some x → ∀ k, (k < updBase v + x.1 ∨ updBase v + x.1 + 4096 ≤ k) → (workUndef.run v).flByte k = v.flByte k := by
  cases hwork : v.hid.boot.work with
  | none =>
    have hus : workUndef v = [] := by
      unfold workUndef
      generalize 4096 = n
      rw [hwork]
    have hnone : workUndef.run v = v := by rw [Act.run, hus]; rfl
    rw [hnone]
    exact ⟨⟨fun _ _ => rfl, rfl, rfl, rfl, rfl⟩, fun _ => rfl, fun x hx => nomatch hx⟩
  | some x =>
    obtain ⟨ofs, bs⟩ := x
    obtain ⟨hundef, -, hbytes⟩ := run_flashUndef (updBase v + ofs) 4096 v
    rw [run_workUndef v ofs bs hwork]
    refine ⟨hundef.then_setF rfl, (fun h => nomatch h), fun y hy k hk => ?_⟩
    obtain rfl := Option.some.inj hy
    rw [flByte_setF]
    exact hbytes k hk

/-- Everything that abandoning leaves as it is. -/
structure AbandonKeeps (v u : State) : Prop where
  regs : ∀ off, Held off → off ≠ R.BOOT_UPD_STAT → off ≠ R.BOOT_EVENT → (off = R.BOOT_STAT → v.hid.boot.work = none) → u.rd off = v.rd off
  mode : u.mode = v.mode
  lpddr : u.lpddr = v.lpddr
  sram : u.sram = v.sram
  now : u.now = v.now
  up : u.up = v.up
  test : u.hid.chnt.test = v.hid.chnt.test

/-- The boot block's part once the update is abandoned. -/
def stoppedUpd (b : BootSt) : BootSt := { b with upd := false, blocks := [], work := none }

theorem run_updAbandon {v : State} (h : v.hid.boot.upd = true) : ∃ x y, Sets updStopFields (workUndef.run v).hid (workUndef.run v) x ∧
    Keeps false x y ∧ y.flash = x.flash ∧ updAbandon.run v = (bootA stoppedUpd).run y := by
  have hburst : Rests false (whenA flashRunning (burstEnd 0)) := .whenA (rests_burstEnd 0)
  rw [updAbandon, run_whenA, if_pos h, run_seq_cons, run_seq_cons, run_seq_cons, run_seq_cons, run_seq_cons, run_seq_cons, run_seq_cons,
    run_seq_nil, setB_eq, clrB_eq]
  generalize workUndef.run v = w
  have hset := ((((Sets.setF F.BOOT_UPD_STAT_result 0x8A w).then_setF F.BOOT_EVENT_upd_fail 1).then_setF F.BOOT_UPD_STAT_recv 0).then_setF
    F.BOOT_UPD_STAT_busy 0)
  exact ⟨_, _, hset, hburst.keeps _, hburst.flash _, rfl⟩

theorem abandoned_updAbandon {v : State} (h : v.hid.boot.upd = true) : Abandoned v (updAbandon.run v) := by
  obtain ⟨x, y, hset, hkeep, hflash, hrun⟩ := run_updAbandon h
  obtain ⟨⟨-, hhid, -, -, -⟩, hnone, hsome⟩ := workUndef_spec v
  rw [hrun]
  have hd := disjointFields_updStop
  have hf : ∀ z : Fld, Held z.off → ((bootA stoppedUpd).run y).f z = x.f z := fun z hz => (hkeep.f_eq hz : y.f z = x.f z)
  have hon : ∀ z : Fld, Held z.off → ((bootA stoppedUpd).run y).on z = x.on z := fun z hz => (hkeep.on_eq hz : y.on z = x.on z)
  have hxflash : y.flash = (workUndef.run v).flash := by
    obtain ⟨-, ⟨-, hfl, -⟩, -⟩ := id hset
    exact hflash.trans hfl
  have hboot : y.hid.boot = v.hid.boot := by rw [hkeep.boot, hset.hid_eq, hhid]
  refine ⟨(hf _ (.inl (by decide))).trans (Sets.f_of_disjoint hd hset (.head _)),
    (hon _ (.inl (by decide))).trans (Sets.on_of_disjoint hd hset (.tail _ (.head _)) rfl),
    (hf _ (.inl (by decide))).trans (Sets.f_of_disjoint hd hset (.tail _ (.tail _ (.head _)))),
    (hon _ (.inl (by decide))).trans (Sets.on_of_disjoint hd hset (.tail _ (.tail _ (.tail _ (.head _)))) rfl), ?_,
    fun hwork => hxflash.trans (congrArg State.flash (hnone hwork)), fun z hz k hk => (flByte_of_flash_eq hxflash k).trans (hsome z hz k hk)⟩
  rw [← hboot]
  rfl

theorem abandonKeeps_updAbandon {v : State} (h : v.hid.boot.upd = true) : AbandonKeeps v (updAbandon.run v) := by
  obtain ⟨x, y, hset, hkeep, -, hrun⟩ := run_updAbandon h
  obtain ⟨⟨hregs, hhid, hlp, hsr, hnow⟩, hnone, -⟩ := workUndef_spec v
  rw [hrun]
  have hmode : (workUndef.run v).mode = v.mode := congrArg F.SYS_MODE_STAT_mode.get (hregs _ (by decide))
  have hmode' : x.mode = (workUndef.run v).mode := hset.mode fun z hz => by
    simp only [updStopFields, List.mem_cons, List.not_mem_nil, or_false] at hz
    obtain rfl | rfl | rfl | rfl := hz <;> decide
  have hup : (workUndef.run v).up = v.up := by rw [State.up, hhid]; rfl
  have hup' : x.up = (workUndef.run v).up := hset.up rfl
  obtain ⟨-, ⟨hlp', -, hsr'⟩, hnow', hhid', -⟩ := id hset
  refine ⟨fun off hheld hupd hevent hstat => ?_, (hkeep.mode.resolve_right fun hh => Bool.false_ne_true hh.1).trans (hmode'.trans hmode),
    hkeep.lpddr.trans (hlp'.trans hlp), hkeep.sram.trans (hsr'.trans hsr), hkeep.now.trans (hnow'.trans hnow),
    hkeep.up.trans (hup'.trans hup), hkeep.test.trans (by rw [hhid', hhid])⟩
  have hx : x.rd off = (workUndef.run v).rd off := hset.rd_of_ne fun z hz => by
    simp only [updStopFields, List.mem_cons, List.not_mem_nil, or_false] at hz
    obtain rfl | rfl | rfl | rfl := hz
    · exact Ne.symm hupd
    · exact Ne.symm hevent
    · exact Ne.symm hupd
    · exact Ne.symm hupd
  have hwv : (workUndef.run v).rd off = v.rd off := by
    by_cases hoff : off = R.BOOT_STAT
    · rw [hnone (hstat hoff)]
    · exact hregs off hoff
  exact (hkeep.regs off hheld).trans (hx.trans hwv)

end Sys2Proof.Machine
end

section
/-!
What a command's answer adds to its action (a change of mode that the blocks follow), and the clauses on an update that a change of mode,
NRST low or a loss of energy abandons (R467).
-/

namespace Sys2Proof.Machine

/-! ### A change of mode -/

theorem upd_updAbandon (v : State) : (updAbandon.run v).hid.boot.upd = false := by
  cases h : v.hid.boot.upd with
  | false => rw [run_updAbandon_of_idle h, h]
  | true => rw [(abandoned_updAbandon h).boot]

theorem mode_updAbandon (v : State) : (updAbandon.run v).mode = v.mode := by
  cases h : v.hid.boot.upd with
  | false => rw [run_updAbandon_of_idle h]
  | true => exact (abandonKeeps_updAbandon h).mode

/-- What a change of mode from `a` brings: the check of R123, and the blocks that follow. -/
theorem run_modeSwitch (a : Nat) (s : State) : ∃ r, Keeps true s r ∧ r.flash = s.flash ∧
    (modeSwitch a).run s = (modeFollow a r.mode).run r := by
  have hlock : Rests true (only (a = CONFIGURE ∧ s.force = 3) relock) := .only rests_relock
  unfold modeSwitch
  rw [run_fun, run_seq_cons, run_seq_cons, run_seq_nil]
  exact ⟨_, hlock.keeps s, hlock.flash s, rfl⟩

/-- With no update in progress a change of mode leaves boot and update alone. -/
theorem keeps_modeSwitch {a : Nat} {s : State} (h : s.hid.boot.upd = false) :
    Keeps true s ((modeSwitch a).run s) ∧ ((modeSwitch a).run s).flash = s.flash := by
  obtain ⟨r, hr, hflash, hrun⟩ := run_modeSwitch a s
  have hlead : Rests true (seq (followLead a r.mode r)) := rests_followLead a r.mode r
  have hidle : ((seq (followLead a r.mode r)).run r).hid.boot.upd = false := by rw [(hlead.keeps r).boot, hr.boot, h]
  have hlast : (only (r.mode ≠ DORMANT ∧ r.mode ≠ CONFIGURE) updAbandon).run ((seq (followLead a r.mode r)).run r) =
      (seq (followLead a r.mode r)).run r := by
    rw [run_only, run_updAbandon_of_idle hidle, ite_self]
  rw [hrun, run_modeFollow, hlast]
  exact ⟨hr.trans (hlead.keeps r), (hlead.flash r).trans hflash⟩

/-- A change to HALT leaves all of them but what abandoning the update changes. -/
theorem modeSwitch_cases (a : Nat) (s : State) : ∃ r, Keeps true s r ∧ r.flash = s.flash ∧
    ((modeSwitch a).run s = r ∨ (modeSwitch a).run s = updAbandon.run r) := by
  obtain ⟨r, hr, hflash, hrun⟩ := run_modeSwitch a s
  have hlead : Rests true (seq (followLead a r.mode r)) := rests_followLead a r.mode r
  refine ⟨_, hr.trans (hlead.keeps r), (hlead.flash r).trans hflash, ?_⟩
  rw [hrun, run_modeFollow, run_only]
  split
  · exact .inr rfl
  · exact .inl rfl

/-- The last two steps of an answer. -/
theorem rests_answerEnd (s : State) : Rests false (seq [pinStamp s (List.range 48), levelsFall]) :=
  .seq ⟨rests_pinStamp _ _, .levelsFall, trivial⟩

theorem finish_eq (a : Act) (s : State) : finish a s = if (a.run s).mode = s.mode ∨ s.up = false ∨ (a.run s).up = false then
    .next (levelsFall.run (a.run s))
    else .next ((seq [pinStamp s (List.range 48), levelsFall]).run ((modeSwitch s.mode).run (a.run s))) := by
  unfold finish
  simp only [Bool.not_eq_true', run_seq_cons]

/-- An action that leaves no update in progress is answered with boot and update as it leaves them. -/
theorem finish_of_idle {a : Act} {s : State} (h : (a.run s).hid.boot.upd = false) :
    ∃ t, finish a s = .next t ∧ Keeps true (a.run s) t ∧ t.flash = (a.run s).flash := by
  rw [finish_eq]
  split
  · exact ⟨_, rfl, (Rests.levelsFall (halts := true)).keeps _, (Rests.levelsFall (halts := true)).flash _⟩
  · obtain ⟨hkeep, hflash⟩ := keeps_modeSwitch (a := s.mode) h
    exact ⟨_, rfl, hkeep.trans ((rests_answerEnd s).keeps _).may, ((rests_answerEnd s).flash _).trans hflash⟩

/-- A command that changes the mode to one but DORMANT and CONFIGURE leaves no update in progress. -/
theorem upd_of_mode_changed {c : Instr} {s t : State} (he : exec c s = .next t) (hs : s.up = true) (ht : t.up = true) (hmode : t.mode ≠ s.mode)
    (hd : t.mode ≠ DORMANT) (hc : t.mode ≠ CONFIGURE) : t.hid.boot.upd = false := by
  obtain ⟨a, ha⟩ := exec_eq_finish c s
  rw [he, finish_eq] at ha
  split at ha
  · next hcond =>
    have hkeep : Keeps false (a.run s) t := by
      rw [Host.Outcome.next.inj ha]
      exact Rests.levelsFall.keeps _
    have hmode' : t.mode = (a.run s).mode := hkeep.mode.resolve_right fun hh => Bool.false_ne_true hh.1
    obtain h | h | h := hcond
    · exact absurd (hmode'.trans h) hmode
    · exact absurd (hs.symm.trans h) (by decide)
    · exact absurd (ht.symm.trans (hkeep.up.trans h)) (by decide)
  · obtain ⟨r, hr, -, hrun⟩ := run_modeSwitch s.mode (a.run s)
    have hlead : Rests false (seq (followLead s.mode r.mode r)) := rests_followLead _ _ _
    have hend : Keeps false ((modeSwitch s.mode).run (a.run s)) t := by
      rw [Host.Outcome.next.inj ha]
      exact (rests_answerEnd s).keeps _
    rw [hrun, run_modeFollow, run_only] at hend
    have hkept : ((seq (followLead s.mode r.mode r)).run r).mode = r.mode :=
      (hlead.keeps r).mode.resolve_right fun hh => Bool.false_ne_true hh.1
    by_cases hto : r.mode ≠ DORMANT ∧ r.mode ≠ CONFIGURE
    · rw [if_pos (decide_eq_true hto)] at hend
      rw [hend.boot, upd_updAbandon]
    · rw [if_neg (by rwa [decide_eq_true_eq])] at hend
      have hmode' : t.mode = r.mode := (hend.mode.resolve_right fun hh => Bool.false_ne_true hh.1).trans hkept
      exact absurd ⟨hmode' ▸ hd, hmode' ▸ hc⟩ hto

/-! ### NRST low and losses of energy -/

theorem Abandoned.of_keeps {s v u t : State} (hv : Keeps true s v) (hvf : v.flash = s.flash) (h : Abandoned v u) (ht : Keeps true u t)
    (htf : t.flash = u.flash) : Abandoned s t := by
  have hbase : updBase v = updBase s := by rw [updBase, hv.boot]; rfl
  have hwork : v.hid.boot.work = s.hid.boot.work := by rw [hv.boot]
  refine ⟨(ht.f_eq (.inl (by decide))).trans h.result, (ht.on_eq (.inl (by decide))).trans h.fail, (ht.f_eq (.inl (by decide))).trans h.recv,
    (ht.on_eq (.inl (by decide))).trans h.busy, ?_, fun hw => htf.trans ((h.kept (hwork.trans hw)).trans hvf), fun x hx k hk => ?_⟩
  · rw [ht.boot, h.boot, hv.boot]
  · rw [← hbase] at hk
    exact (flByte_of_flash_eq htf k).trans ((h.outside x (hwork.trans hx) k hk).trans (flByte_of_flash_eq hvf k))

/-- An answer that abandons the update as the last of its action. -/
theorem completes_abandons {c : Instr} {a : Act} {s v : State} (he : exec c s = finish a s) (hrun : a.run s = updAbandon.run v)
    (hv : Keeps true s v) (hvf : v.flash = s.flash) (hupd : s.hid.boot.upd = true) : Completes c s (Abandoned s) := by
  have hupd' : v.hid.boot.upd = true := by rw [hv.boot, hupd]
  obtain ⟨t, ht, hkeep, hflash⟩ := finish_of_idle (a := a) (s := s) (by rw [hrun, upd_updAbandon])
  rw [hrun] at hkeep hflash
  exact ⟨t, he.trans ht, (abandoned_updAbandon hupd').of_keeps hv hvf hkeep hflash⟩

/-- What a fall does before it abandons the update. -/
def fallLead (code cause : Nat) (dumpOk : Bool) : List Act := [overtake code, depart cause dumpOk,
  pwrA fun p => { p with byNrst := p.byNrst || cause == 4, aborted := p.aborted || cause == 2 }]

theorem rests_fallLead (code cause : Nat) (dumpOk : Bool) : Rests true (seq (fallLead code cause dumpOk)) :=
  .seq ⟨rests_overtake code, rests_depart cause dumpOk, .pwrA fun _ => rfl, trivial⟩

theorem run_fall {code cause : Nat} {dumpOk : Bool} {s : State} (hup : s.up = true) (ht : s.hid.pwr.trans ≠ .toLean)
    (hw : cause ≠ 2 ∨ s.hid.boot.work.isNone) : (fall code cause dumpOk).run s = updAbandon.run ((seq (fallLead code cause dumpOk)).run s) := by
  have hno : ¬ (s.hid.pwr.trans = .toLean ∧ cause ≠ 1) := fun h => ht h.1
  have hno' : ¬ (s.hid.pwr.trans ≠ .toLean ∧ (!s.up) = true) := fun h => by simp [hup] at h
  have hrun : (fall code cause dumpOk).run s = (seq (fallLead code cause dumpOk ++ [only (cause ≠ 2 ∨ s.hid.boot.work.isNone) updAbandon])).run s :=
    (congrArg (applyAll · s) (if_neg hno)).trans (congrArg (applyAll · s) (if_neg hno'))
  rw [hrun, run_seq_append, run_seq_cons, run_seq_nil, run_only, if_pos (decide_eq_true hw)]

section
variable {s : State} (dumpOk : Bool) (hup : s.up = true) (ht : s.hid.pwr.trans ≠ .toLean) (hupd : s.hid.boot.upd = true)
include hup ht hupd

theorem completes_nrstLow_abandons : Completes (.nrstLow dumpOk) s (Abandoned s) := by
  have hpin : Rests true (pwrA fun p => { p with nrst := false }) := .pwrA fun _ => rfl
  have hlead := rests_fallLead 11 4 dumpOk
  refine completes_abandons (a := nrstLow dumpOk) rfl ?_ ((hpin.keeps s).trans (hlead.keeps _)) ((hlead.flash _).trans (hpin.flash s)) hupd
  unfold nrstLow
  rw [run_seq_cons, run_seq_cons, run_seq_nil]
  exact run_fall ((hpin.keeps s).up.trans hup) ht (.inl (by decide))

theorem completes_vsupFail_abandons : Completes (.vsupFailWarning dumpOk) s (Abandoned s) := by
  have hwarn : Rests true (setB F.HARV_EVENT_vsup_warn) := .setF (by decide)
  have hlead := rests_fallLead 10 1 dumpOk
  refine completes_abandons (a := vsupWarning dumpOk) rfl ?_ ((hwarn.keeps s).trans (hlead.keeps _)) ((hlead.flash _).trans (hwarn.flash s)) hupd
  unfold vsupWarning
  rw [run_whenA, if_pos (decide_eq_true (.inl hup)), run_seq_cons, run_seq_cons, run_seq_nil]
  exact run_fall ((hwarn.keeps s).up.trans hup) ht (.inl (by decide))

theorem completes_storeAbort_abandons (hvb : s.on F.HARV_STAT_src_vb = true) (hwork : s.hid.boot.work = none) :
    Completes (.storeAbort dumpOk) s (Abandoned s) := by
  have hlead := rests_fallLead 10 2 dumpOk
  refine completes_abandons (a := storeAbort dumpOk) rfl ?_ (hlead.keeps s) (hlead.flash s) hupd
  unfold storeAbort
  rw [run_whenA, if_pos hvb]
  exact run_fall hup ht (.inr (by rw [hwork]; rfl))

end

end Sys2Proof.Machine
end

section
/-!
The commands of an update (R465–R467): START, BLOCK and ABORT.
-/

namespace Sys2Proof.Machine

/-! ### An answer after a release of the Chanter -/

/-- From `u`, in which an update has just begun in mode `m`, to the answer `t`: an answer that stays in the mode keeps the update. -/
structure Began (m : Nat) (u t : State) : Prop where
  regs : ∀ off, Held off → off ≠ R.BOOT_UPD_STAT → off ≠ R.BOOT_EVENT → t.rd off = u.rd off
  test : t.hid.chnt.test = u.hid.chnt.test
  keys : t.hid.boot.keys = u.hid.boot.keys
  dir : t.hid.boot.dir = u.hid.boot.dir
  mem : SameMem u t
  now : t.now = u.now
  stays : t.mode = m → t.rd R.BOOT_UPD_STAT = u.rd R.BOOT_UPD_STAT ∧ t.hid.boot = u.hid.boot

theorem Began.of_keeps {m : Nat} {u t : State} (h : Keeps true u t) (hf : t.flash = u.flash) : Began m u t :=
  ⟨fun off hoff _ _ => h.regs off hoff, h.test, by rw [h.boot], by rw [h.boot], ⟨h.lpddr, hf, h.sram⟩, h.now,
    fun _ => ⟨h.regs _ (.inl (by decide)), h.boot⟩⟩

/-- An update that is abandoned as it begins leaves no block in work, and another mode. -/
theorem Began.of_abandoned {m : Nat} {u r t : State} (hr : Keeps true u r) (hrf : r.flash = u.flash) (hupd : u.hid.boot.upd = true)
    (hwork : u.hid.boot.work = none) (ht : Keeps true (updAbandon.run r) t) (htf : t.flash = (updAbandon.run r).flash) (hm : t.mode ≠ m) :
    Began m u t := by
  have hupd' : r.hid.boot.upd = true := by rw [hr.boot, hupd]
  have hwork' : r.hid.boot.work = none := by rw [hr.boot, hwork]
  have hdone := abandoned_updAbandon hupd'
  have hkeep := abandonKeeps_updAbandon hupd'
  have hboot : t.hid.boot = stoppedUpd u.hid.boot := by rw [ht.boot, hdone.boot, hr.boot]; rfl
  refine ⟨fun off hoff hstat hevent => ?_, ht.test.trans (hkeep.test.trans hr.test), by rw [hboot]; rfl, by rw [hboot]; rfl,
    ⟨ht.lpddr.trans (hkeep.lpddr.trans hr.lpddr), htf.trans ((hdone.kept hwork').trans hrf), ht.sram.trans (hkeep.sram.trans hr.sram)⟩,
    ht.now.trans (hkeep.now.trans hr.now), fun h => absurd h hm⟩
  exact (ht.regs off hoff).trans ((hkeep.regs off hoff hstat hevent fun _ => hwork').trans (hr.regs off hoff))

theorem finish_began {a : Act} {s u : State} (hu : Keeps true u (a.run s)) (hf : (a.run s).flash = u.flash) (hmode : u.mode = s.mode)
    (hhalt : s.mode ≠ HALT) (hupd : u.hid.boot.upd = true) (hwork : u.hid.boot.work = none) :
    ∃ t, finish a s = .next t ∧ Began s.mode u t := by
  rw [finish_eq]
  split
  · exact ⟨_, rfl, .of_keeps (hu.trans (Rests.levelsFall.keeps _)) (((Rests.levelsFall (halts := true)).flash _).trans hf)⟩
  next hcond =>
  obtain ⟨r, hr, hrf, hrun⟩ := modeSwitch_cases s.mode (a.run s)
  have hend := (rests_answerEnd s).keeps ((modeSwitch s.mode).run (a.run s))
  have hendf := (rests_answerEnd s).flash ((modeSwitch s.mode).run (a.run s))
  refine ⟨_, rfl, ?_⟩
  obtain hrun | hrun := hrun
  · rw [hrun] at hend hendf ⊢
    exact .of_keeps (hu.trans (hr.trans hend.may)) (hendf.trans (hrf.trans hf))
  · rw [hrun] at hend hendf ⊢
    have hto : (a.run s).mode = HALT := (hu.mode.resolve_left fun h => hcond (.inl (h.trans hmode))).2
    have hr' : r.mode = HALT := hr.mode.elim (fun h => h.trans hto) fun h => h.2
    have hlast := hend.mode.resolve_right fun hh => Bool.false_ne_true hh.1
    exact .of_abandoned (hu.trans hr) (hrf.trans hf) hupd hwork hend.may hendf fun h =>
      hhalt (h.symm.trans (hlast.trans ((mode_updAbandon r).trans hr')))

/-! ### START -/

/-- Fields that an accepted START sets before the watchdog is armed. -/
def startFields (s : State) : List (Fld × Nat) := [(wordFld R.BOOT_UPD_STAT, (0#32).toNat), (F.QSPI_CFG_size, at8 (flashBytes s 0 4096) 7),
  (F.QSPI_CFG_mode, at8 (flashBytes s 0 4096) 6), (F.BOOT_STAT_state, 2), (F.CHNT_STAT_running, 0), (F.CHNT_STAT_parked, 0),
  (F.CHNT_STAT_debug_halted, 0), (F.CHNT_STAT_sweeping, 0)]

/-- The boot block's part once an update of region `target` has begun. -/
def startedUpd (s : State) (target : Nat) : BootSt := { s.hid.boot with
  dir := flashBytes s 0 4096, keys := keysOf s (flashBytes s 0 4096), upd := true, target := target, total := (s.rd R.BOOT_UPD_TOTAL).toNat,
  blocks := [], work := none }

/-- The Chanter's part as a boot begins with its self-test. -/
def testedChnt (c : ChntSt) : ChntSt :=
  { c with test := true, boot := true, sweepT := none, trap := none, pmp := Vector.replicate 16 {}, mcycle := 0#64, minstret := 0#64 }

def startedUpdHid (s : State) (target : Nat) : Hid := { s.hid with boot := startedUpd s target, chnt := testedChnt s.hid.chnt }

/-- The words that an accepted START writes. -/
theorem off_of_startFields {s : State} {x : Fld × Nat} (h : x ∈ startFields s) :
    x.1.off = R.BOOT_UPD_STAT ∨ x.1.off = R.QSPI_CFG ∨ x.1.off = R.BOOT_STAT ∨ x.1.off = R.CHNT_STAT := by
  simp only [startFields, List.mem_cons, List.not_mem_nil, or_false] at h
  obtain rfl | rfl | rfl | rfl | rfl | rfl | rfl | rfl := h <;> simp only [or_true, true_or, F.QSPI_CFG_size, F.QSPI_CFG_mode,
    F.BOOT_STAT_state, F.CHNT_STAT_running, F.CHNT_STAT_parked, F.CHNT_STAT_debug_halted, F.CHNT_STAT_sweeping, wordFld]

/-- A release of the Chanter for a boot, up to the watchdog's. -/
theorem sets_chntRelease (u : State) : ∃ w, Sets [(F.CHNT_STAT_running, 0), (F.CHNT_STAT_parked, 0), (F.CHNT_STAT_debug_halted, 0),
    (F.CHNT_STAT_sweeping, 0)] { u.hid with chnt := testedChnt u.hid.chnt } u w ∧ (chntRelease true).run u = wdRelease.run w := by
  unfold chntRelease
  rw [run_seq_cons, run_seq_cons, run_seq_cons, run_seq_cons, run_seq_cons, run_seq_cons, run_seq_nil, clrB_eq, clrB_eq, clrB_eq, clrB_eq]
  exact ⟨_, ((((Sets.setF F.CHNT_STAT_running 0 u).then_setF F.CHNT_STAT_parked 0).then_setF F.CHNT_STAT_debug_halted 0).then_setF
    F.CHNT_STAT_sweeping 0).then_hidA fun h => { h with chnt := testedChnt h.chnt }, rfl⟩

/-- What an accepted START for region `target` does once the directory `d` has been read. -/
def startActs (target : Nat) (d : List Byte) (s : State) : List Act := [setW R.BOOT_UPD_STAT 0#32, dirTake d false,
  bootA (fun b => { b with upd := true, target := target, total := (s.rd R.BOOT_UPD_TOTAL).toNat, blocks := [], work := none }),
  setF F.BOOT_STAT_state 2, chntRelease true]

theorem sets_startActs (target : Nat) (d : List Byte) (s : State) : ∃ u,
    Sets [(wordFld R.BOOT_UPD_STAT, (0#32).toNat), (F.QSPI_CFG_size, at8 d 7), (F.QSPI_CFG_mode, at8 d 6), (F.BOOT_STAT_state, 2),
      (F.CHNT_STAT_running, 0), (F.CHNT_STAT_parked, 0), (F.CHNT_STAT_debug_halted, 0), (F.CHNT_STAT_sweeping, 0)]
      { s.hid with
        boot := { s.hid.boot with dir := d, keys := keysOf s d, upd := true, target := target, total := (s.rd R.BOOT_UPD_TOTAL).toNat,
                                  blocks := [], work := none }
        chnt := testedChnt s.hid.chnt } s u ∧ (seq (startActs target d s)).run s = wdRelease.run u := by
  have hset := ((((Sets.setW R.BOOT_UPD_STAT 0#32 s).then_setF F.QSPI_CFG_size (at8 d 7)).then_setF F.QSPI_CFG_mode (at8 d 6)).then_hidA
    fun h => { h with boot := { h.boot with dir := d, keys := keysOf s d } }).then_hidA fun h => { h with
      boot := { h.boot with upd := true, target := target, total := (s.rd R.BOOT_UPD_TOTAL).toNat, blocks := [], work := none } }
  have hset' := hset.then_setF F.BOOT_STAT_state 2
  obtain ⟨w, hw, hlast⟩ := sets_chntRelease _
  refine ⟨w, (hset'.trans hw).cast rfl ?_, ?_⟩
  · rw [hset'.hid_eq]
  · rw [startActs, run_seq_cons, run_seq_cons, run_seq_cons, run_seq_cons, run_seq_cons, run_seq_nil, ← hlast]
    rfl

theorem run_startUpd {p : Port} {v : Word} {readOk : Bool} {s : State} (h : startCheck p (b2n (v.getLsbD 8)) readOk s = 0) :
    ∃ u, Sets (startFields s) (startedUpdHid s (b2n (v.getLsbD 8))) s u ∧ (startUpd p v readOk).run s = wdRelease.run u := by
  have hrun : startUpd p v readOk s = seq (startActs (b2n (v.getLsbD 8)) (flashBytes s 0 4096) s) s := if_neg (not_not_intro h)
  obtain ⟨u, hu, he⟩ := sets_startActs (b2n (v.getLsbD 8)) (flashBytes s 0 4096) s
  exact ⟨u, hu, (congrArg (applyAll · s) hrun).trans he⟩

theorem disjointFields_start (s : State) : DisjointFields (startFields s) := by
  refine ⟨?_, ?_⟩
  · simp [startFields, wordFld, F.QSPI_CFG_size, F.QSPI_CFG_mode, F.BOOT_STAT_state, F.CHNT_STAT_running, F.CHNT_STAT_parked,
      F.CHNT_STAT_debug_halted, F.CHNT_STAT_sweeping]
  · simp [startFields, wordFld, Clear, F.QSPI_CFG_size, F.QSPI_CFG_mode, F.BOOT_STAT_state, F.CHNT_STAT_running, F.CHNT_STAT_parked,
      F.CHNT_STAT_debug_halted, F.CHNT_STAT_sweeping, R.BOOT_UPD_STAT, R.QSPI_CFG, R.BOOT_STAT, R.CHNT_STAT]

/-! ### The command register -/

section
variable {p : Port} {v : Word} {readOk : Bool} {s : State}

theorem exec_updStart : exec (.updStart p v readOk) s = finish (portGate p R.BOOT_UPD_CMD (startUpd p (withOp2 v 1) readOk)) s := by
  have hcmd : updCmd p (withOp2 v 1) readOk = startUpd p (withOp2 v 1) readOk := by
    unfold updCmd
    rw [withOp2_mod v 1 (by decide)]
    rfl
  rw [← hcmd]
  rfl

theorem exec_updBlock : exec (.updBlock p v) s = finish (portGate p R.BOOT_UPD_CMD (blockUpd p)) s := by
  have hcmd : updCmd p (withOp2 v 2) true = blockUpd p := by
    unfold updCmd
    rw [withOp2_mod v 2 (by decide)]
    rfl
  rw [← hcmd]
  rfl

theorem exec_updAbort : exec (.updAbort p v) s = finish (portGate p R.BOOT_UPD_CMD (abortUpd p)) s := by
  have hcmd : updCmd p (withOp2 v 3) true = abortUpd p := by
    unfold updCmd
    rw [withOp2_mod v 3 (by decide)]
    rfl
  rw [← hcmd]
  rfl

theorem withOp2_target (v : Word) : (withOp2 v 1).getLsbD 8 = v.getLsbD 8 := by
  simp [withOp2]

/-- Fields that a block's refusal by R62 sets. -/
def refusedFields (c : Nat) : List (Fld × Nat) := [(F.BOOT_UPD_STAT_result, 0x86), (F.BOOT_UPD_STAT_detail, c), (F.BOOT_EVENT_upd_fail, 1)]

theorem disjointFields_refused (c : Nat) : DisjointFields (refusedFields c) := by
  refine ⟨?_, ?_⟩
  · simp [refusedFields, F.BOOT_UPD_STAT_result, F.BOOT_UPD_STAT_detail, F.BOOT_EVENT_upd_fail]
  · simp [refusedFields, Clear, F.BOOT_UPD_STAT_result, F.BOOT_UPD_STAT_detail, F.BOOT_EVENT_upd_fail, R.BOOT_UPD_STAT, R.BOOT_EVENT]

/-- A burst's refusal ends the block with code 0x86 and the code of R62. -/
theorem sets_refused (c : Nat) (s : State) : ∃ l, Sets l s.hid s ((seq [updCode 0x86, setF F.BOOT_UPD_STAT_detail c, burstRefuse 3 c,
    setB F.BOOT_EVENT_upd_fail]).run s) ∧ (∀ x ∈ refusedFields c, x ∈ l) ∧ Beside (refusedFields c) l ∧
    ∀ x ∈ l, x.1.off ≠ R.SYS_MODE_STAT := by
  rw [run_seq_cons, run_seq_cons, run_seq_cons, run_seq_cons, run_seq_nil, setB_eq]
  have hfirst := (Sets.setF F.BOOT_UPD_STAT_result 0x86 s).then_setF F.BOOT_UPD_STAT_detail c
  refine ⟨_, (hfirst.then_keep (sets_burstRefuse 3 c _)).then_setF F.BOOT_EVENT_upd_fail 1, ?_, ?_, ?_⟩
  · simp [refusedFields]
  · split <;> simp [Beside, refusedFields, F.BOOT_UPD_STAT_result, F.BOOT_UPD_STAT_detail, F.BOOT_EVENT_upd_fail, F.HARV_BURST_STAT_type,
      F.HARV_BURST_STAT_last_code, F.HARV_EVENT_burst_refused, R.BOOT_UPD_STAT, R.BOOT_EVENT, R.HARV_BURST_STAT, R.HARV_EVENT]
  · split <;> simp +decide

theorem blockUpd_of_ready (hp : ¬ p = .fw) (hb : bootBusy s = false) (hupd : s.hid.boot.upd = true) :
    blockUpd p s = if blockCheck s ≠ 0 then updCode (blockCheck s) s
    else if flashAdmit s ≠ 0 then
      seq [updCode 0x86, setF F.BOOT_UPD_STAT_detail (flashAdmit s), burstRefuse 3 (flashAdmit s), setB F.BOOT_EVENT_upd_fail] s
    else seq [updCode 0, setF F.BOOT_UPD_STAT_detail 0, setB F.BOOT_UPD_STAT_busy, setF F.BOOT_STAT_state 3, burstStart 3,
      bootA fun b => { b with work := some ((s.rd R.BOOT_UPD_OFS).toNat, wordsGet s R.BOOT_UPD_BUF 1024) }] s :=
  (if_neg hp).trans ((if_neg (by rw [hb]; decide)).trans (if_neg (by rw [hupd]; decide)))

end

section
variable {p : Port} {v : Word} {s : State} (hl : Live p s R.BOOT_UPD_CMD = true)
include hl

theorem completes_updStart_refused {readOk : Bool} (h : startCheck p (b2n (v.getLsbD 8)) readOk s ≠ 0) : Completes (.updStart p v readOk) s
    (Sets [(F.BOOT_UPD_STAT_result, startCheck p (b2n (v.getLsbD 8)) readOk s)] s.hid s) := by
  refine completes_portGate hl exec_updStart ?_ (by simp +decide)
  rw [← withOp2_target v] at h ⊢
  have hrun : startUpd p (withOp2 v 1) readOk s = updCode (startCheck p (b2n ((withOp2 v 1).getLsbD 8)) readOk s) s := if_pos h
  rw [Act.run, hrun]
  exact Sets.setF F.BOOT_UPD_STAT_result _ s

/-- A START that is accepted. -/
theorem completes_updStart {readOk : Bool} (h : startCheck p (b2n (v.getLsbD 8)) readOk s = 0) (hhalt : s.mode ≠ HALT) :
    Completes (.updStart p v readOk) s fun t => ∃ u, Sets (startFields s) (startedUpdHid s (b2n (v.getLsbD 8))) s u ∧ Began s.mode u t := by
  rw [← withOp2_target v] at h ⊢
  obtain ⟨u, hu, hrun⟩ := run_startUpd h
  have hgate : (portGate p R.BOOT_UPD_CMD (startUpd p (withOp2 v 1) readOk)).run s = wdRelease.run u :=
    (portGate_of_live p _ _ s hl).trans hrun
  have hmode : u.mode = s.mode := hu.mode fun x hx => by
    obtain h | h | h | h := off_of_startFields hx <;> rw [h] <;> decide
  obtain ⟨t, ht, hbegan⟩ := finish_began (u := u) (by rw [hgate]; exact rests_wdRelease.keeps u) (by rw [hgate]; exact rests_wdRelease.flash u)
    hmode hhalt (by rw [hu.hid_eq]; rfl) (by rw [hu.hid_eq]; rfl)
  exact ⟨t, exec_updStart.trans ht, u, hu, hbegan⟩

/-! ### BLOCK -/

theorem completes_updBlock {l : List (Fld × Nat)} {h : Hid} (hs : Sets l h s ((blockUpd p).run s)) (hm : ∀ x ∈ l, x.1.off ≠ R.SYS_MODE_STAT) :
    Completes (.updBlock p v) s (Sets l h s) := completes_portGate hl exec_updBlock hs hm

theorem completes_updBlock_firmware (hp : p = .fw) : Completes (.updBlock p v) s (Sets [(F.BOOT_UPD_STAT_result, 0x81)] s.hid s) := by
  have hrun : blockUpd p s = updCode 0x81 s := if_pos hp
  refine completes_updBlock hl ?_ (by simp +decide)
  rw [Act.run, hrun]
  exact Sets.setF F.BOOT_UPD_STAT_result _ s

section
variable (hp : ¬ p = .fw)
include hp

theorem completes_updBlock_busy (hb : bootBusy s = true) : Completes (.updBlock p v) s (Sets [(F.BOOT_UPD_STAT_result, 0x8B)] s.hid s) := by
  have hrun : blockUpd p s = updCode 0x8B s := (if_neg hp).trans (if_pos hb)
  refine completes_updBlock hl ?_ (by simp +decide)
  rw [Act.run, hrun]
  exact Sets.setF F.BOOT_UPD_STAT_result _ s

variable (hb : bootBusy s = false) (hupd : s.hid.boot.upd = true)
include hb hupd

theorem completes_updBlock_checked (hc : blockCheck s ≠ 0) :
    Completes (.updBlock p v) s (Sets [(F.BOOT_UPD_STAT_result, blockCheck s)] s.hid s) := by
  have hrun : blockUpd p s = updCode (blockCheck s) s := (blockUpd_of_ready hp hb hupd).trans (if_pos hc)
  refine completes_updBlock hl ?_ (by simp +decide)
  rw [Act.run, hrun]
  exact Sets.setF F.BOOT_UPD_STAT_result _ s

variable (hc : blockCheck s = 0)
include hc

theorem completes_updBlock_refused (hf : flashAdmit s ≠ 0) : Completes (.updBlock p v) s fun t => t.f F.BOOT_UPD_STAT_result = 0x86 ∧
    t.f F.BOOT_UPD_STAT_detail = flashAdmit s % 256 ∧ t.on F.BOOT_EVENT_upd_fail = true ∧ t.hid = s.hid ∧ SameMem s t := by
  have hrun := ((blockUpd_of_ready (p := p) hp hb hupd).trans (if_neg (not_not_intro hc))).trans (if_pos hf)
  obtain ⟨l, hset, hmem, hbeside, hspare⟩ := sets_refused (flashAdmit s) s
  obtain ⟨t, ht, hall⟩ := completes_updBlock (v := v) (h := s.hid) hl (by rw [Act.run, hrun]; exact hset) hspare
  have hd := disjointFields_refused (flashAdmit s)
  have hcore := fun x hx => hmem x hx
  refine ⟨t, ht, Sets.f_of_core hd hbeside hall (hcore _ (.head _)) (.head _),
    Sets.f_of_core hd hbeside hall (hcore _ (.tail _ (.head _))) (.tail _ (.head _)),
    Sets.on_of_core hd hbeside hall (hcore _ (.tail _ (.tail _ (.head _)))) (.tail _ (.tail _ (.head _))) rfl, hall.hid_eq, ?_⟩
  obtain ⟨-, hmem, -⟩ := hall
  exact hmem

theorem completes_updBlock_begins (hf : flashAdmit s = 0) : Completes (.updBlock p v) s
    (Sets [(F.BOOT_UPD_STAT_result, 0), (F.BOOT_UPD_STAT_detail, 0), (F.BOOT_UPD_STAT_busy, 1), (F.BOOT_STAT_state, 3),
      (F.HARV_BURST_STAT_type, 3), (F.HARV_BURST_STAT_last_code, 0), (F.HARV_BURST_STAT_busy, 1)]
      (withBoot s { s.hid.boot with work := some ((s.rd R.BOOT_UPD_OFS).toNat, wordsGet s R.BOOT_UPD_BUF 1024) }) s) := by
  have hrun := ((blockUpd_of_ready (p := p) hp hb hupd).trans (if_neg (not_not_intro hc))).trans (if_neg (not_not_intro hf))
  refine completes_updBlock hl ?_ (by simp +decide)
  generalize wordsGet s R.BOOT_UPD_BUF 1024 = buf at hrun ⊢
  rw [Act.run, hrun]
  exact ((((((((Sets.setF F.BOOT_UPD_STAT_result 0 s).then_setF F.BOOT_UPD_STAT_detail 0).then_setF F.BOOT_UPD_STAT_busy 1).then_setF
    F.BOOT_STAT_state 3).then_setF F.HARV_BURST_STAT_type 3).then_setF F.HARV_BURST_STAT_last_code 0).then_setF F.HARV_BURST_STAT_busy 1).then_hidA
    fun h => { h with boot := { h.boot with work := some ((s.rd R.BOOT_UPD_OFS).toNat, buf) } })

end

/-! ### ABORT -/

theorem completes_updAbort_firmware (hp : p = .fw) : Completes (.updAbort p v) s (Sets [(F.BOOT_UPD_STAT_result, 0x81)] s.hid s) := by
  have hrun : abortUpd p s = updCode 0x81 s := if_pos hp
  refine completes_portGate hl exec_updAbort ?_ (by simp +decide)
  rw [Act.run, hrun]
  exact Sets.setF F.BOOT_UPD_STAT_result _ s

theorem completes_updAbort_busy (hp : ¬ p = .fw) (hb : bootBusy s = true) :
    Completes (.updAbort p v) s (Sets [(F.BOOT_UPD_STAT_result, 0x8B)] s.hid s) := by
  have hrun : abortUpd p s = updCode 0x8B s := (if_neg hp).trans (if_pos hb)
  refine completes_portGate hl exec_updAbort ?_ (by simp +decide)
  rw [Act.run, hrun]
  exact Sets.setF F.BOOT_UPD_STAT_result _ s

theorem completes_updAbort (hp : ¬ p = .fw) (hb : bootBusy s = false) : Completes (.updAbort p v) s
    (Sets [(F.BOOT_UPD_STAT_result, 0), (F.BOOT_UPD_STAT_recv, 0)] (withBoot s { s.hid.boot with blocks := [] }) s) := by
  have hrun : abortUpd p s = seq [updCode 0, setF F.BOOT_UPD_STAT_recv 0, bootA fun b => { b with blocks := [] }] s :=
    (if_neg hp).trans (if_neg (by rw [hb]; decide))
  refine completes_portGate hl exec_updAbort ?_ (by simp +decide)
  rw [Act.run, hrun]
  exact ((Sets.setF F.BOOT_UPD_STAT_result 0 s).then_setF F.BOOT_UPD_STAT_recv 0).then_hidA fun h => { h with boot := { h.boot with blocks := [] } }

end

end Sys2Proof.Machine
end

section
/-!
What the flash holds once a block has been erased and its pages programmed (R445, R466).
-/

namespace Sys2Proof.Machine

/-! ### Keeping all but the flash -/

/-- An action that leaves boot, update, the other memories and the mode. -/
def Spare (a : Act) : Prop := ∀ s, Keeps false s (a.run s)

theorem Rests.spare {a : Act} (h : Rests false a) : Spare a := fun s => h.keeps s

theorem spare_flashUndef (a n : Nat) : Spare (flashUndef a n) := fun s => by
  obtain ⟨⟨hregs, hhid, hlp, hsr, hnow⟩, hstat, -⟩ := run_flashUndef a n s
  have hrd : ∀ off, ((flashUndef a n).run s).rd off = s.rd off := fun off => by
    by_cases h : off = R.BOOT_STAT
    · rw [h, hstat]
    · exact hregs off h
  exact ⟨fun off _ => hrd off, .inl (congrArg F.SYS_MODE_STAT_mode.get (hrd _)), hlp, hsr, hnow, by rw [hhid], by rw [State.up, hhid]; rfl,
    by rw [hhid]⟩

theorem spare_flashErase (a n : Nat) : Spare (flashErase a n) := fun _ => ⟨fun _ _ => rfl, .inl rfl, rfl, rfl, rfl, rfl, rfl, rfl⟩

/-! ### Erasing and programming -/

theorem pairwise_of_wf {α : Type} [DecidableEq α] {d : Nat → α} {t : Tab α} (h : t.wf d = true) : t.Pairwise fun a b => a.1 < b.1 := by
  induction t with
  | nil => exact .nil
  | cons x t ih =>
    obtain ⟨k, v⟩ := x
    obtain ⟨-, habove, hwf⟩ := (Tab.wf_cons d k v t).1 h
    exact .cons habove (ih hwf)

theorem flByte_flashErase {a n k : Nat} {s : State} (hwf : s.wf = true) : ((flashErase a n).run s).flByte k =
    if a ≤ k ∧ k < a + n then 0xFF#8 else s.flByte k := by
  have hflash : Memory.wf flashBlank s.flash = true := by
    simp only [State.wf, Bool.and_eq_true] at hwf
    obtain ⟨⟨⟨-, hflash⟩, -⟩, -⟩ := hwf
    exact hflash
  have hrun : ((flashErase a n).run s).flByte k = (s.flash.keep fun j => decide (j < a) || decide (a + n ≤ j)).get flashBlank k := rfl
  rw [hrun]
  by_cases h : a ≤ k ∧ k < a + n
  · rw [if_pos h]
    exact Tab.get_keep_of_dropped _ _ _ _ (by simp; omega)
  · rw [if_neg h]
    exact Tab.get_keep _ _ _ _ (by simp; omega) (pairwise_of_wf hflash)

/-- Bytes that are programmed from `a` on: each keeps the bits that both the flash and the data have. -/
theorem applyAll_program (s : State) (a k : Nat) (bs : List Byte) (j : Nat) (x : State) :
    (applyAll ((bs.zipIdx j).map fun y => .flash (a + y.2) (s.flByte (a + y.2) &&& y.1)) x).flByte k =
      if a + j ≤ k ∧ k < a + j + bs.length then s.flByte k &&& bs.getD (k - (a + j)) 0#8 else x.flByte k := by
  induction bs generalizing j x with
  | nil => exact (if_neg (by simp)).symm
  | cons b bs ih =>
    have hput : (Upd.apply (.flash (a + j) (s.flByte (a + j) &&& b)) x).flByte k =
        if k = a + j then s.flByte (a + j) &&& b else x.flByte k := Tab.get_put _ _ _ _ _ (fun _ => rfl) _
    rw [List.zipIdx_cons, List.map_cons, applyAll, ih, hput, List.length_cons]
    obtain h | rfl | h := Nat.lt_trichotomy k (a + j)
    · rw [if_neg (by omega), if_neg (by omega), if_neg (by omega)]
    · rw [if_neg (by omega), if_pos rfl, if_pos (by omega), Nat.sub_self]
      rfl
    · by_cases hlt : k < a + (j + 1) + bs.length
      · rw [if_pos (by omega), if_pos (by omega), show k - (a + j) = k - (a + (j + 1)) + 1 by omega]
        rfl
      · rw [if_neg (by omega), if_neg (by omega), if_neg (by omega)]

/-- An action that programs bytes from `a` on, and nothing else. -/
structure Programs (a : Nat) (bs : List Byte) (act : Act) : Prop where
  spare : Spare act
  bytes : ∀ s k, (act.run s).flByte k = if a ≤ k ∧ k < a + bs.length then s.flByte k &&& bs.getD (k - a) 0#8 else s.flByte k

theorem programs_flashProgram (a : Nat) (bs : List Byte) : Programs a bs (flashProgram a bs) where
  spare s := by
    have hall : ∀ (l : List (Byte × Nat)) (x : State),
        Keeps false x (applyAll (l.map fun y => .flash (a + y.2) (s.flByte (a + y.2) &&& y.1)) x) := by
      intro l
      induction l with
      | nil => exact fun x => .refl _ x
      | cons y l ih =>
        intro x
        have hbyte : Keeps false x (Upd.apply (.flash (a + y.2) (s.flByte (a + y.2) &&& y.1)) x) :=
          ⟨fun _ _ => rfl, .inl rfl, rfl, rfl, rfl, rfl, rfl, rfl⟩
        exact hbyte.trans (ih _)
    exact hall _ s
  bytes s k := applyAll_program s a k bs 0 s

theorem programs_pageBurst (a : Nat) (bs : List Byte) : Programs a bs (pageBurst a bs) := by
  have hend : Rests false (whenA flashRunning (burstEnd 0)) := .whenA (rests_burstEnd 0)
  have hstart : Rests false (burstStart 3) := .seq ⟨.setF (by decide), .setF (by decide), .setF (by decide), trivial⟩
  obtain ⟨hspare, hbytes⟩ := programs_flashProgram a bs
  have hrun : ∀ s, (pageBurst a bs).run s = (whenA flashRunning (burstEnd 0)).run ((flashProgram a bs).run ((burstStart 3).run
      ((whenA flashRunning (burstEnd 0)).run s))) := fun s => by
    rw [pageBurst, run_seq_cons, run_seq_cons, run_seq_cons, run_seq_cons, run_seq_nil]
  refine ⟨fun s => ?_, fun s k => ?_⟩
  · rw [hrun]
    exact (((hend.keeps s).trans (hstart.keeps _)).trans (hspare _)).trans (hend.keeps _)
  · have hbefore := flByte_of_flash_eq ((hstart.flash ((whenA flashRunning (burstEnd 0)).run s)).trans (hend.flash s)) k
    rw [hrun, flByte_of_flash_eq (hend.flash _), hbytes, hbefore]

/-! ### The pages of a block -/

/-- Page `i` of a block. -/
def blockPage (bs : List Byte) (i : Nat) : List Byte := (bs.drop (256 * i)).take 256

theorem length_blockPage {bs : List Byte} {i : Nat} (h : 256 * (i + 1) ≤ bs.length) : (blockPage bs i).length = 256 := by
  rw [blockPage, List.length_take, List.length_drop]
  omega

theorem getD_blockPage {bs : List Byte} {i j : Nat} (h : j < 256) : (blockPage bs i).getD j 0#8 = bs.getD (256 * i + j) 0#8 := by
  rw [blockPage, List.getD_eq_getElem?_getD, List.getD_eq_getElem?_getD, List.getElem?_take_of_lt h, List.getElem?_drop]

/-- The first `n` pages programmed over an erased sector. -/
theorem run_pages {a n : Nat} {bs : List Byte} {page : Nat → Act} (hpage : ∀ i, Programs (a + 256 * i) (blockPage bs i) (page i))
    (hn : 256 * n ≤ bs.length) {e : State} (he : ∀ k, a ≤ k → k < a + 256 * n → e.flByte k = 0xFF#8) :
    Keeps false e ((forEach (List.range n) page).run e) ∧
    ∀ k, ((forEach (List.range n) page).run e).flByte k = if a ≤ k ∧ k < a + 256 * n then bs.getD (k - a) 0#8 else e.flByte k := by
  induction n with
  | zero => exact ⟨.refl _ e, fun k => (if_neg (by omega)).symm⟩
  | succ n ih =>
    obtain ⟨hkeep, hbytes⟩ := ih (by omega) fun k hk hlt => he k hk (by omega)
    have hrun : (forEach (List.range (n + 1)) page).run e = (page n).run ((forEach (List.range n) page).run e) := by
      rw [forEach, List.range_succ, List.map_append, run_seq_append]
      exact (run_seq_cons _ _ _).trans (run_seq_nil _)
    rw [hrun]
    refine ⟨hkeep.trans ((hpage n).spare _), fun k => ?_⟩
    rw [(hpage n).bytes, length_blockPage hn, hbytes]
    by_cases hin : a + 256 * n ≤ k ∧ k < a + 256 * n + 256
    · rw [if_pos hin, if_neg (by omega), if_pos (by omega), he k (by omega) (by omega), getD_blockPage (by omega),
        show 256 * n + (k - (a + 256 * n)) = k - a by omega]
      exact BitVec.allOnes_and
    · rw [if_neg hin]
      by_cases hlow : a ≤ k ∧ k < a + 256 * n
      · rw [if_pos hlow, if_pos (by omega)]
      · rw [if_neg hlow, if_neg (by omega)]

/-! ### The sector of a block -/

/-- The flash's part in the end of a block: the sector is erased or left undefined, `n` pages are programmed, and the next one may be left
undefined. -/
def blockFlash (a size n : Nat) (bs : List Byte) (undef lost torn : Bool) : List Act := [
  if undef then flashUndef a size else flashErase a size,
  if lost then forEach (List.range n) fun i => flashProgram (a + 256 * i) (blockPage bs i)
  else seq [whenA flashRunning (burstEnd 0), forEach (List.range n) fun i => pageBurst (a + 256 * i) (blockPage bs i)],
  only torn (flashUndef (a + 256 * n) 256)]

/-- What the sector of a block that ends holds, from `s` to `w`: the pages programmed, and from page `m` on erased bytes. -/
structure Sector (a n m : Nat) (bs : List Byte) (undef : Bool) (s w : State) : Prop where
  keeps : Keeps false s w
  pages : ∀ i, i < 256 * n → w.flByte (a + i) = bs.getD i 0#8
  erased : undef = false → ∀ i, 256 * m ≤ i → i < 4096 → w.flByte (a + i) = 0xFF#8
  outside : ∀ k, (k < a ∨ a + 4096 ≤ k) → w.flByte k = s.flByte k

/-- The sector before its pages. -/
theorem sector_erase {a size : Nat} {bs : List Byte} {undef : Bool} {s : State} (hsize : size = 4096) (hwf : s.wf = true) :
    Sector a 0 0 bs undef s ((if undef then flashUndef a size else flashErase a size).run s) := by
  cases undef with
  | true =>
    obtain ⟨-, -, hout⟩ := run_flashUndef a size s
    exact ⟨spare_flashUndef a size s, fun i hi => absurd hi (by omega), (fun h => nomatch h), fun k hk => hout k (by omega)⟩
  | false =>
    refine ⟨spare_flashErase a size s, fun i hi => absurd hi (by omega), fun _ i _ hi => ?_, fun k hk => ?_⟩
    · exact (flByte_flashErase hwf).trans (if_pos ⟨by omega, by omega⟩)
    · exact (flByte_flashErase hwf).trans (if_neg (by omega))

/-- The pages over it. -/
theorem Sector.program {a n : Nat} {bs : List Byte} {undef : Bool} {s e : State} (h : Sector a 0 0 bs undef s e) (hlen : bs.length = 4096)
    (hn : n ≤ 16) (hundef : undef = true → n = 0) {page : Nat → Act} (hpage : ∀ i, Programs (a + 256 * i) (blockPage bs i) (page i)) :
    Sector a n n bs undef s ((forEach (List.range n) page).run e) := by
  have hblank : ∀ k, a ≤ k → k < a + 256 * n → e.flByte k = 0xFF#8 := fun k hk hlt => by
    cases undef with
    | true => exact absurd (hundef rfl) (by omega)
    | false =>
      have := h.erased rfl (k - a) (by omega) (by omega)
      rwa [Nat.add_sub_cancel' hk] at this
  obtain ⟨hkeep, hbytes⟩ := run_pages hpage (by omega) hblank
  refine ⟨h.keeps.trans hkeep, fun i hi => ?_, fun hu i hlow hi => ?_, fun k hk => ?_⟩
  · rw [hbytes, if_pos ⟨by omega, by omega⟩, Nat.add_sub_cancel_left]
  · rw [hbytes, if_neg (by omega), h.erased hu i (by omega) hi]
  · rw [hbytes, if_neg (by omega), h.outside k hk]

/-- An action that leaves the flash. -/
theorem Sector.rests {a n m : Nat} {bs : List Byte} {undef : Bool} {s e : State} (h : Sector a n m bs undef s e) {act : Act}
    (hact : Rests false act) : Sector a n m bs undef s (act.run e) := by
  have hbyte := flByte_of_flash_eq (hact.flash e)
  exact ⟨h.keeps.trans (hact.keeps e), fun i hi => (hbyte _).trans (h.pages i hi), fun hu i hlow hi => (hbyte _).trans (h.erased hu i hlow hi),
    fun k hk => (hbyte k).trans (h.outside k hk)⟩

/-- A page that is left undefined. -/
theorem Sector.tear {a n : Nat} {bs : List Byte} {undef : Bool} {s e : State} (h : Sector a n n bs undef s e) {torn : Bool}
    (htorn : torn = true → n < 16) : Sector a n (if torn then n + 1 else n) bs undef s ((only torn (flashUndef (a + 256 * n) 256)).run e) := by
  cases torn with
  | false => exact h
  | true =>
    have hlt := htorn rfl
    obtain ⟨-, -, hout⟩ := run_flashUndef (a + 256 * n) 256 e
    refine ⟨h.keeps.trans (spare_flashUndef _ _ e), fun i hi => (hout _ (by omega)).trans (h.pages i hi), fun hu i hlow hi => ?_,
      fun k hk => (hout k (by omega)).trans (h.outside k hk)⟩
    rw [if_pos rfl] at hlow
    exact (hout _ (by omega)).trans (h.erased hu i (by omega) hi)

theorem sector_blockFlash {a size n : Nat} {bs : List Byte} {undef lost torn : Bool} {s : State} (hsize : size = 4096) (hwf : s.wf = true)
    (hlen : bs.length = 4096) (hn : n ≤ 16) (hundef : undef = true → n = 0) (htorn : torn = true → n < 16) :
    Sector a n (if torn then n + 1 else n) bs undef s ((seq (blockFlash a size n bs undef lost torn)).run s) := by
  rw [blockFlash, run_seq_cons, run_seq_cons, run_seq_cons, run_seq_nil]
  refine Sector.tear ?_ htorn
  have herase : Sector a 0 0 bs undef s _ := sector_erase hsize hwf
  cases lost with
  | true => exact herase.program hlen hn hundef fun i => programs_flashProgram _ _
  | false =>
    show Sector a n n bs undef s ((seq [whenA flashRunning (burstEnd 0), forEach (List.range n) fun i =>
      pageBurst (a + 256 * i) (blockPage bs i)]).run _)
    rw [run_seq_cons, run_seq_cons, run_seq_nil]
    exact (herase.rests (.whenA (rests_burstEnd 0))).program hlen hn hundef fun i => programs_pageBurst _ _

end Sys2Proof.Machine
end

section
/-!
How a block ends (R466): what its registers show, and the check of the whole region after the last one (R467).
-/

namespace Sys2Proof.Machine

/-! ### The end of a block in parts -/

/-- The supply is being lost. -/
def supplyLost (s : State) : Bool := decide (s.hid.pwr.trans = .toHarvest)

/-- The pages of the block in work that are programmed. -/
def donePages (pages : Nat) (refused bad : Bool) (s : State) : Nat :=
  if !bad ∧ pageRefusal refused s = 0 ∧ !supplyLost s then 16 else min pages 16

/-- The blocks received once the one at `ofs` has landed. -/
def gotBlocks (s : State) (ofs : Nat) : List Nat := if s.hid.boot.blocks.contains ofs then s.hid.boot.blocks else ofs :: s.hid.boot.blocks

/-- What a block that has landed shows. -/
def blockLanded (size ofs : Nat) (s : State) : Act := seq [updCode 0, setB F.BOOT_EVENT_block_done, setF F.BOOT_UPD_STAT_recv (gotBlocks s ofs).length,
  bootA (fun b => { b with blocks := gotBlocks s ofs }), only (s.hid.boot.total ≤ size * (gotBlocks s ofs).length) updFinish]

/-- How the block is judged. -/
def blockVerdict (size ofs : Nat) (refused bad : Bool) (s : State) : Act :=
  if bad then seq [updCode 0x87, setB F.BOOT_EVENT_upd_fail]
  else if supplyLost s then seq [updCode 0x86, setF F.BOOT_UPD_STAT_detail (lossCode s), setB F.BOOT_EVENT_upd_fail]
  else if pageRefusal refused s ≠ 0 then seq [updCode 0x86, setF F.BOOT_UPD_STAT_detail (pageRefusal refused s),
    burstRefuse 3 (pageRefusal refused s), setB F.BOOT_EVENT_upd_fail]
  else blockLanded size ofs s

/-- The block in work is none any more. -/
def blockClosed : List Act := [clrB F.BOOT_UPD_STAT_busy, setF F.BOOT_STAT_state 2, bootA fun b => { b with work := none }]

/-- The flash's part for a block of `size` bytes of which `n` pages are programmed. -/
def blockPart (size ofs n : Nat) (bs : List Byte) (bad : Bool) (s : State) : List Act := blockFlash (updBase s + ofs) size n bs
  (decide (n = 0 ∧ (bad ∨ supplyLost s))) (supplyLost s) (decide (bad ∧ 0 < n ∧ n < 16))

section
variable {s : State} {ofs : Nat} {bs : List Byte} (hwork : s.hid.boot.work = some (ofs, bs))
include hwork

theorem blockDone_eq (pages : Nat) (refused bad : Bool) : ∃ size, size = 4096 ∧ blockDone pages refused bad s =
    seq (blockPart size ofs (donePages pages refused bad s) bs bad s ++ (blockClosed ++ [blockVerdict size ofs refused bad s])) s := by
  refine ⟨4096, rfl, ?_⟩
  unfold blockDone
  generalize 4096 = size
  rw [hwork]
  simp only [blockPart, blockFlash, blockPage, blockClosed, blockVerdict, blockLanded, donePages, supplyLost, gotBlocks, decide_eq_true_eq,
    List.cons_append, List.nil_append]
  congr!

/-- A block that ends leaves its sector, then its registers. -/
theorem run_blockDone (hwf : s.wf = true) (hlen : bs.length = 4096) (pages : Nat) (refused bad : Bool) : ∃ size w, size = 4096 ∧
    Sector (updBase s + ofs) (donePages pages refused bad s)
      (if decide (bad ∧ 0 < donePages pages refused bad s ∧ donePages pages refused bad s < 16) then donePages pages refused bad s + 1
        else donePages pages refused bad s) bs (decide (donePages pages refused bad s = 0 ∧ (bad ∨ supplyLost s))) s w ∧
    (blockDone pages refused bad).run s = (blockVerdict size ofs refused bad s).run ((seq blockClosed).run w) := by
  obtain ⟨size, hsize, heq⟩ := blockDone_eq hwork pages refused bad
  have hn : donePages pages refused bad s ≤ 16 := by
    unfold donePages
    split <;> omega
  refine ⟨size, _, hsize, sector_blockFlash (lost := supplyLost s) hsize hwf hlen hn (fun h => (of_decide_eq_true h).1)
    fun h => (of_decide_eq_true h).2.2, (congrArg (applyAll · s) heq).trans ?_⟩
  refine (run_seq_append _ _ s).trans ((run_seq_append _ _ _).trans ?_)
  exact (run_seq_cons _ _ _).trans (run_seq_nil _)

end

/-- Fields that show that no block is in work. -/
def closedFields : List (Fld × Nat) := [(F.BOOT_UPD_STAT_busy, 0), (F.BOOT_STAT_state, 2)]

theorem sets_blockClosed (w : State) : Sets closedFields (withBoot w { w.hid.boot with work := none }) w ((seq blockClosed).run w) := by
  rw [blockClosed, run_seq_cons, run_seq_cons, run_seq_cons, run_seq_nil, clrB_eq]
  exact ((Sets.setF F.BOOT_UPD_STAT_busy 0 w).then_setF F.BOOT_STAT_state 2).then_hidA fun h => { h with boot := { h.boot with work := none } }

theorem closedFields_spare {x : Fld × Nat} (h : x ∈ closedFields) : x.1.off ≠ R.SYS_MODE_STAT := by
  simp only [closedFields, List.mem_cons, List.not_mem_nil, or_false] at h
  obtain rfl | rfl := h <;> decide

theorem exec_updBlockDone (pages : Fin 17) (refused : Option (BitVec 4)) (bad : Bool) (s : State) :
    exec (.updBlockDone pages refused bad) s = finish (blockDone pages refused.isSome bad) s := rfl

/-- An answer that sets fields after a state of the same mode. -/
theorem completes_after {c : Instr} {a : Act} {s w : State} {l : List (Fld × Nat)} {h : Hid} (he : exec c s = finish a s) (hw : w.mode = s.mode)
    (hs : Sets l h w (a.run s)) (hm : ∀ x ∈ l, x.1.off ≠ R.SYS_MODE_STAT) : Completes c s (Sets l h w) :=
  ⟨_, he.trans (finish_same a s ((hs.mode hm).trans hw)), hs.then_levelsFall⟩

theorem Keeps.mode_eq {s t : State} (h : Keeps false s t) : t.mode = s.mode := h.mode.resolve_right fun hh => Bool.false_ne_true hh.1

theorem Sets.flByte_eq {l : List (Fld × Nat)} {h : Hid} {s t : State} (hs : Sets l h s t) (k : Nat) : t.flByte k = s.flByte k := by
  obtain ⟨-, ⟨-, hflash, -⟩, -⟩ := hs
  exact flByte_of_flash_eq hflash k

/-! ### A block that fails -/

/-- Fields that a failed block shows with code `c`. -/
def failedFields (c : Nat) : List (Fld × Nat) := closedFields ++ [(F.BOOT_UPD_STAT_result, c), (F.BOOT_EVENT_upd_fail, 1)]

def abandonedFields (c : Nat) : List (Fld × Nat) :=
  closedFields ++ [(F.BOOT_UPD_STAT_result, 0x86), (F.BOOT_UPD_STAT_detail, c), (F.BOOT_EVENT_upd_fail, 1)]

theorem disjointFields_abandoned (c : Nat) : DisjointFields (abandonedFields c) := by
  refine ⟨?_, ?_⟩
  · simp [abandonedFields, closedFields, F.BOOT_UPD_STAT_busy, F.BOOT_STAT_state, F.BOOT_UPD_STAT_result, F.BOOT_UPD_STAT_detail, F.BOOT_EVENT_upd_fail]
  · simp [abandonedFields, closedFields, Clear, F.BOOT_UPD_STAT_busy, F.BOOT_STAT_state, F.BOOT_UPD_STAT_result, F.BOOT_UPD_STAT_detail,
      F.BOOT_EVENT_upd_fail, R.BOOT_UPD_STAT, R.BOOT_STAT, R.BOOT_EVENT]

theorem disjointFields_failed (c : Nat) : DisjointFields (failedFields c) := by
  refine ⟨?_, ?_⟩
  · simp [failedFields, closedFields, F.BOOT_UPD_STAT_busy, F.BOOT_STAT_state, F.BOOT_UPD_STAT_result, F.BOOT_EVENT_upd_fail]
  · simp [failedFields, closedFields, Clear, F.BOOT_UPD_STAT_busy, F.BOOT_STAT_state, F.BOOT_UPD_STAT_result, F.BOOT_EVENT_upd_fail,
      R.BOOT_UPD_STAT, R.BOOT_STAT, R.BOOT_EVENT]

/-- The fields of a refused block that are followed. -/
def heldFields (c : Nat) : List (Fld × Nat) := (F.BOOT_UPD_STAT_busy, 0) :: refusedFields c

theorem disjointFields_held (c : Nat) : DisjointFields (heldFields c) := by
  refine ⟨?_, ?_⟩
  · simp [heldFields, refusedFields, F.BOOT_UPD_STAT_busy, F.BOOT_UPD_STAT_result, F.BOOT_UPD_STAT_detail, F.BOOT_EVENT_upd_fail]
  · simp [heldFields, refusedFields, Clear, F.BOOT_UPD_STAT_busy, F.BOOT_UPD_STAT_result, F.BOOT_UPD_STAT_detail, F.BOOT_EVENT_upd_fail,
      R.BOOT_UPD_STAT, R.BOOT_EVENT]

theorem beside_held {c : Nat} {l : List (Fld × Nat)} (h : Beside (refusedFields c) l) : Beside (heldFields c) (closedFields ++ l) := by
  intro x hx
  obtain hx | hx := List.mem_append.1 hx
  · simp only [closedFields, List.mem_cons, List.not_mem_nil, or_false] at hx
    obtain rfl | rfl := hx
    · exact .inl (.head _)
    · exact .inr (by simp [heldFields, refusedFields, F.BOOT_STAT_state, F.BOOT_UPD_STAT_busy, F.BOOT_UPD_STAT_result, F.BOOT_UPD_STAT_detail,
        F.BOOT_EVENT_upd_fail, R.BOOT_STAT, R.BOOT_UPD_STAT, R.BOOT_EVENT])
  · obtain hx | hx := h x hx
    · exact .inl (.tail _ hx)
    · refine .inr fun y hy => ?_
      obtain rfl | hy := List.mem_cons.1 hy
      · exact hx (F.BOOT_UPD_STAT_result, 0x86) (.head _)
      · exact hx y hy

section
variable {s : State} {ofs : Nat} {bs : List Byte} (hwork : s.hid.boot.work = some (ofs, bs)) (hwf : s.wf = true) (hlen : bs.length = 4096)
  (pages : Fin 17)
include hwork hwf hlen

/-- A flash failure. -/
theorem completes_blockDone_failed : Completes (.updBlockDone pages none true) s fun t => t.f F.BOOT_UPD_STAT_result = 0x87 ∧
    t.on F.BOOT_EVENT_upd_fail = true ∧ t.hid.boot.blocks = s.hid.boot.blocks ∧ t.on F.BOOT_UPD_STAT_busy = false ∧
    (∀ i, i < 256 * pages.val → t.flByte (updBase s + ofs + i) = bs.getD i 0#8) ∧
    (pages.val ≠ 0 → ∀ i, 256 * (pages.val + 1) ≤ i → i < 4096 → t.flByte (updBase s + ofs + i) = 0xFF#8) ∧
    ∀ k, (k < updBase s + ofs ∨ updBase s + ofs + 4096 ≤ k) → t.flByte k = s.flByte k := by
  obtain ⟨size, w, hsize, hsector, hrun⟩ := run_blockDone hwork hwf hlen pages false true
  have hn : donePages pages false true s = pages.val := by
    have := pages.isLt
    simp only [donePages, Bool.not_true, Bool.false_eq_true, false_and, if_false]
    omega
  rw [hn] at hsector
  have hset : Sets (failedFields 0x87) (withBoot w { w.hid.boot with work := none }) w ((blockDone pages false true).run s) := by
    rw [hrun, show blockVerdict size ofs false true s = seq [updCode 0x87, setB F.BOOT_EVENT_upd_fail] from rfl, run_seq_cons, run_seq_cons,
      run_seq_nil, setB_eq]
    exact ((sets_blockClosed w).then_setF F.BOOT_UPD_STAT_result 0x87).then_setF F.BOOT_EVENT_upd_fail 1
  obtain ⟨t, ht, hall⟩ := completes_after (exec_updBlockDone pages none true s) hsector.keeps.mode_eq hset (by decide)
  have hd := disjointFields_failed 0x87
  have hbyte := hall.flByte_eq
  refine ⟨t, ht, Sets.f_of_disjoint hd hall (v := 0x87) (by simp [failedFields]), Sets.on_of_disjoint hd hall (v := 1) (by simp [failedFields]) rfl, ?_,
    Sets.on_of_disjoint hd hall (v := 0) (by simp [failedFields, closedFields]) rfl, fun i hi => (hbyte _).trans (hsector.pages i hi),
    fun h0 i hlow hi => (hbyte _).trans (hsector.erased (decide_eq_false fun h => h0 h.1) i ?_ hi), fun k hk => (hbyte k).trans (hsector.outside k hk)⟩
  · rw [hall.hid_eq, ← hsector.keeps.boot]
    rfl
  · split <;> omega

/-- What a block that ends early leaves in the flash. -/
def Partly (ofs : Nat) (bs : List Byte) (n : Nat) (s t : State) : Prop :=
  (∀ i, i < 256 * n → t.flByte (updBase s + ofs + i) = bs.getD i 0#8) ∧
  (∀ i, 256 * n ≤ i → i < 4096 → t.flByte (updBase s + ofs + i) = 0xFF#8) ∧
  ∀ k, (k < updBase s + ofs ∨ updBase s + ofs + 4096 ≤ k) → t.flByte k = s.flByte k

omit hwork hwf hlen in
theorem Sector.partly {n m : Nat} {undef : Bool} {w t : State} {l : List (Fld × Nat)} {h : Hid} (hs : Sector (updBase s + ofs) n m bs undef s w)
    (hset : Sets l h w t) (hundef : undef = false) (hm : m = n) : Partly ofs bs n s t := by
  subst hm
  have hbyte := hset.flByte_eq
  exact ⟨fun i hi => (hbyte _).trans (hs.pages i hi), fun i hlow hi => (hbyte _).trans (hs.erased hundef i hlow hi),
    fun k hk => (hbyte k).trans (hs.outside k hk)⟩

/-- A loss of supply. -/
theorem completes_blockDone_lost (hlost : s.hid.pwr.trans = .toHarvest) : Completes (.updBlockDone pages none false) s fun t =>
    t.f F.BOOT_UPD_STAT_result = 0x86 ∧ t.f F.BOOT_UPD_STAT_detail = lossCode s ∧ t.on F.BOOT_EVENT_upd_fail = true ∧
    t.hid.boot.blocks = s.hid.boot.blocks ∧ t.on F.BOOT_UPD_STAT_busy = false ∧
    (∀ k, (k < updBase s + ofs ∨ updBase s + ofs + 4096 ≤ k) → t.flByte k = s.flByte k) ∧
    (pages.val ≠ 0 → Partly ofs bs pages s t) := by
  obtain ⟨size, w, hsize, hsector, hrun⟩ := run_blockDone hwork hwf hlen pages false false
  have hl : supplyLost s = true := decide_eq_true hlost
  have hn : donePages pages false false s = pages.val := by
    have := pages.isLt
    simp only [donePages, hl, Bool.not_true, Bool.false_eq_true, and_false, if_false]
    omega
  rw [hn] at hsector
  have hset : Sets (abandonedFields (lossCode s)) (withBoot w { w.hid.boot with work := none }) w ((blockDone pages false false).run s) := by
    have hverdict : blockVerdict size ofs false false s = seq [updCode 0x86, setF F.BOOT_UPD_STAT_detail (lossCode s), setB F.BOOT_EVENT_upd_fail] :=
      (if_neg Bool.false_ne_true).trans (if_pos hl)
    rw [hrun, hverdict, run_seq_cons, run_seq_cons, run_seq_cons, run_seq_nil, setB_eq]
    exact (((sets_blockClosed w).then_setF F.BOOT_UPD_STAT_result 0x86).then_setF F.BOOT_UPD_STAT_detail (lossCode s)).then_setF
      F.BOOT_EVENT_upd_fail 1
  obtain ⟨t, ht, hall⟩ := completes_after (exec_updBlockDone pages none false s) hsector.keeps.mode_eq hset
    (by simp +decide [abandonedFields, closedFields])
  have hd := disjointFields_abandoned (lossCode s)
  have hcode : lossCode s % 2 ^ (23 + 1 - 16) = lossCode s := by unfold lossCode; split <;> rfl
  refine ⟨t, ht, Sets.f_of_disjoint hd hall (v := 0x86) (by simp [abandonedFields]),
    (Sets.f_of_disjoint hd hall (v := lossCode s) (by simp [abandonedFields])).trans hcode,
    Sets.on_of_disjoint hd hall (v := 1) (by simp [abandonedFields]) rfl, ?_,
    Sets.on_of_disjoint hd hall (v := 0) (by simp [abandonedFields, closedFields]) rfl,
    fun k hk => (hall.flByte_eq k).trans (hsector.outside k hk), fun h0 => ?_⟩
  · rw [hall.hid_eq, ← hsector.keeps.boot]
    rfl
  · exact hsector.partly hall (decide_eq_false fun h => h0 h.1) (if_neg (by simp))

omit hwork hwf hlen in
theorem pageRefusal_lt (refused : Bool) (s : State) : pageRefusal refused s < 256 := by
  unfold pageRefusal
  split_ifs
  · decide
  · decide
  · show burstCode R.HARV_E_FLASH s < 256
    generalize R.HARV_E_FLASH = e
    unfold burstCode
    dsimp only
    split_ifs <;> omega

/-- A page whose burst is refused. -/
theorem completes_blockDone_refused (c : BitVec 4) (hc : pageRefusal true s ≠ 0) (hlost : s.hid.pwr.trans ≠ .toHarvest) :
    Completes (.updBlockDone pages (some c) false) s fun t => t.f F.BOOT_UPD_STAT_result = 0x86 ∧
      t.f F.BOOT_UPD_STAT_detail = pageRefusal true s ∧ t.on F.BOOT_EVENT_upd_fail = true ∧ t.hid.boot.blocks = s.hid.boot.blocks ∧
      t.on F.BOOT_UPD_STAT_busy = false ∧ Partly ofs bs pages s t := by
  obtain ⟨size, w, hsize, hsector, hrun⟩ := run_blockDone hwork hwf hlen pages true false
  have hl : supplyLost s = false := decide_eq_false hlost
  have hn : donePages pages true false s = pages.val := by
    have := pages.isLt
    simp only [donePages, hc, and_false, false_and, if_false]
    omega
  rw [hn] at hsector
  have hverdict : blockVerdict size ofs true false s = seq [updCode 0x86, setF F.BOOT_UPD_STAT_detail (pageRefusal true s),
      burstRefuse 3 (pageRefusal true s), setB F.BOOT_EVENT_upd_fail] := (if_neg Bool.false_ne_true).trans ((if_neg (by rw [hl]; decide)).trans (if_pos hc))
  have hcode := Nat.mod_eq_of_lt (pageRefusal_lt true s)
  obtain ⟨l, hset, hmem, hbeside, hspare⟩ := sets_refused (pageRefusal true s) ((seq blockClosed).run w)
  rw [← hverdict, ← hrun] at hset
  have hclosed := sets_blockClosed w
  obtain ⟨t, ht, hall⟩ := completes_after (exec_updBlockDone pages (some c) false s) hsector.keeps.mode_eq (hclosed.trans hset) fun x hx =>
    (List.mem_append.1 hx).elim closedFields_spare (hspare x)
  have hd := disjointFields_held (pageRefusal true s)
  have hall' := beside_held hbeside
  have hin : ∀ x ∈ refusedFields (pageRefusal true s), x ∈ closedFields ++ l := fun x hx => List.mem_append_right _ (hmem x hx)
  refine ⟨t, ht, Sets.f_of_core hd hall' hall (v := 0x86) (hin _ (.head _)) (.tail _ (.head _)),
    (Sets.f_of_core hd hall' hall (hin _ (.tail _ (.head _))) (.tail _ (.tail _ (.head _)))).trans hcode,
    Sets.on_of_core hd hall' hall (v := 1) (hin _ (.tail _ (.tail _ (.head _)))) (.tail _ (.tail _ (.tail _ (.head _)))) rfl, ?_,
    Sets.on_of_core hd hall' hall (v := 0) (List.mem_append_left _ (.head _)) (.head _) rfl,
    hsector.partly hall (decide_eq_false fun h => ?_) (if_neg (by simp))⟩
  · rw [hall.hid_eq, hclosed.hid_eq, ← hsector.keeps.boot]
    rfl
  · rw [hl] at h
    exact h.2.elim Bool.false_ne_true Bool.false_ne_true

end

end Sys2Proof.Machine
end

section
/-!
A block that lands (R466), and the check of the whole region after the last one (R467).
-/

namespace Sys2Proof.Machine

/-! ### The check of the region -/

section
variable {s t : State} (hflash : t.flash = s.flash) (hotp : t.hid.otp = s.hid.otp) (hkeys : t.hid.boot.keys = s.hid.boot.keys)
include hflash

theorem flashBytes_congr (a n : Nat) : flashBytes t a n = flashBytes s a n := by
  unfold flashBytes State.flByte
  rw [hflash]

theorem fwImage_congr (d : List Byte) : fwImage t d = fwImage s d := by
  unfold fwImage
  rw [flashBytes_congr hflash, flashBytes_congr hflash]

include hotp

omit hflash in
theorem fwHeader_congr (img : List Byte) (n : Nat) : fwHeader t img n = fwHeader s img n := by
  unfold fwHeader
  rw [hotp]

include hkeys

omit hflash in
theorem keySlots_congr : keySlots t = keySlots s := by
  unfold keySlots
  rw [hotp, hkeys]

omit hflash in
theorem fgCheck_congr (img : List Byte) : fgCheck t img = fgCheck s img := by
  unfold fgCheck
  rw [keySlots_congr hotp hkeys, hotp]

/-- The check of the region reads the flash, the key store, the keys held, the directory and the target. -/
theorem regionCheck_congr (hdir : t.hid.boot.dir = s.hid.boot.dir) (htarget : t.hid.boot.target = s.hid.boot.target) (readOk : Bool) :
    regionCheck t readOk = regionCheck s readOk := by
  unfold regionCheck fgRegion
  dsimp only
  rw [hdir, htarget, fwImage_congr hflash, fwHeader_congr hotp, keySlots_congr hotp hkeys, fgCheck_congr hotp hkeys, flashBytes_congr hflash]

end

/-- A read that fails never passes. -/
theorem regionCheck_of_unread (s : State) : regionCheck s false ≠ 0 := by
  unfold regionCheck fgRegion
  dsimp only
  split
  · exact (if_pos rfl).trans_ne (by decide)
  · exact (if_pos rfl).trans_ne (by decide)

/-- A region that passes ends the update. -/
def passedFields : List (Fld × Nat) := [(F.BOOT_UPD_STAT_result, 0), (F.BOOT_EVENT_upd_done, 1), (F.BOOT_STAT_state, 0)]

def passedHid (h : Hid) : Hid := { h with boot := { h.boot with upd := false, blocks := [] }, chnt := { h.chnt with sweepT := none } }

/-- One that fails has it sent again. -/
def resendFields (c : Nat) : List (Fld × Nat) :=
  [(F.BOOT_UPD_STAT_result, 0x88), (F.BOOT_UPD_STAT_detail, c), (F.BOOT_UPD_STAT_recv, 0), (F.BOOT_EVENT_upd_fail, 1)]

/-- What follows the check. -/
def finishActs (code : Nat) : Act :=
  if code = 0 then seq [updCode 0, setB F.BOOT_EVENT_upd_done, setF F.BOOT_STAT_state 0, romRuns,
    bootA fun b => { b with upd := false, blocks := [] }]
  else seq [updCode 0x88, setF F.BOOT_UPD_STAT_detail code, setF F.BOOT_UPD_STAT_recv 0, setB F.BOOT_EVENT_upd_fail,
    bootA fun b => { b with blocks := [] }]

theorem sets_finishActs_passed (u : State) : Sets passedFields (passedHid u.hid) u ((finishActs 0).run u) := by
  rw [finishActs, if_pos rfl, run_seq_cons, run_seq_cons, run_seq_cons, run_seq_cons, run_seq_cons, run_seq_nil, setB_eq]
  exact ((((Sets.setF F.BOOT_UPD_STAT_result 0 u).then_setF F.BOOT_EVENT_upd_done 1).then_setF F.BOOT_STAT_state 0).then_hidA fun h =>
    { h with chnt := { h.chnt with sweepT := none } }).then_hidA fun h => { h with boot := { h.boot with upd := false, blocks := [] } }

theorem sets_finishActs_resend {c : Nat} (hc : c ≠ 0) (u : State) :
    Sets (resendFields c) (withBoot u { u.hid.boot with blocks := [] }) u ((finishActs c).run u) := by
  rw [finishActs, if_neg hc, run_seq_cons, run_seq_cons, run_seq_cons, run_seq_cons, run_seq_cons, run_seq_nil, setB_eq]
  exact ((((Sets.setF F.BOOT_UPD_STAT_result 0x88 u).then_setF F.BOOT_UPD_STAT_detail c).then_setF F.BOOT_UPD_STAT_recv 0).then_setF
    F.BOOT_EVENT_upd_fail 1).then_hidA fun h => { h with boot := { h.boot with blocks := [] } }

theorem run_updFinish (v : State) : ∃ readOk, updFinish.run v = (finishActs (regionCheck v readOk)).run (freshA.run v) := by
  have hsame : regionCheck (freshA.run v) ((Config.freeEnv v.fresh).testBit 0) = regionCheck v ((Config.freeEnv v.fresh).testBit 0) :=
    regionCheck_congr rfl rfl rfl rfl rfl _
  refine ⟨(Config.freeEnv v.fresh).testBit 0, (run_withEnv _ v).trans ?_⟩
  rw [← hsame]
  unfold finishActs
  by_cases hc : regionCheck (freshA.run v) ((Config.freeEnv v.fresh).testBit 0) = 0
  · rw [if_pos hc]
    exact congrArg (applyAll · (freshA.run v)) (if_pos hc)
  · rw [if_neg hc]
    exact congrArg (applyAll · (freshA.run v)) (if_neg hc)

/-- The region passes, or is sent again. -/
theorem sets_updFinish (v : State) : regionCheck v true = 0 ∧ Sets passedFields (passedHid v.hid) v (updFinish.run v) ∨
    ∃ readOk, Sets (resendFields (regionCheck v readOk)) (withBoot v { v.hid.boot with blocks := [] }) v (updFinish.run v) := by
  have hfresh := (Sets.refl v).then_freshA
  obtain ⟨readOk, hrun⟩ := run_updFinish v
  rw [hrun]
  by_cases hc : regionCheck v readOk = 0
  · cases readOk with
    | false => exact absurd hc (regionCheck_of_unread v)
    | true =>
      rw [hc]
      exact .inl ⟨rfl, hfresh.trans (sets_finishActs_passed _)⟩
  · exact .inr ⟨readOk, hfresh.trans (sets_finishActs_resend hc _)⟩

/-! ### A block that lands -/

/-- Fields of a block that has landed as the `n`-th. -/
def landedFields (n : Nat) : List (Fld × Nat) :=
  closedFields ++ [(F.BOOT_UPD_STAT_result, 0), (F.BOOT_EVENT_block_done, 1), (F.BOOT_UPD_STAT_recv, n)]

theorem disjointFields_landed (n : Nat) : DisjointFields (landedFields n) := by
  refine ⟨?_, ?_⟩
  · simp [landedFields, closedFields, F.BOOT_UPD_STAT_busy, F.BOOT_STAT_state, F.BOOT_UPD_STAT_result, F.BOOT_EVENT_block_done,
      F.BOOT_UPD_STAT_recv]
  · simp [landedFields, closedFields, Clear, F.BOOT_UPD_STAT_busy, F.BOOT_STAT_state, F.BOOT_UPD_STAT_result, F.BOOT_EVENT_block_done,
      F.BOOT_UPD_STAT_recv, R.BOOT_UPD_STAT, R.BOOT_STAT, R.BOOT_EVENT]

theorem disjointFields_passed : DisjointFields passedFields := by
  refine ⟨?_, ?_⟩
  · simp [passedFields, F.BOOT_UPD_STAT_result, F.BOOT_EVENT_upd_done, F.BOOT_STAT_state]
  · simp [passedFields, Clear, F.BOOT_UPD_STAT_result, F.BOOT_EVENT_upd_done, F.BOOT_STAT_state, R.BOOT_UPD_STAT, R.BOOT_STAT, R.BOOT_EVENT]

theorem disjointFields_resend (c : Nat) : DisjointFields (resendFields c) := by
  refine ⟨?_, ?_⟩
  · simp [resendFields, F.BOOT_UPD_STAT_result, F.BOOT_UPD_STAT_detail, F.BOOT_UPD_STAT_recv, F.BOOT_EVENT_upd_fail]
  · simp [resendFields, Clear, F.BOOT_UPD_STAT_result, F.BOOT_UPD_STAT_detail, F.BOOT_UPD_STAT_recv, F.BOOT_EVENT_upd_fail,
      R.BOOT_UPD_STAT, R.BOOT_EVENT]

/-- What the blocks hold once the block has landed. -/
def landedHid (w : State) (got : List Nat) : Hid := withBoot w { w.hid.boot with work := none, blocks := got }

/-- A block that lands, up to the check of the region. -/
theorem sets_blockLanded (size ofs : Nat) (s w : State) : ∃ v, Sets (landedFields (gotBlocks s ofs).length) (landedHid w (gotBlocks s ofs)) w v ∧
    (blockLanded size ofs s).run ((seq blockClosed).run w) =
      if s.hid.boot.total ≤ size * (gotBlocks s ofs).length then updFinish.run v else v := by
  rw [blockLanded, run_seq_cons, run_seq_cons, run_seq_cons, run_seq_cons, run_seq_cons, run_seq_nil, setB_eq, run_only]
  simp only [decide_eq_true_eq]
  exact ⟨_, ((((sets_blockClosed w).then_setF F.BOOT_UPD_STAT_result 0).then_setF F.BOOT_EVENT_block_done 1).then_setF F.BOOT_UPD_STAT_recv
    (gotBlocks s ofs).length).then_hidA fun h => { h with boot := { h.boot with blocks := gotBlocks s ofs } }, rfl⟩

/-- What every block that lands leads to. -/
structure Lands (ofs : Nat) (bs : List Byte) (s t : State) : Prop where
  bytes : ∀ i, i < 4096 → t.flByte (updBase s + ofs + i) = bs.getD i 0#8
  outside : ∀ k, (k < updBase s + ofs ∨ updBase s + ofs + 4096 ≤ k) → t.flByte k = s.flByte k
  busy : t.on F.BOOT_UPD_STAT_busy = false
  work : t.hid.boot.work = none
  done : t.on F.BOOT_EVENT_block_done = true
  lpddr : t.lpddr = s.lpddr
  sram : t.sram = s.sram
  now : t.now = s.now

/-- From a block that has landed to what follows it: the fields that show it stay, and so does what it left. -/
theorem Lands.of_sets {ofs n m k : Nat} {bs : List Byte} {s w v t : State} {undef : Bool} {l : List (Fld × Nat)} {g h : Hid} (hn : n = 16)
    (hsector : Sector (updBase s + ofs) n m bs undef s w) (hv : Sets (landedFields k) g w v) (ht : Sets l h v t)
    (hbusy : ∀ x ∈ l, x.1.Apart F.BOOT_UPD_STAT_busy) (hdone : ∀ x ∈ l, x.1.Apart F.BOOT_EVENT_block_done) (hwork : h.boot.work = none) :
    Lands ofs bs s t := by
  subst hn
  have hd := disjointFields_landed k
  have hbyte : ∀ j, t.flByte j = w.flByte j := fun j => (ht.flByte_eq j).trans (hv.flByte_eq j)
  have hwt := hv.trans ht
  obtain ⟨-, ⟨hlp, -, hsr⟩, hnow, -⟩ := id hwt
  exact ⟨fun i hi => (hbyte _).trans (hsector.pages i hi), fun j hj => (hbyte j).trans (hsector.outside j hj),
    (ht.on_of_apart hbusy).trans (Sets.on_of_disjoint hd hv (v := 0) (by simp [landedFields, closedFields]) rfl), by rw [ht.hid_eq, hwork],
    (ht.on_of_apart hdone).trans (Sets.on_of_disjoint hd hv (v := 1) (by simp [landedFields]) rfl), hlp.trans hsector.keeps.lpddr,
    hsr.trans hsector.keeps.sram, hnow.trans hsector.keeps.now⟩

/-- A region that passed. -/
theorem passed_of_sets {v t : State} (h : Sets passedFields (passedHid v.hid) v t) (hpass : regionCheck v true = 0) :
    t.f F.BOOT_UPD_STAT_result = 0 ∧ t.on F.BOOT_EVENT_upd_done = true ∧ t.f F.BOOT_STAT_state = 0 ∧ t.hid.boot.upd = false ∧
      t.hid.chnt.sweepT = none ∧ regionCheck t true = 0 := by
  have hd := disjointFields_passed
  obtain ⟨-, ⟨-, hflash, -⟩, -⟩ := id h
  refine ⟨Sets.f_of_disjoint hd h (v := 0) (.head _), Sets.on_of_disjoint hd h (v := 1) (.tail _ (.head _)) rfl,
    Sets.f_of_disjoint hd h (v := 0) (.tail _ (.tail _ (.head _))), by rw [h.hid_eq]; rfl, by rw [h.hid_eq]; rfl, ?_⟩
  rw [regionCheck_congr hflash (by rw [h.hid_eq]; rfl) (by rw [h.hid_eq]; rfl) (by rw [h.hid_eq]; rfl) (by rw [h.hid_eq]; rfl), hpass]

/-- One that is sent again. -/
theorem resend_of_sets {v t : State} {readOk : Bool}
    (h : Sets (resendFields (regionCheck v readOk)) (withBoot v { v.hid.boot with blocks := [] }) v t) :
    t.f F.BOOT_UPD_STAT_result = 0x88 ∧ t.f F.BOOT_UPD_STAT_recv = 0 ∧ t.on F.BOOT_EVENT_upd_fail = true ∧
      (t.f F.BOOT_UPD_STAT_detail = regionCheck t true % 256 ∨ t.f F.BOOT_UPD_STAT_detail = regionCheck t false % 256) := by
  have hd := disjointFields_resend (regionCheck v readOk)
  obtain ⟨-, ⟨-, hflash, -⟩, -⟩ := id h
  have hsame : regionCheck t readOk = regionCheck v readOk :=
    regionCheck_congr hflash (by rw [h.hid_eq]; rfl) (by rw [h.hid_eq]; rfl) (by rw [h.hid_eq]; rfl) (by rw [h.hid_eq]; rfl) readOk
  have hdetail : t.f F.BOOT_UPD_STAT_detail = regionCheck t readOk % 256 := by
    rw [hsame]
    exact Sets.f_of_disjoint hd h (.tail _ (.head _))
  refine ⟨Sets.f_of_disjoint hd h (v := 0x88) (.head _), Sets.f_of_disjoint hd h (v := 0) (.tail _ (.tail _ (.head _))),
    Sets.on_of_disjoint hd h (v := 1) (.tail _ (.tail _ (.tail _ (.head _)))) rfl, ?_⟩
  cases readOk with
  | true => exact .inl hdetail
  | false => exact .inr hdetail

section
variable {s : State} {ofs : Nat} {bs : List Byte} (hwork : s.hid.boot.work = some (ofs, bs)) (hwf : s.wf = true) (hlen : bs.length = 4096)
  (pages : Fin 17) (hlost : s.hid.pwr.trans ≠ .toHarvest)
include hwork hwf hlen hlost

/-- The end of a block that nothing hinders. -/
theorem run_blockDone_lands : ∃ w v m undef, Sector (updBase s + ofs) 16 m bs undef s w ∧
    Sets (landedFields (gotBlocks s ofs).length) (landedHid w (gotBlocks s ofs)) w v ∧
    (blockDone pages false false).run s = if s.hid.boot.total ≤ 4096 * (gotBlocks s ofs).length then updFinish.run v else v := by
  obtain ⟨size, w, hsize, hsector, hrun⟩ := run_blockDone hwork hwf hlen pages false false
  have hl : supplyLost s = false := decide_eq_false hlost
  have hn : donePages pages false false s = 16 := if_pos ⟨rfl, rfl, by rw [hl]; rfl⟩
  have hverdict : blockVerdict size ofs false false s = blockLanded size ofs s :=
    (if_neg Bool.false_ne_true).trans ((if_neg (by rw [hl]; decide)).trans (if_neg (not_not_intro rfl)))
  obtain ⟨v, hv, hend⟩ := sets_blockLanded size ofs s w
  rw [hn] at hsector
  rw [hverdict, hend, hsize] at hrun
  exact ⟨w, v, _, _, hsector, hv, hrun⟩

/-- A block after which others are to come. -/
theorem completes_blockDone_landed (hlast : ¬ s.hid.boot.total ≤ 4096 * (gotBlocks s ofs).length) :
    Completes (.updBlockDone pages none false) s fun t => Lands ofs bs s t ∧ t.f F.BOOT_UPD_STAT_result = 0 ∧
      t.f F.BOOT_UPD_STAT_recv = (gotBlocks s ofs).length % 4096 ∧ t.hid.boot.blocks = gotBlocks s ofs ∧ t.f F.BOOT_STAT_state = 2 ∧
      t.hid.boot.upd = s.hid.boot.upd := by
  obtain ⟨w, v, m, undef, hsector, hv, hrun⟩ := run_blockDone_lands hwork hwf hlen pages hlost
  rw [if_neg hlast] at hrun
  obtain ⟨t, ht, hall⟩ := completes_after (exec_updBlockDone pages none false s) hsector.keeps.mode_eq (hrun ▸ hv) (by
    simp +decide [landedFields, closedFields])
  have hd := disjointFields_landed (gotBlocks s ofs).length
  refine ⟨t, ht, .of_sets (t := t) (l := []) rfl hsector hall (Sets.refl t) (by simp) (by simp) (by rw [hall.hid_eq]; rfl),
    Sets.f_of_disjoint hd hall (v := 0) (by simp [landedFields]), Sets.f_of_disjoint hd hall (by simp [landedFields]), by rw [hall.hid_eq]; rfl,
    Sets.f_of_disjoint hd hall (v := 2) (by simp [landedFields, closedFields]), ?_⟩
  rw [hall.hid_eq, ← hsector.keeps.boot]
  rfl

/-- The last block. -/
theorem completes_blockDone_last (hlast : s.hid.boot.total ≤ 4096 * (gotBlocks s ofs).length) :
    Completes (.updBlockDone pages none false) s fun t => Lands ofs bs s t ∧ t.hid.boot.blocks = [] ∧
      (t.f F.BOOT_UPD_STAT_result = 0 ∧ t.on F.BOOT_EVENT_upd_done = true ∧ t.f F.BOOT_STAT_state = 0 ∧
          t.hid.boot.upd = false ∧ t.hid.chnt.sweepT = none ∧ regionCheck t true = 0 ∨
        t.f F.BOOT_UPD_STAT_result = 0x88 ∧ t.f F.BOOT_UPD_STAT_recv = 0 ∧ t.on F.BOOT_EVENT_upd_fail = true ∧
          t.f F.BOOT_STAT_state = 2 ∧ t.hid.boot.upd = s.hid.boot.upd ∧
          (t.f F.BOOT_UPD_STAT_detail = regionCheck t true % 256 ∨ t.f F.BOOT_UPD_STAT_detail = regionCheck t false % 256)) := by
  obtain ⟨w, v, m, undef, hsector, hv, hrun⟩ := run_blockDone_lands hwork hwf hlen pages hlost
  rw [if_pos hlast] at hrun
  have hmode : v.mode = s.mode := (hv.mode (by simp +decide [landedFields, closedFields])).trans hsector.keeps.mode_eq
  obtain ⟨hpass, hset⟩ | ⟨readOk, hset⟩ := sets_updFinish v
  · rw [← hrun] at hset
    obtain ⟨t, ht, hall⟩ := completes_after (exec_updBlockDone pages none false s) hmode hset (by decide)
    have hlands : Lands ofs bs s t := .of_sets rfl hsector hv hall (by simp +decide [passedFields, Fld.Apart]) (by simp +decide [passedFields, Fld.Apart])
      (by rw [hv.hid_eq]; rfl)
    exact ⟨t, ht, hlands, by rw [hall.hid_eq]; rfl, .inl (passed_of_sets hall hpass)⟩
  · rw [← hrun] at hset
    obtain ⟨t, ht, hall⟩ := completes_after (exec_updBlockDone pages none false s) hmode hset (by simp +decide [resendFields])
    have hlands : Lands ofs bs s t := .of_sets rfl hsector hv hall (by simp +decide [resendFields, Fld.Apart])
      (by simp +decide [resendFields, Fld.Apart])
      (by rw [hv.hid_eq]; rfl)
    have hstate : t.f F.BOOT_STAT_state = v.f F.BOOT_STAT_state := hall.f_of_apart (by simp +decide [resendFields, Fld.Apart])
    have hupd : t.hid.boot.upd = s.hid.boot.upd := by
      rw [hall.hid_eq, ← hsector.keeps.boot, hv.hid_eq]
      rfl
    obtain ⟨hresult, hrecv, hfail, hdetail⟩ := resend_of_sets hall
    exact ⟨t, ht, hlands, by rw [hall.hid_eq]; rfl, .inr ⟨hresult, hrecv, hfail, hstate.trans (Sets.f_of_disjoint
      (disjointFields_landed (gotBlocks s ofs).length) hv (v := 2) (by simp [landedFields, closedFields])), hupd, hdetail⟩⟩

end

end Sys2Proof.Machine
end

section
/-!
The obligation on updates.
-/

namespace Sys2Proof.Machine

/-- The check of a START as its rule writes it. -/
theorem startCheck_eq (p : Port) (target : Nat) (readOk : Bool) (s : State) : (if p = Port.fw then 0x81
    else if s.mode ≠ DORMANT ∧ s.mode ≠ CONFIGURE then 0x80
    else if bootBusy s ∨ s.f F.FING_STAT_loader ≠ 0 then 0x8B
    else if readOk = false ∨ dirCheck (flashBytes s 0 4096) ≠ 0 then 0x70
    else if at32 (flashBytes s 0 4096) (if target = 0 then 0x0C else 0x14) < (s.rd R.BOOT_UPD_TOTAL).toNat then 0x85 else 0) =
    startCheck p target readOk s := by
  unfold startCheck
  cases readOk
  · simp
  · simp

/-- A START is accepted in DORMANT and CONFIGURE only. -/
theorem mode_of_startCheck {p : Port} {target : Nat} {readOk : Bool} {s : State} (h : startCheck p target readOk s = 0) : s.mode ≠ HALT := by
  intro hm
  have hmode : s.mode ≠ DORMANT ∧ s.mode ≠ CONFIGURE := by rw [hm]; decide
  by_cases hp : p = .fw
  · exact absurd ((if_pos hp).symm.trans h) (by decide)
  · exact absurd (((if_neg hp).trans (if_pos hmode)).symm.trans h) (by decide)

/-- What an update that has begun shows. -/
theorem Began.shown {s u t : State} {target : Nat} (hu : Sets (startFields s) (startedUpdHid s target) s u) (h : Began s.mode u t) :
    t.f F.BOOT_STAT_state = 2 ∧ t.on F.CHNT_STAT_running = false ∧ t.hid.chnt.test = true ∧
      t.hid.boot.keys = keysOf s (flashBytes s 0 4096) ∧ t.hid.boot.dir = flashBytes s 0 4096 ∧ (t.mode = s.mode →
        t.rd R.BOOT_UPD_STAT = 0#32 ∧ t.hid.boot.upd = true ∧ t.hid.boot.target = target ∧ t.hid.boot.total = (s.rd R.BOOT_UPD_TOTAL).toNat ∧
        t.hid.boot.blocks = [] ∧ t.hid.boot.work = none) ∧ SameMem s t ∧ t.now = s.now := by
  have hd := disjointFields_start s
  obtain ⟨-, ⟨hlp, hfl, hsr⟩, hnow, hhid, -⟩ := id hu
  obtain ⟨hlp', hfl', hsr'⟩ := h.mem
  have hf : ∀ y : Fld, Held y.off → y.off ≠ R.BOOT_UPD_STAT → y.off ≠ R.BOOT_EVENT → t.f y = u.f y := fun y hy hs he =>
    congrArg y.get (h.regs _ hy hs he)
  have hrun : t.on F.CHNT_STAT_running = u.on F.CHNT_STAT_running := by
    rw [State.on, hf _ (.inr rfl) (by decide) (by decide)]
    rfl
  refine ⟨(hf _ (.inl (by decide)) (by decide) (by decide)).trans (Sets.f_of_disjoint hd hu (v := 2) (by simp [startFields])),
    hrun.trans (Sets.on_of_disjoint hd hu (v := 0) (by simp [startFields]) rfl), by rw [h.test, hhid]; rfl, by rw [h.keys, hhid]; rfl,
    by rw [h.dir, hhid, startedUpdHid, startedUpd], fun hm => ?_, ⟨hlp'.trans hlp, hfl'.trans hfl, hsr'.trans hsr⟩, h.now.trans hnow⟩
  obtain ⟨hstat, hboot⟩ := h.stays hm
  have hboot' : t.hid.boot = startedUpd s target := by rw [hboot, hhid]; rfl
  have hword : (wordFld R.BOOT_UPD_STAT, (0#32).toNat) ∈ startFields s := List.mem_cons_self
  rw [hboot']
  exact ⟨hstat.trans (Sets.rd_of_disjoint hd hu hword), rfl, rfl, rfl, rfl, rfl⟩

/-- Settles O58: the commands are judged in their order; a block that ends leaves its sector and is judged; NRST, a loss of energy and a
change of mode abandon the update. -/
theorem updatesAreCheckedLandAndEnd : Obligations.UpdatesAreCheckedLandAndEnd := by
  unfold Obligations.UpdatesAreCheckedLandAndEnd
  refine ⟨fun s p v hl => ?_, ⟨fun s pages ofs bs hwf hwork hlen => ?_, fun s dumpOk hup ht hupd => ?_,
    fun c s t he hs ht hmode hd hc => upd_of_mode_changed he hs ht hmode hd hc⟩⟩
  · intro d code fw ofs buf blk
    have hblk : blk = blockCheck s := rfl
    refine ⟨fun readOk => ?_, completes_updBlock_firmware hl, completes_updBlock_busy hl, fun hp hb hupd hc => ?_,
      fun hp hb hupd hc hf => ?_, fun hp hb hupd hc hf => ?_, completes_updAbort_firmware hl, completes_updAbort_busy hl, completes_updAbort hl⟩
    · intro t0 start
      have hstart : start = startCheck p t0 readOk s := startCheck_eq p t0 readOk s
      rw [hstart]
      by_cases h : startCheck p t0 readOk s = 0
      · obtain ⟨t, ht, u, hu, hbegan⟩ := completes_updStart hl h (mode_of_startCheck h)
        exact ⟨t, ht, fun hn => absurd h hn, fun _ => hbegan.shown hu⟩
      · obtain ⟨t, ht, hset⟩ := completes_updStart_refused hl h
        exact ⟨t, ht, fun _ => hset, fun h0 => absurd h0 h⟩
    · rw [hblk] at hc ⊢
      exact completes_updBlock_checked hl hp hb hupd hc
    · rw [hblk] at hc
      exact completes_updBlock_refused hl hp hb hupd hc hf
    · rw [hblk] at hc
      exact completes_updBlock_begins hl hp hb hupd hc hf
  · intro a got last lands outside partly
    have hland : ∀ t, Lands ofs bs s t → lands t := fun t h => ⟨h.bytes, h.outside, h.busy, h.work, h.done, h.lpddr, h.sram, h.now⟩
    refine ⟨fun hlost hlast => ?_, fun hlost hlast => ?_, fun c hc hlost => completes_blockDone_refused hwork hwf hlen pages c hc hlost,
      fun hlost => completes_blockDone_lost hwork hwf hlen pages hlost, completes_blockDone_failed hwork hwf hlen pages⟩
    · obtain ⟨t, ht, h, hrest⟩ := completes_blockDone_landed hwork hwf hlen pages hlost hlast
      exact ⟨t, ht, hland t h, hrest⟩
    · obtain ⟨t, ht, h, hrest⟩ := completes_blockDone_last hwork hwf hlen pages hlost hlast
      exact ⟨t, ht, hland t h, hrest⟩
  · intro abandons
    have hab : ∀ t, Abandoned s t → abandons t := fun t h => ⟨h.result, h.fail, h.recv, h.busy, h.boot, h.kept, h.outside⟩
    have hall : ∀ c, Completes c s (Abandoned s) → Completes c s abandons := fun c ⟨t, ht, h⟩ => ⟨t, ht, hab t h⟩
    exact ⟨hall _ (completes_nrstLow_abandons dumpOk hup ht hupd), hall _ (completes_vsupFail_abandons dumpOk hup ht hupd),
      fun hvb hwork => hall _ (completes_storeAbort_abandons dumpOk hup ht hupd hvb hwork)⟩

end Sys2Proof.Machine
end
